-- ==== Sys2Proof/Word.lean ====
section
/-! DEFINITION. The words of the part and their plainest arithmetic. -/

namespace Sys2Proof

/-- A byte. -/
abbrev Byte := BitVec 8

/-- A 16-bit half word. -/
abbrev Half := BitVec 16

/-- A 32-bit register or table word. -/
abbrev Word := BitVec 32

/-- A 64-bit quantity. -/
abbrev Dword := BitVec 64

/-- The four byte lanes of a register access (R147, R187): bit k enables bits [8k+7:8k]. -/
abbrev Lanes := BitVec 4

/-- A counter of the manual: it saturates at its all-ones value (R7). -/
def ctrInc {w : Nat} (x : BitVec w) : BitVec w := if x = BitVec.allOnes w then x else x + 1

/-- A counter raised by n, saturating (R7). -/
def ctrAdd {w : Nat} (x : BitVec w) (n : Nat) : BitVec w :=
  if x.toNat + n ≥ 2 ^ w then BitVec.allOnes w else x + BitVec.ofNat w n

end Sys2Proof
end

