-- ==== Sys2Proof/Syntax.lean ====
section
/-! DEFINITION. The commands of the block, one constructor for each row of spec/opcode_table.json, and the
operand types they carry. What the outside world supplies with an event (levels, frames, measured results)
is an operand of the command. -/

namespace Sys2Proof

/-- The two control paths (R153, R155). -/
inductive Path where
  | cport | mirror
  deriving DecidableEq, Repr

/-- The levels of the supplies and of the two power pins, as the power-fail detector sees them (R82, R109). -/
structure Supplies where
  /-- VCORE in millivolts. -/
  vcoreMv : Nat
  /-- VSTBY above its 0.80 V limit. -/
  vstby : Bool
  vioH : Bool
  vio18 : Bool
  vio33 : Bool
  vioA : Bool
  /-- bank A runs at 3.3 V. -/
  vioA33 : Bool
  /-- the level of PFAIL_N. -/
  pfailPin : Bool
  /-- the level of WAKE_N. -/
  wakePin : Bool
  deriving DecidableEq, Repr

/-- The levels of the pins at a TICK: the SDn_CD_N, bit n 1 where SDn_CD_N is low; VCORE in millivolts, PFAIL_N and WAKE_N
high, HB_BUSY_N seen busy, whoever drives it, and HB_BGNT_N seen granting (R109, R209, R318). -/
structure PinLevels where
  cd : Byte
  vcoreMv : Nat
  pfail : Bool
  wake : Bool
  busy : Bool
  gnt : Bool
  deriving DecidableEq, Repr

/-- The source of a power-fail trip (R84, R119). -/
inductive TripSrc where
  | vcore | pfail | vio18 | vstby | xin
  deriving DecidableEq, Repr

/-- What becomes of the program operation that is in flight in the Sketchbook or the NV area when the units stop (R85,
R125, R126): it ends on the program timer; it is cut short; or it is a body page of an NV commit. -/
inductive ProgEnd where
  | ends | torn | body
  deriving DecidableEq, Repr

/-- What the self-checks of canvas memory and of the Sketchbook find on a command's data as its effect goes on: nothing,
a fault of canvas memory, or a page that fails its check (R290, R373). -/
inductive SelfCheck where
  | ok | canvas | page
  deriving DecidableEq, Repr

/-- The effect of the READ or WRITE in a CMD_SLOT goes on, with what the self-checks find on its data (R280, R281,
R290). -/
structure SlotRun where
  slot : Nat
  check : SelfCheck
  deriving DecidableEq, Repr

/-- A supply bank that can be absent while VCORE is present (R69). -/
inductive Bank where
  | h | b18 | b33 | sn (port : Fin 8) | a
  deriving DecidableEq, Repr

/-- The seven strap levels (R71). -/
structure Straps where
  role : Bool
  dialect : BitVec 2
  width : BitVec 2
  ctlmir : Bool
  hold : Bool
  deriving DecidableEq, Repr

/-- One CPORT frame: the ten bytes of R139, and whether it began before the frame before it had finished
executing (R143, NO_RESPONSE). -/
structure Frame where
  bytes : Vector Byte 10
  early : Bool
  deriving DecidableEq, Repr

/-- A ring packet without its kind (R477): its channel, the header's fields and its data flits. -/
structure Pkt where
  ch : Fin 3
  dst : BitVec 4
  src : BitVec 4
  lseq : BitVec 6 := 0
  bcast : Bool := false
  path : Bool := false
  epoch : Byte := 0
  tag : Byte := 0
  arg : Half := 0
  flits : List Dword := []
  deriving DecidableEq, Repr

/-- The sampling phases that pass the tuning blocks of each tuned mode, a bit for each of 32 (R325). -/
structure Tunes where
  sdr104 : Word := 0
  sdr50 : Word := 0
  hs200 : Word := 0
  deriving DecidableEq, Repr

/-- What an attempt of a member operation ends in (R335 to R337): success with the sectors that a read gave; a link
error; an error that the card reports, with the sectors that a read gave before the first unreadable one; each with the
tuning that follows it in a tuned mode. -/
inductive OpResult where
  | ok (data : Vector (BitVec 4096) 512)
  | linkError (tunes : Tunes)
  | cardError (good : Nat) (data : Vector (BitVec 4096) 512) (tunes : Tunes)
  deriving DecidableEq, Repr

/-- What a card answers while the port identifies it (R320 to R328): to CMD1 within 64 clock cycles with the pads at
VIO_18, and at 3.3 V; to ACMD41, ready within 1 s; to CMD8 as a v2 card; CCS and S18A; whether its switch to 1.8 V works;
whether its CSD has version 3, and whether its SCR allows the 4-bit bus; the mode codes and the current limits that it
supports, a bit each; the sampling phases that pass; the erased value, the capacity in sectors and the CID register; the
duration in ms; and each signature copy, none where it was unreadable. -/
structure CardIdent where
  emmc18 : Bool
  emmc33 : Bool
  sd : Bool
  v2 : Bool
  ccs : Bool
  s18a : Bool
  switches : Bool
  sduc : Bool
  wide : Bool
  modes : Half
  limits : BitVec 4
  tunes : Tunes
  eraseOnes : Bool
  capacity : Dword
  cid : Vector Byte 16
  ms : Half
  copyA : Option (Vector (BitVec 4096) 8)
  copyB : Option (Vector (BitVec 4096) 8)
  deriving DecidableEq, Repr

/-- The commands of the block: one constructor for each row of the table of operations and events. -/
inductive Instr where
  /-- `POWER_ON` (R112). VSTBY or VCORE rises from below its reset level, which starts a class P reset. -/
  | powerOn (sup : Supplies) (vstby : Bool)
  /-- `POWER_GOOD_MET` (R82). The power-good conditions have held for 24 576 XIN periods, so a class P or D reset may end, or a tripped part restarts through a class P reset. -/
  | powerGoodMet (sup : Supplies)
  /-- `RESET_END` (R72). 64 XIN periods after RESET_N is high and power-good is met, the class P or D reset ends and the part enters LEVEL0 in bypass. -/
  | resetEnd (straps : Straps)
  /-- `RESET_N_LOW` (R112). RESET_N is held low for 1 µs or more, which starts a class D reset. -/
  | resetNLow (cut : ProgEnd)
  /-- `POWER_FAIL_TRIP` (R85). VCORE falls below the VPF_SEL trip level, PFAIL_N goes low, VIO_18 is lost or VSTBY falls: the part stops its clocks, finishes the Sketchbook program in flight and releases the bus. -/
  | powerFailTrip (src : TripSrc) (sup : Supplies) (cut : ProgEnd)
  /-- `XIN_LOSS` (R107). No XIN edge is seen for 1 µs: XIN_OK clears and the part stops as after a trip. -/
  | xinLoss (cut : ProgEnd)
  /-- `BANK_ABSENT` (R69). A VIO bank is lost while VCORE is present, with the per-bank effects of the table. -/
  | bankAbsent (b : Bank) (cut : ProgEnd)
  /-- `PLL_LOCK` (R100). The PLL locks and the core moves from XIN to CCLK at the next TICK boundary. -/
  | pllLock (ticks : Byte)
  /-- `PLL_LOCK_LOSS` (R572). The PLL loses lock: LOCK_LOSS_COUNT rises, PLL_LOST is logged, the core moves to XIN and the part falls to LEVEL0. -/
  | pllLockLoss (elapsed : Nat) (cut : ProgEnd)
  /-- `PLL_LOCK_RETRY` (R572). Every 1 ms while the PLL is unlocked, the part retries lock. -/
  | pllLockRetry
  /-- `SELF_CHECKS_DONE` (R128). The canvas and Sketchbook self-checks of stage 4 end, loading the tables or holding the part with SKB_FAULT or CANVAS_FAULT. -/
  | selfChecksDone (skb canvas : Option Word)
  /-- `DISCOVERY_DEADLINE` (R128). 2.000 s after stage 3 the discovery deadline passes, and the restart path goes on without late ports and nodes. -/
  | discoveryDeadline
  /-- `ASSEMBLY` (R358). An array with at most one lacking role is assembled, its role indices are recorded and it moves to REPLAYING. -/
  | assembly (a : Fin 4)
  /-- `REPLAY_STRIPE` (R390). The unretired records of one stripe are replayed as a flush. -/
  | replayStripe (a : Fin 4) (stripe : Nat)
  /-- `LEVEL1_ENTRY` (R543). Stage 7 ends with the LEVEL1 conditions met, and the part rises to LEVEL1. -/
  | level1Entry (tier2 : Option (Half × Half))
  /-- `LEVEL2_ENTRY` (R543). The HBU, queue engine and DMA self-checks of stage 9 pass on a manager with defined straps, and the part rises to LEVEL2. -/
  | level2Entry (fail : Option (Fin 3 × Word))
  /-- `CTRL_RST` (R118). An armed write of RST_CTRL.CTRL_RST is accepted, and a class C reset is scheduled. -/
  | ctrlRst (p : Path)
  /-- `CONTROL_RESET_START` (R118). 10 µs after the accepted CTRL_RST write, the class C reset begins and clears its state. -/
  | controlResetStart (cut : ProgEnd)
  /-- `PORT_RST` (R127). An armed PORT_RST bit resets a member port: operations are aborted, the card is power-cycled and identified again. -/
  | portRst (p : Path) (mask : Byte)
  /-- `PORT_RESET_LOST` (R127). The reset port's card does not return with a matching signature within 1 s, so the member becomes MISSING. -/
  | portResetLost (p : Fin 8)
  /-- `NV_CLEAR` (R133). An armed NV_CLEAR while NVCFG_LOST is shown programs both copy headers to zero. -/
  | nvClear (p : Path)
  /-- `REQ_RUN` (R545). A write of PWR_CTRL.REQ = RUN completes with REQ_RESULT DONE and changes nothing. -/
  | reqRun (p : Path)
  /-- `REQ_NAP` (R89). A NAP request is checked for level and idle, and accepted or refused. -/
  | reqNap (p : Path)
  /-- `REQ_DOZE` (R89). A DOZE request is checked and, on a manager, ordered to every worker. -/
  | reqDoze (p : Path)
  /-- `REQ_STANDBY` (R89). An armed STANDBY request is accepted with ENTERING and starts the power-state flush, or is refused. -/
  | reqStandby (p : Path)
  /-- `VPF_SEL_WRITE` (R87). A write of VPF_SEL is applied, or refused with a VPF_REFUSED note when it is reserved or its release level is above VCORE. -/
  | vpfSelWrite (p : Path) (code : BitVec 3)
  /-- `AUTO_NAP_EXPIRY` (R97). The idle condition has held for 2^(n−1) ms, and the part requests NAP by itself. -/
  | autoNapExpiry
  /-- `NAP_COMMIT` (R90). The NAP commit point gates the clocks, after the idle condition is checked again. -/
  | napCommit
  /-- `DOZE_COMMIT` (R90). Every worker has acknowledged, and the PLL is stopped for DOZE. -/
  | dozeCommit (elapsed : Nat)
  /-- `STANDBY_COMMIT` (R94). The flush has retired, the session word is CLOSED, SUP_EN falls and the core is held in reset. -/
  | standbyCommit
  /-- `WAKE_N_ASSERTED` (R91). WAKE_N is held low long enough while WAKE_PIN_EN is 1, and the part wakes from NAP, DOZE or STANDBY. -/
  | wakeNAsserted
  /-- `WAKE_TIMER_EXPIRY` (R98). WAKE_TIME × 1024 standby-oscillator periods have passed since the commit point, and the part wakes. -/
  | wakeTimerExpiry
  /-- `STANDBY_EXIT_TIMEOUT` (R94). Power-good is not met within 100 ms of a STANDBY exit, so SUP_EN falls and WAKE_FAIL is set. -/
  | standbyExitTimeout
  /-- `DOZE_RELOCK_TIMEOUT` (R93). The PLL fails to relock within 200 µs after DOZE, which is handled as a loss of lock. -/
  | dozeRelockTimeout
  /-- `POWER_ORDER_TIMEOUT` (R95). A worker does not acknowledge a power order within 1 s, so the entry is cancelled and a warning is logged. -/
  | powerOrderTimeout (node : BitVec 4)
  /-- `FORWARDED_CLOCK_WAKE` (R96). A worker in DOZE sees a forwarded clock on a port held dark by order, and wakes. -/
  | forwardedClockWake
  /-- `PLL_START` (R100). CLK_CTRL.PLL_EN is written 1 and the PLL starts. -/
  | pllStart (p : Path)
  /-- `PLL_STOP` (R101). PLL_EN is written 0: it is accepted at LEVEL0 and moves the core to XIN, or refused with PLL_STOP_REFUSED. -/
  | pllStop (p : Path)
  /-- `XCLK_SEL_CHANGE` (R103). A new xSPI clock selection is applied between transactions. -/
  | xclkSelChange
  /-- `TICK_STEP` (R105). The 64-bit TICK counter steps every 10 µs. -/
  | tickStep (pins : PinLevels)
  /-- `TICK_LO_READ` (R106). A read of TICK_LO returns the low word and copies the high word into the path's holding register. -/
  | tickLoRead (p : Path) (l : Lanes)
  /-- `STRAP_CHECK` (R74). Every 1 ms the strap levels are compared with the sample, and the first difference logs STRAP_CHANGED. -/
  | strapCheck (levels : Straps)
  /-- `CPORT_NOP` (R142). A complete NOP frame collects the previous response, or with REPLAY set replays it. -/
  | cportNop (f : Frame)
  /-- `CPORT_READ` (R143). A complete READ frame is checked and executed, and its data is returned in the next frame. -/
  | cportRead (f : Frame)
  /-- `CPORT_WRITE` (R147). A complete WRITE frame is checked and applies its enabled byte lanes to a register. -/
  | cportWrite (f : Frame)
  /-- `CPORT_WHISTLE` (R150). A WHISTLE frame starts a drain of prior CPORT effects and posted host writes. -/
  | cportWhistle (f : Frame)
  /-- `CPORT_RUNT` (R137). CP_CS_N rises with fewer than 80 SCK edges; nothing happens and the pending response is kept. -/
  | cportRunt
  /-- `WHISTLE_DRAIN_END` (R150). The CPORT whistle drain ends, and frames are no longer answered BUSY. -/
  | whistleDrainEnd
  /-- `ARM_WRITE` (R148). A full-width write of ARM makes a live arm, or clears the arm with ARM_MISMATCH. -/
  | armWrite (p : Path) (value : Word)
  /-- `ARM_TIMEOUT` (R149). 100 ms after it was made, an arm that was not used ends. -/
  | armTimeout (p : Path)
  /-- `REGISTER_WRITE` (R9). A write to a direct register that has no row of its own is applied according to its access codes. -/
  | registerWrite (p : Path) (off : BitVec 16) (l : Lanes) (w : Word)
  /-- `TBL_SEL_WRITE` (R164). A write of TBL_SEL sets the path's cursor, discards staged words and takes a snapshot and staging copy of the entry. -/
  | tblSelWrite (p : Path) (w : Word)
  /-- `TBL_DATA_READ` (R166). A TBL_DATA read returns a snapshot word and, with lane 0, advances the cursor. -/
  | tblDataRead (p : Path) (l : Lanes)
  /-- `TBL_DATA_STAGE` (R167). A TBL_DATA write of a word that is not the last stages that word and advances the cursor. -/
  | tblDataStage (p : Path) (w : Word)
  /-- `MEMBER_COMMIT` (R344). The last-word write of a MEMBER entry commits word 0, which is forwarded to a worker where the port belongs to one. -/
  | memberCommit (p : Path) (w : Word)
  /-- `ARRAY_COMMIT` (R365). A commit of an ARRAY entry changes only AUTO_RESUME and LABEL. -/
  | arrayCommit (p : Path) (w : Word)
  /-- `VOLUME_COMMIT` (R370). A commit of a VOLUME entry changes only LABEL on an entry that is not GONE. -/
  | volumeCommit (p : Path) (w : Word)
  /-- `STUDIO_COMMIT` (R456). A commit of a STUDIO entry sets masks, coalescing, quotas and EN. -/
  | studioCommit (p : Path) (w : Word)
  /-- `QUEUE_COMMIT` (R269). A commit of a QUEUE entry enables a queue or clears its EN to make it DRAINING or DISABLED. -/
  | queueCommit (p : Path) (w : Word)
  /-- `DMA_CHAN_COMMIT` (R262). A commit of a DMA_CHAN entry configures, enables or disables a channel. -/
  | dmaChanCommit (p : Path) (w : Word)
  /-- `LAYER_START` (R503). A LAYER commit with RUN = 1 to an IDLE or STOPPED layer asks for admission and enters PRIMING. -/
  | layerStart (p : Path) (w : Word)
  /-- `LAYER_STOP` (R503). A LAYER commit with RUN = 0 ramps the gain to mute and stops the layer. -/
  | layerStop (p : Path) (w : Word)
  /-- `LAYER_COMMIT` (R537). Any other LAYER commit changes parameters, to take effect at the next frame boundary. -/
  | layerCommit (p : Path) (w : Word)
  /-- `BUS_COMMIT` (R538). A commit of a BUS entry sets routing, effects and delay tiles. -/
  | busCommit (p : Path) (w : Word)
  /-- `AUPORT_COMMIT` (R539). A commit of an AUPORT entry sets framing and enables or disables the port. -/
  | auportCommit (p : Path) (w : Word)
  /-- `REFEREE_COMMIT` (R449). A commit of a REFEREE entry sets weights, shares and reservations and is forwarded to the workers. -/
  | refereeCommit (p : Path) (w : Word)
  /-- `HOST_REGION_COMMIT` (R205). A commit of a HOST_REGION entry is applied between master cycles. -/
  | hostRegionCommit (p : Path) (w : Word)
  /-- `RO_SPACE_COMMIT` (R169). A last-word write in a space without RWC fields is refused with READ_ONLY. -/
  | roSpaceCommit (p : Path) (w : Word)
  /-- `NV_COMMIT_DONE` (R125). The header page of an NV commit has been programmed, and the written copy becomes the present copy. -/
  | nvCommitDone (ok : Bool)
  /-- `ARRAY_ARG_WRITE` (R175). Enabled lanes merge into the staging word, which is appended to the argument buffer when lane 3 is written. -/
  | arrayArgWrite (p : Path) (l : Lanes) (w : Word)
  /-- `ASSEMBLE` (R361). Management command 0x01 assembles a STOPPED array. -/
  | assemble (p : Path)
  /-- `FORCE_ASSEMBLE` (R415). Management command 0x02 assembles an array from an explicit member list and clears the OFFLINE mark. -/
  | forceAssemble (p : Path)
  /-- `CREATE_ARRAY` (R360). Management command 0x03 creates an array, writes signatures and commits the entry. -/
  | createArray (p : Path)
  /-- `DELETE_ARRAY` (R363). Management command 0x04 deletes a STOPPED or OFFLINE array and blanks its members. -/
  | deleteArray (p : Path)
  /-- `CREATE_VOLUME` (R367). Management command 0x05 creates a volume on an array. -/
  | createVolume (p : Path)
  /-- `DELETE_VOLUME` (R368). Management command 0x06 makes a volume GONE and trims its range. -/
  | deleteVolume (p : Path)
  /-- `SET_OWNER` (R459). Management command 0x07 changes a volume's owning studio. -/
  | setOwner (p : Path)
  /-- `ADD_BENCH` (R341). Management command 0x08 places a BLANK or STALE member on the bench. -/
  | addBench (p : Path)
  /-- `REMOVE_BENCH` (R341). Management command 0x09 blanks a bench member. -/
  | removeBench (p : Path)
  /-- `RETIRE_MEMBER` (R343). Management command 0x0A marks a member retired and powers it off. -/
  | retireMember (p : Path)
  /-- `START_RESTORATION` (R401). Management command 0x0B starts a restoration onto a target or into spares. -/
  | startRestoration (p : Path)
  /-- `COPY_BACK` (R405). Management command 0x0C starts moving the highest spare rank to a target member. -/
  | copyBack (p : Path)
  /-- `START_INSPECTION` (R407). Management command 0x0D starts an inspection pass. -/
  | startInspection (p : Path)
  /-- `START_REPAINT` (R421). Management command 0x0E places the new region and starts a repaint. -/
  | startRepaint (p : Path)
  /-- `ABORT_REPAINT` (R428). Management command 0x0F turns a forward repaint into a return. -/
  | abortRepaint (p : Path)
  /-- `PAUSE_BACKGROUND` (R409). Management command 0x10 pauses background work or a repaint and checkpoints it. -/
  | pauseBackground (p : Path)
  /-- `RESUME_BACKGROUND` (R409). Management command 0x11 resumes paused background work or a repaint. -/
  | resumeBackground (p : Path)
  /-- `STOP_ARRAY` (R362). Management command 0x12 stops an array after flushing and checkpointing. -/
  | stopArray (p : Path)
  /-- `ARRAY_CMD_BAD_CODE` (R178). A write of an undefined CODE to ARRAY_CMD is taken and answered BAD_CODE. -/
  | arrayCmdBadCode (p : Path) (code : Byte)
  /-- `MGMT_COMMAND_DONE` (R180). The management engine finishes a command, writes its result and clears BUSY. -/
  | mgmtCommandDone (timeout : Option (BitVec 4))
  /-- `STUDIO_RESET` (R462). A write of STUDIO_RST resets each requested studio: queues disabled, work ended or handed to SYSTEM. -/
  | studioReset (mask : Byte)
  /-- `STUDIO_RESET_END` (R464). The last unit held by a resetting studio returns, the audit runs and the studio becomes RESET_DONE. -/
  | studioResetEnd (st : Fin 8)
  /-- `STUDIO_DONE_ACK` (R457). A DONE bit written 1 in STUDIO_STAT returns the studio to ACTIVE or IDLE. -/
  | studioDoneAck (mask : Byte)
  /-- `FLUSH_ALL` (R394). SKB_CTRL.FLUSH_ALL flushes every stripe of every assembled array and applies every TRIM. -/
  | flushAll
  /-- `SKB_CTRL_WRITE` (R394). A write of the SKB_CTRL thresholds and age is applied, or refused whole with SKB_CTRL_REFUSED. -/
  | skbCtrlWrite (lanes : Lanes) (data : Word)
  /-- `DMA_KICK` (R247). A DMA_GCTRL.KICK bit makes a channel look at its ring, or resumes it from HALTED. -/
  | dmaKick (mask : Half)
  /-- `DMA_GLOBAL_PAUSE` (R257). DMA_GCTRL.EN = 0 makes every channel stop and hold at its next burst boundary. -/
  | dmaGlobalPause
  /-- `DMA_GLOBAL_RESUME` (R257). DMA_GCTRL.EN = 1 resumes every held transfer. -/
  | dmaGlobalResume
  /-- `ROLL_NOW` (R483). RING_CTRL.ROLL_NOW on a manager starts a roll call. -/
  | rollNow
  /-- `FORGET` (R496). RING_CTRL ACTION FORGET removes an unreachable node from the roster. -/
  | forget (entry : BitVec 4)
  /-- `ADOPT` (R496). RING_CTRL ACTION ADOPT with a matching KEY numbers a foreign worker as a blank one. -/
  | adopt (entry : BitVec 4) (key : Half)
  /-- `RING_PORT_ENABLE` (R469). FA_EN or FB_EN is set, and the port may leave DARK for training. -/
  | ringPortEnable (fb : Bool)
  /-- `RING_PORT_DISABLE` (R469). FA_EN or FB_EN is cleared, and the port goes DARK. -/
  | ringPortDisable (fb : Bool)
  /-- `PALETTE_ENABLE` (R498). PAL_CTRL.EN is set, and the frame clock starts. -/
  | paletteEnable (mclk : Bool)
  /-- `PALETTE_DISABLE` (R498). PAL_CTRL.EN is cleared: running layers stop with PALETTE_OFF and the ports go OFF. -/
  | paletteDisable (mclk : Bool)
  /-- `PORT_WAKE` (R532). A PAL_CTRL.WAKE bit puts a sleeping port in RESUMING at the next boundary. -/
  | portWake (port : Fin 3)
  /-- `LOG_TAIL_WRITE` (R562). A write of LOG_TAIL consumes records up to the new tail, or is refused with LOG_TAIL_BAD. -/
  | logTailWrite (p : Path) (l : Lanes) (w : Word)
  /-- `FAULT_SUM_READ` (R567). A read of FAULT_SUM returns and clears the WARNS counter. -/
  | faultSumRead (p : Path) (l : Lanes)
  /-- `WHISTLE_READ` (R214). A live read of WHISTLE through a studio block or the mirror waits until every earlier posted write of every alias is applied. -/
  | whistleRead (via : Option (Fin 8))
  /-- `S_IRQ_STAT_CLEAR` (R221). A W1C write of S_IRQ_STAT clears bits and may release HB_IRQ_N. -/
  | sIrqStatClear (st : Fin 8) (data : Word)
  /-- `TARGET_READ` (R188). A host target read cycle is decoded to an alias, waits as needed and returns data with its side effects. -/
  | targetRead (off : BitVec 16) (be : Lanes) (early : Bool)
  /-- `TARGET_WRITE` (R189). A host target write cycle is accepted into its alias's posted-write buffer. -/
  | targetWrite (off : BitVec 16) (be : Lanes) (data : Word) (early : Bool)
  /-- `POSTED_WRITE_APPLY` (R192). A posted-write buffer entry takes effect in a register, SRAM byte or mailbox page. -/
  | postedWriteApply (al : Fin 8)
  /-- `SQ_TAIL_DOORBELL` (R270). An applied SQ_TAIL write moves a submission queue's tail, or is refused with DOORBELL_BAD. -/
  | sqTailDoorbell (q : Fin 32) (data : Word)
  /-- `CQ_HEAD_DOORBELL` (R271). An applied CQ_HEAD write frees completion slots, or is refused. -/
  | cqHeadDoorbell (q : Fin 32) (data : Word)
  /-- `SQ_RESUME_NEXT` (R309). SQ_RESUME resume-next posts the held completion and resumes the frozen queue. -/
  | sqResumeNext (q : Fin 32) (slot : BitVec 10)
  /-- `SQ_RESUME_RETRY` (R310). SQ_RESUME retry-failed runs the held command again from its held bytes. -/
  | sqResumeRetry (q : Fin 32) (slot : BitVec 10)
  /-- `SQ_RESUME_DISCARD` (R309). SQ_RESUME discard-to-tail posts the held completion and completes every slot up to the tail with ABORTED. -/
  | sqResumeDiscard (q : Fin 32) (slot : BitVec 10)
  /-- `PIO_PUSH` (R200). A DATA write pushes bytes into a studio's PIO FIFO once space allows. -/
  | pioPush (st : Fin 8)
  /-- `PIO_POP` (R200). A DATA read pops bytes from a studio's PIO FIFO once they are there. -/
  | pioPop (st : Fin 8)
  /-- `PIO_WAIT_EXPIRY` (R200). PIO_WAIT expires: a push is dropped with PIO_FULL, or a pop returns 0 with PIO_EMPTY. -/
  | pioWaitExpiry (st : Fin 8)
  /-- `BUS_GRANTED` (R202). HB_BGNT_N low and HB_BUSY_N high are sampled twice, and the HBU starts a tenure. -/
  | busGranted
  /-- `GRANT_WITHDRAWN` (R204). HB_BGNT_N is sampled high, and the tenure ends after the present cycle. -/
  | grantWithdrawn
  /-- `MASTER_CYCLE` (R203). A master cycle runs with its region's setup, strobe and hold. -/
  | masterCycle
  /-- `RDY_TIMEOUT` (R203). HB_RDY is not sampled high within RDY_TIMEOUT × 64 CCLK, and the cycle ends as a bus error. -/
  | rdyTimeout (c : Fin 16) (addr : BitVec 24)
  /-- `SELF_ACCESS` (R207). HB_CS_N is seen low during the HBU's own master cycle, and the transfer ends with DMA_FAULT. -/
  | selfAccess (c : Fin 16) (addr : BitVec 24)
  /-- `GNT_TIMEOUT` (R207). No grant arrives within GNT_TIMEOUT: every waiting transfer faults and HB_BREQ_N is released for one TICK. -/
  | gntTimeout
  /-- `RELEASE_GAP_EXPIRY` (R204). After a tenure ended by TENURE_MAX, the release gap ends and the HBU may request again. -/
  | releaseGapExpiry
  /-- `DMA_PLACE` (R234). A waiting queue-engine transfer is placed on the lowest idle QUEUE channel. -/
  | dmaPlace
  /-- `DMA_BURST` (R238). At a burst boundary the picked channel reads up to 64 source bytes and then writes them. -/
  | dmaBurst (data : Vector Byte 64)
  /-- `DMA_POLL_TIMER` (R246). Every POLL TICKs a polling SOFT channel reads the OWN byte of its next slot again. -/
  | dmaPollTimer (c : Fin 16)
  /-- `DESCRIPTOR_READ_DONE` (R246). A SOFT descriptor has been read and its fields checked before data moves. -/
  | descriptorReadDone (c : Fin 16) (bytes : Vector Byte 64)
  /-- `LIST_ENTRY_READ` (R241). An 8-byte list entry is read and checked during a list walk. -/
  | listEntryRead (c : Fin 16) (dst : Bool) (bytes : Vector Byte 8)
  /-- `DMA_COMPLETION` (R248). After every data write has ended, the transfer's write-back or record is written and OWN is cleared. -/
  | dmaCompletion (c : Fin 16)
  /-- `QUEUE_PICK` (R272). The queue engine picks the next eligible submission queue, takes a CMD_SLOT and reserves a CQ slot. -/
  | queuePick
  /-- `COMMAND_FETCHED` (R276). A 64-byte command has been fetched and passes through the ordered checks. -/
  | commandFetched (slot : Nat)
  /-- `NOP` (R285). Opcode 0x00 completes with OK once its checks end. -/
  | nop (slot : Nat)
  /-- `READ` (R280). Opcode 0x01 delivers the selected data of its range under a shared lock. -/
  | read (run : SlotRun)
  /-- `WRITE` (R281). Opcode 0x02 reserves journal pages, pulls its data and seals records under an exclusive lock. -/
  | write (run : SlotRun)
  /-- `VERIFY` (R282). Opcode 0x03 flushes its stripes, then checks and corrects their parity. -/
  | verify (slot : Nat)
  /-- `TRIM` (R283). Opcode 0x04 seals a TRIM record, so that its range reads as zeros. -/
  | trim (slot : Nat)
  /-- `FLUSH` (R284). Opcode 0x05 waits for the volume's earlier completed writes to be retired. -/
  | flush (slot : Nat)
  /-- `FLUSH_COMPLETE` (R284). Every covered write and trim has retired, and the FLUSH completes OK. -/
  | flushComplete (slot : Nat)
  /-- `WHISTLE_COMMAND` (R225). Opcode 0x06 records the tails of its covered queues and holds fetch from them. -/
  | whistleCommand (slot : Nat)
  /-- `WHISTLE_COMPLETE` (R225). Every covered command has completed, so the WHISTLE posts OK or WHISTLE_ABORTED and fetch resumes. -/
  | whistleComplete (slot : Nat)
  /-- `WRITE_PAUSE_RELEASE` (R273). Journal use falls below the fetch-pause mark, and a waiting WRITE requests its lock. -/
  | writePauseRelease (slot : Nat)
  /-- `LOCK_GRANT` (R296). A waiting range-lock request is granted, and the state checks are repeated. -/
  | lockGrant
  /-- `POOL_GRANT` (R434). A waiting pool request is granted when the reservation and the quota allow. -/
  | poolGrant (pool : Fin 20)
  /-- `COMPLETION_POST` (R287). A command's write-back or scoreboard record is written and its slot released. -/
  | completionPost (slot : Nat)
  /-- `COMPLETION_WRITE_FAULT` (R289). A completion write faults, and every SQ writing to that ring is frozen. -/
  | completionWriteFault (slot : Nat) (self : Bool) (addr : BitVec 24)
  /-- `COALESCE_TIMER_EXPIRY` (R291). COAL_TIME TICKs pass with PEND above 0, and the studio's completion bit is set. -/
  | coalesceTimerExpiry (st : Fin 8)
  /-- `CARD_INSERTED` (R318). SDn_CD_N low is accepted after 2500 samples, and the port powers and probes the card. -/
  | cardInserted (p : Fin 8)
  /-- `CARD_REMOVED` (R339). Removal is accepted: operations abort, the card is powered off and the member leaves its array. -/
  | cardRemoved (p : Fin 8)
  /-- `SIGNATURE_READ` (R328). Identification ends with the read of both signature copies. -/
  | signatureRead (p : Fin 8) (d : CardIdent)
  /-- `IDENT_FAILED` (R321). Identification fails after its retries, and the member becomes FAILED. -/
  | identFailed (p : Fin 8) (unsupported : Bool)
  /-- `SIGNATURE_REFRESH` (R329). Within 1 s of an NV commit changing its array, a member's signature blocks are rewritten. -/
  | signatureRefresh (m : Fin 128)
  /-- `MEMBER_OP_ISSUE` (R443). The Referee picks the next member operation for a port and issues it. -/
  | memberOpIssue (p : Fin 8)
  /-- `MEMBER_OP_DONE` (R335). A member operation reports its result once the card has responded. -/
  | memberOpDone (p : Fin 8) (r : OpResult)
  /-- `MEMBER_OP_TIMEOUT` (R335). An attempt does not finish within TIMEOUT, which counts as a link error. -/
  | memberOpTimeout (p : Fin 8) (tunes : Tunes)
  /-- `REFEREE_DECAY` (R443). When TICK reaches a multiple of 1024, every done counter is halved. -/
  | refereeDecay
  /-- `PAGE_PROGRAM_DONE` (R374). A Sketchbook page program ends. -/
  | pageProgramDone
  /-- `RECORD_SEAL` (R378). An index record program ends, sealing its pages as committed. -/
  | recordSeal
  /-- `RETIREMENT` (R381). A record's RETIRE word is programmed, and its pages return to the pool. -/
  | retirement (slot : Nat)
  /-- `TRIM_DONE_UPDATE` (R389). TRIM_DONE is programmed past an applied stripe. -/
  | trimDoneUpdate (slot : Nat)
  /-- `FLUSH_AGE_EXPIRY` (R382). A stripe's oldest unretired record passes FLUSH_AGE, and the stripe is flushed. -/
  | flushAgeExpiry (a : Fin 4) (stripe : Nat)
  /-- `FLUSH_STEP` (R384). Up to 16 touched tile rows of a stripe get computed parity and are written to the members. -/
  | flushStep (id : Nat)
  /-- `TRIM_STRIPE_APPLY` (R389). One stripe of a TRIM is erased, zeroed or flushed with zeros. -/
  | trimStripeApply (slot : Nat)
  /-- `TILE_MEND` (R399). A tile that was retouched after a failed read is rewritten with its row's parity. -/
  | tileMend
  /-- `RESTORATION_STEP` (R402). The lacking role's chunk of the stripe at the mark is rebuilt and written. -/
  | restorationStep (a : Fin 4)
  /-- `RESTORATION_FINISH` (R404). After the last step, one NV commit records the role present and the array becomes OPTIMAL. -/
  | restorationFinish (a : Fin 4)
  /-- `COPY_BACK_STEP` (R405). One stripe's spare-held chunk is copied to the copy-back target. -/
  | copyBackStep (a : Fin 4)
  /-- `COPY_BACK_FINISH` (R405). The final commit frees the spare rank and records the target. -/
  | copyBackFinish (a : Fin 4)
  /-- `INSPECTION_STEP` (R407). One stripe is read and every tile row's parity is checked. -/
  | inspectionStep (a : Fin 4)
  /-- `INSPECTION_FINISH` (R407). The inspection ends with an NV commit and an INSPECTION_DONE note. -/
  | inspectionFinish (a : Fin 4)
  /-- `BACKGROUND_CHECKPOINT` (R129). Every 64 stripes or 1 s, background progress is committed to NV. -/
  | backgroundCheckpoint (a : Fin 4)
  /-- `REPAINT_COPY_STEP` (R422). One new-shape stripe is copied from the old region to the new region. -/
  | repaintCopyStep (a : Fin 4)
  /-- `WATERMARK_COMMIT` (R423). The front is committed as the new watermark. -/
  | watermarkCommit (a : Fin 4)
  /-- `CUTOVER` (R425). The front reaches K, and one NV commit makes the new shape the array's own. -/
  | cutover (a : Fin 4)
  /-- `RETURN_STEP` (R428). One old-shape stripe is copied back from the new region to the old region. -/
  | returnStep (a : Fin 4)
  /-- `RETURN_END` (R428). The return mark reaches the watermark, the repaint ends and joining members are blanked. -/
  | returnEnd (a : Fin 4)
  /-- `LEDGER_AUDIT` (R450). Every 100 TICKs, and at each studio-reset end, all pool counts are checked. -/
  | ledgerAudit
  /-- `CTRL_PARITY` (R565). A parity error in a table, register or sequencer word causes FAILSTOP. -/
  | ctrlParity (unit : Byte) (address : Word)
  /-- `TIER2_TRANSFER_DONE` (R439). An xSPI READ, WRITE or REG_READ transaction ends. -/
  | tier2TransferDone
  /-- `TIER2_DQS_TIMEOUT` (R438). XS_DQS does not arrive in time; a check read and a reset follow, and the transfer is retried. -/
  | tier2DqsTimeout
  /-- `TIER2_CHECK_READ` (R438). Every 1 s the second tier's density register is read and checked. -/
  | tier2CheckRead (reg0 : Option Half)
  /-- `LINK_TRAINING_START` (R469). A DARK port whose conditions hold enters TRAINING, at once or after its 10 ms retry. -/
  | linkTrainingStart (fb : Bool)
  /-- `FORWARDED_CLOCK_SEEN` (R469). A DARK port's receiver detects a forwarded clock and enters TRAINING at once. -/
  | forwardedClockSeen (fb : Bool)
  /-- `TRAINING_COMPLETE` (R470). The TRAIN handshake completes, and the link becomes UP with full credits. -/
  | trainingComplete (fb : Bool)
  /-- `TRAINING_TIMEOUT` (R469). Training does not complete within 1 ms, and the port returns to DARK. -/
  | trainingTimeout (fb : Bool)
  /-- `LINK_BREAK` (R474). An UP link breaks on clock loss, a TRAIN flit, repeated episodes or CRC failures. -/
  | linkBreak (fb : Bool)
  /-- `BROKEN_HOLD_EXPIRY` (R469). 10 ms in BROKEN with the transmitter off pass, and the port goes DARK. -/
  | brokenHoldExpiry (fb : Bool)
  /-- `LINK_FLIT` (R476). A received LINK flit returns credits and acknowledges packets, or asks for a resend. -/
  | linkFlit (fb : Bool) (payload : Dword)
  /-- `LINK_FLIT_TIMER` (R476). 16 µs pass on an UP link, and a LINK flit is sent. -/
  | linkFlitTimer (fb : Bool)
  /-- `PACKET_RECEIVE_ERROR` (R472). A bad flit or out-of-order header discards the packet and sends a NAK. -/
  | packetReceiveError (fb crc : Bool)
  /-- `RESEND_TIMEOUT` (R472). 50 µs pass without ACK progress, and every unacknowledged packet is resent. -/
  | resendTimeout (fb : Bool)
  /-- `PACKET_FORWARD` (R480). A worker forwards a packet that it does not consume out of its other port. -/
  | packetForward (fb : Bool) (kind : Byte) (p : Pkt)
  /-- `ROLL_CALL_START` (R483). The manager starts a roll call and sends ROLL_CALL on every UP port. -/
  | rollCallStart
  /-- `ROLL_CALL` (R483). A worker receives ROLL_CALL, records its hops, answers and forwards it. -/
  | rollCall (fb : Bool) (p : Pkt)
  /-- `ROLL_ANSWER` (R483). The manager collects a worker's answer. -/
  | rollAnswer (fb : Bool) (p : Pkt) (rtt : Half)
  /-- `ROLL_CALL_COLLECT_END` (R483). Collection of answers ends at return, at the END answers or after 2 ms, and numbering follows. -/
  | rollCallCollectEnd
  /-- `ROLL_ASSIGN` (R485). A worker commits its new identity and node number and sends ROLL_ACK. -/
  | rollAssign (fb : Bool) (p : Pkt)
  /-- `ROLL_ACK` (R485). The manager receives a worker's acknowledgement of its assignment. -/
  | rollAck (fb : Bool) (p : Pkt)
  /-- `ROLL_DONE` (R481). A worker takes the new epoch and drops its older-epoch work. -/
  | rollDone (fb : Bool) (p : Pkt)
  /-- `LINK_NOTE` (R483). The manager receives a worker's link-state note and starts a roll call. -/
  | linkNote (fb : Bool) (p : Pkt)
  /-- `PING` (R482). A worker answers a PING with a PONG. -/
  | ping (fb : Bool) (p : Pkt)
  /-- `PONG` (R482). The manager receives a PONG and reissues the timed-out request once. -/
  | pong (fb : Bool) (p : Pkt)
  /-- `REQUEST_TIMEOUT` (R482). A ring request waits longer than 10 × TIMEOUT + 100 ms, and a PING is sent. -/
  | requestTimeout (k : BitVec 4) (tag : Byte)
  /-- `PING_TIMEOUT` (R482). No PONG arrives within 10 ms, and the node becomes UNREACHABLE. -/
  | pingTimeout (k : BitVec 4) (tag : Byte)
  /-- `TABLE_FWD` (R170). A worker applies a forwarded MEMBER word 0 or REFEREE entry and commits it to NV. -/
  | tableFwd (fb : Bool) (p : Pkt)
  /-- `MEMBER_REPORT` (R491). The manager receives a worker's port report and classifies the card. -/
  | memberReport (fb : Bool) (p : Pkt)
  /-- `MEMBER_REPORT_TIMER` (R491). Every 100 ms a worker reports ports whose counters have changed. -/
  | memberReportTimer
  /-- `MEMBER_SET` (R491). A worker applies the state that the manager decided for its port. -/
  | memberSet (fb : Bool) (p : Pkt)
  /-- `POWER_ORDER` (R95). A worker is ordered into DOZE or STANDBY, flushes its stripes and acknowledges. -/
  | powerOrder (fb : Bool) (p : Pkt)
  /-- `POWER_ACK` (R95). The manager receives a worker's acknowledgement of a power order. -/
  | powerAck (fb : Bool) (p : Pkt)
  /-- `LOG_FWD` (R566). The manager enters a forwarded worker record into its own log. -/
  | logFwd (fb : Bool) (p : Pkt)
  /-- `MREAD` (R479). A worker carries out a member read for the manager. -/
  | mread (fb : Bool) (p : Pkt)
  /-- `MREAD_DATA` (R479). The manager receives one sector of a worker's member read. -/
  | mreadData (fb : Bool) (p : Pkt)
  /-- `MWRITE` (R493). A worker receives a member write descriptor to be followed by its data. -/
  | mwrite (fb : Bool) (p : Pkt)
  /-- `MWRITE_DATA` (R493). A worker lands a sector of write data in its Sketchbook before the member write. -/
  | mwriteData (fb : Bool) (p : Pkt)
  /-- `MERASE` (R479). A worker carries out a member erase. -/
  | merase (fb : Bool) (p : Pkt)
  /-- `PSUM_REQ` (R492). A worker reads its tiles of a tile row and returns their XOR. -/
  | psumReq (fb : Bool) (p : Pkt)
  /-- `PSUM_DATA` (R492). The manager receives one sector of a partial sum. -/
  | psumData (fb : Bool) (p : Pkt)
  /-- `OP_DONE` (R479). The manager receives the result of a worker's member operation. -/
  | opDone (fb : Bool) (p : Pkt)
  /-- `FRAME_BOUNDARY` (R498). Every 16 384 AMCLK the Palette computes a frame for every layer, bus and port. -/
  | frameBoundary (au2 : Vector (Vector Word 8) 32)
  /-- `STREAM_TILE_ARRIVED` (R505). A prefetched stream tile is filled in canvas memory for its layer. -/
  | streamTileArrived (layer : Fin 32) (n : Nat)
  /-- `HOST_REFILL_DONE` (R511). A host-fed layer's refill ends, RD advances and the Palette bit may be set. -/
  | hostRefillDone (layer : Fin 32)
  /-- `SUPPLY_BELOW_RESET_LEVEL` (R86). VCORE or VSTBY falls below its reset level, so the part is off and a later rise is a power-on. -/
  | supplyBelowResetLevel (vstby : Bool) (sup : Supplies) (cut : ProgEnd)
  /-- `POWER_GOOD_COUNT_RESTART` (R82). A power-good condition is lost during a class P or D reset or while waiting after a trip, which restarts the 2.000 ms count without a trip. -/
  | powerGoodCountRestart (sup : Supplies)
  /-- `BANK_RETURN` (R69). A VIO bank that was absent while VCORE is present comes back into range, and its pins, card detects or audio outputs work again. -/
  | bankReturn (b : Bank)
  deriving DecidableEq, Repr

end Sys2Proof
end

