-- ==== Sys2Proof/Decode.lean ====
section
/-! DEFINITION. The command that a table word spells. The table of this block gives no row any bits: its rows are
operations and events, not words, so that no word spells one. -/

namespace Sys2Proof

/-- The command a word of `nbits` bits spells: none, since no row of the table has bits. -/
def decodeTableWord (_nbits _w : Nat) : Option Instr := none

end Sys2Proof
end

