-- ==== Sys2Proof/Config.lean ====
section
/-! DEFINITION. What a part of the family fixes, and the free values: constants without a body, applied to the
state's counter of free values or to what the open value depends on. -/

namespace Sys2Proof.Config

/-- CHIP_ID (R3, R157). -/
def chipId : Word := 0x4C4E0816#32

/-- CHIP_REV.REV_CODE of silicon revision A (R3, R157). -/
def revCode : Byte := 0x01#8

/-- Word w of the n-th free value: words whose contents the manual leaves open. -/
opaque freeWord : Nat → Nat → Word

/-- The sampling phase taken where the widest run of passing phases has no one centre: the manual says which run and
which phase in no such case (R325). -/
opaque tunePhase : Word → BitVec 5

/-- What sector k (0 to 7) of physical canvas tile t holds before anything has filled it, as sector 8192e + 8t + k after
e class P resets. -/
opaque canvasInit : Nat → BitVec 4096

end Sys2Proof.Config
end

