-- ==== Sys2Proof/Machine/State.lean ====
section
/-! DEFINITION. The state of the block as plain data: every piece of state the manual gives the machine, each unit's
in a structure of its own whose field defaults are the values right after reset, and State.reset. -/

namespace Sys2Proof.Machine

/-- Why the block stops with a fault. No command of this block does: every input is applied, refused with a named
status, or ignored and logged (R53). -/
inductive Fault where
  /-- Raised by no command; the interface asks for a closed type of faults (safe). -/
  | none
  deriving DecidableEq, Repr

/-- Why a command has no meaning. -/
inductive Refusal where
  /-- Raised by exec's arm of a command that has no meaning yet (safe). -/
  | notModelled (mnemonic : String)
  /-- Raised by a command whose operands do not spell a command of its row, such as a frame whose opcode byte is
  another row's or a list longer than the manual's bound: no such input exists (safe). -/
  | illFormed
  deriving DecidableEq, Repr

/-! ## Supplies, power states, standby domain -/

/-- SVC_LEVEL.LEVEL (R22, R159). -/
inductive Level where
  | level0 | level1 | level2 | failstop
  deriving DecidableEq, Repr

/-- The power states (R88). -/
inductive PowerState where
  | run | nap | doze | standby | off
  deriving DecidableEq, Repr

/-- The sleep states that software can request (R89). -/
inductive Sleep where
  | nap | doze | standby
  deriving DecidableEq, Repr

/-- PWR_STAT.REQ_RESULT (R109). -/
inductive ReqResult where
  | none | entering | done | cancelled | refusedBusy | refusedLevel | refusedCode | refusedArm | refusedFabric
  deriving DecidableEq, Repr

/-- What the core is doing. -/
inductive CoreStatus where
  /-- below a reset level: no part of the core runs (R86, R544). -/
  | off
  /-- held in a class P reset until power-good is met and RESET_N is high. -/
  | inResetP
  /-- held in a class D reset. -/
  | inResetD
  /-- stopped after a trip or the loss of XIN (R85, R86, R107). -/
  | stopped
  /-- STANDBY: held in reset with SUP_EN low (R94). -/
  | standby
  /-- out of reset. -/
  | running
  deriving DecidableEq, Repr

/-- RST_CAUSE.CAUSE (R119). -/
inductive Cause where
  | powerOn | standbyExit | powerFail | xinLoss | resetPin | control | pllLoss
  deriving DecidableEq, Repr

/-- The power manager: PWR_CTRL and PWR_STAT fields, the power state and an entry under way (R88 to R97). -/
structure Power where
  /-- live levels of the supplies and power pins (inputs). -/
  sup : Supplies := ⟨1000, true, true, true, true, true, true, true, true⟩
  /-- what the core is doing. -/
  core : CoreStatus := .running
  /-- the power-good conditions have held for 24 576 XIN periods (R82). -/
  pgMet : Bool := true
  /-- VSTBY or VCORE rose from below its reset level at the reset under way (R120, rules 4 and 5). -/
  fromBelow : Bool := false
  /-- PWR_CTRL.VPF_SEL. -/
  vpfSel : BitVec 3 := 0
  /-- PWR_CTRL.PFAIL_PIN_EN. -/
  pfailPinEn : Bool := true
  /-- PWR_CTRL.AUTO_NAP. -/
  autoNap : BitVec 4 := 0
  /-- PWR_STAT.REQ_RESULT. -/
  reqResult : ReqResult := .none
  /-- the power state. -/
  state : PowerState := .run
  /-- the entry accepted and not yet at its commit point (R90). -/
  entry : Option Sleep := none
  /-- workers ordered into a sleep state that have not acknowledged (R95). -/
  ordersOut : List (BitVec 4) := []
  /-- on a worker: the state the manager ordered it into (R95). -/
  ordered : Option Sleep := none
  /-- on a worker: an order whose flush is not yet done, so that it is not acknowledged yet (R95). -/
  orderDue : Option Sleep := none
  /-- on a manager: workers whose member operations wait until the roll call that follows a DOZE has ended (R96). -/
  asleep : List (BitVec 4) := []
  /-- a wake from DOZE waits for the PLL (R91). -/
  waking : Bool := false
  /-- the register write that caused the wake: path, offset, lanes, data, and whether its arm was found; applied once the
  part is in RUN (R144). -/
  wakeWrite : Option (Path × BitVec 16 × Lanes × Word × Bool) := none
  /-- links held DARK by a power order (R95, R96). -/
  heldDark : Bool := false
  deriving DecidableEq, Repr

/-- The last STANDBY exit's source (R109). -/
inductive WakeSrc where
  | none | wakeN | timer
  deriving DecidableEq, Repr

/-- The standby domain: kept through every reset class while VSTBY is in range (R98, R119, R120). -/
structure Standby where
  /-- PWR_CTRL.WAKE_TIME. -/
  wakeTime : BitVec 16 := 0
  /-- PWR_CTRL.WAKE_PIN_EN. -/
  wakePinEn : Bool := true
  /-- PWR_STAT.WAKE_SRC. -/
  wakeSrc : WakeSrc := .none
  /-- PWR_STAT.WAKE_FAIL. -/
  wakeFail : Bool := false
  /-- source of the trip latched since the last RST_CAUSE write (R120). -/
  tripLatch : Option TripSrc := none
  /-- service level latched at each change of level; none while it is unknown (R119, PREV_LEVEL 0xF). -/
  levelLatch : Option Level := some .level0
  /-- RST_CAUSE.RESTART_COUNT. -/
  restartCount : Byte := 1
  /-- SUP_EN is driven high. -/
  supEn : Bool := true
  /-- a STANDBY exit waits for power-good, by this source (R94). -/
  exiting : Option WakeSrc := none
  deriving DecidableEq, Repr

/-! ## Clocks and TICK -/

/-- The clock manager: CLK_CTRL, CLK_STAT and the TICK counter (R99 to R111). -/
structure Clock where
  /-- CLK_CTRL.XCLK_SEL. -/
  xclkSel : BitVec 2 := 3
  /-- CLK_STAT.XCLK_ACT. -/
  xclkAct : BitVec 2 := 3
  /-- CLK_CTRL.PLL_EN. -/
  pllEn : Bool := false
  /-- CLK_CTRL.XIN_EXT. -/
  xinExt : Bool := false
  /-- CLK_STAT.PLL_LOCK. -/
  pllLock : Bool := false
  /-- CLK_STAT.BYPASS. -/
  bypass : Bool := true
  /-- CLK_STAT.XIN_OK. -/
  xinOk : Bool := true
  /-- the PLL lost lock and retries (R572). -/
  lostLock : Bool := false
  /-- CLK_STAT.LOCK_LOSS_COUNT. -/
  lockLossCount : Byte := 0
  /-- CLK_STAT.LAST_LOCK_TIME. -/
  lastLockTime : Byte := 0
  /-- the TICK counter. -/
  tick : Dword := 0
  /-- periods of the present source already counted in the TICK step in progress, carried over from the source
  before (R105). -/
  carry : Nat := 0
  /-- step of the 25-step XIN pattern (R105). -/
  pattern : Fin 25 := 0
  /-- the decay of this TICK has run (R443). -/
  decayed : Bool := false
  deriving DecidableEq, Repr

/-! ## Restart path -/

/-- The restart path and RST_CAUSE (R25, R119, R128, R159, R160). -/
structure Restart where
  /-- SVC_LEVEL.LEVEL. -/
  level : Level := .level0
  /-- SVC_LEVEL.STAGE: 1 to 9, or 0 when the path is not running. -/
  stage : Fin 10 := 3
  /-- the sampled straps (R72). -/
  straps : Straps := ⟨true, 0, 0, false, false⟩
  /-- the present strap levels, as of the latest comparison (inputs; R74). -/
  strapNow : Straps := ⟨true, 0, 0, false, false⟩
  /-- a difference has been logged since the latest class P or D reset (R74). -/
  strapLogged : Bool := false
  /-- the copy choice ended in NVCFG_LOST (R126, R132). -/
  nvcfgLost : Bool := false
  /-- hold reasons set by failed self-checks (R25). -/
  skbFault : Bool := false
  canvasFault : Bool := false
  hostFault : Bool := false
  /-- an accepted CTRL_RST write waits its 10 µs (R118). -/
  ctrlRst : Bool := false
  /-- the level at which lock was lost, when that was LEVEL1 or LEVEL2: the restart path runs when it returns
  (R27, R119, R572). -/
  pllRestart : Option Level := none
  /-- the PLL has been started since the latest class P, D or C reset (R25, R160). -/
  pllStarted : Bool := false
  /-- the discovery deadline has passed (R128). -/
  deadline : Bool := false
  /-- the NV copy taken by the first step of the copy choice: none, A (false) or B (true) (R126). -/
  taken : Option Bool := none
  /-- RST_CAUSE.TRIP_SRC. -/
  tripSrc : BitVec 4 := 0
  /-- RST_CAUSE.NV_SEL. -/
  nvSel : BitVec 2 := 0
  /-- RST_CAUSE.OTHER_BAD. -/
  otherBad : Bool := false
  /-- RST_CAUSE.PREV_LEVEL. -/
  prevLevel : BitVec 4 := 0xF
  /-- RST_CAUSE.CAUSE. -/
  cause : Cause := .powerOn
  deriving DecidableEq, Repr

/-! ## Log, counters, interrupts -/

/-- Reaction classes (R557). -/
inductive LogClass where
  | note | warn | stopStudio | stopArray | failstop
  deriving DecidableEq, Repr

/-- One log record (R558), its CRC and reserved bytes left to its byte view. -/
structure LogRec where
  code : Byte
  cls : LogClass
  bb : Bool
  node : BitVec 4
  seq : Half
  tick : Word
  args : List Byte
  deriving DecidableEq, Repr

/-- One black-box slot: the record as copied, with RESTART_COUNT (R563); its sequence number is BSEQ. -/
structure BbRec where
  body : LogRec
  restartCount : Byte
  deriving DecidableEq, Repr

/-- The fault manager: log ring, counters, FAULT_SUM, IRQ registers (R560 to R571). -/
structure Log where
  /-- records held by the 256 slots, newest first; slot e holds the record whose SEQ is e modulo 256. -/
  recs : List LogRec := []
  /-- LOG_HEAD.SEQ_NEXT. -/
  seqNext : Half := 0
  /-- LOG_HEAD.LOST. -/
  lost : Byte := 0
  /-- LOG_TAIL.THRESH. -/
  thresh : Byte := 1
  /-- LOG_TAIL.TAIL. -/
  tail : Byte := 0
  /-- codes of the held-back notes logged in the present TICK period (R561). -/
  thisTick : List Byte := []
  /-- COUNTERS entries that are not 0, by entry number (R565). -/
  counters : List (Nat × Dword) := []
  /-- FAULT_SUM fields. -/
  lastBb : Byte := 0
  studioStop : Byte := 0
  warns : Byte := 0
  /-- the W1C bits of IRQ_STAT, [30:21] without the bits that are live. -/
  irqStat : Word := 0
  /-- IRQ_MASK.EN and STUDIO_CP. -/
  irqMaskEn : BitVec 15 := 0x4000
  irqMaskCp : Byte := 0
  /-- IRQ_ROUTE.TO_HOST. -/
  irqRoute : BitVec 15 := 0
  deriving DecidableEq, Repr

/-! ## Control paths -/

/-- A live arm: its code and how many frames or accesses it still lasts through (R148, R149). -/
structure Arm where
  code : BitVec 16
  left : Nat
  deriving DecidableEq, Repr

/-- The table cursor with its snapshot and staging buffer (R164 to R168). -/
structure Cursor where
  space : Byte := 0
  entry : BitVec 16 := 0
  word : Byte := 0
  /-- none while the cursor is in range; otherwise the result its accesses set (R168). -/
  out : Option Byte := some 0x01
  /-- the snapshot taken when the cursor entered the entry. -/
  snap : List Word := []
  /-- the staging buffer. -/
  staged : List Word := []
  deriving DecidableEq, Repr

/-- What exists once for each control path (R155). -/
structure PathRegs where
  arm : Option Arm := none
  tickHold : Word := 0
  cur : Cursor := {}
  /-- TBL_STAT fields. -/
  commitBusy : Bool := false
  /-- the member index of the latest MEMBER commit that went to a worker's port (R170). -/
  fwdOut : Option Nat := none
  cseq : BitVec 4 := 0
  tDetail : Byte := 0
  tResult : Byte := 0
  /-- the argument buffer, its overflow mark and the staging word (R175). -/
  args : List Word := []
  overflow : Bool := false
  argStage : Word := 0
  deriving DecidableEq, Repr

/-- A CPORT response before its CRC (R141). -/
structure Resp where
  status : Byte := 0x07
  opcode : Byte := 0
  addrHi : Byte := 0
  addrLo : Byte := 0
  data : Word := 0
  flags : Byte := 0x40
  deriving DecidableEq, Repr

/-- The CPORT link state (R135 to R151). -/
structure Cport where
  /-- number of complete frames, modulo 16. -/
  fseq : BitVec 4 := 0
  /-- the response the next frame carries. -/
  pend : Resp := {}
  /-- the NO_RESPONSE that it carries instead where it begins before the frame has finished (R143). -/
  late : Resp := {}
  /-- the response the latest complete frame carried (an output). -/
  sent : Resp := {}
  /-- a CPORT whistle drains (R150). -/
  whistling : Bool := false
  /-- WHISTLE.WSEQ of the CPORT path. -/
  wseq : BitVec 16 := 0
  deriving DecidableEq, Repr

/-- A management command that the engine runs (R176 to R180). -/
structure MgmtRun where
  code : Byte
  args : List Word
  /-- its result and detail, once they are decided. -/
  res : Option (Byte × Byte) := none
  /-- members whose signature it writes and whose two copies have not both responded, and those it has written. -/
  sigs : List (Fin 128) := []
  wrote : List (Fin 128) := []
  /-- its success needs an NV commit. -/
  commits : Bool := true
  /-- its signatures have responded, and its NV commit, if it needs one, has been requested. -/
  committing : Bool := false
  deriving DecidableEq, Repr

/-- The management engine (R176 to R181). -/
structure Mgmt where
  busy : Bool := false
  origin : Path := .cport
  seq : BitVec 4 := 0
  detail : Byte := 0
  result : Byte := 0
  /-- the command being run. -/
  running : Option MgmtRun := none
  deriving DecidableEq, Repr

/-! ## Host bus -/

/-- A write accepted into a posted-write buffer: window offset, byte lanes of the aligned word, data, and whether it
came through the mirror (R192). -/
structure Posted where
  off : BitVec 16
  lanes : Lanes
  data : Word
  deriving DecidableEq, Repr

/-- The write latch of an alias or of the mirror on a narrow bus (R195). -/
structure WLatch where
  off : BitVec 16
  bytes : Word
  valid : Lanes
  deriving DecidableEq, Repr

/-- A DATA access of a PIO window that waits on HB_RDY for the FIFO (R200): a push or a pop, the lanes of its aligned
word, its data, and whether the host has ended the cycle (R191). -/
structure PioWait where
  push : Bool
  lanes : Lanes
  data : Word
  early : Bool
  deriving DecidableEq, Repr

/-- A target cycle as the pins give it (R187 to R191): HB_A[15:0], the enabled lanes, the data lines of a write, and
whether the host ends it before its ready tick. -/
structure Cycle where
  write : Bool
  off : BitVec 16
  be : Lanes
  data : Word
  early : Bool
  deriving DecidableEq, Repr

/-- One alias of the window: a studio's view of the part (R184 to R201, R213, R571). -/
structure Alias where
  buf : List Posted := []
  latch : Option WLatch := none
  /-- read snapshot: register offset and value (R196). -/
  snap : Option (BitVec 16 × Word) := none
  wseq : BitVec 16 := 0
  /-- MBX_LENS.SECTION. -/
  lens : BitVec 5 := 0
  /-- S_IRQ_STAT and S_IRQ_MASK. -/
  irqStat : BitVec 6 := 0
  irqMask : BitVec 6 := 0
  /-- the PIO FIFO's bytes, oldest first (R200). -/
  pio : List Byte := []
  /-- the current FIFO-pointer command: slot, submission queue, direction (true: host pops), bytes left
  (R201, R278). -/
  pioCur : Option (Nat × Nat × Bool × Nat) := none
  /-- DATA accesses waiting for the FIFO, oldest first (R200): one that the host holds on HB_RDY, behind those it has ended
  early (R191). -/
  pioWait : List PioWait := []
  deriving DecidableEq, Repr

/-- A HOST_REGION entry (R205). -/
structure HostRegion where
  base : BitVec 24 := 0
  limit : BitVec 24 := 0
  en : Bool := false
  rdyWait : Bool := false
  width : BitVec 2 := 0
  setup : BitVec 4 := 0
  strobe : BitVec 6 := 0
  hold : BitVec 4 := 0
  mask : Byte := 0
  rdyTimeout : Byte := 0
  turn : BitVec 4 := 0
  deriving DecidableEq, Repr

/-- One master cycle of an access (R203, R239): its address, the bytes it moves, and for a write their values. -/
structure MCycle where
  addr : Nat
  n : Nat
  out : Option (List Byte)
  deriving DecidableEq, Repr

/-- What an access is, and so what it does once its last cycle has run; the bytes are those that its reads give. -/
inductive AccessKind where
  /-- a burst of a transfer (R238). -/
  | burst (data : List Byte)
  /-- an entry of a list walk (R241): on the destination side or not. -/
  | entry (dst : Bool) (data : List Byte)
  /-- step 1 of R246: the byte that holds OWN. -/
  | poll (own : Byte)
  /-- step 2 of R246. -/
  | desc (data : List Byte)
  /-- the completion writes of a software descriptor (R248). -/
  | soft
  /-- the completion writes of a command (R286, R287). -/
  | post (slot : Nat)
  deriving DecidableEq, Repr

/-- An access of a channel by master cycles: the studio on whose behalf it runs (R206), its transfer where it has one, its
cycles still to run, and what it has written so far. -/
structure Access where
  chan : Fin 16
  behalf : Fin 8
  xfer : Option Nat
  kind : AccessKind
  cycles : List MCycle
  wrote : List Host.Cell := []
  deriving DecidableEq, Repr

/-- The host bus unit (R182 to R210). -/
structure Hbu where
  aliases : Vector Alias 8 := Vector.replicate 8 {}
  /-- the mirror's own latch and snapshot (R184). -/
  mirLatch : Option WLatch := none
  mirSnap : Option (BitVec 16 × Word) := none
  /-- WHISTLE.WSEQ of the mirror path. -/
  mirWseq : BitVec 16 := 0
  /-- mailbox SRAM, 8 KiB, and queue-ring SRAM, 16 KiB: bytes that are not 0, by rising address. -/
  mailbox : List Host.Cell := []
  ringSram : List Host.Cell := []
  /-- HB_CFG. -/
  masterEn : Bool := false
  rdyEn : Bool := true
  pioWaitTicks : BitVec 4 := 0
  gntTimeout : Byte := 0
  tenureMax : Byte := 0
  releaseGap : BitVec 4 := 0
  /-- HB_STAT[15:6]. -/
  flags : BitVec 10 := 0
  /-- HB_BREQ_N pulled low; HB_BGNT_N and HB_BUSY_N as last sampled (inputs). -/
  breq : Bool := false
  gnt : Bool := false
  busyIn : Bool := false
  /-- HB_BREQ_N is kept released for one TICK after GNT_TIMEOUT (R207). -/
  breqHold : Bool := false
  /-- cycles run in the tenure under way (R204). -/
  tenure : Option Nat := none
  /-- the access by master cycles that is under way. -/
  access : Option Access := none
  /-- the HBU waits its release gap (R204). -/
  gap : Bool := false
  /-- target cycles held in DOZE, oldest first (R92): one on HB_RDY, behind reads that the host has ended early (R191). -/
  heldCycle : List Cycle := []
  /-- data of the latest target read (an output). -/
  readData : Option Word := none
  /-- the bytes that the latest access that wrote by master cycles has put into host memory, in order (an output). -/
  lastWrite : List Host.Cell := []
  deriving DecidableEq, Repr

/-! ## Pools (R38, R431 to R434, R451) -/

/-- Work that reads and writes members: a command, a flush, an array's background step, a stream prefetch, or what
the manager asked this worker for. -/
inductive Work where
  | cmd (slot : Nat)
  | flush (id : Nat)
  | background (array : Fin 4)
  | stream (layer : Fin 32) (n : Nat)
  | remote (tag epoch : Byte)
  /-- the trim of a deleted volume's range (R368). -/
  | volTrim (v : Fin 64)
  deriving DecidableEq, Repr

/-- A chunk of a stripe: array, region (true: the new region of a repaint), stripe and position. -/
structure ChunkAt where
  array : Fin 4
  newRegion : Bool
  stripe : Nat
  pos : Nat
  deriving DecidableEq, Repr

/-- What a waiting pool request is for. -/
inductive PoolUse where
  /-- a DMA_DESC unit of the transfer with this number. -/
  | dmaDesc (xfer : Nat)
  /-- a canvas tile that some work needs. -/
  | tiles (w : Work)
  deriving DecidableEq, Repr

/-- A request that waits for units of a pool; none is SYSTEM (R434). -/
structure PoolReq where
  pool : Fin 20
  who : Option (Fin 8)
  n : Nat
  use : PoolUse
  deriving DecidableEq, Repr

/-- One pool's counts (R38, R450, R451). -/
structure Pool where
  total : Nat
  free : Nat
  system : Nat := 0
  held : Vector Nat 8 := Vector.replicate 8 0
  /-- units that the allocator's own map shows free. -/
  mapFree : Nat
  sysPeak : Nat := 0
  freeMin : Nat
  waits : Word := 0
  /-- the studio granted last; the next round starts after it. -/
  rr : Fin 8 := 7
  deriving DecidableEq, Repr

/-- A pool all of whose units are FREE. -/
def Pool.full (n : Nat) : Pool := { total := n, free := n, mapFree := n, freeMin := n }

/-- The 20 pools in the order of R172: CMD_SLOT, RANGE_LOCK, CANVAS_TILE, TIER2_TILE, JOURNAL_PAGE, DMA_DESC, eight
MEMBER_SLOT, and the RING_CREDIT pools of FA and FB. -/
def poolsReset : Vector Pool 20 :=
  #v[.full 256, .full 384, .full 1024, .full 0, .full 2048, .full 256, .full 32, .full 32, .full 32, .full 32,
     .full 32, .full 32, .full 32, .full 32, .full 64, .full 64, .full 64, .full 64, .full 64, .full 64]

/-- The Ledger (R450 to R453). -/
structure Ledger where
  pools : Vector Pool 20 := poolsReset
  waiting : List PoolReq := []
  /-- LEDGER_SUM. -/
  fail : Bool := false
  failPool : BitVec 5 := 0
  failKind : BitVec 2 := 0
  auditTick : BitVec 24 := 0
  deriving DecidableEq, Repr

/-! ## DMA engine -/

/-- A loop spec (R242). -/
structure LoopSpec where
  c0 : Nat
  c1 : Nat
  c2 : Nat
  elem : Nat
  s0 : Int
  s1 : Int
  s2 : Int
  deriving DecidableEq, Repr

/-- One side of a transfer: an address pattern (R240), or the part's own end. -/
inductive Side where
  | flat (base : Nat)
  /-- a list walk: next entry's address, data runs still to move, links in a row (R241). -/
  | list (next : Nat) (runs : List (Nat × Nat)) (links : Nat)
  | loops (base : Nat) (spec : LoopSpec)
  | fill (pattern : Word)
  /-- the part's own memories: pages, tiles, rings or a layer's buffer. -/
  | device
  deriving DecidableEq, Repr

/-- What a transfer is for. -/
inductive XferKind where
  /-- the fetch of the command in a CMD_SLOT. -/
  | fetch (slot : Nat)
  /-- the data of the command in a CMD_SLOT: true when the part reads host memory. -/
  | data (slot : Nat) (fromHost : Bool)
  /-- the completion of the command in a CMD_SLOT. -/
  | post (slot : Nat)
  /-- the read of a software descriptor: slot index. -/
  | desc (idx : Nat)
  /-- a software descriptor: slot index, TAG, IRQ, STOP. -/
  | soft (idx : Nat) (tag : Word) (irq stop : Bool)
  /-- a refill of a host-fed layer. -/
  | refill (layer : Nat)
  deriving DecidableEq, Repr

/-- One transfer (R237, R238). -/
structure Xfer where
  id : Nat
  kind : XferKind
  studio : Fin 8
  /-- the transfer runs in SYSTEM (a Palette refill). -/
  system : Bool := false
  src : Side
  dst : Side
  length : Nat
  /-- bytes whose bursts were written in full (R250). -/
  pos : Nat := 0
  /-- it holds its DMA_DESC unit. -/
  hasDesc : Bool := false
  /-- every data write has ended, with this status and detail; the completion is due. -/
  ended : Option (Byte × Byte) := none
  deriving DecidableEq, Repr

/-- DMA_CHAN.STATE (R258, R261). -/
inductive ChanState where
  | disabled | idle | polling | running | halted | stopping
  deriving DecidableEq, Repr

/-- One channel: its entry and its transfer (R233, R261). -/
structure Chan where
  en : Bool := true
  user : BitVec 2 := 0
  cmode : BitVec 2 := 0
  studio : Fin 8 := 0
  prefetch : BitVec 4 := 0
  poll : Byte := 0
  ringLog2 : BitVec 4 := 0
  ringBase : BitVec 24 := 0
  crecBase : BitVec 24 := 0
  startIdx : BitVec 10 := 0
  state : ChanState := .idle
  phase : Bool := true
  nextIdx : BitVec 10 := 0
  lastStatus : Byte := 0
  lastDetail : Byte := 0
  faultAddr : BitVec 24 := 0
  doneCount : Word := 0
  bytes : Dword := 0
  /-- the transfer in progress. -/
  cur : Option Xfer := none
  /-- SOFT: step 1 of R246 is due, the read of the unit that holds the OWN bit. -/
  look : Bool := false
  deriving DecidableEq, Repr

/-- The DMA engine (R233 to R262). -/
structure Dma where
  chans : Vector Chan 16 := Vector.replicate 16 {}
  /-- DMA_GCTRL.EN. -/
  en : Bool := true
  faultSeen : Bool := false
  wbFaultSeen : Bool := false
  /-- queue-engine transfers waiting for a channel, in the order of their creation (R234). -/
  waiting : List Xfer := []
  /-- round-robin positions of the PALETTE channels and of the others (R236). -/
  rrPal : Fin 16 := 15
  rrOther : Fin 16 := 15
  /-- number of the next transfer. -/
  nextId : Nat := 0
  deriving DecidableEq, Repr

/-! ## Queues, commands, locks -/

/-- QUEUE.STATE (R266, R550). -/
inductive QState where
  | disabled | running | frozen | draining
  deriving DecidableEq, Repr

/-- A submission queue (R266). -/
structure Sq where
  en : Bool := false
  loc : Bool := false
  errMode : Bool := false
  cmode : Bool := false
  cqSel : BitVec 2 := 0
  wbIen : Bool := false
  depthLog2 : BitVec 4 := 0
  base : BitVec 24 := 0
  state : QState := .disabled
  head : Nat := 0
  fetch : Nat := 0
  tail : Nat := 0
  outstanding : Nat := 0
  lastStatus : Byte := 0
  lastDetail : Byte := 0
  fetched : Word := 0
  errors : Word := 0
  /-- the CMD_SLOT of the held command of a freeze of cause 0 (R305). -/
  heldSlot : Option Nat := none
  /-- ring slot of the latest freeze (R308). -/
  freezeSlot : Nat := 0
  /-- discard-to-tail goes on until FETCH reaches this tail (R309). -/
  discardTo : Option Nat := none
  /-- ring slots completed out of order, ahead of HEAD (R286). -/
  doneAhead : List Nat := []
  /-- the CMD_SLOT of the held completion that is posted before the others of a DRAINING queue (R311). -/
  first : Option Nat := none
  deriving DecidableEq, Repr

/-- A completion queue (R267). -/
structure Cq where
  en : Bool := false
  loc : Bool := false
  ien : Bool := false
  depthLog2 : BitVec 4 := 0
  base : BitVec 24 := 0
  run : Bool := false
  head : Nat := 0
  phase : Bool := true
  tail : Nat := 0
  reserved : Nat := 0
  posted : Word := 0
  deriving DecidableEq, Repr

/-- The opcodes (R279). -/
inductive Opcode where
  | nop | read | write | verify | trim | flush | whistle
  deriving DecidableEq, Repr

/-- A command's data pointer type (R275). -/
inductive Dptr where
  | flat | list | loops | fifo
  deriving DecidableEq, Repr

/-- A decoded command (R275). -/
structure Cmd where
  op : Opcode
  urgent : Bool
  dptr : Dptr
  cid : Half
  volume : Fin 64
  qmask : BitVec 4
  slba : Nat
  nlb : Nat
  daddr : Nat
  loops : LoopSpec
  deriving DecidableEq, Repr

/-- Where a fetched command stands (model of ch. 11: slot, pick, fetch, check, lock, effect, completion). -/
inductive Stage where
  /-- its 64 bytes are being fetched. -/
  | fetching
  /-- its ring slot is being read for its CID, to be completed ABORTED (R309). -/
  | discarding
  /-- a WRITE held by back-pressure before its lock request (R273). -/
  | pressed
  /-- its lock request waits (R296). -/
  | lockWait
  /-- checks passed, its lock held where it takes one: its effect may run. -/
  | ready
  /-- its effect is under way. -/
  | active
  /-- a WHISTLE or FLUSH that waits (R225, R284). -/
  | waiting
  /-- its status is decided, and it waits for the held completion that its DRAINING queue posts first (R311). -/
  | behind
  /-- its status is decided and its completion is due. -/
  | done
  /-- held by a freeze (R305). -/
  | held
  deriving DecidableEq, Repr

/-- A command in its CMD_SLOT (R274). -/
structure Slot where
  sq : Fin 32
  /-- its place in pick order (R273). -/
  order : Nat := 0
  /-- its place in fetch order, taken with its lock request (R273, R278). -/
  turn : Nat := 0
  /-- it was fetched before the latest freeze of its queue (R305). -/
  late : Bool := false
  /-- ring slot. -/
  idx : Nat
  stage : Stage := .fetching
  bytes : List Byte := []
  cmd : Option Cmd := none
  cid : Half := 0xFFFF
  status : Byte := 0
  detail : Byte := 0
  result : Word := 0
  retouched : Bool := false
  urgent : Bool := false
  /-- journal pages reserved for it and not yet filled (R376). -/
  reserved : Nat := 0
  /-- sectors of its data received or delivered so far. -/
  moved : Nat := 0
  /-- sectors already covered by its sealed records. -/
  sealedTo : Nat := 0
  /-- for a WRITE: the array tiles it touches that have a page, with the page and whether it has been programmed. -/
  pages : List (Nat × Nat × Bool) := []
  /-- for a WRITE or TRIM: a record program has been requested and has not ended. -/
  sealing : Bool := false
  /-- for a FIFO READ that has failed: the status and detail it ends with once the host has popped what was delivered
  (R278, R280). -/
  ending : Option (Byte × Byte) := none
  /-- for a VERIFY: sectors of its range whose stripes are finished, the stripe under way with its region, its tile rows
  that are finished, and rows skipped and corrected. -/
  vpos : Nat := 0
  vcur : Option (Bool × Nat) := none
  vrow : Nat := 0
  skipped : Nat := 0
  corrected : Nat := 0
  /-- for a FLUSH: CSEQ of each record it waits for (R284). -/
  covers : List Word := []
  /-- for a WHISTLE: covered queues with their recorded tails (R225). -/
  tails : List (Fin 32 × Nat) := []
  /-- for a WHISTLE: a covered queue became FROZEN or DISABLED while it waits (R227). -/
  wabort : Bool := false
  /-- its studio was reset, and it only waits for its attempts on a bus to end (R463). -/
  orphan : Bool := false
  deriving DecidableEq, Repr

/-- What a lock is for (R299, KIND). -/
inductive LockKind where
  | command | child | restoration | copyBack | inspection | repaint | flush
  deriving DecidableEq, Repr

/-- A range lock or a request for one (R293 to R299). -/
structure Lock where
  excl : Bool
  /-- none: counted in SYSTEM. -/
  studio : Option (Fin 8)
  array : Fin 4
  start : Nat
  count : Nat
  sq : Nat := 0
  kind : LockKind
  /-- the work it is held for; a child's is its parent's. -/
  work : Work
  /-- its place in the request line; a child takes its parent's (R296). -/
  place : Nat := 0
  deriving DecidableEq, Repr

/-- The queue engine (R263 to R313). -/
structure Queues where
  sqs : Vector Sq 32 := Vector.replicate 32 {}
  cqs : Vector Cq 32 := Vector.replicate 32 {}
  /-- commands by CMD_SLOT index. -/
  slots : List (Nat × Slot) := []
  /-- the queue picked last; the next search starts after it (R272). -/
  lastPick : Fin 32 := 31
  nextPick : Nat := 1
  /-- held locks by RANGE_LOCK unit, and the request line in order of place (R296). -/
  locks : List (Nat × Lock) := []
  line : List Lock := []
  nextPlace : Nat := 0
  /-- PEND and the running coalescing timer of each studio (R291). -/
  pend : Vector Nat 8 := Vector.replicate 8 0
  timer : Vector Bool 8 := Vector.replicate 8 false
  deriving DecidableEq, Repr

/-! ## Members -/

/-- MEMBER.STATE (R333, R344). -/
inductive MState where
  | absent | probing | blank | foreign | bench | active | stale | missing | failed | retired
  deriving DecidableEq, Repr

/-- A signature block (R327); the ARRAY and VOLUME copies are words. -/
structure Sig where
  /-- 1 array member, 2 bench, 3 retired. -/
  roleKind : BitVec 3
  fabricId : Dword
  generation : Word
  array : Fin 4
  role : Fin 128
  home : Fin 128
  benchMask : BitVec 4
  cidHash : Word
  capacity : Dword
  configSeq : Word
  arrayWords : List Word
  volWords : List Word
  deriving DecidableEq, Repr

/-- Word 0 of a MEMBER entry: kept in NV (R344). -/
structure MemberCfg where
  portKind : BitVec 2 := 0
  clkCap : BitVec 2 := 0
  ilim : BitVec 2 := 1
  timeout : BitVec 5 := 25
  mediaLimit : Byte := 16
  deriving DecidableEq, Repr

/-- A MEMBER entry (R344). -/
structure Member where
  cfg : MemberCfg := {}
  state : MState := .absent
  mode : BitVec 4 := 0
  pad : BitVec 2 := 0
  kind : BitVec 2 := 0
  steps : BitVec 4 := 0
  lastChange : Byte := 0
  eraseOnes : Bool := false
  sig : Option Sig := none
  capacity : Dword := 0
  cidHash : Word := 0
  /-- the CID register of the card present, as identification read it. -/
  cid : Vector Byte 16 := Vector.replicate 16 0
  phase : BitVec 5 := 0
  identMs : Half := 0
  linkErrs : Word := 0
  retries : Word := 0
  mediaErrs : Word := 0
  timeouts : Word := 0
  ops : Dword := 0
  changeTick : Word := 0
  /-- on a manager, for a worker's port: MEMBER_SLOT units held, as reported. -/
  slots : Byte := 0
  /-- its signature block is to be rewritten as its state asks (R329). -/
  sigDue : Bool := false
  /-- a copy that was found invalid is to be rewritten, beside a valid one: none, A (false) or B (true) (R328). -/
  sigMend : Option Bool := none
  deriving DecidableEq, Repr

/-- The Referee's classes (R441). -/
inductive OpClass where
  | a | b | c
  deriving DecidableEq, Repr

/-- What a member operation does (R335). -/
inductive OpKind where
  | read | write | erase
  deriving DecidableEq, Repr

/-- What a member operation is part of. -/
inductive OpUse where
  /-- a read of consecutive tile rows of a chunk, from the first one named. -/
  | chunk (w : Work) (at' : ChunkAt) (row rows : Nat)
  /-- a member write or erase. -/
  | write (w : Work)
  /-- a signature write: copy A (false) or B (true), and whether the running management command asked for it. -/
  | sig (copyB mgmt : Bool)
  /-- the rewrite of the one signature copy that identification found invalid (R328). -/
  | mend (copyB : Bool)
  deriving DecidableEq, Repr

/-- A member operation (R335, R441). -/
structure MOp where
  id : Nat
  member : Fin 128
  cls : OpClass
  /-- the studio of a class B operation. -/
  studio : Fin 8 := 0
  /-- class A: deadline in TICKs and layer. -/
  deadline : Nat := 0
  layer : Nat := 0
  kind : OpKind
  sector : Nat
  count : Nat
  use : OpUse
  /-- data of a write, a sector each. -/
  data : List (BitVec 4096) := []
  /-- retries made in the present mode, and whether the port has stepped down for it (R336). -/
  tries : Nat := 0
  stepped : Bool := false
  deriving DecidableEq, Repr

/-- A member port of this node (R318 to R325, R335 to R343, R442, R443). -/
structure Port where
  /-- accepted card-detect level: a card is present. -/
  cdLow : Bool := false
  /-- the level of SDn_CD_N as last sampled: low. -/
  cdNow : Bool := false
  /-- a level has been accepted since the count began at the end of stage 3 (R318). -/
  cdKnown : Bool := false
  /-- equal samples in a row of a level that is not accepted, up to 2500 (R318). -/
  cdCount : Nat := 0
  /-- discovery on this port has ended (R128 stage 5). -/
  discovered : Bool := false
  /-- SDn_PWR_EN is high. -/
  powered : Bool := false
  /-- TICKs since SDn_PWR_EN went low, up to 1000; and the card is to be powered once they have passed (R319). -/
  offTicks : Nat := 0
  powerDue : Bool := false
  /-- word 0 of the entry as the present identification took it (R344). -/
  cfg : MemberCfg := {}
  /-- the modes that the port may use on the card, highest first (R324), and the current limit set in it (R321). -/
  rungs : List (BitVec 4) := []
  limit : Option (BitVec 2) := none
  /-- a class M reset runs; the state and signature the member held before it (R127). -/
  classM : Option (MState × Option Sig) := none
  /-- a failure held while SDn_CD_N reads high, with the tuning of its retry (R339). -/
  heldFail : Option Tunes := none
  /-- the class queues, in order of creation. -/
  qa : List MOp := []
  qb : List MOp := []
  qc : List MOp := []
  /-- operations issued and not yet reported, in issue order. -/
  issued : List MOp := []
  /-- done[3], deficits, round-robin pointer (R443). -/
  doneA : Nat := 0
  doneB : Nat := 0
  doneC : Nat := 0
  deficit : Vector Nat 8 := Vector.replicate 8 0
  rr : Fin 8 := 0
  deriving DecidableEq, Repr

/-- The member ports and the fabric's members (R314 to R346). -/
structure Members where
  tbl : Vector Member 128 := Vector.replicate 128 {}
  ports : Vector Port 8 := Vector.replicate 8 {}
  /-- MEMBER_EVT. -/
  nodeChg : Half := 0
  portChg : Byte := 0
  lastMember : BitVec 7 := 0
  /-- number of the next member operation. -/
  nextOp : Nat := 0
  deriving DecidableEq, Repr

/-! ## Arrays and volumes -/

/-- ARRAY.STATE (R359). -/
inductive AState where
  | none | stopped | assembling | replaying | optimal | degraded | restoring | offline
  deriving DecidableEq, Repr

/-- A role's record (R123). -/
inductive RoleState where
  | present | missing | failed | target
  deriving DecidableEq, Repr

/-- The member that fills a role, and the role's state (R123). -/
structure Role where
  member : Fin 128
  state : RoleState
  deriving DecidableEq, Repr

/-- The shape of an array: words 0 and 1 of its entry (R348, R364). -/
structure Shape where
  layout : BitVec 2 := 0
  chunk : BitVec 3 := 0
  n : Nat := 0
  s : Nat := 0
  g : Nat := 0
  seed : Word := 0
  deriving DecidableEq, Repr

/-- Repaint sub-state (R364, R548). -/
inductive Sub where
  | none | active | paused
  deriving DecidableEq, Repr

/-- Cause of a repaint's pause (R123). -/
inductive PauseCause where
  | none | operator | loss | restart
  deriving DecidableEq, Repr

/-- A repaint of an array (R419 to R430). -/
structure Repaint where
  sub : Sub := .none
  /-- 1: a return (R428). -/
  back : Bool := false
  cause : PauseCause := .none
  shape : Shape := {}
  origin : Nat := 0
  rows : Nat := 0
  /-- K, the copy limit. -/
  k : Nat := 0
  /-- M, the committed watermark. -/
  wmark : Nat := 0
  /-- A, the return mark. -/
  rmark : Nat := 0
  /-- F, the volatile front. -/
  front : Nat := 0
  deriving DecidableEq, Repr

/-- An array: its record in the NV configuration and its run-time state (R123, R364). -/
structure Arr where
  shape : Shape := {}
  autoResume : Bool := false
  rows : Nat := 0
  origin : Nat := 0
  state : AState := .none
  sparesUsed : Nat := 0
  generation : Word := 0
  spareRole : Word := 0
  cap : Nat := 0
  /-- BG_KIND: 0 none, 1 restoration, 2 copy-back, 3 inspection, 4 repaint. -/
  bgKind : BitVec 4 := 0
  bgPaused : Bool := false
  bgTarget : Fin 128 := 0
  /-- progress at the latest checkpoint, and the live mark. -/
  bgStripe : Nat := 0
  mark : Nat := 0
  mismatches : Word := 0
  /-- mismatches found by the inspection under way. -/
  found : Nat := 0
  /-- tile rows of the step under way that are finished, and whether its member writes have been created. -/
  bgRow : Nat := 0
  bgIssued : Bool := false
  label : Vector Word 4 := Vector.replicate 4 0
  offlineMark : Bool := false
  salvage : Bool := false
  /-- a restoration into spares has taken rank u − 1 and has not finished (R401). -/
  rankBusy : Bool := false
  repaint : Repaint := {}
  roles : List Role := []
  /-- STOP_ARRAY accepted and not yet at its step 3 (R547). -/
  stopping : Bool := false
  /-- STOPPED by STOP_ARRAY: R26 does not assemble it until a reset (R362). -/
  held : Bool := false
  /-- a role lost at assembly or during replay, for which R400 chooses when replay ends; or one lost while a step of a
  repaint is in flight, which ends first (R429). -/
  lossDue : Option Nat := none
  /-- a generation advance waits until every ACTIVE member holds the present generation (R330). -/
  advDue : Bool := false
  deriving DecidableEq, Repr

/-- VOLUME.STATE (R370). -/
inductive VState where
  | gone | online | stopped
  deriving DecidableEq, Repr

/-- A volume (R366 to R370). -/
structure Vol where
  array : Fin 4 := 0
  owner : Fin 8 := 0
  base : Nat := 0
  size : Nat := 0
  state : VState := .gone
  trimming : Bool := false
  label : Vector Word 3 := Vector.replicate 3 0
  deriving DecidableEq, Repr

/-! ## Canvas memory and Sketchbook -/

/-- A tile's contents: eight sectors. -/
abbrev TileData := Vector (BitVec 4096) 8

/-- What a canvas tile is bound to (R371). -/
inductive Bind where
  /-- array tile number: array sectors 8t to 8t + 7. -/
  | array (a : Fin 4) (tile : Nat)
  /-- the parity tile of a tile row of a stripe. -/
  | parity (a : Fin 4) (stripe row : Nat)
  /-- a stream or refill tile of a layer, by its number in the layer's order. -/
  | stream (layer : Fin 32) (n : Nat)
  /-- a FILLING tile of a WRITE: its CMD_SLOT and the array tile it covers (R372). -/
  | filling (slot : Nat) (a : Fin 4) (tile : Nat)
  /-- a tile read from a member as it stands there, for the work that uses it; an input of an XOR. -/
  | raw (w : Work) (at' : ChunkAt) (row : Nat)
  /-- the partial sum that a worker gives of its chunks, for the retouch of a chunk's tile row (R398). -/
  | sum (w : Work) (at' : ChunkAt) (row : Nat) (node : BitVec 4)
  /-- a bus's delay line (R525). -/
  | delay (bus : Fin 8)
  deriving DecidableEq, Repr

/-- A bound canvas tile (R371, R435). -/
structure Tile where
  bind : Bind
  valid : BitVec 8
  dirty : Bool
  data : TileData
  /-- the studio it is charged to; none is SYSTEM. -/
  charge : Option (Fin 8)
  /-- pins held on it (R435). -/
  pins : Nat := 0
  /-- when it was last used, and when a seal last merged into it. -/
  used : Nat := 0
  sealAt : Nat := 0
  deriving DecidableEq, Repr

/-- Canvas memory and the second tier (R371, R436 to R439). -/
structure Canvas where
  /-- bound tiles by physical tile number. -/
  tiles : List (Nat × Tile) := []
  /-- what FREE tiles last held, by physical tile number (R396). -/
  ghosts : List (Nat × TileData) := []
  /-- second-tier tiles by number. -/
  tier2 : List (Nat × Tile) := []
  /-- use counter, for least recently used. -/
  clock : Nat := 0
  /-- the model's own: class P resets so far; what a tile holds before anything fills it is open again after each. -/
  era : Nat := 0
  /-- density code and write latency read by the probe, and failures of the transfer in hand (R438). -/
  density : BitVec 3 := 0
  wlat : BitVec 4 := 0
  fails : Nat := 0
  /-- the second tier has been probed since the latest reset, so that its pins have left their reset states (R60). -/
  probed : Bool := false
  deriving DecidableEq, Repr

/-- KIND of an index record (R377). -/
inductive RecKind where
  | write | trim | parity
  deriving DecidableEq, Repr

/-- An index record (R377). -/
structure Rec where
  kind : RecKind
  last : Bool
  array : Fin 4
  cseq : Word
  start : Nat
  volume : Fin 64
  studio : Fin 8
  count : Nat
  stripe : Nat
  cid : Half
  sealTick : Word
  /-- page numbers with their tile rows. -/
  pages : List (Nat × Nat)
  /-- PCRC of each page. -/
  pcrcs : List Word := []
  trimDone : Nat := 0
  /-- TRIM: sectors of the range whose member work has responded, ahead of TRIM_DONE. -/
  applied : Nat := 0
  retired : Bool := false
  /-- its pages are counted in SYSTEM (R431). -/
  system : Bool := false
  /-- its command's completion has been posted (R284, R382). -/
  posted : Bool := false
  /-- the model's own link to its command: its place in pick order. -/
  order : Nat := 0
  /-- the stripes of the old and of the new region in which its write-out has responded (R381, R425). -/
  doneOld : List Nat := []
  doneNew : List Nat := []
  /-- PARITY: every member write of its tile rows has responded (R381). -/
  carried : Bool := false
  deriving DecidableEq, Repr

/-- A programmed page: the sectors written, and which they are; the others are undefined (R375). -/
structure Page where
  written : BitVec 8
  data : TileData
  /-- its contents fail their PCRC (R373). -/
  bad : Bool := false
  deriving DecidableEq, Repr

/-- A program operation of the Sketchbook, waiting its turn (R374). -/
inductive ProgOp where
  /-- a page of the command in a CMD_SLOT: page number, record of the command it belongs to, contents. -/
  | page (slot pg : Nat) (p : Page)
  /-- an index record of the command in a CMD_SLOT (none: a PARITY record or a TRIM of the part's own): its slot. -/
  | record (owner : Option Nat) (slot : Nat) (r : Rec)
  /-- a page of a PARITY record of the flush with this number. -/
  | parity (flush pg : Nat) (p : Page)
  /-- an NV commit. -/
  | nv
  /-- the session page, OPEN or CLOSED (R124). -/
  | session (opened : Bool)
  /-- the black-box page of a slot, with its new record (R563). -/
  | bbox (slot : Nat) (r : BbRec)
  /-- the RETIRE word of a record (R381). -/
  | retire (slot : Nat)
  /-- the TRIM_DONE word of a record, and its new value (R389). -/
  | trimDone (slot n : Nat)
  /-- on a worker: a page (false) or the index record (true) of the landing record of a served write (R493). -/
  | land (tag epoch : Byte) (last : Bool)
  deriving DecidableEq, Repr

/-- A chunk's tile that some work asked for and whose read failed: after the retries of R337, or on a worker (R398). -/
structure RawMark where
  w : Work
  at' : ChunkAt
  row : Nat
  /-- a retouch that it caused has been noted for mending (R399). -/
  noted : Bool := false
  deriving DecidableEq, Repr

/-- A flush of one stripe (R382 to R386). -/
structure Flush where
  id : Nat
  array : Fin 4
  newRegion : Bool
  stripe : Nat
  /-- CSEQ of the WRITE and TRIM records whose data or zeros it carries, as of its first step (R381). -/
  carries : Option (List Word) := none
  /-- the tile rows of the step under way. -/
  rows : List Nat := []
  /-- tile rows already written. -/
  doneRows : List Nat := []
  /-- PARITY records of the step that are still to be sealed, by record slot; none while the step has asked for
  none. -/
  parity : Option (List (Nat × Rec)) := none
  /-- record slots of the step's sealed PARITY records. -/
  intents : List Nat := []
  /-- the step's member writes have been created. -/
  issued : Bool := false
  /-- the TRIM that is applied by it: record slot (R389). -/
  trim : Option Nat := none
  /-- a replay flush takes no lock (R294, R390). -/
  replay : Bool := false
  /-- it runs under the lock of the work that found its row to be corrected (R295, R408). -/
  nolock : Bool := false
  /-- a tile to be mended: its tile row and position in the stripe (R399). -/
  mend : Option (Nat × Nat) := none
  /-- a tile row whose parity is rewritten from its data (R408). -/
  fix : Option Nat := none
  deriving DecidableEq, Repr

/-- The Sketchbook and the stripe engine's work (R371 to R396). -/
structure Skb where
  /-- programmed pages by page number. -/
  pages : List (Nat × Page) := []
  /-- pages allocated and not free. -/
  usedPages : List Nat := []
  /-- index records by slot. -/
  recs : List (Nat × Rec) := []
  /-- slots torn by a trip, with the number of the free value that each holds: KIND defined and a wrong CRC (R380). -/
  torn : List (Nat × Nat) := []
  /-- next commit sequence number. -/
  cseq : Word := 1
  /-- page and record slot allocated last. -/
  lastPage : Nat := 2047
  lastRec : Nat := 2047
  /-- SKB_STAT.SCAN_DONE and FORCED. -/
  scanDone : Bool := false
  forced : Bool := false
  /-- PAUSE as it stood last. -/
  pause : Bool := false
  /-- SKB_CTRL. -/
  pausePct : Nat := 95
  hwmPct : Nat := 75
  flushAge : Nat := 100
  /-- stripes asked to be flushed: array, stripe. -/
  wanted : List (Fin 4 × Nat) := []
  /-- flushes under way, and the number of the next. -/
  flushes : List Flush := []
  nextFlush : Nat := 0
  marks : List RawMark := []
  /-- tiles to be mended: chunk and tile row (R399). -/
  mends : List (ChunkAt × Nat) := []
  deriving DecidableEq, Repr

/-! ## NV configuration area -/

/-- REFEREE entries' RWC fields (R448). -/
structure RefCfg where
  weight : Vector Byte 8 := Vector.replicate 8 16
  issueAhead : Nat := 2
  aMaxPct : Nat := 50
  cMinPct : Nat := 25
  resDma : Nat := 16
  resLock : Nat := 32
  resPage : Nat := 16
  resTile : Nat := 192
  streamTiles : Nat := 128
  readKbs : Vector Nat 4 := Vector.replicate 4 0
  deriving DecidableEq, Repr

/-- STUDIO entry words 0 to 7 (R455). -/
structure StudioCfg where
  en : Bool := false
  mbxWr : Byte := 0
  mbxRd : Byte := 0
  coalTime : Byte := 0
  coalCount : Byte := 0
  qCmd : Nat := 0
  qLock : Nat := 0
  qTile : Nat := 0
  qPage : Nat := 0
  qDma : Nat := 0
  label : Vector Word 2 := Vector.replicate 2 0
  deriving DecidableEq, Repr

/-- The default STUDIO entry: its own mailbox page, and EN for the house studio (R198, R455). -/
def StudioCfg.default (s : Nat) : StudioCfg :=
  { en := s == 0, mbxWr := BitVec.ofNat 8 (1 <<< s), mbxRd := BitVec.ofNat 8 (1 <<< s) }

/-- The default STUDIO entries. -/
def studioCfgs : Vector StudioCfg 8 :=
  #v[.default 0, .default 1, .default 2, .default 3, .default 4, .default 5, .default 6, .default 7]

/-- What an NV copy's body holds (R122, R123). -/
structure NvBody where
  /-- a manager's body; false: a worker's, which holds MEMBER and REFEREE alone. -/
  manager : Bool := true
  roster : Vector Bool 16 := (Vector.replicate 16 false).set 0 true
  memberCfg : Vector MemberCfg 8 := Vector.replicate 8 {}
  referee : RefCfg := {}
  regions : Vector HostRegion 4 := Vector.replicate 4 {}
  studios : Vector StudioCfg 8 := studioCfgs
  arrs : Vector Arr 4 := Vector.replicate 4 {}
  vols : Vector Vol 64 := Vector.replicate 64 {}
  deriving DecidableEq, Repr

/-- An NV configuration copy as the header and body checks see it (R121, R126). -/
inductive NvCopy where
  /-- all header bytes 0; its other pages were never programmed, or hold what the free value of that number says. -/
  | blank (kept : Option Nat)
  /-- neither blank nor header-valid: it holds what the free value of that number says. -/
  | bad (n : Nat)
  /-- header-valid with a body that fails its check: the header is that of this body, and what stands in the body's place
  beyond the header page is the free value of that number. -/
  | bodyBad (seq : Word) (fabricId : Dword) (node : BitVec 4) (body : NvBody) (n : Nat)
  | valid (seq : Word) (fabricId : Dword) (node : BitVec 4) (body : NvBody)
  deriving DecidableEq, Repr

/-- The session word (R120, R124). -/
inductive Session where
  | blank | opened | closed
  /-- its page was torn by a trip: it holds what the free value of that number says. -/
  | torn (n : Nat)
  deriving DecidableEq, Repr

/-- What an NV commit changes when its header page has been programmed (R125, R170). -/
inductive NvChange where
  /-- the present configuration, already changed by the event that requested the commit. -/
  | keep
  /-- a table entry staged through a path: space, entry, words. -/
  | table (p : Path) (space : Byte) (entry : Nat) (words : List Word)
  /-- the progress of a background pass of an array (R129). -/
  | mark (a : Fin 4) (m : Nat)
  /-- the finish of the background pass of an array (R404, R405, R407). -/
  | finish (a : Fin 4)
  /-- the front of a repaint or a return of an array, as its watermark or its return mark (R423). -/
  | front (a : Fin 4) (m : Nat)
  /-- the cutover of a repaint (R425), and the end of a return (R428). -/
  | cutover (a : Fin 4)
  | back (a : Fin 4)
  /-- what the management command being run changes. -/
  | mgmt
  /-- on a worker: an entry that the manager forwarded (R170, R449). -/
  | fwd (space : Byte) (entry : Nat) (words : List Word)
  /-- on a worker: the identity and number that a ROLL_ASSIGN with this tag gives it (R485). -/
  | assign (fabricId : Dword) (node : BitVec 4) (tag : Byte)
  deriving DecidableEq, Repr

/-- The NV configuration area and its commits (R121 to R126, R563, R564). -/
structure Nv where
  a : NvCopy := .blank none
  b : NvCopy := .blank none
  /-- the present copy: none on a blank part, false A, true B. -/
  present : Option Bool := none
  session : Session := .blank
  /-- the black-box slots that have been programmed, and each of its two pages torn by a trip, with the number of the free
  value that its slots then hold (R563, R564). -/
  bbox : List (Nat × BbRec) := []
  bbTorn : Vector (Option Nat) 2 := Vector.replicate 2 none
  /-- next BSEQ. -/
  bseq : Half := 0
  /-- the program operations of the Sketchbook and of this area, in order of request; the first is in flight (R374). -/
  prog : List ProgOp := []
  /-- NV commits requested, in order; the first is being programmed. -/
  commits : List NvChange := []
  deriving DecidableEq, Repr

/-- Identity: node number and fabric identity (R158, R485, R486). -/
structure Ident where
  node : BitVec 4 := 0
  fabricId : Dword := 0
  deriving DecidableEq, Repr

/-! ## Studios and Referee run-time state -/

/-- STUDIO word 8 STATE (R455, R457). -/
inductive SState where
  | idle | active | resetting | resetDone
  deriving DecidableEq, Repr

/-- A studio (R455). -/
structure Studio where
  cfg : StudioCfg := {}
  state : SState := .idle
  resets : Word := 0
  resetTick : Word := 0
  handed : Half := 0
  dropped : Half := 0
  resetTicks : Word := 0
  /-- STUDIO_STAT.DONE. -/
  done : Bool := false
  deriving DecidableEq, Repr

/-- The studios with their default entries. -/
def studiosReset : Vector Studio 8 := studioCfgs.map fun c => { cfg := c }

/-- The Referee (R441 to R449). -/
structure Referee where
  cfg : RefCfg := {}
  bSectors : Vector Word 8 := Vector.replicate 8 0
  tilesAdm : Nat := 0
  mAdm : Vector Nat 4 := Vector.replicate 4 0
  ringAdm : Vector Nat 4 := Vector.replicate 4 0
  aLate : Vector Word 4 := Vector.replicate 4 0
  deriving DecidableEq, Repr
/-! ## The Ferek ring (R467 to R497) -/

/-- Link states (R469). -/
inductive Link where
  | dark | training | up | broken
  deriving DecidableEq, Repr

/-- A packet with its kind (R477, R478), whether it is class C traffic (R444), and for a packet being forwarded the port
in whose receive buffer it stands (false FA, true FB). -/
structure Packet where
  kind : Byte
  p : Pkt
  classC : Bool := false
  via : Option Bool := none
  deriving DecidableEq, Repr

/-- A ring port (R469 to R476). -/
structure RPort where
  /-- FA_EN or FB_EN. -/
  en : Bool := true
  link : Link := .dark
  /-- packets that wait to be sent, in creation order. -/
  out : List Packet := []
  /-- the replay store: packets sent and not yet acknowledged, oldest first. -/
  replay : List Packet := []
  /-- LSEQ of the next packet sent, and of the next packet expected. -/
  txSeq : BitVec 6 := 0
  rxSeq : BitVec 6 := 0
  /-- a packet has been accepted since the link came up, so that ACK_LSEQ is meaningful. -/
  gotAny : Bool := false
  /-- header credits of each channel (R475). -/
  hcred : Vector Nat 3 := Vector.replicate 3 4
  /-- data and header credits that wait to be returned to the partner. -/
  retData : Vector Nat 3 := Vector.replicate 3 0
  retHead : Vector Nat 3 := Vector.replicate 3 0
  /-- a LINK flit with NAK is to be sent. -/
  nak : Bool := false
  /-- flits are discarded until the expected HEAD (R472). -/
  discarding : Bool := false
  /-- the latest LINK flit sent (an output; R476). -/
  linkOut : Option Dword := none
  /-- episodes without an advance of ACK_LSEQ (R472). -/
  episodes : Nat := 0
  /-- counter of resend episodes: FA_RESEND or FB_RESEND (R497). -/
  resends : Half := 0
  /-- flits of class C and of all data-channel packets, as R444 counts and halves them. -/
  flitsC : Nat := 0
  flitsAll : Nat := 0
  deriving DecidableEq, Repr

/-- RING_NODE.STATUS (R497). -/
inductive NStatus where
  | none | manager | worker | unreachable | foreign | unnumbered
  deriving DecidableEq, Repr

/-- A RING_NODE entry (R497). -/
structure RNode where
  status : NStatus := .none
  node : BitVec 4 := 0
  hopsA : BitVec 4 := 0
  hopsB : BitVec 4 := 0
  ports : Byte := 0
  fabricId : Dword := 0
  rev : Byte := 0
  atLevel0 : Bool := false
  seq : Byte := 0
  lastSeen : Word := 0
  rtt : Half := 0
  lost : Word := 0
  resendA : Half := 0
  resendB : Half := 0
  /-- an UNREACHABLE verdict's TICK, while roll calls count it as absent (R482). -/
  verdict : Option Nat := none
  /-- ports whose cards are to be classified afresh by their next report, the node having been out of reach (R340). -/
  afresh : Byte := 0
  deriving DecidableEq, Repr

/-- A worker's answer as the manager holds it (R483). -/
structure Answer where
  /-- manager port on which it arrived: false FA, true FB. -/
  side : Bool
  hops : BitVec 4
  fabricId : Dword
  node : BitVec 4
  last : Bool
  level0 : Bool
  rev : Byte
  ports : Byte
  rtt : Half
  /-- TICK_LO at its arrival. -/
  seen : Word
  deriving DecidableEq, Repr

/-- A worker as a roll call has numbered it (R484, R485): its answer, its hop counts, what became of it, its number. -/
structure Numbered where
  a : Answer
  hopsA : BitVec 4
  hopsB : BitVec 4
  out : NStatus
  node : BitVec 4
  deriving DecidableEq, Repr

/-- A roll call under way on a manager (R483). -/
structure Roll where
  /-- TICK at its start. -/
  start : Nat
  /-- the HOPS with which its ROLL_CALL returned: the workers of a whole ring. -/
  returned : Option Nat := none
  answers : List Answer := []
  /-- the numbering, and the nodes whose ROLL_ACK is awaited, once numbering has begun. -/
  plan : List Numbered := []
  acks : Option (List (BitVec 4)) := none
  deriving DecidableEq, Repr

/-- A partial sum asked of a worker (R492): the work it serves, its class, studio and deadline, the tile row, the
positions of the worker's chunks with their ports, and the position that is retouched. -/
structure Psum where
  w : Work
  cls : OpClass
  studio : Fin 8
  deadline : Nat
  array : Fin 4
  newRegion : Bool
  stripe : Nat
  row : Nat
  chunks : List (Nat × Fin 8)
  sector : Nat
  /-- the position that is retouched. -/
  pos : Nat
  deriving DecidableEq, Repr

/-- What a ring request of the manager asked for (R478). -/
inductive ReqKind where
  /-- a member operation of this node's work. -/
  | op (op : MOp)
  | psum (p : Psum)
  deriving DecidableEq, Repr

/-- An outstanding request of the manager (R481, R482). -/
structure RReq where
  tag : Byte
  node : BitVec 4
  epoch : Byte
  kind : ReqKind
  /-- sectors received so far. -/
  got : List (BitVec 4096) := []
  /-- a PING has been sent for it, and it has been reissued once. -/
  pinged : Bool := false
  reissued : Bool := false
  /-- it has not been sent: its worker is held in DOZE, or its return's roll call has not ended (R96). -/
  parked : Bool := false
  deriving DecidableEq, Repr

/-- A request that a worker serves (R479, R492, R493). -/
structure Served where
  tag : Byte
  epoch : Byte
  ch : Fin 3
  kind : Byte
  port : Fin 8
  op : OpClass
  deadline : Nat
  studio : Fin 8
  sector : Nat
  count : Nat
  /-- MWRITE: sectors landed; PSUM_REQ: the sum so far, and reads still out. -/
  data : List (BitVec 4096) := []
  /-- PSUM_REQ: ports still to read, and the mask of failed ports. -/
  out : Nat := 0
  failed : Byte := 0
  /-- pages of the landing record (R493). -/
  pages : List Nat := []
  /-- the member operation has been created. -/
  queued : Bool := false
  deriving DecidableEq, Repr

/-- The ring interface (R467 to R497). -/
structure Ring where
  fa : RPort := {}
  fb : RPort := {}
  /-- RING_STAT fields. -/
  shape : BitVec 2 := 0
  twoManagers : Bool := false
  workers : BitVec 4 := 0
  unreach : BitVec 4 := 0
  rollSeq : Byte := 16
  nodes : Vector RNode 16 := Vector.replicate 16 {}
  roll : Option Roll := none
  /-- an event arrived during a roll call, so that another follows it. -/
  rollAgain : Bool := false
  reqs : List RReq := []
  nextTag : Byte := 0
  /-- NONCE of the latest roll call. -/
  nonce : Option Half := none
  /-- the worker of an accepted ADOPT, as it answers: it is numbered as a blank one. -/
  adopt : Option (Dword × BitVec 4) := none
  /-- on a worker: the port on which the latest ROLL_CALL arrived (false FA, true FB), its hops, and whether a
  ROLL_DONE has been received since the last class P, D or C reset. -/
  toward : Bool := false
  hops : BitVec 4 := 0
  doneSeen : Bool := false
  epoch : Byte := 0
  /-- on a worker: the FABRIC_ID of the latest ROLL_CALL. -/
  fabric : Dword := 0
  served : List Served := []
  /-- on a worker: ports whose counters have changed since the latest report (R491). -/
  changed : Byte := 0
  deriving DecidableEq, Repr

/-! ## The Palette (R498 to R539) -/

/-- Layer states (R503). -/
inductive LState where
  | idle | priming | playing | blanking | stopped
  deriving DecidableEq, Repr

/-- STOP_CAUSE (R536). -/
inductive LCause where
  | none | stop | ended | listBad | volume | dmaFault | studioReset | paletteOff | ringBad
  deriving DecidableEq, Repr

/-- A ramped gain (R519, R520): G in Q16 code units with its mute, and the ramp under way. -/
structure Gain where
  g : Int := 65536
  mute : Bool := true
  target : Nat := 0
  stepBy : Int := 0
  left : Nat := 0
  deriving DecidableEq, Repr

/-- A stream or host tile of a layer, by its number in the layer's order (R505, R511). -/
structure LTile where
  n : Nat
  /-- physical canvas tile. -/
  tile : Nat
  /-- bytes of it that hold data. -/
  held : Nat
  /-- its class A deadline (R506). -/
  deadline : Nat
  deriving DecidableEq, Repr

/-- A layer (R501 to R518, R536). -/
structure Layer where
  /-- words 0 to 7 as committed. -/
  cfg : Vector Word 8 := Vector.replicate 8 0
  /-- words 0 to 7 in effect since the latest frame boundary (R500). -/
  act : Vector Word 8 := Vector.replicate 8 0
  state : LState := .idle
  cause : LCause := .none
  reason : Byte := 0
  underrun : Half := 0
  frames : Word := 0
  /-- P_0, Q34.30. -/
  p0 : Nat := 0
  /-- position of the last sample of the frame most recently computed. -/
  p31 : Nat := 0
  gain : Gain := {}
  /-- the mute ramp of a stop commit runs. -/
  stopping : Bool := false
  /-- PAN of the frame before (R521). -/
  pan0 : Nat := 0
  /-- the extents of the data, the extent to repeat from, and whether the list has been read (R504). -/
  extents : List (Nat × Nat) := []
  loopTo : Option Nat := none
  listRead : Bool := false
  tiles : List LTile := []
  /-- number of the next tile to issue, and of the first tile of its data: numbers never repeat. -/
  nextTile : Nat := 0
  first : Nat := 0
  /-- admission terms held: r, and the M, ring and tile terms with the array (R446). -/
  r : Nat := 0
  terms : Option (Fin 4 × Nat × Nat × Nat) := none
  /-- HOST: WR as last read, RD, and a refill under way (R510, R511). -/
  wr : Nat := 0
  rd : Nat := 0
  refill : Option Nat := none
  /-- cause at which it stops at the next boundary (R509, R512). -/
  stopAt : LCause := .none
  deriving DecidableEq, Repr

/-- State of one biquad stage of one channel (R524). -/
structure Bq where
  x1 : Int := 0
  x2 : Int := 0
  y1 : Int := 0
  y2 : Int := 0
  deriving DecidableEq, Repr

/-- A bus (R523 to R527, R538). -/
structure Bus where
  /-- words 0 to 27 as committed, and in effect. -/
  cfg : Vector Word 28 := Vector.replicate 28 0
  act : Vector Word 28 := Vector.replicate 28 0
  gain : Gain := {}
  /-- biquad states by stage, then by channel. -/
  bq : Vector (List Bq) 4 := Vector.replicate 4 []
  /-- delay lines by channel, newest sample first; what is not listed is 0. -/
  line : List (List Int) := []
  delayTiles : Nat := 0
  /-- limiter gain and the 16 latest input samples, oldest first, each by channel. -/
  limG : Nat := 4194304
  limBuf : List (List Int) := []
  limFrames : Half := 0
  peak : Nat := 0
  clips : Word := 0
  /-- the frame just computed: 32 samples, by channel. -/
  outp : List (List Int) := []
  deriving DecidableEq, Repr

/-- Audio port states (R531). -/
inductive PState where
  | off | run | sleep | resuming
  deriving DecidableEq, Repr

/-- An audio port (R529 to R532, R539). -/
structure AuPort where
  w0 : Word
  w1 : Word := 0x60001410
  act0 : Word
  act1 : Word := 0x60001410
  state : PState := .off
  /-- frames left in RESUMING. -/
  left : Nat := 0
  /-- consecutive quiet frames. -/
  quiet : Nat := 0
  /-- frames of zeros still sent after entry to SLEEP. -/
  zeros : Nat := 0
  /-- PAL_CTRL.WAKE written for it, or a frame that is not quiet computed, since the last boundary. -/
  wake : Bool := false
  sleeps : Half := 0
  /-- it has been RUN since it was last OFF. -/
  heard : Bool := false
  /-- AUn_MUTE at its muting level (an output). -/
  muted : Bool := true
  /-- the samples of the frame sent, by slot (an output). -/
  sent : List (List Int) := []
  deriving DecidableEq, Repr

/-- The Palette (R498 to R539). -/
structure Palette where
  /-- PAL_CTRL fields as written. -/
  en : Bool := false
  mclkEn : Bool := false
  /-- EN and MCLK_EN in effect. -/
  enAct : Bool := false
  mclkAct : Bool := false
  /-- F_0 has passed. -/
  booted : Bool := false
  evt : Bool := false
  lastLayer : BitVec 5 := 0
  frame : Half := 0
  layers : Vector Layer 32 := Vector.replicate 32 {}
  buses : Vector Bus 8 := Vector.replicate 8 {}
  ports : Vector AuPort 3 := #v[{ w0 := 0x192C8000, act0 := 0x192C8000 }, { w0 := 0x192C8000, act0 := 0x192C8000 },
    { w0 := 0x192C0000, act0 := 0x192C0000 }]
  /-- samples of AU2 received, newest 64, oldest first, each by slot. -/
  au2 : List (List Int) := []
  deriving DecidableEq, Repr


/-! ## The whole block -/

/-- The state of the block. -/
structure State where
  /-- commands that wait, first in, first out. -/
  pending : List Instr := []
  power : Power := {}
  standby : Standby := {}
  clk : Clock := {}
  restart : Restart := {}
  ident : Ident := {}
  nv : Nv := {}
  log : Log := {}
  pathC : PathRegs := {}
  pathM : PathRegs := {}
  cport : Cport := {}
  mgmt : Mgmt := {}
  scratch : Vector Word 8 := Vector.replicate 8 0
  hbu : Hbu := {}
  ledger : Ledger := {}
  dma : Dma := {}
  queues : Queues := {}
  members : Members := {}
  arrs : Vector Arr 4 := Vector.replicate 4 {}
  vols : Vector Vol 64 := Vector.replicate 64 {}
  canvas : Canvas := {}
  skb : Skb := {}
  studios : Vector Studio 8 := studiosReset
  referee : Referee := {}
  /-- roster of assigned nodes (R485). -/
  roster : Vector Bool 16 := (Vector.replicate 16 false).set 0 true
  regions : Vector HostRegion 4 := Vector.replicate 4 {}
  ring : Ring := {}
  palette : Palette := {}
  /-- the model's own: the number of the next free value. -/
  freeCtr : Nat := 0
  deriving DecidableEq, Repr

/-- The RESTART record that the end of the first reset writes (R120, R565): RST_CAUSE 0x0100_0F01. -/
def restartRecord : LogRec := ⟨0x01, .note, false, 0, 0, 0, [0x01, 0x0F, 0x00, 0x01]⟩

/-- The block right after the reset of its first power-on: a factory part (both NV copies blank) strapped by the
pins' internal pulls, at LEVEL0 in bypass with the restart path parked at PLL_OFF and the RESTART note logged. -/
def State.reset : State :=
  { log := { recs := [restartRecord], seqNext := 1, counters := [(0, 1), (1, 1)] } }

end Sys2Proof.Machine
end

