-- ==== Sys2Proof/Machine/Ops.lean ====
section
/-! DEFINITION. The named operations over the state that every unit shares: sparse tables and byte memory, byte
order, the control paths' registers, the fault manager's log and the interrupt bits. -/

namespace Sys2Proof.Machine

/-- The outcome of a command. -/
abbrev Out := Host.Outcome State Fault Refusal

/-! ## Sparse tables, by rising key -/

/-- The value listed under a key. -/
def kget {α : Type} (k : Nat) : List (Nat × α) → Option α
  | [] => none
  | (j, v) :: t => if j = k then some v else kget k t

/-- The table with a value under a key, its keys kept rising. -/
def kput {α : Type} (k : Nat) (v : α) : List (Nat × α) → List (Nat × α)
  | [] => [(k, v)]
  | (j, w) :: t => if k < j then (k, v) :: (j, w) :: t else if k = j then (k, v) :: t else (j, w) :: kput k v t

/-- The table without a key. -/
def kdel {α : Type} (k : Nat) : List (Nat × α) → List (Nat × α)
  | [] => []
  | (j, w) :: t => if j = k then kdel k t else (j, w) :: kdel k t

/-! ## Byte memories (mailbox and queue-ring SRAM): an unlisted byte reads 0 (R114, R197) -/

/-- What an unlisted address reads as. -/
def memDefault : Byte := 0

/-- The byte at an address. -/
def memRead (m : List Host.Cell) (a : Nat) : Byte := (kget a m).getD memDefault

/-- The memory with one byte written; the canonical form lists no byte equal to the default. -/
def memWrite (m : List Host.Cell) (a : Nat) (b : Byte) : List Host.Cell :=
  if b = memDefault then kdel a m else kput a b m

/-- The keys of the list rise from above `lo`, and no listed byte is the default. -/
def memWfFrom : Option Nat → List Host.Cell → Bool
  | _, [] => true
  | lo, (a, b) :: t => (match lo with | none => true | some l => decide (l < a)) && (b != memDefault) && memWfFrom (some a) t

/-- The canonical form of a byte memory. -/
def Memory.wf (m : List Host.Cell) : Bool := memWfFrom none m

/-- Bytes written from an address upward. -/
def memWriteList (m : List Host.Cell) (a : Nat) : List Byte → List Host.Cell
  | [] => m
  | b :: t => memWriteList (memWrite m a b) (a + 1) t

/-- `n` bytes read from an address upward. -/
def memReadList (m : List Host.Cell) (a : Nat) : Nat → List Byte
  | 0 => []
  | n + 1 => memRead m a :: memReadList m (a + 1) n

/-! ## Byte order: least significant byte first (R4) -/

/-- The low `n` bytes of a number, least significant first. -/
def leBytes : Nat → Nat → List Byte
  | 0, _ => []
  | n + 1, x => BitVec.ofNat 8 x :: leBytes n (x / 256)

/-- The number that bytes spell, least significant first. -/
def leNat : List Byte → Nat
  | [] => 0
  | b :: t => b.toNat + 256 * leNat t

/-- `n` bytes of a list from a position, 0 past its end. -/
def takeAt (l : List Byte) (at' n : Nat) : List Byte :=
  (List.range n).map fun i => l.getD (at' + i) 0

/-- A little-endian field of a byte list. -/
def leField (l : List Byte) (at' n : Nat) : Nat := leNat (takeAt l at' n)

/-- Bytes to words, least significant byte first. -/
def bytesToWords (l : List Byte) (n : Nat) : List Word :=
  (List.range n).map fun i => BitVec.ofNat 32 (leField l (4 * i) 4)

/-- Words to bytes. -/
def wordsToBytes (l : List Word) : List Byte := l.flatMap fun w => leBytes 4 w.toNat

/-- Lane `k` of an access is enabled. -/
def lane (l : Lanes) (k : Nat) : Bool := l.getLsbD k

/-- The bit mask of the enabled lanes. -/
def laneMask (l : Lanes) : Word :=
  (if lane l 0 then 0xFF#32 else 0) ||| (if lane l 1 then 0xFF00#32 else 0) |||
  (if lane l 2 then 0xFF0000#32 else 0) ||| (if lane l 3 then 0xFF000000#32 else 0)

/-- The merge of the enabled lanes of `new` into `old` (R147, R194). -/
def mergeLanes (l : Lanes) (old new : Word) : Word := (old &&& ~~~ laneMask l) ||| (new &&& laneMask l)

/-- Bits [hi:lo] of a word as a number. -/
def bits (w : Word) (hi lo : Nat) : Nat := (w.toNat >>> lo) % 2 ^ (hi + 1 - lo)

/-- A field of a word: the number placed at bit `lo`. -/
def fld (lo : Nat) (x : Nat) : Word := BitVec.ofNat 32 (x <<< lo)

/-- A flag of a word. -/
def flg (lo : Nat) (b : Bool) : Word := if b then BitVec.ofNat 32 (1 <<< lo) else 0

/-- Bit `i` of a word. -/
def bit (w : Word) (i : Nat) : Bool := w.getLsbD i

/-! ## Checks over bytes -/

/-- One bit step of CRC-8, polynomial 0x07 (R140). -/
def crc8Bit (c : Byte) : Byte := if c.getLsbD 7 then (c <<< 1) ^^^ 0x07#8 else c <<< 1

/-- CRC-8 over bytes, initial value 0xFF (R140). -/
def crc8 (l : List Byte) : Byte :=
  l.foldl (fun c b => crc8Bit (crc8Bit (crc8Bit (crc8Bit (crc8Bit (crc8Bit (crc8Bit (crc8Bit (c ^^^ b))))))))) 0xFF#8

/-! ## The control paths' own registers (R155) -/

/-- The registers of one path. -/
def pathGet (p : Path) (s : State) : PathRegs :=
  match p with
  | .cport => s.pathC
  | .mirror => s.pathM

/-- The state with one path's registers. -/
def pathPut (p : Path) (r : PathRegs) (s : State) : State :=
  match p with
  | .cport => { s with pathC := r }
  | .mirror => { s with pathM := r }

/-- The path's code in records and in ORIGIN: 0 CPORT, 1 mirror. -/
def pathCode (p : Path) : Nat :=
  match p with
  | .cport => 0
  | .mirror => 1

/-! ## Interrupt bits -/

/-- Bits of IRQ_STAT that events set (R568). -/
def irqSevere : Nat := 30
def irqWarn : Nat := 29
def irqClock : Nat := 27
def irqLevel : Nat := 26
def irqPower : Nat := 25
def irqMgmt : Nat := 24
def irqArray : Nat := 23
def irqRing : Nat := 22
def irqSkb : Nat := 21

/-- An event sets a W1C bit of IRQ_STAT. -/
def irqSet (b : Nat) (s : State) : State :=
  { s with log := { s.log with irqStat := s.log.irqStat ||| flg b true } }

/-- The alias of a studio. -/
def aliasGet (i : Fin 8) (s : State) : Alias := s.hbu.aliases.get i

/-- The state with an alias replaced. -/
def aliasPut (i : Fin 8) (a : Alias) (s : State) : State :=
  { s with hbu := { s.hbu with aliases := s.hbu.aliases.set i a } }

/-- Bits of S_IRQ_STAT (R571). -/
def sirqCpl : Nat := 0
def sirqFreeze : Nat := 1
def sirqDmaCpl : Nat := 2
def sirqDmaFault : Nat := 3
def sirqPal : Nat := 4
def sirqVol : Nat := 5

/-- An event sets a bit of a studio's S_IRQ_STAT. -/
def sirqSet (st : Fin 8) (b : Nat) (s : State) : State :=
  aliasPut st { aliasGet st s with irqStat := (aliasGet st s).irqStat ||| BitVec.ofNat 6 (1 <<< b) } s

/-- A member index or studio number reduced to its range. -/
def fin8 (n : Nat) : Fin 8 := Fin.ofNat 8 n

/-! ## The fault manager -/

/-- The record codes of R565. -/
inductive Code where
  | restart | strapChanged | vpfRefused | pllStopRefused | powerOrderTimeout | bankAbsent | pllLost | selfCheckFail
  | ledgerMismatch | ctrlParity | nvCommitFail | armMismatch | mirrorRefused | hbEarlyEnd | unalignedAccess
  | narrowWrite | latchDiscard | reservedWrite | mbxDenied | ringStray | pioFull | pioEmpty | doorbellBad | logTailBad
  | dmaFault | dmaWbFault | regionMiss | rdyTimeout | selfAccess | gntTimeout | queueFrozen | queueCplFault
  | internalCmd | studioRstIgnored | memberState | memberStepDown | tileMended | skbPageBad | skbCtrlRefused
  | tier2Absent | tier2Lost | arrayWentOffline | parityMismatch | tileLost | restorationDone | inspectionDone
  | repaintState | repaintDone | admitRefused | rollFault | rollFull | ringCmdRefused | layerUnderrun | layerStopped
  | portSleep | portResume
  deriving DecidableEq, Repr

/-- The number, class and black-box mark of a code (R565). MEMBER_STATE and LAYER_STOPPED have the class of their
milder form here. -/
def Code.info : Code → Nat × LogClass × Bool
  | .restart => (0x01, .note, false) | .strapChanged => (0x02, .note, false)
  | .vpfRefused => (0x03, .note, false) | .pllStopRefused => (0x04, .note, false)
  | .powerOrderTimeout => (0x05, .warn, false) | .bankAbsent => (0x06, .note, false)
  | .pllLost => (0x07, .warn, true) | .selfCheckFail => (0x08, .warn, true)
  | .ledgerMismatch => (0x09, .failstop, true) | .ctrlParity => (0x0A, .failstop, true)
  | .nvCommitFail => (0x0B, .failstop, true) | .armMismatch => (0x10, .note, false)
  | .mirrorRefused => (0x11, .note, false) | .hbEarlyEnd => (0x12, .note, false)
  | .unalignedAccess => (0x13, .note, false) | .narrowWrite => (0x14, .note, false)
  | .latchDiscard => (0x15, .note, false) | .reservedWrite => (0x16, .note, false)
  | .mbxDenied => (0x17, .note, false) | .ringStray => (0x18, .note, false)
  | .pioFull => (0x19, .note, false) | .pioEmpty => (0x1A, .note, false)
  | .doorbellBad => (0x1B, .note, false) | .logTailBad => (0x1C, .note, false)
  | .dmaFault => (0x20, .note, false) | .dmaWbFault => (0x21, .stopStudio, false)
  | .regionMiss => (0x22, .note, false) | .rdyTimeout => (0x23, .note, false)
  | .selfAccess => (0x24, .note, false) | .gntTimeout => (0x25, .note, false)
  | .queueFrozen => (0x28, .stopStudio, false) | .queueCplFault => (0x29, .stopStudio, false)
  | .internalCmd => (0x2A, .warn, false) | .studioRstIgnored => (0x2B, .note, false)
  | .memberState => (0x30, .note, false) | .memberStepDown => (0x31, .warn, false)
  | .tileMended => (0x32, .note, false) | .skbPageBad => (0x38, .warn, false)
  | .skbCtrlRefused => (0x39, .note, false) | .tier2Absent => (0x3A, .note, false)
  | .tier2Lost => (0x3B, .warn, false) | .arrayWentOffline => (0x40, .stopArray, true)
  | .parityMismatch => (0x41, .note, false) | .tileLost => (0x42, .warn, false)
  | .restorationDone => (0x43, .note, false) | .inspectionDone => (0x44, .note, false)
  | .repaintState => (0x45, .note, false) | .repaintDone => (0x46, .note, false)
  | .admitRefused => (0x48, .note, false) | .rollFault => (0x50, .warn, false)
  | .rollFull => (0x51, .warn, false) | .ringCmdRefused => (0x52, .note, false)
  | .layerUnderrun => (0x58, .note, false) | .layerStopped => (0x59, .note, false)
  | .portSleep => (0x5A, .note, false) | .portResume => (0x5B, .note, false)

/-- A note of this code is logged at most once in a TICK period (R561). -/
def heldBack (code : Nat) : Bool := (0x10 ≤ code && code ≤ 0x1C) || (0x22 ≤ code && code ≤ 0x25)

/-- COUNTERS entry `e`. -/
def counterGet (e : Nat) (s : State) : Dword := (kget e s.log.counters).getD 0

/-- A COUNTERS entry counts one more occurrence (R7, R565). -/
def counterInc (e : Nat) (s : State) : State :=
  { s with log := { s.log with counters := kput e (ctrInc (counterGet e s)) s.log.counters } }

/-- WARN or higher. -/
def LogClass.isWarn : LogClass → Bool
  | .note => false
  | _ => true

/-- STOP_ARRAY or FAILSTOP. -/
def LogClass.isSevere : LogClass → Bool
  | .stopArray | .failstop => true
  | _ => false

/-- Number of unread records (R560). -/
def logUnread (l : Log) : Nat := (l.seqNext.toNat + 256 - l.tail.toNat) % 256

/-- One record enters the ring (R560): 255 unread records first discard the oldest, and the slot is overwritten. -/
def logPush (r : LogRec) (l : Log) : Log :=
  let l := if logUnread l = 255 then { l with tail := l.tail + 1, lost := ctrInc l.lost } else l
  { l with recs := ({ r with seq := l.seqNext } :: l.recs).take 256, seqNext := l.seqNext + 1 }

/-- The black-box copy of a record (R563): it takes BSEQ and RESTART_COUNT, and the program of the page of slot
BSEQ mod 64 is requested. -/
def bbCopy (r : LogRec) (s : State) : State :=
  { s with nv := { s.nv with
      prog := s.nv.prog ++ [.bbox (s.nv.bseq.toNat % 64) ⟨{ r with seq := s.nv.bseq }, s.standby.restartCount⟩]
      bseq := s.nv.bseq + 1 } }

/-- The operation programs a black-box page. -/
def ProgOp.isBbox : ProgOp → Bool
  | .bbox _ _ => true
  | .page _ _ _ | .record _ _ _ | .parity _ _ _ | .nv | .session _ | .retire _ | .trimDone _ _ | .land _ _ _ => false

/-- The operation programs an NV commit. -/
def ProgOp.isNv : ProgOp → Bool
  | .nv => true
  | .page _ _ _ | .record _ _ _ | .parity _ _ _ | .bbox _ _ | .session _ | .retire _ | .trimDone _ _ | .land _ _ _ => false

/-- A black-box page has been programmed with a new record (R563). -/
def bbPut (slot : Nat) (r : BbRec) (s : State) : State := { s with nv := { s.nv with bbox := kput slot r s.nv.bbox } }

/-- A black-box page is torn: its 32 slots hold free value k (R564). -/
def bbTear (page k : Nat) (s : State) : State :=
  { s with nv := { s.nv with
      bbox := s.nv.bbox.filter fun (i, _) => i / 32 != page
      bbTorn := Vector.ofFn fun p => if p.val = page then some k else s.nv.bbTorn.get p } }

/-- The next BSEQ as stage 2 of the restart path finds it: 1 more than the newest among the valid slots (R564). -/
def bbNext (l : List (Nat × BbRec)) : Half :=
  match l.foldl (fun (best : Option Half) (_, r) => match best with
    | none => some r.body.seq
    | some b => if decide (0 < (r.body.seq - b).toInt) then some r.body.seq else best) none with
  | none => 0
  | some b => b + 1

/-- What a record's class and black-box mark also set (R557, R567, R568). -/
def logSums (code : Byte) (cls : LogClass) (bb : Bool) (studio : Option (Fin 8)) (s : State) : State :=
  let s := if cls.isWarn then irqSet irqWarn { s with log := { s.log with warns := ctrInc s.log.warns } } else s
  let s := if cls.isSevere || bb then irqSet irqSevere s else s
  let s := match cls, studio with
    | .stopStudio, some st =>
      { s with log := { s.log with studioStop := s.log.studioStop ||| BitVec.ofNat 8 (1 <<< st.val) } }
    | _, _ => s
  if bb then { s with log := { s.log with lastBb := code } } else s

/-- The class's number in a record (R557). -/
def LogClass.num : LogClass → Nat
  | .note => 0 | .warn => 1 | .stopStudio => 2 | .stopArray => 3 | .failstop => 4

/-- The first 31 bytes of a stored record (R558), byte 30 as given. -/
def LogRec.body (r : LogRec) (b30 : Byte) : List Byte :=
  [r.code, BitVec.ofNat 8 (r.cls.num + (if r.bb then 8 else 0) + 16 * r.node.toNat)]
    ++ leBytes 2 r.seq.toNat ++ leBytes 4 r.tick.toNat ++ takeAt r.args 0 22 ++ [b30]

/-- A stored record: 32 bytes, the last its CRC-8 (R558). -/
def LogRec.bytes (r : LogRec) (b30 : Byte) : List Byte := r.body b30 ++ [crc8 (r.body b30)]

/-- A worker's record of class WARN or higher waits to be forwarded to the manager as LOG_FWD, on the port on which
the latest ROLL_CALL arrived (R480, R566). -/
def logForward (r : LogRec) (s : State) : State :=
  let b := s.ring.toward
  let q := if b then s.ring.fb else s.ring.fa
  if s.restart.straps.role || !r.cls.isWarn || s.restart.level == .failstop || q.link != .up then s
  else
    let l := r.bytes 0
    let p : Packet :=
      { kind := 0x0E, p := { ch := 0, dst := 0, src := s.ident.node, epoch := s.ring.epoch,
                             flits := (List.range 4).map fun i => BitVec.ofNat 64 (leField l (8 * i) 8) } }
    let q := { q with out := q.out ++ [p] }
    if b then { s with ring := { s.ring with fb := q } } else { s with ring := { s.ring with fa := q } }

/-- A detected condition is recorded (R558 to R563): it is counted, and unless R561 holds it back it enters the log
with the TICK and node of its detection, goes to the black box when marked for it, and sets the summaries. -/
def logAs (c : Code) (cls : LogClass) (studio : Option (Fin 8)) (args : List Byte) (s : State) : State :=
  let (n, _, bb) := c.info
  let code := BitVec.ofNat 8 n
  let s := counterInc n s
  if heldBack n && s.log.thisTick.contains code then s
  else
    let r : LogRec := ⟨code, cls, bb, s.ident.node, 0, s.clk.tick.truncate 32, args⟩
    let s := logForward { r with seq := s.log.seqNext } (counterInc 0 s)
    let s := { s with log := { logPush r s.log with
      thisTick := if heldBack n then code :: s.log.thisTick else s.log.thisTick } }
    let s := if bb then bbCopy r s else s
    logSums code cls bb studio s

/-- A record of the class its code has. -/
def logRec (c : Code) (args : List Byte) (s : State) : State := logAs c c.info.2.1 none args s

/-- The record in slot `e` of the log ring, if one has been written there. -/
def logSlot (e : Nat) (l : Log) : Option LogRec := l.recs.find? fun r => r.seq.toNat % 256 == e

/-! ## Service level -/

/-- The node number code of the level (R119, R159). -/
def Level.num : Level → Nat
  | .level0 => 0 | .level1 => 1 | .level2 => 2 | .failstop => 3

/-- The level changes: the standby domain latches it and IRQ_STAT.LEVEL is set (R120, R568). -/
def setLevel (l : Level) (s : State) : State :=
  if s.restart.level = l then s
  else irqSet irqLevel { s with
    restart := { s.restart with level := l }
    standby := { s.standby with levelLatch := some l } }

/-- The core is out of reset and not stopped. -/
def running (s : State) : Bool := s.power.core == .running

/-- The units are up: the part is neither in FAILSTOP (R28) nor waiting for lock to return after a loss at LEVEL1 or
LEVEL2 (R27). -/
def unitsUp (s : State) : Bool := running s && s.restart.level != .failstop && s.restart.pllRestart.isNone

/-- The units run: they are up, and neither NAP nor DOZE has paused them (R88, R93). -/
def unitsRun (s : State) : Bool := unitsUp s && s.power.state == .run

/-- The chip is the manager (R14). -/
def isManager (s : State) : Bool := s.restart.straps.role

/-- LEVEL1 or LEVEL2. -/
def atLevel1 (s : State) : Bool := s.restart.level == .level1 || s.restart.level == .level2

/-- LEVEL2. -/
def atLevel2 (s : State) : Bool := s.restart.level == .level2

/-- Applies an operation where a condition holds; elsewhere the event matches no row of its machine's table and
changes nothing (R540). -/
def onlyIf (c : Bool) (f : State → State) (s : State) : State := if c then f s else s

/-- The next free value's number, and the counter advanced. -/
def freeNext (s : State) : Nat × State := (s.freeCtr, { s with freeCtr := s.freeCtr + 1 })

end Sys2Proof.Machine
end

