-- ==== Sys2Proof/Machine/Layout.lean ====
section
/-! DEFINITION. The layout arithmetic: shapes, stripes, the rotating layout, the declustered row shuffle and the
replay of consumed spare ranks (R348 to R357). -/

namespace Sys2Proof.Machine

/-- The rotating layout. -/
def Shape.rotating (h : Shape) : Bool := h.layout == 0

/-- Sectors per chunk, c (R348). -/
def Shape.c (h : Shape) : Nat := 32 * 2 ^ h.chunk.toNat

/-- Tiles per chunk: tile rows per stripe (R350). -/
def Shape.tiles (h : Shape) : Nat := h.c / 8

/-- Groups per row, k (R348). -/
def Shape.k (h : Shape) : Nat := if h.rotating then 1 else (h.n - h.s) / h.g

/-- Data chunks of one stripe. -/
def Shape.dps (h : Shape) : Nat := if h.rotating then h.n - 1 else h.g - 1

/-- Data chunks per row, D (R348). -/
def Shape.d (h : Shape) : Nat := h.k * h.dps

/-- Array sectors that one stripe carries (R350). -/
def Shape.stripeSectors (h : Shape) : Nat := h.dps * h.c

/-- Word 0 and word 1 of an ARRAY entry as a shape (R364). -/
def shapeOf (w0 w1 : Word) : Shape :=
  { layout := BitVec.ofNat 2 (bits w0 31 30), chunk := BitVec.ofNat 3 (bits w0 29 27), n := bits w0 23 16,
    s := bits w0 11 8, g := bits w0 4 0, seed := w1 }

/-- The shape's fields in word 0, without AUTO_RESUME (R364). -/
def Shape.word0 (h : Shape) : Word :=
  fld 30 h.layout.toNat ||| fld 27 h.chunk.toNat ||| fld 16 h.n ||| fld 8 h.s ||| fld 0 h.g

/-- The shape is one of R348's table. -/
def Shape.legal (h : Shape) : Bool :=
  h.chunk.toNat ≤ 4 &&
  (if h.layout == 0 then 2 ≤ h.n && h.n ≤ 16 && h.g == 0 && h.s == 0
   else h.layout == 1 && 4 ≤ h.n && h.n ≤ 128 && 3 ≤ h.g && h.g ≤ 16 && h.g + 1 ≤ h.n && 1 ≤ h.s && h.s ≤ 4
     && h.s < h.n && (h.n - h.s) % h.g == 0 && h.g ≤ h.n - h.s)

/-- Capacity in array sectors of a number of rows (R348). -/
def Shape.capacity (h : Shape) (rows : Nat) : Nat := rows * h.d * h.c

/-- The largest ROWS from an origin on members of a capacity (R349). -/
def Shape.rowsFor (h : Shape) (origin cap : Nat) : Nat :=
  min (min ((cap - origin) / h.c) (2 ^ 32 - 1)) (2 ^ 48 / (h.d * h.c))

/-- The parity role of a row of a rotating array (R351). -/
def rotParity (w r : Nat) : Nat := (w - 1) - r % w

/-- The placement of an array sector in a rotating array: role, parity role and member sector (R351). -/
def rotMap (a w c origin : Nat) : Nat × Nat × Nat :=
  let q := a / c
  let r := q / (w - 1)
  let j := q % (w - 1)
  let p := rotParity w r
  ((p + 1 + j) % w, p, origin + r * c + a % c)

/-- One step of the shuffle's generator (R353). -/
def xs32 (x : Word) : Word :=
  let x := x ^^^ (x <<< 13)
  let x := x ^^^ (x >>> 17)
  x ^^^ (x <<< 5)

/-- The exchange of two entries of a list. -/
def swapAt (l : List Nat) (i j : Nat) : List Nat := (l.set i (l.getD j 0)).set j (l.getD i 0)

/-- The exchanges of R353 for i from `n` down to 1. -/
def permLoop : Nat → Word → List Nat → List Nat
  | 0, _, l => l
  | n + 1, x, l => permLoop n (xs32 x) (swapAt l (n + 1) ((xs32 x).toNat % (n + 2)))

/-- The permutation of the roles in row r of a declustered array (R353). -/
def rowPerm (seed : Word) (r p : Nat) : List Nat :=
  let x := seed ^^^ (BitVec.ofNat 32 r * 0x9E3779B9#32)
  permLoop (p - 1) (if x = 0 then 0x9E3779B9#32 else x) (List.range p)

/-- State of a spare position in the replay of R356. -/
inductive SparePos where
  | free | dead | taken
  deriving DecidableEq, Repr

/-- The first position of a list that holds a role. -/
def firstAt (l : List Nat) (x : Nat) : Option Nat :=
  match l.findIdx? (· == x) with
  | some i => some i
  | none => none

/-- One rank's step of the replay: its lost role's chunk moves to the first free spare position (R356). -/
def replayRank (spares : List Nat) (st : List Nat × List SparePos) (lost : Nat) : List Nat × List SparePos :=
  let state := (List.zip spares st.2).map fun (role, x) => if role == lost then SparePos.dead else x
  match firstAt st.1 lost, state.findIdx? (· == SparePos.free) with
  | some n, some b => (st.1.set n (spares.getD b 0), state.set b .taken)
  | _, _ => (st.1, state)

/-- The roles that hold the chunks of a declustered row, by position (R356). -/
def dcHolders (perm : List Nat) (kg : Nat) (lost : List Nat) : List Nat :=
  (lost.foldl (replayRank (perm.drop kg)) (perm.take kg, (perm.drop kg).map fun _ => SparePos.free)).1

/-- The role that holds the chunk at a position of a declustered row (R356). -/
def dcHolder (perm : List Nat) (pos kg : Nat) (lost : List Nat) : Nat := (dcHolders perm kg lost).getD pos 0

/-- The row of a stripe (R350). -/
def Shape.rowOf (h : Shape) (stripe : Nat) : Nat := stripe / h.k

/-- The position in its row of chunk x of a stripe: data chunks 0 to dps − 1, then the parity chunk (R351, R354).
In a rotating array a position is a role. -/
def Shape.posOf (h : Shape) (stripe x : Nat) : Nat :=
  let r := h.rowOf stripe
  if h.rotating then
    let p := rotParity h.n r
    if x < h.dps then (p + 1 + x) % h.n else p
  else
    let g := stripe % h.k
    let t := (r + g) % h.g
    g * h.g + (if x < h.dps then (t + 1 + x) % h.g else t)

/-- The role at each chunk of a stripe, given the lost roles of the ranks that apply to its row. -/
def Shape.roleAt (h : Shape) (lost : List Nat) (stripe x : Nat) : Nat :=
  if h.rotating then h.posOf stripe x
  else dcHolder (rowPerm h.seed (h.rowOf stripe) h.n) (h.posOf stripe x) (h.k * h.g) lost

/-- The stripe that carries an array sector (R350). -/
def Shape.stripeOf (h : Shape) (a : Nat) : Nat := a / h.stripeSectors

/-- The data chunk of its stripe that carries an array sector (R351, R354). -/
def Shape.chunkOf (h : Shape) (a : Nat) : Nat := a / h.c % h.dps

/-- The tile row of its stripe that carries an array sector (R350). -/
def Shape.tileRowOf (h : Shape) (a : Nat) : Nat := a % h.c / 8

/-- First array sector of tile row t of data chunk x of a stripe. -/
def Shape.sectorOf (h : Shape) (stripe x t : Nat) : Nat := (stripe * h.dps + x) * h.c + 8 * t

/-- First member sector of tile row t of any chunk of a stripe (R349, R354). -/
def Shape.memberSector (h : Shape) (origin stripe t : Nat) : Nat := origin + h.rowOf stripe * h.c + 8 * t

/-- Stripes of a number of rows. -/
def Shape.stripes (h : Shape) (rows : Nat) : Nat := rows * h.k

/-- Stripes that a range of array sectors touches, in order. -/
def Shape.stripesIn (h : Shape) (start count : Nat) : List Nat :=
  if count = 0 then []
  else (List.range (h.stripeOf (start + count - 1) + 1 - h.stripeOf start)).map (· + h.stripeOf start)

/-- Rank i's lost role (R364, word 6). -/
def rankRole (w : Word) (i : Nat) : Nat := bits w (8 * i + 6) (8 * i)

/-- The shape of one of the two regions of an array: the old region is the array's own (R424). -/
def Arr.shapeAt (a : Arr) (new : Bool) : Shape := if new then a.repaint.shape else a.shape

/-- The origin of a region. -/
def Arr.originAt (a : Arr) (new : Bool) : Nat := if new then a.repaint.origin else a.origin

/-- The rows of a region. -/
def Arr.rowsAt (a : Arr) (new : Bool) : Nat := if new then a.repaint.rows else a.rows

/-- The lost roles of the ranks that apply to a row of the old region, in order: the rank of a restoration under way
applies to the rows it has completed (R355). -/
def Arr.lostIn (a : Arr) (row : Nat) : List Nat :=
  let u := if a.rankBusy && a.mark < (row + 1) * a.shape.k then a.sparesUsed - 1 else a.sparesUsed
  (List.range u).map (rankRole a.spareRole)

/-- The role that holds chunk x of a stripe of a region; no rank applies to the new region of a repaint. -/
def Arr.roleAt (a : Arr) (new : Bool) (stripe x : Nat) : Nat :=
  let h := a.shapeAt new
  h.roleAt (if new then [] else a.lostIn (h.rowOf stripe)) stripe x

/-- The member that fills a role, if the array has it. -/
def Arr.memberOf (a : Arr) (role : Nat) : Option (Fin 128) := (a.roles[role]?).map (·.member)

end Sys2Proof.Machine
end

