-- ==== Sys2Proof/Machine/Ledger.lean ====
section
/-! DEFINITION. FAILSTOP, the pools with their reservations and quotas, and the Ledger's audit (R28, R38 to R42, R431
to R434, R450 to R453). -/

namespace Sys2Proof.Machine

/-! ## FAILSTOP (R28, R551) -/

/-- A ring port goes DARK and keeps nothing of what was in flight on the link (R469, R474). -/
def RPort.down (l : Link) (p : RPort) : RPort :=
  { p with
    link := l, out := [], replay := [], txSeq := 0, rxSeq := 0, hcred := Vector.replicate 3 4,
    retData := Vector.replicate 3 0, retHead := Vector.replicate 3 0, gotAny := false, nak := false, discarding := false, linkOut := none, episodes := 0 }

/-- The audio ports' pins at their reset states (R60): muted, nothing sent. -/
def AuPort.pinsOff (p : AuPort) : AuPort := { p with muted := true, sent := [] }

/-- Entry to FAILSTOP (R28, R543, R551): the program operation in flight stays; of those requested and not started only
black-box pages do; an entry into a sleep state is over; the links go DARK and the audio pins take their reset states;
everything else stays as held. -/
def failstop (s : State) : State :=
  if s.restart.level = .failstop then s
  else
    let s := setLevel .failstop s
    { s with
      nv := { s.nv with
        prog := s.nv.prog.take 1 ++ (s.nv.prog.drop 1).filter ProgOp.isBbox
        commits := if s.nv.prog.head? = some .nv then s.nv.commits.take 1 else [] }
      power := { s.power with entry := none, ordersOut := [], ordered := none, orderDue := none }
      pathC := { s.pathC with commitBusy := false }, pathM := { s.pathM with commitBusy := false }
      ring := { s.ring with fa := s.ring.fa.down .dark, fb := s.ring.fb.down .dark }
      palette := { s.palette with ports := s.palette.ports.map AuPort.pinsOff } }

/-! ## Pools -/

/-- Pool numbers (R172). -/
def pCmdSlot : Fin 20 := 0
def pRangeLock : Fin 20 := 1
def pTile : Fin 20 := 2
def pTier2 : Fin 20 := 3
def pPage : Fin 20 := 4
def pDesc : Fin 20 := 5
def pMember (port : Fin 8) : Fin 20 := ⟨6 + port.val, by omega⟩
def pRing (fb : Bool) (ch : Fin 3) : Fin 20 := ⟨(if fb then 17 else 14) + ch.val, by split <;> omega⟩

/-- A pool's counts. -/
def poolGet (i : Fin 20) (s : State) : Pool := s.ledger.pools.get i

/-- The state with a pool's counts replaced. -/
def poolPut (i : Fin 20) (p : Pool) (s : State) : State :=
  { s with ledger := { s.ledger with pools := s.ledger.pools.set i p } }

/-- The reservation in force for a pool; 0 for a pool without one (R432, R448). -/
def poolRes (i : Fin 20) (s : State) : Nat :=
  if i = pRangeLock then s.referee.cfg.resLock
  else if i = pTile then s.referee.cfg.resTile
  else if i = pPage then s.referee.cfg.resPage
  else if i = pDesc then s.referee.cfg.resDma
  else 0

/-- The quota of a studio in a pool; none for a pool without quotas (R433, R455). -/
def poolQuota (i : Fin 20) (st : Fin 8) (s : State) : Option Nat :=
  let c := (s.studios.get st).cfg
  if i = pCmdSlot then some c.qCmd
  else if i = pRangeLock then some c.qLock
  else if i = pTile then some c.qTile
  else if i = pPage then some c.qPage
  else if i = pDesc then some c.qDma
  else none

/-- The cap in force (R433): the quota, or TOTAL − RES for a quota of 0; a pool without quotas has none. -/
def poolCap (i : Fin 20) (st : Fin 8) (s : State) : Option Nat :=
  (poolQuota i st s).map fun q => if q = 0 then (poolGet i s).total - poolRes i s else q

/-- Units available to studios (R432). -/
def poolAvail (i : Fin 20) (s : State) : Nat :=
  let p := poolGet i s
  p.free - (poolRes i s - p.system)

/-- A request for n units can be granted (R432, R433); none is a SYSTEM request. -/
def poolFits (i : Fin 20) (who : Option (Fin 8)) (n : Nat) (s : State) : Bool :=
  let p := poolGet i s
  match who with
  | none => decide (n ≤ p.free)
  | some st =>
    decide (n ≤ poolAvail i s) &&
      (match poolCap i st s with | none => true | some c => decide (p.held.get st + n ≤ c))

/-- Units counted for an owner rise by n. -/
def Pool.addTo (who : Option (Fin 8)) (n : Nat) (p : Pool) : Pool :=
  match who with
  | none => { p with system := p.system + n, sysPeak := max p.sysPeak (p.system + n) }
  | some st => { p with held := p.held.set st (p.held.get st + n), rr := st }

/-- Units counted for an owner fall by n. -/
def Pool.subFrom (who : Option (Fin 8)) (n : Nat) (p : Pool) : Pool :=
  match who with
  | none => { p with system := p.system - n }
  | some st => { p with held := p.held.set st (p.held.get st - n) }

/-- n FREE units are allocated to an owner. -/
def poolTake (i : Fin 20) (who : Option (Fin 8)) (n : Nat) (s : State) : State :=
  let p := poolGet i s
  let p := { p with free := p.free - n, mapFree := p.mapFree - n, freeMin := min p.freeMin (p.free - n) }
  poolPut i (p.addTo who n) s

/-- n units of an owner become FREE. -/
def poolGive (i : Fin 20) (who : Option (Fin 8)) (n : Nat) (s : State) : State :=
  let p := poolGet i s
  poolPut i ({ p with free := p.free + n, mapFree := p.mapFree + n }.subFrom who n) s

/-- n units change their owner in one instant (R431). -/
def poolMove (i : Fin 20) (from' to' : Option (Fin 8)) (n : Nat) (s : State) : State :=
  poolPut i (((poolGet i s).subFrom from' n).addTo to' n) s

/-- A request that cannot be granted waits, and is counted (R434). -/
def poolWait (r : PoolReq) (s : State) : State :=
  let p := poolGet r.pool s
  let s := poolPut r.pool { p with waits := ctrInc p.waits } s
  { s with ledger := { s.ledger with waiting := s.ledger.waiting ++ [r] } }

/-- A request: granted at once where it fits and no earlier request of the owner waits for the pool, else it waits.
The flag says whether it was granted. -/
def poolAsk (r : PoolReq) (s : State) : Bool × State :=
  if poolFits r.pool r.who r.n s && !(s.ledger.waiting.any fun q => q.pool == r.pool && q.who == r.who) then
    (true, poolTake r.pool r.who r.n s)
  else (false, poolWait r s)

/-- The first waiting request of a pool that can be granted, in order of arrival (R434). -/
def poolReady (i : Fin 20) (s : State) : Option PoolReq :=
  s.ledger.waiting.find? fun r => r.pool == i && poolFits i r.who r.n s

/-- The request leaves the line. -/
def poolUnwait (r : PoolReq) (s : State) : State :=
  { s with ledger := { s.ledger with waiting := s.ledger.waiting.erase r } }

/-! ## The audit (R450, R452, R453) -/

/-- Σ HELD[s]. -/
def Pool.heldSum (p : Pool) : Nat := p.held.toList.sum

/-- The first failing check of a pool, as FAIL_KIND codes it (R452): sum, free map, HELD of the reset studio. -/
def Pool.failure (p : Pool) (reset : Option (Fin 8)) : Option (BitVec 2) :=
  if p.free + p.system + p.heldSum ≠ p.total then some 0
  else if p.free ≠ p.mapFree then some 1
  else match reset with
    | none => none
    | some st => if p.held.get st ≠ 0 then some 2 else none

/-- The lowest failing pool with its first failing check. -/
def auditFail (reset : Option (Fin 8)) (s : State) : Option (Fin 20 × BitVec 2) :=
  (List.finRange 20).findSome? fun i => ((poolGet i s).failure reset).map fun k => (i, k)

/-- The arguments of a LEDGER_MISMATCH record (R453, R565): pool, FAIL_KIND, FREE, SYSTEM and HELD[0..7]. -/
def auditArgs (i : Fin 20) (k : BitVec 2) (p : Pool) : List Byte :=
  BitVec.ofNat 8 i.val :: BitVec.ofNat 8 k.toNat :: leBytes 2 p.free ++ leBytes 2 p.system ++ p.held.toList.flatMap (leBytes 2)

/-- Audits run: in RUN and NAP, at TICK multiples of 100, from the end of restart stage 4 onward, and never in FAILSTOP
(R40, R450, R453). -/
def auditRuns (s : State) : Bool :=
  unitsUp s && (s.power.state == .run || s.power.state == .nap) && s.clk.tick.toNat % 100 == 0 &&
    (s.restart.level != .level0 || decide (s.restart.stage.val > 4))

/-- An audit at one instant (R450, R452, R453), for a studio reset when one is named. -/
def audit (reset : Option (Fin 8)) (s : State) : State :=
  let s := { s with ledger := { s.ledger with auditTick := s.clk.tick.truncate 24 } }
  match auditFail reset s with
  | none => { s with ledger := { s.ledger with fail := false } }
  | some (i, k) =>
    let s := { s with ledger := { s.ledger with fail := true, failPool := BitVec.ofNat 5 i.val, failKind := k } }
    failstop (logRec .ledgerMismatch (auditArgs i k (poolGet i s)) s)

/-- LEDGER_AUDIT (R450). -/
def execLedgerAudit (s : State) : Out := .next (onlyIf (auditRuns s) (audit none) s)

/-- CTRL_PARITY (R565): a parity error causes FAILSTOP. -/
def execCtrlParity (unit : Byte) (address : Word) (s : State) : Out :=
  .next (onlyIf (running s) (fun s => failstop (logRec .ctrlParity (unit :: leBytes 4 address.toNat) s)) s)

end Sys2Proof.Machine
end

