-- ==== Sys2Proof/Machine/Link.lean ====
section
/-! DEFINITION. Sending on the ring: ports, the order of packets and their credits, LINK flits, routes, and the
manager's requests (R444, R472, R475 to R482). -/

namespace Sys2Proof.Machine

/-- A ring port: false FA, true FB. -/
def rport (fb : Bool) (s : State) : RPort := if fb then s.ring.fb else s.ring.fa

/-- The state with a ring port replaced. -/
def rportPut (fb : Bool) (p : RPort) (s : State) : State :=
  if fb then { s with ring := { s.ring with fb := p } } else { s with ring := { s.ring with fa := p } }

/-- Data flits of a packet, LEN (R477). -/
def Packet.len (p : Packet) : Nat := p.p.flits.length

/-- A packet is eligible while its channel holds a data credit for each of its data flits and a header credit, and
fewer than 32 packets are unacknowledged (R472, R475). -/
def eligible (fb : Bool) (p : Packet) (s : State) : Bool :=
  decide (p.len ≤ (poolGet (pRing fb p.p.ch) s).free) && decide (0 < (rport fb s).hcred.get p.p.ch)
    && decide ((rport fb s).replay.length < 32)

/-- The next packet of a port (R444): the control channel first, then the stream channel, then the data channel, in
which class C packets come first while the port's class C flits are below their minimum share. -/
def nextPacket (fb : Bool) (s : State) : Option Packet :=
  let q := (rport fb s).out
  let owed := decide ((rport fb s).flitsC * 100 < s.referee.cfg.cMinPct * (rport fb s).flitsAll)
  let data := q.filter fun p => p.p.ch == 1
  let head (l : List Packet) : Option Packet := l.head?.filter fun p => eligible fb p s
  (head (q.filter fun p => p.p.ch == 0)).orElse fun _ =>
  (head (q.filter fun p => p.p.ch == 2)).orElse fun _ =>
  (if owed then head (data.filter (·.classC)) else none).orElse fun _ => head data

/-- The payload of the LINK flit that a port sends now (R476). -/
def linkPayload (q : RPort) : Dword :=
  let f (lo x : Nat) : Dword := BitVec.ofNat 64 (x <<< lo)
  f 56 (q.retData.get 0) ||| f 48 (q.retData.get 1) ||| f 40 (q.retData.get 2) |||
  f 37 (q.retHead.get 0) ||| f 34 (q.retHead.get 1) ||| f 31 (q.retHead.get 2) |||
  f 30 (if q.gotAny then 1 else 0) ||| f 24 (q.rxSeq - 1).toNat ||| f 23 (if q.nak then 1 else 0)

/-- A LINK flit is sent: it returns the waiting credits and acknowledges (R476). -/
def sendLink (fb : Bool) (s : State) : State :=
  let q := rport fb s
  rportPut fb { q with
    linkOut := some (linkPayload q), retData := Vector.replicate 3 0, retHead := Vector.replicate 3 0,
    nak := false } s

/-- A packet leaves the receive buffer, forwarded or consumed: its credits wait to be returned, and a LINK flit goes
out at once when 16 data credits or 2 header credits of its channel wait (R475, R476). -/
def creditBack (fb : Bool) (ch : Fin 3) (len : Nat) (s : State) : State :=
  let q := rport fb s
  let d := q.retData.get ch + len
  let h := q.retHead.get ch + 1
  let s := rportPut fb { q with retData := q.retData.set ch d, retHead := q.retHead.set ch h } s
  if 16 ≤ d || 2 ≤ h then sendLink fb s else s

/-- One packet is sent: it takes the next LSEQ and its credits and enters the replay store (R472, R475). -/
def sendPacket (fb : Bool) (p : Packet) (s : State) : State :=
  let q := rport fb s
  let n := p.len + 1
  let q := { q with
    out := q.out.erase p
    replay := q.replay ++ [{ p with p := { p.p with lseq := q.txSeq } }]
    txSeq := q.txSeq + 1
    hcred := q.hcred.set p.p.ch (q.hcred.get p.p.ch - 1)
    flitsC := if p.p.ch == 1 && p.classC then q.flitsC + n else q.flitsC
    flitsAll := if p.p.ch == 1 then q.flitsAll + n else q.flitsAll }
  let s := poolTake (pRing fb p.p.ch) none p.len (rportPut fb q s)
  match p.via with
  | some b => creditBack b p.p.ch p.len s
  | none => s

/-- Eligible packets are sent, at most `fuel` of them. -/
def pump (fb : Bool) : Nat → State → State
  | 0, s => s
  | fuel + 1, s =>
    if (rport fb s).link == .up then
      match nextPacket fb s with
      | none => s
      | some p => pump fb fuel (sendPacket fb p s)
    else s

/-- A packet is discarded for want of a port that is UP, and counted; a broadcast that this node has consumed is not (R480,
R565). -/
def discarded (p : Pkt) (s : State) : State := if p.bcast then s else counterInc 0x82 s

/-- A packet is queued on a port and sent as soon as it is eligible; a port that is not UP discards it, counted
(R480, R565). -/
def ringSend (fb : Bool) (p : Packet) (s : State) : State :=
  let q := rport fb s
  if q.link == .up then pump fb (q.out.length + 1) (rportPut fb { q with out := q.out ++ [p] } s)
  else counterInc 0x82 s

/-- The port that reaches node k from the manager, if any does (R480): true FB. -/
def routeTo (k : BitVec 4) (s : State) : Option Bool :=
  let n := s.ring.nodes.get k.toFin
  if n.hopsA ≠ 0 && (n.hopsB == 0 || n.hopsA ≤ n.hopsB) then some false
  else if n.hopsB ≠ 0 then some true else none

/-- A packet of the manager to node k: node 0 as source, the present epoch (R477, R481). -/
def managerPkt (k : BitVec 4) (ch : Fin 3) (tag : Byte) (arg : Half) (flits : List Dword) (s : State) : Pkt :=
  { ch := ch, dst := k, src := 0, epoch := s.ring.rollSeq, tag := tag, arg := arg, flits := flits }

/-- The manager sends a packet to node k by its route; without a route nothing is sent. -/
def sendTo (k : BitVec 4) (kind : Byte) (p : Pkt) (classC : Bool) (s : State) : State :=
  match routeTo k s with
  | none => s
  | some fb => ringSend fb { kind := kind, p := p, classC := classC } s

/-- The port of a worker's own packets: that on which the latest ROLL_CALL arrived (R480). -/
def upPort (s : State) : Bool := s.ring.toward

/-- A worker's packet toward the manager. -/
def sendUp (kind : Byte) (ch : Fin 3) (tag : Byte) (arg : Half) (flits : List Dword) (s : State) (classC : Bool := false) :
    State :=
  ringSend (upPort s)
    { kind := kind, classC := classC,
      p := { ch := ch, dst := 0, src := s.ident.node, epoch := s.ring.epoch, tag := tag, arg := arg, flits := flits } } s

/-- The 64 data flits of a sector. -/
def sectorFlits (x : BitVec 4096) : List Dword := (List.range 64).map fun i => x.extractLsb' (64 * i) 64

/-- The sector that 64 data flits carry. -/
def flitsSector (l : List Dword) : BitVec 4096 :=
  BitVec.ofNat 4096 (l.foldr (fun d acc => acc * 2 ^ 64 + d.toNat) 0)

/-- The class code of a descriptor (R479). -/
def OpClass.code : OpClass → Nat
  | .a => 1 | .b => 2 | .c => 3

/-- A descriptor flit (R479). -/
def descriptor (sector count port : Nat) (cls : OpClass) : Dword :=
  BitVec.ofNat 64 (sector % 2 ^ 48 + (count - 1) * 2 ^ 48 + port * 2 ^ 57 + cls.code * 2 ^ 60)

/-- ARG of a request (R479): TICKs left for class A, the studio for class B, 0 for class C. -/
def reqArg (cls : OpClass) (deadline : Nat) (studio : Fin 8) (s : State) : Half :=
  match cls with
  | .a => BitVec.ofNat 16 (min 0xFFFF (deadline - s.clk.tick.toNat))
  | .b => BitVec.ofNat 16 studio.val
  | .c => 0

/-- The channel of a request (R478): 2 for class A, 1 for the others. -/
def reqCh (cls : OpClass) : Fin 3 :=
  match cls with
  | .a => 2
  | .b | .c => 1

/-- A tag that no outstanding request to the node uses (R477). -/
def freshTag (k : BitVec 4) (s : State) : Byte :=
  ((List.range 256).map fun i => s.ring.nextTag + BitVec.ofNat 8 i).find?
    (fun t => !(s.ring.reqs.any fun r => r.node == k && r.tag == t)) |>.getD s.ring.nextTag

/-- The packets of a request, in order (R478, R479, R492). -/
def reqPackets (r : RReq) (s : State) : List Packet :=
  match r.kind with
  | .op o =>
    let c := o.cls == .c
    let mk (arg : Half) (fl : List Dword) : Pkt := managerPkt r.node (reqCh o.cls) r.tag arg fl s
    let d := descriptor o.sector o.count (o.member.val % 8) o.cls
    let arg := reqArg o.cls o.deadline o.studio s
    (match o.kind with
    | .read => [⟨0x20, mk arg [d], c, none⟩]
    | .write => ⟨0x22, mk arg [d], c, none⟩ ::
        (o.data.zipIdx.map fun (x, i) => ⟨0x23, mk (BitVec.ofNat 16 i) (sectorFlits x), c, none⟩)
    | .erase => [⟨0x24, mk arg [d], c, none⟩])
  | .psum p =>
    [⟨0x25, managerPkt r.node (reqCh p.cls) r.tag (reqArg p.cls p.deadline p.studio s)
      (p.chunks.map fun (_, port) => descriptor p.sector 8 port.val p.cls) s, p.cls == .c, none⟩]

/-- The packets of a request go out by the node's route. -/
def sendReq (r : RReq) (s : State) : State :=
  (reqPackets r s).foldl (fun s p => sendTo r.node p.kind p.p p.classC s) s

/-- The manager makes a new request of node k; one to a worker that has not come back from DOZE waits unsent (R96). -/
def ringRequest (k : BitVec 4) (kind : ReqKind) (s : State) : State :=
  let t := freshTag k s
  let parked := s.power.asleep.contains k
  let r : RReq := { tag := t, node := k, epoch := s.ring.rollSeq, kind := kind, parked := parked }
  onlyIf (!parked) (sendReq r) { s with ring := { s.ring with reqs := s.ring.reqs ++ [r], nextTag := t + 1 } }

end Sys2Proof.Machine
end

