-- ==== Sys2Proof/Machine/Journal.lean ====
section
/-! DEFINITION. The Sketchbook's records and pages as a lookup sees them, the routing of a sector during a repaint,
and the allocation of pages and record slots (R373, R374, R379, R383, R424). -/

namespace Sys2Proof.Machine

/-- An array. -/
def arrGet (a : Fin 4) (s : State) : Arr := s.arrs.get a

/-- The state with an array replaced; a change of its state, repaint sub-state or BG_KIND sets IRQ_STAT.ARRAY
(R568). -/
def arrPut (a : Fin 4) (x : Arr) (s : State) : State :=
  let y := arrGet a s
  let s := { s with arrs := s.arrs.set a x }
  if x.state != y.state || x.repaint.sub != y.repaint.sub || x.bgKind != y.bgKind then irqSet irqArray s else s

/-- A volume. -/
def volGet (v : Fin 64) (s : State) : Vol := s.vols.get v

/-- The state with a volume replaced. -/
def volPut (v : Fin 64) (x : Vol) (s : State) : State := { s with vols := s.vols.set v x }

/-- x is newer than y: the signed difference of their sequence numbers (R379). -/
def newer (x y : Word) : Bool := decide (0 < (x - y).toInt)

/-- The unretired records with their slots. -/
def liveRecs (s : State) : List (Nat × Rec) := s.skb.recs.filter fun (_, r) => !r.retired

/-- The record covers an array sector: a WRITE whose range holds it, or a TRIM whose range holds it and whose TRIM_DONE
has not passed it, since a WRITE newer than the TRIM may retire from there on and its data is then read from the members
(R50, R373, R381; log entry 73). -/
def Rec.covers (r : Rec) (a : Fin 4) (x : Nat) : Bool :=
  let first := if r.kind == .trim then r.start + r.trimDone else r.start
  r.kind != .parity && r.array == a && decide (first ≤ x) && decide (x < r.start + r.count)

/-- The newer of two records of the directory. -/
def newerRec (best : Option (Nat × Rec)) (c : Nat × Rec) : Option (Nat × Rec) :=
  match best with
  | none => some c
  | some b => if newer c.2.cseq b.2.cseq then some c else some b

/-- The newest sealed, unretired WRITE or TRIM record that covers a sector (R373). -/
def coverOf (a : Fin 4) (x : Nat) (s : State) : Option (Nat × Rec) :=
  ((liveRecs s).filter fun c => c.2.covers a x).foldl newerRec none

/-- What the journal holds for a sector (R373). -/
inductive Cov where
  /-- no record covers it. -/
  | bare
  | data (x : BitVec 4096)
  /-- the page that holds it fails its check: record slot and page. -/
  | bad (slot page : Nat)
  deriving DecidableEq, Repr

/-- The contents of a sector as its newest record gives them (R373): page data, zeros for a TRIM. -/
def Rec.sector (r : Rec) (slot x : Nat) (s : State) : Cov :=
  match r.kind with
  | .write =>
    let pg := (r.pages.getD (x / 8 - r.start / 8) (0, 0)).1
    match kget pg s.skb.pages with
    | none => .bad slot pg
    | some p => if p.bad then .bad slot pg else .data (p.data.get (Fin.ofNat 8 x))
  | .trim | .parity => .data 0

/-- The journal's contents of a sector. -/
def journalSector (a : Fin 4) (x : Nat) (s : State) : Cov :=
  match coverOf a x s with
  | none => .bare
  | some (slot, r) => r.sector slot x s

/-- The covers of the eight sectors of an array tile. -/
def tileCover (a : Fin 4) (tile : Nat) (s : State) : Vector Cov 8 :=
  Vector.ofFn fun k => journalSector a (8 * tile + k.val) s

/-! ## Routing (R424, R428) -/

/-- A sector is read from the new region. -/
def Arr.readsNew (a : Arr) (x : Nat) : Bool :=
  a.repaint.sub != .none &&
    (if a.repaint.back then decide (a.repaint.rmark ≤ x) && decide (x < a.repaint.wmark)
     else decide (x < a.repaint.wmark))

/-- Data of a sector is written to the new region. -/
def Arr.writesNew (a : Arr) (x : Nat) : Bool :=
  a.repaint.sub != .none &&
    (if a.repaint.back then decide (a.repaint.rmark ≤ x) && decide (x < a.repaint.wmark)
     else decide (x < a.repaint.front))

/-- Data of a sector is written to the old region. -/
def Arr.writesOld (a : Arr) (x : Nat) : Bool :=
  a.repaint.sub == .none ||
    (if a.repaint.back then decide (x < a.repaint.front) || decide (a.repaint.wmark ≤ x)
     else decide (a.repaint.wmark ≤ x))

/-- Data of a sector is written to a region. -/
def Arr.writesTo (a : Arr) (new : Bool) (x : Nat) : Bool := if new then a.writesNew x else a.writesOld x

/-! ## Pages and record slots (R374, R383) -/

/-- USED: units of JOURNAL_PAGE that are not FREE (R383). -/
def journalUsed (s : State) : Nat := (poolGet pPage s).total - (poolGet pPage s).free

/-- The fetch-pause mark is reached (R383). -/
def pauseReached (s : State) : Bool := decide (s.skb.pausePct * 2048 ≤ journalUsed s * 100)

/-- Forced flushing and PAUSE follow USED; a change of either sets IRQ_STAT.SKB (R383, R568). -/
def forcedUpdate (s : State) : State :=
  let u := journalUsed s * 100
  let f := if s.skb.hwmPct * 2048 ≤ u then true
    else if u < (s.skb.hwmPct - 10) * 2048 then false else s.skb.forced
  let changed := f != s.skb.forced || pauseReached s != s.skb.pause
  let s := { s with skb := { s.skb with forced := f, pause := pauseReached s } }
  if changed then irqSet irqSkb s else s

/-- The lowest index after the last one allocated, wrapping at 2048, that is not in use (R374). -/
@[irreducible] def nextIndex (last : Nat) (used : List Nat) : Option Nat :=
  ((List.range 2048).map fun i => (last + 1 + i) % 2048).find? fun i => !used.contains i

/-- A page is allocated (R374); its unit has been taken from the pool before. -/
def allocPage (s : State) : Option (Nat × State) :=
  (nextIndex s.skb.lastPage s.skb.usedPages).map fun p =>
    (p, { s with skb := { s.skb with lastPage := p, usedPages := p :: s.skb.usedPages } })

/-- The operation in flight ends. -/
def progNext (s : State) : State := { s with nv := { s.nv with prog := s.nv.prog.drop 1 } }

/-- The session page has been programmed (R124). -/
def sessionPut (opened : Bool) (s : State) : State :=
  { s with nv := { s.nv with session := if opened then .opened else .closed } }

/-- A record takes another content in its slot. -/
def recPut (slot : Nat) (f : Rec → Rec) (s : State) : State :=
  match kget slot s.skb.recs with
  | none => s
  | some r => { s with skb := { s.skb with recs := kput slot (f r) s.skb.recs } }

/-- Pages leave the map of pages in use. -/
def freePages (l : List Nat) (s : State) : State :=
  { s with skb := { s.skb with
      usedPages := s.skb.usedPages.filter fun p => !l.contains p
      pages := s.skb.pages.filter fun (p, _) => !l.contains p } }

/-- Record slots that hold an unretired record or are promised to a record program. -/
def usedSlots (s : State) : List Nat :=
  (liveRecs s).map (·.1) ++ s.nv.prog.filterMap fun
    | .record _ i _ => some i
    | .page _ _ _ | .parity _ _ _ | .nv | .session _ | .bbox _ _ | .retire _ | .trimDone _ _ | .land _ _ _ => none

/-- A record slot is allocated (R374). -/
def allocRec (s : State) : Option (Nat × State) :=
  (nextIndex s.skb.lastRec (usedSlots s)).map fun i => (i, { s with skb := { s.skb with lastRec := i } })

/-- A program operation is requested (R374); in FAILSTOP none starts (R28). -/
def progReq (o : ProgOp) (s : State) : State :=
  if s.restart.level == .failstop then s
  else { s with nv := { s.nv with prog := s.nv.prog ++ [o] } }

/-- A record's seal is requested: it takes the next CSEQ and the present TICK_LO (R377, R379). -/
def reqSeal (owner : Option Nat) (slot : Nat) (r : Rec) (s : State) : State :=
  progReq (.record owner slot { r with cseq := s.skb.cseq, sealTick := s.clk.tick.truncate 32 })
    { s with skb := { s.skb with cseq := s.skb.cseq + 1 } }

/-- A region is written for some sector from lo to hi - 1: the marks of a repaint cut the range, so its ends and the marks
within it tell (R424, R425). -/
def Arr.writesIn (a : Arr) (new : Bool) (lo hi : Nat) : Bool :=
  (lo :: (hi - 1) :: [a.repaint.wmark, a.repaint.front, a.repaint.rmark].filter fun m => lo ≤ m && m < hi).any
    (a.writesTo new)

/-- The stripes of a region that a record's work there lies in (R425): the stripe numbers of its sectors that the
region is written for. -/
def Rec.stripesIn (r : Rec) (a : Arr) (new : Bool) : List Nat :=
  ((a.shapeAt new).stripesIn r.start r.count).filter fun t =>
    let h := a.shapeAt new
    a.writesIn new (max r.start (t * h.stripeSectors)) (min (r.start + r.count) ((t + 1) * h.stripeSectors))

/-- The stripes of a region in which the record's write-out has responded. -/
def Rec.doneIn (r : Rec) (new : Bool) : List Nat := if new then r.doneNew else r.doneOld

/-- The record's write-out in a stripe of a region has responded. -/
def Rec.markDone (r : Rec) (new : Bool) (stripe : Nat) : Rec :=
  if (r.doneIn new).contains stripe then r
  else if new then { r with doneNew := stripe :: r.doneNew } else { r with doneOld := stripe :: r.doneOld }

/-- The stripes of a region that a record touches, first and last. -/
def Rec.span (r : Rec) (h : Shape) : Nat × Nat := (h.stripeOf r.start, h.stripeOf (r.start + r.count - 1))

/-- The regions that an array has now: the old one, and the new one during a repaint. -/
def Arr.regions (a : Arr) : List Bool := if a.repaint.sub == .none then [false] else [false, true]

end Sys2Proof.Machine
end

