-- ==== Sys2Proof/Machine/Canvas.lean ====
section
/-! DEFINITION. Canvas memory: binding, merging, eviction, the second tier, and what is dropped when an array stops
being served (R371, R372, R396, R431, R435 to R437). -/

namespace Sys2Proof.Machine

/-- The tiles of canvas memory by physical number, with their bindings. -/
def tileFind (b : Bind) (s : State) : Option (Nat × Tile) := s.canvas.tiles.find? fun (_, t) => t.bind == b

/-- The second-tier tile of a binding. -/
def tier2Find (b : Bind) (s : State) : Option (Nat × Tile) := s.canvas.tier2.find? fun (_, t) => t.bind == b

/-- The state with canvas memory replaced. -/
def canvasPut (c : Canvas) (s : State) : State := { s with canvas := c }

/-- A tile stored under its physical number. -/
def tilePut (n : Nat) (t : Tile) (s : State) : State :=
  canvasPut { s.canvas with tiles := kput n t s.canvas.tiles } s

/-- What a physical tile that nothing has filled holds. -/
def bareTile (era n : Nat) : TileData := Vector.ofFn fun k => Config.canvasInit (8192 * era + 8 * n + k.val)

/-- What a physical tile holds or last held (R396). -/
def tileContents (n : Nat) (s : State) : TileData :=
  match kget n s.canvas.tiles with
  | some t => t.data
  | none => (kget n s.canvas.ghosts).getD (bareTile s.canvas.era n)

/-- The lowest FREE physical tile. (Irreducible only for the elaborator: without it, no equation of a definition that asks
for a tile is found within the default limits.) -/
@[irreducible] def freeTile (s : State) : Option Nat :=
  (List.range 1024).find? fun n => (kget n s.canvas.tiles).isNone

/-- A physical tile becomes FREE, keeping its last contents (R396), and its unit returns. -/
def tileDrop (n : Nat) (s : State) : State :=
  match kget n s.canvas.tiles with
  | none => s
  | some t =>
    poolGive pTile t.charge 1
      (canvasPut { s.canvas with tiles := kdel n s.canvas.tiles, ghosts := kput n t.data s.canvas.ghosts } s)

/-- A second-tier tile becomes FREE. -/
def tier2Drop (n : Nat) (s : State) : State :=
  match kget n s.canvas.tier2 with
  | none => s
  | some t => poolGive pTier2 t.charge 1 (canvasPut { s.canvas with tier2 := kdel n s.canvas.tier2 } s)

/-- The tiles of a list of numbers are dropped. -/
def tilesDrop (l : List Nat) (s : State) : State := l.foldl (fun s n => tileDrop n s) s

/-- Canvas and second-tier tiles whose binding meets a condition are dropped. -/
def dropWhere (f : Bind → Bool) (s : State) : State :=
  let s := tilesDrop ((s.canvas.tiles.filter fun (_, t) => f t.bind).map (·.1)) s
  ((s.canvas.tier2.filter fun (_, t) => f t.bind).map (·.1)).foldl (fun s n => tier2Drop n s) s

/-- The binding is to a tile of an array's contents. -/
def Bind.ofArray (a : Fin 4) : Bind → Bool
  | .array b _ | .parity b _ _ => b == a
  | .stream _ _ | .filling _ _ _ | .raw _ _ _ | .sum _ _ _ _ | .delay _ => false

/-- The binding belongs to some work. -/
def Bind.ofWork (w : Work) : Bind → Bool
  | .raw v _ _ | .sum v _ _ _ => v == w
  | .array _ _ | .parity _ _ _ | .stream _ _ | .filling _ _ _ | .delay _ => false

/-- Everything some work had read is dropped, with its marks. -/
def workDrop (w : Work) (s : State) : State :=
  let s := dropWhere (Bind.ofWork w) s
  { s with skb := { s.skb with marks := s.skb.marks.filter fun m => m.w != w } }

/-- A tile is used: it becomes the most recently used one. -/
def touch (n : Nat) (s : State) : State :=
  match kget n s.canvas.tiles with
  | none => s
  | some t => tilePut n { t with used := s.canvas.clock + 1 } (canvasPut { s.canvas with clock := s.canvas.clock + 1 } s)

/-! ## Eviction (R436, R437) -/

/-- A tile that may be taken: unpinned. -/
def unpinned (t : Tile) : Bool := t.pins == 0

/-- Least of a list by a measure. -/
def leastBy (f : Nat × Tile → Nat) (l : List (Nat × Tile)) : Option (Nat × Tile) :=
  l.foldl (fun best c => match best with
    | none => some c
    | some b => if f c < f b then some c else some b) none

/-- The studio holds its cap of canvas tiles. -/
def atCap (st : Fin 8) (s : State) : Bool :=
  match poolCap pTile st s with
  | none => false
  | some c => decide (c ≤ (poolGet pTile s).held.get st)

/-- The victim of a request, by R436's classes: least recently used within a class of clean tiles, oldest seal first
among DIRTY tiles. -/
def victim (who : Option (Fin 8)) (s : State) : Option (Nat × Tile) :=
  let all := s.canvas.tiles.filter fun (_, t) => unpinned t
  let clean := all.filter fun (_, t) => !t.dirty
  let dirty := all.filter fun (_, t) => t.dirty
  let lru := leastBy fun c => c.2.used
  let old := leastBy fun c => c.2.sealAt
  match who with
  | some st =>
    (lru (clean.filter fun (_, t) => t.charge == some st)).orElse fun _ =>
    (if !atCap st s && decide (poolRes pTile s < (poolGet pTile s).system) then
      lru (clean.filter fun (_, t) => t.charge == none) else none).orElse fun _ =>
    old (dirty.filter fun (_, t) => t.charge == some st)
  | none =>
    (lru (clean.filter fun (_, t) => t.charge == none)).orElse fun _ =>
    (lru clean).orElse fun _ => old dirty

/-- The binding may be held by the second tier: neither a parity tile nor a stream tile (R437). -/
def Bind.pages : Bind → Bool
  | .array _ _ => true
  | .parity _ _ _ | .stream _ _ | .filling _ _ _ | .raw _ _ _ | .sum _ _ _ _ | .delay _ => false

/-- A clean victim goes to the second tier when it has room or after its least recently used tile is dropped
(R437); the tile keeps its charge. -/
def pageOut (t : Tile) (s : State) : State :=
  if t.dirty || !t.bind.pages || (poolGet pTier2 s).total == 0 then s
  else
    let s := if (poolGet pTier2 s).free == 0 then
      match leastBy (fun c => c.2.used) s.canvas.tier2 with
      | none => s
      | some (n, _) => tier2Drop n s
      else s
    match (List.range (poolGet pTier2 s).total).find? fun n => (kget n s.canvas.tier2).isNone with
    | none => s
    | some n => poolTake pTier2 t.charge 1 (canvasPut { s.canvas with tier2 := kput n t s.canvas.tier2 } s)

/-- A canvas tile for a request, FREE or taken from a victim (R432, R433, R436), bound as asked; none if the request
must wait (R434). -/
def allocTile (who : Option (Fin 8)) (b : Bind) (pins : Nat) (s : State) : Option (Nat × State) :=
  let mk (n : Nat) (s : State) : State :=
    tilePut n { bind := b, valid := 0, dirty := false, data := tileContents n s, charge := who, pins := pins,
                used := s.canvas.clock + 1 } (canvasPut { s.canvas with clock := s.canvas.clock + 1 } s)
  match freeTile s with
  | some n =>
    if poolFits pTile who 1 s then some (n, mk n (poolTake pTile who 1 s))
    else
      match victim who s with
      | none => none
      | some (v, t) => some (v, mk v (poolMove pTile t.charge who 1 (pageOut t s)))
  | none =>
    match victim who s with
    | none => none
    | some (v, t) => some (v, mk v (poolMove pTile t.charge who 1 (pageOut t s)))

/-! ## Contents -/

/-- Sectors of a mask taken from the second tile, the others from the first. -/
def mergeTile (old new : TileData) (mask : BitVec 8) : TileData :=
  Vector.ofFn fun k => if mask.getLsbD k.val then new.get k else old.get k

/-- The XOR of two tiles. -/
def xorTile (x y : TileData) : TileData := Vector.ofFn fun k => x.get k ^^^ y.get k

/-- A tile of zeros. -/
def zeroTile : TileData := Vector.replicate 8 0

/-- The XOR of a list of tiles. -/
def xorTiles (l : List TileData) : TileData := l.foldl xorTile zeroTile

/-- Sectors `lo` to `hi − 1` of a tile as a mask. -/
def maskOf (lo hi : Nat) : BitVec 8 := BitVec.ofNat 8 (2 ^ hi - 2 ^ lo)

/-- The valid sectors of an array tile in canvas memory or, failing that, in the second tier. -/
def cached (a : Fin 4) (tile : Nat) (s : State) : BitVec 8 × TileData :=
  match tileFind (.array a tile) s with
  | some (_, t) => (t.valid, t.data)
  | none =>
    match tier2Find (.array a tile) s with
    | some (_, t) => (t.valid, t.data)
    | none => (0, zeroTile)

/-- A lookup that finds a tile in the second tier copies it back to a canvas tile and frees the second-tier tile
(R437). -/
def pageIn (who : Option (Fin 8)) (a : Fin 4) (tile : Nat) (s : State) : State :=
  match tileFind (.array a tile) s, tier2Find (.array a tile) s with
  | none, some (m, t) =>
    match allocTile who (.array a tile) 0 s with
    | none => s
    | some (n, s) =>
      tier2Drop m (tilePut n { bind := t.bind, valid := t.valid, dirty := false, data := t.data, charge := who,
                               used := s.canvas.clock } s)
  | _, _ => s

/-- A seal merges written sectors into the bound tile of an array tile, or binds the FILLING tile in its place, and
marks the result DIRTY and charged to the studio of the seal; the second-tier copy is dropped in the same instant
(R372, R431, R435, R437). -/
def sealTile (st : Option (Fin 8)) (slot : Nat) (a : Fin 4) (tile : Nat) (mask : BitVec 8) (data : TileData) (s : State) :
    State :=
  let s := match tier2Find (.array a tile) s with
    | some (m, _) => tier2Drop m s
    | none => s
  let at' := s.canvas.clock + 1
  let s := canvasPut { s.canvas with clock := at' } s
  match tileFind (.array a tile) s, tileFind (.filling slot a tile) s with
  | some (n, t), f =>
    let s := match f with
      | some (m, _) => tileDrop m s
      | none => s
    let s := if t.charge == st then s else poolMove pTile t.charge st 1 s
    tilePut n { t with
      valid := t.valid ||| mask, dirty := true, data := mergeTile t.data data mask, charge := st, used := at',
      sealAt := at' } s
  | none, some (m, f) =>
    let s := if f.charge == st then s else poolMove pTile f.charge st 1 s
    tilePut m { f with
      bind := .array a tile, valid := mask, dirty := true, data := mergeTile f.data data mask, charge := st, pins := 0,
      used := at', sealAt := at' } s
  | none, none => s

/-- A TRIM's seal: every bound sector of the range reads zeros, and second-tier copies it covers are dropped (R372,
R388, R437). Its tiles are DIRTY by that seal; it merges no written sectors, so they keep their charge (R435). -/
def trimTiles (a : Fin 4) (start count : Nat) (s : State) : State :=
  let inRange (tile k : Nat) : Bool := decide (start ≤ 8 * tile + k) && decide (8 * tile + k < start + count)
  let hit (b : Bind) : Bool :=
    match b with
    | .array c tile => c == a && ((List.range 8).any fun k => inRange tile k)
    | .parity _ _ _ | .stream _ _ | .filling _ _ _ | .raw _ _ _ | .sum _ _ _ _ | .delay _ => false
  let s := ((s.canvas.tier2.filter fun (_, t) => hit t.bind).map (·.1)).foldl (fun s n => tier2Drop n s) s
  let at' := s.canvas.clock + 1
  canvasPut { s.canvas with
    clock := at'
    tiles := s.canvas.tiles.map fun (n, t) =>
      match t.bind with
      | .array c tile =>
        if c == a then
          let m := BitVec.ofNat 8 (((List.range 8).filter fun k => inRange tile k).foldl (fun x k => x + 2 ^ k) 0)
          if m = 0 then (n, t)
          else (n, { t with valid := t.valid ||| m, dirty := true, data := mergeTile t.data zeroTile m, sealAt := at' })
        else (n, t)
      | .parity _ _ _ | .stream _ _ | .filling _ _ _ | .raw _ _ _ | .sum _ _ _ _ | .delay _ => (n, t) } s

/-- Tiles of sectors that no unretired record covers any longer are clean (R371). -/
def cleanTiles (s : State) : State :=
  canvasPut { s.canvas with
    tiles := s.canvas.tiles.map fun (n, t) =>
      match t.bind with
      | .array a tile =>
        if t.dirty && ((tileCover a tile s).toList.all (· == .bare)) then (n, { t with dirty := false }) else (n, t)
      | .parity _ _ _ | .stream _ _ | .filling _ _ _ | .raw _ _ _ | .sum _ _ _ _ | .delay _ => (n, t) } s

end Sys2Proof.Machine
end

