-- ==== Sys2Proof/Machine/Fetch.lean ====
section
/-! DEFINITION. Member operations and the reading of tile rows: lacking roles, raw reads, retouch with partial sums,
and the current contents of an array tile (R20, R335, R357, R373, R397, R398, R410, R441). -/

namespace Sys2Proof.Machine

/-! ## Member operations -/

/-- A member entry. -/
def memGet (m : Fin 128) (s : State) : Member := s.members.tbl.get m

/-- The state with a member entry replaced. -/
def memPut (m : Fin 128) (x : Member) (s : State) : State :=
  { s with members := { s.members with tbl := s.members.tbl.set m x } }

/-- A member port of this node. -/
def portGet (p : Fin 8) (s : State) : Port := s.members.ports.get p

/-- The state with a member port replaced. -/
def portPut (p : Fin 8) (x : Port) (s : State) : State :=
  { s with members := { s.members with ports := s.members.ports.set p x } }

/-- The node of a member (R172). -/
def nodeOf (m : Fin 128) : BitVec 4 := BitVec.ofNat 4 (m.val / 8)

/-- The port of a member on its node (R172). -/
def portOf (m : Fin 128) : Fin 8 := Fin.ofNat 8 m.val

/-- The member index of a port of this node. -/
def ownMember (p : Fin 8) (s : State) : Fin 128 := Fin.ofNat 128 (8 * s.ident.node.toNat + p.val)

/-- The member lies on this node. -/
def isOwn (m : Fin 128) (s : State) : Bool := nodeOf m == s.ident.node

/-- An operation enters its class queue on a port of this node (R443). -/
def Port.enqueue (o : MOp) (p : Port) : Port :=
  match o.cls with
  | .a => { p with qa := p.qa ++ [o] }
  | .b => { p with qb := p.qb ++ [o] }
  | .c => { p with qc := p.qc ++ [o] }

/-- A member operation is created: on this node's port, or as a ring request of the member's node. -/
def createOp (o : MOp) (s : State) : State :=
  let o := { o with id := s.members.nextOp }
  let s := { s with members := { s.members with nextOp := s.members.nextOp + 1 } }
  if isOwn o.member s then portPut (portOf o.member) ((portGet (portOf o.member) s).enqueue o) s
  else ringRequest (nodeOf o.member) (.op o) s

/-- Work that an operation belongs to. -/
def OpUse.work : OpUse → Option Work
  | .chunk w _ _ _ => some w
  | .write w => some w
  | .sig _ _ | .mend _ => none

/-- A ring request as the member operation, or the first read of the partial sum, that it asks for. -/
def RReq.asOp (r : RReq) : MOp :=
  match r.kind with
  | .op o => o
  | .psum p =>
    { id := 0, member := 0, cls := p.cls, kind := .read, sector := p.sector, count := 8
      use := .chunk p.w ⟨p.array, p.newRegion, p.stripe, p.pos⟩ p.row 1 }

/-- Operations of this node that a condition selects and that have not been issued are dropped, and so are the ring
requests of such operations that wait for a sleeping worker (R411, R412). -/
def dropOps (f : MOp → Bool) (s : State) : State :=
  { s with
    ring := { s.ring with reqs := s.ring.reqs.filter fun r => !(r.parked && f r.asOp) }
    members := { s.members with
      ports := s.members.ports.map fun p =>
        { p with qa := p.qa.filter (!f ·), qb := p.qb.filter (!f ·), qc := p.qc.filter (!f ·) } } }

/-- Every operation of this node and of the ring that is queued or issued. -/
def allOps (s : State) : List MOp :=
  (s.members.ports.toList.flatMap fun p => p.qa ++ p.qb ++ p.qc ++ p.issued) ++
    s.ring.reqs.filterMap fun r => match r.kind with
      | .op o => some o
      | .psum _ => none

/-- Some operation of the work is queued, issued or requested. -/
def opsOut (w : Work) (s : State) : Bool := (allOps s).any fun o => o.use.work == some w

/-! ## Lacking roles (R357, R402, R403, R429) -/

/-- The stripes that a restoration walks, as segments (region, first stripe, count), in order (R402, R429). -/
def Arr.walk (a : Arr) : List (Bool × Nat × Nat) :=
  let s1 := a.shape.stripeSectors
  let s2 := a.repaint.shape.stripeSectors
  let all := a.shape.stripes a.rows
  let kEnd := min ((a.repaint.k + s1 - 1) / s1) all
  if a.repaint.sub == .none then [(false, 0, all)]
  else if a.repaint.back then
    [(true, a.repaint.rmark / s2, (a.repaint.wmark + s2 - 1) / s2 - a.repaint.rmark / s2),
     (false, 0, a.repaint.rmark / s1), (false, a.repaint.wmark / s1, kEnd - a.repaint.wmark / s1)]
  else
    [(true, 0, a.repaint.wmark / s2), (false, a.repaint.wmark / s1, kEnd - a.repaint.wmark / s1)]

/-- Length of a walk. -/
def walkLen (l : List (Bool × Nat × Nat)) : Nat := (l.map fun x => x.2.2).sum

/-- The stripe at a position of a walk. -/
def walkAt : List (Bool × Nat × Nat) → Nat → Option (Bool × Nat)
  | [], _ => none
  | (n, f, c) :: t, i => if i < c then some (n, f + i) else walkAt t (i - c)

/-- The first position of a stripe in a walk. -/
def walkPos : List (Bool × Nat × Nat) → Bool → Nat → Option Nat
  | [], _, _ => none
  | (n, f, c) :: t, new, stripe =>
    if n == new && decide (f ≤ stripe) && decide (stripe < f + c) then some (stripe - f)
    else (walkPos t new stripe).map (· + c)

/-- A restoration onto a target has passed the stripe. -/
def Arr.passed (a : Arr) (new : Bool) (stripe : Nat) : Bool :=
  match walkPos a.walk new stripe with
  | none => false
  | some i => decide (i < a.mark)

/-- A role is lacking for a stripe of a region: its member is MISSING or FAILED, or is the target of a restoration
that has not passed the stripe (R357, R403). -/
def Arr.lacking (a : Arr) (new : Bool) (stripe role : Nat) : Bool :=
  match a.roles[role]? with
  | none => true
  | some r =>
    match r.state with
    | .present => false
    | .missing | .failed => true
    | .target => !(a.bgKind == 1 && a.passed new stripe)

/-- Roles whose chunks a finished or running rank has taken over. -/
def Arr.ranked (a : Arr) (role : Nat) : Bool :=
  (List.range a.sparesUsed).any fun i => rankRole a.spareRole i == role && !(a.rankBusy && i + 1 == a.sparesUsed)

/-- LACKING: roles whose member does not serve them and that no applicable rank has taken over; a role whose
restoration has not finished counts (R357, R358). -/
def Arr.lackingRoles (a : Arr) : List Nat :=
  (List.range a.roles.length).filter fun i =>
    match a.roles[i]? with
    | none => false
    | some r => r.state != .present && !a.ranked i && !(a.bgKind == 2 && r.state == .target)

/-! ## Raw reads and retouch -/

/-- The member and first sector of a chunk's tile row. -/
def chunkPlace (c : ChunkAt) (row : Nat) (s : State) : Option (Fin 128) × Nat :=
  let a := arrGet c.array s
  (a.memberOf (a.roleAt c.newRegion c.stripe c.pos),
    (a.shapeAt c.newRegion).memberSector (a.originAt c.newRegion) c.stripe row)

/-- A partial sum that a worker has given. -/
def sumTile (w : Work) (c : ChunkAt) (row : Nat) (k : BitVec 4) (s : State) : Option TileData :=
  match tileFind (.sum w c row k) s with
  | some (_, t) => if t.valid = 0xFF then some t.data else none
  | none => none

/-- A raw tile that some work has read. -/
def rawTile (w : Work) (c : ChunkAt) (row : Nat) (s : State) : Option TileData :=
  match tileFind (.raw w c row) s with
  | some (_, t) => if t.valid = 0xFF then some t.data else none
  | none => none

/-- The read of a chunk's tile for some work has failed. -/
def rawFailed (w : Work) (c : ChunkAt) (row : Nat) (s : State) : Bool :=
  s.skb.marks.any fun m => m.w == w && m.at' == c && m.row == row

/-- The failure is noted. -/
def markFailed (w : Work) (c : ChunkAt) (row : Nat) (s : State) : State :=
  { s with skb := { s.skb with marks := { w := w, at' := c, row := row } :: s.skb.marks } }

/-- The chunk is unobtainable for the tile row: its holder is lacking, or its read has failed (R410). -/
def unobtainable (w : Work) (c : ChunkAt) (row : Nat) (s : State) : Bool :=
  let a := arrGet c.array s
  a.lacking c.newRegion c.stripe (a.roleAt c.newRegion c.stripe c.pos) || rawFailed w c row s

/-- Who pays for the tiles of some work, and the class, studio, deadline and layer of its member reads (R435, R441). -/
structure Payer where
  who : Option (Fin 8)
  cls : OpClass
  studio : Fin 8 := 0
  deadline : Nat := 0
  layer : Nat := 0
  deriving DecidableEq, Repr

/-- The payer of SYSTEM class C work. -/
def Payer.system : Payer := { who := none, cls := .c }

/-- A request for a canvas tile waits, unless the work already waits for one (R434). -/
def waitTile (w : Work) (who : Option (Fin 8)) (s : State) : State :=
  if s.ledger.waiting.any fun r => r.use == .tiles w then s else poolWait ⟨pTile, who, 1, .tiles w⟩ s

/-- A chunk's tile row has been asked for: a raw tile is being filled or filled, or its read has failed. -/
def asked (w : Work) (c : ChunkAt) (row : Nat) (s : State) : Bool :=
  (tileFind (.raw w c row) s).isSome || rawFailed w c row s

/-- A class M reset holds the member's port on this node: its chunks are retouched meanwhile (R127). -/
def portHeld (m : Fin 128) (s : State) : Bool := isOwn m s && (portGet (portOf m) s).classM.isSome

/-- One chunk's tile row is asked of its holder, once: a pinned raw tile to be filled and a read (R435). -/
def askRaw (p : Payer) (w : Work) (c : ChunkAt) (row : Nat) (s : State) : State :=
  if asked w c row s then s
  else
    match chunkPlace c row s with
    | (none, _) => markFailed w c row s
    | (some m, sec) =>
      if portHeld m s then markFailed w c row s
      else match allocTile p.who (.raw w c row) 1 s with
      | none => waitTile w p.who s
      | some (_, s) =>
        createOp { id := 0, member := m, cls := p.cls, studio := p.studio, deadline := p.deadline, layer := p.layer,
                   kind := .read, sector := sec, count := 8, use := .chunk w c row 1 } s

/-- The chunks of a retouch that lie on one worker are asked for as one partial sum, once (R398, R492). -/
def askSum (p : Payer) (w : Work) (c : ChunkAt) (k : BitVec 4) (cs : List ChunkAt) (row : Nat) (s : State) : State :=
  if (tileFind (.sum w c row k) s).isSome then s
  else
    match allocTile p.who (.sum w c row k) 1 s with
    | none => waitTile w p.who s
    | some (_, s) =>
      let ports := cs.filterMap fun d => (chunkPlace d row s).1.map fun m => (d.pos, portOf m)
      ringRequest k (.psum
        { w := w, cls := p.cls, studio := p.studio, deadline := p.deadline, array := c.array,
          newRegion := c.newRegion, stripe := c.stripe, row := row, chunks := ports, pos := c.pos,
          sector := (chunkPlace c row s).2 }) s

/-- What asking for contents answers. -/
inductive Need where
  | got (t : TileData)
  /-- member operations or tiles are awaited. -/
  | wait
  /-- two or more chunks of the row are unobtainable; these are the members. -/
  | lost (members : List (Fin 128))
  /-- a page fails its check: record slot and page. -/
  | badPage (slot page : Nat)
  deriving DecidableEq, Repr

/-- The other chunks of a chunk's stripe. -/
def others (c : ChunkAt) (s : State) : List ChunkAt :=
  let h := (arrGet c.array s).shapeAt c.newRegion
  ((List.range (h.dps + 1)).filter (· != c.pos)).map fun x => { c with pos := x }

/-- The nodes of a list of chunks, without repeats. -/
def nodesOf (cs : List ChunkAt) (row : Nat) (s : State) : List (BitVec 4) :=
  (cs.filterMap fun c => (chunkPlace c row s).1.map nodeOf).eraseDups

/-- The members of the unobtainable chunks of a stripe's tile row. -/
def lostMembers (w : Work) (c : ChunkAt) (row : Nat) (s : State) : List (Fin 128) :=
  (c :: others c s).filterMap fun d => if unobtainable w d row s then (chunkPlace d row s).1 else none

/-- The contents that a chunk's tile row has by XOR of the other chunks of its stripe (R397): each is asked for, those
of one worker as a partial sum. -/
def retouch (p : Payer) (w : Work) (c : ChunkAt) (row : Nat) (s : State) : Need × State :=
  let os := others c s
  if os.any fun d => unobtainable w d row s then (.lost (lostMembers w c row s), s)
  else
    let onNode (k : BitVec 4) (d : ChunkAt) : Bool := (chunkPlace d row s).1.map nodeOf == some k
    let mine (k : BitVec 4) : List ChunkAt := os.filter (onNode k)
    let s := (nodesOf os row s).foldl (fun s k =>
      if k == s.ident.node || (mine k).all (fun d => (rawTile w d row s).isSome) then
        (mine k).foldl (fun s d => askRaw p w d row s) s
      else askSum p w c k (mine k) row s) s
    if os.any fun d => unobtainable w d row s then (.lost (lostMembers w c row s), s)
    else
      let sums := (nodesOf os row s).map fun k => match sumTile w c row k s with
        | some t => some t
        | none =>
          if (mine k).all fun d => (rawTile w d row s).isSome then some (xorTiles ((mine k).filterMap fun d => rawTile w d row s))
          else none
      if sums.all (·.isSome) then (.got (xorTiles (sums.filterMap id)), s) else (.wait, s)

/-- A tile that was rebuilt because its holder's read failed is to be mended, where the holder stayed ACTIVE; a tile of a
lacking role is not (R399). -/
def noteMend (c : ChunkAt) (row : Nat) (s : State) : State :=
  let x := arrGet c.array s
  let active : Bool := match (chunkPlace c row s).1 with
    | some m => (memGet m s).state == .active
    | none => false
  if !active || x.lacking c.newRegion c.stripe (x.roleAt c.newRegion c.stripe c.pos) || s.skb.mends.contains (c, row) then s
  else { s with skb := { s.skb with mends := s.skb.mends ++ [(c, row)] } }

/-- A retouch for some work has rebuilt a tile whose own read failed: it is noted for mending once (R399). -/
def mendOnce (w : Work) (c : ChunkAt) (row : Nat) (s : State) : State :=
  let mine (m : RawMark) : Bool := m.w == w && m.at' == c && m.row == row
  if s.skb.marks.any fun m => mine m && !m.noted then
    noteMend c row { s with skb := { s.skb with
      marks := s.skb.marks.map fun m => if mine m then { m with noted := true } else m } }
  else s

/-- The contents of a chunk's tile row as its holder or the rest of the stripe gives them. The flag says that it was
retouched. -/
def chunkTile (p : Payer) (w : Work) (c : ChunkAt) (row : Nat) (s : State) : Need × Bool × State :=
  if unobtainable w c row s then
    match retouch p w c row s with
    | (.got t, s) => (.got t, true, mendOnce w c row s)
    | (n, s) => (n, true, s)
  else
    match rawTile w c row s with
    | some t => (.got t, false, s)
    | none => (.wait, false, askRaw p w c row s)

/-- The chunk and tile row that hold an array tile in a region. -/
def tileChunk (a : Fin 4) (new : Bool) (tile : Nat) (s : State) : ChunkAt × Nat :=
  let h := (arrGet a s).shapeAt new
  (⟨a, new, h.stripeOf (8 * tile), h.chunkOf (8 * tile)⟩, h.tileRowOf (8 * tile))

/-- A page read from the Sketchbook fails its check (R373). -/
def badPageNote (slot page : Nat) (s : State) : State := logRec .skbPageBad (leBytes 2 slot ++ leBytes 2 page) s

/-- The pages of a tile's covers that fail their check, of the sectors of a mask: record slots and pages. -/
def badCovers (v : Vector Cov 8) (mask : BitVec 8) : List (Nat × Nat) :=
  ((List.finRange 8).filterMap fun k => match v.get k with
    | .bad slot pg => if mask.getLsbD k.val then some (slot, pg) else none
    | .bare | .data _ => none).eraseDups

/-- The pages of a tile's covers that fail their check are noted (R373, R391). -/
def badPageNotes (v : Vector Cov 8) (s : State) : State :=
  (badCovers v 0xFF).foldl (fun s (slot, pg) => badPageNote slot pg s) s

/-- The sectors whose page holds them. -/
def dataMask (v : Vector Cov 8) : BitVec 8 :=
  BitVec.ofNat 8 (((List.finRange 8).filter fun k => match v.get k with
    | .data _ => true
    | .bare | .bad _ _ => false).foldl (fun x k => x + 2 ^ k.val) 0)

/-- The sectors that the journal covers. -/
def coverMask (v : Vector Cov 8) : BitVec 8 :=
  BitVec.ofNat 8 (((List.finRange 8).filter fun k => v.get k != .bare).foldl (fun x k => x + 2 ^ k.val) 0)

/-- The journal's data of the covered sectors. -/
def coverData (v : Vector Cov 8) : TileData := v.map fun c => match c with
  | .data x => x
  | .bare | .bad _ _ => 0

/-- The contents of an array tile under the given covers: records first, then valid canvas or second-tier sectors, then
the members, merged at one instant. -/
def coveredTile (v : Vector Cov 8) (p : Payer) (w : Work) (a : Fin 4) (tile : Nat) (want : BitVec 8) (s : State) :
    Need × Bool × State :=
  let (valid, data) := cached a tile s
  let merged (base : TileData) : TileData := mergeTile (mergeTile base data valid) (coverData v) (dataMask v)
  if want &&& ~~~ (coverMask v ||| valid) = 0 then (.got (merged zeroTile), false, s)
  else
    let (c, row) := tileChunk a ((arrGet a s).readsNew (8 * tile)) tile s
    match chunkTile p w c row s with
    | (.got t, f, s) => (.got (merged t), f, s)
    | r => r

/-- The current contents of an array tile, by the lookup of R20 and R373; a page is read only for sectors that are asked
for and not valid in canvas memory. `want` are the sectors asked for; the flag says that a retouch was needed. -/
def currentTile (p : Payer) (w : Work) (a : Fin 4) (tile : Nat) (want : BitVec 8) (s : State) : Need × Bool × State :=
  let v := tileCover a tile s
  match badCovers v (want &&& ~~~ (cached a tile s).1) with
  | (slot, pg) :: _ => (.badPage slot pg, false, badPageNote slot pg s)
  | [] => coveredTile v p w a tile want s

/-- The covers with a page that fails its check skipped: its sectors keep their member contents (R391). -/
def skipBad (v : Vector Cov 8) : Vector Cov 8 :=
  v.map fun c => match c with
    | .bad _ _ => .bare
    | .bare | .data _ => c

end Sys2Proof.Machine
end

