-- ==== Sys2Proof/Machine/Entry.lean ====
section
/-! DEFINITION. Stored forms: ARRAY, VOLUME and MEMBER entries as words, signature blocks, index records and NV
bodies as bytes (R122, R123, R327, R344, R364, R370, R377). -/

namespace Sys2Proof.Machine

/-- One bit step of CRC-32C, least significant bit first (log entry 11). -/
def crc32Bit (c : Word) : Word := if c.getLsbD 0 then (c >>> 1) ^^^ 0x82F63B78#32 else c >>> 1

/-- CRC-32C of bytes. -/
def crc32c (l : List Byte) : Word :=
  ~~~ (l.foldl (fun c b =>
    crc32Bit (crc32Bit (crc32Bit (crc32Bit (crc32Bit (crc32Bit (crc32Bit (crc32Bit (c ^^^ b.setWidth 32))))))))) 0xFFFFFFFF#32)

/-- The words of a list, its missing ones 0. -/
def wordAt (l : List Word) (i : Nat) : Word := l.getD i 0

/-- ARRAY.STATE codes (R359). -/
def AState.num : AState → Nat
  | .none => 0 | .stopped => 1 | .assembling => 2 | .replaying => 3 | .optimal => 4 | .degraded => 5
  | .restoring => 6 | .offline => 7

/-- ARRAY word 4 REPAINT codes (R364). -/
def Sub.num : Sub → Nat
  | .none => 0 | .active => 1 | .paused => 2

/-- VOLUME.STATE codes (R370). -/
def VState.num : VState → Nat
  | .gone => 0 | .online => 1 | .stopped => 2

/-- MEMBER.STATE codes (R344). -/
def MState.num : MState → Nat
  | .absent => 0 | .probing => 1 | .blank => 2 | .foreign => 3 | .bench => 4 | .active => 5 | .stale => 6
  | .missing => 7 | .failed => 8 | .retired => 9

/-- LACKING (R364): 0 after a reset until the array has been assembled. -/
def Arr.lackingShown (a : Arr) : Nat :=
  if a.state == .stopped && !a.held then 0 else a.lackingRoles.length

/-- The 16 words of an ARRAY entry (R364). -/
def Arr.words (a : Arr) : List Word :=
  if a.state == .none then List.replicate 16 0
  else
    [a.shape.word0 ||| flg 26 a.autoResume, a.shape.seed, BitVec.ofNat 32 a.rows, BitVec.ofNat 32 a.origin,
     fld 28 a.state.num ||| fld 26 a.repaint.sub.num ||| fld 16 a.lackingShown ||| fld 8 a.sparesUsed,
     a.generation, a.spareRole, BitVec.ofNat 32 a.cap, BitVec.ofNat 16 (a.cap / 2 ^ 32) |>.setWidth 32,
     fld 28 a.bgKind.toNat ||| flg 27 a.bgPaused ||| fld 0 a.bgTarget.val, BitVec.ofNat 32 a.bgStripe, a.mismatches]
      ++ a.label.toList

/-- The 16 words as the NV configuration keeps them (R123): STATE and LACKING are stored as 0. -/
def Arr.stored (a : Arr) : List Word := a.words.zipIdx.map fun (w, i) => if i = 4 then w &&& 0x0C00FF00#32 else w

/-- The 8 words of a VOLUME entry (R370). -/
def Vol.words (v : Vol) : List Word :=
  if v.state == .gone && !v.trimming then List.replicate 8 0
  else
    [fld 24 v.array.val ||| fld 16 v.owner.val ||| fld 0 (v.base / 2 ^ 32), BitVec.ofNat 32 v.base,
     BitVec.ofNat 32 v.size, fld 0 (v.size / 2 ^ 32), fld 30 v.state.num ||| flg 29 v.trimming] ++ v.label.toList

/-- Word 0 of a MEMBER entry (R344). -/
def MemberCfg.word (c : MemberCfg) : Word :=
  fld 30 c.portKind.toNat ||| fld 28 c.clkCap.toNat ||| fld 26 c.ilim.toNat ||| fld 21 c.timeout.toNat |||
    fld 8 c.mediaLimit.toNat

/-- A MEMBER entry's configuration from its word 0. -/
def memberCfgOf (w : Word) : MemberCfg :=
  { portKind := BitVec.ofNat 2 (bits w 31 30), clkCap := BitVec.ofNat 2 (bits w 29 28),
    ilim := BitVec.ofNat 2 (bits w 27 26), timeout := BitVec.ofNat 5 (bits w 25 21),
    mediaLimit := BitVec.ofNat 8 (bits w 15 8) }

/-- The low and the high half of a 64-bit quantity as words. -/
def lowHigh (d : Dword) : List Word := [d.truncate 32, (d >>> 32).truncate 32]

/-- The 16 words of a MEMBER entry (R344), with the MEMBER_SLOT units it holds. -/
def Member.words (m : Member) (slots : Nat) : List Word :=
  [m.cfg.word,
   fld 28 m.state.num ||| fld 24 m.mode.toNat ||| fld 22 m.pad.toNat ||| fld 20 m.kind.toNat ||| fld 16 m.steps.toNat
     ||| fld 8 m.lastChange.toNat ||| flg 0 m.eraseOnes]
  ++ (match m.sig with
    | none => [0, 0]
    | some g =>
      [flg 31 true ||| fld 28 g.roleKind.toNat ||| fld 24 g.array.val ||| fld 16 g.role.val ||| fld 8 g.benchMask.toNat
         ||| fld 0 g.home.val, g.generation])
  ++ lowHigh m.capacity ++ [m.cidHash, fld 24 slots ||| fld 16 m.phase.toNat ||| fld 0 m.identMs.toNat, m.linkErrs,
     m.retries, m.mediaErrs, m.timeouts] ++ lowHigh m.ops ++ [m.changeTick, 0]

/-! ## Signature blocks (R327) -/

/-- Bytes 0 to 4091 of a signature block. -/
def Sig.body (g : Sig) : List Byte :=
  leBytes 4 0x4C4E5347 ++ leBytes 2 1 ++ [BitVec.ofNat 8 g.roleKind.toNat, 0] ++ leBytes 8 g.fabricId.toNat
    ++ leBytes 4 g.generation.toNat
    ++ [BitVec.ofNat 8 g.array.val, BitVec.ofNat 8 g.role.val, BitVec.ofNat 8 g.home.val, BitVec.ofNat 8 g.benchMask.toNat]
    ++ leBytes 4 g.cidHash.toNat ++ leBytes 8 g.capacity.toNat ++ leBytes 4 g.configSeq.toNat ++ List.replicate 24 0
    ++ takeAt (wordsToBytes g.arrayWords) 0 64 ++ takeAt (wordsToBytes g.volWords) 0 2048 ++ List.replicate 1916 0

/-- The 4096 bytes of a signature block. -/
def Sig.bytes (g : Sig) : List Byte := g.body ++ leBytes 4 (crc32c g.body).toNat

/-- The sector that 512 bytes spell, byte 0 in its low bits. -/
def bytesSector (l : List Byte) : BitVec 4096 := BitVec.ofNat 4096 (leNat (takeAt l 0 512))

/-- The bytes of a sector. -/
def sectorBytes (x : BitVec 4096) : List Byte := leBytes 512 x.toNat

/-- The eight sectors of 4096 bytes. -/
def blockSectors (l : List Byte) : List (BitVec 4096) := (List.range 8).map fun i => bytesSector (l.drop (512 * i))

/-- The fields of a signature copy. -/
def sigFields (l : List Byte) : Sig :=
  { roleKind := BitVec.ofNat 3 (leField l 6 1), fabricId := BitVec.ofNat 64 (leField l 8 8),
    generation := BitVec.ofNat 32 (leField l 16 4), array := Fin.ofNat 4 (leField l 20 1),
    role := Fin.ofNat 128 (leField l 21 1), home := Fin.ofNat 128 (leField l 22 1),
    benchMask := BitVec.ofNat 4 (leField l 23 1), cidHash := BitVec.ofNat 32 (leField l 24 4),
    capacity := BitVec.ofNat 64 (leField l 28 8), configSeq := BitVec.ofNat 32 (leField l 36 4),
    arrayWords := bytesToWords (l.drop 64) 16, volWords := bytesToWords (l.drop 128) 512 }

/-- A valid signature copy (R328): MAGIC, FORMAT and CRC correct and ROLE_KIND defined. -/
def sigParse (l : List Byte) : Option Sig :=
  let k := leField l 6 1
  if leField l 0 4 == 0x4C4E5347 && leField l 4 2 == 1 && (k == 1 || k == 2 || k == 3)
      && BitVec.ofNat 32 (leField l 4092 4) == crc32c (takeAt l 0 4092) then
    some (sigFields l)
  else none

/-! ## Index records (R377) -/

/-- KIND codes (R377). -/
def RecKind.num : RecKind → Nat
  | .write => 1 | .trim => 2 | .parity => 3

/-- The sectors of a tile that a record's range covers, as a mask. -/
def Rec.tileMask (r : Rec) (tile : Nat) : BitVec 8 :=
  maskOf (r.start - 8 * tile) (min 8 (r.start + r.count - 8 * tile))

/-- The bytes that PCRC covers: a WRITE page's written sectors in order, the whole of a PARITY page (R377). -/
def pageBytes (r : Rec) (p : Page) : List Byte :=
  (List.finRange 8).flatMap fun k =>
    if r.kind == .parity || p.written.getLsbD k.val then sectorBytes (p.data.get k) else []

/-- The PCRC of each page that a record names (R377). -/
def Rec.crcs (r : Rec) (s : State) : List Word :=
  r.pages.map fun (pg, _) => match kget pg s.skb.pages with
    | some p => crc32c (pageBytes r p)
    | none => 0

/-- The page entries of a record (R377). -/
def Rec.entries (r : Rec) : List Byte :=
  (r.pages.zip r.pcrcs).flatMap fun ((pg, t), c) => leBytes 2 pg ++ leBytes 2 t ++ leBytes 4 c.toNat

/-- Bytes 0 to 115 of a stored record (R377). -/
def Rec.body (r : Rec) : List Byte :=
  takeAt ([BitVec.ofNat 8 r.kind.num, if r.last then 1 else 0, BitVec.ofNat 8 r.array.val,
      BitVec.ofNat 8 r.pages.length] ++ leBytes 4 r.cseq.toNat ++ leBytes 6 r.start
    ++ [BitVec.ofNat 8 r.volume.val, BitVec.ofNat 8 r.studio.val] ++ leBytes 4 r.count ++ leBytes 6 r.stripe
    ++ leBytes 2 r.cid.toNat ++ leBytes 4 r.sealTick.toNat
    ++ r.entries) 0 116

/-- The 128 bytes of a stored record (R377). -/
def Rec.bytes (r : Rec) : List Byte :=
  r.body ++ leBytes 4 (crc32c (r.body)).toNat ++ leBytes 4 r.trimDone
    ++ leBytes 4 (if r.retired then 0x52544952 else 0)

end Sys2Proof.Machine
end

