-- ==== Sys2Proof/Machine/Slot.lean ====
section
/-! DEFINITION. Commands in their slots and range locks: the request line, granting, release, and how the status of
a command is decided, posted or held by a freeze (R274, R281, R293 to R307). -/

namespace Sys2Proof.Machine

/-! ## Queues and slots -/

/-- A submission queue. -/
def sqGet (q : Fin 32) (s : State) : Sq := s.queues.sqs.get q

/-- The state with a submission queue replaced. -/
def sqPut (q : Fin 32) (x : Sq) (s : State) : State := { s with queues := { s.queues with sqs := s.queues.sqs.set q x } }

/-- A completion queue. -/
def cqGet (q : Fin 32) (s : State) : Cq := s.queues.cqs.get q

/-- The state with a completion queue replaced. -/
def cqPut (q : Fin 32) (x : Cq) (s : State) : State := { s with queues := { s.queues with cqs := s.queues.cqs.set q x } }

/-- The studio of a queue (R263). -/
def sqStudio (q : Fin 32) : Fin 8 := ⟨q.val / 4, by omega⟩

/-- The completion queue that a submission queue selects (R263). -/
def sqCq (q : Fin 32) (s : State) : Fin 32 := Fin.ofNat 32 (4 * (q.val / 4) + (sqGet q s).cqSel.toNat)

/-- The command in a CMD_SLOT. -/
def slotGet (i : Nat) (s : State) : Option Slot := kget i s.queues.slots

/-- The state with a CMD_SLOT's command replaced. -/
def slotPut (i : Nat) (x : Slot) (s : State) : State :=
  { s with queues := { s.queues with slots := kput i x s.queues.slots } }

/-- The owner of a command's units: its studio. -/
def Slot.owner (x : Slot) : Option (Fin 8) := some (sqStudio x.sq)

/-- The array of a command's volume. -/
def cmdArray (c : Cmd) (s : State) : Fin 4 := (volGet c.volume s).array

/-- The first array sector of a command (R293). -/
def cmdStart (c : Cmd) (s : State) : Nat := (volGet c.volume s).base + c.slba

/-- OPCODE codes (R279). -/
def Opcode.num : Opcode → Nat
  | .nop => 0 | .read => 1 | .write => 2 | .verify => 3 | .trim => 4 | .flush => 5 | .whistle => 6

/-! ## Status codes (R290) -/

def stOk : Byte := 0x00
def stOkRetouched : Byte := 0x01
def stBadOpcode : Byte := 0x10
def stBadField : Byte := 0x11
def stOutOfRange : Byte := 0x12
def stNotOwner : Byte := 0x13
def stStateRefused : Byte := 0x14
def stDmaFault : Byte := 0x20
def stDmaAlign : Byte := 0x21
def stMediaError : Byte := 0x30
def stArrayOffline : Byte := 0x31
def stVolumeStopped : Byte := 0x32
def stAborted : Byte := 0x40
def stWhistleAborted : Byte := 0x41
def stInternal : Byte := 0x50

/-- A completion whose status is 0x10 or above is an error (R304). -/
def isError (st : Byte) : Bool := decide (0x10 ≤ st.toNat)

/-! ## Range locks (R293 to R297) -/

/-- Two locks overlap: the same array and a shared array sector (R293). -/
def Lock.overlaps (x y : Lock) : Bool :=
  x.array == y.array && decide (max x.start y.start < min (x.start + x.count) (y.start + y.count))

/-- One lock is a child of the other's command (R295). -/
def Lock.family (x y : Lock) : Bool := x.work == y.work && (x.kind == .child || y.kind == .child)

/-- Overlapping locks conflict unless both are shared, or one is a child of the other (R295). -/
def Lock.conflicts (x y : Lock) : Bool := x.overlaps y && (x.excl || y.excl) && !x.family y

/-- A request takes its place in the line; a child takes its parent's (R296). -/
def lockRequest (l : Lock) (s : State) : State :=
  let parent := (s.queues.locks.map (·.2)).find? fun p => p.work == l.work && p.kind == .command
  let place := match l.kind, parent with
    | .child, some p => p.place
    | _, _ => s.queues.nextPlace
  let l := { l with place := place }
  let q := s.queues
  { s with queues := { q with
      line := q.line.filter (·.place ≤ place) ++ l :: q.line.filter (place < ·.place)
      nextPlace := q.nextPlace + 1 } }

/-- The trim of a deleted volume takes a JOURNAL_PAGE unit for its record with its lock (R368, R376). -/
def Lock.pageFits (l : Lock) (s : State) : Bool :=
  match l.work with
  | .volTrim _ => poolFits pPage none 1 s
  | .cmd _ | .flush _ | .background _ | .stream _ _ | .remote _ _ => true

/-- The first of a line that no held lock and no earlier waiting request conflicts with, and that has a unit free to
it (R296). -/
def firstGrant (s : State) : List Lock → List Lock → Option Lock
  | _, [] => none
  | ahead, l :: rest =>
    if (s.queues.locks.any fun h => h.2.conflicts l) || (ahead.any fun w => w.conflicts l)
        || !poolFits pRangeLock l.studio 1 s || !l.pageFits s then firstGrant s (ahead ++ [l]) rest
    else some l

/-- The waiting request that is granted next, if one can be. -/
def grantable (s : State) : Option Lock := firstGrant s [] s.queues.line

/-- A request leaves the line for the lowest FREE unit of the table (R296). -/
def lockTake (l : Lock) (s : State) : State :=
  match (List.range 384).find? fun i => (kget i s.queues.locks).isNone with
  | none => s
  | some i =>
    poolTake pRangeLock l.studio 1
      { s with queues := { s.queues with line := s.queues.line.erase l, locks := kput i l s.queues.locks } }

/-- Locks that a condition selects are released, and requests that it selects leave the line. -/
def lockDrop (f : Lock → Bool) (s : State) : State :=
  let q := s.queues
  (q.locks.filter fun (_, l) => f l).foldl (fun s (_, l) => poolGive pRangeLock l.studio 1 s)
    { s with queues := { q with line := q.line.filter (!f ·), locks := q.locks.filter fun (_, l) => !f l } }

/-- The work holds its lock of a kind. -/
def holds (w : Work) (k : LockKind) (s : State) : Bool := s.queues.locks.any fun (_, l) => l.work == w && l.kind == k

/-- The work's request of a kind waits in the line. -/
def waits (w : Work) (k : LockKind) (s : State) : Bool := s.queues.line.any fun l => l.work == w && l.kind == k

/-- The array sectors of a stripe, as an exclusive SYSTEM lock covers them (R294). -/
def stripeLock (a : Fin 4) (new : Bool) (stripe : Nat) (k : LockKind) (w : Work) (s : State) : Lock :=
  let h := (arrGet a s).shapeAt new
  { excl := true, studio := none, array := a, start := stripe * h.stripeSectors, count := h.stripeSectors, kind := k,
    work := w }

/-! ## What a command holds -/

/-- Pages of the record whose program is in flight. -/
def sealingPages (s : State) : List Nat :=
  match s.nv.prog.head? with
  | some (.record _ _ r) => r.pages.map (·.1)
  | _ => []

/-- Pages of a command that no sealed record names, nor one whose seal is in flight. -/
def unsealed (x : Slot) (s : State) : List Nat :=
  (x.pages.map fun (_, pg, _) => pg).filter fun pg => !(sealingPages s).contains pg

/-- The units that a command holds for its effect return, and what it had read or received is dropped; its CMD_SLOT
and its CQ slot stay (R281, R305). Sealed records keep their pages. -/
def cmdRelease (i : Nat) (s : State) : State :=
  match slotGet i s with
  | none => s
  | some x =>
    let w := Work.cmd i
    let s := lockDrop (fun l => l.work == w) s
    let s := workDrop w (dropOps (fun o => o.use.work == some w) s)
    let s := dropWhere (fun b => match b with
      | .filling j _ _ => j == i
      | .array _ _ | .parity _ _ _ | .stream _ _ | .raw _ _ _ | .sum _ _ _ _ | .delay _ => false) s
    let mine (o : ProgOp) : Bool := match o with
      | .page j _ _ | .record (some j) _ _ => j == i
      | .record none _ _ | .parity _ _ _ | .nv | .session _ | .bbox _ _ | .retire _ | .trimDone _ _ | .land _ _ _ => false
    let s := { s with
      nv := { s.nv with prog := (s.nv.prog.zipIdx.filter fun (o, n) => !mine o || n == 0).map (·.1) }
      ledger := { s.ledger with waiting := s.ledger.waiting.filter fun r => match r.use with
        | .tiles v => v != w
        | .dmaDesc _ => true } }
    let gone := unsealed x s
    let s := freePages gone s
    let inSeal : Bool := match s.nv.prog.head? with
      | some (.record (some j) _ r) => j == i && r.kind == .trim
      | _ => false
    let s := poolGive pPage x.owner ((if inSeal then 0 else x.reserved) + gone.length) s
    let s := slotPut i { x with reserved := 0, pages := [], sealing := false } s
    forcedUpdate (cleanTiles s)

/-- Arguments of a QUEUE_FROZEN record, as the held command's bytes give its fields (R306, R559). -/
def frozenArgs (x : Slot) (cause : Bool) : List Byte :=
  leBytes 6 (leField x.bytes 8 6) ++ leBytes 4 (leField x.bytes 16 4) ++ leBytes 2 x.cid.toNat
    ++ leBytes 4 x.result.toNat ++ [x.status, x.detail]
    ++ [x.bytes.getD 0 0, BitVec.ofNat 8 (leField x.bytes 4 1 % 64 + (if cause then 64 else 0))]
    ++ leBytes 2 (x.idx + 1024 * x.sq.val)

/-- A queue has become FROZEN or DISABLED: every WHISTLE that covers it and waits is to be aborted (R227). -/
def whistleBreak (q : Fin 32) (s : State) : State :=
  { s with queues := { s.queues with slots := s.queues.slots.map fun (i, x) =>
      if x.stage == .waiting && x.tails.any (·.1 == q) then (i, { x with wabort := true }) else (i, x) } }

/-- The commands of a queue that have been fetched are those before a freeze: none of them freezes it again (R305). -/
def kickOff (q : Fin 32) (s : State) : State :=
  { s with queues := { s.queues with slots := s.queues.slots.map fun (i, x) =>
      if x.sq == q then (i, { x with late := true }) else (i, x) } }

/-- A queue freezes on a slot of a command (R305, R307): no further pick, the record, and the studio's bit. -/
def freezeQueue (q : Fin 32) (x : Slot) (held : Option Nat) (cause : Bool) (s : State) : State :=
  let s := kickOff q s
  let s := sqPut q { sqGet q s with state := .frozen, heldSlot := held, freezeSlot := x.idx, lastStatus := x.status,
                                    lastDetail := x.detail } s
  let s := logAs .queueFrozen .stopStudio (some (sqStudio q)) (frozenArgs x cause) s
  sirqSet (sqStudio q) sirqFreeze (whistleBreak q s)

/-- A transfer is created for a queue (R234, R237): it takes its DMA_DESC unit, or waits for one, and waits for a
channel in the order of creation. -/
def xferNew (k : XferKind) (st : Fin 8) (src dst : Side) (len : Nat) (s : State) : State :=
  let id := s.dma.nextId
  let (ok, s) := poolAsk ⟨pDesc, some st, 1, .dmaDesc id⟩ { s with dma := { s.dma with nextId := id + 1 } }
  let x : Xfer := { id := id, kind := k, studio := st, src := src, dst := dst, length := len, hasDesc := ok }
  { s with dma := { s.dma with waiting := s.dma.waiting ++ [x] } }

/-- The completion of a command goes to a ring in host memory (R265, R286, R287). -/
def postsHost (x : Slot) (s : State) : Bool :=
  if (sqGet x.sq s).cmode then !(sqGet x.sq s).loc else !(cqGet (sqCq x.sq s) s).loc

/-- A command's completion is due: into a host ring it is a transfer of its own (R248). -/
def cmdDone (i : Nat) (x : Slot) (s : State) : State :=
  let s := slotPut i { x with stage := .done } s
  if postsHost x s then xferNew (.post i) (sqStudio x.sq) .device .device (if (sqGet x.sq s).cmode then 8 else 16) s else s

/-- The state of a channel whose transfer is taken from it. -/
def ChanState.emptied : ChanState → ChanState
  | .running => .idle
  | .stopping => .disabled
  | .disabled => .disabled
  | .idle => .idle
  | .polling => .polling
  | .halted => .halted

/-- The transfer of a command's data or fetch is given up: it leaves its channel or the line, with its DMA_DESC unit. -/
def xferDrop (f : Xfer → Bool) (s : State) : State :=
  let gone := (s.dma.waiting ++ s.dma.chans.toList.filterMap (·.cur)).filter f
  let s := gone.foldl (fun s x =>
    if x.hasDesc then poolGive pDesc (if x.system then none else some x.studio) 1 s else s) s
  { s with
    dma := { s.dma with
      waiting := s.dma.waiting.filter (!f ·)
      chans := s.dma.chans.map fun c => match c.cur with
        | some x => if f x then { c with cur := none, state := c.state.emptied } else c
        | none => c }
    ledger := { s.ledger with waiting := s.ledger.waiting.filter fun r => match r.use with
      | .dmaDesc n => !(gone.any fun x => x.id == n)
      | .tiles _ => true } }

/-- The transfer moves the data of the command in a CMD_SLOT. -/
def Xfer.dataOf (i : Nat) (x : Xfer) : Bool :=
  match x.kind with
  | .data j _ => j == i
  | .fetch _ | .post _ | .desc _ | .soft _ _ _ _ | .refill _ => false

/-- The studio's current PIO command ends (R278). -/
def pioEnd (i : Nat) (s : State) : State :=
  { s with hbu := { s.hbu with aliases := s.hbu.aliases.map fun a => match a.pioCur with
      | some (j, _, _, _) => if j == i then { a with pioCur := none, pio := [] } else a
      | none => a } }

/-- Another command's held completion is posted before this one (R311). -/
def postsAfter (i : Nat) (x : Slot) (s : State) : Bool :=
  match (sqGet x.sq s).first with
  | none => false
  | some j => j != i && (match slotGet j s with
    | some y => y.sq == x.sq && y.stage == .done
    | none => false)

/-- A command's status is decided: what it holds for its effect is released, and its completion is due; an error in
Timeout mode freezes its queue and holds the completion, unless the queue is not RUNNING or the command was fetched
before its latest freeze (R281, R305, R311, R550). -/
def decideCmd (i : Nat) (status detail : Byte) (result : Word) (s : State) : State :=
  match slotGet i s with
  | none => s
  | some x =>
    if x.stage == .done || x.stage == .behind || x.stage == .held then s
    else
      let s := cmdRelease i (pioEnd i (xferDrop (Xfer.dataOf i) s))
      match slotGet i s with
      | none => s
      | some x =>
        let x := { x with status := status, detail := detail, result := result }
        let q := sqGet x.sq s
        let s := if isError status then sqPut x.sq { q with errors := ctrInc q.errors } s else s
        if isError status && status != stAborted && q.errMode && q.state == .running && q.heldSlot == none && !x.late then
          freezeQueue x.sq x (some i) false (slotPut i { x with stage := .held } s)
        else if postsAfter i x s then slotPut i { x with stage := .behind } s
        else cmdDone i x s

/-- A READ whose data goes to its studio's FIFO has delivered bytes there that the host has not popped (R278). -/
def fifoLoaded (i : Nat) (s : State) : Bool :=
  s.hbu.aliases.toList.any fun a => match a.pioCur with
    | some (j, _, true, _) => j == i && !a.pio.isEmpty
    | some (_, _, false, _) | none => false

/-- A command that is under way ends early: what a FIFO READ has delivered is popped first (R280). -/
def endCmd (i : Nat) (status detail : Byte) (result : Word) (s : State) : State :=
  match slotGet i s with
  | none => s
  | some x =>
    if x.ending.isSome then s
    else if fifoLoaded i s then slotPut i { x with ending := some (status, detail), result := result } s
    else decideCmd i status detail result s

/-- The host has popped the last byte that a failed FIFO READ delivered. -/
def endDrained (i : Nat) (s : State) : State :=
  match slotGet i s with
  | none => s
  | some x => match x.ending with
    | none => s
    | some (st, d) => if fifoLoaded i s then s else decideCmd i st d x.result s

/-- A command completes with a status and RESULT 0. -/
def failCmd (i : Nat) (status detail : Byte) (s : State) : State := decideCmd i status detail 0 s

end Sys2Proof.Machine
end

