-- ==== Sys2Proof/Machine/Loss.lean ====
section
/-! DEFINITION. NV commits requested, member state changes, and what an array does when a member is lost: DEGRADED,
restoration by itself, OFFLINE (R329 to R334, R342, R345, R346, R400, R406, R410 to R412, R429, R546, R549). -/

namespace Sys2Proof.Machine

/-- A card has been identified in the member's port. -/
def Member.identified (m : Member) : Bool :=
  match m.state with
  | .blank | .foreign | .bench | .active | .stale | .retired => true
  | .absent | .probing | .missing | .failed => false

/-- A new fabric identity (R486): TICK_LO above the CRC-32C of the CIDs of the cards identified on this node. -/
def newFabricId (s : State) : Dword :=
  let cids := (List.finRange 8).flatMap fun p =>
    let m := memGet (ownMember p s) s
    if m.identified then m.cid.toList else []
  let d : Dword := (s.clk.tick.truncate 32 : Word) ++ crc32c cids
  if d = 0 then 1 else d

/-- A manager without a fabric identity makes one (R486). -/
def fabricMake (s : State) : State :=
  if isManager s && s.ident.fabricId == 0 then { s with ident := { s.ident with fabricId := newFabricId s } } else s

/-- An NV commit is requested (R125); a part in NVCFG_LOST and a part in FAILSTOP make none (R28, R132). -/
def nvCommit (c : NvChange) (s : State) : State :=
  if s.restart.nvcfgLost || s.restart.level == .failstop then s
  else
    let s := fabricMake s
    progReq .nv { s with nv := { s.nv with commits := s.nv.commits ++ [c] } }

/-! ## Volumes follow their array (R359, R549) -/

/-- The array serves its volumes (R359). -/
def AState.serves : AState → Bool
  | .optimal | .degraded | .restoring | .offline => true
  | .none | .stopped | .assembling | .replaying => false

/-- The array has been assembled: REPLAYING or serving, and not OFFLINE. -/
def AState.assembled : AState → Bool
  | .replaying | .optimal | .degraded | .restoring => true
  | .none | .stopped | .assembling | .offline => false

/-- S_IRQ_STAT.VOL is set for the owner of each volume that a condition selects (R571). -/
def volsNote (f : Vol → Bool) (s : State) : State :=
  s.vols.toList.foldl (fun s v => if f v then sirqSet v.owner sirqVol s else s) s

/-- Every volume of an array takes the state that its array gives it (R549). -/
def volsFollow (a : Fin 4) (s : State) : State :=
  let x := arrGet a s
  let st : VState := if x.state.serves && !x.stopping then .online else .stopped
  let mine (v : Vol) : Bool := v.array == a && v.state != .gone
  let s := volsNote (fun v => mine v && v.state != st) s
  { s with vols := s.vols.map fun v => if mine v then { v with state := st } else v }

/-- An array's state changes, and its volumes with it. -/
def setArr (a : Fin 4) (x : Arr) (s : State) : State := volsFollow a (arrPut a x s)

/-- Where an array goes that is assembled, by what is recorded for it: RESTORING, DEGRADED or OPTIMAL (R358). -/
def Arr.settled (a : Arr) : AState :=
  if a.bgKind == 1 || a.bgKind == 2 then .restoring
  else if a.lackingRoles.isEmpty then .optimal else .degraded

/-! ## Members -/

/-- The array and role that a member fills, by the role records. -/
def roleOf (m : Fin 128) (s : State) : Option (Fin 4 × Nat) :=
  (List.finRange 4).findSome? fun a =>
    if (arrGet a s).state == .none then none
    else ((arrGet a s).roles.findIdx? fun r => r.member == m && (r.state == .present || r.state == .target)).map
      fun i => (a, i)

/-- What an NV copy keeps of an array (R123): its run-time state is dropped. -/
def Arr.kept (x : Arr) : Arr :=
  let p := x.repaint
  { x with
    state := if x.state == .none then .none else .stopped, mark := x.bgStripe, found := 0, bgRow := 0, bgIssued := false
    stopping := false, held := false, lossDue := none, advDue := false
    repaint := { p with front := if p.back then p.rmark else p.wmark } }

/-- A copy's SEQ, arrays and volumes: what a signature block takes from it (R327). -/
abbrev SigSource := Word × Vector Arr 4 × Vector Vol 64

/-- The present copy as the source of signature blocks; on a part without one, the running configuration under SEQ 0. -/
def sigSource (s : State) : SigSource :=
  match s.nv.present.map fun b : Bool => if b then s.nv.b else s.nv.a with
  | some (.valid q _ _ b) => (q, b.arrs, b.vols)
  | some (.blank _) | some (.bad _) | some (.bodyBad _ _ _ _ _) | none => (0, s.arrs.map Arr.kept, s.vols)

/-- The running configuration as the source of signature blocks that precede the commit numbered `q`. -/
def sigAhead (q : Word) (s : State) : SigSource := (q, s.arrs.map Arr.kept, s.vols)

/-- The signature block that a member is to hold in its present state; none for a blank one (R327). -/
def sigFrom (src : SigSource) (m : Fin 128) (s : State) : Option Sig :=
  let x := memGet m s
  let base : Sig :=
    { roleKind := 2, fabricId := s.ident.fabricId, generation := 0, array := 0, role := 0, home := m, benchMask := 0,
      cidHash := x.cidHash, capacity := x.capacity, configSeq := src.1, arrayWords := List.replicate 16 0,
      volWords := List.replicate 512 0 }
  match x.state with
  | .active =>
    (roleOf m s).map fun (a, i) =>
      { base with
        roleKind := 1, generation := (arrGet a s).generation, array := a, role := Fin.ofNat 128 i,
        arrayWords := (src.2.1.get a).stored,
        volWords := src.2.2.toList.flatMap fun v => if v.array == a then v.words else List.replicate 8 0 }
  | .bench => some { base with benchMask := (x.sig.map Sig.benchMask).getD 0 }
  | .retired => some { base with
      roleKind := 3, generation := (x.sig.map Sig.generation).getD 0 }
  | .absent | .probing | .blank | .foreign | .stale | .missing | .failed => none

/-- The eight sectors of a signature block, zeros for a blank one (R327, R329). -/
def sigSectors (g : Option Sig) : List (BitVec 4096) :=
  match g with
  | some g => blockSectors g.bytes
  | none => List.replicate 8 0

/-- The words of a MEMBER_REPORT's flits 0 to 7 and the signature bytes of flits 8 to 15 (R491). -/
def reportFlits (m : Member) (slots : Nat) : List Dword :=
  let w := m.words slots
  let sig := (m.sig.map fun g => takeAt g.body 0 64).getD (List.replicate 64 0)
  ((List.range 8).map fun i => BitVec.ofNat 64 ((wordAt w (2 * i)).toNat + (wordAt w (2 * i + 1)).toNat * 2 ^ 32))
    ++ (List.range 8).map fun i => BitVec.ofNat 64 (leField sig (8 * i) 8)

/-- MEMBER_SLOT units that a port of this node holds. -/
def slotsHeld (p : Fin 8) (s : State) : Nat := (poolGet (pMember p) s).total - (poolGet (pMember p) s).free

/-- A worker reports a port to the manager (R491). -/
def memberReport (p : Fin 8) (s : State) : State :=
  sendUp 0x0A 0 0 (BitVec.ofNat 16 p.val) (reportFlits (memGet (ownMember p s) s) (slotsHeld p s)) s

/-- FAILED and MISSING are logged as warnings (R345). -/
def MState.warns : MState → Bool
  | .failed | .missing => true
  | .absent | .probing | .blank | .foreign | .bench | .active | .stale | .retired => false

/-- The manager tells a worker the state of its port (R478, R491). -/
def memberSet (m : Fin 128) (s : State) : State :=
  let k := nodeOf m
  let f : Dword := BitVec.ofNat 64 ((memGet m s).state.num + 16 * (portOf m).val)
  sendTo k 0x0B (managerPkt k 0 0 0 [f] s) false s

/-- A member enters a state (R333, R345, R346): the cause, the tick, the note, MEMBER_EVT. -/
def memEnter (m : Fin 128) (new : MState) (cause : Byte) (s : State) : State :=
  let x := memGet m s
  let s := memPut m { x with state := new, lastChange := cause, changeTick := s.clk.tick.truncate 32 } s
  let s := logAs .memberState (if new.warns then .warn else .note) none
    ([BitVec.ofNat 8 m.val, BitVec.ofNat 8 x.state.num, BitVec.ofNat 8 new.num, cause]
      ++ leBytes 4 ((x.sig.map Sig.generation).getD 0).toNat) s
  { s with members := { s.members with
    nodeChg := s.members.nodeChg ||| BitVec.ofNat 16 (1 <<< (nodeOf m).toNat)
    portChg := if isOwn m s then s.members.portChg ||| BitVec.ofNat 8 (1 <<< (portOf m).val) else s.members.portChg
    lastMember := BitVec.ofNat 7 m.val } }

/-- A member changes state; a worker reports it, and the manager tells a worker what it has decided, of a card that is
RETIRED by a command once its signature has been written (R341, R491; `retiredOff`). -/
def memState (m : Fin 128) (new : MState) (cause : Byte) (s : State) : State :=
  let s := memEnter m new cause s
  if isManager s then (if isOwn m s || new == .retired then s else memberSet m s)
  else if isOwn m s then memberReport (portOf m) s else s

/-- LAST_CHANGE codes (R345). -/
def chInserted : Byte := 0x01
def chRemoved : Byte := 0x02
def chIdentified : Byte := 0x03
def chIdentFailed : Byte := 0x04
def chUnsupported : Byte := 0x05
def chLinkFailed : Byte := 0x06
def chWriteFailed : Byte := 0x07
def chMediaLimit : Byte := 0x08
def chCommand : Byte := 0x09
def chPortResetLost : Byte := 0x0A
def chGenOld : Byte := 0x0B
def chOtherFabric : Byte := 0x0C
def chUnknownArray : Byte := 0x0D
def chClone : Byte := 0x0E
def chUnreachable : Byte := 0x0F
def chSubstituted : Byte := 0x10

/-- Data sectors of a member (R326). -/
def dataSectors (m : Fin 128) (s : State) : Nat := (memGet m s).capacity.toNat - 8192

/-- Member size of an array in data sectors (R349); during a repaint both regions must fit. -/
def Arr.memberSize (a : Arr) : Nat :=
  max (a.origin + a.rows * a.shape.c) (if a.repaint.sub == .none then 0
    else a.repaint.origin + a.repaint.rows * a.repaint.shape.c) - 8192

/-- Every ACTIVE member of an array is to have its signature rewritten (R329, R330). -/
def refreshArray (a : Fin 4) (s : State) : State :=
  (arrGet a s).roles.foldl (fun s r =>
    let x := memGet r.member s
    if x.state == .active && (r.state == .present || r.state == .target) then memPut r.member { x with sigDue := true } s
    else s) s

/-- A write of a signature copy of a member is out. -/
def sigOut (m : Fin 128) (s : State) : Bool :=
  (allOps s).any fun o => o.member == m && (match o.use with
    | .sig _ _ | .mend _ => true
    | .chunk _ _ _ _ | .write _ => false)

/-- The latest advance of an array is complete (R330): the present NV copy records its generation, and every member of it
that is ACTIVE holds the generation in both copies. -/
def genSettled (a : Fin 4) (s : State) : Bool :=
  let x := arrGet a s
  let holds (r : Role) : Bool :=
    let m := memGet r.member s
    !(m.state == .active && (r.state == .present || r.state == .target)) ||
      (m.sig.map Sig.generation == some x.generation && !m.sigDue && m.sigMend.isNone && !sigOut r.member s)
  ((sigSource s).2.1.get a).generation == x.generation && x.roles.all holds

/-- The generation of an array advances once the advance before it is complete, and until then the advance is due
(R330). -/
def genNext (a : Fin 4) (s : State) : State :=
  let x := arrGet a s
  if genSettled a s then arrPut a { x with generation := x.generation + 1, advDue := false } s
  else arrPut a { x with advDue := true } s

/-- The set of members that hold an array's current data has changed (R330): one NV commit records the state of every
role and the next generation, after which the signatures of its ACTIVE members are written (R329). An advance that has
to wait is committed again when it is made (log entry 118). -/
def advance (a : Fin 4) (s : State) : State := nvCommit .keep (genNext a s)

/-- The advances that were due and wait no longer are made. -/
def advancesDue (s : State) : State :=
  (List.finRange 4).foldl (fun s a => if (arrGet a s).advDue && genSettled a s then advance a s else s) s

/-! ## OFFLINE (R410 to R412) -/

/-- The flush is of an array. -/
def Flush.ofArray (a : Fin 4) (f : Flush) : Bool := f.array == a

/-- The work belongs to an array. -/
def Work.ofArray (a : Fin 4) (s : State) (w : Work) : Bool :=
  match w with
  | .flush i => s.skb.flushes.any fun f => f.id == i && f.array == a
  | .background b => b == a
  | .cmd i => match slotGet i s with
    | some x => match x.cmd with
      | some c => c.op != .nop && c.op != .whistle && cmdArray c s == a
      | none => false
    | none => false
  | .stream l _ => match (s.palette.layers.get l).terms with
    | some (b, _, _, _) => b == a
    | none => false
  | .volTrim v => (volGet v s).array == a
  | .remote _ _ => false

/-- The flushes of an array end where they are: their locks and tiles are released, their records kept. -/
def flushesEnd (a : Fin 4) (s : State) : State :=
  let fs := s.skb.flushes.filter (Flush.ofArray a)
  let s := fs.foldl (fun s f =>
    let w := Work.flush f.id
    workDrop w (dropOps (fun o => o.use.work == some w) (lockDrop (fun l => l.work == w) s))) s
  { s with skb := { s.skb with
      flushes := s.skb.flushes.filter (!Flush.ofArray a ·)
      wanted := s.skb.wanted.filter fun (b, _) => b != a } }

/-- The trims of deleted volumes of an array that have not been sealed leave the line, or release their locks: they
start again when the array has been assembled and replayed. -/
def volTrimDrop (a : Fin 4) (s : State) : State :=
  lockDrop (fun l => match l.work with
    | .volTrim _ => l.array == a
    | .cmd _ | .flush _ | .background _ | .stream _ _ | .remote _ _ => false) s

/-- The background work of an array stops where it is, its checkpoint kept. -/
def backgroundEnd (a : Fin 4) (s : State) : State :=
  let w := Work.background a
  let s := workDrop w (dropOps (fun o => o.use.work == some w) (lockDrop (fun l => l.work == w) s))
  { s with arrs := s.arrs.set a { arrGet a s with bgRow := 0, bgIssued := false } }

/-- Commands of an array when it goes OFFLINE (R411): a WRITE or TRIM that is not wholly sealed, a READ or VERIFY that
holds its lock, and a FLUSH that waits end with ARRAY_OFFLINE; those that wait for a lock fail at grant, and a posted
or sealed one completes as usual. -/
def cmdsOffline (a : Fin 4) (s : State) : State :=
  s.queues.slots.foldl (fun s (i, x) =>
    match x.cmd with
    | some c =>
      if Work.ofArray a s (.cmd i) && (x.stage == .active || x.stage == .ready || x.stage == .waiting) then
        let res : Nat := match c.op with
          | .read => x.moved
          | .verify => (min x.skipped 0xFFFF) * 65536 + min x.corrected 0xFFFF
          | .nop | .write | .trim | .flush | .whistle => 0
        endCmd i stArrayOffline (BitVec.ofNat 8 a.val) (BitVec.ofNat 32 res) s
      else s
    | none => s) s

/-- An array goes OFFLINE (R410, R411): the record, the mark in one NV commit, its work ended, its tiles dropped. An
array that is stopping becomes STOPPED with the mark (R547). -/
def goOffline (a : Fin 4) (m1 m2 : Nat) (stripe : Nat) (s : State) : State :=
  let x := arrGet a s
  if !x.state.assembled then s
  else
    let s := logRec .arrayWentOffline
      ([BitVec.ofNat 8 a.val, BitVec.ofNat 8 m1, BitVec.ofNat 8 m2] ++ leBytes 6 stripe) s
    let s := setArr a { x with
      state := if x.stopping then .stopped else .offline, stopping := false, offlineMark := true } s
    let s := volsNote (fun v => v.array == a && v.state != .gone) s
    let s := cmdsOffline a s
    let s := volTrimDrop a (backgroundEnd a (flushesEnd a s))
    let s := dropOps (fun o => match o.use.work with
      | some w => Work.ofArray a s w
      | none => false) s
    nvCommit .keep (dropWhere (Bind.ofArray a) s)

/-! ## Restoration by itself (R342, R400) -/

/-- The node is this one, or a worker that the latest roll call found (R340, R489). -/
def nodeReached (k : BitVec 4) (s : State) : Bool := k == s.ident.node || (s.ring.nodes.get k.toFin).status == .worker

/-- The bench member that is chosen for a lost member of an array (R342): on the same node first, then the fewest data
sectors, then the lowest index. -/
def benchChoice (a : Fin 4) (lost : Fin 128) (s : State) : Option (Fin 128) :=
  let ok := (List.finRange 128).filter fun m =>
    let x := memGet m s
    x.state == .bench && nodeReached (nodeOf m) s && ((x.sig.map Sig.benchMask).getD 0).getLsbD a.val
      && decide ((arrGet a s).memberSize ≤ dataSectors m s)
  let same := ok.filter fun m => nodeOf m == nodeOf lost
  (if same.isEmpty then ok else same).foldl (fun best m => match best with
    | none => some m
    | some b => if dataSectors m s < dataSectors b s then some m else some b) none

/-- A role's record replaced. -/
def Arr.setRole (a : Arr) (i : Nat) (r : Role) : Arr := { a with roles := a.roles.set i r }

/-- A restoration into distributed spares starts for a role (R401): the next rank, no generation advance. -/
def restoreSpares (a : Fin 4) (role : Nat) (s : State) : State :=
  let x := arrGet a s
  let u := x.sparesUsed
  let x := { x with
    spareRole := x.spareRole ||| fld (8 * u) (128 + role), sparesUsed := u + 1, rankBusy := true, bgKind := 1,
    bgPaused := false, bgTarget := 0, bgStripe := 0, mark := 0, state := .restoring }
  nvCommit .keep (setArr a x s)

/-- A restoration onto a member starts for a role (R401): it becomes ACTIVE as the target, with a generation
advance. -/
def restoreOnto (a : Fin 4) (role : Nat) (m : Fin 128) (cause : Byte) (s : State) : State :=
  let s := memState m .active cause s
  let x := arrGet a s
  let x := (x.setRole role ⟨m, .target⟩)
  let x := { x with bgKind := 1, bgPaused := false, bgTarget := m, bgStripe := 0, mark := 0, state := .restoring }
  advance a (setArr a x s)

/-- What the part starts by itself when a loss leaves an array DEGRADED (R400, R429); a repaint skips the first
row. -/
def autoRestore (a : Fin 4) (role : Nat) (lost : Fin 128) (s : State) : State :=
  let x := arrGet a s
  if x.state != .degraded then s
  else if !x.shape.rotating && x.sparesUsed < x.shape.s && x.repaint.sub == .none then restoreSpares a role s
  else match benchChoice a lost s with
    | some m => restoreOnto a role m chSubstituted s
    | none => s

/-! ## The loss of a member (R406, R410, R429) -/

/-- The note of a repaint's change (R430). -/
def repaintNote (a : Fin 4) (s : State) : State :=
  let x := arrGet a s
  let p := x.repaint
  let mark := if p.back then p.rmark / x.shape.stripeSectors else p.wmark / p.shape.stripeSectors
  let cause : Nat := match p.cause with
    | .none => 0 | .operator => 1 | .loss => 2 | .restart => 3
  logRec .repaintState ([BitVec.ofNat 8 a.val, if p.back then 1 else 0, BitVec.ofNat 8 p.sub.num, BitVec.ofNat 8 cause]
    ++ leBytes 4 p.origin ++ leBytes 4 p.rows ++ leBytes 4 mark) s

/-- BG_STRIPE of a repaint (R430). -/
def Arr.repaintStripe (a : Arr) : Nat :=
  if a.repaint.back then a.repaint.rmark / a.shape.stripeSectors
  else a.repaint.wmark / a.repaint.shape.stripeSectors

/-- A front becomes the committed watermark, or the return mark (R423, R428). -/
def Arr.commitFront (m : Nat) (a : Arr) : Arr :=
  let p := a.repaint
  let a := { a with repaint := if p.back then { p with rmark := m } else { p with wmark := m } }
  { a with bgStripe := if a.bgKind == 4 then a.repaintStripe else a.bgStripe }

/-- A repaint is paused with a cause. -/
def Arr.pauseRepaint (a : Arr) (c : PauseCause) : Arr :=
  { a with repaint := { a.repaint with sub := .paused, cause := c } }

/-- A step of the array's background pass is in flight: it holds its lock. -/
def stepHeld (a : Fin 4) (s : State) : Bool := s.queues.locks.any fun (_, l) => l.work == .background a

/-- No further background step of an array starts: its waiting lock request leaves the line (R409, R547). -/
def bgUnwait (a : Fin 4) (s : State) : State :=
  { s with queues := { s.queues with line := s.queues.line.filter fun l => l.work != .background a } }

/-- The rest of a loss under a repaint, once the step in flight has ended (R429): the commit that records it also commits
the front, and the part starts what R400 gives. -/
def paintLoss (a : Fin 4) (i : Nat) (m : Fin 128) (s : State) : State :=
  let x := arrGet a s
  let s := bgUnwait a (genNext a (arrPut a { x with lossDue := none } s))
  let s := nvCommit (.front a x.repaint.front) s
  autoRestore a i m s

/-- Background work of an array is dropped with its checkpoint (R406); a restoration into spares releases its rank;
under a repaint BG_KIND returns to 4. -/
def Arr.dropWork (a : Arr) : Arr :=
  let u := a.sparesUsed - 1
  let a := if a.rankBusy then
    { a with rankBusy := false, sparesUsed := u,
             spareRole := a.spareRole &&& ~~~ fld (8 * u) 0xFF } else a
  let a := { a with bgRow := 0, bgIssued := false }
  if a.repaint.sub == .none then { a with bgKind := 0, bgPaused := false, bgTarget := 0, bgStripe := 0, mark := 0 }
  else { a with bgKind := 4, bgPaused := false, bgTarget := 0, bgStripe := a.repaintStripe, mark := 0 }

/-- A member that fills a role of an array is lost (R406, R410, R429, R546): the role is recorded, the running work
stops as the table gives, a second lacking role takes the array OFFLINE, and otherwise the part starts what R400
gives. The generation advances. -/
def roleLost (a : Fin 4) (i : Nat) (rs : RoleState) (m : Fin 128) (s : State) : State :=
  let x := arrGet a s
  let wasTarget := match x.roles[i]? with
    | some r => r.state == .target && r.member == x.bgTarget
    | none => false
  let lacked := x.lackingRoles.filter (· != i)
  let x := x.setRole i ⟨m, rs⟩
  if x.state == .stopped || x.state == .none then advance a (arrPut a x s)
  else if x.state == .assembling then
    advance a (setArr a { x with state := if x.lackingRoles.length ≤ 1 then .assembling else .stopped } s)
  else if x.state == .offline || (x.ranked i && x.bgKind != 2) then advance a (arrPut a x s)
  else if x.bgKind == 2 && wasTarget then
    advance a (setArr a { x.dropWork with state := .optimal } (backgroundEnd a s))
  else
    match lacked with
    | j :: _ =>
      let m2 := (x.memberOf j).map (·.val)
      advance a (goOffline a (m2.getD 0) m.val 0 (arrPut a x s))
    | [] =>
      let x := if x.bgKind == 1 || x.bgKind == 2 || x.bgKind == 3 then x.dropWork else x
      let hadRepaint := x.repaint.sub == .active
      let x := if hadRepaint then x.pauseRepaint .loss else x
      let replays := x.state == .replaying
      let x := if replays || hadRepaint && stepHeld a s then { x with lossDue := some i } else x
      let st : AState := if replays then .replaying else .degraded
      if hadRepaint && !replays then
        let s := repaintNote a (setArr a { x with state := st } s)
        if x.lossDue.isSome then s else paintLoss a i m s
      else
        let s := advance a (setArr a { x with state := st, bgRow := 0, bgIssued := false } (backgroundEnd a s))
        autoRestore a i m (if hadRepaint then repaintNote a s else s)

/-- A member of this fabric is lost to its array, MISSING or FAILED. -/
def memberLost (m : Fin 128) (rs : RoleState) (s : State) : State :=
  match roleOf m s with
  | none => s
  | some (a, i) => roleLost a i rs m s

end Sys2Proof.Machine
end

