-- ==== Sys2Proof/Machine/Flush.lean ====
section
/-! DEFINITION. Flushing stripes: touched tile rows, parity intents, member writes, the application of TRIMs, replay,
and retirement (R381 to R391, R399, R408, R416). -/

namespace Sys2Proof.Machine

/-- What the program operation in flight stores once it ends while the units stand still, in FAILSTOP or under hold-up:
the record is kept as sealed, a word or a page is as programmed, and nothing else follows (R28, R85). An NV commit is
not among these. -/
def progOnly (s : State) : State :=
  match s.nv.prog.head? with
  | some (.record _ slot r) =>
    let r := { r with pcrcs := r.crcs s }
    let s := progNext s
    { s with skb := { s.skb with recs := kput slot r s.skb.recs, torn := kdel slot s.skb.torn } }
  | some (.retire slot) => recPut slot (fun r => { r with retired := true }) (progNext s)
  | some (.trimDone slot n) => recPut slot (fun r => { r with trimDone := n }) (progNext s)
  | some (.session o) => sessionPut o (progNext s)
  | some (.bbox i r) => bbPut i r (progNext s)
  | some (.land _ _ _) | some (.page _ _ _) | some (.parity _ _ _) => progNext s
  | some .nv | none => s

/-! ## Starting a flush -/

/-- A flush of a stripe's region is under way. -/
def flushing (a : Fin 4) (new : Bool) (stripe : Nat) (s : State) : Bool :=
  s.skb.flushes.any fun f => f.array == a && f.newRegion == new && f.stripe == stripe

/-- A flush joins the work of the stripe engine; an array that is OFFLINE or STOPPED is not flushed (R382). -/
def addFlush (f : Flush) (s : State) : State :=
  if (arrGet f.array s).state.assembled then
    { s with skb := { s.skb with
        flushes := s.skb.flushes ++ [{ f with id := s.skb.nextFlush }], nextFlush := s.skb.nextFlush + 1 } }
  else s

/-- A flush of a stripe of a region starts, unless one is under way. -/
def startFlush (a : Fin 4) (new : Bool) (stripe : Nat) (s : State) : State :=
  if flushing a new stripe s then s
  else addFlush { id := 0, array := a, newRegion := new, stripe := stripe,
                  replay := (arrGet a s).state == .replaying } s

/-- Flushes start for every stripe, of each region, that a record has work in. -/
def flushRec (r : Rec) (s : State) : State :=
  let x := arrGet r.array s
  let go (new : Bool) (s : State) : State :=
    (r.stripesIn x new).foldl (fun s t => startFlush r.array new t s) s
  go true (go false s)

/-- Flushes start for every stripe that an unretired WRITE record selected by a condition has work in. -/
def flushWhere (f : Rec → Bool) (s : State) : State :=
  ((liveRecs s).filter fun (_, r) => r.kind == .write && f r).foldl (fun s (_, r) => flushRec r s) s

/-- Every stripe of every assembled array is flushed (R89, R394). -/
def flushAll (s : State) : State := flushWhere (fun _ => true) s

/-- The oldest of a list of records. -/
def oldestRec (l : List (Nat × Rec)) : Option (Nat × Rec) :=
  l.foldl (fun best c => match best with
    | none => some c
    | some b => if newer b.2.cseq c.2.cseq then some c else some b) none

/-- Sectors of a TRIM's range that end with a stripe. -/
def trimReach (r : Rec) (h : Shape) (stripe : Nat) : Nat := min r.count ((stripe + 1) * h.stripeSectors - r.start)

/-- A TRIM that still has stripes to apply. -/
def Rec.trimLeft (r : Rec) : Bool := r.kind == .trim && !r.retired && decide (max r.trimDone r.applied < r.count)

/-- The stripe at which a TRIM goes on. -/
def trimNext (r : Rec) (s : State) : Bool × Nat :=
  let x := arrGet r.array s
  let a := r.start + max r.trimDone r.applied
  let new := x.readsNew a
  (new, (x.shapeAt new).stripeOf a)

/-- The next stripe of a TRIM is erased, zeroed or flushed with zeros (R389). -/
def trimApply (slot : Nat) (s : State) : State :=
  match kget slot s.skb.recs with
  | none => s
  | some r =>
    if r.trimLeft then
      let (new, t) := trimNext r s
      if flushing r.array new t s then s
      else addFlush { id := 0, array := r.array, newRegion := new, stripe := t, trim := some slot,
                      replay := (arrGet r.array s).state == .replaying } s
    else s

/-- A record's next member work starts: the flushes of a WRITE, or the next stripe of a TRIM. -/
def recAdvance (i : Nat) (r : Rec) (s : State) : State :=
  match r.kind with
  | .write => flushRec r s
  | .trim => trimApply i s
  | .parity => s

/-- Some stripe of a record is being flushed. -/
def recFlushing (r : Rec) (s : State) : Bool :=
  match r.kind with
  | .trim => flushing r.array (trimNext r s).1 (trimNext r s).2 s
  | .write | .parity => [false, true].any fun new =>
      (r.stripesIn (arrGet r.array s) new).any fun t => flushing r.array new t s

/-- A record whose member work is not all done and not under way, of an array that is flushed. -/
def recWaits (r : Rec) (s : State) : Bool :=
  (arrGet r.array s).state.assembled && !recFlushing r s &&
    (match r.kind with
    | .write => [false, true].any fun new =>
        (r.stripesIn (arrGet r.array s) new).any fun t => !(r.doneIn new).contains t
    | .trim => r.trimLeft
    | .parity => false)

/-- While forced flushing is in force, the stripes whose oldest record is oldest are flushed, and a TRIM that is oldest is
applied (R382, R383). -/
def forcedFlush (s : State) : State :=
  if s.skb.forced then
    match oldestRec ((liveRecs s).filter fun (_, r) => recWaits r s) with
    | none => s
    | some (i, r) => recAdvance i r s
  else s

/-- Each data sector of a stripe is covered by an unretired record (R382, Full). -/
def stripeFull (a : Fin 4) (new : Bool) (stripe : Nat) (s : State) : Bool :=
  let h := (arrGet a s).shapeAt new
  (List.range (h.stripeSectors / 8)).all fun i =>
    coverMask (tileCover a (stripe * (h.stripeSectors / 8) + i) s) == 0xFF

/-! ## Rows of a flush -/

/-- The array tile at a data chunk and tile row of a stripe. -/
def flushTile (f : Flush) (x row : Nat) (s : State) : Nat :=
  ((arrGet f.array s).shapeAt f.newRegion).sectorOf f.stripe x row / 8

/-- Covered sectors of a data tile that the flush's region is written for. -/
def flushMask (f : Flush) (x row : Nat) (s : State) : BitVec 8 :=
  let tile := flushTile f x row s
  if (arrGet f.array s).writesTo f.newRegion (8 * tile) then coverMask (tileCover f.array tile s) else 0

/-- The tile row is touched: some data sector is covered (R384), or a tile of it is mended or its parity fixed. -/
def touched (f : Flush) (row : Nat) (s : State) : Bool :=
  let h := (arrGet f.array s).shapeAt f.newRegion
  (f.mend.map (·.1) == some row) || f.fix == some row ||
    ((List.range h.dps).any fun x => flushMask f x row s != 0)

/-- The touched tile rows that are still to be written. -/
def rowsLeft (f : Flush) (s : State) : List Nat :=
  (List.range ((arrGet f.array s).shapeAt f.newRegion).tiles).filter fun r => touched f r s && !f.doneRows.contains r

/-- Every data tile of the row is wholly covered (R384, R385). -/
def rowCovered (f : Flush) (row : Nat) (s : State) : Bool :=
  let h := (arrGet f.array s).shapeAt f.newRegion
  (List.range h.dps).all fun x => flushMask f x row s == 0xFF

/-- The role of a chunk of the flush's stripe. -/
def flushRole (f : Flush) (x : Nat) (s : State) : Nat := (arrGet f.array s).roleAt f.newRegion f.stripe x

/-- The role is lacking for the flush's stripe. -/
def flushLacks (f : Flush) (x : Nat) (s : State) : Bool :=
  (arrGet f.array s).lacking f.newRegion f.stripe (flushRole f x s)

/-- The PARITY page of the newest unretired record that names a tile row of the stripe, and its record slot and page
(R390). -/
def intentRec (f : Flush) (row : Nat) (s : State) : Option (Nat × Nat) :=
  (((liveRecs s).filter fun (_, r) => r.kind == .parity && r.array == f.array && r.stripe == f.stripe
      && r.pages.any fun p => p.2 == row).foldl newerRec none).bind fun (i, r) =>
    (r.pages.find? fun p => p.2 == row).map fun p => (i, p.1)

/-- Its contents, unless they fail their check (R391). -/
def intentPage (f : Flush) (row : Nat) (s : State) : Option TileData :=
  (intentRec f row s).bind fun (_, pg) => (kget pg s.skb.pages).bind fun g => if g.bad then none else some g.data

/-- In replay a tile of a lacking role is taken from the PARITY record that names its row (R387, R390). -/
def byIntent (f : Flush) (x row : Nat) (s : State) : Bool :=
  f.replay && flushLacks f x s && (intentPage f row s).isSome

/-- The payer of a flush's reads. -/
def flushWork (f : Flush) : Work := .flush f.id

/-- The contents of a data tile of the row: current contents, with a page that fails its check skipped (R391), so that
its sectors keep the member's. -/
def flushData (f : Flush) (x row : Nat) (s : State) : Need × State :=
  let tile := flushTile f x row s
  let v := skipBad (tileCover f.array tile s)
  let cov := coverMask v
  let s := badPageNotes (tileCover f.array tile s) s
  if cov = 0xFF then (.got (coverData v), s)
  else if byIntent f x row s then (.lost [], s)
  else
    let (n, _, s) := match tileFind (.array f.array tile) s with
      | some (_, t) =>
        if cov ||| t.valid = 0xFF then (Need.got t.data, false, s)
        else chunkTile .system (flushWork f) ⟨f.array, (arrGet f.array s).readsNew (8 * tile),
          (tileChunk f.array ((arrGet f.array s).readsNew (8 * tile)) tile s).1.stripe,
          (tileChunk f.array ((arrGet f.array s).readsNew (8 * tile)) tile s).1.pos⟩
          (tileChunk f.array ((arrGet f.array s).readsNew (8 * tile)) tile s).2 s
      | none =>
        let (c, r) := tileChunk f.array ((arrGet f.array s).readsNew (8 * tile)) tile s
        chunkTile .system (flushWork f) c r s
    match n with
    | .got t => (.got (mergeTile t (coverData v) cov), s)
    | o => (o, s)

/-- A data tile of a lacking role in a row that a PARITY record names: the PARITY page XOR the row's other current data
tiles (R387, R390); its covered sectors are those of the journal in any case. -/
def fromIntent (f : Flush) (row x : Nat) (got : List (Nat × Need)) (s : State) : Option TileData :=
  if byIntent f x row s then
    match intentPage f row s with
    | none => none
    | some p =>
      let rest := got.filter fun g => g.1 != x
      if rest.all fun g => match g.2 with
        | .got _ => true
        | .wait | .lost _ | .badPage _ _ => false
      then some (rest.foldl (fun acc g => match g.2 with
        | .got t => xorTile acc t
        | .wait | .lost _ | .badPage _ _ => acc) p)
      else none
  else none

/-- What the contents of a tile row come to. -/
inductive RowNeed where
  | tiles (l : List TileData)
  | wait
  | lost (members : List (Fin 128))
  deriving DecidableEq, Repr

/-- A record of TILE_LOST (R416). -/
def tileLostNote (a : Fin 4) (stripe row : Nat) (ms : List (Fin 128)) (s : State) : State :=
  logRec .tileLost ([BitVec.ofNat 8 a.val, BitVec.ofNat 8 row] ++ leBytes 6 stripe
    ++ [BitVec.ofNat 8 (((ms[0]?).map (·.val)).getD 0), BitVec.ofNat 8 (((ms[1]?).map (·.val)).getD 0)]) s

/-- The current contents of every data tile of a row (R384), by PARITY record in replay, and as zeros for what is
unobtainable in salvage (R390, R416). -/
def rowData (f : Flush) (row : Nat) (s : State) : RowNeed × State :=
  let h := (arrGet f.array s).shapeAt f.newRegion
  let (got, s) := (List.range h.dps).foldl (fun (acc : List (Nat × Need) × State) x =>
    let (n, s) := flushData f x row acc.2
    (acc.1 ++ [(x, n)], s)) ([], s)
  if got.any fun g => g.2 == .wait then (.wait, s)
  else
    let salvage := (arrGet f.array s).salvage
    got.foldl (fun (acc : RowNeed × State) g =>
      match acc.1 with
      | .tiles l =>
        (match g.2 with
        | .got t => (.tiles (l ++ [t]), acc.2)
        | .lost ms =>
          (match fromIntent f row g.1 got acc.2 with
          | some t => (.tiles (l ++ [t]), acc.2)
          | none =>
            if salvage then (.tiles (l ++ [zeroTile]), tileLostNote f.array f.stripe row ms acc.2)
            else (.lost ms, acc.2))
        | .wait | .badPage _ _ => (.wait, acc.2))
      | .wait | .lost _ => acc) (.tiles [], s)

/-! ## Steps of a flush -/

/-- The flush replaced in the stripe engine's work. -/
def flushPut (f : Flush) (s : State) : State :=
  { s with skb := { s.skb with flushes := s.skb.flushes.map fun g => if g.id == f.id then f else g } }

/-- Rows of a list in runs of consecutive rows: first row and length. -/
def runs : List Nat → List (Nat × Nat)
  | [] => []
  | r :: t =>
    match runs t with
    | (q, n) :: u => if q = r + 1 then (r, n + 1) :: u else (r, 1) :: (q, n) :: u
    | [] => [(r, 1)]

/-- The members that a chunk of a stripe is written to: its holder when it is not lacking, and below the mark of a
copy-back also its target (R386, R405). -/
def chunkTargets (a : Fin 4) (new : Bool) (stripe x : Nat) (s : State) : List (Fin 128) :=
  let arr := arrGet a s
  let role := arr.roleAt new stripe x
  let own := if arr.lacking new stripe role then [] else (arr.memberOf role).toList
  let copy :=
    if arr.bgKind == 2 && !new && stripe < arr.mark then
      let u := arr.sparesUsed - 1
      let h := arr.shape
      let r := h.roleAt ((List.range u).map (rankRole arr.spareRole)) stripe x
      if r != role then (arr.memberOf r).toList else []
    else []
  own ++ copy

/-- Class C writes of some tile rows of one chunk, in one operation for each run of adjacent rows (R384). -/
def writeChunk (w : Work) (a : Fin 4) (new : Bool) (stripe x : Nat) (rows : List (Nat × TileData)) (s : State) : State :=
  let h := (arrGet a s).shapeAt new
  let o := (arrGet a s).originAt new
  (chunkTargets a new stripe x s).foldl (fun s m =>
    (runs (rows.map (·.1))).foldl (fun s (r, n) =>
      let data := (rows.filter fun p => r ≤ p.1 && p.1 < r + n).flatMap fun p => p.2.toList
      createOp { id := 0, member := m, cls := .c, kind := .write, sector := h.memberSector o stripe r, count := 8 * n,
                 use := .write w, data := data } s) s) s

/-- PARITY pages that all flushes hold or have asked for (R385). -/
def parityHeld (s : State) : Nat :=
  ((liveRecs s).map fun (_, r) => if r.kind == .parity then r.pages.length else 0).sum
    + (s.skb.flushes.map fun f => match f.parity with
      | some l => (l.map fun x => x.2.pages.length).sum
      | none => 0).sum

/-- Lists cut after every eighth element. -/
def chunks8 {α : Type} : Nat → List α → List (List α)
  | 0, _ => []
  | n + 1, l => if l.isEmpty then [] else l.take 8 :: chunks8 n (l.drop 8)

/-- PARITY records are asked for, one for each eight rows: their pages go to the program engine (R385). -/
def askIntent (f : Flush) (rows : List (Nat × TileData)) (s : State) : Option State :=
  let n := rows.length
  if parityHeld s + n ≤ 16 && poolFits pPage none n s then
    let s := forcedUpdate (poolTake pPage none n s)
    let (recs, s) := (chunks8 2 rows).foldl (fun (acc : List (Nat × Rec) × State) part =>
      let (pgs, s) := part.foldl (fun (acc : List (Nat × Nat) × State) (row, t) =>
        match allocPage acc.2 with
        | none => acc
        | some (pg, s) => (acc.1 ++ [(pg, row)], progReq (.parity f.id pg ⟨0xFF, t, false⟩) s)) ([], acc.2)
      match allocRec s with
      | none => (acc.1, s)
      | some (slot, s) =>
        (acc.1 ++ [(slot, { kind := .parity, last := true, array := f.array, cseq := 0, start := 0, volume := 0,
                            studio := 0, count := 0, stripe := f.stripe, cid := 0, sealTick := 0, pages := pgs,
                            system := true })], s)) ([], s)
    some (flushPut { f with parity := some recs } s)
  else none

/-- The flush ends: its lock and tiles are released. -/
def endFlush (f : Flush) (s : State) : State :=
  let w := flushWork f
  let s := workDrop w (lockDrop (fun l => l.work == w) s)
  { s with skb := { s.skb with flushes := s.skb.flushes.filter fun g => g.id != f.id } }

/-- CSEQ of the unretired WRITE and TRIM records that have work in a flush's stripe: their data, or their zeros, are what
its steps write. -/
def flushCarries (f : Flush) (s : State) : List Word :=
  ((liveRecs s).filter fun (_, r) => r.kind != .parity && r.array == f.array
    && (r.stripesIn (arrGet f.array s) f.newRegion).contains f.stripe).map (·.2.cseq)

/-- The records that a finished flush of a stripe carried to its region: those that were sealed when its first step began
(R381, R425). -/
def markFlushed (f : Flush) (s : State) : State :=
  let l := f.carries.getD []
  let recs := s.skb.recs.map fun (i, r) =>
    if r.kind != .parity && r.array == f.array && !r.retired && l.contains r.cseq then (i, r.markDone f.newRegion f.stripe)
    else (i, r)
  { s with skb := { s.skb with recs := recs } }

/-- A finished flush: its records are marked, and a TRIM it applied has reached the stripe's end (R389). -/
def finishFlush (f : Flush) (s : State) : State :=
  let s := markFlushed f s
  let h := (arrGet f.array s).shapeAt f.newRegion
  let s := match f.trim with
    | none => s
    | some i => match kget i s.skb.recs with
      | none => s
      | some r =>
        let r := { r with applied := max r.applied (trimReach r h f.stripe) }
        { s with skb := { s.skb with recs := kput i r s.skb.recs } }
  let s := match f.mend with
    | none => s
    | some (row, x) =>
      let c : ChunkAt := ⟨f.array, f.newRegion, f.stripe, x⟩
      let (m, sec) := chunkPlace c row s
      logRec .tileMended ([BitVec.ofNat 8 ((m.map (·.val)).getD 0), BitVec.ofNat 8 f.array.val] ++ leBytes 6 sec) s
  endFlush f s

/-- The whole stripe lies in the TRIM's range and no newer record touches it (R389). -/
def trimWhole (f : Flush) (slot : Nat) (s : State) : Bool :=
  match kget slot s.skb.recs with
  | none => false
  | some r =>
    let h := (arrGet f.array s).shapeAt f.newRegion
    let lo := f.stripe * h.stripeSectors
    decide (r.start ≤ lo) && decide (lo + h.stripeSectors ≤ r.start + r.count) &&
      !((liveRecs s).any fun (_, q) => q.kind != .parity && q.array == r.array && newer q.cseq r.cseq
        && decide (q.start < lo + h.stripeSectors) && decide (lo < q.start + q.count))

/-- The flush applies a TRIM to its whole stripe. -/
def trimsWhole (f : Flush) (s : State) : Bool :=
  match f.trim with
  | some i => trimWhole f i s
  | none => false

/-- Every chunk of the stripe is erased where its member's erased sectors read zeros, and written with zeros
elsewhere (R389). -/
def zeroStripe (f : Flush) (s : State) : State :=
  let h := (arrGet f.array s).shapeAt f.newRegion
  (List.range (h.dps + 1)).foldl (fun s x =>
    (chunkTargets f.array f.newRegion f.stripe x s).foldl (fun s m =>
      let ones := (memGet m s).eraseOnes
      createOp { id := 0, member := m, cls := .c, kind := if ones then .write else .erase,
                 sector := h.memberSector ((arrGet f.array s).originAt f.newRegion) f.stripe 0, count := h.c,
                 use := .write (flushWork f), data := if ones then List.replicate h.c 0 else [] } s) s) s

/-- The rows of the step with their contents, as far as they can be had. -/
def stepData (f : Flush) (s : State) : RowNeed × List (Nat × List TileData) × State :=
  f.rows.foldl (fun (acc : RowNeed × List (Nat × List TileData) × State) row =>
    let (n, s) := rowData f row acc.2.2
    match n with
    | .tiles l => (acc.1, acc.2.1 ++ [(row, l)], s)
    | .wait => (match acc.1 with | .lost m => .lost m | .tiles _ | .wait => .wait, acc.2.1, s)
    | .lost m => (.lost m, acc.2.1, s)) (.tiles [], [], s)

/-- The member writes of a step whose intents are sealed (R384). -/
def issueWrites (f : Flush) (data : List (Nat × List TileData)) (s : State) : State :=
  let h := (arrGet f.array s).shapeAt f.newRegion
  let w := flushWork f
  let s := (List.range h.dps).foldl (fun s x =>
    writeChunk w f.array f.newRegion f.stripe x
      ((data.filter fun (row, _) => flushMask f x row s != 0 || f.mend == some (row, x)
          || (arrGet f.array s).salvage && rawFailed w ⟨f.array, f.newRegion, f.stripe, x⟩ row s).map
        fun (row, l) => (row, l.getD x zeroTile)) s) s
  writeChunk w f.array f.newRegion f.stripe h.dps (data.map fun (row, l) => (row, xorTiles l)) s

/-- The mark that a repaint or a return of an array will have once a commit that has been requested is complete: the commit
of its front, of its cutover or end, or of a pause, an abort or a stop (R423). -/
def frontDue (a : Fin 4) (s : State) : Option Nat :=
  let p := (arrGet a s).repaint
  let mine : Bool := match s.mgmt.running with
    | some r => r.committing && (r.code == 0x0F || r.code == 0x10 || r.code == 0x12)
        && bits (r.args.getD 0 0) 1 0 == a.val && p.sub != .none
    | none => false
  (s.nv.commits.filterMap fun c => match c with
    | .front b m => if b == a then some m else none
    | .cutover b | .back b => if b == a then some p.front else none
    | .mgmt => if mine then some p.front else none
    | .keep | .table _ _ _ _ | .mark _ _ | .finish _ | .fwd _ _ _ | .assign _ _ _ => none).max?

/-- The flush is of a stripe that lies wholly below a mark in the region that a repaint or a return leaves behind. -/
def passedBelow (a : Fin 4) (m : Nat) (s : State) (f : Flush) : Bool :=
  let x := arrGet a s
  f.array == a && f.newRegion == x.repaint.back && decide ((f.stripe + 1) * (x.shapeAt f.newRegion).stripeSectors ≤ m)

/-- The flush waits for a commit that will drop it: nothing is issued in the region left behind meanwhile (R131, R423). -/
def frontHeld (f : Flush) (s : State) : Bool :=
  match frontDue f.array s with
  | none => false
  | some m => passedBelow f.array m s f

/-- The stripe's chunks that streams have read for tiles not yet filled are given up when it is written: they are read
again once the writes have responded, so that no retouch mixes contents of before and after (R230, R231). -/
def streamsAnew (f : Flush) (s : State) : State :=
  let mine (w : Work) (c : ChunkAt) : Bool :=
    c.array == f.array && c.newRegion == f.newRegion && c.stripe == f.stripe && (match w with
      | .stream _ _ => true
      | .cmd _ | .flush _ | .background _ | .volTrim _ | .remote _ _ => false)
  dropWhere (fun b => match b with
    | .raw w c _ | .sum w c _ _ => mine w c
    | .array _ _ | .parity _ _ _ | .stream _ _ | .filling _ _ _ | .delay _ => false)
    (dropOps (fun o => match o.use with
      | .chunk w c _ _ => mine w c
      | .write _ | .sig _ _ | .mend _ => false) s)

/-- A flush has writes out to the stripe that holds an array tile. -/
def tileWritten (a : Fin 4) (tile : Nat) (s : State) : Bool :=
  let new := (arrGet a s).readsNew (8 * tile)
  s.skb.flushes.any fun f => f.issued && f.array == a && f.newRegion == new
    && f.stripe == (tileChunk a new tile s).1.stripe

/-- One step of a flush (R384 to R386): its lock, its rows, their contents, the parity intent, the member writes, and
their responses. -/
def flushStep (f : Flush) (s : State) : State :=
  let w := flushWork f
  let a := f.array
  if !(arrGet a s).state.assembled then endFlush f s
  else if !f.replay && !f.nolock && !holds w .flush s then
    if waits w .flush s then s else lockRequest (stripeLock a f.newRegion f.stripe .flush w s) s
  else if f.issued then
    if opsOut w s then s
    else
      let s := workDrop w s
      let recs := s.skb.recs.map fun (i, r) =>
        if f.intents.contains i then (i, { r with carried := true }) else (i, r)
      let s := { s with skb := { s.skb with recs := recs } }
      let f := { f with doneRows := f.doneRows ++ f.rows, rows := [], parity := none, intents := [], issued := false }
      let s := flushPut f s
      if trimsWhole f s || (rowsLeft f s).isEmpty then finishFlush f s
      else s
  else if frontHeld f s then s
  else if trimsWhole f s then
    flushPut { f with issued := true, carries := some (f.carries.getD (flushCarries f s)) } (zeroStripe f (streamsAnew f s))
  else
    let f := { f with carries := some (f.carries.getD (flushCarries f s)) }
    let f := if f.rows.isEmpty then { f with rows := (rowsLeft f s).take 16 } else f
    if f.rows.isEmpty then finishFlush f s
    else
      let s := flushPut f s
      let s := match f.mend with
        | some (row, x) =>
          let c : ChunkAt := ⟨a, f.newRegion, f.stripe, x⟩
          if rawFailed w c row s then s
          else { s with skb := { s.skb with marks := { w := w, at' := c, row := row, noted := true } :: s.skb.marks } }
        | none => s
      let (n, data, s) := stepData f s
      match n with
      | .wait => s
      | .lost ms => goOffline a (((ms[0]?).map (·.val)).getD 0) (((ms[1]?).map (·.val)).getD 0) f.stripe s
      | .tiles _ =>
        let need := if flushLacks f ((arrGet a s).shapeAt f.newRegion).dps s then []
          else data.filter fun (row, _) => !rowCovered f row s
        match f.parity with
        | none =>
          if need.isEmpty then flushPut { f with issued := true, parity := some [] } (issueWrites f data (streamsAnew f s))
          else (askIntent f (need.map fun (row, l) => (row, xorTiles l)) s).getD s
        | some [] => flushPut { f with issued := true } (issueWrites f data (streamsAnew f s))
        | some _ => s

/-- FLUSH_AGE_EXPIRY (R382): the oldest unretired WRITE record of a stripe is FLUSH_AGE behind TICK_LO. While forced
flushing is in force, the application of the oldest TRIM that has stripes left runs first (R383). -/
def execFlushAgeExpiry (a : Fin 4) (stripe : Nat) (s : State) : Out :=
  let mine := (liveRecs s).filter fun (_, r) => r.kind == .write && r.array == a && r.stripe == stripe
  let old := match oldestRec mine with
    | none => false
    | some (_, r) => decide (s.skb.flushAge * 1000 ≤ (s.clk.tick.truncate 32 - r.sealTick : Word).toNat)
  let trim := if s.skb.forced then
      oldestRec ((liveRecs s).filter fun (_, r) => (arrGet r.array s).state.assembled && r.trimLeft) else none
  .next (onlyIf (unitsRun s && old) (fun s => match trim with
    | some (i, _) => trimApply i s
    | none => mine.foldl (fun s (_, r) => flushRec r s) s) s)

/-! ## Retirement (R381) -/

/-- Two records touch a common stripe of some region that their array has. -/
def sameStripe (x : Arr) (r q : Rec) : Bool :=
  x.regions.any fun new =>
    let h := x.shapeAt new
    decide ((r.span h).1 ≤ (q.span h).2) && decide ((q.span h).1 ≤ (r.span h).2)

/-- A TRIM's TRIM_DONE has passed the last sector of every stripe that it shares with a record. -/
def trimPast (x : Arr) (q r : Rec) : Bool :=
  x.regions.all fun new =>
    let h := x.shapeAt new
    decide ((r.span h).2 < (q.span h).1) || decide ((q.span h).2 < (r.span h).1)
      || decide (trimReach q h (min (r.span h).2 (q.span h).2) ≤ q.trimDone)

/-- Every older WRITE of the record's stripes has retired, and every older TRIM over them has TRIM_DONE past them. -/
def olderFirst (r : Rec) (s : State) : Bool :=
  let x := arrGet r.array s
  !((liveRecs s).any fun (_, q) =>
    q.array == r.array && newer r.cseq q.cseq &&
      (match q.kind with
      | .write => sameStripe x r q
      | .trim => !trimPast x q r
      | .parity => false))

/-- A RETIRE or TRIM_DONE word of the record waits for the program engine. -/
def wordAsked (i : Nat) (s : State) : Bool :=
  s.nv.prog.any fun o => match o with
    | .retire j | .trimDone j _ => j == i
    | .page _ _ _ | .record _ _ _ | .parity _ _ _ | .nv | .session _ | .bbox _ _ | .land _ _ _ => false

/-- The record may retire (R381, R390, R425). -/
def retirable (r : Rec) (s : State) : Bool :=
  let x := arrGet r.array s
  !r.retired && (match r.kind with
    | .write => ([false, true].all fun new => (r.stripesIn x new).all fun t => (r.doneIn new).contains t) && olderFirst r s
    | .trim => r.trimDone == r.count && olderFirst r s
    | .parity => r.carried || (x.state == .replaying &&
        !((liveRecs s).any fun (_, q) => q.kind != .parity && q.array == r.array &&
          (q.stripe == r.stripe || q.kind == .trim))))

/-- The TRIM_DONE value that may be programmed next: the end of the next stripe of the range, once its member work has
responded and the older records of that stripe have retired (R389). -/
def trimDoneNext (r : Rec) (s : State) : Option Nat :=
  let x := arrGet r.array s
  let at' := r.start + r.trimDone
  let h := x.shapeAt (x.readsNew at')
  let n := trimReach r h (h.stripeOf at')
  if r.kind == .trim && !r.retired && decide (r.trimDone < r.count) && decide (n ≤ r.applied)
      && olderFirst { r with start := at', count := max 1 (n - r.trimDone) } s then some n
  else none

/-- The RETIRE and TRIM_DONE words that have come due are requested, oldest record first (R374, R381, R389). -/
def wordsAsk (s : State) : State :=
  (liveRecs s).foldl (fun s (i, r) =>
    if wordAsked i s then s
    else if retirable r s then progReq (.retire i) s
    else match trimDoneNext r s with
      | some n => progReq (.trimDone i n) s
      | none => s) s

/-- FLUSH_STEP (R384): the flush with a number goes one step on. -/
def execFlushStep (id : Nat) (s : State) : Out :=
  .next (onlyIf (unitsRun s) (fun s => match s.skb.flushes.find? fun f => f.id == id with
    | some f => wordsAsk (flushStep f s)
    | none => s) s)

/-- The owner that a record's pages are counted for (R431). -/
def Rec.owner (r : Rec) : Option (Fin 8) := if r.system then none else some r.studio

/-- Units of JOURNAL_PAGE that a record holds: its pages, and one for a TRIM (R376, R440). -/
def Rec.units (r : Rec) : Nat := if r.kind == .trim then 1 else r.pages.length

/-- The trim of a deleted volume asks for its lock, over the whole range, as SYSTEM (R368, R300). -/
def startVolTrim (v : Fin 64) (s : State) : State :=
  let x := volGet v s
  if waits (.volTrim v) .flush s || holds (.volTrim v) .flush s then s
  else lockRequest { excl := true, studio := none, array := x.array, start := x.base, count := x.size, kind := .flush,
                     work := .volTrim v } s

/-- The trims of the deleted volumes of an array go on once it serves. -/
def volTrimsResume (a : Fin 4) (s : State) : State :=
  (List.finRange 64).foldl (fun s v =>
    let x := volGet v s
    if x.array == a && x.state == .gone && x.trimming then startVolTrim v s else s) s

/-- Replay of an array ends when it has no unretired record left (R358, R546). What R400 gives for a member that was
lost during assembly or replay follows. -/
def replayEnd (a : Fin 4) (s : State) : State :=
  let x := arrGet a s
  if x.state == .replaying && !((liveRecs s).any fun (_, r) => r.array == a)
      && !(s.skb.flushes.any (Flush.ofArray a)) then
    let s := setArr a { x with
      state := x.settled, salvage := x.salvage && x.settled != .optimal, lossDue := none } s
    let s := volTrimsResume a s
    match x.lossDue.bind fun i => (x.memberOf i).map fun m => (i, m) with
    | some (i, m) => autoRestore a i m s
    | none => s
  else s

/-- The RETIRE word of a record has been programmed: its pages return to the pool (R381). -/
def retired (slot : Nat) (s : State) : State :=
  match kget slot s.skb.recs with
  | none => s
  | some r =>
    let s := { s with skb := { s.skb with recs := kput slot { r with retired := true } s.skb.recs } }
    let s := poolGive pPage r.owner r.units (freePages (r.pages.map (·.1)) s)
    wordsAsk (replayEnd r.array (forcedFlush (forcedUpdate (cleanTiles s))))

/-- RETIREMENT (R381): the program of a RETIRE word ends; one in flight ends even in FAILSTOP (R28). -/
def execRetirement (slot : Nat) (s : State) : Out :=
  .next (if s.nv.prog.head? == some (.retire slot) then
      if unitsUp s then retired slot (progNext s) else onlyIf (running s) progOnly s
    else s)

/-! ## TRIM application and replay (R389, R390) -/

/-- TRIM_STRIPE_APPLY (R389). -/
def execTrimStripeApply (slot : Nat) (s : State) : Out := .next (onlyIf (unitsRun s) (trimApply slot) s)

/-- Every stripe of every assembled array is flushed, and every TRIM goes on (R89, R382, R394). -/
def flushEverything (s : State) : State :=
  (liveRecs (flushAll s)).foldl (fun s (i, r) => if r.kind == .trim then trimApply i s else s) (flushAll s)

/-- TRIM_DONE_UPDATE (R389): the program of a TRIM_DONE word ends; one in flight ends even in FAILSTOP (R28). -/
def execTrimDoneUpdate (slot : Nat) (s : State) : Out :=
  .next (match s.nv.prog.head? with
    | some (.trimDone i n) =>
      if i != slot then s
      else if unitsUp s then wordsAsk (recPut slot (fun r => { r with trimDone := n }) (progNext s))
      else onlyIf (running s) progOnly s
    | some (.page _ _ _) | some (.record _ _ _) | some (.parity _ _ _) | some .nv | some (.session _) | some (.bbox _ _)
    | some (.retire _) | some (.land _ _ _) | none => s)

/-- The record of a REPLAYING array at which replay goes on: the oldest WRITE or TRIM whose member work is neither done nor
under way (R390). -/
def replayNext (a : Fin 4) (s : State) : Option (Nat × Rec) :=
  oldestRec ((liveRecs s).filter fun (_, r) => r.array == a && recWaits r s)

/-- REPLAY_STRIPE (R390): the stripe of a REPLAYING array whose oldest record is oldest is replayed as a flush, in the region
that the committed watermark gives it (R131); an array without records leaves REPLAYING. -/
def execReplayStripe (a : Fin 4) (stripe : Nat) (s : State) : Out :=
  .next (onlyIf (unitsRun s && (arrGet a s).state == .replaying) (fun s =>
    match replayNext a s with
    | none => replayEnd a (wordsAsk s)
    | some (i, r) =>
      let at' := match r.kind with
        | .trim => (trimNext r s).2 == stripe
        | .write | .parity => [false, true].any fun new => (r.stripesIn (arrGet a s) new).contains stripe
      if at' then recAdvance i r s else s) s)

/-- TILE_MEND (R399): the next tile that was rebuilt after a failed read is rewritten with its row's parity. -/
def execTileMend (s : State) : Out :=
  .next (onlyIf (unitsRun s) (fun s => match s.skb.mends with
    | [] => s
    | (c, row) :: rest =>
      addFlush { id := 0, array := c.array, newRegion := c.newRegion, stripe := c.stripe, mend := some (row, c.pos) }
        { s with skb := { s.skb with mends := rest } }) s)

end Sys2Proof.Machine
end

