-- ==== Sys2Proof/Machine/Sketchbook.lean ====
section
/-! DEFINITION. The Sketchbook's program engine: the pages of a WRITE, the seal of its records, parity intents, and
the SKB_CTRL register (R372 to R385, R394). -/

namespace Sys2Proof.Machine

/-! ## Cutting a WRITE into records (R375, R425) -/

/-- The end of the record that starts at an array sector, of a WRITE that ends at `e`: the stripe, eight tiles, and
during a repaint the other shape's stripe and the marks. -/
def runEnd (a : Arr) (x e : Nat) : Nat :=
  let stripeEnd (h : Shape) : Nat := (h.stripeOf x + 1) * h.stripeSectors
  let cut := min (min e ((x / 8 + 8) * 8)) (stripeEnd a.shape)
  if a.repaint.sub == .none then cut
  else
    [a.repaint.wmark, a.repaint.front, a.repaint.rmark].foldl (fun c m => if x < m then min c m else c)
      (min cut (stripeEnd a.repaint.shape))

/-- The array tiles that a range touches, in order. -/
def tilesOf (start count : Nat) : List Nat :=
  if count = 0 then [] else (List.range ((start + count - 1) / 8 + 1 - start / 8)).map (· + start / 8)

/-- The page of an array tile of a WRITE, once it has been programmed. -/
def Slot.programmed (x : Slot) (tile : Nat) : Option Nat :=
  (x.pages.find? fun p => p.1 == tile && p.2.2).map (·.2.1)

/-- The next record of a WRITE is asked for once every page program of it has ended, and in a FIFO command once the host has
pushed every byte (R278, R378). -/
def writeProgress (i : Nat) (s : State) : State :=
  match slotGet i s with
  | none => s
  | some x => match x.cmd with
    | none => s
    | some c =>
      if c.op == .write && x.stage == .active && !x.sealing && decide (x.sealedTo < c.nlb)
          && (c.dptr != .fifo || x.moved == c.nlb) then
        let a := cmdArray c s
        let first := cmdStart c s
        let start := first + x.sealedTo
        let stop := runEnd (arrGet a s) start (first + c.nlb)
        let pgs := (tilesOf start (stop - start)).map x.programmed
        if pgs.all (·.isSome) then
          match allocRec s with
          | none => s
          | some (slot, s) =>
            let y := arrGet a s
            let r : Rec :=
              { kind := .write, last := stop == first + c.nlb, array := a, cseq := 0, start := start,
                volume := c.volume, studio := sqStudio x.sq, count := stop - start,
                stripe := (y.shapeAt (y.readsNew start)).stripeOf start, cid := c.cid, sealTick := 0,
                pages := pgs.filterMap fun p => p.map fun p => (p, 0), order := x.order }
            reqSeal (some i) slot r (slotPut i { x with sealing := true } s)
        else s
      else s

/-- The page program of a WRITE's tile is requested once its last byte has arrived (R376, R378). -/
def pageRequest (i tile : Nat) (s : State) : State :=
  match slotGet i s with
  | none => s
  | some x => match x.cmd with
    | none => s
    | some c =>
      match tileFind (.filling i (cmdArray c s) tile) s with
      | none => s
      | some (_, t) => match allocPage s with
        | none => s
        | some (pg, s) =>
          progReq (.page i pg ⟨t.valid, t.data, false⟩)
            (slotPut i { x with pages := x.pages ++ [(tile, pg, false)], reserved := x.reserved - 1 } s)

/-! ## The program engine (R374) -/

/-- A programmed page is stored. -/
def pagePut (pg : Nat) (p : Page) (s : State) : State :=
  { s with skb := { s.skb with pages := kput pg p s.skb.pages } }

/-- A page of a WRITE has been programmed: its FILLING tile may be released, and its record may follow. A page whose
command has ended is not kept. -/
def writePageDone (i pg : Nat) (p : Page) (s : State) : State :=
  match slotGet i s with
  | none => s
  | some x =>
    match x.pages.find? fun q => q.2.1 == pg with
    | none => s
    | some (tile, _, _) =>
      let s := slotPut i { x with pages := x.pages.map fun q => if q.2.1 == pg then (q.1, pg, true) else q } s
      let s := match x.cmd with
        | none => s
        | some c => match tileFind (.filling i (cmdArray c s) tile) s with
          | none => s
          | some (n, t) => tilePut n { t with pins := 0 } s
      writeProgress i (pagePut pg p s)

/-- A page of a PARITY record has been programmed; the last of a step asks for the seals of its records (R385). -/
def parityPageDone (f pg : Nat) (p : Page) (s : State) : State :=
  let s := pagePut pg p s
  let more := s.nv.prog.any fun o => match o with
    | .parity g _ _ => g == f
    | .page _ _ _ | .record _ _ _ | .nv | .session _ | .bbox _ _ | .retire _ | .trimDone _ _ | .land _ _ _ => false
  if more then s
  else match s.skb.flushes.find? fun g => g.id == f with
    | none => s
    | some fl => ((fl.parity).getD []).foldl (fun s (slot, r) => reqSeal none slot r s) s

/-- A page program ends (R374). -/
def pageProgramDone (s : State) : State :=
  match s.nv.prog.head? with
  | some (.page i pg p) => writePageDone i pg p (progNext s)
  | some (.parity f pg p) => parityPageDone f pg p (progNext s)
  | some (.land _ _ false) => progNext s
  | some (.session o) => sessionPut o (progNext s)
  | some (.bbox i r) => bbPut i r (progNext s)
  | some (.record _ _ _) | some (.land _ _ true) | some .nv | some (.retire _) | some (.trimDone _ _) | none => s

/-! ## The seal (R372, R378) -/

/-- The pages of a sealed WRITE record are merged into the tiles they cover. -/
def mergeRecord (owner : Nat) (r : Rec) (s : State) : State :=
  ((tilesOf r.start r.count).zip r.pages).foldl (fun s (tile, pg, _) =>
    match kget pg s.skb.pages with
    | none => s
    | some p => sealTile r.owner owner r.array tile (r.tileMask tile) p.data s) s

/-- The stripes that a seal has made full are flushed (R382). -/
def flushFull (r : Rec) (s : State) : State :=
  [false, true].foldl (fun s new =>
    (r.stripesIn (arrGet r.array s) new).foldl (fun s t =>
      if stripeFull r.array new t s then startFlush r.array new t s else s) s) s

/-- A TRIM's seal that makes a stripe of its range full starts the TRIM's application (R382). -/
def trimFull (slot : Nat) (r : Rec) (s : State) : State :=
  let x := arrGet r.array s
  let full := [false, true].any fun new =>
    let l := r.stripesIn x new
    decide (2 < l.length) || l.any fun t => stripeFull r.array new t s
  if full then trimApply slot s else s

/-- The command of a sealed record: its LAST record decides its status (R18). -/
def sealCommand (i : Nat) (r : Rec) (s : State) : State :=
  match slotGet i s with
  | none => s
  | some x =>
    let x := { x with
      pages := x.pages.filter fun q => !(r.pages.any fun p => p.1 == q.2.1), sealedTo := x.sealedTo + r.count,
      reserved := if r.kind == .trim then 0 else x.reserved, sealing := false }
    let s := slotPut i x s
    if x.stage != .active then s
    else if r.last then decideCmd i stOk 0 (BitVec.ofNat 32 ((x.cmd.map (·.nlb)).getD 0)) s
    else writeProgress i s

/-- The TRIM record of a deleted volume's range, from an array sector on (R368, R389): SYSTEM's, with one
JOURNAL_PAGE unit; the flag is clear while no unit or record slot is free. -/
def volTrimSeal (v : Fin 64) (start : Nat) (s : State) : Bool × State :=
  let x := volGet v s
  let stop := min (x.base + x.size) (start + (2 ^ 32 - 8))
  if !poolFits pPage none 1 s then (false, s)
  else match allocRec s with
    | none => (false, s)
    | some (slot, s) =>
      let r : Rec :=
        { kind := .trim, last := stop == x.base + x.size, array := x.array, cseq := 0, start := start, volume := v,
          studio := 0, count := stop - start, stripe := 0, cid := 0, sealTick := 0, pages := [],
          system := true }
      (true, reqSeal none slot r (forcedUpdate (poolTake pPage none 1 s)))

/-- The trim of a deleted volume goes on from an array sector; without room it waits in line again. -/
def volTrimNext (v : Fin 64) (start : Nat) (s : State) : State :=
  match volTrimSeal v start s with
  | (true, s) => s
  | (false, s) => startVolTrim v (lockDrop (fun l => l.work == .volTrim v) s)

/-- A TRIM record of a deleted volume has been sealed: the last one makes the trim durable, so that TRIMMING clears
(R31, R368). -/
def volTrimSealed (r : Rec) (s : State) : State :=
  let v := volGet r.volume s
  if !(holds (.volTrim r.volume) .flush s) then s
  else if r.last then
    nvCommit .keep (volPut r.volume { v with trimming := false } (lockDrop (fun l => l.work == .volTrim r.volume) s))
  else volTrimNext r.volume (r.start + r.count) s

/-- The command that a record belongs to, while it stands in the CMD_SLOT. -/
def sealOwner (owner : Option Nat) (r : Rec) (s : State) : Option Nat :=
  owner.filter fun i => (slotGet i s).map (·.order) == some r.order

/-- A landing record is programmed: the worker issues the member write (R493). -/
def landed (tag epoch : Byte) (s : State) : State :=
  match s.ring.served.find? fun v => v.tag == tag && v.epoch == epoch && v.kind == 0x22 && !v.queued with
  | none => s
  | some v =>
    let put (u : Served) : Served := if u == v then { u with queued := true } else u
    let s := { s with ring := { s.ring with served := s.ring.served.map put } }
    createOp { id := 0, member := ownMember v.port s, cls := v.op, studio := v.studio, deadline := v.deadline,
               kind := .write, sector := v.sector, count := v.count, use := .write (.remote tag epoch), data := v.data } s

/-- An index record program ends: the record is sealed (R378). -/
def recordSeal (s : State) : State :=
  match s.nv.prog.head? with
  | some (.record owner slot r) =>
    let s := progNext s
    let owner := sealOwner owner r s
    let r := { r with pcrcs := r.crcs s }
    let s := { s with skb := { s.skb with recs := kput slot r s.skb.recs, torn := kdel slot s.skb.torn } }
    match r.kind with
    | .write =>
      let s := mergeRecord (owner.getD 256) r s
      let s := flushFull r s
      let s := match owner with
        | none => s
        | some i => sealCommand i r s
      forcedFlush s
    | .trim =>
      let s := trimTiles r.array r.start r.count s
      let s := match owner with
        | none => if r.system then volTrimSealed r s else s
        | some i => sealCommand i r s
      forcedFlush (trimFull slot r s)
    | .parity =>
      { s with skb := { s.skb with flushes := s.skb.flushes.map fun f => match f.parity with
          | none => f
          | some l =>
            if l.any fun x => x.1 == slot then
              { f with parity := some (l.filter fun x => x.1 != slot), intents := slot :: f.intents }
            else f } }
  | some (.land tag epoch true) => landed tag epoch (progNext s)
  | some (.page _ _ _) | some (.parity _ _ _) | some (.land _ _ false) | some .nv | some (.session _) | some (.bbox _ _)
  | some (.retire _) | some (.trimDone _ _) | none => s

/-- PAGE_PROGRAM_DONE (R374): a page program in flight ends even in FAILSTOP, and black-box pages are programmed there
(R28). -/
def execPageProgramDone (s : State) : Out :=
  .next (match s.nv.prog.head? with
    | some (.page _ _ _) | some (.parity _ _ _) | some (.land _ _ false) | some (.session _) | some (.bbox _ _) =>
      if unitsUp s then pageProgramDone s else onlyIf (running s) progOnly s
    | some (.record _ _ _) | some (.land _ _ true) | some .nv | some (.retire _) | some (.trimDone _ _) | none => s)

/-- RECORD_SEAL (R378): a record program in flight ends even in FAILSTOP (R28). -/
def execRecordSeal (s : State) : Out :=
  .next (match s.nv.prog.head? with
    | some (.record _ _ _) | some (.land _ _ true) => if unitsUp s then recordSeal s else onlyIf (running s) progOnly s
    | some (.page _ _ _) | some (.parity _ _ _) | some (.land _ _ false) | some .nv | some (.session _) | some (.bbox _ _)
    | some (.retire _) | some (.trimDone _ _) | none => s)

/-! ## SKB_CTRL (R394) -/

/-- SKB_CTRL as it reads. -/
def skbCtrlWord (s : State) : Word := fld 24 s.skb.pausePct ||| fld 17 s.skb.hwmPct ||| fld 0 s.skb.flushAge

/-- The fields of a merged SKB_CTRL value are in range (R394). -/
def skbCtrlOk (w : Word) : Bool :=
  let p := bits w 30 24
  let h := bits w 23 17
  let a := bits w 15 0
  decide (80 ≤ p) && decide (p ≤ 98) && decide (20 ≤ h) && decide (h ≤ 90) && decide (1 ≤ a) && decide (a ≤ 6000)
    && decide (h < p)

/-- A write of SKB_CTRL: the merged value is applied, or refused whole with a note carrying it (R394). -/
def skbCtrlWrite (lanes : Lanes) (data : Word) (s : State) : State :=
  let w := mergeLanes lanes (skbCtrlWord s) data
  if skbCtrlOk w then
    let s := { s with skb := { s.skb with
      pausePct := bits w 30 24, hwmPct := bits w 23 17, flushAge := bits w 15 0 } }
    let s := forcedUpdate s
    onlyIf (unitsRun s) (if lane lanes 3 && bit data 31 then flushEverything else forcedFlush) s
  else logRec .skbCtrlRefused (leBytes 4 w.toNat) s

end Sys2Proof.Machine
end

