-- ==== Sys2Proof/Machine/Background.lean ====
section
/-! DEFINITION. Background passes over an array: restoration, copy-back, inspection, the check of a tile row, and
checkpoints (R129, R400 to R409, R416). -/

namespace Sys2Proof.Machine

/-- The work of an array's background pass. -/
def bgWork (a : Fin 4) : Work := .background a

/-! ## Steps -/

/-- Unretired WRITE and TRIM records have work in a stripe of a region that has not been brought to the members. -/
def stripeBusy (a : Fin 4) (new : Bool) (t : Nat) (s : State) : Bool :=
  let x := arrGet a s
  (liveRecs s).any fun (_, r) =>
    r.kind != .parity && r.array == a && (r.stripesIn x new).contains t && !(r.doneIn new).contains t
      && (r.kind == .write || decide (r.trimDone < trimReach r (x.shapeAt new) t))

/-- A flush or a correction of the stripe runs under the lock of the work that asked for it. -/
def ownFlush (a : Fin 4) (new : Bool) (t : Nat) (s : State) : Bool :=
  s.skb.flushes.any fun f => f.array == a && f.newRegion == new && f.stripe == t && f.nolock

/-- The records of a stripe are brought to the members under the lock of a step or of a VERIFY's child (R282, R402). The
flag says that nothing is left to bring, so that the step may go on. -/
def stripeClean (a : Fin 4) (new : Bool) (t : Nat) (s : State) : Bool × State :=
  if ownFlush a new t s then (false, s)
  else if stripeBusy a new t s then
    (false, addFlush { id := 0, array := a, newRegion := new, stripe := t, nolock := true } s)
  else (true, s)

/-- The stripe of a step is made ready: locked, and then flushed where it holds unretired records. The flag says that the
step may go on. -/
def stepReady (a : Fin 4) (new : Bool) (t : Nat) (k : LockKind) (s : State) : Bool × State :=
  let w := bgWork a
  if holds w k s then (if (arrGet a s).bgIssued then (true, s) else stripeClean a new t s)
  else if waits w k s then (false, s)
  else (false, lockRequest (stripeLock a new t k w s) s)

/-- The step ends: its lock and tiles return, and the mark advances by one stripe. -/
def stepDone (a : Fin 4) (s : State) : State :=
  let w := bgWork a
  let s := workDrop w (lockDrop (fun l => l.work == w) s)
  let x := arrGet a s
  arrPut a { x with mark := x.mark + 1, bgRow := 0, bgIssued := false } s

/-- The pass may take a step: at LEVEL1 (R128, R129), assembled, not paused and not stopping but for the step in flight
(R409, R547), less than 64 stripes past its checkpoint (R129), and with no commit of a repaint's front to come, which
would move the stripes that the pass walks (R429). -/
def stepMay (a : Fin 4) (k : BitVec 4) (s : State) : Bool :=
  let x := arrGet a s
  unitsRun s && atLevel1 s && x.state.assembled && x.state != .replaying && x.bgKind == k
    && ((!x.bgPaused && !x.stopping) || stepHeld a s) && decide (x.mark < x.bgStripe + 64) && (frontDue a s).isNone

/-- The chunk of a stripe that a role holds, under the given lost roles. -/
def chunkHeldBy (h : Shape) (lost : List Nat) (t role : Nat) : Option Nat :=
  (List.range (h.dps + 1)).find? fun x => h.roleAt lost t x == role

/-- A tile that some work has rebuilt is kept in a canvas tile of its own. -/
def keepRaw (p : Payer) (w : Work) (c : ChunkAt) (row : Nat) (t : TileData) (s : State) : State :=
  match allocTile p.who (.raw w c row) 1 s with
  | none => waitTile w p.who s
  | some (n, s) => match kget n s.canvas.tiles with
    | none => s
    | some x => tilePut n { x with valid := 0xFF, data := t } s

/-- The raw tiles of a row's other chunks and the partial sums for this one are dropped, with their marks. -/
def dropOthers (w : Work) (c : ChunkAt) (row : Nat) (s : State) : State :=
  let s := dropWhere (fun b => match b with
    | .raw v d r =>
      v == w && r == row && d != c && d.array == c.array && d.newRegion == c.newRegion && d.stripe == c.stripe
    | .sum v d r _ => v == w && r == row && d == c
    | .array _ _ | .parity _ _ _ | .stream _ _ | .filling _ _ _ | .delay _ => false) s
  { s with skb := { s.skb with marks := s.skb.marks.filter fun m => !(m.w == w && m.row == row && m.at' != c) } }

/-- In salvage, a row with two or more unobtainable chunks takes zeros for each of them: once the others have been read,
the zero tiles and the parity that results are written to the holders that are present, and the chunk asked for is
answered (R416). -/
def salvageRow (a : Fin 4) (c : ChunkAt) (row : Nat) (ms : List (Fin 128)) (s : State) : Option TileData × State :=
  let w := bgWork a
  let h := (arrGet a s).shapeAt c.newRegion
  let s := (others c s).foldl (fun s d => if unobtainable w d row s then s else askRaw .system w d row s) s
  if (others c s).any fun d => !unobtainable w d row s && (rawTile w d row s).isNone then (none, s)
  else
    let value (x : Nat) : TileData := (rawTile w { c with pos := x } row s).getD zeroTile
    let parity := xorTiles ((List.range h.dps).map fun x => if x == c.pos then zeroTile else value x)
    let s := (List.range h.dps).foldl (fun s x =>
      if x != c.pos && rawFailed w { c with pos := x } row s then
        writeChunk w a c.newRegion c.stripe x [(row, zeroTile)] s else s) s
    let s := if c.pos == h.dps then s else writeChunk w a c.newRegion c.stripe h.dps [(row, parity)] s
    (some (if c.pos == h.dps then parity else zeroTile), tileLostNote a c.stripe row ms s)

/-- One tile row of the chunk that a step rebuilds or copies is obtained and kept. The flag says that the row is
there. -/
def obtainRow (a : Fin 4) (c : ChunkAt) (row : Nat) (s : State) : Bool × State :=
  let w := bgWork a
  if (rawTile w c row s).isSome then (true, s)
  else
    let (n, f, s) := chunkTile .system w c row s
    match n with
    | .got t =>
      if f then
        let s := keepRaw .system w c row t (dropOthers w c row s)
        ((rawTile w c row s).isSome, s)
      else (true, s)
    | .wait | .badPage _ _ => (false, s)
    | .lost ms =>
      if (arrGet a s).salvage then
        match salvageRow a c row ms s with
        | (none, s) => (false, s)
        | (some t, s) =>
          let s := keepRaw .system w c row t (dropOthers w c row s)
          ((rawTile w c row s).isSome, s)
      else
        (false, goOffline a (((ms[0]?).map (·.val)).getD 0) (((ms[1]?).map (·.val)).getD 0) c.stripe s)

/-- The rows of a chunk are obtained in order; the whole chunk is then written to one member in one operation (R402). -/
def moveChunk (a : Fin 4) (c : ChunkAt) (target : Fin 128) (s : State) : State :=
  let x := arrGet a s
  let w := bgWork a
  let h := x.shapeAt c.newRegion
  if x.bgIssued then (if opsOut w s then s else stepDone a s)
  else
    let (ok, s) := (List.range h.tiles).foldl (fun (acc : Bool × State) row =>
      if acc.1 then obtainRow a c row acc.2 else acc) (true, s)
    if ok && (arrGet a s).state.assembled then
      let data := (List.range h.tiles).flatMap fun row => ((rawTile w c row s).getD zeroTile).toList
      let s := createOp { id := 0, member := target, cls := .c, kind := .write,
                          sector := h.memberSector (x.originAt c.newRegion) c.stripe 0, count := h.c, use := .write w,
                          data := data } s
      arrPut a { arrGet a s with bgIssued := true } s
    else s

/-! ## Restoration (R402 to R404) -/

/-- The role that a restoration rebuilds. -/
def Arr.restoring (a : Arr) : Option Nat :=
  if a.rankBusy then some (rankRole a.spareRole (a.sparesUsed - 1))
  else (List.range a.roles.length).find? fun i => ((a.roles[i]?).map Role.state) == some .target && !a.ranked i

/-- The member to which a restoration writes the chunk of a stripe: its target, or the holder once the new rank
applies (R356, R402). -/
def Arr.restoreTo (a : Arr) (new : Bool) (t x role : Nat) : Option (Fin 128) :=
  if a.rankBusy then
    let h := a.shapeAt new
    a.memberOf (h.roleAt ((List.range a.sparesUsed).map (rankRole a.spareRole)) t x)
  else a.memberOf role

/-- One step of a restoration. -/
def restorationStep (a : Fin 4) (s : State) : State :=
  let x := arrGet a s
  match walkAt x.walk x.mark, x.restoring with
  | some (new, t), some role =>
    let (go, s) := stepReady a new t .restoration s
    if go then
      let lost := if new then [] else (List.range (if x.rankBusy then x.sparesUsed - 1 else x.sparesUsed)).map
        (rankRole x.spareRole)
      match chunkHeldBy (x.shapeAt new) lost t role with
      | none => stepDone a s
      | some pos => match x.restoreTo new t pos role with
        | none => stepDone a s
        | some m => moveChunk a ⟨a, new, t, pos⟩ m s
    else s
  | _, _ => s

/-- RESTORATION_STEP (R402). -/
def execRestorationStep (a : Fin 4) (s : State) : Out := .next (onlyIf (stepMay a 1 s) (restorationStep a) s)

/-- A repaint paused by a loss goes on by itself once no role is lacking (R429). -/
def repaintReturn (a : Fin 4) (s : State) : State :=
  let x := arrGet a s
  if x.repaint.sub == .paused && x.repaint.cause == .loss && x.lackingRoles.isEmpty then
    repaintNote a (arrPut a { x with repaint := { x.repaint with sub := .active, cause := .none } } s)
  else s

/-- The finish of a restoration is committed (R404): the role is present, and the array is OPTIMAL. -/
def restorationEnd (a : Fin 4) (s : State) : State :=
  let x := arrGet a s
  match x.restoring with
  | none => s
  | some role =>
    let n := walkLen x.walk
    let target := x.bgTarget
    let x : Arr := if x.rankBusy then { x with rankBusy := false }
      else match x.roles[role]? with
        | some r => x.setRole role { r with state := .present }
        | none => x
    let x : Arr := { x with
      bgKind := if x.repaint.sub == .none then 0 else 4, bgPaused := x.repaint.cause == .operator, bgTarget := 0,
      bgStripe := if x.repaint.sub == .none then 0 else x.repaintStripe, mark := 0 }
    let x := { x with state := x.settled }
    let x := { x with salvage := x.salvage && x.state != .optimal }
    repaintReturn a (logRec .restorationDone
      ([BitVec.ofNat 8 a.val, BitVec.ofNat 8 target.val] ++ leBytes 4 n) (setArr a x s))

/-! ## Copy-back (R405) -/

/-- One step of a copy-back: the one chunk of the stripe whose holder the highest rank has moved. -/
def copyBackStep (a : Fin 4) (s : State) : State :=
  let x := arrGet a s
  let h := x.shape
  let u := x.sparesUsed
  let lost (n : Nat) : List Nat := (List.range n).map (rankRole x.spareRole)
  if x.mark < h.stripes x.rows then
    let (go, s) := stepReady a false x.mark .copyBack s
    if go then
      match (List.range (h.dps + 1)).find? fun i =>
          h.roleAt (lost u) x.mark i != h.roleAt (lost (u - 1)) x.mark i with
      | none => stepDone a s
      | some pos => moveChunk a ⟨a, false, x.mark, pos⟩ x.bgTarget s
    else s
  else s

/-- COPY_BACK_STEP (R405). -/
def execCopyBackStep (a : Fin 4) (s : State) : Out := .next (onlyIf (stepMay a 2 s) (copyBackStep a) s)

/-- The finish of a copy-back is committed (R405): the rank is free, and the target is recorded for its role. -/
def copyBackEnd (a : Fin 4) (s : State) : State :=
  let x := arrGet a s
  let u := x.sparesUsed - 1
  let role := rankRole x.spareRole u
  let x : Arr := match x.roles[role]? with
    | some r => x.setRole role { r with state := .present }
    | none => x
  let x := { x with
    spareRole := x.spareRole &&& ~~~ fld (8 * u) 0xFF, sparesUsed := u, bgKind := 0, bgPaused := false, bgTarget := 0,
    bgStripe := 0, mark := 0 }
  setArr a { x with state := x.settled } s

/-! ## Checking a tile row (R282, R407, R408) -/

/-- What the check of a tile row finds. -/
inductive RowCheck where
  | wait
  /-- the XOR of the row's chunks is zero. -/
  | agrees
  | differs
  /-- one chunk could not be read and is rebuilt from the others: its position. -/
  | rebuilt (pos : Nat)
  | lost (members : List (Fin 128))
  deriving DecidableEq, Repr

/-- Every chunk of a tile row is read from the members and the row is checked. -/
def checkRow (p : Payer) (w : Work) (a : Fin 4) (new : Bool) (t row : Nat) (s : State) : RowCheck × State :=
  let h := (arrGet a s).shapeAt new
  let cs : List ChunkAt := (List.range (h.dps + 1)).map fun x => ⟨a, new, t, x⟩
  let s := cs.foldl (fun s c => if unobtainable w c row s then s else askRaw p w c row s) s
  match cs.filter fun c => unobtainable w c row s with
  | [] =>
    let tiles := cs.filterMap fun c => rawTile w c row s
    if tiles.length < cs.length then (.wait, s)
    else (if xorTiles tiles = zeroTile then .agrees else .differs, s)
  | [c] =>
    if (others c s).all fun d => (rawTile w d row s).isSome then (.rebuilt c.pos, s) else (.wait, s)
  | c :: _ :: _ => (.lost (lostMembers w c row s), s)

/-- A tile row that does not check is corrected from its data (R408): the note, the count, and the rewrite of its
parity as a step that seals its intent first. -/
def correctRow (a : Fin 4) (new : Bool) (t row : Nat) (s : State) : State :=
  let s := logRec .parityMismatch ([BitVec.ofNat 8 a.val, BitVec.ofNat 8 row] ++ leBytes 6 t) s
  let x := arrGet a s
  let s := arrPut a { x with mismatches := ctrInc x.mismatches } s
  addFlush { id := 0, array := a, newRegion := new, stripe := t, nolock := true, fix := some row } s

/-- One step of an inspection, a tile row at a time: it ends when its last row's correction has ended too. -/
def inspectionStep (a : Fin 4) (s : State) : State :=
  let x := arrGet a s
  let w := bgWork a
  if x.mark < x.shape.stripes x.rows then
    let (go, s) := stepReady a false x.mark .inspection s
    if !go then s
    else if x.bgRow < x.shape.tiles then
      let next (s : State) : State := arrPut a { arrGet a s with bgRow := x.bgRow + 1 } (workDrop w s)
      let (r, s) := checkRow .system w a false x.mark x.bgRow s
      match r with
      | .wait => s
      | .agrees => next s
      | .differs =>
        let y := arrGet a s
        next (correctRow a false x.mark x.bgRow (arrPut a { y with found := y.found + 1 } s))
      | .rebuilt pos => next (noteMend ⟨a, false, x.mark, pos⟩ x.bgRow s)
      | .lost ms => goOffline a (((ms[0]?).map (·.val)).getD 0) (((ms[1]?).map (·.val)).getD 0) x.mark s
    else stepDone a s
  else s

/-- INSPECTION_STEP (R407). -/
def execInspectionStep (a : Fin 4) (s : State) : Out := .next (onlyIf (stepMay a 3 s) (inspectionStep a) s)

/-- The finish of an inspection is committed (R407). -/
def inspectionEnd (a : Fin 4) (s : State) : State :=
  let x := arrGet a s
  logRec .inspectionDone (BitVec.ofNat 8 a.val :: leBytes 4 x.found)
    (setArr a { x with bgKind := 0, bgPaused := false, bgStripe := 0, mark := 0, found := 0 } s)

/-! ## The finish of a pass: one NV commit, which changes the array when it is complete (R404, R405, R407) -/

/-- The last stripe of the array's restoration (1), copy-back (2) or inspection (3) has been done. -/
def passDone (a : Fin 4) (k : BitVec 4) (s : State) : Bool :=
  let x := arrGet a s
  let last : Nat := if k == 1 then walkLen x.walk else x.shape.stripes x.rows
  x.state.assembled && x.bgKind == k && decide (last ≤ x.mark)
    && (k != 3 || !(s.skb.flushes.any fun f => f.array == a && f.nolock))

/-- The finish of a pass is requested, once. -/
def passFinish (a : Fin 4) (k : BitVec 4) (s : State) : Out :=
  .next (onlyIf (unitsRun s && passDone a k s && !s.nv.commits.contains (.finish a)) (nvCommit (.finish a)) s)

/-- The commit of a pass's finish is complete: a pass that a loss has ended or begun again meanwhile keeps its state. -/
def passEnd (a : Fin 4) (s : State) : State :=
  if passDone a 1 s then restorationEnd a s
  else if passDone a 2 s then copyBackEnd a s
  else if passDone a 3 s then inspectionEnd a s
  else s

/-- RESTORATION_FINISH (R404): after the step of the last stripe. -/
def execRestorationFinish (a : Fin 4) (s : State) : Out := passFinish a 1 s

/-- COPY_BACK_FINISH (R405). -/
def execCopyBackFinish (a : Fin 4) (s : State) : Out := passFinish a 2 s

/-- INSPECTION_FINISH (R407). -/
def execInspectionFinish (a : Fin 4) (s : State) : Out := passFinish a 3 s

/-! ## Checkpoints (R129, R423) -/

/-- A flush of stripes that the front has passed, in the region that is left behind. -/
def passedFlush (a : Fin 4) (s : State) (f : Flush) : Bool := passedBelow a (arrGet a s).repaint.front s f

/-- A commit of a front is complete (R423): work of the region left behind that has not been issued is dropped, and the
mark moves. -/
def frontEnd (a : Fin 4) (m : Nat) (s : State) : State :=
  let gone := s.skb.flushes.filter fun f => passedBelow a m s f && !f.issued
  let s := gone.foldl (fun s f => endFlush f s) s
  arrPut a ((arrGet a s).commitFront m) s

/-- The commit of the front is requested, once no issued write of the stripes that it passes is out (R131, R423). -/
def frontCommit (a : Fin 4) (s : State) : State :=
  if (s.skb.flushes.any fun f => passedFlush a s f && f.issued) || (frontDue a s).isSome then s
  else nvCommit (.front a (arrGet a s).repaint.front) s

/-- WATERMARK_COMMIT (R423). -/
def execWatermarkCommit (a : Fin 4) (s : State) : Out :=
  let x := arrGet a s
  .next (onlyIf (unitsRun s && x.state.assembled && x.repaint.sub == .active && x.bgKind == 4) (frontCommit a) s)

/-- The checkpoint of a pass is complete (R129): a pass that has ended or started again meanwhile keeps its own. -/
def markEnd (a : Fin 4) (m : Nat) (s : State) : State :=
  let x := arrGet a s
  if (x.bgKind == 1 || x.bgKind == 2 || x.bgKind == 3) && decide (m ≤ x.mark) then arrPut a { x with bgStripe := m } s else s

/-- BACKGROUND_CHECKPOINT (R129): the progress of a pass is committed. -/
def execBackgroundCheckpoint (a : Fin 4) (s : State) : Out :=
  let x := arrGet a s
  .next (onlyIf (unitsRun s && x.state.assembled && (x.bgKind == 1 || x.bgKind == 2 || x.bgKind == 3))
    (nvCommit (.mark a x.mark)) s)

end Sys2Proof.Machine
end

