-- ==== Sys2Proof/Machine/Repaint.lean ====
section
/-! DEFINITION. Repaint: placement of the new region, copy steps in both directions, cutover and the end of a return
(R418 to R430). -/

namespace Sys2Proof.Machine

/-- The placement of a new region (R420): K, ORIGIN′ and ROWS′, or none where nothing fits. -/
def place (vEnd s2 d c origin rows d2 c2 n n2 : Nat) (cap : List Nat) : Option (Nat × Nat × Nat) :=
  let kk := (vEnd + s2 - 1) / s2 * s2
  let need := (kk + d2 * c2 - 1) / (d2 * c2)
  let used := min ((kk + d * c - 1) / (d * c)) rows
  let caps := (List.range n2).map fun i => cap.getD i 0
  let low := ((List.range n2).map fun i => if i < n then origin else cap.getD i 0).foldl min (2 ^ 64 - 1)
  let top := caps.foldl min (2 ^ 64 - 1)
  let fit (o2 lim : Nat) : Option (Nat × Nat × Nat) :=
    let lim := min lim (2 ^ 32 - 1)
    let lim := if 2 ^ 48 < lim * d2 * c2 then 2 ^ 48 / (d2 * c2) else lim
    if lim < need || lim == 0 then none else some (kk, o2, lim)
  if 8192 < low && decide (need ≤ (low - 8192) / c2) && decide (0 < need) then fit 8192 ((low - 8192) / c2)
  else
    let o2 := origin + used * c
    if top ≤ o2 then none else fit o2 ((top - o2) / c2)

/-! ## Copy steps (R422, R428) -/

/-- The contents of one data tile of the stripe that a step writes: sectors at or above the old capacity read as
zeros (R422). A page that fails its check is noted and skipped, as R391 gives for replay (DEDUCED, log entry 125). -/
def copyTile (a : Fin 4) (tile : Nat) (s : State) : Need × State :=
  if (arrGet a s).cap ≤ 8 * tile && !(arrGet a s).readsNew (8 * tile) then (.got zeroTile, s)
  else
    let v := tileCover a tile s
    let (n, _, s) := coveredTile (skipBad v) .system (bgWork a) a tile 0xFF s
    (n, if n == .wait then s else badPageNotes v s)

/-- The data tiles of one row of the stripe. -/
def copyRow (a : Fin 4) (new : Bool) (t row : Nat) (s : State) : RowNeed × State :=
  let h := (arrGet a s).shapeAt new
  (List.range h.dps).foldl (fun (acc : RowNeed × State) x =>
    let (n, s) := copyTile a (h.sectorOf t x row / 8) acc.2
    match acc.1, n with
    | .lost m, _ => (.lost m, s)
    | _, .lost m => (.lost m, s)
    | .tiles l, .got d => (.tiles (l ++ [d]), s)
    | .tiles l, .badPage _ _ => (.tiles (l ++ [zeroTile]), s)
    | .wait, _ | .tiles _, .wait => (.wait, s)) (.tiles [], s)

/-- The step is done: the front advances past the stripe; records sealed before it, with sectors that it passed, count as
written to the region it wrote (R425). What a loss during the step called for follows (R429). -/
def copyDone (a : Fin 4) (new : Bool) (t : Nat) (s : State) : State :=
  let w := bgWork a
  let s := workDrop w (lockDrop (fun l => l.work == w) s)
  let x := arrGet a s
  let h := x.shapeAt new
  let front := (t + 1) * h.stripeSectors
  let recs := s.skb.recs.map fun (i, r) =>
    if r.kind != .parity && r.array == a && !r.retired && decide (t * h.stripeSectors < r.start + r.count)
        && decide (r.start < front) then (i, r.markDone new t)
    else (i, r)
  let s := arrPut a { x with repaint := { x.repaint with front := front }, bgRow := 0, bgIssued := false }
    { s with skb := { s.skb with recs := recs } }
  if x.repaint.sub == .paused then
    match x.lossDue.bind fun i => (x.memberOf i).map fun m => (i, m) with
    | some (i, m) => paintLoss a i m s
    | none => s
  else s

/-- One step of a copy: the stripe of the given region is locked and written, 16 tile rows at a time (R422). -/
def copyStep (a : Fin 4) (new : Bool) (t : Nat) (s : State) : State :=
  let x := arrGet a s
  let w := bgWork a
  let h := x.shapeAt new
  if !holds w .repaint s then
    if waits w .repaint s then s else lockRequest (stripeLock a new t .repaint w s) s
  else if x.bgIssued then
    if opsOut w s then s
    else if h.tiles ≤ x.bgRow + 16 then copyDone a new t s
    else arrPut a { x with bgRow := x.bgRow + 16, bgIssued := false } (workDrop w s)
  else
    let rows := ((List.range h.tiles).drop x.bgRow).take 16
    let (n, data, s) := rows.foldl (fun (acc : RowNeed × List (Nat × List TileData) × State) row =>
      match acc.1 with
      | .tiles _ =>
        let (n, s) := copyRow a new t row acc.2.2
        (match n with
        | .tiles l => (.tiles [], acc.2.1 ++ [(row, l)], s)
        | .wait => (.wait, acc.2.1, s)
        | .lost m => (.lost m, acc.2.1, s))
      | .wait | .lost _ => acc) (.tiles [], [], s)
    match n with
    | .wait => s
    | .lost ms => goOffline a (((ms[0]?).map (·.val)).getD 0) (((ms[1]?).map (·.val)).getD 0) t s
    | .tiles _ =>
      let s := (List.range h.dps).foldl (fun s i =>
        writeChunk w a new t i (data.map fun (row, l) => (row, l.getD i zeroTile)) s) s
      let s := writeChunk w a new t h.dps (data.map fun (row, l) => (row, xorTiles l)) s
      arrPut a { arrGet a s with bgIssued := true } s

/-- A repaint may take a step: at LEVEL1 (R128, R131), ACTIVE, the array assembled, and no pause, stop or abort waiting but
for the step in flight, which ends even after a loss (R427 to R429). -/
def copyMay (a : Fin 4) (back : Bool) (s : State) : Bool :=
  let x := arrGet a s
  let p := x.repaint
  unitsRun s && atLevel1 s && x.state.assembled && x.state != .replaying && x.bgKind == 4 && p.back == back
    && ((p.sub == .active && !x.bgPaused && !x.stopping) || (p.sub != .none && stepHeld a s))

/-- REPAINT_COPY_STEP (R422). -/
def execRepaintCopyStep (a : Fin 4) (s : State) : Out :=
  let x := arrGet a s
  let p := x.repaint
  .next (onlyIf (copyMay a false s && decide (p.front < p.k) &&
      decide (p.front - p.wmark < 64 * p.shape.stripeSectors))
    (copyStep a true (p.front / p.shape.stripeSectors)) s)

/-- RETURN_STEP (R428): one old-shape stripe comes back from the new region. -/
def execReturnStep (a : Fin 4) (s : State) : Out :=
  let x := arrGet a s
  let p := x.repaint
  .next (onlyIf (copyMay a true s && decide (p.front < p.wmark) &&
      decide (p.front - p.rmark < 64 * x.shape.stripeSectors))
    (copyStep a false (p.front / x.shape.stripeSectors)) s)

/-! ## Cutover and the end of a return (R425, R428) -/

/-- The array with the new shape as its own (R425). -/
def Arr.cutOver (x : Arr) : Arr :=
  let p := x.repaint
  { x with
    shape := p.shape, rows := p.rows, origin := p.origin, cap := p.shape.capacity p.rows, repaint := {}, bgKind := 0,
    bgPaused := false, bgStripe := 0 }

/-- A chunk of an array that exchanges its regions. -/
def ChunkAt.flip (a : Fin 4) (c : ChunkAt) : ChunkAt := if c.array == a then { c with newRegion := !c.newRegion } else c

/-- A binding of a tile that is read from a member, in an array that exchanges its regions. -/
def Bind.flip (a : Fin 4) (b : Bind) : Bind :=
  match b with
  | .raw w c r => .raw w (c.flip a) r
  | .sum w c r k => .sum w (c.flip a) r k
  | .array _ _ | .parity _ _ _ | .stream _ _ | .filling _ _ _ | .delay _ => b

/-- A member operation of an array that exchanges its regions. -/
def MOp.flip (a : Fin 4) (o : MOp) : MOp :=
  match o.use with
  | .chunk w c r n => { o with use := .chunk w (c.flip a) r n }
  | .write _ | .sig _ _ | .mend _ => o

/-- A ring request of an array that exchanges its regions. -/
def RReq.flip (a : Fin 4) (r : RReq) : RReq :=
  match r.kind with
  | .op o => { r with kind := .op (o.flip a) }
  | .psum p => if p.array == a then { r with kind := .psum { p with newRegion := !p.newRegion } } else r

/-- Reads under way keep to the member space that they were made for, once the new region is the array's own. -/
def readsFlip (a : Fin 4) (s : State) : State :=
  let port (p : Port) : Port :=
    { p with qa := p.qa.map (MOp.flip a), qb := p.qb.map (MOp.flip a), qc := p.qc.map (MOp.flip a),
             issued := p.issued.map (MOp.flip a) }
  { s with
    canvas := { s.canvas with tiles := s.canvas.tiles.map fun (n, t) => (n, { t with bind := t.bind.flip a }) }
    members := { s.members with ports := s.members.ports.map port }
    ring := { s.ring with reqs := s.ring.reqs.map (RReq.flip a) }
    skb := { s.skb with
      marks := s.skb.marks.map fun m => { m with at' := m.at'.flip a }
      mends := s.skb.mends.map fun m => (m.1.flip a, m.2)
      flushes := s.skb.flushes.map fun f => if f.array == a then { f with newRegion := !f.newRegion } else f } }

/-- A VERIFY takes the stripe under way anew, in the region that its sectors have now. -/
def verifiesAnew (a : Fin 4) (s : State) : State :=
  let mine (x : Slot) : Bool := x.vcur.isSome && (match x.cmd with
    | some c => cmdArray c s == a
    | none => false)
  (s.queues.slots.filter fun (_, x) => mine x).foldl (fun s (i, x) =>
    workDrop (.cmd i) (lockDrop (fun l => l.work == .cmd i && l.kind == .child)
      (slotPut i { x with vcur := none, vrow := 0 } s))) s

/-- The flushes of one region of an array end where they are. -/
def regionEnd (a : Fin 4) (new : Bool) (s : State) : State :=
  (s.skb.flushes.filter fun f => f.array == a && f.newRegion == new).foldl (fun s f => endFlush f s) s

/-- The cutover commit is complete (R425): the new shape is the array's own, and the generation has advanced; what was to
be done in the old region is dropped. -/
def cutoverEnd (a : Fin 4) (s : State) : State :=
  let s := readsFlip a (verifiesAnew a (regionEnd a false s))
  let s := { s with skb := { s.skb with recs := s.skb.recs.map fun (i, r) =>
      if r.array == a then (i, { r with doneOld := r.doneNew, doneNew := [] }) else (i, r) } }
  let x := (arrGet a s).cutOver
  let s := arrPut a { x with generation := x.generation + 1 } s
  logRec .repaintDone (BitVec.ofNat 8 a.val :: leBytes 4 (arrGet a s).generation.toNat) s

/-- The end of a repaint or of a return is to be committed: a step may run, nothing issued is out in the region left behind
(R423), no such commit has been requested, and the generation may advance with it (R330). -/
def endMay (a : Fin 4) (back : Bool) (s : State) : Bool :=
  copyMay a back s && (frontDue a s).isNone && genSettled a s
    && !(s.skb.flushes.any fun f => f.array == a && f.newRegion == back && f.issued)

/-- CUTOVER (R425): the front has reached K, and one commit is to make the new shape the array's own. -/
def execCutover (a : Fin 4) (s : State) : Out :=
  let p := (arrGet a s).repaint
  .next (onlyIf (endMay a false s && decide (p.k ≤ p.front)) (nvCommit (.cutover a)) s)

/-- A member is to have both signature copies blanked, or written as its state asks (R327, R329). -/
def sigWrite (m : Fin 128) (s : State) : State := memPut m { memGet m s with sigDue := true } s

/-- The commit that ends a return is complete (R428): the old shape stands, and the joining members become BLANK. -/
def backEnd (a : Fin 4) (s : State) : State :=
  let s := verifiesAnew a (regionEnd a true s)
  let x := arrGet a s
  let joined := x.roles.drop x.shape.n
  let p := x.repaint
  let mark := p.wmark / x.shape.stripeSectors
  let s := arrPut a { x with
    roles := x.roles.take x.shape.n, repaint := {}, bgKind := 0, bgPaused := false, bgStripe := 0
    generation := if joined.isEmpty then x.generation else x.generation + 1 } s
  let s := joined.foldl (fun s r => sigWrite r.member (memState r.member .blank chCommand s)) s
  logRec .repaintState ([BitVec.ofNat 8 a.val, 1, 0, 0] ++ leBytes 4 p.origin ++ leBytes 4 p.rows
    ++ leBytes 4 mark) s

/-- RETURN_END (R428): the return mark is to reach the watermark, and one commit is to end the repaint. -/
def execReturnEnd (a : Fin 4) (s : State) : Out :=
  let p := (arrGet a s).repaint
  .next (onlyIf (endMay a true s && decide (p.wmark ≤ p.front)) (nvCommit (.back a)) s)

end Sys2Proof.Machine
end

