-- ==== Sys2Proof/Machine/Dma.lean ====
section
/-! DEFINITION. The DMA engine's channels, address patterns and transfers, host regions, and the part's tenure of the
host bus (R202 to R207, R233 to R258). -/

namespace Sys2Proof.Machine

/-! ## Loop specs and sides (R240 to R243) -/

/-- A two's-complement field of n bits. -/
def signedField (n x : Nat) : Int := if 2 ^ (n - 1) ≤ x then (x : Int) - 2 ^ n else x

/-- A loop spec from its 16 bytes (R242). -/
def loopSpecOf (l : List Byte) : LoopSpec :=
  { c0 := leField l 0 2, c1 := leField l 2 2, c2 := leField l 4 2, elem := leField l 6 1,
    s0 := signedField 16 (leField l 8 2), s1 := signedField 24 (leField l 10 3), s2 := signedField 24 (leField l 13 3) }

/-- Status codes and details of R251 for a pattern. -/
def dtRegionMiss : Byte := 0x01
def dtRdyTimeout : Byte := 0x02
def dtSelfAccess : Byte := 0x03
def dtGntTimeout : Byte := 0x04
def dtAddrRange : Byte := 0x05
def dtLinkLoop : Byte := 0x06
def dtMasterOff : Byte := 0x07
def dtChannelOff : Byte := 0x08
def dtListEntry : Byte := 0x40

/-- The address that a loop spec gives at its indices (R243). -/
def LoopSpec.at' (l : LoopSpec) (base i0 i1 i2 : Nat) : Int := base + i0 * l.s0 + i1 * l.s1 + i2 * l.s2

/-- Element size in bytes. -/
def LoopSpec.esz (l : LoopSpec) : Nat := 2 ^ l.elem

/-- The counts or the element size are outside their ranges. -/
def LoopSpec.badCounts (l : LoopSpec) : Bool := l.c0 == 0 || l.c1 == 0 || l.c2 == 0 || decide (2 < l.elem)

/-- The check of R243: none, or the status and detail it gives. The flag of a count mismatch comes with it. -/
def loopsCheck (base : Nat) (l : LoopSpec) (length : Nat) : Option (Byte × Byte × Bool) :=
  if l.badCounts then some (stBadField, 0, false)
  else if l.c0 * l.c1 * l.c2 * l.esz ≠ length then some (stBadField, 0, true)
  else if base % l.esz ≠ 0 || l.s0 % l.esz ≠ 0 || l.s1 % l.esz ≠ 0 || l.s2 % l.esz ≠ 0 then
    some (stDmaAlign, 0, false)
  else
    let bad := (List.range 8).any fun m =>
      let a := l.at' base (if m % 2 = 1 then l.c0 - 1 else 0) (if m / 2 % 2 = 1 then l.c1 - 1 else 0)
        (if m / 4 % 2 = 1 then l.c2 - 1 else 0)
      decide (a < 0) || decide (0xFFFFFF < a + l.esz - 1)
    if bad then some (stDmaFault, dtAddrRange, false) else none

/-- The address of byte k of a LOOPS side (R243). -/
def LoopSpec.addr (l : LoopSpec) (base k : Nat) : Nat :=
  let e := k / l.esz
  (l.at' base (e % l.c0) (e / l.c0 % l.c1) (e / (l.c0 * l.c1)) + (k % l.esz : Nat)).toNat

/-- The side is reached by master cycles. -/
def Side.host : Side → Bool
  | .flat _ | .list _ _ _ | .loops _ _ => true
  | .fill _ | .device => false

/-- The first n addresses of the runs of a list walk, as far as its entries have been read. -/
def runAddrs : List (Nat × Nat) → Nat → Option (List Nat)
  | _, 0 => some []
  | [], _ + 1 => none
  | (a, len) :: t, n + 1 =>
    if n + 1 ≤ len then some ((List.range (n + 1)).map (a + ·))
    else (runAddrs t (n + 1 - len)).map fun l => (List.range len).map (a + ·) ++ l

/-- Runs after n bytes have moved. -/
def runDrop : List (Nat × Nat) → Nat → List (Nat × Nat)
  | [], _ => []
  | (a, len) :: t, n => if n < len then (a + n, len - n) :: t else runDrop t (n - len)

/-- The addresses of bytes pos to pos + n − 1 of a side; none while a list entry is still to be read. -/
def Side.addrs (d : Side) (pos n : Nat) : Option (List Nat) :=
  match d with
  | .flat b => some ((List.range n).map fun k => b + pos + k)
  | .list _ runs _ => runAddrs runs n
  | .loops b l => some ((List.range n).map fun k => l.addr b (pos + k))
  | .fill _ | .device => some []

/-- A side after n bytes have moved. -/
def Side.moved (d : Side) (n : Nat) : Side :=
  match d with
  | .list next runs links => .list next (runDrop runs n) links
  | .flat _ | .loops _ _ | .fill _ | .device => d

/-- What a side's pattern gives before any byte moves (R240, R243). -/
def Side.check (d : Side) (length : Nat) : Option (Byte × Byte × Bool) :=
  match d with
  | .flat b => if 0xFFFFFF < b + length - 1 then some (stDmaFault, dtAddrRange, false) else none
  | .loops b l => loopsCheck b l length
  | .list _ _ _ | .fill _ | .device => none

/-! ## Channels -/

/-- A channel. -/
def chanGet (c : Fin 16) (s : State) : Chan := s.dma.chans.get c

/-- The state with a channel replaced. -/
def chanPut (c : Fin 16) (x : Chan) (s : State) : State :=
  { s with dma := { s.dma with chans := s.dma.chans.set c x } }

/-- USER codes (R261). -/
def userQueue : BitVec 2 := 0
def userPalette : BitVec 2 := 1
def userSoft : BitVec 2 := 2

/-- The studio on whose behalf a transfer's cycles run (R206). -/
def Xfer.behalf (x : Xfer) : Fin 8 := if x.system then 0 else x.studio

/-- The owner of a transfer's DMA_DESC unit. -/
def Xfer.payer (x : Xfer) : Option (Fin 8) := if x.system then none else some x.studio

/-- A transfer's DMA_DESC unit returns. -/
def descGive (x : Xfer) (s : State) : State := if x.hasDesc then poolGive pDesc x.payer 1 s else s

/-- The transfer needs the bus for its next cycle. -/
def Xfer.wantsBus (x : Xfer) : Bool :=
  match x.kind with
  | .soft _ _ _ _ | .desc _ | .post _ => true
  | .fetch _ | .data _ _ | .refill _ => x.ended.isNone && (x.src.host || x.dst.host)

/-- The channel waits for the bus: for the read of an OWN bit, or for a cycle of its transfer. -/
def Chan.wantsBus (c : Chan) : Bool :=
  match c.cur with
  | some x => x.hasDesc && x.wantsBus
  | none => c.look

/-- Some work needs the bus (R202): the access under way, or, unless the engine pauses (R257), a channel. -/
def busWanted (s : State) : Bool :=
  s.hbu.access.isSome || (s.dma.en && s.dma.chans.toList.any (·.wantsBus))

/-- HB_BREQ_N follows the work: pulled low while work needs the bus, no tenure runs, no gap is kept and no time-out holds
it (R202, R204, R207); a tenure ends when its work needs the bus no longer. -/
def busRefresh (s : State) : State :=
  let w := busWanted s
  let t := if w then s.hbu.tenure else none
  { s with hbu := { s.hbu with
      tenure := t
      breq := w && t.isNone && !s.hbu.gap && !s.hbu.breqHold && s.hbu.masterEn && atLevel2 s } }

/-! ## Host regions and bus faults (R205 to R207) -/

/-- The enabled region that contains an address. -/
def regionOf (a : Nat) (s : State) : Option HostRegion :=
  s.regions.toList.find? fun r => r.en && decide (r.base.toNat ≤ a) && decide (a ≤ r.limit.toNat)

/-- The bytes of a width code. -/
def widthBytes (w : BitVec 2) : Nat := 2 ^ w.toNat

/-- The width in bytes of the cycles at an address: of its region, of the bus outside every region. -/
def widthAt (a : Nat) (s : State) : Nat :=
  widthBytes (match regionOf a s with
    | some r => r.width
    | none => s.restart.straps.width)

/-- The aligned unit that contains an address. -/
def unitAddr (a : Nat) (s : State) : Nat := a / widthAt a s * widthAt a s

/-- A studio's transfers may use the address (R206). -/
def regionAllows (st : Fin 8) (a : Nat) (s : State) : Bool :=
  match regionOf a s with
  | some r => r.mask.getLsbD st.val
  | none => false

/-- Bytes that one cycle moves from an address on, of a run of adjacent bytes: all four lanes, an aligned pair of lanes, or
one lane (R239). -/
def cycleBytes (w a run : Nat) : Nat :=
  if w = 4 && a % 4 = 0 && 4 ≤ run then 4 else if 2 ≤ w && a % 2 = 0 && 2 ≤ run then 2 else 1

/-- How many bytes follow an address that are adjacent to it and to each other. -/
def runAfter : Nat → List Nat → Nat
  | a, b :: t => if b = a + 1 then runAfter b t + 1 else 0
  | _, [] => 0

/-- The cycles of a list of addresses, with their sizes; `left` bounds a cycle by where it starts among them. The first
argument bounds their number. -/
def cyclesFrom (left : Nat → Nat) (s : State) : Nat → Nat → List Nat → List (Nat × Nat)
  | 0, _, _ => []
  | _, _, [] => []
  | f + 1, k, a :: t =>
    let n := cycleBytes (widthAt a s) a (min (left k) (runAfter a t + 1))
    (a, n) :: cyclesFrom left s f (k + n) ((a :: t).drop n)

/-- Bytes of a side's element from byte k on: an element of a LOOPS side has cycles of its own (R243). -/
def Side.left (d : Side) (k : Nat) : Nat :=
  match d with
  | .loops _ l => l.esz - k % l.esz
  | .flat _ | .list _ _ _ | .fill _ | .device => 4

/-- Read cycles of addresses, of which the first belongs to byte k of a side. -/
def readCycles (d : Side) (k : Nat) (l : List Nat) (s : State) : List MCycle :=
  (cyclesFrom d.left s l.length k l).map fun c => ⟨c.1, c.2, none⟩

/-- Write cycles of cells, cut as read cycles are. -/
def putCycles : List (Nat × Nat) → List Byte → List MCycle
  | [], _ => []
  | (a, n) :: t, l => ⟨a, n, some (l.take n)⟩ :: putCycles t (l.drop n)

/-- Write cycles of addresses with their bytes. -/
def writeCycles (d : Side) (k : Nat) (l : List Nat) (data : List Byte) (s : State) : List MCycle :=
  putCycles (cyclesFrom d.left s l.length k l) data

/-- Write cycles of a group of cells that no other byte shares (R248). -/
def groupCycles (l : List Host.Cell) (s : State) : List MCycle :=
  writeCycles .device 0 (l.map (·.1)) (l.map (·.2)) s

/-- The channel's access is under way. -/
def accessing (c : Fin 16) (s : State) : Bool :=
  match s.hbu.access with
  | some a => a.chan == c
  | none => false

/-- Bits of HB_STAT[15:6]. -/
def hbRegionMiss : Nat := 0
def hbSelf : Nat := 1
def hbGnt : Nat := 2
def hbRdy : Nat := 3
def hbEarly : Nat := 4
def hbPio : Nat := 5
def hbMbx : Nat := 6
def hbReserved : Nat := 7
def hbUnaligned : Nat := 8
def hbNarrow : Nat := 9

/-- A flag of HB_STAT is set. -/
def hbFlag (b : Nat) (s : State) : State :=
  { s with hbu := { s.hbu with flags := s.hbu.flags ||| BitVec.ofNat 10 (1 <<< b) } }

/-- The note and the flag of a miss (R207). -/
def noteMiss (st : Fin 8) (a : Nat) (s : State) : State :=
  hbFlag hbRegionMiss (logRec .regionMiss (BitVec.ofNat 8 st.val :: leBytes 4 a) s)

/-- The note and the flag of a cycle that ended in a bus fault (R207). -/
def noteBus (detail : Byte) (addr : Nat) (s : State) : State :=
  if detail == dtRdyTimeout then hbFlag hbRdy (logRec .rdyTimeout (leBytes 4 addr) s)
  else if detail == dtSelfAccess then hbFlag hbSelf (logRec .selfAccess (leBytes 4 addr) s)
  else s

/-! ## The end of transfers (R248 to R254) -/

/-- The channel is free again: IDLE, or DISABLED when it was stopping (R255, R258). -/
def chanFree (c : Fin 16) (s : State) : State :=
  let x := chanGet c s
  chanPut c { x with cur := none, look := false, state := if x.state == .stopping then .disabled else .idle } s

/-- A transfer of the queue engine or the Palette has ended well on its channel. -/
def xferEnd (c : Fin 16) (x : Xfer) (s : State) : State :=
  let k := chanGet c s
  busRefresh (chanFree c (chanPut c { k with lastStatus := stOk, lastDetail := 0, doneCount := ctrInc k.doneCount }
    (descGive x s)))

/-- The DMA_FAULT note of a transfer that ends other than OK, and FAULT_SEEN (R253). -/
def noteFault (c : Fin 16) (status detail : Byte) (s : State) : State :=
  let k := chanPut c { chanGet c s with lastStatus := status, lastDetail := detail } s
  let s := logRec .dmaFault ([BitVec.ofNat 8 c.val, status, detail] ++ leBytes 4 (chanGet c k).faultAddr.toNat) k
  { s with dma := { s.dma with faultSeen := true } }

/-- A channel enters HALTED: its studio's DMA fault bit is raised (R252); one that is stopping goes DISABLED (R255). -/
def chanHalt (c : Fin 16) (s : State) : State :=
  let k := chanGet c s
  if k.state == .stopping then chanPut c { k with cur := none, look := false, state := .disabled } s
  else sirqSet (if k.user == userSoft then k.studio else 0) sirqDmaFault
    (chanPut c { k with cur := none, look := false, state := .halted } s)

/-- The queues that write their completions to the ring of a command's completion (R289). -/
def ringWriters (x : Slot) (s : State) : List (Fin 32) :=
  let q := sqGet x.sq s
  if q.cmode then [x.sq]
  else (List.finRange 32).filter fun i =>
    sqStudio i == sqStudio x.sq && !(sqGet i s).cmode && (sqGet i s).cqSel == q.cqSel

/-- A command leaves its CMD_SLOT, and its queue counts it no longer; a DRAINING queue without commands becomes
DISABLED (R269, R274). -/
def slotFree (i : Nat) (s : State) : State :=
  match slotGet i s with
  | none => s
  | some x =>
    let s := poolGive pCmdSlot (some (sqStudio x.sq)) 1
      { s with queues := { s.queues with slots := kdel i s.queues.slots } }
    let q := sqGet x.sq s
    let q := { q with outstanding := q.outstanding - 1 }
    let s := if q.state == .draining && q.outstanding == 0 then
        whistleBreak x.sq (sqPut x.sq { q with state := .disabled } s)
      else sqPut x.sq q s
    if q.cmode then s
    else
      let c := sqCq x.sq s
      cqPut c { cqGet c s with reserved := (cqGet c s).reserved - 1 } s

/-- A completion write faults (R289): its queues freeze with cause 1, its status is kept, and its CMD_SLOT returns. -/
def completionFault (i : Nat) (addr : Nat) (s : State) : State :=
  match slotGet i s with
  | none => s
  | some x =>
    let st := sqStudio x.sq
    let s := logAs .queueCplFault .stopStudio (some st)
      ([BitVec.ofNat 8 x.sq.val] ++ leBytes 2 x.idx ++ [x.status, x.detail] ++ leBytes 4 addr) s
    let s := (ringWriters x s).foldl (fun s q =>
      if (sqGet q s).state == .running then freezeQueue q { x with sq := q } none true s
      else sqPut q { sqGet q s with lastStatus := x.status, lastDetail := x.detail } s) s
    slotFree i s

/-- A transfer ends on its channel with a status other than OK (R253). Of a descriptor whose own read faults, TAG is a free
value and the bits IRQ and STOP count as 0 (log entry 111). -/
def xferFault (c : Fin 16) (status detail : Byte) (s : State) : State :=
  let k := chanGet c s
  match k.cur with
  | none => s
  | some x =>
    let s := noteFault c status detail s
    match x.kind with
    | .fetch i =>
      let s := busRefresh (chanFree c (descGive x s))
      (match slotGet i s with
      | none => s
      | some y => slotPut i { y with bytes := [], status := status, detail := detail } s)
    | .data i _ =>
      let s := busRefresh (chanFree c (descGive x s))
      (match slotGet i s with
      | none => s
      | some y =>
        let res := match y.cmd with
          | some m => if m.op == .read then y.moved else 0
          | none => 0
        decideCmd i status detail (BitVec.ofNat 32 res) s)
    | .post i => completionFault i (chanGet c s).faultAddr.toNat (busRefresh (chanFree c (descGive x s)))
    | .desc idx =>
      let (n, s) := freeNext s
      let x := { x with kind := .soft idx (Config.freeWord n 0) false false, ended := some (status, detail) }
      chanPut c { chanGet c s with cur := some x } s
    | .soft _ _ _ _ => chanPut c { chanGet c s with cur := some { x with ended := some (status, detail) } } s
    | .refill layer =>
      let s := busRefresh (chanHalt c (descGive x s))
      let l := s.palette.layers.get (Fin.ofNat 32 layer)
      let ls := s.palette.layers.set (Fin.ofNat 32 layer) { l with refill := none, stopAt := .dmaFault }
      { s with palette := { s.palette with layers := ls } }

/-- A bus fault at an address ends the transfer of a channel (R207, R251). -/
def busFault (c : Fin 16) (detail : Byte) (addr : Nat) (s : State) : State :=
  let s := chanPut c { chanGet c s with faultAddr := BitVec.ofNat 24 (unitAddr addr s) } s
  xferFault c stDmaFault detail s

/-! ## Placement (R234) -/

/-- The lowest-numbered enabled QUEUE channel that is idle. -/
def idleQueueChan (s : State) : Option (Fin 16) :=
  (List.finRange 16).find? fun c =>
    let k := chanGet c s
    k.en && k.user == userQueue && k.state == .idle && k.cur.isNone

/-- A transfer is placed on a channel and leaves the line. -/
def placeOn (c : Fin 16) (x : Xfer) (s : State) : State :=
  let s := chanPut c { chanGet c s with cur := some x, state := .running } s
  busRefresh { s with dma := { s.dma with waiting := s.dma.waiting.erase x } }

/-- DMA_PLACE (R234): the oldest transfer that has its DMA_DESC unit takes the lowest idle QUEUE channel. One that waited
for its unit keeps the place of its request (DESIGN CHOICE, log entry 113: R237 makes no transfer before its unit, R234
holds them in the order of creation). -/
def execDmaPlace (s : State) : Out :=
  .next (onlyIf (unitsRun s) (fun s => match s.dma.waiting.find? (·.hasDesc), idleQueueChan s with
    | some x, some c => placeOn c x s
    | _, _ => s) s)

/-! ## Software channels (R244 to R248) -/

/-- Step 1 of R246 is due: the read of the unit that holds the OWN bit of slot NEXT_IDX. -/
def softLook (c : Fin 16) (s : State) : State :=
  let k := chanGet c s
  busRefresh (chanPut c { k with look := true, state := if k.state == .halted then .idle else k.state } s)

/-- A kick (R247): it acts by the channel's state. One of a HALTED PALETTE channel makes it IDLE (DESIGN CHOICE, log entry
112: R247 gives step 1 of R246, which only a SOFT channel has). -/
def kick (c : Fin 16) (s : State) : State :=
  let k := chanGet c s
  match k.state with
  | .idle | .polling => if k.user == userSoft && k.en then softLook c s else s
  | .halted => if k.user == userSoft then softLook c s else chanPut c { k with state := .idle } s
  | .disabled | .running | .stopping => s

/-- Every channel named by a mask is kicked. -/
def kickAll (mask : Half) (s : State) : State :=
  (List.finRange 16).foldl (fun s c => if mask.getLsbD c.val then kick c s else s) s

/-- DMA_GCTRL.EN takes a value (R257). -/
def dmaEnable (b : Bool) (s : State) : State := busRefresh { s with dma := { s.dma with en := b } }

/-- DMA_GCTRL as a register write applies it: EN with lane 3, KICK with both lanes that it touches (R147, R259). -/
def dmaGctrlWrite (lanes : Lanes) (data : Word) (s : State) : State :=
  let s := if lane lanes 3 then dmaEnable (bit data 31) s else s
  onlyIf (unitsRun s && lane lanes 0 && lane lanes 1) (kickAll (data.truncate 16)) s

/-- DMA_POLL_TIMER (R246): a polling channel reads the OWN byte of its next slot again. -/
def execDmaPollTimer (c : Fin 16) (s : State) : Out :=
  .next (onlyIf (unitsRun s && (chanGet c s).state == .polling && !(chanGet c s).look) (softLook c) s)

/-! ## Tenure (R202, R204, R207) -/

/-- BUS_GRANTED (R202): HB_BGNT_N low and HB_BUSY_N high have been sampled twice. -/
def execBusGranted (s : State) : Out :=
  .next (onlyIf (unitsRun s && s.hbu.breq && s.hbu.masterEn) (fun s =>
    { s with hbu := { s.hbu with gnt := true, busyIn := false, breq := false, tenure := some 0 } }) s)

/-- GRANT_WITHDRAWN (R204): the tenure ends after the present cycle; HB_BREQ_N is pulled low again if work remains. -/
def execGrantWithdrawn (s : State) : Out :=
  .next (onlyIf (running s) (fun s =>
    busRefresh { s with hbu := { s.hbu with gnt := false, tenure := none } }) s)

/-- A cycle of the tenure has run (R204): after 16 × TENURE_MAX of them the tenure ends, and the HBU waits its release
gap. -/
def tenureCycle (s : State) : State :=
  match s.hbu.tenure with
  | none => s
  | some n =>
    if s.hbu.tenureMax ≠ 0 && 16 * s.hbu.tenureMax.toNat ≤ n + 1 then
      { s with hbu := { s.hbu with tenure := none, gap := s.hbu.releaseGap != 0 } }
    else { s with hbu := { s.hbu with tenure := some (n + 1) } }

/-- RELEASE_GAP_EXPIRY (R204). -/
def execReleaseGapExpiry (s : State) : Out :=
  .next (onlyIf (running s) (fun s => busRefresh { s with hbu := { s.hbu with gap := false } }) s)

/-- The channels whose transfers wait for the bus. -/
def waitingChans (s : State) : List (Fin 16) :=
  (List.finRange 16).filter fun c => accessing c s || (chanGet c s).wantsBus

end Sys2Proof.Machine
end

