-- ==== Sys2Proof/Machine/Queue.lean ====
section
/-! DEFINITION. The queue engine: doorbells, picks, the ordered checks of a command, lock requests and grants, SQ_RESUME,
completions and their coalescing (R225, R264 to R313). -/

namespace Sys2Proof.Machine

/-! ## Pointers -/

/-- Slots of a queue (R264). -/
def depthOf (log2 : BitVec 4) : Nat := 2 ^ log2.toNat

/-- (x − y) mod depth. -/
def ringSub (x y depth : Nat) : Nat := (x + depth - y) % depth

/-- Free record slots of a completion queue that no fetched command has reserved (R272). -/
def Cq.room (c : Cq) : Nat := depthOf c.depthLog2 - 1 - ringSub c.tail c.head (depthOf c.depthLog2) - c.reserved

/-! ## Doorbells (R270, R271) -/

/-- The note of a doorbell that changes nothing. -/
def doorbellBad (q : Fin 32) (off : Nat) (data : Word) (s : State) : State :=
  let st := sqStudio q
  logRec .doorbellBad (BitVec.ofNat 8 st.val :: leBytes 2 (0x200 * st.val + off + 4 * (q.val % 4))
    ++ leBytes 4 data.toNat) s

/-- An applied write of SQ_TAIL (R270). -/
def sqTail (q : Fin 32) (data : Word) (s : State) : State :=
  let x := sqGet q s
  let d := depthOf x.depthLog2
  let new := bits data 9 0
  if (x.state == .running || x.state == .frozen) && decide (new < d) && decide (ringSub x.tail x.head d ≤ ringSub new x.head d)
  then sqPut q { x with tail := new } s
  else doorbellBad q 0 data s

/-- An applied write of CQ_HEAD (R271). -/
def cqHead (q : Fin 32) (data : Word) (s : State) : State :=
  let x := cqGet q s
  let d := depthOf x.depthLog2
  let new := bits data 9 0
  if x.run && decide (new < d) && decide (ringSub new x.head d ≤ ringSub x.tail x.head d) then
    cqPut q { x with head := new } s
  else doorbellBad q 0x10 data s

/-- Doorbells act at LEVEL2. -/
def queuesRun (s : State) : Bool := unitsRun s && atLevel2 s

/-- SQ_TAIL_DOORBELL (R270). -/
def execSqTailDoorbell (q : Fin 32) (data : Word) (s : State) : Out := .next (onlyIf (queuesRun s) (sqTail q data) s)

/-- CQ_HEAD_DOORBELL (R271). -/
def execCqHeadDoorbell (q : Fin 32) (data : Word) (s : State) : Out := .next (onlyIf (queuesRun s) (cqHead q data) s)

/-! ## Picks (R272) -/

/-- The queues that a WHISTLE in a slot covers: its own, and those of its mask that are not DISABLED (R225). -/
def whistleCovers (x : Slot) (c : Cmd) (q : Fin 32) (s : State) : Bool :=
  q == x.sq || (sqStudio q == sqStudio x.sq && c.qmask.getLsbD (q.val % 4) && (sqGet q s).state != .disabled)

/-- A WHISTLE holds the queue until the WHISTLE's own completion is posted: the queue is its own, or is covered and its
tail is still to be recorded, or its recorded tail has been reached (R225, R226). -/
def whistleHolds (q : Fin 32) (s : State) : Bool :=
  s.queues.slots.any fun (_, x) => match x.cmd with
    | none => false
    | some c => c.op == .whistle && (match x.stage with
      | .ready => whistleCovers x c q s
      | .waiting | .done | .behind => x.sq == q || x.tails.any fun t => t.1 == q && t.2 == (sqGet q s).fetch
      | .fetching | .discarding | .lockWait | .pressed | .active | .held => false)

/-- A WRITE of the queue is held by back-pressure (R273). -/
def pressed (q : Fin 32) (s : State) : Bool := s.queues.slots.any fun (_, x) => x.sq == q && x.stage == .pressed

/-- Fetches in flight. -/
def fetching (s : State) : Nat :=
  (s.queues.slots.filter fun (_, x) => x.stage == .fetching || x.stage == .discarding).length

/-- The queue is eligible for a pick (R272); a FROZEN one only while it discards to its tail (R309). -/
def pickable (s : State) (q : Fin 32) : Bool :=
  let x := sqGet q s
  let st := sqStudio q
  (match x.state with
    | .running => x.fetch != x.tail
    | .frozen => x.discardTo.isSome && x.discardTo != some x.fetch
    | .disabled | .draining => false)
  && (s.studios.get st).state == .active && poolFits pCmdSlot (some st) 1 s
  && (x.cmode || decide (0 < (cqGet (sqCq q s) s).room)) && !whistleHolds q s && !pressed q s

/-- The queue of the next pick: the first eligible one after the queue picked last (R272). -/
def nextPick (s : State) : Option (Fin 32) :=
  ((List.finRange 32).map fun i => s.queues.lastPick + 1 + i).find? (pickable s)

/-- The lowest FREE CMD_SLOT. -/
def freeSlot (s : State) : Option Nat := (List.range 256).find? fun i => (slotGet i s).isNone

/-- FETCH passes a slot; with it a discard ends at its tail, and in scoreboard mode HEAD follows (R287, R309). -/
def Sq.advance (x : Sq) : Sq :=
  let f := (x.fetch + 1) % depthOf x.depthLog2
  let x := { x with fetch := f, outstanding := x.outstanding + 1, fetched := ctrInc x.fetched,
                    head := if x.cmode then x.head else f }
  if x.discardTo == some f then { x with discardTo := none, state := if x.state == .frozen then .running else x.state }
  else x

/-- A pick: a CMD_SLOT, a reserved completion slot, and the fetch of 64 bytes (R272, R274). -/
def pick (q : Fin 32) (i : Nat) (s : State) : State :=
  let x := sqGet q s
  let st := sqStudio q
  let slot : Slot := { sq := q, order := s.queues.nextPick, idx := x.fetch,
                       stage := if x.discardTo.isSome then .discarding else .fetching }
  let s := poolTake pCmdSlot (some st) 1 s
  let s := slotPut i slot (sqPut q x.advance s)
  let s := { s with queues := { s.queues with lastPick := q, nextPick := s.queues.nextPick + 1 } }
  let s := if x.cmode then s
    else
      let c := sqCq q s
      cqPut c { cqGet c s with reserved := (cqGet c s).reserved + 1 } s
  if x.loc then s else xferNew (.fetch i) st (.flat (x.base.toNat + 64 * x.fetch)) .device 64 s

/-- QUEUE_PICK (R272). -/
def execQueuePick (s : State) : Out :=
  .next (onlyIf (queuesRun s && decide (fetching s < 4)) (fun s => match nextPick s, freeSlot s with
    | some q, some i => pick q i s
    | _, _ => s) s)

/-! ## The command (R275, R276) -/

/-- The opcode that a byte names (R279). -/
def opcodeOf (b : Byte) : Option Opcode :=
  match b.toNat with
  | 0 => some .nop | 1 => some .read | 2 => some .write | 3 => some .verify | 4 => some .trim | 5 => some .flush
  | 6 => some .whistle | _ => none

/-- The opcode names a volume. -/
def Opcode.onVolume : Opcode → Bool
  | .read | .write | .verify | .trim | .flush => true
  | .nop | .whistle => false

/-- The range of NLB (R279). -/
def Opcode.nlb : Opcode → Nat × Nat
  | .nop | .flush | .whistle => (0, 0)
  | .read | .write => (1, 2048)
  | .verify => (1, 65536)
  | .trim => (1, 2 ^ 32 - 1)

/-- READ and WRITE move data. -/
def Opcode.moves : Opcode → Bool
  | .read | .write => true
  | .nop | .verify | .trim | .flush | .whistle => false

/-- DPTR codes (R275). -/
def dptrOf (n : Nat) : Dptr :=
  match n with
  | 0 => .flat | 1 => .list | 2 => .loops | _ => .fifo

/-- Bytes of a range are all 0. -/
def zeros (l : List Byte) (at' n : Nat) : Bool := (takeAt l at' n).all (· == 0)

/-- Check 3 of R276 (DESIGN CHOICE, log entry 107: byte 62, which the part itself writes back, is ignored on fetch as
RESULT is; R275 says so for RESULT alone): the first byte of the first field that is reserved and not 0, out of range or not allowed. -/
def badField (b : List Byte) (op : Opcode) : Option Nat :=
  let byte (i : Nat) : Nat := (b.getD i 0).toNat
  let dp := dptrOf (byte 1 % 4)
  let ranged := op.onVolume && op != .flush
  let volMask := if op.onVolume then 64 else if op == .whistle then 16 else 1
  let nlb := leField b 16 4
  let da := leField b 24 4
  [ (byte 1 % 128 / 4 ≠ 0 || (dp != .flat && !op.moves), 1), (volMask ≤ byte 4, 4), (!zeros b 5 3, 5),
    (!ranged && !zeros b 8 6, 8), (!zeros b 14 2, 14), (nlb < op.nlb.1 || op.nlb.2 < nlb, 16), (!zeros b 20 4, 20),
    (2 ^ 24 ≤ da || (da ≠ 0 && (!op.moves || dp == .fifo)), 24), (!zeros b 28 4, 28),
    (if dp == .loops then decide (2 < byte 38) || byte 39 ≠ 0 else !zeros b 32 16, 32), (!zeros b 48 8, 48),
    (byte 63 % 128 ≠ 0, 63) ].findSome? fun x => if x.1 then some x.2 else none

/-- The command that 64 bytes spell (R275). -/
def cmdOf (b : List Byte) (op : Opcode) : Cmd :=
  { op := op, urgent := 128 ≤ (b.getD 1 0).toNat, dptr := dptrOf ((b.getD 1 0).toNat % 4),
    cid := BitVec.ofNat 16 (leField b 2 2), volume := Fin.ofNat 64 (leField b 4 1),
    qmask := BitVec.ofNat 4 (leField b 4 1), slba := leField b 8 6, nlb := leField b 16 4, daddr := leField b 24 3,
    loops := loopSpecOf (b.drop 32) }

/-- The host side of a command's data (R277). -/
def Cmd.side (c : Cmd) : Side :=
  match c.dptr with
  | .flat => .flat c.daddr
  | .list => .list c.daddr [] 0
  | .loops => .loops c.daddr c.loops
  | .fifo => .device

/-- Check 4 of R276: the volume is the studio's (R552). -/
def ownerCheck (c : Cmd) (st : Fin 8) (s : State) : Option (Byte × Byte) :=
  let v := volGet c.volume s
  if c.op.onVolume && (v.state == .gone || v.owner != st) then some (stNotOwner, 0xFF) else none

/-- Check 6 of R276, by the matrix of R552 and R553. -/
def stateCheck (c : Cmd) (s : State) : Option (Byte × Byte) :=
  let v := volGet c.volume s
  if !c.op.onVolume then none
  else if v.state == .stopped then some (stVolumeStopped, BitVec.ofNat 8 c.volume.val)
  else if (arrGet v.array s).state == .offline then some (stArrayOffline, BitVec.ofNat 8 v.array.val)
  else if s.power.entry == some .standby && (c.op == .write || c.op == .trim || c.op == .verify) then
    some (stStateRefused, 0xFF)
  else none

/-- Check 5 of R276. -/
def rangeCheck (c : Cmd) (s : State) : Option (Byte × Byte) :=
  if c.op.onVolume && decide ((volGet c.volume s).size < c.slba + c.nlb) then some (stOutOfRange, 0xFF) else none

/-- Check 7 of R276: the pattern of the data side. -/
def patternCheck (c : Cmd) : Option (Byte × Byte) :=
  if c.op.moves && c.dptr != .fifo then
    (c.side.check (c.nlb * 512)).map fun (st, d, mismatch) => (st, if mismatch then 32 else d)
  else none

/-- The checks of R276 in their order: the command, or the first failure. -/
def checkBytes (b : List Byte) (st : Fin 8) (s : State) : Cmd ⊕ (Byte × Byte) :=
  if (b.getD 63 0).toNat < 128 then .inr (stBadField, 63)
  else match opcodeOf (b.getD 0 0) with
    | none => .inr (stBadOpcode, 0)
    | some op => match badField b op with
      | some n => .inr (stBadField, BitVec.ofNat 8 n)
      | none =>
        let c := cmdOf b op
        match ((((ownerCheck c st s).orElse fun _ => rangeCheck c s).orElse fun _ => stateCheck c s).orElse
            fun _ => patternCheck c) with
        | some e => .inr e
        | none => .inl c

/-! ## Lock requests (R273, R294, R376) -/

/-- Journal pages that a command reserves with its lock request (R376). -/
def pageNeed (c : Cmd) (s : State) : Nat :=
  match c.op with
  | .write => (tilesOf (cmdStart c s) c.nlb).length
  | .trim => 1
  | .nop | .read | .verify | .flush | .whistle => 0

/-- The command waits as back-pressure (R273, R376). -/
def mustPress (c : Cmd) (st : Fin 8) (s : State) : Bool :=
  (c.op == .write && pauseReached s) || (pageNeed c s != 0 && !poolFits pPage (some st) (pageNeed c s) s)

/-- A command's lock request, with its page reservation. -/
def cmdLock (i : Nat) (x : Slot) (c : Cmd) (s : State) : State :=
  let st := sqStudio x.sq
  let n := pageNeed c s
  let s := if n = 0 then s else forcedFlush (forcedUpdate (poolTake pPage (some st) n s))
  let l : Lock :=
    { excl := c.op == .write || c.op == .trim, studio := some st, array := cmdArray c s, start := cmdStart c s,
      count := c.nlb, sq := x.sq.val, kind := .command, work := .cmd i }
  lockRequest l (slotPut i { x with stage := .lockWait, reserved := n, turn := s.queues.nextPlace } s)

/-- CSEQ of the records of a volume whose completions have been posted (R284). -/
def coveredBy (v : Fin 64) (s : State) : List Word :=
  (liveRecs s).filterMap fun (_, r) => if r.kind != .parity && r.volume == v && r.posted then some r.cseq else none

/-- A command that has passed its checks goes to its lock, to back-pressure, or straight to its effect. -/
def dispatch (i : Nat) (x : Slot) (c : Cmd) (s : State) : State :=
  let x := { x with cmd := some c, cid := c.cid, urgent := c.urgent }
  match c.op with
  | .nop | .whistle => slotPut i { x with stage := .ready } s
  | .flush => slotPut i { x with stage := .ready, covers := coveredBy c.volume s } s
  | .read | .verify => cmdLock i x c s
  | .write | .trim =>
    if mustPress c (sqStudio x.sq) s then slotPut i { x with stage := .pressed } s else cmdLock i x c s

/-- The checks of R276 run over a command's bytes. -/
def checkCmd (i : Nat) (x : Slot) (b : List Byte) (s : State) : State :=
  let x := { x with bytes := b, cid := BitVec.ofNat 16 (leField b 2 2) }
  match checkBytes b (sqStudio x.sq) s with
  | .inl c => dispatch i x c s
  | .inr (st, d) => failCmd i st d (slotPut i x s)

/-! ## Fetched commands (R276, R309) -/

/-- The command lies behind a WHISTLE of its own queue whose completion is not posted (R226), or behind a command of its
own queue that back-pressure holds (R273). -/
def queueBehind (x : Slot) (s : State) : Bool :=
  s.queues.slots.any fun (_, y) => y.sq == x.sq && decide (y.order < x.order) && (match y.cmd with
    | none => false
    | some c => y.stage == .pressed || (c.op == .whistle && y.stage != .held))

/-- The command may take its place: no earlier pick is still being fetched, but for those that wait behind a command of
their own queue (R273). -/
def fetchTurn (x : Slot) (s : State) : Bool :=
  !queueBehind x s && !(s.queues.slots.any fun (_, y) =>
    (y.stage == .fetching || y.stage == .discarding) && decide (y.order < x.order) && !queueBehind y s)

/-- The 64 bytes of a fetched slot, once its fetch has ended: from queue-ring SRAM, or as its transfer delivered
them; a fetch that failed gives its status and detail. -/
def fetchedBytes (x : Slot) (s : State) : Option (List Byte ⊕ (Byte × Byte)) :=
  let q := sqGet x.sq s
  if q.loc then some (.inl (memReadList s.hbu.ringSram (q.base.toNat + 64 * x.idx) 64))
  else if x.bytes.length = 64 then some (.inl x.bytes)
  else if x.status ≠ 0 then some (.inr (x.status, x.detail))
  else none

/-- A fetch has ended: the checks follow, or the failure completes; a discarded slot is completed ABORTED. -/
def commandFetched (i : Nat) (s : State) : State :=
  match slotGet i s with
  | none => s
  | some x =>
    if fetchTurn x s then
      match x.stage, fetchedBytes x s with
      | .fetching, some (.inl b) => checkCmd i x b s
      | .fetching, some (.inr (st, d)) => failCmd i st d (slotPut i { x with cid := 0xFFFF } s)
      | .discarding, some (.inl b) =>
        failCmd i stAborted 0x09 (slotPut i { x with bytes := b, cid := BitVec.ofNat 16 (leField b 2 2) } s)
      | .discarding, some (.inr _) => failCmd i stAborted 0x09 (slotPut i { x with cid := 0xFFFF } s)
      | _, _ => s
    else s

/-- COMMAND_FETCHED (R276): the command in a CMD_SLOT passes through the ordered checks. -/
def execCommandFetched (i : Nat) (s : State) : Out := .next (onlyIf (queuesRun s) (commandFetched i) s)

/-- WRITE_PAUSE_RELEASE (R273): the wait of a held WRITE ends, and it takes its place in fetch order now. -/
def execWritePauseRelease (i : Nat) (s : State) : Out :=
  .next (onlyIf (queuesRun s) (fun s => match slotGet i s with
    | none => s
    | some x => match x.cmd with
      | none => s
      | some c => if x.stage == .pressed && !mustPress c (sqStudio x.sq) s then cmdLock i x c s else s) s)

/-- What follows a granted lock: a command passes checks 4 and 6 again (R298); the work of any other lock goes on in
its own step. -/
def granted (l : Lock) (s : State) : State :=
  match l.kind, l.work with
  | .command, .cmd i => (match slotGet i s with
    | none => s
    | some x => match x.cmd with
      | none => s
      | some c => match (ownerCheck c (sqStudio x.sq) s).orElse fun _ => stateCheck c s with
        | some (st, d) => failCmd i st d s
        | none => slotPut i { x with stage := .ready } s)
  | .flush, .volTrim v => volTrimNext v (volGet v s).base s
  | _, _ => s

/-- LOCK_GRANT (R296): the first request of the line that nothing holds back is granted. -/
def execLockGrant (s : State) : Out :=
  .next (onlyIf (unitsRun s) (fun s => match grantable s with
    | none => s
    | some l => granted l (lockTake l s)) s)

/-! ## SQ_RESUME (R308 to R311) -/

/-- The held completion of a FROZEN queue is posted with its held status. -/
def postHeld (q : Fin 32) (s : State) : State :=
  match (sqGet q s).heldSlot with
  | none => s
  | some i =>
    let s := sqPut q { sqGet q s with heldSlot := none } s
    match slotGet i s with
    | none => s
    | some x => cmdDone i x s

/-- The held command runs again from its held bytes, in a new place of fetch order (R310). -/
def retryHeld (q : Fin 32) (s : State) : State :=
  match (sqGet q s).heldSlot with
  | none => s
  | some i =>
    let s := sqPut q { sqGet q s with heldSlot := none } s
    match slotGet i s with
    | none => s
    | some x =>
      let y : Slot := { sq := x.sq, order := s.queues.nextPick, idx := x.idx, bytes := x.bytes }
      checkCmd i y x.bytes (slotPut i y { s with queues := { s.queues with nextPick := s.queues.nextPick + 1 } })

/-- A queue becomes RUNNING. -/
def sqRun (q : Fin 32) (s : State) : State := sqPut q { sqGet q s with state := .running, discardTo := none } s

/-- An applied write of SQ_RESUME (R308, R309). -/
def sqResume (q : Fin 32) (data : Word) (s : State) : State :=
  let x := sqGet q s
  let act := bits data 1 0
  if x.state == .frozen && act != 0 && bits data 25 16 == x.freezeSlot && bits data 31 26 == 0 && bits data 15 2 == 0 then
    match act with
    | 1 => postHeld q (sqRun q s)
    | 2 => retryHeld q (sqRun q s)
    | _ =>
      let s := postHeld q s
      let x := sqGet q s
      if x.fetch == x.tail then sqRun q s else sqPut q { x with discardTo := some x.tail } s
  else doorbellBad q 0x20 data s

/-- The value of an SQ_RESUME write. -/
def resumeWord (slot : BitVec 10) (act : Nat) : Word := fld 16 slot.toNat ||| fld 0 act

/-- SQ_RESUME_NEXT (R309). -/
def execSqResumeNext (q : Fin 32) (slot : BitVec 10) (s : State) : Out :=
  .next (onlyIf (queuesRun s) (sqResume q (resumeWord slot 1)) s)

/-- SQ_RESUME_RETRY (R310). -/
def execSqResumeRetry (q : Fin 32) (slot : BitVec 10) (s : State) : Out :=
  .next (onlyIf (queuesRun s) (sqResume q (resumeWord slot 2)) s)

/-- SQ_RESUME_DISCARD (R309). -/
def execSqResumeDiscard (q : Fin 32) (slot : BitVec 10) (s : State) : Out :=
  .next (onlyIf (queuesRun s) (sqResume q (resumeWord slot 3)) s)

/-! ## Completions (R286 to R292) -/

/-- The bytes of a scoreboard record (R287). -/
def recordBytes (x : Slot) (head : Nat) (phase : Bool) : List Byte :=
  leBytes 4 x.result.toNat ++ leBytes 2 x.cid.toNat ++ leBytes 2 head
    ++ [BitVec.ofNat 8 x.sq.val, x.status, x.detail, 0] ++ leBytes 2 x.idx ++ [0, if phase then 0x80 else 0]

/-- The bytes 56 to 63 of a written-back command (R286). -/
def writeBackBytes (x : Slot) : List Byte := leBytes 4 x.result.toNat ++ [x.status, x.detail, 0, 0]

/-- A completed ring slot in write-back mode: HEAD is the first slot whose completion is not complete (R286). -/
def Sq.complete (x : Sq) (idx : Nat) : Sq :=
  let d := depthOf x.depthLog2
  let done := idx :: x.doneAhead
  let n := ((List.range d).find? fun k => !done.contains ((x.head + k) % d)).getD d
  let passed := (List.range n).map fun k => (x.head + k) % d
  { x with head := (x.head + n) % d, doneAhead := done.filter fun i => !passed.contains i }

/-- The studio's completion bit is clear. -/
def cplClear (st : Fin 8) (s : State) : Bool := !(aliasGet st s).irqStat.getLsbD sirqCpl

/-- The studio's pending count and timer. -/
def pendPut (st : Fin 8) (n : Nat) (t : Bool) (s : State) : State :=
  { s with queues := { s.queues with pend := s.queues.pend.set st n, timer := s.queues.timer.set st t } }

/-- A completion counts toward its studio's interrupt (R291, R292). A timer that runs is cancelled when the bit is set
before it expires (DESIGN CHOICE, log entry 108: R291 does not say). -/
def coalesce (st : Fin 8) (now : Bool) (s : State) : State :=
  if cplClear st s then
    let c := (s.studios.get st).cfg
    let n := s.queues.pend.get st + 1
    if now || decide (max 1 c.coalCount.toNat ≤ n) then sirqSet st sirqCpl (pendPut st 0 false s)
    else pendPut st n (s.queues.timer.get st || (n == 1 && c.coalTime != 0)) s
  else s

/-- A queue's held completion has been posted, so that the completions behind it follow (R311). -/
def heldPosted (i : Nat) (q : Fin 32) (s : State) : State :=
  if (sqGet q s).first == some i then
    let s := sqPut q { sqGet q s with first := none } s
    (s.queues.slots.filter fun (_, y) => y.sq == q && y.stage == .behind).foldl (fun s (j, y) => cmdDone j y s) s
  else s

/-- The completion is complete (R248): the queue's words (those of a FROZEN queue keep the held command's status, R305),
the records it makes posted, the CMD_SLOT, the interrupt. -/
def completed (i : Nat) (x : Slot) (s : State) : State :=
  let q := sqGet x.sq s
  let q := if q.state == .frozen then q else { q with lastStatus := x.status, lastDetail := x.detail }
  let s := heldPosted i x.sq (sqPut x.sq (if q.cmode then q.complete x.idx else q) s)
  let recs := s.skb.recs.map fun (j, r) =>
    if !r.posted && r.order == x.order && r.kind != .parity && !r.retired then (j, { r with posted := true }) else (j, r)
  let s := { s with skb := { s.skb with recs := recs } }
  let counts := if q.cmode then q.wbIen else (cqGet (sqCq x.sq s) s).ien
  let s := slotFree i s
  if counts then coalesce (sqStudio x.sq) (x.urgent || isError x.status) s else s

/-- A record has been written into slot TAIL of a completion queue (R288). -/
def cqAdvance (c : Fin 32) (s : State) : State :=
  let k := cqGet c s
  let t := (k.tail + 1) % depthOf k.depthLog2
  cqPut c { k with tail := t, phase := if t = 0 then !k.phase else k.phase, posted := ctrInc k.posted } s

/-- Where a completion goes: into queue-ring SRAM or not, its address, and its bytes. -/
def postPlace (x : Slot) (s : State) : Bool × Nat × List Byte :=
  let q := sqGet x.sq s
  if q.cmode then (q.loc, q.base.toNat + 64 * x.idx + 56, writeBackBytes x)
  else
    let k := cqGet (sqCq x.sq s) s
    (k.loc, k.base.toNat + 16 * k.tail, recordBytes x q.head k.phase)

/-- The pointers that a written completion moves. -/
def postDone (i : Nat) (x : Slot) (s : State) : State :=
  completed i x (if (sqGet x.sq s).cmode then s else cqAdvance (sqCq x.sq s) s)

/-- The channel that carries the completion of a CMD_SLOT. -/
def postChan (i : Nat) (s : State) : Option (Fin 16) :=
  (List.finRange 16).find? fun c => match (chanGet c s).cur with
    | some x => x.kind == .post i
    | none => false

/-- COALESCE_TIMER_EXPIRY (R291). -/
def execCoalesceTimerExpiry (st : Fin 8) (s : State) : Out :=
  .next (onlyIf (unitsRun s && s.queues.timer.get st) (fun s =>
    let n := s.queues.pend.get st
    let s := pendPut st 0 false s
    if 0 < n && cplClear st s then sirqSet st sirqCpl s else s) s)

/-! ## Enabling and disabling queues (R269, R311) -/

/-- A commit that clears EN on a RUNNING or FROZEN queue: the held completion is posted first, then DRAINING. -/
def sqDisable (q : Fin 32) (s : State) : State :=
  let s := postHeld q (sqPut q { sqGet q s with first := (sqGet q s).heldSlot } s)
  let x := { sqGet q s with en := false, discardTo := none }
  if x.state == .disabled then sqPut q x s
  else if x.outstanding == 0 then whistleBreak q (sqPut q { x with state := .disabled } s)
  else sqPut q { x with state := .draining } s

end Sys2Proof.Machine
end

