-- ==== Sys2Proof/Machine/Commands.lean ====
section
/-! DEFINITION. The effects of the queue commands: NOP, READ, WRITE, VERIFY, TRIM, FLUSH and WHISTLE, with the movement
of their data (R225 to R227, R278 to R285). -/

namespace Sys2Proof.Machine

/-- The command in a CMD_SLOT that stands at a stage, with a given opcode. -/
def cmdAt (i : Nat) (op : Opcode) (stages : List Stage) (s : State) : Option (Slot × Cmd) :=
  match slotGet i s with
  | none => none
  | some x => match x.cmd with
    | none => none
    | some c => if c.op == op && stages.contains x.stage then some (x, c) else none

/-! ## NOP, TRIM, FLUSH, WHISTLE -/

/-- NOP (R285). -/
def nopRun (i : Nat) (s : State) : State :=
  match cmdAt i .nop [.ready] s with
  | none => s
  | some _ => decideCmd i stOk 0 0 s

/-- TRIM (R283, R375): its one record's seal is requested. -/
def trimRun (i : Nat) (s : State) : State :=
  match cmdAt i .trim [.ready] s with
  | none => s
  | some (x, c) => match allocRec s with
    | none => s
    | some (slot, s) =>
      let r : Rec :=
        { kind := .trim, last := true, array := cmdArray c s, cseq := 0, start := cmdStart c s, volume := c.volume,
          studio := sqStudio x.sq, count := c.nlb, stripe := 0, cid := c.cid, sealTick := 0, pages := [],
          order := x.order }
      reqSeal (some i) slot r (slotPut i { x with stage := .active, sealing := true } s)

/-- TRIM. -/
def execTrim (i : Nat) (s : State) : Out := .next (onlyIf (queuesRun s) (trimRun i) s)

/-- FLUSH (R284, R382): the stripes that hold the records it covers are flushed, its TRIMs go on, and it waits. -/
def flushRun (i : Nat) (s : State) : State :=
  match cmdAt i .flush [.ready] s with
  | none => s
  | some (x, _) =>
    (liveRecs s).foldl (fun s (j, r) =>
      if x.covers.contains r.cseq then (if r.kind == .trim then trimApply j s else flushRec r s) else s)
      (slotPut i { x with stage := .waiting } s)

/-- FLUSH. -/
def execFlush (i : Nat) (s : State) : Out := .next (onlyIf (queuesRun s) (flushRun i) s)

/-- FLUSH_COMPLETE (R284): every covered record has retired. -/
def flushComplete (i : Nat) (s : State) : State :=
  match cmdAt i .flush [.waiting] s with
  | none => s
  | some (x, _) => if (liveRecs s).any fun (_, r) => x.covers.contains r.cseq then s else decideCmd i stOk 0 0 s

/-- FLUSH_COMPLETE. -/
def execFlushComplete (i : Nat) (s : State) : Out := .next (onlyIf (queuesRun s) (flushComplete i) s)

/-- The covered queues of a WHISTLE with their tails (R225); in its own queue the tail is the slot after it. -/
def whistleTails (x : Slot) (c : Cmd) (s : State) : List (Fin 32 × Nat) :=
  ((List.finRange 32).filter fun q => whistleCovers x c q s).map fun q =>
      (q, if q == x.sq then (x.idx + 1) % depthOf (sqGet q s).depthLog2 else (sqGet q s).tail)

/-- WHISTLE (R225): the tails of its covered queues are recorded. -/
def whistleRun (i : Nat) (s : State) : State :=
  match cmdAt i .whistle [.ready] s with
  | none => s
  | some (x, c) => slotPut i { x with stage := .waiting, tails := whistleTails x c s } s

/-- WHISTLE_COMMAND. -/
def execWhistleCommand (i : Nat) (s : State) : Out := .next (onlyIf (queuesRun s) (whistleRun i) s)

/-- Every command that the WHISTLE covers and that has been fetched has posted its completion (R226). -/
def whistlePosted (i : Nat) (x : Slot) (s : State) : Bool :=
  !(s.queues.slots.any fun (j, y) => j != i && x.tails.any (·.1 == y.sq) && !(y.sq == x.sq && decide (x.order < y.order)))

/-- WHISTLE_COMPLETE (R225, R227). -/
def whistleComplete (i : Nat) (s : State) : State :=
  match cmdAt i .whistle [.waiting] s with
  | none => s
  | some (x, _) =>
    if whistlePosted i x s then
      if x.wabort then decideCmd i stWhistleAborted 0 0 s
      else if x.tails.all fun t => t.1 == x.sq || (sqGet t.1 s).fetch == t.2 then decideCmd i stOk 0 0 s
      else s
    else s

/-- WHISTLE_COMPLETE. -/
def execWhistleComplete (i : Nat) (s : State) : Out := .next (onlyIf (queuesRun s) (whistleComplete i) s)

/-! ## Data of a WRITE (R372, R378) -/

/-- Bytes put into a sector from a byte offset. -/
def putBytes (x : BitVec 4096) (off : Nat) (l : List Byte) : BitVec 4096 :=
  let m : BitVec 4096 := BitVec.ofNat 4096 (2 ^ (8 * l.length) - 1) <<< (8 * off)
  (x &&& ~~~ m) ||| (BitVec.ofNat 4096 (leNat l) <<< (8 * off))

/-- Bytes of a sector from a byte offset. -/
def getBytes (x : BitVec 4096) (off n : Nat) : List Byte := leBytes n (x.toNat >>> (8 * off))

/-- Pinned FILLING tiles of a command. -/
def fillingPinned (i : Nat) (s : State) : Nat :=
  (s.canvas.tiles.filter fun (_, t) => match t.bind with
    | .filling j _ _ => j == i && 0 < t.pins
    | .array _ _ | .parity _ _ _ | .stream _ _ | .raw _ _ _ | .sum _ _ _ _ | .delay _ => false).length

/-- The FILLING tile of an array tile for a WRITE, bound if need be; none while none can be had: a command pins at most
16 tiles (R435). -/
def fillTile (i : Nat) (x : Slot) (a : Fin 4) (tile : Nat) (s : State) : Option (Nat × Tile × State) :=
  match tileFind (.filling i a tile) s with
  | some (n, t) => some (n, t, s)
  | none =>
    if 16 ≤ fillingPinned i s then none
    else match allocTile x.owner (.filling i a tile) 1 s with
      | none => none
      | some (n, s) => (kget n s.canvas.tiles).map fun t => (n, t, s)

/-- Bytes of a WRITE's data arrive at a position that they do not carry past a sector's end; the tile's page is
requested with its last byte. None while no tile can be had. -/
def writeBytes (i : Nat) (pos : Nat) (l : List Byte) (s : State) : Option State :=
  match cmdAt i .write [.active] s with
  | none => none
  | some (x, c) =>
    let a := cmdArray c s
    let sec := cmdStart c s + pos / 512
    let k : Fin 8 := Fin.ofNat 8 sec
    match fillTile i x a (sec / 8) s with
    | none => none
    | some (n, t, s) =>
      let t := { t with valid := t.valid ||| BitVec.ofNat 8 (2 ^ k.val),
                        data := t.data.set k (putBytes (t.data.get k) (pos % 512) l) }
      let stop := pos + l.length
      let s := tilePut n t (slotPut i { x with moved := stop / 512 } s)
      some (if stop % 512 = 0 && ((sec + 1) % 8 = 0 || stop = 512 * c.nlb) then pageRequest i (sec / 8) s else s)

/-! ## Data of a READ (R280) -/

/-- The payer of a command's reads (R435, R441). -/
def cmdPayer (x : Slot) : Payer := { who := x.owner, cls := .b, studio := sqStudio x.sq }

/-- The sectors of a tile that a READ asks for. -/
def readMask (c : Cmd) (tile : Nat) (s : State) : BitVec 8 :=
  let a := cmdStart c s
  maskOf (a - 8 * tile) (min 8 (a + c.nlb - 8 * tile))

/-- The tile that a READ delivers next. -/
def readTile (x : Slot) (c : Cmd) (s : State) : Nat := (cmdStart c s + x.moved) / 8

/-- The contents of the tile that a READ delivers next. -/
def readNeed (i : Nat) (x : Slot) (c : Cmd) (s : State) : Need × Bool × State :=
  currentTile (cmdPayer x) (.cmd i) (cmdArray c s) (readTile x c s) (readMask c (readTile x c s) s) s

/-- A READ has delivered a tile that was rebuilt from parity: its status will say so (R280). -/
def readRetouched (f : Bool) (x : Slot) : Slot := if f then { x with retouched := true } else x

/-- Bytes of a READ's data at a position, once its tile is there. -/
def readBytes (i : Nat) (pos n : Nat) (s : State) : Option (List Byte) :=
  match cmdAt i .read [.active] s with
  | none => none
  | some (x, c) => match readNeed i x c s with
    | (.got t, _, _) => some (getBytes (t.get (Fin.ofNat 8 (cmdStart c s + pos / 512))) (pos % 512) n)
    | _ => none

/-- A tile that was read for some work stays in canvas memory as a clean copy, or a DIRTY one where the journal covers
part of it; what else the work had read is dropped (R371, R373). -/
def keepTile (w : Work) (a : Fin 4) (tile : Nat) (data : TileData) (s : State) : State :=
  let cov := coverMask (tileCover a tile s)
  let at' := s.canvas.clock
  match tileFind (.array a tile) s, s.canvas.tiles.find? fun (_, t) => Bind.ofWork w t.bind && t.valid == 0xFF with
  | some (n, t), some _ => workDrop w (tilePut n { t with valid := 0xFF, data := data } s)
  | none, some (n, t) =>
    workDrop w (tilePut n { t with bind := .array a tile, data := data, dirty := cov != 0, pins := 0, sealAt := at' } s)
  | _, none => workDrop w s

/-- Bytes of a READ have been delivered up to a position: the tile passed is kept in canvas memory, and at the end the
command's status is decided. -/
def readMoved (i : Nat) (stop : Nat) (s : State) : State :=
  match cmdAt i .read [.active] s with
  | none => s
  | some (x, c) =>
    let (x, s) := if stop % 512 = 0 && ((cmdStart c s + stop / 512) % 8 = 0 || stop = 512 * c.nlb) then
      match readNeed i x c s with
      | (.got t, f, s) =>
        (readRetouched f x, keepTile (.cmd i) (cmdArray c s) (readTile x c s) t s)
      | _ => (x, s)
      else (x, s)
    let s := slotPut i { x with moved := stop / 512 } s
    if stop = 512 * c.nlb then
      decideCmd i (if x.retouched then stOkRetouched else stOk) 0 (BitVec.ofNat 32 c.nlb) s
    else s

/-! ## FIFO commands (R200, R278) -/

/-- The command of the studio's FIFO. -/
def fifoFree (st : Fin 8) (s : State) : Bool := (aliasGet st s).pioCur.isNone

/-- A FIFO command of the studio that is earlier in fetch order has not completed (R273, R278). -/
def fifoBehind (x : Slot) (s : State) : Bool :=
  s.queues.slots.any fun (_, y) => sqStudio y.sq == sqStudio x.sq && decide (y.turn < x.turn) && (match y.cmd with
    | none => false
    | some c => c.op.moves && c.dptr == .fifo && [Stage.lockWait, .ready, .active].contains y.stage)

/-- A FIFO command becomes current (R278). -/
def fifoStart (i : Nat) (x : Slot) (c : Cmd) (s : State) : State :=
  let st := sqStudio x.sq
  aliasPut st { aliasGet st s with pio := [], pioCur := some (i, x.sq.val, c.op == .read, 512 * c.nlb) } s

/-- Bytes of a FIFO READ that its FIFO already holds or has delivered. -/
def fifoPlaced (a : Alias) (c : Cmd) (rem : Nat) : Nat := 512 * c.nlb - rem + a.pio.length

/-- The FIFO is topped up from a READ's tile that is there: at most one tile's bytes (R278). -/
def fifoFill (i : Nat) (s : State) : State :=
  match cmdAt i .read [.active] s with
  | none => s
  | some (x, c) =>
    let st := sqStudio x.sq
    let a := aliasGet st s
    match a.pioCur with
    | some (j, _, true, rem) =>
      if j != i || x.ending.isSome then s
      else
        let pos := fifoPlaced a c rem
        let room := min (2048 - a.pio.length) (512 - pos % 512)
        if 512 * c.nlb ≤ pos || room = 0 then s
        else match readBytes i pos room s with
          | none => s
          | some l =>
            let s := aliasPut st { a with pio := a.pio ++ l } s
            if pos + room = 512 * c.nlb then s else readMoved i (pos + room) s
    | _ => s

/-- A WRITE takes bytes from its FIFO: up to the end of a sector (R278). -/
def fifoTake (i : Nat) (s : State) : State :=
  match cmdAt i .write [.active] s with
  | none => s
  | some (x, c) =>
    let st := sqStudio x.sq
    let a := aliasGet st s
    match a.pioCur with
    | some (j, _, false, rem) =>
      if j != i then s
      else
        let pos := 512 * c.nlb - rem - a.pio.length
        let n := min a.pio.length (512 - pos % 512)
        if n = 0 then s
        else match writeBytes i pos (a.pio.take n) s with
          | none => s
          | some s =>
            let a := aliasGet st s
            aliasPut st { a with pio := a.pio.drop n } s
    | _ => s

/-! ## READ and WRITE -/

/-- A READ or WRITE that holds its lock starts to move its data: a transfer, or its turn at the studio's FIFO. -/
def startData (i : Nat) (x : Slot) (c : Cmd) (s : State) : State :=
  let st := sqStudio x.sq
  match c.dptr with
  | .fifo =>
    if fifoFree st s && !fifoBehind x s then fifoStart i x c (slotPut i { x with stage := .active } s) else s
  | .flat | .list | .loops =>
    let s := slotPut i { x with stage := .active } s
    if c.op == .write then xferNew (.data i true) st c.side .device (512 * c.nlb) s
    else xferNew (.data i false) st .device c.side (512 * c.nlb) s

/-- WRITE (R281): its data starts to move; in a FIFO command, bytes that the host has pushed are taken. -/
def writeRun (i : Nat) (s : State) : State :=
  match cmdAt i .write [.ready] s with
  | some (x, c) => startData i x c s
  | none => fifoTake i s

/-- The warning of a self-check that fails on a command's data (R290). -/
def internalNote (x : Slot) (s : State) : State :=
  logRec .internalCmd ([BitVec.ofNat 8 x.sq.val] ++ leBytes 2 x.idx ++ [0]) s

/-- A self-check fails on the data of a WRITE that is under way: it ends with INTERNAL (R281, R290). -/
def writeInternal (i : Nat) (s : State) : State :=
  match cmdAt i .write [.active] s with
  | none => s
  | some (x, _) => failCmd i stInternal 0 (internalNote x s)

/-- WRITE, with what the self-checks find on its data (R290). -/
def execWrite (run : SlotRun) (s : State) : Out :=
  .next (onlyIf (queuesRun s) (fun s => match run.check with
    | .ok => writeRun run.slot s
    | .canvas | .page => writeInternal run.slot s) s)

/-- The first member of a list as a DETAIL or argument byte. -/
def memberByte (ms : List (Fin 128)) (k : Nat) : Byte := BitVec.ofNat 8 (((ms[k]?).map (·.val)).getD 0)

/-- A command has met a tile row with two or more unobtainable chunks: MEDIA_ERROR, and the array goes OFFLINE outside
salvage (R280, R410, R416). -/
def mediaError (i : Nat) (a : Fin 4) (stripe : Nat) (ms : List (Fin 128)) (res : Word) (s : State) : State :=
  let s := endCmd i stMediaError (memberByte ms 0) res s
  if (arrGet a s).salvage then s else goOffline a (memberByte ms 0).toNat (memberByte ms 1).toNat stripe s

/-- A READ that is under way asks for the tile it delivers next; bytes that are there go to its FIFO. -/
def readGo (i : Nat) (x : Slot) (c : Cmd) (s : State) : State :=
  let a := cmdArray c s
  let tile := readTile x c s
  let (n, f, s) := readNeed i x c s
  match n with
  | .got _ =>
    let s := slotPut i (readRetouched f x) s
    if c.dptr == .fifo then fifoFill i s else s
  | .wait => s
  | .badPage _ _ => endCmd i stInternal 0 (BitVec.ofNat 32 x.moved) (internalNote x s)
  | .lost ms =>
    let (ch, _) := tileChunk a ((arrGet a s).readsNew (8 * tile)) tile s
    mediaError i a ch.stripe ms (BitVec.ofNat 32 x.moved) s

/-- READ (R280). -/
def readRun (i : Nat) (s : State) : State :=
  let s := match cmdAt i .read [.ready] s with
    | some (x, c) => startData i x c s
    | none => s
  match cmdAt i .read [.active] s with
  | some (x, c) => if x.ending.isSome then s else readGo i x c s
  | none => s

/-- The pages of the Sketchbook that give the sectors of the tile a READ delivers next (R373). -/
def readPages (x : Slot) (c : Cmd) (s : State) : List Nat :=
  let a := cmdArray c s
  let tile := readTile x c s
  let mask := readMask c tile s &&& ~~~ (cached a tile s).1
  ((List.finRange 8).filter fun k => mask.getLsbD k.val).filterMap fun k =>
    let sec := 8 * tile + k.val
    match coverOf a sec s with
    | some (_, r) => if r.kind == .write then (r.pages[sec / 8 - r.start / 8]?).map (·.1) else none
    | none => none

/-- Pages fail their check from now on. -/
def pagesBad (l : List Nat) (s : State) : State :=
  let mark (e : Nat × Page) : Nat × Page := if l.contains e.1 then (e.1, { e.2 with bad := true }) else e
  { s with skb := { s.skb with pages := s.skb.pages.map mark } }

/-- A self-check fails on the data of a READ that is under way: of canvas memory, so that it ends with INTERNAL after the
sectors delivered; or of the pages that it reads next, which then fail whenever they are read (R290, R373). -/
def readFault (i : Nat) (canvas : Bool) (s : State) : State :=
  match cmdAt i .read [.active] s with
  | none => s
  | some (x, c) =>
    if x.ending.isSome then s
    else if canvas then endCmd i stInternal 0 (BitVec.ofNat 32 x.moved) (internalNote x s)
    else readRun i (pagesBad (readPages x c s) s)

/-- READ, with what the self-checks find on its data (R290). -/
def execRead (run : SlotRun) (s : State) : Out :=
  .next (onlyIf (queuesRun s) (fun s => match run.check with
    | .ok => readRun run.slot s
    | .canvas => readFault run.slot true s
    | .page => readFault run.slot false s) s)

/-! ## VERIFY (R282) -/

/-- The stripe that a VERIFY takes next, with its region: the one of the first sector of its range that no finished stripe
holds. -/
def verifyStripe (x : Slot) (c : Cmd) (s : State) : Option (Bool × Nat) :=
  if c.nlb ≤ x.vpos then none
  else
    let y := arrGet (cmdArray c s) s
    let a := cmdStart c s + x.vpos
    some (y.readsNew a, (y.shapeAt (y.readsNew a)).stripeOf a)

/-- RESULT of a VERIFY (R279). -/
def verifyResult (x : Slot) : Word := fld 16 (min x.skipped 0xFFFF) ||| fld 0 (min x.corrected 0xFFFF)

/-- A role of the stripe is lacking, so that its rows cannot be checked (R282). -/
def stripeLacks (a : Fin 4) (new : Bool) (t : Nat) (s : State) : Bool :=
  let x := arrGet a s
  (List.range ((x.shapeAt new).dps + 1)).any fun k => x.lacking new t (x.roleAt new t k)

/-- A stripe of a VERIFY is done: its child lock is released, and the VERIFY goes on behind the stripe's last sector. -/
def verifyNext (i : Nat) (x : Slot) (c : Cmd) (new : Bool) (t : Nat) (s : State) : State :=
  let h := (arrGet (cmdArray c s) s).shapeAt new
  slotPut i { x with vpos := max (x.vpos + 1) ((t + 1) * h.stripeSectors - cmdStart c s), vcur := none, vrow := 0 }
    (workDrop (.cmd i) (lockDrop (fun l => l.work == .cmd i && l.kind == .child) s))

/-- One row of a VERIFY's stripe. -/
def verifyRow (i : Nat) (x : Slot) (c : Cmd) (new : Bool) (t : Nat) (s : State) : State :=
  let w := Work.cmd i
  let a := cmdArray c s
  let h := (arrGet a s).shapeAt new
  if h.tiles ≤ x.vrow then verifyNext i x c new t s
  else if stripeLacks a new t s then
    verifyNext i { x with skipped := x.skipped + (h.tiles - x.vrow) } c new t s
  else
    let (r, s) := checkRow (cmdPayer x) w a new t x.vrow s
    match r with
    | .wait => s
    | .agrees => slotPut i { x with vrow := x.vrow + 1 } (workDrop w s)
    | .differs =>
      slotPut i { x with vrow := x.vrow + 1, corrected := x.corrected + 1 } (correctRow a new t x.vrow (workDrop w s))
    | .rebuilt pos =>
      slotPut i { x with vrow := x.vrow + 1, retouched := true } (workDrop w (noteMend ⟨a, new, t, pos⟩ x.vrow s))
    | .lost ms => mediaError i a t ms (verifyResult x) s

/-- A VERIFY's stripe under its child lock: its records are flushed, then its rows are checked; a correction ends before
the next row (R282, R294). -/
def verifyLocked (i : Nat) (x : Slot) (c : Cmd) (new : Bool) (t : Nat) (s : State) : State :=
  let a := cmdArray c s
  if holds (.cmd i) .child s then
    let (go, s) := stripeClean a new t s
    if go then verifyRow i x c new t s else s
  else if waits (.cmd i) .child s then s
  else lockRequest { stripeLock a new t .child (.cmd i) s with sq := x.sq.val } s

/-- VERIFY (R282). -/
def verifyRun (i : Nat) (s : State) : State :=
  match cmdAt i .verify [.ready, .active] s with
  | none => s
  | some (x, c) =>
    match x.vcur.orElse fun _ => verifyStripe x c s with
    | some (new, t) =>
      let x := { x with stage := .active, vcur := some (new, t) }
      verifyLocked i x c new t (slotPut i x s)
    | none => decideCmd i (if x.retouched then stOkRetouched else stOk) 0 (verifyResult x) s

/-- VERIFY. -/
def execVerify (i : Nat) (s : State) : Out := .next (onlyIf (queuesRun s) (verifyRun i) s)

end Sys2Proof.Machine
end

