-- ==== Sys2Proof/Machine/Burst.lean ====
section
/-! DEFINITION. The DMA engine's accesses by master cycles: bursts, list walks, software descriptors, completions, the bus
faults of their cycles, and the kick and pause of DMA_GCTRL (R203, R204, R206, R207, R236 to R258, R286 to R289). -/

namespace Sys2Proof.Machine

/-! ## Bursts (R236 to R239, R250) -/

/-- Bytes of the next burst of a transfer (R238). -/
def Xfer.burst (x : Xfer) : Nat := min 64 (x.length - x.pos)

/-- The transfer has data to move by bursts. -/
def Xfer.moves (x : Xfer) : Bool :=
  match x.kind with
  | .post _ | .desc _ => false
  | .fetch _ | .data _ _ | .soft _ _ _ _ | .refill _ => x.ended.isNone

/-- The bytes that a FILL source gives (R240). -/
def fillBytes (w : Word) (pos n : Nat) : List Byte :=
  (List.range n).map fun k => BitVec.ofNat 8 (w.toNat >>> (8 * ((pos + k) % 4)))

/-- The bytes that a burst puts on its host destination: from the part's memories, from a FILL, or as read. -/
def burstOut (x : Xfer) (n : Nat) (data : List Byte) (s : State) : Option (List Byte) :=
  match x.kind with
  | .data i false => readBytes i x.pos n s
  | .fetch _ | .data _ true | .post _ | .desc _ | .soft _ _ _ _ | .refill _ =>
    match x.src with
    | .fill w => some (fillBytes w x.pos n)
    | .flat _ | .list _ _ _ | .loops _ _ | .device => some (data.take n)

/-- Bytes put into a stream or refill tile from a byte offset. -/
def tilePutBytes (t : Tile) (off : Nat) (l : List Byte) : Tile :=
  let whole := t.data.toList.foldr (fun d acc => acc * 2 ^ 4096 + d.toNat) 0
  let m := (2 ^ (8 * l.length) - 1) <<< (8 * off)
  let v := (whole - (whole &&& m)) + ((leNat l <<< (8 * off)) &&& m)
  { t with data := Vector.ofFn fun k => BitVec.ofNat 4096 (v >>> (4096 * k.val)) }

/-- Bytes of a refill go into the layer's next tile, after the data it holds (R511). -/
def refillBytes (layer pos : Nat) (l : List Byte) (s : State) : State :=
  let y := s.palette.layers.get (Fin.ofNat 32 layer)
  match y.tiles.getLast? with
  | none => s
  | some t => match kget t.tile s.canvas.tiles with
    | none => s
    | some c => { s with canvas := { s.canvas with
        tiles := kput t.tile (tilePutBytes c (t.held + pos) l) s.canvas.tiles } }

/-- What a burst's bytes do inside the part; none while they have no place there. -/
def burstIn (x : Xfer) (l : List Byte) (s : State) : Option State :=
  match x.kind with
  | .fetch i => match slotGet i s with
    | none => some s
    | some y => some (slotPut i { y with bytes := (y.bytes ++ l).take 64 } s)
  | .data i true => writeBytes i x.pos l s
  | .refill layer => some (refillBytes layer x.pos l s)
  | .data _ false | .post _ | .desc _ | .soft _ _ _ _ => some s

/-- A burst of a READ has been delivered, after its transfer has counted it (R219, R280). -/
def burstSent (x : Xfer) (n : Nat) (s : State) : State :=
  match x.kind with
  | .data i false => readMoved i (x.pos + n) s
  | .data _ true | .fetch _ | .refill _ | .post _ | .desc _ | .soft _ _ _ _ => s

/-- The transfer of a channel after a burst: its bytes count, and at its end its completion is due (R248, R250). -/
def burstCount (c : Fin 16) (x : Xfer) (n : Nat) (s : State) : State :=
  let k := chanGet c s
  let s := chanPut c { k with bytes := ctrAdd k.bytes n } s
  match (chanGet c s).cur with
  | none => s
  | some _ =>
    let x := { x with pos := x.pos + n, src := x.src.moved n, dst := x.dst.moved n }
    if x.pos < x.length then chanPut c { chanGet c s with cur := some x } s
    else match x.kind with
      | .soft _ _ _ _ => chanPut c { chanGet c s with cur := some { x with ended := some (stOk, 0) } } s
      | .fetch _ | .data _ _ | .post _ | .desc _ | .refill _ => xferEnd c x s

/-- A burst's last cycle has run: its bytes take effect. -/
def burstDone (c : Fin 16) (x : Xfer) (l : List Byte) (s : State) : State :=
  match burstIn x l s with
  | none => s
  | some s => burstSent x x.burst (burstCount c x x.burst s)

/-! ## Accesses by master cycles (R202 to R207, R239) -/

/-- An access of a channel's transfer begins. -/
def xferAccess (c : Fin 16) (x : Xfer) (k : AccessKind) (l : List MCycle) (s : State) : State :=
  { s with hbu := { s.hbu with
      access := some { chan := c, behalf := x.behalf, xfer := some x.id, kind := k, cycles := l } } }

/-- The bus is the part's, and no access is under way. -/
def busTaken (s : State) : Bool := s.hbu.tenure.isSome && s.hbu.access.isNone

/-- Channels of a list from the one after a position, in round-robin order. -/
def rrFrom (last : Fin 16) (f : Fin 16 → Bool) : List (Fin 16) :=
  ((List.range 16).map fun k => Fin.ofNat 16 (last.val + 1 + k)).filter f

/-- The order in which channels are offered the next burst (R236). -/
def burstOrder (s : State) : List (Fin 16) :=
  let pal (c : Fin 16) : Bool := (chanGet c s).user == userPalette
  rrFrom s.dma.rrPal pal ++ rrFrom s.dma.rrOther (fun c => !pal c)

/-- The channel has had its turn. -/
def burstTurn (c : Fin 16) (s : State) : State :=
  if (chanGet c s).user == userPalette then { s with dma := { s.dma with rrPal := c } }
  else { s with dma := { s.dma with rrOther := c } }

/-- A channel's burst begins with the bytes that its source cycles will read; none while the channel has no burst
ready. -/
def burstOf (c : Fin 16) (data : List Byte) (s : State) : Option State :=
  match (chanGet c s).cur with
  | none => none
  | some x =>
    if !x.hasDesc || !x.moves then none
    else if !s.hbu.masterEn then some (xferFault c stDmaFault dtMasterOff s)
    else if !busTaken s then none
    else match x.src.addrs x.pos x.burst, x.dst.addrs x.pos x.burst, burstOut x x.burst data s with
      | some src, some dst, some l =>
        if (burstIn x l s).isNone then none
        else some (xferAccess c x (.burst l) (readCycles x.src x.pos src s ++ writeCycles x.dst x.pos dst l s) s)
      | _, _, _ => none

/-- The first channel of an order with a burst ready takes it. -/
def burstPick (data : List Byte) (s : State) : List (Fin 16) → State
  | [] => s
  | c :: t => match burstOf c data s with
    | some u => burstTurn c u
    | none => burstPick data s t

/-! ## List walks (R241) -/

/-- A list entry read at an address takes effect on its side, or gives a status and detail. -/
def listEntry (next : Nat) (runs : List (Nat × Nat)) (links : Nat) (l : List Byte) : Sum (Byte × Byte) Side :=
  let a := leField l 0 3
  let len := leField l 4 3
  let hi := leField l 7 1
  if leField l 3 1 ≠ 0 || hi % 128 ≠ 0 then .inl (stBadField, dtListEntry)
  else if 128 ≤ hi then
    if len ≠ 0 then .inl (stBadField, dtListEntry)
    else if 8 < links + 1 then .inl (stDmaFault, dtLinkLoop)
    else .inr (.list a runs (links + 1))
  else if len = 0 then .inl (stBadField, dtListEntry)
  else if 0xFFFFFF < a + len - 1 then .inl (stDmaFault, dtAddrRange)
  else .inr (.list (next + 8) (runs ++ [(a, len)]) 0)

/-- One side of a transfer. -/
def Xfer.side (x : Xfer) (dst : Bool) : Side := if dst then x.dst else x.src

/-- A transfer with one side replaced. -/
def Xfer.withSide (x : Xfer) (dst : Bool) (d : Side) : Xfer := if dst then { x with dst := d } else { x with src := d }

/-- A channel's list walk reads its next entry, just before the first byte that it covers moves. -/
def listRead (c : Fin 16) (dst : Bool) (l : List Byte) (s : State) : State :=
  match (chanGet c s).cur with
  | none => s
  | some x =>
    match x.side dst with
    | .list next runs _ =>
      if !x.hasDesc || !x.moves || (runAddrs runs x.burst).isSome then s
      else if next % 8 ≠ 0 then xferFault c stDmaAlign 0 s
      else if !s.hbu.masterEn then xferFault c stDmaFault dtMasterOff s
      else if !busTaken s then s
      else xferAccess c x (.entry dst l) (readCycles .device 0 ((List.range 8).map (next + ·)) s) s
    | .flat _ | .loops _ _ | .fill _ | .device => s

/-- A list entry has been read. -/
def entryDone (c : Fin 16) (x : Xfer) (dst : Bool) (l : List Byte) (s : State) : State :=
  match x.side dst with
  | .list next runs links => (match listEntry next runs links l with
    | .inl (st, dt) => xferFault c st dt s
    | .inr d => chanPut c { chanGet c s with cur := some (x.withSide dst d) } s)
  | .flat _ | .loops _ _ | .fill _ | .device => s

/-! ## Descriptors (R244 to R246) -/

/-- All bytes of a part of a list are 0. -/
def zeroBytes (l : List Byte) (at' n : Nat) : Bool := (takeAt l at' n).all (· == 0)

/-- Reserved bits of a descriptor that are not 0, reserved modes, FILL as destination, or LENGTH 0 (R244, R246). -/
def descBad (l : List Byte) : Bool :=
  let src := leField l 0 1 % 16
  let dst := leField l 0 1 / 16
  leField l 1 1 % 8 ≠ 0 || 32 ≤ leField l 1 1 || !zeroBytes l 2 2 || decide (3 < src) || decide (2 < dst)
    || leField l 4 4 == 0 || !zeroBytes l 7 1 || (src != 3 && !zeroBytes l 11 1) || !zeroBytes l 15 1
    || (src != 2 && !zeroBytes l 16 16) || (dst != 2 && !zeroBytes l 32 16) || !zeroBytes l 52 4
    || leField l 63 1 % 128 ≠ 0 || (src == 2 && !zeroBytes l 23 1) || (dst == 2 && !zeroBytes l 39 1)

/-- A side of a descriptor by its mode (R240). -/
def descSide (mode addr : Nat) (spec : List Byte) : Side :=
  match mode with
  | 0 => .flat addr
  | 1 => .list addr [] 0
  | 2 => .loops addr (loopSpecOf spec)
  | _ => .fill (BitVec.ofNat 32 addr)

/-- Step 3 of R246: the first check of a descriptor that fails gives its status and detail. Where several fail, its fields
come first, then the source's pattern, then the destination's (DESIGN CHOICE, log entry 114: R246 gives no order). -/
def descCheck (x : Xfer) (l : List Byte) : Option (Byte × Byte) :=
  if descBad l then some (stBadField, 0)
  else match x.src.check x.length, x.dst.check x.length with
    | some (st, dt, _), _ => some (st, dt)
    | none, some (st, dt, _) => some (st, dt)
    | none, none => none

/-- The transfer of a descriptor (R244). -/
def descXfer (x : Xfer) (idx : Nat) (l : List Byte) : Xfer :=
  { x with
    kind := .soft idx (BitVec.ofNat 32 (leField l 48 4)) (leField l 1 1 / 8 % 2 == 1) (leField l 1 1 / 16 % 2 == 1)
    src := descSide (leField l 0 1 % 16) (leField l 8 4) (takeAt l 16 16)
    dst := descSide (leField l 0 1 / 16) (leField l 12 3) (takeAt l 32 16)
    length := leField l 4 3, pos := 0 }

/-- Address of the descriptor in slot i of a channel's ring (R244). -/
def Chan.descAddr (k : Chan) (i : Nat) : Nat := k.ringBase.toNat + 64 * i

/-- Bytes of the unit that the poll read covers: the aligned unit that holds byte 63 (R246). -/
def pollAddrs (k : Chan) (s : State) : List Nat :=
  let a := k.descAddr k.nextIdx.toNat + 63
  (List.range (a + 1 - unitAddr a s)).map (unitAddr a s + ·)

/-- The read of an OWN bit faults: no transfer exists yet, so the channel is HALTED at the same slot, and nothing is
completed (DESIGN CHOICE, log entry 110). -/
def pollFault (c : Fin 16) (detail : Byte) (addr : Nat) (s : State) : State :=
  let s := chanPut c { chanGet c s with faultAddr := BitVec.ofNat 24 (unitAddr addr s) } s
  chanHalt c (noteFault c stDmaFault detail s)

/-- The OWN bit of slot NEXT_IDX has been read (R237, R246): an owned slot's descriptor is read as a transfer, which takes
a DMA_DESC unit; otherwise the channel goes IDLE, or POLLING where POLL asks for it. -/
def pollDone (c : Fin 16) (own : Byte) (s : State) : State :=
  let k := chanGet c s
  if own.toNat < 128 then chanPut c { k with look := false, state := if k.poll == 0 then .idle else .polling } s
  else
    let id := s.dma.nextId
    let (ok, s) := poolAsk ⟨pDesc, some k.studio, 1, .dmaDesc id⟩ { s with dma := { s.dma with nextId := id + 1 } }
    let x : Xfer :=
      { id := id, kind := .desc k.nextIdx.toNat, studio := k.studio, src := .flat (k.descAddr k.nextIdx.toNat),
        dst := .device, length := 64, hasDesc := ok }
    chanPut c { k with cur := some x, look := false, state := .running } s

/-- A descriptor has been read (R246): one that is owned no longer sends the channel back to step 1; the checks of step 3
follow. -/
def descDone (c : Fin 16) (x : Xfer) (idx : Nat) (l : List Byte) (s : State) : State :=
  if (l.getD 63 0).toNat < 128 then
    let s := descGive x s
    chanPut c { chanGet c s with cur := none, look := true } s
  else
    let y := descXfer x idx l
    let s := chanPut c { chanGet c s with cur := some y } s
    match descCheck y l with
    | some (st, dt) => xferFault c st dt s
    | none => s

/-- Steps 1 and 2 of R246 with the descriptor's bytes: the read of the unit that holds byte 63, or of the whole
descriptor. -/
def descRead (c : Fin 16) (l : List Byte) (s : State) : State :=
  let k := chanGet c s
  match k.cur with
  | none =>
    let own := k.descAddr k.nextIdx.toNat + 63
    if !k.look then s
    else if !s.hbu.masterEn then pollFault c dtMasterOff own s
    else if !busTaken s then s
    else
      let a : Access :=
        { chan := c, behalf := k.studio, xfer := none, kind := .poll (l.getD 63 0),
          cycles := readCycles .device 0 (pollAddrs k s) s }
      { s with hbu := { s.hbu with access := some a } }
  | some x => match x.kind with
    | .desc idx =>
      if !x.hasDesc then s
      else if !s.hbu.masterEn then xferFault c stDmaFault dtMasterOff s
      else if !busTaken s then s
      else xferAccess c x (.desc l) (readCycles .device 0 ((List.range 64).map (k.descAddr idx + ·)) s) s
    | .fetch _ | .data _ _ | .post _ | .soft _ _ _ _ | .refill _ => s

/-! ## Completions of software descriptors (R248 to R254) -/

/-- The completion writes of a SOFT transfer, in order, with the bytes that go alone in groups of their own (R248,
R249). -/
def softWrites (c : Fin 16) (k : Chan) (x : Xfer) (idx : Nat) (tag : Word) (st dt : Byte) : List (List Host.Cell) :=
  let d := k.descAddr idx
  let done := leBytes 4 x.pos
  if k.cmode == 1 then
    let r := k.crecBase.toNat + 16 * idx
    let body := leBytes 4 tag.toNat ++ done ++ leBytes 2 idx ++ [st, dt, BitVec.ofNat 8 c.val, 0, 0]
    [body.zipIdx.map fun (b, j) => (r + j, b), [(r + 15, if k.phase then 0x80 else 0)], [(d + 63, 0)]]
  else [(done ++ [st, dt, 0]).zipIdx.map fun (b, j) => (d + 56 + j, b), [(d + 63, 0)]]

/-- The write cycles of groups of cells. -/
def groupsCycles (l : List (List Host.Cell)) (s : State) : List MCycle := l.flatMap fun g => groupCycles g s

/-- A completion write of a SOFT channel faults (R254). -/
def wbFault (c : Fin 16) (x : Xfer) (st dt : Byte) (addr : Nat) (s : State) : State :=
  let k := chanGet c s
  let u := unitAddr addr s
  let s := chanPut c { k with lastStatus := st, lastDetail := dt, faultAddr := BitVec.ofNat 24 u } s
  let s := logAs .dmaWbFault .stopStudio (some k.studio)
    ([BitVec.ofNat 8 c.val, BitVec.ofNat 8 k.studio.val, st] ++ leBytes 4 u) s
  let s := { s with dma := { s.dma with wbFaultSeen := true } }
  chanHalt c (descGive x s)

/-- NEXT_IDX goes on by one; the phase changes when it wraps to 0 (R246, R249). -/
def Chan.advance (k : Chan) : Chan :=
  let n := (k.nextIdx.toNat + 1) % 2 ^ k.ringLog2.toNat
  { k with nextIdx := BitVec.ofNat 10 n, phase := if n = 0 then !k.phase else k.phase }

/-- A SOFT descriptor's completion is complete (R246, R252, R253, R255, R258). DONE_COUNT counts it whatever its status,
while a QUEUE or PALETTE transfer counts only when it ends OK (DESIGN CHOICE, log entry 115: R261 says "transfers
completed"). -/
def softDone (c : Fin 16) (x : Xfer) (st dt : Byte) (irq stop : Bool) (s : State) : State :=
  let s := descGive x s
  let k := (chanGet c s).advance
  let k := { k with lastStatus := st, lastDetail := dt, doneCount := ctrInc k.doneCount, cur := none }
  let s := chanPut c k s
  let s := if irq then sirqSet k.studio sirqDmaCpl s else s
  if k.state == .stopping then chanPut c { chanGet c s with state := .disabled } s
  else if st != stOk then chanHalt c s
  else if stop then chanPut c { chanGet c s with state := .idle } s
  else chanPut c { chanGet c s with look := true } s

/-- The completion writes of a SOFT transfer have been made. BYTES counts them with the data, and no byte of a descriptor
or list read (DESIGN CHOICE, log entry 115: R261 says "bytes moved"). -/
def softEnd (c : Fin 16) (x : Xfer) (s : State) : State :=
  let k := chanGet c s
  match x.kind, x.ended with
  | .soft idx tag irq stop, some (st, dt) =>
    let n := ((softWrites c k x idx tag st dt).map (·.length)).sum
    softDone c x st dt irq stop (chanPut c { k with bytes := ctrAdd k.bytes n } s)
  | _, _ => s

/-- DMA_COMPLETION of a channel (R248). -/
def softComplete (c : Fin 16) (s : State) : State :=
  let k := chanGet c s
  match k.cur with
  | none => s
  | some x => match x.kind, x.ended with
    | .soft idx tag _ _, some (st, dt) =>
      let l := softWrites c k x idx tag st dt
      if !s.hbu.masterEn then wbFault c x st dt (((l.flatten.head?).map (·.1)).getD 0) s
      else if !busTaken s then s
      else xferAccess c x .soft (groupsCycles l s) s
    | _, _ => s

/-! ## Completions of commands in host rings (R248, R286 to R289) -/

/-- A completion is written (R286, R287): into SRAM at once; into host memory by its transfer, once it has a channel and
the bus, its last byte alone. -/
def postNow (i : Nat) (s : State) : State :=
  match slotGet i s with
  | none => s
  | some x =>
    if x.stage != .done then s
    else
      let (sram, a, bytes) := postPlace x s
      if sram then postDone i x { s with hbu := { s.hbu with ringSram := memWriteList s.hbu.ringSram a bytes } }
      else match postChan i s with
        | none => s
        | some c => match (chanGet c s).cur with
          | none => s
          | some f =>
            let l : List Host.Cell := bytes.zipIdx.map fun (b, k) => (a + k, b)
            let n := l.length - 1
            if !s.dma.en then s
            else if !s.hbu.masterEn then busFault c dtMasterOff a s
            else if !busTaken s then s
            else xferAccess c f (.post i) (groupsCycles [l.take n, l.drop n] s) s

/-- The completion writes of a command have been made. -/
def postEnd (c : Fin 16) (f : Xfer) (i : Nat) (s : State) : State :=
  match slotGet i s with
  | none => s
  | some x =>
    let k := chanGet c s
    postDone i x (xferEnd c f (chanPut c { k with bytes := ctrAdd k.bytes (postPlace x s).2.2.length } s))

/-! ## What a studio reset leaves on the bus (R462, R463) -/

/-- Some member operation or partial sum of the work is out. -/
def workOut (w : Work) (s : State) : Bool :=
  opsOut w s || s.ring.reqs.any fun r => match r.kind with
    | .op _ => false
    | .psum p => p.w == w

/-- A channel still has a transfer with data of the command. -/
def dataOn (i : Nat) (s : State) : Bool := s.dma.chans.toList.any fun c => match c.cur with
  | some x => x.dataOf i
  | none => false

/-- A command whose studio has been reset returns its units when its last attempt and its last burst have ended (R463). -/
def reap (w : Work) (s : State) : State :=
  match w with
  | .cmd i => (match slotGet i s with
    | none => s
    | some x =>
      if x.orphan && !workOut w s && !dataOn i s then
        let s := cmdRelease i s
        poolGive pCmdSlot (some (sqStudio x.sq)) 1
          { s with queues := { s.queues with slots := kdel i s.queues.slots } }
      else s)
  | .flush _ | .background _ | .stream _ _ | .volTrim _ | .remote _ _ => s

/-- The transfer is a queue's, of a studio that is being reset: it was kept for the access that was under way. -/
def Xfer.leftover (x : Xfer) (s : State) : Bool :=
  (match x.kind with
  | .data _ _ | .post _ => true
  | .fetch _ | .desc _ | .soft _ _ _ _ | .refill _ => false) && (s.studios.get x.studio).state == .resetting

/-- It ends with that access: its burst boundary is reached, or its completion has been written. -/
def leftoverEnd (x : Xfer) (s : State) : State :=
  let s := xferDrop (fun y => y.id == x.id) s
  match x.kind with
  | .data i _ => reap (.cmd i) s
  | .post _ | .fetch _ | .desc _ | .soft _ _ _ _ | .refill _ => s

/-! ## The end of an access, and its faults (R203, R206, R207, R250, R255) -/

/-- A channel that is stopping has reached its burst boundary (R255): a PALETTE transfer stops, a descriptor that is only
being read is released, and a SOFT transfer is completed with ABORTED; a QUEUE one runs to its end. -/
def chanStop (c : Fin 16) (s : State) : State :=
  let k := chanGet c s
  let off (s : State) : State := chanPut c { chanGet c s with cur := none, look := false, state := .disabled } s
  match k.cur with
  | none => off s
  | some t =>
    let unask (s : State) : State := { s with ledger := { s.ledger with waiting := s.ledger.waiting.filter fun r =>
      match r.use with
      | .dmaDesc n => n != t.id
      | .tiles _ => true } }
    match t.kind with
    | .fetch _ | .data _ _ | .post _ => s
    | .refill layer =>
      let i : Fin 32 := Fin.ofNat 32 layer
      let l := { s.palette.layers.get i with refill := none }
      off (descGive t (unask { s with palette := { s.palette with layers := s.palette.layers.set i l } }))
    | .desc _ => off (descGive t (unask s))
    | .soft _ _ _ _ => if t.ended.isSome then s else xferFault c stAborted dtChannelOff s

/-- What an access does once its last cycle has run, unless its transfer has been given up meanwhile. -/
def accessDone (a : Access) (s : State) : State :=
  let k := chanGet a.chan s
  match k.cur with
  | none => (match a.kind with
    | .poll own => if k.look then pollDone a.chan own s else s
    | .burst _ | .entry _ _ | .desc _ | .soft | .post _ => s)
  | some x =>
    if a.xfer != some x.id then s
    else if x.leftover s then leftoverEnd x s
    else match a.kind, x.kind with
      | .burst l, _ => burstDone a.chan x l s
      | .entry dst l, _ => entryDone a.chan x dst l s
      | .desc l, .desc idx => descDone a.chan x idx l s
      | .soft, _ => softEnd a.chan x s
      | .post i, _ => postEnd a.chan x i s
      | .poll _, _ | .desc _, _ => s

/-- A burst has run, and its bytes have no place in canvas memory yet. -/
def accessStuck (a : Access) (s : State) : Bool :=
  match a.kind, (chanGet a.chan s).cur with
  | .burst l, some x => a.xfer == some x.id && !x.leftover s && (burstIn x l s).isNone
  | _, _ => false

/-- A channel's work faults before or at a cycle at an address (R207, R251, R254). -/
def workFault (c : Fin 16) (detail : Byte) (addr : Nat) (s : State) : State :=
  let k := chanGet c s
  match k.cur with
  | none => if k.look then pollFault c detail addr s else s
  | some x => if x.leftover s then leftoverEnd x s else match x.kind, x.ended with
    | .soft _ _ _ _, some (st, dt) => wbFault c x st dt addr s
    | _, _ => busFault c detail addr s

/-- The channel is at a burst boundary. -/
def boundary (c : Fin 16) (s : State) : State :=
  busRefresh (if (chanGet c s).state == .stopping && !accessing c s then chanStop c s else s)

/-- The access under way ends in a fault at an address: what it belongs to faults, unless that has been given up. -/
def accessFault (a : Access) (detail : Byte) (addr : Nat) (s : State) : State :=
  let s := { s with hbu := { s.hbu with access := none } }
  boundary a.chan (if a.xfer == (chanGet a.chan s).cur.map (·.id) then workFault a.chan detail addr s else s)

/-- The access under way goes on: its next cycle may run, or finds no region, or no master mode; or it has ended. -/
def accessOn (s : State) : State :=
  match s.hbu.access with
  | none => s
  | some a => match a.cycles with
    | [] =>
      if accessStuck a s then s else boundary a.chan (accessDone a { s with hbu := { s.hbu with access := none } })
    | h :: _ =>
      if !s.hbu.masterEn then accessFault a dtMasterOff h.addr s
      else if regionAllows a.behalf h.addr s then s
      else accessFault a dtRegionMiss h.addr (noteMiss a.behalf (unitAddr h.addr s) s)

/-- The bytes that a write cycle puts into host memory. -/
def MCycle.cells (m : MCycle) : List Host.Cell :=
  match m.out with
  | none => []
  | some l => l.zipIdx.map fun (b, j) => (m.addr + j, b)

/-- One cycle of the access under way runs. -/
def cycleRun (s : State) : State :=
  match s.hbu.access with
  | none => s
  | some a => match a.cycles with
    | [] => s
    | h :: t =>
      let w := a.wrote ++ h.cells
      busRefresh (accessOn (tenureCycle { s with hbu := { s.hbu with
        access := some { a with cycles := t, wrote := w }
        lastWrite := if h.out.isSome then w else s.hbu.lastWrite } }))

/-- MASTER_CYCLE (R203, R204, R239): one cycle of the access under way runs in the tenure. -/
def execMasterCycle (s : State) : Out :=
  .next (onlyIf (unitsRun s && s.hbu.tenure.isSome) cycleRun s)

/-- What begins an access goes on to its first cycle. -/
def accessBegun (s : State) : State := busRefresh (accessOn s)

/-- DMA_BURST (R236, R238): the picked channel's burst, with the bytes that its source cycles read. -/
def execDmaBurst (data : Vector Byte 64) (s : State) : Out :=
  .next (onlyIf (unitsRun s && s.dma.en) (fun s => accessBegun (burstPick data.toList s (burstOrder s))) s)

/-- LIST_ENTRY_READ (R241). -/
def execListEntryRead (c : Fin 16) (dst : Bool) (bytes : Vector Byte 8) (s : State) : Out :=
  .next (onlyIf (unitsRun s && s.dma.en) (fun s => accessBegun (listRead c dst bytes.toList s)) s)

/-- DESCRIPTOR_READ_DONE (R246): the bytes that the read of the OWN bit's unit, or of the whole descriptor, gives. -/
def execDescriptorReadDone (c : Fin 16) (bytes : Vector Byte 64) (s : State) : Out :=
  .next (onlyIf (unitsRun s && s.dma.en) (fun s => accessBegun (descRead c bytes.toList s)) s)

/-- DMA_COMPLETION (R248). -/
def execDmaCompletion (c : Fin 16) (s : State) : Out :=
  .next (onlyIf (unitsRun s && s.dma.en) (fun s => accessBegun (softComplete c s)) s)

/-- COMPLETION_POST (R287). -/
def execCompletionPost (i : Nat) (s : State) : Out :=
  .next (onlyIf (unitsRun s) (fun s => accessBegun (postNow i s)) s)

/-- The cycle that runs ends in a fault (R203, R207): RDY_TIMEOUT only in a region that waits for HB_RDY. -/
def cycleFault (self : Bool) (s : State) : State :=
  match s.hbu.access with
  | none => s
  | some a => match a.cycles with
    | [] => s
    | h :: _ =>
      let waits : Bool := match regionOf h.addr s with
        | some r => r.rdyWait && r.rdyTimeout != 0
        | none => false
      let detail := if self then dtSelfAccess else dtRdyTimeout
      if self || waits then
        busRefresh (accessFault a detail h.addr (noteBus detail (unitAddr h.addr s) (tenureCycle s)))
      else s

/-- The cycle that runs is one of a channel, at an address. -/
def cycleAt (c : Fin 16) (addr : BitVec 24) (s : State) : Bool :=
  match s.hbu.access with
  | some a => a.chan == c && a.cycles.head?.map (·.addr) == some addr.toNat
  | none => false

/-- RDY_TIMEOUT (R203, R207), at the cycle of a channel at an address. -/
def execRdyTimeout (c : Fin 16) (addr : BitVec 24) (s : State) : Out :=
  .next (onlyIf (unitsRun s && s.hbu.tenure.isSome && cycleAt c addr s) (cycleFault false) s)

/-- SELF_ACCESS (R207), at the cycle of a channel at an address. -/
def execSelfAccess (c : Fin 16) (addr : BitVec 24) (s : State) : Out :=
  .next (onlyIf (unitsRun s && s.hbu.tenure.isSome && cycleAt c addr s) (cycleFault true) s)

/-- The cycle that runs is a completion write of the command in a CMD_SLOT, at an address. -/
def posting (i : Nat) (addr : BitVec 24) (s : State) : Bool :=
  match s.hbu.access with
  | some a => a.kind == .post i && cycleAt a.chan addr s
  | none => false

/-- COMPLETION_WRITE_FAULT (R289): the cycle that runs is a completion write, and it ends in a fault: SELF_ACCESS or
RDY_TIMEOUT. -/
def execCompletionWriteFault (i : Nat) (self : Bool) (addr : BitVec 24) (s : State) : Out :=
  .next (onlyIf (unitsRun s && s.hbu.tenure.isSome && posting i addr s) (cycleFault self) s)

/-- The address of a channel's next cycle. -/
def nextAddr (c : Fin 16) (s : State) : Nat :=
  let k := chanGet c s
  match k.cur with
  | none => k.descAddr k.nextIdx.toNat + 63
  | some x =>
    let first (d : Side) : Option Nat := if d.host then match d.addrs x.pos 1 with
      | some l => l.head?
      | none => match d with
        | .list next _ _ => some next
        | .flat _ | .loops _ _ | .fill _ | .device => none
      else none
    match x.kind, x.ended with
    | .post i, _ => ((slotGet i s).map fun y => (postPlace y s).2.1).getD 0
    | .soft idx tag _ _, some (st, dt) => (((softWrites c k x idx tag st dt).flatten.head?).map (·.1)).getD 0
    | _, _ => ((first x.src).orElse fun _ => first x.dst).getD 0

/-- A channel that waits for the bus faults, for want of a grant. -/
def grantFault (c : Fin 16) (s : State) : State :=
  match s.hbu.access with
  | some a => if a.chan == c then accessFault a dtGntTimeout (((a.cycles.head?).map (·.addr)).getD 0) s
    else workFault c dtGntTimeout (nextAddr c s) s
  | none => workFault c dtGntTimeout (nextAddr c s) s

/-- GNT_TIMEOUT (R207): every transfer that waits for the bus faults, and HB_BREQ_N is released for one TICK. -/
def execGntTimeout (s : State) : Out :=
  .next (onlyIf (unitsRun s && s.hbu.breq && s.hbu.gntTimeout != 0) (fun s =>
    let l := waitingChans s
    let s := hbFlag hbGnt (logRec .gntTimeout (leBytes 2 l.length) s)
    let s := l.foldl (fun s c => grantFault c s) s
    busRefresh { s with hbu := { s.hbu with breqHold := true } }) s)

/-! ## DMA_GCTRL (R247, R257, R259) -/

/-- DMA_KICK (R247). -/
def execDmaKick (mask : Half) (s : State) : Out := .next (onlyIf (unitsRun s) (kickAll mask) s)

/-- DMA_GLOBAL_PAUSE (R257). -/
def execDmaGlobalPause (s : State) : Out := .next (onlyIf (running s) (dmaEnable false) s)

/-- DMA_GLOBAL_RESUME (R257). -/
def execDmaGlobalResume (s : State) : Out := .next (onlyIf (running s) (dmaEnable true) s)

/-! ## Waiting pool requests (R434) -/

/-- POOL_GRANT (R434): the oldest request of a pool that can be granted is granted; what waited for it goes on. -/
def execPoolGrant (pool : Fin 20) (s : State) : Out :=
  .next (onlyIf (unitsRun s) (fun s => match poolReady pool s with
    | none => s
    | some r =>
      let s := poolUnwait r s
      match r.use with
      | .tiles _ => s
      | .dmaDesc n =>
        let give (x : Xfer) : Xfer := if x.id == n then { x with hasDesc := true } else x
        let s := poolTake pool r.who r.n s
        busRefresh { s with dma := { s.dma with
          waiting := s.dma.waiting.map give
          chans := s.dma.chans.map fun k => { k with cur := k.cur.map give } } }) s)

/-! ## The Sketchbook's and the queue engine's rows that need no operation of their own -/

/-- FLUSH_ALL (R394): the write of SKB_CTRL that sets FLUSH_ALL and leaves the rest as it is. -/
def execFlushAll (s : State) : Out :=
  .next (onlyIf (unitsRun s) (fun s => skbCtrlWrite 0xF (skbCtrlWord s ||| flg 31 true) s) s)

/-- SKB_CTRL_WRITE (R394). -/
def execSkbCtrlWrite (lanes : Lanes) (data : Word) (s : State) : Out :=
  .next (onlyIf (unitsRun s) (skbCtrlWrite lanes data) s)

/-- NOP (R285). -/
def execNop (i : Nat) (s : State) : Out := .next (onlyIf (queuesRun s) (nopRun i) s)

end Sys2Proof.Machine
end

