-- ==== Sys2Proof/Machine/Operands.lean ====
section
/-! DEFINITION. The operand forms of the control port: the fields of a ten-byte frame (R139, R140). The lanes of a register
access and the fields of words and byte lists are in Ops.lean. -/

namespace Sys2Proof.Machine

/-- Byte `n` of a frame. -/
def byteOf (f : Frame) (n : Fin 10) : Byte := f.bytes.get n

/-- The offset that a READ or WRITE names. -/
def frameOff (f : Frame) : Nat := 256 * (byteOf f 1).toNat + (byteOf f 2).toNat

/-- The byte enables. -/
def frameLanes (f : Frame) : Lanes := (byteOf f 3).truncate 4

/-- The REPLAY bit of CONTROL. -/
def frameReplay (f : Frame) : Bool := (byteOf f 3).getLsbD 4

/-- The data of a WRITE: byte 4 holds register bits [31:24]. -/
def frameData (f : Frame) : Word := byteOf f 4 ++ byteOf f 5 ++ byteOf f 6 ++ byteOf f 7

/-- Byte 8 is the CRC of bytes 0 to 7 (R140). -/
def frameCrcOk (f : Frame) : Bool := crc8 (f.bytes.toList.take 8) == byteOf f 8

/-- The opcodes (R139). -/
def opNop : Byte := 0xC0
def opWrite : Byte := 0xC1
def opRead : Byte := 0xC2
def opWhistle : Byte := 0xC4

end Sys2Proof.Machine
end

