-- ==== Sys2Proof/Machine/Flags.lean ====
section
/-! DEFINITION. The flags that the block computes from its state: IRQ_STAT, the two interrupt lines, and the FLAGS byte of a
response (R141, R151, R568 to R570). -/

namespace Sys2Proof.Machine

/-! ## Interrupts (R151, R568 to R570) -/

/-- Studio s's bit of IRQ_STAT. -/
def studioIrq (st : Fin 8) (s : State) : Bool := (aliasGet st s).irqStat &&& (aliasGet st s).irqMask != 0

/-- IRQ_STAT as read. -/
def irqStatWord (s : State) : Word :=
  let l := s.log
  l.irqStat ||| flg 31 (s.restart.level == .failstop)
    ||| flg 28 (decide (max 1 l.thresh.toNat ≤ logUnread l))
    ||| flg 20 (s.members.nodeChg != 0 || s.members.portChg != 0) ||| flg 19 (s.studios.toList.any (·.done))
    ||| flg 18 s.palette.evt ||| flg 17 (s.dma.faultSeen || s.dma.wbFaultSeen) ||| flg 16 (s.hbu.flags != 0)
    ||| (List.finRange 8).foldl (fun w st => w ||| flg st.val (studioIrq st s)) 0

/-- CP_IRQ_N is pulled low (R151, R570); a part that is stopped or in reset pulls nothing (R60, R85). -/
def cpIrq (s : State) : Bool :=
  let w := irqStatWord s
  running s && (bit w 31 || (w.extractLsb' 16 15 &&& s.log.irqMaskEn &&& ~~~ s.log.irqRoute) != 0
    || (w.extractLsb' 0 8 &&& s.log.irqMaskCp) != 0)

/-- HB_IRQ_N is pulled low (R570). -/
def hbIrq (s : State) : Bool :=
  let w := irqStatWord s
  running s && isManager s && atLevel2 s
    && ((w.extractLsb' 0 8) != 0 || (w.extractLsb' 16 15 &&& s.log.irqMaskEn &&& s.log.irqRoute) != 0)

/-! ## The FLAGS byte -/

/-- FLAGS at the response latch (R141). -/
def respFlags (replayed : Bool) (s : State) : Byte :=
  let b (i : Nat) (x : Bool) : Byte := if x then BitVec.ofNat 8 (2 ^ i) else 0
  b 7 (cpIrq s) ||| b 6 s.clk.bypass ||| b 5 replayed
    ||| b 4 (match s.pathC.arm with | some a => decide (0 < a.left) | none => false) ||| BitVec.ofNat 8 s.cport.fseq.toNat

end Sys2Proof.Machine
end

