-- ==== Sys2Proof/Machine/Port.lean ====
section
/-! DEFINITION. Member ports: card detect and power, the signature read and the classification of cards, the results,
retries and step-downs of member operations, class M resets, removal, and signature writes (R127, R318, R319, R328 to
R341, R344 to R346, R491). -/

namespace Sys2Proof.Machine

/-! ## Counters and power of a port -/

/-- A worker notes that a port's counters have changed (R491). -/
def portChanged (p : Fin 8) (s : State) : State :=
  { s with ring := { s.ring with changed := s.ring.changed ||| BitVec.ofNat 8 (1 <<< p.val) } }

/-- The entry of this node's port is changed, counters among it. -/
def ownEdit (p : Fin 8) (f : Member → Member) (s : State) : State :=
  let m := ownMember p s
  portChanged p (memPut m (f (memGet m s)) s)

/-- SDn_PWR_EN rises (R319, R344): identification begins with word 0 as it stands, on the pad rail of its first probe
(R320): VIO_33 where PORT_KIND is SD only or eMMC at 3.3 V, VIO_18 otherwise. -/
def portOn (p : Fin 8) (s : State) : State :=
  let m := ownMember p s
  let c := (memGet m s).cfg
  let s := portPut p { portGet p s with powered := true, powerDue := false, cfg := c } s
  memPut m { memGet m s with pad := if c.portKind == 1 || c.portKind == 3 then 1 else 2 } s

/-- The port powers its card on, once SDn_PWR_EN has been low for 10 ms, or off: PAD and MODE read 0 while it is off (R319,
R344). -/
def portPower (p : Fin 8) (on : Bool) (s : State) : State :=
  let x := portGet p s
  if on then
    if x.powered then s
    else if x.offTicks < 1000 then portPut p { x with powerDue := true } s
    else portOn p s
  else
    let s := portPut p { x with powered := false, powerDue := false, offTicks := if x.powered then 0 else x.offTicks } s
    let m := ownMember p s
    memPut m { memGet m s with pad := 0, mode := 0 } s

/-- A TICK of a port whose SDn_PWR_EN is low: a power-on that waits is made at the thousandth (R127, R319). -/
def portTick (p : Fin 8) (s : State) : State :=
  let x := portGet p s
  if x.powered then s
  else
    let x := { x with offTicks := min 1000 (x.offTicks + 1) }
    let s := portPut p x s
    if x.powerDue && x.offTicks == 1000 then portOn p s else s

/-- Card power in a member state (R334). -/
def MState.poweredOn : MState → Bool
  | .probing | .blank | .foreign | .bench | .active | .stale => true
  | .absent | .missing | .failed | .retired => false

/-! ## Results given to the work that asked (R335, R338, R479, R492) -/

/-- How a member operation ends. -/
inductive OpEnd where
  | ok (data : List (BitVec 4096))
  /-- unreadable after its retries; the sectors before the first unreadable one. -/
  | unreadable (data : List (BitVec 4096))
  /-- its member is lost. -/
  | lost
  /-- a worker's port is not ACTIVE. -/
  | refused
  deriving DecidableEq, Repr

/-- OP_DONE codes (R478). -/
def OpEnd.code : OpEnd → Nat
  | .ok _ => 0 | .unreadable _ => 1 | .lost => 2 | .refused => 3

/-- Eight sectors as a tile. -/
def tileOf (l : List (BitVec 4096)) : TileData := Vector.ofFn fun k => l.getD k.val 0

/-- The sum of partial data with a tile. -/
def xorSectors (x y : List (BitVec 4096)) : List (BitVec 4096) :=
  (List.range 8).map fun k => x.getD k 0 ^^^ y.getD k 0

/-- A served request is replaced. -/
def servedPut (v u : Served) (s : State) : State :=
  { s with ring := { s.ring with served := s.ring.served.map fun x => if x == v then u else x } }

/-- n pages are allocated one after another. -/
def allocPages : Nat → State → List Nat × State
  | 0, s => ([], s)
  | n + 1, s => match allocPage s with
    | none => ([], s)
    | some (p, s) =>
      let (l, s) := allocPages n s
      (p :: l, s)

/-- A worker lands a write once all its data is there: its pages in SYSTEM, and the programs of its landing record
(R493). While pages are short it waits. -/
def land (v : Served) (s : State) : State :=
  let n := (v.count + 7) / 8
  if v.kind != 0x22 || v.queued || !v.pages.isEmpty || v.data.length < v.count || !poolFits pPage none n s then s
  else
    let (pgs, s) := allocPages n (poolTake pPage none n s)
    let s := pgs.foldl (fun s _ => progReq (.land v.tag v.epoch false) s) (servedPut v { v with pages := pgs } s)
    forcedUpdate (progReq (.land v.tag v.epoch true) s)

/-- A worker whose order is due acknowledges it once no request is served and no landed data is to be written: POWER_ACK
(R95). -/
def orderAck (s : State) : State :=
  match s.power.orderDue with
  | some z =>
    if s.ring.served.isEmpty then
      sendUp 0x0D 0 0 0 [] { s with power := { s.power with orderDue := none, ordered := some z } }
    else s
  | none => s

/-- A served request ends: the pages of its landing record are freed, writes that waited for pages land, and an order
that waited for it may be acknowledged. -/
def servedDrop (v : Served) (s : State) : State :=
  let s := freePages v.pages { s with ring := { s.ring with served := s.ring.served.erase v } }
  let s := poolGive pPage none v.pages.length s
  orderAck (s.ring.served.foldl (fun s u => land u s) s)

/-- A worker's reply on the channel of its request (R478). -/
def reply (v : Served) (kind : Byte) (arg : Nat) (flits : List Dword) (s : State) : State :=
  sendUp kind v.ch v.tag (BitVec.ofNat 16 arg) flits s (v.op == .c)

/-- The packets of a partial sum (R492). -/
def psumReply (v : Served) (s : State) : State :=
  (List.range 8).foldl (fun s k => reply v 0x26 (256 * v.failed.toNat + k) (sectorFlits (v.data.getD k 0)) s) s

/-- The result of one member operation that a worker carries out for the manager. -/
def servedResult (tag epoch : Byte) (o : MOp) (r : OpEnd) (s : State) : State :=
  match s.ring.served.find? fun v => v.tag == tag && v.epoch == epoch with
  | none => s
  | some v =>
    if v.kind == 0x25 then
      let u := match r with
        | .ok d => { v with data := xorSectors v.data d, out := v.out - 1 }
        | .unreadable _ | .lost | .refused =>
          { v with failed := v.failed ||| BitVec.ofNat 8 (1 <<< (portOf o.member).val), out := v.out - 1 }
      if u.out != 0 then servedPut v u s else servedDrop v (psumReply u s)
    else
      let l : List (BitVec 4096) := match r with
        | .ok d => d
        | .unreadable d => d
        | .lost | .refused => []
      let s := if v.kind == 0x20 then
        l.zipIdx.foldl (fun s (x, k) => reply v 0x21 k (sectorFlits x) s) s else s
      servedDrop v (reply v 0x27 r.code [] s)

/-- A chunk's tile has been read for some work, or could not be. -/
def chunkResult (w : Work) (c : ChunkAt) (row : Nat) (r : OpEnd) (s : State) : State :=
  match tileFind (.raw w c row) s with
  | none => s
  | some (n, t) => match r with
    | .ok d => tilePut n { t with valid := 0xFF, data := tileOf d } s
    | .unreadable _ | .lost | .refused => tileDrop n (markFailed w c row s)

/-- The operation serves a command whose studio has been reset (R463). -/
def orphanOp (o : MOp) (s : State) : Bool :=
  match o.use.work with
  | some (.cmd i) => ((slotGet i s).map (·.orphan)).getD false
  | _ => false

/-- A RETIRED card is powered off, by its node (R334, R341). -/
def retiredOff (m : Fin 128) (s : State) : State :=
  if isOwn m s then portPower (portOf m) false s else memberSet m s

/-! ## Signatures that a management command writes (R179) -/

/-- The command that the management engine runs. -/
def mgmtPut (r : MgmtRun) (s : State) : State := { s with mgmt := { s.mgmt with running := some r } }

/-- The NV commit of a management command is requested once every signature it writes has responded (R179). -/
def mgmtAsk (r : MgmtRun) (s : State) : State :=
  if r.sigs.isEmpty && r.res.isNone && !r.committing then
    onlyIf r.commits (nvCommit .mgmt) (mgmtPut { r with committing := true } s)
  else mgmtPut r s

/-- The running command writes the member's signature and has already failed. -/
def mgmtFailing (m : Fin 128) (s : State) : Bool :=
  match s.mgmt.running with
  | some r => r.sigs.contains m && r.res.isSome
  | none => false

/-- A copy of a member's signature has been written for the running command. -/
def mgmtSigOk (m : Fin 128) (copyB : Bool) (s : State) : State :=
  match s.mgmt.running with
  | none => s
  | some r =>
    if r.sigs.contains m then
      let r := { r with wrote := if r.wrote.contains m then r.wrote else r.wrote ++ [m] }
      mgmtAsk (if copyB || r.res.isSome then { r with sigs := r.sigs.erase m } else r) s
    else s

/-- The operation is a signature write of the running management command. -/
def MOp.ofMgmt (o : MOp) : Bool :=
  match o.use with
  | .sig _ own => own
  | .chunk _ _ _ _ | .write _ | .mend _ => false

/-- A signature write of the running command has failed (R178, R179): MEDIA_ERROR with the member, or FABRIC_TIMEOUT
with a node that cannot be reached; RETIRE_MEMBER goes on all the same (R343). -/
def mgmtSigFail (m : Fin 128) (s : State) : State :=
  match s.mgmt.running with
  | none => s
  | some r =>
    if r.sigs.contains m then
      let r := { r with sigs := r.sigs.erase m }
      if r.code == 0x0A then mgmtAsk r s
      else
        let e : Byte × Byte := if nodeReached (nodeOf m) s then (0x30, BitVec.ofNat 8 m.val)
          else (0x33, BitVec.ofNat 8 (nodeOf m).toNat)
        let s := dropOps MOp.ofMgmt s
        let out (k : Fin 128) : Bool := (allOps s).any fun o => o.member == k && o.ofMgmt
        mgmtPut { r with res := some (r.res.getD e), sigs := r.sigs.filter out } s
    else s

/-- A signature write has responded: the entry shows what was written, and copy B follows copy A (R329). -/
def sigResult (o : MOp) (copyB own : Bool) (s : State) : State :=
  let x := memGet o.member s
  if copyB then
    if x.state == .retired then retiredOff o.member s else s
  else
    let s := memPut o.member { x with sig := sigParse (o.data.flatMap sectorBytes) } s
    if own && mgmtFailing o.member s then s
    else createOp { o with sector := 4096, use := .sig true own, tries := 0, stepped := false } s

/-- A signature write has failed: a RETIRED card is powered off all the same, and one in use is written again (R329,
R343). -/
def sigLost (m : Fin 128) (s : State) : State :=
  let x := memGet m s
  if x.state == .retired then retiredOff m s
  else if x.state == .active || x.state == .bench then memPut m { x with sigDue := true } s
  else s

/-- A worker's entry follows a signature copy that the manager has written to its card (R491). -/
def sigSeen (o : MOp) (r : OpEnd) (s : State) : State :=
  match r with
  | .ok _ =>
    if o.kind == .write && o.sector == 0 && o.count == 8 then
      memPut o.member { memGet o.member s with sig := sigParse (o.data.flatMap sectorBytes) } s
    else s
  | .unreadable _ | .lost | .refused => s

/-- The result of a member operation reaches the work that asked for it. A write that the card's node did not carry out
while the member still counts as ACTIVE is asked for again. -/
def opResult (o : MOp) (r : OpEnd) (s : State) : State :=
  let s := match o.cls, o.use with
    | .a, .chunk _ c _ _ =>
      if o.deadline < s.clk.tick.toNat then
        { s with referee := { s.referee with
            aLate := s.referee.aLate.set c.array (ctrInc (s.referee.aLate.get c.array)) } }
      else s
    | _, _ => s
  match o.use with
  | .chunk (.remote tag epoch) _ _ _ => servedResult tag epoch o r s
  | .chunk w c row _ => reap w (chunkResult w c row r s)
  | .write (.remote tag epoch) => servedResult tag epoch o r (sigSeen o r s)
  | .write _ => match r with
    | .ok _ => s
    | .unreadable _ | .lost | .refused =>
      let st := (memGet o.member s).state
      if (st == .active || st == .probing) && (roleOf o.member s).isSome then createOp { o with tries := 0, stepped := false } s
      else s
  | .sig b own => match r with
    | .ok _ => advancesDue (onlyIf own (mgmtSigOk o.member b) (sigResult o b own s))
    | .unreadable _ | .lost | .refused => onlyIf own (mgmtSigFail o.member) (sigLost o.member s)
  | .mend _ => match r with
    | .ok _ => advancesDue (memPut o.member { memGet o.member s with sigMend := none } s)
    | .unreadable _ | .lost | .refused => s

/-- The owner of an operation's MEMBER_SLOT unit (R441). -/
def MOp.payer (o : MOp) : Option (Fin 8) :=
  match o.cls with
  | .b => some o.studio
  | .a | .c => none

/-- An issued operation leaves its port: its slot returns, and it counts (R335, R344). -/
def opOut (p : Fin 8) (o : MOp) (s : State) : State :=
  let s := portPut p { portGet p s with issued := (portGet p s).issued.erase o } s
  ownEdit p (fun m => { m with ops := ctrInc m.ops }) (poolGive (pMember p) o.payer 1 s)

/-- Every operation of a port ends with a result, those issued with their slots returned. -/
def portAbort (p : Fin 8) (r : OpEnd) (s : State) : State :=
  let x := portGet p s
  let s := x.issued.foldl (fun s o => opOut p o s) s
  let s := portPut p { portGet p s with qa := [], qb := [], qc := [], issued := [], heldFail := none } s
  (x.issued ++ x.qa ++ x.qb ++ x.qc).foldl (fun s o => opResult o r s) s

/-! ## Failure of a member -/

/-- A member of this node's port becomes FAILED or MISSING: power-off, its array loses it, its operations end (R333,
R338). A RETIRED member stays as it is. -/
def memLeave (p : Fin 8) (st : MState) (cause : Byte) (s : State) : State :=
  let m := ownMember p s
  let x := memGet m s
  let held := ((portGet p s).classM.map (·.1)).getD x.state
  let s := portPower p false (portPut p { portGet p s with classM := none } s)
  if x.state == .retired then portAbort p .lost s
  else
    let s := memState m st cause s
    let s := if held == .active then memberLost m (if st == .failed then .failed else .missing) s else s
    portAbort p .lost s

/-! ## Modes and tuning (R320 to R325) -/

/-- CLK_CAP allows a mode, by its member clock (R102, R344). -/
def capAllows (cap : BitVec 2) (mode : BitVec 4) : Bool :=
  match cap.toNat with
  | 1 => mode == 1 || mode == 3 || mode == 8
  | 2 => mode != 6 && mode != 7 && mode != 10
  | 3 => mode != 7 && mode != 10
  | _ => true

/-- The modes of a ladder, highest first, that the card supports and CLK_CAP allows; the lowest is every card's (R324). -/
def rungsOf (ladder : List (BitVec 4)) (c : MemberCfg) (modes : Half) : List (BitVec 4) :=
  (ladder.dropLast.filter fun k => modes.getLsbD k.toNat && capAllows c.clkCap k) ++ ladder.drop (ladder.length - 1)

/-- The runs of passing phases of a tuning: the first phase and the length of each (R325). -/
def runsOf (w : Word) : List (Nat × Nat) :=
  (List.range 32).foldl (fun l i =>
    if !w.getLsbD i then l
    else match l with
      | (k, n) :: t => if k + n = i then (k, n + 1) :: t else (i, 1) :: l
      | [] => [(i, 1)]) []

/-- The length of the widest run of passing phases. -/
def widest (w : Word) : Nat := (runsOf w).foldl (fun n r => max n r.2) 0

/-- The centre of the widest run of passing phases (R325). Where two runs are as wide, where a run has two middle phases,
and where phases 0 and 31 both pass, the manual names no one phase: a free value (log entry 119). -/
def phaseOf (w : Word) : BitVec 5 :=
  match (runsOf w).filter fun r => r.2 == widest w with
  | [(k, n)] => if n % 2 = 1 && !(w.getLsbD 0 && w.getLsbD 31) then BitVec.ofNat 5 (k + n / 2) else Config.tunePhase w
  | _ => Config.tunePhase w

/-- The tuning of a mode, if it is a tuned one (R314, R315). -/
def tuneMask (t : Tunes) (mode : BitVec 4) : Option Word :=
  match mode.toNat with
  | 7 => some t.sdr104
  | 6 => some t.sdr50
  | 10 => some t.hs200
  | _ => none

/-- The first of some modes in which the port can work, with its phase: a tuning with fewer than 4 passing phases in a run
takes the next mode down (R325). -/
def tuneDown (t : Tunes) : List (BitVec 4) → Option (BitVec 4 × BitVec 5)
  | [] => none
  | k :: l => match tuneMask t k with
    | none => some (k, 0)
    | some w => if widest w < 4 then tuneDown t l else some (k, phaseOf w)

/-- The modes that the port may use below the one it uses (R324). -/
def rungsBelow (p : Fin 8) (s : State) : List (BitVec 4) :=
  ((portGet p s).rungs.dropWhile (· != (memGet (ownMember p s) s).mode)).drop 1

/-- The port takes a mode and a phase; a mode lower than the one it used is a step down (R336). -/
def modeTake (p : Fin 8) (k : BitVec 4 × BitVec 5) (s : State) : State :=
  let m := ownMember p s
  let x := memGet m s
  if k.1 == x.mode then memPut m { x with phase := k.2 } s
  else logRec .memberStepDown [BitVec.ofNat 8 m.val, BitVec.ofNat 8 x.mode.toNat, BitVec.ofNat 8 k.1.toNat]
    (memPut m { x with mode := k.1, phase := k.2, steps := ctrInc x.steps } s)

/-- Before the first retry of an error in a tuned mode the port tunes again (R325, R335). -/
def retune (p : Fin 8) (t : Tunes) (s : State) : State :=
  let mode := (memGet (ownMember p s) s).mode
  match tuneMask t mode, tuneDown t (mode :: rungsBelow p s) with
  | some _, some k => modeTake p k s
  | _, _ => s

/-! ## Errors of member operations (R335 to R339) -/

/-- The operation on a port's bus is replaced. -/
def headPut (p : Fin 8) (o : MOp) (s : State) : State :=
  let x := portGet p s
  portPut p { x with issued := o :: x.issued.tail } s

/-- The operation on the port's bus is tried again. -/
def tryAgain (p : Fin 8) (o : MOp) (s : State) : State :=
  ownEdit p (fun m => { m with retries := ctrInc m.retries }) (headPut p o s)

/-- A link error of the operation on the bus (R336): retries in the mode, then one rung down, then FAILED. -/
def linkError (p : Fin 8) (o : MOp) (t : Tunes) (s : State) : State :=
  let s := ownEdit p (fun m => { m with linkErrs := ctrInc m.linkErrs }) s
  if orphanOp o s then opResult o .lost (opOut p o s)
  else if o.tries < 3 then tryAgain p { o with tries := o.tries + 1 } (onlyIf (o.tries == 0) (retune p t) s)
  else match if o.stepped then none else tuneDown t (rungsBelow p s) with
    | none => memLeave p .failed chLinkFailed s
    | some k => tryAgain p { o with tries := 0, stepped := true } (modeTake p k s)

/-- An error that the card reports for the operation on the bus (R337). -/
def cardError (p : Fin 8) (o : MOp) (good : List (BitVec 4096)) (t : Tunes) (s : State) : State :=
  if orphanOp o s then opResult o .lost (opOut p o s)
  else if o.tries < 3 then tryAgain p { o with tries := o.tries + 1 } (onlyIf (o.tries == 0) (retune p t) s)
  else match o.kind with
    | .read =>
      let s := ownEdit p (fun m => { m with mediaErrs := ctrInc m.mediaErrs }) s
      let s := opResult o (.unreadable good) (opOut p o s)
      let x := memGet (ownMember p s) s
      let limit := (portGet p s).cfg.mediaLimit
      if limit != 0 && decide (limit.toNat ≤ x.mediaErrs.toNat) && x.state == .active then
        memLeave p .failed chMediaLimit s
      else s
    | .write | .erase => memLeave p .failed chWriteFailed s

/-- An attempt ends in an error: while SDn_CD_N reads high it is held (R339). -/
def attemptFailed (p : Fin 8) (t : Tunes) (f : State → State) (s : State) : State :=
  if (portGet p s).cdNow then f s else portPut p { portGet p s with heldFail := some t } s

/-- The first sectors of an operation's data. -/
def opData (o : MOp) (d : Vector (BitVec 4096) 512) : List (BitVec 4096) := d.toList.take o.count

/-- The port's bus works: the card is powered, its clock may run, and no class M reset holds it (R88, R127). -/
def busRuns (p : Fin 8) (s : State) : Bool :=
  unitsUp s && s.power.state != .doze && (portGet p s).powered && (portGet p s).classM.isNone
    && (portGet p s).heldFail.isNone

/-- The port works, and takes new operations (R88, R93). -/
def portRuns (p : Fin 8) (s : State) : Bool := unitsRun s && (portGet p s).powered && (portGet p s).classM.isNone

/-- MEMBER_OP_DONE (R335 to R337): the operation on the port's bus reports. -/
def memberOpDone (p : Fin 8) (r : OpResult) (s : State) : State :=
  match (portGet p s).issued.head? with
  | none => s
  | some o => match r with
    | .ok d => opResult o (.ok (if o.kind == .read then opData o d else [])) (opOut p o s)
    | .linkError t => attemptFailed p t (linkError p o t) s
    | .cardError n d t => attemptFailed p t (cardError p o ((opData o d).take n) t) s

/-- MEMBER_OP_DONE (R335). -/
def execMemberOpDone (p : Fin 8) (r : OpResult) (s : State) : Out := .next (onlyIf (busRuns p s) (memberOpDone p r) s)

/-- MEMBER_OP_TIMEOUT (R335): the attempt counts as a link error. -/
def execMemberOpTimeout (p : Fin 8) (t : Tunes) (s : State) : Out :=
  .next (onlyIf (busRuns p s) (fun s => match (portGet p s).issued.head? with
    | none => s
    | some o => attemptFailed p t (linkError p o t)
        (ownEdit p (fun m => { m with timeouts := ctrInc m.timeouts }) s)) s)

/-! ## Card detect (R318, R339) -/

/-- Member discovery runs: from the end of stage 3 on, and never in NVCFG_LOST (R132, R318). -/
def discovering (s : State) : Bool :=
  unitsUp s && !s.restart.nvcfgLost && (s.restart.level != .level0 || decide (4 ≤ s.restart.stage.val))

/-- A held failure is retried as a first one when SDn_CD_N reads low again (R339). -/
def heldRetry (p : Fin 8) (s : State) : State :=
  let x := portGet p s
  match x.heldFail, x.issued.head? with
  | some t, some o =>
    if x.cdNow then linkError p { o with tries := 0, stepped := false } t (portPut p { x with heldFail := none } s) else s
  | _, _ => s

/-- SDn_CD_N is sampled (R318): equal samples of a level that is not the accepted one are counted, from the end of stage 3
on; without bank 33 it reads high (R69). -/
def sampleCd (p : Fin 8) (low : Bool) (s : State) : State :=
  let x := portGet p s
  let low := low && s.power.sup.vio33
  let n := if !discovering s || (x.cdKnown && low == x.cdLow) then 0
    else if low == x.cdNow then min 2500 (x.cdCount + 1) else 1
  onlyIf (unitsUp s) (heldRetry p) (portPut p { x with cdNow := low, cdCount := n } s)

/-- A level of SDn_CD_N has held for 2500 samples (R318). -/
def cdHeld (p : Fin 8) (low : Bool) (s : State) : Bool :=
  let x := portGet p s
  discovering s && x.cdCount == 2500 && x.cdNow == low

/-! ## Classification (R328, R331, R332) -/

/-- The array's role table is in use: the array is assembled. -/
def arrLive (a : Fin 4) (s : State) : Bool :=
  let st := (arrGet a s).state
  st != .none && st != .stopped && st != .offline

/-- The ACTIVE card, other than one named, that holds a role of an array by its signature. -/
def roleCard (a : Fin 4) (i : Nat) (m : Fin 128) (s : State) : Option (Fin 128) :=
  (List.finRange 128).find? fun k =>
    let x := memGet k s
    k != m && x.state == .active && (match x.sig with
      | some g => g.roleKind == 1 && g.array == a && g.role.val == i
      | none => false)

/-- The generation is g or g − 1 (R331). -/
def genNear (g x : Word) : Bool := g == x || g - 1 == x

/-- What R331 makes of a card: its state and cause, and another card that it turns into a clone. -/
def classify (m : Fin 128) (s : State) : MState × Byte × Option (Fin 128) :=
  let x := memGet m s
  match x.sig with
  | none => (.blank, chIdentified, none)
  | some g =>
    if s.ident.fabricId == 0 || g.fabricId != s.ident.fabricId then (.foreign, chOtherFabric, none)
    else if g.cidHash != x.cidHash then (.foreign, chClone, none)
    else if g.roleKind == 3 then (.retired, chIdentified, none)
    else if g.roleKind == 2 then (.bench, chIdentified, none)
    else
      let a := arrGet g.array s
      if a.state == .none then (.foreign, chUnknownArray, none)
      else match a.roles[g.role.val]? with
        | none => (.foreign, chUnknownArray, none)
        | some r =>
          if (r.state == .present || r.state == .target) && genNear a.generation g.generation then
            match roleCard g.array g.role.val m s with
            | none => (.active, chIdentified, none)
            | some k =>
              if !arrLive g.array s && r.member == m && r.member != k then (.active, chIdentified, some k)
              else (.foreign, chClone, none)
          else (.stale, chGenOld, none)

/-- A role of an assembled array that no ACTIVE card fills takes the index of the card that now does: the card that the
record names is being identified again (R127, R331; log entry 120). -/
def roleMove (m : Fin 128) (s : State) : State :=
  match (memGet m s).sig with
  | some g =>
    let a := arrGet g.array s
    if (memGet m s).state == .active && arrLive g.array s then match a.roles[g.role.val]? with
      | some r => if r.member == m then s
        else nvCommit .keep (arrPut g.array (a.setRole g.role.val { r with member := m }) s)
      | none => s
    else s
  | none => s

/-- A card is classified on the manager, and its signature is mended or relabelled where R328 and R331 ask for it. A card
found RETIRED is powered off by its node (R334). -/
def classified (m : Fin 128) (mend : Option Bool) (s : State) : State :=
  let (st, cause, clone) := classify m s
  let s := match clone with
    | none => s
    | some k => memState k .foreign chClone s
  let s := roleMove m (memState m st cause s)
  let s := onlyIf (st == .retired) (retiredOff m) s
  let x := memGet m s
  let old : Bool := match x.sig with
    | some g => st == .active && g.generation != (arrGet g.array s).generation
    | none => false
  memPut m { x with sigDue := old, sigMend := if st == .active || st == .bench then mend else none } s

/-- The signature that two copies give and the copy to be rewritten (R328); none: both were unreadable. -/
def chooseSig (a b : Option (Vector (BitVec 4096) 8)) : Option (Option Sig × Option Bool) :=
  let parse (c : Option (Vector (BitVec 4096) 8)) : Option Sig :=
    c.bind fun v => sigParse (v.toList.flatMap sectorBytes)
  if a.isNone && b.isNone then none
  else match parse a, parse b with
    | some x, some y =>
      let d := (x.generation - y.generation).toInt
      let e := (x.configSeq - y.configSeq).toInt
      some (some (if 0 < d || (d == 0 && decide (0 ≤ e)) then x else y), none)
    | some x, none => some (some x, some true)
    | none, some y => some (some y, some false)
    | none, none => some (none, none)

/-- The signature is the one that the member held before a class M reset (R127). -/
def sigMatches (old new : Option Sig) : Bool :=
  match old, new with
  | some x, some y =>
    x.fabricId == y.fabricId && x.roleKind == y.roleKind && x.array == y.array && x.role == y.role
      && x.cidHash == y.cidHash
  | _, _ => false

/-- Discovery of this chip's port has ended (R128). -/
def portFound (p : Fin 8) (s : State) : State := portPut p { portGet p s with discovered := true } s

/-- Identification ends without a usable card: FAILED; the ACTIVE member of a class M reset becomes MISSING (R127,
R321, R328). -/
def identFail (p : Fin 8) (cause : Byte) (s : State) : State :=
  let s := portFound p s
  match (portGet p s).classM with
  | some (.active, _) => memLeave p .missing chPortResetLost s
  | _ => memLeave p .failed cause s

/-- What identification finds: KIND, PAD, the modes that the port may use, and the one it takes with its phase. -/
structure Found where
  kind : BitVec 2
  pad : BitVec 2
  rungs : List (BitVec 4)
  take : BitVec 4 × BitVec 5

/-- The pad rail at which a probe finds an eMMC (R320): 2 for VIO_18, 1 for VIO_33. -/
def emmcPad (c : MemberCfg) (d : CardIdent) : Option (BitVec 2) :=
  match c.portKind.toNat with
  | 0 => if d.emmc18 then some 2 else if !d.sd && d.emmc33 then some 1 else none
  | 2 => if d.emmc18 then some 2 else none
  | 3 => if d.emmc33 then some 1 else none
  | _ => none

/-- The SD sequence switches to 1.8 V: a v2 card with S18A, a CLK_CAP that allows a mode above 50 MHz or DDR50, and a
CMD11 that works; where CMD11 fails the sequence runs once more at 3.3 V (R321). -/
def sdLow (c : MemberCfg) (d : CardIdent) : Bool := d.v2 && d.s18a && capAllows c.clkCap 5 && d.switches

/-- The port's modes, highest first, and the one it takes (R324, R325). -/
def foundWith (kind pad : BitVec 2) (ladder : List (BitVec 4)) (c : MemberCfg) (d : CardIdent) : Option Found :=
  let l := rungsOf ladder c d.modes
  (tuneDown d.tunes l).map fun k => ⟨kind, pad, l, k⟩

/-- Identification by PORT_KIND and the card's answers (R320 to R322, R324): the cause of its failure, or what it finds. -/
def identify (c : MemberCfg) (d : CardIdent) : Byte × Option Found :=
  match emmcPad c d with
  | some pad => (chIdentFailed, foundWith 3 pad (if pad == 2 then [10, 9, 8] else [9, 8]) c d)
  | none =>
    if !d.sd || 2 ≤ c.portKind.toNat then (chIdentFailed, none)
    else if d.sduc || !d.wide then (chUnsupported, none)
    else
      let kind : BitVec 2 := if d.v2 && d.ccs then 2 else 1
      (chIdentFailed,
        if sdLow c d then foundWith kind 2 [7, 6, 5, 4, 3] c d else foundWith kind 1 [2, 1] c d)

/-- The current limit set in an SD card: the highest that it offers and that does not exceed ILIM (R321). -/
def limitOf (c : MemberCfg) (d : CardIdent) : Option (BitVec 2) :=
  ((List.range 4).reverse.find? fun i => d.limits.getLsbD i && decide (i ≤ c.ilim.toNat)).map (BitVec.ofNat 2)

/-- What identification found enters the entry, and the port. -/
def identEntry (p : Fin 8) (d : CardIdent) (f : Found) (sig : Option Sig) (mend : Option Bool) (s : State) : State :=
  let x := portGet p s
  let s := portPut p { x with rungs := f.rungs, limit := if f.kind == 3 then none else limitOf x.cfg d } s
  ownEdit p (fun m => { m with
    kind := f.kind, mode := f.take.1, pad := f.pad, eraseOnes := d.eraseOnes, capacity := d.capacity, cid := d.cid,
    cidHash := crc32c d.cid.toList, phase := f.take.2, identMs := d.ms, steps := 0, sig := sig, sigMend := mend }) s

/-- An identified card is classified on the manager, and reported by a worker (R331, R491). -/
def cardFound (p : Fin 8) (mend : Option Bool) (s : State) : State :=
  if isManager s then classified (ownMember p s) mend s else memberReport p s

/-- A member that a class M reset returns to the state it held (R127, R333): its signature is written again where the
generation has advanced meanwhile. -/
def portReturn (p : Fin 8) (old : MState) (s : State) : State :=
  let m := ownMember p s
  let s := memState m old chIdentified s
  let x := memGet m s
  let late : Bool := match x.sig with
    | some g => isManager s && old == .active && g.generation != (arrGet g.array s).generation
    | none => false
  memPut m { x with
    sigDue := x.sigDue || late, sigMend := if old == .active || old == .bench then x.sigMend else none } s

/-- SIGNATURE_READ (R127, R328, R331). A member that was powered off before a class M reset is classified afresh, as one
whose signature does not match. -/
def signatureRead (p : Fin 8) (d : CardIdent) (s : State) : State :=
  let m := ownMember p s
  let x := portGet p s
  if (memGet m s).state != .probing || !x.powered || (memGet m s).mode != 0 then s
  else match identify x.cfg d with
    | (cause, none) => identFail p cause s
    | (_, some f) => match chooseSig d.copyA d.copyB with
      | none => identFail p chIdentFailed s
      | some (sig, mend) =>
        let s := portFound p (identEntry p d f sig mend (portPut p { x with classM := none } s))
        match x.classM with
        | none => cardFound p mend s
        | some (old, was) =>
          if old.poweredOn && sigMatches was sig && (memGet m s).cidHash == ((was.map Sig.cidHash).getD 0) then
            portReturn p old s
          else if old == .active then
            memLeave p .missing chPortResetLost (portPut p { portGet p s with classM := x.classM } s)
          else cardFound p mend s

/-- SIGNATURE_READ. -/
def execSignatureRead (p : Fin 8) (d : CardIdent) (s : State) : Out :=
  .next (onlyIf (unitsUp s && s.power.state != .doze) (signatureRead p d) s)

/-- IDENT_FAILED (R321): after its retries, or because the card is not supported. -/
def execIdentFailed (p : Fin 8) (unsupported : Bool) (s : State) : Out :=
  .next (onlyIf (unitsUp s && s.power.state != .doze && (memGet (ownMember p s) s).state == .probing && (portGet p s).powered
      && (memGet (ownMember p s) s).mode == 0)
    (identFail p (if unsupported then chUnsupported else chIdentFailed)) s)

/-! ## Insertion and removal (R318, R333, R339) -/

/-- A level of SDn_CD_N is accepted. -/
def cdAccept (p : Fin 8) (low : Bool) (s : State) : State :=
  portPut p { portGet p s with cdLow := low, cdKnown := true, cdCount := 0 } s

/-- CARD_INSERTED (R318, R333): SDn_CD_N low is accepted. -/
def cardInserted (p : Fin 8) (s : State) : State :=
  let s := cdAccept p true s
  let m := ownMember p s
  let st := (memGet m s).state
  if st == .absent || st == .missing then memState m .probing chInserted (portPower p true s) else s

/-- CARD_REMOVED (R318, R333, R339): SDn_CD_N high is accepted, at discovery for a port without a card. A card in any state
but ACTIVE leaves its port ABSENT. -/
def cardRemoved (p : Fin 8) (s : State) : State :=
  let m := ownMember p s
  let st := (memGet m s).state
  let seated := (portGet p s).cdLow
  let held := ((portGet p s).classM.map (·.1)).getD st
  let s := portFound p (cdAccept p false s)
  if !seated || st == .absent then s
  else if held == .active then memLeave p .missing chRemoved s
  else
    let s := portPower p false (portPut p { portGet p s with classM := none } s)
    portAbort p .lost (memState m .absent chRemoved s)

/-! ## Class M resets (R127, R333, R344) -/

/-- The operations of a port when it is reset: its reads end unreadable, and its writes wait (R127). -/
def portHold (p : Fin 8) (s : State) : State :=
  let x := portGet p s
  let s := x.issued.foldl (fun s o => opOut p o s) s
  let all := x.issued ++ x.qa ++ x.qb ++ x.qc
  let reads := all.filter fun o => o.kind == .read
  let fresh (o : MOp) : MOp := { o with tries := 0, stepped := false }
  let writes := (all.filter fun o => o.kind != .read).map fresh
  let s := portPut p { portGet p s with
    qa := writes.filter (·.cls == .a), qb := writes.filter (·.cls == .b), qc := writes.filter (·.cls == .c),
    issued := [], heldFail := none } s
  reads.foldl (fun s o => opResult o (.unreadable []) s) s

/-- A class M reset of a port (R127): its entry's run-time words are cleared, and its card is held without power for 10 ms
and identified again; a port without an accepted card stays as it is. -/
def portReset (p : Fin 8) (s : State) : State :=
  let m := ownMember p s
  let x := memGet m s
  let held := (portGet p s).classM.getD (x.state, x.sig)
  let s := portHold p s
  let bare : Member := { cfg := x.cfg, state := x.state, sigDue := x.sigDue }
  if !(portGet p s).cdLow then memPut m bare s
  else
    let s := portPower p false (portPut p { portGet p s with classM := some held } s)
    memState m .probing chCommand (portPower p true (memPut m { bare with cid := x.cid } s))

/-- The ports of a mask are reset. -/
def portsReset (mask : Byte) (s : State) : State :=
  (List.finRange 8).foldl (fun s p => if mask.getLsbD p.val then portReset p s else s) s

/-- PORT_RESET_LOST (R127, R333): 1 s has passed without a matching signature: an ACTIVE member is MISSING, and a card in
any other state is to be classified afresh. -/
def execPortResetLost (p : Fin 8) (s : State) : Out :=
  .next (onlyIf (unitsUp s) (fun s => match (portGet p s).classM with
    | some (.active, _) => memLeave p .missing chPortResetLost s
    | some _ => portPut p { portGet p s with classM := none } s
    | none => s) s)

/-! ## Signature writes (R329) -/

/-- A signature copy's write, as class C work (R329, R441). -/
def sigOp (m : Fin 128) (u : OpUse) (g : Option Sig) : MOp :=
  let copyB := match u with
    | .sig b _ | .mend b => b
    | .chunk _ _ _ _ | .write _ => false
  { id := 0, member := m, cls := .c, kind := .write, sector := if copyB then 4096 else 0, count := 8, use := u,
    data := sigSectors g }

/-- The one copy that identification found invalid is rewritten from the valid one, by the node that holds the card
(R328). -/
def signatureMend (m : Fin 128) (s : State) : State :=
  let x := memGet m s
  match x.sigMend with
  | some b => if sigOut m s then s else createOp (sigOp m (.mend b) x.sig) s
  | none => s

/-- SIGNATURE_REFRESH (R328, R329): copy A of a member whose signature is to be rewritten, B after it; or the one copy
that was found invalid. -/
def signatureRefresh (m : Fin 128) (s : State) : State :=
  let x := memGet m s
  let g := sigFrom (sigSource s) m s
  if sigOut m s then s
  else if x.sigDue then
    if x.state == .active && g.isNone then s
    else createOp (sigOp m (.sig false false) g) (memPut m { x with sigDue := false, sigMend := none } s)
  else signatureMend m s

/-- SIGNATURE_REFRESH: the manager refreshes; a worker mends its own cards. -/
def execSignatureRefresh (m : Fin 128) (s : State) : Out :=
  .next (onlyIf (unitsRun s) (fun s =>
    if isManager s then signatureRefresh m s
    else if isOwn m s && ((memGet m s).state == .active || (memGet m s).state == .bench) then signatureMend m s
    else s) s)

/-- MEMBER_REPORT_TIMER (R491): every port whose counters have changed is reported. -/
def execMemberReportTimer (s : State) : Out :=
  .next (onlyIf (unitsRun s && !isManager s) (fun s =>
    let l := (List.finRange 8).filter fun p => s.ring.changed.getLsbD p.val
    l.foldl (fun s p => memberReport p s) { s with ring := { s.ring with changed := 0 } }) s)

/-! ## MEMBER_EVT (R346) -/

/-- MEMBER_EVT as it reads. -/
def memberEvtWord (s : State) : Word :=
  fld 16 s.members.nodeChg.toNat ||| fld 8 s.members.portChg.toNat ||| fld 0 s.members.lastMember.toNat

/-- A W1C write of MEMBER_EVT. -/
def memberEvtClear (w : Word) (s : State) : State :=
  { s with members := { s.members with
    nodeChg := s.members.nodeChg &&& ~~~ (w.extractLsb' 16 16)
    portChg := s.members.portChg &&& ~~~ (w.extractLsb' 8 8) } }

end Sys2Proof.Machine
end

