-- ==== Sys2Proof/Machine/Referee.lean ====
section
/-! DEFINITION. The Referee's pick, the issue of member operations, stream admission, and the second tier's probe and
failures (R437 to R439, R442, R443, R446, R447). -/

namespace Sys2Proof.Machine

/-! ## The pick (R443) -/

/-- One class A operation goes before another: earlier deadline, then lower layer, then lower sector. -/
def MOp.sooner (x y : MOp) : Bool :=
  decide (x.deadline < y.deadline) || (x.deadline == y.deadline &&
    (decide (x.layer < y.layer) || (x.layer == y.layer && decide (x.sector < y.sector))))

/-- The class A operation with the earliest deadline. -/
def earliest : List MOp → Option MOp
  | [] => none
  | o :: t => match earliest t with
    | none => some o
    | some x => if x.sooner o then some x else some o

/-- Deficit round robin over the studios' queues, in at most `fuel` visits (R443): the operation, the deficits and the
pointer after the pick. -/
def drr (weight : Vector Byte 8) (qb : List MOp) : Nat → Vector Nat 8 → Fin 8 → Option (MOp × Vector Nat 8 × Fin 8)
  | 0, _, _ => none
  | fuel + 1, d, r =>
    match qb.find? fun o => o.studio == r with
    | none => drr weight qb fuel (d.set r 0) (r + 1)
    | some o =>
      if o.count ≤ d.get r then some (o, d.set r (d.get r - o.count), r)
      else drr weight qb fuel (d.set r (d.get r + (weight.get r).toNat * 8)) (r + 1)

/-- Visits that a class B search needs at most: 64 rounds give 512 sectors at the smallest weight. -/
def drrFuel : Nat := 8 * 66

/-- The class C queue is owed its minimum share. -/
def owedC (p : Port) (cMin : Nat) : Bool :=
  !p.qc.isEmpty && decide (p.doneC * 100 < cMin * (p.doneA + p.doneB + p.doneC))

/-- The pick of a port: the operation and the port with its deficits and pointer as the pick leaves them (R443). -/
def refereePick (c : RefCfg) (p : Port) : Option (MOp × Port) :=
  match earliest p.qa with
  | some o => some (o, p)
  | none =>
    if owedC p c.cMinPct then p.qc.head?.map fun o => (o, p)
    else if p.qb.isEmpty then p.qc.head?.map fun o => (o, p)
    else (drr c.weight p.qb drrFuel p.deficit p.rr).map fun (o, d, r) => (o, { p with deficit := d, rr := r })

/-- The port after an operation has been picked: it leaves its queue, its class's done counter rises, and it is
issued. -/
def Port.issue (o : MOp) (p : Port) : Port :=
  let p := { p with issued := p.issued ++ [o] }
  match o.cls with
  | .a => { p with qa := p.qa.erase o, doneA := p.doneA + o.count }
  | .b => { p with qb := p.qb.erase o, doneB := p.doneB + o.count }
  | .c => { p with qc := p.qc.erase o, doneC := p.doneC + o.count }

/-- MEMBER_OP_ISSUE (R442, R443): the picked operation takes its MEMBER_SLOT and is issued. -/
def memberOpIssue (p : Fin 8) (s : State) : State :=
  match refereePick s.referee.cfg (portGet p s) with
  | none => s
  | some (o, x) =>
    let s := poolTake (pMember p) o.payer 1 (portPut p (x.issue o) s)
    match o.cls with
    | .b => { s with referee := { s.referee with
        bSectors := s.referee.bSectors.set o.studio (ctrAdd (s.referee.bSectors.get o.studio) o.count) } }
    | .a | .c => s

/-- The port takes another operation: fewer than ISSUE_AHEAD wait behind the one on its bus, a slot is FREE, and
SDn_CD_N reads low (R339, R442). -/
def portTakes (p : Fin 8) (s : State) : Bool :=
  portRuns p s && (portGet p s).cdNow && decide ((portGet p s).issued.length ≤ s.referee.cfg.issueAhead)
    && decide (0 < (poolGet (pMember p) s).free)

/-- MEMBER_OP_ISSUE. -/
def execMemberOpIssue (p : Fin 8) (s : State) : Out := .next (onlyIf (portTakes p s) (memberOpIssue p) s)

/-- A port's done counters halved. -/
def Port.decay (p : Port) : Port := { p with doneA := p.doneA / 2, doneB := p.doneB / 2, doneC := p.doneC / 2 }

/-- A ring port's flit counts halved (R444). -/
def RPort.decay (p : RPort) : RPort := { p with flitsC := p.flitsC / 2, flitsAll := p.flitsAll / 2 }

/-- REFEREE_DECAY (R443, R444): once, at the TICK step that makes the TICK counter a multiple of 1024. -/
def execRefereeDecay (s : State) : Out :=
  .next (onlyIf (unitsUp s && s.clk.tick.toNat % 1024 == 0 && !s.clk.decayed) (fun s =>
    { s with
      clk := { s.clk with decayed := true }
      members := { s.members with ports := s.members.ports.map Port.decay }
      ring := { s.ring with fa := s.ring.fa.decay, fb := s.ring.fb.decay } }) s)

/-! ## Stream admission (R446, R447) -/

/-- Divisor of ROOT and data rate factor of a mode (R102, R324). -/
def modeClock (mode : BitVec 4) : Option (Nat × Nat) :=
  match mode.toNat with
  | 1 => some (50, 1) | 2 => some (25, 1) | 3 => some (50, 1) | 4 => some (25, 1) | 5 => some (25, 2)
  | 6 => some (13, 1) | 7 => some (6, 1) | 8 => some (48, 1) | 9 => some (24, 1) | 10 => some (7, 1)
  | _ => none

/-- A quarter of the raw bus rate of a mode in kB/s, as a fraction: ROOT / D × 4 bits / 8 / 4. -/
def modeRate (mode : BitVec 4) : Option (Nat × Nat) := (modeClock mode).map fun (d, k) => (1228800 * k, 8 * d)

/-- The smaller of two fractions. -/
def minFrac (x y : Nat × Nat) : Nat × Nat := if y.1 * x.2 < x.1 * y.2 then y else x

/-- The ACTIVE members of an array. -/
def activeMembers (a : Fin 4) (s : State) : List (Fin 128) :=
  ((arrGet a s).roles.map (·.member)).filter fun m => (memGet m s).state == .active

/-- R_mem of an array as a fraction; none: READ_KBS is 0 and no member is ACTIVE. -/
def rMem (a : Fin 4) (s : State) : Option (Nat × Nat) :=
  let k := s.referee.cfg.readKbs.get a
  if k ≠ 0 then some (k, 1)
  else match (activeMembers a s).filterMap fun m => modeRate (memGet m s).mode with
    | [] => none
    | x :: t => some (t.foldl minFrac x)

/-- F: the reads that one lost chunk costs (R446). -/
def Shape.retouchReads (h : Shape) : Nat := if h.rotating then (if 3 ≤ h.n then h.n - 1 else 1) else h.g - 1

/-- H: the worker nodes that hold members of an array. -/
def workerNodes (a : Fin 4) (s : State) : Nat :=
  (((arrGet a s).roles.map fun r => nodeOf r.member).filter (· != 0)).eraseDups.length

/-- The admission of a layer that streams from a volume: the terms it adds, or the reason code of its refusal
(R446, R447). -/
def admitTerms (v : Fin 64) (r t : Nat) (s : State) : Sum Nat (Fin 4 × Nat × Nat × Nat) :=
  let x := volGet v s
  let a := x.array
  let y := arrGet a s
  let ok := y.state == .optimal || y.state == .degraded || y.state == .restoring
  if x.state == .gone || !ok then .inl 1
  else match rMem a s with
    | none => .inl 5
    | some (num, den) =>
      let f := y.shape.retouchReads
      let h := workerNodes a s
      let pct := s.referee.cfg.aMaxPct
      let m := r * f
      let g := r * min f h
      if (y.shape.n - 1) * num * pct < (s.referee.mAdm.get a + m) * den * 100 then .inl 2
      else if h ≠ 0 && decide (122000 * pct < (s.referee.ringAdm.get a + g) * 100) then .inl 3
      else if s.referee.cfg.streamTiles < s.referee.tilesAdm + t then .inl 4
      else .inr (a, m, if h = 0 then 0 else g, t)

/-- The sums grow by a layer's terms. -/
def admitAdd (x : Fin 4 × Nat × Nat × Nat) (s : State) : State :=
  let (a, m, g, t) := x
  let r := s.referee
  { s with referee := { r with
    mAdm := r.mAdm.set a (r.mAdm.get a + m), ringAdm := r.ringAdm.set a (r.ringAdm.get a + g)
    tilesAdm := r.tilesAdm + t } }

/-- The sums shrink by a layer's terms. -/
def admitSub (x : Fin 4 × Nat × Nat × Nat) (s : State) : State :=
  let (a, m, g, t) := x
  let r := s.referee
  { s with referee := { r with
    mAdm := r.mAdm.set a (r.mAdm.get a - m), ringAdm := r.ringAdm.set a (r.ringAdm.get a - g)
    tilesAdm := r.tilesAdm - t } }

/-! ## The second tier (R438) -/

/-- The number of second-tier tiles by density code: 8 to 64 MiB. -/
def densityTiles (d : Nat) : Nat :=
  match d with
  | 2 => 2048 | 3 => 4096 | 4 => 8192 | 5 => 16384
  | _ => 0

/-- The TIER2_TILE pool with a total, all FREE, or with none; its lowest FREE counts from the reset, when it had none
(R451). -/
def tier2Total (n : Nat) (s : State) : State :=
  let p := poolGet pTier2 s
  poolPut pTier2 { Pool.full n with freeMin := min p.freeMin n, sysPeak := p.sysPeak, waits := p.waits, rr := p.rr } s

/-- The probe at an arrival at LEVEL1, with registers 0 and 1 as the device gave them; none: no answer. -/
def tier2Probe (regs : Option (Half × Half)) (s : State) : State :=
  if s.clk.xclkSel == 0 then tier2Total 0 s
  else
    let s := canvasPut { s.canvas with probed := true } s
    let absent (w : Word) (s : State) : State := logRec .tier2Absent (leBytes 4 w.toNat) (tier2Total 0 s)
    match regs with
    | none => absent 0xFFFFFFFF s
    | some (r0, r1) =>
      let d := r0.toNat / 256 % 8
      let l := r1.toNat / 16 % 16
      if densityTiles d = 0 || l < 3 || 12 < l then absent (BitVec.ofNat 32 (r1.toNat * 65536 + r0.toNat)) s
      else
        let c := { s.canvas with density := BitVec.ofNat 3 d, wlat := BitVec.ofNat 4 l, fails := 0, tier2 := [] }
        tier2Total (densityTiles d) (canvasPut c s)

/-- The second tier is lost: every tile is dropped and its total becomes 0. -/
def tier2Lose (s : State) : State :=
  let n := s.canvas.tier2.length
  let s := tier2Total 0 (canvasPut { s.canvas with tier2 := [], fails := 0 } s)
  logRec .tier2Lost (leBytes 2 n) s

/-- One failure of a transfer; the third in a row loses the tier. -/
def tier2Fail (s : State) : State :=
  if 2 ≤ s.canvas.fails then tier2Lose s else canvasPut { s.canvas with fails := s.canvas.fails + 1 } s

/-- The second tier is in use. -/
def tier2Used (s : State) : Bool := unitsRun s && (poolGet pTier2 s).total != 0

/-- TIER2_TRANSFER_DONE (R439): a transaction has ended well. -/
def execTier2TransferDone (s : State) : Out :=
  .next (onlyIf (tier2Used s) (fun s => canvasPut { s.canvas with fails := 0 } s) s)

/-- TIER2_DQS_TIMEOUT (R438): a transfer has failed; RESET is issued and it is tried again. -/
def execTier2DqsTimeout (s : State) : Out := .next (onlyIf (tier2Used s) tier2Fail s)

/-- TIER2_CHECK_READ (R438): register 0 as read; none: no answer. -/
def execTier2CheckRead (reg0 : Option Half) (s : State) : Out :=
  .next (onlyIf (tier2Used s) (fun s => match reg0 with
    | some r => if r.toNat / 256 % 8 = s.canvas.density.toNat then s else tier2Fail s
    | none => tier2Fail s) s)

end Sys2Proof.Machine
end

