-- ==== Sys2Proof/Machine/Studio.lean ====
section
/-! DEFINITION. Studio resets: the reset of each requested studio, its end with its audit, and STUDIO_STAT (R256, R457,
R461 to R466). -/

namespace Sys2Proof.Machine

/-- A studio. -/
def studioGet (i : Fin 8) (s : State) : Studio := s.studios.get i

/-- The state with a studio replaced. -/
def studioPut (i : Fin 8) (x : Studio) (s : State) : State := { s with studios := s.studios.set i x }

/-- STATE codes (R455). -/
def SState.num : SState → Nat
  | .idle => 0 | .active => 1 | .resetting => 2 | .resetDone => 3

/-! ## The steps of T0 (R462, R463) -/

/-- The studio's submission queue as a reset leaves it (R462). -/
def Sq.reset (x : Sq) : Sq :=
  { loc := x.loc, errMode := x.errMode, cmode := x.cmode, cqSel := x.cqSel, wbIen := x.wbIen, depthLog2 := x.depthLog2,
    base := x.base }

/-- The studio's completion queue as a reset leaves it. -/
def Cq.reset (x : Cq) : Cq := { loc := x.loc, ien := x.ien, depthLog2 := x.depthLog2, base := x.base }

/-- Step 1: every queue of the studio is DISABLED, and a WHISTLE that covers one is broken with it. -/
def resetQueues (st : Fin 8) (s : State) : State :=
  (List.finRange 32).foldl (fun s q => if sqStudio q == st then
    cqPut q (cqGet q s).reset (sqPut q (sqGet q s).reset s) else s) s

/-- The index of every CMD_SLOT that holds a command of the studio. -/
def studioSlots (st : Fin 8) (s : State) : List Nat :=
  (s.queues.slots.filter fun (_, x) => sqStudio x.sq == st).map (·.1)

/-- The access under way moves data of a command, or is a completion write whose first cycle has run: its transfer stays on
its channel until the access ends (R462, R463). -/
def begun (x : Xfer) (s : State) : Bool :=
  match s.hbu.access with
  | none => false
  | some a => a.xfer == some x.id && (match x.kind with
    | .data _ _ => true
    | .post _ => !a.wrote.isEmpty
    | .fetch _ | .desc _ | .soft _ _ _ _ | .refill _ => false)

/-- The command's completion write has begun: it is posted before the reset (R462). -/
def postBegun (i : Nat) (s : State) : Bool :=
  match s.hbu.access with
  | none => false
  | some a => a.kind == .post i && !a.wrote.isEmpty

/-- A completion write of the studio that has an access and no cycle yet is barred (R462). -/
def barPost (st : Fin 8) (s : State) : State :=
  match s.hbu.access with
  | none => s
  | some a => match a.kind with
    | .post _ => if a.behalf == st && a.wrote.isEmpty then { s with hbu := { s.hbu with access := none } } else s
    | .burst _ | .entry _ _ | .poll _ | .desc _ | .soft => s

/-- An attempt of the work is on a bus of this node, or a worker has been asked for it. -/
def onBus (w : Work) (s : State) : Bool :=
  (s.members.ports.toList.any fun p => match p.issued.head? with
    | some o => o.use.work == some w
    | none => false)
  || s.ring.reqs.any fun r => match r.kind with
    | .op o => o.use.work == some w
    | .psum p => p.w == w

/-- The operations of some work that are issued and not yet on their port's bus are dropped, with their slots. -/
def dropIssued (w : Work) (s : State) : State :=
  (List.finRange 8).foldl (fun s p =>
    let x := portGet p s
    let gone := x.issued.tail.filter fun o => o.use.work == some w
    let s := portPut p { x with issued := x.issued.filter fun o => !gone.contains o } s
    gone.foldl (fun s o => poolGive (pMember p) o.payer 1 s) s) s

/-- The lock of a VERIFY's step whose flush is under way becomes the flush's own (R463). -/
def keepStep (i : Nat) (s : State) : State :=
  match s.queues.locks.find? fun (_, l) => l.work == .cmd i && l.kind == .child with
  | none => s
  | some (n, l) => match s.skb.flushes.find? fun f =>
      f.nolock && f.array == l.array && stripeLock f.array f.newRegion f.stripe .child (.cmd i) s ==
        { l with studio := none, sq := 0, place := 0 } with
    | none => s
    | some f => { s with queues := { s.queues with
        locks := kput n { l with work := .flush f.id, kind := .flush } s.queues.locks } }

/-- A command of the studio ends without completion: at once, or, where an attempt of it is on a bus or a burst of it
moves, when that ends (R463). -/
def resetCmd (i : Nat) (s : State) : State :=
  match slotGet i s with
  | none => s
  | some x =>
    let w := Work.cmd i
    let s := dropIssued w (dropOps (fun o => o.use.work == some w) (keepStep i s))
    if onBus w s || dataOn i s then
      slotPut i { x with orphan := true, cmd := none, stage := .waiting, bytes := [], tails := [], covers := [] }
        (lockDrop (fun l => l.work == w && l.kind == .child) s)
    else
      let s := cmdRelease i s
      poolGive pCmdSlot x.owner 1 { s with queues := { s.queues with slots := kdel i s.queues.slots } }

/-- The record is handed over: sealed, unretired, not SYSTEM's yet, and the studio's (R462). -/
def Rec.handed (st : Fin 8) (r : Rec) : Bool := r.kind != .parity && !r.retired && !r.system && r.studio == st

/-- The record program in flight counts as sealed and is the part's own from here on (R462). -/
def handProgram (st : Fin 8) (s : State) : Nat × State :=
  match s.nv.prog with
  | .record (some i) n r :: t =>
    if r.handed st then
      let s := poolMove pPage (some st) none r.units
        { s with nv := { s.nv with prog := .record none n { r with system := true } :: t } }
      (1, match r.kind, slotGet i s with
        | .trim, some x => slotPut i { x with reserved := 0 } s
        | _, _ => s)
    else (0, s)
  | _ => (0, s)

/-- Step 4, records: every sealed, unretired WRITE and TRIM record of the studio is handed to SYSTEM. -/
def handRecords (st : Fin 8) (s : State) : Nat × State :=
  let (k, s) := handProgram st s
  let l := s.skb.recs.filter fun (_, r) => r.handed st
  let s := l.foldl (fun s (_, r) => poolMove pPage (some st) none r.units s) s
  let hand (x : Nat × Rec) : Nat × Rec := if x.2.handed st then (x.1, { x.2 with system := true }) else x
  (k + l.length, { s with skb := { s.skb with recs := s.skb.recs.map hand } })

/-- Step 4, tiles: DIRTY tiles go to SYSTEM, clean ones that no work pins are freed, in both tiers. -/
def handTiles (st : Fin 8) (s : State) : State :=
  let mine := s.canvas.tiles.filter fun (_, t) => t.charge == some st
  let s := mine.foldl (fun s (n, t) =>
    if t.dirty then tilePut n { t with charge := none } (poolMove pTile (some st) none 1 s)
    else if t.pins == 0 then tileDrop n s else s) s
  (s.canvas.tier2.filter fun (_, t) => t.charge == some st).foldl (fun s (n, _) => tier2Drop n s) s

/-- Steps 6 and 7: the studio's interrupt bits, PEND, timer and FIFO, with its lens and its whistle number. -/
def resetAlias (st : Fin 8) (s : State) : State :=
  let a := aliasGet st s
  let s := aliasPut st { buf := a.buf, latch := a.latch, snap := a.snap, pioWait := a.pioWait } s
  { s with queues := { s.queues with pend := s.queues.pend.set st 0, timer := s.queues.timer.set st false } }

/-- A SOFT channel of the studio is reset (R256). -/
def resetChan (c : Fin 16) (s : State) : State :=
  let k := chanGet c s
  let s := match k.cur with
    | some x => descGive x s
    | none => s
  let gone (n : Nat) : Bool := (k.cur.map (·.id)) == some n
  chanPut c { user := k.user, cmode := k.cmode, studio := k.studio, prefetch := k.prefetch, poll := k.poll,
              ringLog2 := k.ringLog2, ringBase := k.ringBase, crecBase := k.crecBase, startIdx := k.startIdx,
              en := false, state := .disabled }
    { s with ledger := { s.ledger with waiting := s.ledger.waiting.filter fun r => match r.use with
      | .dmaDesc n => !gone n
      | .tiles _ => true } }

/-- Step 8: the studio's SOFT channels are reset, and its deficits are 0. -/
def resetChans (st : Fin 8) (s : State) : State :=
  let s := (List.finRange 16).foldl (fun s c =>
    if (chanGet c s).user == userSoft && (chanGet c s).studio == st then resetChan c s else s) s
  { s with members := { s.members with ports := s.members.ports.map fun p =>
      { p with deficit := p.deficit.set st 0 } } }

/-- The layer is fed from host memory on behalf of the studio (R510, R536). -/
def Layer.fedBy (l : Layer) (st : Fin 8) : Bool :=
  bits (l.act.get 0) 30 29 == 1 && bits (l.act.get 0) 10 8 == st.val && l.state != .idle && l.state != .stopped

/-- Layers that the studio feeds stop at the next boundary. -/
def resetLayers (st : Fin 8) (s : State) : State :=
  let stop (l : Layer) : Layer := if l.fedBy st && l.stopAt == .none then { l with stopAt := .studioReset } else l
  { s with palette := { s.palette with layers := s.palette.layers.map stop } }

/-- Queue transfers of the studio. -/
def Xfer.queueOf (st : Fin 8) (x : Xfer) : Bool :=
  match x.kind with
  | .fetch _ | .data _ _ | .post _ => x.studio == st
  | .desc _ | .soft _ _ _ _ | .refill _ => false

/-- An access by master cycles that the studio's transfers began is under way (R463). -/
def accessOf (st : Fin 8) (s : State) : Bool :=
  match s.hbu.access with
  | none => false
  | some a => a.behalf == st

/-- An accepted reset of a studio: its steps at T0 (R461 to R463). -/
def studioReset (st : Fin 8) (s : State) : State :=
  let l := studioSlots st s
  let dropped := (l.filter fun i => !postBegun i s).length
  let s := barPost st s
  let s := xferDrop (fun x => x.queueOf st && !begun x s) (resetQueues st s)
  let s := { s with ledger := { s.ledger with waiting := s.ledger.waiting.filter fun r => match r.use with
    | .tiles _ => r.who != some st
    | .dmaDesc _ => true } }
  let (handed, s) := handRecords st s
  let s := l.foldl (fun s i => resetCmd i s) s
  let s := resetLayers st (resetChans st (resetAlias st (handTiles st s)))
  let x := studioGet st s
  busRefresh (forcedUpdate (cleanTiles (studioPut st { x with
    state := .resetting, resets := ctrInc x.resets, resetTick := s.clk.tick.truncate 32,
    handed := BitVec.ofNat 16 handed, dropped := BitVec.ofNat 16 dropped } s)))

/-- A requested reset of one studio is accepted or ignored (R461). -/
def studioRequest (st : Fin 8) (s : State) : State :=
  let x := studioGet st s
  if atLevel2 s && (x.state == .active || x.state == .resetDone) then
    studioReset st (studioPut st { x with done := false } s)
  else logRec .studioRstIgnored [BitVec.ofNat 8 st.val, BitVec.ofNat 8 x.state.num] s

/-- A write of STUDIO_RST (R461). -/
def studioRst (mask : Byte) (s : State) : State :=
  (List.finRange 8).foldl (fun s st => if mask.getLsbD st.val then studioRequest st s else s) s

/-- STUDIO_RESET (R461). -/
def execStudioReset (mask : Byte) (s : State) : Out := .next (onlyIf (running s) (studioRst mask) s)

/-! ## The end of a reset (R464) -/

/-- Nothing that the studio held is still under way. -/
def studioQuiet (st : Fin 8) (s : State) : Bool :=
  (studioSlots st s).isEmpty && !accessOf st s && (allOps s).all (fun o => !(o.cls == .b && o.studio == st))
    && !(s.ring.reqs.any fun r => match r.kind with
      | .op _ => false
      | .psum p => p.cls == .b && p.studio == st)

/-- STUDIO_RESET_END (R464): the reset has ended; the audit runs at once, and the studio is RESET_DONE if it passes. -/
def studioResetEnd (st : Fin 8) (s : State) : State :=
  let x := studioGet st s
  let s := audit (some st) (studioPut st { x with resetTicks := s.clk.tick.truncate 32 - x.resetTick } s)
  if s.restart.level == .failstop then s
  else studioPut st { studioGet st s with state := .resetDone, done := true } s

/-- STUDIO_RESET_END. -/
def execStudioResetEnd (st : Fin 8) (s : State) : Out :=
  .next (onlyIf (unitsRun s && (studioGet st s).state == .resetting && studioQuiet st s) (studioResetEnd st) s)

/-! ## STUDIO_STAT (R466) -/

/-- STUDIO_STAT as it reads. -/
def studioStatWord (s : State) : Word :=
  (List.finRange 8).foldl (fun w st =>
    w ||| flg (24 + st.val) (studioGet st s).done ||| fld (2 * st.val) (studioGet st s).state.num) 0

/-- A DONE bit written 1 (R457). -/
def studioAck (st : Fin 8) (s : State) : State :=
  let x := studioGet st s
  if x.state == .resetDone then
    studioPut st { x with done := false, state := if x.cfg.en && atLevel2 s then .active else .idle } s
  else s

/-- A W1C write of STUDIO_STAT.DONE. -/
def studioDone (mask : Byte) (s : State) : State :=
  (List.finRange 8).foldl (fun s st => if mask.getLsbD st.val then studioAck st s else s) s

/-- STUDIO_DONE_ACK (R457). -/
def execStudioDoneAck (mask : Byte) (s : State) : Out := .next (onlyIf (unitsRun s) (studioDone mask) s)

/-- An arrival at LEVEL2 makes every enabled studio ACTIVE (R457). -/
def studiosUp (s : State) : State :=
  { s with studios := s.studios.map fun x => if x.cfg.en then { x with state := .active } else x }

/-- A departure from LEVEL2 makes every studio IDLE (R457). -/
def studiosDown (s : State) : State :=
  { s with studios := s.studios.map fun x => { x with state := .idle, done := false } }

end Sys2Proof.Machine
end

