-- ==== Sys2Proof/Machine/Ring.lean ====
section
/-! DEFINITION. The Ferek ring's links: training, breaks, LINK flits, resending, the receipt and forwarding of packets,
and the manager's roll call (R467 to R490, R495 to R497). -/

namespace Sys2Proof.Machine

/-! ## Link states (R469) -/

/-- The port may leave DARK: enabled, PLL locked, not FAILSTOP, not held dark by order; a worker in NVCFG_LOST keeps its
ports DARK (R469, R488). -/
def linkMay (fb : Bool) (s : State) : Bool :=
  unitsUp s && (rport fb s).en && s.clk.pllLock && !s.power.heldDark && !(s.restart.nvcfgLost && !isManager s)

/-- Every RING_CREDIT unit of a port becomes FREE (R474). -/
def creditsFree (fb : Bool) (s : State) : State :=
  [0, 1, 2].foldl (fun s ch => poolGive (pRing fb ch) none (poolGet (pRing fb ch) s).system s) s

/-- Packets that came from the port's receive buffer and wait elsewhere are lost with it. -/
def dropFrom (fb : Bool) (s : State) : State :=
  let q := rport (!fb) s
  rportPut (!fb) { q with out := q.out.filter fun p => p.via != some fb } s

/-- The port's link leaves TRAINING or UP: what it held is discarded, its credits are FREE, and packets that waited here are
discarded too, those to be forwarded returning the credits of their own port (R474, R480). -/
def linkDown (fb : Bool) (l : Link) (s : State) : State :=
  let q := rport fb s
  let s := dropFrom fb (creditsFree fb (rportPut fb (q.down l) s))
  irqSet irqRing (q.out.foldl (fun s p =>
    let s := discarded p.p s
    match p.via with
    | some b => creditBack b p.p.ch p.len s
    | none => s) s)

/-- A port whose conditions hold leaves DARK for TRAINING. -/
def linkTrain (fb : Bool) (s : State) : State :=
  let q := rport fb s
  if q.link == .dark && linkMay fb s then irqSet irqRing (rportPut fb { q with link := .training } s) else s

/-- Both ports train where their conditions have come to hold (R469). -/
def ringTrain (s : State) : State := linkTrain true (linkTrain false s)

/-- LINK_TRAINING_START (R469). -/
def execLinkTrainingStart (fb : Bool) (s : State) : Out := .next (linkTrain fb s)

/-- FORWARDED_CLOCK_SEEN (R469). -/
def execForwardedClockSeen (fb : Bool) (s : State) : Out := .next (linkTrain fb s)

/-- TRAINING_TIMEOUT (R469). -/
def execTrainingTimeout (fb : Bool) (s : State) : Out :=
  .next (onlyIf (unitsUp s && (rport fb s).link == .training) (linkDown fb .dark) s)

/-- BROKEN_HOLD_EXPIRY (R469). -/
def execBrokenHoldExpiry (fb : Bool) (s : State) : Out :=
  .next (onlyIf (unitsUp s && (rport fb s).link == .broken) (linkDown fb .dark) s)

/-! ## The manager's roll call: start (R481, R483) -/

/-- Roll calls run: on a manager, once its tables are loaded. -/
def rollsRun (s : State) : Bool :=
  unitsUp s && isManager s && !s.restart.nvcfgLost && s.clk.pllLock &&
    (s.restart.level != .level0 || decide (5 ≤ s.restart.stage.val))

/-- A broadcast of the manager goes out of every UP port. -/
def broadcast (kind : Byte) (flits : Bool → List Dword) (s : State) : State :=
  [false, true].foldl (fun s fb =>
    if (rport fb s).link == .up then
      ringSend fb { kind := kind, p := { managerPkt 0 0 0 0 (flits fb) s with bcast := true } } s
    else s) s

/-- A roll call starts: the next epoch, a NONCE from TICK_LO, ROLL_CALL on every UP port. -/
def rollStart (s : State) : State :=
  let nonce : Half := s.clk.tick.truncate 16
  let s := { s with ring := { s.ring with
    rollSeq := s.ring.rollSeq + 1, nonce := some nonce, roll := some { start := s.clk.tick.toNat }, rollAgain := false } }
  broadcast 0x01 (fun fb => [s.ident.fabricId, BitVec.ofNat 64 (nonce.toNat + (if fb then 2 ^ 20 else 0))]) s

/-- An event that calls for a roll call (R483): it starts one, or another after the one under way. -/
def rollEvent (s : State) : State :=
  if !rollsRun s then s
  else if s.ring.roll.isSome then { s with ring := { s.ring with rollAgain := true } }
  else rollStart s

/-- ROLL_CALL_START (R483). -/
def execRollCallStart (s : State) : Out := .next (rollEvent s)

/-! ## Links up and broken (R470, R474) -/

/-- LINK state codes (R495). -/
def Link.num : Link → Nat
  | .dark => 0 | .training => 1 | .up => 2 | .broken => 3

/-- A link has entered or left UP: the manager's roll call, or a worker's note (R478, R483). -/
def linkEvent (s : State) : State :=
  if isManager s then rollEvent s
  else sendUp 0x06 0 0 0 [BitVec.ofNat 64 (s.ring.fa.link.num + 4 * s.ring.fb.link.num)] s

/-- TRAINING_COMPLETE (R470): UP with all credits. -/
def execTrainingComplete (fb : Bool) (s : State) : Out :=
  .next (onlyIf (unitsUp s && (rport fb s).link == .training) (fun s => linkEvent (linkDown fb .up s)) s)

/-- An UP link breaks (R474). -/
def linkBreak (fb : Bool) (s : State) : State :=
  if (rport fb s).link == .up then linkEvent (linkDown fb .broken s) else s

/-- LINK_BREAK (R474). -/
def execLinkBreak (fb : Bool) (s : State) : Out := .next (onlyIf (unitsUp s) (linkBreak fb) s)

/-- A port goes DARK by order, by RING_CTRL or for DOZE; leaving UP is an event (R469). -/
def linkDark (fb : Bool) (s : State) : State :=
  match (rport fb s).link with
  | .up => linkEvent (linkDown fb .dark s)
  | .training => linkDown fb .dark s
  | .dark | .broken => s

/-- Both ports are held dark by order: no break, and no roll call (R95, R469). -/
def linksOrdered (s : State) : State :=
  let dark (fb : Bool) (s : State) : State :=
    match (rport fb s).link with
    | .up | .training => linkDown fb .dark s
    | .dark | .broken => s
  dark true (dark false { s with power := { s.power with heldDark := true } })

/-- The order is lifted: each enabled port trains at once (R96). -/
def linksLifted (s : State) : State := ringTrain { s with power := { s.power with heldDark := false } }

/-! ## Acknowledgement and resending (R472, R476) -/

/-- One episode of resending: every unacknowledged packet goes out again; the eighth in a row breaks the link. -/
def episode (fb : Bool) (s : State) : State :=
  let q := rport fb s
  let s := rportPut fb { q with episodes := q.episodes + 1, resends := ctrInc q.resends } s
  if 8 ≤ q.episodes + 1 then linkBreak fb s else s

/-- Packets up to the acknowledged LSEQ leave the replay store; an advance resets the count of episodes. -/
def RPort.acked (lseq : BitVec 6) (q : RPort) : RPort :=
  match q.replay.findIdx? fun p => p.p.lseq == lseq with
  | none => q
  | some i => { q with replay := q.replay.drop (i + 1), episodes := 0 }

/-- Credits that a LINK flit returns. -/
def creditsIn (fb : Bool) (w : Dword) (s : State) : State :=
  let f (hi lo : Nat) : Nat := (w.toNat >>> lo) % 2 ^ (hi + 1 - lo)
  [(0, f 63 56, f 39 37), (1, f 55 48, f 36 34), (2, f 47 40, f 33 31)].foldl
    (fun s (ch, d, h) =>
      let q := rport fb s
      poolGive (pRing fb ch) none (min d (poolGet (pRing fb ch) s).system)
        (rportPut fb { q with hcred := q.hcred.set ch (min 4 (q.hcred.get ch + h)) } s)) s

/-- A LINK flit arrives (R476). -/
def linkFlit (fb : Bool) (w : Dword) (s : State) : State :=
  let s := creditsIn fb w s
  let q := rport fb s
  let s := rportPut fb (if w.getLsbD 30 then q.acked (w.extractLsb' 24 6) else q) s
  let s := if w.getLsbD 23 && !(rport fb s).replay.isEmpty then episode fb s else s
  pump fb ((rport fb s).out.length + 1) s

/-- LINK_FLIT (R476). -/
def execLinkFlit (fb : Bool) (payload : Dword) (s : State) : Out :=
  .next (onlyIf (unitsUp s && (rport fb s).link == .up) (linkFlit fb payload) s)

/-- LINK_FLIT_TIMER (R476). -/
def execLinkFlitTimer (fb : Bool) (s : State) : Out :=
  .next (onlyIf (unitsUp s && (rport fb s).link == .up) (sendLink fb) s)

/-- A receive error (R472): one LINK flit with NAK, then nothing until the expected HEAD. -/
def receiveError (fb : Bool) (s : State) : State :=
  let q := rport fb s
  if q.discarding then s else sendLink fb (rportPut fb { q with discarding := true, nak := true } s)

/-- PACKET_RECEIVE_ERROR (R472, R565): a flit that fails its CRC is counted. -/
def execPacketReceiveError (fb crc : Bool) (s : State) : Out :=
  .next (onlyIf (unitsUp s && (rport fb s).link == .up) (fun s =>
    receiveError fb (if crc then counterInc 0x83 s else s)) s)

/-- RESEND_TIMEOUT (R472). -/
def execResendTimeout (fb : Bool) (s : State) : Out :=
  .next (onlyIf (unitsUp s && (rport fb s).link == .up && !(rport fb s).replay.isEmpty) (episode fb) s)

/-! ## Receipt (R472, R473, R477, R478, R480) -/

/-- Flit i of a packet. -/
def flit (p : Pkt) (i : Nat) : Dword := p.flits.getD i 0

/-- A field of a flit. -/
def dbits (d : Dword) (hi lo : Nat) : Nat := (d.toNat >>> lo) % 2 ^ (hi + 1 - lo)

/-- LEN of a kind lies in the table of R478. -/
def lenOk (kind : Byte) (n : Nat) : Bool :=
  match kind.toNat with
  | 0x01 | 0x02 | 0x03 => n == 2
  | 0x04 | 0x07 | 0x08 | 0x0D | 0x27 => n == 0
  | 0x05 | 0x06 | 0x0B | 0x0C | 0x20 | 0x22 | 0x24 => n == 1
  | 0x09 | 0x25 => decide (1 ≤ n) && decide (n ≤ 8)
  | 0x0A => n == 16
  | 0x0E => n == 4
  | 0x21 | 0x23 | 0x26 => n == 64
  | _ => false

/-- The packet carries class C traffic, as its descriptor says (R444, R479). -/
def packetC (kind : Byte) (p : Pkt) : Bool :=
  match kind.toNat with
  | 0x20 | 0x22 | 0x24 | 0x25 => dbits (flit p 0) 61 60 == 3
  | _ => false

/-- This node consumes the packet (R477, R480). -/
def consumes (p : Pkt) (s : State) : Bool :=
  isManager s || p.bcast || (if p.path then p.dst == 1 else p.dst == s.ident.node && s.ident.node != 0)

/-- The packet goes on past this node. -/
def forwards (p : Pkt) (s : State) : Bool := !isManager s && (p.bcast || !consumes p s)

/-- A packet is forwarded out of the other port; where that is not UP it is discarded and counted (R480). -/
def forward (fb : Bool) (kind : Byte) (p : Pkt) (s : State) : State :=
  let p := if p.path then { p with dst := p.dst - 1 } else p
  let q := rport (!fb) s
  if q.link == .up then
    pump (!fb) (q.out.length + 1)
      (rportPut (!fb) { q with out := q.out ++ [{ kind := kind, p := p, classC := packetC kind p, via := some fb }] } s)
  else creditBack fb p.ch p.flits.length (discarded p s)

/-- A whole packet has been received with good CRCs: out of order it is an error; accepted, it is checked, consumed with
its own effect, and forwarded. -/
def receive (fb : Bool) (kind : Byte) (p : Pkt) (act : State → State) (s : State) : State :=
  let q := rport fb s
  if p.lseq != q.rxSeq then receiveError fb s
  else
    let s := rportPut fb { q with rxSeq := q.rxSeq + 1, gotAny := true, discarding := false } s
    if !lenOk kind p.flits.length then creditBack fb p.ch p.flits.length (counterInc 0x81 s)
    else
      let fwd := forwards p s
      let s := if consumes p s then act s else s
      if fwd then forward fb kind p s else creditBack fb p.ch p.flits.length s

/-- The receipt of a packet of a kind on an UP port. -/
def received (fb : Bool) (kind : Byte) (p : Pkt) (act : State → State) (s : State) : Out :=
  .next (onlyIf (unitsUp s && (rport fb s).link == .up) (receive fb kind p act) s)

/-- PACKET_FORWARD (R480): a packet that this node does not consume, of any kind. -/
def execPacketForward (fb : Bool) (kind : Byte) (p : Pkt) (s : State) : Out :=
  .next (onlyIf (unitsUp s && (rport fb s).link == .up && !consumes p s) (receive fb kind p id) s)

/-- What only the manager does. -/
def onManager (f : State → State) (s : State) : State := onlyIf (isManager s) f s

/-- What only a worker does. -/
def onWorker (f : State → State) (s : State) : State := onlyIf (!isManager s) f s

/-- The mask of this node's ports whose SDn_CD_N is accepted low. -/
def cardMask (s : State) : Byte :=
  BitVec.ofNat 8 ((List.finRange 8).foldl (fun n p => if (portGet p s).cdLow then n + 2 ^ p.val else n) 0)

/-! ## ROLL_CALL and ROLL_ANSWER (R483, R487) -/

/-- A worker receives ROLL_CALL: it records its hops and the port, and answers out of that port, with END where it
cannot forward. -/
def rollCallWorker (fb : Bool) (p : Pkt) (s : State) : State :=
  let hops : BitVec 4 := BitVec.ofNat 4 (dbits (flit p 1) 19 16 + 1)
  let s := { s with ring := { s.ring with toward := fb, hops := hops, fabric := flit p 0 } }
  let last := (rport (!fb) s).link != .up
  let f : Dword := BitVec.ofNat 64 (s.ident.node.toNat + hops.toNat * 2 ^ 4 + (if fb then 2 ^ 8 else 0)
    + (if last then 2 ^ 9 else 0) + (if s.restart.level == .level0 then 2 ^ 10 else 0)
    + Config.revCode.toNat * 2 ^ 16 + (cardMask s).toNat * 2 ^ 24)
  sendUp 0x02 0 0 0 [s.ident.fabricId, f] s

/-- The manager receives a ROLL_CALL: its own has returned, or it has met another manager (R487). -/
def rollCallManager (fb : Bool) (p : Pkt) (s : State) : State :=
  let nonce : Half := (flit p 1).truncate 16
  if s.ring.nonce == some nonce then
    match s.ring.roll with
    | some r =>
      if r.acks.isNone then
        { s with ring := { s.ring with roll := some { r with returned := some (dbits (flit p 1) 19 16) } } }
      else s
    | none => s
  else
    let again := s.ring.rollAgain
    let s := { s with ring := { s.ring with roll := none, rollAgain := false, shape := 3, twoManagers := true } }
    let s := irqSet irqRing (logRec .rollFault (leBytes 2 nonce.toNat ++ [if fb then 1 else 0]) s)
    if again then rollEvent s else s

/-- The ROLL_CALL as it is forwarded: its HOPS counts this worker. -/
def rollCallOn (p : Pkt) : Pkt :=
  let f := flit p 1
  { p with flits := p.flits.set 1 ((f &&& ~~~ 0xF0000#64) ||| BitVec.ofNat 64 ((dbits f 19 16 + 1) % 16 * 2 ^ 16)) }

/-- ROLL_CALL (R483). -/
def execRollCall (fb : Bool) (p : Pkt) (s : State) : Out :=
  if isManager s then received fb 0x01 p (rollCallManager fb p) s
  else .next (onlyIf (unitsUp s && (rport fb s).link == .up) (fun s =>
    receive fb 0x01 (rollCallOn p) (rollCallWorker fb p) s) s)

/-- ROLL_ANSWER (R483): the manager collects a worker's answer, with the CCLK since its ROLL_CALL was sent. -/
def execRollAnswer (fb : Bool) (p : Pkt) (rtt : Half) (s : State) : Out :=
  received fb 0x02 p (onManager fun s => match s.ring.roll with
    | some r =>
      if r.acks.isNone then
        let f := flit p 1
        let a : Answer :=
          { side := fb, hops := f.extractLsb' 4 4, fabricId := flit p 0, node := f.extractLsb' 0 4,
            last := f.getLsbD 9, level0 := f.getLsbD 10, rev := f.extractLsb' 16 8, ports := f.extractLsb' 24 8,
            rtt := rtt, seen := s.clk.tick.truncate 32 }
        { s with ring := { s.ring with roll := some { r with answers := r.answers ++ [a] } } }
      else s
    | none => s) s

/-! ## RING_STAT (R495) -/

/-- RING_STAT as it reads. -/
def ringStatWord (s : State) : Word :=
  fld 30 s.ring.shape.toNat ||| fld 28 s.ring.fa.link.num ||| fld 26 s.ring.fb.link.num ||| flg 25 s.ring.roll.isSome
    ||| flg 24 s.ring.twoManagers ||| fld 20 s.ring.workers.toNat ||| fld 16 s.ring.unreach.toNat
    ||| fld 0 (if isManager s then s.ring.rollSeq else s.ring.epoch).toNat

end Sys2Proof.Machine
end

