-- ==== Sys2Proof/Machine/Fabric.lean ====
section
/-! DEFINITION. The fabric: numbering, ROLL_DONE, unreachable nodes, the requests that the manager makes and a worker
serves, reports and orders, RING_CTRL and RING_NODE (R95, R170, R449, R478 to R497, R566). -/

namespace Sys2Proof.Machine

/-! ## REFEREE entries as words (R448) -/

/-- The words of a REFEREE entry. -/
def refWords (s : State) (e : Nat) : List Word :=
  let r := s.referee
  let c := r.cfg
  if e < 8 then [fld 0 (c.weight.get (fin8 e)).toNat, r.bSectors.get (fin8 e), 0, 0]
  else if e = 8 then [fld 16 c.issueAhead ||| fld 8 c.aMaxPct ||| fld 0 c.cMinPct, 0, 0, 0]
  else if e = 9 then
    [fld 16 c.resDma ||| fld 0 c.resLock, fld 16 c.resPage ||| fld 0 c.resTile,
     fld 16 (r.tilesAdm % 2 ^ 16) ||| fld 0 c.streamTiles, 0]
  else if e < 14 then
    let a : Fin 4 := Fin.ofNat 4 (e - 10)
    [fld 0 (c.readKbs.get a), fld 0 (min (2 ^ 24 - 1) (r.mAdm.get a)), fld 0 (min (2 ^ 24 - 1) (r.ringAdm.get a)), r.aLate.get a]
  else [0, 0, 0, 0]

/-- The RWC fields of a REFEREE entry taken from its words. -/
def RefCfg.put (c : RefCfg) (e : Nat) (w : List Word) : RefCfg :=
  let w0 := wordAt w 0
  let w1 := wordAt w 1
  if e < 8 then { c with weight := c.weight.set (fin8 e) (BitVec.ofNat 8 (bits w0 7 0)) }
  else if e = 8 then { c with issueAhead := bits w0 19 16, aMaxPct := bits w0 15 8, cMinPct := bits w0 7 0 }
  else if e = 9 then
    { c with resDma := bits w0 31 16, resLock := bits w0 15 0, resPage := bits w1 31 16, resTile := bits w1 15 0,
             streamTiles := bits (wordAt w 2) 15 0 }
  else if e < 14 then { c with readKbs := c.readKbs.set (Fin.ofNat 4 (e - 10)) (bits w0 23 0) }
  else c

/-- The nodes that answered the latest roll call as numbered workers. -/
def workerList (s : State) : List (BitVec 4) :=
  ((List.range 16).map (BitVec.ofNat 4)).filter fun k => (s.ring.nodes.get k.toFin).status == .worker

/-- A table entry's RWC words go to a worker: ARG holds its space and its index (R449, R478). -/
def tableFwd (k : BitVec 4) (space : Nat) (e : Nat) (w : List Word) (s : State) : State :=
  let flits : List Dword := (List.range ((w.length + 1) / 2)).map fun i => wordAt w (2 * i + 1) ++ wordAt w (2 * i)
  sendTo k 0x09 (managerPkt k 0 0 (BitVec.ofNat 16 (256 * space + e)) flits s) false s

/-- A REFEREE entry goes to every worker. -/
def refForward (e : Nat) (s : State) : State :=
  (workerList s).foldl (fun s k => tableFwd k 0x0D e (refWords s e) s) s

/-! ## Numbering (R484, R485) -/

/-- The answer of one side at a hop count. -/
def Roll.at' (r : Roll) (side : Bool) (h : Nat) : Option Answer :=
  r.answers.find? fun a => a.side == side && a.hops.toNat == h

/-- The workers that a roll call found, in roll-call order, with their hop counts (R484). -/
def Roll.found (r : Roll) : List (Answer × BitVec 4 × BitVec 4) :=
  match r.returned with
  | some n => (List.range n).filterMap fun i =>
      let h := i + 1
      ((r.at' false h).orElse fun _ => r.at' true (n + 1 - h)).map fun a =>
        (a, BitVec.ofNat 4 h, BitVec.ofNat 4 (n + 1 - h))
  | none =>
    let side (b : Bool) : List (Answer × BitVec 4 × BitVec 4) := (List.range 15).filterMap fun i =>
      (r.at' b (i + 1)).map fun a =>
        (a, (if b then 0 else BitVec.ofNat 4 (i + 1)), if b then BitVec.ofNat 4 (i + 1) else 0)
    side false ++ side true

/-- The node was made UNREACHABLE by a timeout less than 1 s before the roll call started (R482). -/
def excluded (r : Roll) (a : Answer) (s : State) : Bool :=
  a.node != 0 && a.fabricId == s.ident.fabricId && (match (s.ring.nodes.get a.node.toFin).verdict with
    | some t => decide (r.start < t + 100000)
    | none => false)

/-- The lowest number that is neither on the roster nor taken. -/
def freeNumber (roster : Vector Bool 16) (taken : List (BitVec 4)) : Option (BitVec 4) :=
  ((List.range 15).map fun i => BitVec.ofNat 4 (i + 1)).find? fun k => !roster.get k.toFin && !taken.contains k

/-- What becomes of one worker: its status and its number (R485). -/
def numberOne (fid : Dword) (roster : Vector Bool 16) (adopt : Option (Dword × BitVec 4)) (taken : List (BitVec 4))
    (a : Answer) : NStatus × BitVec 4 :=
  let blank := a.fabricId == 0 || adopt == some (a.fabricId, a.node)
  if !blank && a.fabricId != fid then (.foreign, a.node)
  else if !blank && a.node != 0 && !taken.contains a.node then (.worker, a.node)
  else match freeNumber roster taken with
    | some k => (.worker, k)
    | none => (.unnumbered, 0)

/-- The numbering of every worker, in order. -/
def numberAll (fid : Dword) (roster : Vector Bool 16) (adopt : Option (Dword × BitVec 4)) :
    List (BitVec 4) → List (Answer × BitVec 4 × BitVec 4) → List Numbered
  | _, [] => []
  | taken, (a, ha, hb) :: t =>
    let (out, k) := numberOne fid roster adopt taken a
    ⟨a, ha, hb, out, k⟩ :: numberAll fid roster adopt (if out == .worker then k :: taken else taken) t

/-- A numbered worker needs a ROLL_ASSIGN. -/
def Numbered.assigned (n : Numbered) (fid : Dword) : Bool :=
  n.out == .worker && (n.a.fabricId != fid || n.a.node != n.node)

/-- The side and hop count of the shorter path. -/
def Numbered.path (n : Numbered) : Bool × BitVec 4 :=
  if n.hopsA != 0 && (n.hopsB == 0 || n.hopsA ≤ n.hopsB) then (false, n.hopsA) else (true, n.hopsB)

/-- ROLL_ASSIGN goes out by path (R478). -/
def sendAssign (n : Numbered) (s : State) : State :=
  let (fb, h) := n.path
  ringSend fb { kind := 0x03, p := { managerPkt h 0 0 0 [s.ident.fabricId, BitVec.ofNat 64 n.node.toNat] s with path := true } } s

/-! ## Members of nodes (R340, R489) -/

/-- The members of a node that cannot be reached become MISSING. -/
def nodeLost (k : BitVec 4) (s : State) : State :=
  (List.finRange 8).foldl (fun s p =>
    let m : Fin 128 := Fin.ofNat 128 (8 * k.toNat + p.val)
    if (memGet m s).state == .active then memberLost m .missing (memState m .missing chUnreachable s) else s) s

/-- A partial sum is there, with the mask of ports whose reads failed: those chunks are unobtainable, and a sum that lacks
one is of no use (R398, R492). -/
def psumEnd (p : Psum) (k : BitVec 4) (sum : List (BitVec 4096)) (failed : Byte) (s : State) : State :=
  let at' (x : Nat) : ChunkAt := ⟨p.array, p.newRegion, p.stripe, x⟩
  match tileFind (.sum p.w (at' p.pos) p.row k) s with
  | none => reap p.w s
  | some (n, t) =>
    let bad := p.chunks.filter fun (_, port) => failed.getLsbD port.val
    let s := bad.foldl (fun s (y, _) => markFailed p.w (at' y) p.row s) s
    reap p.w (if bad.isEmpty then tilePut n { t with valid := 0xFF, data := tileOf sum } s else tileDrop n s)

/-- A request ends without an answer: its member is lost to it (R481). -/
def reqLost (r : RReq) (s : State) : State :=
  match r.kind with
  | .op o => opResult o .lost s
  | .psum p => psumEnd p r.node [] 0xFF s

/-- Outstanding requests after ROLL_DONE: reissued to reachable nodes with new tags, ended otherwise (R481). -/
def reissueAll (s : State) : State :=
  let l := s.ring.reqs
  l.foldl (fun s r => if nodeReached r.node s then ringRequest r.node r.kind s else reqLost r s)
    { s with ring := { s.ring with reqs := [] } }

/-! ## The end of a roll call (R483, R489, R497) -/

/-- The entry of a numbered worker. -/
def RNode.seen (o : RNode) (n : Numbered) (fid : Dword) (epoch : Byte) : RNode :=
  { o with
    status := n.out, node := n.node, hopsA := n.hopsA, hopsB := n.hopsB, ports := n.a.ports,
    fabricId := if n.out == .worker then fid else n.a.fabricId, rev := n.a.rev, atLevel0 := n.a.level0, seq := epoch,
    lastSeen := n.a.seen, rtt := n.a.rtt, verdict := none }

/-- A node becomes UNREACHABLE. -/
def RNode.gone (o : RNode) : RNode :=
  { o with
    status := .unreachable, hopsA := 0, hopsB := 0, afresh := 0xFF, lost := if o.status == .unreachable then o.lost else ctrInc o.lost }

/-- A worker's resend counters come to the manager in no packet that the manual gives: each roll call leaves them at
free values. -/
def RNode.freeResends (o : RNode) (i : Nat) : RNode :=
  { o with resendA := (Config.freeWord i 0).truncate 16, resendB := (Config.freeWord i 1).truncate 16 }

/-- Entries 1 to 15 by number; a worker that has not come back from DOZE keeps its entry (R95, R96; log entry 122). -/
def nodesNumbered (r : Roll) (s : State) : Vector RNode 16 :=
  Vector.ofFn fun i =>
    let o := s.ring.nodes.get i
    if i.val = 0 then { lastSeen := s.clk.tick.truncate 32 }
    else match r.plan.find? fun n => n.out == .worker && n.node.toNat == i.val with
      | some n => (o.seen n s.ident.fabricId s.ring.rollSeq).freeResends (s.freeCtr + 2 * i.val)
      | none =>
        if s.power.asleep.contains (BitVec.ofNat 4 i.val) then o
        else if s.roster.get i then { o.gone with node := BitVec.ofNat 4 i.val, fabricId := s.ident.fabricId } else {}

/-- FOREIGN and UNNUMBERED nodes take the highest free entries. -/
def nodesOther (r : Roll) (epoch : Byte) (i : Nat) (t : Vector RNode 16) : Vector RNode 16 :=
  (r.plan.filter fun n => n.out != .worker).foldl (fun t n =>
    match ((List.finRange 16).reverse).find? fun k => k.val ≠ 0 && (t.get k).status == .none with
    | some k => t.set k ((({} : RNode).seen n 0 epoch).freeResends (i + 2 * k.val))
    | none => t) t

/-- ROLL_DONE, RING_STAT and RING_NODE; then requests are reissued or ended, the REFEREE entries go out, and an event
that came meanwhile starts another roll call (R481 to R483, R489). -/
def rollFinish (s : State) : State :=
  match s.ring.roll with
  | none => s
  | some r =>
    let shape : BitVec 2 := if r.returned.isSome then 1 else if r.answers.isEmpty then 0 else 2
    let again := s.ring.rollAgain
    let nodes := nodesOther r s.ring.rollSeq s.freeCtr (nodesNumbered r s)
    let back (k : BitVec 4) : Bool := r.plan.any fun n => n.out == .worker && n.node == k
    let s := { s with power := { s.power with asleep := s.power.asleep.filter (!back ·) } }
    let s := { s with freeCtr := s.freeCtr + 32, ring := { s.ring with
      shape := shape, twoManagers := false, nodes := nodes, roll := none, rollAgain := false
      adopt := if again then s.ring.adopt else none
      workers := BitVec.ofNat 4 (r.plan.filter fun n => n.out == .worker).length
      unreach := BitVec.ofNat 4 (nodes.toList.filter fun n => n.status == .unreachable).length } }
    let s := irqSet irqRing (broadcast 0x05 (fun _ => [BitVec.ofNat 64 shape.toNat]) s)
    let s := (List.range 10).foldl (fun s e => refForward e s) s
    let lost := ((List.range 16).map (BitVec.ofNat 4)).filter fun k => (s.ring.nodes.get k.toFin).status == .unreachable
    let s := reissueAll (lost.foldl (fun s k => nodeLost k s) s)
    if again then rollEvent s else s

/-- Collection of answers ends: the workers are numbered, the roster is committed where it changes, and ROLL_ASSIGN
goes to each worker that needs it (R483, R485, R486). -/
def rollCollectEnd (s : State) : State :=
  match s.ring.roll with
  | none => s
  | some r =>
    if r.acks.isSome then s
    else
      let found := r.found.filter fun f => !excluded r f.1 s
      let s := if !found.isEmpty && s.ident.fabricId == 0 then nvCommit .keep s else s
      let fid := s.ident.fabricId
      let plan := numberAll fid s.roster s.ring.adopt [] found
      let s := plan.foldl (fun s n => if n.out == .unnumbered then
        logRec .rollFull [BitVec.ofNat 8 n.path.2.toNat, if n.path.1 then 1 else 0] s else s) s
      let roster := plan.foldl (fun t n => if n.out == .worker then t.set n.node.toFin true else t) s.roster
      let s := if roster = s.roster then s else nvCommit .keep { s with roster := roster }
      let todo := plan.filter fun n => n.assigned fid
      let s := { s with ring := { s.ring with roll := some { r with plan := plan, acks := some (todo.map (·.node)) } } }
      let s := todo.foldl (fun s n => sendAssign n s) s
      if todo.isEmpty then rollFinish s else s

/-- Collection is over: the ROLL_CALL has returned, or each UP port's side has given an answer with END, or 2 ms have
passed since the start (R483). -/
def collected (s : State) : Bool :=
  match s.ring.roll with
  | none => false
  | some r => r.returned.isSome || decide (r.start + 200 ≤ s.clk.tick.toNat) ||
      [false, true].all fun fb => (rport fb s).link != .up || r.answers.any fun a => a.side == fb && a.last

/-- ROLL_CALL_COLLECT_END (R483). -/
def execRollCallCollectEnd (s : State) : Out := .next (onlyIf (rollsRun s && collected s) rollCollectEnd s)

/-- ROLL_ACK (R485). -/
def execRollAck (fb : Bool) (p : Pkt) (s : State) : Out :=
  received fb 0x04 p (onManager fun s => match s.ring.roll with
    | some r => match r.acks with
      | some l =>
        let l := l.erase p.src
        let s := { s with ring := { s.ring with roll := some { r with acks := some l } } }
        if l.isEmpty then rollFinish s else s
      | none => s
    | none => s) s

/-- ROLL_ASSIGN (R485): the worker makes one NV commit with its new identity and number. -/
def execRollAssign (fb : Bool) (p : Pkt) (s : State) : Out :=
  received fb 0x03 p (onWorker (nvCommit (.assign (flit p 0) ((flit p 1).truncate 4) p.tag))) s

/-- Work of older epochs is dropped: requests not yet on a bus, and replies not yet sent (R481). -/
def dropEpochs (e : Byte) (s : State) : State :=
  let old (w : Option Work) : Bool := match w with
    | some (.remote _ f) => f != e
    | some _ | none => false
  let s := dropOps (fun o => old o.use.work) s
  let s := (s.ring.served.filter fun v => v.epoch != e).foldl (fun s v => servedDrop v s) s
  let late (p : Packet) : Bool :=
    p.via.isNone && p.p.epoch != e && (p.kind == 0x21 || p.kind == 0x26 || p.kind == 0x27)
  let keep (q : RPort) : RPort := { q with out := q.out.filter fun p => !late p }
  let stays (o : ProgOp) : Bool := match o with
    | .land _ f _ => f == e
    | .page _ _ _ | .record _ _ _ | .parity _ _ _ | .nv | .session _ | .bbox _ _ | .retire _ | .trimDone _ _ => true
  { s with
    ring := { s.ring with fa := keep s.ring.fa, fb := keep s.ring.fb }
    nv := { s.nv with prog := (s.nv.prog.zipIdx.filter fun o => o.2 == 0 || stays o.1).map (·.1) } }

/-- The worker is numbered in the fabric whose roll call it answered, by an earlier roll call or by this one (R485). -/
def numbered (s : State) : Bool := s.ident.node != 0 && s.ident.fabricId == s.ring.fabric

/-- ROLL_DONE (R481, R491, R495, R497): a numbered worker takes the epoch, drops older work and reports its ports. What
it shows as WORKERS and UNREACH comes in no field that the manual gives: free values. -/
def rollDone (p : Pkt) (s : State) : State :=
  let (i, s) := freeNext s
  let w := Config.freeWord i 0
  let s := irqSet irqRing { s with ring := { s.ring with
    shape := (flit p 0).truncate 2, workers := w.extractLsb' 0 4, unreach := w.extractLsb' 4 4, doneSeen := true } }
  if numbered s then
    let s := dropEpochs p.epoch { s with ring := { s.ring with epoch := p.epoch } }
    (List.finRange 8).foldl (fun s p => if (memGet (ownMember p s) s).state == .absent then s else memberReport p s) s
  else s

/-- ROLL_DONE. -/
def execRollDone (fb : Bool) (p : Pkt) (s : State) : Out := received fb 0x05 p (onWorker (rollDone p)) s

/-- LINK_NOTE (R483). -/
def execLinkNote (fb : Bool) (p : Pkt) (s : State) : Out := received fb 0x06 p (onManager rollEvent) s

/-! ## Timeouts (R482) -/

/-- The outstanding request with a tag. -/
def reqOf (k : BitVec 4) (tag : Byte) (s : State) : Option RReq := s.ring.reqs.find? fun r => r.node == k && r.tag == tag

/-- A request is replaced. -/
def reqPut (r u : RReq) (s : State) : State :=
  { s with ring := { s.ring with reqs := s.ring.reqs.map fun x => if x == r then u else x } }

/-- A request leaves the list. -/
def reqDrop (r : RReq) (s : State) : State := { s with ring := { s.ring with reqs := s.ring.reqs.erase r } }

/-- A node becomes UNREACHABLE at once, and a roll call follows (R482). -/
def verdict (k : BitVec 4) (s : State) : State :=
  let n := { (s.ring.nodes.get k.toFin).gone with verdict := some s.clk.tick.toNat }
  rollEvent (nodeLost k { s with ring := { s.ring with nodes := s.ring.nodes.set k.toFin n } })

/-- REQUEST_TIMEOUT (R482). -/
def execRequestTimeout (k : BitVec 4) (tag : Byte) (s : State) : Out :=
  .next (onlyIf (unitsUp s && isManager s) (fun s => match reqOf k tag s with
    | none => s
    | some r =>
      if r.parked then s
      else if r.reissued then verdict k s
      else sendTo k 0x07 (managerPkt k 0 tag 0 [] s) false (reqPut r { r with pinged := true } s)) s)

/-- PING_TIMEOUT (R482). -/
def execPingTimeout (k : BitVec 4) (tag : Byte) (s : State) : Out :=
  .next (onlyIf (unitsUp s && isManager s) (fun s => match reqOf k tag s with
    | some r => if r.pinged then verdict k s else s
    | none => s) s)

/-- PING (R482). -/
def execPing (fb : Bool) (p : Pkt) (s : State) : Out := received fb 0x07 p (onWorker (sendUp 0x08 0 p.tag 0 [])) s

/-- PONG (R482): the request is reissued once, with a new tag. -/
def pong (p : Pkt) (s : State) : State :=
  match reqOf p.src p.tag s with
  | some r =>
    if r.pinged then
      let s := reqDrop r s
      let t := freshTag p.src s
      let u : RReq := { tag := t, node := p.src, epoch := s.ring.rollSeq, kind := r.kind, reissued := true }
      sendReq u { s with ring := { s.ring with reqs := s.ring.reqs ++ [u], nextTag := t + 1 } }
    else s
  | none => s

/-- PONG. -/
def execPong (fb : Bool) (p : Pkt) (s : State) : Out := received fb 0x08 p (onManager (pong p)) s

/-! ## Answers to requests (R479, R481, R492) -/

/-- The outstanding request that a reply answers: its tag and its epoch match. -/
def answers (p : Pkt) (s : State) : Option RReq := (reqOf p.src p.tag s).filter fun r => r.epoch == p.epoch

/-- A sector of a read arrives. -/
def readData (p : Pkt) (s : State) : State :=
  match answers p s with
  | some r => reqPut r { r with got := r.got ++ [flitsSector p.flits] } s
  | none => s

/-- MREAD_DATA (R479). -/
def execMreadData (fb : Bool) (p : Pkt) (s : State) : Out := received fb 0x21 p (onManager (readData p)) s

/-- A sector of a partial sum arrives; the eighth ends the request. -/
def psumData (p : Pkt) (s : State) : State :=
  match answers p s with
  | none => s
  | some r => match r.kind with
    | .op _ => s
    | .psum q =>
      let got := r.got ++ [flitsSector p.flits]
      if got.length < 8 then reqPut r { r with got := got } s
      else psumEnd q r.node got (p.arg.extractLsb' 8 8) (reqDrop r s)

/-- PSUM_DATA (R492). -/
def execPsumData (fb : Bool) (p : Pkt) (s : State) : Out := received fb 0x26 p (onManager (psumData p)) s

/-- The result that an OP_DONE names (R478). -/
def opEndOf (code : Nat) (got : List (BitVec 4096)) : OpEnd :=
  match code with
  | 0 => .ok got
  | 1 => .unreadable got
  | 3 => .refused
  | _ => .lost

/-- A member operation of a worker has ended. -/
def opDone (p : Pkt) (s : State) : State :=
  match answers p s with
  | none => s
  | some r => match r.kind with
    | .psum _ => s
    | .op o => opResult o (opEndOf (p.arg.toNat % 256) r.got) (reqDrop r s)

/-- OP_DONE (R479). -/
def execOpDone (fb : Bool) (p : Pkt) (s : State) : Out := received fb 0x27 p (onManager (opDone p)) s

/-! ## What a worker serves (R479, R481, R492, R493) -/

/-- The worker takes requests of this epoch (R481, R485). -/
def takesReq (p : Pkt) (s : State) : Bool := numbered s && s.ring.doneSeen && p.epoch == s.ring.epoch

/-- The class that a descriptor names (R479). -/
def classOf (d : Dword) : OpClass :=
  match dbits d 61 60 with
  | 1 => .a
  | 2 => .b
  | _ => .c

/-- A served request from its descriptor: a class A deadline becomes this node's own TICK (R479). -/
def servedOf (kind : Byte) (p : Pkt) (d : Dword) (s : State) : Served :=
  { tag := p.tag, epoch := p.epoch, ch := p.ch, kind := kind, port := fin8 (dbits d 59 57), op := classOf d,
    deadline := if classOf d == .a then s.clk.tick.toNat + p.arg.toNat else 0, studio := fin8 p.arg.toNat,
    sector := dbits d 47 0, count := dbits d 56 48 + 1 }

/-- The port may carry out a request: it is ACTIVE, or the request writes a signature copy of a card that is powered
(R326, R479, R491). -/
def serves (v : Served) (s : State) : Bool :=
  let st := (memGet (ownMember v.port s) s).state
  st == .active || (v.kind == 0x22 && v.count == 8 && (v.sector == 0 || v.sector == 4096) && (portGet v.port s).powered
    && (st == .blank || st == .foreign || st == .bench || st == .stale || st == .retired))

/-- A served request enters the list. -/
def servedAdd (v : Served) (s : State) : State := { s with ring := { s.ring with served := s.ring.served ++ [v] } }

/-- The member operation of a served read or erase. -/
def servedOp (v : Served) (k : OpKind) (u : OpUse) (port : Fin 8) (sector count : Nat) (s : State) : State :=
  createOp { id := 0, member := ownMember port s, cls := v.op, studio := v.studio, deadline := v.deadline, kind := k,
             sector := sector, count := count, use := u } s

/-- A read for a served request. -/
def servedRead (v : Served) (port : Fin 8) (sector count : Nat) (s : State) : State :=
  servedOp v .read (.chunk (.remote v.tag v.epoch) ⟨0, false, 0, 0⟩ 0 1) port sector count s

/-- Ring traffic for this node's members wakes it from NAP, or cancels its entry (R90, R91); a worker's Palette has
nothing to resume. -/
def ringWake (s : State) : State :=
  if s.power.state == .nap then
    irqSet irqPower { s with power := { s.power with state := .run, reqResult := .done, waking := false, ordered := none } }
  else if s.power.entry == some .nap then
    irqSet irqPower { s with power := { s.power with entry := none, reqResult := .cancelled } }
  else s

/-- A request with one descriptor is served, or answered REFUSED. -/
def serve (kind : Byte) (p : Pkt) (f : Served → State → State) (s : State) : State :=
  if !takesReq p s then s
  else
    let s := ringWake s
    let v := servedOf kind p (flit p 0) s
    if serves v s then f v s else reply v 0x27 3 [] s

/-- MREAD (R479). -/
def execMread (fb : Bool) (p : Pkt) (s : State) : Out :=
  received fb 0x20 p (onWorker (serve 0x20 p fun v s =>
    servedRead v v.port v.sector v.count (servedAdd { v with queued := true } s))) s

/-- MWRITE (R493): its data is awaited. -/
def execMwrite (fb : Bool) (p : Pkt) (s : State) : Out := received fb 0x22 p (onWorker (serve 0x22 p servedAdd)) s

/-- A sector of a served write arrives; the last lets it land. -/
def writeData (p : Pkt) (s : State) : State :=
  match s.ring.served.find? fun v => v.tag == p.tag && v.epoch == p.epoch && v.kind == 0x22 with
  | none => s
  | some v =>
    let u := { v with data := v.data ++ [flitsSector p.flits] }
    land u (servedPut v u s)

/-- MWRITE_DATA (R493). -/
def execMwriteData (fb : Bool) (p : Pkt) (s : State) : Out := received fb 0x23 p (onWorker (writeData p)) s

/-- MERASE (R479). -/
def execMerase (fb : Bool) (p : Pkt) (s : State) : Out :=
  received fb 0x24 p (onWorker (serve 0x24 p fun v s =>
    servedOp v .erase (.write (.remote v.tag v.epoch)) v.port v.sector v.count (servedAdd { v with queued := true } s))) s

/-- A partial sum is asked for: a read of each tile; ports that are not ACTIVE count as failed. -/
def psumReq (p : Pkt) (s : State) : State :=
  if !takesReq p s then s
  else
    let s := ringWake s
    let ds := p.flits.map fun d => (d, fin8 (dbits d 59 57))
    let ok (x : Dword × Fin 8) : Bool := (memGet (ownMember x.2 s) s).state == .active
    let good := ds.filter ok
    let bad := (ds.filter (!ok ·)).foldl (fun n x => n ||| (1 <<< x.2.val)) 0
    let v := servedOf 0x25 p (flit p 0) s
    let v := { v with data := List.replicate 8 0, out := good.length, failed := BitVec.ofNat 8 bad, queued := true }
    if good.isEmpty then psumReply v s
    else good.foldl (fun s x => servedRead v x.2 (dbits x.1 47 0) 8 s) (servedAdd v s)

/-- PSUM_REQ (R492). -/
def execPsumReq (fb : Bool) (p : Pkt) (s : State) : Out := received fb 0x25 p (onWorker (psumReq p)) s

/-! ## Tables, reports and states (R170, R449, R491) -/

/-- A forwarded MEMBER word 0 or REFEREE entry is to be applied with an NV commit of this node. -/
def tableIn (p : Pkt) (s : State) : State :=
  let sp : Byte := BitVec.ofNat 8 (p.arg.toNat / 256)
  onlyIf (sp == 0x01 || sp == 0x0D)
    (nvCommit (.fwd sp (p.arg.toNat % 256) (p.flits.flatMap lowHigh))) s

/-- A forwarded entry is applied (R170, R449): the port that a word 0 is for is reported with it (R491). -/
def fwdApply (space e : Nat) (w : List Word) (s : State) : State :=
  match space with
  | 0x01 =>
    let m := ownMember (fin8 e) s
    memberReport (fin8 e) (memPut m { memGet m s with cfg := memberCfgOf (wordAt w 0) } s)
  | 0x0D => { s with referee := { s.referee with cfg := s.referee.cfg.put e w } }
  | _ => s

/-- TABLE_FWD (R170, R449). -/
def execTableFwd (fb : Bool) (p : Pkt) (s : State) : Out := received fb 0x09 p (onWorker (tableIn p)) s

/-- MEMBER.STATE from its code. -/
def mstateOf (n : Nat) : MState :=
  match n with
  | 1 => .probing | 2 => .blank | 3 => .foreign | 4 => .bench | 5 => .active | 6 => .stale | 7 => .missing
  | 8 => .failed | 9 => .retired | _ => .absent

/-- A report's words enter the manager's entry, but for its state, cause and tick (R491). -/
def reportEntry (m : Fin 128) (w : List Word) (sig : Option Sig) (s : State) : State :=
  let x := memGet m s
  let w1 := wordAt w 1
  let w7 := wordAt w 7
  let old := if x.sig.map (fun g => takeAt g.body 0 64) == sig.map (fun g => takeAt g.body 0 64) then x.sig else sig
  memPut m { x with
    cfg := memberCfgOf (wordAt w 0), mode := w1.extractLsb' 24 4, pad := w1.extractLsb' 22 2,
    kind := w1.extractLsb' 20 2, steps := w1.extractLsb' 16 4, eraseOnes := bit w1 0, sig := old,
    capacity := wordAt w 5 ++ wordAt w 4, cidHash := wordAt w 6, slots := w7.extractLsb' 24 8,
    phase := w7.extractLsb' 16 5, identMs := w7.truncate 16, linkErrs := wordAt w 8, retries := wordAt w 9,
    mediaErrs := wordAt w 10, timeouts := wordAt w 11, ops := wordAt w 13 ++ wordAt w 12 } s

/-- A reported card is classified afresh; an array member that is no longer ACTIVE is lost to its array (R331, R340). -/
def reclassify (m : Fin 128) (s : State) : State :=
  let s := classified m none s
  if (memGet m s).state == .active then s else memberLost m .missing s

/-- A report of an identified card has been met: its node's return asks for no other (R340). -/
def freshDone (m : Fin 128) (s : State) : State :=
  let k := (nodeOf m).toFin
  let n := s.ring.nodes.get k
  let bit : Byte := BitVec.ofNat 8 (1 <<< (portOf m).val)
  { s with ring := { s.ring with nodes := s.ring.nodes.set k { n with afresh := n.afresh &&& ~~~ bit } } }

/-- The card's node has been out of reach since its last classification (R340). -/
def freshDue (m : Fin 128) (s : State) : Bool := (s.ring.nodes.get (nodeOf m).toFin).afresh.getLsbD (portOf m).val

/-- The state that a report shows meets the manager's (R331, R333, R340, R491). -/
def reportState (m : Fin 128) (r : MState) (ident : Bool) (cause : Byte) (s : State) : State :=
  let cur := (memGet m s).state
  match r with
  | .probing =>
    if ident then reclassify m (freshDone m s) else if cur == .probing then s else memEnter m .probing cause s
  | .active | .bench | .blank | .foreign | .stale =>
    if freshDue m s then reclassify m (freshDone m s)
    else if cur == r then s
    else if cur == .probing && r == .active && (roleOf m s).isSome then memEnter m .active cause s
    else if cur == .missing || cur == .absent || cur == .probing || cur == .failed then reclassify m s
    else s
  | .absent | .missing | .failed | .retired =>
    if cur == r || (cur == .missing && r == .absent) then s
    else
      let held := (roleOf m s).isSome
      let s := memEnter m (if held && r == .absent then .missing else r) cause s
      if held then memberLost m (if r == .failed then .failed else .missing) s else s

/-- MEMBER_REPORT on the manager (R491): the port is in ARG. -/
def reportIn (p : Pkt) (s : State) : State :=
  let m : Fin 128 := Fin.ofNat 128 (8 * p.src.toNat + p.arg.toNat % 8)
  let w : List Word := (p.flits.take 8).flatMap lowHigh
  let head := (p.flits.drop 8).flatMap fun d => leBytes 8 d.toNat
  let sig := if bit (wordAt w 2) 31 then some (sigFields head) else none
  let w1 := wordAt w 1
  reportState m (mstateOf (bits w1 31 28)) (bits w1 27 24 != 0) (w1.extractLsb' 8 8) (reportEntry m w sig s)

/-- MEMBER_REPORT. -/
def execMemberReport (fb : Bool) (p : Pkt) (s : State) : Out :=
  received fb 0x0A p (onManager fun s => if p.src == 0 then s else reportIn p s) s

/-- A worker applies the state decided for its port, and card power with it (R334, R491). -/
def setIn (p : Pkt) (s : State) : State :=
  let q := fin8 (dbits (flit p 0) 6 4)
  let st := mstateOf (dbits (flit p 0) 3 0)
  let m := ownMember q s
  let cur := (memGet m s).state
  if cur == st then s
  else
    let s := memState m st (if cur == .probing then chIdentified else chCommand) s
    let s := onlyIf (st != .active && st != .bench) (fun s => memPut m { memGet m s with sigMend := none } s) s
    if (portGet q s).powered && !st.poweredOn then portAbort q .lost (portPower q false s) else s

/-- MEMBER_SET (R491). -/
def execMemberSet (fb : Bool) (p : Pkt) (s : State) : Out := received fb 0x0B p (onWorker (setIn p)) s

/-! ## Power orders and forwarded records (R95, R566) -/

/-- REQ codes of the sleep states (R89). -/
def Sleep.num : Sleep → Nat
  | .nap => 1 | .doze => 2 | .standby => 3

/-- A worker is ordered into a sleep state; it acknowledges once what it serves has been written out (R95; log entry
66). -/
def orderIn (p : Pkt) (s : State) : State :=
  let o : Option Sleep := match dbits (flit p 0) 1 0 with
    | 2 => some .doze
    | 3 => some .standby
    | _ => none
  match o with
  | none => { s with power := { s.power with ordered := none, orderDue := none } }
  | some z => orderAck { s with power := { s.power with orderDue := some z } }

/-- POWER_ORDER (R95). -/
def execPowerOrder (fb : Bool) (p : Pkt) (s : State) : Out := received fb 0x0C p (onWorker (orderIn p)) s

/-- POWER_ACK (R95). -/
def execPowerAck (fb : Bool) (p : Pkt) (s : State) : Out :=
  received fb 0x0D p (onManager fun s =>
    { s with power := { s.power with ordersOut := s.power.ordersOut.erase p.src } }) s

/-- LogClass from its number. -/
def logClassOf (n : Nat) : LogClass :=
  match n with
  | 0 => .note | 1 => .warn | 2 => .stopStudio | 3 => .stopArray | _ => .failstop

/-- A forwarded record enters the manager's log under its own SEQ, with BB 0 (R566). -/
def logIn (p : Pkt) (s : State) : State :=
  let l := p.flits.flatMap fun d => leBytes 8 d.toNat
  let b := (l.getD 1 0).toNat
  let r : LogRec := ⟨l.getD 0 0, logClassOf (b % 8), false, BitVec.ofNat 4 (b / 16), 0, BitVec.ofNat 32 (leField l 4 4), takeAt l 8 22⟩
  let s := counterInc 0 s
  logSums r.code r.cls false none { s with log := logPush r s.log }

/-- LOG_FWD (R566). -/
def execLogFwd (fb : Bool) (p : Pkt) (s : State) : Out := received fb 0x0E p (onManager (logIn p)) s

/-! ## RING_CTRL (R496) -/

/-- RING_CTRL as it reads. -/
def ringCtrlWord (s : State) : Word := flg 31 s.ring.fa.en ||| flg 30 s.ring.fb.en

/-- The note of a refused ACTION or ROLL_NOW. -/
def ringRefused (w : Word) (s : State) : State := logRec .ringCmdRefused (leBytes 4 w.toNat) s

/-- A port is enabled or disabled. -/
def ringEnable (fb on : Bool) (s : State) : State :=
  let s := rportPut fb { rport fb s with en := on } s
  if on then linkTrain fb s else linkDark fb s

/-- FORGET may act: the entry is UNREACHABLE, and no role records a member of the node. -/
def mayForget (k : BitVec 4) (s : State) : Bool :=
  (s.ring.nodes.get k.toFin).status == .unreachable &&
    !(s.arrs.toList.any fun a => a.state != .none && a.roles.any fun r => nodeOf r.member == k)

/-- An ACTION of RING_CTRL: FORGET, ADOPT, or a refusal. -/
def ringAction (act : Nat) (k : BitVec 4) (key : Half) (w : Word) (s : State) : State :=
  let n := s.ring.nodes.get k.toFin
  if !isManager s then ringRefused w s
  else if act = 1 && mayForget k s then
    nvCommit .keep { s with
      roster := s.roster.set k.toFin false
      ring := { s.ring with nodes := s.ring.nodes.set k.toFin {}, unreach := s.ring.unreach - 1 } }
  else if act = 2 && n.status == .foreign && n.fabricId.truncate 16 == key then
    rollEvent { s with ring := { s.ring with adopt := some (n.fabricId, n.node) } }
  else ringRefused w s

/-- A write of RING_CTRL (R496): the enables by lane, ROLL_NOW and ACTION. -/
def ringCtrlWrite (lanes : Lanes) (w : Word) (s : State) : State :=
  if !lane lanes 3 then s
  else
    let s := if bit w 31 != s.ring.fa.en then ringEnable false (bit w 31) s else s
    let s := if bit w 30 != s.ring.fb.en then ringEnable true (bit w 30) s else s
    let s := onlyIf (bit w 29 && isManager s) rollEvent s
    let act := bits w 27 26
    if act = 0 then onlyIf (bit w 29 && !isManager s) (ringRefused w) s
    else if lanes != 0xF then ringRefused w s
    else ringAction act (BitVec.ofNat 4 (bits w 23 20)) (w.truncate 16) w s

/-- ROLL_NOW (R483, R496). -/
def execRollNow (s : State) : Out :=
  .next (onlyIf (unitsUp s) (fun s => ringCtrlWrite 0x8 (ringCtrlWord s ||| flg 29 true) s) s)

/-- FORGET (R496). -/
def execForget (entry : BitVec 4) (s : State) : Out :=
  .next (onlyIf (unitsUp s) (fun s =>
    ringCtrlWrite 0xF (ringCtrlWord s ||| fld 26 1 ||| fld 20 entry.toNat) s) s)

/-- ADOPT (R496). -/
def execAdopt (entry : BitVec 4) (key : Half) (s : State) : Out :=
  .next (onlyIf (unitsUp s) (fun s =>
    ringCtrlWrite 0xF (ringCtrlWord s ||| fld 26 2 ||| fld 20 entry.toNat ||| fld 0 key.toNat) s) s)

/-- RING_PORT_ENABLE (R496). -/
def execRingPortEnable (fb : Bool) (s : State) : Out := .next (onlyIf (unitsUp s) (ringEnable fb true) s)

/-- RING_PORT_DISABLE (R496). -/
def execRingPortDisable (fb : Bool) (s : State) : Out := .next (onlyIf (unitsUp s) (ringEnable fb false) s)

/-! ## RING_NODE (R497) -/

/-- STATUS codes. -/
def NStatus.num : NStatus → Nat
  | .none => 0 | .manager => 1 | .worker => 2 | .unreachable => 3 | .foreign => 4 | .unnumbered => 5

/-- The mask of a node's ACTIVE members. -/
def activeMask (k : Nat) (s : State) : Nat :=
  (List.range 8).foldl (fun n p =>
    if (memGet (Fin.ofNat 128 (8 * k + p)) s).state == .active then n + 2 ^ p else n) 0

/-- The entry as it stands: the manager's own, a worker's own and its manager's, or as roll calls left it. -/
def nodeEntry (e : Fin 16) (s : State) : RNode :=
  let own (st : NStatus) : RNode :=
    { status := st, node := s.ident.node, ports := cardMask s, fabricId := s.ident.fabricId, rev := Config.revCode,
      atLevel0 := s.restart.level == .level0, resendA := s.ring.fa.resends, resendB := s.ring.fb.resends }
  if isManager s then
    if e.val = 0 then { own .manager with seq := s.ring.rollSeq, lastSeen := (s.ring.nodes.get 0).lastSeen }
    else s.ring.nodes.get e
  else if e.val = 0 then
    if s.ring.doneSeen then { status := .manager, fabricId := s.ident.fabricId, seq := s.ring.epoch } else {}
  else if e.val = s.ident.node.toNat then
    { own .worker with
      seq := s.ring.epoch, hopsA := if s.ring.toward then 0 else s.ring.hops,
      hopsB := if s.ring.toward then s.ring.hops else 0 }
  else {}

/-- The words of a RING_NODE entry. -/
def ringNodeWords (e : Fin 16) (s : State) : List Word :=
  let n := nodeEntry e s
  let act := if n.status == .manager && !isManager s then 0
    else if n.status == .worker || n.status == .manager then activeMask e.val s else 0
  [fld 29 n.status.num ||| fld 24 n.node.toNat ||| fld 20 n.hopsA.toNat ||| fld 16 n.hopsB.toNat ||| fld 8 n.ports.toNat
     ||| fld 0 act] ++ lowHigh n.fabricId
    ++ [fld 16 n.rev.toNat ||| flg 8 n.atLevel0 ||| fld 0 n.seq.toNat, n.lastSeen, fld 0 n.rtt.toNat, n.lost,
        fld 16 n.resendA.toNat ||| fld 0 n.resendB.toNat]

/-- The roster is loaded: its nodes read UNREACHABLE until a roll call finds them (R497). -/
def rosterLoad (s : State) : State :=
  { s with ring := { s.ring with nodes := Vector.ofFn fun i =>
      if i.val ≠ 0 && s.roster.get i then
        { status := .unreachable, node := BitVec.ofNat 4 i.val, fabricId := s.ident.fabricId }
      else {} } }

end Sys2Proof.Machine
end

