-- ==== Sys2Proof/Machine/Sound.lean ====
section
/-! DEFINITION. The Palette's arithmetic: saturation, gain codes, pan, sample formats, the resampler, biquads, the delay
and the limiter (R12, R502, R514, R515, R519 to R527). -/

namespace Sys2Proof.Machine

/-! ## Integers (R519) -/

/-- A value saturated to n bits, signed. -/
def satInt (n : Nat) (x : Int) : Int := max (-(2 ^ (n - 1))) (min (2 ^ (n - 1) - 1) x)

/-- sat32. -/
def sat32 (x : Int) : Int := satInt 32 x

/-- mul(v, f) (R519). -/
def mulQ (v f : Int) : Int := sat32 ((v * f + 2 ^ 21) / 2 ^ 22)

/-! ## Gain codes (R12, R519, R526, R532) -/

/-- 10^(1/(5 × 2^22)) as a fixed-point number with 400 fraction bits. -/
def tenRoot : Nat :=
  0x1000001d791c7aadd5fee91b030e7815b27ccb967adcf0edd0fdbb5f2fdd3d47b01e048a8a24284f3934887ecf572694acdcf

/-- b^k in that fixed point, by squaring over the low `fuel` bits of k. -/
def powFix : Nat → Nat → Nat → Nat → Nat
  | 0, _, _, acc => acc
  | fuel + 1, b, k, acc =>
    powFix fuel (b * b / 2 ^ 400) (k / 2) (if k % 2 = 1 then acc * b / 2 ^ 400 else acc)

/-- round(2^scale × 10^((G/65536 − 1920)/320)), ties rounded up, for G in Q16 code units. -/
def gainRound (scale : Nat) (g : Int) : Int :=
  let k := (g - 1920 * 65536 + 6 * 5 * 2 ^ 22).toNat
  let num := powFix 27 tenRoot k (2 ^ 400) * 2 ^ scale
  let den := 10 ^ 6 * 2 ^ 400
  ((2 * num + den) / (2 * den) : Nat)

/-- The linear factor of a gain (R519). -/
def Gain.factor (g : Gain) : Int := if g.mute then 0 else gainRound 22 g.g

/-- Samples of a ramp (R520). -/
def rampLen (ramp : Nat) : Nat := 48 * 2 ^ ramp

/-- A new target code starts a ramp (R520). -/
def Gain.aim (g : Gain) (target ramp : Nat) : Gain :=
  let start : Int := if g.mute then 65536 else g.g
  let n := rampLen ramp
  { g := start, mute := false, target := target, left := n,
    stepBy := (((if target = 0 then 1 else target : Nat) * 65536 : Int) - start).tdiv n }

/-- One sample of a gain's ramp. -/
def Gain.tick (g : Gain) : Gain :=
  match g.left with
  | 0 => g
  | 1 => { g with g := g.target * 65536, mute := g.target == 0, left := 0 }
  | n + 1 => { g with g := g.g + g.stepBy, left := n }

/-- The gain of each of a frame's 32 samples, and the gain after it. -/
def Gain.run : Nat → Gain → List Int × Gain
  | 0, g => ([], g)
  | n + 1, g =>
    let (l, h) := Gain.run n g.tick
    (g.tick.factor :: l, h)

/-! ## Pan (R521) -/

/-- cos(π/508) with 256 fraction bits. -/
def cosOne : Int := 0xfffebf2e31684313c740cb238dda90069fc32fca2ef054eae26ef432a39a6ea2

/-- cos(n × π/508) and cos((n + 1) × π/508) with 256 fraction bits. -/
def cosAt : Nat → Int × Int
  | 0 => (2 ^ 256, cosOne)
  | n + 1 =>
    let (a, b) := cosAt n
    (b, (2 * cosOne * b) / 2 ^ 256 - a)

/-- √2 with 256 fraction bits. -/
def rootTwo : Int := 0x16a09e667f3bcc908b2fb1366ea957d3e3adec17512775099da2f590b0667322a

/-- round(2^22 × x) of a number with 256 fraction bits. -/
def round22 (x : Int) : Int := (x * 2 ^ 22 + 2 ^ 255) / 2 ^ 256

/-- The two pan factors of a layer of one or two channels. -/
def panFactors (ch pan : Nat) : Int × Int :=
  let c := (cosAt pan).1
  let d := (cosAt (254 - pan)).1
  if ch = 1 then (round22 c, round22 d)
  else (min (2 ^ 22) (round22 (rootTwo * c / 2 ^ 256)), min (2 ^ 22) (round22 (rootTwo * d / 2 ^ 256)))

/-- A pan factor on its way over one frame, at sample k. -/
def panStep (old new : Int) (k : Nat) : Int := old + ((new - old) * (k + 1 : Nat)).tdiv 32

/-! ## Samples (R502, R527) -/

/-- Bytes per sample of a format. -/
def fmtBytes (fmt : Nat) : Nat :=
  match fmt with
  | 0 | 1 => 1
  | 2 | 3 => 2
  | _ => 4

/-- An n-bit two's complement value. -/
def signedOf (n x : Nat) : Int := if 2 ^ (n - 1) ≤ x then (x : Int) - 2 ^ n else x

/-- The sample that bytes give in a format. -/
def sampleOf (fmt : Nat) (l : List Byte) : Int :=
  match fmt with
  | 0 => ((l.getD 0 0).toNat - 128 : Int) * 2 ^ 16
  | 1 => signedOf 8 (l.getD 0 0).toNat * 2 ^ 16
  | 2 => signedOf 16 (leNat (takeAt l 0 2)) * 2 ^ 8
  | 3 => signedOf 16 (256 * (l.getD 0 0).toNat + (l.getD 1 0).toNat) * 2 ^ 8
  | _ => signedOf 32 (leNat (takeAt l 0 4)) / 2 ^ 8

/-- Bits of a width code of AUPORT word 0: 16, 24, 32. -/
def widthBits (code : Nat) : Nat := 16 + 8 * code

/-- A received slot of data width DW, in the internal format. -/
def slotIn (dw : Nat) (w : Word) : Int :=
  let x := signedOf dw (w.toNat % 2 ^ dw)
  if dw = 16 then x * 2 ^ 8 else if dw = 32 then x / 2 ^ 8 else x

/-- A sample saturated for output (R527). -/
def clip24 (x : Int) : Int := max (-(2 ^ 23 - 1)) (min (2 ^ 23 - 1) x)

/-- A sample in a slot's data width. -/
def slotOut (dw : Nat) (x : Int) : Int :=
  let y := clip24 x
  if dw = 16 then satInt 16 ((y + 128) / 2 ^ 8) else if dw = 32 then y * 2 ^ 8 else y

/-! ## The resampler (R514, R515) -/

/-- STEP of a rate, Q34.30. -/
def rateStep (rate : Nat) : Nat := rate * 2 ^ 30 / 48000

/-- The prefilter runs. -/
def prefilters (rate : Nat) : Bool := decide (48000 < rate)

/-- The look-ahead L. -/
def lookAhead (rate : Nat) : Nat := if prefilters rate then 5 else 2

/-- Extra source frames before the first tap, E of R518. -/
def lookBack (rate : Nat) : Nat := if prefilters rate then 3 else 0

/-- The interpolated sequence x: prefiltered, or raw. -/
def tapOf (rate : Nat) (r : Int → Int) (i : Int) : Int :=
  if prefilters rate then (-r (i - 3) + 9 * r (i - 1) + 16 * r i + 9 * r (i + 1) - r (i + 3)) / 2 ^ 5 else r i

/-- The cubic interpolation at position p (R515). -/
def cubic (x : Int → Int) (p : Nat) : Int :=
  let i : Int := (p / 2 ^ 30 : Nat)
  let mu : Int := (p / 2 ^ 14 % 2 ^ 16 : Nat)
  let x0 := x (i - 1)
  let x1 := x i
  let x2 := x (i + 1)
  let x3 := x (i + 2)
  let a := 3 * (x1 - x2) + x3 - x0
  let b := 2 * x0 - 5 * x1 + 4 * x2 - x3
  let c := x2 - x0
  let t := a * mu / 2 ^ 16
  let t := (b + t) * mu / 2 ^ 16
  let t := (c + t) * mu / 2 ^ 17
  sat32 (x1 + t)

/-! ## Effects (R523 to R526) -/

/-- A Q2.22 coefficient of a BUS word. -/
def coefOf (w : Word) : Int := signedOf 24 (w.toNat % 2 ^ 24)

/-- One sample through a biquad stage. -/
def Bq.step (c : List Int) (s : Bq) (x : Int) : Int × Bq :=
  let y := sat32 ((c.getD 0 0 * x + c.getD 1 0 * s.x1 + c.getD 2 0 * s.x2 - c.getD 3 0 * s.y1 - c.getD 4 0 * s.y2 + 2 ^ 21) / 2 ^ 22)
  (y, ⟨x, s.x1, y, s.y1⟩)

/-- One sample through the delay of a channel: its line, newest sample first, kept to a length. -/
def delayStep (dlen keep : Nat) (dfb dmix : Int) (line : List Int) (x : Int) : Int × List Int :=
  let r := line.getD (dlen - 1) 0
  (sat32 (x + mulQ r dmix), (sat32 (x + mulQ r dfb) :: line).take keep)

/-- q(j) of the limiter. -/
def limQ (t : Int) (xs : List Int) : Nat :=
  let m := xs.foldl (fun m x => max m x.natAbs) 0
  if m = 0 then 2 ^ 22 else min (2 ^ 22) (t.toNat * 2 ^ 22 / m)

/-- One sample of every channel through the limiter: the 16 latest inputs, oldest first, and the gain before it. -/
def limStep (t : Int) (r : Nat) (ch : Nat) (buf : List (List Int)) (g : Nat) (x : List Int) :
    List Int × List (List Int) × Nat :=
  let buf := List.replicate (16 - buf.length) (List.replicate ch 0) ++ buf
  let h := (buf.map (limQ t)).foldl min (g + r)
  (((buf.headD []).map fun v => mulQ v h), buf.tail ++ [x], h)

end Sys2Proof.Machine
end

