-- ==== Sys2Proof/Machine/Layer.lean ====
section
/-! DEFINITION. The Palette's layers: their words, the checks of a commit, admission, tiles and their deadlines, extent
lists, host refills, and the start and stop of a layer (R501 to R518, R528, R536, R537). -/

namespace Sys2Proof.Machine

/-! ## The words of a LAYER entry (R536) -/

/-- Words 0 to 7 of a LAYER entry. -/
abbrev LWords := Vector Word 8

/-- A field of word i. -/
def lf (v : LWords) (i : Fin 8) (hi lo : Nat) : Nat := bits (v.get i) hi lo

def lRun (v : LWords) : Bool := bit (v.get 0) 31
def lKind (v : LWords) : Nat := lf v 0 30 29
def lLoop (v : LWords) : Bool := bit (v.get 0) 28
def lKeep (v : LWords) : Bool := bit (v.get 0) 27
def lGroup (v : LWords) : Nat := lf v 0 26 24
def lFmt (v : LWords) : Nat := lf v 0 23 21
def lCh (v : LWords) : Nat := lf v 0 20 18 + 1
def lBus (v : LWords) : Nat := lf v 0 17 15
def lDst (v : LWords) : Nat := lf v 0 14 12
def lList (v : LWords) : Bool := bit (v.get 0) 11
def lOwner (v : LWords) : Fin 8 := fin8 (lf v 0 10 8)
def lDma (v : LWords) : Fin 16 := Fin.ofNat 16 (lf v 0 7 4)
def lRate (v : LWords) : Nat := lf v 1 31 15
def lPrefetch (v : LWords) : Nat := lf v 1 13 8
def lPan (v : LWords) : Nat := lf v 1 7 0
def lGain (v : LWords) : Nat := lf v 2 31 21
def lRamp (v : LWords) : Nat := lf v 2 20 17
def lSel (v : LWords) : Nat := lf v 3 12 0
def lVolume (v : LWords) : Fin 64 := Fin.ofNat 64 (lSel v)
def lLba (v : LWords) : Nat := (v.get 4).toNat + 2 ^ 32 * lf v 5 15 0
def lRingBase (v : LWords) : Nat := lf v 4 23 0
def lRingBytes (v : LWords) : Nat := lf v 5 23 0
def lSectors (v : LWords) : Nat := (v.get 6).toNat

/-- Bytes of a source frame. -/
def frameBytes (v : LWords) : Nat := lCh v * fmtBytes (lFmt v)

/-- The byte rate that admission reckons with, in kB/s (R507). -/
def layerRate (v : LWords) : Nat := (lRate v * frameBytes v + 999) / 1000

/-- A layer. -/
def layGet (i : Fin 32) (s : State) : Layer := s.palette.layers.get i

/-- The state with a layer replaced. -/
def layPut (i : Fin 32) (l : Layer) (s : State) : State :=
  { s with palette := { s.palette with layers := s.palette.layers.set i l } }

/-- STATE codes. -/
def LState.num : LState → Nat
  | .idle => 0 | .priming => 1 | .playing => 2 | .blanking => 3 | .stopped => 4

/-- STOP_CAUSE codes. -/
def LCause.num : LCause → Nat
  | .none => 0 | .stop => 1 | .ended => 2 | .listBad => 3 | .volume => 4 | .dmaFault => 5 | .studioReset => 6
  | .paletteOff => 7 | .ringBad => 8

/-- The layer is IDLE or STOPPED. -/
def Layer.rests (l : Layer) : Bool := l.state == .idle || l.state == .stopped

/-- The 16 words of a LAYER entry as they read. -/
def Layer.words (l : Layer) : List Word :=
  l.cfg.toList ++
    [fld 29 l.state.num ||| fld 24 l.cause.num ||| fld 16 l.reason.toNat ||| fld 0 l.underrun.toNat,
     BitVec.ofNat 32 (l.p0 / 2 ^ 30),
     fld 26 l.tiles.length ||| fld 0 (if l.gain.mute then 0 else (l.gain.g / 65536).toNat % 2048),
     l.frames, 0, 0, 0, 0]

/-- A layer event: EVT and LAST_LAYER (R535). -/
def layerEvent (i : Fin 32) (s : State) : State :=
  { s with palette := { s.palette with evt := true, lastLayer := BitVec.ofNat 5 i.val } }

/-! ## The checks of a commit (R528, R536, R537) -/

/-- BAD_FIELD at a word, as a check gives it. -/
def badAt (c : Bool) (w : Nat) : Option (Byte × Byte) := if c then some (0x04, BitVec.ofNat 8 w) else none

/-- STATE_REFUSED at a word. -/
def refusedAt (c : Bool) (w : Nat) : Option (Byte × Byte) := if c then some (0x05, BitVec.ofNat 8 w) else none

/-- The first failing check of a list. -/
def firstFail (l : List (Option (Byte × Byte))) : Option (Byte × Byte) := l.findSome? id

/-- Bus channels that a layer uses (R521): a mono layer needs its first one alone. -/
def busNeed (v : LWords) : Nat := if lCh v = 2 then 2 else lCh v

/-- An inline extent breaks R504: its place, its length, its end within a volume that is not GONE. -/
def extentBad (v : Fin 64) (start sectors : Nat) (s : State) : Bool :=
  let x := volGet v s
  start % 8 != 0 || sectors % 8 != 0 || decide (sectors < 8) || (x.state != .gone && decide (x.size < start + sectors))

/-- Another layer that is not IDLE or STOPPED names the channel. -/
def chanTaken (i : Fin 32) (c : Fin 16) (s : State) : Bool :=
  (List.finRange 32).any fun j =>
    let l := layGet j s
    j != i && lKind l.cfg == 1 && lDma l.cfg == c && !l.rests

/-- The BAD_FIELD checks of a LAYER commit, word by word. -/
def layerBad (i : Fin 32) (v : LWords) (s : State) : Option (Byte × Byte) :=
  let k := lKind v
  let inline := k == 0 && !lList v
  let b5 := lRingBytes v
  firstFail
    [badAt (lf v 0 3 0 != 0 || k == 3 || decide (4 < lFmt v) || (k == 2 && lFmt v != 4) ||
        decide (8 < lDst v + busNeed v) ||
        (k == 1 && chanTaken i (lDma v) s)) 0,
     badAt (lf v 1 14 14 != 0 || decide (lRate v < 4000) || decide (96000 < lRate v) ||
        (k == 2 && lRate v != 48000) ||
        (if k == 2 then lPrefetch v != 0 else decide (lPrefetch v < 2) || decide (32 < lPrefetch v)) ||
        lPan v == 255) 1,
     badAt (lf v 2 16 0 != 0 || decide (9 < lRamp v)) 2,
     badAt (lf v 3 31 13 != 0 || (k == 2 && decide (8 < lSel v + lCh v)) ||
        (k == 1 && (lSel v % 8 != 0 || !(s.studios.get (lOwner v)).cfg.mbxWr.getLsbD (lSel v / 1024)))) 3,
     badAt (if k == 1 then lf v 4 31 24 != 0 || lRingBase v % 64 != 0 else inline && lLba v % 8 != 0) 4,
     badAt (if k == 1 then lf v 5 31 24 != 0 || b5 % 64 != 0 || decide (b5 < 4096) || decide (0x800000 < b5) ||
        decide (0x1000000 < lRingBase v + b5) else k == 0 && lf v 5 31 16 != 0) 5,
     badAt (inline && extentBad (lVolume v) (lLba v) (lSectors v) s) 6,
     badAt (v.get 7 != 0) 7]

/-- The first word in which a running layer's commit changes a field outside the running set of R528, or raises RATE
above what was admitted. -/
def layerRefused (l : Layer) (v : LWords) : Option (Byte × Byte) :=
  if l.rests then none
  else firstFail
    [refusedAt ((v.get 0 ^^^ l.cfg.get 0) &&& 0x7FFFFFFF#32 != 0) 0,
     refusedAt (decide (l.r < layerRate v) || lPrefetch v != lPrefetch l.cfg) 1,
     refusedAt (v.get 3 != l.cfg.get 3) 3, refusedAt (v.get 4 != l.cfg.get 4) 4,
     refusedAt (v.get 5 != l.cfg.get 5) 5, refusedAt (v.get 6 != l.cfg.get 6) 6]

/-- A commit of these words starts the layer. -/
def Layer.starts (l : Layer) (v : LWords) : Bool := l.rests && lRun v

/-- A start of a HOST layer whose channel is HALTED or is not PALETTE's (R512). -/
def startRefused (l : Layer) (v : LWords) (s : State) : Option (Byte × Byte) :=
  let c := chanGet (lDma v) s
  refusedAt (l.starts v && lKind v == 1 && (c.state == .halted || c.user != userPalette)) 0

/-- The checks of a LAYER commit after those of its level. -/
def layerCheck (i : Fin 32) (v : LWords) (s : State) : Option (Byte × Byte) :=
  firstFail [layerBad i v s, layerRefused (layGet i s) v, startRefused (layGet i s) v s]

/-! ## The data of a layer as a byte stream (R504, R514) -/

/-- Tiles of a list of extents. -/
def extTiles (l : List (Nat × Nat)) : Nat := (l.map fun e => e.2 / 8).sum

/-- The LBA of tile k of extents joined in order. -/
def extAt : List (Nat × Nat) → Nat → Option Nat
  | [], _ => none
  | (a, n) :: t, k => if k < n / 8 then some (a + 8 * k) else extAt t (k - n / 8)

/-- The LBA of tile k of a STREAM layer's data; none: past its end. -/
def Layer.tileLba (l : Layer) (k : Nat) : Option Nat :=
  let n := extTiles l.extents
  if k < n then extAt l.extents k
  else match l.loopTo with
    | none => none
    | some j =>
      let p := extTiles (l.extents.drop j)
      if p = 0 then none else extAt l.extents (n - p + (k - n) % p)

/-- Source frames of data that does not loop; none: it has no end. -/
def Layer.total (l : Layer) : Option Nat :=
  if lKind l.act = 0 && l.listRead && l.loopTo.isNone then some (4096 * extTiles l.extents / frameBytes l.act) else none

/-- The tile that the layer holds at index k. -/
def Layer.tileAt (l : Layer) (k : Nat) : Option LTile := l.tiles.find? fun t => t.n == l.first + k

/-- The lowest index that the layer holds or will issue: what lies before it has been released. -/
def Layer.lowest (l : Layer) : Nat :=
  match l.tiles.head? with
  | some t => t.n - l.first
  | none => l.nextTile - l.first

/-- Bytes of a sample, as a tile of canvas memory holds them. -/
def tileBytes (t : TileData) (off n : Nat) : List Byte :=
  leBytes n ((t.toList.getD (off / 512) 0).toNat >>> (8 * (off % 512)))

/-- The raw sample of channel c of source frame i: 0 before the first frame, past the end, and where it is no longer
held (R514, R517). -/
def Layer.raw (l : Layer) (s : State) (c : Nat) (i : Int) : Int :=
  if i < 0 then 0
  else
    let f := i.toNat
    let b := fmtBytes (lFmt l.act)
    let o := (f * lCh l.act + c) * b
    let past := match l.total with
      | some n => decide (n ≤ f)
      | none => false
    if past then 0
    else match l.tileAt (o / 4096) with
      | none => 0
      | some t =>
        if t.held < o % 4096 + b then 0
        else match kget t.tile s.canvas.tiles with
          | none => 0
          | some x => sampleOf (lFmt l.act) (tileBytes x.data (o % 4096) b)

/-- The first byte that the taps of a frame at P_0 need. -/
def Layer.firstByte (l : Layer) (p0 : Nat) : Nat :=
  (p0 / 2 ^ 30 - 1 - lookBack (lRate l.act)) * frameBytes l.act

/-- P_31 of a frame at P_0. -/
def Layer.lastPos (l : Layer) (p0 : Nat) : Nat := p0 + 31 * rateStep (lRate l.act)

/-- The layer is ready for a frame at P_0 (R513, R516). -/
def Layer.ready (l : Layer) : Bool :=
  if lKind l.act = 2 then true
  else if lKind l.act = 0 && !l.listRead then false
  else
    let need := l.lastPos l.p0 / 2 ^ 30 + lookAhead (lRate l.act) + 1
    let need := match l.total with
      | some n => min need n
      | none => need
    let e := need * frameBytes l.act
    (List.range ((e + 4095) / 4096)).all fun k =>
      decide (k < l.lowest) || decide (4096 * (k + 1) ≤ l.firstByte l.p0) ||
        (match l.tileAt k with
          | some t => decide (min 4096 (e - 4096 * k) ≤ t.held)
          | none => false)

/-- Every prefetch tile holds data, or the data ends earlier (R503). -/
def Layer.primed (l : Layer) : Bool :=
  if lKind l.act = 2 then true
  else
    (l.tiles.all fun t => decide (0 < t.held)) &&
      (l.tiles.length == lPrefetch l.act || (lKind l.act == 0 && l.listRead && (l.tileLba (l.nextTile - l.first)).isNone))

/-- The data has ended for a frame at P_0 (R518). -/
def Layer.over (l : Layer) : Bool :=
  match l.total with
  | some n => decide (n + 1 + lookBack (lRate l.act) ≤ l.p0 / 2 ^ 30)
  | none => false

/-! ## Tiles (R505, R506, R508) -/

/-- The class A deadline of the tile at an index (R506). -/
def Layer.deadline (l : Layer) (k now : Nat) : Nat :=
  let fb := frameBytes l.act
  let st : Int := (4096 * k + fb - 1) / fb
  let d : Int := now + ((st - (l.p31 / 2 ^ 30 + lookAhead (lRate l.act) : Nat)) * 100000).tdiv (lRate l.act) - 134
  (max d now).toNat

/-- The work of a tile of a layer, by its number. -/
def streamWork (i : Fin 32) (n : Nat) : Work := .stream i n

/-- Who pays for a stream tile's reads. -/
def streamPayer (i : Fin 32) (deadline : Nat) : Payer :=
  { who := none, cls := .a, deadline := deadline, layer := i.val }

/-- The array tile of an LBA of the layer's volume. -/
def Layer.arrayTile (l : Layer) (lba : Nat) (s : State) : Fin 4 × Nat :=
  let x := volGet (lVolume l.act) s
  (x.array, (x.base + lba) / 8)

/-- The contents of an array tile for a layer (R20); while writes of a flush to its stripe are out, a tile that needs its
members waits for them (R230). -/
def streamTile (i : Fin 32) (deadline n : Nat) (a : Fin 4) (tile : Nat) (want : BitVec 8) (s : State) :
    Need × Bool × State :=
  if tileWritten a tile s && want &&& ~~~ (coverMask (tileCover a tile s) ||| (cached a tile s).1) != 0 then
    (.wait, false, s)
  else currentTile (streamPayer i deadline) (streamWork i n) a tile want s

/-- A tile's contents are asked for: they fill it at one instant once they are there (R20, R230); a read that has
failed never arrives (R508). -/
def tileAsk (i : Fin 32) (n : Nat) (s : State) : State :=
  let l := layGet i s
  match l.tiles.find? fun t => t.n == n && t.held == 0 with
  | none => s
  | some t => match l.tileLba (n - l.first) with
    | none => s
    | some lba =>
      let (a, tile) := l.arrayTile lba s
      let w := streamWork i n
      match streamTile i t.deadline n a tile 0xFF s with
      | (.got d, _, s) =>
        let s := match kget t.tile s.canvas.tiles with
          | some x => tilePut t.tile { x with valid := 0xFF, data := d } s
          | none => s
        let l := layGet i s
        workDrop w (layPut i { l with tiles := l.tiles.map fun u => if u.n == n then { u with held := 4096 } else u } s)
      | (_, _, s) => s

/-- The next tile of a layer is taken, with a deadline. -/
def tileTake (i : Fin 32) (deadline : Nat) (s : State) : Option State :=
  let l := layGet i s
  let n := l.nextTile
  match allocTile none (.stream i n) 1 s with
  | none => none
  | some (t, s) =>
    some (layPut i { l with tiles := l.tiles ++ [⟨n, t, 0, deadline⟩], nextTile := n + 1 } s)

/-- The next tiles of a STREAM layer are issued, up to PREFETCH tiles held. -/
def tilesIssue (i : Fin 32) (urgent : Bool) : Nat → State → State
  | 0, s => s
  | fuel + 1, s =>
    let l := layGet i s
    let now := s.clk.tick.toNat
    if lKind l.act ≠ 0 || !l.listRead || lPrefetch l.act ≤ l.tiles.length then s
    else match l.tileLba (l.nextTile - l.first) with
      | none => s
      | some _ =>
        match tileTake i (if urgent then now else l.deadline (l.nextTile - l.first) now) s with
        | none => waitTile (streamWork i l.nextTile) none s
        | some s => tilesIssue i urgent fuel (tileAsk i l.nextTile s)

/-- Tiles of a layer in canvas memory, and what was being read for them, are dropped. -/
def tilesFree (i : Fin 32) (f : LTile → Bool) (s : State) : State :=
  let l := layGet i s
  let gone := l.tiles.filter f
  let s := layPut i { l with tiles := l.tiles.filter (!f ·) } s
  gone.foldl (fun s t =>
    let w := streamWork i t.n
    workDrop w (dropOps (fun o => o.use.work == some w) (tileDrop t.tile s))) s

/-- Tiles that lie wholly before the taps of the frame just computed are released (R505). -/
def tilesPass (i : Fin 32) (s : State) : State :=
  let l := layGet i s
  let b := l.firstByte l.p0
  tilesFree i (fun t => decide (4096 * (t.n - l.first + 1) ≤ b)) s

/-! ## Host refills (R510, R511) -/

/-- The 32-bit index at an offset of mailbox SRAM. -/
def mboxIndex (off : Nat) (s : State) : Nat := leNat (memReadList s.hbu.mailbox off 4)

/-- Unread bytes of a layer's ring. -/
def Layer.unread (l : Layer) : Nat :=
  let n := lRingBytes l.act
  (l.wr + n - l.rd) % n

/-- A layer needs data from its ring, and its channel is free to move it. -/
def refillDue (i : Fin 32) (s : State) : Bool :=
  let l := layGet i s
  let c := chanGet (lDma l.act) s
  let room := decide (l.tiles.length < lPrefetch l.act) || (match l.tiles.getLast? with
    | some t => decide (t.held < 4096)
    | none => true)
  lKind l.act == 1 && !l.rests && l.refill.isNone && l.stopAt == .none && room &&
    c.en && c.user == userPalette && c.state == .idle && c.cur.isNone

/-- The refill transfer takes its DMA_DESC unit in SYSTEM, and its channel. -/
def refillStart (i : Fin 32) (len : Nat) (s : State) : State :=
  let l := layGet i s
  let c := lDma l.act
  let id := s.dma.nextId
  let (ok, s) := poolAsk ⟨pDesc, none, 1, .dmaDesc id⟩ { s with dma := { s.dma with nextId := id + 1 } }
  let x : Xfer :=
    { id := id, kind := .refill i.val, studio := 0, system := true, src := .flat (lRingBase l.act + l.rd),
      dst := .device, length := len, hasDesc := ok }
  busRefresh (chanPut c { chanGet c s with cur := some x, state := .running } (layPut i { l with refill := some len } s))

/-- WR is read afresh, and a refill follows while there are unread bytes and space (R510, R511, R512). -/
def hostRefill (i : Fin 32) (s : State) : State :=
  if !refillDue i s then s
  else
    let l := { layGet i s with wr := mboxIndex (lSel (layGet i s).act) s }
    let s := layPut i l s
    if lRingBytes l.act ≤ l.wr then layPut i { l with stopAt := .ringBad } s
    else if l.unread = 0 then s
    else
      let full := match l.tiles.getLast? with
        | some t => decide (4096 ≤ t.held)
        | none => true
      match (if full then tileTake i s.clk.tick.toNat s else some s) with
      | none => waitTile (streamWork i l.nextTile) none s
      | some s =>
        let l := layGet i s
        let space := match l.tiles.getLast? with
          | some t => 4096 - t.held
          | none => 0
        refillStart i (min l.unread (min (lRingBytes l.act - l.rd) space)) s

/-- Some refill transfer of the layer is on a channel. -/
def refilling (i : Fin 32) (s : State) : Bool :=
  s.dma.chans.toList.any fun c => match c.cur with
    | some x => x.kind == .refill i.val
    | none => false

/-- A refill has ended well: RD advances and is written to the mailbox, and the owner's Palette bit follows (R510,
R511). -/
def refillDone (i : Fin 32) (s : State) : State :=
  let l := layGet i s
  match l.refill with
  | none => s
  | some len =>
    if refilling i s then s
    else
      let k := l.tiles.length - 1
      let rd := (l.rd + len) % lRingBytes l.act
      let l := { l with
        rd := rd, refill := none
        tiles := l.tiles.zipIdx.map fun (t, j) => if j == k then { t with held := t.held + len } else t }
      let s := layPut i l s
      let s := { s with hbu := { s.hbu with mailbox := memWriteList s.hbu.mailbox (lSel l.act + 4) (leBytes 4 rd) } }
      let s := if l.unread < lRingBytes l.act / 2 then sirqSet (lOwner l.act) sirqPal s else s
      hostRefill i s

/-- HOST_REFILL_DONE (R511). -/
def execHostRefillDone (layer : Fin 32) (s : State) : Out := .next (onlyIf (unitsRun s) (refillDone layer) s)

/-! ## Stop and start (R503, R509, R512, R535) -/

/-- The layer's tiles, its admission terms and any refill are given up (R503). -/
def layerFree (i : Fin 32) (s : State) : State :=
  let s := tilesFree i (fun _ => true) s
  let w := streamWork i (layGet i s).nextTile
  let s := workDrop w (dropOps (fun o => o.use.work == some w) s)
  let s := xferDrop (fun x => x.kind == .refill i.val) s
  let s := { s with ledger := { s.ledger with waiting := s.ledger.waiting.filter fun r => match r.use with
    | .tiles (.stream j _) => j != i
    | .tiles _ | .dmaDesc _ => true } }
  let l := layGet i s
  let s := match l.terms with
    | some t => admitSub t s
    | none => s
  busRefresh (layPut i { l with terms := none, refill := none, r := 0 } s)

/-- LIST_BAD, VOLUME, DMA_FAULT and RING_BAD are logged as warnings. -/
def LCause.warns : LCause → Bool
  | .listBad | .volume | .dmaFault | .ringBad => true
  | .none | .stop | .ended | .studioReset | .paletteOff => false

/-- A layer becomes STOPPED with a cause. -/
def layerStopped (i : Fin 32) (c : LCause) (s : State) : State :=
  let s := layerFree i s
  let s := layPut i { layGet i s with state := .stopped, cause := c, stopping := false, stopAt := .none } s
  layerEvent i (logAs .layerStopped (if c.warns then .warn else .note) none
    [BitVec.ofNat 8 i.val, BitVec.ofNat 8 c.num] s)

/-- The extents of a list sector, with LOOP_TO; none: it fails a check of R504. -/
def listParse (l : List Byte) (size : Nat) : Option (List (Nat × Nat) × Option Nat) :=
  let n := leField l 4 1
  let again := leField l 5 1
  let es := (List.range n).map fun i => (leField l (16 + 16 * i) 6, leField l (24 + 16 * i) 4)
  let ok := leField l 0 4 == 0x4C455854 && decide (1 ≤ n) && decide (n ≤ 31) && (again == 0xFF || decide (again < n)) &&
    leField l 12 4 == (crc32c (takeAt l 0 12 ++ takeAt l 16 (16 * n))).toNat &&
    es.all fun (a, k) => a % 8 == 0 && k % 8 == 0 && decide (8 ≤ k) && decide (a + k ≤ size)
  if ok then some (es, if again == 0xFF then none else some again) else none

/-- The list of a PRIMING layer is read, once (R504); its first tiles are issued with deadline now. -/
def listAsk (i : Fin 32) (s : State) : State :=
  let l := layGet i s
  let n := l.nextTile
  let w := streamWork i n
  let (a, tile) := l.arrayTile (lLba l.act) s
  let v := volGet (lVolume l.act) s
  let k := (v.base + lLba l.act) % 8
  match streamTile i s.clk.tick.toNat n a tile (BitVec.ofNat 8 (1 <<< k)) s with
  | (.got d, _, s) =>
    let s := workDrop w s
    let bytes := sectorBytes (d.toList.getD k 0)
    (match (if lLba l.act < v.size then listParse bytes v.size else none) with
    | none => layerStopped i .listBad s
    | some (es, again) =>
      tilesIssue i true 32 (layPut i
        { layGet i s with extents := es, loopTo := again, listRead := true, first := n + 1, nextTile := n + 1 } s))
  | (_, _, s) => s

/-- A layer enters PRIMING, with the terms it was admitted for: the RO words are reset, and its first tiles are asked
for (R503, R506, R510). -/
def layerPrime (i : Fin 32) (v : LWords) (r : Nat) (t : Option (Fin 4 × Nat × Nat × Nat)) (s : State) : State :=
  let o := layGet i s
  let inline := !(lKind v == 0 && lList v)
  let l : Layer :=
    { cfg := v, act := v, state := .priming, pan0 := lPan v, nextTile := o.nextTile, first := o.nextTile, r := r,
      terms := t, listRead := inline, extents := if inline then [(lLba v, lSectors v)] else [],
      loopTo := if inline && lLoop v then some 0 else none }
  let s := layPut i l s
  if lKind v = 0 then (if inline then tilesIssue i true 32 s else listAsk i s)
  else if lKind v = 1 then hostRefill i s
  else s

/-- Admission refuses the layer: it stays or becomes IDLE with its reason (R447, R503). -/
def layerDenied (i : Fin 32) (v : LWords) (reason r : Nat) (s : State) : State :=
  let o := layGet i s
  let s := layPut i { cfg := v, act := v, nextTile := o.nextTile, first := o.nextTile, reason := BitVec.ofNat 8 reason } s
  layerEvent i (logRec .admitRefused (BitVec.ofNat 8 i.val :: BitVec.ofNat 8 reason :: leBytes 4 r) s)

/-- A start commit is applied: admission by kind (R446, R501), then PRIMING. -/
def layerStart (i : Fin 32) (v : LWords) (s : State) : State :=
  let r := layerRate v
  let t := lPrefetch v
  if lKind v = 0 then match admitTerms (lVolume v) r t s with
    | .inl code => layerDenied i v code r s
    | .inr x => layerPrime i v r (some x) (admitAdd x s)
  else if lKind v = 1 then
    if s.referee.cfg.streamTiles < s.referee.tilesAdm + t then layerDenied i v 4 r s
    else layerPrime i v r (some (0, 0, 0, t)) (admitAdd (0, 0, 0, t) s)
  else layerPrime i v r none s

/-- A LAYER commit is applied: a start acts at once, anything else at the next frame boundary (R500, R503). -/
def layerApply (i : Fin 32) (v : LWords) (s : State) : State :=
  if (layGet i s).starts v then layerStart i v s else layPut i { layGet i s with cfg := v } s

/-- A tile that was asked for may have arrived: it is filled, and the next ones are issued; the list of a PRIMING
layer is read. -/
def tileArrived (i : Fin 32) (n : Nat) (s : State) : State :=
  let l := layGet i s
  if l.rests || lKind l.act ≠ 0 then s
  else if !l.listRead then listAsk i s
  else tilesIssue i false 32 (tileAsk i n s)

/-- STREAM_TILE_ARRIVED (R505): the tile with a number, or the extent list. -/
def execStreamTileArrived (layer : Fin 32) (n : Nat) (s : State) : Out :=
  .next (onlyIf (unitsRun s) (tileArrived layer n) s)

end Sys2Proof.Machine
end

