-- ==== Sys2Proof/Machine/Bus.lean ====
section
/-! DEFINITION. The Palette's buses and audio ports: their words, the checks and the effect of their commits, delay
tiles, the stages of a bus, and what a port sends (R523 to R532, R538, R539). -/

namespace Sys2Proof.Machine

/-! ## The words of a BUS entry (R538) -/

/-- Words 0 to 27 of a BUS entry. -/
abbrev BWords := Vector Word 28

def bEn (v : BWords) : Bool := bit (v.get 0) 31
def bPort (v : BWords) : Nat := bits (v.get 0) 30 30
def bBase (v : BWords) : Nat := bits (v.get 0) 29 27
def bCh (v : BWords) : Nat := bits (v.get 0) 26 24 + 1
def bBq (v : BWords) (k : Nat) : Bool := bit (v.get 0) (20 + k)
def bDelay (v : BWords) : Bool := bit (v.get 0) 19
def bLim (v : BWords) : Bool := bit (v.get 0) 18
def bGain (v : BWords) : Nat := bits (v.get 1) 31 21
def bRamp (v : BWords) : Nat := bits (v.get 1) 20 17
def bDlen (v : BWords) : Nat := bits (v.get 22) 15 0
def bLimThr (v : BWords) : Nat := bits (v.get 25) 31 21
def bLimRel (v : BWords) : Nat := bits (v.get 25) 20 17

/-- The five coefficients of a biquad stage. -/
def bCoefs (v : BWords) (k : Nat) : List Int := (List.range 5).map fun i => coefOf (v.toList.getD (2 + 5 * k + i) 0)

/-- Canvas tiles that the delay of these words needs; 0 where it is not enabled (R525). -/
def delayNeed (v : BWords) : Nat := if bEn v && bDelay v then (bCh v * bDlen v * 4 + 4095) / 4096 else 0

/-- A bus. -/
def busGet (b : Fin 8) (s : State) : Bus := s.palette.buses.get b

/-- The state with a bus replaced. -/
def busPut (b : Fin 8) (x : Bus) (s : State) : State :=
  { s with palette := { s.palette with buses := s.palette.buses.set b x } }

/-- The 32 words of a BUS entry as they read. -/
def Bus.words (b : Bus) : List Word :=
  b.cfg.toList ++ [fld 16 b.delayTiles ||| fld 0 b.limFrames.toNat, fld 0 b.peak, b.clips, 0]

/-- A port. -/
def auGet (p : Fin 3) (s : State) : AuPort := s.palette.ports.get p

/-- The state with a port replaced. -/
def auPut (p : Fin 3) (x : AuPort) (s : State) : State :=
  { s with palette := { s.palette with ports := s.palette.ports.set p x } }

/-! ## The words of an AUPORT entry (R539) -/

def aEn (w0 : Word) : Bool := bit w0 31
def aSlots (w0 : Word) : Nat := bits w0 30 28 + 1
def aSw (w0 : Word) : Nat := bits w0 27 26
def aDw (w0 : Word) : Nat := bits w0 25 24
def aBpf (w0 : Word) : Nat := 64 * 2 ^ bits w0 23 22
def aFsw (w0 : Word) : Nat := bits w0 21 20
def aSilPd (w0 : Word) : Bool := bit w0 15
def aSilThr (w1 : Word) : Nat := bits w1 31 21
def aSilTime (w1 : Word) : Nat := bits w1 15 8
def aResume (w1 : Word) : Nat := bits w1 7 0

/-- Port states as PAL_STAT codes them. -/
def PState.num : PState → Nat
  | .off => 0 | .run => 1 | .sleep => 2 | .resuming => 3

/-- The 8 words of an AUPORT entry as they read. -/
def AuPort.words (p : AuPort) : List Word :=
  [p.w0, p.w1, 0, 0, fld 30 p.state.num ||| fld 0 p.sleeps.toNat, 0, 0, 0]

/-! ## Checks (R525, R528, R538, R539) -/

/-- A Q2.22 coefficient whose bits [31:24] do not equal its bit 23. -/
def coefBad (w : Word) : Bool := bits w 31 24 != (if bit w 23 then 255 else 0)

/-- The slots of a bus meet those of another. -/
def slotsMeet (v w : BWords) : Bool :=
  bPort v == bPort w && decide (bBase v < bBase w + bCh w) && decide (bBase w < bBase v + bCh v)

/-- The output port of a bus. -/
def busPort (v : BWords) : Fin 3 := if bPort v = 0 then 0 else 1

/-- The BAD_FIELD checks of a BUS commit, word by word. -/
def busBad (b : Fin 8) (v : BWords) (s : State) : Option (Byte × Byte) :=
  let fits := decide (bBase v + bCh v ≤ aSlots (auGet (busPort v) s).w0)
  let meets := bEn v && (List.finRange 8).any fun c => c != b && bEn (busGet c s).cfg && slotsMeet v (busGet c s).cfg
  firstFail
    ([badAt (bits (v.get 0) 17 0 != 0 || !fits || meets) 0,
      badAt (bits (v.get 1) 16 0 != 0 || decide (9 < bRamp v)) 1] ++
     ((List.range 20).map fun i => badAt (coefBad (v.toList.getD (2 + i) 0)) (2 + i)) ++
     [badAt (bits (v.get 22) 31 16 != 0 || (bDelay v && (bDlen v == 0 || decide (48000 < bDlen v)))) 22,
      badAt (coefBad (v.get 23)) 23, badAt (coefBad (v.get 24)) 24,
      badAt (bits (v.get 25) 16 0 != 0 || decide (9 < bLimRel v)) 25,
      badAt (v.get 26 != 0) 26, badAt (v.get 27 != 0) 27])

/-- A change that an enabled bus does not take, and a delay that would raise Tiles_adm above STREAM_TILES. -/
def busRefused (b : Fin 8) (v : BWords) (s : State) : Option (Byte × Byte) :=
  let x := busGet b s
  if bEn x.cfg && bEn v then
    firstFail
      [refusedAt ((v.get 0 ^^^ x.cfg.get 0) &&& 0x7F080000#32 != 0) 0,
       refusedAt (bDelay v && decide (x.delayTiles < delayNeed v)) 22]
  else refusedAt (delayNeed v != 0 &&
    decide (s.referee.cfg.streamTiles < s.referee.tilesAdm - x.delayTiles + delayNeed v)) 0xFF

/-- The checks of a BUS commit after those of its level. -/
def busCheck (b : Fin 8) (v : BWords) (s : State) : Option (Byte × Byte) := firstFail [busBad b v s, busRefused b v s]

/-- The checks of an AUPORT commit after those of its level. -/
def auCheck (p : Fin 3) (w0 w1 : Word) (s : State) : Option (Byte × Byte) :=
  let sw := 16 + 8 * aSw w0
  let x := auGet p s
  firstFail
    [badAt (aSw w0 == 3 || aDw w0 == 3 || decide (aSw w0 < aDw w0) || aFsw w0 == 3 || decide (aBpf w0 < aSlots w0 * sw)
        || (p == 2 && aSilPd w0)) 0,
     badAt (aResume w1 == 0) 1,
     refusedAt (aEn x.w0 && aEn w0 && (w0 ^^^ x.w0) &&& 0x7FFF8000#32 != 0) 0]

/-! ## Commits (R500, R525) -/

/-- The tiles of a bus's delay return, with their term (R525). -/
def delayFree (b : Fin 8) (s : State) : State :=
  let n := (busGet b s).delayTiles
  let s := dropWhere (· == .delay b) s
  let s := { s with referee := { s.referee with tilesAdm := s.referee.tilesAdm - n } }
  busPut b { busGet b s with delayTiles := 0, line := [] } s

/-- n tiles are taken for a bus's delay, as far as canvas memory has them to give. -/
def delayTiles (b : Fin 8) : Nat → State → State
  | 0, s => s
  | n + 1, s => match allocTile none (.delay b) 1 s with
    | none => s
    | some (_, s) => delayTiles b n s

/-- The tiles of a delay are taken, with their term. -/
def delayTake (b : Fin 8) (n : Nat) (s : State) : State :=
  let s := { s with referee := { s.referee with tilesAdm := s.referee.tilesAdm + n } }
  delayTiles b n (busPut b { busGet b s with delayTiles := n } s)

/-- A BUS commit is applied: the delay's tiles are taken now, everything else takes effect at the next boundary; while
no frame clock runs, the tiles of a cleared delay return now. -/
def busApply (b : Fin 8) (v : BWords) (s : State) : State :=
  let x := busGet b s
  let s := busPut b { x with cfg := v } s
  if bEn x.cfg && bDelay x.cfg && delayNeed v != 0 then s
  else if delayNeed v != 0 then delayTake b (delayNeed v) (delayFree b s)
  else if s.palette.enAct then s
  else delayFree b s

/-- An AUPORT commit is applied; it takes effect at the next boundary. -/
def auApply (p : Fin 3) (w0 w1 : Word) (s : State) : State :=
  auPut p { auGet p s with w0 := w0 &&& 0xFFFF8000#32, w1 := w1 &&& 0xFFE0FFFF#32 } s

/-- The committed words of a bus take effect at a boundary (R523, R528). -/
def busTakes (b : Fin 8) (s : State) : State :=
  let x := busGet b s
  let old := x.act
  let new := x.cfg
  let rises (f : BWords → Bool) : Bool := !f old && f new
  let moved := bGain old != bGain new || bRamp old != bRamp new
  let g := if rises bEn then Gain.aim {} (bGain new) (bRamp new)
    else if moved then x.gain.aim (bGain new) (bRamp new) else x.gain
  let q := Vector.ofFn fun k : Fin 4 => if rises (bBq · k.val) then [] else x.bq.get k
  let y := { x with act := new, gain := g, bq := q, line := if rises bDelay then [] else x.line }
  let y := if rises bLim then { y with limG := 2 ^ 22, limBuf := [] } else y
  let s := busPut b y s
  if delayNeed new = 0 && y.delayTiles != 0 then delayFree b s else s

/-! ## The stages of a bus (R523 to R526) -/

/-- One sample of every channel through a biquad stage: the samples and the states after it. -/
def bqRow (c : List Int) : List Bq → List Int → List Int × List Bq
  | _, [] => ([], [])
  | st, x :: t =>
    let (y, u) := (st.headD {}).step c x
    let (l, us) := bqRow c st.tail t
    (y :: l, u :: us)

/-- One sample of every channel through the delay. -/
def delayRow (dlen keep : Nat) (dfb dmix : Int) : List (List Int) → List Int → List Int × List (List Int)
  | _, [] => ([], [])
  | st, x :: t =>
    let (y, u) := delayStep dlen keep dfb dmix (st.headD []) x
    let (l, us) := delayRow dlen keep dfb dmix st.tail t
    (y :: l, u :: us)

/-- One biquad stage of a bus, if it is enabled. -/
def busBq (k : Fin 4) (x : Bus) (v : List Int) : List Int × Bus :=
  if bBq x.act k.val then
    let (l, u) := bqRow (bCoefs x.act k.val) (x.bq.get k) v
    (l, { x with bq := x.bq.set k u })
  else (v, x)

/-- The delay of a bus, if it is enabled. -/
def busDelay (x : Bus) (v : List Int) : List Int × Bus :=
  if bDelay x.act then
    let (l, u) := delayRow (bDlen x.act) (x.delayTiles * 1024 / bCh x.act) (coefOf (x.act.get 23))
      (coefOf (x.act.get 24)) x.line v
    (l, { x with line := u })
  else (v, x)

/-- The ramped gain of a bus. -/
def busGain (x : Bus) (v : List Int) : List Int × Bus :=
  let g := x.gain.tick
  (v.map fun y => mulQ y g.factor, { x with gain := g })

/-- The limiter of a bus, if it is enabled (R526). -/
def busLim (x : Bus) (v : List Int) : List Int × Bus :=
  if bLim x.act then
    let t := gainRound 23 (bLimThr x.act * 65536 : Nat)
    let r := 2 ^ 22 / (48 * 2 ^ bLimRel x.act)
    let (l, buf, g) := limStep t r (bCh x.act) x.limBuf x.limG v
    (l, { x with limBuf := buf, limG := g })
  else (v, x)

/-- One sample of every channel through the stages, in order. -/
def busSample (x : Bus) (v : List Int) : List Int × Bus :=
  let (v, x) := busBq 0 x v
  let (v, x) := busBq 1 x v
  let (v, x) := busBq 2 x v
  let (v, x) := busBq 3 x v
  let (v, x) := busDelay x v
  let (v, x) := busGain x v
  busLim x v

/-- A frame through the stages; the flag says that the limiter's gain was below 2^22 for some sample. -/
def busRun : List (List Int) → Bus → List (List Int) × Bool × Bus
  | [], x => ([], false, x)
  | v :: t, x =>
    let (y, x) := busSample x v
    let (l, low, x') := busRun t x
    (y :: l, low || (bLim x.act && decide (x.limG < 2 ^ 22)), x')

/-- A bus computes a frame from its channel sums; a bus that is not enabled computes nothing. -/
def busFrame (sums : List (List Int)) (x : Bus) : Bus :=
  if !bEn x.act then { x with outp := [], peak := 0 }
  else
    let (l, low, y) := busRun sums x
    { y with
      outp := l, peak := min (2 ^ 24 - 1) ((l.flatten.map Int.natAbs).foldl max 0)
      limFrames := if low then ctrInc y.limFrames else y.limFrames }

/-! ## Ports (R529 to R532) -/

/-- The sample that a slot of a port takes from the buses, 0 where none feeds it. -/
def slotFed (s : State) (p : Fin 3) (j k : Nat) : Int :=
  match s.palette.buses.toList.find? fun b =>
    bEn b.act && busPort b.act == p && decide (bBase b.act ≤ k) && decide (k < bBase b.act + bCh b.act) with
  | some b => (b.outp.getD j []).getD (k - bBase b.act) 0
  | none => 0

/-- The frame that the buses have computed for a port, by slot, before conversion. -/
def portFrame (s : State) (p : Fin 3) : List (List Int) :=
  (List.range 32).map fun j => (List.range (aSlots (auGet p s).act0)).map fun k => slotFed s p j k

/-- A frame that the port sends, converted to its data width (R527). -/
def sentFrame (w0 : Word) (l : List (List Int)) : List (List Int) := l.map fun r => r.map (slotOut (widthBits (aDw w0)))

/-- A frame of zeros. -/
def zeroFrame (w0 : Word) : List (List Int) := List.replicate 32 (List.replicate (aSlots w0) 0)

/-- Frames that a port stays in RESUMING (R531). -/
def resumeFrames (w1 : Word) : Nat := (aResume w1 * 3 + 1) / 2

/-- A port enters RESUMING. -/
def AuPort.resume (p : AuPort) : AuPort :=
  { p with state := .resuming, left := resumeFrames p.act1, muted := true, sent := zeroFrame p.act0, quiet := 0, zeros := 0 }

/-- A port enters RUN: it releases MUTE. -/
def AuPort.runs (p : AuPort) : AuPort := { p with state := .run, left := 0, muted := false, heard := true, quiet := 0 }

/-- A port goes OFF. -/
def AuPort.goesOff (p : AuPort) : AuPort :=
  { p with state := .off, left := 0, quiet := 0, zeros := 0, wake := false, heard := false, muted := true, sent := [] }

/-- A port enters SLEEP: MUTE asserted, zeros for 15 frames. -/
def AuPort.sleeps' (p : AuPort) : AuPort :=
  { p with state := .sleep, sleeps := ctrInc p.sleeps, muted := true, zeros := 15, sent := zeroFrame p.act0, wake := false }

/-- A port event: EVT and its note. -/
def portEvent (c : Code) (p : Fin 3) (s : State) : State :=
  logRec c [BitVec.ofNat 8 p.val] { s with palette := { s.palette with evt := true } }

/-- The quiet time of R532 has passed. -/
def AuPort.drowsy (p : AuPort) : Bool :=
  aSilPd p.act0 && aSilTime p.act1 != 0 && decide (150 * aSilTime p.act1 ≤ p.quiet)

/-- Samples of a frame that conversion saturates. -/
def clipCount (l : List (List Int)) : Nat := (l.flatten.filter fun x => clip24 x != x).length

/-- The buses of a port count the samples that its conversion saturates (R538). -/
def countClips (p : Fin 3) (s : State) : State :=
  let count (b : Bus) : Bus :=
    if bEn b.act && busPort b.act == p then { b with clips := ctrAdd b.clips (clipCount b.outp) } else b
  { s with palette := { s.palette with buses := s.palette.buses.map count } }

/-- A port at a frame boundary: its words take effect, its state moves, and it sends the frame computed last, or zeros
(R500, R531, R532). -/
def portBoundary (p : Fin 3) (s : State) : State :=
  let x := auGet p s
  let x := { x with act0 := x.w0, act1 := x.w1 }
  let sends (x : AuPort) (s : State) : State :=
    let f := portFrame s p
    let s := auPut p { x with sent := if p = 2 then [] else sentFrame x.act0 f } s
    if p = 2 then s else countClips p s
  if !aEn x.act0 then auPut p x.goesOff s
  else match x.state with
    | .off => auPut p x.resume s
    | .resuming =>
      if x.left ≤ 1 then
        let s := sends x.runs s
        if x.heard then portEvent .portResume p s else s
      else auPut p { x with left := x.left - 1, wake := false } s
    | .run =>
      if x.drowsy then portEvent .portSleep p (auPut p x.sleeps' s) else sends { x with wake := false } s
    | .sleep =>
      if x.wake then auPut p { x.resume with wake := false } s
      else auPut p { x with zeros := x.zeros - 1, sent := if x.zeros ≤ 1 then [] else zeroFrame x.act0 } s

/-- The computed frame is quiet on an output port (R532). -/
def quietFrame (p : Fin 3) (s : State) : Bool :=
  let t := gainRound 23 (aSilThr (auGet p s).act1 * 65536 : Nat)
  (portFrame s p).all fun r => r.all fun x => decide ((x.natAbs : Int) < t)

/-- A computed frame counts toward a port's silence; one that is not quiet wakes a sleeping port. -/
def portListens (p : Fin 3) (s : State) : State :=
  let x := auGet p s
  if p = 2 then s
  else match x.state with
    | .off | .resuming => s
    | .run => auPut p { x with quiet := if quietFrame p s then x.quiet + 1 else 0 } s
    | .sleep => if quietFrame p s then s else auPut p { x with wake := true } s

end Sys2Proof.Machine
end

