-- ==== Sys2Proof/Machine/Palette.lean ====
section
/-! DEFINITION. The Palette at work: the frame boundary, layer states, the mix, PAL_CTRL and PAL_STAT, and what sleep
and a change of level do to it (R498 to R500, R503, R513 to R522, R534, R535). -/

namespace Sys2Proof.Machine

/-! ## Layers at a boundary -/

/-- The committed words of a layer take effect at a boundary (R500, R520, R521): a new gain ramps, and a cleared RUN
ends a PRIMING layer or starts its ramp to mute. -/
def layerTakes (i : Fin 32) (s : State) : State :=
  let l := layGet i s
  let old := l.act
  let new := l.cfg
  if l.rests then layPut i { l with act := new } s
  else if !lRun new then match l.state with
    | .priming => layerStopped i .stop (layPut i { l with act := new } s)
    | .idle | .playing | .blanking | .stopped =>
      if l.stopping then layPut i { l with act := new } s
      else layPut i { l with act := new, stopping := true, gain := l.gain.aim 0 (lRamp new) } s
  else
    let moved := lGain old != lGain new || lRamp old != lRamp new
    let run := l.state == .playing || l.state == .blanking
    layPut i { l with act := new, gain := if moved && run && !l.stopping then l.gain.aim (lGain new) (lRamp new) else l.gain } s

/-- The cause at which a layer stops at this boundary, if any (R509, R512, R518). -/
def layerEnds (i : Fin 32) (s : State) : Option LCause :=
  let l := layGet i s
  if l.rests then none
  else if l.stopAt != .none then some l.stopAt
  else
    let v := volGet (lVolume l.act) s
    if lKind l.act = 0 && (v.state != .online || (arrGet v.array s).state == .offline) then some .volume
    else if (l.state == .playing || l.state == .blanking) && l.over then some .ended
    else none

/-- The layer may leave PRIMING (R503, R517). -/
def Layer.goes (l : Layer) : Bool := l.ready && l.primed

/-- Every PRIMING layer of the layer's group is ready too. -/
def groupGoes (l : Layer) (s : State) : Bool :=
  lGroup l.act == 0 ||
    (s.palette.layers.toList.filter fun k => k.state == .priming && lGroup k.act == lGroup l.act).all Layer.goes

/-- The state of a layer for the frame that begins. -/
def layerMoves (u : State) (i : Fin 32) (s : State) : State :=
  let l := layGet i s
  match l.state with
  | .idle | .stopped => s
  | .priming =>
    if l.goes && groupGoes l u then
      layPut i { l with state := .playing, gain := Gain.aim {} (lGain l.act) (lRamp l.act), pan0 := lPan l.act } s
    else s
  | .playing =>
    if l.ready then s
    else
      let s := layPut i { l with state := .blanking } s
      layerEvent i (logRec .layerUnderrun (BitVec.ofNat 8 i.val :: leBytes 2 (ctrInc l.underrun).toNat) s)
  | .blanking => if l.ready then layPut i { l with state := .playing } s else s

/-! ## The frame (R513 to R522) -/

/-- A layer's part in a frame: its words, its samples by channel after gain, and the PAN before and now. -/
structure LFrame where
  words : LWords
  out : List (List Int)
  panOld : Nat
  panNew : Nat
  deriving DecidableEq, Repr

/-- Sample j of channel c of a layer before gain: interpolated, or as AU2 gave it (R513, R515). -/
def Layer.sample (l : Layer) (s : State) (c j : Nat) : Int :=
  if lKind l.act = 2 then
    if (auGet 2 s).state == .run then (s.palette.au2.getD (30 + j) []).getD (lSel l.act + c) 0 else 0
  else cubic (tapOf (lRate l.act) (l.raw s c)) (l.p0 + j * rateStep (lRate l.act))

/-- The gains of a frame, and the gain after it. -/
def Layer.gains (l : Layer) : List Int × Gain := Gain.run 32 l.gain

/-- What a playing layer puts into the frame. -/
def Layer.part (l : Layer) (s : State) : LFrame :=
  { words := l.act, panOld := l.pan0, panNew := lPan l.act
    out := l.gains.1.zipIdx.map fun (g, j) => (List.range (lCh l.act)).map fun c => mulQ (l.sample s c j) g }

/-- The factor of a pan side on its way over the frame. -/
def panAt (f : LFrame) (right : Bool) (j : Nat) : Int :=
  let side (p : Nat) : Int := if right then (panFactors (lCh f.words) p).2 else (panFactors (lCh f.words) p).1
  panStep (side f.panOld) (side f.panNew) j

/-- The contribution of a layer to channel k of a bus of n channels, at sample j (R521, R522). -/
def LFrame.into (f : LFrame) (n k j : Nat) : Int :=
  let d := lDst f.words
  let x (c : Nat) : Int := (f.out.getD j []).getD c 0
  if k < d then 0
  else match lCh f.words with
    | 1 =>
      if k = d then (if d + 1 < n then mulQ (x 0) (panAt f false j) else x 0)
      else if k = d + 1 then mulQ (x 0) (panAt f true j) else 0
    | 2 =>
      if k = d then mulQ (x 0) (panAt f false j)
      else if k = d + 1 then mulQ (x 1) (panAt f true j) else 0
    | c => if k < d + c then x (k - d) else 0

/-- The channel sums of a bus for the frame. -/
def busSums (fs : List LFrame) (b : Fin 8) (s : State) : List (List Int) :=
  let n := bCh (busGet b s).act
  let mine := fs.filter fun f => lBus f.words == b.val
  (List.range 32).map fun j => (List.range n).map fun k => sat32 ((mine.map fun f => f.into n k j).sum)

/-- A layer after the frame: what was computed counts, tiles behind it are released, the next ones are issued, and
P_0 advances; a blanked frame keeps everything unless KEEP_TIME is set (R505, R514, R516, R517). -/
def layerAfter (i : Fin 32) (s : State) : State :=
  let l := layGet i s
  let g := l.gains.2
  let adv (l : Layer) (s : State) : State :=
    let s := tilesIssue i false 32 (tilesPass i (layPut i { l with p31 := l.lastPos l.p0 } s))
    let k := layGet i s
    layPut i { k with p0 := k.p0 + 32 * rateStep (lRate k.act) } s
  let s := match l.state with
    | .idle | .stopped => s
    | .priming => tilesIssue i true 32 s
    | .playing => adv { l with gain := g, pan0 := lPan l.act, frames := ctrInc l.frames } s
    | .blanking =>
      let l := { l with gain := g, pan0 := lPan l.act, underrun := ctrInc l.underrun }
      if lKeep l.act then adv l s else tilesIssue i false 32 (layPut i l s)
  if (layGet i s).stopping && g.left = 0 then layerStopped i .stop s else hostRefill i s

/-! ## The boundary -/

/-- The 32 layers, in order. -/
def eachLayer (f : Fin 32 → State → State) (s : State) : State := (List.finRange 32).foldl (fun s i => f i s) s

/-- AU2's samples of the frame before, newest last; zeros while it did not run (R513). -/
def au2Keeps (l : Vector (Vector Word 8) 32) (s : State) : State :=
  let x := auGet 2 s
  let dw := widthBits (aDw x.act0)
  let rows := l.toList.map fun r =>
    if x.state == .run && s.palette.booted then r.toList.map (slotIn dw) else List.replicate 8 0
  let old := List.replicate (64 - s.palette.au2.length) (List.replicate 8 0) ++ s.palette.au2
  { s with palette := { s.palette with au2 := (old ++ rows).drop 32 } }

/-- EN has been cleared: layers stop with PALETTE_OFF, ports go OFF, and the frame clock stops (R498). -/
def paletteEnds (s : State) : State :=
  let s := eachLayer (fun i s => if (layGet i s).rests then s else layerStopped i .paletteOff s) s
  { s with palette := { s.palette with
      enAct := false, mclkAct := s.palette.mclkEn, booted := false, au2 := [], ports := s.palette.ports.map AuPort.goesOff } }

/-- A boundary of the running frame clock: commits take effect, ports send, layers move, and the frame is computed. -/
def frame (s : State) : State :=
  let n := if s.palette.booted then s.palette.frame + 1 else 0
  let s := { s with palette := { s.palette with enAct := true, mclkAct := s.palette.mclkEn, booted := true, frame := n } }
  let s := portBoundary 2 (portBoundary 1 (portBoundary 0 s))
  let s := eachLayer layerTakes s
  let s := (List.finRange 8).foldl (fun s b => busTakes b s) s
  let s := eachLayer (fun i s => match layerEnds i s with
    | some c => layerStopped i c s
    | none => s) s
  let s := eachLayer (layerMoves s) s
  let parts := (s.palette.layers.toList.filter fun l => l.state == .playing).map fun l => l.part s
  let s := { s with palette := { s.palette with
    buses := Vector.ofFn fun b => busFrame (busSums parts b s) (busGet b s) } }
  eachLayer layerAfter (portListens 1 (portListens 0 s))

/-- The Palette may run: a manager at LEVEL2 in RUN (R498). -/
def paletteRuns (s : State) : Bool := unitsRun s && isManager s && atLevel2 s && s.power.state == .run

/-- FRAME_BOUNDARY (R498): with what AU2 received during the frame before. -/
def execFrameBoundary (au2 : Vector (Vector Word 8) 32) (s : State) : Out :=
  .next (onlyIf (paletteRuns s && (s.palette.en || s.palette.enAct)) (fun s =>
    let s := au2Keeps au2 s
    if s.palette.en then frame s else paletteEnds s) s)

/-! ## PAL_CTRL and PAL_STAT (R534, R535) -/

/-- PAL_CTRL as it reads. -/
def palCtrlWord (s : State) : Word := flg 31 s.palette.en ||| flg 30 s.palette.mclkEn

/-- The frame clock runs. -/
def frameClock (s : State) : Bool := paletteRuns s && s.palette.enAct

/-- PAL_STAT as it reads. -/
def palStatWord (s : State) : Word :=
  let p := s.palette
  flg 31 p.evt ||| fld 26 p.lastLayer.toNat ||| flg 23 (frameClock s && !s.power.sup.vioA) ||| flg 22 (frameClock s) |||
    fld 20 (auGet 2 s).state.num ||| fld 18 (auGet 1 s).state.num ||| fld 16 (auGet 0 s).state.num ||| fld 0 p.frame.toNat

/-- Ports named by a WAKE mask resume at the next boundary where they sleep. -/
def portsWake (mask : Nat) (s : State) : State :=
  (List.finRange 3).foldl (fun s p =>
    if (mask >>> p.val) % 2 = 1 && (auGet p s).state == .sleep then auPut p { auGet p s with wake := true } s else s) s

/-- A write of PAL_CTRL, by lanes: EN, MCLK_EN and WAKE lie in byte 3. -/
def palCtrlWrite (lanes : Lanes) (w : Word) (s : State) : State :=
  if !lane lanes 3 then s
  else portsWake (bits w 26 24) { s with palette := { s.palette with en := bit w 31, mclkEn := bit w 30 } }

/-- A W1C write of PAL_STAT. -/
def palStatWrite (lanes : Lanes) (w : Word) (s : State) : State :=
  if lane lanes 3 && bit w 31 then { s with palette := { s.palette with evt := false } } else s

/-- PALETTE_ENABLE (R498, R534). -/
def execPaletteEnable (mclk : Bool) (s : State) : Out :=
  .next (onlyIf (unitsRun s) (palCtrlWrite 8 (flg 31 true ||| flg 30 mclk)) s)

/-- PALETTE_DISABLE (R498, R534). -/
def execPaletteDisable (mclk : Bool) (s : State) : Out := .next (onlyIf (unitsRun s) (palCtrlWrite 8 (flg 30 mclk)) s)

/-- PORT_WAKE (R532, R534). -/
def execPortWake (port : Fin 3) (s : State) : Out := .next (onlyIf (unitsRun s) (portsWake (2 ^ port.val)) s)

/-! ## Sleep and levels (R498, R499) -/

/-- Departure from LEVEL2: every layer becomes IDLE, every port goes OFF, the pins take their reset states. -/
def palDown (s : State) : State :=
  let s := eachLayer (fun i s =>
    let s := layerFree i s
    layPut i { layGet i s with state := .idle, stopping := false, stopAt := .none } s) s
  { s with palette := { s.palette with
      enAct := false, booted := false, au2 := [], ports := s.palette.ports.map AuPort.goesOff } }

/-- Entry to NAP or DOZE: the pins take their reset states. -/
def palNap (s : State) : State := { s with palette := { s.palette with ports := s.palette.ports.map AuPort.pinsOff } }

/-- Waking from NAP or DOZE: ports that were RUN or RESUMING resume. -/
def palWake (s : State) : State :=
  let wake (p : AuPort) : AuPort := match p.state with
    | .run | .resuming => p.resume
    | .off | .sleep => p
  { s with palette := { s.palette with ports := s.palette.ports.map wake } }

end Sys2Proof.Machine
end

