-- ==== Sys2Proof/Machine/Entries.lean ====
section
/-! DEFINITION. The table spaces: their sizes and kinds, the words of every entry, and the NV configuration area as it
reads raw (R121 to R124, R172, R205, R261, R266, R267, R299, R395, R396, R451, R455, R560, R563). -/

namespace Sys2Proof.Machine

/-! ## The spaces (R172) -/

/-- Kinds of spaces. -/
inductive SpaceKind where
  | nv | vol | ro
  deriving DecidableEq, Repr

/-- Entries, words per entry and kind of a space; none: undefined. A Mixed space counts as NV. -/
def spaceOf (space : Nat) : Option (Nat × Nat × SpaceKind) :=
  match space with
  | 0x01 => some (128, 16, .nv)
  | 0x02 => some (4, 16, .nv)
  | 0x03 => some (64, 8, .nv)
  | 0x04 => some (8, 16, .nv)
  | 0x05 => some (64, 8, .vol)
  | 0x06 => some (16, 16, .vol)
  | 0x07 => some (20, 16, .ro)
  | 0x08 => some (256, 8, .ro)
  | 0x09 => some (32, 16, .vol)
  | 0x0A => some (8, 32, .vol)
  | 0x0B => some (3, 8, .vol)
  | 0x0C => some (384, 4, .ro)
  | 0x0D => some (16, 4, .nv)
  | 0x0E => some (16, 8, .ro)
  | 0x0F => some (4, 4, .nv)
  | 0x10 => some (2048, 32, .ro)
  | 0x11 => some (256, 2, .ro)
  | 0x20 => some (4096, 256, .ro)
  | 0x21 => some (64, 256, .ro)
  | _ => none

/-! ## STUDIO (R455) -/

/-- Words 0 to 7 of a STUDIO entry. -/
def StudioCfg.words (c : StudioCfg) : List Word :=
  [flg 31 c.en ||| fld 8 c.mbxWr.toNat ||| fld 0 c.mbxRd.toNat, fld 8 c.coalTime.toNat ||| fld 0 c.coalCount.toNat,
   fld 16 c.qCmd ||| fld 0 c.qLock, fld 16 c.qTile ||| fld 0 c.qPage, fld 0 c.qDma, 0] ++ c.label.toList

/-- A studio's configuration from words 0 to 7. -/
def studioCfgOf (w : List Word) : StudioCfg :=
  { en := bit (wordAt w 0) 31, mbxWr := BitVec.ofNat 8 (bits (wordAt w 0) 15 8),
    mbxRd := BitVec.ofNat 8 (bits (wordAt w 0) 7 0), coalTime := BitVec.ofNat 8 (bits (wordAt w 1) 15 8),
    coalCount := BitVec.ofNat 8 (bits (wordAt w 1) 7 0), qCmd := bits (wordAt w 2) 31 16, qLock := bits (wordAt w 2) 15 0,
    qTile := bits (wordAt w 3) 31 16, qPage := bits (wordAt w 3) 15 0, qDma := bits (wordAt w 4) 15 0,
    label := #v[wordAt w 6, wordAt w 7] }

/-- The 16 words of a STUDIO entry. -/
def Studio.words (x : Studio) : List Word :=
  x.cfg.words ++ [fld 30 x.state.num, x.resets, x.resetTick, fld 16 x.handed.toNat ||| fld 0 x.dropped.toNat, x.resetTicks,
    0, 0, 0]

/-! ## QUEUE (R266, R267) -/

/-- QUEUE.STATE codes. -/
def QState.num : QState → Nat
  | .disabled => 0 | .running => 1 | .frozen => 2 | .draining => 3

/-- The 8 words of a submission queue's entry. -/
def Sq.words (x : Sq) : List Word :=
  [flg 31 x.en ||| flg 30 x.loc ||| flg 29 x.errMode ||| flg 28 x.cmode ||| fld 26 x.cqSel.toNat ||| flg 25 x.wbIen |||
     fld 20 x.depthLog2.toNat, x.base.setWidth 32, 0, 0,
   fld 30 x.state.num ||| fld 20 x.head ||| fld 10 x.fetch ||| fld 0 x.tail,
   fld 16 x.outstanding ||| fld 8 x.lastStatus.toNat ||| fld 0 x.lastDetail.toNat, x.fetched, x.errors]

/-- The 8 words of a completion queue's entry. -/
def Cq.words (x : Cq) : List Word :=
  [flg 31 x.en ||| flg 30 x.loc ||| flg 29 x.ien ||| fld 20 x.depthLog2.toNat, x.base.setWidth 32, 0, 0,
   fld 30 (if x.run then 1 else 0) ||| fld 20 x.head ||| flg 10 x.phase ||| fld 0 x.tail, fld 0 x.reserved, x.posted, 0]

/-! ## DMA_CHAN (R261) -/

/-- DMA_CHAN.STATE codes. -/
def ChanState.num : ChanState → Nat
  | .disabled => 0 | .idle => 1 | .polling => 2 | .running => 3 | .halted => 4 | .stopping => 5

/-- Words 0 to 5 of a DMA_CHAN entry. -/
def Chan.cfgWords (c : Chan) : List Word :=
  [flg 31 c.en ||| fld 29 c.user.toNat ||| fld 27 c.cmode.toNat ||| fld 24 c.studio.val ||| fld 16 c.prefetch.toNat |||
     fld 8 c.poll.toNat ||| fld 4 c.ringLog2.toNat,
   c.ringBase.setWidth 32, c.crecBase.setWidth 32, c.startIdx.setWidth 32, 0, 0]

/-- The 16 words of a DMA_CHAN entry. -/
def Chan.words (c : Chan) : List Word :=
  c.cfgWords ++
    [fld 28 c.state.num ||| flg 27 c.phase ||| fld 16 c.nextIdx.toNat ||| fld 8 c.lastStatus.toNat |||
       fld 0 c.lastDetail.toNat, c.faultAddr.setWidth 32, c.doneCount] ++ lowHigh c.bytes ++ [0, 0, 0, 0, 0]

/-! ## LEDGER (R451) and LOCK (R299) -/

/-- Two counts in the halves of a word. -/
def halves (hi lo : Nat) : Word := fld 16 (hi % 2 ^ 16) ||| fld 0 (lo % 2 ^ 16)

/-- The 16 words of a LEDGER entry. -/
def ledgerWords (i : Fin 20) (s : State) : List Word :=
  let p := poolGet i s
  let held (k : Nat) : Nat := p.held.toList.getD k 0
  let cap (k : Nat) : Nat := (poolCap i (fin8 k) s).getD 0
  [fld 24 i.val ||| fld 0 p.total, halves p.system p.free, halves p.sysPeak (poolRes i s),
   halves (held 1) (held 0), halves (held 3) (held 2), halves (held 5) (held 4), halves (held 7) (held 6),
   halves (cap 1) (cap 0), halves (cap 3) (cap 2), halves (cap 5) (cap 4), halves (cap 7) (cap 6),
   s.clk.tick.truncate 32, p.waits, fld 0 p.freeMin, 0, 0]

/-- KIND codes. -/
def LockKind.num : LockKind → Nat
  | .command => 0 | .child => 1 | .restoration => 2 | .copyBack => 3 | .inspection => 4 | .repaint => 5 | .flush => 6

/-- The CMD_SLOT that a command's or a child's lock names. -/
def Lock.cmd (l : Lock) : Nat :=
  match l.work with
  | .cmd i => i
  | .flush _ | .background _ | .stream _ _ | .volTrim _ | .remote _ _ => 0

/-- The 4 words of a LOCK entry. -/
def lockWords (e : Nat) (s : State) : List Word :=
  match kget e s.queues.locks with
  | none => [0, 0, 0, 0]
  | some l =>
    let waiters := (s.queues.line.filter fun r => r.conflicts l && decide (l.place < r.place)).length
    [flg 31 true ||| flg 30 l.excl ||| flg 29 l.studio.isNone ||| fld 26 ((l.studio.map (·.val)).getD 0) |||
       fld 24 l.array.val ||| fld 0 (l.start / 2 ^ 32),
     BitVec.ofNat 32 l.start, BitVec.ofNat 32 l.count,
     fld 24 (min 255 waiters) ||| fld 16 (if l.kind == .command then l.sq else 0) ||| fld 8 l.kind.num ||| fld 0 l.cmd]

/-! ## HOST_REGION (R205) -/

/-- The 4 words of a HOST_REGION entry. -/
def HostRegion.words (r : HostRegion) : List Word :=
  [r.base.setWidth 32, r.limit.setWidth 32,
   flg 31 r.en ||| flg 30 r.rdyWait ||| fld 28 r.width.toNat ||| fld 20 r.setup.toNat ||| fld 8 r.strobe.toNat |||
     fld 0 r.hold.toNat,
   fld 24 r.mask.toNat ||| fld 8 r.rdyTimeout.toNat ||| fld 0 r.turn.toNat]

/-- A host region from its words. -/
def hostRegionOf (w : List Word) : HostRegion :=
  let w2 := wordAt w 2
  let w3 := wordAt w 3
  { base := BitVec.ofNat 24 (bits (wordAt w 0) 23 0), limit := BitVec.ofNat 24 (bits (wordAt w 1) 23 0),
    en := bit w2 31, rdyWait := bit w2 30, width := BitVec.ofNat 2 (bits w2 29 28), setup := BitVec.ofNat 4 (bits w2 23 20),
    strobe := BitVec.ofNat 6 (bits w2 13 8), hold := BitVec.ofNat 4 (bits w2 3 0), mask := BitVec.ofNat 8 (bits w3 31 24),
    rdyTimeout := BitVec.ofNat 8 (bits w3 15 8), turn := BitVec.ofNat 4 (bits w3 3 0) }

/-! ## SKB_DIR, LOG, COUNTERS, CANVAS_PEEK -/

/-- The 32 words of a record slot as stored (R395): a slot torn by a trip reads as the trip left it, a slot that has
never held a record reads 0. -/
def skbDirWords (e : Nat) (s : State) : List Word :=
  match kget e s.skb.torn with
  | some n => (List.range 32).map (Config.freeWord n)
  | none => match kget e s.skb.recs with
    | some r => bytesToWords r.bytes 32
    | none => List.replicate 32 0

/-- The 8 words of a log slot (R560). -/
def logWords (e : Nat) (s : State) : List Word :=
  match logSlot e s.log with
  | some r => bytesToWords (r.bytes 0) 8
  | none => List.replicate 8 0

/-- The 256 words of a quarter of a canvas tile (R396). -/
def peekWords (e : Nat) (s : State) : List Word :=
  let d := (tileContents (e / 4) s).toList
  (List.range 256).map fun w => BitVec.ofNat 32 ((d.getD (2 * (e % 4) + w / 128) 0).toNat >>> (32 * (w % 128)))

/-! ## NV copies as stored (R121 to R124) -/

/-- A block of an NV body: TAG, VER, LEN and its payload. -/
def nvBlock (tag : Nat) (l : List Byte) : List Byte := leBytes 2 tag ++ [1, 0] ++ leBytes 4 l.length ++ l

/-- Role states as stored (R123). -/
def RoleState.num : RoleState → Nat
  | .present => 0 | .missing => 1 | .failed => 2 | .target => 3

/-- Pause causes as stored (R123). -/
def PauseCause.num : PauseCause → Nat
  | .none => 0 | .operator => 1 | .loss => 2 | .restart => 3

/-- The 512 bytes of an array record (R123). -/
def Arr.record (a : Arr) : List Byte :=
  if a.state == .none then List.replicate 512 0
  else
    let p := a.repaint
    let on := p.sub != .none
    let role (i : Nat) (f : Role → Byte) (d : Byte) : Byte := ((a.roles[i]?).map f).getD d
    takeAt (wordsToBytes a.stored) 0 64
      ++ [BitVec.ofNat 8 (1 + (if a.offlineMark then 2 else 0) + (if a.salvage then 4 else 0) + (if p.back then 8 else 0)),
          BitVec.ofNat 8 p.cause.num, 0, 0]
      ++ (if on then wordsToBytes [p.shape.word0, p.shape.seed] ++ leBytes 4 p.origin ++ leBytes 4 p.rows ++ leBytes 6 p.k
            ++ leBytes 6 p.wmark ++ leBytes 6 p.rmark
          else List.replicate 34 0)
      ++ List.replicate 26 0
      ++ ((List.range 128).map fun i => role i (fun r => BitVec.ofNat 8 r.member.val) 0)
      ++ ((List.range 128).map fun i => role i (fun r => BitVec.ofNat 8 r.state.num) 0xFF)
      ++ List.replicate 128 0

/-- The 256 bytes of the REFEREE block: RO fields stored as 0. -/
def RefCfg.bytes (c : RefCfg) : List Byte :=
  wordsToBytes
    ((c.weight.toList.flatMap fun w => [w.setWidth 32, 0, 0, 0]) ++
     [fld 16 c.issueAhead ||| fld 8 c.aMaxPct ||| fld 0 c.cMinPct, 0, 0, 0,
      fld 16 c.resDma ||| fld 0 c.resLock, fld 16 c.resPage ||| fld 0 c.resTile, fld 0 c.streamTiles, 0] ++
     (c.readKbs.toList.flatMap fun k => [fld 0 k, 0, 0, 0]) ++ List.replicate 8 0)

/-- The body of a copy (R122). -/
def NvBody.bytes (b : NvBody) : List Byte :=
  let member := nvBlock 2 (wordsToBytes (b.memberCfg.toList.map MemberCfg.word))
  let referee := nvBlock 3 b.referee.bytes
  (if b.manager then
    nvBlock 1 (b.roster.toList.flatMap fun k => [if k then 1 else 0, 0, 0, 0]) ++ member ++ referee
      ++ nvBlock 4 (b.regions.toList.flatMap fun r => wordsToBytes r.words)
      ++ nvBlock 5 (b.studios.toList.flatMap fun c => wordsToBytes c.words)
      ++ nvBlock 6 (b.arrs.toList.flatMap Arr.record)
      ++ nvBlock 7 (b.vols.toList.flatMap fun v => wordsToBytes v.words)
  else member ++ referee) ++ nvBlock 0 []

/-- The header of a copy (R121). -/
def nvHeader (seq : Word) (fabricId : Dword) (node : BitVec 4) (body : List Byte) : List Byte :=
  let l := leBytes 4 0x4E564331 ++ leBytes 4 seq.toNat ++ leBytes 8 fabricId.toNat ++ [BitVec.ofNat 8 node.toNat, 0, 0, 0]
    ++ leBytes 4 body.length ++ leBytes 4 (crc32c body).toNat ++ List.replicate 32 0
  l ++ leBytes 4 (crc32c l).toNat

/-- Word w of page p of a copy: what a bad copy holds is left open, beyond the header fields that its state fixes; a
page never programmed reads 0. -/
def copyWord (c : NvCopy) (p w : Nat) : Word :=
  let free (n : Nat) := Config.freeWord n (256 * p + w)
  match c with
  | .blank none => 0
  | .blank (some n) => if p = 0 then 0 else free n
  | .bad n => free n
  | .bodyBad seq fid node body n =>
    if p = 0 then
      BitVec.ofNat 32 (leField ((nvHeader seq fid node body.bytes ++ body.bytes).drop (4 * w)) 0 4)
    else free n
  | .valid seq fid node body =>
    let l := nvHeader seq fid node body.bytes ++ body.bytes
    BitVec.ofNat 32 (leField (l.drop (1024 * p + 4 * w)) 0 4)

/-- The words of a page of a copy; a valid copy is laid out once. -/
def copyWords (c : NvCopy) (p : Nat) : List Word :=
  match c with
  | .valid seq fid node body =>
    bytesToWords ((nvHeader seq fid node body.bytes ++ body.bytes).drop (1024 * p)) 256
  | .bodyBad seq fid node body n =>
    if p = 0 then bytesToWords (nvHeader seq fid node body.bytes ++ body.bytes) 256
    else (List.range 256).map (copyWord (.bodyBad seq fid node body n) p)
  | .blank _ | .bad _ => (List.range 256).map (copyWord c p)

/-- The 32 bytes of a black-box slot (R563). -/
def bbBytes (r : BbRec) : List Byte := r.body.bytes r.restartCount

/-- The 256 words of an NV_RAW page. -/
def nvRawWords (e : Nat) (s : State) : List Word :=
  if e < 30 then copyWords s.nv.a e
  else if e < 60 then copyWords s.nv.b (e - 30)
  else if e < 62 then
    (List.range 32).flatMap fun i => match kget (32 * (e - 60) + i) s.nv.bbox with
      | some r => bytesToWords (bbBytes r) 8
      | none => (match s.nv.bbTorn.get (Fin.ofNat 2 (e - 60)) with
        | some k => (List.range 8).map fun w => Config.freeWord k (8 * i + w)
        | none => List.replicate 8 0)
  else if e = 62 then
    let word (x : Word) : List Word := [x, ~~~x] ++ List.replicate 254 0
    match s.nv.session with
    | .opened => word 0x4F50454E
    | .closed => word 0x434C5344
    | .blank => List.replicate 256 0
    | .torn k => (List.range 256).map (Config.freeWord k)
  else List.replicate 256 0

/-! ## Entries -/

/-- MEMBER_SLOT units that a member's port holds, on this node or as a worker reports. -/
def memberSlots (m : Fin 128) (s : State) : Nat :=
  if isOwn m s then slotsHeld (portOf m) s else (memGet m s).slots.toNat

/-- The words of entry e of a space, all at this instant. -/
def entryWords (space e : Nat) (s : State) : List Word :=
  match space with
  | 0x01 => (memGet (Fin.ofNat 128 e) s).words (memberSlots (Fin.ofNat 128 e) s)
  | 0x02 => (arrGet (Fin.ofNat 4 e) s).words
  | 0x03 => (volGet (Fin.ofNat 64 e) s).words
  | 0x04 => (studioGet (fin8 e) s).words
  | 0x05 => if e < 32 then (sqGet (Fin.ofNat 32 e) s).words else (cqGet (Fin.ofNat 32 e) s).words
  | 0x06 => (chanGet (Fin.ofNat 16 e) s).words
  | 0x07 => ledgerWords (Fin.ofNat 20 e) s
  | 0x08 => logWords e s
  | 0x09 => (layGet (Fin.ofNat 32 e) s).words
  | 0x0A => (busGet (fin8 e) s).words
  | 0x0B => (auGet (Fin.ofNat 3 e) s).words
  | 0x0C => lockWords e s
  | 0x0D => refWords s e
  | 0x0E => ringNodeWords (Fin.ofNat 16 e) s
  | 0x0F => (s.regions.get (Fin.ofNat 4 e)).words
  | 0x10 => skbDirWords e s
  | 0x11 => lowHigh (counterGet e s)
  | 0x20 => peekWords e s
  | 0x21 => nvRawWords e s
  | _ => []

/-- The RWC bits of word i of entry e of a space. -/
def rwcMask (space e i : Nat) : Word :=
  let at' (l : List Word) : Word := wordAt l i
  match space with
  | 0x01 => at' [0xFFE0FF00]
  | 0x02 => if i = 0 then 0x04000000 else if 12 ≤ i then 0xFFFFFFFF else 0
  | 0x03 => if 5 ≤ i then 0xFFFFFFFF else 0
  | 0x04 => at' [0x8000FFFF, 0xFFFF, 0xFFFFFFFF, 0xFFFFFFFF, 0xFFFF, 0xFFFFFFFF, 0xFFFFFFFF, 0xFFFFFFFF]
  | 0x05 => at' [if e < 32 then 0xFEF00000 else 0xE0F00000, 0xFFFFFF, 0xFFFFFFFF, 0xFFFFFFFF]
  | 0x06 => at' [0xFF0FFFF0, 0xFFFFFF, 0xFFFFFF, 0x3FF, 0xFFFFFFFF, 0xFFFFFFFF]
  | 0x09 => if i < 8 then 0xFFFFFFFF else 0
  | 0x0A => if i < 28 then 0xFFFFFFFF else 0
  | 0x0B => at' [0xFFFF8000, 0xFFE0FFFF]
  | 0x0D =>
    if e < 8 then at' [0xFF]
    else if e = 8 then at' [0xFFFFF]
    else if e = 9 then at' [0xFFFFFFFF, 0xFFFFFFFF, 0xFFFF]
    else if e < 14 then at' [0xFFFFFF]
    else 0
  | 0x0F => at' [0xFFFFFF, 0xFFFFFF, 0xF0F03F0F, 0xFF00FF0F]
  | _ => 0

/-- The RWC fields of words. -/
def rwcOnly (space e : Nat) (l : List Word) : List Word := l.zipIdx.map fun (w, i) => w &&& rwcMask space e i

end Sys2Proof.Machine
end

