-- ==== Sys2Proof/Machine/Table.lean ====
section
/-! DEFINITION. The table cursor of each control path, the entry commits with their checks, and what an applied commit
changes (R164 to R173, R205, R262, R268, R269, R344, R365, R370, R449, R456). -/

namespace Sys2Proof.Machine

/-! ## Result codes (R171) -/

def trOk : Byte := 0x00
def trBadSpace : Byte := 0x01
def trBadIndex : Byte := 0x02
def trReadOnly : Byte := 0x03
def trBadField : Byte := 0x04
def trStateRefused : Byte := 0x05
def trConflict : Byte := 0x06
def trLevel : Byte := 0x07

/-! ## The cursor (R164 to R168) -/

/-- TBL_SEL as it reads. -/
def Cursor.sel (c : Cursor) : Word := fld 24 c.space.toNat ||| fld 8 c.entry.toNat ||| fld 0 c.word.toNat

/-- What keeps a position out of range: an undefined space, or an entry or a word beyond its size (R168). -/
def cursorOut (space entry word : Nat) : Option Byte :=
  match spaceOf space with
  | none => some trBadSpace
  | some (n, w, _) => if n ≤ entry || w ≤ word then some trBadIndex else none

/-- The cursor enters an entry: its snapshot and its staging buffer are taken at this instant (R165). -/
def cursorEnter (space entry word : Nat) (s : State) : Cursor :=
  let out := cursorOut space entry word
  let w := if out.isSome then [] else entryWords space entry s
  { space := BitVec.ofNat 8 space, entry := BitVec.ofNat 16 entry, word := BitVec.ofNat 8 word, out := out, snap := w,
    staged := w }

/-- The cursor after an access to its word: the next word, or word 0 of the next entry (R166 to R168). -/
def cursorNext (c : Cursor) (s : State) : Cursor :=
  if c.word.toNat + 1 < c.snap.length then { c with word := c.word + 1 }
  else cursorEnter c.space.toNat (c.entry + 1).toNat 0 s

/-- A path's cursor is replaced. -/
def cursorPut (p : Path) (c : Cursor) (s : State) : State := pathPut p { pathGet p s with cur := c } s

/-- RESULT and DETAIL of a path. -/
def tblResult (p : Path) (r d : Byte) (s : State) : State :=
  pathPut p { pathGet p s with tResult := r, tDetail := d } s

/-- A write of TBL_SEL (R164). -/
def tblSelWrite (p : Path) (l : Lanes) (data : Word) (s : State) : State :=
  let v := mergeLanes l (pathGet p s).cur.sel data
  cursorPut p (cursorEnter (bits v 31 24) (bits v 23 8) (bits v 7 0) s) s

/-- The word that a read of TBL_DATA returns (R166, R168). -/
def tblDataWord (p : Path) (s : State) : Word :=
  let c := (pathGet p s).cur
  if c.out.isSome then 0 else wordAt c.snap c.word.toNat

/-- The side effects of a read of TBL_DATA (R166, R168). -/
def tblDataRead (p : Path) (l : Lanes) (s : State) : State :=
  let c := (pathGet p s).cur
  match c.out with
  | some r => tblResult p r 0xFF s
  | none => if lane l 0 then cursorPut p (cursorNext c s) s else s

/-- TBL_STAT.COMMIT_BUSY of a path (R170): an NV commit for it, or a TABLE_FWD that has not been sent. -/
def commitOn (p : Path) (s : State) : Bool :=
  let r := pathGet p s
  r.commitBusy || r.fwdOut.any fun e => (s.ring.fa.out ++ s.ring.fb.out).any fun x =>
    x.kind == 0x09 && x.via.isNone && x.p.arg.toNat == 256 + e

/-- TBL_STAT as it reads (R171). -/
def tblStatWord (p : Path) (s : State) : Word :=
  let r := pathGet p s
  flg 31 (commitOn p s) ||| fld 24 r.cseq.toNat ||| fld 8 r.tDetail.toNat ||| fld 0 r.tResult.toNat

/-! ## Entries from their words -/

/-- A submission queue with the configuration of its words. -/
def Sq.put (x : Sq) (w : List Word) : Sq :=
  let v := wordAt w 0
  { x with
    en := bit v 31, loc := bit v 30, errMode := bit v 29, cmode := bit v 28, cqSel := BitVec.ofNat 2 (bits v 27 26)
    wbIen := bit v 25, depthLog2 := BitVec.ofNat 4 (bits v 23 20), base := BitVec.ofNat 24 (bits (wordAt w 1) 23 0) }

/-- A completion queue with the configuration of its words. -/
def Cq.put (x : Cq) (w : List Word) : Cq :=
  let v := wordAt w 0
  { x with
    en := bit v 31, loc := bit v 30, ien := bit v 29, depthLog2 := BitVec.ofNat 4 (bits v 23 20)
    base := BitVec.ofNat 24 (bits (wordAt w 1) 23 0) }

/-- A channel with the configuration of its words. -/
def Chan.put (c : Chan) (w : List Word) : Chan :=
  let v := wordAt w 0
  { c with
    en := bit v 31, user := BitVec.ofNat 2 (bits v 30 29), cmode := BitVec.ofNat 2 (bits v 28 27)
    studio := fin8 (bits v 26 24), prefetch := BitVec.ofNat 4 (bits v 19 16), poll := BitVec.ofNat 8 (bits v 15 8)
    ringLog2 := BitVec.ofNat 4 (bits v 7 4), ringBase := BitVec.ofNat 24 (bits (wordAt w 1) 23 0)
    crecBase := BitVec.ofNat 24 (bits (wordAt w 2) 23 0), startIdx := BitVec.ofNat 10 (bits (wordAt w 3) 9 0) }

/-! ## What is in force or being committed (R169, R170) -/

/-- The staged words of the latest NV commit still to be applied for an entry. -/
def nvPending (space e : Nat) (s : State) : Option (List Word) :=
  (s.nv.commits.filterMap fun c => match c with
    | .table _ sp en w => if sp.toNat = space && en = e then some w else none
    | .keep | .mgmt | .assign _ _ _ | .fwd _ _ _ | .mark _ _ | .finish _ | .front _ _ | .cutover _ | .back _ => none).getLast?

/-- The RWC fields of an entry as the latest accepted commit leaves them. -/
def rwcNow (space e : Nat) (s : State) : List Word :=
  rwcOnly space e ((nvPending space e s).getD (entryWords space e s))

/-! ## Checks of the spaces -/

/-- A bit that is not one of the mask's is set in a staged word. -/
def strayBit (w : List Word) (i : Nat) (mask : Word) : Bool := wordAt w i &&& ~~~ mask != 0

/-- MEMBER (R344): TIMEOUT is 1 to 25. -/
def memberCheck (w : List Word) : Option (Byte × Byte) :=
  let t := bits (wordAt w 0) 25 21
  badAt (t == 0 || decide (25 < t)) 0

/-- ARRAY (R365, R426): the array exists, and AUTO_RESUME does not change during a repaint. -/
def arrayCheck (a : Fin 4) (w : List Word) (s : State) : Option (Byte × Byte) :=
  let x := arrGet a s
  if x.state == .none then some (trStateRefused, 0xFF)
  else refusedAt (x.repaint.sub != .none && bit (wordAt w 0) 26 != x.autoResume) 0

/-- VOLUME (R370): the volume is not GONE. -/
def volumeCheck (v : Fin 64) (s : State) : Option (Byte × Byte) :=
  if (volGet v s).state == .gone then some (trStateRefused, 0xFF) else none

/-- A quota is above its pool's TOTAL, or neither 0 nor at least the smallest one (R433, R456). -/
def quotaBad (pool : Fin 20) (least q : Nat) (s : State) : Bool :=
  decide ((poolGet pool s).total < q) || (q != 0 && decide (q < least))

/-- Some queue of a studio is not DISABLED. -/
def queuesUsed (st : Fin 8) (s : State) : Bool :=
  (List.finRange 32).any fun q => sqStudio q == st && ((sqGet q s).state != .disabled || (cqGet q s).run)

/-- STUDIO (R456). -/
def studioCheck (st : Fin 8) (w : List Word) (s : State) : Option (Byte × Byte) :=
  let c := studioCfgOf w
  let x := studioGet st s
  firstFail
    [badAt (strayBit w 0 0x8000FFFF) 0,
     badAt (strayBit w 1 0xFFFF) 1,
     badAt (quotaBad pCmdSlot 1 c.qCmd s || quotaBad pRangeLock 1 c.qLock s) 2,
     badAt (quotaBad pTile 16 c.qTile s || quotaBad pPage 256 c.qPage s) 3,
     badAt (strayBit w 4 0xFFFF || quotaBad pDesc 1 c.qDma s) 4,
     badAt (wordAt w 5 != 0) 5,
     refusedAt (st == 0 && !c.en) 0,
     refusedAt (x.cfg.en && !c.en && (queuesUsed st s || x.state == .resetting)) 0]

/-- The enabled rings in queue-ring SRAM but one: base and size (R265). -/
def sramRings (but : Nat) (s : State) : List (Nat × Nat) :=
  (List.finRange 32).flatMap fun q =>
    let x := sqGet q s
    let y := cqGet q s
    (if x.en && x.loc && but != q.val then [(x.base.toNat, 64 * 2 ^ x.depthLog2.toNat)] else []) ++
    (if y.en && y.loc && but != 32 + q.val then [(y.base.toNat, 16 * 2 ^ y.depthLog2.toNat)] else [])

/-- A ring's place is misaligned, does not fit, or overlaps another enabled SRAM ring (R265). -/
def ringBad (but : Nat) (en loc : Bool) (base slot depth : Nat) (s : State) : Bool :=
  let size := slot * 2 ^ depth
  base % slot != 0 || (if loc then decide (0x4000 < base + size) else decide (0x1000000 < base + size)) ||
    (en && loc && (sramRings but s).any fun r => decide (r.1 < base + size) && decide (base < r.1 + r.2))

/-- The fields of a QUEUE entry that its words place, reserved bits of words 0 to 3 not among them (R266 to R268). -/
def queueBad (e slot : Nat) (mask : Word) (w : List Word) (s : State) : Option (Byte × Byte) :=
  let v := wordAt w 0
  let d := bits v 23 20
  firstFail
    [badAt (strayBit w 0 mask || d == 0 || decide (10 < d)) 0,
     badAt (strayBit w 1 0xFFFFFF || ringBad e (bit v 31) (bit v 30) (wordAt w 1).toNat slot d s) 1,
     badAt (wordAt w 2 != 0) 2, badAt (wordAt w 3 != 0) 3]

/-- A submission queue's entry (R268). -/
def sqCheck (q : Fin 32) (w : List Word) (s : State) : Option (Byte × Byte) :=
  let x := sqGet q s
  let y := x.put w
  let cq := cqGet (Fin.ofNat 32 (4 * (q.val / 4) + y.cqSel.toNat)) s
  firstFail
    [queueBad q.val 64 0xFEF00000 w s,
     refusedAt (x.en && { y with en := true, base := x.base } != x) 0,
     refusedAt (x.en && y.base != x.base) 1,
     refusedAt (!x.en && y.en && ((studioGet (sqStudio q) s).state != .active || x.state == .draining ||
       (!y.cmode && !cq.run))) 0]

/-- A completion queue's entry (R268, R465). -/
def cqCheck (q : Fin 32) (w : List Word) (s : State) : Option (Byte × Byte) :=
  let x := cqGet q s
  let y := x.put w
  let st := (studioGet (sqStudio q) s).state
  let chosen := (List.finRange 32).any fun k =>
    sqStudio k == sqStudio q && (sqGet k s).state != .disabled && !(sqGet k s).cmode && sqCq k s == q
  firstFail
    [queueBad (32 + q.val) 16 0xE0F00000 w s,
     refusedAt (x.en && { y with en := true, base := x.base } != x) 0,
     refusedAt (x.en && y.base != x.base) 1,
     refusedAt (!x.en && y.en && (st == .resetting || st == .resetDone)) 0,
     refusedAt (x.en && !y.en && chosen) 0]

/-- QUEUE. -/
def queueCheck (e : Nat) (w : List Word) (s : State) : Option (Byte × Byte) :=
  if e < 32 then sqCheck (Fin.ofNat 32 e) w s else cqCheck (Fin.ofNat 32 e) w s

/-- The reserved encodings and ranges of a DMA_CHAN entry (R261, R262); reserved words are ignored (R5). CREC_BASE is checked
for a record ring only, as R261 marks it, and a SOFT field of another user must be 0, as R261 says (DESIGN CHOICE, log
entry 116). -/
def chanBad (w : List Word) : Option (Byte × Byte) :=
  let v := wordAt w 0
  let soft := bits v 30 29 == 2
  let lg := bits v 7 4
  let w1 := bits (wordAt w 1) 23 0
  let w2 := bits (wordAt w 2) 23 0
  let w3 := bits (wordAt w 3) 9 0
  firstFail
    [badAt (bits v 30 29 == 3) 0,
     badAt (if soft then decide (1 < bits v 28 27) || lg == 0 || decide (10 < lg) else v &&& 0x1F0FFFF0#32 != 0) 0,
     badAt (if soft then w1 % 64 != 0 else w1 != 0) 1,
     badAt (if soft then bits v 28 27 == 1 && w2 % 16 != 0 else w2 != 0) 2,
     badAt (if soft then decide (2 ^ lg ≤ w3) else w3 != 0) 3]

/-- What a commit changes in a channel that is not DISABLED, beyond clearing EN alone or changing POLL alone: the first
such word (R262). -/
def chanRefused (x y : Chan) : Option (Byte × Byte) :=
  let kept : Chan := if x.en == y.en then { x with poll := y.poll } else { x with en := x.en && y.en }
  if x.state == .disabled then none
  else firstFail ((List.range 4).map fun i => refusedAt (wordAt y.cfgWords i != wordAt kept.cfgWords i) i)

/-- DMA_CHAN (R262). -/
def chanCheck (c : Fin 16) (w : List Word) (s : State) : Option (Byte × Byte) :=
  let x := chanGet c s
  let y := x.put w
  let left := (List.finRange 16).any fun k =>
    let z := if k == c then y else chanGet k s
    z.en && z.user == userQueue
  firstFail [chanBad w, chanRefused x y, refusedAt (!left) 0]

/-- The ranges of a REFEREE entry, word by word, reserved bits first (R448, R449). -/
def refereeCheck (e : Nat) (w : List Word) : Option (Byte × Byte) :=
  let f (i hi lo : Nat) : Nat := bits (wordAt w i) hi lo
  let out (x lo hi : Nat) : Bool := decide (x < lo) || decide (hi < x)
  if e < 8 then
    firstFail [badAt (strayBit w 0 0xFF || f 0 7 0 == 0) 0, badAt (wordAt w 2 != 0) 2, badAt (wordAt w 3 != 0) 3]
  else if e = 8 then
    firstFail
      [badAt (strayBit w 0 0xFFFFF || out (f 0 19 16) 1 8 || out (f 0 15 8) 10 80 || out (f 0 7 0) 5 50 ||
         decide (90 < f 0 15 8 + f 0 7 0)) 0,
       badAt (wordAt w 1 != 0) 1, badAt (wordAt w 2 != 0) 2, badAt (wordAt w 3 != 0) 3]
  else if e = 9 then
    firstFail
      [badAt (out (f 0 31 16) 8 64 || out (f 0 15 0) 16 128) 0,
       badAt (out (f 1 31 16) 16 256 || out (f 1 15 0) 64 512) 1,
       badAt (decide (f 1 15 0 < f 2 15 0 + 64)) 2, badAt (wordAt w 3 != 0) 3]
  else if e < 14 then
    firstFail [badAt (strayBit w 0 0xFFFFFF) 0, badAt (strayBit w 1 0xFFFFFF) 1, badAt (strayBit w 2 0xFFFFFF) 2]
  else firstFail ((List.range 4).map fun i => badAt (wordAt w i != 0) i)

/-- Two regions share an address. -/
def HostRegion.meets (x y : HostRegion) : Bool :=
  decide (x.base.toNat ≤ y.limit.toNat) && decide (y.base.toNat ≤ x.limit.toNat)

/-- A host region as the latest accepted commit leaves it. -/
def regionNow (e : Nat) (s : State) : HostRegion := hostRegionOf (rwcNow 0x0F e s)

/-- HOST_REGION (R205): WIDTH is never reserved, and an enabled entry keeps its limits and overlaps no other; the
limit of a word's own fields is checked in that word. -/
def regionCheck (e : Nat) (w : List Word) (s : State) : Option (Byte × Byte) :=
  let r := hostRegionOf w
  firstFail
    [badAt (r.en && bits (wordAt w 0) 7 0 != 0) 0,
     badAt (r.en && (bits (wordAt w 1) 7 0 != 0xFF || decide (r.limit.toNat ≤ r.base.toNat))) 1,
     badAt (r.width == 3 || (r.en && (decide (s.restart.straps.width.toNat < r.width.toNat) || r.strobe == 0 ||
       decide (r.setup.toNat + r.strobe.toNat + r.hold.toNat < 3)))) 2,
     badAt (r.en && r.rdyWait && r.rdyTimeout == 0) 3,
     badAt (r.en && (List.range 4).any fun k => k != e && (regionNow k s).en && r.meets (regionNow k s)) 0xFF]

/-- The first n staged words as a vector. -/
def stagedVec (n : Nat) (w : List Word) : Vector Word n := Vector.ofFn fun i => wordAt w i.val

/-- Orders 4 and 5 of R169 for an entry's staged words. -/
def entryCheck (space e : Nat) (w : List Word) (s : State) : Option (Byte × Byte) :=
  match space with
  | 0x01 => memberCheck w
  | 0x02 => arrayCheck (Fin.ofNat 4 e) w s
  | 0x03 => volumeCheck (Fin.ofNat 64 e) s
  | 0x04 => studioCheck (fin8 e) w s
  | 0x05 => queueCheck e w s
  | 0x06 => chanCheck (Fin.ofNat 16 e) w s
  | 0x09 => layerCheck (Fin.ofNat 32 e) (stagedVec 8 w) s
  | 0x0A => busCheck (fin8 e) (stagedVec 28 w) s
  | 0x0B => auCheck (Fin.ofNat 3 e) (wordAt w 0) (wordAt w 1) s
  | 0x0D => refereeCheck e w
  | 0x0F => regionCheck e w s
  | _ => none

/-! ## Commits -/

/-- A space's commits are accepted at the present level and in the present role (R173). -/
def commitAllowed (space : Nat) (s : State) : Bool :=
  match spaceOf space with
  | some (_, _, .nv) =>
    if isManager s then atLevel1 s else s.restart.level == .level1 && (space == 0x01 || space == 0x0D)
  | some (_, _, .vol) => isManager s && atLevel2 s
  | some (_, _, .ro) | none => false

/-- The checks of a commit in the order of R169: RESULT and DETAIL. -/
def commitCheck (c : Cursor) (w : List Word) (s : State) : Byte × Byte :=
  let sp := c.space.toNat
  let e := c.entry.toNat
  let ro := match spaceOf sp with
    | some (_, _, .nv) | some (_, _, .vol) => false
    | some (_, _, .ro) | none => true
  if ro then (trReadOnly, 0xFF)
  else if !commitAllowed sp s then (trLevel, 0xFF)
  else if rwcOnly sp e c.snap != rwcNow sp e s then (trConflict, 0xFF)
  else (entryCheck sp e w s).getD (trOk, 0)

/-- EN is cleared on a channel that is not DISABLED: it stops at its burst boundary, which it has reached unless an access
of it is under way (R255). -/
def chanOff (c : Fin 16) (s : State) : State :=
  let x := chanGet c s
  if x.cur.isNone then chanStop c s else boundary c (chanPut c { x with state := .stopping } s)

/-- A DMA_CHAN commit is applied (R255, R258). -/
def chanApply (c : Fin 16) (w : List Word) (s : State) : State :=
  let x := chanGet c s
  let y := x.put w
  let s := chanPut c y s
  if x.state == .disabled then
    if y.en then chanPut c { y with state := .idle, nextIdx := y.startIdx, phase := true } s else s
  else if y.en then s
  else chanOff c s

/-- A submission queue's commit is applied (R269). -/
def sqApply (q : Fin 32) (w : List Word) (s : State) : State :=
  let x := sqGet q s
  let y := x.put w
  if !x.en && y.en && x.state == .disabled then
    sqPut q { y with state := .running, head := 0, fetch := 0, tail := 0, outstanding := 0, heldSlot := none,
                     discardTo := none, doneAhead := [] } s
  else if x.en && !y.en then sqDisable q (sqPut q { y with en := true } s)
  else sqPut q y s

/-- A completion queue's commit is applied (R269). -/
def cqApply (q : Fin 32) (w : List Word) (s : State) : State :=
  let x := cqGet q s
  let y := x.put w
  if !x.en && y.en then cqPut q { y with run := true, head := 0, tail := 0, reserved := 0, phase := true } s
  else cqPut q { y with run := x.run && y.en } s

/-- A STUDIO commit is applied: its state follows EN (R456, R457). -/
def studioApply (st : Fin 8) (w : List Word) (s : State) : State :=
  let x := studioGet st s
  let c := studioCfgOf w
  let state : SState :=
    if c.en && x.state == .idle && atLevel2 s then .active
    else if !c.en && x.state == .active then .idle
    else x.state
  studioPut st { x with cfg := c, state := state } s

/-- An ARRAY commit is applied: AUTO_RESUME and LABEL (R365), which the signatures carry too (R327, R329). -/
def arrayApply (a : Fin 4) (w : List Word) (s : State) : State :=
  refreshArray a (arrPut a { arrGet a s with
    autoResume := bit (wordAt w 0) 26, label := #v[wordAt w 12, wordAt w 13, wordAt w 14, wordAt w 15] } s)

/-- A VOLUME commit is applied: LABEL (R370). -/
def volumeApply (v : Fin 64) (w : List Word) (s : State) : State :=
  let x := volGet v s
  refreshArray x.array (volPut v { x with label := #v[wordAt w 5, wordAt w 6, wordAt w 7] } s)

/-- A REFEREE commit is applied, and a manager sends entries 0 to 9 to every worker (R449). -/
def refereeApply (e : Nat) (w : List Word) (s : State) : State :=
  let s := { s with referee := { s.referee with cfg := s.referee.cfg.put e w } }
  if isManager s && e < 10 then refForward e s else s

/-- A HOST_REGION commit is applied (R205). -/
def regionApply (e : Nat) (w : List Word) (s : State) : State :=
  busRefresh { s with regions := s.regions.set (Fin.ofNat 4 e) (hostRegionOf w) }

/-- A MEMBER commit is applied. -/
def memberApply (e : Nat) (w : List Word) (s : State) : State :=
  let m : Fin 128 := Fin.ofNat 128 e
  memPut m { memGet m s with cfg := memberCfgOf (wordAt w 0) } s

/-- An entry of kind NV or Mixed takes the RWC fields of its commit (R167, R170). -/
def nvApply (space e : Nat) (w : List Word) (s : State) : State :=
  match space with
  | 0x01 => memberApply e w s
  | 0x02 => arrayApply (Fin.ofNat 4 e) w s
  | 0x03 => volumeApply (Fin.ofNat 64 e) w s
  | 0x04 => studioApply (fin8 e) w s
  | 0x0D => refereeApply e w s
  | 0x0F => regionApply e w s
  | _ => s

/-- An entry of kind Vol takes the RWC fields of its commit. -/
def volApply (space e : Nat) (w : List Word) (s : State) : State :=
  match space with
  | 0x05 => if e < 32 then sqApply (Fin.ofNat 32 e) w s else cqApply (Fin.ofNat 32 e) w s
  | 0x06 => chanApply (Fin.ofNat 16 e) w s
  | 0x09 => layerApply (Fin.ofNat 32 e) (stagedVec 8 w) s
  | 0x0A => busApply (fin8 e) (stagedVec 28 w) s
  | 0x0B => auApply (Fin.ofNat 3 e) (wordAt w 0) (wordAt w 1) s
  | _ => s

/-- A MEMBER commit for a port of another node goes there by TABLE_FWD; it is being applied until that has been sent, and
the entry shows the new word from the node's next report (R170). -/
def memberForward (p : Path) (e : Nat) (w : List Word) (s : State) : State :=
  let k := nodeOf (Fin.ofNat 128 e)
  if (routeTo k s).isNone then s
  else tableFwd k 0x01 e [(memberCfgOf (wordAt w 0)).word] (pathPut p { pathGet p s with fwdOut := some e } s)

/-- An accepted commit is applied: a Vol entry now, an NV entry with an NV commit (R170). -/
def commitApply (p : Path) (space e : Nat) (w : List Word) (s : State) : State :=
  match spaceOf space with
  | some (_, _, .vol) => volApply space e w s
  | some (_, _, .nv) =>
    if space == 0x01 && !isOwn (Fin.ofNat 128 e) s then memberForward p e w s
    else nvCommit (.table p (BitVec.ofNat 8 space) e w) (pathPut p { pathGet p s with commitBusy := true } s)
  | some (_, _, .ro) | none => s

/-- An entry commit of the staged words on a path: its checks, its result and what it applies (R167, R169, R171). -/
def commitEntry (p : Path) (c : Cursor) (w : List Word) (s : State) : State :=
  let (r, d) := commitCheck c w s
  let s := tblResult p r d (pathPut p { pathGet p s with cseq := (pathGet p s).cseq + 1 } s)
  if r == trOk then commitApply p c.space.toNat c.entry.toNat w s else s

/-- A write of TBL_DATA: the word is staged; the write of the entry's last word commits the entry, and the cursor goes
on (R167, R168). -/
def tblDataWrite (p : Path) (l : Lanes) (data : Word) (s : State) : State :=
  let c := (pathGet p s).cur
  match c.out with
  | some r => tblResult p r 0xFF s
  | none =>
    let i := c.word.toNat
    let w := c.staged.set i (mergeLanes l (wordAt c.staged i) data)
    let c := { c with staged := w }
    if i + 1 < c.snap.length then cursorPut p (cursorNext c s) s
    else
      let s := commitEntry p c w s
      cursorPut p (cursorNext c s) s

/-- The cursor stands on the last word of an entry of a space: a write of TBL_DATA commits that entry. -/
def atLastWord (p : Path) (space : Nat) (s : State) : Bool :=
  let c := (pathGet p s).cur
  c.out.isNone && c.space.toNat == space && decide (c.word.toNat + 1 = c.snap.length)

end Sys2Proof.Machine
end

