-- ==== Sys2Proof/Machine/MgmtCheck.lean ====
section
/-! DEFINITION. The management commands: their arguments and the ordered checks of each (R177, R178, R341, R343, R360,
R361, R367, R401, R405, R409, R412, R414, R419, R420, R426 to R430, R459, R554, R555). -/

namespace Sys2Proof.Machine

/-! ## Result codes (R178) -/

def mrOk : Byte := 0x00
def mrBadCode : Byte := 0x10
def mrBadArg : Byte := 0x11
def mrArgCount : Byte := 0x12
def mrStateRefused : Byte := 0x14
def mrNoSuch : Byte := 0x15
def mrInUse : Byte := 0x16
def mrMemberBad : Byte := 0x17
def mrNoSpace : Byte := 0x18
def mrMediaError : Byte := 0x30
def mrFabricTimeout : Byte := 0x33

/-- A check of the engine: its result code and DETAIL where it fails. -/
abbrev Check := Option (Byte × Byte)

/-- A check that fails where a condition holds. -/
def failAt (c : Bool) (r : Byte) (detail : Nat) : Check := if c then some (r, BitVec.ofNat 8 detail) else none

/-- The first member of a list that a condition names fails the check. -/
def failMember (l : List (Fin 128)) (r : Byte) (c : Fin 128 → Bool) : Check :=
  (l.find? c).map fun m => (r, BitVec.ofNat 8 m.val)

/-! ## Arguments (R177) -/

/-- A: the array number. -/
def argA (l : List Word) : Fin 4 := Fin.ofNat 4 (bits (wordAt l 0) 1 0)

/-- V: the volume number. -/
def argV (l : List Word) : Fin 64 := Fin.ofNat 64 (bits (wordAt l 0) 5 0)

/-- S: the studio number. -/
def argS (l : List Word) : Fin 8 := fin8 (bits (wordAt l 0) 10 8)

/-- M: the member of a bench command. -/
def argM (l : List Word) : Fin 128 := Fin.ofNat 128 (bits (wordAt l 0) 6 0)

/-- The mask of arrays of ADD_BENCH. -/
def argMask (l : List Word) : BitVec 4 := BitVec.ofNat 4 (bits (wordAt l 0) 11 8)

/-- The target of START_RESTORATION and COPY_BACK. -/
def argTarget (l : List Word) : Fin 128 := Fin.ofNat 128 (bits (wordAt l 0) 14 8)

/-- START_RESTORATION asks for distributed spares. -/
def argSpares (l : List Word) : Bool := bit (wordAt l 0) 15

/-- n of FORCE_ASSEMBLE. -/
def argN (l : List Word) : Nat := bits (wordAt l 0) 15 8

/-- The shape in ARG1 and ARG2. -/
def argShape (l : List Word) : Shape := shapeOf (wordAt l 1) (wordAt l 2)

/-- Byte k of a member list that starts at a word. -/
def listByte (l : List Word) (w k : Nat) : Nat := bits (wordAt l (w + k / 4)) (8 * (k % 4) + 7) (8 * (k % 4))

/-- A member list of n members. -/
def memberList (l : List Word) (w n : Nat) : List (Fin 128) := (List.range n).map fun k => Fin.ofNat 128 (listByte l w k)

/-- The word of the first byte of a member list whose bit 7 is set, that is not used and not 0, or that names a member
listed before (R178 order 5). -/
def listBad (l : List Word) (w n : Nat) : Option Nat :=
  ((List.range (4 * ((n + 3) / 4))).find? fun k =>
    let b := listByte l w k
    if k < n then decide (128 ≤ b) || (List.range k).any fun j => listByte l w j == b else b != 0).map fun k => w + k / 4

/-- The check of a member list. -/
def listCheck (l : List Word) (w n : Nat) : Check := (listBad l w n).map fun i => (mrBadArg, BitVec.ofNat 8 i)

/-- Bits of ARG0 that a command's argument uses. -/
def arg0Mask (code : Byte) : Word :=
  match code.toNat with
  | 0x02 => 0xFF03
  | 0x05 | 0x06 => 0x3F
  | 0x07 => 0x73F
  | 0x08 => 0xF7F
  | 0x09 | 0x0A => 0x7F
  | 0x0B => 0xFF03
  | 0x0C => 0x7F03
  | _ => 0x3

/-- A command that a code names (R177). -/
def cmdDefined (code : Byte) : Bool := decide (1 ≤ code.toNat) && decide (code.toNat ≤ 0x12)

/-- A command that needs an arm (R177). -/
def cmdArmed (code : Byte) : Bool := [0x02, 0x03, 0x04, 0x06, 0x0A, 0x0F, 0x12].contains code.toNat

/-- Words that a command takes (R177). -/
def argWords (code : Byte) (l : List Word) : Nat :=
  match code.toNat with
  | 0x02 => 1 + (max 2 (argN l) + 3) / 4
  | 0x03 | 0x0E => 3 + ((argShape l).n + 3) / 4
  | 0x05 => 5
  | _ => 1

/-- ARG1 and ARG2 give a shape of R348: a word that breaks it (R360, R419). -/
def shapeCheck (l : List Word) (least : Nat) : Check :=
  let h := argShape l
  firstFail
    [failAt (decide (1 < l.length) && (strayBit l 1 0xFCFF0F1F || !h.legal || decide (h.n < least))) mrBadArg 1,
     failAt (decide (2 < l.length) && h.rotating && h.seed != 0) mrBadArg 2]

/-- The array number is free. -/
def arrNone (a : Fin 4) (s : State) : Bool := (arrGet a s).state == .none

/-- Orders 1 to 4 of R178; n of a FORCE_ASSEMBLE for an existing array is the number of its roles (R414). -/
def genericCheck (code : Byte) (l : List Word) (ovf : Bool) (s : State) : Check :=
  firstFail
    [failAt (!isManager s || !atLevel1 s) mrStateRefused 0xFF,
     failAt (!cmdDefined code) mrBadCode 0xFF,
     failAt (strayBit l 0 (arg0Mask code)) mrBadArg 0,
     failAt (code == 0x02 && !l.isEmpty && (decide (argN l < 2) || decide (128 < argN l) || (!arrNone (argA l) s
       && argN l != (arrGet (argA l) s).roles.length))) mrBadArg 0,
     if code == 0x03 then shapeCheck l 0
     else if code == 0x0E then shapeCheck l (arrGet (argA l) s).shape.n
     else none,
     failAt (ovf || l.length != argWords code l) mrArgCount (argWords code l)]

/-! ## Members and arrays -/

/-- The member does not exist (R178 order 6). -/
def memGone (s : State) (m : Fin 128) : Bool := (memGet m s).state == .absent

/-- ABSENT or MISSING. -/
def memAway (s : State) (m : Fin 128) : Bool := memGone s m || (memGet m s).state == .missing

/-- FAILED or RETIRED; a card still PROBING has no capacity that could suffice, and counts as too small (DESIGN CHOICE, log
entry 53). -/
def memBad (s : State) (m : Fin 128) : Bool :=
  (memGet m s).state == .failed || (memGet m s).state == .retired || (memGet m s).state == .probing

/-- The card has fewer data sectors than a size, and at least 32 768 are always asked for (R326). -/
def memSmall (size : Nat) (s : State) (m : Fin 128) : Bool :=
  (memGet m s).identified && decide (dataSectors m s < max 32768 size)

/-- NO_SUCH for an array. -/
def arrCheck (a : Fin 4) (s : State) : Check := failAt (arrNone a s) mrNoSuch 0

/-- STATE_REFUSED with DETAIL 0, the word that names the array or volume (R554). -/
def refuse (c : Bool) : Check := failAt c mrStateRefused 0

/-- OPTIMAL, DEGRADED or RESTORING. -/
def AState.live : AState → Bool
  | .optimal | .degraded | .restoring => true
  | .none | .stopped | .assembling | .replaying | .offline => false

/-- A repaint exists. -/
def Arr.painting (x : Arr) : Bool := x.repaint.sub != .none

/-- The bench mask of a member's signature. -/
def benchMask (m : Fin 128) (s : State) : BitVec 4 := ((memGet m s).sig.map Sig.benchMask).getD 0

/-- A target as R401 checks it. -/
def targetCheck (a : Fin 4) (m : Fin 128) (s : State) : Check :=
  let st := (memGet m s).state
  firstFail
    [failAt (memAway s m) mrNoSuch m.val,
     failAt (st == .active || st == .foreign || (st == .bench && !(benchMask m s).getLsbD a.val)) mrInUse m.val,
     failAt (memBad s m || memSmall (arrGet a s).memberSize s m) mrMemberBad m.val]

/-! ## Assembly (R332, R358) -/

/-- The card that fills a role by its signature; the one at the recorded index first (R331, R332). -/
def roleFound (a : Fin 4) (i : Nat) (s : State) : Option (Fin 128) :=
  (List.finRange 128).find? fun k =>
    let x := memGet k s
    x.state == .active && nodeReached (nodeOf k) s && (match x.sig with
      | some g => g.roleKind == 1 && g.array == a && g.role.val == i
      | none => false)

/-- A role as assembly finds it: at its card's index, or missing (R332). -/
def roleNow (a : Fin 4) (s : State) (r : Role) (i : Nat) : Role :=
  match r.state with
  | .missing | .failed => r
  | .present | .target => match roleFound a i s with
    | some m => { r with member := m }
    | none => { r with state := .missing }

/-- The roles as assembly finds them. -/
def rolesNow (a : Fin 4) (s : State) : List Role := (arrGet a s).roles.zipIdx.map fun (r, i) => roleNow a s r i

/-- The roles that assembly finds lacking. -/
def lackingNow (a : Fin 4) (s : State) : List Nat := { arrGet a s with roles := rolesNow a s }.lackingRoles

/-! ## The commands (orders 5 to 10) -/

/-- ASSEMBLE (R361, R412). -/
def assembleCheck (l : List Word) (s : State) : Check :=
  let a := argA l
  let x := arrGet a s
  firstFail
    [arrCheck a s, refuse (x.state != .stopped || x.offlineMark),
     ((lackingNow a s)[1]?).bind fun i => failAt true mrNoSuch ((x.memberOf i).map (·.val) |>.getD 0)]

/-- The part is blank: no NV copy has been chosen or written (R126, R134). -/
def blankPart (s : State) : Bool := s.nv.present.isNone && !s.restart.nvcfgLost

/-- The member signature of a listed card that counts as holding its role's data (R414). -/
def holderSig (s : State) (m : Fin 128) : Option Sig :=
  let x := memGet m s
  if x.state == .active || x.state == .stale || x.state == .foreign then x.sig.filter fun g => g.roleKind == 1 else none

/-- The adoption source of a blank part: the highest GENERATION, then the highest CONFIG_SEQ, then the lowest role
(R414). -/
def forceSource (ms : List (Fin 128)) (s : State) : Option (Fin 128 × Sig) :=
  ms.foldl (fun (best : Option (Fin 128 × Sig)) m => match holderSig s m, best with
    | none, b => b
    | some g, none => some (m, g)
    | some g, some (k, h) =>
      if h.generation.toNat < g.generation.toNat ||
          (h.generation == g.generation && decide (h.configSeq.toNat < g.configSeq.toNat)) then some (m, g)
      else some (k, h)) none

/-- An ARRAY entry's words as a signature copies them (R327, R364). -/
def arrOfWords (w : List Word) : Arr :=
  let h := shapeOf (wordAt w 0) (wordAt w 1)
  { shape := h, autoResume := bit (wordAt w 0) 26, rows := (wordAt w 2).toNat, origin := (wordAt w 3).toNat,
    sparesUsed := bits (wordAt w 4) 15 8, generation := wordAt w 5, spareRole := wordAt w 6,
    cap := (wordAt w 7).toNat + bits (wordAt w 8) 15 0 * 2 ^ 32, mismatches := wordAt w 11,
    label := #v[wordAt w 12, wordAt w 13, wordAt w 14, wordAt w 15],
    bgKind := BitVec.ofNat 4 (bits (wordAt w 9) 31 28), bgTarget := Fin.ofNat 128 (bits (wordAt w 9) 6 0) }

/-- A VOLUME entry's words as a signature copies them, adopted for an array and the house studio (R134, R370). -/
def volOfWords (a : Fin 4) (w : List Word) : Vol :=
  { array := a, owner := 0, base := bits (wordAt w 0) 15 0 * 2 ^ 32 + (wordAt w 1).toNat,
    size := (wordAt w 2).toNat + bits (wordAt w 3) 15 0 * 2 ^ 32,
    state := if bits (wordAt w 4) 31 30 = 0 then .gone else .stopped, trimming := bit (wordAt w 4) 29,
    label := #v[wordAt w 5, wordAt w 6, wordAt w 7] }

/-- The array that FORCE_ASSEMBLE starts from: its record, or on a blank part the adopted copy. -/
def forceBase (a : Fin 4) (ms : List (Fin 128)) (s : State) : Arr :=
  if arrNone a s then ((forceSource ms s).map fun x => arrOfWords x.2.arrayWords).getD {} else arrGet a s

/-- Roles that a FORCE_ASSEMBLE list must fill: N′ during a repaint. -/
def forceRoles (a : Fin 4) (ms : List (Fin 128)) (s : State) : Nat :=
  if arrNone a s then (forceBase a ms s).shape.n else (arrGet a s).roles.length

/-- An ACTIVE member of an array that a list does not name at its role: the word of the role's byte (R414). -/
def forceMisplaced (a : Fin 4) (n : Nat) (ms : List (Fin 128)) (s : State) : Option Nat :=
  (List.finRange 128).findSome? fun m => match (memGet m s).state, (memGet m s).sig with
    | .active, some g =>
      if g.roleKind == 1 && g.array == a && ms[g.role.val]? != some m then some (1 + min g.role.val (n - 1) / 4) else none
    | _, _ => none

/-- The listed BLANK and BENCH members, by role. -/
def forceTargets (ms : List (Fin 128)) (s : State) : List Nat :=
  (List.range ms.length).filter fun i => match ms[i]? with
    | some m => (memGet m s).state == .blank || (memGet m s).state == .bench
    | none => false

/-- A target too many, or one for a role whose recorded member is ACTIVE: its role (R414). -/
def forceTargetBad (a : Fin 4) (ms : List (Fin 128)) (s : State) : Option Nat :=
  match forceTargets ms s with
  | [] => none
  | [i] => if !arrNone a s && ((arrGet a s).memberOf i).any fun m => (memGet m s).state == .active then some i else none
  | _ :: j :: _ => some j

/-- A listed member belongs elsewhere (R414). -/
def forceForeign (a : Fin 4) (src : Option Sig) (s : State) (m : Fin 128) : Bool :=
  let x := memGet m s
  let other := match x.sig with
    | some g => g.roleKind == 1 && g.array != a
    | none => false
  (x.state == .active && other && src.isNone) || (x.state == .bench && !(benchMask m s).getLsbD a.val)
    || ((x.state == .active || x.state == .stale || x.state == .foreign) && (match src with
      | none => false
      | some h => match holderSig s m with
        | some g => g.array != h.array || g.fabricId != h.fabricId
        | none => true))

/-- FORCE_ASSEMBLE (R414, R430). A list for a blank part that names no data-holding member has no adoption source: BAD_ARG
with DETAIL 0, before the members' own checks (DESIGN CHOICE, log entry 79: the spec names no result). -/
def forceCheck (l : List Word) (s : State) : Check :=
  let a := argA l
  let n := argN l
  let ms := memberList l 1 n
  let st := (arrGet a s).state
  let blank := st == .none
  let src := if blank then forceSource ms s else none
  firstFail
    [listCheck l 1 n,
     failAt (blank && !blankPart s) mrNoSuch 0,
     failAt (blank && src.isNone || n != forceRoles a ms s) mrBadArg 0,
     (if blank then none else forceMisplaced a n ms s).bind fun w => failAt true mrBadArg w,
     (forceTargetBad a ms s).bind fun i => failAt true mrBadArg (1 + i / 4),
     failMember ms mrNoSuch (memAway s),
     failMember ms mrInUse (forceForeign a (src.map (·.2)) s),
     failMember ms mrMemberBad fun m => memBad s m || memSmall (forceBase a ms s).memberSize s m,
     refuse (!blank && st != .stopped && st != .offline),
     src.bind fun (m, g) => failAt (bits (wordAt g.arrayWords 4) 27 26 != 0) mrStateRefused m.val]

/-- CREATE_ARRAY (R360). -/
def createArrayCheck (l : List Word) (s : State) : Check :=
  let h := argShape l
  let ms := memberList l 3 h.n
  let cap := (ms.map fun m => (memGet m s).capacity.toNat).foldl min (2 ^ 64)
  firstFail
    [listCheck l 3 h.n, failMember ms mrNoSuch (memGone s), failAt (!arrNone (argA l) s) mrInUse 0,
     failMember ms mrInUse fun m =>
      (memGet m s).state == .active || (memGet m s).state == .missing || (memGet m s).state == .bench,
     failMember ms mrMemberBad fun m => memBad s m || memSmall 0 s m,
     failAt (h.rowsFor 8192 cap == 0) mrNoSpace 0xFF]

/-- DELETE_ARRAY (R363). -/
def deleteArrayCheck (l : List Word) (s : State) : Check :=
  let a := argA l
  let st := (arrGet a s).state
  firstFail [arrCheck a s, refuse (st != .stopped && st != .offline)]

/-- BASE and SIZE of a VOLUME entry's words 0 to 3, staged from ARG1 on. -/
def argBase (l : List Word) : Nat := bits (wordAt l 1) 15 0 * 2 ^ 32 + (wordAt l 2).toNat
def argSize (l : List Word) : Nat := (wordAt l 3).toNat + bits (wordAt l 4) 15 0 * 2 ^ 32

/-- The array of a CREATE_VOLUME. -/
def argVolArray (l : List Word) : Fin 4 := Fin.ofNat 4 (bits (wordAt l 1) 25 24)

/-- A volume that is not GONE, or is TRIMMING, shares an array sector with a range (R367). -/
def volMeets (a : Fin 4) (base size : Nat) (v : Vol) : Bool :=
  v.array == a && (v.state != .gone || v.trimming) && decide (v.base < base + size) && decide (base < v.base + v.size)

/-- CREATE_VOLUME (R366, R367, R426). -/
def createVolumeCheck (l : List Word) (s : State) : Check :=
  let v := volGet (argV l) s
  let a := argVolArray l
  let x := arrGet a s
  firstFail
    [failAt (strayBit l 1 0x0307FFFF) mrBadArg 1, failAt (argBase l % 8 != 0) mrBadArg 2,
     failAt (argSize l % 8 != 0 || decide (argSize l < 8)) mrBadArg 3,
     failAt (strayBit l 4 0xFFFF) mrBadArg 4,
     failAt (arrNone a s) mrNoSuch 1, failAt (v.state != .gone || v.trimming) mrInUse 0,
     refuse (!(x.state.live || x.state == .stopped) || x.painting),
     failAt (decide (x.cap < argBase l + argSize l) || s.vols.toList.any (volMeets a (argBase l) (argSize l)))
      mrNoSpace 0xFF]

/-- DELETE_VOLUME (R368). -/
def deleteVolumeCheck (l : List Word) (s : State) : Check :=
  let v := volGet (argV l) s
  firstFail [failAt (v.state == .gone) mrNoSuch 0, refuse (!(arrGet v.array s).state.live)]

/-- SET_OWNER (R459). -/
def setOwnerCheck (l : List Word) (s : State) : Check := failAt ((volGet (argV l) s).state == .gone) mrNoSuch 0

/-- ADD_BENCH (R341). -/
def addBenchCheck (l : List Word) (s : State) : Check :=
  let m := argM l
  let st := (memGet m s).state
  firstFail
    [failAt (memGone s m) mrNoSuch m.val,
     failAt (st == .foreign || st == .active || st == .missing || st == .bench) mrInUse m.val,
     failAt (memBad s m || memSmall 0 s m) mrMemberBad m.val]

/-- REMOVE_BENCH (R341). -/
def removeBenchCheck (l : List Word) (s : State) : Check :=
  let m := argM l
  let st := (memGet m s).state
  firstFail
    [failAt (memGone s m) mrNoSuch m.val, failAt (st == .active || st == .missing) mrInUse m.val,
     failAt (memBad s m || memSmall 0 s m) mrMemberBad m.val, refuse (st != .bench)]

/-- RETIRE_MEMBER (R343). -/
def retireCheck (l : List Word) (s : State) : Check :=
  let m := argM l
  firstFail [failAt (memGone s m) mrNoSuch m.val, failAt ((memGet m s).state == .retired) mrMemberBad m.val]

/-- START_RESTORATION (R401, R426). -/
def restorationCheck (l : List Word) (s : State) : Check :=
  let a := argA l
  let x := arrGet a s
  firstFail
    [arrCheck a s, if argSpares l then none else targetCheck a (argTarget l) s,
     refuse (x.state != .degraded || (argSpares l && x.painting)),
     failAt (argSpares l && (x.shape.rotating || decide (x.shape.s ≤ x.sparesUsed))) mrNoSpace 0xFF]

/-- COPY_BACK (R405, R426). -/
def copyBackCheck (l : List Word) (s : State) : Check :=
  let a := argA l
  let x := arrGet a s
  firstFail
    [arrCheck a s, targetCheck a (argTarget l) s,
     refuse (x.state != .optimal || x.bgKind != 0 || x.sparesUsed == 0 || x.painting)]

/-- START_INSPECTION (R407, R426). -/
def inspectionCheck (l : List Word) (s : State) : Check :=
  let a := argA l
  let x := arrGet a s
  firstFail [arrCheck a s, refuse (x.state != .optimal || x.bgKind != 0 || x.painting)]

/-- The largest end of a volume that is not GONE, or is TRIMMING (R420). -/
def volEnd (a : Fin 4) (s : State) : Nat :=
  (s.vols.toList.filter fun v => v.array == a && (v.state != .gone || v.trimming)).foldl
    (fun e v => max e (v.base + v.size)) 0

/-- The placement of the new region that START_REPAINT asks for (R420). -/
def repaintPlace (l : List Word) (s : State) : Option (Nat × Nat × Nat) :=
  let a := argA l
  let x := arrGet a s
  let h := argShape l
  place (volEnd a s) h.stripeSectors x.shape.d x.shape.c x.origin x.rows h.d h.c x.shape.n h.n
    ((memberList l 3 h.n).map fun m => (memGet m s).capacity.toNat)

/-- START_REPAINT (R419, R426). -/
def repaintCheck (l : List Word) (s : State) : Check :=
  let a := argA l
  let x := arrGet a s
  let h := argShape l
  let ms := memberList l 3 h.n
  let joining := ms.drop x.shape.n
  let wrong := (List.range x.shape.n).find? fun i => ms[i]? != x.memberOf i
  firstFail
    [listCheck l 3 h.n, if arrNone a s then none else wrong.bind fun i => failAt true mrBadArg (3 + i / 4),
     arrCheck a s, failMember joining mrNoSuch (memAway s),
     failMember joining mrInUse fun m => (memGet m s).state == .active || (memGet m s).state == .bench,
     failMember joining mrMemberBad fun m => memBad s m || memSmall 0 s m,
     refuse (x.state != .optimal || x.bgKind != 0 || x.sparesUsed != 0 || x.painting),
     failAt (repaintPlace l s).isNone mrNoSpace 0xFF]

/-- ABORT_REPAINT (R428). -/
def abortCheck (l : List Word) (s : State) : Check :=
  let a := argA l
  let x := arrGet a s
  firstFail
    [arrCheck a s,
     refuse (x.state != .optimal || !x.painting || x.repaint.back || s.nv.commits.contains (.cutover a))]

/-- PAUSE_BACKGROUND (R409, R427). -/
def pauseCheck (l : List Word) (s : State) : Check :=
  let a := argA l
  let x := arrGet a s
  firstFail [arrCheck a s, refuse (!x.state.live || (x.bgKind == 0 && !x.painting))]

/-- RESUME_BACKGROUND (R409, R427). -/
def resumeCheck (l : List Word) (s : State) : Check :=
  let a := argA l
  let x := arrGet a s
  firstFail
    [arrCheck a s, refuse (!x.state.live || (x.bgKind == 0 && !x.painting)
      || (x.repaint.sub == .paused && !x.lackingRoles.isEmpty))]

/-- STOP_ARRAY (R362, R547). -/
def stopCheck (l : List Word) (s : State) : Check :=
  let a := argA l
  let x := arrGet a s
  firstFail [arrCheck a s, refuse (!(x.state.live || x.state == .offline) || x.stopping)]

/-- The checks of a command past the word count. -/
def commandCheck (code : Byte) (l : List Word) (s : State) : Check :=
  match code.toNat with
  | 0x01 => assembleCheck l s
  | 0x02 => forceCheck l s
  | 0x03 => createArrayCheck l s
  | 0x04 => deleteArrayCheck l s
  | 0x05 => createVolumeCheck l s
  | 0x06 => deleteVolumeCheck l s
  | 0x07 => setOwnerCheck l s
  | 0x08 => addBenchCheck l s
  | 0x09 => removeBenchCheck l s
  | 0x0A => retireCheck l s
  | 0x0B => restorationCheck l s
  | 0x0C => copyBackCheck l s
  | 0x0D => inspectionCheck l s
  | 0x0E => repaintCheck l s
  | 0x0F => abortCheck l s
  | 0x10 => pauseCheck l s
  | 0x11 => resumeCheck l s
  | _ => stopCheck l s

/-- Every check of a command, in the order of R178. -/
def mgmtCheck (code : Byte) (l : List Word) (ovf : Bool) (s : State) : Check :=
  (genericCheck code l ovf s).orElse fun _ => commandCheck code l s

end Sys2Proof.Machine
end

