-- ==== Sys2Proof/Machine/MgmtEffect.lean ====
section
/-! DEFINITION. What each management command changes once its NV commit is complete, and the members whose signatures
it writes before (R133, R134, R179, R330, R333, R341, R343, R360 to R368, R401, R405 to R409, R415, R421, R427, R428,
R459). -/

namespace Sys2Proof.Machine

/-- The program operations without the NV commits beyond the first n. -/
def nvFirst : Nat → List ProgOp → List ProgOp
  | _, [] => []
  | 0, o :: t => if o.isNv then nvFirst 0 t else o :: nvFirst 0 t
  | n + 1, o :: t => if o.isNv then o :: nvFirst n t else o :: nvFirst (n + 1) t

/-- A change without an NV commit of its own: the command's one NV commit carries it (R179). -/
def uncommitted (f : State → State) (s : State) : State :=
  let t := f s
  { t with nv := { t.nv with
      commits := s.nv.commits, prog := nvFirst (s.nv.prog.filter ProgOp.isNv).length t.nv.prog } }

/-! ## Arrays -/

/-- The listed members become ACTIVE by the command. -/
def makeActive (l : List (Fin 128)) (s : State) : State :=
  l.foldl (fun s m => if (memGet m s).state == .active then s else memState m .active chCommand s) s

/-- CREATE_ARRAY (R360). -/
def createArrayEffect (l : List Word) (s : State) : State :=
  let h := argShape l
  let ms := memberList l 3 h.n
  let rows := h.rowsFor 8192 ((ms.map fun m => (memGet m s).capacity.toNat).foldl min (2 ^ 64))
  setArr (argA l)
    { shape := h, autoResume := bit (wordAt l 1) 26, rows := rows, origin := 8192, state := .optimal, generation := 1,
      cap := h.capacity rows, roles := ms.map fun m => ⟨m, .present⟩ } (makeActive ms s)

/-- The ACTIVE cards of an array that can be reached. -/
def arrCards (a : Fin 4) (s : State) : List (Fin 128) :=
  (List.finRange 128).filter fun k =>
    let x := memGet k s
    x.state == .active && nodeReached (nodeOf k) s && (match x.sig with
      | some g => g.roleKind == 1 && g.array == a
      | none => false)

/-- The unretired records of an array are discarded and their pages freed (R363). -/
def recsDiscard (a : Fin 4) (s : State) : State :=
  let s := ((liveRecs s).filter fun (_, r) => r.array == a).foldl (fun s (i, r) =>
    poolGive pPage r.owner r.units (freePages (r.pages.map (·.1))
      { s with skb := { s.skb with recs := kput i { r with retired := true } s.skb.recs } })) s
  forcedUpdate (cleanTiles s)

/-- DELETE_ARRAY (R363). -/
def deleteArrayEffect (l : List Word) (s : State) : State :=
  let a := argA l
  let cards := arrCards a s
  let s := volsNote (fun v => v.array == a && v.state != .gone) s
  let s := { s with vols := s.vols.map fun v => if v.array == a then { v with state := .gone, trimming := false } else v }
  let s := dropWhere (Bind.ofArray a) (recsDiscard a (volTrimDrop a (backgroundEnd a (flushesEnd a s))))
  let s := arrPut a {} s
  cards.foldl (fun s m => memState m .blank chCommand s) s

/-- FORCE_ASSEMBLE (R134, R414 to R416, R430): the list fills the roles, every checkpoint is dropped, an unfinished rank
is released, and salvage begins; a repaint waits, PAUSED with cause LOSS. -/
def forceEffect (l : List Word) (s : State) : State :=
  let a := argA l
  let ms := memberList l 1 (argN l)
  let base := forceBase a ms s
  let targets := forceTargets ms s
  let seqMax (x y : Word) : Word := if 0 < (y - x).toInt then y else x
  let g := (ms.filterMap (holderSig s)).foldl (fun g h => seqMax g h.generation) base.generation + 1
  let busy := base.rankBusy || (arrNone a s && base.bgKind == 1 && base.bgTarget == 0 && base.sparesUsed != 0)
  let x := ({ base with rankBusy := busy, bgKind := 0, mark := 0, found := 0 } : Arr).dropWork
  let x := if x.painting then
    { x with repaint := { x.repaint with
      sub := .paused, cause := .loss, front := if x.repaint.back then x.repaint.rmark else x.repaint.wmark } } else x
  let x := match targets.head?.bind fun i => ms[i]? with
    | some m => { x with bgKind := 1, bgTarget := m, bgStripe := 0 }
    | none => x
  let vols (s : State) : State :=
    match if arrNone a s then forceSource ms s else none with
    | none => s
    | some (_, h) =>
      { s with vols := Vector.ofFn fun v : Fin 64 =>
          let y := volOfWords a ((h.volWords.drop (8 * v.val)).take 8)
          if y.state != .gone || y.trimming then y else s.vols.get v }
  let s := makeActive ms (vols (flushesEnd a s))
  dropWhere (Bind.ofArray a) (setArr a { x with
    roles := ms.zipIdx.map fun (m, i) => ⟨m, if targets.contains i then .target else .present⟩
    generation := g, offlineMark := false, salvage := true, state := .replaying, stopping := false, held := false
    lossDue := none, bgRow := 0, bgIssued := false } s)

/-! ## Volumes -/

/-- CREATE_VOLUME (R367, R549). -/
def createVolumeEffect (l : List Word) (s : State) : State :=
  let a := argVolArray l
  let x := arrGet a s
  let owner := fin8 (bits (wordAt l 1) 18 16)
  sirqSet owner sirqVol (volPut (argV l)
    { array := a, owner := owner, base := argBase l, size := argSize l,
      state := if x.state.serves && !x.stopping then .online else .stopped } s)

/-- DELETE_VOLUME (R368): GONE and TRIMMING, and the trim takes its place in line. -/
def deleteVolumeEffect (l : List Word) (s : State) : State :=
  let v := volGet (argV l) s
  startVolTrim (argV l) (sirqSet v.owner sirqVol (volPut (argV l) { v with state := .gone, trimming := true } s))

/-- SET_OWNER (R459, R571). -/
def setOwnerEffect (l : List Word) (s : State) : State :=
  let v := volGet (argV l) s
  sirqSet v.owner sirqVol (sirqSet (argS l) sirqVol (volPut (argV l) { v with owner := argS l } s))

/-! ## Members -/

/-- The signature that a member's entry shows for the bench, with a mask. -/
def benchSig (m : Fin 128) (mask : BitVec 4) (s : State) : Sig :=
  let x := memGet m s
  let g : Sig := x.sig.getD
    { roleKind := 2, fabricId := s.ident.fabricId, generation := 0, array := 0, role := 0, home := m, benchMask := mask,
      cidHash := x.cidHash, capacity := x.capacity, configSeq := 0, arrayWords := [], volWords := [] }
  { g with roleKind := 2, benchMask := mask }

/-- ADD_BENCH (R341). -/
def addBenchEffect (l : List Word) (s : State) : State :=
  let m := argM l
  memState m .bench chCommand (memPut m { memGet m s with sig := some (benchSig m (argMask l) s) } s)

/-- REMOVE_BENCH (R341). -/
def removeBenchEffect (l : List Word) (s : State) : State := memState (argM l) .blank chCommand s

/-- RETIRE_MEMBER (R333, R343): RETIRED and powered off, and an ACTIVE member is lost to its array. -/
def retireEffect (l : List Word) (s : State) : State :=
  let m := argM l
  let was := (memGet m s).state
  let s := retiredOff m (memState m .retired chCommand s)
  let s := if was == .active then memberLost m .failed s else s
  if isOwn m s then portAbort (portOf m) .lost s else s

/-! ## Background work -/

/-- START_RESTORATION (R401): onto the target, or into spares. -/
def restorationEffect (l : List Word) (s : State) : State :=
  let a := argA l
  match (arrGet a s).lackingRoles with
  | [] => s
  | role :: _ => if argSpares l then restoreSpares a role s else restoreOnto a role (argTarget l) chCommand s

/-- COPY_BACK (R405). -/
def copyBackEffect (l : List Word) (s : State) : State :=
  let a := argA l
  let m := argTarget l
  let s := memState m .active chCommand s
  let x := arrGet a s
  let x := x.setRole (rankRole x.spareRole (x.sparesUsed - 1)) ⟨m, .target⟩
  advance a (setArr a { x with
    bgKind := 2, bgPaused := false, bgTarget := m, bgStripe := 0, mark := 0, state := .restoring } s)

/-- START_INSPECTION (R407). -/
def inspectionEffect (l : List Word) (s : State) : State :=
  let a := argA l
  arrPut a { arrGet a s with bgKind := 3, bgPaused := false, bgTarget := 0, bgStripe := 0, mark := 0, found := 0 } s

/-- START_REPAINT (R421). -/
def repaintEffect (l : List Word) (s : State) : State :=
  let a := argA l
  let x := arrGet a s
  let h := argShape l
  match repaintPlace l s with
  | none => s
  | some (k, o2, rows2) =>
    let joining := (memberList l 3 h.n).drop x.shape.n
    let s := makeActive joining s
    repaintNote a (onlyIf (!joining.isEmpty) (genNext a) (arrPut a { x with
      repaint := { sub := .active, shape := h, origin := o2, rows := rows2, k := k }
      bgKind := 4, bgPaused := false, bgTarget := 0, bgStripe := 0, mark := 0, autoResume := bit (wordAt l 1) 26
      roles := x.roles ++ joining.map fun m => ⟨m, .present⟩ } s))

/-- ABORT_REPAINT (R428): the watermark is frozen where the copy stands, and the return begins; a role lost meanwhile
keeps it waiting with cause LOSS. -/
def abortEffect (a : Fin 4) (s : State) : State :=
  if !(arrGet a s).painting then s
  else
    let s := frontEnd a (arrGet a s).repaint.front s
    let x := arrGet a s
    let p := x.repaint
    let wait := !x.lackingRoles.isEmpty
    repaintNote a (arrPut a { x with
      repaint := { p with
        sub := if wait then .paused else .active, cause := if wait then .loss else .none, back := true, rmark := 0,
        front := 0 }
      bgStripe := 0, bgPaused := false } s)

/-- PAUSE_BACKGROUND for a pass: it is paused, and its mark checkpointed (R409). -/
def pausePass (a : Fin 4) (s : State) : State :=
  let x := arrGet a s
  arrPut a { x with bgPaused := true, bgStripe := x.mark } s

/-- A repaint that is ACTIVE is paused by the operator (R427). -/
def pausePaint (a : Fin 4) (s : State) : State :=
  if (arrGet a s).repaint.sub != .active then s
  else
    let s := frontEnd a (arrGet a s).repaint.front s
    let x := (arrGet a s).pauseRepaint .operator
    repaintNote a (arrPut a { x with bgPaused := true } s)

/-- PAUSE_BACKGROUND (R409, R427). -/
def pauseEffect (a : Fin 4) (s : State) : State :=
  let x := arrGet a s
  if x.bgKind == 4 || (x.painting && x.bgKind == 0) then pausePaint a s else pausePass a s

/-- RESUME_BACKGROUND (R409, R427). -/
def resumeEffect (l : List Word) (s : State) : State :=
  let a := argA l
  let x := arrGet a s
  if x.bgKind == 4 && x.repaint.sub == .paused then
    repaintNote a (arrPut a { x with repaint := { x.repaint with sub := .active, cause := .none }, bgPaused := false } s)
  else arrPut a { x with bgPaused := false } s

/-- A background pass or a repaint is checkpointed and stays paused (R362 step 2). -/
def stopCheckpoint (a : Fin 4) (s : State) : State :=
  let x := arrGet a s
  if x.bgKind == 1 || x.bgKind == 2 || x.bgKind == 3 then pausePass a s else pausePaint a s

/-- The background work of an array, as it stands, has to be checkpointed. -/
def Arr.unchecked (x : Arr) : Bool := x.bgKind != 0 && !x.bgPaused

/-- STOP_ARRAY's step 3 (R362, R547): STOPPED, and not assembled again by itself. -/
def stopEnd (a : Fin 4) (s : State) : State :=
  let due := (arrGet a s).unchecked
  let s := if due then stopCheckpoint a s else s
  let s := volTrimDrop a s
  setArr a { arrGet a s with state := .stopped, stopping := false, held := true } s

/-! ## The command's effect at its commit, and its signatures -/

/-- What a command changes when its NV commit is complete. -/
def mgmtEffect (code : Byte) (l : List Word) (s : State) : State :=
  uncommitted (fun s => match code.toNat with
    | 0x02 => forceEffect l s
    | 0x03 => createArrayEffect l s
    | 0x04 => deleteArrayEffect l s
    | 0x05 => createVolumeEffect l s
    | 0x06 => deleteVolumeEffect l s
    | 0x07 => setOwnerEffect l s
    | 0x08 => addBenchEffect l s
    | 0x09 => removeBenchEffect l s
    | 0x0A => retireEffect l s
    | 0x0B => restorationEffect l s
    | 0x0C => copyBackEffect l s
    | 0x0D => inspectionEffect l s
    | 0x0E => repaintEffect l s
    | 0x0F => abortEffect (argA l) s
    | 0x10 => pauseEffect (argA l) s
    | 0x12 => stopEnd (argA l) s
    | 0x11 => resumeEffect l s
    | _ => s) s

/-- The members whose signatures a command writes before its commit (R329, R343, R360, R363, R401, R405, R415, R421). -/
def mgmtSigs (code : Byte) (l : List Word) (s : State) : List (Fin 128) :=
  match code.toNat with
  | 0x02 => memberList l 1 (argN l)
  | 0x03 => memberList l 3 (argShape l).n
  | 0x04 => arrCards (argA l) s
  | 0x08 | 0x09 => [argM l]
  | 0x0A => if (memGet (argM l) s).identified && nodeReached (nodeOf (argM l)) s then [argM l] else []
  | 0x0B => if argSpares l then [] else [argTarget l]
  | 0x0C => [argTarget l]
  | 0x0E => (memberList l 3 (argShape l).n).drop (arrGet (argA l) s).shape.n
  | _ => []

end Sys2Proof.Machine
end

