-- ==== Sys2Proof/Machine/Mgmt.lean ====
section
/-! DEFINITION. The management engine, the assembly of arrays, and NV commits (R26, R121 to R126, R170, R175 to R181,
R329, R332, R333, R358, R361, R362, R485, R542, R546, R547). -/

namespace Sys2Proof.Machine

/-! ## NV copies (R121 to R126) -/

/-- The present configuration as a copy's body (R122). -/
def nvBody (s : State) : NvBody :=
  { manager := isManager s, roster := s.roster,
    memberCfg := Vector.ofFn fun p => (memGet (ownMember p s) s).cfg,
    referee := s.referee.cfg, regions := s.regions, studios := s.studios.map (·.cfg), arrs := s.arrs.map Arr.kept,
    vols := s.vols }

/-- The present copy. -/
def nvPresent (s : State) : NvCopy :=
  match s.nv.present with
  | none => .blank none
  | some b => if b then s.nv.b else s.nv.a

/-- A copy's commit sequence number. -/
def NvCopy.seq : NvCopy → Option Word
  | .blank _ | .bad _ => none
  | .bodyBad q _ _ _ _ => some q
  | .valid q _ _ _ => some q

/-- A copy's fabric identity. -/
def NvCopy.fabricId : NvCopy → Dword
  | .blank _ | .bad _ => 0
  | .bodyBad _ f _ _ _ => f
  | .valid _ f _ _ => f

/-- A valid copy's arrays and volumes. -/
def NvCopy.tables : NvCopy → Vector Arr 4 × Vector Vol 64
  | .valid _ _ _ b => (b.arrs, b.vols)
  | .blank _ | .bad _ | .bodyBad _ _ _ _ _ => (Vector.replicate 4 {}, Vector.replicate 64 {})

/-- The copy that the next commit writes: false A, true B. -/
def nvTarget (s : State) : Bool :=
  match s.nv.present with
  | none => false
  | some b => !b

/-- SEQ of the next commit: the present copy's plus 1, or 1 on a blank part (R125). -/
def nvSeqNext (s : State) : Word := ((nvPresent s).seq.map (· + 1)).getD 1

/-- The whole configuration is written into the other copy, which becomes the present one, and the one that the restart
path takes where it runs again from stage 4 (R125, R596). -/
def nvWrite (s : State) : State :=
  let t := nvTarget s
  let c : NvCopy := .valid (nvSeqNext s) s.ident.fabricId s.ident.node (nvBody s)
  { s with
    nv := { s.nv with a := if t then s.nv.a else c, b := if t then c else s.nv.b, present := some t }
    restart := { s.restart with taken := some t } }

/-- On the manager, a MISSING member that no role record names is ABSENT again (R333). -/
def missingRelease (s : State) : State :=
  if !isManager s then s
  else (List.finRange 128).foldl (fun s m =>
    if (memGet m s).state == .missing && !((List.finRange 4).any fun a => (arrGet a s).roles.any fun r => r.member == m)
    then memState m .absent chCommand s else s) s

/-- The signatures of an array whose ARRAY or VOLUME entries a commit has changed are to be refreshed (R329). -/
def refreshChanged (old : Vector Arr 4 × Vector Vol 64) (s : State) : State :=
  (List.finRange 4).foldl (fun s a =>
    let vols (l : Vector Vol 64) : List Vol := l.toList.filter fun v => v.array == a
    if (old.1.get a).words != (arrGet a s).kept.words || vols old.2 != vols s.vols then refreshArray a s else s) s

/-! ## The management engine (R175 to R181) -/

/-- ARRAY_RESP as a path reads it (R181). -/
def arrayRespWord (p : Path) (s : State) : Word :=
  let r := pathGet p s
  let m := s.mgmt
  flg 31 m.busy ||| fld 30 (pathCode m.origin) ||| fld 24 (if r.overflow then 0x3F else r.args.length) |||
    fld 20 m.seq.toNat ||| fld 8 m.detail.toNat ||| fld 0 m.result.toNat

/-- A write of ARRAY_ARG (R175). -/
def arrayArgWrite (p : Path) (l : Lanes) (data : Word) (s : State) : State :=
  let r := pathGet p s
  let w := mergeLanes l r.argStage data
  pathPut p
    (if lane l 3 then
      if r.args.length = 36 then { r with overflow := true, argStage := 0 }
      else { r with args := r.args ++ [w], argStage := 0 }
    else { r with argStage := w }) s

/-- The identity that a command's signatures carry: adopted on a blank part, or made now where the part has none
(R134, R486). -/
def mgmtIdentity (code : Byte) (l : List Word) (s : State) : State :=
  let a := argA l
  match if code == 0x02 && arrNone a s then forceSource (memberList l 1 (argN l)) s else none with
  | some (_, g) => { s with ident := { s.ident with fabricId := g.fabricId } }
  | none => if (mgmtSigs code l s).isEmpty then s else fabricMake s

/-- A command changes what the NV configuration keeps: a bench or retire command does so where it makes the fabric
identity or retires an ACTIVE member. -/
def mgmtCommits (code : Byte) (l : List Word) (s : State) : Bool :=
  let fresh := (nvPresent s).fabricId != s.ident.fabricId
  match code.toNat with
  | 0x08 | 0x09 => fresh
  | 0x0A => fresh || (memGet (argM l) s).state == .active
  | _ => true

/-- The step in flight ends, and no other starts. -/
def bgHold (a : Fin 4) (s : State) : State := bgUnwait a (arrPut a { arrGet a s with bgPaused := true } s)

/-- Every stripe of an array is flushed, and its TRIMs go on (R362 step 1). -/
def stopTurn (a : Fin 4) (s : State) : State :=
  (liveRecs s).foldl (fun s (i, r) => if r.kind == .trim && r.array == a then trimApply i s else s)
    (flushWhere (fun r => r.array == a) s)

/-- STOP_ARRAY is accepted (R362, R547): its volumes are STOPPED and its stripes flushed; an OFFLINE array skips the
flush. -/
def stopStart (r : MgmtRun) (a : Fin 4) (s : State) : State :=
  let x := arrGet a s
  if x.state == .offline then
    if x.unchecked then mgmtAsk r s else mgmtPut { r with res := some (mrOk, 0) } (uncommitted (stopEnd a) s)
  else mgmtPut r (stopTurn a (bgUnwait a (setArr a { x with stopping := true } s)))

/-- An accepted command that writes signatures, or that only commits: the signatures of the configuration to be are
written first, and the commit is requested when they have responded (R179). They carry the SEQ that this commit is to
have, with the commits requested before it (R327; log entry 121). -/
def mgmtWrite (r : MgmtRun) (s : State) : State :=
  let s := mgmtIdentity r.code r.args s
  let r := { r with commits := mgmtCommits r.code r.args s, sigs := mgmtSigs r.code r.args s }
  let post := mgmtEffect r.code r.args s
  let src := sigAhead (nvSeqNext s + BitVec.ofNat 32 s.nv.commits.length) post
  let put (s : State) (m : Fin 128) : State :=
    createOp (sigOp m (.sig false true) (sigFrom src m post)) (memPut m { memGet m s with sigMend := none } s)
  mgmtAsk r (r.sigs.foldl put s)

/-- A command that has passed every check starts. -/
def mgmtStart (r : MgmtRun) (s : State) : State :=
  let a := argA r.args
  let x := arrGet a s
  let ok := mgmtPut { r with res := some (mrOk, 0) }
  let paints := x.bgKind == 4 || (x.painting && x.bgKind == 0)
  match r.code.toNat with
  | 0x01 => mgmtPut r (setArr a { x with state := .assembling, held := false } s)
  | 0x07 => if (volGet (argV r.args) s).owner == argS r.args then ok s else mgmtWrite r s
  | 0x0F => mgmtPut r (bgHold a s)
  | 0x10 =>
    if (if paints then x.repaint.sub == .active else !x.bgPaused) then mgmtPut r (bgHold a s) else ok s
  | 0x11 => if (if paints then x.repaint.sub == .active else !x.bgPaused) then ok s else mgmtWrite r s
  | 0x12 => stopStart r a s
  | _ => mgmtWrite r s

/-- The engine takes a command from a path (R176 step 3): the arguments leave the buffer, the checks run, and the
command starts or fails. -/
def mgmtTake (p : Path) (code : Byte) (s : State) : State :=
  let r := pathGet p s
  let s := pathPut p { r with args := [], overflow := false, argStage := 0 } s
  let run : MgmtRun := { code := code, args := r.args }
  let s := { s with mgmt := { s.mgmt with busy := true, origin := p, seq := s.mgmt.seq + 1, running := some run } }
  match mgmtCheck code r.args r.overflow s with
  | some e => mgmtPut { run with res := some e } s
  | none => mgmtStart run s

/-- A step of the array's pass is in flight, or an issued write of stripes that the front has passed is (R423). -/
def pauseBusy (a : Fin 4) (s : State) : Bool :=
  stepHeld a s || s.skb.flushes.any fun f => passedFlush a s f && f.issued

/-- A stopping array still has locks, records or flushes (R362). -/
def stopBusy (a : Fin 4) (s : State) : Bool :=
  (s.queues.locks.any fun (_, l) => l.array == a) || ((liveRecs s).any fun (_, r) => r.array == a)
    || s.skb.flushes.any (Flush.ofArray a)

/-- The engine's turn at a command whose result is still open: ASSEMBLE waits for its array; a pause or an abort waits
for the step in flight, and then moves the watermark with its commit; a stop goes on to its step 3; a command without
a commit takes effect once its signatures have responded. -/
def mgmtTurn (r : MgmtRun) (s : State) : State :=
  let a := argA r.args
  let x := arrGet a s
  let ok := mgmtPut { r with res := some (mrOk, 0) }
  if r.res.isSome then s
  else match r.code.toNat with
  | 0x01 =>
    if x.state == .assembling then s
    else if x.state.serves || x.state == .replaying then ok s
    else
      let m := (lackingNow a s)[1]?.bind x.memberOf
      mgmtPut { r with res := some (mrNoSuch, BitVec.ofNat 8 ((m.map (·.val)).getD 0)) } s
  | 0x0F | 0x10 => if r.committing || pauseBusy a s then s else mgmtAsk r s
  | 0x12 =>
    if r.committing then s
    else if !x.stopping then ok (arrPut a { x with held := true } s)
    else if stopBusy a s then stopTurn a s
    else if x.unchecked then mgmtAsk r s
    else ok (uncommitted (stopEnd a) s)
  | _ => if r.committing && !r.commits then ok (mgmtEffect r.code r.args s) else s

/-- A command that failed at its signatures leaves the configuration as it was; a member that had received a new
signature is FOREIGN (R179). -/
def mgmtUndo (r : MgmtRun) (s : State) : State :=
  let s := dropOps MOp.ofMgmt s
  let s := r.wrote.foldl (fun s m => if (memGet m s).identified then memState m .foreign chCommand s else s) s
  if s.nv.commits.isEmpty then { s with ident := { s.ident with fabricId := (nvPresent s).fabricId } } else s

/-- The engine writes its result and clears BUSY (R180, R181). -/
def mgmtFinish (r : MgmtRun) (e : Byte × Byte) (s : State) : State :=
  let s := if e.1 == mrMediaError || e.1 == mrFabricTimeout then mgmtUndo r s else s
  irqSet irqMgmt { s with mgmt := { s.mgmt with busy := false, result := e.1, detail := e.2, running := none } }

/-- The member on a worker that has not answered within 1 s (R178); RETIRE_MEMBER goes on without it (R343). -/
def mgmtTimeout (k : BitVec 4) (r : MgmtRun) (s : State) : State :=
  match r.sigs.find? fun m => nodeOf m == k && !isOwn m s with
  | none => s
  | some m =>
    if r.code == 0x0A then mgmtSigFail m s
    else mgmtFinish r (r.res.getD (mrFabricTimeout, BitVec.ofNat 8 k.toNat)) s

/-- MGMT_COMMAND_DONE (R178, R180): the engine's turn; a command whose result is decided and whose signature writes have
responded ends. -/
def mgmtDone (timeout : Option (BitVec 4)) (s : State) : State :=
  match s.mgmt.running with
  | none => s
  | some r =>
    let s := onlyIf (unitsRun s) (mgmtTurn r) s
    match s.mgmt.running with
    | none => s
    | some r => match r.res, r.sigs.isEmpty, timeout with
      | some e, true, _ => mgmtFinish r e s
      | _, _, some k => mgmtTimeout k r s
      | _, _, none => s

/-- MGMT_COMMAND_DONE. -/
def execMgmtCommandDone (timeout : Option (BitVec 4)) (s : State) : Out :=
  .next (onlyIf (running s) (mgmtDone timeout) s)

/-! ## Assembly (R26, R332, R358, R406, R546) -/

/-- Discovery has ended on every port, and no link trains and no roll call runs (R128). -/
def allFound (s : State) : Bool :=
  s.members.ports.toList.all (·.discovered) && s.ring.roll.isNone && s.ring.fa.link != .training
    && s.ring.fb.link != .training

/-- The array is STOPPED and can be assembled, and nothing holds it there (R26, R358, R412). -/
def assemblable (a : Fin 4) (s : State) : Bool :=
  let x := arrGet a s
  x.state == .stopped && !x.offlineMark && !x.held && decide ((lackingNow a s).length ≤ 1)

/-- The stage of the restart path that runs (R128, R159): after stages 4 and 5, assembly runs while an array is still to
be assembled, and replay after it. -/
def stageNow (s : State) : Nat :=
  let n := s.restart.stage.val
  if n = 5 && (s.restart.deadline || allFound s) then
    if isManager s && (List.finRange 4).any fun a =>
      assemblable a s || ((arrGet a s).state == .stopped && (arrGet a s).offlineMark) then 6 else 7
  else n

/-- Assembly may run: at stage 6, or at LEVEL1 and LEVEL2 (R26). -/
def assemblyRuns (s : State) : Bool :=
  unitsRun s && isManager s && (atLevel1 s || stageNow s == 6)

/-- An array is assembled (R332, R358): its roles take the indices at which their cards were found; a role whose card is
not there is a loss found at assembly, which stops the work that a loss stops (R406, R429). -/
def assemble (a : Fin 4) (s : State) : State :=
  let x := arrGet a s
  let now := rolesNow a s
  let lost := (List.range now.length).filter fun i =>
    (now[i]?.map (·.state)) == some .missing && (x.roles[i]?.map (·.state)) != some .missing
  let moved := now != x.roles
  let y := { x with roles := now, state := .replaying }
  match lost with
  | [] =>
    let s := setArr a y s
    if moved then nvCommit .keep s else s
  | i :: _ =>
    let y := if y.bgKind == 1 || y.bgKind == 2 || y.bgKind == 3 then y.dropWork else y
    let paints := y.repaint.sub == .active
    let y := if paints then y.pauseRepaint .loss else y
    let s := advance a (setArr a { y with lossDue := some i } s)
    if paints then repaintNote a s else s

/-- ASSEMBLY (R358, R546): a STOPPED array with the OFFLINE mark goes OFFLINE at stage 6; any other that can be assembled
is. -/
def assembly (a : Fin 4) (s : State) : State :=
  let x := arrGet a s
  if x.state == .assembling then
    if (lackingNow a s).length ≤ 1 then assemble a s else setArr a { x with state := .stopped } s
  else if x.state == .stopped && x.offlineMark && !atLevel1 s then setArr a { x with state := .offline } s
  else if assemblable a s then assemble a s
  else s

/-- ASSEMBLY. -/
def execAssembly (a : Fin 4) (s : State) : Out := .next (onlyIf (assemblyRuns s) (assembly a) s)

/-! ## The end of an NV commit (R125, R170) -/

/-- A worker takes its new identity and number (R485): its ports' entries stand at the member indices of its node. -/
def identAssign (fabricId : Dword) (node : BitVec 4) (tag : Byte) (s : State) : State :=
  let own := (List.finRange 8).map fun p => memGet (ownMember p s) s
  let clear := (List.finRange 8).foldl (fun s p => memPut (ownMember p s) {} s) s
  let s := { clear with
    ident := { s.ident with fabricId := fabricId, node := node }, ring := { s.ring with fabric := fabricId } }
  let s := (List.finRange 8).foldl (fun s p => memPut (ownMember p s) (own.getD p.val {}) s) s
  sendUp 0x04 0 tag 0 [] s

/-- What a completed commit changes. -/
def nvChange (c : NvChange) (s : State) : State :=
  match c with
  | .keep => s
  | .table p space e w =>
    let s := nvApply space.toNat e w s
    pathPut p { pathGet p s with commitBusy := false } s
  | .mgmt => (match s.mgmt.running with
    | none => s
    | some r => mgmtPut { r with res := some (mrOk, 0) } (mgmtEffect r.code r.args s))
  | .mark a m => markEnd a m s
  | .finish a => passEnd a s
  | .front a m => frontEnd a m s
  | .cutover a => cutoverEnd a s
  | .back a => backEnd a s
  | .fwd sp e w => fwdApply sp.toNat e w s
  | .assign f n t => identAssign f n t s

/-- An NV commit ends (R125): its change applies, and the copy that holds it becomes the present one. A header page whose
read-back differs takes the part to FAILSTOP (R565). -/
def nvCommitDone (ok : Bool) (s : State) : State :=
  match s.nv.prog.head?, s.nv.commits with
  | some .nv, c :: rest =>
    let s := progNext { s with nv := { s.nv with commits := rest } }
    if ok then
      let old := (nvPresent s).tables
      advancesDue (wordsAsk (refreshChanged old (nvWrite (missingRelease (nvChange c s)))))
    else
      failstop (logRec .nvCommitFail (BitVec.ofNat 8 (if nvTarget s then 30 else 0) :: leBytes 4 (nvSeqNext s).toNat) s)
  | _, _ => s

/-- NV_COMMIT_DONE (R125): one in flight ends even in FAILSTOP (R28). -/
def execNvCommitDone (ok : Bool) (s : State) : Out := .next (onlyIf (running s) (nvCommitDone ok) s)

end Sys2Proof.Machine
end

