-- ==== Sys2Proof/Machine/Restart.lean ====
section
/-! DEFINITION. Resets of class P, D and C, RST_CAUSE, the choice of the NV copy and the restart path up to LEVEL2
(R22 to R28, R112 to R133, R160, R161, R543, R596). -/

namespace Sys2Proof.Machine

/-! ## What a reset clears (R114) -/

/-- A copy whose body pages an NV commit has begun to program holds free value k beyond its header (R121). -/
def NvCopy.begun (k : Nat) : NvCopy → NvCopy
  | .blank _ => .blank (some k)
  | .bad _ => .bad k
  | .bodyBad q f n b _ | .valid q f n b => .bodyBad q f n b k

/-- The copy that the NV commit in flight writes takes another content. -/
def nvTargetPut (f : NvCopy → NvCopy) (s : State) : State :=
  if nvTarget s then { s with nv := { s.nv with b := f s.nv.b } } else { s with nv := { s.nv with a := f s.nv.a } }

/-- The program operation in flight when the units stop, cut short: a record slot, a session page or a black-box page is
torn and holds a free value, and so does a TRIM_DONE word; a RETIRE word is not the one that retires; a cut header page
leaves its NV copy neither blank nor header-valid, and a body page leaves it with another body (R121, R125, R126, R377,
R380, R564; log entry 105). A page without its record is nothing. -/
def progTorn (body : Bool) (s : State) : State :=
  let k := s.freeCtr
  match s.nv.prog.head? with
  | some (.record _ slot _) =>
    { (freeNext s).2 with skb := { s.skb with torn := kput slot k s.skb.torn, recs := kdel slot s.skb.recs } }
  | some (.trimDone slot _) => (match kget slot s.skb.recs with
    | none => s
    | some r =>
      { (freeNext s).2 with skb := { s.skb with
          recs := kput slot { r with trimDone := (Config.freeWord k 0).toNat } s.skb.recs } })
  | some (.session _) => { (freeNext s).2 with nv := { s.nv with session := .torn k } }
  | some (.bbox slot _) => bbTear (slot / 32) k (freeNext s).2
  | some .nv => nvTargetPut (if body then NvCopy.begun k else fun _ => .bad k) (freeNext s).2
  | some (.page _ _ _) | some (.parity _ _ _) | some (.land _ _ _) | some (.retire _) | none => s

/-- The program operation in flight, as it ends on the program timer with the units stopped: nothing else follows from
it (R28, R85). -/
def progEnds (s : State) : State :=
  match s.nv.prog.head?, s.nv.commits with
  | some .nv, c :: _ => nvWrite (nvChange c s)
  | _, _ => progOnly s

/-- The units stop: the program operation in flight ends, or is cut short, or is a body page of an NV commit, and of what
was requested and not started only black-box pages are still programmed (R28, R85, R563). -/
def progCut (cut : ProgEnd) (s : State) : State :=
  let rest := (s.nv.prog.drop 1).filter ProgOp.isBbox
  let s := match cut with
    | .ends => progEnds s
    | .torn => progTorn false s
    | .body => progTorn true s
  { s with
    nv := { s.nv with prog := rest, commits := [] }
    pathC := { s.pathC with commitBusy := false }, pathM := { s.pathM with commitBusy := false } }

/-- No program operation is left (R85): none starts after a trip. -/
def progNone (s : State) : State := { s with nv := { s.nv with prog := [], commits := [] } }

/-- The canvas with nothing bound: every tile keeps what it last held (R396). -/
def canvasFree (s : State) : Canvas :=
  let ghosts := s.canvas.tiles.foldl (fun g (n, t) => kput n t.data g) s.canvas.ghosts
  { ghosts := ghosts, era := s.canvas.era }

/-- What stages 4 to 7 of the restart path build is dropped: tables, members, arrays, canvas, pools, the work of the
Sketchbook and the roll call; sealed records and links stay (R114, R596). -/
def stagesDrop (s : State) : State :=
  let d : State := {}
  let pools := Vector.ofFn fun i : Fin 20 => if 14 ≤ i.val then poolGet i s else poolsReset.get i
  { s with
    ident := {}, ledger := { s.ledger with pools := pools, waiting := [] }
    members := { s.members with
      tbl := s.members.tbl.map fun m =>
        { linkErrs := m.linkErrs, retries := m.retries, mediaErrs := m.mediaErrs, timeouts := m.timeouts, ops := m.ops }
      ports := s.members.ports.map fun p => { cdNow := p.cdNow, offTicks := if p.powered then 0 else p.offTicks } }
    arrs := d.arrs, vols := d.vols, canvas := canvasFree s
    skb := { s.skb with
      usedPages := [], forced := false, pause := false, wanted := [], flushes := [], marks := [], mends := [] }
    nv := { s.nv with prog := s.nv.prog.filter ProgOp.isBbox, commits := [] }
    studios := d.studios, referee := {}, roster := d.roster, regions := d.regions
    ring := { s.ring with
      nodes := d.ring.nodes, roll := none, rollAgain := false, reqs := [], adopt := none, served := [], changed := 0,
      doneSeen := false } }

/-- The state that classes P, D and C all clear. -/
def resetCommon (s : State) : State :=
  let s := stagesDrop s
  let clear (r : PathRegs) : PathRegs := { tickHold := r.tickHold }
  { s with
    power := { s.power with
      autoNap := 0, reqResult := .none, entry := none, ordersOut := [], ordered := none, waking := false,
      wakeWrite := none, heldDark := false, orderDue := none, asleep := [] }
    restart := { straps := s.restart.straps, strapNow := s.restart.strapNow, strapLogged := s.restart.strapLogged }
    members := { ports := s.members.ports }, ledger := { pools := s.ledger.pools }, log := {}, pathC := clear s.pathC, pathM := clear s.pathM
    cport := { s.cport with whistling := false, wseq := 0 }
    mgmt := {}, hbu := { gnt := s.hbu.gnt, busyIn := s.hbu.busyIn }, dma := {}, queues := {}, palette := {}
    skb := { s.skb with scanDone := false, pausePct := 95, hwmPct := 75, flushAge := 100 } }

/-- A class C reset, and the restart after a loss of lock, clear this (R114). The hold of NVCFG_LOST outlasts them: only a
class P or D reset may end it (R25, R132). -/
def resetC (s : State) : State :=
  { resetCommon s with restart := { (resetCommon s).restart with nvcfgLost := s.restart.nvcfgLost } }

/-- A class D reset, and with `p` a class P reset, clears this as well (R114). -/
def resetPD (p : Bool) (s : State) : State :=
  let s := resetCommon s
  { s with
    power := { s.power with vpfSel := 0, pfailPinEn := true, state := .run }
    clk := { xinOk := s.clk.xinOk }
    restart := { s.restart with strapLogged := false }
    pathC := {}, pathM := {}, cport := {}, scratch := Vector.replicate 8 0, ledger := {}, ring := {}
    canvas := if p then { era := s.canvas.era + 1 } else s.canvas
    skb := if p then { s.skb with lastPage := 2047, lastRec := 2047, cseq := 1 } else s.skb
    nv := { s.nv with prog := [] } }

/-! ## RST_CAUSE (R119, R120) -/

/-- TRIP_SRC of a source. -/
def TripSrc.num : TripSrc → BitVec 4
  | .vcore => 1 | .pfail => 2 | .vio18 => 3 | .vstby => 4 | .xin => 5

/-- CAUSE codes. -/
def Cause.num : Cause → Nat
  | .powerOn => 1 | .standbyExit => 2 | .powerFail => 3 | .xinLoss => 4 | .resetPin => 5 | .control => 6 | .pllLoss => 7

/-- CAUSE and TRIP_SRC by the first rule that applies. -/
def causeOf (trigger : Cause) (s : State) : Cause × BitVec 4 :=
  if s.standby.exiting.isSome then (.standbyExit, 0)
  else match s.standby.tripLatch with
    | some .xin => (.xinLoss, 5)
    | some t => (.powerFail, TripSrc.num t)
    | none =>
      if !s.power.fromBelow then (trigger, 0)
      else if s.nv.session == .opened then (.powerFail, 0xF)
      else (.powerOn, 0)

/-- RST_CAUSE as read. -/
def rstCauseWord (s : State) : Word :=
  fld 24 s.standby.restartCount.toNat ||| fld 16 s.restart.tripSrc.toNat ||| fld 14 s.restart.nvSel.toNat
    ||| flg 13 s.restart.otherBad ||| fld 8 s.restart.prevLevel.toNat ||| fld 0 s.restart.cause.num

/-- RST_CAUSE is rewritten, the latches are cleared, the RESTART note starts the log, and the epoch of the ring starts
at 16 times RESTART_COUNT (R119, R120, R481). -/
def restartWrite (trigger : Cause) (prev : Option Level) (s : State) : State :=
  let (cause, src) := causeOf trigger s
  let n := ctrInc s.standby.restartCount
  let s := { s with
    restart := { s.restart with
      tripSrc := src, nvSel := 0, otherBad := false, cause := cause
      prevLevel := (prev.map fun l => BitVec.ofNat 4 l.num).getD 0xF }
    standby := { s.standby with restartCount := n, tripLatch := none, exiting := none, levelLatch := some .level0 }
    power := { s.power with fromBelow := false }
    ring := { s.ring with rollSeq := BitVec.ofNat 8 (16 * n.toNat) } }
  logRec .restart (leBytes 4 (rstCauseWord s).toNat) s

/-! ## The choice of the copy (R126) -/

/-- The copy taken by the first step: false A, true B. -/
def headerTake (a b : NvCopy) : Option Bool :=
  match a.seq, b.seq with
  | some x, some y => some (decide ((x - y).toInt < 0))
  | some _, none => some false
  | none, some _ => some true
  | none, none => none

/-- A copy is valid. -/
def NvCopy.isValid : NvCopy → Bool
  | .valid _ _ _ _ => true
  | .blank _ | .bad _ | .bodyBad _ _ _ _ _ => false

/-- A copy is blank: all its header bytes are 0 (R121). -/
def NvCopy.isBlank : NvCopy → Bool
  | .blank _ => true
  | .bad _ | .bodyBad _ _ _ _ _ | .valid _ _ _ _ => false

/-- NV_SEL of a choice. -/
def nvSelOf (c : Option Bool) : BitVec 2 :=
  match c with
  | none => 0
  | some b => if b then 2 else 1

/-- The outcome without a valid copy: NVCFG_LOST where neither is blank, else a blank part. -/
def noCopy (s : State) : State :=
  let a := s.nv.a.isBlank
  let b := s.nv.b.isBlank
  { s with
    nv := { s.nv with present := none }
    restart := { s.restart with
      nvSel := if !a && !b then 3 else 0, nvcfgLost := !a && !b, otherBad := a != b } }

/-- The second step: the taken copy, or the other where its body is bad. -/
def copyChoice (s : State) : State :=
  let get (b : Bool) : NvCopy := if b then s.nv.b else s.nv.a
  match s.restart.taken with
  | none => noCopy s
  | some t =>
    let pick := if (get t).isValid then some t else if (get (!t)).isValid then some (!t) else none
    match pick with
    | none => noCopy s
    | some c =>
      let other := get (!c)
      { s with
        nv := { s.nv with present := some c }
        restart := { s.restart with nvSel := nvSelOf (some c), otherBad := !other.isValid && !other.isBlank } }

/-! ## Stages 2 to 5 -/

/-- The scan of stage 4 (R380): torn slots are discarded and counted, the pages that no unretired record names are
freed, and those of the others are counted in SYSTEM (R42). -/
def indexScan (s : State) : State :=
  let recs := s.skb.recs.map fun (i, r) =>
    (i, { r with system := true, posted := true, applied := 0, doneOld := [], doneNew := [], carried := false })
  let live := recs.filter fun (_, r) => !r.retired
  let pages := live.flatMap fun (_, r) => r.pages.map (·.1)
  let units := (live.map fun (_, r) => r.units).sum
  let s := (List.range s.skb.torn.length).foldl (fun s _ => counterInc 0x80 s) s
  let s := { s with skb := { s.skb with
    recs := recs, usedPages := pages, scanDone := true
    pages := s.skb.pages.filter fun (i, _) => pages.contains i } }
  forcedUpdate (poolTake pPage none units s)

/-- Stage 4 begins once the PLL is locked: the second step of the copy choice, and the scan (R128). -/
def stageFour (s : State) : State :=
  let s := copyChoice { s with restart := { s.restart with stage := 4, deadline := false } }
  if s.restart.nvcfgLost then s else indexScan s

/-- The path that waits at stage 3 goes on with a PLL that runs and is locked (R128). -/
def pathOn (s : State) : State :=
  if s.clk.pllEn && s.clk.pllLock && s.restart.level == .level0 && s.restart.stage == 3 && !s.restart.nvcfgLost then stageFour s
  else s

/-- The PLL is started (R100); a stop that waits for its TICK boundary is taken back, and lock has not been lost. -/
def pllStart (s : State) : State :=
  pathOn { s with clk := { s.clk with pllEn := true }, restart := { s.restart with pllStarted := true } }

/-- Stage 2, and what follows it (R24, R126, R128, R160): both headers are read, the PLL starts by itself where R24
allows, and the path goes on, waits for lock at stage 3, or parks; the next BSEQ is found (R564). A hold of NVCFG_LOST
that stands stays (R132). -/
def stageTwo (s : State) : State :=
  let t := headerTake s.nv.a s.nv.b
  let s := { s with
    restart := { s.restart with stage := 2, taken := t, nvSel := nvSelOf t, pllStarted := s.clk.pllEn }
    nv := { s.nv with bseq := bbNext s.nv.bbox } }
  if s.restart.nvcfgLost then { s with nv := { s.nv with present := none }, restart := { s.restart with nvSel := 3 } }
  else match t with
  | none =>
    let s := noCopy s
    if s.restart.nvcfgLost then s else pathOn { s with restart := { s.restart with stage := 3 } }
  | some b =>
    let id := (if b then s.nv.b else s.nv.a).fabricId
    let s := { s with restart := { s.restart with stage := 3 } }
    if !s.clk.pllEn && !s.restart.straps.hold && id != 0 then pllStart s else pathOn s

/-- A REFEREE value outside its range takes its reset value (R122, R448). -/
def RefCfg.sane (c : RefCfg) : RefCfg :=
  let keep (lo hi x d : Nat) : Nat := if lo ≤ x && x ≤ hi then x else d
  { c with
    weight := c.weight.map fun w => if w = 0 then 16 else w
    issueAhead := keep 1 8 c.issueAhead 2, aMaxPct := keep 10 80 c.aMaxPct 50, cMinPct := keep 5 50 c.cMinPct 25
    resDma := keep 8 64 c.resDma 16, resLock := keep 16 128 c.resLock 32, resPage := keep 16 256 c.resPage 16
    resTile := keep 64 512 c.resTile 192
    streamTiles := if c.streamTiles + 64 ≤ keep 64 512 c.resTile 192 then c.streamTiles else 128 }

/-- A RING_NODE entry of a rostered node until a roll call finds it (R497). -/
def rosterNodes (s : State) : Vector RNode 16 :=
  Vector.ofFn fun k : Fin 16 =>
    if isManager s && k != 0 && s.roster.get k then
      { status := .unreachable, node := BitVec.ofNat 4 k.val, fabricId := s.ident.fabricId }
    else {}

/-- A volume as its NV entry gives it (R549): STOPPED; a trim that no commit has recorded as durable is made again (R368). -/
def volLoad (x : Vol) : Vol := { x with state := if x.state == .gone then .gone else .stopped }

/-- The tables are loaded from the chosen copy, as the node's role needs them (R122, R128, R158). -/
def tablesLoad (s : State) : State :=
  match nvPresent s with
  | .valid _ fid node b =>
    let s := { s with
      ident := { fabricId := fid, node := if isManager s then 0 else node }, referee := { s.referee with cfg := b.referee.sane } }
    let s := (List.finRange 8).foldl (fun s p =>
      memPut (ownMember p s) { memGet (ownMember p s) s with cfg := b.memberCfg.get p } s) s
    if isManager s && b.manager then
      let s := { s with
        roster := b.roster, regions := b.regions, arrs := b.arrs.map Arr.kept, vols := b.vols.map volLoad
        studios := b.studios.map fun c => { cfg := c } }
      { s with ring := { s.ring with nodes := rosterNodes s } }
    else s
  | .blank _ | .bad _ | .bodyBad _ _ _ _ _ => s

/-- SELF_CHECK_FAIL (R128): the unit and the address at which its self-check failed. -/
def selfCheckFail (unit : Byte) (addr : Word) (s : State) : State :=
  logRec .selfCheckFail (unit :: leBytes 4 addr.toNat) s

/-- The self-check of the Sketchbook fails (R128, R25). -/
def skbCheckFail (a : Word) (s : State) : State :=
  selfCheckFail 0 a { s with restart := { s.restart with skbFault := true } }

/-- The self-check of canvas memory fails (R128, R25). -/
def canvasCheckFail (a : Word) (s : State) : State :=
  selfCheckFail 1 a { s with restart := { s.restart with canvasFault := true } }

/-- The CSEQ counter at the end of stage 4: 1 plus the newest of the unretired records, or 1 (R379). -/
def cseqFirst (s : State) : Word :=
  match (liveRecs s).foldl newerRec none with
  | none => 1
  | some (_, r) => r.cseq + 1

/-- SELF_CHECKS_DONE (R128, R25): the self-checks of stage 4 end, of the Sketchbook and of canvas memory, each with the
address of a failure if it has one. -/
def selfChecksDone (skb canvas : Option Word) (s : State) : State :=
  match skb, canvas with
  | none, none =>
    let s := tablesLoad s
    { s with restart := { s.restart with stage := 5 }, skb := { s.skb with cseq := cseqFirst s } }
  | some a, none => skbCheckFail a s
  | none, some b => canvasCheckFail b s
  | some a, some b => canvasCheckFail b (skbCheckFail a s)

/-- The path runs stage `n` at LEVEL0. -/
def atStage (n : Nat) (s : State) : Bool :=
  unitsRun s && s.restart.level == .level0 && s.restart.stage.val == n && !s.restart.nvcfgLost && s.clk.pllLock
    && !s.restart.skbFault && !s.restart.canvasFault

/-- SELF_CHECKS_DONE. -/
def execSelfChecksDone (skb canvas : Option Word) (s : State) : Out :=
  .next (onlyIf (atStage 4 s) (selfChecksDone skb canvas) s)

/-- DISCOVERY_DEADLINE (R128): the path goes on without late ports and nodes. -/
def execDiscoveryDeadline (s : State) : Out :=
  .next (onlyIf (atStage 4 s || atStage 5 s) (fun s => { s with restart := { s.restart with deadline := true } }) s)

/-! ## LEVEL1 and LEVEL2 (R128, R129, R131, R543, R548) -/

/-- The repaint of an array at stage 8: it runs again by itself where AUTO_RESUME is set and the operator had not paused
it; while a role is lacking it stays PAUSED for the loss (R131, R429). -/
def Arr.repaintResume (lacks : Bool) (x : Arr) : Arr :=
  let p := x.repaint
  let p := if p.sub == .none then p
    else if p.cause == .operator then { p with sub := .paused }
    else if lacks then { p with sub := .paused, cause := .loss }
    else if x.autoResume then { p with sub := .active, cause := .none }
    else { p with sub := .paused, cause := .restart }
  { x with repaint := p }

/-- Repaints resume, each change of sub-state noted (R430). -/
def repaintsResume (s : State) : State :=
  (List.finRange 4).foldl (fun s a =>
    let x := arrGet a s
    let y := x.repaintResume (!(lackingNow a s).isEmpty)
    if x.repaint == y.repaint then s else repaintNote a (arrPut a y s)) s

/-- The copy other than the present one is neither valid nor blank, and the commits already requested do not write it
(R125). -/
def partnerBad (s : State) : Bool :=
  s.nv.present.isSome && s.nv.commits.isEmpty &&
    !(if nvTarget s then s.nv.b else s.nv.a).isValid && !(if nvTarget s then s.nv.b else s.nv.a).isBlank

/-- Stage 8 (R128): the program of the session word OPEN is requested, a bad partner copy is repaired by one commit,
background work goes on, and the second tier is probed. -/
def level1Entry (tier2 : Option (Half × Half)) (s : State) : State :=
  let s := setLevel .level1 s
  let s := progReq (.session true) { s with restart := { s.restart with stage := if isManager s then 9 else 0 } }
  let s := onlyIf (partnerBad s) (nvCommit .keep) s
  tier2Probe tier2 (onlyIf (isManager s) repaintsResume s)

/-- Stage 7 has ended: every assembled array is replayed (R128). -/
def replayed (s : State) : Bool :=
  stageNow s == 7 && (List.finRange 4).all fun a => (arrGet a s).state != .replaying && (arrGet a s).state != .assembling

/-- LEVEL1_ENTRY (R543), with the two registers that the second tier's identification reads, if it answers (R438). -/
def execLevel1Entry (tier2 : Option (Half × Half)) (s : State) : Out :=
  .next (onlyIf (atStage 5 s && replayed s) (level1Entry tier2) s)

/-- The straps hold a defined dialect and width (R71). -/
def strapsDefined (s : State) : Bool := decide (s.restart.straps.dialect.toNat < 2) && decide (s.restart.straps.width.toNat < 3)

/-- The release level of a VPF_SEL code in millivolts (R84). -/
def releaseMv (code : BitVec 3) : Nat := [900, 970, 1070, 1170, 1430, 1650].getD code.toNat 0

/-- The highest VCORE in millivolts at which a VPF_SEL code may trip: its trip level with its tolerance (R84). -/
def tripMv (code : BitVec 3) : Nat := [890, 960, 1060, 1160, 1415, 1635].getD code.toNat 0

/-- PWR_STAT[15:8]. -/
def supplyBits (s : State) : Byte :=
  let p := s.power.sup
  let b (i : Nat) (x : Bool) : Byte := if x then BitVec.ofNat 8 (2 ^ i) else 0
  b 7 (decide (releaseMv s.power.vpfSel < p.vcoreMv)) ||| b 6 p.vioH ||| b 5 p.vio18 ||| b 4 p.vio33 ||| b 3 p.vioA
    ||| b 2 (p.vioA && p.vioA33) ||| b 1 p.pfailPin ||| b 0 p.wakePin

/-- A bank is absent that leaves the part running (R69). -/
def bankMissing (s : State) : Bool := !s.power.sup.vio33 || !s.power.sup.vioA

/-- LEVEL2 (R128 stage 9, R543, R565). -/
def level2Entry (s : State) : State :=
  let s := studiosUp (setLevel .level2 { s with restart := { s.restart with stage := 0 } })
  onlyIf (bankMissing s) (logRec .bankAbsent [supplyBits s]) s

/-- LEVEL2_ENTRY (R128, R543): stage 9 ends, with the unit (2 HBU, 3 queue engine, 4 DMA) and address of a failed
self-check if there is one. -/
def execLevel2Entry (fail : Option (Fin 3 × Word)) (s : State) : Out :=
  .next (onlyIf (unitsRun s && isManager s && s.restart.level == .level1 && s.restart.stage == 9) (fun s =>
    match fail with
    | some (u, a) =>
      selfCheckFail (BitVec.ofNat 8 (u.val + 2)) a { s with restart := { s.restart with hostFault := true, stage := 0 } }
    | none => if strapsDefined s then level2Entry s else { s with restart := { s.restart with stage := 0 } }) s)

/-! ## Control resets (R118, R133) -/

/-- CONTROL_RESET_START (R118): the class C reset of an accepted CTRL_RST write, and the restart path up to the wait for
lock; `cut`: what becomes of the program operation in flight. -/
def execControlResetStart (cut : ProgEnd) (s : State) : Out :=
  .next (onlyIf (running s && s.restart.ctrlRst) (fun s =>
    let prev := s.standby.levelLatch
    stageTwo (restartWrite .control prev (resetC (progCut cut s)))) s)

/-- A copy whose header page is programmed to zeros: its body pages stay (R133); no valid copy is ever cleared. -/
def NvCopy.cleared : NvCopy → NvCopy
  | .blank k => .blank k
  | .bad n | .bodyBad _ _ _ _ n => .blank (some n)
  | .valid _ _ _ _ => .blank none

/-- NV_CLEAR while NVCFG_LOST is shown programs both header pages to zero; elsewhere it does nothing (R133). -/
def nvClear (s : State) : State :=
  if s.restart.nvcfgLost then { s with nv := { s.nv with a := s.nv.a.cleared, b := s.nv.b.cleared } } else s

/-! ## SVC_LEVEL (R25, R159, R160) -/

/-- The path is parked at LEVEL0 for want of a PLL start (R160). -/
def pllParked (s : State) : Bool := s.restart.level == .level0 && !s.clk.pllEn

/-- The hold reasons, bits [25:16]. -/
def holdReasons (s : State) : Word :=
  let r := s.restart
  match r.level with
  | .failstop | .level2 => 0
  | .level1 => flg 25 r.hostFault ||| flg 24 (isManager s && !strapsDefined s) ||| flg 23 (!isManager s)
  | .level0 =>
    if r.nvcfgLost then flg 19 true
    else if pllParked s then (if r.straps.hold && !r.pllStarted then flg 16 true else flg 17 true)
    else flg 22 true ||| flg 21 r.canvasFault ||| flg 20 r.skbFault ||| flg 18 (!s.clk.pllLock)

/-- SVC_LEVEL as read. -/
def svcLevelWord (s : State) : Word :=
  holdReasons s ||| fld 8 (if s.restart.level == .failstop then 0 else stageNow s) ||| fld 0 s.restart.level.num

end Sys2Proof.Machine
end

