-- ==== Sys2Proof/Machine/Power.lean ====
section
/-! DEFINITION. Supplies and resets from outside, power-fail trips, the clocks, and the power states with their requests,
commit points and wake sources (R69, R72 to R74, R82 to R111, R540, R543 to R545, R572). -/

namespace Sys2Proof.Machine

/-! ## Idle, cancel and wake (R89 to R91) -/

/-- REQ_RESULT takes a value; DONE, CANCELLED and refusals set IRQ_STAT.POWER (R568). -/
def reqResult (r : ReqResult) (s : State) : State :=
  let s := { s with power := { s.power with reqResult := r } }
  if r == .none || r == .entering then s else irqSet irqPower s

/-- A layer that keeps the part from idling. -/
def LState.busy : LState → Bool
  | .priming | .playing | .blanking => true
  | .idle | .stopped => false

/-- Background work or a repaint of an array runs (R89). -/
def Arr.bgActive (x : Arr) : Bool :=
  x.state.assembled && ((x.bgKind != 0 && x.bgKind != 4 && !x.bgPaused) || x.repaint.sub == .active)

/-- The idle condition (R89). -/
def idle (s : State) : Bool :=
  s.queues.slots.isEmpty && s.dma.waiting.isEmpty && s.dma.chans.toList.all fun c => c.cur.isNone && !c.look
    && !s.palette.layers.toList.any (·.state.busy) && !s.arrs.toList.any Arr.bgActive

/-- POWER_ORDER to a worker: flit 0 [1:0] the state ordered, 0 for none (R95, R478). -/
def orderTo (code : Nat) (k : BitVec 4) (s : State) : State :=
  sendTo k 0x0C (managerPkt k 0 0 0 [BitVec.ofNat 64 code] s) false s

/-- An entry before its commit point is cancelled (R90); workers ordered with it are released, and a session word that
already reads CLOSED is programmed OPEN again (log entry 106). A worker's ordered entry, which no request of its own
asked for, is given up the same way. -/
def cancelEntry (s : State) : State :=
  let ordered := s.power.ordered.isSome || s.power.orderDue.isSome
  let s := { s with power := { s.power with ordered := none, orderDue := none } }
  match s.power.entry with
  | none => if ordered then reqResult .cancelled s else s
  | some z =>
    let s := reqResult .cancelled { s with power := { s.power with entry := none, ordersOut := [] } }
    match z with
    | .nap => s
    | .doze | .standby =>
      let s := onlyIf (atLevel1 s && (s.nv.session == .closed || s.nv.prog.contains (.session false)))
        (progReq (.session true)) s
      (workerList s).foldl (fun s k => orderTo 0 k s) s

/-- Units and pins are as at entry again, and the request that put the part to sleep is DONE (R91). -/
def wakeDone (s : State) : State :=
  palWake (reqResult .done { s with power := { s.power with state := .run, waking := false, ordered := none } })

/-- A wake source of NAP and DOZE (R90, R91): an entry is cancelled, NAP ends, and from DOZE the wake waits for lock. -/
def wake (s : State) : State :=
  match s.power.state with
  | .nap => wakeDone s
  | .doze => { s with power := { s.power with waking := true } }
  | .run | .standby | .off => (match s.power.entry with
    | some .standby => s
    | some .nap | some .doze | none => cancelEntry s)

/-- The standby domain begins a STANDBY exit (R94). -/
def standbyWake (src : WakeSrc) (s : State) : State :=
  if s.standby.exiting.isSome then s
  else { s with standby := { s.standby with supEn := true, exiting := some src } }

/-- WAKE_N or the wake timer: wakes from every sleep state and cancels every entry. -/
def wakeAny (src : WakeSrc) (s : State) : State :=
  match s.power.core with
  | .standby => standbyWake src s
  | .running => if s.power.state == .run then cancelEntry s else wake s
  | .off | .inResetP | .inResetD | .stopped => s

/-- WAKE_N_ASSERTED (R91): WAKE_N is low. -/
def execWakeNAsserted (s : State) : Out :=
  .next (onlyIf s.standby.wakePinEn (wakeAny .wakeN)
    { s with power := { s.power with sup := { s.power.sup with wakePin := false } } })

/-- WAKE_TIMER_EXPIRY (R98). -/
def execWakeTimerExpiry (s : State) : Out := .next (onlyIf (s.standby.wakeTime != 0) (wakeAny .timer) s)

/-- FORWARDED_CLOCK_WAKE (R96): a worker in DOZE wakes. -/
def execForwardedClockWake (s : State) : Out :=
  .next (onlyIf (running s && !isManager s && s.power.state == .doze && s.power.heldDark) wake s)

/-- A debounced card-detect change is a wake source (R91). -/
def execCardInserted (p : Fin 8) (s : State) : Out :=
  .next (onlyIf (cdHeld p true s) (fun s => cardInserted p (wake s)) s)

/-- CARD_REMOVED (R91, R339). -/
def execCardRemoved (p : Fin 8) (s : State) : Out :=
  .next (onlyIf (cdHeld p false s) (fun s => cardRemoved p (wake s)) s)

/-! ## Requests (R89, R95, R545) -/

/-- A worker answered the latest roll call. -/
def anyWorker (s : State) : Bool := !(workerList s).isEmpty

/-- An accepted request: ENTERING, the power-state flush above LEVEL0, and on a manager the order to every worker. It takes
the place of an entry under way (log entry 28). -/
def enter (z : Sleep) (s : State) : State :=
  let s := onlyIf s.power.entry.isSome cancelEntry s
  let s := reqResult .entering { s with power := { s.power with entry := some z } }
  let s := onlyIf (atLevel1 s) flushEverything s
  match z with
  | .nap => s
  | .doze | .standby =>
    let s := { s with power := { s.power with ordersOut := workerList s } }
    (workerList s).foldl (fun s k => orderTo z.num k s) s

/-- A NAP request (R89). -/
def askNap (s : State) : State :=
  if !atLevel1 s then reqResult .refusedLevel s
  else if !idle s then reqResult .refusedBusy s
  else enter .nap s

/-- A DOZE request (R89, R95). -/
def askDoze (s : State) : State :=
  if !isManager s || !atLevel1 s then reqResult .refusedLevel s
  else if !idle s then reqResult .refusedBusy s
  else enter .doze s

/-- A STANDBY request, and whether it is armed (R89, R149). -/
def askStandby (armed : Bool) (s : State) : State :=
  if !isManager s || s.restart.level == .failstop then reqResult .refusedLevel s
  else if !armed then reqResult .refusedArm s
  else if s.standby.wakeTime != 0 && anyWorker s then reqResult .refusedFabric s
  else enter .standby s

/-- A write of REQ (R89, R108). While a STANDBY entry is under way, RUN is answered DONE and a refused request with its
refusal, and the entry goes on (DESIGN CHOICE, log entry 28: the spec names no outcome). -/
def reqWrite (code : BitVec 3) (armed : Bool) (s : State) : State :=
  match code.toNat with
  | 0 => s
  | 1 => reqResult .done s
  | 2 => askNap s
  | 3 => askDoze s
  | 4 => askStandby armed s
  | _ => reqResult .refusedCode s

/-- AUTO_NAP_EXPIRY (R97): the idle condition has held long enough. -/
def execAutoNapExpiry (s : State) : Out :=
  .next (onlyIf (running s && s.power.state == .run && s.power.entry.isNone && s.power.autoNap != 0 && idle s) askNap s)

/-! ## Commit points (R90) -/

/-- Every record of an assembled array has retired, and every flush is over. -/
def flushedAll (s : State) : Bool :=
  s.skb.flushes.isEmpty && !(liveRecs s).any fun (_, r) => (arrGet r.array s).state.assembled

/-- The entry that stands at its commit point, its flush done and its workers entered; on a worker the state ordered. -/
def entryReady (z : Sleep) (s : State) : Bool :=
  unitsRun s && (s.restart.level == .level0 || flushedAll s) && s.power.ordersOut.isEmpty
    && (s.power.entry == some z || (!isManager s && s.power.ordered == some z))

/-- A commit point: the idle condition is checked again. -/
def commitPoint (z : Sleep) (f : State → State) (s : State) : State :=
  if !entryReady z s then s else if !idle s then cancelEntry s else f s

/-- The entry is over: the part has passed its commit point. -/
def entryOver (s : State) : State := { s with power := { s.power with entry := none } }

/-- NAP_COMMIT (R88, R90). -/
def execNapCommit (s : State) : Out :=
  .next (commitPoint .nap (fun s =>
    let s := entryOver s
    palNap { s with power := { s.power with state := .nap } }) s)

/-- The PLL has no lock and the core runs from XIN: where it moves there, the count of periods elapsed in the TICK step in
progress is converted, and the 25-step pattern starts (R105). -/
def toXin (elapsed : Nat) (s : State) : State :=
  { s with clk :=
      if s.clk.bypass then { s.clk with pllLock := false }
      else { s.clk with pllLock := false, bypass := true, carry := elapsed * 3 / 50, pattern := 0 } }

/-- DOZE_COMMIT (R88, R90): the PLL stops, which is no loss of lock, and the links go DARK by order. -/
def execDozeCommit (elapsed : Nat) (s : State) : Out :=
  .next (commitPoint .doze (fun s =>
    let s := entryOver s
    let s := { s with power := { s.power with
      state := .doze, asleep := if isManager s then workerList s else [] } }
    palNap (irqSet irqClock (toXin elapsed (linksOrdered s)))) s)

/-- SUP_EN falls and the core is held in reset with its supply off, so that everything volatile is lost: ports and links
are off, and the bus is released (R70, R88, R94, R544). -/
def standbyDown (s : State) : State :=
  let s := resetPD true s
  { s with
    standby := { s.standby with supEn := false }
    power := { s.power with core := .standby, state := .standby, pgMet := false } }

/-- STANDBY_COMMIT (R90, R94, R120): once the session word reads CLOSED, SUP_EN falls. Until it does, its program is
requested: CLOSED is programmed just before, in request order with every other program (R124, R374). -/
def execStandbyCommit (s : State) : Out :=
  .next (commitPoint .standby (fun s =>
    if s.nv.session == .closed && s.nv.prog.isEmpty then standbyDown s
    else if s.nv.prog.contains (.session false) then s
    else progReq (.session false) s) s)

/-- STANDBY_EXIT_TIMEOUT (R94). -/
def execStandbyExitTimeout (s : State) : Out :=
  .next (onlyIf (s.power.core == .standby && s.standby.exiting.isSome) (fun s =>
    { s with standby := { s.standby with supEn := false, wakeFail := true, exiting := none } }) s)

/-- POWER_ORDER_TIMEOUT (R95). -/
def execPowerOrderTimeout (node : BitVec 4) (s : State) : Out :=
  .next (onlyIf (running s && s.power.ordersOut.contains node) (fun s =>
    cancelEntry (logRec .powerOrderTimeout
      [BitVec.ofNat 8 node.toNat, BitVec.ofNat 8 ((s.power.entry.map Sleep.num).getD 0)] s)) s)

/-! ## Supplies and resets from outside -/

/-- The part stops as after a trip (R85): the program operation in flight ends or is cut short, the bus is released, and
the standby domain latches the source (R120). -/
def tripStop (src : TripSrc) (cut : ProgEnd) (s : State) : State :=
  let s := progNone (progCut cut s)
  { s with
    power := { s.power with core := .stopped, pgMet := false }
    standby := { s.standby with tripLatch := some src }
    hbu := { s.hbu with
      breq := false, tenure := none, access := none, heldCycle := []
      aliases := s.hbu.aliases.map fun a => { a with pioWait := [] } } }

/-- The levels meet a source of trips (R84): VCORE below the trip level of VPF_SEL, within its tolerance; PFAIL_N low where
it counts; VIO_18 absent; VSTBY below 0.80 V. The loss of XIN is no trip of this table (R107). -/
def tripMet (src : TripSrc) (sup : Supplies) (s : State) : Bool :=
  match src with
  | .vcore => decide (sup.vcoreMv < tripMv s.power.vpfSel)
  | .pfail => s.power.pfailPinEn && !sup.pfailPin
  | .vio18 => !sup.vio18
  | .vstby => !sup.vstby
  | .xin => false

/-- POWER_FAIL_TRIP (R84, R85): the source, the supply levels it leaves, and whether the program operation in flight
ends under hold-up, as it does on a board that meets R30. -/
def execPowerFailTrip (src : TripSrc) (sup : Supplies) (cut : ProgEnd) (s : State) : Out :=
  .next (onlyIf (running s && tripMet src sup s) (fun s =>
    tripStop src cut { s with power := { s.power with sup := sup } }) s)

/-- The core enters a class P reset. -/
def enterP (s : State) : State :=
  let s := resetPD true s
  { s with power := { s.power with core := .inResetP } }

/-- POWER_ON (R112): VCORE, and with `vstby` VSTBY too, rises from below its reset level; a VSTBY that rises brings the
standby domain up at its reset values (R98). -/
def execPowerOn (sup : Supplies) (vstby : Bool) (s : State) : Out :=
  .next (onlyIf (s.power.core == .off) (fun s =>
    let s := if vstby then
        { s with standby := { levelLatch := none, restartCount := 0, wakePinEn := true, supEn := true } } else s
    let s := enterP s
    { s with
      power := { s.power with sup := sup, pgMet := false, fromBelow := true }
      clk := { s.clk with xinOk := false } }) s)

/-- SUPPLY_BELOW_RESET_LEVEL (R84, R86, R544): the part is off, a running one through a trip; the standby domain loses
what it keeps with VSTBY. In STANDBY the core's supply is down anyway. -/
def execSupplyBelowResetLevel (vstby : Bool) (sup : Supplies) (cut : ProgEnd) (s : State) : Out :=
  let s := { s with power := { s.power with sup := sup } }
  let s := if running s then tripStop (if vstby then .vstby else .vcore) cut s else s
  if vstby then
    .next { s with
      power := { s.power with core := .off, state := .off, pgMet := false }
      standby := { levelLatch := none, restartCount := 0, supEn := false } }
  else
    .next (onlyIf (s.power.core != .standby && s.power.core != .off) (fun s =>
      { s with power := { s.power with core := .off, state := .off, pgMet := false } }) s)

/-- The power-good conditions that the levels of supplies and pins decide (R82). -/
def supplyGood (sup : Supplies) (s : State) : Bool :=
  sup.vstby && decide (releaseMv s.power.vpfSel < sup.vcoreMv) && sup.vioH && sup.vio18
    && (sup.pfailPin || !s.power.pfailPinEn)

/-- POWER_GOOD_MET (R82, R86, R94), where the levels meet power-good: a tripped part restarts, and a STANDBY exit goes on, through a class P reset; a
class P or D reset may end. -/
def execPowerGoodMet (sup : Supplies) (s : State) : Out :=
  let met (s : State) : State :=
    { s with power := { s.power with sup := sup, pgMet := true }, clk := { s.clk with xinOk := true } }
  .next (onlyIf (supplyGood sup s) (fun s => match s.power.core with
    | .off | .running => s
    | .inResetP | .inResetD => met s
    | .stopped => met (enterP s)
    | .standby => (match s.standby.exiting with
      | none => s
      | some src => met (enterP { s with standby := { s.standby with wakeSrc := src } }))) s)

/-- POWER_GOOD_COUNT_RESTART (R82): a condition is lost before the part runs; nothing is latched. -/
def execPowerGoodCountRestart (sup : Supplies) (s : State) : Out :=
  .next (onlyIf (s.power.core != .running && s.power.core != .off) (fun s =>
    { s with power := { s.power with sup := sup, pgMet := false } }) s)

/-- The core enters a class D reset (R112); a class P reset under way goes on. -/
def enterD (cut : ProgEnd) (s : State) : State :=
  if !running s then s
  else
    let s := resetPD false (progCut cut s)
    { s with power := { s.power with core := .inResetD } }

/-- RESET_N_LOW (R112); `cut`: what becomes of the program operation in flight. -/
def execResetNLow (cut : ProgEnd) (s : State) : Out := .next (enterD cut s)

/-- RESET_END (R72, R119, R120, R126, R128): the straps are sampled, RST_CAUSE and the RESTART note are written, and the
restart path runs its stage 2. -/
def execResetEnd (straps : Straps) (s : State) : Out :=
  .next (onlyIf ((s.power.core == .inResetP || s.power.core == .inResetD) && s.power.pgMet) (fun s =>
    let prev := s.standby.levelLatch
    let s := { s with
      power := { s.power with core := .running }
      restart := { s.restart with straps := straps, strapNow := straps, strapLogged := false } }
    stageTwo (restartWrite .resetPin prev s)) s)

/-- A bank's presence as PWR_STAT shows it. -/
def bankShow (b : Bank) (on : Bool) (s : State) : State :=
  let p := s.power.sup
  let p : Supplies := match b with
    | .h => { p with vioH := on }
    | .b18 => { p with vio18 := on }
    | .b33 => { p with vio33 := on }
    | .sn _ => p
    | .a => { p with vioA := on }
  { s with power := { s.power with sup := p } }

/-- BANK_ABSENT (R69): bank H holds the part in a class D reset, bank 18 is a power failure, without bank 33 every SDn_CD_N
is sampled high from the next TICK on and no SDn_PWR_EN is driven, and the loss of bank A is noted; bank Sn's loss
reaches the part through the card. -/
def execBankAbsent (b : Bank) (cut : ProgEnd) (s : State) : Out :=
  let s := bankShow b false s
  match b with
  | .h => .next { enterD cut s with power := { (enterD cut s).power with pgMet := false } }
  | .b18 => .next (onlyIf (running s) (tripStop .vio18 cut) s)
  | .b33 | .sn _ => .next s
  | .a => .next (onlyIf (running s) (fun s => logRec .bankAbsent [supplyBits s] s) s)

/-- BANK_RETURN (R69). -/
def execBankReturn (b : Bank) (s : State) : Out := .next (bankShow b true s)

/-! ## VPF_SEL (R87) -/

/-- A write of VPF_SEL: refused where the code is reserved or its release level lies above VCORE. -/
def vpfWrite (code : BitVec 3) (s : State) : State :=
  if code.toNat < 6 ∧ releaseMv code ≤ s.power.sup.vcoreMv then { s with power := { s.power with vpfSel := code } }
  else logRec .vpfRefused [BitVec.ofNat 8 code.toNat, supplyBits s] s

/-! ## Clocks (R99 to R107) -/

/-- Lock is lost or the PLL stopped: the links go DARK (R469). -/
def ringDark (s : State) : State := linkDown true .dark (linkDown false .dark s)

/-- The restart path is interrupted in stages 4 to 7 and waits at stage 3: the program operation in flight ends, or is cut
short, and what the stages had built is dropped (R596). -/
def pathInterrupt (cut : ProgEnd) (s : State) : State :=
  if s.restart.level == .level0 && 4 ≤ s.restart.stage.val && !s.restart.nvcfgLost then
    let s := stagesDrop (progCut cut s)
    { s with restart := { s.restart with
        stage := 3, deadline := false, skbFault := false, canvasFault := false } }
  else s

/-- A write of PLL_EN (R100, R101, R596): the PLL starts; it stops at LEVEL0 alone, which interrupts the path, and
elsewhere the write is noted. The core moves to XIN at the next TICK boundary. -/
def pllWrite (on : Bool) (s : State) : State :=
  if on then (if s.clk.pllEn then s else pllStart s)
  else if s.restart.level != .level0 then logRec .pllStopRefused [BitVec.ofNat 8 s.restart.level.num] s
  else pathInterrupt .ends { s with clk := { s.clk with pllEn := false, lostLock := false } }

/-- At a TICK boundary the core moves to CCLK of a PLL that has locked, or to XIN where a stop was accepted, and then that
PLL stops (R100, R101). -/
def clockMove (s : State) : State :=
  if !s.clk.pllLock then s
  else if s.clk.pllEn then { s with clk := { s.clk with bypass := false } }
  else ringDark (irqSet irqClock (toXin 0 s))

/-- Host service stops as R27 and R543 give: queues are DISABLED, studios and layers idle, and nothing more is posted. -/
def serviceDown (s : State) : State :=
  let s := { palDown (studiosDown s) with dma := { en := s.dma.en }, queues := {}, palette := {} }
  { s with hbu := { s.hbu with tenure := none, access := none, breq := false, heldCycle := [] } }

/-- What the loss of lock does by the level at which it falls (R27, R543, R596): the core moves to XIN, and the part falls to
LEVEL0 or the restart path is interrupted. -/
def lockFall (old : Level) (elapsed : Nat) (s : State) : State :=
  let s := toXin elapsed s
  match old with
  | .failstop => s
  | .level0 => pathInterrupt .ends (ringDark s)
  | .level1 | .level2 =>
    let s := ringDark s
    let s := serviceDown (setLevel .level0 s)
    { s with
      power := { s.power with entry := none, ordersOut := [], ordered := none, orderDue := none, asleep := [] }
      restart := { s.restart with pllRestart := some old, stage := 3 } }

/-- The PLL loses lock (R27, R572, R596): a program operation in flight ends, or is cut short; the loss is counted and
logged, and the part falls. -/
def lockLoss (elapsed : Nat) (cut : ProgEnd) (s : State) : State :=
  let old := s.restart.level
  let s := if old == .failstop then s else progCut cut s
  let s := irqSet irqClock { s with clk := { s.clk with lostLock := true, lockLossCount := ctrInc s.clk.lockLossCount } }
  lockFall old elapsed (logRec .pllLost [s.clk.lockLossCount, BitVec.ofNat 8 old.num] s)

/-- XIN_LOSS (R107, R572): of a core on CCLK the PLL loses lock, and R27 applies without a record; in every case the part
stops as after a trip. -/
def execXinLoss (cut : ProgEnd) (s : State) : Out :=
  .next (onlyIf (running s) (fun s =>
    let s := progNone (progCut cut (irqSet irqClock { s with clk := { s.clk with xinOk := false } }))
    tripStop .xin .ends (if s.clk.bypass then s else lockFall s.restart.level 0 s)) s)

/-- PLL_LOCK_LOSS (R572): in RUN and NAP; `elapsed` counts the CCLK periods of the TICK step in progress. -/
def execPllLockLoss (elapsed : Nat) (cut : ProgEnd) (s : State) : Out :=
  .next (onlyIf (running s && s.clk.pllLock) (lockLoss elapsed cut) s)

/-- PLL_LOCK_RETRY (R572): the PLL tries again; PLL_LOCK tells that it has locked. -/
def execPllLockRetry (s : State) : Out := .next s

/-- XCLK_SEL_CHANGE (R103): between transactions the port takes the selected clock. -/
def execXclkSelChange (s : State) : Out :=
  .next (onlyIf (running s) (fun s => { s with clk := { s.clk with xclkAct := s.clk.xclkSel } }) s)

/-- TICK_STEP (R7, R100, R101, R105, R109, R318, R561): the counter steps, the core moves between its clocks, the live
levels are as the pins give them, and every SDn_CD_N is sampled; a port whose power-on waits for its 10 ms counts them
(R319). -/
def execTickStep (pins : PinLevels) (s : State) : Out :=
  .next (onlyIf (running s) (fun s =>
    let s := { s with
      clk := { s.clk with
        tick := ctrInc s.clk.tick, carry := 0, decayed := false, pattern := if s.clk.bypass then s.clk.pattern + 1 else s.clk.pattern }
      power := { s.power with sup := { s.power.sup with
        vcoreMv := pins.vcoreMv, pfailPin := pins.pfail, wakePin := pins.wake } }
      hbu := { s.hbu with
        busyIn := pins.busy, gnt := pins.gnt, breqHold := false, tenure := if pins.gnt then s.hbu.tenure else none }
      log := { s.log with thisTick := [] } }
    let s := clockMove s
    busRefresh ((List.finRange 8).foldl (fun s p => onlyIf (unitsUp s) (portTick p) (sampleCd p (pins.cd.getLsbD p.val) s)) s)) s)

/-- The seven strap levels as ROLE_STAT[6:0] has them (R158). -/
def Straps.num (x : Straps) : Nat :=
  (if x.hold then 64 else 0) + (if x.ctlmir then 32 else 0) + 8 * x.width.toNat + 2 * x.dialect.toNat
    + (if x.role then 1 else 0)

/-- STRAP_CHECK (R74). -/
def execStrapCheck (levels : Straps) (s : State) : Out :=
  .next (onlyIf (running s && s.clk.tick.toNat % 100 == 0) (fun s =>
    let s := { s with restart := { s.restart with strapNow := levels } }
    if levels == s.restart.straps || s.restart.strapLogged then s
    else logRec .strapChanged [BitVec.ofNat 8 (Straps.num s.restart.straps), BitVec.ofNat 8 (Straps.num levels)]
      { s with restart := { s.restart with strapLogged := true } }) s)

end Sys2Proof.Machine
end

