-- ==== Sys2Proof/Machine/Regs.lean ====
section
/-! DEFINITION. The direct registers: what each reads as, what a write of each does, and the checks and arms of an access
through a control path (R9, R108 to R111, R116 to R119, R143 to R181, R208, R209, R259, R260, R393, R452, R562, R567 to
R570). -/

namespace Sys2Proof.Machine

/-! ## What each register reads as -/

/-- ROLE_STAT (R158): FABRIC_SET tells of the chosen NV copy. -/
def roleStatWord (s : State) : Word :=
  fld 28 s.ident.node.toNat ||| flg 27 ((nvPresent s).fabricId != 0) ||| flg 16 (s.restart.strapNow != s.restart.straps)
    ||| fld 0 (Straps.num s.restart.straps)

/-- PWR_CTRL (R108). -/
def pwrCtrlWord (s : State) : Word :=
  fld 16 s.standby.wakeTime.toNat ||| flg 15 s.standby.wakePinEn ||| fld 12 s.power.vpfSel.toNat
    ||| flg 11 s.power.pfailPinEn ||| fld 4 s.power.autoNap.toNat

/-- WAKE_SRC codes (R109). -/
def WakeSrc.num : WakeSrc → Nat
  | .none => 0 | .wakeN => 1 | .timer => 2

/-- REQ_RESULT codes (R109). -/
def ReqResult.num : ReqResult → Nat
  | .none => 0 | .entering => 1 | .done => 2 | .cancelled => 3 | .refusedBusy => 4 | .refusedLevel => 5
  | .refusedCode => 6 | .refusedArm => 7 | .refusedFabric => 8

/-- PWR_STAT.STATE codes (R109). -/
def PowerState.num : PowerState → Nat
  | .run => 0 | .nap => 1 | .doze => 2 | .standby | .off => 0

/-- PWR_STAT (R109). -/
def pwrStatWord (s : State) : Word :=
  fld 26 s.standby.wakeSrc.num ||| flg 25 s.standby.wakeFail ||| fld 20 s.power.reqResult.num
    ||| fld 8 (supplyBits s).toNat ||| fld 0 s.power.state.num

/-- CLK_CTRL (R110). -/
def clkCtrlWord (s : State) : Word :=
  fld 22 s.clk.xclkSel.toNat ||| flg 15 s.clk.pllEn ||| flg 14 s.clk.xinExt

/-- CLK_STAT (R111). -/
def clkStatWord (s : State) : Word :=
  flg 31 s.clk.pllLock ||| flg 30 s.clk.bypass ||| flg 29 s.clk.xinOk ||| fld 24 s.clk.xclkAct.toNat
    ||| fld 16 s.clk.lockLossCount.toNat ||| fld 0 s.clk.lastLockTime.toNat

/-- FAULT_SUM (R567). -/
def faultSumWord (s : State) : Word :=
  fld 24 s.log.lastBb.toNat
    ||| (List.finRange 4).foldl (fun w a => w ||| flg (16 + a.val) ((arrGet a s).state == .offline)) 0
    ||| fld 8 s.log.studioStop.toNat ||| fld 0 s.log.warns.toNat

/-- LOG_HEAD (R562). -/
def logHeadWord (s : State) : Word :=
  fld 16 s.log.seqNext.toNat ||| fld 8 s.log.lost.toNat ||| fld 0 (s.log.seqNext.toNat % 256)

/-- WHISTLE's COMMIT_PENDING and WSEQ as a control path reads them (R213). -/
def whistleWord (p : Path) (drained : Nat) (s : State) : Word :=
  flg 31 (commitOn p s) ||| fld 16 drained
    ||| fld 0 (match p with | .cport => s.cport.wseq.toNat | .mirror => s.hbu.mirWseq.toNat)

/-- LEDGER_SUM (R452). -/
def ledgerSumWord (s : State) : Word :=
  flg 31 s.ledger.fail ||| fld 26 s.ledger.failPool.toNat ||| fld 24 s.ledger.failKind.toNat
    ||| fld 0 s.ledger.auditTick.toNat

/-- HB_CFG (R208). -/
def hbCfgWord (s : State) : Word :=
  let h := s.hbu
  flg 31 h.masterEn ||| flg 30 h.rdyEn ||| fld 24 h.pioWaitTicks.toNat ||| fld 16 h.gntTimeout.toNat
    ||| fld 8 h.tenureMax.toNat ||| fld 4 h.releaseGap.toNat

/-- The window answers (R182). -/
def windowLive (s : State) : Bool := running s && isManager s && atLevel2 s

/-- HB_STAT (R209). -/
def hbStatWord (s : State) : Word :=
  flg 31 (windowLive s) ||| flg 30 s.hbu.tenure.isSome ||| flg 29 s.hbu.breq ||| flg 28 s.hbu.gnt ||| flg 27 (s.hbu.busyIn || s.hbu.tenure.isSome)
    ||| fld 6 s.hbu.flags.toNat

/-- DMA_GSTAT (R260). -/
def dmaGstatWord (s : State) : Word :=
  flg 31 (!s.dma.waiting.isEmpty || s.dma.chans.toList.any (·.cur.isSome))
    ||| flg 30 (!s.dma.en && s.hbu.access.isNone)
    ||| flg 23 s.dma.faultSeen ||| flg 22 s.dma.wbFaultSeen
    ||| (List.finRange 16).foldl (fun w c => w ||| flg c.val ((s.dma.chans.get c).state == .halted)) 0

/-- SKB_STAT (R393). -/
def skbStatWord (s : State) : Word :=
  flg 31 s.restart.skbFault ||| flg 30 s.skb.pause ||| flg 29 s.skb.forced ||| flg 28 s.skb.scanDone
    ||| fld 16 ((liveRecs s).length % 4096) ||| fld 0 (journalUsed s % 4096)

/-- What a direct register reads as through a path (R156); a write-only and a reserved offset read 0 (R9, R143). -/
def regRead (p : Path) (off : Nat) (s : State) : Word :=
  match off / 4 with
  | 0x00 => Config.chipId
  | 0x01 => fld 0 Config.revCode.toNat
  | 0x02 => roleStatWord s
  | 0x03 => svcLevelWord s
  | 0x04 => pwrCtrlWord s
  | 0x05 => pwrStatWord s
  | 0x06 => clkCtrlWord s
  | 0x07 => clkStatWord s
  | 0x09 => rstCauseWord s
  | 0x0A => irqStatWord s
  | 0x0B => flg 31 true ||| fld 16 s.log.irqMaskEn.toNat ||| fld 0 s.log.irqMaskCp.toNat
  | 0x0C => fld 16 s.log.irqRoute.toNat
  | 0x0D => faultSumWord s
  | 0x0E => logHeadWord s
  | 0x0F => fld 24 s.log.thresh.toNat ||| fld 0 s.log.tail.toNat
  | 0x10 => (pathGet p s).cur.sel
  | 0x11 => tblDataWord p s
  | 0x12 => tblStatWord p s
  | 0x14 => whistleWord p 0 s
  | 0x15 => ledgerSumWord s
  | 0x16 => hbCfgWord s
  | 0x17 => hbStatWord s
  | 0x18 => flg 31 s.dma.en
  | 0x19 => dmaGstatWord s
  | 0x1C => arrayRespWord p s
  | 0x1D => memberEvtWord s
  | 0x1E => ringStatWord s
  | 0x1F => ringCtrlWord s
  | 0x20 => palCtrlWord s
  | 0x21 => palStatWord s
  | 0x22 => skbStatWord s
  | 0x23 => skbCtrlWord s
  | 0x25 => studioStatWord s
  | 0x26 => s.clk.tick.truncate 32
  | 0x27 => (pathGet p s).tickHold
  | n => if 0x28 ≤ n then s.scratch.toList.getD (n - 0x28) 0 else 0

/-- A read of TICK_LO copies the high word into the path's holding register (R106). -/
def tickLoRead (p : Path) (l : Lanes) (s : State) : State :=
  if lane l 0 then pathPut p { pathGet p s with tickHold := (s.clk.tick >>> 32).truncate 32 } s else s

/-- A read of FAULT_SUM clears WARNS (R567). -/
def faultSumRead (l : Lanes) (s : State) : State :=
  if lane l 0 then { s with log := { s.log with warns := 0 } } else s

/-- The side effects of a read's enabled lanes (R147). -/
def regReadFx (p : Path) (off : Nat) (l : Lanes) (s : State) : State :=
  match off / 4 with
  | 0x0D => faultSumRead l s
  | 0x11 => tblDataRead p l s
  | 0x26 => tickLoRead p l s
  | _ => s

/-! ## What a write of each register does -/

/-- The enabled lanes cover bit `b`. -/
def laneOf (l : Lanes) (b : Nat) : Bool := lane l (b / 8)

/-- PWR_CTRL (R87, R89, R108, R147): the fields first, then the request. -/
def pwrCtrlWrite (l : Lanes) (w : Word) (armed : Bool) (s : State) : State :=
  let m := mergeLanes l (pwrCtrlWord s) w
  let s := { s with standby := { s.standby with wakeTime := m.extractLsb' 16 16, wakePinEn := bit m 15 } }
  let s := { s with power := { s.power with pfailPinEn := bit m 11, autoNap := m.extractLsb' 4 4 } }
  let s := if lane l 1 then vpfWrite (w.extractLsb' 12 3) s else s
  if lane l 0 then reqWrite (w.extractLsb' 0 3) armed s else s

/-- CLK_CTRL (R100, R101, R110). -/
def clkCtrlWrite (l : Lanes) (w : Word) (s : State) : State :=
  let m := mergeLanes l (clkCtrlWord s) w
  let s := { s with clk := { s.clk with xclkSel := m.extractLsb' 22 2, xinExt := bit m 14 } }
  if lane l 1 && bit w 15 != s.clk.pllEn then pllWrite (bit w 15) s else s

/-- RST_CTRL, its arm found (R117, R133): CTRL_RST alone, or the class M resets, or NV_CLEAR. -/
def rstCtrlWrite (w : Word) (s : State) : State :=
  if bit w 0 then { s with restart := { s.restart with ctrlRst := true } }
  else
    let s := onlyIf (discovering s) (portsReset (w.extractLsb' 16 8)) s
    if bit w 8 then nvClear s else s

/-- LOG_TAIL (R562). -/
def logTailWrite (p : Path) (l : Lanes) (w : Word) (s : State) : State :=
  let s := if lane l 3 then { s with log := { s.log with thresh := w.extractLsb' 24 8 } } else s
  if !lane l 0 then s
  else
    let new : Byte := w.extractLsb' 0 8
    let head : Byte := s.log.seqNext.truncate 8
    if (new - s.log.tail).toNat ≤ (head - s.log.tail).toNat then { s with log := { s.log with tail := new } }
    else logRec .logTailBad (BitVec.ofNat 8 (pathCode p) :: leBytes 4 w.toNat) s

/-- ARM (R148): a live arm, or none and a note. -/
def armWrite (p : Path) (w : Word) (s : State) : State :=
  let code : BitVec 16 := w.extractLsb' 0 16
  if w.extractLsb' 16 16 = ~~~ code then pathPut p { pathGet p s with arm := some ⟨code, 8⟩ } s
  else logRec .armMismatch (BitVec.ofNat 8 (pathCode p) :: leBytes 4 w.toNat) (pathPut p { pathGet p s with arm := none } s)

/-- HB_CFG (R208): without MASTER_EN the tenure ends, and an access under way faults at its next cycle (R202). -/
def hbCfgWrite (l : Lanes) (w : Word) (s : State) : State :=
  let m := mergeLanes l (hbCfgWord s) w
  accessBegun { s with hbu := { s.hbu with
    tenure := if bit m 31 then s.hbu.tenure else none
    masterEn := bit m 31, rdyEn := bit m 30, pioWaitTicks := m.extractLsb' 24 4, gntTimeout := m.extractLsb' 16 8
    tenureMax := m.extractLsb' 8 8, releaseGap := m.extractLsb' 4 4 } }

/-- A write of the enabled lanes of a direct register, its checks passed; `armed`: a STANDBY request found its arm. -/
def regWrite (p : Path) (off : Nat) (l : Lanes) (w : Word) (armed : Bool) (s : State) : State :=
  let ones := w &&& laneMask l
  match off / 4 with
  | 0x04 => pwrCtrlWrite l w armed s
  | 0x05 => if bit ones 25 then { s with standby := { s.standby with wakeFail := false } } else s
  | 0x06 => clkCtrlWrite l w s
  | 0x08 => rstCtrlWrite w s
  | 0x0A => { s with log := { s.log with irqStat := s.log.irqStat &&& ~~~ ones } }
  | 0x0B =>
    let m := mergeLanes l (regRead p 0x2C s) w
    { s with log := { s.log with irqMaskEn := m.extractLsb' 16 15, irqMaskCp := m.extractLsb' 0 8 } }
  | 0x0C =>
    let m := mergeLanes l (regRead p 0x30 s) w
    { s with log := { s.log with irqRoute := m.extractLsb' 16 15 } }
  | 0x0D => { s with log := { s.log with studioStop := s.log.studioStop &&& ~~~ (ones.extractLsb' 8 8) } }
  | 0x0F => logTailWrite p l w s
  | 0x10 => tblSelWrite p l w s
  | 0x11 => tblDataWrite p l w s
  | 0x13 => armWrite p w s
  | 0x16 => hbCfgWrite l w s
  | 0x17 => { s with hbu := { s.hbu with flags := s.hbu.flags &&& ~~~ (ones.extractLsb' 6 10) } }
  | 0x18 => dmaGctrlWrite l w s
  | 0x19 => { s with dma := { s.dma with
      faultSeen := s.dma.faultSeen && !bit ones 23, wbFaultSeen := s.dma.wbFaultSeen && !bit ones 22 } }
  | 0x1A => mgmtTake p (w.extractLsb' 0 8) s
  | 0x1B => arrayArgWrite p l w s
  | 0x1D => memberEvtClear ones s
  | 0x1F => ringCtrlWrite l w s
  | 0x20 => palCtrlWrite l w s
  | 0x21 => palStatWrite l w s
  | 0x23 => skbCtrlWrite l w s
  | 0x24 => studioRst (w.extractLsb' 0 8) s
  | 0x25 => onlyIf (unitsRun s) (studioDone (ones.extractLsb' 24 8)) s
  | n =>
    if 0x28 ≤ n && n < 0x30 then
      { s with scratch := s.scratch.set! (n - 0x28) (mergeLanes l (regRead p off s) w) }
    else s

/-! ## Checks and arms (R143 to R149) -/

/-- A complete frame or a mirror access begins: an arm that has lasted its eight ends (R149). -/
def armAge (p : Path) (s : State) : State :=
  let r := pathGet p s
  match r.arm with
  | none => s
  | some a => pathPut p { r with arm := if a.left = 0 then none else some { a with left := a.left - 1 } } s

/-- CPORT status codes (R143). -/
def csOk : Byte := 0x00
def csCrcBad : Byte := 0x01
def csBadOp : Byte := 0x02
def csBadAddr : Byte := 0x03
def csBadWidth : Byte := 0x04
def csBusy : Byte := 0x05
def csNotArmed : Byte := 0x06
def csNoResponse : Byte := 0x07

/-- The full-width registers (R145): RST_CTRL, TBL_SEL, TBL_DATA, ARM, WHISTLE, ARRAY_CMD, STUDIO_RST. -/
def fullWidth (off : Nat) : Bool := [0x20, 0x40, 0x44, 0x4C, 0x50, 0x68, 0x90].contains off

/-- The arm that a WRITE needs, and whether the write is refused without it (R117, R149): none where it needs no arm;
a code of 0 where no arm can make it good. -/
def armNeed (off : Nat) (l : Lanes) (w : Word) : Option (BitVec 16 × Bool) :=
  if off = 0x20 then
    let rst := bit w 0 || w.extractLsb' 16 8 != (0 : Byte)
    if rst && bit w 8 then some (0, true)
    else if rst then some (0x00C5, true)
    else if bit w 8 then some (0x00CE, true)
    else none
  else if off = 0x68 then (if cmdArmed (w.extractLsb' 0 8) then some (BitVec.ofNat 16 (bits w 7 0), true) else none)
  else if off = 0x10 && lane l 0 && bits w 2 0 == 4 then some (0x00F4, false)
  else none

/-- The path is turned away whatever it asks (R144): a CTRL_RST waits, or on the CPORT a whistle drains. -/
def pathBusy (p : Path) (s : State) : Bool := s.restart.ctrlRst || (p == .cport && s.cport.whistling)

/-- The target cannot take a WRITE now (R144, R170, R176). -/
def writeBusy (p : Path) (off : Nat) (s : State) : Bool :=
  pathBusy p s || ((off == 0x40 || off == 0x44) && commitOn p s) || (off == 0x68 && s.mgmt.busy)
    || (p == .cport && s.power.waking)

/-- Checks 3 to 6 of R143 of a WRITE through a path: its status, whether it found the arm it needs, and the state with
that arm spent (R149); the target's BUSY comes last. -/
def writeCheck (p : Path) (off : Nat) (l : Lanes) (w : Word) (s : State) : Byte × Bool × State :=
  if 0xC0 ≤ off || off % 4 != 0 then (csBadAddr, false, s)
  else if l == 0 || (fullWidth off && l != 0xF) then (csBadWidth, false, s)
  else
    let busy : Byte := if writeBusy p off s then csBusy else csOk
    match armNeed off l w with
    | none => (busy, false, s)
    | some (code, refuses) =>
      let ok := ((pathGet p s).arm.map (·.code)) == some code && code != 0
      let s := pathPut p { pathGet p s with arm := none } s
      if refuses && !ok then (csNotArmed, ok, s) else (busy, ok, s)

/-- A WRITE that no check refuses is applied, once a wake that it causes has ended (R91, R144). A READ or a NOP sent during
a wake from DOZE executes before the held write (DESIGN CHOICE, log entry 123: R144 applies the write before any later
frame, and executes READ and NOP frames in every power state). -/
def writeApply (p : Path) (off : Nat) (l : Lanes) (w : Word) (ok : Bool) (s : State) : State :=
  match s.power.state with
  | .doze => { s with power := { s.power with waking := true, wakeWrite := some (p, BitVec.ofNat 16 off, l, w, ok) } }
  | .run | .nap | .standby | .off => regWrite p off l w ok (wake s)

/-- A WRITE through a path: its status and what it does. -/
def pathWrite (p : Path) (off : Nat) (l : Lanes) (w : Word) (s : State) : Byte × State :=
  let (st, ok, s) := writeCheck p off l w s
  (st, if st == csOk then writeApply p off l w ok s else s)

/-- ARM_TIMEOUT (R149). -/
def execArmTimeout (p : Path) (s : State) : Out := .next (pathPut p { pathGet p s with arm := none } s)

/-! ## The mirror (R152, R194) -/

/-- The mirror answers (R152). -/
def mirrorLive (s : State) : Bool := windowLive s && s.restart.straps.ctlmir

/-- A mirror write that is ignored, with the CPORT status it would have had; the offset is that in the window. -/
def mirrorRefused (status : Byte) (off : Nat) (s : State) : State :=
  logRec .mirrorRefused (status :: leBytes 2 (0x8000 + off)) s

/-- Registers whose writable fields are all W1C: a narrow mirror write of them is ignored (R152, R194). -/
def narrowIgnored (off : Nat) : Bool := [0x14, 0x28, 0x34, 0x5C, 0x64, 0x74, 0x84, 0x94].contains off

/-- A narrow write that is ignored (R194): the alias, the window offset and the lanes. -/
def narrowNote (al : Nat) (off : Nat) (l : Lanes) (s : State) : State :=
  hbFlag hbNarrow (logRec .narrowWrite (BitVec.ofNat 8 al :: leBytes 2 off ++ [BitVec.ofNat 8 l.toNat]) s)

/-- A mirror write takes effect (R152). -/
def mirrorWrite (off : Nat) (l : Lanes) (w : Word) (s : State) : State :=
  if narrowIgnored off && l != 0xF then narrowNote 0 (0x8000 + off) l s
  else
    let (r, s) := pathWrite .mirror off l w s
    if r == csOk then s else mirrorRefused r off s

/-! ## Register operations through a path -/

/-- A path is there: the CPORT out of reset, the mirror where it answers. -/
def pathLive (p : Path) (s : State) : Bool :=
  match p with
  | .cport => running s
  | .mirror => mirrorLive s

/-- A register write through a path, apart from the frame or bus cycle that carries it, for which it counts (R149). -/
def viaPath (p : Path) (off : Nat) (l : Lanes) (w : Word) (s : State) : State :=
  if !pathLive p s then s
  else match p with
    | .cport => (pathWrite .cport off l w (armAge .cport s)).2
    | .mirror => onlyIf (!s.power.waking) (fun s => mirrorWrite off l w (armAge .mirror s)) s

/-- A register read's side effects through a path, apart from the frame or bus cycle that carries it. -/
def readVia (p : Path) (f : State → State) (s : State) : State := onlyIf (pathLive p s) (fun s => f (armAge p s)) s

/-- A full-width register write through a path. -/
def viaPathFull (p : Path) (off : Nat) (w : Word) (s : State) : State := viaPath p off 0xF w s

/-- REGISTER_WRITE (R9, R147). -/
def execRegisterWrite (p : Path) (off : BitVec 16) (l : Lanes) (w : Word) (s : State) : Out :=
  .next (viaPath p off.toNat l w s)

/-- ARM_WRITE (R148). -/
def execArmWrite (p : Path) (value : Word) (s : State) : Out := .next (viaPathFull p 0x4C value s)

/-- CTRL_RST (R117, R118). -/
def execCtrlRst (p : Path) (s : State) : Out := .next (viaPathFull p 0x20 1 s)

/-- PORT_RST (R117, R127). -/
def execPortRst (p : Path) (mask : Byte) (s : State) : Out := .next (viaPathFull p 0x20 (fld 16 mask.toNat) s)

/-- NV_CLEAR (R117, R133). -/
def execNvClear (p : Path) (s : State) : Out := .next (viaPathFull p 0x20 0x100 s)

/-- A write of REQ alone: lane 0, with AUTO_NAP as it stands. -/
def viaReq (p : Path) (req : Nat) (s : State) : State :=
  viaPath p 0x10 1 (fld 4 s.power.autoNap.toNat ||| fld 0 req) s

/-- REQ_RUN (R545). -/
def execReqRun (p : Path) (s : State) : Out := .next (viaReq p 1 s)

/-- REQ_NAP (R89). -/
def execReqNap (p : Path) (s : State) : Out := .next (viaReq p 2 s)

/-- REQ_DOZE (R89, R95). -/
def execReqDoze (p : Path) (s : State) : Out := .next (viaReq p 3 s)

/-- REQ_STANDBY (R89, R95, R149). -/
def execReqStandby (p : Path) (s : State) : Out := .next (viaReq p 4 s)

/-- VPF_SEL_WRITE (R87): lane 1, with its other fields as they stand. -/
def execVpfSelWrite (p : Path) (code : BitVec 3) (s : State) : Out :=
  .next (viaPath p 0x10 2 (flg 15 s.standby.wakePinEn ||| flg 11 s.power.pfailPinEn ||| fld 12 code.toNat) s)

/-- PLL_START (R100): lane 1 of CLK_CTRL, with XIN_EXT as it stands. -/
def execPllStart (p : Path) (s : State) : Out := .next (viaPath p 0x18 2 (flg 15 true ||| flg 14 s.clk.xinExt) s)

/-- PLL_STOP (R101). -/
def execPllStop (p : Path) (s : State) : Out := .next (viaPath p 0x18 2 (flg 14 s.clk.xinExt) s)

/-- TICK_LO_READ (R106). -/
def execTickLoRead (p : Path) (l : Lanes) (s : State) : Out := .next (readVia p (tickLoRead p l) s)

/-- FAULT_SUM_READ (R567). -/
def execFaultSumRead (p : Path) (l : Lanes) (s : State) : Out := .next (readVia p (faultSumRead l) s)

/-- LOG_TAIL_WRITE (R562). -/
def execLogTailWrite (p : Path) (l : Lanes) (w : Word) (s : State) : Out := .next (viaPath p 0x3C l w s)

/-! ## Tables through a path (R164 to R173) -/

/-- TBL_SEL_WRITE (R164, R165). -/
def execTblSelWrite (p : Path) (w : Word) (s : State) : Out := .next (viaPathFull p 0x40 w s)

/-- TBL_DATA_READ (R166). -/
def execTblDataRead (p : Path) (l : Lanes) (s : State) : Out := .next (readVia p (tblDataRead p l) s)

/-- The cursor stands on the last word of an entry, so that a write of TBL_DATA commits. -/
def atLast (p : Path) (s : State) : Bool := atLastWord p (pathGet p s).cur.space.toNat s

/-- TBL_DATA_STAGE (R167): a word that is not the last. -/
def execTblDataStage (p : Path) (w : Word) (s : State) : Out := .next (onlyIf (!atLast p s) (viaPathFull p 0x44 w) s)

/-- The last-word write of an entry of a space commits it (R167, R169). -/
def commitVia (p : Path) (space : Nat) (w : Word) (s : State) : State :=
  onlyIf (atLastWord p space s) (viaPathFull p 0x44 w) s

/-- MEMBER_COMMIT (R344). -/
def execMemberCommit (p : Path) (w : Word) (s : State) : Out := .next (commitVia p 0x01 w s)

/-- ARRAY_COMMIT (R365). -/
def execArrayCommit (p : Path) (w : Word) (s : State) : Out := .next (commitVia p 0x02 w s)

/-- VOLUME_COMMIT (R370). -/
def execVolumeCommit (p : Path) (w : Word) (s : State) : Out := .next (commitVia p 0x03 w s)

/-- STUDIO_COMMIT (R456). -/
def execStudioCommit (p : Path) (w : Word) (s : State) : Out := .next (commitVia p 0x04 w s)

/-- QUEUE_COMMIT (R268, R269). -/
def execQueueCommit (p : Path) (w : Word) (s : State) : Out := .next (commitVia p 0x05 w s)

/-- DMA_CHAN_COMMIT (R262). -/
def execDmaChanCommit (p : Path) (w : Word) (s : State) : Out := .next (commitVia p 0x06 w s)

/-- The layer whose entry the cursor stands in, and RUN as staged. -/
def stagedLayer (p : Path) (s : State) : Fin 32 × Bool :=
  let c := (pathGet p s).cur
  (Fin.ofNat 32 c.entry.toNat, bit (wordAt c.staged 0) 31)

/-- LAYER_START (R446, R503): RUN = 1 for an IDLE or STOPPED layer. -/
def execLayerStart (p : Path) (w : Word) (s : State) : Out :=
  let (i, run) := stagedLayer p s
  .next (onlyIf (run && !(layGet i s).state.busy) (commitVia p 0x09 w) s)

/-- LAYER_STOP (R503): RUN = 0 for a layer that runs. -/
def execLayerStop (p : Path) (w : Word) (s : State) : Out :=
  let (i, run) := stagedLayer p s
  .next (onlyIf (!run && (layGet i s).state.busy) (commitVia p 0x09 w) s)

/-- LAYER_COMMIT (R537): any other. -/
def execLayerCommit (p : Path) (w : Word) (s : State) : Out :=
  let (i, run) := stagedLayer p s
  .next (onlyIf (run == (layGet i s).state.busy) (commitVia p 0x09 w) s)

/-- BUS_COMMIT (R538). -/
def execBusCommit (p : Path) (w : Word) (s : State) : Out := .next (commitVia p 0x0A w s)

/-- AUPORT_COMMIT (R539). -/
def execAuportCommit (p : Path) (w : Word) (s : State) : Out := .next (commitVia p 0x0B w s)

/-- REFEREE_COMMIT (R449). -/
def execRefereeCommit (p : Path) (w : Word) (s : State) : Out := .next (commitVia p 0x0D w s)

/-- HOST_REGION_COMMIT (R205). -/
def execHostRegionCommit (p : Path) (w : Word) (s : State) : Out := .next (commitVia p 0x0F w s)

/-- RO_SPACE_COMMIT (R169): LEDGER, LOG, LOCK, RING_NODE, SKB_DIR, COUNTERS, CANVAS_PEEK or NV_RAW. -/
def execRoSpaceCommit (p : Path) (w : Word) (s : State) : Out :=
  .next (onlyIf ([0x07, 0x08, 0x0C, 0x0E, 0x10, 0x11, 0x20, 0x21].any fun n => atLastWord p n s) (viaPathFull p 0x44 w) s)

/-! ## Management commands through a path (R174 to R178) -/

/-- ARRAY_ARG_WRITE (R175). -/
def execArrayArgWrite (p : Path) (l : Lanes) (w : Word) (s : State) : Out := .next (viaPath p 0x6C l w s)

/-- A write of a CODE to ARRAY_CMD. -/
def command (p : Path) (code : Nat) (s : State) : State := viaPathFull p 0x68 (fld 0 code) s

/-- ASSEMBLE (R361). -/
def execAssemble (p : Path) (s : State) : Out := .next (command p 0x01 s)

/-- FORCE_ASSEMBLE (R134, R415). -/
def execForceAssemble (p : Path) (s : State) : Out := .next (command p 0x02 s)

/-- CREATE_ARRAY (R360). -/
def execCreateArray (p : Path) (s : State) : Out := .next (command p 0x03 s)

/-- DELETE_ARRAY (R363). -/
def execDeleteArray (p : Path) (s : State) : Out := .next (command p 0x04 s)

/-- CREATE_VOLUME (R367). -/
def execCreateVolume (p : Path) (s : State) : Out := .next (command p 0x05 s)

/-- DELETE_VOLUME (R368). -/
def execDeleteVolume (p : Path) (s : State) : Out := .next (command p 0x06 s)

/-- SET_OWNER (R459). -/
def execSetOwner (p : Path) (s : State) : Out := .next (command p 0x07 s)

/-- ADD_BENCH (R341). -/
def execAddBench (p : Path) (s : State) : Out := .next (command p 0x08 s)

/-- REMOVE_BENCH (R341). -/
def execRemoveBench (p : Path) (s : State) : Out := .next (command p 0x09 s)

/-- RETIRE_MEMBER (R343). -/
def execRetireMember (p : Path) (s : State) : Out := .next (command p 0x0A s)

/-- START_RESTORATION (R401). -/
def execStartRestoration (p : Path) (s : State) : Out := .next (command p 0x0B s)

/-- COPY_BACK (R405). -/
def execCopyBack (p : Path) (s : State) : Out := .next (command p 0x0C s)

/-- START_INSPECTION (R407). -/
def execStartInspection (p : Path) (s : State) : Out := .next (command p 0x0D s)

/-- START_REPAINT (R421). -/
def execStartRepaint (p : Path) (s : State) : Out := .next (command p 0x0E s)

/-- ABORT_REPAINT (R428). -/
def execAbortRepaint (p : Path) (s : State) : Out := .next (command p 0x0F s)

/-- PAUSE_BACKGROUND (R409, R427). -/
def execPauseBackground (p : Path) (s : State) : Out := .next (command p 0x10 s)

/-- RESUME_BACKGROUND (R409, R427). -/
def execResumeBackground (p : Path) (s : State) : Out := .next (command p 0x11 s)

/-- STOP_ARRAY (R362). -/
def execStopArray (p : Path) (s : State) : Out := .next (command p 0x12 s)

/-- ARRAY_CMD_BAD_CODE (R178): a CODE that R177 does not define. -/
def execArrayCmdBadCode (p : Path) (code : Byte) (s : State) : Out :=
  .next (onlyIf (!cmdDefined code) (command p code.toNat) s)

end Sys2Proof.Machine
end

