-- ==== Sys2Proof/Machine/Cport.lean ====
section
/-! DEFINITION. The control port: complete frames, their checks and responses, the response pipeline with its replay, and
the whistle's start (R135 to R151). -/

namespace Sys2Proof.Machine

/-! ## Responses (R141, R142) -/

/-- The ten bytes of a response, its CRC last (R141). -/
def Resp.bytes (r : Resp) : List Byte :=
  let l := [r.status, r.opcode, r.addrHi, r.addrLo, r.data.extractLsb' 24 8, r.data.extractLsb' 16 8, r.data.extractLsb' 8 8,
    r.data.extractLsb' 0 8, r.flags]
  l ++ [crc8 l]

/-- The response that a frame carries out: the pending one, but NO_RESPONSE without data, with the echo and the number of
the frame before, where that has not finished (R143). -/
def respOut (early : Bool) (s : State) : Resp := if early then s.cport.late else s.cport.pend

/-- A complete frame begins to execute (R142, R149): it counts, it ages the arm, and the response to the frame before has
gone out during it. -/
def frameBegin (f : Frame) (s : State) : State :=
  let s := { s with cport := { s.cport with fseq := s.cport.fseq + 1, sent := respOut f.early s } }
  armAge .cport s

/-- A frame's response, as it stands at the latch (R141). -/
def respOf (f : Frame) (status : Byte) (data : Word) (s : State) : Resp :=
  ⟨status, byteOf f 0, byteOf f 1, byteOf f 2, data, respFlags false s⟩

/-- The response to a frame is latched (R141). -/
def respond (f : Frame) (status : Byte) (data : Word) (s : State) : State :=
  { s with cport := { s.cport with pend := respOf f status data s, late := respOf f csNoResponse 0 s } }

/-- Checks 1 and 2 of R143. -/
def frameBad (f : Frame) : Option Byte :=
  let op := byteOf f 0
  if !frameCrcOk f then some csCrcBad
  else if op != opNop && op != opWrite && op != opRead && op != opWhistle then some csBadOp
  else if frameReplay f && op != opNop then some csBadOp
  else none

/-- A frame of a row: it executes where the part is out of reset, and its first two checks come first. -/
def frameStep (f : Frame) (body : State → State) (s : State) : State :=
  onlyIf (running s) (fun s =>
    let s := frameBegin f s
    match frameBad f with
    | some st => respond f st 0 s
    | none => body s) s

/-! ## NOP, READ, WRITE, WHISTLE -/

/-- A NOP: OK, or with REPLAY a copy of the response sent during it (R142). -/
def nopBody (f : Frame) (s : State) : State :=
  if frameReplay f then { s with cport := { s.cport with
      pend := { s.cport.sent with flags := s.cport.sent.flags ||| 0x20 }, late := respOf f csNoResponse 0 s } }
  else respond f csOk 0 s

/-- A READ: checks 3, 4 and 6, then its data and its side effects (R143, R147). -/
def readBody (f : Frame) (s : State) : State :=
  let off := frameOff f
  let l := frameLanes f
  if 0xFC < off || off % 4 != 0 then respond f csBadAddr 0 s
  else if l == 0 then respond f csBadWidth 0 s
  else if pathBusy .cport s then respond f csBusy 0 s
  else
    let d := if off < 0xC0 then regRead .cport off s &&& laneMask l else 0
    respond f csOk d (regReadFx .cport off l s)

/-- A WRITE (R143, R147, R149). -/
def writeBody (f : Frame) (s : State) : State :=
  let (st, s) := pathWrite .cport (frameOff f) (frameLanes f) (frameData f) s
  respond f st 0 s

/-- A WHISTLE (R150): the drain begins. -/
def whistleBody (f : Frame) (s : State) : State :=
  if pathBusy .cport s || s.power.waking then respond f csBusy 0 s
  else respond f csOk 0 { s with cport := { s.cport with whistling := true, wseq := s.cport.wseq + 1 } }

/-- CPORT_NOP (R142), and every frame whose OPCODE is not of the other three rows. -/
def execCportNop (f : Frame) (s : State) : Out :=
  if byteOf f 0 == opWrite || byteOf f 0 == opRead || byteOf f 0 == opWhistle then .refused .illFormed
  else .next (frameStep f (nopBody f) s)

/-- CPORT_READ (R143). -/
def execCportRead (f : Frame) (s : State) : Out :=
  if byteOf f 0 != opRead then .refused .illFormed else .next (frameStep f (readBody f) s)

/-- CPORT_WRITE (R147). -/
def execCportWrite (f : Frame) (s : State) : Out :=
  if byteOf f 0 != opWrite then .refused .illFormed else .next (frameStep f (writeBody f) s)

/-- CPORT_WHISTLE (R150). -/
def execCportWhistle (f : Frame) (s : State) : Out :=
  if byteOf f 0 != opWhistle then .refused .illFormed else .next (frameStep f (whistleBody f) s)

/-- CPORT_RUNT (R137): nothing happens, nothing is counted, and the pending response stays. -/
def execCportRunt (s : State) : Out := .next s

end Sys2Proof.Machine
end

