-- ==== Sys2Proof/Machine/HostBus.lean ====
section
/-! DEFINITION. The host bus unit as a target: the window map, lanes, posted writes, latches and snapshots, the byte
memories, the PIO FIFOs, the whistles' drains, and the studio blocks' registers (R182 to R201, R211 to R215, R221). -/

namespace Sys2Proof.Machine

/-! ## The window map (R183 to R185, R200) -/

/-- What a window offset reaches. -/
inductive Spot where
  /-- a register of a studio block, by its block offset. -/
  | reg (st : Fin 8) (r : Nat)
  /-- a byte of a studio's mailbox lens. -/
  | lens (st : Fin 8) (b : Nat)
  | pioData (st : Fin 8)
  /-- PIO_LEVEL or PIO_STAT, by its offset in the PIO window. -/
  | pioReg (st : Fin 8) (r : Nat)
  | mailbox (b : Nat)
  | ring (b : Nat)
  /-- a direct register through the mirror. -/
  | mirror (r : Nat)
  /-- a reserved offset of a block or window, or a reserved address. -/
  | reserved (st : Fin 8)
  deriving DecidableEq, Repr

/-- The spot of an aligned word of the window. -/
def spotOf (wo : Nat) (s : State) : Spot :=
  let st := fin8 (wo / 0x200)
  let b := wo % 0x200
  if wo < 0x1000 then (if 0x100 ≤ b then .lens st (b - 0x100) else if b ≤ 0x40 then .reg st b else .reserved st)
  else if wo < 0x2000 then (if b < 0x1F0 then .pioData st else if b < 0x1F8 then .pioReg st b else .reserved st)
  else if wo < 0x4000 then .mailbox (wo - 0x2000)
  else if wo < 0x8000 then .ring (wo - 0x4000)
  else if wo < 0x8100 && s.restart.straps.ctlmir then .mirror (wo - 0x8000)
  else .reserved 0

/-- A byte of queue-ring SRAM lies in a ring. -/
def inRing (b base slot : Nat) (log2 : BitVec 4) : Bool := decide (base ≤ b) && decide (b < base + slot * depthOf log2)

/-- The studio whose enabled ring covers a byte of queue-ring SRAM (R199). -/
def ringOwner (b : Nat) (s : State) : Option (Fin 8) :=
  ((List.finRange 32).find? fun q =>
    let x := sqGet q s
    let y := cqGet q s
    (x.en && x.loc && inRing b x.base.toNat 64 x.depthLog2) || (y.en && y.loc && inRing b y.base.toNat 16 y.depthLog2)).map
    sqStudio

/-- The alias of an access (R184). -/
def aliasOf (x : Spot) (s : State) : Fin 8 :=
  match x with
  | .reg st _ | .lens st _ | .pioData st | .pioReg st _ | .reserved st => st
  | .mailbox b => fin8 (b / 1024)
  | .ring b => (ringOwner b s).getD 0
  | .mirror _ => 0

/-- The spot is a register, which narrow buses reach through latch and snapshot (R195, R196). -/
def Spot.isReg : Spot → Bool
  | .reg _ _ | .pioReg _ _ | .mirror _ => true
  | .lens _ _ | .pioData _ | .mailbox _ | .ring _ | .reserved _ => false

/-- The spot is a direct register. -/
def Spot.isMirror : Spot → Bool
  | .mirror _ => true
  | .reg _ _ | .pioReg _ _ | .lens _ _ | .pioData _ | .mailbox _ | .ring _ | .reserved _ => false

/-- The spot is a WHISTLE register (R213). -/
def Spot.isWhistle : Spot → Bool
  | .reg _ r => r == 0x38
  | .mirror r => r == 0x50
  | .pioReg _ _ | .lens _ _ | .pioData _ | .mailbox _ | .ring _ | .reserved _ => false

/-! ## Lanes and widths (R187, R193) -/

/-- The bus width in bytes. -/
def busBytes (s : State) : Nat := widthBytes s.restart.straps.width

/-- The unit of the bus's width that holds an offset: address lines below the width are ignored. -/
def unitOff (off : Nat) (s : State) : Nat := off / busBytes s * busBytes s

/-- The lanes of the aligned word that a cycle enables. -/
def cycleLanes (u : Nat) (be : Lanes) (s : State) : Lanes := (be &&& BitVec.ofNat 4 (2 ^ busBytes s - 1)) <<< (u % 4)

/-- The data lines in their place in the aligned word. -/
def cycleData (u : Nat) (data : Word) : Word := data <<< (8 * (u % 4))

/-- A lane set of a 32-bit bus is aligned. -/
def laneAligned (l : Lanes) : Bool := [1, 2, 4, 8, 3, 12, 15].contains l.toNat

/-- The lowest enabled lane. -/
def lowLane (l : Lanes) : Nat := if lane l 0 then 0 else if lane l 1 then 1 else if lane l 2 then 2 else 3

/-- The unit offset of the enabled lanes of a word. -/
def unitOfLanes (wo : Nat) (l : Lanes) (s : State) : Nat := wo + lowLane l / busBytes s * busBytes s

/-- The number of enabled lanes. -/
def laneCount (l : Lanes) : Nat := ((List.range 4).filter (lane l)).length

/-- The enabled bytes of a word, lowest lane first. -/
def laneBytes (l : Lanes) (w : Word) : List Byte := ((List.range 4).filter (lane l)).map fun k => w.extractLsb' (8 * k) 8

/-- Bytes put on the enabled lanes, lowest lane first. -/
def lanePut : List Nat → List Byte → Word
  | k :: ks, b :: bs => fld (8 * k) b.toNat ||| lanePut ks bs
  | _, _ => 0

/-- Bytes on the enabled lanes of a word. -/
def laneSpread (l : Lanes) (bs : List Byte) : Word := lanePut ((List.range 4).filter (lane l)) bs

/-! ## Notes of an access (R191, R193, R195, R197 to R200) -/

/-- Alias and offset as the notes carry them. -/
def noteAt (al : Fin 8) (off : Nat) : List Byte := BitVec.ofNat 8 al.val :: leBytes 2 off

/-- HB_EARLY_END: a read (false) or a write (true). -/
def earlyNote (al : Fin 8) (u : Nat) (w : Bool) (s : State) : State :=
  hbFlag hbEarly (logRec .hbEarlyEnd (noteAt al u ++ [if w then 1 else 0]) s)

/-- UNALIGNED_ACCESS. -/
def unalignedNote (al : Fin 8) (u : Nat) (l : Lanes) (s : State) : State :=
  hbFlag hbUnaligned (logRec .unalignedAccess (noteAt al u ++ [BitVec.ofNat 8 l.toNat]) s)

/-- LATCH_DISCARD. -/
def discardNote (al : Fin 8) (x : WLatch) (s : State) : State :=
  hbFlag hbEarly (logRec .latchDiscard (noteAt al x.off.toNat ++ [BitVec.ofNat 8 x.valid.toNat]) s)

/-- RESERVED_WRITE. -/
def reservedNote (al : Fin 8) (u : Nat) (s : State) : State := hbFlag hbReserved (logRec .reservedWrite (noteAt al u) s)

/-- MBX_DENIED. -/
def deniedNote (st : Fin 8) (u : Nat) (w : Bool) (s : State) : State :=
  hbFlag hbMbx (logRec .mbxDenied (noteAt st u ++ [if w then 1 else 0]) s)

/-- RING_STRAY. -/
def strayNote (al : Fin 8) (u : Nat) (s : State) : State := hbFlag hbReserved (logRec .ringStray (noteAt al u) s)

/-- PIO_FULL for a push, PIO_EMPTY for a pop. -/
def pioNote (st : Fin 8) (push : Bool) (n : Nat) (s : State) : State :=
  hbFlag hbPio (logRec (if push then .pioFull else .pioEmpty) (noteAt st n) s)

/-! ## The PIO FIFOs (R200, R201) -/

/-- Bytes of pushes that wait in an alias's buffer. -/
def pioPosted (a : Alias) (s : State) : Nat :=
  (a.buf.map fun p => match spotOf p.off.toNat s with
    | .pioData _ => laneCount p.lanes
    | _ => 0).foldl (· + ·) 0

/-- PIO_LEVEL. -/
def pioLevelWord (st : Fin 8) (s : State) : Word :=
  let a := aliasGet st s
  fld 16 (2048 - a.pio.length - pioPosted a s) ||| fld 0 a.pio.length

/-- PIO_STAT. -/
def pioStatWord (st : Fin 8) (s : State) : Word :=
  match (aliasGet st s).pioCur with
  | none => 0
  | some (_, q, pops, rem) => flg 31 true ||| flg 30 pops ||| fld 24 q ||| fld 0 rem

/-- The current command runs in this direction. -/
def pioWith (push : Bool) (a : Alias) : Bool :=
  match a.pioCur with
  | none => false
  | some (_, _, pops, _) => pops != push

/-- A push finds room for all of its bytes, pushes already posted counted; the FIFO takes no byte beyond the current
command's. -/
def pushFits (n : Nat) (a : Alias) (s : State) : Bool :=
  match a.pioCur with
  | some (_, _, false, rem) =>
    decide (a.pio.length + pioPosted a s + n ≤ 2048) && decide (pioPosted a s + n ≤ rem)
  | some (_, _, true, _) | none => false

/-- A pop finds all of its bytes. -/
def popFits (n : Nat) (a : Alias) : Bool := pioWith false a && decide (n ≤ a.pio.length)

/-- A posted push takes effect: its bytes enter the FIFO; a command that has ended since takes none. -/
def pushApply (st : Fin 8) (l : Lanes) (w : Word) (s : State) : State :=
  let a := aliasGet st s
  match a.pioCur with
  | some (i, q, false, rem) =>
    aliasPut st { a with pio := a.pio ++ laneBytes l w, pioCur := some (i, q, false, rem - laneCount l) } s
  | some (_, _, true, _) | none => pioNote st true (laneCount l) s

/-- A pop takes its bytes; the last byte of the command ends it. -/
def popApply (st : Fin 8) (l : Lanes) (s : State) : Word × State :=
  let a := aliasGet st s
  let n := laneCount l
  match a.pioCur with
  | some (i, q, true, rem) =>
    let s := aliasPut st { a with pio := a.pio.drop n, pioCur := some (i, q, true, rem - n) } s
    let nlb : Nat := match slotGet i s with
      | some x => (x.cmd.map (·.nlb)).getD 0
      | none => 0
    (laneSpread l (a.pio.take n), endDrained i (onlyIf (rem == n) (readMoved i (512 * nlb)) s))
  | some (_, _, false, _) | none => (0, s)

/-! ## The byte memories (R197 to R199) -/

/-- The word of a byte memory at an aligned offset. -/
def memWord (m : List Host.Cell) (b : Nat) : Word := BitVec.ofNat 32 (leNat (memReadList m b 4))

/-- The enabled bytes of a word written at an aligned offset. -/
def memPutLanes (m : List Host.Cell) (b : Nat) (l : Lanes) (w : Word) : List Host.Cell :=
  ((List.range 4).filter (lane l)).foldl (fun m k => memWrite m (b + k) (w.extractLsb' (8 * k) 8)) m

/-- The mailbox byte that a lens offset shows. -/
def lensByte (st : Fin 8) (b : Nat) (s : State) : Nat := 256 * (aliasGet st s).lens.toNat + b

/-- The studio may access the mailbox page of a byte. -/
def mailboxAllows (st : Fin 8) (b : Nat) (write : Bool) (s : State) : Bool :=
  let c := (studioGet st s).cfg
  (if write then c.mbxWr else c.mbxRd).getLsbD (b / 1024)

/-! ## The studio blocks' registers (R185, R186, R213, R571) -/

/-- ALIAS_ID. -/
def aliasIdWord (st : Fin 8) (s : State) : Word :=
  flg 6 (s.restart.straps.dialect == 1) ||| fld 4 s.restart.straps.width.toNat ||| fld 0 st.val

/-- A block register as it reads; `drained` is WHISTLE's DRAINED. -/
def blockRead (st : Fin 8) (r drained : Nat) (s : State) : Word :=
  let a := aliasGet st s
  match r with
  | 0x30 => fld 0 a.irqStat.toNat
  | 0x34 => fld 0 a.irqMask.toNat
  | 0x38 => fld 16 drained ||| fld 0 a.wseq.toNat
  | 0x3C => aliasIdWord st s
  | 0x40 => fld 0 a.lens.toNat
  | _ => 0

/-- A W1C write of S_IRQ_STAT. -/
def sIrqClear (st : Fin 8) (w : Word) (s : State) : State :=
  let a := aliasGet st s
  aliasPut st { a with irqStat := a.irqStat &&& ~~~ w.truncate 6 } s

/-- A write of a block register takes effect (R194); a narrow one of a doorbell or of SQ_RESUME is a doorbell write that
changes nothing, too (R270, R271, R308). -/
def blockWrite (st : Fin 8) (r : Nat) (l : Lanes) (w : Word) (s : State) : State :=
  let a := aliasGet st s
  let q : Fin 32 := Fin.ofNat 32 (4 * st.val + r / 4 % 4)
  if r ≤ 0x30 then
    if l != 0xF then
      let s := narrowNote st.val (0x200 * st.val + r) l s
      onlyIf (r < 0x30) (doorbellBad q (r / 0x10 * 0x10) (w &&& laneMask l)) s
    else if r < 0x10 then sqTail q w s
    else if r < 0x20 then cqHead q w s
    else if r < 0x30 then sqResume q w s
    else sIrqClear st w s
  else if r == 0x34 then onlyIf (lane l 0) (aliasPut st { a with irqMask := w.truncate 6 }) s
  else if r == 0x40 then onlyIf (lane l 0) (aliasPut st { a with lens := w.truncate 5 }) s
  else s

/-! ## Posted writes (R192) -/

/-- A mailbox write takes effect, or is denied. -/
def mailboxWrite (st : Fin 8) (u b : Nat) (l : Lanes) (w : Word) (s : State) : State :=
  if mailboxAllows st b true s then { s with hbu := { s.hbu with mailbox := memPutLanes s.hbu.mailbox b l w } }
  else deniedNote st u true s

/-- The latch and snapshot that a register's accesses use: the mirror's, or the alias's. -/
def keepGet (mir : Bool) (al : Fin 8) (s : State) : Option WLatch × Option (BitVec 16 × Word) :=
  if mir then (s.hbu.mirLatch, s.hbu.mirSnap) else ((aliasGet al s).latch, (aliasGet al s).snap)

/-- The state with them replaced. -/
def keepPut (mir : Bool) (al : Fin 8) (k : Option WLatch × Option (BitVec 16 × Word)) (s : State) : State :=
  if mir then { s with hbu := { s.hbu with mirLatch := k.1, mirSnap := k.2 } }
  else aliasPut al { aliasGet al s with latch := k.1, snap := k.2 } s

/-- A write reaches a register: a snapshot of it ends (R196). -/
def snapDrop (x : Spot) (al : Fin 8) (off : Nat) (s : State) : State :=
  let (latch, snap) := keepGet x.isMirror al s
  match snap with
  | some (o, _) => if x.isReg && o.toNat == off then keepPut x.isMirror al (latch, none) s else s
  | none => s

/-- An entry of alias `al`'s buffer takes effect. -/
def applyPosted (al : Fin 8) (p : Posted) (s : State) : State :=
  let u := unitOfLanes p.off.toNat p.lanes s
  let s := snapDrop (spotOf p.off.toNat s) al p.off.toNat s
  match spotOf p.off.toNat s with
  | .reg st r => blockWrite st r p.lanes p.data s
  | .lens st b => mailboxWrite st u (lensByte st b s) p.lanes p.data s
  | .pioData st => pushApply st p.lanes p.data s
  | .pioReg _ _ => s
  | .mailbox b => mailboxWrite (fin8 (b / 1024)) u b p.lanes p.data s
  | .ring b =>
    if (ringOwner b s).isSome then
      { s with hbu := { s.hbu with ringSram := memPutLanes s.hbu.ringSram b p.lanes p.data } }
    else strayNote al u s
  | .mirror r => mirrorWrite r p.lanes p.data (armAge .mirror s)
  | .reserved _ => reservedNote al u s

/-- The oldest entry of a buffer takes effect. -/
def applyHead (al : Fin 8) (s : State) : State :=
  match (aliasGet al s).buf with
  | [] => s
  | p :: t => applyPosted al p (aliasPut al { aliasGet al s with buf := t } s)

/-- Every entry of a buffer takes effect, in order. -/
def drainAlias (al : Fin 8) (s : State) : State :=
  (aliasGet al s).buf.foldl (fun s _ => applyHead al s) s

/-- Every entry of every buffer takes effect. -/
def drainAll (s : State) : State := (List.finRange 8).foldl (fun s al => drainAlias al s) s

/-- The number of entries not yet applied. -/
def postedCount (s : State) : Nat := (s.hbu.aliases.toList.map fun a => a.buf.length).foldl (· + ·) 0

/-- An accepted write enters its alias's buffer; a full buffer first applies its oldest entry (R190). -/
def post (al : Fin 8) (p : Posted) (s : State) : State :=
  let s := onlyIf (16 ≤ (aliasGet al s).buf.length) (applyHead al) s
  aliasPut al { aliasGet al s with buf := (aliasGet al s).buf ++ [p] } s

/-! ## Latch and snapshot (R195, R196) -/

/-- A snapshot of the register, for a read of a narrow bus that excludes byte 0. -/
def snapHit (x : Spot) (al : Fin 8) (wo : Nat) (l : Lanes) (s : State) : Option Word :=
  if x.isReg && decide (busBytes s < 4) && !lane l 0 then
    match (keepGet x.isMirror al s).2 with
    | some (off, v) => if off.toNat = wo then some v else none
    | none => none
  else none

/-- A register write of a narrow bus passes the latch: posted with its valid bytes once byte 3 is written. -/
def latchWrite (x : Spot) (al : Fin 8) (wo : Nat) (l : Lanes) (w : Word) (s : State) : State :=
  let mir := x.isMirror
  let (held, snap) := keepGet mir al s
  let (old, s) : WLatch × State := match held with
    | none => (⟨BitVec.ofNat 16 wo, 0, 0⟩, s)
    | some h => if h.off.toNat = wo then (h, s) else (⟨BitVec.ofNat 16 wo, 0, 0⟩, discardNote al h s)
  let new : WLatch := { old with bytes := mergeLanes l old.bytes w, valid := old.valid ||| l }
  if lane l 3 then post al ⟨new.off, new.valid, new.bytes⟩ (keepPut mir al (none, snap) s)
  else onlyIf mir (armAge .mirror) (keepPut mir al (some new, snap) s)

/-! ## Target cycles (R188 to R193) -/

/-- The cycle's outcome on the data lines: what a read returned, unless the host has ended it (R191). -/
def readOut (early : Bool) (al : Fin 8) (u : Nat) (l : Lanes) (v : Word) (s : State) : State :=
  let d : Option Word := if early then none else some ((v &&& laneMask l) >>> (8 * (u % 4)))
  onlyIf early (earlyNote al u false) { s with hbu := { s.hbu with readData := d } }

/-- A live read of a register on the lanes given, with its side effects. -/
def regLive (x : Spot) (l : Lanes) (drained : Nat) (s : State) : Word × State :=
  let seq := lane l 0 || lane l 1
  match x with
  | .reg st r =>
    let s := onlyIf (r == 0x38 && seq) (fun s => aliasPut st { aliasGet st s with wseq := (aliasGet st s).wseq + 1 } s) s
    (blockRead st r drained s, s)
  | .pioReg st r => (if r == 0x1F0 then pioLevelWord st s else pioStatWord st s, s)
  | .mirror r =>
    let s := armAge .mirror s
    let s := onlyIf (r == 0x50 && seq) (fun s => { s with hbu := { s.hbu with mirWseq := s.hbu.mirWseq + 1 } }) s
    if r == 0x50 then (whistleWord .mirror drained s, s)
    else if r < 0xC0 then (regRead .mirror r s, regReadFx .mirror r l s)
    else (0, s)
  | .lens _ _ | .pioData _ | .mailbox _ | .ring _ | .reserved _ => (0, s)

/-- A mailbox read, or its denial. -/
def mailboxRead (st : Fin 8) (u b : Nat) (s : State) : Word × State :=
  if mailboxAllows st b false s then (memWord s.hbu.mailbox b, s) else (0, deniedNote st u false s)

/-- A read of a memory or of a reserved offset. -/
def memLive (x : Spot) (u : Nat) (s : State) : Word × State :=
  match x with
  | .lens st b => mailboxRead st u (lensByte st b s) s
  | .mailbox b => mailboxRead (fin8 (b / 1024)) u b s
  | .ring b => (if (ringOwner b s).isSome then memWord s.hbu.ringSram b else 0, s)
  | .reg _ _ | .pioData _ | .pioReg _ _ | .mirror _ | .reserved _ => (0, s)

/-- A DATA access waits for the FIFO, or, against the direction or with PIO_WAIT 0, ends at once (R200). -/
def pioShort (st : Fin 8) (x : PioWait) (u : Nat) (s : State) : State :=
  let a := aliasGet st s
  if pioWith x.push a && s.hbu.pioWaitTicks != 0 then aliasPut st { a with pioWait := a.pioWait ++ [x] } s
  else
    let s := pioNote st x.push (laneCount x.lanes) s
    if x.push then s else readOut x.early st u x.lanes 0 s

/-- A DATA read (R200). -/
def pioRead (st : Fin 8) (early : Bool) (u : Nat) (l : Lanes) (s : State) : State :=
  if popFits (laneCount l) (aliasGet st s) && (aliasGet st s).pioWait.isEmpty then
    let (v, s) := popApply st l s
    readOut early st u l v s
  else pioShort st ⟨false, l, 0, early⟩ u s

/-- A DATA write that reaches its acceptance (R200). -/
def pioWrite (st : Fin 8) (wo u : Nat) (l : Lanes) (w : Word) (s : State) : State :=
  if pushFits (laneCount l) (aliasGet st s) s && (aliasGet st s).pioWait.isEmpty then post st ⟨BitVec.ofNat 16 wo, l, w⟩ s
  else pioShort st ⟨true, l, w, false⟩ u s

/-- A target read of aligned lanes (R188, R191, R192, R196, R214). One that a snapshot serves waits for its alias's posted
writes as every read does (DESIGN CHOICE, log entry 117: R192 says every read, R214 that a snapshot drains nothing). -/
def readCycle (early : Bool) (u : Nat) (l : Lanes) (s : State) : State :=
  let wo := u / 4 * 4
  let x := spotOf wo s
  let al := aliasOf x s
  match snapHit x al wo l s with
  | some v => readOut early al u l v (onlyIf x.isMirror (armAge .mirror) (drainAlias al s))
  | none =>
    let n := postedCount s
    let s := if x.isWhistle then drainAll s else drainAlias al s
    if x.isReg then
      let whole := decide (busBytes s < 4) && lane l 0
      let (v, s) := regLive x (if whole then 0xF else l) n s
      let s := onlyIf whole (keepPut x.isMirror al ((keepGet x.isMirror al s).1, some (BitVec.ofNat 16 wo, v))) s
      readOut early al u l v s
    else match x with
      | .pioData st => pioRead st early u l s
      | _ =>
        let (v, s) := memLive x u s
        readOut early al u l v s

/-- A target write of aligned lanes, not ended early (R189, R192, R195). -/
def writeCycle (u : Nat) (l : Lanes) (w : Word) (s : State) : State :=
  let wo := u / 4 * 4
  let x := spotOf wo s
  let al := aliasOf x s
  if x.isReg && decide (busBytes s < 4) then latchWrite x al wo l w s
  else match x with
    | .pioData st => pioWrite st wo u l w s
    | _ => post al ⟨BitVec.ofNat 16 wo, l, w⟩ s

/-- A target cycle runs: a null cycle does nothing, a write ended early is dropped, an unaligned access is ignored; either
is an access of the mirror where it lies there (R149). -/
def runCycle (c : Cycle) (s : State) : State :=
  let u := unitOff c.off.toNat s
  let l := cycleLanes u c.be s
  let x := spotOf (u / 4 * 4) s
  let al := aliasOf x s
  if l == 0 then s
  else if c.write && c.early then earlyNote al u true (onlyIf x.isMirror (armAge .mirror) s)
  else if busBytes s == 4 && !laneAligned l then
    let s := unalignedNote al u l (onlyIf x.isMirror (armAge .mirror) s)
    if c.write then s else readOut c.early al u l 0 s
  else if c.write then writeCycle u l (cycleData u c.data) s
  else readCycle c.early u l s

/-- The bus is free for a new target cycle: the window answers, the part does not hold the bus itself (R207), and no cycle
that the host has not ended waits on HB_RDY. -/
def busFree (s : State) : Bool :=
  windowLive s && s.hbu.tenure.isNone && !s.hbu.heldCycle.any (!·.early)
    && !s.hbu.aliases.toList.any (·.pioWait.any (!·.early))

/-- A target cycle comes: it wakes the part, which in DOZE holds it until the part is in RUN (R91, R92). -/
def takeCycle (c : Cycle) (s : State) : State :=
  if !busFree s then s
  else match s.power.state with
    | .doze =>
    let s := { s with power := { s.power with waking := true } }
    if c.write && c.early then runCycle c s else { s with hbu := { s.hbu with heldCycle := s.hbu.heldCycle ++ [c] } }
    | .run | .nap | .standby | .off => runCycle c (wake s)

/-- TARGET_READ (R188): HB_A[15:0], the enabled lanes of the bus, and whether the host ends the cycle early. -/
def execTargetRead (off : BitVec 16) (be : Lanes) (early : Bool) (s : State) : Out :=
  .next (takeCycle ⟨false, off, be, 0, early⟩ s)

/-- TARGET_WRITE (R189). -/
def execTargetWrite (off : BitVec 16) (be : Lanes) (data : Word) (early : Bool) (s : State) : Out :=
  .next (takeCycle ⟨true, off, be, data, early⟩ s)

/-- POSTED_WRITE_APPLY (R192): the oldest entry of an alias's buffer. -/
def execPostedWriteApply (al : Fin 8) (s : State) : Out := .next (onlyIf (windowLive s) (applyHead al) s)

/-- WHISTLE_READ (R214): a read of WHISTLE on every lane of the bus, through a studio block or through the mirror. -/
def execWhistleRead (via : Option (Fin 8)) (s : State) : Out :=
  let off : Nat := match via with
    | some st => 0x200 * st.val + 0x38
    | none => 0x8050
  .next (onlyIf (via.isSome || s.restart.straps.ctlmir) (takeCycle ⟨false, BitVec.ofNat 16 off, 0xF, 0, false⟩) s)

/-- S_IRQ_STAT_CLEAR (R221, R571): a full W1C write takes effect. -/
def execSIrqStatClear (st : Fin 8) (data : Word) (s : State) : Out := .next (onlyIf (windowLive s) (applyPosted st ⟨BitVec.ofNat 16 (0x200 * st.val + 0x30), 0xF, data⟩) s)

/-! ## Waiting DATA accesses (R200) -/

/-- The DATA port of a studio's window. -/
def pioOff (st : Fin 8) : Nat := 0x1000 + 0x200 * st.val

/-- PIO_PUSH (R200): a waiting push finds room and its bytes enter the FIFO. -/
def execPioPush (st : Fin 8) (s : State) : Out :=
  .next (match (aliasGet st s).pioWait with
    | ⟨true, l, w, _⟩ :: t =>
      onlyIf (windowLive s && pushFits (laneCount l) (aliasGet st s) s) (fun s =>
        drainAlias st (post st ⟨BitVec.ofNat 16 (pioOff st), l, w⟩
          (aliasPut st { aliasGet st s with pioWait := t } s))) s
    | ⟨false, _, _, _⟩ :: _ | [] => s)

/-- PIO_POP (R200): a waiting pop finds its bytes. -/
def execPioPop (st : Fin 8) (s : State) : Out :=
  .next (match (aliasGet st s).pioWait with
    | ⟨false, l, _, early⟩ :: t =>
      onlyIf (windowLive s && popFits (laneCount l) (aliasGet st s)) (fun s =>
        let (v, s) := popApply st l (aliasPut st { aliasGet st s with pioWait := t } s)
        readOut early st (unitOfLanes (pioOff st) l s) l v s) s
    | ⟨true, _, _, _⟩ :: _ | [] => s)

/-- PIO_WAIT_EXPIRY (R200): the push is dropped; the pop returns 0 and removes nothing. -/
def execPioWaitExpiry (st : Fin 8) (s : State) : Out :=
  .next (match (aliasGet st s).pioWait with
    | x :: t =>
      onlyIf (windowLive s) (fun s =>
        let s := pioNote st x.push (laneCount x.lanes) (aliasPut st { aliasGet st s with pioWait := t } s)
        if x.push then s else readOut x.early st (unitOfLanes (pioOff st) x.lanes s) x.lanes 0 s) s
    | [] => s)

/-- WHISTLE_DRAIN_END (R150): what the whistle covers has taken effect. -/
def execWhistleDrainEnd (s : State) : Out :=
  .next (onlyIf (running s && s.cport.whistling && !commitOn .cport s) (fun s =>
    let s := onlyIf (windowLive s) drainAll s
    { s with cport := { s.cport with whistling := false } }) s)

end Sys2Proof.Machine
end

