-- ==== Sys2Proof/Machine/Wake.lean ====
section
/-! DEFINITION. The PLL locks: the move to CCLK, the end of a wake from DOZE, and the restart path going on (R27, R91 to
R93, R96, R100, R128, R572, R596). -/

namespace Sys2Proof.Machine

/-- The register write that caused the wake is applied (R144). -/
def wakeWriteApply (s : State) : State :=
  match s.power.wakeWrite with
  | none => s
  | some (p, off, l, w, ok) =>
    regWrite p off.toNat l w ok { s with power := { s.power with wakeWrite := none } }

/-- The target cycles held in DOZE complete (R92). -/
def heldApply (s : State) : State :=
  let l := s.hbu.heldCycle
  let s := { s with hbu := { s.hbu with heldCycle := [] } }
  onlyIf (windowLive s) (fun s => l.foldl (fun s c => runCycle c s) s) s

/-- A wake from DOZE ends in RUN (R91, R96). -/
def wakeEnd (s : State) : State := heldApply (wakeWriteApply (linksLifted (wakeDone s)))

/-- The PLL has locked; the core moves to CCLK at the next TICK boundary (R100, R111). -/
def lockTaken (ticks : Byte) (s : State) : State :=
  irqSet irqClock { s with clk := { s.clk with pllLock := true, lostLock := false, lastLockTime := ticks } }

/-- What goes on with lock: a wake from DOZE, the restart after a loss of lock, or the path that waits at stage 3. -/
def lockGoesOn (s : State) : State :=
  if s.restart.level == .failstop then s
  else if s.power.waking then wakeEnd s
  else match s.restart.pllRestart with
    | some l =>
      let s := { s with restart := { s.restart with pllRestart := none } }
      ringTrain (stageTwo (restartWrite .pllLoss (some l) (resetC s)))
    | none =>
      ringTrain (pathOn s)

/-- PLL_LOCK (R100): the PLL has locked, which took this many TICKs. -/
def execPllLock (ticks : Byte) (s : State) : Out :=
  .next (onlyIf (running s && s.clk.pllEn && !s.clk.pllLock && (s.power.state != .doze || s.power.waking))
    (fun s => lockGoesOn (lockTaken ticks s)) s)

/-- DOZE_RELOCK_TIMEOUT (R93): the part is in RUN, and lock is lost; a held bus cycle finds no window. -/
def execDozeRelockTimeout (s : State) : Out :=
  .next (onlyIf (running s && s.power.state == .doze && s.power.waking && !s.clk.pllLock) (fun s =>
    let s := wakeDone { s with power := { s.power with heldDark := false }, hbu := { s.hbu with heldCycle := [] } }
    wakeWriteApply (lockLoss 0 .ends s)) s)

end Sys2Proof.Machine
end

