-- ==== Sys2Proof/Machine/Dispatch.lean ====
section
/-! DEFINITION. One arm per command: the meaning it calls, or its rejection by name. -/

namespace Sys2Proof.Machine

/-- The effect of one command on the state (everything but the queue of waiting commands). -/
def exec (i : Instr) (s : State) : Host.Outcome State Fault Refusal :=
  match i with
  | .powerOn sup vstby => Sys2Proof.Machine.execPowerOn sup vstby s
  | .powerGoodMet sup => Sys2Proof.Machine.execPowerGoodMet sup s
  | .resetEnd straps => Sys2Proof.Machine.execResetEnd straps s
  | .resetNLow cut => Sys2Proof.Machine.execResetNLow cut s
  | .powerFailTrip src sup cut => Sys2Proof.Machine.execPowerFailTrip src sup cut s
  | .xinLoss cut => Sys2Proof.Machine.execXinLoss cut s
  | .bankAbsent b cut => Sys2Proof.Machine.execBankAbsent b cut s
  | .pllLock ticks => Sys2Proof.Machine.execPllLock ticks s
  | .pllLockLoss elapsed cut => Sys2Proof.Machine.execPllLockLoss elapsed cut s
  | .pllLockRetry => Sys2Proof.Machine.execPllLockRetry s
  | .selfChecksDone skb canvas => Sys2Proof.Machine.execSelfChecksDone skb canvas s
  | .discoveryDeadline => Sys2Proof.Machine.execDiscoveryDeadline s
  | .assembly a => Sys2Proof.Machine.execAssembly a s
  | .replayStripe a stripe => Sys2Proof.Machine.execReplayStripe a stripe s
  | .level1Entry tier2 => Sys2Proof.Machine.execLevel1Entry tier2 s
  | .level2Entry fail => Sys2Proof.Machine.execLevel2Entry fail s
  | .ctrlRst p => Sys2Proof.Machine.execCtrlRst p s
  | .controlResetStart cut => Sys2Proof.Machine.execControlResetStart cut s
  | .portRst p mask => Sys2Proof.Machine.execPortRst p mask s
  | .portResetLost p => Sys2Proof.Machine.execPortResetLost p s
  | .nvClear p => Sys2Proof.Machine.execNvClear p s
  | .reqRun p => Sys2Proof.Machine.execReqRun p s
  | .reqNap p => Sys2Proof.Machine.execReqNap p s
  | .reqDoze p => Sys2Proof.Machine.execReqDoze p s
  | .reqStandby p => Sys2Proof.Machine.execReqStandby p s
  | .vpfSelWrite p code => Sys2Proof.Machine.execVpfSelWrite p code s
  | .autoNapExpiry => Sys2Proof.Machine.execAutoNapExpiry s
  | .napCommit => Sys2Proof.Machine.execNapCommit s
  | .dozeCommit elapsed => Sys2Proof.Machine.execDozeCommit elapsed s
  | .standbyCommit => Sys2Proof.Machine.execStandbyCommit s
  | .wakeNAsserted => Sys2Proof.Machine.execWakeNAsserted s
  | .wakeTimerExpiry => Sys2Proof.Machine.execWakeTimerExpiry s
  | .standbyExitTimeout => Sys2Proof.Machine.execStandbyExitTimeout s
  | .dozeRelockTimeout => Sys2Proof.Machine.execDozeRelockTimeout s
  | .powerOrderTimeout node => Sys2Proof.Machine.execPowerOrderTimeout node s
  | .forwardedClockWake => Sys2Proof.Machine.execForwardedClockWake s
  | .pllStart p => Sys2Proof.Machine.execPllStart p s
  | .pllStop p => Sys2Proof.Machine.execPllStop p s
  | .xclkSelChange => Sys2Proof.Machine.execXclkSelChange s
  | .tickStep pins => Sys2Proof.Machine.execTickStep pins s
  | .tickLoRead p l => Sys2Proof.Machine.execTickLoRead p l s
  | .strapCheck levels => Sys2Proof.Machine.execStrapCheck levels s
  | .cportNop f => Sys2Proof.Machine.execCportNop f s
  | .cportRead f => Sys2Proof.Machine.execCportRead f s
  | .cportWrite f => Sys2Proof.Machine.execCportWrite f s
  | .cportWhistle f => Sys2Proof.Machine.execCportWhistle f s
  | .cportRunt => Sys2Proof.Machine.execCportRunt s
  | .whistleDrainEnd => Sys2Proof.Machine.execWhistleDrainEnd s
  | .armWrite p value => Sys2Proof.Machine.execArmWrite p value s
  | .armTimeout p => Sys2Proof.Machine.execArmTimeout p s
  | .registerWrite p off l w => Sys2Proof.Machine.execRegisterWrite p off l w s
  | .tblSelWrite p w => Sys2Proof.Machine.execTblSelWrite p w s
  | .tblDataRead p l => Sys2Proof.Machine.execTblDataRead p l s
  | .tblDataStage p w => Sys2Proof.Machine.execTblDataStage p w s
  | .memberCommit p w => Sys2Proof.Machine.execMemberCommit p w s
  | .arrayCommit p w => Sys2Proof.Machine.execArrayCommit p w s
  | .volumeCommit p w => Sys2Proof.Machine.execVolumeCommit p w s
  | .studioCommit p w => Sys2Proof.Machine.execStudioCommit p w s
  | .queueCommit p w => Sys2Proof.Machine.execQueueCommit p w s
  | .dmaChanCommit p w => Sys2Proof.Machine.execDmaChanCommit p w s
  | .layerStart p w => Sys2Proof.Machine.execLayerStart p w s
  | .layerStop p w => Sys2Proof.Machine.execLayerStop p w s
  | .layerCommit p w => Sys2Proof.Machine.execLayerCommit p w s
  | .busCommit p w => Sys2Proof.Machine.execBusCommit p w s
  | .auportCommit p w => Sys2Proof.Machine.execAuportCommit p w s
  | .refereeCommit p w => Sys2Proof.Machine.execRefereeCommit p w s
  | .hostRegionCommit p w => Sys2Proof.Machine.execHostRegionCommit p w s
  | .roSpaceCommit p w => Sys2Proof.Machine.execRoSpaceCommit p w s
  | .nvCommitDone ok => Sys2Proof.Machine.execNvCommitDone ok s
  | .arrayArgWrite p l w => Sys2Proof.Machine.execArrayArgWrite p l w s
  | .assemble p => Sys2Proof.Machine.execAssemble p s
  | .forceAssemble p => Sys2Proof.Machine.execForceAssemble p s
  | .createArray p => Sys2Proof.Machine.execCreateArray p s
  | .deleteArray p => Sys2Proof.Machine.execDeleteArray p s
  | .createVolume p => Sys2Proof.Machine.execCreateVolume p s
  | .deleteVolume p => Sys2Proof.Machine.execDeleteVolume p s
  | .setOwner p => Sys2Proof.Machine.execSetOwner p s
  | .addBench p => Sys2Proof.Machine.execAddBench p s
  | .removeBench p => Sys2Proof.Machine.execRemoveBench p s
  | .retireMember p => Sys2Proof.Machine.execRetireMember p s
  | .startRestoration p => Sys2Proof.Machine.execStartRestoration p s
  | .copyBack p => Sys2Proof.Machine.execCopyBack p s
  | .startInspection p => Sys2Proof.Machine.execStartInspection p s
  | .startRepaint p => Sys2Proof.Machine.execStartRepaint p s
  | .abortRepaint p => Sys2Proof.Machine.execAbortRepaint p s
  | .pauseBackground p => Sys2Proof.Machine.execPauseBackground p s
  | .resumeBackground p => Sys2Proof.Machine.execResumeBackground p s
  | .stopArray p => Sys2Proof.Machine.execStopArray p s
  | .arrayCmdBadCode p code => Sys2Proof.Machine.execArrayCmdBadCode p code s
  | .mgmtCommandDone timeout => Sys2Proof.Machine.execMgmtCommandDone timeout s
  | .studioReset mask => Sys2Proof.Machine.execStudioReset mask s
  | .studioResetEnd st => Sys2Proof.Machine.execStudioResetEnd st s
  | .studioDoneAck mask => Sys2Proof.Machine.execStudioDoneAck mask s
  | .flushAll => Sys2Proof.Machine.execFlushAll s
  | .skbCtrlWrite lanes data => Sys2Proof.Machine.execSkbCtrlWrite lanes data s
  | .dmaKick mask => Sys2Proof.Machine.execDmaKick mask s
  | .dmaGlobalPause => Sys2Proof.Machine.execDmaGlobalPause s
  | .dmaGlobalResume => Sys2Proof.Machine.execDmaGlobalResume s
  | .rollNow => Sys2Proof.Machine.execRollNow s
  | .forget entry => Sys2Proof.Machine.execForget entry s
  | .adopt entry key => Sys2Proof.Machine.execAdopt entry key s
  | .ringPortEnable fb => Sys2Proof.Machine.execRingPortEnable fb s
  | .ringPortDisable fb => Sys2Proof.Machine.execRingPortDisable fb s
  | .paletteEnable mclk => Sys2Proof.Machine.execPaletteEnable mclk s
  | .paletteDisable mclk => Sys2Proof.Machine.execPaletteDisable mclk s
  | .portWake port => Sys2Proof.Machine.execPortWake port s
  | .logTailWrite p l w => Sys2Proof.Machine.execLogTailWrite p l w s
  | .faultSumRead p l => Sys2Proof.Machine.execFaultSumRead p l s
  | .whistleRead via => Sys2Proof.Machine.execWhistleRead via s
  | .sIrqStatClear st data => Sys2Proof.Machine.execSIrqStatClear st data s
  | .targetRead off be early => Sys2Proof.Machine.execTargetRead off be early s
  | .targetWrite off be data early => Sys2Proof.Machine.execTargetWrite off be data early s
  | .postedWriteApply al => Sys2Proof.Machine.execPostedWriteApply al s
  | .sqTailDoorbell q data => Sys2Proof.Machine.execSqTailDoorbell q data s
  | .cqHeadDoorbell q data => Sys2Proof.Machine.execCqHeadDoorbell q data s
  | .sqResumeNext q slot => Sys2Proof.Machine.execSqResumeNext q slot s
  | .sqResumeRetry q slot => Sys2Proof.Machine.execSqResumeRetry q slot s
  | .sqResumeDiscard q slot => Sys2Proof.Machine.execSqResumeDiscard q slot s
  | .pioPush st => Sys2Proof.Machine.execPioPush st s
  | .pioPop st => Sys2Proof.Machine.execPioPop st s
  | .pioWaitExpiry st => Sys2Proof.Machine.execPioWaitExpiry st s
  | .busGranted => Sys2Proof.Machine.execBusGranted s
  | .grantWithdrawn => Sys2Proof.Machine.execGrantWithdrawn s
  | .masterCycle => Sys2Proof.Machine.execMasterCycle s
  | .rdyTimeout c addr => Sys2Proof.Machine.execRdyTimeout c addr s
  | .selfAccess c addr => Sys2Proof.Machine.execSelfAccess c addr s
  | .gntTimeout => Sys2Proof.Machine.execGntTimeout s
  | .releaseGapExpiry => Sys2Proof.Machine.execReleaseGapExpiry s
  | .dmaPlace => Sys2Proof.Machine.execDmaPlace s
  | .dmaBurst data => Sys2Proof.Machine.execDmaBurst data s
  | .dmaPollTimer c => Sys2Proof.Machine.execDmaPollTimer c s
  | .descriptorReadDone c bytes => Sys2Proof.Machine.execDescriptorReadDone c bytes s
  | .listEntryRead c dst bytes => Sys2Proof.Machine.execListEntryRead c dst bytes s
  | .dmaCompletion c => Sys2Proof.Machine.execDmaCompletion c s
  | .queuePick => Sys2Proof.Machine.execQueuePick s
  | .commandFetched slot => Sys2Proof.Machine.execCommandFetched slot s
  | .nop slot => Sys2Proof.Machine.execNop slot s
  | .read run => Sys2Proof.Machine.execRead run s
  | .write run => Sys2Proof.Machine.execWrite run s
  | .verify slot => Sys2Proof.Machine.execVerify slot s
  | .trim slot => Sys2Proof.Machine.execTrim slot s
  | .flush slot => Sys2Proof.Machine.execFlush slot s
  | .flushComplete slot => Sys2Proof.Machine.execFlushComplete slot s
  | .whistleCommand slot => Sys2Proof.Machine.execWhistleCommand slot s
  | .whistleComplete slot => Sys2Proof.Machine.execWhistleComplete slot s
  | .writePauseRelease slot => Sys2Proof.Machine.execWritePauseRelease slot s
  | .lockGrant => Sys2Proof.Machine.execLockGrant s
  | .poolGrant pool => Sys2Proof.Machine.execPoolGrant pool s
  | .completionPost slot => Sys2Proof.Machine.execCompletionPost slot s
  | .completionWriteFault slot self addr => Sys2Proof.Machine.execCompletionWriteFault slot self addr s
  | .coalesceTimerExpiry st => Sys2Proof.Machine.execCoalesceTimerExpiry st s
  | .cardInserted p => Sys2Proof.Machine.execCardInserted p s
  | .cardRemoved p => Sys2Proof.Machine.execCardRemoved p s
  | .signatureRead p d => Sys2Proof.Machine.execSignatureRead p d s
  | .identFailed p unsupported => Sys2Proof.Machine.execIdentFailed p unsupported s
  | .signatureRefresh m => Sys2Proof.Machine.execSignatureRefresh m s
  | .memberOpIssue p => Sys2Proof.Machine.execMemberOpIssue p s
  | .memberOpDone p r => Sys2Proof.Machine.execMemberOpDone p r s
  | .memberOpTimeout p retuned => Sys2Proof.Machine.execMemberOpTimeout p retuned s
  | .refereeDecay => Sys2Proof.Machine.execRefereeDecay s
  | .pageProgramDone => Sys2Proof.Machine.execPageProgramDone s
  | .recordSeal => Sys2Proof.Machine.execRecordSeal s
  | .retirement slot => Sys2Proof.Machine.execRetirement slot s
  | .trimDoneUpdate slot => Sys2Proof.Machine.execTrimDoneUpdate slot s
  | .flushAgeExpiry a stripe => Sys2Proof.Machine.execFlushAgeExpiry a stripe s
  | .flushStep id => Sys2Proof.Machine.execFlushStep id s
  | .trimStripeApply slot => Sys2Proof.Machine.execTrimStripeApply slot s
  | .tileMend => Sys2Proof.Machine.execTileMend s
  | .restorationStep a => Sys2Proof.Machine.execRestorationStep a s
  | .restorationFinish a => Sys2Proof.Machine.execRestorationFinish a s
  | .copyBackStep a => Sys2Proof.Machine.execCopyBackStep a s
  | .copyBackFinish a => Sys2Proof.Machine.execCopyBackFinish a s
  | .inspectionStep a => Sys2Proof.Machine.execInspectionStep a s
  | .inspectionFinish a => Sys2Proof.Machine.execInspectionFinish a s
  | .backgroundCheckpoint a => Sys2Proof.Machine.execBackgroundCheckpoint a s
  | .repaintCopyStep a => Sys2Proof.Machine.execRepaintCopyStep a s
  | .watermarkCommit a => Sys2Proof.Machine.execWatermarkCommit a s
  | .cutover a => Sys2Proof.Machine.execCutover a s
  | .returnStep a => Sys2Proof.Machine.execReturnStep a s
  | .returnEnd a => Sys2Proof.Machine.execReturnEnd a s
  | .ledgerAudit => Sys2Proof.Machine.execLedgerAudit s
  | .ctrlParity unit address => Sys2Proof.Machine.execCtrlParity unit address s
  | .tier2TransferDone => Sys2Proof.Machine.execTier2TransferDone s
  | .tier2DqsTimeout => Sys2Proof.Machine.execTier2DqsTimeout s
  | .tier2CheckRead reg0 => Sys2Proof.Machine.execTier2CheckRead reg0 s
  | .linkTrainingStart fb => Sys2Proof.Machine.execLinkTrainingStart fb s
  | .forwardedClockSeen fb => Sys2Proof.Machine.execForwardedClockSeen fb s
  | .trainingComplete fb => Sys2Proof.Machine.execTrainingComplete fb s
  | .trainingTimeout fb => Sys2Proof.Machine.execTrainingTimeout fb s
  | .linkBreak fb => Sys2Proof.Machine.execLinkBreak fb s
  | .brokenHoldExpiry fb => Sys2Proof.Machine.execBrokenHoldExpiry fb s
  | .linkFlit fb payload => Sys2Proof.Machine.execLinkFlit fb payload s
  | .linkFlitTimer fb => Sys2Proof.Machine.execLinkFlitTimer fb s
  | .packetReceiveError fb crc => Sys2Proof.Machine.execPacketReceiveError fb crc s
  | .resendTimeout fb => Sys2Proof.Machine.execResendTimeout fb s
  | .packetForward fb kind p => Sys2Proof.Machine.execPacketForward fb kind p s
  | .rollCallStart => Sys2Proof.Machine.execRollCallStart s
  | .rollCall fb p => Sys2Proof.Machine.execRollCall fb p s
  | .rollAnswer fb p rtt => Sys2Proof.Machine.execRollAnswer fb p rtt s
  | .rollCallCollectEnd => Sys2Proof.Machine.execRollCallCollectEnd s
  | .rollAssign fb p => Sys2Proof.Machine.execRollAssign fb p s
  | .rollAck fb p => Sys2Proof.Machine.execRollAck fb p s
  | .rollDone fb p => Sys2Proof.Machine.execRollDone fb p s
  | .linkNote fb p => Sys2Proof.Machine.execLinkNote fb p s
  | .ping fb p => Sys2Proof.Machine.execPing fb p s
  | .pong fb p => Sys2Proof.Machine.execPong fb p s
  | .requestTimeout k tag => Sys2Proof.Machine.execRequestTimeout k tag s
  | .pingTimeout k tag => Sys2Proof.Machine.execPingTimeout k tag s
  | .tableFwd fb p => Sys2Proof.Machine.execTableFwd fb p s
  | .memberReport fb p => Sys2Proof.Machine.execMemberReport fb p s
  | .memberReportTimer => Sys2Proof.Machine.execMemberReportTimer s
  | .memberSet fb p => Sys2Proof.Machine.execMemberSet fb p s
  | .powerOrder fb p => Sys2Proof.Machine.execPowerOrder fb p s
  | .powerAck fb p => Sys2Proof.Machine.execPowerAck fb p s
  | .logFwd fb p => Sys2Proof.Machine.execLogFwd fb p s
  | .mread fb p => Sys2Proof.Machine.execMread fb p s
  | .mreadData fb p => Sys2Proof.Machine.execMreadData fb p s
  | .mwrite fb p => Sys2Proof.Machine.execMwrite fb p s
  | .mwriteData fb p => Sys2Proof.Machine.execMwriteData fb p s
  | .merase fb p => Sys2Proof.Machine.execMerase fb p s
  | .psumReq fb p => Sys2Proof.Machine.execPsumReq fb p s
  | .psumData fb p => Sys2Proof.Machine.execPsumData fb p s
  | .opDone fb p => Sys2Proof.Machine.execOpDone fb p s
  | .frameBoundary au2 => Sys2Proof.Machine.execFrameBoundary au2 s
  | .streamTileArrived layer n => Sys2Proof.Machine.execStreamTileArrived layer n s
  | .hostRefillDone layer => Sys2Proof.Machine.execHostRefillDone layer s
  | .supplyBelowResetLevel vstby sup cut => Sys2Proof.Machine.execSupplyBelowResetLevel vstby sup cut s
  | .powerGoodCountRestart sup => Sys2Proof.Machine.execPowerGoodCountRestart sup s
  | .bankReturn b => Sys2Proof.Machine.execBankReturn b s

end Sys2Proof.Machine
end

