-- ==== Sys2Proof/Safety.lean ====
section
/-! DEFINITION. What counts as a safe run, and the forms in which statements about a step are written. -/

namespace Sys2Proof.Safety

open Sys2Proof.Machine

/-- The command answers a next state, and the next state has the property. -/
def reaches (i : Instr) (s : State) (Q : State → Prop) : Prop := ∃ t, exec i s = .next t ∧ Q t

/-- A control path at work: it is there, nothing turns its accesses away, and the part is awake with no entry to a sleep
state under way, its own or an ordered one, so that a write through it takes effect at once (R144, R152). -/
def openPath (p : Path) (s : State) : Prop :=
  pathLive p s = true ∧ pathBusy p s = false ∧ s.power.state = .run ∧ s.power.waking = false ∧ s.power.entry = none ∧
    s.power.ordered = none ∧ s.power.orderDue = none

/-- A path whose arm has this code and lasts for one more access (R148, R149). -/
def hasArm (p : Path) (code : BitVec 16) (s : State) : Prop :=
  (pathGet p s).arm.any (fun a => a.code == code && decide (0 < a.left)) = true

/-- The state with a path's arm spent (R149). -/
def armSpent (p : Path) (s : State) : State := pathPut p { pathGet p s with arm := none } s

/-- The other control path. -/
def otherPath (p : Path) : Path :=
  match p with
  | .cport => .mirror
  | .mirror => .cport

/-- The staged words of a path's cursor with the word it stands on written whole (R167). -/
def stagedWith (p : Path) (w : Word) (s : State) : List Word :=
  let c := (pathGet p s).cur
  c.staged.set c.word.toNat (mergeLanes 0xF (wordAt c.staged c.word.toNat) w)

/-- A path's cursor stands on the last word of an entry of a space, the path is open and no commit of it is in progress,
so that a full-width write of TBL_DATA commits the entry (R167). -/
def readyToCommit (p : Path) (space e : Nat) (s : State) : Prop :=
  openPath p s ∧ commitOn p s = false ∧ atLastWord p space s = true ∧ (pathGet p s).cur.entry.toNat = e

/-- A commit of the staged words with the last word written passes every check (R169). -/
def commitPasses (p : Path) (w : Word) (s : State) : Prop :=
  commitCheck { (pathGet p s).cur with staged := stagedWith p w s } (stagedWith p w s) s = (trOk, 0)

/-- A path shows an accepted commit: RESULT OK with DETAIL 0, and CSEQ one higher (R171). -/
def committed (p : Path) (s t : State) : Prop :=
  (pathGet p t).tResult = trOk ∧ (pathGet p t).tDetail = 0 ∧ (pathGet p t).cseq = (pathGet p s).cseq + 1

/-- SEQ, the identity, the node number and the body that a copy of the NV configuration holds whole (R121, R122). -/
def holdsWhole (c : NvCopy) : Option (Word × Dword × BitVec 4 × NvBody) :=
  match c with
  | .valid q f n b => some (q, f, n, b)
  | .blank _ | .bad _ | .bodyBad _ _ _ _ _ => none

/-- The commit commands of the entries that the NV configuration keeps, with their spaces (R170, R172). -/
def nvCommits (p : Path) (w : Word) : List (Instr × Nat) :=
  [(.memberCommit p w, 0x01), (.arrayCommit p w, 0x02), (.volumeCommit p w, 0x03), (.studioCommit p w, 0x04),
   (.refereeCommit p w, 0x0D), (.hostRegionCommit p w, 0x0F)]

/-- The management commands with their codes (R177). -/
def mgmtCommands (p : Path) : List (Instr × Byte) :=
  [(.assemble p, 0x01), (.forceAssemble p, 0x02), (.createArray p, 0x03), (.deleteArray p, 0x04), (.createVolume p, 0x05),
   (.deleteVolume p, 0x06), (.setOwner p, 0x07), (.addBench p, 0x08), (.removeBench p, 0x09), (.retireMember p, 0x0A),
   (.startRestoration p, 0x0B), (.copyBack p, 0x0C), (.startInspection p, 0x0D), (.startRepaint p, 0x0E),
   (.abortRepaint p, 0x0F), (.pauseBackground p, 0x10), (.resumeBackground p, 0x11), (.stopArray p, 0x12)]

/-- What the end of a command's effect may touch: the queues with what a command holds (locks, pools, transfers, tiles,
journal work, member operations, its FIFO), and the log with where its records go; every other component and both byte
memories stay. -/
def commandFrame (s t : State) : Prop :=
  t = { s with
    canvas := t.canvas, dma := t.dma, hbu := t.hbu, ledger := t.ledger, log := t.log, members := t.members, nv := t.nv,
    queues := t.queues, ring := t.ring, skb := t.skb } ∧
  t.hbu.mailbox = s.hbu.mailbox ∧ t.hbu.ringSram = s.hbu.ringSram

/-- The command in a CMD_SLOT has its status, and its completion is due (R248). -/
def decided (i : Nat) (status detail : Byte) (result : Word) (t : State) : Prop :=
  ∃ y, slotGet i t = some y ∧ y.stage = .done ∧ y.status = status ∧ y.detail = detail ∧ y.result = result

/-- No sleep state, and no entry to one: an access wakes nothing and cancels nothing (R91). -/
def awake (s : State) : Prop :=
  s.power.state = .run ∧ s.power.entry = none ∧ s.power.ordered = none ∧ s.power.orderDue = none

/-- The bus is the part's, no access is under way, and a channel's work may use it (R202). -/
def busOurs (s : State) : Prop :=
  unitsRun s = true ∧ s.dma.en = true ∧ s.hbu.masterEn = true ∧ s.hbu.tenure.isSome = true ∧ s.hbu.access = none

/-- An access that has cycles left begins at an address that its studio may use (R206). -/
def beginsAt (st : Fin 8) (l : List MCycle) (s : State) : Prop :=
  ∃ h ∈ l.head?, regionAllows st h.addr s = true

/-- The next cycle of the tenure is the last one of an access, whose channel is not stopping. -/
def lastCycle (a : Access) (h : MCycle) (s : State) : Prop :=
  unitsRun s = true ∧ s.hbu.tenure.isSome = true ∧ s.hbu.access = some a ∧ a.cycles = [h] ∧ (chanGet a.chan s).state ≠ .stopping

/-- What the last cycle of an access leaves of the memories, and what it shows as written. -/
def accessEnded (a : Access) (h : MCycle) (s t : State) : Prop :=
  t.hbu.access = none ∧ t.hbu.mailbox = s.hbu.mailbox ∧ t.hbu.ringSram = s.hbu.ringSram ∧
    t.hbu.lastWrite = (if h.out.isSome then a.wrote ++ h.cells else s.hbu.lastWrite) ∧
    ∀ d, d ≠ a.chan → chanGet d t = chanGet d s

/-- A whole packet of a kind arrives in order, with a LEN that its kind may have, on an UP port of a part at work
(R472, R477, R478). -/
def inOrder (fb : Bool) (kind : Byte) (p : Pkt) (s : State) : Prop :=
  unitsUp s = true ∧ (rport fb s).link = .up ∧ p.lseq = (rport fb s).rxSeq ∧ lenOk kind p.flits.length = true

/-- The state whose port has accepted the packet that it expected (R472). -/
def accepted (fb : Bool) (s : State) : State :=
  rportPut fb { rport fb s with rxSeq := (rport fb s).rxSeq + 1, gotAny := true, discarding := false } s

/-- The packet is for this worker alone (R480). -/
def forWorker (p : Pkt) (s : State) : Prop := isManager s = false ∧ p.bcast = false ∧ consumes p s = true

/-- A packet of a kind stands at a port: it waits to be sent there, or it has been sent and is not acknowledged. -/
def sentOn (fb : Bool) (kind : Byte) (f : Pkt → Prop) (t : State) : Prop :=
  ∃ x ∈ (rport fb t).out ++ (rport fb t).replay, x.kind = kind ∧ f x.p

/-- An operation waits in a class queue of a port of this node (R443). -/
def queued (p : Fin 8) (f : MOp → Prop) (t : State) : Prop :=
  ∃ o ∈ (portGet p t).qa ++ (portGet p t).qb ++ (portGet p t).qc, f o

/-- A roll call has ended (R483, R489, R495): SHAPE and WORKERS, the entry of each worker that was numbered, and no roll
call under way. -/
def numberedBy (r : Roll) (s t : State) : Prop :=
  t.ring.roll = none ∧ t.ring.rollSeq = s.ring.rollSeq ∧ t.ring.twoManagers = false ∧ t.ring.adopt = none ∧
    t.ring.shape = (if r.returned.isSome then 1 else if r.answers.isEmpty then 0 else 2) ∧
    t.ring.workers = BitVec.ofNat 4 (r.plan.filter fun n => n.out == .worker).length ∧
    (∀ k : Fin 16, k ≠ 0 → ∀ n, r.plan.find? (fun n => n.out == .worker && n.node.toNat == k.val) = some n →
      (t.ring.nodes.get k).status = .worker ∧ (t.ring.nodes.get k).hopsA = n.hopsA ∧
        (t.ring.nodes.get k).hopsB = n.hopsB ∧ (t.ring.nodes.get k).fabricId = s.ident.fabricId) ∧
    t.members = s.members ∧ t.arrs = s.arrs

/-- An outcome is a next state. -/
def isNext (o : Host.Outcome State Fault Refusal) : Bool :=
  match o with
  | .next _ => true
  | .fault _ => false
  | .refused _ => false

/-- The first k steps from a state all answer a next state. -/
def safeFor (k : Nat) (s : State) : Prop := isNext (Host.Core.run Sys2Proof.core k s) = true

end Sys2Proof.Safety
end

