-- ==== Sys2Proof/Certificates/Slice0/Obligations.lean ====
section
/-! DEFINITION. The statements for the provers: what the numbered rules of the manual, and the model's own declared choices,
say that the commands do. `reaches i s Q` says that exec i s answers a next state t with Q t. An equation
`t = { s with a := t.a }` is a frame: every other component of the state is unchanged. -/

open Sys2Proof Sys2Proof.Machine Sys2Proof.Safety

/-- For every command c and state s, the step of s with c at the front of its queue is exec c on s with the queue's rest;
with an empty queue the step answers the state itself (the model's choice, log entry 1). (01_machine_in_one_pass.md) -/
def Obligations.StepRunsTheFrontCommand : Prop :=
  ∀ (c : Instr) (rest : List Instr) (s : State),
    step { s with pending := c :: rest } = exec c { s with pending := rest } ∧
    step { s with pending := [] } = .next { s with pending := [] }

/-- The reset state: LEVEL0 in bypass at stage 3 of the restart path, the PLL off, TICK 0; SVC_LEVEL's level, IRQ_MASK
0x8000_0000 beside its enabled CPORT bits 0x4000_0000, HB_CFG, LOG_TAIL.THRESH 1, CLK_CTRL.XCLK_SEL 3, RST_CAUSE, CHIP_ID
and SKB_CTRL as the manual gives them; the SCRATCH registers 0, every pool whole, both paths, the queues and the block's
own queue of commands empty, the RESTART note in the log, both byte memories in their canonical form. The factory part
(both copies of the NV configuration blank), the straps at the levels of the internal pulls and VCORE at 1000 mV are the
model's choices (log entry 4). (04_power_and_clocks.md, 05_resets_and_restart.md, 07_control_registers.md,
22_state_catalogue.md, 23_faults_and_interrupts.md) -/
def Obligations.ResetStateValues : Prop :=
  let s := State.reset
  s.restart.level = .level0 ∧ s.restart.stage = 3 ∧ s.clk.bypass = true ∧ s.clk.pllEn = false ∧ s.clk.tick = 0 ∧
    regRead .cport 0x2C s = 0xC0000000#32 ∧ regRead .cport 0x58 s = 0x40000000#32 ∧ regRead .cport 0x3C s = 0x01000000#32 ∧
    regRead .cport 0x18 s = 0x00C00000#32 ∧ regRead .cport 0x24 s = 0x01000F01#32 ∧ regRead .cport 0x00 s = 0x4C4E0816#32 ∧
    s.skb.pausePct = 95 ∧ s.skb.hwmPct = 75 ∧ s.skb.flushAge = 100 ∧ s.scratch = Vector.replicate 8 0 ∧
    s.ledger.pools = poolsReset ∧ s.pathC = {} ∧ s.pathM = {} ∧ s.queues = {} ∧ s.pending = [] ∧
    s.log.recs.map (·.code) = [0x01] ∧ s.nv.a = .blank none ∧ s.nv.b = .blank none ∧
    s.restart.straps = ⟨true, 0, 0, false, false⟩ ∧ s.power.sup.vcoreMv = 1000 ∧
    Memory.wf s.hbu.mailbox = true ∧ Memory.wf s.hbu.ringSram = true

/-- POWER_ON from OFF: the core is held in a class P reset with the supplies given, power-good not yet met and LEVEL0; the
log, queues, channels, Palette, ring, pools, both paths, SCRATCH registers, mailbox and ring SRAM are as after reset, and
XIN does not run yet; the standby domain takes its reset values where VSTBY itself rose and stays elsewhere; of the NV area
only what was requested and not programmed is gone, and the records, pages and torn slots of the Sketchbook stay.
(05_resets_and_restart.md, 04_power_and_clocks.md) -/
def Obligations.PowerOnResetsThePart : Prop :=
  ∀ (s : State) (sup : Supplies) (vstby : Bool), s.power.core = .off →
    reaches (.powerOn sup vstby) s fun t =>
      t.power.core = .inResetP ∧ t.power.sup = sup ∧ t.power.pgMet = false ∧ t.power.state = .run ∧ t.power.vpfSel = 0 ∧
      t.restart.level = .level0 ∧ t.clk = { xinOk := false } ∧ t.scratch = Vector.replicate 8 0 ∧ t.hbu.mailbox = [] ∧
      t.hbu.ringSram = [] ∧ t.log = {} ∧ t.queues = {} ∧ t.dma = {} ∧ t.palette = {} ∧ t.ring = {} ∧ t.ledger = {} ∧
      t.pathC = {} ∧ t.pathM = {} ∧
      t.standby = (if vstby then { levelLatch := none, restartCount := 0, wakePinEn := true, supEn := true } else s.standby) ∧
      t.nv = { s.nv with prog := [], commits := [] } ∧ t.skb.recs = s.skb.recs ∧ t.skb.pages = s.skb.pages ∧
      t.skb.torn = s.skb.torn

/-- POWER_GOOD_MET where the levels meet every condition: power-good is met and XIN runs, in a class P or D reset alone, and
through a class P reset from STOPPED and from a STANDBY exit, whose source is then shown as WAKE_SRC; where a level fails,
nothing changes. POWER_GOOD_COUNT_RESTART only clears the condition. SUPPLY_BELOW_RESET_LEVEL turns the part off, but that
in STANDBY the loss of VCORE alone changes the levels alone; a running part stops as after a trip first, with the bus
released, its source latched where VSTBY stays and no program operation left; with VSTBY the standby domain loses its
contents. (04_power_and_clocks.md, 05_resets_and_restart.md, 22_state_catalogue.md) -/
def Obligations.PowerGoodMovesTheCore : Prop :=
  ∀ (s : State) (sup : Supplies) (cut : ProgEnd),
    (supplyGood sup s = true → s.power.core = .inResetP ∨ s.power.core = .inResetD →
      reaches (.powerGoodMet sup) s fun t =>
        t = { s with power := { s.power with sup := sup, pgMet := true }, clk := { s.clk with xinOk := true } }) ∧
    (supplyGood sup s = true → s.power.core = .stopped →
      reaches (.powerGoodMet sup) s fun t =>
        t.power.core = .inResetP ∧ t.power.pgMet = true ∧ t.power.sup = sup ∧ t.restart.level = .level0 ∧
        t.clk = { xinOk := true } ∧ t.standby = s.standby ∧ t.nv = { s.nv with prog := [], commits := [] } ∧
        t.skb.recs = s.skb.recs ∧ t.hbu.mailbox = []) ∧
    (∀ src, supplyGood sup s = true → s.power.core = .standby → s.standby.exiting = some src →
      reaches (.powerGoodMet sup) s fun t =>
        t.power.core = .inResetP ∧ t.power.pgMet = true ∧ t.clk = { xinOk := true } ∧
        t.standby = { s.standby with wakeSrc := src } ∧ t.nv = { s.nv with prog := [], commits := [] } ∧
        t.skb.recs = s.skb.recs) ∧
    (supplyGood sup s = false → reaches (.powerGoodMet sup) s fun t => t = s) ∧
    (s.power.core ≠ .running → s.power.core ≠ .off →
      reaches (.powerGoodCountRestart sup) s fun t => t = { s with power := { s.power with sup := sup, pgMet := false } }) ∧
    (running s = false → reaches (.supplyBelowResetLevel true sup cut) s fun t =>
      t = { s with
        power := { s.power with sup := sup, core := .off, state := .off, pgMet := false }
        standby := { levelLatch := none, restartCount := 0, supEn := false } }) ∧
    (s.power.core = .stopped ∨ s.power.core = .inResetP ∨ s.power.core = .inResetD →
      reaches (.supplyBelowResetLevel false sup cut) s fun t =>
        t = { s with power := { s.power with sup := sup, core := .off, state := .off, pgMet := false } }) ∧
    (s.power.core = .standby → reaches (.supplyBelowResetLevel false sup cut) s fun t =>
      t = { s with power := { s.power with sup := sup } }) ∧
    (s.power.core = .running →
      (reaches (.supplyBelowResetLevel false sup cut) s fun t =>
        t.power.core = .off ∧ t.power.pgMet = false ∧ t.standby = { s.standby with tripLatch := some .vcore } ∧
        t.hbu.breq = false ∧ t.hbu.tenure = none ∧ t.nv.prog = []) ∧
      (reaches (.supplyBelowResetLevel true sup cut) s fun t =>
        t.power.core = .off ∧ t.power.state = .off ∧ t.standby = { levelLatch := none, restartCount := 0, supEn := false } ∧
        t.hbu.breq = false ∧ t.hbu.tenure = none ∧ t.nv.prog = []))

/-- RESET_N_LOW on a running part whose program engine is idle: a class D reset, which leaves the clocks, log, queues,
channels, Palette, ring, pools, both paths, the control port, the management engine, the SCRATCH registers, the mailbox and
the ring SRAM as after reset and binds no tile, and keeps the standby domain, canvas memory's contents, the Sketchbook's
records and pages and the NV copies. RESET_END of a class P or D reset with power-good met: the part runs with the straps
sampled, RESTART_COUNT counts, the trip and exit latches of the standby domain are taken and the level is latched, the
epoch of the ring starts at 16 times RESTART_COUNT, CAUSE follows the rules in their order (a STANDBY exit, a latched loss
of XIN, another latched trip, then the reset pin or a power-on), and what no stage of the path up to the wait for lock
touches is as before. (05_resets_and_restart.md, 03_package_and_pins.md) -/
def Obligations.ResetPinAndItsEnd : Prop :=
  (∀ (s : State) (cut : ProgEnd), running s = true → s.nv.prog = [] →
    reaches (.resetNLow cut) s fun t =>
      t.power.core = .inResetD ∧ t.power.state = .run ∧ t.power.entry = none ∧ t.power.vpfSel = 0 ∧ t.restart.level = .level0 ∧
      t.clk = { xinOk := s.clk.xinOk } ∧ t.scratch = Vector.replicate 8 0 ∧ t.log = {} ∧ t.queues = {} ∧ t.dma = {} ∧
      t.palette = {} ∧ t.ring = {} ∧ t.ledger = {} ∧ t.pathC = {} ∧ t.pathM = {} ∧ t.cport = {} ∧ t.mgmt = {} ∧
      t.hbu.mailbox = [] ∧ t.hbu.ringSram = [] ∧ t.standby = s.standby ∧ t.canvas.tiles = [] ∧ t.canvas.era = s.canvas.era ∧
      t.nv = { s.nv with prog := [], commits := [] } ∧ t.skb.recs = s.skb.recs ∧ t.skb.pages = s.skb.pages) ∧
  (∀ (s : State) (straps : Straps),
    s.power.core = .inResetP ∨ s.power.core = .inResetD → s.power.pgMet = true →
    reaches (.resetEnd straps) s fun t =>
      t.power.core = .running ∧ t.restart.straps = straps ∧ t.restart.level = s.restart.level ∧
      t.standby.restartCount = ctrInc s.standby.restartCount ∧ t.standby.tripLatch = none ∧ t.standby.exiting = none ∧
      t.standby.levelLatch = some .level0 ∧ t.ring = { s.ring with rollSeq := BitVec.ofNat 8 (16 * (ctrInc s.standby.restartCount).toNat) } ∧
      (s.standby.exiting.isSome = true → t.restart.cause = .standbyExit) ∧
      (s.standby.exiting = none → s.standby.tripLatch = some .xin → t.restart.cause = .xinLoss) ∧
      (s.standby.exiting = none → s.standby.tripLatch.isSome = true → s.standby.tripLatch ≠ some .xin →
        t.restart.cause = .powerFail) ∧
      (s.standby.exiting = none → s.standby.tripLatch = none → s.power.fromBelow = false → t.restart.cause = .resetPin) ∧
      (s.standby.exiting = none → s.standby.tripLatch = none → s.power.fromBelow = true → s.nv.session ≠ .opened →
        t.restart.cause = .powerOn) ∧
      t = { s with
        power := t.power, restart := t.restart, standby := t.standby, clk := t.clk, ring := t.ring, log := t.log, nv := t.nv,
        skb := t.skb, ledger := t.ledger } ∧
      t.nv.a = s.nv.a ∧ t.nv.b = s.nv.b)

/-- POWER_FAIL_TRIP of a running part where the levels meet the source, and XIN_LOSS and BANK_ABSENT of bank 18 on a
running part: the core stops with power-good lost, the source is latched in the standby domain, the bus is released, the
access under way and the held target and DATA cycles are dropped, and no program operation or commit is left. Where no NV
commit ends in it, nothing outside the power state, the standby domain, the host bus, the Sketchbook, the NV area, the
paths' COMMIT_BUSY and the free values changes by a trip, and the slot of a cut record is torn and holds a free value. A
trip whose level is not met, and one of a part that does not run, changes nothing. XIN_LOSS also shows XIN lost; on CCLK
the PLL loses lock, which is not counted, and from LEVEL1 or LEVEL2 the part falls to LEVEL0. BANK_ABSENT of bank H holds a
running part in a class D reset with power-good lost; of bank 33 and of bank A it changes the level shown, and of bank A it
is also logged on a running part; of bank Sn it changes nothing. BANK_RETURN changes the level shown alone.
(04_power_and_clocks.md, 03_package_and_pins.md) -/
def Obligations.TripsAndBanks : Prop :=
  (∀ (s : State) (src : TripSrc) (sup : Supplies) (cut : ProgEnd),
    (running s = true → tripMet src sup s = true → reaches (.powerFailTrip src sup cut) s fun t =>
      t.power = { s.power with sup := sup, core := .stopped, pgMet := false } ∧
      t.standby = { s.standby with tripLatch := some src } ∧ t.hbu.breq = false ∧ t.hbu.tenure = none ∧
      t.hbu.access = none ∧ t.hbu.heldCycle = [] ∧ (∀ al, (aliasGet al t).pioWait = []) ∧ t.hbu.mailbox = s.hbu.mailbox ∧
      t.hbu.ringSram = s.hbu.ringSram ∧ t.nv.prog = [] ∧ t.nv.commits = [] ∧
      (cut ≠ .ends ∨ s.nv.prog.head? ≠ some .nv →
        t = { s with
          power := t.power, standby := t.standby, hbu := t.hbu, skb := t.skb, nv := t.nv, pathC := t.pathC, pathM := t.pathM,
          freeCtr := t.freeCtr })) ∧
    (∀ o slot r, running s = true → tripMet src sup s = true → cut ≠ .ends → s.nv.prog.head? = some (.record o slot r) →
      reaches (.powerFailTrip src sup cut) s fun t =>
        kget slot t.skb.torn = some s.freeCtr ∧ kget slot t.skb.recs = none ∧ t.nv.a = s.nv.a ∧ t.nv.b = s.nv.b) ∧
    (running s = false ∨ tripMet src sup s = false → reaches (.powerFailTrip src sup cut) s fun t => t = s)) ∧
  (∀ (s : State) (cut : ProgEnd), running s = true →
    (reaches (.xinLoss cut) s fun t =>
      t.power.core = .stopped ∧ t.power.pgMet = false ∧ t.standby.tripLatch = some .xin ∧ t.clk.xinOk = false ∧
      t.clk.lockLossCount = s.clk.lockLossCount ∧ t.hbu.breq = false ∧ t.hbu.tenure = none ∧ t.nv.prog = [] ∧
      (s.clk.bypass = true → t.clk = { s.clk with xinOk := false }) ∧
      (s.clk.bypass = false → t.clk.pllLock = false ∧ t.clk.bypass = true ∧
        (s.restart.level = .level1 ∨ s.restart.level = .level2 → t.restart.level = .level0))) ∧
    (reaches (.bankAbsent .b18 cut) s fun t =>
      t.power = { s.power with sup := { s.power.sup with vio18 := false }, core := .stopped, pgMet := false } ∧
      t.standby = { s.standby with tripLatch := some .vio18 } ∧ t.hbu.breq = false ∧ t.hbu.tenure = none ∧ t.clk = s.clk ∧
      t.nv.prog = []) ∧
    (reaches (.bankAbsent .a cut) s fun t =>
      t.power = { s.power with sup := { s.power.sup with vioA := false } } ∧
      counterGet 0x06 t = ctrInc (counterGet 0x06 s) ∧
      t = { s with power := t.power, log := t.log, ring := t.ring, nv := t.nv }) ∧
    (reaches (.bankAbsent .h cut) s fun t =>
      t.power.core = .inResetD ∧ t.power.pgMet = false ∧ t.power.sup.vioH = false ∧ t.restart.level = .level0 ∧
      t.queues = {} ∧ t.standby = s.standby)) ∧
  (∀ (s : State) (cut : ProgEnd) (p : Fin 8) (b : Bank),
    (reaches (.bankAbsent .b33 cut) s fun t =>
      t = { s with power := { s.power with sup := { s.power.sup with vio33 := false } } }) ∧
    (reaches (.bankAbsent (.sn p) cut) s fun t => t = s) ∧
    (running s = false → reaches (.bankAbsent .a cut) s fun t =>
      t = { s with power := { s.power with sup := { s.power.sup with vioA := false } } }) ∧
    (reaches (.bankReturn b) s fun t => t = { s with power := { s.power with sup := t.power.sup } } ∧
      (b = .h → t.power.sup = { s.power.sup with vioH := true }) ∧
      (b = .b18 → t.power.sup = { s.power.sup with vio18 := true }) ∧
      (b = .b33 → t.power.sup = { s.power.sup with vio33 := true }) ∧
      (b = .a → t.power.sup = { s.power.sup with vioA := true }) ∧
      (b = .sn p → t = s)))

/-- PLL_START with the PLL off and without lock sets PLL_EN and nothing else of the clocks. PLL_STOP at LEVEL0 clears
PLL_EN: before stage 4 nothing else but the mark of a lost lock changes; in stages 4 to 7, with no program operation in
flight, the path waits at stage 3 again with its holds ended, its tables dropped and the NV copies, records and pages
kept. Above LEVEL0 PLL_STOP leaves the clocks and counts a PLL_STOP_REFUSED note. PLL_LOCK of a running PLL shows the lock
and its time and, from stage 3 at LEVEL0 with a readable configuration, begins stage 4. A retry by itself changes nothing.
XCLK_SEL takes effect between transactions. (04_power_and_clocks.md, 05_resets_and_restart.md) -/
def Obligations.PllStartsStopsAndLocks : Prop :=
  ∀ (s : State) (p : Path) (ticks : Byte),
    (openPath p s → s.clk.pllEn = false → s.clk.pllLock = false → reaches (.pllStart p) s fun t =>
      t = { armAge p s with clk := { s.clk with pllEn := true }, restart := { s.restart with pllStarted := true } }) ∧
    (openPath p s → s.clk.pllEn = true → s.restart.level = .level0 →
      (s.restart.stage < 4 → reaches (.pllStop p) s fun t =>
        t = { armAge p s with clk := { s.clk with pllEn := false, lostLock := false } }) ∧
      (4 ≤ s.restart.stage → s.restart.nvcfgLost = false → s.nv.prog = [] → reaches (.pllStop p) s fun t =>
        t.clk = { s.clk with pllEn := false, lostLock := false } ∧
        t.restart = { s.restart with stage := 3, deadline := false, skbFault := false, canvasFault := false } ∧
        t.nv = { s.nv with prog := [], commits := [] } ∧ t.skb.recs = s.skb.recs ∧ t.skb.pages = s.skb.pages ∧
        t.arrs = ({} : State).arrs ∧ t.vols = ({} : State).vols ∧ t.scratch = s.scratch ∧ t.hbu = s.hbu)) ∧
    (openPath p s → s.clk.pllEn = true → s.restart.level ≠ .level0 → reaches (.pllStop p) s fun t =>
      counterGet 0x04 t = ctrInc (counterGet 0x04 s) ∧ t = { armAge p s with log := t.log, ring := t.ring, nv := t.nv }) ∧
    (running s = true → s.clk.pllEn = true → s.clk.pllLock = false → s.power.state = .run → s.power.waking = false →
      s.restart.pllRestart = none → reaches (.pllLock ticks) s fun t =>
        t.clk = { s.clk with pllLock := true, lostLock := false, lastLockTime := ticks } ∧
        (s.restart.level = .level0 → s.restart.stage = 3 → s.restart.nvcfgLost = false → t.restart.stage = 4) ∧
        t.restart.level = s.restart.level ∧ t.nv.a = s.nv.a ∧ t.nv.b = s.nv.b ∧ t.scratch = s.scratch) ∧
    (reaches .pllLockRetry s fun t => t = s) ∧
    (running s = true → reaches .xclkSelChange s fun t => t = { s with clk := { s.clk with xclkAct := s.clk.xclkSel } })

/-- PLL_LOCK_LOSS at LEVEL1 or LEVEL2 with no program operation in flight: LOCK_LOSS_COUNT counts, the core runs from XIN
in bypass, the level becomes LEVEL0 at stage 3 with the restart after lock remembered, both links are DARK, queues,
channels and the Palette are as after reset, the bus is released, no sleep entry is left; TICK, PLL_EN, the SCRATCH
registers, the mailbox and ring SRAM, the identity, the roster and the NV copies stay. (04_power_and_clocks.md,
22_state_catalogue.md, 23_faults_and_interrupts.md) -/
def Obligations.LockLossFallsToLevel0 : Prop :=
  ∀ (s : State) (elapsed : Nat) (cut : ProgEnd), running s = true → s.clk.pllLock = true → s.nv.prog = [] →
    s.restart.level = .level1 ∨ s.restart.level = .level2 →
    reaches (.pllLockLoss elapsed cut) s fun t =>
      t.clk.pllLock = false ∧ t.clk.bypass = true ∧ t.clk.lostLock = true ∧
      t.clk.lockLossCount = ctrInc s.clk.lockLossCount ∧ t.clk.tick = s.clk.tick ∧ t.clk.pllEn = s.clk.pllEn ∧
      t.restart.level = .level0 ∧ t.restart.pllRestart = some s.restart.level ∧ t.restart.stage = 3 ∧
      t.queues = {} ∧ t.palette = {} ∧ t.dma = { en := s.dma.en } ∧ t.power.entry = none ∧ t.power.ordered = none ∧
      t.ring.fa.link = .dark ∧ t.ring.fb.link = .dark ∧ t.hbu.breq = false ∧ t.hbu.tenure = none ∧ t.hbu.access = none ∧
      t.scratch = s.scratch ∧ t.hbu.mailbox = s.hbu.mailbox ∧ t.hbu.ringSram = s.hbu.ringSram ∧ t.nv.a = s.nv.a ∧
      t.nv.b = s.nv.b ∧ t.ident = s.ident ∧ t.roster = s.roster

/-- TICK_STEP on a running part counts TICK by one, up to all-ones, begins a new step of the divider and, in bypass, moves
on in the 25-step pattern; the live levels of VCORE, PFAIL_N, WAKE_N, HB_BUSY_N and HB_BGNT_N are as the pins give them.
At it the core moves to CCLK where the PLL has locked, and to XIN with dark links where a stop of the PLL was accepted;
without lock the clocks stay as they are. TICK_LO_READ with lane 0 copies the high word into that path's holding register
and counts as an access for its arm, and changes nothing else. STRAP_CHECK at each hundredth TICK logs the first
difference since the reset and no other: levels equal to the sample, or a difference already logged, change only the
levels shown. (04_power_and_clocks.md, 03_package_and_pins.md, 23_faults_and_interrupts.md) -/
def Obligations.TickAndStraps : Prop :=
  (∀ (s : State) (pins : PinLevels), running s = true →
    reaches (.tickStep pins) s fun t =>
      t.clk.tick = ctrInc s.clk.tick ∧ t.clk.carry = 0 ∧ t.clk.decayed = false ∧ t.clk.pllEn = s.clk.pllEn ∧
      t.power = { s.power with sup := { s.power.sup with vcoreMv := pins.vcoreMv, pfailPin := pins.pfail, wakePin := pins.wake } } ∧
      t.hbu.busyIn = pins.busy ∧ t.hbu.gnt = pins.gnt ∧
      (s.clk.pllLock = false → t.clk.bypass = s.clk.bypass ∧ t.clk.pllLock = false ∧
        t.clk.pattern = (if s.clk.bypass then s.clk.pattern + 1 else s.clk.pattern)) ∧
      (s.clk.pllLock = true → s.clk.pllEn = true → t.clk.bypass = false ∧ t.clk.pllLock = true) ∧
      (s.clk.pllLock = true → s.clk.pllEn = false → t.clk.bypass = true ∧ t.clk.pllLock = false ∧
        t.ring.fa.link = .dark ∧ t.ring.fb.link = .dark) ∧
      t.scratch = s.scratch ∧ t.pathC = s.pathC ∧ t.pathM = s.pathM ∧ t.standby = s.standby ∧ t.restart = s.restart ∧
      t.hbu.mailbox = s.hbu.mailbox ∧ t.hbu.ringSram = s.hbu.ringSram) ∧
  (∀ (s : State) (p : Path) (l : Lanes), pathLive p s = true → lane l 0 = true →
    reaches (.tickLoRead p l) s fun t =>
      t = pathPut p { pathGet p (armAge p s) with tickHold := (s.clk.tick >>> 32).truncate 32 } s) ∧
  (∀ (s : State) (levels : Straps), running s = true → s.clk.tick.toNat % 100 = 0 →
    (levels = s.restart.straps ∨ s.restart.strapLogged = true →
      reaches (.strapCheck levels) s fun t => t = { s with restart := { s.restart with strapNow := levels } }) ∧
    (levels ≠ s.restart.straps → s.restart.strapLogged = false →
      reaches (.strapCheck levels) s fun t =>
        t.restart = { s.restart with strapNow := levels, strapLogged := true } ∧
        counterGet 0x02 t = ctrInc (counterGet 0x02 s) ∧
        t = { s with restart := t.restart, log := t.log, ring := t.ring, nv := t.nv }))

/-- SELF_CHECKS_DONE at stage 4 without a failure loads what the node's role needs from the chosen copy and reaches stage 5
with CSEQ 1 beyond the newest unretired record; with a failure of the Sketchbook or canvas memory it holds the part at
stage 4 with SKB_FAULT or CANVAS_FAULT and counts a SELF_CHECK_FAIL. DISCOVERY_DEADLINE changes the deadline alone.
LEVEL1_ENTRY once stage 7 has ended raises the level to LEVEL1 and requests the program of OPEN. LEVEL2_ENTRY at stage 9
on a manager with defined straps raises it to LEVEL2 with every enabled studio ACTIVE; with undefined straps, or a failed
self-check, it leaves it at LEVEL1, with HOST_FAULT for the latter. (05_resets_and_restart.md, 22_state_catalogue.md) -/
def Obligations.RestartPathStages : Prop :=
  ∀ (s : State),
    (atStage 4 s = true →
      (reaches (.selfChecksDone none none) s fun t =>
        t.restart = { s.restart with stage := 5 } ∧ t.skb = { s.skb with cseq := cseqFirst s } ∧ t.hbu = s.hbu ∧
        t.scratch = s.scratch) ∧
      (∀ q f n b, nvPresent s = .valid q f n b → reaches (.selfChecksDone none none) s fun t =>
        t.ident.fabricId = f ∧ t.referee.cfg = b.referee.sane ∧
        (isManager s = true → b.manager = true → t.roster = b.roster ∧ t.regions = b.regions)) ∧
      (∀ a, reaches (.selfChecksDone (some a) none) s fun t =>
        t.restart = { s.restart with skbFault := true } ∧ counterGet 0x08 t = ctrInc (counterGet 0x08 s) ∧ t.arrs = s.arrs) ∧
      (∀ a, reaches (.selfChecksDone none (some a)) s fun t =>
        t.restart = { s.restart with canvasFault := true } ∧ counterGet 0x08 t = ctrInc (counterGet 0x08 s) ∧
        t.arrs = s.arrs)) ∧
    (atStage 4 s = true ∨ atStage 5 s = true →
      reaches .discoveryDeadline s fun t => t = { s with restart := { s.restart with deadline := true } }) ∧
    (∀ tier2, atStage 5 s = true → replayed s = true →
      reaches (.level1Entry tier2) s fun t =>
        t.restart.level = .level1 ∧ .session true ∈ t.nv.prog ∧ t.standby.levelLatch = some .level1 ∧
        t.restart.stage = (if isManager s then 9 else 0) ∧ t.skb.recs = s.skb.recs ∧ t.scratch = s.scratch ∧
        t.hbu = s.hbu) ∧
    (unitsRun s = true → isManager s = true → s.restart.level = .level1 → s.restart.stage = 9 →
      (strapsDefined s = true → reaches (.level2Entry none) s fun t =>
        t.restart.level = .level2 ∧ t.restart.stage = 0 ∧ t.standby.levelLatch = some .level2 ∧
        (∀ st : Fin 8, (s.studios.get st).cfg.en = true → (t.studios.get st).state = .active) ∧ t.skb = s.skb ∧
        t.members = s.members ∧ t.arrs = s.arrs) ∧
      (strapsDefined s = false → reaches (.level2Entry none) s fun t => t = { s with restart := { s.restart with stage := 0 } }) ∧
      (∀ u a, reaches (.level2Entry (some (u, a))) s fun t =>
        t.restart = { s.restart with hostFault := true, stage := 0 } ∧ counterGet 0x08 t = ctrInc (counterGet 0x08 s) ∧
        t = { s with restart := t.restart, log := t.log, ring := t.ring, nv := t.nv }))

/-- CTRL_RST through an open path with its arm spends the arm and schedules the reset. CONTROL_RESET_START of an accepted
write with no program operation in flight clears by class C: the level is LEVEL0, the queues, channels, Palette, management
engine, mailbox, ring SRAM and AUTO_NAP are as after reset; TICK, the PLL's lock, the SCRATCH registers, the straps, the
CPORT's frame count and pending response, the links' ports and the NV copies stay, RESTART_COUNT counts and CAUSE reads a
control reset. Without an accepted write it does nothing. NV_CLEAR with its arm while NVCFG_LOST is shown leaves both
copies blank and spends the arm; elsewhere it only spends the arm. (05_resets_and_restart.md, 06_control_port.md) -/
def Obligations.ControlResets : Prop :=
  ∀ (s : State) (p : Path),
    (openPath p s → hasArm p 0x00C5 s → reaches (.ctrlRst p) s fun t =>
      t = { armSpent p s with restart := { s.restart with ctrlRst := true } }) ∧
    (openPath p s → hasArm p 0x00CE s →
      (s.restart.nvcfgLost = true → reaches (.nvClear p) s fun t =>
        t.nv.a.isBlank = true ∧ t.nv.b.isBlank = true ∧ t = { armSpent p s with nv := { s.nv with a := t.nv.a, b := t.nv.b } }) ∧
      (s.restart.nvcfgLost = false → reaches (.nvClear p) s fun t => t = armSpent p s)) ∧
    (∀ cut, running s = true → s.restart.ctrlRst = true → s.nv.prog = [] → s.standby.exiting = none →
      s.standby.tripLatch = none → s.power.fromBelow = false →
      reaches (.controlResetStart cut) s fun t =>
        t.restart.level = .level0 ∧ t.restart.cause = .control ∧ t.restart.ctrlRst = false ∧ t.queues = {} ∧ t.dma = {} ∧
        t.palette = {} ∧ t.mgmt = {} ∧ t.hbu.mailbox = [] ∧ t.hbu.ringSram = [] ∧ t.power.autoNap = 0 ∧
        t.clk.tick = s.clk.tick ∧ t.clk.pllLock = s.clk.pllLock ∧ t.scratch = s.scratch ∧
        t.restart.straps = s.restart.straps ∧ t.cport.fseq = s.cport.fseq ∧ t.cport.pend = s.cport.pend ∧
        t.ring.fa = s.ring.fa ∧ t.ring.fb = s.ring.fb ∧ t.nv.a = s.nv.a ∧ t.nv.b = s.nv.b ∧
        t.standby.restartCount = ctrInc s.standby.restartCount) ∧
    (∀ cut, s.restart.ctrlRst = false → reaches (.controlResetStart cut) s fun t => t = s)

/-- Through an open path, REQ = RUN ends DONE and changes nothing else of the power state. NAP and, on a manager, DOZE are
accepted at LEVEL1 or above with the idle condition, refused BUSY without it and LEVEL below LEVEL1; an armed STANDBY on a
manager out of FAILSTOP is accepted, refused FABRIC where a wake time is set beside a worker, and refused ARM unarmed. An
accepted request shows ENTERING as its entry, and DOZE and STANDBY wait for every worker. VPF_SEL takes a defined code
whose release level is not above VCORE, and any other is noted with VPF_REFUSED. AUTO_NAP requests NAP where the idle
condition holds at LEVEL1 or above. (04_power_and_clocks.md) -/
def Obligations.SleepRequests : Prop :=
  ∀ (s : State) (p : Path), openPath p s →
    (reaches (.reqRun p) s fun t =>
      t = { armAge p s with power := { s.power with reqResult := .done }, log := t.log }) ∧
    (atLevel1 s = true → idle s = true → reaches (.reqNap p) s fun t =>
      t.power = { s.power with reqResult := .entering, entry := some .nap } ∧
      t = { armAge p s with power := t.power, skb := t.skb } ∧ t.skb.recs = s.skb.recs) ∧
    (atLevel1 s = true → idle s = false → ∀ c, c = .reqNap p ∨ c = .reqDoze p ∧ isManager s = true → reaches c s fun t =>
      t = { armAge p s with power := { s.power with reqResult := .refusedBusy }, log := t.log }) ∧
    (atLevel1 s = false → ∀ c ∈ [Instr.reqNap p, .reqDoze p], reaches c s fun t =>
      t = { armAge p s with power := { s.power with reqResult := .refusedLevel }, log := t.log }) ∧
    (isManager s = true → atLevel1 s = true → idle s = true → reaches (.reqDoze p) s fun t =>
      t.power = { s.power with reqResult := .entering, entry := some .doze, ordersOut := workerList s } ∧
      t.hbu = s.hbu ∧ t.queues = s.queues) ∧
    (isManager s = true → s.restart.level ≠ .failstop → hasArm p 0x00F4 s →
      (s.standby.wakeTime = 0 ∨ anyWorker s = false → reaches (.reqStandby p) s fun t =>
        t.power = { s.power with reqResult := .entering, entry := some .standby, ordersOut := workerList s } ∧
        (pathGet p t).arm = none) ∧
      (s.standby.wakeTime ≠ 0 → anyWorker s = true → reaches (.reqStandby p) s fun t =>
        t = { armSpent p s with power := { s.power with reqResult := .refusedFabric }, log := t.log })) ∧
    (isManager s = true → s.restart.level ≠ .failstop → ¬hasArm p 0x00F4 s → reaches (.reqStandby p) s fun t =>
      t = { armSpent p s with power := { s.power with reqResult := .refusedArm }, log := t.log }) ∧
    (∀ code : BitVec 3, code.toNat < 6 → releaseMv code ≤ s.power.sup.vcoreMv →
      reaches (.vpfSelWrite p code) s fun t => t = { armAge p s with power := { s.power with vpfSel := code } }) ∧
    (∀ code : BitVec 3, ¬(code.toNat < 6 ∧ releaseMv code ≤ s.power.sup.vcoreMv) →
      reaches (.vpfSelWrite p code) s fun t => counterGet 0x03 t = ctrInc (counterGet 0x03 s) ∧
        t = { armAge p s with log := t.log, ring := t.ring, nv := t.nv }) ∧
    (running s = true → s.power.autoNap ≠ 0 → idle s = true → atLevel1 s = true → reaches .autoNapExpiry s fun t =>
      t.power = { s.power with reqResult := .entering, entry := some .nap } ∧ t = { s with power := t.power, skb := t.skb })

/-- With the entry ready and the idle condition held: NAP shows the state and puts the audio pins in their reset states;
DOZE also moves the core to XIN, which counts as no loss of lock, with the links dark by order; STANDBY, where the session
word does not read CLOSED, requests its program and nothing else, waits for that program, and with CLOSED programmed and
nothing else to program drives SUP_EN low and holds the core in reset with power-good lost. Where the idle condition no
longer holds, the entry of a NAP is CANCELLED and the part stays in RUN. (04_power_and_clocks.md,
05_resets_and_restart.md) -/
def Obligations.CommitPoints : Prop :=
  ∀ (s : State),
    (entryReady .nap s = true → idle s = true → reaches .napCommit s fun t =>
      t = { s with
        power := { s.power with state := .nap, entry := none }
        palette := { s.palette with ports := s.palette.ports.map AuPort.pinsOff } }) ∧
    (∀ elapsed, entryReady .doze s = true → idle s = true → reaches (.dozeCommit elapsed) s fun t =>
      t.power.state = .doze ∧ t.power.entry = none ∧ t.power.heldDark = true ∧ t.clk.pllLock = false ∧ t.clk.bypass = true ∧
      t.clk.lockLossCount = s.clk.lockLossCount ∧ (s.clk.bypass = false → t.clk.carry = elapsed * 3 / 50 ∧ t.clk.pattern = 0) ∧
      t.clk.tick = s.clk.tick ∧ t.ring.fa.link ≠ .up ∧ t.ring.fb.link ≠ .up ∧ t.ring.fa.link ≠ .training ∧
      t.ring.fb.link ≠ .training ∧ t.restart = s.restart ∧ t.skb = s.skb ∧ t.nv = s.nv) ∧
    (entryReady .standby s = true → idle s = true →
      (s.nv.session = .closed → s.nv.prog = [] → reaches .standbyCommit s fun t =>
        t.power.core = .standby ∧ t.power.state = .standby ∧ t.power.pgMet = false ∧ t.power.entry = none ∧
        t.standby = { s.standby with supEn := false } ∧ t.restart.level = .level0 ∧ t.queues = {} ∧ t.ring = {} ∧
        t.nv = { s.nv with prog := [], commits := [] } ∧ t.skb.recs = s.skb.recs ∧ t.skb.pages = s.skb.pages) ∧
      (s.nv.session ≠ .closed → .session false ∉ s.nv.prog → reaches .standbyCommit s fun t =>
        t = { s with nv := { s.nv with prog := s.nv.prog ++ [.session false] } }) ∧
      (.session false ∈ s.nv.prog → reaches .standbyCommit s fun t => t = s)) ∧
    (entryReady .nap s = true → idle s = false → s.power.entry = some .nap → reaches .napCommit s fun t =>
      t.power.entry = none ∧ t.power.ordersOut = [] ∧ t.power.reqResult = .cancelled ∧ t.power.state = s.power.state ∧
      t = { s with power := t.power, log := t.log })

/-- From NAP, WAKE_N (where WAKE_PIN_EN is 1) and the wake timer end in RUN with the request DONE; in STANDBY they drive
SUP_EN high and begin the exit, and an exit whose power-good does not come in time drives it low again with WAKE_FAIL.
WAKE_N without WAKE_PIN_EN changes the level shown alone, and without a wake time the timer changes nothing. A forwarded
clock wakes a worker from DOZE. A relock that fails brings the part to RUN with lock lost, and from LEVEL1 or LEVEL2 to
LEVEL0. A power order without an acknowledgement cancels the entry and counts its warning. (04_power_and_clocks.md) -/
def Obligations.WakesAndTheirTimeouts : Prop :=
  ∀ (s : State),
    (running s = true → s.power.state = .nap →
      (s.standby.wakePinEn = true → reaches .wakeNAsserted s fun t =>
        t.power.state = .run ∧ t.power.reqResult = .done ∧ t.power.sup = { s.power.sup with wakePin := false } ∧
        t = { s with power := t.power, log := t.log, palette := t.palette }) ∧
      (s.standby.wakeTime ≠ 0 → reaches .wakeTimerExpiry s fun t =>
        t.power.state = .run ∧ t.power.reqResult = .done ∧ t = { s with power := t.power, log := t.log, palette := t.palette })) ∧
    (s.power.core = .standby → s.standby.exiting = none →
      (s.standby.wakePinEn = true → reaches .wakeNAsserted s fun t =>
        t = { s with
          power := { s.power with sup := { s.power.sup with wakePin := false } }
          standby := { s.standby with supEn := true, exiting := some .wakeN } }) ∧
      (s.standby.wakeTime ≠ 0 → reaches .wakeTimerExpiry s fun t =>
        t = { s with standby := { s.standby with supEn := true, exiting := some .timer } })) ∧
    (s.standby.wakePinEn = false → reaches .wakeNAsserted s fun t =>
      t = { s with power := { s.power with sup := { s.power.sup with wakePin := false } } }) ∧
    (s.standby.wakeTime = 0 → reaches .wakeTimerExpiry s fun t => t = s) ∧
    (s.power.core = .standby → s.standby.exiting.isSome = true → reaches .standbyExitTimeout s fun t =>
      t = { s with standby := { s.standby with supEn := false, wakeFail := true, exiting := none } }) ∧
    (running s = true → isManager s = false → s.power.state = .doze → s.power.heldDark = true →
      reaches .forwardedClockWake s fun t => t = { s with power := { s.power with waking := true } }) ∧
    (running s = true → s.power.state = .doze → s.power.waking = true → s.clk.pllLock = false → s.power.wakeWrite = none →
      reaches .dozeRelockTimeout s fun t =>
        t.power.state = .run ∧ t.power.waking = false ∧ t.clk.lostLock = true ∧
        t.clk.lockLossCount = ctrInc s.clk.lockLossCount ∧ t.hbu.heldCycle = [] ∧
        (s.restart.level = .level1 ∨ s.restart.level = .level2 → t.restart.level = .level0)) ∧
    (∀ node, running s = true → s.power.ordersOut.contains node = true → s.power.entry = some .doze →
      reaches (.powerOrderTimeout node) s fun t =>
        t.power.entry = none ∧ t.power.ordersOut = [] ∧ t.power.reqResult = .cancelled ∧
        counterGet 0x05 t = ctrInc (counterGet 0x05 s))

/-- On a running part a complete frame of each row counts modulo 16, ages the arm of the control port, and the response to
the frame before goes out during it. A frame with a bad CRC is answered CRC_BAD. A good one with an OPCODE that is not
defined, or with REPLAY on any but a NOP, is answered BAD_OP; a READ beyond 0xFC and a WRITE from 0xC0 on, or one of either
off a word boundary, BAD_ADDR; a READ or WRITE without lanes, and a WRITE of a full-width register with some lanes,
BAD_WIDTH; a WRITE of CTRL_RST without its arm NOT_ARMED, with the arm spent. None of them changes anything but the CPORT
link and that arm. A command whose OPCODE byte is another row's is no input of its row and is refused as ill-formed.
(06_control_port.md) -/
def Obligations.FramesAreCheckedInOrder : Prop :=
  ∀ (s : State) (f : Frame), running s = true →
    let rows : List (Instr × Byte) :=
      [(.cportRead f, opRead), (.cportWrite f, opWrite), (.cportWhistle f, opWhistle), (.cportNop f, opNop)]
    let answered (st : Byte) (t : State) : Prop :=
      t = { armAge .cport s with cport := t.cport } ∧ t.cport.fseq = s.cport.fseq + 1 ∧ t.cport.pend.status = st ∧
      t.cport.pend.data = 0 ∧ t.cport.sent = respOut f.early s
    (∀ c op, (c, op) ∈ rows → byteOf f 0 = op → frameCrcOk f = false → reaches c s (answered csCrcBad)) ∧
    (∀ c op, (c, op) ∈ rows → op ≠ opNop → byteOf f 0 = op → frameCrcOk f = true → frameReplay f = true →
      reaches c s (answered csBadOp)) ∧
    (byteOf f 0 ∉ rows.map (·.2) → frameCrcOk f = true → reaches (.cportNop f) s (answered csBadOp)) ∧
    (byteOf f 0 = opRead → frameCrcOk f = true → frameReplay f = false → (0xFC < frameOff f ∨ frameOff f % 4 ≠ 0) →
      reaches (.cportRead f) s (answered csBadAddr)) ∧
    (byteOf f 0 = opRead → frameCrcOk f = true → frameReplay f = false → frameOff f ≤ 0xFC → frameOff f % 4 = 0 →
      frameLanes f = 0 → reaches (.cportRead f) s (answered csBadWidth)) ∧
    (byteOf f 0 = opWrite → frameCrcOk f = true → frameReplay f = false → (0xC0 ≤ frameOff f ∨ frameOff f % 4 ≠ 0) →
      reaches (.cportWrite f) s (answered csBadAddr)) ∧
    (byteOf f 0 = opWrite → frameCrcOk f = true → frameReplay f = false → frameOff f < 0xC0 → frameOff f % 4 = 0 →
      (frameLanes f = 0 ∨ fullWidth (frameOff f) = true ∧ frameLanes f ≠ 0xF) →
      reaches (.cportWrite f) s (answered csBadWidth)) ∧
    (byteOf f 0 = opWrite → frameCrcOk f = true → frameReplay f = false → frameOff f = 0x20 → frameLanes f = 0xF →
      frameData f = 1 → (armAge .cport s).pathC.arm.map (·.code) ≠ some 0x00C5 →
      reaches (.cportWrite f) s fun t =>
        t = { armSpent .cport s with cport := t.cport } ∧ t.cport.fseq = s.cport.fseq + 1 ∧
        t.cport.pend.status = csNotArmed) ∧
    (byteOf f 0 ≠ opRead → exec (.cportRead f) s = .refused .illFormed) ∧
    (byteOf f 0 ≠ opWrite → exec (.cportWrite f) s = .refused .illFormed) ∧
    (byteOf f 0 ≠ opWhistle → exec (.cportWhistle f) s = .refused .illFormed) ∧
    (byteOf f 0 = opRead ∨ byteOf f 0 = opWrite ∨ byteOf f 0 = opWhistle → exec (.cportNop f) s = .refused .illFormed)

/-- On a running part where nothing turns frames away, a good frame ages the arm of the control port and executes: a READ of
a register answers OK with its enabled lanes of the register, for a register without side effects with no other change;
outside a sleep state and an entry to one, a WRITE of SCRATCHk with its lanes answers OK and merges those lanes; a NOP
answers OK, and with REPLAY repeats the response sent during it; outside a wake, a WHISTLE answers OK, counts WSEQ and
starts the drain. A runt changes nothing. (06_control_port.md) -/
def Obligations.FramesExecute : Prop :=
  ∀ (s : State) (f : Frame), running s = true → pathBusy .cport s = false → frameCrcOk f = true →
    (byteOf f 0 = opRead → frameReplay f = false → frameOff f < 0xC0 → frameOff f % 4 = 0 → frameLanes f ≠ 0 →
      frameOff f / 4 ∉ [0x0D, 0x11, 0x26] → reaches (.cportRead f) s fun t =>
        t = { armAge .cport s with cport := t.cport } ∧ t.cport.fseq = s.cport.fseq + 1 ∧ t.cport.pend.status = csOk ∧
        t.cport.pend.opcode = opRead ∧ t.cport.pend.data = regRead .cport (frameOff f) s &&& laneMask (frameLanes f)) ∧
    (∀ k : Fin 8, byteOf f 0 = opWrite → frameReplay f = false → frameOff f = 0xA0 + 4 * k.val → frameLanes f ≠ 0 →
      openPath .cport s → reaches (.cportWrite f) s fun t =>
        t.scratch = s.scratch.set k (mergeLanes (frameLanes f) (s.scratch.get k) (frameData f)) ∧
        t.cport.pend.status = csOk ∧ t = { armAge .cport s with cport := t.cport, scratch := t.scratch }) ∧
    (byteOf f 0 = opNop → frameReplay f = false → reaches (.cportNop f) s fun t =>
      t = { armAge .cport s with cport := t.cport } ∧ t.cport.pend.status = csOk ∧ t.cport.pend.data = 0) ∧
    (byteOf f 0 = opNop → frameReplay f = true → reaches (.cportNop f) s fun t =>
      t = { armAge .cport s with cport := t.cport } ∧
      t.cport.pend = { t.cport.sent with flags := t.cport.sent.flags ||| 0x20 } ∧ t.cport.sent = respOut f.early s) ∧
    (byteOf f 0 = opWhistle → frameReplay f = false → s.power.waking = false → reaches (.cportWhistle f) s fun t =>
      t = { armAge .cport s with cport := t.cport } ∧ t.cport.whistling = true ∧ t.cport.wseq = s.cport.wseq + 1 ∧
      t.cport.pend.status = csOk) ∧
    (reaches .cportRunt s fun t => t = s)

/-- Through an open path, with its arm one access older: a write of SCRATCHk merges its enabled lanes and changes nothing
else; a full-width write of IRQ_STAT clears the bits written with 1 and no others; a write of a read-only register changes
nothing; LOG_TAIL moves its tail to a slot between itself and the head; a read of FAULT_SUM with lane 0 clears WARNS alone.
On a part whose units run, a full-width write of SKB_CTRL with consistent fields sets them, and beside them only forced
flushing, the pause with its interrupt, and the flushes that the write starts. (06_control_port.md,
07_control_registers.md, 15_write_path_sketchbook.md, 23_faults_and_interrupts.md, 00_scope.md) -/
def Obligations.RegisterWritesApplyTheirLanes : Prop :=
  ∀ (s : State) (p : Path) (l : Lanes) (w : Word),
    (∀ k : Fin 8, openPath p s → l ≠ 0 → reaches (.registerWrite p (BitVec.ofNat 16 (0xA0 + 4 * k.val)) l w) s fun t =>
      t = { armAge p s with scratch := s.scratch.set k (mergeLanes l (s.scratch.get k) w) }) ∧
    (openPath p s → reaches (.registerWrite p 0x28 0xF w) s fun t =>
      t = { armAge p s with log := { s.log with irqStat := s.log.irqStat &&& ~~~ w } }) ∧
    (∀ off : BitVec 16, off ∈ [0x00#16, 0x04#16, 0x08#16, 0x0C#16, 0x1C#16, 0x24#16, 0x38#16, 0x48#16, 0x54#16, 0x98#16, 0x9C#16] →
      openPath p s → reaches (.registerWrite p off 0xF w) s fun t => t = armAge p s) ∧
    (openPath p s →
      ((w.extractLsb' 0 8 : Byte) - s.log.tail).toNat ≤ ((s.log.seqNext.truncate 8 : Byte) - s.log.tail).toNat →
      reaches (.logTailWrite p 1 w) s fun t => t = { armAge p s with log := { s.log with tail := w.extractLsb' 0 8 } }) ∧
    (pathLive p s = true → reaches (.faultSumRead p 1) s fun t =>
      t = { armAge p s with log := { s.log with warns := 0 } }) ∧
    (unitsRun s = true → skbCtrlOk w = true → reaches (.skbCtrlWrite 0xF w) s fun t =>
      t.skb.pausePct = bits w 30 24 ∧ t.skb.hwmPct = bits w 23 17 ∧ t.skb.flushAge = bits w 15 0 ∧
      t.skb = { s.skb with
        pausePct := t.skb.pausePct, hwmPct := t.skb.hwmPct, flushAge := t.skb.flushAge, forced := t.skb.forced
        pause := t.skb.pause, flushes := t.skb.flushes, nextFlush := t.skb.nextFlush } ∧
      t = { s with skb := t.skb, log := t.log } ∧
      (t.skb.forced = s.skb.forced ∧ t.skb.pause = s.skb.pause → t.log = s.log))

/-- ARM_WRITE through an open path whose halves are complements makes a live arm of that code on that path alone, good for
eight accesses; with other halves it clears the arm and counts an ARM_MISMATCH note. ARM_TIMEOUT ends the arm.
WHISTLE_DRAIN_END of a running CPORT drain, with no commit of the CPORT in progress and no posted write left, lets frames be
answered again. (06_control_port.md) -/
def Obligations.ArmsAndDrains : Prop :=
  ∀ (s : State) (p : Path) (w : Word),
    (openPath p s → w.extractLsb' 16 16 = ~~~ (w.extractLsb' 0 16 : BitVec 16) → reaches (.armWrite p w) s fun t =>
      t = pathPut p { pathGet p s with arm := some ⟨w.extractLsb' 0 16, 8⟩ } s) ∧
    (openPath p s → w.extractLsb' 16 16 ≠ ~~~ (w.extractLsb' 0 16 : BitVec 16) → reaches (.armWrite p w) s fun t =>
      (pathGet p t).arm = none ∧ counterGet 0x10 t = ctrInc (counterGet 0x10 s) ∧
      t = { armSpent p s with log := t.log, ring := t.ring, nv := t.nv }) ∧
    (reaches (.armTimeout p) s fun t => t = armSpent p s) ∧
    (running s = true → s.cport.whistling = true → commitOn .cport s = false → (∀ al, (aliasGet al s).buf = []) →
      reaches .whistleDrainEnd s fun t => t = { s with cport := { s.cport with whistling := false } })

/-- Through an open path, with its arm one access older: with no commit of that path in progress, TBL_SEL_WRITE places that
path's cursor, with a snapshot and a staging copy of the entry where the position is in range and a mark of what is wrong
where it is not; TBL_DATA_STAGE of a word that is not the last stages it and moves on, and commits nothing. TBL_DATA_READ
with lane 0 in range moves the cursor on and changes nothing else; out of range it shows the result that the cursor was
marked with, and DETAIL 0xFF. (07_control_registers.md) -/
def Obligations.TableCursor : Prop :=
  ∀ (s : State) (p : Path) (w : Word), openPath p s →
    (commitOn p s = false → reaches (.tblSelWrite p w) s fun t =>
      t = cursorPut p (cursorEnter (bits w 31 24) (bits w 23 8) (bits w 7 0) s) (armAge p s) ∧
      (pathGet p t).cur.out = cursorOut (bits w 31 24) (bits w 23 8) (bits w 7 0) ∧
      (cursorOut (bits w 31 24) (bits w 23 8) (bits w 7 0) = none →
        (pathGet p t).cur.snap = entryWords (bits w 31 24) (bits w 23 8) s ∧
        (pathGet p t).cur.staged = (pathGet p t).cur.snap)) ∧
    ((pathGet p s).cur.out = none → reaches (.tblDataRead p 1) s fun t =>
      t = cursorPut p (cursorNext (pathGet p s).cur s) (armAge p s)) ∧
    (∀ r, (pathGet p s).cur.out = some r → reaches (.tblDataRead p 1) s fun t => t = tblResult p r 0xFF (armAge p s)) ∧
    (commitOn p s = false → (pathGet p s).cur.out = none →
      (pathGet p s).cur.word.toNat + 1 < (pathGet p s).cur.snap.length →
      reaches (.tblDataStage p w) s fun t =>
        t = cursorPut p { (pathGet p s).cur with staged := stagedWith p w s, word := (pathGet p s).cur.word + 1 }
          (armAge p s))

/-- For the MEMBER (own ports), ARRAY, VOLUME, STUDIO, REFEREE and HOST_REGION spaces: the write of the last word, its
checks passed, shows RESULT OK and the next CSEQ, sets COMMIT_BUSY and requests an NV commit of exactly the staged words;
the table itself does not change yet, the other path is as before, and nothing outside the path, the requests of the NV
area and the identity does. (07_control_registers.md, 05_resets_and_restart.md) -/
def Obligations.NvEntryCommits : Prop :=
  ∀ (s : State) (p : Path) (w : Word) (c : Instr) (space e : Nat), (c, space) ∈ nvCommits p w →
    readyToCommit p space e s → commitPasses p w s → s.restart.nvcfgLost = false → s.restart.level ≠ .failstop →
    (space = 0x01 → isOwn (Fin.ofNat 128 e) s = true) →
    reaches c s fun t =>
      committed p s t ∧ (pathGet p t).commitBusy = true ∧
      t.nv = { s.nv with
        commits := s.nv.commits ++ [.table p (BitVec.ofNat 8 space) e (stagedWith p w s)], prog := s.nv.prog ++ [.nv] } ∧
      pathGet (otherPath p) t = pathGet (otherPath p) s ∧
      t = { s with pathC := t.pathC, pathM := t.pathM, nv := t.nv, ident := t.ident }

/-- For a cursor on the last word of an entry of the LEDGER, LOG, LOCK, RING_NODE, SKB_DIR, COUNTERS, CANVAS_PEEK or
NV_RAW space, the write is answered READ_ONLY with DETAIL 0xFF and the next CSEQ; nothing outside that path changes.
(07_control_registers.md) -/
def Obligations.ReadOnlySpacesRefuseCommits : Prop :=
  ∀ (s : State) (p : Path) (w : Word) (space e : Nat), space ∈ [0x07, 0x08, 0x0C, 0x0E, 0x10, 0x11, 0x20, 0x21] →
    readyToCommit p space e s →
    reaches (.roSpaceCommit p w) s fun t =>
      (pathGet p t).tResult = trReadOnly ∧ (pathGet p t).tDetail = 0xFF ∧ (pathGet p t).cseq = (pathGet p s).cseq + 1 ∧
      t = pathPut p (pathGet p t) s

/-- With an NV commit at the head of the program engine that ends well: the engine goes on with what is behind it, the copy
that was not the present one holds the next SEQ, the identity, the node number and the configuration as it then stands, and
becomes the present one, and the other copy is as before; this holds of a commit that keeps a change already in force, and
of one of a HOST_REGION entry, which is in force from then on with its path's COMMIT_BUSY clear. A header page that fails
its read-back takes the part to FAILSTOP, where no path shows COMMIT_BUSY of its own commits, with both copies as they were.
(05_resets_and_restart.md, 07_control_registers.md, 23_faults_and_interrupts.md) -/
def Obligations.NvCommitEnds : Prop :=
  ∀ (s : State), running s = true → s.nv.prog.head? = some .nv →
    let written (regions : Vector HostRegion 4) (t : State) : Prop :=
      t.nv.present = some (nvTarget s) ∧ (if nvTarget s then t.nv.a = s.nv.a else t.nv.b = s.nv.b) ∧
      s.nv.prog.drop 1 <+: t.nv.prog ∧ t.regions = regions ∧
      (holdsWhole (nvPresent t)).map (fun (q, f, n, b) => (q, f, n, b.regions, b.referee, b.roster)) =
        some (nvSeqNext s, s.ident.fabricId, s.ident.node, regions, s.referee.cfg, s.roster)
    (∀ rest, s.nv.commits = .keep :: rest → reaches (.nvCommitDone true) s (written s.regions)) ∧
    (∀ p e w rest, s.nv.commits = .table p 0x0F e w :: rest → reaches (.nvCommitDone true) s fun t =>
      written (s.regions.set (Fin.ofNat 4 e) (hostRegionOf w)) t ∧ (pathGet p t).commitBusy = false) ∧
    (∀ c rest, s.nv.commits = c :: rest → reaches (.nvCommitDone false) s fun t =>
      t.restart.level = .failstop ∧ t.nv.a = s.nv.a ∧ t.nv.b = s.nv.b ∧ t.nv.present = s.nv.present ∧
      (s.restart.level ≠ .failstop → t.pathC.commitBusy = false ∧ t.pathM.commitBusy = false))

/-- For each of the eighteen commands with its arm where it needs one, the engine free and every check passed: BUSY is set
with the path as ORIGIN, SEQ counts, the engine runs that code with the words that the buffer held, the buffer is
empty and the arm is spent; the SCRATCH registers, clocks, channels, studios, roster, regions, the Palette and the other
path stay. (07_control_registers.md) -/
def Obligations.ManagementCommandsAreTaken : Prop :=
  ∀ (s : State) (p : Path) (c : Instr) (code : Byte), (c, code) ∈ mgmtCommands p → openPath p s → s.mgmt.busy = false →
    (cmdArmed code = true → hasArm p (code.zeroExtend 16) s) →
    mgmtCheck code (pathGet p s).args (pathGet p s).overflow s = none →
    reaches c s fun t =>
      t.mgmt.busy = true ∧ t.mgmt.origin = p ∧ t.mgmt.seq = s.mgmt.seq + 1 ∧
      (∃ r, t.mgmt.running = some r ∧ r.code = code ∧ r.args = (pathGet p s).args) ∧
      (pathGet p t).args = [] ∧ (pathGet p t).overflow = false ∧ (cmdArmed code = true → (pathGet p t).arm = none) ∧
      t.scratch = s.scratch ∧ t.clk = s.clk ∧ t.dma = s.dma ∧ t.studios = s.studios ∧ t.roster = s.roster ∧
      t.regions = s.regions ∧ t.palette = s.palette ∧ pathGet (otherPath p) t = pathGet (otherPath p) s

/-- Through an open path, with its arm one access older: ARRAY_ARG_WRITE merges its enabled lanes into the staging word;
with lane 3 it appends that word while fewer than 36 are held and marks an overflow after that. A command whose checks fail
is taken and its result is the first failing check's, with nothing but the engine and the path changed; an undefined CODE
is taken and decided BAD_CODE at LEVEL1 or above on a manager. MGMT_COMMAND_DONE of a command whose result is decided, with
no signature write out and no member to be undone, writes the result, clears BUSY and sets the MGMT interrupt bit.
(07_control_registers.md) -/
def Obligations.ManagementRefusalsAndArguments : Prop :=
  ∀ (s : State) (p : Path) (w : Word), openPath p s →
    (∀ l : Lanes, lane l 3 = true → (pathGet p s).args.length < 36 → reaches (.arrayArgWrite p l w) s fun t =>
      t = pathPut p { pathGet p (armAge p s) with
        args := (pathGet p s).args ++ [mergeLanes l (pathGet p s).argStage w], argStage := 0 } s) ∧
    (∀ l : Lanes, lane l 3 = true → (pathGet p s).args.length = 36 → reaches (.arrayArgWrite p l w) s fun t =>
      t = pathPut p { pathGet p (armAge p s) with overflow := true, argStage := 0 } s) ∧
    (∀ l : Lanes, l ≠ 0 → lane l 3 = false → reaches (.arrayArgWrite p l w) s fun t =>
      t = pathPut p { pathGet p (armAge p s) with argStage := mergeLanes l (pathGet p s).argStage w } s) ∧
    (∀ (c : Instr) (code : Byte) e, (c, code) ∈ mgmtCommands p → s.mgmt.busy = false →
      (cmdArmed code = true → hasArm p (code.zeroExtend 16) s) →
      mgmtCheck code (pathGet p s).args (pathGet p s).overflow s = some e → reaches c s fun t =>
        t.mgmt.busy = true ∧ (∃ r, t.mgmt.running = some r ∧ r.code = code ∧ r.res = some e) ∧
        t = pathPut p (pathGet p t) { s with mgmt := t.mgmt }) ∧
    (∀ code : Byte, s.mgmt.busy = false → cmdDefined code = false → isManager s = true → atLevel1 s = true →
      reaches (.arrayCmdBadCode p code) s fun t =>
        (∃ r, t.mgmt.running = some r ∧ r.res = some (mrBadCode, 0xFF)) ∧ t.mgmt.busy = true ∧
        t = pathPut p (pathGet p t) { s with mgmt := t.mgmt }) ∧
    (∀ r e timeout, s.mgmt.running = some r → r.res = some e → r.sigs = [] → e.1 ≠ mrMediaError → e.1 ≠ mrFabricTimeout →
      reaches (.mgmtCommandDone timeout) s fun t =>
        t.mgmt = { s.mgmt with busy := false, result := e.1, detail := e.2, running := none } ∧
        t.log.irqStat = s.log.irqStat ||| flg irqMgmt true ∧ t = { s with mgmt := t.mgmt, log := t.log })

/-- At LEVEL2 in RUN: an SQ_TAIL write of a RUNNING or FROZEN queue with a slot number inside the ring that does not pass
back over what is queued moves TAIL alone; a CQ_HEAD write of a running completion queue within its posted records moves its
head alone. Any other SQ_TAIL or CQ_HEAD write changes no queue and is counted as DOORBELL_BAD. (11_queues_and_commands.md) -/
def Obligations.DoorbellsMoveTheirPointers : Prop :=
  ∀ (s : State) (q : Fin 32) (data : Word), queuesRun s = true →
    let x := sqGet q s
    let y := cqGet q s
    let tailGood : Prop := (x.state = .running ∨ x.state = .frozen) ∧ bits data 9 0 < depthOf x.depthLog2 ∧
      ringSub x.tail x.head (depthOf x.depthLog2) ≤ ringSub (bits data 9 0) x.head (depthOf x.depthLog2)
    let headGood : Prop := y.run = true ∧ bits data 9 0 < depthOf y.depthLog2 ∧
      ringSub (bits data 9 0) y.head (depthOf y.depthLog2) ≤ ringSub y.tail y.head (depthOf y.depthLog2)
    let bad (t : State) : Prop :=
      counterGet 0x1B t = ctrInc (counterGet 0x1B s) ∧ t = { s with log := t.log, ring := t.ring, nv := t.nv }
    (tailGood → reaches (.sqTailDoorbell q data) s fun t => t = sqPut q { x with tail := bits data 9 0 } s) ∧
    (headGood → reaches (.cqHeadDoorbell q data) s fun t => t = cqPut q { y with head := bits data 9 0 } s) ∧
    (¬tailGood → reaches (.sqTailDoorbell q data) s bad) ∧
    (¬headGood → reaches (.cqHeadDoorbell q data) s bad)

/-- At LEVEL2 in RUN, for the ring slot that the queue is frozen on: NEXT makes the queue RUNNING, and a held completion is
due with its held status; RETRY makes it RUNNING and the held command, here a NOP, runs again from its bytes in a new place
of fetch order; DISCARD makes a held completion due, and with nothing behind it makes the queue RUNNING, while with slots up
to the tail it stays FROZEN and discards to that tail. A write of a queue that is not frozen, or that names another slot,
changes no queue and is counted as DOORBELL_BAD. (12_overlap_and_queue_errors.md) -/
def Obligations.FrozenQueuesResume : Prop :=
  ∀ (s : State) (q : Fin 32) (slot : BitVec 10), queuesRun s = true →
    let k := sqGet q s
    (k.state = .frozen → k.freezeSlot = slot.toNat →
      (k.heldSlot = none → reaches (.sqResumeNext q slot) s fun t =>
        t = sqPut q { k with state := .running, discardTo := none } s) ∧
      (∀ i x, k.heldSlot = some i → slotGet i s = some x → x.sq = q → reaches (.sqResumeNext q slot) s fun t =>
        sqGet q t = { k with state := .running, discardTo := none, heldSlot := none } ∧
        slotGet i t = some { x with stage := .done } ∧
        t = { s with dma := t.dma, ledger := t.ledger, queues := t.queues }) ∧
      (∀ i x c, k.heldSlot = some i → slotGet i s = some x → checkBytes x.bytes (sqStudio x.sq) s = .inl c →
        c.op = .nop → reaches (.sqResumeRetry q slot) s fun t =>
          sqGet q t = { k with state := .running, discardTo := none, heldSlot := none } ∧
          slotGet i t = some { sq := x.sq, order := s.queues.nextPick, idx := x.idx, bytes := x.bytes, stage := .ready,
                               cmd := some c, cid := c.cid, urgent := c.urgent } ∧
          t = { s with queues := t.queues }) ∧
      (k.heldSlot = none → k.fetch = k.tail → reaches (.sqResumeDiscard q slot) s fun t =>
        t = sqPut q { k with state := .running, discardTo := none } s) ∧
      (k.heldSlot = none → k.fetch ≠ k.tail → reaches (.sqResumeDiscard q slot) s fun t =>
        t = sqPut q { k with discardTo := some k.tail } s) ∧
      (∀ i x, k.heldSlot = some i → slotGet i s = some x → x.sq = q → reaches (.sqResumeDiscard q slot) s fun t =>
        slotGet i t = some { x with stage := .done } ∧
        sqGet q t = (if k.fetch = k.tail then { k with state := .running, discardTo := none, heldSlot := none }
          else { k with discardTo := some k.tail, heldSlot := none }) ∧
        t = { s with dma := t.dma, ledger := t.ledger, queues := t.queues })) ∧
    (k.state ≠ .frozen ∨ k.freezeSlot ≠ slot.toNat →
      ∀ c ∈ [Instr.sqResumeNext q slot, .sqResumeRetry q slot, .sqResumeDiscard q slot], reaches c s fun t =>
        counterGet 0x1B t = ctrInc (counterGet 0x1B s) ∧ t = { s with log := t.log, ring := t.ring, nv := t.nv })

/-- QUEUE_PICK with fewer than four fetches in flight gives the lowest free CMD_SLOT to the next eligible queue after the
one picked last, with the next place in pick order, the ring slot at FETCH and one CMD_SLOT unit, and FETCH moves on; a
queue in host memory gets a 64-byte fetch transfer. COMMAND_FETCHED in its turn, once the 64 bytes are there: a NOP or
WHISTLE that passes is ready; a READ that passes asks for its shared lock; one that fails, of a queue that does not freeze
and has no held completion still to be posted, has the first failing status and its completion due.
(11_queues_and_commands.md) -/
def Obligations.PickAndChecks : Prop :=
  (∀ (s : State) (q : Fin 32) (i : Nat), queuesRun s = true → fetching s < 4 → nextPick s = some q → freeSlot s = some i →
    reaches .queuePick s fun t =>
      slotGet i t = some { sq := q, order := s.queues.nextPick, idx := (sqGet q s).fetch,
                           stage := if (sqGet q s).discardTo.isSome then .discarding else .fetching } ∧
      t.queues.lastPick = q ∧ (sqGet q t).fetch = ((sqGet q s).fetch + 1) % depthOf (sqGet q s).depthLog2 ∧
      (sqGet q t).tail = (sqGet q s).tail ∧ (sqGet q t).outstanding = (sqGet q s).outstanding + 1 ∧
      (poolGet pCmdSlot t).free = (poolGet pCmdSlot s).free - 1 ∧
      t.dma.waiting.length = s.dma.waiting.length + (if (sqGet q s).loc then 0 else 1) ∧
      t = { s with dma := t.dma, ledger := t.ledger, queues := t.queues }) ∧
  (∀ (s : State) (i : Nat) (x : Slot) (b : List Byte), queuesRun s = true → slotGet i s = some x → x.stage = .fetching →
    fetchTurn x s = true → fetchedBytes x s = some (.inl b) →
    (∀ c, checkBytes b (sqStudio x.sq) s = .inl c → c.op = .nop ∨ c.op = .whistle →
      reaches (.commandFetched i) s fun t =>
        t = slotPut i { x with bytes := b, stage := .ready, cmd := some c, cid := c.cid, urgent := c.urgent } s) ∧
    (∀ c, checkBytes b (sqStudio x.sq) s = .inl c → c.op = .read → reaches (.commandFetched i) s fun t =>
      slotGet i t = some { x with bytes := b, stage := .lockWait, cmd := some c, cid := c.cid, urgent := c.urgent
                                  turn := s.queues.nextPlace, reserved := 0 } ∧
      (∃ l ∈ t.queues.line, l.work = .cmd i ∧ l.kind = .command ∧ l.excl = false ∧ l.array = cmdArray c s ∧
        l.start = cmdStart c s ∧ l.count = c.nlb) ∧ t = { s with queues := t.queues }) ∧
    (∀ st d, checkBytes b (sqStudio x.sq) s = .inr (st, d) → (sqGet x.sq s).errMode = false → (sqGet x.sq s).first = none →
      reaches (.commandFetched i) s fun t => decided i st d 0 t ∧ commandFrame s t))

/-- LOCK_GRANT gives the first request of the line that nothing holds back the lowest free unit of RANGE_LOCK: a command
whose checks still pass is ready, and the request has left the line. A granted lock conflicts with no lock held.
POOL_GRANT of a transfer's descriptor takes one DMA_DESC unit and marks that transfer. WRITE_PAUSE_RELEASE of a WRITE
that back-pressure no longer holds asks for its exclusive lock. Two shared locks never conflict; any other two locks
that share an array sector do, but for a child and its parent's; locks that share none never do. (R295) -/
def Obligations.LocksAndPoolsAreGranted : Prop :=
  (∀ x y : Lock,
    (x.excl = false → y.excl = false → x.conflicts y = false) ∧
    (x.array = y.array →
      (∃ a, x.start ≤ a ∧ a < x.start + x.count ∧ y.start ≤ a ∧ a < y.start + y.count) →
      (x.excl = true ∨ y.excl = true → ¬(x.work = y.work ∧ (x.kind = .child ∨ y.kind = .child)) → x.conflicts y = true)) ∧
    (x.kind = .child → x.work = y.work → x.conflicts y = false ∧ y.conflicts x = false) ∧
    (x.array ≠ y.array ∨ (∀ a, x.start ≤ a → a < x.start + x.count → ¬(y.start ≤ a ∧ a < y.start + y.count)) →
      x.conflicts y = false)) ∧
  (∀ (s : State) (l : Lock) (i : Nat) (x : Slot) (c : Cmd), unitsRun s = true → grantable s = some l → l.kind = .command →
    l.work = .cmd i → slotGet i s = some x → x.cmd = some c → ownerCheck c (sqStudio x.sq) s = none → stateCheck c s = none →
    ∀ k, ((List.range 384).find? fun k => (kget k s.queues.locks).isNone) = some k →
    (∀ h ∈ s.queues.locks, h.2.conflicts l = false) ∧
    reaches .lockGrant s fun t =>
      slotGet i t = some { x with stage := .ready } ∧ t.queues.line = s.queues.line.erase l ∧
      t.queues.locks = kput k l s.queues.locks ∧
      (poolGet pRangeLock t).free = (poolGet pRangeLock s).free - 1 ∧ t = { s with queues := t.queues, ledger := t.ledger }) ∧
  (∀ (s : State) (r : PoolReq) (n : Nat), unitsRun s = true → poolReady pDesc s = some r → r.use = .dmaDesc n →
    let give (x : Xfer) : Xfer := if x.id == n then { x with hasDesc := true } else x
    reaches (.poolGrant pDesc) s fun t =>
      t.ledger.waiting = s.ledger.waiting.erase r ∧ (poolGet pDesc t).free = (poolGet pDesc s).free - r.n ∧
      t.dma = { s.dma with
        waiting := s.dma.waiting.map give, chans := s.dma.chans.map fun k => { k with cur := k.cur.map give } } ∧
      t = { s with dma := t.dma, hbu := t.hbu, ledger := t.ledger }) ∧
  (∀ (s : State) (i : Nat) (x : Slot) (c : Cmd), queuesRun s = true → slotGet i s = some x → x.cmd = some c →
    x.stage = .pressed → c.op = .write → mustPress c (sqStudio x.sq) s = false →
    reaches (.writePauseRelease i) s fun t =>
      slotGet i t = some { x with stage := .lockWait, reserved := pageNeed c s, turn := s.queues.nextPlace } ∧
      (∃ l ∈ t.queues.line, l.work = .cmd i ∧ l.excl = true ∧ l.array = cmdArray c s ∧ l.start = cmdStart c s ∧
        l.count = c.nlb) ∧
      t.skb.recs = s.skb.recs ∧ t.skb.pages = s.skb.pages ∧
      t = { s with queues := t.queues, ledger := t.ledger, skb := t.skb, log := t.log })

/-- A ready NOP is decided OK. A ready READ whose tile is held in the journal or canvas memory, or a ready WRITE, with a
pointer into host memory, is active with one transfer of 512 × NLB bytes in line behind the others; a self-check of canvas
memory that fails on the data of an active one decides it INTERNAL and counts the note. A ready TRIM with a free record slot
asks for the seal of one record of its range. A ready FLUSH waits, with the flushes of what it covers under way, and once no
covered record is live it is decided OK. A ready WHISTLE records its tails, and when every covered command has posted and
the tails are reached it is decided OK, or WHISTLE_ABORTED where a covered queue stopped. A ready VERIFY asks for the child
lock of its first stripe, and one with no stripe left is decided with its skipped and corrected rows. The decisions are those
of a queue that has no held completion still to be posted; an error of one that does not freeze.
(11_queues_and_commands.md, 09_ordering.md) -/
def Obligations.DataCommandsStart : Prop :=
  ∀ (s : State) (i : Nat) (x : Slot) (c : Cmd), queuesRun s = true → slotGet i s = some x → x.cmd = some c →
    (c.op = .nop → x.stage = .ready → (sqGet x.sq s).first = none → reaches (.nop i) s fun t =>
      decided i stOk 0 0 t ∧ commandFrame s t) ∧
    (c.op = .read → x.stage = .ready → c.dptr ≠ .fifo → x.moved = 0 → x.ending = none →
      badCovers (tileCover (cmdArray c s) (cmdStart c s / 8) s)
        (readMask c (cmdStart c s / 8) s &&& ~~~ (cached (cmdArray c s) (cmdStart c s / 8) s).1) = [] →
      readMask c (cmdStart c s / 8) s &&& ~~~ (coverMask (tileCover (cmdArray c s) (cmdStart c s / 8) s) |||
        (cached (cmdArray c s) (cmdStart c s / 8) s).1) = 0 →
      reaches (.read ⟨i, .ok⟩) s fun t =>
        slotGet i t = some { x with stage := .active } ∧
        t.dma.waiting = s.dma.waiting ++ t.dma.waiting.drop s.dma.waiting.length ∧
        (t.dma.waiting.drop s.dma.waiting.length).map (fun f => (f.kind, f.length, f.dst)) =
          [(.data i false, 512 * c.nlb, c.side)] ∧
        t = { s with dma := t.dma, ledger := t.ledger, queues := t.queues }) ∧
    (c.op = .write → x.stage = .ready → c.dptr ≠ .fifo → reaches (.write ⟨i, .ok⟩) s fun t =>
      slotGet i t = some { x with stage := .active } ∧
      t.dma.waiting = s.dma.waiting ++ t.dma.waiting.drop s.dma.waiting.length ∧
      (t.dma.waiting.drop s.dma.waiting.length).map (fun f => (f.kind, f.length, f.src)) =
        [(.data i true, 512 * c.nlb, c.side)] ∧
      t = { s with dma := t.dma, ledger := t.ledger, queues := t.queues }) ∧
    (c.op = .write → x.stage = .active → (sqGet x.sq s).first = none → (sqGet x.sq s).errMode = false →
      reaches (.write ⟨i, .canvas⟩) s fun t => decided i stInternal 0 0 t ∧ commandFrame s t) ∧
    (c.op = .read → x.stage = .active → x.ending = none → fifoLoaded i s = false → (sqGet x.sq s).first = none →
      (sqGet x.sq s).errMode = false → reaches (.read ⟨i, .canvas⟩) s fun t =>
        decided i stInternal 0 (BitVec.ofNat 32 x.moved) t ∧ commandFrame s t) ∧
    (∀ k u, c.op = .trim → x.stage = .ready → allocRec s = some (k, u) → reaches (.trim i) s fun t =>
      t.nv = { s.nv with prog := s.nv.prog ++ [.record (some i) k
        { kind := .trim, last := true, array := cmdArray c s, cseq := s.skb.cseq, start := cmdStart c s, volume := c.volume,
          studio := sqStudio x.sq, count := c.nlb, stripe := 0, cid := c.cid, sealTick := s.clk.tick.truncate 32,
          pages := [], order := x.order }] } ∧
      t.skb = { u.skb with cseq := s.skb.cseq + 1 } ∧
      slotGet i t = some { x with stage := .active, sealing := true } ∧
      t = { s with skb := t.skb, queues := t.queues, nv := t.nv }) ∧
    (c.op = .flush → x.stage = .ready → reaches (.flush i) s fun t =>
      t.queues = (slotPut i { x with stage := .waiting } s).queues ∧
      t.skb = { s.skb with flushes := t.skb.flushes, nextFlush := t.skb.nextFlush } ∧
      (x.covers = [] → t.skb = s.skb) ∧ t = { s with queues := t.queues, skb := t.skb }) ∧
    (c.op = .flush → x.stage = .waiting → (∀ e ∈ liveRecs s, x.covers.contains e.2.cseq = false) →
      (sqGet x.sq s).first = none → reaches (.flushComplete i) s fun t => decided i stOk 0 0 t ∧ commandFrame s t) ∧
    (c.op = .whistle → x.stage = .ready → reaches (.whistleCommand i) s fun t =>
      t = slotPut i { x with stage := .waiting, tails := whistleTails x c s } s) ∧
    (c.op = .whistle → x.stage = .waiting → whistlePosted i x s = true → x.wabort = false →
      (∀ y ∈ x.tails, y.1 = x.sq ∨ (sqGet y.1 s).fetch = y.2) → (sqGet x.sq s).first = none →
      reaches (.whistleComplete i) s fun t => decided i stOk 0 0 t ∧ commandFrame s t) ∧
    (c.op = .whistle → x.stage = .waiting → whistlePosted i x s = true → x.wabort = true → (sqGet x.sq s).errMode = false →
      (sqGet x.sq s).first = none →
      reaches (.whistleComplete i) s fun t => decided i stWhistleAborted 0 0 t ∧ commandFrame s t) ∧
    (∀ new n, c.op = .verify → x.stage = .ready → x.vcur = none → verifyStripe x c s = some (new, n) →
      holds (.cmd i) .child s = false → waits (.cmd i) .child s = false → reaches (.verify i) s fun t =>
        slotGet i t = some { x with stage := .active, vcur := some (new, n) } ∧
        (∃ l ∈ t.queues.line, l = { stripeLock (cmdArray c s) new n .child (.cmd i) s with sq := x.sq.val, place := l.place }) ∧
        t = { s with queues := t.queues }) ∧
    (c.op = .verify → x.stage = .active → x.vcur = none → verifyStripe x c s = none → (sqGet x.sq s).first = none →
      reaches (.verify i) s fun t =>
        decided i (if x.retouched then stOkRetouched else stOk) 0 (verifyResult x) t ∧ commandFrame s t)

/-- COMPLETION_POST of a due completion for a scoreboard in queue-ring SRAM, with no bus access under way: the sixteen bytes
of its record stand at the tail's slot and every other byte of the SRAM as before, the tail moves on and POSTED counts, the
CMD_SLOT is free and OUTSTANDING is one lower. COALESCE_TIMER_EXPIRY with completions pending sets the studio's completion
bit and clears PEND and the timer. COMPLETION_WRITE_FAULT at the cycle under way of a command's completion ends its
transfer, frees its CMD_SLOT, and its queue is FROZEN; where the cycle under way is no completion write of the CMD_SLOT, it
changes nothing. (11_queues_and_commands.md, 10_dma_engine.md) -/
def Obligations.CompletionsArePosted : Prop :=
  (∀ (s : State) (i : Nat) (x : Slot), unitsRun s = true → slotGet i s = some x → x.stage = .done →
    (sqGet x.sq s).cmode = false → (sqGet x.sq s).first = none → s.hbu.access = none →
    let k := cqGet (sqCq x.sq s) s
    let b := k.base.toNat + 16 * k.tail
    k.loc = true → k.ien = false →
    ∃ t, exec (.completionPost i) s = .next t ∧
      (∀ j < 16, memRead t.hbu.ringSram (b + j) = (recordBytes x (sqGet x.sq s).head k.phase).getD j 0) ∧
      (∀ a, a < b ∨ b + 16 ≤ a → memRead t.hbu.ringSram a = memRead s.hbu.ringSram a) ∧
      (cqGet (sqCq x.sq s) t).tail = (k.tail + 1) % depthOf k.depthLog2 ∧
      (cqGet (sqCq x.sq s) t).posted = ctrInc k.posted ∧ slotGet i t = none ∧
      (sqGet x.sq t).outstanding = (sqGet x.sq s).outstanding - 1 ∧ t.hbu.mailbox = s.hbu.mailbox ∧
      t = { s with hbu := t.hbu, queues := t.queues, ledger := t.ledger, skb := t.skb }) ∧
  (∀ (s : State) (st : Fin 8), unitsRun s = true → s.queues.timer.get st = true → 0 < s.queues.pend.get st →
    cplClear st s = true → reaches (.coalesceTimerExpiry st) s fun t =>
      t.queues.pend.get st = 0 ∧ t.queues.timer.get st = false ∧ (aliasGet st t).irqStat = (aliasGet st s).irqStat ||| 1#6 ∧
      t = { s with hbu := t.hbu, queues := t.queues }) ∧
  (∀ (s : State) (i : Nat) (a : Access) (h : MCycle) (rest : List MCycle) (f : Xfer) (x : Slot), unitsRun s = true →
    s.hbu.tenure.isSome = true → s.hbu.access = some a → a.kind = .post i → a.cycles = h :: rest →
    h.addr < 2 ^ 24 → (chanGet a.chan s).cur = some f → a.xfer = some f.id → f.kind = .post i → f.leftover s = false →
    slotGet i s = some x → (sqGet x.sq s).cmode = false → (sqGet x.sq s).state = .running →
    reaches (.completionWriteFault i true (BitVec.ofNat 24 h.addr)) s fun t =>
      (sqGet x.sq t).state = .frozen ∧ (chanGet a.chan t).cur = none ∧ slotGet i t = none ∧ t.hbu.access = none ∧
      t.hbu.mailbox = s.hbu.mailbox ∧ t.hbu.ringSram = s.hbu.ringSram ∧ t.skb.recs = s.skb.recs ∧ t.scratch = s.scratch) ∧
  (∀ (s : State) (i : Nat) (self : Bool) (addr : BitVec 24), posting i addr s = false →
    reaches (.completionWriteFault i self addr) s fun t => t = s)

/-- BUS_GRANTED while HB_BREQ_N is pulled low with MASTER_EN begins a tenure with no cycle counted and releases HB_BREQ_N.
GRANT_WITHDRAWN ends the tenure. MASTER_CYCLE in a tenure runs one cycle of the access under way: where another follows
whose address the regions give, what it wrote is shown and the cycle counts until 16 × TENURE_MAX have run; the last of
these ends the tenure and starts the release gap where one is set; TENURE_MAX 0 sets no end. Without a tenure or an access it
changes nothing. RELEASE_GAP_EXPIRY ends the gap. None of these changes anything outside the host bus unit, or a byte memory
or a flag. (08_host_bus.md) -/
def Obligations.MasterTenures : Prop :=
  ∀ (s : State),
    (unitsRun s = true → s.hbu.breq = true → s.hbu.masterEn = true → reaches .busGranted s fun t =>
      t = { s with hbu := { s.hbu with gnt := true, busyIn := false, breq := false, tenure := some 0 } }) ∧
    (running s = true → reaches .grantWithdrawn s fun t =>
      t = { s with hbu := { s.hbu with gnt := false, tenure := none, breq := t.hbu.breq } } ∧
      (busWanted s = false → t.hbu.breq = false)) ∧
    (∀ n a h h2 l, unitsRun s = true → s.hbu.tenure = some n → s.hbu.access = some a → a.cycles = h :: h2 :: l →
      s.hbu.masterEn = true → regionAllows a.behalf h2.addr s = true →
      let w := a.wrote ++ h.cells
      (s.hbu.tenureMax = 0 ∨ n + 1 < 16 * s.hbu.tenureMax.toNat → reaches .masterCycle s fun t =>
        t = { s with hbu := { s.hbu with
          access := some { a with cycles := h2 :: l, wrote := w }, tenure := some (n + 1), breq := false
          lastWrite := if h.out.isSome then w else s.hbu.lastWrite } }) ∧
      (s.hbu.tenureMax ≠ 0 → 16 * s.hbu.tenureMax.toNat ≤ n + 1 → reaches .masterCycle s fun t =>
        t = { s with hbu := { s.hbu with
          access := some { a with cycles := h2 :: l, wrote := w }, tenure := none, breq := t.hbu.breq
          gap := s.hbu.releaseGap != 0, lastWrite := if h.out.isSome then w else s.hbu.lastWrite } } ∧
        (s.hbu.releaseGap ≠ 0 → t.hbu.breq = false))) ∧
    (s.hbu.tenure = none ∨ s.hbu.access = none → reaches .masterCycle s fun t => t = s) ∧
    (running s = true → reaches .releaseGapExpiry s fun t =>
      t = { s with hbu := { s.hbu with gap := false, breq := t.hbu.breq, tenure := t.hbu.tenure } } ∧
      (busWanted s = true → t.hbu.tenure = s.hbu.tenure))

/-- During a tenure, at the cycle under way of an access of a SOFT channel's transfer, RDY_TIMEOUT in a region that waits for
HB_RDY and SELF_ACCESS end the transfer with DMA_FAULT and detail 0x02 or 0x03, show the aligned unit's address as
FAULT_ADDR, set FAULT_SEEN and the flag of HB_STAT, and count the note; the descriptor's completion is then due. RDY_TIMEOUT
in a region that does not wait, and either where no such cycle is under way, changes nothing. GNT_TIMEOUT sets its flag, counts its note and keeps HB_BREQ_N released;
where no channel waits for the bus, that is all, and a SOFT transfer that alone waits ends with detail 0x04.
(08_host_bus.md, 10_dma_engine.md) -/
def Obligations.BusFaultsEndTransfers : Prop :=
  ∀ (s : State), unitsRun s = true →
    (∀ (a : Access) (h : MCycle) (l : List MCycle) (x : Xfer) (i : Nat) (tag : Word) (irq stop : Bool),
      s.hbu.tenure.isSome = true → s.hbu.access = some a → a.cycles = h :: l → h.addr < 2 ^ 24 → a.xfer = some x.id →
      (chanGet a.chan s).cur = some x → x.kind = .soft i tag irq stop → x.ended = none →
      let addr := BitVec.ofNat 24 h.addr
      let ends (dt : Byte) (flag : BitVec 10) (note : Nat) (t : State) : Prop :=
        (chanGet a.chan t).cur = some { x with ended := some (stDmaFault, dt) } ∧
        (chanGet a.chan t).lastStatus = stDmaFault ∧ (chanGet a.chan t).lastDetail = dt ∧
        (chanGet a.chan t).faultAddr = BitVec.ofNat 24 (unitAddr h.addr s) ∧ t.dma.faultSeen = true ∧
        t.hbu.flags = s.hbu.flags ||| flag ∧ counterGet note t = ctrInc (counterGet note s) ∧
        t.hbu.access = none ∧ t.hbu.lastWrite = s.hbu.lastWrite ∧ (∀ d, d ≠ a.chan → chanGet d t = chanGet d s) ∧
        t = { s with dma := t.dma, hbu := t.hbu, log := t.log, ring := t.ring, nv := t.nv }
      (∀ r, regionOf h.addr s = some r → r.rdyWait = true → r.rdyTimeout ≠ 0 →
        reaches (.rdyTimeout a.chan addr) s (ends 0x02 8#10 0x23)) ∧
      reaches (.selfAccess a.chan addr) s (ends 0x03 2#10 0x24) ∧
      (∀ r, regionOf h.addr s = some r → r.rdyWait = false ∨ r.rdyTimeout = 0 → reaches (.rdyTimeout a.chan addr) s fun t => t = s)) ∧
    (∀ c addr, cycleAt c addr s = false → reaches (.rdyTimeout c addr) s (fun t => t = s) ∧
      reaches (.selfAccess c addr) s fun t => t = s) ∧
    (s.hbu.breq = true → s.hbu.gntTimeout ≠ 0 →
      let timedOut (t : State) : Prop :=
        t.hbu.breq = false ∧ t.hbu.breqHold = true ∧ t.hbu.flags = s.hbu.flags ||| 4#10 ∧
        counterGet 0x25 t = ctrInc (counterGet 0x25 s)
      (waitingChans s = [] → reaches .gntTimeout s fun t =>
        timedOut t ∧ t = { s with hbu := t.hbu, log := t.log, ring := t.ring, nv := t.nv }) ∧
      (∀ c x i tag irq stop, waitingChans s = [c] → s.hbu.access = none → (chanGet c s).cur = some x →
        x.kind = .soft i tag irq stop → x.ended = none → reaches .gntTimeout s fun t =>
          timedOut t ∧ (chanGet c t).cur = some { x with ended := some (stDmaFault, 0x04) } ∧
          (chanGet c t).faultAddr = BitVec.ofNat 24 (unitAddr (nextAddr c s) s) ∧
          (∀ d, d ≠ c → chanGet d t = chanGet d s) ∧
          t = { s with dma := t.dma, hbu := t.hbu, log := t.log, ring := t.ring, nv := t.nv }))

/-- DMA_KICK of one enabled IDLE or POLLING SOFT channel makes it look at its next slot, and a HALTED one looks and is IDLE;
a HALTED channel of the queue engine goes IDLE; a DISABLED, RUNNING or STOPPING channel stays. DMA_POLL_TIMER makes a POLLING
channel look again. DMA_GLOBAL_PAUSE and DMA_GLOBAL_RESUME set DMA_GCTRL.EN and change no channel; a pause with no access
under way ends the tenure and releases HB_BREQ_N. DMA_PLACE gives the oldest transfer in line that holds its DMA_DESC unit to
the lowest-numbered enabled idle QUEUE channel, which is RUNNING. No other channel changes. (10_dma_engine.md) -/
def Obligations.DmaControl : Prop :=
  ∀ (s : State),
    (∀ (c : Fin 16), unitsRun s = true →
      let k := chanGet c s
      let looks (k : Chan) (t : State) : Prop :=
        t = { chanPut c k s with hbu := { s.hbu with tenure := t.hbu.tenure, breq := t.hbu.breq } }
      (k.state = .idle ∨ k.state = .polling → k.user = userSoft → k.en = true →
        reaches (.dmaKick (BitVec.ofNat 16 (2 ^ c.val))) s (looks { k with look := true })) ∧
      (k.state = .halted → k.user = userSoft →
        reaches (.dmaKick (BitVec.ofNat 16 (2 ^ c.val))) s (looks { k with look := true, state := .idle })) ∧
      (k.state = .halted → k.user = userQueue →
        reaches (.dmaKick (BitVec.ofNat 16 (2 ^ c.val))) s fun t => t = chanPut c { k with state := .idle } s) ∧
      (k.state = .disabled ∨ k.state = .running ∨ k.state = .stopping →
        reaches (.dmaKick (BitVec.ofNat 16 (2 ^ c.val))) s fun t => t = s) ∧
      (k.state = .polling → k.look = false → reaches (.dmaPollTimer c) s (looks { k with look := true }))) ∧
    (running s = true →
      (reaches .dmaGlobalPause s fun t =>
        t = { s with dma := { s.dma with en := false }, hbu := { s.hbu with tenure := t.hbu.tenure, breq := t.hbu.breq } } ∧
        (s.hbu.access = none → t.hbu.tenure = none ∧ t.hbu.breq = false)) ∧
      (reaches .dmaGlobalResume s fun t => t = { s with
        dma := { s.dma with en := true }, hbu := { s.hbu with tenure := t.hbu.tenure, breq := t.hbu.breq } })) ∧
    (∀ x c, unitsRun s = true → s.dma.waiting.find? (·.hasDesc) = some x → idleQueueChan s = some c →
      (∀ d, d < c → ¬((chanGet d s).en = true ∧ (chanGet d s).user = userQueue ∧ (chanGet d s).state = .idle ∧
        (chanGet d s).cur = none)) ∧
      reaches .dmaPlace s fun t =>
        chanGet c t = { chanGet c s with cur := some x, state := .running } ∧ t.dma.waiting = s.dma.waiting.erase x ∧
        (∀ d, d ≠ c → chanGet d t = chanGet d s) ∧ t = { s with dma := t.dma, hbu := t.hbu })

/-- The write cycles of addresses put each byte at its address and nothing else anywhere, each cycle aligned and no wider than
its region. DMA_BURST on the part's bus, of the first channel in turn that has a burst ready, a SOFT transfer: the burst
begins as an access with the read cycles of its source addresses and the write cycles of its destination addresses. With its
last cycle, BYTES counts the burst and the transfer goes on behind it, or has ended OK at its length. LIST_ENTRY_READ of a
walk without runs begins as the read of eight bytes; with its last cycle a data entry makes its run follow, a link entry moves
the walk, and a reserved bit ends the transfer with BAD_FIELD and detail 0x40. (10_dma_engine.md, 08_host_bus.md) -/
def Obligations.BurstsMoveBytes : Prop :=
  (∀ (d : Side) (k : Nat) (l : List Nat) (b : List Byte) (s : State), b.length = l.length →
    (writeCycles d k l b s).flatMap MCycle.cells = l.zip b ∧
    ∀ m ∈ writeCycles d k l b s, m.n ≤ widthAt m.addr s ∧ m.addr % m.n = 0) ∧
  (∀ (s : State) (data : Vector Byte 64) (c : Fin 16) (x : Xfer) (i : Nat) (tag : Word) (irq stop : Bool)
      (src dst : List Nat) (out : List Byte), busOurs s →
    (burstOrder s).find? (fun d => (burstOf d data.toList s).isSome) = some c → (chanGet c s).cur = some x →
    x.kind = .soft i tag irq stop → x.ended = none → x.hasDesc = true → (chanGet c s).state ≠ .stopping →
    x.src.addrs x.pos x.burst = some src → x.dst.addrs x.pos x.burst = some dst → burstOut x x.burst data.toList s = some out →
    let l := readCycles x.src x.pos src s ++ writeCycles x.dst x.pos dst out s
    beginsAt x.behalf l s → reaches (.dmaBurst data) s fun t =>
      t = { s with
        hbu := { s.hbu with
          access := some { chan := c, behalf := x.behalf, xfer := some x.id, kind := .burst out, cycles := l }, breq := false }
        dma := { s.dma with rrPal := t.dma.rrPal, rrOther := t.dma.rrOther } }) ∧
  (∀ (s : State) (a : Access) (h : MCycle) (x : Xfer) (i : Nat) (tag : Word) (irq stop : Bool) (l : List Byte),
    lastCycle a h s → a.kind = .burst l → a.xfer = some x.id → (chanGet a.chan s).cur = some x →
    x.kind = .soft i tag irq stop → x.ended = none → reaches .masterCycle s fun t =>
      chanGet a.chan t = { chanGet a.chan s with
        bytes := ctrAdd (chanGet a.chan s).bytes x.burst
        cur := some { x with
          pos := x.pos + x.burst, src := x.src.moved x.burst, dst := x.dst.moved x.burst
          ended := if x.pos + x.burst < x.length then none else some (stOk, 0) } } ∧
      accessEnded a h s t ∧ t = { s with dma := t.dma, hbu := t.hbu }) ∧
  (∀ (s : State) (c : Fin 16) (l : Vector Byte 8) (x : Xfer) (next links : Nat), busOurs s →
    (chanGet c s).cur = some x → x.src = .list next [] links → x.hasDesc = true → x.moves = true → x.pos < x.length →
    (chanGet c s).state ≠ .stopping → next % 8 = 0 →
    let m := readCycles .device 0 ((List.range 8).map (next + ·)) s
    beginsAt x.behalf m s → reaches (.listEntryRead c false l) s fun t =>
      t = { s with hbu := { s.hbu with
        access := some { chan := c, behalf := x.behalf, xfer := some x.id, kind := .entry false l.toList, cycles := m }
        breq := false } }) ∧
  (∀ (s : State) (a : Access) (h : MCycle) (x : Xfer) (l : List Byte) (next links : Nat) (i : Nat) (tag : Word)
      (irq stop : Bool), lastCycle a h s → a.kind = .entry false l → a.xfer = some x.id → (chanGet a.chan s).cur = some x →
    x.src = .list next [] links → x.kind = .soft i tag irq stop → x.ended = none →
    let goes (d : Side) (t : State) : Prop :=
      chanGet a.chan t = { chanGet a.chan s with cur := some { x with src := d } } ∧ accessEnded a h s t ∧
      t = { s with dma := t.dma, hbu := t.hbu }
    (leField l 3 1 = 0 → leField l 7 1 = 0 → leField l 4 3 ≠ 0 → leField l 0 3 + leField l 4 3 ≤ 0x1000000 →
      reaches .masterCycle s (goes (.list (next + 8) [(leField l 0 3, leField l 4 3)] 0))) ∧
    (leField l 3 1 = 0 → leField l 7 1 = 128 → leField l 4 3 = 0 → links < 8 →
      reaches .masterCycle s (goes (.list (leField l 0 3) [] (links + 1)))) ∧
    (leField l 3 1 ≠ 0 → reaches .masterCycle s fun t =>
      (chanGet a.chan t).cur = some { x with ended := some (stBadField, 0x40) } ∧ t.dma.faultSeen = true ∧
      accessEnded a h s t))

/-- DESCRIPTOR_READ_DONE on the part's bus, of a SOFT channel that looks, begins the read of the unit that holds byte 63 of
its next slot. With its last cycle, OWN 0 makes the channel IDLE, or POLLING where POLL is not 0; OWN 1 makes it RUNNING with
the read of the whole descriptor as a transfer, which takes or waits for its DMA_DESC unit. DESCRIPTOR_READ_DONE of that
transfer begins the read of its 64 bytes; with its last cycle, every check passed, the descriptor's transfer stands at byte
0, and a descriptor that is owned no longer gives its unit back and sends the channel back to look. DMA_COMPLETION of an ended
transfer in write-back mode begins the writes of bytes done, status and detail and two bytes 0 at bytes 56 to 63 of the slot;
with their last cycle NEXT_IDX goes on by one and wraps, DONE counts, with IRQ the studio's DMA bit is set, and an OK
descriptor without STOP is followed by a look at the next slot. (10_dma_engine.md) -/
def Obligations.DescriptorsAndTheirCompletions : Prop :=
  (∀ (s : State) (c : Fin 16) (l : Vector Byte 64), busOurs s → (chanGet c s).state ≠ .stopping →
    let k := chanGet c s
    (let m := readCycles .device 0 (pollAddrs k s) s
     k.cur = none → k.look = true → beginsAt k.studio m s → reaches (.descriptorReadDone c l) s fun t =>
      t = { s with hbu := { s.hbu with
        access := some { chan := c, behalf := k.studio, xfer := none, kind := .poll (l.toList.getD 63 0), cycles := m }
        breq := false } }) ∧
    (∀ x idx, k.cur = some x → x.kind = .desc idx → x.hasDesc = true →
      let m := readCycles .device 0 ((List.range 64).map (k.descAddr idx + ·)) s
      beginsAt x.behalf m s → reaches (.descriptorReadDone c l) s fun t =>
        t = { s with hbu := { s.hbu with
          access := some { chan := c, behalf := x.behalf, xfer := some x.id, kind := .desc l.toList, cycles := m }
          breq := false } }) ∧
    (∀ x i tag irq stop st dt, k.cur = some x → x.kind = .soft i tag irq stop → x.ended = some (st, dt) → k.cmode ≠ 1 →
      let m := groupsCycles (softWrites c k x i tag st dt) s
      m.flatMap MCycle.cells =
        (leBytes 4 x.pos ++ [st, dt, 0, 0]).zipIdx.map (fun y => (k.ringBase.toNat + 64 * i + 56 + y.2, y.1)) ∧
      (beginsAt x.behalf m s → reaches (.dmaCompletion c) s fun t =>
        t = { s with hbu := { s.hbu with
          access := some { chan := c, behalf := x.behalf, xfer := some x.id, kind := .soft, cycles := m }, breq := false } }))) ∧
  (∀ (s : State) (a : Access) (h : MCycle), lastCycle a h s →
    let k := chanGet a.chan s
    (∀ own, a.kind = .poll own → k.cur = none → k.look = true →
      (own.toNat < 128 → reaches .masterCycle s fun t =>
        chanGet a.chan t = { k with look := false, state := if k.poll = 0 then .idle else .polling } ∧
        accessEnded a h s t ∧ t = { s with dma := t.dma, hbu := t.hbu }) ∧
      (128 ≤ own.toNat → reaches .masterCycle s fun t =>
        chanGet a.chan t = { k with look := false, state := .running, cur := (chanGet a.chan t).cur } ∧
        (chanGet a.chan t).cur.map (fun x => (x.kind, x.src, x.length, x.pos)) =
          some (.desc k.nextIdx.toNat, .flat (k.descAddr k.nextIdx.toNat), 64, 0) ∧
        accessEnded a h s t ∧ t = { s with dma := t.dma, hbu := t.hbu, ledger := t.ledger })) ∧
    (∀ x idx l, a.kind = .desc l → a.xfer = some x.id → k.cur = some x → x.kind = .desc idx → x.hasDesc = true →
      (128 ≤ (l.getD 63 0).toNat → descCheck (descXfer x idx l) l = none → reaches .masterCycle s fun t =>
        chanGet a.chan t = { k with cur := some (descXfer x idx l) } ∧ accessEnded a h s t ∧
        t = { s with dma := t.dma, hbu := t.hbu }) ∧
      ((l.getD 63 0).toNat < 128 → reaches .masterCycle s fun t =>
        chanGet a.chan t = { k with cur := none, look := true } ∧
        (poolGet pDesc t).free = (poolGet pDesc s).free + 1 ∧ accessEnded a h s t ∧
        t = { s with dma := t.dma, hbu := t.hbu, ledger := t.ledger })) ∧
    (∀ x i tag irq stop st dt, a.kind = .soft → a.xfer = some x.id → k.cur = some x → x.kind = .soft i tag irq stop →
      x.ended = some (st, dt) → reaches .masterCycle s fun t =>
        let y := chanGet a.chan t
        y.nextIdx = BitVec.ofNat 10 ((k.nextIdx.toNat + 1) % 2 ^ k.ringLog2.toNat) ∧
        y.doneCount = ctrInc k.doneCount ∧ y.lastStatus = st ∧ y.lastDetail = dt ∧ y.cur = none ∧
        (st ≠ stOk → y.state = .halted) ∧ (st = stOk → stop = true → y.state = .idle) ∧
        (st = stOk → stop = false → y.look = true ∧ y.state = k.state) ∧
        (irq = true → (aliasGet k.studio t).irqStat.getLsbD sirqDmaCpl = true) ∧
        accessEnded a h s t ∧ t = { s with dma := t.dma, hbu := t.hbu, ledger := t.ledger }))

/-- On a 32-bit host bus whose window is free, on a part that is awake: a null cycle changes nothing; a full write outside the
DATA ports, whose buffer has room, is posted last in its alias's buffer and changes nothing else; a write that the host ends
early is dropped and counted; a full read of a mailbox word that the studio may read, with its buffer empty, returns it and
changes nothing else, and one that it may not read returns 0 and is counted; a WHISTLE read with empty buffers returns DRAINED
0 beside the WSEQ that it counted, through a studio block or through the mirror. POSTED_WRITE_APPLY of a permitted mailbox
write stores the enabled bytes of its word and no others. S_IRQ_STAT_CLEAR clears what is written with 1 and drops a snapshot
of the register. (08_host_bus.md, 23_faults_and_interrupts.md, 09_ordering.md) -/
def Obligations.TargetCycles : Prop :=
  (∀ (s : State) (off : BitVec 16) (w : Word), busFree s = true → awake s → s.restart.straps.width = 2 →
    let x := spotOf (off.toNat / 4 * 4) s
    let al := aliasOf x s
    (reaches (.targetWrite off 0 w false) s fun t => t = s) ∧
    ((∀ st, x ≠ .pioData st) → (aliasGet al s).buf.length < 16 → reaches (.targetWrite off 0xF w false) s fun t =>
      t = aliasPut al { aliasGet al s with
        buf := (aliasGet al s).buf ++ [⟨BitVec.ofNat 16 (off.toNat / 4 * 4), 0xF, w⟩] } s) ∧
    (reaches (.targetWrite off 0xF w true) s fun t =>
      t.hbu = { s.hbu with flags := s.hbu.flags ||| 16#10 } ∧ counterGet 0x12 t = ctrInc (counterGet 0x12 s) ∧
      t = { s with hbu := t.hbu, log := t.log, ring := t.ring, nv := t.nv, pathM := t.pathM } ∧
      (x.isMirror = false → t.pathM = s.pathM)) ∧
    (∀ b, x = .mailbox b → (aliasGet (fin8 (b / 1024)) s).buf = [] →
      (mailboxAllows (fin8 (b / 1024)) b false s = true → reaches (.targetRead off 0xF false) s fun t =>
        t = { s with hbu := { s.hbu with readData := some (memWord s.hbu.mailbox b) } }) ∧
      (mailboxAllows (fin8 (b / 1024)) b false s = false → reaches (.targetRead off 0xF false) s fun t =>
        t.hbu = { s.hbu with readData := some 0, flags := s.hbu.flags ||| 64#10 } ∧
        counterGet 0x17 t = ctrInc (counterGet 0x17 s) ∧
        t = { s with hbu := t.hbu, log := t.log, ring := t.ring, nv := t.nv })) ∧
    ((∀ a, (aliasGet a s).buf = []) →
      (∀ st : Fin 8, reaches (.whistleRead (some st)) s fun t =>
        let n : BitVec 16 := (aliasGet st s).wseq + 1
        t = { aliasPut st { aliasGet st s with wseq := n } s with
          hbu := { (aliasPut st { aliasGet st s with wseq := n } s).hbu with readData := some (fld 0 n.toNat) } }) ∧
      (s.restart.straps.ctlmir = true → reaches (.whistleRead none) s fun t =>
        t = { armAge .mirror s with hbu := { s.hbu with
          mirWseq := s.hbu.mirWseq + 1
          readData := some (flg 31 (commitOn .mirror s) ||| fld 0 (s.hbu.mirWseq + 1).toNat) } }))) ∧
  (∀ (s : State) (al : Fin 8) (p : Posted) (rest : List Posted) (b : Nat), windowLive s = true →
    (aliasGet al s).buf = p :: rest → spotOf p.off.toNat s = .mailbox b → mailboxAllows (fin8 (b / 1024)) b true s = true →
    ∃ t, exec (.postedWriteApply al) s = .next t ∧
      (aliasGet al t).buf = rest ∧
      (∀ k < 4, lane p.lanes k = true → memRead t.hbu.mailbox (b + k) = p.data.extractLsb' (8 * k) 8) ∧
      (∀ a, (∀ k < 4, lane p.lanes k = true → a ≠ b + k) → memRead t.hbu.mailbox a = memRead s.hbu.mailbox a) ∧
      t.hbu.ringSram = s.hbu.ringSram ∧ t = { s with hbu := t.hbu }) ∧
  (∀ (s : State) (st : Fin 8) (w : Word), windowLive s = true → reaches (.sIrqStatClear st w) s fun t =>
    t = aliasPut st { aliasGet st s with
      irqStat := (aliasGet st s).irqStat &&& ~~~ w.truncate 6
      snap := (aliasGet st s).snap.filter fun y => y.1.toNat != 0x200 * st.val + 0x30 } s)

/-- At LEVEL2, for the DATA access that waits first on HB_RDY: a push with an empty posted-write buffer that finds room puts
its enabled bytes behind those that the FIFO holds and counts them down; on a 32-bit bus a pop that finds its bytes, not the
last ones of its command, returns them and removes them; an expired push enters nothing and counts PIO_FULL, an expired pop
returns 0, removes nothing and counts PIO_EMPTY. Without a waiting access nothing changes. (08_host_bus.md) -/
def Obligations.WaitingPioAccesses : Prop :=
  ∀ (s : State) (st : Fin 8) (l : Lanes) (w : Word) (early : Bool) (more : List PioWait), windowLive s = true →
    let a := aliasGet st s
    (∀ i q rem, a.pioWait = ⟨true, l, w, early⟩ :: more → a.pioCur = some (i, q, false, rem) → a.buf = [] →
      laneCount l ≤ rem → a.pio.length + laneCount l ≤ 2048 → reaches (.pioPush st) s fun t =>
        t = aliasPut st { a with
          pioWait := more, pio := a.pio ++ laneBytes l w, pioCur := some (i, q, false, rem - laneCount l) } s) ∧
    (∀ i q rem, a.pioWait = ⟨false, l, w, false⟩ :: more → a.pioCur = some (i, q, true, rem) →
      s.restart.straps.width = 2 → laneCount l ≤ a.pio.length → rem ≠ laneCount l → (slotGet i s).bind (·.ending) = none →
      reaches (.pioPop st) s fun t =>
        let b : Alias := { a with pioWait := more, pio := a.pio.drop (laneCount l), pioCur := some (i, q, true, rem - laneCount l) }
        t = { aliasPut st b s with hbu := { (aliasPut st b s).hbu with
          readData := some (laneSpread l (a.pio.take (laneCount l)) &&& laneMask l) } }) ∧
    (a.pioWait = ⟨true, l, w, early⟩ :: more → reaches (.pioWaitExpiry st) s fun t =>
      t.hbu = { (aliasPut st { a with pioWait := more } s).hbu with flags := s.hbu.flags ||| 32#10 } ∧
      counterGet 0x19 t = ctrInc (counterGet 0x19 s) ∧
      t = { s with hbu := t.hbu, log := t.log, ring := t.ring, nv := t.nv }) ∧
    (a.pioWait = ⟨false, l, w, false⟩ :: more → reaches (.pioWaitExpiry st) s fun t =>
      t.hbu = { (aliasPut st { a with pioWait := more } s).hbu with flags := s.hbu.flags ||| 32#10, readData := some 0 } ∧
      counterGet 0x1A t = ctrInc (counterGet 0x1A s) ∧
      t = { s with hbu := t.hbu, log := t.log, ring := t.ring, nv := t.nv }) ∧
    (a.pioWait = [] →
      (reaches (.pioPush st) s fun t => t = s) ∧ (reaches (.pioPop st) s fun t => t = s) ∧
      (reaches (.pioWaitExpiry st) s fun t => t = s))

/-- STUDIO_RESET of one studio that is ACTIVE or RESET_DONE at LEVEL2 makes it RESETTING with DONE clear, counts it, notes
TICK, leaves each of its submission queues DISABLED with its pointers at 0, and clears its interrupt bits; of a studio that
is IDLE or RESETTING, and of any studio below LEVEL2, it is ignored and counted. STUDIO_RESET_END of a RESETTING studio
with nothing under way whose audit passes makes it RESET_DONE with DONE set; an audit that fails takes the part to
FAILSTOP; while something of it is under way the row changes nothing. STUDIO_DONE_ACK of a RESET_DONE studio makes it
ACTIVE at LEVEL2 where it is enabled and IDLE elsewhere, with DONE clear; of another it changes nothing.
(19_studios.md) -/
def Obligations.StudioResets : Prop :=
  ∀ (s : State) (st : Fin 8),
    (running s = true → atLevel2 s = true → (studioGet st s).state = .active ∨ (studioGet st s).state = .resetDone →
      reaches (.studioReset (BitVec.ofNat 8 (2 ^ st.val))) s fun t =>
        (studioGet st t).state = .resetting ∧ (studioGet st t).done = false ∧
        (studioGet st t).resets = ctrInc (studioGet st s).resets ∧ (studioGet st t).cfg = (studioGet st s).cfg ∧
        (studioGet st t).resetTick = s.clk.tick.truncate 32 ∧ (aliasGet st t).irqStat = 0 ∧
        (∀ q : Fin 32, sqStudio q = st → (sqGet q t).state = .disabled ∧ (sqGet q t).head = 0 ∧ (sqGet q t).tail = 0) ∧
        (∀ d, d ≠ st → studioGet d t = studioGet d s) ∧ t.hbu.mailbox = s.hbu.mailbox ∧ t.hbu.ringSram = s.hbu.ringSram ∧
        t = { s with
          canvas := t.canvas, dma := t.dma, hbu := t.hbu, ledger := t.ledger, log := t.log, members := t.members,
          nv := t.nv, palette := t.palette, queues := t.queues, ring := t.ring, skb := t.skb, studios := t.studios }) ∧
    (running s = true →
      atLevel2 s = false ∨ (studioGet st s).state = .idle ∨ (studioGet st s).state = .resetting →
      reaches (.studioReset (BitVec.ofNat 8 (2 ^ st.val))) s fun t =>
        t.studios = s.studios ∧ t.queues = s.queues ∧ counterGet 0x2B t = ctrInc (counterGet 0x2B s)) ∧
    (unitsRun s = true → (studioGet st s).state = .resetting →
      (studioQuiet st s = true → auditFail (some st) s = none → reaches (.studioResetEnd st) s fun t =>
        studioGet st t = { studioGet st s with
          state := .resetDone, done := true, resetTicks := s.clk.tick.truncate 32 - (studioGet st s).resetTick } ∧
        t.ledger.fail = false ∧ (∀ d, d ≠ st → studioGet d t = studioGet d s) ∧
        t = { s with ledger := t.ledger, studios := t.studios }) ∧
      (studioQuiet st s = true → auditFail (some st) s ≠ none → reaches (.studioResetEnd st) s fun t =>
        t.restart.level = .failstop ∧ t.ledger.fail = true ∧ t.studios = s.studios) ∧
      (studioQuiet st s = false → reaches (.studioResetEnd st) s fun t => t = s)) ∧
    (unitsRun s = true → (studioGet st s).state = .resetDone →
      reaches (.studioDoneAck (BitVec.ofNat 8 (2 ^ st.val))) s fun t =>
        t = studioPut st { studioGet st s with
          done := false, state := if (studioGet st s).cfg.en && atLevel2 s then .active else .idle } s) ∧
    ((studioGet st s).state ≠ .resetDone → reaches (.studioDoneAck (BitVec.ofNat 8 (2 ^ st.val))) s fun t => t = s)

/-- LEDGER_AUDIT at a TICK multiple of 100 where every pool passes its checks notes TICK with FAIL clear and changes
nothing else; where one fails, the lowest failing pool and its first failing check are shown, a record goes to the log and
to the black box, and the level is FAILSTOP; at any other TICK it changes nothing. CTRL_PARITY takes the part to FAILSTOP
with a black-box record; the records and pages of the Sketchbook, the members, the queues and both byte memories stay, and
no entry to a sleep state is left under way. (18_referee_and_ledger.md, 23_faults_and_interrupts.md) -/
def Obligations.AuditAndParity : Prop :=
  ∀ (s : State),
    (auditRuns s = true → auditFail none s = none → reaches .ledgerAudit s fun t =>
      t = { s with ledger := { s.ledger with auditTick := s.clk.tick.truncate 24, fail := false } }) ∧
    (∀ i k, auditRuns s = true → auditFail none s = some (i, k) →
      (∀ j, j < i → (poolGet j s).failure none = none) ∧ (poolGet i s).failure none = some k ∧
      reaches .ledgerAudit s fun t =>
        t.restart.level = .failstop ∧ t.ledger.fail = true ∧ t.ledger.failPool = BitVec.ofNat 5 i.val ∧
        t.ledger.failKind = k ∧ t.ledger.pools = s.ledger.pools ∧ t.nv.bseq = s.nv.bseq + 1 ∧ t.log.lastBb = 0x09) ∧
    (s.clk.tick.toNat % 100 ≠ 0 → reaches .ledgerAudit s fun t => t = s) ∧
    (∀ (unit : Byte) (a : Word), running s = true → s.restart.level ≠ .failstop → reaches (.ctrlParity unit a) s fun t =>
      t.restart.level = .failstop ∧ t.nv.bseq = s.nv.bseq + 1 ∧ t.log.lastBb = 0x0A ∧
      counterGet 0x0A t = ctrInc (counterGet 0x0A s) ∧ t.skb.recs = s.skb.recs ∧ t.skb.pages = s.skb.pages ∧
      t.members = s.members ∧ t.hbu = s.hbu ∧ t.queues = s.queues ∧ t.power.entry = none ∧ t.power.ordered = none)

/-- With the second tier in use: TIER2_TRANSFER_DONE clears the count of failures in a row; TIER2_CHECK_READ of the
density that the probe read changes nothing; TIER2_DQS_TIMEOUT, or a check read that answers nothing or another
density, counts one failure, and the third in a row drops every second-tier tile, leaves the pool with no units and
counts TIER2_LOST. The tiles of canvas memory stay. (18_referee_and_ledger.md) -/
def Obligations.SecondTier : Prop :=
  ∀ (s : State), tier2Used s = true →
    (reaches .tier2TransferDone s fun t => t = { s with canvas := { s.canvas with fails := 0 } }) ∧
    (∀ r : Half, r.toNat / 256 % 8 = s.canvas.density.toNat → reaches (.tier2CheckRead (some r)) s fun t => t = s) ∧
    (∀ c, c = .tier2DqsTimeout ∨ c = .tier2CheckRead none ∨
        (∃ r : Half, r.toNat / 256 % 8 ≠ s.canvas.density.toNat ∧ c = .tier2CheckRead (some r)) →
      (s.canvas.fails < 2 → reaches c s fun t =>
        t = { s with canvas := { s.canvas with fails := s.canvas.fails + 1 } }) ∧
      (2 ≤ s.canvas.fails → reaches c s fun t =>
        t.canvas.tier2 = [] ∧ t.canvas.fails = 0 ∧ (poolGet pTier2 t).total = 0 ∧ (poolGet pTier2 t).free = 0 ∧
        counterGet 0x3B t = ctrInc (counterGet 0x3B s) ∧ t.canvas.tiles = s.canvas.tiles ∧
        (∀ i, i ≠ pTier2 → poolGet i t = poolGet i s) ∧
        t = { s with canvas := t.canvas, ledger := t.ledger, log := t.log, ring := t.ring, nv := t.nv }))

/-- CARD_INSERTED and CARD_REMOVED act once 2500 samples in a row have shown the new level, and change nothing before.
Awake: an insertion at an ABSENT or MISSING port makes its member PROBING, with cause, TICK and note, and powers the card
if its power has been off for 1000 TICKs, else leaves the power-on due. SIGNATURE_READ of a card that R320 to R325 identify,
with readable copies, on a manager enters what was found and puts the member in the state that R331 gives. IDENT_FAILED,
and a read that identifies no card, make a member without operations FAILED and its port powerless. A removal makes an
ACTIVE member MISSING; any other, without operations, ABSENT with MODE and PAD 0. No other member changes state but a
clone that R331 names. (13_members.md) -/
def Obligations.CardsComeAndGo : Prop :=
  ∀ (s : State) (p : Fin 8),
    (cdHeld p true s = false → reaches (.cardInserted p) s fun t => t = s) ∧
    (cdHeld p false s = false → reaches (.cardRemoved p) s fun t => t = s) ∧
    (awake s → cdHeld p true s = true → (portGet p s).powered = false →
      (memGet (ownMember p s) s).state = .absent ∨ (memGet (ownMember p s) s).state = .missing →
      reaches (.cardInserted p) s fun t =>
        (memGet (ownMember p s) t).state = .probing ∧ (memGet (ownMember p s) t).lastChange = 0x01 ∧
        (memGet (ownMember p s) t).changeTick = s.clk.tick.truncate 32 ∧
        (memGet (ownMember p s) t).cfg = (memGet (ownMember p s) s).cfg ∧
        (1000 ≤ (portGet p s).offTicks → portGet p t = { portGet p s with
          cdLow := true, cdKnown := true, cdCount := 0, powered := true, powerDue := false,
          cfg := (memGet (ownMember p s) s).cfg }) ∧
        ((portGet p s).offTicks < 1000 → portGet p t = { portGet p s with
          cdLow := true, cdKnown := true, cdCount := 0, powerDue := true }) ∧
        (∀ m, m ≠ ownMember p s → memGet m t = memGet m s) ∧ counterGet 0x30 t = ctrInc (counterGet 0x30 s) ∧
        t = { s with ledger := t.ledger, log := t.log, members := t.members, nv := t.nv, ring := t.ring }) ∧
    (∀ d cause f sig mend, unitsUp s = true → s.power.state ≠ .doze → isManager s = true →
      (memGet (ownMember p s) s).state = .probing → (memGet (ownMember p s) s).mode = 0 → (portGet p s).powered = true →
      (portGet p s).classM = none → identify (portGet p s).cfg d = (cause, some f) →
      chooseSig d.copyA d.copyB = some (sig, mend) →
      reaches (.signatureRead p d) s fun t =>
        (memGet (ownMember p s) t).state = (classify (ownMember p s) (portFound p (identEntry p d f sig mend s))).1 ∧
        (memGet (ownMember p s) t).capacity = d.capacity ∧ (memGet (ownMember p s) t).cid = d.cid ∧
        (memGet (ownMember p s) t).kind = f.kind ∧ (memGet (ownMember p s) t).phase = f.take.2 ∧
        (memGet (ownMember p s) t).sig = sig ∧ (portGet p t).discovered = true ∧ (portGet p t).rungs = f.rungs) ∧
    (∀ c, unitsUp s = true → s.power.state ≠ .doze → (memGet (ownMember p s) s).state = .probing →
      (memGet (ownMember p s) s).mode = 0 → (portGet p s).powered = true → (portGet p s).classM = none →
      (portGet p s).issued = [] → (portGet p s).qa = [] → (portGet p s).qb = [] → (portGet p s).qc = [] →
      (c = .identFailed p false ∨ c = .identFailed p true ∨ ∃ d cause, identify (portGet p s).cfg d = (cause, none) ∧
        c = .signatureRead p d) →
      reaches c s fun t =>
        (memGet (ownMember p s) t).state = .failed ∧
        ((memGet (ownMember p s) t).lastChange = 0x04 ∨ (memGet (ownMember p s) t).lastChange = 0x05) ∧
        (c = .identFailed p true → (memGet (ownMember p s) t).lastChange = 0x05) ∧
        (portGet p t).powered = false ∧ (∀ m, m ≠ ownMember p s → memGet m t = memGet m s) ∧
        t = { s with ledger := t.ledger, log := t.log, members := t.members, nv := t.nv, ring := t.ring }) ∧
    (awake s → cdHeld p false s = true → (portGet p s).cdLow = true → (memGet (ownMember p s) s).state ≠ .absent →
      (memGet (ownMember p s) s).state ≠ .active → (portGet p s).classM = none → (portGet p s).issued = [] →
      (portGet p s).qa = [] → (portGet p s).qb = [] → (portGet p s).qc = [] →
      reaches (.cardRemoved p) s fun t =>
        (memGet (ownMember p s) t).state = .absent ∧ (memGet (ownMember p s) t).lastChange = 0x02 ∧
        (memGet (ownMember p s) t).mode = 0 ∧ (memGet (ownMember p s) t).pad = 0 ∧ (portGet p t).powered = false ∧
        (portGet p t).cdLow = false ∧ (∀ m, m ≠ ownMember p s → memGet m t = memGet m s) ∧
        t = { s with ledger := t.ledger, log := t.log, members := t.members, nv := t.nv, ring := t.ring }) ∧
    (awake s → cdHeld p false s = true → (portGet p s).cdLow = true → (portGet p s).classM = none →
      (memGet (ownMember p s) s).state = .active → reaches (.cardRemoved p) s fun t =>
        (memGet (ownMember p s) t).state = .missing ∧ (portGet p t).powered = false ∧ (portGet p t).cdLow = false)

/-- Through an open path with its arm, PORT_RST of one port with an accepted card: the arm is spent, no operation of the
port is issued, the state and signature that its member had are kept for the match, and the member is PROBING with cause
COMMAND and every run-time word of its entry cleared but the CID. A powered card loses its power, with the power-on due
after 1000 TICKs; without operations no other member or port changes. A port without an accepted card keeps its state, and
its run-time words are cleared. PORT_RESET_LOST of a port whose member was ACTIVE ends the reset with the member MISSING
and its power off; of one whose member was in another state it only forgets that state; without a reset it changes
nothing. (05_resets_and_restart.md, 13_members.md) -/
def Obligations.PortResets : Prop :=
  (∀ (s : State) (pa : Path) (p : Fin 8), openPath pa s → hasArm pa 0x00C5 s →
    ((portGet p s).cdLow = true → reaches (.portRst pa (BitVec.ofNat 8 (2 ^ p.val))) s fun t =>
      (memGet (ownMember p s) t) = {
        cfg := (memGet (ownMember p s) s).cfg, cid := (memGet (ownMember p s) s).cid, state := .probing, lastChange := 0x09,
        changeTick := s.clk.tick.truncate 32, sigDue := (memGet (ownMember p s) s).sigDue,
        pad := (memGet (ownMember p s) t).pad } ∧
      (portGet p t).classM =
        some ((portGet p s).classM.getD ((memGet (ownMember p s) s).state, (memGet (ownMember p s) s).sig)) ∧
      (portGet p t).issued = [] ∧ (pathGet pa t).arm = none ∧
      ((portGet p s).powered = true →
        (portGet p t).powered = false ∧ (portGet p t).powerDue = true ∧ (portGet p t).offTicks = 0)) ∧
    ((portGet p s).cdLow = true → (portGet p s).issued = [] → (portGet p s).qa = [] → (portGet p s).qb = [] →
      (portGet p s).qc = [] → reaches (.portRst pa (BitVec.ofNat 8 (2 ^ p.val))) s fun t =>
        (∀ m, m ≠ ownMember p s → memGet m t = memGet m s) ∧ (∀ q, q ≠ p → portGet q t = portGet q s) ∧
        t = { s with
          ledger := t.ledger, log := t.log, members := t.members, nv := t.nv, pathC := t.pathC, pathM := t.pathM,
          ring := t.ring }) ∧
    ((portGet p s).cdLow = false → reaches (.portRst pa (BitVec.ofNat 8 (2 ^ p.val))) s fun t =>
      (memGet (ownMember p s) t) = {
        cfg := (memGet (ownMember p s) s).cfg, state := (memGet (ownMember p s) s).state,
        sigDue := (memGet (ownMember p s) s).sigDue })) ∧
  (∀ (s : State) (p : Fin 8), unitsUp s = true →
    (∀ sig, (portGet p s).classM = some (.active, sig) → (memGet (ownMember p s) s).state = .probing →
      reaches (.portResetLost p) s fun t =>
        (memGet (ownMember p s) t).state = .missing ∧ (portGet p t).classM = none ∧ (portGet p t).powered = false) ∧
    (∀ st sig, (portGet p s).classM = some (st, sig) → st ≠ .active → reaches (.portResetLost p) s fun t =>
      t = portPut p { portGet p s with classM := none } s) ∧
    ((portGet p s).classM = none → reaches (.portResetLost p) s fun t => t = s))

/-- MEMBER_OP_ISSUE gives the operation that R443 picks (class A first, by earliest deadline) a MEMBER_SLOT unit and
issues it last on its port; where the port takes none, or nothing is picked, it changes nothing. MEMBER_OP_DONE of a chunk
read outside class A fills its raw tile with the data, returns the slot and counts the operation. A link error, a card
error or a MEMBER_OP_TIMEOUT below three tries asks the operation again and counts a retry, and LINK_ERRS and TIMEOUTS as
they apply; before the first retry in a tuned mode whose tuning passes, the phase is taken from it; after three, a link
error that has not stepped down moves the port to the mode below and starts again. While SDn_CD_N reads high a failure
is only held. REFEREE_DECAY halves the done counters of every port, once at each TICK multiple of 1024.
(13_members.md, 18_referee_and_ledger.md) -/
def Obligations.MemberOperations : Prop :=
  (∀ (s : State) (p : Fin 8),
    (∀ o x, portTakes p s = true → refereePick s.referee.cfg (portGet p s) = some (o, x) →
      (∀ y ∈ (portGet p s).qa, o ∈ (portGet p s).qa ∧ o.deadline ≤ y.deadline) ∧
      reaches (.memberOpIssue p) s fun t =>
        portGet p t = x.issue o ∧ (poolGet (pMember p) t).free = (poolGet (pMember p) s).free - 1 ∧
        (∀ q, q ≠ p → portGet q t = portGet q s) ∧
        t = { s with ledger := t.ledger, members := t.members, referee := t.referee }) ∧
    (portTakes p s = false ∨ refereePick s.referee.cfg (portGet p s) = none →
      reaches (.memberOpIssue p) s fun t => t = s)) ∧
  (∀ (s : State) (p : Fin 8) (o : MOp) (rest : List MOp), busRuns p s = true →
    (portGet p s).issued = o :: rest → orphanOp o s = false →
    (∀ d w c row rows n tl, o.kind = .read → o.cls ≠ .a → o.use = .chunk w c row rows → (∀ a b, w ≠ .remote a b) →
      tileFind (.raw w c row) s = some (n, tl) → reaches (.memberOpDone p (.ok d)) s fun t =>
        t.canvas.tiles = kput n { tl with valid := 0xFF, data := tileOf (opData o d) } s.canvas.tiles ∧
        (portGet p t).issued = rest ∧ (memGet (ownMember p s) t).ops = ctrInc (memGet (ownMember p s) s).ops ∧
        (poolGet (pMember p) t).free = (poolGet (pMember p) s).free + 1 ∧
        t = { s with canvas := t.canvas, ledger := t.ledger, members := t.members, ring := t.ring }) ∧
    (∀ tn : Tunes, (portGet p s).cdNow = true → o.tries < 3 →
      (0 < o.tries ∨ tuneMask tn (memGet (ownMember p s) s).mode = none →
        (reaches (.memberOpDone p (.linkError tn)) s fun t =>
          portGet p t = { portGet p s with issued := { o with tries := o.tries + 1 } :: rest } ∧
          memGet (ownMember p s) t = { memGet (ownMember p s) s with
            linkErrs := ctrInc (memGet (ownMember p s) s).linkErrs, retries := ctrInc (memGet (ownMember p s) s).retries } ∧
          t = { s with members := t.members, ring := t.ring }) ∧
        (reaches (.memberOpTimeout p tn) s fun t =>
          portGet p t = { portGet p s with issued := { o with tries := o.tries + 1 } :: rest } ∧
          memGet (ownMember p s) t = { memGet (ownMember p s) s with
            timeouts := ctrInc (memGet (ownMember p s) s).timeouts,
            linkErrs := ctrInc (memGet (ownMember p s) s).linkErrs, retries := ctrInc (memGet (ownMember p s) s).retries } ∧
          t = { s with members := t.members, ring := t.ring }) ∧
        (∀ n d, reaches (.memberOpDone p (.cardError n d tn)) s fun t =>
          portGet p t = { portGet p s with issued := { o with tries := o.tries + 1 } :: rest } ∧
          memGet (ownMember p s) t = { memGet (ownMember p s) s with
            retries := ctrInc (memGet (ownMember p s) s).retries } ∧
          t = { s with members := t.members, ring := t.ring })) ∧
      (∀ w, o.tries = 0 → tuneMask tn (memGet (ownMember p s) s).mode = some w → 4 ≤ widest w →
        reaches (.memberOpDone p (.linkError tn)) s fun t =>
          portGet p t = { portGet p s with issued := { o with tries := 1 } :: rest } ∧
          memGet (ownMember p s) t = { memGet (ownMember p s) s with
            phase := phaseOf w
            linkErrs := ctrInc (memGet (ownMember p s) s).linkErrs, retries := ctrInc (memGet (ownMember p s) s).retries } ∧
          t = { s with members := t.members, ring := t.ring })) ∧
    (∀ (tn : Tunes) (k : BitVec 4 × BitVec 5), (portGet p s).cdNow = true → 3 ≤ o.tries → o.stepped = false →
      tuneDown tn (rungsBelow p s) = some k → reaches (.memberOpDone p (.linkError tn)) s fun t =>
        portGet p t = { portGet p s with issued := { o with tries := 0, stepped := true } :: rest } ∧
        (memGet (ownMember p s) t).mode = k.1 ∧ (memGet (ownMember p s) t).phase = k.2 ∧
        (memGet (ownMember p s) t).linkErrs = ctrInc (memGet (ownMember p s) s).linkErrs) ∧
    ((portGet p s).cdNow = false → ∀ n d tn,
      (reaches (.memberOpDone p (.cardError n d tn)) s fun t =>
        t = portPut p { portGet p s with heldFail := some tn } s) ∧
      (reaches (.memberOpDone p (.linkError tn)) s fun t =>
        t = portPut p { portGet p s with heldFail := some tn } s))) ∧
  (∀ (s : State),
    (unitsUp s = true → s.clk.tick.toNat % 1024 = 0 → s.clk.decayed = false → reaches .refereeDecay s fun t =>
      (∀ p, (portGet p t).doneA = (portGet p s).doneA / 2 ∧ (portGet p t).doneB = (portGet p s).doneB / 2 ∧
        (portGet p t).doneC = (portGet p s).doneC / 2 ∧ (portGet p t).issued = (portGet p s).issued) ∧
      t.ring.fa.flitsAll = s.ring.fa.flitsAll / 2 ∧ t.members.tbl = s.members.tbl ∧ t.clk.decayed = true ∧
      t = { s with clk := { s.clk with decayed := true }, members := t.members, ring := t.ring }) ∧
    (s.clk.tick.toNat % 1024 ≠ 0 ∨ s.clk.decayed = true → reaches .refereeDecay s fun t => t = s))

/-- SIGNATURE_REFRESH on a manager of a member of its own node whose signature is due and is not being written: one class
C write of eight sectors at sector 0 with the block that the member is to hold is queued last on its port, and the
signature is due no longer. Where only one copy was found invalid that copy alone is written, by the manager and by the
worker that holds an ACTIVE or BENCH card, with the block that the valid copy holds. With nothing due, and while a copy is
being written, it changes nothing. (13_members.md, 18_referee_and_ledger.md) -/
def Obligations.SignaturesAreRefreshed : Prop :=
  ∀ (s : State) (m : Fin 128), unitsRun s = true →
    (isManager s = true → isOwn m s = true → sigOut m s = false → (memGet m s).sigDue = true →
      (memGet m s).state ≠ .active ∨ (sigFrom (sigSource s) m s).isSome = true →
      reaches (.signatureRefresh m) s fun t =>
        portGet (portOf m) t = { portGet (portOf m) s with
          qc := (portGet (portOf m) s).qc ++ [{
            id := s.members.nextOp, member := m, cls := .c, kind := .write, sector := 0, count := 8, use := .sig false false,
            data := sigSectors (sigFrom (sigSource s) m s) }] } ∧
        memGet m t = { memGet m s with sigDue := false, sigMend := none } ∧
        (∀ k, k ≠ m → memGet k t = memGet k s) ∧ t = { s with members := t.members }) ∧
    (∀ b, isOwn m s = true → sigOut m s = false → (memGet m s).sigMend = some b →
      (isManager s = true ∧ (memGet m s).sigDue = false) ∨
        (isManager s = false ∧ ((memGet m s).state = .active ∨ (memGet m s).state = .bench)) →
      reaches (.signatureRefresh m) s fun t =>
        portGet (portOf m) t = { portGet (portOf m) s with
          qc := (portGet (portOf m) s).qc ++ [{
            id := s.members.nextOp, member := m, cls := .c, kind := .write, sector := if b then 4096 else 0, count := 8,
            use := .mend b, data := sigSectors (memGet m s).sig }] } ∧
        t.members.tbl = s.members.tbl ∧ t = { s with members := t.members }) ∧
    ((memGet m s).sigDue = false ∧ (memGet m s).sigMend = none ∨ sigOut m s = true →
      reaches (.signatureRefresh m) s fun t => t = s)

/-- PAGE_PROGRAM_DONE of a WRITE's page keeps its contents under its page number and marks it programmed for its command.
RECORD_SEAL of a record whose command has ended puts it into its slot with its check values; a TRIM record that is newer
than every record that covers a sector in the rest of its range makes that sector read zeros from the journal. RETIREMENT
of a slot whose RETIRE word is in flight, of an array that is not REPLAYING, marks its record retired and returns its pages
and units; TRIM_DONE_UPDATE of a slot whose word is in flight puts that value into the record, and every record that may
then retire has its RETIRE word asked for. Where the slot's word is not in flight, both change nothing. While the units
stand still a record or a word in flight is kept and nothing else follows. None of these changes a volume, a member entry
or a configuration copy. (15_write_path_sketchbook.md, 05_resets_and_restart.md) -/
def Obligations.ProgramsSealAndRetire : Prop :=
  (∀ (s : State) (i pg tile : Nat) (p : Page) (rest : List ProgOp) (x : Slot), unitsUp s = true →
    s.nv.prog = .page i pg p :: rest → slotGet i s = some x → x.pages.find? (fun q => q.2.1 == pg) = some (tile, pg, false) →
    reaches .pageProgramDone s fun t =>
      kget pg t.skb.pages = some p ∧ (∃ y, slotGet i t = some y ∧ (tile, pg, true) ∈ y.pages) ∧ t.skb.recs = s.skb.recs ∧
      t = { s with canvas := t.canvas, queues := t.queues, skb := t.skb, nv := { s.nv with prog := t.nv.prog } }) ∧
  (∀ (s : State) (owner : Option Nat) (k : Nat) (r : Rec) (rest : List ProgOp),
    s.nv.prog = .record owner k r :: rest →
    (unitsUp s = true → sealOwner owner r s = none → r.kind = .write → reaches .recordSeal s fun t =>
      t.skb.recs = kput k { r with pcrcs := r.crcs s } s.skb.recs ∧ t.nv.prog = rest ∧ t.skb.pages = s.skb.pages ∧
      t = { s with canvas := t.canvas, ledger := t.ledger, skb := t.skb, nv := { s.nv with prog := rest } }) ∧
    (unitsUp s = true → sealOwner owner r s = none → r.kind = .trim → r.system = false →
      (reaches .recordSeal s fun t =>
        t.skb.recs = kput k { r with pcrcs := r.crcs s } s.skb.recs ∧ t.nv.prog = rest ∧ t.skb.pages = s.skb.pages ∧
        t = { s with canvas := t.canvas, ledger := t.ledger, skb := t.skb, nv := { s.nv with prog := rest } }) ∧
      (∀ x, r.start + r.trimDone ≤ x → x < r.start + r.count → r.retired = false → kget k s.skb.recs = none →
        (∀ q ∈ liveRecs s, q.2.covers r.array x = true → newer r.cseq q.2.cseq = true ∧ newer q.2.cseq r.cseq = false) →
        reaches .recordSeal s fun t => journalSector r.array x t = .data 0)) ∧
    (running s = true → unitsUp s = false → reaches .recordSeal s fun t =>
      t = { s with
        nv := { s.nv with prog := rest }
        skb := { s.skb with
          recs := kput k { r with pcrcs := r.crcs s } s.skb.recs, torn := kdel k s.skb.torn } })) ∧
  (∀ (s : State) (k : Nat) (r : Rec) (rest : List ProgOp), unitsUp s = true → kget k s.skb.recs = some r →
    (s.nv.prog = .retire k :: rest → (arrGet r.array s).state ≠ .replaying → reaches (.retirement k) s fun t =>
      t.skb.recs = kput k { r with retired := true } s.skb.recs ∧
      (poolGet pPage t).free = (poolGet pPage s).free + r.units ∧ (∀ p ∈ r.pages, p.1 ∉ t.skb.usedPages) ∧
      t = { s with
        canvas := t.canvas, ledger := t.ledger, log := t.log, skb := t.skb, nv := { s.nv with prog := t.nv.prog } }) ∧
    (∀ n, s.nv.prog = .trimDone k n :: rest → reaches (.trimDoneUpdate k) s fun t =>
      t.skb.recs = kput k { r with trimDone := n } s.skb.recs ∧
      (∀ x ∈ liveRecs t, retirable x.2 t = true → wordAsked x.1 t = true) ∧
      t = { s with skb := { s.skb with recs := t.skb.recs }, nv := { s.nv with prog := t.nv.prog } })) ∧
  (∀ (s : State) (k : Nat),
    (s.nv.prog.head? ≠ some (.retire k) → reaches (.retirement k) s fun t => t = s) ∧
    ((∀ n, s.nv.prog.head? ≠ some (.trimDone k n)) → reaches (.trimDoneUpdate k) s fun t => t = s))

/-- FLUSH_ALL with SKB_CTRL in range starts a flush of every stripe of an assembled array that an unretired WRITE record
has work in. FLUSH_AGE_EXPIRY starts those of a stripe's one record that is FLUSH_AGE old, changes nothing for a younger
one, and under forced flushing applies the oldest TRIM first. TRIM_STRIPE_APPLY of an unfinished TRIM record starts the
flush of its next stripe with that TRIM, TILE_MEND that of the next tile to be mended. FLUSH_STEP without its lock asks for
the stripe's exclusive SYSTEM lock; once its last member writes have responded it ends: its lock is released, and every
record that it carried counts as written in that stripe. No step retires a record. (15_write_path_sketchbook.md,
12_overlap_and_queue_errors.md) -/
def Obligations.FlushesStartAndEnd : Prop :=
  (∀ (s : State), unitsRun s = true →
    (skbCtrlOk (skbCtrlWord s) = true → reaches .flushAll s fun t =>
      (∀ x ∈ liveRecs s, x.2.kind = .write → (arrGet x.2.array s).state.assembled = true →
        ∀ n, n ∈ x.2.stripesIn (arrGet x.2.array s) false → flushing x.2.array false n t = true) ∧
      t.skb.recs = s.skb.recs ∧ t = { s with skb := t.skb, log := t.log }) ∧
    (∀ a stripe k r, (liveRecs s).filter (fun x => x.2.kind == .write && x.2.array == a && x.2.stripe == stripe) = [(k, r)] →
      (s.skb.flushAge * 1000 ≤ (s.clk.tick.truncate 32 - r.sealTick : Word).toNat →
        (s.skb.forced = false → (arrGet a s).state.assembled = true → reaches (.flushAgeExpiry a stripe) s fun t =>
          (∀ n, n ∈ r.stripesIn (arrGet a s) false → flushing a false n t = true) ∧ t.skb.recs = s.skb.recs ∧
          t = { s with skb := t.skb }) ∧
        (∀ i q, s.skb.forced = true →
          oldestRec ((liveRecs s).filter fun x => (arrGet x.2.array s).state.assembled && x.2.trimLeft) = some (i, q) →
          reaches (.flushAgeExpiry a stripe) s fun t => t = trimApply i s)) ∧
      ((s.clk.tick.truncate 32 - r.sealTick : Word).toNat < s.skb.flushAge * 1000 →
        reaches (.flushAgeExpiry a stripe) s fun t => t = s)) ∧
    (∀ k r, kget k s.skb.recs = some r → r.trimLeft = true →
      (arrGet r.array s).state.assembled = true → flushing r.array (trimNext r s).1 (trimNext r s).2 s = false →
      reaches (.trimStripeApply k) s fun t =>
        t = { s with skb := { s.skb with
          nextFlush := s.skb.nextFlush + 1
          flushes := s.skb.flushes ++ [{
            id := s.skb.nextFlush, array := r.array, newRegion := (trimNext r s).1, stripe := (trimNext r s).2,
            trim := some k, replay := (arrGet r.array s).state == .replaying }] } }) ∧
    (∀ c row rest, s.skb.mends = (c, row) :: rest → (arrGet c.array s).state.assembled = true →
      reaches .tileMend s fun t =>
        t = { s with skb := { s.skb with
          mends := rest, nextFlush := s.skb.nextFlush + 1
          flushes := s.skb.flushes ++ [{
            id := s.skb.nextFlush, array := c.array, newRegion := c.newRegion, stripe := c.stripe,
            mend := some (row, c.pos) }] } })) ∧
  (∀ (s : State) (f : Flush), unitsRun s = true → s.skb.flushes.find? (fun g => g.id == f.id) = some f →
    (arrGet f.array s).state.assembled = true → f.replay = false → f.nolock = false →
    (holds (.flush f.id) .flush s = false → waits (.flush f.id) .flush s = false → reaches (.flushStep f.id) s fun t =>
      (∃ l ∈ t.queues.line, l.work = .flush f.id ∧ l.excl = true ∧ l.studio = none ∧ l.array = f.array ∧
        l.start = f.stripe * ((arrGet f.array s).shapeAt f.newRegion).stripeSectors ∧
        l.count = ((arrGet f.array s).shapeAt f.newRegion).stripeSectors) ∧
      t = { s with queues := t.queues, nv := { s.nv with prog := t.nv.prog } }) ∧
    (holds (.flush f.id) .flush s = true → f.issued = true → f.trim = none → f.mend = none →
      opsOut (.flush f.id) s = false → rowsLeft { f with doneRows := f.doneRows ++ f.rows } s = [] →
      reaches (.flushStep f.id) s fun t =>
        (∀ g ∈ t.skb.flushes, g.id ≠ f.id) ∧ holds (.flush f.id) .flush t = false ∧
        (∀ x ∈ t.skb.recs, x.2.kind ≠ .parity → x.2.array = f.array → x.2.retired = false →
          x.2.cseq ∈ f.carries.getD [] → f.stripe ∈ x.2.doneIn f.newRegion) ∧
        t.skb.recs.map (fun x => (x.1, x.2.retired)) = s.skb.recs.map (fun x => (x.1, x.2.retired)) ∧
        t.skb.pages = s.skb.pages ∧
        t = { s with
          canvas := t.canvas, ledger := t.ledger, queues := t.queues, skb := t.skb, nv := { s.nv with prog := t.nv.prog } }))

/-- A step of a pass that may run first asks for the stripe's exclusive SYSTEM lock of its kind; holding it, and with
records in the stripe that are not yet written, it starts their flush under that lock; once the member write of its chunk
has responded the lock is released and the mark advances by one stripe. BACKGROUND_CHECKPOINT requests an NV commit of the
mark, and its NV_COMMIT_DONE makes that mark the checkpoint. RESTORATION_FINISH, COPY_BACK_FINISH and INSPECTION_FINISH of
a pass that is done each request one NV commit, once, and change no array; its NV_COMMIT_DONE ends the pass: a restoration
onto a target with no repaint leaves its role present and one into distributed spares applies its rank, with a note; a
copy-back frees the highest rank; an inspection ends with a note. (16_retouch_restoration.md, 05_resets_and_restart.md) -/
def Obligations.BackgroundPasses : Prop :=
  ∀ (s : State) (a : Fin 4), unitsRun s = true → s.restart.nvcfgLost = false →
    (∀ c k kind new n, (c, k, kind) ∈ [(Instr.restorationStep a, (1 : BitVec 4), LockKind.restoration),
        (.copyBackStep a, 2, .copyBack), (.inspectionStep a, 3, .inspection)] → stepMay a k s = true →
      (if k = 1 then walkAt (arrGet a s).walk (arrGet a s).mark = some (new, n) ∧ (arrGet a s).restoring.isSome = true
        else new = false ∧ n = (arrGet a s).mark ∧ n < (arrGet a s).shape.stripes (arrGet a s).rows) →
      (holds (.background a) kind s = false → waits (.background a) kind s = false → reaches c s fun t =>
        (∃ l ∈ t.queues.line, l.work = .background a ∧ l.kind = kind ∧ l.excl = true ∧ l.studio = none ∧ l.array = a ∧
          l.start = n * ((arrGet a s).shapeAt new).stripeSectors ∧ l.count = ((arrGet a s).shapeAt new).stripeSectors) ∧
        t = { s with queues := t.queues }) ∧
      (holds (.background a) kind s = true → (arrGet a s).bgIssued = false → stripeBusy a new n s = true →
        ownFlush a new n s = false → reaches c s fun t =>
          t = { s with skb := { s.skb with
            nextFlush := s.skb.nextFlush + 1
            flushes := s.skb.flushes ++ [{
              id := s.skb.nextFlush, array := a, newRegion := new, stripe := n, nolock := true }] } })) ∧
    (stepMay a 1 s = true → holds (.background a) .restoration s = true → (arrGet a s).bgIssued = true →
      opsOut (.background a) s = false → (walkAt (arrGet a s).walk (arrGet a s).mark).isSome = true →
      (arrGet a s).restoring.isSome = true → reaches (.restorationStep a) s fun t =>
        (arrGet a t).mark = (arrGet a s).mark + 1 ∧ (arrGet a t).bgIssued = false ∧
        holds (.background a) .restoration t = false ∧ (arrGet a t).roles = (arrGet a s).roles ∧
        t = { s with arrs := t.arrs, canvas := t.canvas, ledger := t.ledger, queues := t.queues, skb := t.skb }) ∧
    ((arrGet a s).state.assembled = true → (arrGet a s).bgKind = 1 ∨ (arrGet a s).bgKind = 2 ∨ (arrGet a s).bgKind = 3 →
      (reaches (.backgroundCheckpoint a) s fun t =>
        t.nv.commits = s.nv.commits ++ [.mark a (arrGet a s).mark] ∧ t = { s with ident := t.ident, nv := t.nv }) ∧
      (∀ m rest ops, s.nv.commits = .mark a m :: rest → s.nv.prog = .nv :: ops → m ≤ (arrGet a s).mark →
        reaches (.nvCommitDone true) s fun t =>
          (arrGet a t).bgStripe = m ∧ (arrGet a t).mark = (arrGet a s).mark)) ∧
    (s.nv.commits.contains (.finish a) = false → ∀ c k, (c, k) ∈ [(Instr.restorationFinish a, (1 : BitVec 4)),
        (.copyBackFinish a, 2), (.inspectionFinish a, 3)] → passDone a k s = true → reaches c s fun t =>
      t.nv.commits = s.nv.commits ++ [.finish a] ∧ t = { s with ident := t.ident, nv := t.nv }) ∧
    (∀ rest ops, s.nv.commits = .finish a :: rest → s.nv.prog = .nv :: ops →
      (∀ i r, passDone a 1 s = true → (arrGet a s).rankBusy = false → (arrGet a s).restoring = some i →
        (arrGet a s).roles[i]? = some r → (arrGet a s).repaint.sub = .none → reaches (.nvCommitDone true) s fun t =>
          (arrGet a t).roles = (arrGet a s).roles.set i { r with state := .present } ∧ (arrGet a t).bgKind = 0 ∧
          (arrGet a t).mark = 0 ∧ counterGet 0x43 t = ctrInc (counterGet 0x43 s)) ∧
      (passDone a 1 s = true → (arrGet a s).rankBusy = true → (arrGet a s).repaint.sub = .none →
        reaches (.nvCommitDone true) s fun t =>
          (arrGet a t).rankBusy = false ∧ (arrGet a t).sparesUsed = (arrGet a s).sparesUsed ∧ (arrGet a t).bgKind = 0 ∧
          (arrGet a t).roles = (arrGet a s).roles ∧ counterGet 0x43 t = ctrInc (counterGet 0x43 s)) ∧
      (passDone a 2 s = true → reaches (.nvCommitDone true) s fun t =>
        (arrGet a t).sparesUsed = (arrGet a s).sparesUsed - 1 ∧ (arrGet a t).bgKind = 0 ∧ (arrGet a t).mark = 0) ∧
      (passDone a 3 s = true → reaches (.nvCommitDone true) s fun t =>
        (arrGet a t).bgKind = 0 ∧ (arrGet a t).found = 0 ∧ (arrGet a t).roles = (arrGet a s).roles ∧
        counterGet 0x44 t = ctrInc (counterGet 0x44 s)))

/-- REPAINT_COPY_STEP and RETURN_STEP first ask for the stripe's exclusive lock in the region they write; after the writes
of a stripe's last rows have responded the front stands past the stripe, the lock is released, and every unretired WRITE
and TRIM record with sectors there counts as written in it. WATERMARK_COMMIT, CUTOVER at the copy limit and RETURN_END at
the watermark each request one NV commit and change no array; its NV_COMMIT_DONE makes the committed front the watermark,
or on the way back the return mark; makes the new shape, origin, rows and capacity the array's own in the next generation
with a note; and, with no joining members, leaves the array without a repaint, its own shape unchanged.
(17_repaint.md, 05_resets_and_restart.md) -/
def Obligations.RepaintsMoveTheArray : Prop :=
  ∀ (s : State) (a : Fin 4), s.restart.nvcfgLost = false →
    (∀ c back new n, (c, back, new) ∈ [(Instr.repaintCopyStep a, false, true), (.returnStep a, true, false)] →
      copyMay a back s = true →
      n = (arrGet a s).repaint.front / ((arrGet a s).shapeAt new).stripeSectors →
      (if back then (arrGet a s).repaint.front < (arrGet a s).repaint.wmark ∧
          (arrGet a s).repaint.front - (arrGet a s).repaint.rmark < 64 * (arrGet a s).shape.stripeSectors
        else (arrGet a s).repaint.front < (arrGet a s).repaint.k ∧
          (arrGet a s).repaint.front - (arrGet a s).repaint.wmark < 64 * (arrGet a s).repaint.shape.stripeSectors) →
      (holds (.background a) .repaint s = false → waits (.background a) .repaint s = false → reaches c s fun t =>
        (∃ l ∈ t.queues.line, l.work = .background a ∧ l.kind = .repaint ∧ l.excl = true ∧ l.array = a ∧
          l.start = n * ((arrGet a s).shapeAt new).stripeSectors) ∧ t = { s with queues := t.queues }) ∧
      (holds (.background a) .repaint s = true → (arrGet a s).bgIssued = true → opsOut (.background a) s = false →
        ((arrGet a s).shapeAt new).tiles ≤ (arrGet a s).bgRow + 16 → (arrGet a s).repaint.sub = .active →
        reaches c s fun t =>
          (arrGet a t).repaint = { (arrGet a s).repaint with
            front := (n + 1) * ((arrGet a s).shapeAt new).stripeSectors } ∧
          holds (.background a) .repaint t = false ∧ (arrGet a t).shape = (arrGet a s).shape ∧
          (∀ x ∈ t.skb.recs, x.2.kind ≠ .parity → x.2.array = a → x.2.retired = false →
            n * ((arrGet a s).shapeAt new).stripeSectors < x.2.start + x.2.count →
            x.2.start < (n + 1) * ((arrGet a s).shapeAt new).stripeSectors → n ∈ x.2.doneIn new) ∧
          t = { s with arrs := t.arrs, canvas := t.canvas, ledger := t.ledger, queues := t.queues, skb := t.skb })) ∧
    (unitsRun s = true → (arrGet a s).state.assembled = true → (arrGet a s).repaint.sub = .active →
      (arrGet a s).bgKind = 4 → (∀ f ∈ s.skb.flushes, passedFlush a s f = true → f.issued = false) → frontDue a s = none →
      reaches (.watermarkCommit a) s fun t =>
        t.nv.commits = s.nv.commits ++ [.front a (arrGet a s).repaint.front] ∧ t = { s with ident := t.ident, nv := t.nv }) ∧
    (endMay a false s = true → (arrGet a s).repaint.k ≤ (arrGet a s).repaint.front → reaches (.cutover a) s fun t =>
      t.nv.commits = s.nv.commits ++ [.cutover a] ∧ t = { s with ident := t.ident, nv := t.nv }) ∧
    (endMay a true s = true → (arrGet a s).repaint.wmark ≤ (arrGet a s).repaint.front → reaches (.returnEnd a) s fun t =>
      t.nv.commits = s.nv.commits ++ [.back a] ∧ t = { s with ident := t.ident, nv := t.nv }) ∧
    (∀ rest ops, unitsRun s = true → s.nv.prog = .nv :: ops → (arrGet a s).advDue = false →
      (∀ m, s.nv.commits = .front a m :: rest → reaches (.nvCommitDone true) s fun t =>
        ((arrGet a s).repaint.back = false → (arrGet a t).repaint.wmark = m) ∧
        ((arrGet a s).repaint.back = true → (arrGet a t).repaint.rmark = m)) ∧
      (s.nv.commits = .cutover a :: rest → reaches (.nvCommitDone true) s fun t =>
        (arrGet a t).shape = (arrGet a s).repaint.shape ∧ (arrGet a t).rows = (arrGet a s).repaint.rows ∧
        (arrGet a t).origin = (arrGet a s).repaint.origin ∧
        (arrGet a t).cap = (arrGet a s).repaint.shape.capacity (arrGet a s).repaint.rows ∧
        (arrGet a t).repaint = {} ∧ (arrGet a t).generation = (arrGet a s).generation + 1 ∧ (arrGet a t).bgKind = 0 ∧
        counterGet 0x46 t = ctrInc (counterGet 0x46 s)) ∧
      (s.nv.commits = .back a :: rest → (arrGet a s).roles.length ≤ (arrGet a s).shape.n →
        reaches (.nvCommitDone true) s fun t =>
          (arrGet a t).repaint = {} ∧ (arrGet a t).shape = (arrGet a s).shape ∧
          (arrGet a t).generation = (arrGet a s).generation ∧ (arrGet a t).bgKind = 0 ∧
          counterGet 0x45 t = ctrInc (counterGet 0x45 s)))

/-- ASSEMBLY of a STOPPED array that can be assembled and lacks no card: its roles take the indices at which their cards
were found and it is REPLAYING; an array with two or more roles lacking, or with the OFFLINE mark or a stop command on
it, stays STOPPED at LEVEL1 and above. REPLAY_STRIPE of a REPLAYING array starts the flushes of its oldest record that
waits, where that is a WRITE with work in the stripe, and nothing for another stripe; with no unretired record and no
flush left, the array settles as OPTIMAL, DEGRADED or RESTORING and its volumes are ONLINE. (14_layouts.md,
05_resets_and_restart.md, 15_write_path_sketchbook.md, 22_state_catalogue.md) -/
def Obligations.ArraysAssembleAndReplay : Prop :=
  ∀ (s : State) (a : Fin 4),
    (assemblyRuns s = true → assemblable a s = true →
      (∀ r ∈ rolesNow a s, r.state ≠ .missing) → reaches (.assembly a) s fun t =>
        arrGet a t = { arrGet a s with roles := rolesNow a s, state := .replaying } ∧
        (∀ b, b ≠ a → arrGet b t = arrGet b s) ∧ t.members = s.members ∧ t.skb.recs = s.skb.recs) ∧
    (assemblyRuns s = true → atLevel1 s = true → (arrGet a s).state = .stopped → assemblable a s = false →
      reaches (.assembly a) s fun t => t = s) ∧
    (∀ stripe, unitsRun s = true → (arrGet a s).state = .replaying →
      ((∀ x ∈ liveRecs s, x.2.array ≠ a) → (∀ f ∈ s.skb.flushes, f.array ≠ a) → (arrGet a s).lossDue = none →
        reaches (.replayStripe a stripe) s fun t =>
          (arrGet a t).state = (arrGet a s).settled ∧
          (∀ v, (volGet v s).array = a → (volGet v s).state ≠ .gone → (arrGet a s).stopping = false →
            (volGet v t).state = .online) ∧ (arrGet a t).roles = (arrGet a s).roles ∧ t.skb.recs = s.skb.recs) ∧
      (∀ k r, replayNext a s = some (k, r) → r.kind = .write →
        (stripe ∈ r.stripesIn (arrGet a s) false → reaches (.replayStripe a stripe) s fun t =>
          (∀ n, n ∈ r.stripesIn (arrGet a s) false → flushing a false n t = true) ∧ (arrGet a t).state = .replaying ∧
          t = { s with skb := t.skb }) ∧
        (stripe ∉ r.stripesIn (arrGet a s) false → stripe ∉ r.stripesIn (arrGet a s) true →
          reaches (.replayStripe a stripe) s fun t => t = s))) ∧
    (∀ stripe, (arrGet a s).state ≠ .replaying → reaches (.replayStripe a stripe) s fun t => t = s)

/-- On a path with the cursor on the last word of an entry and a commit that passes its checks, RESULT is OK with the next
CSEQ, and: a submission queue that was DISABLED and is now enabled is RUNNING with its pointers at 0, a completion
queue newly enabled runs with its pointers at 0 and phase 1; a DISABLED channel newly enabled is IDLE at START_IDX
with phase 1; LAYER_START of an AU2 layer makes it PRIMING with the committed words, of a STREAM layer that admission
refuses leaves it IDLE with the reason; LAYER_STOP and LAYER_COMMIT change the layer's words alone until the next
boundary; BUS_COMMIT takes the bus's words; AUPORT_COMMIT the port's words alone. (07_control_registers.md,
10_dma_engine.md, 11_queues_and_commands.md, 21_palette.md) -/
def Obligations.VolatileCommits : Prop :=
  ∀ (s : State) (p : Path) (w : Word) (e : Nat), commitPasses p w s →
    (readyToCommit p 0x05 e s → reaches (.queueCommit p w) s fun t =>
      committed p s t ∧ t = { s with pathC := t.pathC, pathM := t.pathM, dma := t.dma, ledger := t.ledger, queues := t.queues } ∧
      (∀ q : Fin 32, e = q.val → (sqGet q s).en = false → (sqGet q s).state = .disabled →
        bit (wordAt (stagedWith p w s) 0) 31 = true →
        (sqGet q t).en = true ∧ (sqGet q t).state = .running ∧ (sqGet q t).head = 0 ∧ (sqGet q t).fetch = 0 ∧
        (sqGet q t).tail = 0 ∧ (sqGet q t).base = BitVec.ofNat 24 (bits (wordAt (stagedWith p w s) 1) 23 0) ∧
        (∀ k, k ≠ q → sqGet k t = sqGet k s)) ∧
      (∀ q : Fin 32, e = 32 + q.val → (cqGet q s).en = false → bit (wordAt (stagedWith p w s) 0) 31 = true →
        (cqGet q t).run = true ∧ (cqGet q t).head = 0 ∧ (cqGet q t).tail = 0 ∧ (cqGet q t).phase = true ∧
        (∀ k, k ≠ q → cqGet k t = cqGet k s))) ∧
    (∀ c : Fin 16, readyToCommit p 0x06 e s → e = c.val → (chanGet c s).state = .disabled →
      bit (wordAt (stagedWith p w s) 0) 31 = true → reaches (.dmaChanCommit p w) s fun t =>
        committed p s t ∧ (chanGet c t).state = .idle ∧ (chanGet c t).en = true ∧
        (chanGet c t).nextIdx = (chanGet c t).startIdx ∧ (chanGet c t).phase = true ∧
        (∀ d, d ≠ c → chanGet d t = chanGet d s) ∧ t = { s with pathC := t.pathC, pathM := t.pathM, dma := t.dma }) ∧
    (∀ i : Fin 32, readyToCommit p 0x09 e s → e = i.val →
      bit (wordAt (stagedWith p w s) 0) 31 = bit (wordAt (pathGet p s).cur.staged 0) 31 →
      (bit (wordAt (stagedWith p w s) 0) 31 = true → (layGet i s).state.busy = false →
        (lKind (stagedVec 8 (stagedWith p w s)) = 2 → reaches (.layerStart p w) s fun t =>
          committed p s t ∧ (layGet i t).state = .priming ∧ (layGet i t).cfg = stagedVec 8 (stagedWith p w s) ∧
          (∀ k, k ≠ i → layGet k t = layGet k s) ∧ t = { s with pathC := t.pathC, pathM := t.pathM, palette := t.palette }) ∧
        (∀ code, lKind (stagedVec 8 (stagedWith p w s)) = 0 →
          admitTerms (lVolume (stagedVec 8 (stagedWith p w s))) (layerRate (stagedVec 8 (stagedWith p w s)))
            (lPrefetch (stagedVec 8 (stagedWith p w s))) s = .inl code → reaches (.layerStart p w) s fun t =>
          committed p s t ∧ (layGet i t).state = .idle ∧ (layGet i t).reason = BitVec.ofNat 8 code ∧ t.palette.evt = true ∧
          counterGet 0x48 t = ctrInc (counterGet 0x48 s) ∧ t.referee = s.referee ∧ t.canvas = s.canvas)) ∧
      (bit (wordAt (stagedWith p w s) 0) 31 = false → (layGet i s).state.busy = true → reaches (.layerStop p w) s fun t =>
        committed p s t ∧ layGet i t = { layGet i s with cfg := stagedVec 8 (stagedWith p w s) } ∧
        (∀ k, k ≠ i → layGet k t = layGet k s) ∧ t = { s with pathC := t.pathC, pathM := t.pathM, palette := t.palette }) ∧
      (bit (wordAt (stagedWith p w s) 0) 31 = (layGet i s).state.busy → reaches (.layerCommit p w) s fun t =>
        committed p s t ∧ layGet i t = { layGet i s with cfg := stagedVec 8 (stagedWith p w s) } ∧
        (∀ k, k ≠ i → layGet k t = layGet k s) ∧ t = { s with pathC := t.pathC, pathM := t.pathM, palette := t.palette })) ∧
    (∀ b : Fin 8, readyToCommit p 0x0A e s → e = b.val → reaches (.busCommit p w) s fun t =>
      committed p s t ∧ (busGet b t).cfg = stagedVec 28 (stagedWith p w s) ∧ (busGet b t).act = (busGet b s).act ∧
      (∀ k, k ≠ b → busGet k t = busGet k s) ∧ t.palette.layers = s.palette.layers ∧ t.palette.ports = s.palette.ports) ∧
    (∀ k : Fin 3, readyToCommit p 0x0B e s → e = k.val → reaches (.auportCommit p w) s fun t =>
      committed p s t ∧ (auGet k t).w0 = wordAt (stagedWith p w s) 0 &&& 0xFFFF8000#32 ∧
      (auGet k t).act0 = (auGet k s).act0 ∧ (auGet k t).state = (auGet k s).state ∧ (∀ j, j ≠ k → auGet j t = auGet j s) ∧
      t = { s with pathC := t.pathC, pathM := t.pathM, palette := t.palette })

/-- PALETTE_ENABLE and PALETTE_DISABLE set EN and MCLK_EN alone; PORT_WAKE marks a sleeping port and no other.
FRAME_BOUNDARY with EN in a running Palette: FRAME counts, from 0 at the first boundary, EN and MCLK_EN are in effect,
an enabled OFF port is RESUMING with MUTE asserted and a port that is not enabled is OFF; with EN cleared the frame
clock has stopped, every layer that did not rest is STOPPED with PALETTE_OFF and every port OFF. STREAM_TILE_ARRIVED
of a tile all of whose sectors the journal (with no bad page that counts) and canvas memory hold fills it whole.
HOST_REFILL_DONE advances RD by the bytes refilled and writes RD to the mailbox, and no other byte there.
(21_palette.md) -/
def Obligations.PaletteFrames : Prop :=
  (∀ (s : State) (mclk : Bool), unitsRun s = true →
    (reaches (.paletteEnable mclk) s fun t => t = { s with palette := { s.palette with en := true, mclkEn := mclk } }) ∧
    (reaches (.paletteDisable mclk) s fun t => t = { s with palette := { s.palette with en := false, mclkEn := mclk } }) ∧
    (∀ p : Fin 3, (auGet p s).state = .sleep → reaches (.portWake p) s fun t => t = auPut p { auGet p s with wake := true } s) ∧
    (∀ p : Fin 3, (auGet p s).state ≠ .sleep → reaches (.portWake p) s fun t => t = s)) ∧
  (∀ (s : State) (au2 : Vector (Vector Word 8) 32), paletteRuns s = true →
    (s.palette.en = true → reaches (.frameBoundary au2) s fun t =>
      t.palette.frame = (if s.palette.booted then s.palette.frame + 1 else 0) ∧ t.palette.enAct = true ∧
      t.palette.booted = true ∧ t.palette.mclkAct = s.palette.mclkEn ∧ t.palette.en = true ∧
      (∀ p : Fin 3, aEn (auGet p s).w0 = true → (auGet p s).state = .off →
        (auGet p t).state = .resuming ∧ (auGet p t).muted = true ∧ (auGet p t).left = resumeFrames (auGet p s).w1) ∧
      (∀ p : Fin 3, aEn (auGet p s).w0 = false → (auGet p t).state = .off ∧ (auGet p t).muted = true)) ∧
    (s.palette.en = false → s.palette.enAct = true → reaches (.frameBoundary au2) s fun t =>
      t.palette.enAct = false ∧ t.palette.booted = false ∧ (∀ p : Fin 3, (auGet p t).state = .off) ∧
      (∀ i, (layGet i s).rests = false → (layGet i t).state = .stopped ∧ (layGet i t).cause = .paletteOff) ∧
      (∀ i, (layGet i s).rests = true → layGet i t = layGet i s))) ∧
  (∀ (s : State) (i : Fin 32), unitsRun s = true →
    ((layGet i s).rests = true → ∀ n, reaches (.streamTileArrived i n) s fun t => t = s) ∧
    (∀ n x lba, (layGet i s).rests = false → lKind (layGet i s).act = 0 → (layGet i s).listRead = true →
      (layGet i s).tiles.find? (fun y => y.n == n && y.held == 0) = some x →
      (layGet i s).tileLba (n - (layGet i s).first) = some lba →
      badCovers (tileCover ((layGet i s).arrayTile lba s).1 ((layGet i s).arrayTile lba s).2 s)
        (0xFF &&& ~~~ (cached ((layGet i s).arrayTile lba s).1 ((layGet i s).arrayTile lba s).2 s).1) = [] →
      coverMask (tileCover ((layGet i s).arrayTile lba s).1 ((layGet i s).arrayTile lba s).2 s) |||
        (cached ((layGet i s).arrayTile lba s).1 ((layGet i s).arrayTile lba s).2 s).1 = 0xFF →
      reaches (.streamTileArrived i n) s fun t =>
        (∃ y ∈ (layGet i t).tiles, y.n = n ∧ y.held = 4096) ∧ (layGet i t).state = (layGet i s).state) ∧
    (∀ len, (layGet i s).refill = some len → refilling i s = false →
      reaches (.hostRefillDone i) s fun t =>
        (layGet i t).rd = ((layGet i s).rd + len) % lRingBytes (layGet i s).act ∧
        t.hbu.mailbox = memWriteList s.hbu.mailbox (lSel (layGet i s).act + 4)
          (leBytes 4 (((layGet i s).rd + len) % lRingBytes (layGet i s).act)) ∧ t.hbu.ringSram = s.hbu.ringSram) ∧
    ((layGet i s).refill = none → reaches (.hostRefillDone i) s fun t => t = s))

/-- A DARK port that may train does so at LINK_TRAINING_START, FORWARDED_CLOCK_SEEN and RING_PORT_ENABLE;
TRAINING_COMPLETE makes it UP, expecting LSEQ 0, with no episodes, its data credits all FREE on a manager that starts
no roll call; TRAINING_TIMEOUT makes it DARK, LINK_BREAK BROKEN, BROKEN_HOLD_EXPIRY DARK, and RING_PORT_DISABLE takes a
link that trains or is UP to DARK; what the port held is discarded at a timeout and a break. In any other state a
training, break or hold event changes nothing, and the other port keeps its link throughout. (20_ferek_ring.md) -/
def Obligations.LinksTrainAndBreak : Prop :=
  ∀ (s : State) (fb : Bool), unitsUp s = true →
    (∀ c ∈ [Instr.linkTrainingStart fb, .forwardedClockSeen fb], reaches c s fun t =>
      t = { s with ring := t.ring, log := t.log } ∧ rport (!fb) t = rport (!fb) s ∧
      rport fb t = { rport fb s with
        link := if (rport fb s).link = .dark ∧ linkMay fb s = true then .training else (rport fb s).link }) ∧
    (reaches (.ringPortEnable fb) s fun t =>
      t = { s with ring := t.ring, log := t.log } ∧ rport (!fb) t = rport (!fb) s ∧ (rport fb t).en = true ∧
      (rport fb t).link = (if (rport fb s).link = .dark ∧ linkMay fb t = true then .training else (rport fb s).link)) ∧
    (reaches (.ringPortDisable fb) s fun t =>
      t = { s with ring := t.ring, log := t.log, ledger := t.ledger } ∧ (rport fb t).en = false ∧
      (rport (!fb) t).link = (rport (!fb) s).link ∧
      (rport fb t).link = (if (rport fb s).link = .up ∨ (rport fb s).link = .training then .dark else (rport fb s).link)) ∧
    ((rport fb s).link = .training →
      (reaches (.trainingComplete fb) s fun t =>
        t = { s with ring := t.ring, log := t.log, ledger := t.ledger } ∧ (rport fb t).link = .up ∧
        (rport fb t).rxSeq = 0 ∧ (rport fb t).episodes = 0 ∧ (rport (!fb) t).link = (rport (!fb) s).link ∧
        (isManager s = true → rollsRun s = false → (rport fb t).replay = [] ∧
          ∀ ch, (poolGet (pRing fb ch) t).free = (poolGet (pRing fb ch) s).free + (poolGet (pRing fb ch) s).system) ∧
        (rollsRun s = true → s.ring.roll = none → t.ring.rollSeq = s.ring.rollSeq + 1)) ∧
      (reaches (.trainingTimeout fb) s fun t =>
        t = { s with ring := t.ring, log := t.log, ledger := t.ledger } ∧ (rport fb t).link = .dark ∧
        (rport fb t).out = [] ∧ (rport fb t).replay = [] ∧ (rport (!fb) t).link = (rport (!fb) s).link)) ∧
    ((rport fb s).link ≠ .training → ∀ c ∈ [Instr.trainingComplete fb, .trainingTimeout fb], reaches c s fun t => t = s) ∧
    ((rport fb s).link = .up → reaches (.linkBreak fb) s fun t =>
      t = { s with ring := t.ring, log := t.log, ledger := t.ledger } ∧ (rport fb t).link = .broken ∧
      (rport fb t).out = [] ∧ (rport fb t).replay = [] ∧ (rport (!fb) t).link = (rport (!fb) s).link ∧
      (rollsRun s = true → s.ring.roll.isSome = true → t.ring.rollAgain = true)) ∧
    ((rport fb s).link ≠ .up → reaches (.linkBreak fb) s fun t => t = s) ∧
    ((rport fb s).link = .broken → reaches (.brokenHoldExpiry fb) s fun t =>
      t = { s with ring := t.ring, log := t.log, ledger := t.ledger } ∧ (rport fb t).link = .dark ∧
      (rport (!fb) t).link = (rport (!fb) s).link) ∧
    ((rport fb s).link ≠ .broken → reaches (.brokenHoldExpiry fb) s fun t => t = s)

/-- On an UP port: a LINK flit frees the acknowledged packets, resets the episodes and returns credits; with NAK and
packets unacknowledged it is one more episode, and so is RESEND_TIMEOUT, whose eighth in a row breaks the link. The
LINK timer sends the waiting credits and the acknowledgement. The first receive error sends a NAK and discards from
there on; a bad CRC is counted. A packet that this worker does not consume goes out of the other UP port, or is
discarded and counted where that is not UP; out of order it is not accepted, and with a wrong LEN it is counted.
(20_ferek_ring.md) -/
def Obligations.PacketsAreAcknowledgedResentAndForwarded : Prop :=
  ∀ (s : State) (fb : Bool), unitsUp s = true → (rport fb s).link = .up →
    (∀ (w : Dword) (i : Nat), (rport fb s).out = [] → w.getLsbD 30 = true → w.getLsbD 23 = false →
      (rport fb s).replay.findIdx? (fun x => x.p.lseq == w.extractLsb' 24 6) = some i →
      reaches (.linkFlit fb w) s fun t => t = { s with ring := t.ring, log := t.log, ledger := t.ledger } ∧
        (rport fb t).replay = (rport fb s).replay.drop (i + 1) ∧ (rport fb t).episodes = 0 ∧ (rport fb t).link = .up ∧
        (rport fb t).hcred.get 0 = min 4 ((rport fb s).hcred.get 0 + (w.extractLsb' 37 3).toNat) ∧
        (poolGet (pRing fb 0) t).free =
          (poolGet (pRing fb 0) s).free + min (w.extractLsb' 56 8).toNat (poolGet (pRing fb 0) s).system) ∧
    (∀ w : Dword, (rport fb s).out = [] → w.getLsbD 30 = false → w.getLsbD 23 = true → (rport fb s).replay ≠ [] →
      (rport fb s).episodes < 7 → reaches (.linkFlit fb w) s fun t =>
        (rport fb t).episodes = (rport fb s).episodes + 1 ∧ (rport fb t).resends = ctrInc (rport fb s).resends ∧
        (rport fb t).replay = (rport fb s).replay ∧ (rport fb t).link = .up) ∧
    (reaches (.linkFlitTimer fb) s fun t => t = { s with ring := t.ring } ∧ rport (!fb) t = rport (!fb) s ∧
      rport fb t = { rport fb s with
        linkOut := some (linkPayload (rport fb s)), retData := Vector.replicate 3 0, retHead := Vector.replicate 3 0,
        nak := false }) ∧
    (∀ crc, reaches (.packetReceiveError fb crc) s fun t => t = { s with ring := t.ring, log := t.log } ∧
      (rport fb t).discarding = true ∧ rport (!fb) t = rport (!fb) s ∧
      ((rport fb s).discarding = true → rport fb t = rport fb s) ∧
      ((rport fb s).discarding = false → (rport fb t).linkOut = some (linkPayload { rport fb s with nak := true })) ∧
      counterGet 0x83 t = if crc then ctrInc (counterGet 0x83 s) else counterGet 0x83 s) ∧
    ((rport fb s).replay = [] → reaches (.resendTimeout fb) s fun t => t = s) ∧
    ((rport fb s).replay ≠ [] → reaches (.resendTimeout fb) s fun t =>
      ((rport fb s).episodes < 7 → t = rportPut fb { rport fb s with
        episodes := (rport fb s).episodes + 1, resends := ctrInc (rport fb s).resends } s) ∧
      (7 ≤ (rport fb s).episodes → (rport fb t).link = .broken ∧ (rport fb t).replay = [])) ∧
    (∀ (kind : Byte) (p : Pkt), consumes p s = false →
      (inOrder fb kind p s → reaches (.packetForward fb kind p) s fun t =>
        t = { s with ring := t.ring, log := t.log, ledger := t.ledger } ∧
        (rport fb t).rxSeq = (rport fb s).rxSeq + 1 ∧
        ((rport (!fb) s).link = .up → sentOn (!fb) kind (fun x => x.flits = p.flits ∧ x.src = p.src ∧ x.tag = p.tag ∧
          x.dst = if p.path then p.dst - 1 else p.dst) t) ∧
        ((rport (!fb) s).link ≠ .up → counterGet 0x82 t = ctrInc (counterGet 0x82 s) ∧ rport (!fb) t = rport (!fb) s)) ∧
      (p.lseq ≠ (rport fb s).rxSeq → reaches (.packetForward fb kind p) s fun t =>
        (rport fb t).rxSeq = (rport fb s).rxSeq ∧ (rport fb t).discarding = true ∧ rport (!fb) t = rport (!fb) s) ∧
      (p.lseq = (rport fb s).rxSeq → lenOk kind p.flits.length = false → reaches (.packetForward fb kind p) s fun t =>
        counterGet 0x81 t = ctrInc (counterGet 0x81 s) ∧ (rport fb t).rxSeq = (rport fb s).rxSeq + 1 ∧
        rport (!fb) t = rport (!fb) s))

/-- ROLL_CALL_START, ROLL_NOW and LINK_NOTE start a roll call with the next epoch and a NONCE from TICK, or call for
another while one runs. FORGET removes an UNREACHABLE node that no role records, ADOPT marks a FOREIGN worker to be
numbered as a blank one; anything else of them is logged alone. A manager whose ROLL_CALL returns notes its HOPS; a
foreign NONCE ends the roll call with SHAPE FAULT and TWO_MANAGERS. A worker takes its hops and port from ROLL_CALL;
answers are collected in order. The end of collection changes nothing before its conditions hold; then it awaits a
ROLL_ACK of every worker that needs ROLL_ASSIGN, and with none to await, or at the last ROLL_ACK, the roll call ends with
SHAPE, WORKERS and each found worker's entry (stated where no request is out and no worker holds an ACTIVE member).
ROLL_ASSIGN asks for one NV commit; ROLL_DONE gives a numbered worker the epoch.
(20_ferek_ring.md) -/
def Obligations.RollCallsNumberTheWorkers : Prop :=
  (∀ s : State, rollsRun s = true →
    (s.ring.roll = none → ∀ c ∈ [Instr.rollCallStart, .rollNow], reaches c s fun t =>
      t = { s with ring := t.ring, log := t.log, ledger := t.ledger } ∧ t.ring.rollSeq = s.ring.rollSeq + 1 ∧
      t.ring.nonce = some (s.clk.tick.truncate 16) ∧ t.ring.roll = some { start := s.clk.tick.toNat } ∧
      t.ring.rollAgain = false ∧ t.ring.nodes = s.ring.nodes) ∧
    (s.ring.roll.isSome = true → ∀ c ∈ [Instr.rollCallStart, .rollNow], reaches c s fun t =>
      t = { s with ring := { s.ring with rollAgain := true } })) ∧
  (∀ s : State, unitsUp s = true → isManager s = false → (reaches .rollCallStart s fun t => t = s) ∧
    reaches .rollNow s fun t => t = logRec .ringCmdRefused (leBytes 4 (ringCtrlWord s ||| flg 29 true).toNat) s) ∧
  (∀ (s : State) (k : BitVec 4) (key : Half), unitsUp s = true →
    (reaches (.forget k) s fun t =>
      (isManager s = true → mayForget k s = true → t.roster = s.roster.set k.toFin false ∧
        t.ring = { s.ring with nodes := s.ring.nodes.set k.toFin {}, unreach := s.ring.unreach - 1 } ∧
        t = { s with ident := t.ident, nv := t.nv, skb := t.skb, roster := t.roster, ring := t.ring } ∧
        (s.restart.nvcfgLost = false → t.nv.commits = s.nv.commits ++ [.keep])) ∧
      (isManager s = false ∨ mayForget k s = false →
        t = logRec .ringCmdRefused (leBytes 4 (ringCtrlWord s ||| fld 26 1 ||| fld 20 k.toNat).toNat) s)) ∧
    (reaches (.adopt k key) s fun t =>
      (isManager s = true → (s.ring.nodes.get k.toFin).status = .foreign →
        (s.ring.nodes.get k.toFin).fabricId.truncate 16 = key →
        t.ring.adopt = some ((s.ring.nodes.get k.toFin).fabricId, (s.ring.nodes.get k.toFin).node) ∧
        (rollsRun s = true → s.ring.roll = none → t.ring.rollSeq = s.ring.rollSeq + 1)) ∧
      (isManager s = false ∨ (s.ring.nodes.get k.toFin).status ≠ .foreign ∨
          (s.ring.nodes.get k.toFin).fabricId.truncate 16 ≠ key →
        t = logRec .ringCmdRefused
          (leBytes 4 (ringCtrlWord s ||| fld 26 2 ||| fld 20 k.toNat ||| fld 0 key.toNat).toNat) s))) ∧
  (∀ (s : State) (fb : Bool) (p : Pkt),
    (isManager s = true → inOrder fb 0x01 p s →
      (∀ r, s.ring.nonce = some ((flit p 1).truncate 16) → s.ring.roll = some r → r.acks = none →
        reaches (.rollCall fb p) s fun t => t = { s with ring := t.ring } ∧
          t.ring.roll = some { r with returned := some ((flit p 1).extractLsb' 16 4).toNat }) ∧
      (s.ring.nonce ≠ some ((flit p 1).truncate 16) → s.ring.rollAgain = false → reaches (.rollCall fb p) s fun t =>
        t.ring.roll = none ∧ t.ring.shape = 3 ∧ t.ring.twoManagers = true ∧ t.ring.nodes = s.ring.nodes)) ∧
    (isManager s = false → p.bcast = true → inOrder fb 0x01 p s → reaches (.rollCall fb p) s fun t =>
      t = { s with ring := t.ring, log := t.log, ledger := t.ledger } ∧ t.ring.toward = fb ∧
      t.ring.hops = (flit p 1).extractLsb' 16 4 + 1 ∧ t.ring.fabric = flit p 0 ∧
      sentOn fb 0x02 (fun x => x.dst = 0 ∧ x.src = s.ident.node ∧ flit x 0 = s.ident.fabricId ∧
        (flit x 1).extractLsb' 4 4 = (flit p 1).extractLsb' 16 4 + 1) t) ∧
    (∀ (r : Roll) (rtt : Half), isManager s = true → inOrder fb 0x02 p s → s.ring.roll = some r → r.acks = none →
      reaches (.rollAnswer fb p rtt) s fun t => t = { s with ring := t.ring } ∧ ∃ a : Answer,
        t.ring.roll = some { r with answers := r.answers ++ [a] } ∧ a.side = fb ∧ a.hops = (flit p 1).extractLsb' 4 4 ∧
        a.node = (flit p 1).extractLsb' 0 4 ∧ a.fabricId = flit p 0 ∧ a.last = (flit p 1).getLsbD 9 ∧ a.rtt = rtt) ∧
    (∀ (r : Roll) (l : List (BitVec 4)), isManager s = true → inOrder fb 0x04 p s → s.ring.roll = some r →
      r.acks = some l → l.erase p.src ≠ [] → reaches (.rollAck fb p) s fun t => t = { s with ring := t.ring } ∧
        t.ring.roll = some { r with acks := some (l.erase p.src) }) ∧
    (∀ (r : Roll) (l : List (BitVec 4)), isManager s = true → inOrder fb 0x04 p s → s.ring.roll = some r →
      r.acks = some l → l.erase p.src = [] → s.ring.rollAgain = false → s.ring.reqs = [] →
      (∀ m, (memGet m s).state = .active → nodeOf m = 0) → reaches (.rollAck fb p) s (numberedBy r s)) ∧
    (inOrder fb 0x03 p s → forWorker p s → s.restart.nvcfgLost = false → reaches (.rollAssign fb p) s fun t =>
      t.nv.commits = s.nv.commits ++ [.assign (flit p 0) ((flit p 1).extractLsb' 0 4) p.tag] ∧
      t = { s with ident := t.ident, nv := t.nv, skb := t.skb, ring := t.ring }) ∧
    (inOrder fb 0x05 p s → isManager s = false → p.bcast = true → reaches (.rollDone fb p) s fun t =>
      t.ring.shape = (flit p 0).extractLsb' 0 2 ∧ t.ring.doneSeen = true ∧
      t.ring.epoch = if numbered s then p.epoch else s.ring.epoch) ∧
    (inOrder fb 0x06 p s → rollsRun s = true → reaches (.linkNote fb p) s fun t =>
      (s.ring.roll = none → t.ring.rollSeq = s.ring.rollSeq + 1 ∧ t.ring.roll = some { start := s.clk.tick.toNat }) ∧
      (s.ring.roll.isSome = true → t.ring.rollAgain = true ∧ t.ring.rollSeq = s.ring.rollSeq ∧ t.ring.roll = s.ring.roll))) ∧
  (∀ s : State, rollsRun s = true → collected s = false → reaches .rollCallCollectEnd s fun t => t = s) ∧
  (∀ (s : State) (r : Roll), rollsRun s = true → s.ring.roll = some r → r.acks = none → collected s = true →
    s.ident.fabricId ≠ 0 → ∀ plan,
      plan = numberAll s.ident.fabricId s.roster s.ring.adopt [] (r.found.filter fun f => !excluded r f.1 s) →
    ((plan.filter fun n => n.assigned s.ident.fabricId) = [] → s.ring.rollAgain = false → s.ring.reqs = [] →
      (∀ m, (memGet m s).state = .active → nodeOf m = 0) →
      reaches .rollCallCollectEnd s (numberedBy { r with plan := plan } s)) ∧
    ((plan.filter fun n => n.assigned s.ident.fabricId) ≠ [] → reaches .rollCallCollectEnd s fun t =>
        t.ring.roll = some { r with
          plan := plan, acks := some ((plan.filter fun n => n.assigned s.ident.fabricId).map (·.node)) } ∧
        (∀ k, t.roster.get k = (s.roster.get k || plan.any fun n => n.out == .worker && n.node.toFin == k))))

/-- A numbered worker of the present epoch turns MREAD, MERASE and PSUM_REQ for ACTIVE ports into member operations in
their port's queue, and holds MWRITE until its data is there; a port that is not ACTIVE is answered REFUSED, and a
request of another epoch is discarded. The manager collects MREAD_DATA and PSUM_DATA under their tag and epoch, and
OP_DONE ends the request with the result that it names. REQUEST_TIMEOUT sends PING (a request held
for a worker that is still in DOZE has no timer); PONG reissues the request once under a new tag; a second expiry, or no
PONG, makes the node UNREACHABLE, loses its ACTIVE members and asks for a roll call; where it has no ACTIVE member, no
other node's entry and no member changes. (04_power_and_clocks.md, 20_ferek_ring.md) -/
def Obligations.RingRequestsAndTheirAnswers : Prop :=
  (∀ (s : State) (fb : Bool) (p : Pkt), forWorker p s → ∀ port : Fin 8, port = fin8 ((flit p 0).extractLsb' 57 3).toNat →
    (∀ kc ∈ [((0x20 : Byte), Instr.mread fb p), (0x22, .mwrite fb p), (0x24, .merase fb p)], inOrder fb kc.1 p s →
      (takesReq p s = false → reaches kc.2 s fun t => t = creditBack fb p.ch p.flits.length (accepted fb s)) ∧
      (takesReq p s = true → serves (servedOf kc.1 p (flit p 0) s) s = false →
        (rport (upPort s) s).link = .up → reaches kc.2 s fun t =>
        t.ring.served = s.ring.served ∧ t.members = s.members ∧
        sentOn (upPort s) 0x27 (fun x => x.tag = p.tag ∧ x.arg = 3 ∧ x.dst = 0 ∧ x.src = s.ident.node) t)) ∧
    (takesReq p s = true → (memGet (ownMember port s) s).state = .active →
      (inOrder fb 0x20 p s → reaches (.mread fb p) s fun t =>
        queued port (fun o => o.kind = .read ∧ o.member = ownMember port s ∧ o.sector = ((flit p 0).extractLsb' 0 48).toNat ∧
          o.count = ((flit p 0).extractLsb' 48 9).toNat + 1 ∧ o.cls = classOf (flit p 0)) t ∧
        t.ring.served = s.ring.served ++ [{ servedOf 0x20 p (flit p 0) s with queued := true }]) ∧
      (inOrder fb 0x24 p s → reaches (.merase fb p) s fun t =>
        queued port (fun o => o.kind = .erase ∧ o.member = ownMember port s ∧ o.sector = ((flit p 0).extractLsb' 0 48).toNat ∧
          o.count = ((flit p 0).extractLsb' 48 9).toNat + 1) t) ∧
      (inOrder fb 0x22 p s → reaches (.mwrite fb p) s fun t => t.members = s.members ∧
        t.ring.served = s.ring.served ++ [servedOf 0x22 p (flit p 0) s])) ∧
    (inOrder fb 0x25 p s → takesReq p s = true →
      (∀ d ∈ p.flits, (memGet (ownMember (fin8 (d.extractLsb' 57 3).toNat) s) s).state = .active) →
      reaches (.psumReq fb p) s fun t => ∀ d ∈ p.flits, queued (fin8 (d.extractLsb' 57 3).toNat)
        (fun o => o.kind = .read ∧ o.sector = (d.extractLsb' 0 48).toNat ∧ o.count = 8) t) ∧
    (∀ v, inOrder fb 0x23 p s →
      s.ring.served.find? (fun v => v.tag == p.tag && v.epoch == p.epoch && v.kind == 0x22) = some v →
      v.data.length + 1 < v.count → reaches (.mwriteData fb p) s fun t => t = { s with ring := t.ring } ∧
        t.ring.served = s.ring.served.map fun x => if x == v then { v with data := v.data ++ [flitsSector p.flits] } else x) ∧
    (inOrder fb 0x07 p s → (rport (upPort s) s).link = .up → reaches (.ping fb p) s fun t =>
      t = { s with ring := t.ring, log := t.log, ledger := t.ledger } ∧
      sentOn (upPort s) 0x08 (fun x => x.tag = p.tag ∧ x.dst = 0 ∧ x.src = s.ident.node) t)) ∧
  (∀ (s : State) (fb : Bool) (p : Pkt), isManager s = true →
    (answers p s = none → ∀ kc ∈ [((0x21 : Byte), Instr.mreadData fb p), (0x26, .psumData fb p), (0x27, .opDone fb p)],
      inOrder fb kc.1 p s → reaches kc.2 s fun t => t = creditBack fb p.ch p.flits.length (accepted fb s)) ∧
    (∀ r, answers p s = some r →
      (inOrder fb 0x21 p s → reaches (.mreadData fb p) s fun t => t = { s with ring := t.ring } ∧
        t.ring.reqs = s.ring.reqs.map fun x => if x == r then { r with got := r.got ++ [flitsSector p.flits] } else x) ∧
      (∀ q, r.kind = .psum q → r.got.length < 7 → inOrder fb 0x26 p s → reaches (.psumData fb p) s fun t =>
        t = { s with ring := t.ring } ∧
        t.ring.reqs = s.ring.reqs.map fun x => if x == r then { r with got := r.got ++ [flitsSector p.flits] } else x) ∧
      (∀ mo, r.kind = .op mo → inOrder fb 0x27 p s → reaches (.opDone fb p) s fun t =>
        ∃ e, t = creditBack fb p.ch p.flits.length (opResult mo e (reqDrop r (accepted fb s))) ∧
          (p.arg.extractLsb' 0 8 = 0 → e = .ok r.got) ∧ (p.arg.extractLsb' 0 8 = 1 → e = .unreadable r.got) ∧
          (p.arg.extractLsb' 0 8 = 2 → e = .lost) ∧ (p.arg.extractLsb' 0 8 = 3 → e = .refused))) ∧
    (∀ r, inOrder fb 0x08 p s → reqOf p.src p.tag s = some r → r.pinged = true → reaches (.pong fb p) s fun t =>
      ∃ u, t.ring.reqs = s.ring.reqs.erase r ++ [u] ∧ u.node = p.src ∧ u.kind = r.kind ∧ u.reissued = true ∧
        u.epoch = s.ring.rollSeq ∧ u.got = [] ∧ t = { s with ring := t.ring, log := t.log, ledger := t.ledger })) ∧
  (∀ (s : State) (k : BitVec 4) (tag : Byte), unitsUp s = true → isManager s = true →
    (reqOf k tag s = none → ∀ c ∈ [Instr.requestTimeout k tag, .pingTimeout k tag], reaches c s fun t => t = s) ∧
    (∀ r, reqOf k tag s = some r →
      (r.parked = true → reaches (.requestTimeout k tag) s fun t => t = s) ∧
      (r.parked = false → r.reissued = false → reaches (.requestTimeout k tag) s fun t =>
        t.ring.reqs = (s.ring.reqs.map fun x => if x == r then { r with pinged := true } else x) ∧
        t.ring.nodes = s.ring.nodes ∧
        (∀ fb, routeTo k s = some fb → (rport fb s).link = .up → sentOn fb 0x07 (fun x => x.tag = tag ∧ x.dst = k) t)) ∧
      (r.pinged = false → reaches (.pingTimeout k tag) s fun t => t = s) ∧
      (∀ c ∈ [(r.reissued && !r.parked, Instr.requestTimeout k tag), (r.pinged, .pingTimeout k tag)], c.1 = true →
        ∀ n, n = { (s.ring.nodes.get k.toFin).gone with verdict := some s.clk.tick.toNat } → reaches c.2 s fun t =>
          t = rollEvent (nodeLost k { s with ring := { s.ring with nodes := s.ring.nodes.set k.toFin n } })) ∧
      ((∀ q : Fin 8, (memGet (Fin.ofNat 128 (8 * k.toNat + q.val)) s).state ≠ .active) →
        ∀ c ∈ [(r.reissued && !r.parked, Instr.requestTimeout k tag), (r.pinged, .pingTimeout k tag)], c.1 = true →
        reaches c.2 s fun t => (t.ring.nodes.get k.toFin).status = .unreachable ∧
          (t.ring.nodes.get k.toFin).verdict = some s.clk.tick.toNat ∧ t.members = s.members ∧
          (∀ j, j ≠ k.toFin → t.ring.nodes.get j = s.ring.nodes.get j) ∧
          (rollsRun s = true → s.ring.roll = none → t.ring.rollSeq = s.ring.rollSeq + 1))))

/-- A forwarded MEMBER word 0 or REFEREE entry is one NV commit of the worker, at whose end it applies; so is a new
identity and number, after which ROLL_ACK goes out. A worker reports each port whose counters changed when the report
timer expires, and takes the state that MEMBER_SET names for its port. A power order into DOZE or STANDBY is acknowledged
at once where the worker serves no request, and waits otherwise; a cancelled order is forgotten. The manager enters a
report's words in the member's entry and, without a change of state and where the node has not come back, keeps the
state; a failed card that no array holds becomes FAILED. POWER_ACK ends the wait for that worker. A forwarded record
enters the log under its own SEQ, with CODE, CLASS, NODE, TICK and ARGS as sent and BB 0, and never the black box.
Which ARG names the entry or the port, and flit 0 of an order, are the model's own reading (log entries 60 to 62 and 66).
(04_power_and_clocks.md, 20_ferek_ring.md, 23_faults_and_interrupts.md) -/
def Obligations.ReportsOrdersAndForwardedRecords : Prop :=
  (∀ (s : State) (fb : Bool) (p : Pkt), forWorker p s →
    (inOrder fb 0x09 p s → s.restart.nvcfgLost = false →
      (p.arg.extractLsb' 8 8 = 0x01 ∨ p.arg.extractLsb' 8 8 = 0x0D → reaches (.tableFwd fb p) s fun t =>
        t.nv.commits = s.nv.commits ++
          [.fwd (p.arg.extractLsb' 8 8) (p.arg.extractLsb' 0 8).toNat (p.flits.flatMap lowHigh)] ∧
        t = { s with ident := t.ident, nv := t.nv, skb := t.skb, ring := t.ring }) ∧
      (p.arg.extractLsb' 8 8 ≠ 0x01 → p.arg.extractLsb' 8 8 ≠ 0x0D → reaches (.tableFwd fb p) s fun t =>
        t = creditBack fb p.ch p.flits.length (accepted fb s))) ∧
    (inOrder fb 0x0B p s → ∀ q m st, q = fin8 ((flit p 0).extractLsb' 4 3).toNat → m = ownMember q s →
      st = mstateOf ((flit p 0).extractLsb' 0 4).toNat → (portGet q s).powered = false ∨ st.poweredOn = true →
      reaches (.memberSet fb p) s fun t => (memGet m t).state = st ∧ (∀ k, k ≠ m → memGet k t = memGet k s) ∧
        t.members.ports = s.members.ports ∧ t.arrs = s.arrs) ∧
    (inOrder fb 0x0C p s → ∀ z, (z = .doze ∧ (flit p 0).extractLsb' 0 2 = 2 ∨ z = .standby ∧ (flit p 0).extractLsb' 0 2 = 3) →
      reaches (.powerOrder fb p) s fun t =>
        t = { s with power := t.power, ring := t.ring, log := t.log, ledger := t.ledger } ∧
        (s.ring.served = [] → t.power = { s.power with ordered := some z, orderDue := none } ∧
          ((rport (upPort s) s).link = .up →
            sentOn (upPort s) 0x0D (fun x => x.dst = 0 ∧ x.src = s.ident.node) t)) ∧
        (s.ring.served ≠ [] → t.power = { s.power with orderDue := some z } ∧
          t = creditBack fb p.ch p.flits.length (accepted fb { s with power := t.power }))) ∧
    (inOrder fb 0x0C p s → (flit p 0).extractLsb' 0 2 = 0 → reaches (.powerOrder fb p) s fun t =>
      t.power = { s.power with ordered := none, orderDue := none } ∧
      t = creditBack fb p.ch p.flits.length (accepted fb { s with power := t.power }))) ∧
  (∀ (s : State) (sp : Byte) (e : Nat) (w : List Word) rest ops, running s = true → isManager s = false →
    s.nv.prog = .nv :: ops →
    s.nv.commits = .fwd sp e w :: rest →
    (sp = 0x0D → reaches (.nvCommitDone true) s fun t => t.referee.cfg = s.referee.cfg.put e w) ∧
    (sp = 0x01 → ∀ m, m = ownMember (fin8 e) s → reaches (.nvCommitDone true) s fun t =>
      (memGet m t).cfg = memberCfgOf (wordAt w 0) ∧ (memGet m t).state = (memGet m s).state ∧
      t.referee = s.referee)) ∧
  (∀ (s : State) (f : Dword) (k : BitVec 4) (tag : Byte) rest ops, running s = true → isManager s = false →
    s.nv.prog = .nv :: ops →
    s.nv.commits = .assign f k tag :: rest → reaches (.nvCommitDone true) s fun t =>
      t.ident.fabricId = f ∧ t.ident.node = k ∧
      ((rport (upPort s) s).link = .up → sentOn (upPort s) 0x04 (fun x => x.dst = 0 ∧ x.src = k ∧ x.tag = tag) t)) ∧
  (∀ s : State, unitsRun s = true → isManager s = false → reaches .memberReportTimer s fun t =>
    t = { s with ring := t.ring, log := t.log, ledger := t.ledger } ∧ t.ring.changed = 0 ∧
    ((rport (upPort s) s).link = .up → ∀ q : Fin 8, s.ring.changed.getLsbD q.val = true →
      sentOn (upPort s) 0x0A (fun x => x.arg = BitVec.ofNat 16 q.val ∧ x.flits.length = 16) t)) ∧
  (∀ (s : State) (fb : Bool) (p : Pkt), isManager s = true →
    (inOrder fb 0x0A p s → p.src ≠ 0 → ∀ m w, m = Fin.ofNat 128 (8 * p.src.toNat + p.arg.toNat % 8) →
      w = (p.flits.take 8).flatMap lowHigh → mstateOf (bits (wordAt w 1) 31 28) ≠ .probing →
      (freshDue m s = false ∨ mstateOf (bits (wordAt w 1) 31 28) = .failed) →
      (mstateOf (bits (wordAt w 1) 31 28) = (memGet m s).state → reaches (.memberReport fb p) s fun t =>
        t = { s with members := t.members, ring := t.ring } ∧ (memGet m t).state = (memGet m s).state ∧
        (memGet m t).cfg = memberCfgOf (wordAt w 0) ∧ (memGet m t).capacity = wordAt w 5 ++ wordAt w 4 ∧
        (memGet m t).linkErrs = wordAt w 8 ∧ (memGet m t).ops = wordAt w 13 ++ wordAt w 12 ∧
        (∀ k, k ≠ m → memGet k t = memGet k s)) ∧
      (mstateOf (bits (wordAt w 1) 31 28) = .failed → (memGet m s).state ≠ .failed → roleOf m s = none →
        reaches (.memberReport fb p) s fun t => (memGet m t).state = .failed ∧
          (memGet m t).lastChange = (wordAt w 1).extractLsb' 8 8 ∧ (∀ k, k ≠ m → memGet k t = memGet k s) ∧
          t.arrs = s.arrs)) ∧
    (inOrder fb 0x0D p s → reaches (.powerAck fb p) s fun t => t = { s with power := t.power, ring := t.ring } ∧
      t.power = { s.power with ordersOut := s.power.ordersOut.erase p.src }) ∧
    (inOrder fb 0x0E p s → reaches (.logFwd fb p) s fun t => t = { s with log := t.log, ring := t.ring } ∧
      ∃ x, t.log.recs.head? = some x ∧ x.code = (flit p 0).extractLsb' 0 8 ∧ x.bb = false ∧
        x.node = (flit p 0).extractLsb' 12 4 ∧ x.seq = s.log.seqNext ∧ x.tick = (flit p 0).extractLsb' 32 32 ∧
        t.log.seqNext = s.log.seqNext + 1 ∧
        x.cls = logClassOf ((flit p 0).extractLsb' 8 3).toNat ∧
        (∀ n < 22, x.args.getD n 0 = (flit p (1 + n / 8)).extractLsb' (8 * (n % 8)) 8)))

/-- A detected condition of one of those codes that the present TICK period has logged changes its counter and nothing
else. Any other condition is counted and enters the log at the next sequence number, whatever the period has logged; a
code of those ranges is then held back until the next TICK step opens a new period (that step is stated where no failed
member operation is held for SDn_CD_N). (R561) -/
def Obligations.NotesAreHeldBackWithinATick : Prop :=
  (∀ (c : Code) (cls : LogClass) (st : Option (Fin 8)) (args : List Byte) (s : State),
    ((0x10 ≤ c.info.1 ∧ c.info.1 ≤ 0x1C ∨ 0x22 ≤ c.info.1 ∧ c.info.1 ≤ 0x25) →
      (BitVec.ofNat 8 c.info.1 ∈ s.log.thisTick → logAs c cls st args s = counterInc c.info.1 s) ∧
      (BitVec.ofNat 8 c.info.1 ∉ s.log.thisTick →
        (logAs c cls st args s).log.thisTick = BitVec.ofNat 8 c.info.1 :: s.log.thisTick)) ∧
    (¬(0x10 ≤ c.info.1 ∧ c.info.1 ≤ 0x1C ∨ 0x22 ≤ c.info.1 ∧ c.info.1 ≤ 0x25) →
      (logAs c cls st args s).log.thisTick = s.log.thisTick) ∧
    (¬(0x10 ≤ c.info.1 ∧ c.info.1 ≤ 0x1C ∨ 0x22 ≤ c.info.1 ∧ c.info.1 ≤ 0x25) ∨ BitVec.ofNat 8 c.info.1 ∉ s.log.thisTick →
      (logAs c cls st args s).log.seqNext = s.log.seqNext + 1 ∧
      (∃ r, (logAs c cls st args s).log.recs.head? = some r ∧ r.code = BitVec.ofNat 8 c.info.1 ∧ r.seq = s.log.seqNext ∧
        r.cls = cls ∧ r.args = args ∧ r.tick = s.clk.tick.truncate 32 ∧ r.node = s.ident.node)) ∧
    counterGet c.info.1 (logAs c cls st args s) = ctrInc (counterGet c.info.1 s)) ∧
  (∀ (s : State) (pins : PinLevels), running s = true → (∀ p, (portGet p s).heldFail = none) →
    reaches (.tickStep pins) s fun t => t.log.thisTick = [])

/-- RESET_END samples the straps: afterwards the chip is the manager exactly when the ROLE strap is high, and a worker
when it is low. No other command, in any state, changes the chip's role. (R14) -/
def Obligations.TheRoleStrapFixesTheRole : Prop :=
  (∀ (s : State) (straps : Straps), (s.power.core = .inResetP ∨ s.power.core = .inResetD) → s.power.pgMet = true →
    reaches (.resetEnd straps) s fun t => (straps.role = true → isManager t = true) ∧ (straps.role = false → isManager t = false)) ∧
  (∀ (c : Instr) (s t : State), exec c s = .next t →
    (∀ straps, c = .resetEnd straps → s.power.core ≠ .inResetP ∧ s.power.core ≠ .inResetD) → isManager t = isManager s)

/-- The invariant: LEVEL2 is held by a manager alone, and a part in a class P or D reset is at LEVEL0. From every state
that meets it, every step that answers a next state gives a state that meets it. (That the reset state meets it is
part of ResetStateValues.) (01_machine_in_one_pass.md, 05_resets_and_restart.md, 22_state_catalogue.md) -/
def Obligations.WorkersStayBelowLevel2 : Prop :=
  ∀ s t : State, step s = .next t →
    (s.restart.level = .level2 → isManager s = true) →
    (s.power.core = .inResetP ∨ s.power.core = .inResetD → s.restart.level = .level0) →
    (t.restart.level = .level2 → isManager t = true) ∧
    (t.power.core = .inResetP ∨ t.power.core = .inResetD → t.restart.level = .level0)

/-- From every state whose two byte memories list their addresses in strictly rising order and no byte equal to what an
unlisted byte reads as, every step that answers a next state gives a state whose two byte memories do so too. (That
the reset state meets it is part of ResetStateValues.) (08_host_bus.md, 11_queues_and_commands.md) -/
def Obligations.MemoriesKeepTheirForm : Prop :=
  ∀ s t : State, step s = .next t →
    (Memory.wf s.hbu.mailbox = true → Memory.wf t.hbu.mailbox = true) ∧
    (Memory.wf s.hbu.ringSram = true → Memory.wf t.hbu.ringSram = true)
end

