-- ==== Sys2Proof/Laws/State.lean ====
section
/-! SUPPORT. One lemma per field per update: what the accessors that write one component leave alone, so that no proof
unfolds a record update. -/

namespace Sys2Proof.Machine

section Updates

set_option Elab.async false

variable (s : State)

@[simp] theorem irqSet_pending (b : Nat) : (irqSet b s).pending = s.pending := rfl
@[simp] theorem irqSet_power (b : Nat) : (irqSet b s).power = s.power := rfl
@[simp] theorem irqSet_standby (b : Nat) : (irqSet b s).standby = s.standby := rfl
@[simp] theorem irqSet_clk (b : Nat) : (irqSet b s).clk = s.clk := rfl
@[simp] theorem irqSet_restart (b : Nat) : (irqSet b s).restart = s.restart := rfl
@[simp] theorem irqSet_ident (b : Nat) : (irqSet b s).ident = s.ident := rfl
@[simp] theorem irqSet_nv (b : Nat) : (irqSet b s).nv = s.nv := rfl
@[simp] theorem irqSet_pathC (b : Nat) : (irqSet b s).pathC = s.pathC := rfl
@[simp] theorem irqSet_pathM (b : Nat) : (irqSet b s).pathM = s.pathM := rfl
@[simp] theorem irqSet_cport (b : Nat) : (irqSet b s).cport = s.cport := rfl
@[simp] theorem irqSet_mgmt (b : Nat) : (irqSet b s).mgmt = s.mgmt := rfl
@[simp] theorem irqSet_scratch (b : Nat) : (irqSet b s).scratch = s.scratch := rfl
@[simp] theorem irqSet_hbu (b : Nat) : (irqSet b s).hbu = s.hbu := rfl
@[simp] theorem irqSet_ledger (b : Nat) : (irqSet b s).ledger = s.ledger := rfl
@[simp] theorem irqSet_dma (b : Nat) : (irqSet b s).dma = s.dma := rfl
@[simp] theorem irqSet_queues (b : Nat) : (irqSet b s).queues = s.queues := rfl
@[simp] theorem irqSet_members (b : Nat) : (irqSet b s).members = s.members := rfl
@[simp] theorem irqSet_arrs (b : Nat) : (irqSet b s).arrs = s.arrs := rfl
@[simp] theorem irqSet_vols (b : Nat) : (irqSet b s).vols = s.vols := rfl
@[simp] theorem irqSet_canvas (b : Nat) : (irqSet b s).canvas = s.canvas := rfl
@[simp] theorem irqSet_skb (b : Nat) : (irqSet b s).skb = s.skb := rfl
@[simp] theorem irqSet_studios (b : Nat) : (irqSet b s).studios = s.studios := rfl
@[simp] theorem irqSet_referee (b : Nat) : (irqSet b s).referee = s.referee := rfl
@[simp] theorem irqSet_roster (b : Nat) : (irqSet b s).roster = s.roster := rfl
@[simp] theorem irqSet_regions (b : Nat) : (irqSet b s).regions = s.regions := rfl
@[simp] theorem irqSet_ring (b : Nat) : (irqSet b s).ring = s.ring := rfl
@[simp] theorem irqSet_palette (b : Nat) : (irqSet b s).palette = s.palette := rfl
@[simp] theorem irqSet_freeCtr (b : Nat) : (irqSet b s).freeCtr = s.freeCtr := rfl

@[simp] theorem counterInc_pending (e : Nat) : (counterInc e s).pending = s.pending := rfl
@[simp] theorem counterInc_power (e : Nat) : (counterInc e s).power = s.power := rfl
@[simp] theorem counterInc_standby (e : Nat) : (counterInc e s).standby = s.standby := rfl
@[simp] theorem counterInc_clk (e : Nat) : (counterInc e s).clk = s.clk := rfl
@[simp] theorem counterInc_restart (e : Nat) : (counterInc e s).restart = s.restart := rfl
@[simp] theorem counterInc_ident (e : Nat) : (counterInc e s).ident = s.ident := rfl
@[simp] theorem counterInc_nv (e : Nat) : (counterInc e s).nv = s.nv := rfl
@[simp] theorem counterInc_pathC (e : Nat) : (counterInc e s).pathC = s.pathC := rfl
@[simp] theorem counterInc_pathM (e : Nat) : (counterInc e s).pathM = s.pathM := rfl
@[simp] theorem counterInc_cport (e : Nat) : (counterInc e s).cport = s.cport := rfl
@[simp] theorem counterInc_mgmt (e : Nat) : (counterInc e s).mgmt = s.mgmt := rfl
@[simp] theorem counterInc_scratch (e : Nat) : (counterInc e s).scratch = s.scratch := rfl
@[simp] theorem counterInc_hbu (e : Nat) : (counterInc e s).hbu = s.hbu := rfl
@[simp] theorem counterInc_ledger (e : Nat) : (counterInc e s).ledger = s.ledger := rfl
@[simp] theorem counterInc_dma (e : Nat) : (counterInc e s).dma = s.dma := rfl
@[simp] theorem counterInc_queues (e : Nat) : (counterInc e s).queues = s.queues := rfl
@[simp] theorem counterInc_members (e : Nat) : (counterInc e s).members = s.members := rfl
@[simp] theorem counterInc_arrs (e : Nat) : (counterInc e s).arrs = s.arrs := rfl
@[simp] theorem counterInc_vols (e : Nat) : (counterInc e s).vols = s.vols := rfl
@[simp] theorem counterInc_canvas (e : Nat) : (counterInc e s).canvas = s.canvas := rfl
@[simp] theorem counterInc_skb (e : Nat) : (counterInc e s).skb = s.skb := rfl
@[simp] theorem counterInc_studios (e : Nat) : (counterInc e s).studios = s.studios := rfl
@[simp] theorem counterInc_referee (e : Nat) : (counterInc e s).referee = s.referee := rfl
@[simp] theorem counterInc_roster (e : Nat) : (counterInc e s).roster = s.roster := rfl
@[simp] theorem counterInc_regions (e : Nat) : (counterInc e s).regions = s.regions := rfl
@[simp] theorem counterInc_ring (e : Nat) : (counterInc e s).ring = s.ring := rfl
@[simp] theorem counterInc_palette (e : Nat) : (counterInc e s).palette = s.palette := rfl
@[simp] theorem counterInc_freeCtr (e : Nat) : (counterInc e s).freeCtr = s.freeCtr := rfl

@[simp] theorem aliasPut_pending (i : Fin 8) (a : Alias) : (aliasPut i a s).pending = s.pending := rfl
@[simp] theorem aliasPut_power (i : Fin 8) (a : Alias) : (aliasPut i a s).power = s.power := rfl
@[simp] theorem aliasPut_standby (i : Fin 8) (a : Alias) : (aliasPut i a s).standby = s.standby := rfl
@[simp] theorem aliasPut_clk (i : Fin 8) (a : Alias) : (aliasPut i a s).clk = s.clk := rfl
@[simp] theorem aliasPut_restart (i : Fin 8) (a : Alias) : (aliasPut i a s).restart = s.restart := rfl
@[simp] theorem aliasPut_ident (i : Fin 8) (a : Alias) : (aliasPut i a s).ident = s.ident := rfl
@[simp] theorem aliasPut_nv (i : Fin 8) (a : Alias) : (aliasPut i a s).nv = s.nv := rfl
@[simp] theorem aliasPut_log (i : Fin 8) (a : Alias) : (aliasPut i a s).log = s.log := rfl
@[simp] theorem aliasPut_pathC (i : Fin 8) (a : Alias) : (aliasPut i a s).pathC = s.pathC := rfl
@[simp] theorem aliasPut_pathM (i : Fin 8) (a : Alias) : (aliasPut i a s).pathM = s.pathM := rfl
@[simp] theorem aliasPut_cport (i : Fin 8) (a : Alias) : (aliasPut i a s).cport = s.cport := rfl
@[simp] theorem aliasPut_mgmt (i : Fin 8) (a : Alias) : (aliasPut i a s).mgmt = s.mgmt := rfl
@[simp] theorem aliasPut_scratch (i : Fin 8) (a : Alias) : (aliasPut i a s).scratch = s.scratch := rfl
@[simp] theorem aliasPut_ledger (i : Fin 8) (a : Alias) : (aliasPut i a s).ledger = s.ledger := rfl
@[simp] theorem aliasPut_dma (i : Fin 8) (a : Alias) : (aliasPut i a s).dma = s.dma := rfl
@[simp] theorem aliasPut_queues (i : Fin 8) (a : Alias) : (aliasPut i a s).queues = s.queues := rfl
@[simp] theorem aliasPut_members (i : Fin 8) (a : Alias) : (aliasPut i a s).members = s.members := rfl
@[simp] theorem aliasPut_arrs (i : Fin 8) (a : Alias) : (aliasPut i a s).arrs = s.arrs := rfl
@[simp] theorem aliasPut_vols (i : Fin 8) (a : Alias) : (aliasPut i a s).vols = s.vols := rfl
@[simp] theorem aliasPut_canvas (i : Fin 8) (a : Alias) : (aliasPut i a s).canvas = s.canvas := rfl
@[simp] theorem aliasPut_skb (i : Fin 8) (a : Alias) : (aliasPut i a s).skb = s.skb := rfl
@[simp] theorem aliasPut_studios (i : Fin 8) (a : Alias) : (aliasPut i a s).studios = s.studios := rfl
@[simp] theorem aliasPut_referee (i : Fin 8) (a : Alias) : (aliasPut i a s).referee = s.referee := rfl
@[simp] theorem aliasPut_roster (i : Fin 8) (a : Alias) : (aliasPut i a s).roster = s.roster := rfl
@[simp] theorem aliasPut_regions (i : Fin 8) (a : Alias) : (aliasPut i a s).regions = s.regions := rfl
@[simp] theorem aliasPut_ring (i : Fin 8) (a : Alias) : (aliasPut i a s).ring = s.ring := rfl
@[simp] theorem aliasPut_palette (i : Fin 8) (a : Alias) : (aliasPut i a s).palette = s.palette := rfl
@[simp] theorem aliasPut_freeCtr (i : Fin 8) (a : Alias) : (aliasPut i a s).freeCtr = s.freeCtr := rfl

@[simp] theorem studioPut_pending (i : Fin 8) (x : Studio) : (studioPut i x s).pending = s.pending := rfl
@[simp] theorem studioPut_power (i : Fin 8) (x : Studio) : (studioPut i x s).power = s.power := rfl
@[simp] theorem studioPut_standby (i : Fin 8) (x : Studio) : (studioPut i x s).standby = s.standby := rfl
@[simp] theorem studioPut_clk (i : Fin 8) (x : Studio) : (studioPut i x s).clk = s.clk := rfl
@[simp] theorem studioPut_restart (i : Fin 8) (x : Studio) : (studioPut i x s).restart = s.restart := rfl
@[simp] theorem studioPut_ident (i : Fin 8) (x : Studio) : (studioPut i x s).ident = s.ident := rfl
@[simp] theorem studioPut_nv (i : Fin 8) (x : Studio) : (studioPut i x s).nv = s.nv := rfl
@[simp] theorem studioPut_log (i : Fin 8) (x : Studio) : (studioPut i x s).log = s.log := rfl
@[simp] theorem studioPut_pathC (i : Fin 8) (x : Studio) : (studioPut i x s).pathC = s.pathC := rfl
@[simp] theorem studioPut_pathM (i : Fin 8) (x : Studio) : (studioPut i x s).pathM = s.pathM := rfl
@[simp] theorem studioPut_cport (i : Fin 8) (x : Studio) : (studioPut i x s).cport = s.cport := rfl
@[simp] theorem studioPut_mgmt (i : Fin 8) (x : Studio) : (studioPut i x s).mgmt = s.mgmt := rfl
@[simp] theorem studioPut_scratch (i : Fin 8) (x : Studio) : (studioPut i x s).scratch = s.scratch := rfl
@[simp] theorem studioPut_hbu (i : Fin 8) (x : Studio) : (studioPut i x s).hbu = s.hbu := rfl
@[simp] theorem studioPut_ledger (i : Fin 8) (x : Studio) : (studioPut i x s).ledger = s.ledger := rfl
@[simp] theorem studioPut_dma (i : Fin 8) (x : Studio) : (studioPut i x s).dma = s.dma := rfl
@[simp] theorem studioPut_queues (i : Fin 8) (x : Studio) : (studioPut i x s).queues = s.queues := rfl
@[simp] theorem studioPut_members (i : Fin 8) (x : Studio) : (studioPut i x s).members = s.members := rfl
@[simp] theorem studioPut_arrs (i : Fin 8) (x : Studio) : (studioPut i x s).arrs = s.arrs := rfl
@[simp] theorem studioPut_vols (i : Fin 8) (x : Studio) : (studioPut i x s).vols = s.vols := rfl
@[simp] theorem studioPut_canvas (i : Fin 8) (x : Studio) : (studioPut i x s).canvas = s.canvas := rfl
@[simp] theorem studioPut_skb (i : Fin 8) (x : Studio) : (studioPut i x s).skb = s.skb := rfl
@[simp] theorem studioPut_referee (i : Fin 8) (x : Studio) : (studioPut i x s).referee = s.referee := rfl
@[simp] theorem studioPut_roster (i : Fin 8) (x : Studio) : (studioPut i x s).roster = s.roster := rfl
@[simp] theorem studioPut_regions (i : Fin 8) (x : Studio) : (studioPut i x s).regions = s.regions := rfl
@[simp] theorem studioPut_ring (i : Fin 8) (x : Studio) : (studioPut i x s).ring = s.ring := rfl
@[simp] theorem studioPut_palette (i : Fin 8) (x : Studio) : (studioPut i x s).palette = s.palette := rfl
@[simp] theorem studioPut_freeCtr (i : Fin 8) (x : Studio) : (studioPut i x s).freeCtr = s.freeCtr := rfl

@[simp] theorem memPut_pending (m : Fin 128) (x : Member) : (memPut m x s).pending = s.pending := rfl
@[simp] theorem memPut_power (m : Fin 128) (x : Member) : (memPut m x s).power = s.power := rfl
@[simp] theorem memPut_standby (m : Fin 128) (x : Member) : (memPut m x s).standby = s.standby := rfl
@[simp] theorem memPut_clk (m : Fin 128) (x : Member) : (memPut m x s).clk = s.clk := rfl
@[simp] theorem memPut_restart (m : Fin 128) (x : Member) : (memPut m x s).restart = s.restart := rfl
@[simp] theorem memPut_ident (m : Fin 128) (x : Member) : (memPut m x s).ident = s.ident := rfl
@[simp] theorem memPut_nv (m : Fin 128) (x : Member) : (memPut m x s).nv = s.nv := rfl
@[simp] theorem memPut_log (m : Fin 128) (x : Member) : (memPut m x s).log = s.log := rfl
@[simp] theorem memPut_pathC (m : Fin 128) (x : Member) : (memPut m x s).pathC = s.pathC := rfl
@[simp] theorem memPut_pathM (m : Fin 128) (x : Member) : (memPut m x s).pathM = s.pathM := rfl
@[simp] theorem memPut_cport (m : Fin 128) (x : Member) : (memPut m x s).cport = s.cport := rfl
@[simp] theorem memPut_mgmt (m : Fin 128) (x : Member) : (memPut m x s).mgmt = s.mgmt := rfl
@[simp] theorem memPut_scratch (m : Fin 128) (x : Member) : (memPut m x s).scratch = s.scratch := rfl
@[simp] theorem memPut_hbu (m : Fin 128) (x : Member) : (memPut m x s).hbu = s.hbu := rfl
@[simp] theorem memPut_ledger (m : Fin 128) (x : Member) : (memPut m x s).ledger = s.ledger := rfl
@[simp] theorem memPut_dma (m : Fin 128) (x : Member) : (memPut m x s).dma = s.dma := rfl
@[simp] theorem memPut_queues (m : Fin 128) (x : Member) : (memPut m x s).queues = s.queues := rfl
@[simp] theorem memPut_arrs (m : Fin 128) (x : Member) : (memPut m x s).arrs = s.arrs := rfl
@[simp] theorem memPut_vols (m : Fin 128) (x : Member) : (memPut m x s).vols = s.vols := rfl
@[simp] theorem memPut_canvas (m : Fin 128) (x : Member) : (memPut m x s).canvas = s.canvas := rfl
@[simp] theorem memPut_skb (m : Fin 128) (x : Member) : (memPut m x s).skb = s.skb := rfl
@[simp] theorem memPut_studios (m : Fin 128) (x : Member) : (memPut m x s).studios = s.studios := rfl
@[simp] theorem memPut_referee (m : Fin 128) (x : Member) : (memPut m x s).referee = s.referee := rfl
@[simp] theorem memPut_roster (m : Fin 128) (x : Member) : (memPut m x s).roster = s.roster := rfl
@[simp] theorem memPut_regions (m : Fin 128) (x : Member) : (memPut m x s).regions = s.regions := rfl
@[simp] theorem memPut_ring (m : Fin 128) (x : Member) : (memPut m x s).ring = s.ring := rfl
@[simp] theorem memPut_palette (m : Fin 128) (x : Member) : (memPut m x s).palette = s.palette := rfl
@[simp] theorem memPut_freeCtr (m : Fin 128) (x : Member) : (memPut m x s).freeCtr = s.freeCtr := rfl

@[simp] theorem portPut_pending (p : Fin 8) (x : Port) : (portPut p x s).pending = s.pending := rfl
@[simp] theorem portPut_power (p : Fin 8) (x : Port) : (portPut p x s).power = s.power := rfl
@[simp] theorem portPut_standby (p : Fin 8) (x : Port) : (portPut p x s).standby = s.standby := rfl
@[simp] theorem portPut_clk (p : Fin 8) (x : Port) : (portPut p x s).clk = s.clk := rfl
@[simp] theorem portPut_restart (p : Fin 8) (x : Port) : (portPut p x s).restart = s.restart := rfl
@[simp] theorem portPut_ident (p : Fin 8) (x : Port) : (portPut p x s).ident = s.ident := rfl
@[simp] theorem portPut_nv (p : Fin 8) (x : Port) : (portPut p x s).nv = s.nv := rfl
@[simp] theorem portPut_log (p : Fin 8) (x : Port) : (portPut p x s).log = s.log := rfl
@[simp] theorem portPut_pathC (p : Fin 8) (x : Port) : (portPut p x s).pathC = s.pathC := rfl
@[simp] theorem portPut_pathM (p : Fin 8) (x : Port) : (portPut p x s).pathM = s.pathM := rfl
@[simp] theorem portPut_cport (p : Fin 8) (x : Port) : (portPut p x s).cport = s.cport := rfl
@[simp] theorem portPut_mgmt (p : Fin 8) (x : Port) : (portPut p x s).mgmt = s.mgmt := rfl
@[simp] theorem portPut_scratch (p : Fin 8) (x : Port) : (portPut p x s).scratch = s.scratch := rfl
@[simp] theorem portPut_hbu (p : Fin 8) (x : Port) : (portPut p x s).hbu = s.hbu := rfl
@[simp] theorem portPut_ledger (p : Fin 8) (x : Port) : (portPut p x s).ledger = s.ledger := rfl
@[simp] theorem portPut_dma (p : Fin 8) (x : Port) : (portPut p x s).dma = s.dma := rfl
@[simp] theorem portPut_queues (p : Fin 8) (x : Port) : (portPut p x s).queues = s.queues := rfl
@[simp] theorem portPut_arrs (p : Fin 8) (x : Port) : (portPut p x s).arrs = s.arrs := rfl
@[simp] theorem portPut_vols (p : Fin 8) (x : Port) : (portPut p x s).vols = s.vols := rfl
@[simp] theorem portPut_canvas (p : Fin 8) (x : Port) : (portPut p x s).canvas = s.canvas := rfl
@[simp] theorem portPut_skb (p : Fin 8) (x : Port) : (portPut p x s).skb = s.skb := rfl
@[simp] theorem portPut_studios (p : Fin 8) (x : Port) : (portPut p x s).studios = s.studios := rfl
@[simp] theorem portPut_referee (p : Fin 8) (x : Port) : (portPut p x s).referee = s.referee := rfl
@[simp] theorem portPut_roster (p : Fin 8) (x : Port) : (portPut p x s).roster = s.roster := rfl
@[simp] theorem portPut_regions (p : Fin 8) (x : Port) : (portPut p x s).regions = s.regions := rfl
@[simp] theorem portPut_ring (p : Fin 8) (x : Port) : (portPut p x s).ring = s.ring := rfl
@[simp] theorem portPut_palette (p : Fin 8) (x : Port) : (portPut p x s).palette = s.palette := rfl
@[simp] theorem portPut_freeCtr (p : Fin 8) (x : Port) : (portPut p x s).freeCtr = s.freeCtr := rfl

@[simp] theorem volPut_pending (v : Fin 64) (x : Vol) : (volPut v x s).pending = s.pending := rfl
@[simp] theorem volPut_power (v : Fin 64) (x : Vol) : (volPut v x s).power = s.power := rfl
@[simp] theorem volPut_standby (v : Fin 64) (x : Vol) : (volPut v x s).standby = s.standby := rfl
@[simp] theorem volPut_clk (v : Fin 64) (x : Vol) : (volPut v x s).clk = s.clk := rfl
@[simp] theorem volPut_restart (v : Fin 64) (x : Vol) : (volPut v x s).restart = s.restart := rfl
@[simp] theorem volPut_ident (v : Fin 64) (x : Vol) : (volPut v x s).ident = s.ident := rfl
@[simp] theorem volPut_nv (v : Fin 64) (x : Vol) : (volPut v x s).nv = s.nv := rfl
@[simp] theorem volPut_log (v : Fin 64) (x : Vol) : (volPut v x s).log = s.log := rfl
@[simp] theorem volPut_pathC (v : Fin 64) (x : Vol) : (volPut v x s).pathC = s.pathC := rfl
@[simp] theorem volPut_pathM (v : Fin 64) (x : Vol) : (volPut v x s).pathM = s.pathM := rfl
@[simp] theorem volPut_cport (v : Fin 64) (x : Vol) : (volPut v x s).cport = s.cport := rfl
@[simp] theorem volPut_mgmt (v : Fin 64) (x : Vol) : (volPut v x s).mgmt = s.mgmt := rfl
@[simp] theorem volPut_scratch (v : Fin 64) (x : Vol) : (volPut v x s).scratch = s.scratch := rfl
@[simp] theorem volPut_hbu (v : Fin 64) (x : Vol) : (volPut v x s).hbu = s.hbu := rfl
@[simp] theorem volPut_ledger (v : Fin 64) (x : Vol) : (volPut v x s).ledger = s.ledger := rfl
@[simp] theorem volPut_dma (v : Fin 64) (x : Vol) : (volPut v x s).dma = s.dma := rfl
@[simp] theorem volPut_queues (v : Fin 64) (x : Vol) : (volPut v x s).queues = s.queues := rfl
@[simp] theorem volPut_members (v : Fin 64) (x : Vol) : (volPut v x s).members = s.members := rfl
@[simp] theorem volPut_arrs (v : Fin 64) (x : Vol) : (volPut v x s).arrs = s.arrs := rfl
@[simp] theorem volPut_canvas (v : Fin 64) (x : Vol) : (volPut v x s).canvas = s.canvas := rfl
@[simp] theorem volPut_skb (v : Fin 64) (x : Vol) : (volPut v x s).skb = s.skb := rfl
@[simp] theorem volPut_studios (v : Fin 64) (x : Vol) : (volPut v x s).studios = s.studios := rfl
@[simp] theorem volPut_referee (v : Fin 64) (x : Vol) : (volPut v x s).referee = s.referee := rfl
@[simp] theorem volPut_roster (v : Fin 64) (x : Vol) : (volPut v x s).roster = s.roster := rfl
@[simp] theorem volPut_regions (v : Fin 64) (x : Vol) : (volPut v x s).regions = s.regions := rfl
@[simp] theorem volPut_ring (v : Fin 64) (x : Vol) : (volPut v x s).ring = s.ring := rfl
@[simp] theorem volPut_palette (v : Fin 64) (x : Vol) : (volPut v x s).palette = s.palette := rfl
@[simp] theorem volPut_freeCtr (v : Fin 64) (x : Vol) : (volPut v x s).freeCtr = s.freeCtr := rfl

@[simp] theorem chanPut_pending (c : Fin 16) (x : Chan) : (chanPut c x s).pending = s.pending := rfl
@[simp] theorem chanPut_power (c : Fin 16) (x : Chan) : (chanPut c x s).power = s.power := rfl
@[simp] theorem chanPut_standby (c : Fin 16) (x : Chan) : (chanPut c x s).standby = s.standby := rfl
@[simp] theorem chanPut_clk (c : Fin 16) (x : Chan) : (chanPut c x s).clk = s.clk := rfl
@[simp] theorem chanPut_restart (c : Fin 16) (x : Chan) : (chanPut c x s).restart = s.restart := rfl
@[simp] theorem chanPut_ident (c : Fin 16) (x : Chan) : (chanPut c x s).ident = s.ident := rfl
@[simp] theorem chanPut_nv (c : Fin 16) (x : Chan) : (chanPut c x s).nv = s.nv := rfl
@[simp] theorem chanPut_log (c : Fin 16) (x : Chan) : (chanPut c x s).log = s.log := rfl
@[simp] theorem chanPut_pathC (c : Fin 16) (x : Chan) : (chanPut c x s).pathC = s.pathC := rfl
@[simp] theorem chanPut_pathM (c : Fin 16) (x : Chan) : (chanPut c x s).pathM = s.pathM := rfl
@[simp] theorem chanPut_cport (c : Fin 16) (x : Chan) : (chanPut c x s).cport = s.cport := rfl
@[simp] theorem chanPut_mgmt (c : Fin 16) (x : Chan) : (chanPut c x s).mgmt = s.mgmt := rfl
@[simp] theorem chanPut_scratch (c : Fin 16) (x : Chan) : (chanPut c x s).scratch = s.scratch := rfl
@[simp] theorem chanPut_hbu (c : Fin 16) (x : Chan) : (chanPut c x s).hbu = s.hbu := rfl
@[simp] theorem chanPut_ledger (c : Fin 16) (x : Chan) : (chanPut c x s).ledger = s.ledger := rfl
@[simp] theorem chanPut_queues (c : Fin 16) (x : Chan) : (chanPut c x s).queues = s.queues := rfl
@[simp] theorem chanPut_members (c : Fin 16) (x : Chan) : (chanPut c x s).members = s.members := rfl
@[simp] theorem chanPut_arrs (c : Fin 16) (x : Chan) : (chanPut c x s).arrs = s.arrs := rfl
@[simp] theorem chanPut_vols (c : Fin 16) (x : Chan) : (chanPut c x s).vols = s.vols := rfl
@[simp] theorem chanPut_canvas (c : Fin 16) (x : Chan) : (chanPut c x s).canvas = s.canvas := rfl
@[simp] theorem chanPut_skb (c : Fin 16) (x : Chan) : (chanPut c x s).skb = s.skb := rfl
@[simp] theorem chanPut_studios (c : Fin 16) (x : Chan) : (chanPut c x s).studios = s.studios := rfl
@[simp] theorem chanPut_referee (c : Fin 16) (x : Chan) : (chanPut c x s).referee = s.referee := rfl
@[simp] theorem chanPut_roster (c : Fin 16) (x : Chan) : (chanPut c x s).roster = s.roster := rfl
@[simp] theorem chanPut_regions (c : Fin 16) (x : Chan) : (chanPut c x s).regions = s.regions := rfl
@[simp] theorem chanPut_ring (c : Fin 16) (x : Chan) : (chanPut c x s).ring = s.ring := rfl
@[simp] theorem chanPut_palette (c : Fin 16) (x : Chan) : (chanPut c x s).palette = s.palette := rfl
@[simp] theorem chanPut_freeCtr (c : Fin 16) (x : Chan) : (chanPut c x s).freeCtr = s.freeCtr := rfl

@[simp] theorem poolPut_pending (i : Fin 20) (p : Pool) : (poolPut i p s).pending = s.pending := rfl
@[simp] theorem poolPut_power (i : Fin 20) (p : Pool) : (poolPut i p s).power = s.power := rfl
@[simp] theorem poolPut_standby (i : Fin 20) (p : Pool) : (poolPut i p s).standby = s.standby := rfl
@[simp] theorem poolPut_clk (i : Fin 20) (p : Pool) : (poolPut i p s).clk = s.clk := rfl
@[simp] theorem poolPut_restart (i : Fin 20) (p : Pool) : (poolPut i p s).restart = s.restart := rfl
@[simp] theorem poolPut_ident (i : Fin 20) (p : Pool) : (poolPut i p s).ident = s.ident := rfl
@[simp] theorem poolPut_nv (i : Fin 20) (p : Pool) : (poolPut i p s).nv = s.nv := rfl
@[simp] theorem poolPut_log (i : Fin 20) (p : Pool) : (poolPut i p s).log = s.log := rfl
@[simp] theorem poolPut_pathC (i : Fin 20) (p : Pool) : (poolPut i p s).pathC = s.pathC := rfl
@[simp] theorem poolPut_pathM (i : Fin 20) (p : Pool) : (poolPut i p s).pathM = s.pathM := rfl
@[simp] theorem poolPut_cport (i : Fin 20) (p : Pool) : (poolPut i p s).cport = s.cport := rfl
@[simp] theorem poolPut_mgmt (i : Fin 20) (p : Pool) : (poolPut i p s).mgmt = s.mgmt := rfl
@[simp] theorem poolPut_scratch (i : Fin 20) (p : Pool) : (poolPut i p s).scratch = s.scratch := rfl
@[simp] theorem poolPut_hbu (i : Fin 20) (p : Pool) : (poolPut i p s).hbu = s.hbu := rfl
@[simp] theorem poolPut_dma (i : Fin 20) (p : Pool) : (poolPut i p s).dma = s.dma := rfl
@[simp] theorem poolPut_queues (i : Fin 20) (p : Pool) : (poolPut i p s).queues = s.queues := rfl
@[simp] theorem poolPut_members (i : Fin 20) (p : Pool) : (poolPut i p s).members = s.members := rfl
@[simp] theorem poolPut_arrs (i : Fin 20) (p : Pool) : (poolPut i p s).arrs = s.arrs := rfl
@[simp] theorem poolPut_vols (i : Fin 20) (p : Pool) : (poolPut i p s).vols = s.vols := rfl
@[simp] theorem poolPut_canvas (i : Fin 20) (p : Pool) : (poolPut i p s).canvas = s.canvas := rfl
@[simp] theorem poolPut_skb (i : Fin 20) (p : Pool) : (poolPut i p s).skb = s.skb := rfl
@[simp] theorem poolPut_studios (i : Fin 20) (p : Pool) : (poolPut i p s).studios = s.studios := rfl
@[simp] theorem poolPut_referee (i : Fin 20) (p : Pool) : (poolPut i p s).referee = s.referee := rfl
@[simp] theorem poolPut_roster (i : Fin 20) (p : Pool) : (poolPut i p s).roster = s.roster := rfl
@[simp] theorem poolPut_regions (i : Fin 20) (p : Pool) : (poolPut i p s).regions = s.regions := rfl
@[simp] theorem poolPut_ring (i : Fin 20) (p : Pool) : (poolPut i p s).ring = s.ring := rfl
@[simp] theorem poolPut_palette (i : Fin 20) (p : Pool) : (poolPut i p s).palette = s.palette := rfl
@[simp] theorem poolPut_freeCtr (i : Fin 20) (p : Pool) : (poolPut i p s).freeCtr = s.freeCtr := rfl

@[simp] theorem sqPut_pending (q : Fin 32) (x : Sq) : (sqPut q x s).pending = s.pending := rfl
@[simp] theorem sqPut_power (q : Fin 32) (x : Sq) : (sqPut q x s).power = s.power := rfl
@[simp] theorem sqPut_standby (q : Fin 32) (x : Sq) : (sqPut q x s).standby = s.standby := rfl
@[simp] theorem sqPut_clk (q : Fin 32) (x : Sq) : (sqPut q x s).clk = s.clk := rfl
@[simp] theorem sqPut_restart (q : Fin 32) (x : Sq) : (sqPut q x s).restart = s.restart := rfl
@[simp] theorem sqPut_ident (q : Fin 32) (x : Sq) : (sqPut q x s).ident = s.ident := rfl
@[simp] theorem sqPut_nv (q : Fin 32) (x : Sq) : (sqPut q x s).nv = s.nv := rfl
@[simp] theorem sqPut_log (q : Fin 32) (x : Sq) : (sqPut q x s).log = s.log := rfl
@[simp] theorem sqPut_pathC (q : Fin 32) (x : Sq) : (sqPut q x s).pathC = s.pathC := rfl
@[simp] theorem sqPut_pathM (q : Fin 32) (x : Sq) : (sqPut q x s).pathM = s.pathM := rfl
@[simp] theorem sqPut_cport (q : Fin 32) (x : Sq) : (sqPut q x s).cport = s.cport := rfl
@[simp] theorem sqPut_mgmt (q : Fin 32) (x : Sq) : (sqPut q x s).mgmt = s.mgmt := rfl
@[simp] theorem sqPut_scratch (q : Fin 32) (x : Sq) : (sqPut q x s).scratch = s.scratch := rfl
@[simp] theorem sqPut_hbu (q : Fin 32) (x : Sq) : (sqPut q x s).hbu = s.hbu := rfl
@[simp] theorem sqPut_ledger (q : Fin 32) (x : Sq) : (sqPut q x s).ledger = s.ledger := rfl
@[simp] theorem sqPut_dma (q : Fin 32) (x : Sq) : (sqPut q x s).dma = s.dma := rfl
@[simp] theorem sqPut_members (q : Fin 32) (x : Sq) : (sqPut q x s).members = s.members := rfl
@[simp] theorem sqPut_arrs (q : Fin 32) (x : Sq) : (sqPut q x s).arrs = s.arrs := rfl
@[simp] theorem sqPut_vols (q : Fin 32) (x : Sq) : (sqPut q x s).vols = s.vols := rfl
@[simp] theorem sqPut_canvas (q : Fin 32) (x : Sq) : (sqPut q x s).canvas = s.canvas := rfl
@[simp] theorem sqPut_skb (q : Fin 32) (x : Sq) : (sqPut q x s).skb = s.skb := rfl
@[simp] theorem sqPut_studios (q : Fin 32) (x : Sq) : (sqPut q x s).studios = s.studios := rfl
@[simp] theorem sqPut_referee (q : Fin 32) (x : Sq) : (sqPut q x s).referee = s.referee := rfl
@[simp] theorem sqPut_roster (q : Fin 32) (x : Sq) : (sqPut q x s).roster = s.roster := rfl
@[simp] theorem sqPut_regions (q : Fin 32) (x : Sq) : (sqPut q x s).regions = s.regions := rfl
@[simp] theorem sqPut_ring (q : Fin 32) (x : Sq) : (sqPut q x s).ring = s.ring := rfl
@[simp] theorem sqPut_palette (q : Fin 32) (x : Sq) : (sqPut q x s).palette = s.palette := rfl
@[simp] theorem sqPut_freeCtr (q : Fin 32) (x : Sq) : (sqPut q x s).freeCtr = s.freeCtr := rfl

@[simp] theorem cqPut_pending (q : Fin 32) (x : Cq) : (cqPut q x s).pending = s.pending := rfl
@[simp] theorem cqPut_power (q : Fin 32) (x : Cq) : (cqPut q x s).power = s.power := rfl
@[simp] theorem cqPut_standby (q : Fin 32) (x : Cq) : (cqPut q x s).standby = s.standby := rfl
@[simp] theorem cqPut_clk (q : Fin 32) (x : Cq) : (cqPut q x s).clk = s.clk := rfl
@[simp] theorem cqPut_restart (q : Fin 32) (x : Cq) : (cqPut q x s).restart = s.restart := rfl
@[simp] theorem cqPut_ident (q : Fin 32) (x : Cq) : (cqPut q x s).ident = s.ident := rfl
@[simp] theorem cqPut_nv (q : Fin 32) (x : Cq) : (cqPut q x s).nv = s.nv := rfl
@[simp] theorem cqPut_log (q : Fin 32) (x : Cq) : (cqPut q x s).log = s.log := rfl
@[simp] theorem cqPut_pathC (q : Fin 32) (x : Cq) : (cqPut q x s).pathC = s.pathC := rfl
@[simp] theorem cqPut_pathM (q : Fin 32) (x : Cq) : (cqPut q x s).pathM = s.pathM := rfl
@[simp] theorem cqPut_cport (q : Fin 32) (x : Cq) : (cqPut q x s).cport = s.cport := rfl
@[simp] theorem cqPut_mgmt (q : Fin 32) (x : Cq) : (cqPut q x s).mgmt = s.mgmt := rfl
@[simp] theorem cqPut_scratch (q : Fin 32) (x : Cq) : (cqPut q x s).scratch = s.scratch := rfl
@[simp] theorem cqPut_hbu (q : Fin 32) (x : Cq) : (cqPut q x s).hbu = s.hbu := rfl
@[simp] theorem cqPut_ledger (q : Fin 32) (x : Cq) : (cqPut q x s).ledger = s.ledger := rfl
@[simp] theorem cqPut_dma (q : Fin 32) (x : Cq) : (cqPut q x s).dma = s.dma := rfl
@[simp] theorem cqPut_members (q : Fin 32) (x : Cq) : (cqPut q x s).members = s.members := rfl
@[simp] theorem cqPut_arrs (q : Fin 32) (x : Cq) : (cqPut q x s).arrs = s.arrs := rfl
@[simp] theorem cqPut_vols (q : Fin 32) (x : Cq) : (cqPut q x s).vols = s.vols := rfl
@[simp] theorem cqPut_canvas (q : Fin 32) (x : Cq) : (cqPut q x s).canvas = s.canvas := rfl
@[simp] theorem cqPut_skb (q : Fin 32) (x : Cq) : (cqPut q x s).skb = s.skb := rfl
@[simp] theorem cqPut_studios (q : Fin 32) (x : Cq) : (cqPut q x s).studios = s.studios := rfl
@[simp] theorem cqPut_referee (q : Fin 32) (x : Cq) : (cqPut q x s).referee = s.referee := rfl
@[simp] theorem cqPut_roster (q : Fin 32) (x : Cq) : (cqPut q x s).roster = s.roster := rfl
@[simp] theorem cqPut_regions (q : Fin 32) (x : Cq) : (cqPut q x s).regions = s.regions := rfl
@[simp] theorem cqPut_ring (q : Fin 32) (x : Cq) : (cqPut q x s).ring = s.ring := rfl
@[simp] theorem cqPut_palette (q : Fin 32) (x : Cq) : (cqPut q x s).palette = s.palette := rfl
@[simp] theorem cqPut_freeCtr (q : Fin 32) (x : Cq) : (cqPut q x s).freeCtr = s.freeCtr := rfl

@[simp] theorem slotPut_pending (i : Nat) (x : Slot) : (slotPut i x s).pending = s.pending := rfl
@[simp] theorem slotPut_power (i : Nat) (x : Slot) : (slotPut i x s).power = s.power := rfl
@[simp] theorem slotPut_standby (i : Nat) (x : Slot) : (slotPut i x s).standby = s.standby := rfl
@[simp] theorem slotPut_clk (i : Nat) (x : Slot) : (slotPut i x s).clk = s.clk := rfl
@[simp] theorem slotPut_restart (i : Nat) (x : Slot) : (slotPut i x s).restart = s.restart := rfl
@[simp] theorem slotPut_ident (i : Nat) (x : Slot) : (slotPut i x s).ident = s.ident := rfl
@[simp] theorem slotPut_nv (i : Nat) (x : Slot) : (slotPut i x s).nv = s.nv := rfl
@[simp] theorem slotPut_log (i : Nat) (x : Slot) : (slotPut i x s).log = s.log := rfl
@[simp] theorem slotPut_pathC (i : Nat) (x : Slot) : (slotPut i x s).pathC = s.pathC := rfl
@[simp] theorem slotPut_pathM (i : Nat) (x : Slot) : (slotPut i x s).pathM = s.pathM := rfl
@[simp] theorem slotPut_cport (i : Nat) (x : Slot) : (slotPut i x s).cport = s.cport := rfl
@[simp] theorem slotPut_mgmt (i : Nat) (x : Slot) : (slotPut i x s).mgmt = s.mgmt := rfl
@[simp] theorem slotPut_scratch (i : Nat) (x : Slot) : (slotPut i x s).scratch = s.scratch := rfl
@[simp] theorem slotPut_hbu (i : Nat) (x : Slot) : (slotPut i x s).hbu = s.hbu := rfl
@[simp] theorem slotPut_ledger (i : Nat) (x : Slot) : (slotPut i x s).ledger = s.ledger := rfl
@[simp] theorem slotPut_dma (i : Nat) (x : Slot) : (slotPut i x s).dma = s.dma := rfl
@[simp] theorem slotPut_members (i : Nat) (x : Slot) : (slotPut i x s).members = s.members := rfl
@[simp] theorem slotPut_arrs (i : Nat) (x : Slot) : (slotPut i x s).arrs = s.arrs := rfl
@[simp] theorem slotPut_vols (i : Nat) (x : Slot) : (slotPut i x s).vols = s.vols := rfl
@[simp] theorem slotPut_canvas (i : Nat) (x : Slot) : (slotPut i x s).canvas = s.canvas := rfl
@[simp] theorem slotPut_skb (i : Nat) (x : Slot) : (slotPut i x s).skb = s.skb := rfl
@[simp] theorem slotPut_studios (i : Nat) (x : Slot) : (slotPut i x s).studios = s.studios := rfl
@[simp] theorem slotPut_referee (i : Nat) (x : Slot) : (slotPut i x s).referee = s.referee := rfl
@[simp] theorem slotPut_roster (i : Nat) (x : Slot) : (slotPut i x s).roster = s.roster := rfl
@[simp] theorem slotPut_regions (i : Nat) (x : Slot) : (slotPut i x s).regions = s.regions := rfl
@[simp] theorem slotPut_ring (i : Nat) (x : Slot) : (slotPut i x s).ring = s.ring := rfl
@[simp] theorem slotPut_palette (i : Nat) (x : Slot) : (slotPut i x s).palette = s.palette := rfl
@[simp] theorem slotPut_freeCtr (i : Nat) (x : Slot) : (slotPut i x s).freeCtr = s.freeCtr := rfl

@[simp] theorem canvasPut_pending (c : Canvas) : (canvasPut c s).pending = s.pending := rfl
@[simp] theorem canvasPut_power (c : Canvas) : (canvasPut c s).power = s.power := rfl
@[simp] theorem canvasPut_standby (c : Canvas) : (canvasPut c s).standby = s.standby := rfl
@[simp] theorem canvasPut_clk (c : Canvas) : (canvasPut c s).clk = s.clk := rfl
@[simp] theorem canvasPut_restart (c : Canvas) : (canvasPut c s).restart = s.restart := rfl
@[simp] theorem canvasPut_ident (c : Canvas) : (canvasPut c s).ident = s.ident := rfl
@[simp] theorem canvasPut_nv (c : Canvas) : (canvasPut c s).nv = s.nv := rfl
@[simp] theorem canvasPut_log (c : Canvas) : (canvasPut c s).log = s.log := rfl
@[simp] theorem canvasPut_pathC (c : Canvas) : (canvasPut c s).pathC = s.pathC := rfl
@[simp] theorem canvasPut_pathM (c : Canvas) : (canvasPut c s).pathM = s.pathM := rfl
@[simp] theorem canvasPut_cport (c : Canvas) : (canvasPut c s).cport = s.cport := rfl
@[simp] theorem canvasPut_mgmt (c : Canvas) : (canvasPut c s).mgmt = s.mgmt := rfl
@[simp] theorem canvasPut_scratch (c : Canvas) : (canvasPut c s).scratch = s.scratch := rfl
@[simp] theorem canvasPut_hbu (c : Canvas) : (canvasPut c s).hbu = s.hbu := rfl
@[simp] theorem canvasPut_ledger (c : Canvas) : (canvasPut c s).ledger = s.ledger := rfl
@[simp] theorem canvasPut_dma (c : Canvas) : (canvasPut c s).dma = s.dma := rfl
@[simp] theorem canvasPut_queues (c : Canvas) : (canvasPut c s).queues = s.queues := rfl
@[simp] theorem canvasPut_members (c : Canvas) : (canvasPut c s).members = s.members := rfl
@[simp] theorem canvasPut_arrs (c : Canvas) : (canvasPut c s).arrs = s.arrs := rfl
@[simp] theorem canvasPut_vols (c : Canvas) : (canvasPut c s).vols = s.vols := rfl
@[simp] theorem canvasPut_skb (c : Canvas) : (canvasPut c s).skb = s.skb := rfl
@[simp] theorem canvasPut_studios (c : Canvas) : (canvasPut c s).studios = s.studios := rfl
@[simp] theorem canvasPut_referee (c : Canvas) : (canvasPut c s).referee = s.referee := rfl
@[simp] theorem canvasPut_roster (c : Canvas) : (canvasPut c s).roster = s.roster := rfl
@[simp] theorem canvasPut_regions (c : Canvas) : (canvasPut c s).regions = s.regions := rfl
@[simp] theorem canvasPut_ring (c : Canvas) : (canvasPut c s).ring = s.ring := rfl
@[simp] theorem canvasPut_palette (c : Canvas) : (canvasPut c s).palette = s.palette := rfl
@[simp] theorem canvasPut_freeCtr (c : Canvas) : (canvasPut c s).freeCtr = s.freeCtr := rfl

@[simp] theorem tilePut_pending (n : Nat) (t : Tile) : (tilePut n t s).pending = s.pending := rfl
@[simp] theorem tilePut_power (n : Nat) (t : Tile) : (tilePut n t s).power = s.power := rfl
@[simp] theorem tilePut_standby (n : Nat) (t : Tile) : (tilePut n t s).standby = s.standby := rfl
@[simp] theorem tilePut_clk (n : Nat) (t : Tile) : (tilePut n t s).clk = s.clk := rfl
@[simp] theorem tilePut_restart (n : Nat) (t : Tile) : (tilePut n t s).restart = s.restart := rfl
@[simp] theorem tilePut_ident (n : Nat) (t : Tile) : (tilePut n t s).ident = s.ident := rfl
@[simp] theorem tilePut_nv (n : Nat) (t : Tile) : (tilePut n t s).nv = s.nv := rfl
@[simp] theorem tilePut_log (n : Nat) (t : Tile) : (tilePut n t s).log = s.log := rfl
@[simp] theorem tilePut_pathC (n : Nat) (t : Tile) : (tilePut n t s).pathC = s.pathC := rfl
@[simp] theorem tilePut_pathM (n : Nat) (t : Tile) : (tilePut n t s).pathM = s.pathM := rfl
@[simp] theorem tilePut_cport (n : Nat) (t : Tile) : (tilePut n t s).cport = s.cport := rfl
@[simp] theorem tilePut_mgmt (n : Nat) (t : Tile) : (tilePut n t s).mgmt = s.mgmt := rfl
@[simp] theorem tilePut_scratch (n : Nat) (t : Tile) : (tilePut n t s).scratch = s.scratch := rfl
@[simp] theorem tilePut_hbu (n : Nat) (t : Tile) : (tilePut n t s).hbu = s.hbu := rfl
@[simp] theorem tilePut_ledger (n : Nat) (t : Tile) : (tilePut n t s).ledger = s.ledger := rfl
@[simp] theorem tilePut_dma (n : Nat) (t : Tile) : (tilePut n t s).dma = s.dma := rfl
@[simp] theorem tilePut_queues (n : Nat) (t : Tile) : (tilePut n t s).queues = s.queues := rfl
@[simp] theorem tilePut_members (n : Nat) (t : Tile) : (tilePut n t s).members = s.members := rfl
@[simp] theorem tilePut_arrs (n : Nat) (t : Tile) : (tilePut n t s).arrs = s.arrs := rfl
@[simp] theorem tilePut_vols (n : Nat) (t : Tile) : (tilePut n t s).vols = s.vols := rfl
@[simp] theorem tilePut_skb (n : Nat) (t : Tile) : (tilePut n t s).skb = s.skb := rfl
@[simp] theorem tilePut_studios (n : Nat) (t : Tile) : (tilePut n t s).studios = s.studios := rfl
@[simp] theorem tilePut_referee (n : Nat) (t : Tile) : (tilePut n t s).referee = s.referee := rfl
@[simp] theorem tilePut_roster (n : Nat) (t : Tile) : (tilePut n t s).roster = s.roster := rfl
@[simp] theorem tilePut_regions (n : Nat) (t : Tile) : (tilePut n t s).regions = s.regions := rfl
@[simp] theorem tilePut_ring (n : Nat) (t : Tile) : (tilePut n t s).ring = s.ring := rfl
@[simp] theorem tilePut_palette (n : Nat) (t : Tile) : (tilePut n t s).palette = s.palette := rfl
@[simp] theorem tilePut_freeCtr (n : Nat) (t : Tile) : (tilePut n t s).freeCtr = s.freeCtr := rfl

@[simp] theorem pagePut_pending (pg : Nat) (p : Page) : (pagePut pg p s).pending = s.pending := rfl
@[simp] theorem pagePut_power (pg : Nat) (p : Page) : (pagePut pg p s).power = s.power := rfl
@[simp] theorem pagePut_standby (pg : Nat) (p : Page) : (pagePut pg p s).standby = s.standby := rfl
@[simp] theorem pagePut_clk (pg : Nat) (p : Page) : (pagePut pg p s).clk = s.clk := rfl
@[simp] theorem pagePut_restart (pg : Nat) (p : Page) : (pagePut pg p s).restart = s.restart := rfl
@[simp] theorem pagePut_ident (pg : Nat) (p : Page) : (pagePut pg p s).ident = s.ident := rfl
@[simp] theorem pagePut_nv (pg : Nat) (p : Page) : (pagePut pg p s).nv = s.nv := rfl
@[simp] theorem pagePut_log (pg : Nat) (p : Page) : (pagePut pg p s).log = s.log := rfl
@[simp] theorem pagePut_pathC (pg : Nat) (p : Page) : (pagePut pg p s).pathC = s.pathC := rfl
@[simp] theorem pagePut_pathM (pg : Nat) (p : Page) : (pagePut pg p s).pathM = s.pathM := rfl
@[simp] theorem pagePut_cport (pg : Nat) (p : Page) : (pagePut pg p s).cport = s.cport := rfl
@[simp] theorem pagePut_mgmt (pg : Nat) (p : Page) : (pagePut pg p s).mgmt = s.mgmt := rfl
@[simp] theorem pagePut_scratch (pg : Nat) (p : Page) : (pagePut pg p s).scratch = s.scratch := rfl
@[simp] theorem pagePut_hbu (pg : Nat) (p : Page) : (pagePut pg p s).hbu = s.hbu := rfl
@[simp] theorem pagePut_ledger (pg : Nat) (p : Page) : (pagePut pg p s).ledger = s.ledger := rfl
@[simp] theorem pagePut_dma (pg : Nat) (p : Page) : (pagePut pg p s).dma = s.dma := rfl
@[simp] theorem pagePut_queues (pg : Nat) (p : Page) : (pagePut pg p s).queues = s.queues := rfl
@[simp] theorem pagePut_members (pg : Nat) (p : Page) : (pagePut pg p s).members = s.members := rfl
@[simp] theorem pagePut_arrs (pg : Nat) (p : Page) : (pagePut pg p s).arrs = s.arrs := rfl
@[simp] theorem pagePut_vols (pg : Nat) (p : Page) : (pagePut pg p s).vols = s.vols := rfl
@[simp] theorem pagePut_canvas (pg : Nat) (p : Page) : (pagePut pg p s).canvas = s.canvas := rfl
@[simp] theorem pagePut_studios (pg : Nat) (p : Page) : (pagePut pg p s).studios = s.studios := rfl
@[simp] theorem pagePut_referee (pg : Nat) (p : Page) : (pagePut pg p s).referee = s.referee := rfl
@[simp] theorem pagePut_roster (pg : Nat) (p : Page) : (pagePut pg p s).roster = s.roster := rfl
@[simp] theorem pagePut_regions (pg : Nat) (p : Page) : (pagePut pg p s).regions = s.regions := rfl
@[simp] theorem pagePut_ring (pg : Nat) (p : Page) : (pagePut pg p s).ring = s.ring := rfl
@[simp] theorem pagePut_palette (pg : Nat) (p : Page) : (pagePut pg p s).palette = s.palette := rfl
@[simp] theorem pagePut_freeCtr (pg : Nat) (p : Page) : (pagePut pg p s).freeCtr = s.freeCtr := rfl

@[simp] theorem flushPut_pending (f : Flush) : (flushPut f s).pending = s.pending := rfl
@[simp] theorem flushPut_power (f : Flush) : (flushPut f s).power = s.power := rfl
@[simp] theorem flushPut_standby (f : Flush) : (flushPut f s).standby = s.standby := rfl
@[simp] theorem flushPut_clk (f : Flush) : (flushPut f s).clk = s.clk := rfl
@[simp] theorem flushPut_restart (f : Flush) : (flushPut f s).restart = s.restart := rfl
@[simp] theorem flushPut_ident (f : Flush) : (flushPut f s).ident = s.ident := rfl
@[simp] theorem flushPut_nv (f : Flush) : (flushPut f s).nv = s.nv := rfl
@[simp] theorem flushPut_log (f : Flush) : (flushPut f s).log = s.log := rfl
@[simp] theorem flushPut_pathC (f : Flush) : (flushPut f s).pathC = s.pathC := rfl
@[simp] theorem flushPut_pathM (f : Flush) : (flushPut f s).pathM = s.pathM := rfl
@[simp] theorem flushPut_cport (f : Flush) : (flushPut f s).cport = s.cport := rfl
@[simp] theorem flushPut_mgmt (f : Flush) : (flushPut f s).mgmt = s.mgmt := rfl
@[simp] theorem flushPut_scratch (f : Flush) : (flushPut f s).scratch = s.scratch := rfl
@[simp] theorem flushPut_hbu (f : Flush) : (flushPut f s).hbu = s.hbu := rfl
@[simp] theorem flushPut_ledger (f : Flush) : (flushPut f s).ledger = s.ledger := rfl
@[simp] theorem flushPut_dma (f : Flush) : (flushPut f s).dma = s.dma := rfl
@[simp] theorem flushPut_queues (f : Flush) : (flushPut f s).queues = s.queues := rfl
@[simp] theorem flushPut_members (f : Flush) : (flushPut f s).members = s.members := rfl
@[simp] theorem flushPut_arrs (f : Flush) : (flushPut f s).arrs = s.arrs := rfl
@[simp] theorem flushPut_vols (f : Flush) : (flushPut f s).vols = s.vols := rfl
@[simp] theorem flushPut_canvas (f : Flush) : (flushPut f s).canvas = s.canvas := rfl
@[simp] theorem flushPut_studios (f : Flush) : (flushPut f s).studios = s.studios := rfl
@[simp] theorem flushPut_referee (f : Flush) : (flushPut f s).referee = s.referee := rfl
@[simp] theorem flushPut_roster (f : Flush) : (flushPut f s).roster = s.roster := rfl
@[simp] theorem flushPut_regions (f : Flush) : (flushPut f s).regions = s.regions := rfl
@[simp] theorem flushPut_ring (f : Flush) : (flushPut f s).ring = s.ring := rfl
@[simp] theorem flushPut_palette (f : Flush) : (flushPut f s).palette = s.palette := rfl
@[simp] theorem flushPut_freeCtr (f : Flush) : (flushPut f s).freeCtr = s.freeCtr := rfl

@[simp] theorem layPut_pending (i : Fin 32) (l : Layer) : (layPut i l s).pending = s.pending := rfl
@[simp] theorem layPut_power (i : Fin 32) (l : Layer) : (layPut i l s).power = s.power := rfl
@[simp] theorem layPut_standby (i : Fin 32) (l : Layer) : (layPut i l s).standby = s.standby := rfl
@[simp] theorem layPut_clk (i : Fin 32) (l : Layer) : (layPut i l s).clk = s.clk := rfl
@[simp] theorem layPut_restart (i : Fin 32) (l : Layer) : (layPut i l s).restart = s.restart := rfl
@[simp] theorem layPut_ident (i : Fin 32) (l : Layer) : (layPut i l s).ident = s.ident := rfl
@[simp] theorem layPut_nv (i : Fin 32) (l : Layer) : (layPut i l s).nv = s.nv := rfl
@[simp] theorem layPut_log (i : Fin 32) (l : Layer) : (layPut i l s).log = s.log := rfl
@[simp] theorem layPut_pathC (i : Fin 32) (l : Layer) : (layPut i l s).pathC = s.pathC := rfl
@[simp] theorem layPut_pathM (i : Fin 32) (l : Layer) : (layPut i l s).pathM = s.pathM := rfl
@[simp] theorem layPut_cport (i : Fin 32) (l : Layer) : (layPut i l s).cport = s.cport := rfl
@[simp] theorem layPut_mgmt (i : Fin 32) (l : Layer) : (layPut i l s).mgmt = s.mgmt := rfl
@[simp] theorem layPut_scratch (i : Fin 32) (l : Layer) : (layPut i l s).scratch = s.scratch := rfl
@[simp] theorem layPut_hbu (i : Fin 32) (l : Layer) : (layPut i l s).hbu = s.hbu := rfl
@[simp] theorem layPut_ledger (i : Fin 32) (l : Layer) : (layPut i l s).ledger = s.ledger := rfl
@[simp] theorem layPut_dma (i : Fin 32) (l : Layer) : (layPut i l s).dma = s.dma := rfl
@[simp] theorem layPut_queues (i : Fin 32) (l : Layer) : (layPut i l s).queues = s.queues := rfl
@[simp] theorem layPut_members (i : Fin 32) (l : Layer) : (layPut i l s).members = s.members := rfl
@[simp] theorem layPut_arrs (i : Fin 32) (l : Layer) : (layPut i l s).arrs = s.arrs := rfl
@[simp] theorem layPut_vols (i : Fin 32) (l : Layer) : (layPut i l s).vols = s.vols := rfl
@[simp] theorem layPut_canvas (i : Fin 32) (l : Layer) : (layPut i l s).canvas = s.canvas := rfl
@[simp] theorem layPut_skb (i : Fin 32) (l : Layer) : (layPut i l s).skb = s.skb := rfl
@[simp] theorem layPut_studios (i : Fin 32) (l : Layer) : (layPut i l s).studios = s.studios := rfl
@[simp] theorem layPut_referee (i : Fin 32) (l : Layer) : (layPut i l s).referee = s.referee := rfl
@[simp] theorem layPut_roster (i : Fin 32) (l : Layer) : (layPut i l s).roster = s.roster := rfl
@[simp] theorem layPut_regions (i : Fin 32) (l : Layer) : (layPut i l s).regions = s.regions := rfl
@[simp] theorem layPut_ring (i : Fin 32) (l : Layer) : (layPut i l s).ring = s.ring := rfl
@[simp] theorem layPut_freeCtr (i : Fin 32) (l : Layer) : (layPut i l s).freeCtr = s.freeCtr := rfl

@[simp] theorem busPut_pending (b : Fin 8) (x : Bus) : (busPut b x s).pending = s.pending := rfl
@[simp] theorem busPut_power (b : Fin 8) (x : Bus) : (busPut b x s).power = s.power := rfl
@[simp] theorem busPut_standby (b : Fin 8) (x : Bus) : (busPut b x s).standby = s.standby := rfl
@[simp] theorem busPut_clk (b : Fin 8) (x : Bus) : (busPut b x s).clk = s.clk := rfl
@[simp] theorem busPut_restart (b : Fin 8) (x : Bus) : (busPut b x s).restart = s.restart := rfl
@[simp] theorem busPut_ident (b : Fin 8) (x : Bus) : (busPut b x s).ident = s.ident := rfl
@[simp] theorem busPut_nv (b : Fin 8) (x : Bus) : (busPut b x s).nv = s.nv := rfl
@[simp] theorem busPut_log (b : Fin 8) (x : Bus) : (busPut b x s).log = s.log := rfl
@[simp] theorem busPut_pathC (b : Fin 8) (x : Bus) : (busPut b x s).pathC = s.pathC := rfl
@[simp] theorem busPut_pathM (b : Fin 8) (x : Bus) : (busPut b x s).pathM = s.pathM := rfl
@[simp] theorem busPut_cport (b : Fin 8) (x : Bus) : (busPut b x s).cport = s.cport := rfl
@[simp] theorem busPut_mgmt (b : Fin 8) (x : Bus) : (busPut b x s).mgmt = s.mgmt := rfl
@[simp] theorem busPut_scratch (b : Fin 8) (x : Bus) : (busPut b x s).scratch = s.scratch := rfl
@[simp] theorem busPut_hbu (b : Fin 8) (x : Bus) : (busPut b x s).hbu = s.hbu := rfl
@[simp] theorem busPut_ledger (b : Fin 8) (x : Bus) : (busPut b x s).ledger = s.ledger := rfl
@[simp] theorem busPut_dma (b : Fin 8) (x : Bus) : (busPut b x s).dma = s.dma := rfl
@[simp] theorem busPut_queues (b : Fin 8) (x : Bus) : (busPut b x s).queues = s.queues := rfl
@[simp] theorem busPut_members (b : Fin 8) (x : Bus) : (busPut b x s).members = s.members := rfl
@[simp] theorem busPut_arrs (b : Fin 8) (x : Bus) : (busPut b x s).arrs = s.arrs := rfl
@[simp] theorem busPut_vols (b : Fin 8) (x : Bus) : (busPut b x s).vols = s.vols := rfl
@[simp] theorem busPut_canvas (b : Fin 8) (x : Bus) : (busPut b x s).canvas = s.canvas := rfl
@[simp] theorem busPut_skb (b : Fin 8) (x : Bus) : (busPut b x s).skb = s.skb := rfl
@[simp] theorem busPut_studios (b : Fin 8) (x : Bus) : (busPut b x s).studios = s.studios := rfl
@[simp] theorem busPut_referee (b : Fin 8) (x : Bus) : (busPut b x s).referee = s.referee := rfl
@[simp] theorem busPut_roster (b : Fin 8) (x : Bus) : (busPut b x s).roster = s.roster := rfl
@[simp] theorem busPut_regions (b : Fin 8) (x : Bus) : (busPut b x s).regions = s.regions := rfl
@[simp] theorem busPut_ring (b : Fin 8) (x : Bus) : (busPut b x s).ring = s.ring := rfl
@[simp] theorem busPut_freeCtr (b : Fin 8) (x : Bus) : (busPut b x s).freeCtr = s.freeCtr := rfl

@[simp] theorem auPut_pending (p : Fin 3) (x : AuPort) : (auPut p x s).pending = s.pending := rfl
@[simp] theorem auPut_power (p : Fin 3) (x : AuPort) : (auPut p x s).power = s.power := rfl
@[simp] theorem auPut_standby (p : Fin 3) (x : AuPort) : (auPut p x s).standby = s.standby := rfl
@[simp] theorem auPut_clk (p : Fin 3) (x : AuPort) : (auPut p x s).clk = s.clk := rfl
@[simp] theorem auPut_restart (p : Fin 3) (x : AuPort) : (auPut p x s).restart = s.restart := rfl
@[simp] theorem auPut_ident (p : Fin 3) (x : AuPort) : (auPut p x s).ident = s.ident := rfl
@[simp] theorem auPut_nv (p : Fin 3) (x : AuPort) : (auPut p x s).nv = s.nv := rfl
@[simp] theorem auPut_log (p : Fin 3) (x : AuPort) : (auPut p x s).log = s.log := rfl
@[simp] theorem auPut_pathC (p : Fin 3) (x : AuPort) : (auPut p x s).pathC = s.pathC := rfl
@[simp] theorem auPut_pathM (p : Fin 3) (x : AuPort) : (auPut p x s).pathM = s.pathM := rfl
@[simp] theorem auPut_cport (p : Fin 3) (x : AuPort) : (auPut p x s).cport = s.cport := rfl
@[simp] theorem auPut_mgmt (p : Fin 3) (x : AuPort) : (auPut p x s).mgmt = s.mgmt := rfl
@[simp] theorem auPut_scratch (p : Fin 3) (x : AuPort) : (auPut p x s).scratch = s.scratch := rfl
@[simp] theorem auPut_hbu (p : Fin 3) (x : AuPort) : (auPut p x s).hbu = s.hbu := rfl
@[simp] theorem auPut_ledger (p : Fin 3) (x : AuPort) : (auPut p x s).ledger = s.ledger := rfl
@[simp] theorem auPut_dma (p : Fin 3) (x : AuPort) : (auPut p x s).dma = s.dma := rfl
@[simp] theorem auPut_queues (p : Fin 3) (x : AuPort) : (auPut p x s).queues = s.queues := rfl
@[simp] theorem auPut_members (p : Fin 3) (x : AuPort) : (auPut p x s).members = s.members := rfl
@[simp] theorem auPut_arrs (p : Fin 3) (x : AuPort) : (auPut p x s).arrs = s.arrs := rfl
@[simp] theorem auPut_vols (p : Fin 3) (x : AuPort) : (auPut p x s).vols = s.vols := rfl
@[simp] theorem auPut_canvas (p : Fin 3) (x : AuPort) : (auPut p x s).canvas = s.canvas := rfl
@[simp] theorem auPut_skb (p : Fin 3) (x : AuPort) : (auPut p x s).skb = s.skb := rfl
@[simp] theorem auPut_studios (p : Fin 3) (x : AuPort) : (auPut p x s).studios = s.studios := rfl
@[simp] theorem auPut_referee (p : Fin 3) (x : AuPort) : (auPut p x s).referee = s.referee := rfl
@[simp] theorem auPut_roster (p : Fin 3) (x : AuPort) : (auPut p x s).roster = s.roster := rfl
@[simp] theorem auPut_regions (p : Fin 3) (x : AuPort) : (auPut p x s).regions = s.regions := rfl
@[simp] theorem auPut_ring (p : Fin 3) (x : AuPort) : (auPut p x s).ring = s.ring := rfl
@[simp] theorem auPut_freeCtr (p : Fin 3) (x : AuPort) : (auPut p x s).freeCtr = s.freeCtr := rfl

@[simp] theorem mgmtPut_pending (r : MgmtRun) : (mgmtPut r s).pending = s.pending := rfl
@[simp] theorem mgmtPut_power (r : MgmtRun) : (mgmtPut r s).power = s.power := rfl
@[simp] theorem mgmtPut_standby (r : MgmtRun) : (mgmtPut r s).standby = s.standby := rfl
@[simp] theorem mgmtPut_clk (r : MgmtRun) : (mgmtPut r s).clk = s.clk := rfl
@[simp] theorem mgmtPut_restart (r : MgmtRun) : (mgmtPut r s).restart = s.restart := rfl
@[simp] theorem mgmtPut_ident (r : MgmtRun) : (mgmtPut r s).ident = s.ident := rfl
@[simp] theorem mgmtPut_nv (r : MgmtRun) : (mgmtPut r s).nv = s.nv := rfl
@[simp] theorem mgmtPut_log (r : MgmtRun) : (mgmtPut r s).log = s.log := rfl
@[simp] theorem mgmtPut_pathC (r : MgmtRun) : (mgmtPut r s).pathC = s.pathC := rfl
@[simp] theorem mgmtPut_pathM (r : MgmtRun) : (mgmtPut r s).pathM = s.pathM := rfl
@[simp] theorem mgmtPut_cport (r : MgmtRun) : (mgmtPut r s).cport = s.cport := rfl
@[simp] theorem mgmtPut_scratch (r : MgmtRun) : (mgmtPut r s).scratch = s.scratch := rfl
@[simp] theorem mgmtPut_hbu (r : MgmtRun) : (mgmtPut r s).hbu = s.hbu := rfl
@[simp] theorem mgmtPut_ledger (r : MgmtRun) : (mgmtPut r s).ledger = s.ledger := rfl
@[simp] theorem mgmtPut_dma (r : MgmtRun) : (mgmtPut r s).dma = s.dma := rfl
@[simp] theorem mgmtPut_queues (r : MgmtRun) : (mgmtPut r s).queues = s.queues := rfl
@[simp] theorem mgmtPut_members (r : MgmtRun) : (mgmtPut r s).members = s.members := rfl
@[simp] theorem mgmtPut_arrs (r : MgmtRun) : (mgmtPut r s).arrs = s.arrs := rfl
@[simp] theorem mgmtPut_vols (r : MgmtRun) : (mgmtPut r s).vols = s.vols := rfl
@[simp] theorem mgmtPut_canvas (r : MgmtRun) : (mgmtPut r s).canvas = s.canvas := rfl
@[simp] theorem mgmtPut_skb (r : MgmtRun) : (mgmtPut r s).skb = s.skb := rfl
@[simp] theorem mgmtPut_studios (r : MgmtRun) : (mgmtPut r s).studios = s.studios := rfl
@[simp] theorem mgmtPut_referee (r : MgmtRun) : (mgmtPut r s).referee = s.referee := rfl
@[simp] theorem mgmtPut_roster (r : MgmtRun) : (mgmtPut r s).roster = s.roster := rfl
@[simp] theorem mgmtPut_regions (r : MgmtRun) : (mgmtPut r s).regions = s.regions := rfl
@[simp] theorem mgmtPut_ring (r : MgmtRun) : (mgmtPut r s).ring = s.ring := rfl
@[simp] theorem mgmtPut_palette (r : MgmtRun) : (mgmtPut r s).palette = s.palette := rfl
@[simp] theorem mgmtPut_freeCtr (r : MgmtRun) : (mgmtPut r s).freeCtr = s.freeCtr := rfl

@[simp] theorem pendPut_pending (st : Fin 8) (n : Nat) (t : Bool) : (pendPut st n t s).pending = s.pending := rfl
@[simp] theorem pendPut_power (st : Fin 8) (n : Nat) (t : Bool) : (pendPut st n t s).power = s.power := rfl
@[simp] theorem pendPut_standby (st : Fin 8) (n : Nat) (t : Bool) : (pendPut st n t s).standby = s.standby := rfl
@[simp] theorem pendPut_clk (st : Fin 8) (n : Nat) (t : Bool) : (pendPut st n t s).clk = s.clk := rfl
@[simp] theorem pendPut_restart (st : Fin 8) (n : Nat) (t : Bool) : (pendPut st n t s).restart = s.restart := rfl
@[simp] theorem pendPut_ident (st : Fin 8) (n : Nat) (t : Bool) : (pendPut st n t s).ident = s.ident := rfl
@[simp] theorem pendPut_nv (st : Fin 8) (n : Nat) (t : Bool) : (pendPut st n t s).nv = s.nv := rfl
@[simp] theorem pendPut_log (st : Fin 8) (n : Nat) (t : Bool) : (pendPut st n t s).log = s.log := rfl
@[simp] theorem pendPut_pathC (st : Fin 8) (n : Nat) (t : Bool) : (pendPut st n t s).pathC = s.pathC := rfl
@[simp] theorem pendPut_pathM (st : Fin 8) (n : Nat) (t : Bool) : (pendPut st n t s).pathM = s.pathM := rfl
@[simp] theorem pendPut_cport (st : Fin 8) (n : Nat) (t : Bool) : (pendPut st n t s).cport = s.cport := rfl
@[simp] theorem pendPut_mgmt (st : Fin 8) (n : Nat) (t : Bool) : (pendPut st n t s).mgmt = s.mgmt := rfl
@[simp] theorem pendPut_scratch (st : Fin 8) (n : Nat) (t : Bool) : (pendPut st n t s).scratch = s.scratch := rfl
@[simp] theorem pendPut_hbu (st : Fin 8) (n : Nat) (t : Bool) : (pendPut st n t s).hbu = s.hbu := rfl
@[simp] theorem pendPut_ledger (st : Fin 8) (n : Nat) (t : Bool) : (pendPut st n t s).ledger = s.ledger := rfl
@[simp] theorem pendPut_dma (st : Fin 8) (n : Nat) (t : Bool) : (pendPut st n t s).dma = s.dma := rfl
@[simp] theorem pendPut_members (st : Fin 8) (n : Nat) (t : Bool) : (pendPut st n t s).members = s.members := rfl
@[simp] theorem pendPut_arrs (st : Fin 8) (n : Nat) (t : Bool) : (pendPut st n t s).arrs = s.arrs := rfl
@[simp] theorem pendPut_vols (st : Fin 8) (n : Nat) (t : Bool) : (pendPut st n t s).vols = s.vols := rfl
@[simp] theorem pendPut_canvas (st : Fin 8) (n : Nat) (t : Bool) : (pendPut st n t s).canvas = s.canvas := rfl
@[simp] theorem pendPut_skb (st : Fin 8) (n : Nat) (t : Bool) : (pendPut st n t s).skb = s.skb := rfl
@[simp] theorem pendPut_studios (st : Fin 8) (n : Nat) (t : Bool) : (pendPut st n t s).studios = s.studios := rfl
@[simp] theorem pendPut_referee (st : Fin 8) (n : Nat) (t : Bool) : (pendPut st n t s).referee = s.referee := rfl
@[simp] theorem pendPut_roster (st : Fin 8) (n : Nat) (t : Bool) : (pendPut st n t s).roster = s.roster := rfl
@[simp] theorem pendPut_regions (st : Fin 8) (n : Nat) (t : Bool) : (pendPut st n t s).regions = s.regions := rfl
@[simp] theorem pendPut_ring (st : Fin 8) (n : Nat) (t : Bool) : (pendPut st n t s).ring = s.ring := rfl
@[simp] theorem pendPut_palette (st : Fin 8) (n : Nat) (t : Bool) : (pendPut st n t s).palette = s.palette := rfl
@[simp] theorem pendPut_freeCtr (st : Fin 8) (n : Nat) (t : Bool) : (pendPut st n t s).freeCtr = s.freeCtr := rfl

@[simp] theorem reqPut_pending (r u : RReq) : (reqPut r u s).pending = s.pending := rfl
@[simp] theorem reqPut_power (r u : RReq) : (reqPut r u s).power = s.power := rfl
@[simp] theorem reqPut_standby (r u : RReq) : (reqPut r u s).standby = s.standby := rfl
@[simp] theorem reqPut_clk (r u : RReq) : (reqPut r u s).clk = s.clk := rfl
@[simp] theorem reqPut_restart (r u : RReq) : (reqPut r u s).restart = s.restart := rfl
@[simp] theorem reqPut_ident (r u : RReq) : (reqPut r u s).ident = s.ident := rfl
@[simp] theorem reqPut_nv (r u : RReq) : (reqPut r u s).nv = s.nv := rfl
@[simp] theorem reqPut_log (r u : RReq) : (reqPut r u s).log = s.log := rfl
@[simp] theorem reqPut_pathC (r u : RReq) : (reqPut r u s).pathC = s.pathC := rfl
@[simp] theorem reqPut_pathM (r u : RReq) : (reqPut r u s).pathM = s.pathM := rfl
@[simp] theorem reqPut_cport (r u : RReq) : (reqPut r u s).cport = s.cport := rfl
@[simp] theorem reqPut_mgmt (r u : RReq) : (reqPut r u s).mgmt = s.mgmt := rfl
@[simp] theorem reqPut_scratch (r u : RReq) : (reqPut r u s).scratch = s.scratch := rfl
@[simp] theorem reqPut_hbu (r u : RReq) : (reqPut r u s).hbu = s.hbu := rfl
@[simp] theorem reqPut_ledger (r u : RReq) : (reqPut r u s).ledger = s.ledger := rfl
@[simp] theorem reqPut_dma (r u : RReq) : (reqPut r u s).dma = s.dma := rfl
@[simp] theorem reqPut_queues (r u : RReq) : (reqPut r u s).queues = s.queues := rfl
@[simp] theorem reqPut_members (r u : RReq) : (reqPut r u s).members = s.members := rfl
@[simp] theorem reqPut_arrs (r u : RReq) : (reqPut r u s).arrs = s.arrs := rfl
@[simp] theorem reqPut_vols (r u : RReq) : (reqPut r u s).vols = s.vols := rfl
@[simp] theorem reqPut_canvas (r u : RReq) : (reqPut r u s).canvas = s.canvas := rfl
@[simp] theorem reqPut_skb (r u : RReq) : (reqPut r u s).skb = s.skb := rfl
@[simp] theorem reqPut_studios (r u : RReq) : (reqPut r u s).studios = s.studios := rfl
@[simp] theorem reqPut_referee (r u : RReq) : (reqPut r u s).referee = s.referee := rfl
@[simp] theorem reqPut_roster (r u : RReq) : (reqPut r u s).roster = s.roster := rfl
@[simp] theorem reqPut_regions (r u : RReq) : (reqPut r u s).regions = s.regions := rfl
@[simp] theorem reqPut_palette (r u : RReq) : (reqPut r u s).palette = s.palette := rfl
@[simp] theorem reqPut_freeCtr (r u : RReq) : (reqPut r u s).freeCtr = s.freeCtr := rfl

@[simp] theorem servedPut_pending (v u : Served) : (servedPut v u s).pending = s.pending := rfl
@[simp] theorem servedPut_power (v u : Served) : (servedPut v u s).power = s.power := rfl
@[simp] theorem servedPut_standby (v u : Served) : (servedPut v u s).standby = s.standby := rfl
@[simp] theorem servedPut_clk (v u : Served) : (servedPut v u s).clk = s.clk := rfl
@[simp] theorem servedPut_restart (v u : Served) : (servedPut v u s).restart = s.restart := rfl
@[simp] theorem servedPut_ident (v u : Served) : (servedPut v u s).ident = s.ident := rfl
@[simp] theorem servedPut_nv (v u : Served) : (servedPut v u s).nv = s.nv := rfl
@[simp] theorem servedPut_log (v u : Served) : (servedPut v u s).log = s.log := rfl
@[simp] theorem servedPut_pathC (v u : Served) : (servedPut v u s).pathC = s.pathC := rfl
@[simp] theorem servedPut_pathM (v u : Served) : (servedPut v u s).pathM = s.pathM := rfl
@[simp] theorem servedPut_cport (v u : Served) : (servedPut v u s).cport = s.cport := rfl
@[simp] theorem servedPut_mgmt (v u : Served) : (servedPut v u s).mgmt = s.mgmt := rfl
@[simp] theorem servedPut_scratch (v u : Served) : (servedPut v u s).scratch = s.scratch := rfl
@[simp] theorem servedPut_hbu (v u : Served) : (servedPut v u s).hbu = s.hbu := rfl
@[simp] theorem servedPut_ledger (v u : Served) : (servedPut v u s).ledger = s.ledger := rfl
@[simp] theorem servedPut_dma (v u : Served) : (servedPut v u s).dma = s.dma := rfl
@[simp] theorem servedPut_queues (v u : Served) : (servedPut v u s).queues = s.queues := rfl
@[simp] theorem servedPut_members (v u : Served) : (servedPut v u s).members = s.members := rfl
@[simp] theorem servedPut_arrs (v u : Served) : (servedPut v u s).arrs = s.arrs := rfl
@[simp] theorem servedPut_vols (v u : Served) : (servedPut v u s).vols = s.vols := rfl
@[simp] theorem servedPut_canvas (v u : Served) : (servedPut v u s).canvas = s.canvas := rfl
@[simp] theorem servedPut_skb (v u : Served) : (servedPut v u s).skb = s.skb := rfl
@[simp] theorem servedPut_studios (v u : Served) : (servedPut v u s).studios = s.studios := rfl
@[simp] theorem servedPut_referee (v u : Served) : (servedPut v u s).referee = s.referee := rfl
@[simp] theorem servedPut_roster (v u : Served) : (servedPut v u s).roster = s.roster := rfl
@[simp] theorem servedPut_regions (v u : Served) : (servedPut v u s).regions = s.regions := rfl
@[simp] theorem servedPut_palette (v u : Served) : (servedPut v u s).palette = s.palette := rfl
@[simp] theorem servedPut_freeCtr (v u : Served) : (servedPut v u s).freeCtr = s.freeCtr := rfl

@[simp] theorem pathPut_pending (p : Path) (r : PathRegs) : (pathPut p r s).pending = s.pending := by cases p <;> rfl
@[simp] theorem pathPut_power (p : Path) (r : PathRegs) : (pathPut p r s).power = s.power := by cases p <;> rfl
@[simp] theorem pathPut_standby (p : Path) (r : PathRegs) : (pathPut p r s).standby = s.standby := by cases p <;> rfl
@[simp] theorem pathPut_clk (p : Path) (r : PathRegs) : (pathPut p r s).clk = s.clk := by cases p <;> rfl
@[simp] theorem pathPut_restart (p : Path) (r : PathRegs) : (pathPut p r s).restart = s.restart := by cases p <;> rfl
@[simp] theorem pathPut_ident (p : Path) (r : PathRegs) : (pathPut p r s).ident = s.ident := by cases p <;> rfl
@[simp] theorem pathPut_nv (p : Path) (r : PathRegs) : (pathPut p r s).nv = s.nv := by cases p <;> rfl
@[simp] theorem pathPut_log (p : Path) (r : PathRegs) : (pathPut p r s).log = s.log := by cases p <;> rfl
@[simp] theorem pathPut_cport (p : Path) (r : PathRegs) : (pathPut p r s).cport = s.cport := by cases p <;> rfl
@[simp] theorem pathPut_mgmt (p : Path) (r : PathRegs) : (pathPut p r s).mgmt = s.mgmt := by cases p <;> rfl
@[simp] theorem pathPut_scratch (p : Path) (r : PathRegs) : (pathPut p r s).scratch = s.scratch := by cases p <;> rfl
@[simp] theorem pathPut_hbu (p : Path) (r : PathRegs) : (pathPut p r s).hbu = s.hbu := by cases p <;> rfl
@[simp] theorem pathPut_ledger (p : Path) (r : PathRegs) : (pathPut p r s).ledger = s.ledger := by cases p <;> rfl
@[simp] theorem pathPut_dma (p : Path) (r : PathRegs) : (pathPut p r s).dma = s.dma := by cases p <;> rfl
@[simp] theorem pathPut_queues (p : Path) (r : PathRegs) : (pathPut p r s).queues = s.queues := by cases p <;> rfl
@[simp] theorem pathPut_members (p : Path) (r : PathRegs) : (pathPut p r s).members = s.members := by cases p <;> rfl
@[simp] theorem pathPut_arrs (p : Path) (r : PathRegs) : (pathPut p r s).arrs = s.arrs := by cases p <;> rfl
@[simp] theorem pathPut_vols (p : Path) (r : PathRegs) : (pathPut p r s).vols = s.vols := by cases p <;> rfl
@[simp] theorem pathPut_canvas (p : Path) (r : PathRegs) : (pathPut p r s).canvas = s.canvas := by cases p <;> rfl
@[simp] theorem pathPut_skb (p : Path) (r : PathRegs) : (pathPut p r s).skb = s.skb := by cases p <;> rfl
@[simp] theorem pathPut_studios (p : Path) (r : PathRegs) : (pathPut p r s).studios = s.studios := by cases p <;> rfl
@[simp] theorem pathPut_referee (p : Path) (r : PathRegs) : (pathPut p r s).referee = s.referee := by cases p <;> rfl
@[simp] theorem pathPut_roster (p : Path) (r : PathRegs) : (pathPut p r s).roster = s.roster := by cases p <;> rfl
@[simp] theorem pathPut_regions (p : Path) (r : PathRegs) : (pathPut p r s).regions = s.regions := by cases p <;> rfl
@[simp] theorem pathPut_ring (p : Path) (r : PathRegs) : (pathPut p r s).ring = s.ring := by cases p <;> rfl
@[simp] theorem pathPut_palette (p : Path) (r : PathRegs) : (pathPut p r s).palette = s.palette := by cases p <;> rfl
@[simp] theorem pathPut_freeCtr (p : Path) (r : PathRegs) : (pathPut p r s).freeCtr = s.freeCtr := by cases p <;> rfl

@[simp] theorem cursorPut_pending (p : Path) (c : Cursor) : (cursorPut p c s).pending = s.pending := by cases p <;> rfl
@[simp] theorem cursorPut_power (p : Path) (c : Cursor) : (cursorPut p c s).power = s.power := by cases p <;> rfl
@[simp] theorem cursorPut_standby (p : Path) (c : Cursor) : (cursorPut p c s).standby = s.standby := by cases p <;> rfl
@[simp] theorem cursorPut_clk (p : Path) (c : Cursor) : (cursorPut p c s).clk = s.clk := by cases p <;> rfl
@[simp] theorem cursorPut_restart (p : Path) (c : Cursor) : (cursorPut p c s).restart = s.restart := by cases p <;> rfl
@[simp] theorem cursorPut_ident (p : Path) (c : Cursor) : (cursorPut p c s).ident = s.ident := by cases p <;> rfl
@[simp] theorem cursorPut_nv (p : Path) (c : Cursor) : (cursorPut p c s).nv = s.nv := by cases p <;> rfl
@[simp] theorem cursorPut_log (p : Path) (c : Cursor) : (cursorPut p c s).log = s.log := by cases p <;> rfl
@[simp] theorem cursorPut_cport (p : Path) (c : Cursor) : (cursorPut p c s).cport = s.cport := by cases p <;> rfl
@[simp] theorem cursorPut_mgmt (p : Path) (c : Cursor) : (cursorPut p c s).mgmt = s.mgmt := by cases p <;> rfl
@[simp] theorem cursorPut_scratch (p : Path) (c : Cursor) : (cursorPut p c s).scratch = s.scratch := by cases p <;> rfl
@[simp] theorem cursorPut_hbu (p : Path) (c : Cursor) : (cursorPut p c s).hbu = s.hbu := by cases p <;> rfl
@[simp] theorem cursorPut_ledger (p : Path) (c : Cursor) : (cursorPut p c s).ledger = s.ledger := by cases p <;> rfl
@[simp] theorem cursorPut_dma (p : Path) (c : Cursor) : (cursorPut p c s).dma = s.dma := by cases p <;> rfl
@[simp] theorem cursorPut_queues (p : Path) (c : Cursor) : (cursorPut p c s).queues = s.queues := by cases p <;> rfl
@[simp] theorem cursorPut_members (p : Path) (c : Cursor) : (cursorPut p c s).members = s.members := by cases p <;> rfl
@[simp] theorem cursorPut_arrs (p : Path) (c : Cursor) : (cursorPut p c s).arrs = s.arrs := by cases p <;> rfl
@[simp] theorem cursorPut_vols (p : Path) (c : Cursor) : (cursorPut p c s).vols = s.vols := by cases p <;> rfl
@[simp] theorem cursorPut_canvas (p : Path) (c : Cursor) : (cursorPut p c s).canvas = s.canvas := by cases p <;> rfl
@[simp] theorem cursorPut_skb (p : Path) (c : Cursor) : (cursorPut p c s).skb = s.skb := by cases p <;> rfl
@[simp] theorem cursorPut_studios (p : Path) (c : Cursor) : (cursorPut p c s).studios = s.studios := by cases p <;> rfl
@[simp] theorem cursorPut_referee (p : Path) (c : Cursor) : (cursorPut p c s).referee = s.referee := by cases p <;> rfl
@[simp] theorem cursorPut_roster (p : Path) (c : Cursor) : (cursorPut p c s).roster = s.roster := by cases p <;> rfl
@[simp] theorem cursorPut_regions (p : Path) (c : Cursor) : (cursorPut p c s).regions = s.regions := by cases p <;> rfl
@[simp] theorem cursorPut_ring (p : Path) (c : Cursor) : (cursorPut p c s).ring = s.ring := by cases p <;> rfl
@[simp] theorem cursorPut_palette (p : Path) (c : Cursor) : (cursorPut p c s).palette = s.palette := by cases p <;> rfl
@[simp] theorem cursorPut_freeCtr (p : Path) (c : Cursor) : (cursorPut p c s).freeCtr = s.freeCtr := by cases p <;> rfl

@[simp] theorem rportPut_pending (fb : Bool) (p : RPort) : (rportPut fb p s).pending = s.pending := by cases fb <;> rfl
@[simp] theorem rportPut_power (fb : Bool) (p : RPort) : (rportPut fb p s).power = s.power := by cases fb <;> rfl
@[simp] theorem rportPut_standby (fb : Bool) (p : RPort) : (rportPut fb p s).standby = s.standby := by cases fb <;> rfl
@[simp] theorem rportPut_clk (fb : Bool) (p : RPort) : (rportPut fb p s).clk = s.clk := by cases fb <;> rfl
@[simp] theorem rportPut_restart (fb : Bool) (p : RPort) : (rportPut fb p s).restart = s.restart := by cases fb <;> rfl
@[simp] theorem rportPut_ident (fb : Bool) (p : RPort) : (rportPut fb p s).ident = s.ident := by cases fb <;> rfl
@[simp] theorem rportPut_nv (fb : Bool) (p : RPort) : (rportPut fb p s).nv = s.nv := by cases fb <;> rfl
@[simp] theorem rportPut_log (fb : Bool) (p : RPort) : (rportPut fb p s).log = s.log := by cases fb <;> rfl
@[simp] theorem rportPut_pathC (fb : Bool) (p : RPort) : (rportPut fb p s).pathC = s.pathC := by cases fb <;> rfl
@[simp] theorem rportPut_pathM (fb : Bool) (p : RPort) : (rportPut fb p s).pathM = s.pathM := by cases fb <;> rfl
@[simp] theorem rportPut_cport (fb : Bool) (p : RPort) : (rportPut fb p s).cport = s.cport := by cases fb <;> rfl
@[simp] theorem rportPut_mgmt (fb : Bool) (p : RPort) : (rportPut fb p s).mgmt = s.mgmt := by cases fb <;> rfl
@[simp] theorem rportPut_scratch (fb : Bool) (p : RPort) : (rportPut fb p s).scratch = s.scratch := by cases fb <;> rfl
@[simp] theorem rportPut_hbu (fb : Bool) (p : RPort) : (rportPut fb p s).hbu = s.hbu := by cases fb <;> rfl
@[simp] theorem rportPut_ledger (fb : Bool) (p : RPort) : (rportPut fb p s).ledger = s.ledger := by cases fb <;> rfl
@[simp] theorem rportPut_dma (fb : Bool) (p : RPort) : (rportPut fb p s).dma = s.dma := by cases fb <;> rfl
@[simp] theorem rportPut_queues (fb : Bool) (p : RPort) : (rportPut fb p s).queues = s.queues := by cases fb <;> rfl
@[simp] theorem rportPut_members (fb : Bool) (p : RPort) : (rportPut fb p s).members = s.members := by cases fb <;> rfl
@[simp] theorem rportPut_arrs (fb : Bool) (p : RPort) : (rportPut fb p s).arrs = s.arrs := by cases fb <;> rfl
@[simp] theorem rportPut_vols (fb : Bool) (p : RPort) : (rportPut fb p s).vols = s.vols := by cases fb <;> rfl
@[simp] theorem rportPut_canvas (fb : Bool) (p : RPort) : (rportPut fb p s).canvas = s.canvas := by cases fb <;> rfl
@[simp] theorem rportPut_skb (fb : Bool) (p : RPort) : (rportPut fb p s).skb = s.skb := by cases fb <;> rfl
@[simp] theorem rportPut_studios (fb : Bool) (p : RPort) : (rportPut fb p s).studios = s.studios := by cases fb <;> rfl
@[simp] theorem rportPut_referee (fb : Bool) (p : RPort) : (rportPut fb p s).referee = s.referee := by cases fb <;> rfl
@[simp] theorem rportPut_roster (fb : Bool) (p : RPort) : (rportPut fb p s).roster = s.roster := by cases fb <;> rfl
@[simp] theorem rportPut_regions (fb : Bool) (p : RPort) : (rportPut fb p s).regions = s.regions := by cases fb <;> rfl
@[simp] theorem rportPut_palette (fb : Bool) (p : RPort) : (rportPut fb p s).palette = s.palette := by cases fb <;> rfl
@[simp] theorem rportPut_freeCtr (fb : Bool) (p : RPort) : (rportPut fb p s).freeCtr = s.freeCtr := by cases fb <;> rfl

@[simp] theorem arrPut_pending (a : Fin 4) (x : Arr) : (arrPut a x s).pending = s.pending := by simp only [arrPut]; split <;> rfl
@[simp] theorem arrPut_power (a : Fin 4) (x : Arr) : (arrPut a x s).power = s.power := by simp only [arrPut]; split <;> rfl
@[simp] theorem arrPut_standby (a : Fin 4) (x : Arr) : (arrPut a x s).standby = s.standby := by simp only [arrPut]; split <;> rfl
@[simp] theorem arrPut_clk (a : Fin 4) (x : Arr) : (arrPut a x s).clk = s.clk := by simp only [arrPut]; split <;> rfl
@[simp] theorem arrPut_restart (a : Fin 4) (x : Arr) : (arrPut a x s).restart = s.restart := by simp only [arrPut]; split <;> rfl
@[simp] theorem arrPut_ident (a : Fin 4) (x : Arr) : (arrPut a x s).ident = s.ident := by simp only [arrPut]; split <;> rfl
@[simp] theorem arrPut_nv (a : Fin 4) (x : Arr) : (arrPut a x s).nv = s.nv := by simp only [arrPut]; split <;> rfl
@[simp] theorem arrPut_pathC (a : Fin 4) (x : Arr) : (arrPut a x s).pathC = s.pathC := by simp only [arrPut]; split <;> rfl
@[simp] theorem arrPut_pathM (a : Fin 4) (x : Arr) : (arrPut a x s).pathM = s.pathM := by simp only [arrPut]; split <;> rfl
@[simp] theorem arrPut_cport (a : Fin 4) (x : Arr) : (arrPut a x s).cport = s.cport := by simp only [arrPut]; split <;> rfl
@[simp] theorem arrPut_mgmt (a : Fin 4) (x : Arr) : (arrPut a x s).mgmt = s.mgmt := by simp only [arrPut]; split <;> rfl
@[simp] theorem arrPut_scratch (a : Fin 4) (x : Arr) : (arrPut a x s).scratch = s.scratch := by simp only [arrPut]; split <;> rfl
@[simp] theorem arrPut_hbu (a : Fin 4) (x : Arr) : (arrPut a x s).hbu = s.hbu := by simp only [arrPut]; split <;> rfl
@[simp] theorem arrPut_ledger (a : Fin 4) (x : Arr) : (arrPut a x s).ledger = s.ledger := by simp only [arrPut]; split <;> rfl
@[simp] theorem arrPut_dma (a : Fin 4) (x : Arr) : (arrPut a x s).dma = s.dma := by simp only [arrPut]; split <;> rfl
@[simp] theorem arrPut_queues (a : Fin 4) (x : Arr) : (arrPut a x s).queues = s.queues := by simp only [arrPut]; split <;> rfl
@[simp] theorem arrPut_members (a : Fin 4) (x : Arr) : (arrPut a x s).members = s.members := by simp only [arrPut]; split <;> rfl
@[simp] theorem arrPut_vols (a : Fin 4) (x : Arr) : (arrPut a x s).vols = s.vols := by simp only [arrPut]; split <;> rfl
@[simp] theorem arrPut_canvas (a : Fin 4) (x : Arr) : (arrPut a x s).canvas = s.canvas := by simp only [arrPut]; split <;> rfl
@[simp] theorem arrPut_skb (a : Fin 4) (x : Arr) : (arrPut a x s).skb = s.skb := by simp only [arrPut]; split <;> rfl
@[simp] theorem arrPut_studios (a : Fin 4) (x : Arr) : (arrPut a x s).studios = s.studios := by simp only [arrPut]; split <;> rfl
@[simp] theorem arrPut_referee (a : Fin 4) (x : Arr) : (arrPut a x s).referee = s.referee := by simp only [arrPut]; split <;> rfl
@[simp] theorem arrPut_roster (a : Fin 4) (x : Arr) : (arrPut a x s).roster = s.roster := by simp only [arrPut]; split <;> rfl
@[simp] theorem arrPut_regions (a : Fin 4) (x : Arr) : (arrPut a x s).regions = s.regions := by simp only [arrPut]; split <;> rfl
@[simp] theorem arrPut_ring (a : Fin 4) (x : Arr) : (arrPut a x s).ring = s.ring := by simp only [arrPut]; split <;> rfl
@[simp] theorem arrPut_palette (a : Fin 4) (x : Arr) : (arrPut a x s).palette = s.palette := by simp only [arrPut]; split <;> rfl
@[simp] theorem arrPut_freeCtr (a : Fin 4) (x : Arr) : (arrPut a x s).freeCtr = s.freeCtr := by simp only [arrPut]; split <;> rfl

end Updates

end Sys2Proof.Machine
end

