-- ==== Sys2Proof/Laws/Access.lean ====
section
/-! SUPPORT. Each accessor pair: what is read after a write, at the same index, at another, and of another kind. -/

namespace Sys2Proof.Machine

section Accessors

set_option Elab.async false

/-- A vector's entry after one entry is set. -/
theorem vector_get_set {α : Type} {n : Nat} (v : Vector α n) (i j : Fin n) (x : α) :
    (v.set i x).get j = if i = j then x else v.get j := by
  simp only [Vector.get_eq_getElem, Vector.getElem_set, Fin.ext_iff]

variable (s : State)

theorem aliasGet_aliasPut (i j : Fin 8) (x : Alias) : aliasGet j (aliasPut i x s) = if i = j then x else aliasGet j s := by
  simp only [aliasGet, aliasPut, vector_get_set]
@[simp] theorem aliasGet_aliasPut_same (i : Fin 8) (x : Alias) : aliasGet i (aliasPut i x s) = x := by simp [aliasGet_aliasPut]
theorem aliasGet_aliasPut_ne (i j : Fin 8) (x : Alias) (h : i ≠ j) : aliasGet j (aliasPut i x s) = aliasGet j s := by simp [aliasGet_aliasPut, h]
theorem studioGet_studioPut (i j : Fin 8) (x : Studio) : studioGet j (studioPut i x s) = if i = j then x else studioGet j s := by
  simp only [studioGet, studioPut, vector_get_set]
@[simp] theorem studioGet_studioPut_same (i : Fin 8) (x : Studio) : studioGet i (studioPut i x s) = x := by simp [studioGet_studioPut]
theorem studioGet_studioPut_ne (i j : Fin 8) (x : Studio) (h : i ≠ j) : studioGet j (studioPut i x s) = studioGet j s := by simp [studioGet_studioPut, h]
theorem memGet_memPut (i j : Fin 128) (x : Member) : memGet j (memPut i x s) = if i = j then x else memGet j s := by
  simp only [memGet, memPut, vector_get_set]
@[simp] theorem memGet_memPut_same (i : Fin 128) (x : Member) : memGet i (memPut i x s) = x := by simp [memGet_memPut]
theorem memGet_memPut_ne (i j : Fin 128) (x : Member) (h : i ≠ j) : memGet j (memPut i x s) = memGet j s := by simp [memGet_memPut, h]
theorem portGet_portPut (i j : Fin 8) (x : Port) : portGet j (portPut i x s) = if i = j then x else portGet j s := by
  simp only [portGet, portPut, vector_get_set]
@[simp] theorem portGet_portPut_same (i : Fin 8) (x : Port) : portGet i (portPut i x s) = x := by simp [portGet_portPut]
theorem portGet_portPut_ne (i j : Fin 8) (x : Port) (h : i ≠ j) : portGet j (portPut i x s) = portGet j s := by simp [portGet_portPut, h]
theorem volGet_volPut (i j : Fin 64) (x : Vol) : volGet j (volPut i x s) = if i = j then x else volGet j s := by
  simp only [volGet, volPut, vector_get_set]
@[simp] theorem volGet_volPut_same (i : Fin 64) (x : Vol) : volGet i (volPut i x s) = x := by simp [volGet_volPut]
theorem volGet_volPut_ne (i j : Fin 64) (x : Vol) (h : i ≠ j) : volGet j (volPut i x s) = volGet j s := by simp [volGet_volPut, h]
theorem chanGet_chanPut (i j : Fin 16) (x : Chan) : chanGet j (chanPut i x s) = if i = j then x else chanGet j s := by
  simp only [chanGet, chanPut, vector_get_set]
@[simp] theorem chanGet_chanPut_same (i : Fin 16) (x : Chan) : chanGet i (chanPut i x s) = x := by simp [chanGet_chanPut]
theorem chanGet_chanPut_ne (i j : Fin 16) (x : Chan) (h : i ≠ j) : chanGet j (chanPut i x s) = chanGet j s := by simp [chanGet_chanPut, h]
theorem poolGet_poolPut (i j : Fin 20) (x : Pool) : poolGet j (poolPut i x s) = if i = j then x else poolGet j s := by
  simp only [poolGet, poolPut, vector_get_set]
@[simp] theorem poolGet_poolPut_same (i : Fin 20) (x : Pool) : poolGet i (poolPut i x s) = x := by simp [poolGet_poolPut]
theorem poolGet_poolPut_ne (i j : Fin 20) (x : Pool) (h : i ≠ j) : poolGet j (poolPut i x s) = poolGet j s := by simp [poolGet_poolPut, h]
theorem sqGet_sqPut (i j : Fin 32) (x : Sq) : sqGet j (sqPut i x s) = if i = j then x else sqGet j s := by
  simp only [sqGet, sqPut, vector_get_set]
@[simp] theorem sqGet_sqPut_same (i : Fin 32) (x : Sq) : sqGet i (sqPut i x s) = x := by simp [sqGet_sqPut]
theorem sqGet_sqPut_ne (i j : Fin 32) (x : Sq) (h : i ≠ j) : sqGet j (sqPut i x s) = sqGet j s := by simp [sqGet_sqPut, h]
theorem cqGet_cqPut (i j : Fin 32) (x : Cq) : cqGet j (cqPut i x s) = if i = j then x else cqGet j s := by
  simp only [cqGet, cqPut, vector_get_set]
@[simp] theorem cqGet_cqPut_same (i : Fin 32) (x : Cq) : cqGet i (cqPut i x s) = x := by simp [cqGet_cqPut]
theorem cqGet_cqPut_ne (i j : Fin 32) (x : Cq) (h : i ≠ j) : cqGet j (cqPut i x s) = cqGet j s := by simp [cqGet_cqPut, h]
theorem layGet_layPut (i j : Fin 32) (x : Layer) : layGet j (layPut i x s) = if i = j then x else layGet j s := by
  simp only [layGet, layPut, vector_get_set]
@[simp] theorem layGet_layPut_same (i : Fin 32) (x : Layer) : layGet i (layPut i x s) = x := by simp [layGet_layPut]
theorem layGet_layPut_ne (i j : Fin 32) (x : Layer) (h : i ≠ j) : layGet j (layPut i x s) = layGet j s := by simp [layGet_layPut, h]
theorem busGet_busPut (i j : Fin 8) (x : Bus) : busGet j (busPut i x s) = if i = j then x else busGet j s := by
  simp only [busGet, busPut, vector_get_set]
@[simp] theorem busGet_busPut_same (i : Fin 8) (x : Bus) : busGet i (busPut i x s) = x := by simp [busGet_busPut]
theorem busGet_busPut_ne (i j : Fin 8) (x : Bus) (h : i ≠ j) : busGet j (busPut i x s) = busGet j s := by simp [busGet_busPut, h]
theorem auGet_auPut (i j : Fin 3) (x : AuPort) : auGet j (auPut i x s) = if i = j then x else auGet j s := by
  simp only [auGet, auPut, vector_get_set]
@[simp] theorem auGet_auPut_same (i : Fin 3) (x : AuPort) : auGet i (auPut i x s) = x := by simp [auGet_auPut]
theorem auGet_auPut_ne (i j : Fin 3) (x : AuPort) (h : i ≠ j) : auGet j (auPut i x s) = auGet j s := by simp [auGet_auPut, h]
@[simp] theorem memGet_portPut (i : Fin 128) (j : Fin 8) (x : Port) : memGet i (portPut j x s) = memGet i s := rfl
@[simp] theorem portGet_memPut (i : Fin 8) (j : Fin 128) (x : Member) : portGet i (memPut j x s) = portGet i s := rfl
@[simp] theorem sqGet_cqPut (i : Fin 32) (j : Fin 32) (x : Cq) : sqGet i (cqPut j x s) = sqGet i s := rfl
@[simp] theorem cqGet_sqPut (i : Fin 32) (j : Fin 32) (x : Sq) : cqGet i (sqPut j x s) = cqGet i s := rfl
@[simp] theorem layGet_busPut (i : Fin 32) (j : Fin 8) (x : Bus) : layGet i (busPut j x s) = layGet i s := rfl
@[simp] theorem busGet_layPut (i : Fin 8) (j : Fin 32) (x : Layer) : busGet i (layPut j x s) = busGet i s := rfl
@[simp] theorem layGet_auPut (i : Fin 32) (j : Fin 3) (x : AuPort) : layGet i (auPut j x s) = layGet i s := rfl
@[simp] theorem auGet_layPut (i : Fin 3) (j : Fin 32) (x : Layer) : auGet i (layPut j x s) = auGet i s := rfl
@[simp] theorem busGet_auPut (i : Fin 8) (j : Fin 3) (x : AuPort) : busGet i (auPut j x s) = busGet i s := rfl
@[simp] theorem auGet_busPut (i : Fin 3) (j : Fin 8) (x : Bus) : auGet i (busPut j x s) = auGet i s := rfl

theorem arrGet_arrPut (i j : Fin 4) (x : Arr) : arrGet j (arrPut i x s) = if i = j then x else arrGet j s := by
  have h : (arrPut i x s).arrs = s.arrs.set i x := by simp only [arrPut]; split <;> rfl
  simp only [arrGet, h, vector_get_set]
@[simp] theorem arrGet_arrPut_same (i : Fin 4) (x : Arr) : arrGet i (arrPut i x s) = x := by simp [arrGet_arrPut]
theorem arrGet_arrPut_ne (i j : Fin 4) (x : Arr) (h : i ≠ j) : arrGet j (arrPut i x s) = arrGet j s := by
  simp [arrGet_arrPut, h]
@[simp] theorem pathGet_pathPut_same (p : Path) (r : PathRegs) : pathGet p (pathPut p r s) = r := by cases p <;> rfl
theorem pathGet_pathPut_ne (p q : Path) (r : PathRegs) (h : p ≠ q) : pathGet q (pathPut p r s) = pathGet q s := by
  cases p <;> cases q <;> first | rfl | exact absurd rfl h
@[simp] theorem pathPut_pathGet (p : Path) : pathPut p (pathGet p s) s = s := by cases p <;> rfl
@[simp] theorem pathPut_pathPut (p : Path) (r u : PathRegs) : pathPut p u (pathPut p r s) = pathPut p u s := by
  cases p <;> rfl
@[simp] theorem rport_rportPut_same (fb : Bool) (q : RPort) : rport fb (rportPut fb q s) = q := by cases fb <;> rfl
@[simp] theorem rport_rportPut_other (fb : Bool) (q : RPort) : rport (!fb) (rportPut fb q s) = rport (!fb) s := by
  cases fb <;> rfl
@[simp] theorem rport_not_rportPut (fb : Bool) (q : RPort) : rport fb (rportPut (!fb) q s) = rport fb s := by
  cases fb <;> rfl
@[simp] theorem rportPut_rportPut (fb : Bool) (q r : RPort) : rportPut fb r (rportPut fb q s) = rportPut fb r s := by
  cases fb <;> rfl
@[simp] theorem rportPut_rport (fb : Bool) : rportPut fb (rport fb s) s = s := by cases fb <;> rfl

/-- The accessor of an entry does not see an update of another component. -/
theorem memGet_congr {t : State} (h : t.members = s.members) (m : Fin 128) : memGet m t = memGet m s := by
  simp only [memGet, h]

end Accessors

end Sys2Proof.Machine
end

