-- ==== Sys2Proof/Laws/Memory.lean ====
section
/-! SUPPORT. The sparse tables and the byte memories: what is read after a write, and that every memory operation keeps
the canonical form. -/

namespace Sys2Proof.Machine

variable {α : Type}

/-! ## Tables -/

theorem kget_kput (k j : Nat) (v : α) (l : List (Nat × α)) :
    kget j (kput k v l) = if k = j then some v else kget j l := by
  induction l with
  | nil => simp only [kput, kget]
  | cons h t ih =>
    obtain ⟨i, w⟩ := h
    simp only [kput]
    split
    · simp only [kget]
    · split
      · subst_vars; simp only [kget]; split <;> rfl
      · simp only [kget, ih]
        split
        · split <;> [omega; rfl]
        · rfl

theorem kget_kdel (k j : Nat) (l : List (Nat × α)) :
    kget j (kdel k l) = if k = j then none else kget j l := by
  induction l with
  | nil => simp only [kdel, kget, ite_self]
  | cons h t ih =>
    obtain ⟨i, w⟩ := h
    simp only [kdel, kget]
    split
    · subst_vars; rw [ih]; split <;> simp only [*]
    · simp only [kget, ih]
      split
      · split <;> [omega; rfl]
      · rfl

@[simp] theorem kget_kput_same (k : Nat) (v : α) (l : List (Nat × α)) : kget k (kput k v l) = some v := by
  simp only [kget_kput, if_true]

theorem kget_kput_ne {k j : Nat} (h : k ≠ j) (v : α) (l : List (Nat × α)) : kget j (kput k v l) = kget j l := by
  simp only [kget_kput, if_neg h]

@[simp] theorem kget_kdel_same (k : Nat) (l : List (Nat × α)) : kget k (kdel k l) = none := by
  simp only [kget_kdel, if_true]

theorem kget_kdel_ne {k j : Nat} (h : k ≠ j) (l : List (Nat × α)) : kget j (kdel k l) = kget j l := by
  simp only [kget_kdel, if_neg h]

/-! ## Byte memories: reads after writes -/

theorem memRead_memWrite (m : List Host.Cell) (a x : Nat) (b : Byte) :
    memRead (memWrite m a b) x = if a = x then b else memRead m x := by
  simp only [memRead, memWrite]
  split
  · subst_vars; simp only [kget_kdel]; split <;> rfl
  · simp only [kget_kput]; split <;> rfl

@[simp] theorem memRead_memWrite_same (m : List Host.Cell) (a : Nat) (b : Byte) : memRead (memWrite m a b) a = b := by
  simp only [memRead_memWrite, if_true]

theorem memRead_memWrite_ne (m : List Host.Cell) {a x : Nat} (b : Byte) (h : a ≠ x) :
    memRead (memWrite m a b) x = memRead m x := by
  simp only [memRead_memWrite, if_neg h]

/-- Outside the bytes written, a list of bytes leaves the memory as it was. -/
theorem memRead_memWriteList_out (l : List Byte) (m : List Host.Cell) (a x : Nat) (h : x < a ∨ a + l.length ≤ x) :
    memRead (memWriteList m a l) x = memRead m x := by
  induction l generalizing m a with
  | nil => rfl
  | cons b t ih =>
    simp only [List.length_cons] at h
    rw [memWriteList, ih _ _ (by omega), memRead_memWrite_ne _ _ (by omega)]

/-- Inside, byte i of the list stands at address a + i. -/
theorem memRead_memWriteList_in (l : List Byte) (m : List Host.Cell) (a i : Nat) (h : i < l.length) :
    memRead (memWriteList m a l) (a + i) = l.getD i 0 := by
  induction l generalizing m a i with
  | nil => simp at h
  | cons b t ih =>
    cases i with
    | zero => rw [memWriteList, memRead_memWriteList_out _ _ _ _ (by omega)]; simp
    | succ i =>
      have := ih (memWrite m a b) (a + 1) i (by simpa using h)
      rw [memWriteList, show a + (i + 1) = a + 1 + i by omega, this]
      simp

/-! ## The canonical form -/

/-- An address lies above the bound of a list that is to take it. -/
def above (lo : Option Nat) (a : Nat) : Prop := ∀ l, lo = some l → l < a

theorem memWfFrom_cons (lo : Option Nat) (a : Nat) (b : Byte) (t : List Host.Cell) :
    memWfFrom lo ((a, b) :: t) = true ↔ above lo a ∧ b ≠ memDefault ∧ memWfFrom (some a) t = true := by
  cases lo <;> simp [memWfFrom, above, and_assoc]

theorem memWfFrom_weaken {lo lo' : Option Nat} (hl : ∀ a, above lo a → above lo' a) {m : List Host.Cell}
    (h : memWfFrom lo m = true) : memWfFrom lo' m = true := by
  cases m with
  | nil => rfl
  | cons c t =>
    rw [memWfFrom_cons] at h ⊢
    exact ⟨hl _ h.1, h.2⟩

theorem memWfFrom_kdel (a : Nat) : ∀ (m : List Host.Cell) (lo : Option Nat),
    memWfFrom lo m = true → memWfFrom lo (kdel a m) = true
  | [], _, _ => rfl
  | (x, b) :: t, lo, h => by
    rw [memWfFrom_cons] at h
    have ih := memWfFrom_kdel a t (some x) h.2.2
    simp only [kdel]
    split
    · exact memWfFrom_weaken (fun y hy l hl => Nat.lt_trans (h.1 l hl) (hy x rfl)) ih
    · exact (memWfFrom_cons ..).mpr ⟨h.1, h.2.1, ih⟩

theorem memWfFrom_kput (a : Nat) (b : Byte) (hb : b ≠ memDefault) : ∀ (m : List Host.Cell) (lo : Option Nat),
    above lo a → memWfFrom lo m = true → memWfFrom lo (kput a b m) = true
  | [], _, ha, _ => (memWfFrom_cons ..).mpr ⟨ha, hb, rfl⟩
  | (x, c) :: t, lo, ha, h => by
    have hc := (memWfFrom_cons ..).mp h
    simp only [kput]
    split
    · exact (memWfFrom_cons ..).mpr ⟨ha, hb, (memWfFrom_cons ..).mpr ⟨fun l hl => by cases hl; assumption, hc.2⟩⟩
    · split
      · subst_vars
        exact (memWfFrom_cons ..).mpr ⟨ha, hb, hc.2.2⟩
      · refine (memWfFrom_cons ..).mpr ⟨hc.1, hc.2.1, memWfFrom_kput a b hb t (some x) ?_ hc.2.2⟩
        intro l hl
        cases hl
        omega

/-- One byte written keeps the canonical form. -/
theorem memWrite_wf {m : List Host.Cell} (a : Nat) (b : Byte) (h : Memory.wf m = true) :
    Memory.wf (memWrite m a b) = true := by
  simp only [memWrite, Memory.wf]
  split
  · exact memWfFrom_kdel a m none h
  · exact memWfFrom_kput a b (by assumption) m none (fun _ h => by cases h) h

/-- A list of bytes written keeps the canonical form. -/
theorem memWriteList_wf (l : List Byte) {m : List Host.Cell} (a : Nat) (h : Memory.wf m = true) :
    Memory.wf (memWriteList m a l) = true := by
  induction l generalizing m a with
  | nil => exact h
  | cons b t ih => exact ih (a + 1) (memWrite_wf a b h)

/-- The enabled bytes of a word written keep the canonical form. -/
theorem memPutLanes_wf {m : List Host.Cell} (b : Nat) (l : Lanes) (w : Word) (h : Memory.wf m = true) :
    Memory.wf (memPutLanes m b l w) = true := by
  have step : ∀ (ks : List Nat) (m : List Host.Cell), Memory.wf m = true →
      Memory.wf (ks.foldl (fun m k => memWrite m (b + k) (w.extractLsb' (8 * k) 8)) m) = true := by
    intro ks
    induction ks with
    | nil => exact fun _ h => h
    | cons k t ih => exact fun m h => ih _ (memWrite_wf _ _ h)
  exact step _ m h

end Sys2Proof.Machine
end

