-- ==== Sys2Proof/Laws/Shared.lean ====
section
/-! SUPPORT. What the operations that every unit shares leave alone: the log, the pools, sending on the ring, requests,
member states and NV commits. `f_kept` says it of one operation whole; the lemmas after it say it per component. -/

namespace Sys2Proof.Machine

section Frames

set_option Elab.async false

theorem foldl_pending {α : Type} (g : State → α → State) (h : ∀ s a, (g s a).pending = s.pending) (l : List α) (s : State) :
    (l.foldl g s).pending = s.pending := by
  induction l generalizing s with
  | nil => rfl
  | cons a t ih => rw [List.foldl_cons, ih, h]
theorem foldl_power {α : Type} (g : State → α → State) (h : ∀ s a, (g s a).power = s.power) (l : List α) (s : State) :
    (l.foldl g s).power = s.power := by
  induction l generalizing s with
  | nil => rfl
  | cons a t ih => rw [List.foldl_cons, ih, h]
theorem foldl_standby {α : Type} (g : State → α → State) (h : ∀ s a, (g s a).standby = s.standby) (l : List α) (s : State) :
    (l.foldl g s).standby = s.standby := by
  induction l generalizing s with
  | nil => rfl
  | cons a t ih => rw [List.foldl_cons, ih, h]
theorem foldl_clk {α : Type} (g : State → α → State) (h : ∀ s a, (g s a).clk = s.clk) (l : List α) (s : State) :
    (l.foldl g s).clk = s.clk := by
  induction l generalizing s with
  | nil => rfl
  | cons a t ih => rw [List.foldl_cons, ih, h]
theorem foldl_restart {α : Type} (g : State → α → State) (h : ∀ s a, (g s a).restart = s.restart) (l : List α) (s : State) :
    (l.foldl g s).restart = s.restart := by
  induction l generalizing s with
  | nil => rfl
  | cons a t ih => rw [List.foldl_cons, ih, h]
theorem foldl_ident {α : Type} (g : State → α → State) (h : ∀ s a, (g s a).ident = s.ident) (l : List α) (s : State) :
    (l.foldl g s).ident = s.ident := by
  induction l generalizing s with
  | nil => rfl
  | cons a t ih => rw [List.foldl_cons, ih, h]
theorem foldl_nv {α : Type} (g : State → α → State) (h : ∀ s a, (g s a).nv = s.nv) (l : List α) (s : State) :
    (l.foldl g s).nv = s.nv := by
  induction l generalizing s with
  | nil => rfl
  | cons a t ih => rw [List.foldl_cons, ih, h]
theorem foldl_log {α : Type} (g : State → α → State) (h : ∀ s a, (g s a).log = s.log) (l : List α) (s : State) :
    (l.foldl g s).log = s.log := by
  induction l generalizing s with
  | nil => rfl
  | cons a t ih => rw [List.foldl_cons, ih, h]
theorem foldl_pathC {α : Type} (g : State → α → State) (h : ∀ s a, (g s a).pathC = s.pathC) (l : List α) (s : State) :
    (l.foldl g s).pathC = s.pathC := by
  induction l generalizing s with
  | nil => rfl
  | cons a t ih => rw [List.foldl_cons, ih, h]
theorem foldl_pathM {α : Type} (g : State → α → State) (h : ∀ s a, (g s a).pathM = s.pathM) (l : List α) (s : State) :
    (l.foldl g s).pathM = s.pathM := by
  induction l generalizing s with
  | nil => rfl
  | cons a t ih => rw [List.foldl_cons, ih, h]
theorem foldl_cport {α : Type} (g : State → α → State) (h : ∀ s a, (g s a).cport = s.cport) (l : List α) (s : State) :
    (l.foldl g s).cport = s.cport := by
  induction l generalizing s with
  | nil => rfl
  | cons a t ih => rw [List.foldl_cons, ih, h]
theorem foldl_mgmt {α : Type} (g : State → α → State) (h : ∀ s a, (g s a).mgmt = s.mgmt) (l : List α) (s : State) :
    (l.foldl g s).mgmt = s.mgmt := by
  induction l generalizing s with
  | nil => rfl
  | cons a t ih => rw [List.foldl_cons, ih, h]
theorem foldl_scratch {α : Type} (g : State → α → State) (h : ∀ s a, (g s a).scratch = s.scratch) (l : List α) (s : State) :
    (l.foldl g s).scratch = s.scratch := by
  induction l generalizing s with
  | nil => rfl
  | cons a t ih => rw [List.foldl_cons, ih, h]
theorem foldl_hbu {α : Type} (g : State → α → State) (h : ∀ s a, (g s a).hbu = s.hbu) (l : List α) (s : State) :
    (l.foldl g s).hbu = s.hbu := by
  induction l generalizing s with
  | nil => rfl
  | cons a t ih => rw [List.foldl_cons, ih, h]
theorem foldl_ledger {α : Type} (g : State → α → State) (h : ∀ s a, (g s a).ledger = s.ledger) (l : List α) (s : State) :
    (l.foldl g s).ledger = s.ledger := by
  induction l generalizing s with
  | nil => rfl
  | cons a t ih => rw [List.foldl_cons, ih, h]
theorem foldl_dma {α : Type} (g : State → α → State) (h : ∀ s a, (g s a).dma = s.dma) (l : List α) (s : State) :
    (l.foldl g s).dma = s.dma := by
  induction l generalizing s with
  | nil => rfl
  | cons a t ih => rw [List.foldl_cons, ih, h]
theorem foldl_queues {α : Type} (g : State → α → State) (h : ∀ s a, (g s a).queues = s.queues) (l : List α) (s : State) :
    (l.foldl g s).queues = s.queues := by
  induction l generalizing s with
  | nil => rfl
  | cons a t ih => rw [List.foldl_cons, ih, h]
theorem foldl_members {α : Type} (g : State → α → State) (h : ∀ s a, (g s a).members = s.members) (l : List α) (s : State) :
    (l.foldl g s).members = s.members := by
  induction l generalizing s with
  | nil => rfl
  | cons a t ih => rw [List.foldl_cons, ih, h]
theorem foldl_arrs {α : Type} (g : State → α → State) (h : ∀ s a, (g s a).arrs = s.arrs) (l : List α) (s : State) :
    (l.foldl g s).arrs = s.arrs := by
  induction l generalizing s with
  | nil => rfl
  | cons a t ih => rw [List.foldl_cons, ih, h]
theorem foldl_vols {α : Type} (g : State → α → State) (h : ∀ s a, (g s a).vols = s.vols) (l : List α) (s : State) :
    (l.foldl g s).vols = s.vols := by
  induction l generalizing s with
  | nil => rfl
  | cons a t ih => rw [List.foldl_cons, ih, h]
theorem foldl_canvas {α : Type} (g : State → α → State) (h : ∀ s a, (g s a).canvas = s.canvas) (l : List α) (s : State) :
    (l.foldl g s).canvas = s.canvas := by
  induction l generalizing s with
  | nil => rfl
  | cons a t ih => rw [List.foldl_cons, ih, h]
theorem foldl_skb {α : Type} (g : State → α → State) (h : ∀ s a, (g s a).skb = s.skb) (l : List α) (s : State) :
    (l.foldl g s).skb = s.skb := by
  induction l generalizing s with
  | nil => rfl
  | cons a t ih => rw [List.foldl_cons, ih, h]
theorem foldl_studios {α : Type} (g : State → α → State) (h : ∀ s a, (g s a).studios = s.studios) (l : List α) (s : State) :
    (l.foldl g s).studios = s.studios := by
  induction l generalizing s with
  | nil => rfl
  | cons a t ih => rw [List.foldl_cons, ih, h]
theorem foldl_referee {α : Type} (g : State → α → State) (h : ∀ s a, (g s a).referee = s.referee) (l : List α) (s : State) :
    (l.foldl g s).referee = s.referee := by
  induction l generalizing s with
  | nil => rfl
  | cons a t ih => rw [List.foldl_cons, ih, h]
theorem foldl_roster {α : Type} (g : State → α → State) (h : ∀ s a, (g s a).roster = s.roster) (l : List α) (s : State) :
    (l.foldl g s).roster = s.roster := by
  induction l generalizing s with
  | nil => rfl
  | cons a t ih => rw [List.foldl_cons, ih, h]
theorem foldl_regions {α : Type} (g : State → α → State) (h : ∀ s a, (g s a).regions = s.regions) (l : List α) (s : State) :
    (l.foldl g s).regions = s.regions := by
  induction l generalizing s with
  | nil => rfl
  | cons a t ih => rw [List.foldl_cons, ih, h]
theorem foldl_ring {α : Type} (g : State → α → State) (h : ∀ s a, (g s a).ring = s.ring) (l : List α) (s : State) :
    (l.foldl g s).ring = s.ring := by
  induction l generalizing s with
  | nil => rfl
  | cons a t ih => rw [List.foldl_cons, ih, h]
theorem foldl_palette {α : Type} (g : State → α → State) (h : ∀ s a, (g s a).palette = s.palette) (l : List α) (s : State) :
    (l.foldl g s).palette = s.palette := by
  induction l generalizing s with
  | nil => rfl
  | cons a t ih => rw [List.foldl_cons, ih, h]
theorem foldl_freeCtr {α : Type} (g : State → α → State) (h : ∀ s a, (g s a).freeCtr = s.freeCtr) (l : List α) (s : State) :
    (l.foldl g s).freeCtr = s.freeCtr := by
  induction l generalizing s with
  | nil => rfl
  | cons a t ih => rw [List.foldl_cons, ih, h]
theorem sirqSet_kept (st : Fin 8) (b : ℕ) (s : State) :
    (sirqSet st b s).pending = s.pending ∧ (sirqSet st b s).power = s.power ∧ (sirqSet st b s).standby = s.standby ∧
    (sirqSet st b s).clk = s.clk ∧ (sirqSet st b s).restart = s.restart ∧ (sirqSet st b s).ident = s.ident ∧
    (sirqSet st b s).nv = s.nv ∧ (sirqSet st b s).log = s.log ∧ (sirqSet st b s).pathC = s.pathC ∧ (sirqSet st b
    s).pathM = s.pathM ∧ (sirqSet st b s).cport = s.cport ∧ (sirqSet st b s).mgmt = s.mgmt ∧ (sirqSet st b
    s).scratch = s.scratch ∧ (sirqSet st b s).ledger = s.ledger ∧ (sirqSet st b s).dma = s.dma ∧ (sirqSet st b
    s).queues = s.queues ∧ (sirqSet st b s).members = s.members ∧ (sirqSet st b s).arrs = s.arrs ∧ (sirqSet st b
    s).vols = s.vols ∧ (sirqSet st b s).canvas = s.canvas ∧ (sirqSet st b s).skb = s.skb ∧ (sirqSet st b s).studios
    = s.studios ∧ (sirqSet st b s).referee = s.referee ∧ (sirqSet st b s).roster = s.roster ∧ (sirqSet st b
    s).regions = s.regions ∧ (sirqSet st b s).ring = s.ring ∧ (sirqSet st b s).palette = s.palette ∧ (sirqSet st b
    s).freeCtr = s.freeCtr := ⟨rfl, rfl, rfl, rfl, rfl, rfl, rfl, rfl, rfl, rfl, rfl, rfl, rfl, rfl, rfl, rfl, rfl, rfl, rfl, rfl, rfl, rfl, rfl, rfl, rfl, rfl, rfl, rfl⟩
@[simp] theorem sirqSet_pending (st : Fin 8) (b : ℕ) (s : State) : (sirqSet st b s).pending = s.pending := (sirqSet_kept st b s).1
@[simp] theorem sirqSet_power (st : Fin 8) (b : ℕ) (s : State) : (sirqSet st b s).power = s.power := (sirqSet_kept st b s).2.1
@[simp] theorem sirqSet_standby (st : Fin 8) (b : ℕ) (s : State) : (sirqSet st b s).standby = s.standby := (sirqSet_kept st b s).2.2.1
@[simp] theorem sirqSet_clk (st : Fin 8) (b : ℕ) (s : State) : (sirqSet st b s).clk = s.clk := (sirqSet_kept st b s).2.2.2.1
@[simp] theorem sirqSet_restart (st : Fin 8) (b : ℕ) (s : State) : (sirqSet st b s).restart = s.restart := (sirqSet_kept st b s).2.2.2.2.1
@[simp] theorem sirqSet_ident (st : Fin 8) (b : ℕ) (s : State) : (sirqSet st b s).ident = s.ident := (sirqSet_kept st b s).2.2.2.2.2.1
@[simp] theorem sirqSet_nv (st : Fin 8) (b : ℕ) (s : State) : (sirqSet st b s).nv = s.nv := (sirqSet_kept st b s).2.2.2.2.2.2.1
@[simp] theorem sirqSet_log (st : Fin 8) (b : ℕ) (s : State) : (sirqSet st b s).log = s.log := (sirqSet_kept st b s).2.2.2.2.2.2.2.1
@[simp] theorem sirqSet_pathC (st : Fin 8) (b : ℕ) (s : State) : (sirqSet st b s).pathC = s.pathC := (sirqSet_kept st b s).2.2.2.2.2.2.2.2.1
@[simp] theorem sirqSet_pathM (st : Fin 8) (b : ℕ) (s : State) : (sirqSet st b s).pathM = s.pathM := (sirqSet_kept st b s).2.2.2.2.2.2.2.2.2.1
@[simp] theorem sirqSet_cport (st : Fin 8) (b : ℕ) (s : State) : (sirqSet st b s).cport = s.cport := (sirqSet_kept st b s).2.2.2.2.2.2.2.2.2.2.1
@[simp] theorem sirqSet_mgmt (st : Fin 8) (b : ℕ) (s : State) : (sirqSet st b s).mgmt = s.mgmt := (sirqSet_kept st b s).2.2.2.2.2.2.2.2.2.2.2.1
@[simp] theorem sirqSet_scratch (st : Fin 8) (b : ℕ) (s : State) : (sirqSet st b s).scratch = s.scratch := (sirqSet_kept st b s).2.2.2.2.2.2.2.2.2.2.2.2.1
@[simp] theorem sirqSet_ledger (st : Fin 8) (b : ℕ) (s : State) : (sirqSet st b s).ledger = s.ledger := (sirqSet_kept st b s).2.2.2.2.2.2.2.2.2.2.2.2.2.1
@[simp] theorem sirqSet_dma (st : Fin 8) (b : ℕ) (s : State) : (sirqSet st b s).dma = s.dma := (sirqSet_kept st b s).2.2.2.2.2.2.2.2.2.2.2.2.2.2.1
@[simp] theorem sirqSet_queues (st : Fin 8) (b : ℕ) (s : State) : (sirqSet st b s).queues = s.queues := (sirqSet_kept st b s).2.2.2.2.2.2.2.2.2.2.2.2.2.2.2.1
@[simp] theorem sirqSet_members (st : Fin 8) (b : ℕ) (s : State) : (sirqSet st b s).members = s.members := (sirqSet_kept st b s).2.2.2.2.2.2.2.2.2.2.2.2.2.2.2.2.1
@[simp] theorem sirqSet_arrs (st : Fin 8) (b : ℕ) (s : State) : (sirqSet st b s).arrs = s.arrs := (sirqSet_kept st b s).2.2.2.2.2.2.2.2.2.2.2.2.2.2.2.2.2.1
@[simp] theorem sirqSet_vols (st : Fin 8) (b : ℕ) (s : State) : (sirqSet st b s).vols = s.vols := (sirqSet_kept st b s).2.2.2.2.2.2.2.2.2.2.2.2.2.2.2.2.2.2.1
@[simp] theorem sirqSet_canvas (st : Fin 8) (b : ℕ) (s : State) : (sirqSet st b s).canvas = s.canvas := (sirqSet_kept st b s).2.2.2.2.2.2.2.2.2.2.2.2.2.2.2.2.2.2.2.1
@[simp] theorem sirqSet_skb (st : Fin 8) (b : ℕ) (s : State) : (sirqSet st b s).skb = s.skb := (sirqSet_kept st b s).2.2.2.2.2.2.2.2.2.2.2.2.2.2.2.2.2.2.2.2.1
@[simp] theorem sirqSet_studios (st : Fin 8) (b : ℕ) (s : State) : (sirqSet st b s).studios = s.studios := (sirqSet_kept st b s).2.2.2.2.2.2.2.2.2.2.2.2.2.2.2.2.2.2.2.2.2.1
@[simp] theorem sirqSet_referee (st : Fin 8) (b : ℕ) (s : State) : (sirqSet st b s).referee = s.referee := (sirqSet_kept st b s).2.2.2.2.2.2.2.2.2.2.2.2.2.2.2.2.2.2.2.2.2.2.1
@[simp] theorem sirqSet_roster (st : Fin 8) (b : ℕ) (s : State) : (sirqSet st b s).roster = s.roster := (sirqSet_kept st b s).2.2.2.2.2.2.2.2.2.2.2.2.2.2.2.2.2.2.2.2.2.2.2.1
@[simp] theorem sirqSet_regions (st : Fin 8) (b : ℕ) (s : State) : (sirqSet st b s).regions = s.regions := (sirqSet_kept st b s).2.2.2.2.2.2.2.2.2.2.2.2.2.2.2.2.2.2.2.2.2.2.2.2.1
@[simp] theorem sirqSet_ring (st : Fin 8) (b : ℕ) (s : State) : (sirqSet st b s).ring = s.ring := (sirqSet_kept st b s).2.2.2.2.2.2.2.2.2.2.2.2.2.2.2.2.2.2.2.2.2.2.2.2.2.1
@[simp] theorem sirqSet_palette (st : Fin 8) (b : ℕ) (s : State) : (sirqSet st b s).palette = s.palette := (sirqSet_kept st b s).2.2.2.2.2.2.2.2.2.2.2.2.2.2.2.2.2.2.2.2.2.2.2.2.2.2.1
@[simp] theorem sirqSet_freeCtr (st : Fin 8) (b : ℕ) (s : State) : (sirqSet st b s).freeCtr = s.freeCtr := (sirqSet_kept st b s).2.2.2.2.2.2.2.2.2.2.2.2.2.2.2.2.2.2.2.2.2.2.2.2.2.2.2
theorem bbCopy_kept (r : LogRec) (s : State) :
    (bbCopy r s).pending = s.pending ∧ (bbCopy r s).power = s.power ∧ (bbCopy r s).standby = s.standby ∧ (bbCopy r
    s).clk = s.clk ∧ (bbCopy r s).restart = s.restart ∧ (bbCopy r s).ident = s.ident ∧ (bbCopy r s).log = s.log ∧
    (bbCopy r s).pathC = s.pathC ∧ (bbCopy r s).pathM = s.pathM ∧ (bbCopy r s).cport = s.cport ∧ (bbCopy r s).mgmt =
    s.mgmt ∧ (bbCopy r s).scratch = s.scratch ∧ (bbCopy r s).hbu = s.hbu ∧ (bbCopy r s).ledger = s.ledger ∧ (bbCopy
    r s).dma = s.dma ∧ (bbCopy r s).queues = s.queues ∧ (bbCopy r s).members = s.members ∧ (bbCopy r s).arrs =
    s.arrs ∧ (bbCopy r s).vols = s.vols ∧ (bbCopy r s).canvas = s.canvas ∧ (bbCopy r s).skb = s.skb ∧ (bbCopy r
    s).studios = s.studios ∧ (bbCopy r s).referee = s.referee ∧ (bbCopy r s).roster = s.roster ∧ (bbCopy r
    s).regions = s.regions ∧ (bbCopy r s).ring = s.ring ∧ (bbCopy r s).palette = s.palette ∧ (bbCopy r s).freeCtr =
    s.freeCtr := ⟨rfl, rfl, rfl, rfl, rfl, rfl, rfl, rfl, rfl, rfl, rfl, rfl, rfl, rfl, rfl, rfl, rfl, rfl, rfl, rfl, rfl, rfl, rfl, rfl, rfl, rfl, rfl, rfl⟩
@[simp] theorem bbCopy_pending (r : LogRec) (s : State) : (bbCopy r s).pending = s.pending := (bbCopy_kept r s).1
@[simp] theorem bbCopy_power (r : LogRec) (s : State) : (bbCopy r s).power = s.power := (bbCopy_kept r s).2.1
@[simp] theorem bbCopy_standby (r : LogRec) (s : State) : (bbCopy r s).standby = s.standby := (bbCopy_kept r s).2.2.1
@[simp] theorem bbCopy_clk (r : LogRec) (s : State) : (bbCopy r s).clk = s.clk := (bbCopy_kept r s).2.2.2.1
@[simp] theorem bbCopy_restart (r : LogRec) (s : State) : (bbCopy r s).restart = s.restart := (bbCopy_kept r s).2.2.2.2.1
@[simp] theorem bbCopy_ident (r : LogRec) (s : State) : (bbCopy r s).ident = s.ident := (bbCopy_kept r s).2.2.2.2.2.1
@[simp] theorem bbCopy_log (r : LogRec) (s : State) : (bbCopy r s).log = s.log := (bbCopy_kept r s).2.2.2.2.2.2.1
@[simp] theorem bbCopy_pathC (r : LogRec) (s : State) : (bbCopy r s).pathC = s.pathC := (bbCopy_kept r s).2.2.2.2.2.2.2.1
@[simp] theorem bbCopy_pathM (r : LogRec) (s : State) : (bbCopy r s).pathM = s.pathM := (bbCopy_kept r s).2.2.2.2.2.2.2.2.1
@[simp] theorem bbCopy_cport (r : LogRec) (s : State) : (bbCopy r s).cport = s.cport := (bbCopy_kept r s).2.2.2.2.2.2.2.2.2.1
@[simp] theorem bbCopy_mgmt (r : LogRec) (s : State) : (bbCopy r s).mgmt = s.mgmt := (bbCopy_kept r s).2.2.2.2.2.2.2.2.2.2.1
@[simp] theorem bbCopy_scratch (r : LogRec) (s : State) : (bbCopy r s).scratch = s.scratch := (bbCopy_kept r s).2.2.2.2.2.2.2.2.2.2.2.1
@[simp] theorem bbCopy_hbu (r : LogRec) (s : State) : (bbCopy r s).hbu = s.hbu := (bbCopy_kept r s).2.2.2.2.2.2.2.2.2.2.2.2.1
@[simp] theorem bbCopy_ledger (r : LogRec) (s : State) : (bbCopy r s).ledger = s.ledger := (bbCopy_kept r s).2.2.2.2.2.2.2.2.2.2.2.2.2.1
@[simp] theorem bbCopy_dma (r : LogRec) (s : State) : (bbCopy r s).dma = s.dma := (bbCopy_kept r s).2.2.2.2.2.2.2.2.2.2.2.2.2.2.1
@[simp] theorem bbCopy_queues (r : LogRec) (s : State) : (bbCopy r s).queues = s.queues := (bbCopy_kept r s).2.2.2.2.2.2.2.2.2.2.2.2.2.2.2.1
@[simp] theorem bbCopy_members (r : LogRec) (s : State) : (bbCopy r s).members = s.members := (bbCopy_kept r s).2.2.2.2.2.2.2.2.2.2.2.2.2.2.2.2.1
@[simp] theorem bbCopy_arrs (r : LogRec) (s : State) : (bbCopy r s).arrs = s.arrs := (bbCopy_kept r s).2.2.2.2.2.2.2.2.2.2.2.2.2.2.2.2.2.1
@[simp] theorem bbCopy_vols (r : LogRec) (s : State) : (bbCopy r s).vols = s.vols := (bbCopy_kept r s).2.2.2.2.2.2.2.2.2.2.2.2.2.2.2.2.2.2.1
@[simp] theorem bbCopy_canvas (r : LogRec) (s : State) : (bbCopy r s).canvas = s.canvas := (bbCopy_kept r s).2.2.2.2.2.2.2.2.2.2.2.2.2.2.2.2.2.2.2.1
@[simp] theorem bbCopy_skb (r : LogRec) (s : State) : (bbCopy r s).skb = s.skb := (bbCopy_kept r s).2.2.2.2.2.2.2.2.2.2.2.2.2.2.2.2.2.2.2.2.1
@[simp] theorem bbCopy_studios (r : LogRec) (s : State) : (bbCopy r s).studios = s.studios := (bbCopy_kept r s).2.2.2.2.2.2.2.2.2.2.2.2.2.2.2.2.2.2.2.2.2.1
@[simp] theorem bbCopy_referee (r : LogRec) (s : State) : (bbCopy r s).referee = s.referee := (bbCopy_kept r s).2.2.2.2.2.2.2.2.2.2.2.2.2.2.2.2.2.2.2.2.2.2.1
@[simp] theorem bbCopy_roster (r : LogRec) (s : State) : (bbCopy r s).roster = s.roster := (bbCopy_kept r s).2.2.2.2.2.2.2.2.2.2.2.2.2.2.2.2.2.2.2.2.2.2.2.1
@[simp] theorem bbCopy_regions (r : LogRec) (s : State) : (bbCopy r s).regions = s.regions := (bbCopy_kept r s).2.2.2.2.2.2.2.2.2.2.2.2.2.2.2.2.2.2.2.2.2.2.2.2.1
@[simp] theorem bbCopy_ring (r : LogRec) (s : State) : (bbCopy r s).ring = s.ring := (bbCopy_kept r s).2.2.2.2.2.2.2.2.2.2.2.2.2.2.2.2.2.2.2.2.2.2.2.2.2.1
@[simp] theorem bbCopy_palette (r : LogRec) (s : State) : (bbCopy r s).palette = s.palette := (bbCopy_kept r s).2.2.2.2.2.2.2.2.2.2.2.2.2.2.2.2.2.2.2.2.2.2.2.2.2.2.1
@[simp] theorem bbCopy_freeCtr (r : LogRec) (s : State) : (bbCopy r s).freeCtr = s.freeCtr := (bbCopy_kept r s).2.2.2.2.2.2.2.2.2.2.2.2.2.2.2.2.2.2.2.2.2.2.2.2.2.2.2
theorem logSums_kept (code : Byte) (cls : LogClass) (bb : Bool) (studio : Option (Fin 8)) (s : State) :
    (logSums code cls bb studio s).pending = s.pending ∧ (logSums code cls bb studio s).power = s.power ∧ (logSums
    code cls bb studio s).standby = s.standby ∧ (logSums code cls bb studio s).clk = s.clk ∧ (logSums code cls bb
    studio s).restart = s.restart ∧ (logSums code cls bb studio s).ident = s.ident ∧ (logSums code cls bb studio
    s).nv = s.nv ∧ (logSums code cls bb studio s).pathC = s.pathC ∧ (logSums code cls bb studio s).pathM = s.pathM ∧
    (logSums code cls bb studio s).cport = s.cport ∧ (logSums code cls bb studio s).mgmt = s.mgmt ∧ (logSums code
    cls bb studio s).scratch = s.scratch ∧ (logSums code cls bb studio s).hbu = s.hbu ∧ (logSums code cls bb studio
    s).ledger = s.ledger ∧ (logSums code cls bb studio s).dma = s.dma ∧ (logSums code cls bb studio s).queues =
    s.queues ∧ (logSums code cls bb studio s).members = s.members ∧ (logSums code cls bb studio s).arrs = s.arrs ∧
    (logSums code cls bb studio s).vols = s.vols ∧ (logSums code cls bb studio s).canvas = s.canvas ∧ (logSums code
    cls bb studio s).skb = s.skb ∧ (logSums code cls bb studio s).studios = s.studios ∧ (logSums code cls bb studio
    s).referee = s.referee ∧ (logSums code cls bb studio s).roster = s.roster ∧ (logSums code cls bb studio
    s).regions = s.regions ∧ (logSums code cls bb studio s).ring = s.ring ∧ (logSums code cls bb studio s).palette =
    s.palette ∧ (logSums code cls bb studio s).freeCtr = s.freeCtr := by
  simp only [logSums]; (repeat' split) <;> simp
@[simp] theorem logSums_pending (code : Byte) (cls : LogClass) (bb : Bool) (studio : Option (Fin 8)) (s : State) : (logSums code cls bb studio s).pending = s.pending := (logSums_kept code cls bb studio s).1
@[simp] theorem logSums_power (code : Byte) (cls : LogClass) (bb : Bool) (studio : Option (Fin 8)) (s : State) : (logSums code cls bb studio s).power = s.power := (logSums_kept code cls bb studio s).2.1
@[simp] theorem logSums_standby (code : Byte) (cls : LogClass) (bb : Bool) (studio : Option (Fin 8)) (s : State) : (logSums code cls bb studio s).standby = s.standby := (logSums_kept code cls bb studio s).2.2.1
@[simp] theorem logSums_clk (code : Byte) (cls : LogClass) (bb : Bool) (studio : Option (Fin 8)) (s : State) : (logSums code cls bb studio s).clk = s.clk := (logSums_kept code cls bb studio s).2.2.2.1
@[simp] theorem logSums_restart (code : Byte) (cls : LogClass) (bb : Bool) (studio : Option (Fin 8)) (s : State) : (logSums code cls bb studio s).restart = s.restart := (logSums_kept code cls bb studio s).2.2.2.2.1
@[simp] theorem logSums_ident (code : Byte) (cls : LogClass) (bb : Bool) (studio : Option (Fin 8)) (s : State) : (logSums code cls bb studio s).ident = s.ident := (logSums_kept code cls bb studio s).2.2.2.2.2.1
@[simp] theorem logSums_nv (code : Byte) (cls : LogClass) (bb : Bool) (studio : Option (Fin 8)) (s : State) : (logSums code cls bb studio s).nv = s.nv := (logSums_kept code cls bb studio s).2.2.2.2.2.2.1
@[simp] theorem logSums_pathC (code : Byte) (cls : LogClass) (bb : Bool) (studio : Option (Fin 8)) (s : State) : (logSums code cls bb studio s).pathC = s.pathC := (logSums_kept code cls bb studio s).2.2.2.2.2.2.2.1
@[simp] theorem logSums_pathM (code : Byte) (cls : LogClass) (bb : Bool) (studio : Option (Fin 8)) (s : State) : (logSums code cls bb studio s).pathM = s.pathM := (logSums_kept code cls bb studio s).2.2.2.2.2.2.2.2.1
@[simp] theorem logSums_cport (code : Byte) (cls : LogClass) (bb : Bool) (studio : Option (Fin 8)) (s : State) : (logSums code cls bb studio s).cport = s.cport := (logSums_kept code cls bb studio s).2.2.2.2.2.2.2.2.2.1
@[simp] theorem logSums_mgmt (code : Byte) (cls : LogClass) (bb : Bool) (studio : Option (Fin 8)) (s : State) : (logSums code cls bb studio s).mgmt = s.mgmt := (logSums_kept code cls bb studio s).2.2.2.2.2.2.2.2.2.2.1
@[simp] theorem logSums_scratch (code : Byte) (cls : LogClass) (bb : Bool) (studio : Option (Fin 8)) (s : State) : (logSums code cls bb studio s).scratch = s.scratch := (logSums_kept code cls bb studio s).2.2.2.2.2.2.2.2.2.2.2.1
@[simp] theorem logSums_hbu (code : Byte) (cls : LogClass) (bb : Bool) (studio : Option (Fin 8)) (s : State) : (logSums code cls bb studio s).hbu = s.hbu := (logSums_kept code cls bb studio s).2.2.2.2.2.2.2.2.2.2.2.2.1
@[simp] theorem logSums_ledger (code : Byte) (cls : LogClass) (bb : Bool) (studio : Option (Fin 8)) (s : State) : (logSums code cls bb studio s).ledger = s.ledger := (logSums_kept code cls bb studio s).2.2.2.2.2.2.2.2.2.2.2.2.2.1
@[simp] theorem logSums_dma (code : Byte) (cls : LogClass) (bb : Bool) (studio : Option (Fin 8)) (s : State) : (logSums code cls bb studio s).dma = s.dma := (logSums_kept code cls bb studio s).2.2.2.2.2.2.2.2.2.2.2.2.2.2.1
@[simp] theorem logSums_queues (code : Byte) (cls : LogClass) (bb : Bool) (studio : Option (Fin 8)) (s : State) : (logSums code cls bb studio s).queues = s.queues := (logSums_kept code cls bb studio s).2.2.2.2.2.2.2.2.2.2.2.2.2.2.2.1
@[simp] theorem logSums_members (code : Byte) (cls : LogClass) (bb : Bool) (studio : Option (Fin 8)) (s : State) : (logSums code cls bb studio s).members = s.members := (logSums_kept code cls bb studio s).2.2.2.2.2.2.2.2.2.2.2.2.2.2.2.2.1
@[simp] theorem logSums_arrs (code : Byte) (cls : LogClass) (bb : Bool) (studio : Option (Fin 8)) (s : State) : (logSums code cls bb studio s).arrs = s.arrs := (logSums_kept code cls bb studio s).2.2.2.2.2.2.2.2.2.2.2.2.2.2.2.2.2.1
@[simp] theorem logSums_vols (code : Byte) (cls : LogClass) (bb : Bool) (studio : Option (Fin 8)) (s : State) : (logSums code cls bb studio s).vols = s.vols := (logSums_kept code cls bb studio s).2.2.2.2.2.2.2.2.2.2.2.2.2.2.2.2.2.2.1
@[simp] theorem logSums_canvas (code : Byte) (cls : LogClass) (bb : Bool) (studio : Option (Fin 8)) (s : State) : (logSums code cls bb studio s).canvas = s.canvas := (logSums_kept code cls bb studio s).2.2.2.2.2.2.2.2.2.2.2.2.2.2.2.2.2.2.2.1
@[simp] theorem logSums_skb (code : Byte) (cls : LogClass) (bb : Bool) (studio : Option (Fin 8)) (s : State) : (logSums code cls bb studio s).skb = s.skb := (logSums_kept code cls bb studio s).2.2.2.2.2.2.2.2.2.2.2.2.2.2.2.2.2.2.2.2.1
@[simp] theorem logSums_studios (code : Byte) (cls : LogClass) (bb : Bool) (studio : Option (Fin 8)) (s : State) : (logSums code cls bb studio s).studios = s.studios := (logSums_kept code cls bb studio s).2.2.2.2.2.2.2.2.2.2.2.2.2.2.2.2.2.2.2.2.2.1
@[simp] theorem logSums_referee (code : Byte) (cls : LogClass) (bb : Bool) (studio : Option (Fin 8)) (s : State) : (logSums code cls bb studio s).referee = s.referee := (logSums_kept code cls bb studio s).2.2.2.2.2.2.2.2.2.2.2.2.2.2.2.2.2.2.2.2.2.2.1
@[simp] theorem logSums_roster (code : Byte) (cls : LogClass) (bb : Bool) (studio : Option (Fin 8)) (s : State) : (logSums code cls bb studio s).roster = s.roster := (logSums_kept code cls bb studio s).2.2.2.2.2.2.2.2.2.2.2.2.2.2.2.2.2.2.2.2.2.2.2.1
@[simp] theorem logSums_regions (code : Byte) (cls : LogClass) (bb : Bool) (studio : Option (Fin 8)) (s : State) : (logSums code cls bb studio s).regions = s.regions := (logSums_kept code cls bb studio s).2.2.2.2.2.2.2.2.2.2.2.2.2.2.2.2.2.2.2.2.2.2.2.2.1
@[simp] theorem logSums_ring (code : Byte) (cls : LogClass) (bb : Bool) (studio : Option (Fin 8)) (s : State) : (logSums code cls bb studio s).ring = s.ring := (logSums_kept code cls bb studio s).2.2.2.2.2.2.2.2.2.2.2.2.2.2.2.2.2.2.2.2.2.2.2.2.2.1
@[simp] theorem logSums_palette (code : Byte) (cls : LogClass) (bb : Bool) (studio : Option (Fin 8)) (s : State) : (logSums code cls bb studio s).palette = s.palette := (logSums_kept code cls bb studio s).2.2.2.2.2.2.2.2.2.2.2.2.2.2.2.2.2.2.2.2.2.2.2.2.2.2.1
@[simp] theorem logSums_freeCtr (code : Byte) (cls : LogClass) (bb : Bool) (studio : Option (Fin 8)) (s : State) : (logSums code cls bb studio s).freeCtr = s.freeCtr := (logSums_kept code cls bb studio s).2.2.2.2.2.2.2.2.2.2.2.2.2.2.2.2.2.2.2.2.2.2.2.2.2.2.2
theorem logForward_kept (r : LogRec) (s : State) :
    (logForward r s).pending = s.pending ∧ (logForward r s).power = s.power ∧ (logForward r s).standby = s.standby ∧
    (logForward r s).clk = s.clk ∧ (logForward r s).restart = s.restart ∧ (logForward r s).ident = s.ident ∧
    (logForward r s).nv = s.nv ∧ (logForward r s).log = s.log ∧ (logForward r s).pathC = s.pathC ∧ (logForward r
    s).pathM = s.pathM ∧ (logForward r s).cport = s.cport ∧ (logForward r s).mgmt = s.mgmt ∧ (logForward r
    s).scratch = s.scratch ∧ (logForward r s).hbu = s.hbu ∧ (logForward r s).ledger = s.ledger ∧ (logForward r
    s).dma = s.dma ∧ (logForward r s).queues = s.queues ∧ (logForward r s).members = s.members ∧ (logForward r
    s).arrs = s.arrs ∧ (logForward r s).vols = s.vols ∧ (logForward r s).canvas = s.canvas ∧ (logForward r s).skb =
    s.skb ∧ (logForward r s).studios = s.studios ∧ (logForward r s).referee = s.referee ∧ (logForward r s).roster =
    s.roster ∧ (logForward r s).regions = s.regions ∧ (logForward r s).palette = s.palette ∧ (logForward r
    s).freeCtr = s.freeCtr := by
  simp only [logForward]; (repeat' split) <;> simp
@[simp] theorem logForward_pending (r : LogRec) (s : State) : (logForward r s).pending = s.pending := (logForward_kept r s).1
@[simp] theorem logForward_power (r : LogRec) (s : State) : (logForward r s).power = s.power := (logForward_kept r s).2.1
@[simp] theorem logForward_standby (r : LogRec) (s : State) : (logForward r s).standby = s.standby := (logForward_kept r s).2.2.1
@[simp] theorem logForward_clk (r : LogRec) (s : State) : (logForward r s).clk = s.clk := (logForward_kept r s).2.2.2.1
@[simp] theorem logForward_restart (r : LogRec) (s : State) : (logForward r s).restart = s.restart := (logForward_kept r s).2.2.2.2.1
@[simp] theorem logForward_ident (r : LogRec) (s : State) : (logForward r s).ident = s.ident := (logForward_kept r s).2.2.2.2.2.1
@[simp] theorem logForward_nv (r : LogRec) (s : State) : (logForward r s).nv = s.nv := (logForward_kept r s).2.2.2.2.2.2.1
@[simp] theorem logForward_log (r : LogRec) (s : State) : (logForward r s).log = s.log := (logForward_kept r s).2.2.2.2.2.2.2.1
@[simp] theorem logForward_pathC (r : LogRec) (s : State) : (logForward r s).pathC = s.pathC := (logForward_kept r s).2.2.2.2.2.2.2.2.1
@[simp] theorem logForward_pathM (r : LogRec) (s : State) : (logForward r s).pathM = s.pathM := (logForward_kept r s).2.2.2.2.2.2.2.2.2.1
@[simp] theorem logForward_cport (r : LogRec) (s : State) : (logForward r s).cport = s.cport := (logForward_kept r s).2.2.2.2.2.2.2.2.2.2.1
@[simp] theorem logForward_mgmt (r : LogRec) (s : State) : (logForward r s).mgmt = s.mgmt := (logForward_kept r s).2.2.2.2.2.2.2.2.2.2.2.1
@[simp] theorem logForward_scratch (r : LogRec) (s : State) : (logForward r s).scratch = s.scratch := (logForward_kept r s).2.2.2.2.2.2.2.2.2.2.2.2.1
@[simp] theorem logForward_hbu (r : LogRec) (s : State) : (logForward r s).hbu = s.hbu := (logForward_kept r s).2.2.2.2.2.2.2.2.2.2.2.2.2.1
@[simp] theorem logForward_ledger (r : LogRec) (s : State) : (logForward r s).ledger = s.ledger := (logForward_kept r s).2.2.2.2.2.2.2.2.2.2.2.2.2.2.1
@[simp] theorem logForward_dma (r : LogRec) (s : State) : (logForward r s).dma = s.dma := (logForward_kept r s).2.2.2.2.2.2.2.2.2.2.2.2.2.2.2.1
@[simp] theorem logForward_queues (r : LogRec) (s : State) : (logForward r s).queues = s.queues := (logForward_kept r s).2.2.2.2.2.2.2.2.2.2.2.2.2.2.2.2.1
@[simp] theorem logForward_members (r : LogRec) (s : State) : (logForward r s).members = s.members := (logForward_kept r s).2.2.2.2.2.2.2.2.2.2.2.2.2.2.2.2.2.1
@[simp] theorem logForward_arrs (r : LogRec) (s : State) : (logForward r s).arrs = s.arrs := (logForward_kept r s).2.2.2.2.2.2.2.2.2.2.2.2.2.2.2.2.2.2.1
@[simp] theorem logForward_vols (r : LogRec) (s : State) : (logForward r s).vols = s.vols := (logForward_kept r s).2.2.2.2.2.2.2.2.2.2.2.2.2.2.2.2.2.2.2.1
@[simp] theorem logForward_canvas (r : LogRec) (s : State) : (logForward r s).canvas = s.canvas := (logForward_kept r s).2.2.2.2.2.2.2.2.2.2.2.2.2.2.2.2.2.2.2.2.1
@[simp] theorem logForward_skb (r : LogRec) (s : State) : (logForward r s).skb = s.skb := (logForward_kept r s).2.2.2.2.2.2.2.2.2.2.2.2.2.2.2.2.2.2.2.2.2.1
@[simp] theorem logForward_studios (r : LogRec) (s : State) : (logForward r s).studios = s.studios := (logForward_kept r s).2.2.2.2.2.2.2.2.2.2.2.2.2.2.2.2.2.2.2.2.2.2.1
@[simp] theorem logForward_referee (r : LogRec) (s : State) : (logForward r s).referee = s.referee := (logForward_kept r s).2.2.2.2.2.2.2.2.2.2.2.2.2.2.2.2.2.2.2.2.2.2.2.1
@[simp] theorem logForward_roster (r : LogRec) (s : State) : (logForward r s).roster = s.roster := (logForward_kept r s).2.2.2.2.2.2.2.2.2.2.2.2.2.2.2.2.2.2.2.2.2.2.2.2.1
@[simp] theorem logForward_regions (r : LogRec) (s : State) : (logForward r s).regions = s.regions := (logForward_kept r s).2.2.2.2.2.2.2.2.2.2.2.2.2.2.2.2.2.2.2.2.2.2.2.2.2.1
@[simp] theorem logForward_palette (r : LogRec) (s : State) : (logForward r s).palette = s.palette := (logForward_kept r s).2.2.2.2.2.2.2.2.2.2.2.2.2.2.2.2.2.2.2.2.2.2.2.2.2.2.1
@[simp] theorem logForward_freeCtr (r : LogRec) (s : State) : (logForward r s).freeCtr = s.freeCtr := (logForward_kept r s).2.2.2.2.2.2.2.2.2.2.2.2.2.2.2.2.2.2.2.2.2.2.2.2.2.2.2
theorem logAs_kept (c : Code) (cls : LogClass) (studio : Option (Fin 8)) (args : List Byte) (s : State) :
    (logAs c cls studio args s).pending = s.pending ∧ (logAs c cls studio args s).power = s.power ∧ (logAs c cls
    studio args s).standby = s.standby ∧ (logAs c cls studio args s).clk = s.clk ∧ (logAs c cls studio args
    s).restart = s.restart ∧ (logAs c cls studio args s).ident = s.ident ∧ (logAs c cls studio args s).pathC =
    s.pathC ∧ (logAs c cls studio args s).pathM = s.pathM ∧ (logAs c cls studio args s).cport = s.cport ∧ (logAs c
    cls studio args s).mgmt = s.mgmt ∧ (logAs c cls studio args s).scratch = s.scratch ∧ (logAs c cls studio args
    s).hbu = s.hbu ∧ (logAs c cls studio args s).ledger = s.ledger ∧ (logAs c cls studio args s).dma = s.dma ∧
    (logAs c cls studio args s).queues = s.queues ∧ (logAs c cls studio args s).members = s.members ∧ (logAs c cls
    studio args s).arrs = s.arrs ∧ (logAs c cls studio args s).vols = s.vols ∧ (logAs c cls studio args s).canvas =
    s.canvas ∧ (logAs c cls studio args s).skb = s.skb ∧ (logAs c cls studio args s).studios = s.studios ∧ (logAs c
    cls studio args s).referee = s.referee ∧ (logAs c cls studio args s).roster = s.roster ∧ (logAs c cls studio
    args s).regions = s.regions ∧ (logAs c cls studio args s).palette = s.palette ∧ (logAs c cls studio args
    s).freeCtr = s.freeCtr := by
  simp only [logAs]; (repeat' split) <;> simp
@[simp] theorem logAs_pending (c : Code) (cls : LogClass) (studio : Option (Fin 8)) (args : List Byte) (s : State) : (logAs c cls studio args s).pending = s.pending := (logAs_kept c cls studio args s).1
@[simp] theorem logAs_power (c : Code) (cls : LogClass) (studio : Option (Fin 8)) (args : List Byte) (s : State) : (logAs c cls studio args s).power = s.power := (logAs_kept c cls studio args s).2.1
@[simp] theorem logAs_standby (c : Code) (cls : LogClass) (studio : Option (Fin 8)) (args : List Byte) (s : State) : (logAs c cls studio args s).standby = s.standby := (logAs_kept c cls studio args s).2.2.1
@[simp] theorem logAs_clk (c : Code) (cls : LogClass) (studio : Option (Fin 8)) (args : List Byte) (s : State) : (logAs c cls studio args s).clk = s.clk := (logAs_kept c cls studio args s).2.2.2.1
@[simp] theorem logAs_restart (c : Code) (cls : LogClass) (studio : Option (Fin 8)) (args : List Byte) (s : State) : (logAs c cls studio args s).restart = s.restart := (logAs_kept c cls studio args s).2.2.2.2.1
@[simp] theorem logAs_ident (c : Code) (cls : LogClass) (studio : Option (Fin 8)) (args : List Byte) (s : State) : (logAs c cls studio args s).ident = s.ident := (logAs_kept c cls studio args s).2.2.2.2.2.1
@[simp] theorem logAs_pathC (c : Code) (cls : LogClass) (studio : Option (Fin 8)) (args : List Byte) (s : State) : (logAs c cls studio args s).pathC = s.pathC := (logAs_kept c cls studio args s).2.2.2.2.2.2.1
@[simp] theorem logAs_pathM (c : Code) (cls : LogClass) (studio : Option (Fin 8)) (args : List Byte) (s : State) : (logAs c cls studio args s).pathM = s.pathM := (logAs_kept c cls studio args s).2.2.2.2.2.2.2.1
@[simp] theorem logAs_cport (c : Code) (cls : LogClass) (studio : Option (Fin 8)) (args : List Byte) (s : State) : (logAs c cls studio args s).cport = s.cport := (logAs_kept c cls studio args s).2.2.2.2.2.2.2.2.1
@[simp] theorem logAs_mgmt (c : Code) (cls : LogClass) (studio : Option (Fin 8)) (args : List Byte) (s : State) : (logAs c cls studio args s).mgmt = s.mgmt := (logAs_kept c cls studio args s).2.2.2.2.2.2.2.2.2.1
@[simp] theorem logAs_scratch (c : Code) (cls : LogClass) (studio : Option (Fin 8)) (args : List Byte) (s : State) : (logAs c cls studio args s).scratch = s.scratch := (logAs_kept c cls studio args s).2.2.2.2.2.2.2.2.2.2.1
@[simp] theorem logAs_hbu (c : Code) (cls : LogClass) (studio : Option (Fin 8)) (args : List Byte) (s : State) : (logAs c cls studio args s).hbu = s.hbu := (logAs_kept c cls studio args s).2.2.2.2.2.2.2.2.2.2.2.1
@[simp] theorem logAs_ledger (c : Code) (cls : LogClass) (studio : Option (Fin 8)) (args : List Byte) (s : State) : (logAs c cls studio args s).ledger = s.ledger := (logAs_kept c cls studio args s).2.2.2.2.2.2.2.2.2.2.2.2.1
@[simp] theorem logAs_dma (c : Code) (cls : LogClass) (studio : Option (Fin 8)) (args : List Byte) (s : State) : (logAs c cls studio args s).dma = s.dma := (logAs_kept c cls studio args s).2.2.2.2.2.2.2.2.2.2.2.2.2.1
@[simp] theorem logAs_queues (c : Code) (cls : LogClass) (studio : Option (Fin 8)) (args : List Byte) (s : State) : (logAs c cls studio args s).queues = s.queues := (logAs_kept c cls studio args s).2.2.2.2.2.2.2.2.2.2.2.2.2.2.1
@[simp] theorem logAs_members (c : Code) (cls : LogClass) (studio : Option (Fin 8)) (args : List Byte) (s : State) : (logAs c cls studio args s).members = s.members := (logAs_kept c cls studio args s).2.2.2.2.2.2.2.2.2.2.2.2.2.2.2.1
@[simp] theorem logAs_arrs (c : Code) (cls : LogClass) (studio : Option (Fin 8)) (args : List Byte) (s : State) : (logAs c cls studio args s).arrs = s.arrs := (logAs_kept c cls studio args s).2.2.2.2.2.2.2.2.2.2.2.2.2.2.2.2.1
@[simp] theorem logAs_vols (c : Code) (cls : LogClass) (studio : Option (Fin 8)) (args : List Byte) (s : State) : (logAs c cls studio args s).vols = s.vols := (logAs_kept c cls studio args s).2.2.2.2.2.2.2.2.2.2.2.2.2.2.2.2.2.1
@[simp] theorem logAs_canvas (c : Code) (cls : LogClass) (studio : Option (Fin 8)) (args : List Byte) (s : State) : (logAs c cls studio args s).canvas = s.canvas := (logAs_kept c cls studio args s).2.2.2.2.2.2.2.2.2.2.2.2.2.2.2.2.2.2.1
@[simp] theorem logAs_skb (c : Code) (cls : LogClass) (studio : Option (Fin 8)) (args : List Byte) (s : State) : (logAs c cls studio args s).skb = s.skb := (logAs_kept c cls studio args s).2.2.2.2.2.2.2.2.2.2.2.2.2.2.2.2.2.2.2.1
@[simp] theorem logAs_studios (c : Code) (cls : LogClass) (studio : Option (Fin 8)) (args : List Byte) (s : State) : (logAs c cls studio args s).studios = s.studios := (logAs_kept c cls studio args s).2.2.2.2.2.2.2.2.2.2.2.2.2.2.2.2.2.2.2.2.1
@[simp] theorem logAs_referee (c : Code) (cls : LogClass) (studio : Option (Fin 8)) (args : List Byte) (s : State) : (logAs c cls studio args s).referee = s.referee := (logAs_kept c cls studio args s).2.2.2.2.2.2.2.2.2.2.2.2.2.2.2.2.2.2.2.2.2.1
@[simp] theorem logAs_roster (c : Code) (cls : LogClass) (studio : Option (Fin 8)) (args : List Byte) (s : State) : (logAs c cls studio args s).roster = s.roster := (logAs_kept c cls studio args s).2.2.2.2.2.2.2.2.2.2.2.2.2.2.2.2.2.2.2.2.2.2.1
@[simp] theorem logAs_regions (c : Code) (cls : LogClass) (studio : Option (Fin 8)) (args : List Byte) (s : State) : (logAs c cls studio args s).regions = s.regions := (logAs_kept c cls studio args s).2.2.2.2.2.2.2.2.2.2.2.2.2.2.2.2.2.2.2.2.2.2.2.1
@[simp] theorem logAs_palette (c : Code) (cls : LogClass) (studio : Option (Fin 8)) (args : List Byte) (s : State) : (logAs c cls studio args s).palette = s.palette := (logAs_kept c cls studio args s).2.2.2.2.2.2.2.2.2.2.2.2.2.2.2.2.2.2.2.2.2.2.2.2.1
@[simp] theorem logAs_freeCtr (c : Code) (cls : LogClass) (studio : Option (Fin 8)) (args : List Byte) (s : State) : (logAs c cls studio args s).freeCtr = s.freeCtr := (logAs_kept c cls studio args s).2.2.2.2.2.2.2.2.2.2.2.2.2.2.2.2.2.2.2.2.2.2.2.2.2
theorem logRec_kept (c : Code) (args : List Byte) (s : State) :
    (logRec c args s).pending = s.pending ∧ (logRec c args s).power = s.power ∧ (logRec c args s).standby =
    s.standby ∧ (logRec c args s).clk = s.clk ∧ (logRec c args s).restart = s.restart ∧ (logRec c args s).ident =
    s.ident ∧ (logRec c args s).pathC = s.pathC ∧ (logRec c args s).pathM = s.pathM ∧ (logRec c args s).cport =
    s.cport ∧ (logRec c args s).mgmt = s.mgmt ∧ (logRec c args s).scratch = s.scratch ∧ (logRec c args s).hbu =
    s.hbu ∧ (logRec c args s).ledger = s.ledger ∧ (logRec c args s).dma = s.dma ∧ (logRec c args s).queues =
    s.queues ∧ (logRec c args s).members = s.members ∧ (logRec c args s).arrs = s.arrs ∧ (logRec c args s).vols =
    s.vols ∧ (logRec c args s).canvas = s.canvas ∧ (logRec c args s).skb = s.skb ∧ (logRec c args s).studios =
    s.studios ∧ (logRec c args s).referee = s.referee ∧ (logRec c args s).roster = s.roster ∧ (logRec c args
    s).regions = s.regions ∧ (logRec c args s).palette = s.palette ∧ (logRec c args s).freeCtr = s.freeCtr := by simp [logRec]
@[simp] theorem logRec_pending (c : Code) (args : List Byte) (s : State) : (logRec c args s).pending = s.pending := (logRec_kept c args s).1
@[simp] theorem logRec_power (c : Code) (args : List Byte) (s : State) : (logRec c args s).power = s.power := (logRec_kept c args s).2.1
@[simp] theorem logRec_standby (c : Code) (args : List Byte) (s : State) : (logRec c args s).standby = s.standby := (logRec_kept c args s).2.2.1
@[simp] theorem logRec_clk (c : Code) (args : List Byte) (s : State) : (logRec c args s).clk = s.clk := (logRec_kept c args s).2.2.2.1
@[simp] theorem logRec_restart (c : Code) (args : List Byte) (s : State) : (logRec c args s).restart = s.restart := (logRec_kept c args s).2.2.2.2.1
@[simp] theorem logRec_ident (c : Code) (args : List Byte) (s : State) : (logRec c args s).ident = s.ident := (logRec_kept c args s).2.2.2.2.2.1
@[simp] theorem logRec_pathC (c : Code) (args : List Byte) (s : State) : (logRec c args s).pathC = s.pathC := (logRec_kept c args s).2.2.2.2.2.2.1
@[simp] theorem logRec_pathM (c : Code) (args : List Byte) (s : State) : (logRec c args s).pathM = s.pathM := (logRec_kept c args s).2.2.2.2.2.2.2.1
@[simp] theorem logRec_cport (c : Code) (args : List Byte) (s : State) : (logRec c args s).cport = s.cport := (logRec_kept c args s).2.2.2.2.2.2.2.2.1
@[simp] theorem logRec_mgmt (c : Code) (args : List Byte) (s : State) : (logRec c args s).mgmt = s.mgmt := (logRec_kept c args s).2.2.2.2.2.2.2.2.2.1
@[simp] theorem logRec_scratch (c : Code) (args : List Byte) (s : State) : (logRec c args s).scratch = s.scratch := (logRec_kept c args s).2.2.2.2.2.2.2.2.2.2.1
@[simp] theorem logRec_hbu (c : Code) (args : List Byte) (s : State) : (logRec c args s).hbu = s.hbu := (logRec_kept c args s).2.2.2.2.2.2.2.2.2.2.2.1
@[simp] theorem logRec_ledger (c : Code) (args : List Byte) (s : State) : (logRec c args s).ledger = s.ledger := (logRec_kept c args s).2.2.2.2.2.2.2.2.2.2.2.2.1
@[simp] theorem logRec_dma (c : Code) (args : List Byte) (s : State) : (logRec c args s).dma = s.dma := (logRec_kept c args s).2.2.2.2.2.2.2.2.2.2.2.2.2.1
@[simp] theorem logRec_queues (c : Code) (args : List Byte) (s : State) : (logRec c args s).queues = s.queues := (logRec_kept c args s).2.2.2.2.2.2.2.2.2.2.2.2.2.2.1
@[simp] theorem logRec_members (c : Code) (args : List Byte) (s : State) : (logRec c args s).members = s.members := (logRec_kept c args s).2.2.2.2.2.2.2.2.2.2.2.2.2.2.2.1
@[simp] theorem logRec_arrs (c : Code) (args : List Byte) (s : State) : (logRec c args s).arrs = s.arrs := (logRec_kept c args s).2.2.2.2.2.2.2.2.2.2.2.2.2.2.2.2.1
@[simp] theorem logRec_vols (c : Code) (args : List Byte) (s : State) : (logRec c args s).vols = s.vols := (logRec_kept c args s).2.2.2.2.2.2.2.2.2.2.2.2.2.2.2.2.2.1
@[simp] theorem logRec_canvas (c : Code) (args : List Byte) (s : State) : (logRec c args s).canvas = s.canvas := (logRec_kept c args s).2.2.2.2.2.2.2.2.2.2.2.2.2.2.2.2.2.2.1
@[simp] theorem logRec_skb (c : Code) (args : List Byte) (s : State) : (logRec c args s).skb = s.skb := (logRec_kept c args s).2.2.2.2.2.2.2.2.2.2.2.2.2.2.2.2.2.2.2.1
@[simp] theorem logRec_studios (c : Code) (args : List Byte) (s : State) : (logRec c args s).studios = s.studios := (logRec_kept c args s).2.2.2.2.2.2.2.2.2.2.2.2.2.2.2.2.2.2.2.2.1
@[simp] theorem logRec_referee (c : Code) (args : List Byte) (s : State) : (logRec c args s).referee = s.referee := (logRec_kept c args s).2.2.2.2.2.2.2.2.2.2.2.2.2.2.2.2.2.2.2.2.2.1
@[simp] theorem logRec_roster (c : Code) (args : List Byte) (s : State) : (logRec c args s).roster = s.roster := (logRec_kept c args s).2.2.2.2.2.2.2.2.2.2.2.2.2.2.2.2.2.2.2.2.2.2.1
@[simp] theorem logRec_regions (c : Code) (args : List Byte) (s : State) : (logRec c args s).regions = s.regions := (logRec_kept c args s).2.2.2.2.2.2.2.2.2.2.2.2.2.2.2.2.2.2.2.2.2.2.2.1
@[simp] theorem logRec_palette (c : Code) (args : List Byte) (s : State) : (logRec c args s).palette = s.palette := (logRec_kept c args s).2.2.2.2.2.2.2.2.2.2.2.2.2.2.2.2.2.2.2.2.2.2.2.2.1
@[simp] theorem logRec_freeCtr (c : Code) (args : List Byte) (s : State) : (logRec c args s).freeCtr = s.freeCtr := (logRec_kept c args s).2.2.2.2.2.2.2.2.2.2.2.2.2.2.2.2.2.2.2.2.2.2.2.2.2
theorem setLevel_kept (l : Level) (s : State) :
    (setLevel l s).pending = s.pending ∧ (setLevel l s).power = s.power ∧ (setLevel l s).clk = s.clk ∧ (setLevel l
    s).ident = s.ident ∧ (setLevel l s).nv = s.nv ∧ (setLevel l s).pathC = s.pathC ∧ (setLevel l s).pathM = s.pathM
    ∧ (setLevel l s).cport = s.cport ∧ (setLevel l s).mgmt = s.mgmt ∧ (setLevel l s).scratch = s.scratch ∧ (setLevel
    l s).hbu = s.hbu ∧ (setLevel l s).ledger = s.ledger ∧ (setLevel l s).dma = s.dma ∧ (setLevel l s).queues =
    s.queues ∧ (setLevel l s).members = s.members ∧ (setLevel l s).arrs = s.arrs ∧ (setLevel l s).vols = s.vols ∧
    (setLevel l s).canvas = s.canvas ∧ (setLevel l s).skb = s.skb ∧ (setLevel l s).studios = s.studios ∧ (setLevel l
    s).referee = s.referee ∧ (setLevel l s).roster = s.roster ∧ (setLevel l s).regions = s.regions ∧ (setLevel l
    s).ring = s.ring ∧ (setLevel l s).palette = s.palette ∧ (setLevel l s).freeCtr = s.freeCtr := by
  simp only [setLevel]; (repeat' split) <;> simp
@[simp] theorem setLevel_pending (l : Level) (s : State) : (setLevel l s).pending = s.pending := (setLevel_kept l s).1
@[simp] theorem setLevel_power (l : Level) (s : State) : (setLevel l s).power = s.power := (setLevel_kept l s).2.1
@[simp] theorem setLevel_clk (l : Level) (s : State) : (setLevel l s).clk = s.clk := (setLevel_kept l s).2.2.1
@[simp] theorem setLevel_ident (l : Level) (s : State) : (setLevel l s).ident = s.ident := (setLevel_kept l s).2.2.2.1
@[simp] theorem setLevel_nv (l : Level) (s : State) : (setLevel l s).nv = s.nv := (setLevel_kept l s).2.2.2.2.1
@[simp] theorem setLevel_pathC (l : Level) (s : State) : (setLevel l s).pathC = s.pathC := (setLevel_kept l s).2.2.2.2.2.1
@[simp] theorem setLevel_pathM (l : Level) (s : State) : (setLevel l s).pathM = s.pathM := (setLevel_kept l s).2.2.2.2.2.2.1
@[simp] theorem setLevel_cport (l : Level) (s : State) : (setLevel l s).cport = s.cport := (setLevel_kept l s).2.2.2.2.2.2.2.1
@[simp] theorem setLevel_mgmt (l : Level) (s : State) : (setLevel l s).mgmt = s.mgmt := (setLevel_kept l s).2.2.2.2.2.2.2.2.1
@[simp] theorem setLevel_scratch (l : Level) (s : State) : (setLevel l s).scratch = s.scratch := (setLevel_kept l s).2.2.2.2.2.2.2.2.2.1
@[simp] theorem setLevel_hbu (l : Level) (s : State) : (setLevel l s).hbu = s.hbu := (setLevel_kept l s).2.2.2.2.2.2.2.2.2.2.1
@[simp] theorem setLevel_ledger (l : Level) (s : State) : (setLevel l s).ledger = s.ledger := (setLevel_kept l s).2.2.2.2.2.2.2.2.2.2.2.1
@[simp] theorem setLevel_dma (l : Level) (s : State) : (setLevel l s).dma = s.dma := (setLevel_kept l s).2.2.2.2.2.2.2.2.2.2.2.2.1
@[simp] theorem setLevel_queues (l : Level) (s : State) : (setLevel l s).queues = s.queues := (setLevel_kept l s).2.2.2.2.2.2.2.2.2.2.2.2.2.1
@[simp] theorem setLevel_members (l : Level) (s : State) : (setLevel l s).members = s.members := (setLevel_kept l s).2.2.2.2.2.2.2.2.2.2.2.2.2.2.1
@[simp] theorem setLevel_arrs (l : Level) (s : State) : (setLevel l s).arrs = s.arrs := (setLevel_kept l s).2.2.2.2.2.2.2.2.2.2.2.2.2.2.2.1
@[simp] theorem setLevel_vols (l : Level) (s : State) : (setLevel l s).vols = s.vols := (setLevel_kept l s).2.2.2.2.2.2.2.2.2.2.2.2.2.2.2.2.1
@[simp] theorem setLevel_canvas (l : Level) (s : State) : (setLevel l s).canvas = s.canvas := (setLevel_kept l s).2.2.2.2.2.2.2.2.2.2.2.2.2.2.2.2.2.1
@[simp] theorem setLevel_skb (l : Level) (s : State) : (setLevel l s).skb = s.skb := (setLevel_kept l s).2.2.2.2.2.2.2.2.2.2.2.2.2.2.2.2.2.2.1
@[simp] theorem setLevel_studios (l : Level) (s : State) : (setLevel l s).studios = s.studios := (setLevel_kept l s).2.2.2.2.2.2.2.2.2.2.2.2.2.2.2.2.2.2.2.1
@[simp] theorem setLevel_referee (l : Level) (s : State) : (setLevel l s).referee = s.referee := (setLevel_kept l s).2.2.2.2.2.2.2.2.2.2.2.2.2.2.2.2.2.2.2.2.1
@[simp] theorem setLevel_roster (l : Level) (s : State) : (setLevel l s).roster = s.roster := (setLevel_kept l s).2.2.2.2.2.2.2.2.2.2.2.2.2.2.2.2.2.2.2.2.2.1
@[simp] theorem setLevel_regions (l : Level) (s : State) : (setLevel l s).regions = s.regions := (setLevel_kept l s).2.2.2.2.2.2.2.2.2.2.2.2.2.2.2.2.2.2.2.2.2.2.1
@[simp] theorem setLevel_ring (l : Level) (s : State) : (setLevel l s).ring = s.ring := (setLevel_kept l s).2.2.2.2.2.2.2.2.2.2.2.2.2.2.2.2.2.2.2.2.2.2.2.1
@[simp] theorem setLevel_palette (l : Level) (s : State) : (setLevel l s).palette = s.palette := (setLevel_kept l s).2.2.2.2.2.2.2.2.2.2.2.2.2.2.2.2.2.2.2.2.2.2.2.2.1
@[simp] theorem setLevel_freeCtr (l : Level) (s : State) : (setLevel l s).freeCtr = s.freeCtr := (setLevel_kept l s).2.2.2.2.2.2.2.2.2.2.2.2.2.2.2.2.2.2.2.2.2.2.2.2.2
theorem poolTake_kept (i : Fin 20) (who : Option (Fin 8)) (n : ℕ) (s : State) :
    (poolTake i who n s).pending = s.pending ∧ (poolTake i who n s).power = s.power ∧ (poolTake i who n s).standby =
    s.standby ∧ (poolTake i who n s).clk = s.clk ∧ (poolTake i who n s).restart = s.restart ∧ (poolTake i who n
    s).ident = s.ident ∧ (poolTake i who n s).nv = s.nv ∧ (poolTake i who n s).log = s.log ∧ (poolTake i who n
    s).pathC = s.pathC ∧ (poolTake i who n s).pathM = s.pathM ∧ (poolTake i who n s).cport = s.cport ∧ (poolTake i
    who n s).mgmt = s.mgmt ∧ (poolTake i who n s).scratch = s.scratch ∧ (poolTake i who n s).hbu = s.hbu ∧ (poolTake
    i who n s).dma = s.dma ∧ (poolTake i who n s).queues = s.queues ∧ (poolTake i who n s).members = s.members ∧
    (poolTake i who n s).arrs = s.arrs ∧ (poolTake i who n s).vols = s.vols ∧ (poolTake i who n s).canvas = s.canvas
    ∧ (poolTake i who n s).skb = s.skb ∧ (poolTake i who n s).studios = s.studios ∧ (poolTake i who n s).referee =
    s.referee ∧ (poolTake i who n s).roster = s.roster ∧ (poolTake i who n s).regions = s.regions ∧ (poolTake i who
    n s).ring = s.ring ∧ (poolTake i who n s).palette = s.palette ∧ (poolTake i who n s).freeCtr = s.freeCtr := ⟨rfl, rfl, rfl, rfl, rfl, rfl, rfl, rfl, rfl, rfl, rfl, rfl, rfl, rfl, rfl, rfl, rfl, rfl, rfl, rfl, rfl, rfl, rfl, rfl, rfl, rfl, rfl, rfl⟩
@[simp] theorem poolTake_pending (i : Fin 20) (who : Option (Fin 8)) (n : ℕ) (s : State) : (poolTake i who n s).pending = s.pending := (poolTake_kept i who n s).1
@[simp] theorem poolTake_power (i : Fin 20) (who : Option (Fin 8)) (n : ℕ) (s : State) : (poolTake i who n s).power = s.power := (poolTake_kept i who n s).2.1
@[simp] theorem poolTake_standby (i : Fin 20) (who : Option (Fin 8)) (n : ℕ) (s : State) : (poolTake i who n s).standby = s.standby := (poolTake_kept i who n s).2.2.1
@[simp] theorem poolTake_clk (i : Fin 20) (who : Option (Fin 8)) (n : ℕ) (s : State) : (poolTake i who n s).clk = s.clk := (poolTake_kept i who n s).2.2.2.1
@[simp] theorem poolTake_restart (i : Fin 20) (who : Option (Fin 8)) (n : ℕ) (s : State) : (poolTake i who n s).restart = s.restart := (poolTake_kept i who n s).2.2.2.2.1
@[simp] theorem poolTake_ident (i : Fin 20) (who : Option (Fin 8)) (n : ℕ) (s : State) : (poolTake i who n s).ident = s.ident := (poolTake_kept i who n s).2.2.2.2.2.1
@[simp] theorem poolTake_nv (i : Fin 20) (who : Option (Fin 8)) (n : ℕ) (s : State) : (poolTake i who n s).nv = s.nv := (poolTake_kept i who n s).2.2.2.2.2.2.1
@[simp] theorem poolTake_log (i : Fin 20) (who : Option (Fin 8)) (n : ℕ) (s : State) : (poolTake i who n s).log = s.log := (poolTake_kept i who n s).2.2.2.2.2.2.2.1
@[simp] theorem poolTake_pathC (i : Fin 20) (who : Option (Fin 8)) (n : ℕ) (s : State) : (poolTake i who n s).pathC = s.pathC := (poolTake_kept i who n s).2.2.2.2.2.2.2.2.1
@[simp] theorem poolTake_pathM (i : Fin 20) (who : Option (Fin 8)) (n : ℕ) (s : State) : (poolTake i who n s).pathM = s.pathM := (poolTake_kept i who n s).2.2.2.2.2.2.2.2.2.1
@[simp] theorem poolTake_cport (i : Fin 20) (who : Option (Fin 8)) (n : ℕ) (s : State) : (poolTake i who n s).cport = s.cport := (poolTake_kept i who n s).2.2.2.2.2.2.2.2.2.2.1
@[simp] theorem poolTake_mgmt (i : Fin 20) (who : Option (Fin 8)) (n : ℕ) (s : State) : (poolTake i who n s).mgmt = s.mgmt := (poolTake_kept i who n s).2.2.2.2.2.2.2.2.2.2.2.1
@[simp] theorem poolTake_scratch (i : Fin 20) (who : Option (Fin 8)) (n : ℕ) (s : State) : (poolTake i who n s).scratch = s.scratch := (poolTake_kept i who n s).2.2.2.2.2.2.2.2.2.2.2.2.1
@[simp] theorem poolTake_hbu (i : Fin 20) (who : Option (Fin 8)) (n : ℕ) (s : State) : (poolTake i who n s).hbu = s.hbu := (poolTake_kept i who n s).2.2.2.2.2.2.2.2.2.2.2.2.2.1
@[simp] theorem poolTake_dma (i : Fin 20) (who : Option (Fin 8)) (n : ℕ) (s : State) : (poolTake i who n s).dma = s.dma := (poolTake_kept i who n s).2.2.2.2.2.2.2.2.2.2.2.2.2.2.1
@[simp] theorem poolTake_queues (i : Fin 20) (who : Option (Fin 8)) (n : ℕ) (s : State) : (poolTake i who n s).queues = s.queues := (poolTake_kept i who n s).2.2.2.2.2.2.2.2.2.2.2.2.2.2.2.1
@[simp] theorem poolTake_members (i : Fin 20) (who : Option (Fin 8)) (n : ℕ) (s : State) : (poolTake i who n s).members = s.members := (poolTake_kept i who n s).2.2.2.2.2.2.2.2.2.2.2.2.2.2.2.2.1
@[simp] theorem poolTake_arrs (i : Fin 20) (who : Option (Fin 8)) (n : ℕ) (s : State) : (poolTake i who n s).arrs = s.arrs := (poolTake_kept i who n s).2.2.2.2.2.2.2.2.2.2.2.2.2.2.2.2.2.1
@[simp] theorem poolTake_vols (i : Fin 20) (who : Option (Fin 8)) (n : ℕ) (s : State) : (poolTake i who n s).vols = s.vols := (poolTake_kept i who n s).2.2.2.2.2.2.2.2.2.2.2.2.2.2.2.2.2.2.1
@[simp] theorem poolTake_canvas (i : Fin 20) (who : Option (Fin 8)) (n : ℕ) (s : State) : (poolTake i who n s).canvas = s.canvas := (poolTake_kept i who n s).2.2.2.2.2.2.2.2.2.2.2.2.2.2.2.2.2.2.2.1
@[simp] theorem poolTake_skb (i : Fin 20) (who : Option (Fin 8)) (n : ℕ) (s : State) : (poolTake i who n s).skb = s.skb := (poolTake_kept i who n s).2.2.2.2.2.2.2.2.2.2.2.2.2.2.2.2.2.2.2.2.1
@[simp] theorem poolTake_studios (i : Fin 20) (who : Option (Fin 8)) (n : ℕ) (s : State) : (poolTake i who n s).studios = s.studios := (poolTake_kept i who n s).2.2.2.2.2.2.2.2.2.2.2.2.2.2.2.2.2.2.2.2.2.1
@[simp] theorem poolTake_referee (i : Fin 20) (who : Option (Fin 8)) (n : ℕ) (s : State) : (poolTake i who n s).referee = s.referee := (poolTake_kept i who n s).2.2.2.2.2.2.2.2.2.2.2.2.2.2.2.2.2.2.2.2.2.2.1
@[simp] theorem poolTake_roster (i : Fin 20) (who : Option (Fin 8)) (n : ℕ) (s : State) : (poolTake i who n s).roster = s.roster := (poolTake_kept i who n s).2.2.2.2.2.2.2.2.2.2.2.2.2.2.2.2.2.2.2.2.2.2.2.1
@[simp] theorem poolTake_regions (i : Fin 20) (who : Option (Fin 8)) (n : ℕ) (s : State) : (poolTake i who n s).regions = s.regions := (poolTake_kept i who n s).2.2.2.2.2.2.2.2.2.2.2.2.2.2.2.2.2.2.2.2.2.2.2.2.1
@[simp] theorem poolTake_ring (i : Fin 20) (who : Option (Fin 8)) (n : ℕ) (s : State) : (poolTake i who n s).ring = s.ring := (poolTake_kept i who n s).2.2.2.2.2.2.2.2.2.2.2.2.2.2.2.2.2.2.2.2.2.2.2.2.2.1
@[simp] theorem poolTake_palette (i : Fin 20) (who : Option (Fin 8)) (n : ℕ) (s : State) : (poolTake i who n s).palette = s.palette := (poolTake_kept i who n s).2.2.2.2.2.2.2.2.2.2.2.2.2.2.2.2.2.2.2.2.2.2.2.2.2.2.1
@[simp] theorem poolTake_freeCtr (i : Fin 20) (who : Option (Fin 8)) (n : ℕ) (s : State) : (poolTake i who n s).freeCtr = s.freeCtr := (poolTake_kept i who n s).2.2.2.2.2.2.2.2.2.2.2.2.2.2.2.2.2.2.2.2.2.2.2.2.2.2.2
theorem poolGive_kept (i : Fin 20) (who : Option (Fin 8)) (n : ℕ) (s : State) :
    (poolGive i who n s).pending = s.pending ∧ (poolGive i who n s).power = s.power ∧ (poolGive i who n s).standby =
    s.standby ∧ (poolGive i who n s).clk = s.clk ∧ (poolGive i who n s).restart = s.restart ∧ (poolGive i who n
    s).ident = s.ident ∧ (poolGive i who n s).nv = s.nv ∧ (poolGive i who n s).log = s.log ∧ (poolGive i who n
    s).pathC = s.pathC ∧ (poolGive i who n s).pathM = s.pathM ∧ (poolGive i who n s).cport = s.cport ∧ (poolGive i
    who n s).mgmt = s.mgmt ∧ (poolGive i who n s).scratch = s.scratch ∧ (poolGive i who n s).hbu = s.hbu ∧ (poolGive
    i who n s).dma = s.dma ∧ (poolGive i who n s).queues = s.queues ∧ (poolGive i who n s).members = s.members ∧
    (poolGive i who n s).arrs = s.arrs ∧ (poolGive i who n s).vols = s.vols ∧ (poolGive i who n s).canvas = s.canvas
    ∧ (poolGive i who n s).skb = s.skb ∧ (poolGive i who n s).studios = s.studios ∧ (poolGive i who n s).referee =
    s.referee ∧ (poolGive i who n s).roster = s.roster ∧ (poolGive i who n s).regions = s.regions ∧ (poolGive i who
    n s).ring = s.ring ∧ (poolGive i who n s).palette = s.palette ∧ (poolGive i who n s).freeCtr = s.freeCtr := ⟨rfl, rfl, rfl, rfl, rfl, rfl, rfl, rfl, rfl, rfl, rfl, rfl, rfl, rfl, rfl, rfl, rfl, rfl, rfl, rfl, rfl, rfl, rfl, rfl, rfl, rfl, rfl, rfl⟩
@[simp] theorem poolGive_pending (i : Fin 20) (who : Option (Fin 8)) (n : ℕ) (s : State) : (poolGive i who n s).pending = s.pending := (poolGive_kept i who n s).1
@[simp] theorem poolGive_power (i : Fin 20) (who : Option (Fin 8)) (n : ℕ) (s : State) : (poolGive i who n s).power = s.power := (poolGive_kept i who n s).2.1
@[simp] theorem poolGive_standby (i : Fin 20) (who : Option (Fin 8)) (n : ℕ) (s : State) : (poolGive i who n s).standby = s.standby := (poolGive_kept i who n s).2.2.1
@[simp] theorem poolGive_clk (i : Fin 20) (who : Option (Fin 8)) (n : ℕ) (s : State) : (poolGive i who n s).clk = s.clk := (poolGive_kept i who n s).2.2.2.1
@[simp] theorem poolGive_restart (i : Fin 20) (who : Option (Fin 8)) (n : ℕ) (s : State) : (poolGive i who n s).restart = s.restart := (poolGive_kept i who n s).2.2.2.2.1
@[simp] theorem poolGive_ident (i : Fin 20) (who : Option (Fin 8)) (n : ℕ) (s : State) : (poolGive i who n s).ident = s.ident := (poolGive_kept i who n s).2.2.2.2.2.1
@[simp] theorem poolGive_nv (i : Fin 20) (who : Option (Fin 8)) (n : ℕ) (s : State) : (poolGive i who n s).nv = s.nv := (poolGive_kept i who n s).2.2.2.2.2.2.1
@[simp] theorem poolGive_log (i : Fin 20) (who : Option (Fin 8)) (n : ℕ) (s : State) : (poolGive i who n s).log = s.log := (poolGive_kept i who n s).2.2.2.2.2.2.2.1
@[simp] theorem poolGive_pathC (i : Fin 20) (who : Option (Fin 8)) (n : ℕ) (s : State) : (poolGive i who n s).pathC = s.pathC := (poolGive_kept i who n s).2.2.2.2.2.2.2.2.1
@[simp] theorem poolGive_pathM (i : Fin 20) (who : Option (Fin 8)) (n : ℕ) (s : State) : (poolGive i who n s).pathM = s.pathM := (poolGive_kept i who n s).2.2.2.2.2.2.2.2.2.1
@[simp] theorem poolGive_cport (i : Fin 20) (who : Option (Fin 8)) (n : ℕ) (s : State) : (poolGive i who n s).cport = s.cport := (poolGive_kept i who n s).2.2.2.2.2.2.2.2.2.2.1
@[simp] theorem poolGive_mgmt (i : Fin 20) (who : Option (Fin 8)) (n : ℕ) (s : State) : (poolGive i who n s).mgmt = s.mgmt := (poolGive_kept i who n s).2.2.2.2.2.2.2.2.2.2.2.1
@[simp] theorem poolGive_scratch (i : Fin 20) (who : Option (Fin 8)) (n : ℕ) (s : State) : (poolGive i who n s).scratch = s.scratch := (poolGive_kept i who n s).2.2.2.2.2.2.2.2.2.2.2.2.1
@[simp] theorem poolGive_hbu (i : Fin 20) (who : Option (Fin 8)) (n : ℕ) (s : State) : (poolGive i who n s).hbu = s.hbu := (poolGive_kept i who n s).2.2.2.2.2.2.2.2.2.2.2.2.2.1
@[simp] theorem poolGive_dma (i : Fin 20) (who : Option (Fin 8)) (n : ℕ) (s : State) : (poolGive i who n s).dma = s.dma := (poolGive_kept i who n s).2.2.2.2.2.2.2.2.2.2.2.2.2.2.1
@[simp] theorem poolGive_queues (i : Fin 20) (who : Option (Fin 8)) (n : ℕ) (s : State) : (poolGive i who n s).queues = s.queues := (poolGive_kept i who n s).2.2.2.2.2.2.2.2.2.2.2.2.2.2.2.1
@[simp] theorem poolGive_members (i : Fin 20) (who : Option (Fin 8)) (n : ℕ) (s : State) : (poolGive i who n s).members = s.members := (poolGive_kept i who n s).2.2.2.2.2.2.2.2.2.2.2.2.2.2.2.2.1
@[simp] theorem poolGive_arrs (i : Fin 20) (who : Option (Fin 8)) (n : ℕ) (s : State) : (poolGive i who n s).arrs = s.arrs := (poolGive_kept i who n s).2.2.2.2.2.2.2.2.2.2.2.2.2.2.2.2.2.1
@[simp] theorem poolGive_vols (i : Fin 20) (who : Option (Fin 8)) (n : ℕ) (s : State) : (poolGive i who n s).vols = s.vols := (poolGive_kept i who n s).2.2.2.2.2.2.2.2.2.2.2.2.2.2.2.2.2.2.1
@[simp] theorem poolGive_canvas (i : Fin 20) (who : Option (Fin 8)) (n : ℕ) (s : State) : (poolGive i who n s).canvas = s.canvas := (poolGive_kept i who n s).2.2.2.2.2.2.2.2.2.2.2.2.2.2.2.2.2.2.2.1
@[simp] theorem poolGive_skb (i : Fin 20) (who : Option (Fin 8)) (n : ℕ) (s : State) : (poolGive i who n s).skb = s.skb := (poolGive_kept i who n s).2.2.2.2.2.2.2.2.2.2.2.2.2.2.2.2.2.2.2.2.1
@[simp] theorem poolGive_studios (i : Fin 20) (who : Option (Fin 8)) (n : ℕ) (s : State) : (poolGive i who n s).studios = s.studios := (poolGive_kept i who n s).2.2.2.2.2.2.2.2.2.2.2.2.2.2.2.2.2.2.2.2.2.1
@[simp] theorem poolGive_referee (i : Fin 20) (who : Option (Fin 8)) (n : ℕ) (s : State) : (poolGive i who n s).referee = s.referee := (poolGive_kept i who n s).2.2.2.2.2.2.2.2.2.2.2.2.2.2.2.2.2.2.2.2.2.2.1
@[simp] theorem poolGive_roster (i : Fin 20) (who : Option (Fin 8)) (n : ℕ) (s : State) : (poolGive i who n s).roster = s.roster := (poolGive_kept i who n s).2.2.2.2.2.2.2.2.2.2.2.2.2.2.2.2.2.2.2.2.2.2.2.1
@[simp] theorem poolGive_regions (i : Fin 20) (who : Option (Fin 8)) (n : ℕ) (s : State) : (poolGive i who n s).regions = s.regions := (poolGive_kept i who n s).2.2.2.2.2.2.2.2.2.2.2.2.2.2.2.2.2.2.2.2.2.2.2.2.1
@[simp] theorem poolGive_ring (i : Fin 20) (who : Option (Fin 8)) (n : ℕ) (s : State) : (poolGive i who n s).ring = s.ring := (poolGive_kept i who n s).2.2.2.2.2.2.2.2.2.2.2.2.2.2.2.2.2.2.2.2.2.2.2.2.2.1
@[simp] theorem poolGive_palette (i : Fin 20) (who : Option (Fin 8)) (n : ℕ) (s : State) : (poolGive i who n s).palette = s.palette := (poolGive_kept i who n s).2.2.2.2.2.2.2.2.2.2.2.2.2.2.2.2.2.2.2.2.2.2.2.2.2.2.1
@[simp] theorem poolGive_freeCtr (i : Fin 20) (who : Option (Fin 8)) (n : ℕ) (s : State) : (poolGive i who n s).freeCtr = s.freeCtr := (poolGive_kept i who n s).2.2.2.2.2.2.2.2.2.2.2.2.2.2.2.2.2.2.2.2.2.2.2.2.2.2.2
theorem poolMove_kept (i : Fin 20) (from' : Option (Fin 8)) (to' : Option (Fin 8)) (n : ℕ) (s : State) :
    (poolMove i from' to' n s).pending = s.pending ∧ (poolMove i from' to' n s).power = s.power ∧ (poolMove i from'
    to' n s).standby = s.standby ∧ (poolMove i from' to' n s).clk = s.clk ∧ (poolMove i from' to' n s).restart =
    s.restart ∧ (poolMove i from' to' n s).ident = s.ident ∧ (poolMove i from' to' n s).nv = s.nv ∧ (poolMove i
    from' to' n s).log = s.log ∧ (poolMove i from' to' n s).pathC = s.pathC ∧ (poolMove i from' to' n s).pathM =
    s.pathM ∧ (poolMove i from' to' n s).cport = s.cport ∧ (poolMove i from' to' n s).mgmt = s.mgmt ∧ (poolMove i
    from' to' n s).scratch = s.scratch ∧ (poolMove i from' to' n s).hbu = s.hbu ∧ (poolMove i from' to' n s).dma =
    s.dma ∧ (poolMove i from' to' n s).queues = s.queues ∧ (poolMove i from' to' n s).members = s.members ∧
    (poolMove i from' to' n s).arrs = s.arrs ∧ (poolMove i from' to' n s).vols = s.vols ∧ (poolMove i from' to' n
    s).canvas = s.canvas ∧ (poolMove i from' to' n s).skb = s.skb ∧ (poolMove i from' to' n s).studios = s.studios ∧
    (poolMove i from' to' n s).referee = s.referee ∧ (poolMove i from' to' n s).roster = s.roster ∧ (poolMove i
    from' to' n s).regions = s.regions ∧ (poolMove i from' to' n s).ring = s.ring ∧ (poolMove i from' to' n
    s).palette = s.palette ∧ (poolMove i from' to' n s).freeCtr = s.freeCtr := ⟨rfl, rfl, rfl, rfl, rfl, rfl, rfl, rfl, rfl, rfl, rfl, rfl, rfl, rfl, rfl, rfl, rfl, rfl, rfl, rfl, rfl, rfl, rfl, rfl, rfl, rfl, rfl, rfl⟩
@[simp] theorem poolMove_pending (i : Fin 20) (from' : Option (Fin 8)) (to' : Option (Fin 8)) (n : ℕ) (s : State) : (poolMove i from' to' n s).pending = s.pending := (poolMove_kept i from' to' n s).1
@[simp] theorem poolMove_power (i : Fin 20) (from' : Option (Fin 8)) (to' : Option (Fin 8)) (n : ℕ) (s : State) : (poolMove i from' to' n s).power = s.power := (poolMove_kept i from' to' n s).2.1
@[simp] theorem poolMove_standby (i : Fin 20) (from' : Option (Fin 8)) (to' : Option (Fin 8)) (n : ℕ) (s : State) : (poolMove i from' to' n s).standby = s.standby := (poolMove_kept i from' to' n s).2.2.1
@[simp] theorem poolMove_clk (i : Fin 20) (from' : Option (Fin 8)) (to' : Option (Fin 8)) (n : ℕ) (s : State) : (poolMove i from' to' n s).clk = s.clk := (poolMove_kept i from' to' n s).2.2.2.1
@[simp] theorem poolMove_restart (i : Fin 20) (from' : Option (Fin 8)) (to' : Option (Fin 8)) (n : ℕ) (s : State) : (poolMove i from' to' n s).restart = s.restart := (poolMove_kept i from' to' n s).2.2.2.2.1
@[simp] theorem poolMove_ident (i : Fin 20) (from' : Option (Fin 8)) (to' : Option (Fin 8)) (n : ℕ) (s : State) : (poolMove i from' to' n s).ident = s.ident := (poolMove_kept i from' to' n s).2.2.2.2.2.1
@[simp] theorem poolMove_nv (i : Fin 20) (from' : Option (Fin 8)) (to' : Option (Fin 8)) (n : ℕ) (s : State) : (poolMove i from' to' n s).nv = s.nv := (poolMove_kept i from' to' n s).2.2.2.2.2.2.1
@[simp] theorem poolMove_log (i : Fin 20) (from' : Option (Fin 8)) (to' : Option (Fin 8)) (n : ℕ) (s : State) : (poolMove i from' to' n s).log = s.log := (poolMove_kept i from' to' n s).2.2.2.2.2.2.2.1
@[simp] theorem poolMove_pathC (i : Fin 20) (from' : Option (Fin 8)) (to' : Option (Fin 8)) (n : ℕ) (s : State) : (poolMove i from' to' n s).pathC = s.pathC := (poolMove_kept i from' to' n s).2.2.2.2.2.2.2.2.1
@[simp] theorem poolMove_pathM (i : Fin 20) (from' : Option (Fin 8)) (to' : Option (Fin 8)) (n : ℕ) (s : State) : (poolMove i from' to' n s).pathM = s.pathM := (poolMove_kept i from' to' n s).2.2.2.2.2.2.2.2.2.1
@[simp] theorem poolMove_cport (i : Fin 20) (from' : Option (Fin 8)) (to' : Option (Fin 8)) (n : ℕ) (s : State) : (poolMove i from' to' n s).cport = s.cport := (poolMove_kept i from' to' n s).2.2.2.2.2.2.2.2.2.2.1
@[simp] theorem poolMove_mgmt (i : Fin 20) (from' : Option (Fin 8)) (to' : Option (Fin 8)) (n : ℕ) (s : State) : (poolMove i from' to' n s).mgmt = s.mgmt := (poolMove_kept i from' to' n s).2.2.2.2.2.2.2.2.2.2.2.1
@[simp] theorem poolMove_scratch (i : Fin 20) (from' : Option (Fin 8)) (to' : Option (Fin 8)) (n : ℕ) (s : State) : (poolMove i from' to' n s).scratch = s.scratch := (poolMove_kept i from' to' n s).2.2.2.2.2.2.2.2.2.2.2.2.1
@[simp] theorem poolMove_hbu (i : Fin 20) (from' : Option (Fin 8)) (to' : Option (Fin 8)) (n : ℕ) (s : State) : (poolMove i from' to' n s).hbu = s.hbu := (poolMove_kept i from' to' n s).2.2.2.2.2.2.2.2.2.2.2.2.2.1
@[simp] theorem poolMove_dma (i : Fin 20) (from' : Option (Fin 8)) (to' : Option (Fin 8)) (n : ℕ) (s : State) : (poolMove i from' to' n s).dma = s.dma := (poolMove_kept i from' to' n s).2.2.2.2.2.2.2.2.2.2.2.2.2.2.1
@[simp] theorem poolMove_queues (i : Fin 20) (from' : Option (Fin 8)) (to' : Option (Fin 8)) (n : ℕ) (s : State) : (poolMove i from' to' n s).queues = s.queues := (poolMove_kept i from' to' n s).2.2.2.2.2.2.2.2.2.2.2.2.2.2.2.1
@[simp] theorem poolMove_members (i : Fin 20) (from' : Option (Fin 8)) (to' : Option (Fin 8)) (n : ℕ) (s : State) : (poolMove i from' to' n s).members = s.members := (poolMove_kept i from' to' n s).2.2.2.2.2.2.2.2.2.2.2.2.2.2.2.2.1
@[simp] theorem poolMove_arrs (i : Fin 20) (from' : Option (Fin 8)) (to' : Option (Fin 8)) (n : ℕ) (s : State) : (poolMove i from' to' n s).arrs = s.arrs := (poolMove_kept i from' to' n s).2.2.2.2.2.2.2.2.2.2.2.2.2.2.2.2.2.1
@[simp] theorem poolMove_vols (i : Fin 20) (from' : Option (Fin 8)) (to' : Option (Fin 8)) (n : ℕ) (s : State) : (poolMove i from' to' n s).vols = s.vols := (poolMove_kept i from' to' n s).2.2.2.2.2.2.2.2.2.2.2.2.2.2.2.2.2.2.1
@[simp] theorem poolMove_canvas (i : Fin 20) (from' : Option (Fin 8)) (to' : Option (Fin 8)) (n : ℕ) (s : State) : (poolMove i from' to' n s).canvas = s.canvas := (poolMove_kept i from' to' n s).2.2.2.2.2.2.2.2.2.2.2.2.2.2.2.2.2.2.2.1
@[simp] theorem poolMove_skb (i : Fin 20) (from' : Option (Fin 8)) (to' : Option (Fin 8)) (n : ℕ) (s : State) : (poolMove i from' to' n s).skb = s.skb := (poolMove_kept i from' to' n s).2.2.2.2.2.2.2.2.2.2.2.2.2.2.2.2.2.2.2.2.1
@[simp] theorem poolMove_studios (i : Fin 20) (from' : Option (Fin 8)) (to' : Option (Fin 8)) (n : ℕ) (s : State) : (poolMove i from' to' n s).studios = s.studios := (poolMove_kept i from' to' n s).2.2.2.2.2.2.2.2.2.2.2.2.2.2.2.2.2.2.2.2.2.1
@[simp] theorem poolMove_referee (i : Fin 20) (from' : Option (Fin 8)) (to' : Option (Fin 8)) (n : ℕ) (s : State) : (poolMove i from' to' n s).referee = s.referee := (poolMove_kept i from' to' n s).2.2.2.2.2.2.2.2.2.2.2.2.2.2.2.2.2.2.2.2.2.2.1
@[simp] theorem poolMove_roster (i : Fin 20) (from' : Option (Fin 8)) (to' : Option (Fin 8)) (n : ℕ) (s : State) : (poolMove i from' to' n s).roster = s.roster := (poolMove_kept i from' to' n s).2.2.2.2.2.2.2.2.2.2.2.2.2.2.2.2.2.2.2.2.2.2.2.1
@[simp] theorem poolMove_regions (i : Fin 20) (from' : Option (Fin 8)) (to' : Option (Fin 8)) (n : ℕ) (s : State) : (poolMove i from' to' n s).regions = s.regions := (poolMove_kept i from' to' n s).2.2.2.2.2.2.2.2.2.2.2.2.2.2.2.2.2.2.2.2.2.2.2.2.1
@[simp] theorem poolMove_ring (i : Fin 20) (from' : Option (Fin 8)) (to' : Option (Fin 8)) (n : ℕ) (s : State) : (poolMove i from' to' n s).ring = s.ring := (poolMove_kept i from' to' n s).2.2.2.2.2.2.2.2.2.2.2.2.2.2.2.2.2.2.2.2.2.2.2.2.2.1
@[simp] theorem poolMove_palette (i : Fin 20) (from' : Option (Fin 8)) (to' : Option (Fin 8)) (n : ℕ) (s : State) : (poolMove i from' to' n s).palette = s.palette := (poolMove_kept i from' to' n s).2.2.2.2.2.2.2.2.2.2.2.2.2.2.2.2.2.2.2.2.2.2.2.2.2.2.1
@[simp] theorem poolMove_freeCtr (i : Fin 20) (from' : Option (Fin 8)) (to' : Option (Fin 8)) (n : ℕ) (s : State) : (poolMove i from' to' n s).freeCtr = s.freeCtr := (poolMove_kept i from' to' n s).2.2.2.2.2.2.2.2.2.2.2.2.2.2.2.2.2.2.2.2.2.2.2.2.2.2.2
theorem poolWait_kept (r : PoolReq) (s : State) :
    (poolWait r s).pending = s.pending ∧ (poolWait r s).power = s.power ∧ (poolWait r s).standby = s.standby ∧
    (poolWait r s).clk = s.clk ∧ (poolWait r s).restart = s.restart ∧ (poolWait r s).ident = s.ident ∧ (poolWait r
    s).nv = s.nv ∧ (poolWait r s).log = s.log ∧ (poolWait r s).pathC = s.pathC ∧ (poolWait r s).pathM = s.pathM ∧
    (poolWait r s).cport = s.cport ∧ (poolWait r s).mgmt = s.mgmt ∧ (poolWait r s).scratch = s.scratch ∧ (poolWait r
    s).hbu = s.hbu ∧ (poolWait r s).dma = s.dma ∧ (poolWait r s).queues = s.queues ∧ (poolWait r s).members =
    s.members ∧ (poolWait r s).arrs = s.arrs ∧ (poolWait r s).vols = s.vols ∧ (poolWait r s).canvas = s.canvas ∧
    (poolWait r s).skb = s.skb ∧ (poolWait r s).studios = s.studios ∧ (poolWait r s).referee = s.referee ∧ (poolWait
    r s).roster = s.roster ∧ (poolWait r s).regions = s.regions ∧ (poolWait r s).ring = s.ring ∧ (poolWait r
    s).palette = s.palette ∧ (poolWait r s).freeCtr = s.freeCtr := ⟨rfl, rfl, rfl, rfl, rfl, rfl, rfl, rfl, rfl, rfl, rfl, rfl, rfl, rfl, rfl, rfl, rfl, rfl, rfl, rfl, rfl, rfl, rfl, rfl, rfl, rfl, rfl, rfl⟩
@[simp] theorem poolWait_pending (r : PoolReq) (s : State) : (poolWait r s).pending = s.pending := (poolWait_kept r s).1
@[simp] theorem poolWait_power (r : PoolReq) (s : State) : (poolWait r s).power = s.power := (poolWait_kept r s).2.1
@[simp] theorem poolWait_standby (r : PoolReq) (s : State) : (poolWait r s).standby = s.standby := (poolWait_kept r s).2.2.1
@[simp] theorem poolWait_clk (r : PoolReq) (s : State) : (poolWait r s).clk = s.clk := (poolWait_kept r s).2.2.2.1
@[simp] theorem poolWait_restart (r : PoolReq) (s : State) : (poolWait r s).restart = s.restart := (poolWait_kept r s).2.2.2.2.1
@[simp] theorem poolWait_ident (r : PoolReq) (s : State) : (poolWait r s).ident = s.ident := (poolWait_kept r s).2.2.2.2.2.1
@[simp] theorem poolWait_nv (r : PoolReq) (s : State) : (poolWait r s).nv = s.nv := (poolWait_kept r s).2.2.2.2.2.2.1
@[simp] theorem poolWait_log (r : PoolReq) (s : State) : (poolWait r s).log = s.log := (poolWait_kept r s).2.2.2.2.2.2.2.1
@[simp] theorem poolWait_pathC (r : PoolReq) (s : State) : (poolWait r s).pathC = s.pathC := (poolWait_kept r s).2.2.2.2.2.2.2.2.1
@[simp] theorem poolWait_pathM (r : PoolReq) (s : State) : (poolWait r s).pathM = s.pathM := (poolWait_kept r s).2.2.2.2.2.2.2.2.2.1
@[simp] theorem poolWait_cport (r : PoolReq) (s : State) : (poolWait r s).cport = s.cport := (poolWait_kept r s).2.2.2.2.2.2.2.2.2.2.1
@[simp] theorem poolWait_mgmt (r : PoolReq) (s : State) : (poolWait r s).mgmt = s.mgmt := (poolWait_kept r s).2.2.2.2.2.2.2.2.2.2.2.1
@[simp] theorem poolWait_scratch (r : PoolReq) (s : State) : (poolWait r s).scratch = s.scratch := (poolWait_kept r s).2.2.2.2.2.2.2.2.2.2.2.2.1
@[simp] theorem poolWait_hbu (r : PoolReq) (s : State) : (poolWait r s).hbu = s.hbu := (poolWait_kept r s).2.2.2.2.2.2.2.2.2.2.2.2.2.1
@[simp] theorem poolWait_dma (r : PoolReq) (s : State) : (poolWait r s).dma = s.dma := (poolWait_kept r s).2.2.2.2.2.2.2.2.2.2.2.2.2.2.1
@[simp] theorem poolWait_queues (r : PoolReq) (s : State) : (poolWait r s).queues = s.queues := (poolWait_kept r s).2.2.2.2.2.2.2.2.2.2.2.2.2.2.2.1
@[simp] theorem poolWait_members (r : PoolReq) (s : State) : (poolWait r s).members = s.members := (poolWait_kept r s).2.2.2.2.2.2.2.2.2.2.2.2.2.2.2.2.1
@[simp] theorem poolWait_arrs (r : PoolReq) (s : State) : (poolWait r s).arrs = s.arrs := (poolWait_kept r s).2.2.2.2.2.2.2.2.2.2.2.2.2.2.2.2.2.1
@[simp] theorem poolWait_vols (r : PoolReq) (s : State) : (poolWait r s).vols = s.vols := (poolWait_kept r s).2.2.2.2.2.2.2.2.2.2.2.2.2.2.2.2.2.2.1
@[simp] theorem poolWait_canvas (r : PoolReq) (s : State) : (poolWait r s).canvas = s.canvas := (poolWait_kept r s).2.2.2.2.2.2.2.2.2.2.2.2.2.2.2.2.2.2.2.1
@[simp] theorem poolWait_skb (r : PoolReq) (s : State) : (poolWait r s).skb = s.skb := (poolWait_kept r s).2.2.2.2.2.2.2.2.2.2.2.2.2.2.2.2.2.2.2.2.1
@[simp] theorem poolWait_studios (r : PoolReq) (s : State) : (poolWait r s).studios = s.studios := (poolWait_kept r s).2.2.2.2.2.2.2.2.2.2.2.2.2.2.2.2.2.2.2.2.2.1
@[simp] theorem poolWait_referee (r : PoolReq) (s : State) : (poolWait r s).referee = s.referee := (poolWait_kept r s).2.2.2.2.2.2.2.2.2.2.2.2.2.2.2.2.2.2.2.2.2.2.1
@[simp] theorem poolWait_roster (r : PoolReq) (s : State) : (poolWait r s).roster = s.roster := (poolWait_kept r s).2.2.2.2.2.2.2.2.2.2.2.2.2.2.2.2.2.2.2.2.2.2.2.1
@[simp] theorem poolWait_regions (r : PoolReq) (s : State) : (poolWait r s).regions = s.regions := (poolWait_kept r s).2.2.2.2.2.2.2.2.2.2.2.2.2.2.2.2.2.2.2.2.2.2.2.2.1
@[simp] theorem poolWait_ring (r : PoolReq) (s : State) : (poolWait r s).ring = s.ring := (poolWait_kept r s).2.2.2.2.2.2.2.2.2.2.2.2.2.2.2.2.2.2.2.2.2.2.2.2.2.1
@[simp] theorem poolWait_palette (r : PoolReq) (s : State) : (poolWait r s).palette = s.palette := (poolWait_kept r s).2.2.2.2.2.2.2.2.2.2.2.2.2.2.2.2.2.2.2.2.2.2.2.2.2.2.1
@[simp] theorem poolWait_freeCtr (r : PoolReq) (s : State) : (poolWait r s).freeCtr = s.freeCtr := (poolWait_kept r s).2.2.2.2.2.2.2.2.2.2.2.2.2.2.2.2.2.2.2.2.2.2.2.2.2.2.2
theorem sendLink_kept (fb : Bool) (s : State) :
    (sendLink fb s).pending = s.pending ∧ (sendLink fb s).power = s.power ∧ (sendLink fb s).standby = s.standby ∧
    (sendLink fb s).clk = s.clk ∧ (sendLink fb s).restart = s.restart ∧ (sendLink fb s).ident = s.ident ∧ (sendLink
    fb s).nv = s.nv ∧ (sendLink fb s).log = s.log ∧ (sendLink fb s).pathC = s.pathC ∧ (sendLink fb s).pathM =
    s.pathM ∧ (sendLink fb s).cport = s.cport ∧ (sendLink fb s).mgmt = s.mgmt ∧ (sendLink fb s).scratch = s.scratch
    ∧ (sendLink fb s).hbu = s.hbu ∧ (sendLink fb s).ledger = s.ledger ∧ (sendLink fb s).dma = s.dma ∧ (sendLink fb
    s).queues = s.queues ∧ (sendLink fb s).members = s.members ∧ (sendLink fb s).arrs = s.arrs ∧ (sendLink fb
    s).vols = s.vols ∧ (sendLink fb s).canvas = s.canvas ∧ (sendLink fb s).skb = s.skb ∧ (sendLink fb s).studios =
    s.studios ∧ (sendLink fb s).referee = s.referee ∧ (sendLink fb s).roster = s.roster ∧ (sendLink fb s).regions =
    s.regions ∧ (sendLink fb s).palette = s.palette ∧ (sendLink fb s).freeCtr = s.freeCtr := by simp [sendLink]
@[simp] theorem sendLink_pending (fb : Bool) (s : State) : (sendLink fb s).pending = s.pending := (sendLink_kept fb s).1
@[simp] theorem sendLink_power (fb : Bool) (s : State) : (sendLink fb s).power = s.power := (sendLink_kept fb s).2.1
@[simp] theorem sendLink_standby (fb : Bool) (s : State) : (sendLink fb s).standby = s.standby := (sendLink_kept fb s).2.2.1
@[simp] theorem sendLink_clk (fb : Bool) (s : State) : (sendLink fb s).clk = s.clk := (sendLink_kept fb s).2.2.2.1
@[simp] theorem sendLink_restart (fb : Bool) (s : State) : (sendLink fb s).restart = s.restart := (sendLink_kept fb s).2.2.2.2.1
@[simp] theorem sendLink_ident (fb : Bool) (s : State) : (sendLink fb s).ident = s.ident := (sendLink_kept fb s).2.2.2.2.2.1
@[simp] theorem sendLink_nv (fb : Bool) (s : State) : (sendLink fb s).nv = s.nv := (sendLink_kept fb s).2.2.2.2.2.2.1
@[simp] theorem sendLink_log (fb : Bool) (s : State) : (sendLink fb s).log = s.log := (sendLink_kept fb s).2.2.2.2.2.2.2.1
@[simp] theorem sendLink_pathC (fb : Bool) (s : State) : (sendLink fb s).pathC = s.pathC := (sendLink_kept fb s).2.2.2.2.2.2.2.2.1
@[simp] theorem sendLink_pathM (fb : Bool) (s : State) : (sendLink fb s).pathM = s.pathM := (sendLink_kept fb s).2.2.2.2.2.2.2.2.2.1
@[simp] theorem sendLink_cport (fb : Bool) (s : State) : (sendLink fb s).cport = s.cport := (sendLink_kept fb s).2.2.2.2.2.2.2.2.2.2.1
@[simp] theorem sendLink_mgmt (fb : Bool) (s : State) : (sendLink fb s).mgmt = s.mgmt := (sendLink_kept fb s).2.2.2.2.2.2.2.2.2.2.2.1
@[simp] theorem sendLink_scratch (fb : Bool) (s : State) : (sendLink fb s).scratch = s.scratch := (sendLink_kept fb s).2.2.2.2.2.2.2.2.2.2.2.2.1
@[simp] theorem sendLink_hbu (fb : Bool) (s : State) : (sendLink fb s).hbu = s.hbu := (sendLink_kept fb s).2.2.2.2.2.2.2.2.2.2.2.2.2.1
@[simp] theorem sendLink_ledger (fb : Bool) (s : State) : (sendLink fb s).ledger = s.ledger := (sendLink_kept fb s).2.2.2.2.2.2.2.2.2.2.2.2.2.2.1
@[simp] theorem sendLink_dma (fb : Bool) (s : State) : (sendLink fb s).dma = s.dma := (sendLink_kept fb s).2.2.2.2.2.2.2.2.2.2.2.2.2.2.2.1
@[simp] theorem sendLink_queues (fb : Bool) (s : State) : (sendLink fb s).queues = s.queues := (sendLink_kept fb s).2.2.2.2.2.2.2.2.2.2.2.2.2.2.2.2.1
@[simp] theorem sendLink_members (fb : Bool) (s : State) : (sendLink fb s).members = s.members := (sendLink_kept fb s).2.2.2.2.2.2.2.2.2.2.2.2.2.2.2.2.2.1
@[simp] theorem sendLink_arrs (fb : Bool) (s : State) : (sendLink fb s).arrs = s.arrs := (sendLink_kept fb s).2.2.2.2.2.2.2.2.2.2.2.2.2.2.2.2.2.2.1
@[simp] theorem sendLink_vols (fb : Bool) (s : State) : (sendLink fb s).vols = s.vols := (sendLink_kept fb s).2.2.2.2.2.2.2.2.2.2.2.2.2.2.2.2.2.2.2.1
@[simp] theorem sendLink_canvas (fb : Bool) (s : State) : (sendLink fb s).canvas = s.canvas := (sendLink_kept fb s).2.2.2.2.2.2.2.2.2.2.2.2.2.2.2.2.2.2.2.2.1
@[simp] theorem sendLink_skb (fb : Bool) (s : State) : (sendLink fb s).skb = s.skb := (sendLink_kept fb s).2.2.2.2.2.2.2.2.2.2.2.2.2.2.2.2.2.2.2.2.2.1
@[simp] theorem sendLink_studios (fb : Bool) (s : State) : (sendLink fb s).studios = s.studios := (sendLink_kept fb s).2.2.2.2.2.2.2.2.2.2.2.2.2.2.2.2.2.2.2.2.2.2.1
@[simp] theorem sendLink_referee (fb : Bool) (s : State) : (sendLink fb s).referee = s.referee := (sendLink_kept fb s).2.2.2.2.2.2.2.2.2.2.2.2.2.2.2.2.2.2.2.2.2.2.2.1
@[simp] theorem sendLink_roster (fb : Bool) (s : State) : (sendLink fb s).roster = s.roster := (sendLink_kept fb s).2.2.2.2.2.2.2.2.2.2.2.2.2.2.2.2.2.2.2.2.2.2.2.2.1
@[simp] theorem sendLink_regions (fb : Bool) (s : State) : (sendLink fb s).regions = s.regions := (sendLink_kept fb s).2.2.2.2.2.2.2.2.2.2.2.2.2.2.2.2.2.2.2.2.2.2.2.2.2.1
@[simp] theorem sendLink_palette (fb : Bool) (s : State) : (sendLink fb s).palette = s.palette := (sendLink_kept fb s).2.2.2.2.2.2.2.2.2.2.2.2.2.2.2.2.2.2.2.2.2.2.2.2.2.2.1
@[simp] theorem sendLink_freeCtr (fb : Bool) (s : State) : (sendLink fb s).freeCtr = s.freeCtr := (sendLink_kept fb s).2.2.2.2.2.2.2.2.2.2.2.2.2.2.2.2.2.2.2.2.2.2.2.2.2.2.2
theorem creditBack_kept (fb : Bool) (ch : Fin 3) (len : ℕ) (s : State) :
    (creditBack fb ch len s).pending = s.pending ∧ (creditBack fb ch len s).power = s.power ∧ (creditBack fb ch len
    s).standby = s.standby ∧ (creditBack fb ch len s).clk = s.clk ∧ (creditBack fb ch len s).restart = s.restart ∧
    (creditBack fb ch len s).ident = s.ident ∧ (creditBack fb ch len s).nv = s.nv ∧ (creditBack fb ch len s).log =
    s.log ∧ (creditBack fb ch len s).pathC = s.pathC ∧ (creditBack fb ch len s).pathM = s.pathM ∧ (creditBack fb ch
    len s).cport = s.cport ∧ (creditBack fb ch len s).mgmt = s.mgmt ∧ (creditBack fb ch len s).scratch = s.scratch ∧
    (creditBack fb ch len s).hbu = s.hbu ∧ (creditBack fb ch len s).ledger = s.ledger ∧ (creditBack fb ch len s).dma
    = s.dma ∧ (creditBack fb ch len s).queues = s.queues ∧ (creditBack fb ch len s).members = s.members ∧
    (creditBack fb ch len s).arrs = s.arrs ∧ (creditBack fb ch len s).vols = s.vols ∧ (creditBack fb ch len
    s).canvas = s.canvas ∧ (creditBack fb ch len s).skb = s.skb ∧ (creditBack fb ch len s).studios = s.studios ∧
    (creditBack fb ch len s).referee = s.referee ∧ (creditBack fb ch len s).roster = s.roster ∧ (creditBack fb ch
    len s).regions = s.regions ∧ (creditBack fb ch len s).palette = s.palette ∧ (creditBack fb ch len s).freeCtr =
    s.freeCtr := by
  simp only [creditBack]; (repeat' split) <;> simp
@[simp] theorem creditBack_pending (fb : Bool) (ch : Fin 3) (len : ℕ) (s : State) : (creditBack fb ch len s).pending = s.pending := (creditBack_kept fb ch len s).1
@[simp] theorem creditBack_power (fb : Bool) (ch : Fin 3) (len : ℕ) (s : State) : (creditBack fb ch len s).power = s.power := (creditBack_kept fb ch len s).2.1
@[simp] theorem creditBack_standby (fb : Bool) (ch : Fin 3) (len : ℕ) (s : State) : (creditBack fb ch len s).standby = s.standby := (creditBack_kept fb ch len s).2.2.1
@[simp] theorem creditBack_clk (fb : Bool) (ch : Fin 3) (len : ℕ) (s : State) : (creditBack fb ch len s).clk = s.clk := (creditBack_kept fb ch len s).2.2.2.1
@[simp] theorem creditBack_restart (fb : Bool) (ch : Fin 3) (len : ℕ) (s : State) : (creditBack fb ch len s).restart = s.restart := (creditBack_kept fb ch len s).2.2.2.2.1
@[simp] theorem creditBack_ident (fb : Bool) (ch : Fin 3) (len : ℕ) (s : State) : (creditBack fb ch len s).ident = s.ident := (creditBack_kept fb ch len s).2.2.2.2.2.1
@[simp] theorem creditBack_nv (fb : Bool) (ch : Fin 3) (len : ℕ) (s : State) : (creditBack fb ch len s).nv = s.nv := (creditBack_kept fb ch len s).2.2.2.2.2.2.1
@[simp] theorem creditBack_log (fb : Bool) (ch : Fin 3) (len : ℕ) (s : State) : (creditBack fb ch len s).log = s.log := (creditBack_kept fb ch len s).2.2.2.2.2.2.2.1
@[simp] theorem creditBack_pathC (fb : Bool) (ch : Fin 3) (len : ℕ) (s : State) : (creditBack fb ch len s).pathC = s.pathC := (creditBack_kept fb ch len s).2.2.2.2.2.2.2.2.1
@[simp] theorem creditBack_pathM (fb : Bool) (ch : Fin 3) (len : ℕ) (s : State) : (creditBack fb ch len s).pathM = s.pathM := (creditBack_kept fb ch len s).2.2.2.2.2.2.2.2.2.1
@[simp] theorem creditBack_cport (fb : Bool) (ch : Fin 3) (len : ℕ) (s : State) : (creditBack fb ch len s).cport = s.cport := (creditBack_kept fb ch len s).2.2.2.2.2.2.2.2.2.2.1
@[simp] theorem creditBack_mgmt (fb : Bool) (ch : Fin 3) (len : ℕ) (s : State) : (creditBack fb ch len s).mgmt = s.mgmt := (creditBack_kept fb ch len s).2.2.2.2.2.2.2.2.2.2.2.1
@[simp] theorem creditBack_scratch (fb : Bool) (ch : Fin 3) (len : ℕ) (s : State) : (creditBack fb ch len s).scratch = s.scratch := (creditBack_kept fb ch len s).2.2.2.2.2.2.2.2.2.2.2.2.1
@[simp] theorem creditBack_hbu (fb : Bool) (ch : Fin 3) (len : ℕ) (s : State) : (creditBack fb ch len s).hbu = s.hbu := (creditBack_kept fb ch len s).2.2.2.2.2.2.2.2.2.2.2.2.2.1
@[simp] theorem creditBack_ledger (fb : Bool) (ch : Fin 3) (len : ℕ) (s : State) : (creditBack fb ch len s).ledger = s.ledger := (creditBack_kept fb ch len s).2.2.2.2.2.2.2.2.2.2.2.2.2.2.1
@[simp] theorem creditBack_dma (fb : Bool) (ch : Fin 3) (len : ℕ) (s : State) : (creditBack fb ch len s).dma = s.dma := (creditBack_kept fb ch len s).2.2.2.2.2.2.2.2.2.2.2.2.2.2.2.1
@[simp] theorem creditBack_queues (fb : Bool) (ch : Fin 3) (len : ℕ) (s : State) : (creditBack fb ch len s).queues = s.queues := (creditBack_kept fb ch len s).2.2.2.2.2.2.2.2.2.2.2.2.2.2.2.2.1
@[simp] theorem creditBack_members (fb : Bool) (ch : Fin 3) (len : ℕ) (s : State) : (creditBack fb ch len s).members = s.members := (creditBack_kept fb ch len s).2.2.2.2.2.2.2.2.2.2.2.2.2.2.2.2.2.1
@[simp] theorem creditBack_arrs (fb : Bool) (ch : Fin 3) (len : ℕ) (s : State) : (creditBack fb ch len s).arrs = s.arrs := (creditBack_kept fb ch len s).2.2.2.2.2.2.2.2.2.2.2.2.2.2.2.2.2.2.1
@[simp] theorem creditBack_vols (fb : Bool) (ch : Fin 3) (len : ℕ) (s : State) : (creditBack fb ch len s).vols = s.vols := (creditBack_kept fb ch len s).2.2.2.2.2.2.2.2.2.2.2.2.2.2.2.2.2.2.2.1
@[simp] theorem creditBack_canvas (fb : Bool) (ch : Fin 3) (len : ℕ) (s : State) : (creditBack fb ch len s).canvas = s.canvas := (creditBack_kept fb ch len s).2.2.2.2.2.2.2.2.2.2.2.2.2.2.2.2.2.2.2.2.1
@[simp] theorem creditBack_skb (fb : Bool) (ch : Fin 3) (len : ℕ) (s : State) : (creditBack fb ch len s).skb = s.skb := (creditBack_kept fb ch len s).2.2.2.2.2.2.2.2.2.2.2.2.2.2.2.2.2.2.2.2.2.1
@[simp] theorem creditBack_studios (fb : Bool) (ch : Fin 3) (len : ℕ) (s : State) : (creditBack fb ch len s).studios = s.studios := (creditBack_kept fb ch len s).2.2.2.2.2.2.2.2.2.2.2.2.2.2.2.2.2.2.2.2.2.2.1
@[simp] theorem creditBack_referee (fb : Bool) (ch : Fin 3) (len : ℕ) (s : State) : (creditBack fb ch len s).referee = s.referee := (creditBack_kept fb ch len s).2.2.2.2.2.2.2.2.2.2.2.2.2.2.2.2.2.2.2.2.2.2.2.1
@[simp] theorem creditBack_roster (fb : Bool) (ch : Fin 3) (len : ℕ) (s : State) : (creditBack fb ch len s).roster = s.roster := (creditBack_kept fb ch len s).2.2.2.2.2.2.2.2.2.2.2.2.2.2.2.2.2.2.2.2.2.2.2.2.1
@[simp] theorem creditBack_regions (fb : Bool) (ch : Fin 3) (len : ℕ) (s : State) : (creditBack fb ch len s).regions = s.regions := (creditBack_kept fb ch len s).2.2.2.2.2.2.2.2.2.2.2.2.2.2.2.2.2.2.2.2.2.2.2.2.2.1
@[simp] theorem creditBack_palette (fb : Bool) (ch : Fin 3) (len : ℕ) (s : State) : (creditBack fb ch len s).palette = s.palette := (creditBack_kept fb ch len s).2.2.2.2.2.2.2.2.2.2.2.2.2.2.2.2.2.2.2.2.2.2.2.2.2.2.1
@[simp] theorem creditBack_freeCtr (fb : Bool) (ch : Fin 3) (len : ℕ) (s : State) : (creditBack fb ch len s).freeCtr = s.freeCtr := (creditBack_kept fb ch len s).2.2.2.2.2.2.2.2.2.2.2.2.2.2.2.2.2.2.2.2.2.2.2.2.2.2.2
theorem sendPacket_kept (fb : Bool) (p : Packet) (s : State) :
    (sendPacket fb p s).pending = s.pending ∧ (sendPacket fb p s).power = s.power ∧ (sendPacket fb p s).standby =
    s.standby ∧ (sendPacket fb p s).clk = s.clk ∧ (sendPacket fb p s).restart = s.restart ∧ (sendPacket fb p
    s).ident = s.ident ∧ (sendPacket fb p s).nv = s.nv ∧ (sendPacket fb p s).log = s.log ∧ (sendPacket fb p s).pathC
    = s.pathC ∧ (sendPacket fb p s).pathM = s.pathM ∧ (sendPacket fb p s).cport = s.cport ∧ (sendPacket fb p s).mgmt
    = s.mgmt ∧ (sendPacket fb p s).scratch = s.scratch ∧ (sendPacket fb p s).hbu = s.hbu ∧ (sendPacket fb p s).dma =
    s.dma ∧ (sendPacket fb p s).queues = s.queues ∧ (sendPacket fb p s).members = s.members ∧ (sendPacket fb p
    s).arrs = s.arrs ∧ (sendPacket fb p s).vols = s.vols ∧ (sendPacket fb p s).canvas = s.canvas ∧ (sendPacket fb p
    s).skb = s.skb ∧ (sendPacket fb p s).studios = s.studios ∧ (sendPacket fb p s).referee = s.referee ∧ (sendPacket
    fb p s).roster = s.roster ∧ (sendPacket fb p s).regions = s.regions ∧ (sendPacket fb p s).palette = s.palette ∧
    (sendPacket fb p s).freeCtr = s.freeCtr := by
  simp only [sendPacket]; (repeat' split) <;> simp
@[simp] theorem sendPacket_pending (fb : Bool) (p : Packet) (s : State) : (sendPacket fb p s).pending = s.pending := (sendPacket_kept fb p s).1
@[simp] theorem sendPacket_power (fb : Bool) (p : Packet) (s : State) : (sendPacket fb p s).power = s.power := (sendPacket_kept fb p s).2.1
@[simp] theorem sendPacket_standby (fb : Bool) (p : Packet) (s : State) : (sendPacket fb p s).standby = s.standby := (sendPacket_kept fb p s).2.2.1
@[simp] theorem sendPacket_clk (fb : Bool) (p : Packet) (s : State) : (sendPacket fb p s).clk = s.clk := (sendPacket_kept fb p s).2.2.2.1
@[simp] theorem sendPacket_restart (fb : Bool) (p : Packet) (s : State) : (sendPacket fb p s).restart = s.restart := (sendPacket_kept fb p s).2.2.2.2.1
@[simp] theorem sendPacket_ident (fb : Bool) (p : Packet) (s : State) : (sendPacket fb p s).ident = s.ident := (sendPacket_kept fb p s).2.2.2.2.2.1
@[simp] theorem sendPacket_nv (fb : Bool) (p : Packet) (s : State) : (sendPacket fb p s).nv = s.nv := (sendPacket_kept fb p s).2.2.2.2.2.2.1
@[simp] theorem sendPacket_log (fb : Bool) (p : Packet) (s : State) : (sendPacket fb p s).log = s.log := (sendPacket_kept fb p s).2.2.2.2.2.2.2.1
@[simp] theorem sendPacket_pathC (fb : Bool) (p : Packet) (s : State) : (sendPacket fb p s).pathC = s.pathC := (sendPacket_kept fb p s).2.2.2.2.2.2.2.2.1
@[simp] theorem sendPacket_pathM (fb : Bool) (p : Packet) (s : State) : (sendPacket fb p s).pathM = s.pathM := (sendPacket_kept fb p s).2.2.2.2.2.2.2.2.2.1
@[simp] theorem sendPacket_cport (fb : Bool) (p : Packet) (s : State) : (sendPacket fb p s).cport = s.cport := (sendPacket_kept fb p s).2.2.2.2.2.2.2.2.2.2.1
@[simp] theorem sendPacket_mgmt (fb : Bool) (p : Packet) (s : State) : (sendPacket fb p s).mgmt = s.mgmt := (sendPacket_kept fb p s).2.2.2.2.2.2.2.2.2.2.2.1
@[simp] theorem sendPacket_scratch (fb : Bool) (p : Packet) (s : State) : (sendPacket fb p s).scratch = s.scratch := (sendPacket_kept fb p s).2.2.2.2.2.2.2.2.2.2.2.2.1
@[simp] theorem sendPacket_hbu (fb : Bool) (p : Packet) (s : State) : (sendPacket fb p s).hbu = s.hbu := (sendPacket_kept fb p s).2.2.2.2.2.2.2.2.2.2.2.2.2.1
@[simp] theorem sendPacket_dma (fb : Bool) (p : Packet) (s : State) : (sendPacket fb p s).dma = s.dma := (sendPacket_kept fb p s).2.2.2.2.2.2.2.2.2.2.2.2.2.2.1
@[simp] theorem sendPacket_queues (fb : Bool) (p : Packet) (s : State) : (sendPacket fb p s).queues = s.queues := (sendPacket_kept fb p s).2.2.2.2.2.2.2.2.2.2.2.2.2.2.2.1
@[simp] theorem sendPacket_members (fb : Bool) (p : Packet) (s : State) : (sendPacket fb p s).members = s.members := (sendPacket_kept fb p s).2.2.2.2.2.2.2.2.2.2.2.2.2.2.2.2.1
@[simp] theorem sendPacket_arrs (fb : Bool) (p : Packet) (s : State) : (sendPacket fb p s).arrs = s.arrs := (sendPacket_kept fb p s).2.2.2.2.2.2.2.2.2.2.2.2.2.2.2.2.2.1
@[simp] theorem sendPacket_vols (fb : Bool) (p : Packet) (s : State) : (sendPacket fb p s).vols = s.vols := (sendPacket_kept fb p s).2.2.2.2.2.2.2.2.2.2.2.2.2.2.2.2.2.2.1
@[simp] theorem sendPacket_canvas (fb : Bool) (p : Packet) (s : State) : (sendPacket fb p s).canvas = s.canvas := (sendPacket_kept fb p s).2.2.2.2.2.2.2.2.2.2.2.2.2.2.2.2.2.2.2.1
@[simp] theorem sendPacket_skb (fb : Bool) (p : Packet) (s : State) : (sendPacket fb p s).skb = s.skb := (sendPacket_kept fb p s).2.2.2.2.2.2.2.2.2.2.2.2.2.2.2.2.2.2.2.2.1
@[simp] theorem sendPacket_studios (fb : Bool) (p : Packet) (s : State) : (sendPacket fb p s).studios = s.studios := (sendPacket_kept fb p s).2.2.2.2.2.2.2.2.2.2.2.2.2.2.2.2.2.2.2.2.2.1
@[simp] theorem sendPacket_referee (fb : Bool) (p : Packet) (s : State) : (sendPacket fb p s).referee = s.referee := (sendPacket_kept fb p s).2.2.2.2.2.2.2.2.2.2.2.2.2.2.2.2.2.2.2.2.2.2.1
@[simp] theorem sendPacket_roster (fb : Bool) (p : Packet) (s : State) : (sendPacket fb p s).roster = s.roster := (sendPacket_kept fb p s).2.2.2.2.2.2.2.2.2.2.2.2.2.2.2.2.2.2.2.2.2.2.2.1
@[simp] theorem sendPacket_regions (fb : Bool) (p : Packet) (s : State) : (sendPacket fb p s).regions = s.regions := (sendPacket_kept fb p s).2.2.2.2.2.2.2.2.2.2.2.2.2.2.2.2.2.2.2.2.2.2.2.2.1
@[simp] theorem sendPacket_palette (fb : Bool) (p : Packet) (s : State) : (sendPacket fb p s).palette = s.palette := (sendPacket_kept fb p s).2.2.2.2.2.2.2.2.2.2.2.2.2.2.2.2.2.2.2.2.2.2.2.2.2.1
@[simp] theorem sendPacket_freeCtr (fb : Bool) (p : Packet) (s : State) : (sendPacket fb p s).freeCtr = s.freeCtr := (sendPacket_kept fb p s).2.2.2.2.2.2.2.2.2.2.2.2.2.2.2.2.2.2.2.2.2.2.2.2.2.2
theorem pump_kept (fb : Bool) (n : Nat) (s : State) :
    (pump fb n s).pending = s.pending ∧ (pump fb n s).power = s.power ∧ (pump fb n s).standby = s.standby ∧ (pump fb
    n s).clk = s.clk ∧ (pump fb n s).restart = s.restart ∧ (pump fb n s).ident = s.ident ∧ (pump fb n s).nv = s.nv ∧
    (pump fb n s).log = s.log ∧ (pump fb n s).pathC = s.pathC ∧ (pump fb n s).pathM = s.pathM ∧ (pump fb n s).cport
    = s.cport ∧ (pump fb n s).mgmt = s.mgmt ∧ (pump fb n s).scratch = s.scratch ∧ (pump fb n s).hbu = s.hbu ∧ (pump
    fb n s).dma = s.dma ∧ (pump fb n s).queues = s.queues ∧ (pump fb n s).members = s.members ∧ (pump fb n s).arrs =
    s.arrs ∧ (pump fb n s).vols = s.vols ∧ (pump fb n s).canvas = s.canvas ∧ (pump fb n s).skb = s.skb ∧ (pump fb n
    s).studios = s.studios ∧ (pump fb n s).referee = s.referee ∧ (pump fb n s).roster = s.roster ∧ (pump fb n
    s).regions = s.regions ∧ (pump fb n s).palette = s.palette ∧ (pump fb n s).freeCtr = s.freeCtr := by
  induction n generalizing s with
  | zero => simp [pump]
  | succ n ih => simp only [pump]; (repeat' split) <;> simp [ih]
@[simp] theorem pump_pending (fb : Bool) (n : Nat) (s : State) : (pump fb n s).pending = s.pending := (pump_kept fb n s).1
@[simp] theorem pump_power (fb : Bool) (n : Nat) (s : State) : (pump fb n s).power = s.power := (pump_kept fb n s).2.1
@[simp] theorem pump_standby (fb : Bool) (n : Nat) (s : State) : (pump fb n s).standby = s.standby := (pump_kept fb n s).2.2.1
@[simp] theorem pump_clk (fb : Bool) (n : Nat) (s : State) : (pump fb n s).clk = s.clk := (pump_kept fb n s).2.2.2.1
@[simp] theorem pump_restart (fb : Bool) (n : Nat) (s : State) : (pump fb n s).restart = s.restart := (pump_kept fb n s).2.2.2.2.1
@[simp] theorem pump_ident (fb : Bool) (n : Nat) (s : State) : (pump fb n s).ident = s.ident := (pump_kept fb n s).2.2.2.2.2.1
@[simp] theorem pump_nv (fb : Bool) (n : Nat) (s : State) : (pump fb n s).nv = s.nv := (pump_kept fb n s).2.2.2.2.2.2.1
@[simp] theorem pump_log (fb : Bool) (n : Nat) (s : State) : (pump fb n s).log = s.log := (pump_kept fb n s).2.2.2.2.2.2.2.1
@[simp] theorem pump_pathC (fb : Bool) (n : Nat) (s : State) : (pump fb n s).pathC = s.pathC := (pump_kept fb n s).2.2.2.2.2.2.2.2.1
@[simp] theorem pump_pathM (fb : Bool) (n : Nat) (s : State) : (pump fb n s).pathM = s.pathM := (pump_kept fb n s).2.2.2.2.2.2.2.2.2.1
@[simp] theorem pump_cport (fb : Bool) (n : Nat) (s : State) : (pump fb n s).cport = s.cport := (pump_kept fb n s).2.2.2.2.2.2.2.2.2.2.1
@[simp] theorem pump_mgmt (fb : Bool) (n : Nat) (s : State) : (pump fb n s).mgmt = s.mgmt := (pump_kept fb n s).2.2.2.2.2.2.2.2.2.2.2.1
@[simp] theorem pump_scratch (fb : Bool) (n : Nat) (s : State) : (pump fb n s).scratch = s.scratch := (pump_kept fb n s).2.2.2.2.2.2.2.2.2.2.2.2.1
@[simp] theorem pump_hbu (fb : Bool) (n : Nat) (s : State) : (pump fb n s).hbu = s.hbu := (pump_kept fb n s).2.2.2.2.2.2.2.2.2.2.2.2.2.1
@[simp] theorem pump_dma (fb : Bool) (n : Nat) (s : State) : (pump fb n s).dma = s.dma := (pump_kept fb n s).2.2.2.2.2.2.2.2.2.2.2.2.2.2.1
@[simp] theorem pump_queues (fb : Bool) (n : Nat) (s : State) : (pump fb n s).queues = s.queues := (pump_kept fb n s).2.2.2.2.2.2.2.2.2.2.2.2.2.2.2.1
@[simp] theorem pump_members (fb : Bool) (n : Nat) (s : State) : (pump fb n s).members = s.members := (pump_kept fb n s).2.2.2.2.2.2.2.2.2.2.2.2.2.2.2.2.1
@[simp] theorem pump_arrs (fb : Bool) (n : Nat) (s : State) : (pump fb n s).arrs = s.arrs := (pump_kept fb n s).2.2.2.2.2.2.2.2.2.2.2.2.2.2.2.2.2.1
@[simp] theorem pump_vols (fb : Bool) (n : Nat) (s : State) : (pump fb n s).vols = s.vols := (pump_kept fb n s).2.2.2.2.2.2.2.2.2.2.2.2.2.2.2.2.2.2.1
@[simp] theorem pump_canvas (fb : Bool) (n : Nat) (s : State) : (pump fb n s).canvas = s.canvas := (pump_kept fb n s).2.2.2.2.2.2.2.2.2.2.2.2.2.2.2.2.2.2.2.1
@[simp] theorem pump_skb (fb : Bool) (n : Nat) (s : State) : (pump fb n s).skb = s.skb := (pump_kept fb n s).2.2.2.2.2.2.2.2.2.2.2.2.2.2.2.2.2.2.2.2.1
@[simp] theorem pump_studios (fb : Bool) (n : Nat) (s : State) : (pump fb n s).studios = s.studios := (pump_kept fb n s).2.2.2.2.2.2.2.2.2.2.2.2.2.2.2.2.2.2.2.2.2.1
@[simp] theorem pump_referee (fb : Bool) (n : Nat) (s : State) : (pump fb n s).referee = s.referee := (pump_kept fb n s).2.2.2.2.2.2.2.2.2.2.2.2.2.2.2.2.2.2.2.2.2.2.1
@[simp] theorem pump_roster (fb : Bool) (n : Nat) (s : State) : (pump fb n s).roster = s.roster := (pump_kept fb n s).2.2.2.2.2.2.2.2.2.2.2.2.2.2.2.2.2.2.2.2.2.2.2.1
@[simp] theorem pump_regions (fb : Bool) (n : Nat) (s : State) : (pump fb n s).regions = s.regions := (pump_kept fb n s).2.2.2.2.2.2.2.2.2.2.2.2.2.2.2.2.2.2.2.2.2.2.2.2.1
@[simp] theorem pump_palette (fb : Bool) (n : Nat) (s : State) : (pump fb n s).palette = s.palette := (pump_kept fb n s).2.2.2.2.2.2.2.2.2.2.2.2.2.2.2.2.2.2.2.2.2.2.2.2.2.1
@[simp] theorem pump_freeCtr (fb : Bool) (n : Nat) (s : State) : (pump fb n s).freeCtr = s.freeCtr := (pump_kept fb n s).2.2.2.2.2.2.2.2.2.2.2.2.2.2.2.2.2.2.2.2.2.2.2.2.2.2
theorem ringSend_kept (fb : Bool) (p : Packet) (s : State) :
    (ringSend fb p s).pending = s.pending ∧ (ringSend fb p s).power = s.power ∧ (ringSend fb p s).standby =
    s.standby ∧ (ringSend fb p s).clk = s.clk ∧ (ringSend fb p s).restart = s.restart ∧ (ringSend fb p s).ident =
    s.ident ∧ (ringSend fb p s).nv = s.nv ∧ (ringSend fb p s).pathC = s.pathC ∧ (ringSend fb p s).pathM = s.pathM ∧
    (ringSend fb p s).cport = s.cport ∧ (ringSend fb p s).mgmt = s.mgmt ∧ (ringSend fb p s).scratch = s.scratch ∧
    (ringSend fb p s).hbu = s.hbu ∧ (ringSend fb p s).dma = s.dma ∧ (ringSend fb p s).queues = s.queues ∧ (ringSend
    fb p s).members = s.members ∧ (ringSend fb p s).arrs = s.arrs ∧ (ringSend fb p s).vols = s.vols ∧ (ringSend fb p
    s).canvas = s.canvas ∧ (ringSend fb p s).skb = s.skb ∧ (ringSend fb p s).studios = s.studios ∧ (ringSend fb p
    s).referee = s.referee ∧ (ringSend fb p s).roster = s.roster ∧ (ringSend fb p s).regions = s.regions ∧ (ringSend
    fb p s).palette = s.palette ∧ (ringSend fb p s).freeCtr = s.freeCtr := by
  simp only [ringSend]; (repeat' split) <;> simp
@[simp] theorem ringSend_pending (fb : Bool) (p : Packet) (s : State) : (ringSend fb p s).pending = s.pending := (ringSend_kept fb p s).1
@[simp] theorem ringSend_power (fb : Bool) (p : Packet) (s : State) : (ringSend fb p s).power = s.power := (ringSend_kept fb p s).2.1
@[simp] theorem ringSend_standby (fb : Bool) (p : Packet) (s : State) : (ringSend fb p s).standby = s.standby := (ringSend_kept fb p s).2.2.1
@[simp] theorem ringSend_clk (fb : Bool) (p : Packet) (s : State) : (ringSend fb p s).clk = s.clk := (ringSend_kept fb p s).2.2.2.1
@[simp] theorem ringSend_restart (fb : Bool) (p : Packet) (s : State) : (ringSend fb p s).restart = s.restart := (ringSend_kept fb p s).2.2.2.2.1
@[simp] theorem ringSend_ident (fb : Bool) (p : Packet) (s : State) : (ringSend fb p s).ident = s.ident := (ringSend_kept fb p s).2.2.2.2.2.1
@[simp] theorem ringSend_nv (fb : Bool) (p : Packet) (s : State) : (ringSend fb p s).nv = s.nv := (ringSend_kept fb p s).2.2.2.2.2.2.1
@[simp] theorem ringSend_pathC (fb : Bool) (p : Packet) (s : State) : (ringSend fb p s).pathC = s.pathC := (ringSend_kept fb p s).2.2.2.2.2.2.2.1
@[simp] theorem ringSend_pathM (fb : Bool) (p : Packet) (s : State) : (ringSend fb p s).pathM = s.pathM := (ringSend_kept fb p s).2.2.2.2.2.2.2.2.1
@[simp] theorem ringSend_cport (fb : Bool) (p : Packet) (s : State) : (ringSend fb p s).cport = s.cport := (ringSend_kept fb p s).2.2.2.2.2.2.2.2.2.1
@[simp] theorem ringSend_mgmt (fb : Bool) (p : Packet) (s : State) : (ringSend fb p s).mgmt = s.mgmt := (ringSend_kept fb p s).2.2.2.2.2.2.2.2.2.2.1
@[simp] theorem ringSend_scratch (fb : Bool) (p : Packet) (s : State) : (ringSend fb p s).scratch = s.scratch := (ringSend_kept fb p s).2.2.2.2.2.2.2.2.2.2.2.1
@[simp] theorem ringSend_hbu (fb : Bool) (p : Packet) (s : State) : (ringSend fb p s).hbu = s.hbu := (ringSend_kept fb p s).2.2.2.2.2.2.2.2.2.2.2.2.1
@[simp] theorem ringSend_dma (fb : Bool) (p : Packet) (s : State) : (ringSend fb p s).dma = s.dma := (ringSend_kept fb p s).2.2.2.2.2.2.2.2.2.2.2.2.2.1
@[simp] theorem ringSend_queues (fb : Bool) (p : Packet) (s : State) : (ringSend fb p s).queues = s.queues := (ringSend_kept fb p s).2.2.2.2.2.2.2.2.2.2.2.2.2.2.1
@[simp] theorem ringSend_members (fb : Bool) (p : Packet) (s : State) : (ringSend fb p s).members = s.members := (ringSend_kept fb p s).2.2.2.2.2.2.2.2.2.2.2.2.2.2.2.1
@[simp] theorem ringSend_arrs (fb : Bool) (p : Packet) (s : State) : (ringSend fb p s).arrs = s.arrs := (ringSend_kept fb p s).2.2.2.2.2.2.2.2.2.2.2.2.2.2.2.2.1
@[simp] theorem ringSend_vols (fb : Bool) (p : Packet) (s : State) : (ringSend fb p s).vols = s.vols := (ringSend_kept fb p s).2.2.2.2.2.2.2.2.2.2.2.2.2.2.2.2.2.1
@[simp] theorem ringSend_canvas (fb : Bool) (p : Packet) (s : State) : (ringSend fb p s).canvas = s.canvas := (ringSend_kept fb p s).2.2.2.2.2.2.2.2.2.2.2.2.2.2.2.2.2.2.1
@[simp] theorem ringSend_skb (fb : Bool) (p : Packet) (s : State) : (ringSend fb p s).skb = s.skb := (ringSend_kept fb p s).2.2.2.2.2.2.2.2.2.2.2.2.2.2.2.2.2.2.2.1
@[simp] theorem ringSend_studios (fb : Bool) (p : Packet) (s : State) : (ringSend fb p s).studios = s.studios := (ringSend_kept fb p s).2.2.2.2.2.2.2.2.2.2.2.2.2.2.2.2.2.2.2.2.1
@[simp] theorem ringSend_referee (fb : Bool) (p : Packet) (s : State) : (ringSend fb p s).referee = s.referee := (ringSend_kept fb p s).2.2.2.2.2.2.2.2.2.2.2.2.2.2.2.2.2.2.2.2.2.1
@[simp] theorem ringSend_roster (fb : Bool) (p : Packet) (s : State) : (ringSend fb p s).roster = s.roster := (ringSend_kept fb p s).2.2.2.2.2.2.2.2.2.2.2.2.2.2.2.2.2.2.2.2.2.2.1
@[simp] theorem ringSend_regions (fb : Bool) (p : Packet) (s : State) : (ringSend fb p s).regions = s.regions := (ringSend_kept fb p s).2.2.2.2.2.2.2.2.2.2.2.2.2.2.2.2.2.2.2.2.2.2.2.1
@[simp] theorem ringSend_palette (fb : Bool) (p : Packet) (s : State) : (ringSend fb p s).palette = s.palette := (ringSend_kept fb p s).2.2.2.2.2.2.2.2.2.2.2.2.2.2.2.2.2.2.2.2.2.2.2.2.1
@[simp] theorem ringSend_freeCtr (fb : Bool) (p : Packet) (s : State) : (ringSend fb p s).freeCtr = s.freeCtr := (ringSend_kept fb p s).2.2.2.2.2.2.2.2.2.2.2.2.2.2.2.2.2.2.2.2.2.2.2.2.2
theorem sendTo_kept (k : BitVec 4) (kind : Byte) (p : Pkt) (classC : Bool) (s : State) :
    (sendTo k kind p classC s).pending = s.pending ∧ (sendTo k kind p classC s).power = s.power ∧ (sendTo k kind p
    classC s).standby = s.standby ∧ (sendTo k kind p classC s).clk = s.clk ∧ (sendTo k kind p classC s).restart =
    s.restart ∧ (sendTo k kind p classC s).ident = s.ident ∧ (sendTo k kind p classC s).nv = s.nv ∧ (sendTo k kind p
    classC s).pathC = s.pathC ∧ (sendTo k kind p classC s).pathM = s.pathM ∧ (sendTo k kind p classC s).cport =
    s.cport ∧ (sendTo k kind p classC s).mgmt = s.mgmt ∧ (sendTo k kind p classC s).scratch = s.scratch ∧ (sendTo k
    kind p classC s).hbu = s.hbu ∧ (sendTo k kind p classC s).dma = s.dma ∧ (sendTo k kind p classC s).queues =
    s.queues ∧ (sendTo k kind p classC s).members = s.members ∧ (sendTo k kind p classC s).arrs = s.arrs ∧ (sendTo k
    kind p classC s).vols = s.vols ∧ (sendTo k kind p classC s).canvas = s.canvas ∧ (sendTo k kind p classC s).skb =
    s.skb ∧ (sendTo k kind p classC s).studios = s.studios ∧ (sendTo k kind p classC s).referee = s.referee ∧
    (sendTo k kind p classC s).roster = s.roster ∧ (sendTo k kind p classC s).regions = s.regions ∧ (sendTo k kind p
    classC s).palette = s.palette ∧ (sendTo k kind p classC s).freeCtr = s.freeCtr := by
  simp only [sendTo]; (repeat' split) <;> simp
@[simp] theorem sendTo_pending (k : BitVec 4) (kind : Byte) (p : Pkt) (classC : Bool) (s : State) : (sendTo k kind p classC s).pending = s.pending := (sendTo_kept k kind p classC s).1
@[simp] theorem sendTo_power (k : BitVec 4) (kind : Byte) (p : Pkt) (classC : Bool) (s : State) : (sendTo k kind p classC s).power = s.power := (sendTo_kept k kind p classC s).2.1
@[simp] theorem sendTo_standby (k : BitVec 4) (kind : Byte) (p : Pkt) (classC : Bool) (s : State) : (sendTo k kind p classC s).standby = s.standby := (sendTo_kept k kind p classC s).2.2.1
@[simp] theorem sendTo_clk (k : BitVec 4) (kind : Byte) (p : Pkt) (classC : Bool) (s : State) : (sendTo k kind p classC s).clk = s.clk := (sendTo_kept k kind p classC s).2.2.2.1
@[simp] theorem sendTo_restart (k : BitVec 4) (kind : Byte) (p : Pkt) (classC : Bool) (s : State) : (sendTo k kind p classC s).restart = s.restart := (sendTo_kept k kind p classC s).2.2.2.2.1
@[simp] theorem sendTo_ident (k : BitVec 4) (kind : Byte) (p : Pkt) (classC : Bool) (s : State) : (sendTo k kind p classC s).ident = s.ident := (sendTo_kept k kind p classC s).2.2.2.2.2.1
@[simp] theorem sendTo_nv (k : BitVec 4) (kind : Byte) (p : Pkt) (classC : Bool) (s : State) : (sendTo k kind p classC s).nv = s.nv := (sendTo_kept k kind p classC s).2.2.2.2.2.2.1
@[simp] theorem sendTo_pathC (k : BitVec 4) (kind : Byte) (p : Pkt) (classC : Bool) (s : State) : (sendTo k kind p classC s).pathC = s.pathC := (sendTo_kept k kind p classC s).2.2.2.2.2.2.2.1
@[simp] theorem sendTo_pathM (k : BitVec 4) (kind : Byte) (p : Pkt) (classC : Bool) (s : State) : (sendTo k kind p classC s).pathM = s.pathM := (sendTo_kept k kind p classC s).2.2.2.2.2.2.2.2.1
@[simp] theorem sendTo_cport (k : BitVec 4) (kind : Byte) (p : Pkt) (classC : Bool) (s : State) : (sendTo k kind p classC s).cport = s.cport := (sendTo_kept k kind p classC s).2.2.2.2.2.2.2.2.2.1
@[simp] theorem sendTo_mgmt (k : BitVec 4) (kind : Byte) (p : Pkt) (classC : Bool) (s : State) : (sendTo k kind p classC s).mgmt = s.mgmt := (sendTo_kept k kind p classC s).2.2.2.2.2.2.2.2.2.2.1
@[simp] theorem sendTo_scratch (k : BitVec 4) (kind : Byte) (p : Pkt) (classC : Bool) (s : State) : (sendTo k kind p classC s).scratch = s.scratch := (sendTo_kept k kind p classC s).2.2.2.2.2.2.2.2.2.2.2.1
@[simp] theorem sendTo_hbu (k : BitVec 4) (kind : Byte) (p : Pkt) (classC : Bool) (s : State) : (sendTo k kind p classC s).hbu = s.hbu := (sendTo_kept k kind p classC s).2.2.2.2.2.2.2.2.2.2.2.2.1
@[simp] theorem sendTo_dma (k : BitVec 4) (kind : Byte) (p : Pkt) (classC : Bool) (s : State) : (sendTo k kind p classC s).dma = s.dma := (sendTo_kept k kind p classC s).2.2.2.2.2.2.2.2.2.2.2.2.2.1
@[simp] theorem sendTo_queues (k : BitVec 4) (kind : Byte) (p : Pkt) (classC : Bool) (s : State) : (sendTo k kind p classC s).queues = s.queues := (sendTo_kept k kind p classC s).2.2.2.2.2.2.2.2.2.2.2.2.2.2.1
@[simp] theorem sendTo_members (k : BitVec 4) (kind : Byte) (p : Pkt) (classC : Bool) (s : State) : (sendTo k kind p classC s).members = s.members := (sendTo_kept k kind p classC s).2.2.2.2.2.2.2.2.2.2.2.2.2.2.2.1
@[simp] theorem sendTo_arrs (k : BitVec 4) (kind : Byte) (p : Pkt) (classC : Bool) (s : State) : (sendTo k kind p classC s).arrs = s.arrs := (sendTo_kept k kind p classC s).2.2.2.2.2.2.2.2.2.2.2.2.2.2.2.2.1
@[simp] theorem sendTo_vols (k : BitVec 4) (kind : Byte) (p : Pkt) (classC : Bool) (s : State) : (sendTo k kind p classC s).vols = s.vols := (sendTo_kept k kind p classC s).2.2.2.2.2.2.2.2.2.2.2.2.2.2.2.2.2.1
@[simp] theorem sendTo_canvas (k : BitVec 4) (kind : Byte) (p : Pkt) (classC : Bool) (s : State) : (sendTo k kind p classC s).canvas = s.canvas := (sendTo_kept k kind p classC s).2.2.2.2.2.2.2.2.2.2.2.2.2.2.2.2.2.2.1
@[simp] theorem sendTo_skb (k : BitVec 4) (kind : Byte) (p : Pkt) (classC : Bool) (s : State) : (sendTo k kind p classC s).skb = s.skb := (sendTo_kept k kind p classC s).2.2.2.2.2.2.2.2.2.2.2.2.2.2.2.2.2.2.2.1
@[simp] theorem sendTo_studios (k : BitVec 4) (kind : Byte) (p : Pkt) (classC : Bool) (s : State) : (sendTo k kind p classC s).studios = s.studios := (sendTo_kept k kind p classC s).2.2.2.2.2.2.2.2.2.2.2.2.2.2.2.2.2.2.2.2.1
@[simp] theorem sendTo_referee (k : BitVec 4) (kind : Byte) (p : Pkt) (classC : Bool) (s : State) : (sendTo k kind p classC s).referee = s.referee := (sendTo_kept k kind p classC s).2.2.2.2.2.2.2.2.2.2.2.2.2.2.2.2.2.2.2.2.2.1
@[simp] theorem sendTo_roster (k : BitVec 4) (kind : Byte) (p : Pkt) (classC : Bool) (s : State) : (sendTo k kind p classC s).roster = s.roster := (sendTo_kept k kind p classC s).2.2.2.2.2.2.2.2.2.2.2.2.2.2.2.2.2.2.2.2.2.2.1
@[simp] theorem sendTo_regions (k : BitVec 4) (kind : Byte) (p : Pkt) (classC : Bool) (s : State) : (sendTo k kind p classC s).regions = s.regions := (sendTo_kept k kind p classC s).2.2.2.2.2.2.2.2.2.2.2.2.2.2.2.2.2.2.2.2.2.2.2.1
@[simp] theorem sendTo_palette (k : BitVec 4) (kind : Byte) (p : Pkt) (classC : Bool) (s : State) : (sendTo k kind p classC s).palette = s.palette := (sendTo_kept k kind p classC s).2.2.2.2.2.2.2.2.2.2.2.2.2.2.2.2.2.2.2.2.2.2.2.2.1
@[simp] theorem sendTo_freeCtr (k : BitVec 4) (kind : Byte) (p : Pkt) (classC : Bool) (s : State) : (sendTo k kind p classC s).freeCtr = s.freeCtr := (sendTo_kept k kind p classC s).2.2.2.2.2.2.2.2.2.2.2.2.2.2.2.2.2.2.2.2.2.2.2.2.2
theorem sendUp_kept (kind : Byte) (ch : Fin 3) (tag : Byte) (arg : Half) (flits : List Dword) (s : State) (classC : optParam Bool Bool.false) :
    (sendUp kind ch tag arg flits s classC).pending = s.pending ∧ (sendUp kind ch tag arg flits s classC).power =
    s.power ∧ (sendUp kind ch tag arg flits s classC).standby = s.standby ∧ (sendUp kind ch tag arg flits s
    classC).clk = s.clk ∧ (sendUp kind ch tag arg flits s classC).restart = s.restart ∧ (sendUp kind ch tag arg
    flits s classC).ident = s.ident ∧ (sendUp kind ch tag arg flits s classC).nv = s.nv ∧ (sendUp kind ch tag arg
    flits s classC).pathC = s.pathC ∧ (sendUp kind ch tag arg flits s classC).pathM = s.pathM ∧ (sendUp kind ch tag
    arg flits s classC).cport = s.cport ∧ (sendUp kind ch tag arg flits s classC).mgmt = s.mgmt ∧ (sendUp kind ch
    tag arg flits s classC).scratch = s.scratch ∧ (sendUp kind ch tag arg flits s classC).hbu = s.hbu ∧ (sendUp kind
    ch tag arg flits s classC).dma = s.dma ∧ (sendUp kind ch tag arg flits s classC).queues = s.queues ∧ (sendUp
    kind ch tag arg flits s classC).members = s.members ∧ (sendUp kind ch tag arg flits s classC).arrs = s.arrs ∧
    (sendUp kind ch tag arg flits s classC).vols = s.vols ∧ (sendUp kind ch tag arg flits s classC).canvas =
    s.canvas ∧ (sendUp kind ch tag arg flits s classC).skb = s.skb ∧ (sendUp kind ch tag arg flits s classC).studios
    = s.studios ∧ (sendUp kind ch tag arg flits s classC).referee = s.referee ∧ (sendUp kind ch tag arg flits s
    classC).roster = s.roster ∧ (sendUp kind ch tag arg flits s classC).regions = s.regions ∧ (sendUp kind ch tag
    arg flits s classC).palette = s.palette ∧ (sendUp kind ch tag arg flits s classC).freeCtr = s.freeCtr := by simp [sendUp]
@[simp] theorem sendUp_pending (kind : Byte) (ch : Fin 3) (tag : Byte) (arg : Half) (flits : List Dword) (s : State) (classC : optParam Bool Bool.false) : (sendUp kind ch tag arg flits s classC).pending = s.pending := (sendUp_kept kind ch tag arg flits s classC).1
@[simp] theorem sendUp_power (kind : Byte) (ch : Fin 3) (tag : Byte) (arg : Half) (flits : List Dword) (s : State) (classC : optParam Bool Bool.false) : (sendUp kind ch tag arg flits s classC).power = s.power := (sendUp_kept kind ch tag arg flits s classC).2.1
@[simp] theorem sendUp_standby (kind : Byte) (ch : Fin 3) (tag : Byte) (arg : Half) (flits : List Dword) (s : State) (classC : optParam Bool Bool.false) : (sendUp kind ch tag arg flits s classC).standby = s.standby := (sendUp_kept kind ch tag arg flits s classC).2.2.1
@[simp] theorem sendUp_clk (kind : Byte) (ch : Fin 3) (tag : Byte) (arg : Half) (flits : List Dword) (s : State) (classC : optParam Bool Bool.false) : (sendUp kind ch tag arg flits s classC).clk = s.clk := (sendUp_kept kind ch tag arg flits s classC).2.2.2.1
@[simp] theorem sendUp_restart (kind : Byte) (ch : Fin 3) (tag : Byte) (arg : Half) (flits : List Dword) (s : State) (classC : optParam Bool Bool.false) : (sendUp kind ch tag arg flits s classC).restart = s.restart := (sendUp_kept kind ch tag arg flits s classC).2.2.2.2.1
@[simp] theorem sendUp_ident (kind : Byte) (ch : Fin 3) (tag : Byte) (arg : Half) (flits : List Dword) (s : State) (classC : optParam Bool Bool.false) : (sendUp kind ch tag arg flits s classC).ident = s.ident := (sendUp_kept kind ch tag arg flits s classC).2.2.2.2.2.1
@[simp] theorem sendUp_nv (kind : Byte) (ch : Fin 3) (tag : Byte) (arg : Half) (flits : List Dword) (s : State) (classC : optParam Bool Bool.false) : (sendUp kind ch tag arg flits s classC).nv = s.nv := (sendUp_kept kind ch tag arg flits s classC).2.2.2.2.2.2.1
@[simp] theorem sendUp_pathC (kind : Byte) (ch : Fin 3) (tag : Byte) (arg : Half) (flits : List Dword) (s : State) (classC : optParam Bool Bool.false) : (sendUp kind ch tag arg flits s classC).pathC = s.pathC := (sendUp_kept kind ch tag arg flits s classC).2.2.2.2.2.2.2.1
@[simp] theorem sendUp_pathM (kind : Byte) (ch : Fin 3) (tag : Byte) (arg : Half) (flits : List Dword) (s : State) (classC : optParam Bool Bool.false) : (sendUp kind ch tag arg flits s classC).pathM = s.pathM := (sendUp_kept kind ch tag arg flits s classC).2.2.2.2.2.2.2.2.1
@[simp] theorem sendUp_cport (kind : Byte) (ch : Fin 3) (tag : Byte) (arg : Half) (flits : List Dword) (s : State) (classC : optParam Bool Bool.false) : (sendUp kind ch tag arg flits s classC).cport = s.cport := (sendUp_kept kind ch tag arg flits s classC).2.2.2.2.2.2.2.2.2.1
@[simp] theorem sendUp_mgmt (kind : Byte) (ch : Fin 3) (tag : Byte) (arg : Half) (flits : List Dword) (s : State) (classC : optParam Bool Bool.false) : (sendUp kind ch tag arg flits s classC).mgmt = s.mgmt := (sendUp_kept kind ch tag arg flits s classC).2.2.2.2.2.2.2.2.2.2.1
@[simp] theorem sendUp_scratch (kind : Byte) (ch : Fin 3) (tag : Byte) (arg : Half) (flits : List Dword) (s : State) (classC : optParam Bool Bool.false) : (sendUp kind ch tag arg flits s classC).scratch = s.scratch := (sendUp_kept kind ch tag arg flits s classC).2.2.2.2.2.2.2.2.2.2.2.1
@[simp] theorem sendUp_hbu (kind : Byte) (ch : Fin 3) (tag : Byte) (arg : Half) (flits : List Dword) (s : State) (classC : optParam Bool Bool.false) : (sendUp kind ch tag arg flits s classC).hbu = s.hbu := (sendUp_kept kind ch tag arg flits s classC).2.2.2.2.2.2.2.2.2.2.2.2.1
@[simp] theorem sendUp_dma (kind : Byte) (ch : Fin 3) (tag : Byte) (arg : Half) (flits : List Dword) (s : State) (classC : optParam Bool Bool.false) : (sendUp kind ch tag arg flits s classC).dma = s.dma := (sendUp_kept kind ch tag arg flits s classC).2.2.2.2.2.2.2.2.2.2.2.2.2.1
@[simp] theorem sendUp_queues (kind : Byte) (ch : Fin 3) (tag : Byte) (arg : Half) (flits : List Dword) (s : State) (classC : optParam Bool Bool.false) : (sendUp kind ch tag arg flits s classC).queues = s.queues := (sendUp_kept kind ch tag arg flits s classC).2.2.2.2.2.2.2.2.2.2.2.2.2.2.1
@[simp] theorem sendUp_members (kind : Byte) (ch : Fin 3) (tag : Byte) (arg : Half) (flits : List Dword) (s : State) (classC : optParam Bool Bool.false) : (sendUp kind ch tag arg flits s classC).members = s.members := (sendUp_kept kind ch tag arg flits s classC).2.2.2.2.2.2.2.2.2.2.2.2.2.2.2.1
@[simp] theorem sendUp_arrs (kind : Byte) (ch : Fin 3) (tag : Byte) (arg : Half) (flits : List Dword) (s : State) (classC : optParam Bool Bool.false) : (sendUp kind ch tag arg flits s classC).arrs = s.arrs := (sendUp_kept kind ch tag arg flits s classC).2.2.2.2.2.2.2.2.2.2.2.2.2.2.2.2.1
@[simp] theorem sendUp_vols (kind : Byte) (ch : Fin 3) (tag : Byte) (arg : Half) (flits : List Dword) (s : State) (classC : optParam Bool Bool.false) : (sendUp kind ch tag arg flits s classC).vols = s.vols := (sendUp_kept kind ch tag arg flits s classC).2.2.2.2.2.2.2.2.2.2.2.2.2.2.2.2.2.1
@[simp] theorem sendUp_canvas (kind : Byte) (ch : Fin 3) (tag : Byte) (arg : Half) (flits : List Dword) (s : State) (classC : optParam Bool Bool.false) : (sendUp kind ch tag arg flits s classC).canvas = s.canvas := (sendUp_kept kind ch tag arg flits s classC).2.2.2.2.2.2.2.2.2.2.2.2.2.2.2.2.2.2.1
@[simp] theorem sendUp_skb (kind : Byte) (ch : Fin 3) (tag : Byte) (arg : Half) (flits : List Dword) (s : State) (classC : optParam Bool Bool.false) : (sendUp kind ch tag arg flits s classC).skb = s.skb := (sendUp_kept kind ch tag arg flits s classC).2.2.2.2.2.2.2.2.2.2.2.2.2.2.2.2.2.2.2.1
@[simp] theorem sendUp_studios (kind : Byte) (ch : Fin 3) (tag : Byte) (arg : Half) (flits : List Dword) (s : State) (classC : optParam Bool Bool.false) : (sendUp kind ch tag arg flits s classC).studios = s.studios := (sendUp_kept kind ch tag arg flits s classC).2.2.2.2.2.2.2.2.2.2.2.2.2.2.2.2.2.2.2.2.1
@[simp] theorem sendUp_referee (kind : Byte) (ch : Fin 3) (tag : Byte) (arg : Half) (flits : List Dword) (s : State) (classC : optParam Bool Bool.false) : (sendUp kind ch tag arg flits s classC).referee = s.referee := (sendUp_kept kind ch tag arg flits s classC).2.2.2.2.2.2.2.2.2.2.2.2.2.2.2.2.2.2.2.2.2.1
@[simp] theorem sendUp_roster (kind : Byte) (ch : Fin 3) (tag : Byte) (arg : Half) (flits : List Dword) (s : State) (classC : optParam Bool Bool.false) : (sendUp kind ch tag arg flits s classC).roster = s.roster := (sendUp_kept kind ch tag arg flits s classC).2.2.2.2.2.2.2.2.2.2.2.2.2.2.2.2.2.2.2.2.2.2.1
@[simp] theorem sendUp_regions (kind : Byte) (ch : Fin 3) (tag : Byte) (arg : Half) (flits : List Dword) (s : State) (classC : optParam Bool Bool.false) : (sendUp kind ch tag arg flits s classC).regions = s.regions := (sendUp_kept kind ch tag arg flits s classC).2.2.2.2.2.2.2.2.2.2.2.2.2.2.2.2.2.2.2.2.2.2.2.1
@[simp] theorem sendUp_palette (kind : Byte) (ch : Fin 3) (tag : Byte) (arg : Half) (flits : List Dword) (s : State) (classC : optParam Bool Bool.false) : (sendUp kind ch tag arg flits s classC).palette = s.palette := (sendUp_kept kind ch tag arg flits s classC).2.2.2.2.2.2.2.2.2.2.2.2.2.2.2.2.2.2.2.2.2.2.2.2.1
@[simp] theorem sendUp_freeCtr (kind : Byte) (ch : Fin 3) (tag : Byte) (arg : Half) (flits : List Dword) (s : State) (classC : optParam Bool Bool.false) : (sendUp kind ch tag arg flits s classC).freeCtr = s.freeCtr := (sendUp_kept kind ch tag arg flits s classC).2.2.2.2.2.2.2.2.2.2.2.2.2.2.2.2.2.2.2.2.2.2.2.2.2
theorem sendReq_kept (r : RReq) (s : State) :
    (sendReq r s).pending = s.pending ∧ (sendReq r s).power = s.power ∧ (sendReq r s).standby = s.standby ∧ (sendReq
    r s).clk = s.clk ∧ (sendReq r s).restart = s.restart ∧ (sendReq r s).ident = s.ident ∧ (sendReq r s).nv = s.nv ∧
    (sendReq r s).pathC = s.pathC ∧ (sendReq r s).pathM = s.pathM ∧ (sendReq r s).cport = s.cport ∧ (sendReq r
    s).mgmt = s.mgmt ∧ (sendReq r s).scratch = s.scratch ∧ (sendReq r s).hbu = s.hbu ∧ (sendReq r s).dma = s.dma ∧
    (sendReq r s).queues = s.queues ∧ (sendReq r s).members = s.members ∧ (sendReq r s).arrs = s.arrs ∧ (sendReq r
    s).vols = s.vols ∧ (sendReq r s).canvas = s.canvas ∧ (sendReq r s).skb = s.skb ∧ (sendReq r s).studios =
    s.studios ∧ (sendReq r s).referee = s.referee ∧ (sendReq r s).roster = s.roster ∧ (sendReq r s).regions =
    s.regions ∧ (sendReq r s).palette = s.palette ∧ (sendReq r s).freeCtr = s.freeCtr := by simp [sendReq, foldl_pending, foldl_power, foldl_standby, foldl_clk, foldl_restart, foldl_ident, foldl_nv, foldl_pathC, foldl_pathM, foldl_cport, foldl_mgmt, foldl_scratch, foldl_hbu, foldl_dma, foldl_queues, foldl_members, foldl_arrs, foldl_vols, foldl_canvas, foldl_skb, foldl_studios, foldl_referee, foldl_roster, foldl_regions, foldl_palette, foldl_freeCtr]
@[simp] theorem sendReq_pending (r : RReq) (s : State) : (sendReq r s).pending = s.pending := (sendReq_kept r s).1
@[simp] theorem sendReq_power (r : RReq) (s : State) : (sendReq r s).power = s.power := (sendReq_kept r s).2.1
@[simp] theorem sendReq_standby (r : RReq) (s : State) : (sendReq r s).standby = s.standby := (sendReq_kept r s).2.2.1
@[simp] theorem sendReq_clk (r : RReq) (s : State) : (sendReq r s).clk = s.clk := (sendReq_kept r s).2.2.2.1
@[simp] theorem sendReq_restart (r : RReq) (s : State) : (sendReq r s).restart = s.restart := (sendReq_kept r s).2.2.2.2.1
@[simp] theorem sendReq_ident (r : RReq) (s : State) : (sendReq r s).ident = s.ident := (sendReq_kept r s).2.2.2.2.2.1
@[simp] theorem sendReq_nv (r : RReq) (s : State) : (sendReq r s).nv = s.nv := (sendReq_kept r s).2.2.2.2.2.2.1
@[simp] theorem sendReq_pathC (r : RReq) (s : State) : (sendReq r s).pathC = s.pathC := (sendReq_kept r s).2.2.2.2.2.2.2.1
@[simp] theorem sendReq_pathM (r : RReq) (s : State) : (sendReq r s).pathM = s.pathM := (sendReq_kept r s).2.2.2.2.2.2.2.2.1
@[simp] theorem sendReq_cport (r : RReq) (s : State) : (sendReq r s).cport = s.cport := (sendReq_kept r s).2.2.2.2.2.2.2.2.2.1
@[simp] theorem sendReq_mgmt (r : RReq) (s : State) : (sendReq r s).mgmt = s.mgmt := (sendReq_kept r s).2.2.2.2.2.2.2.2.2.2.1
@[simp] theorem sendReq_scratch (r : RReq) (s : State) : (sendReq r s).scratch = s.scratch := (sendReq_kept r s).2.2.2.2.2.2.2.2.2.2.2.1
@[simp] theorem sendReq_hbu (r : RReq) (s : State) : (sendReq r s).hbu = s.hbu := (sendReq_kept r s).2.2.2.2.2.2.2.2.2.2.2.2.1
@[simp] theorem sendReq_dma (r : RReq) (s : State) : (sendReq r s).dma = s.dma := (sendReq_kept r s).2.2.2.2.2.2.2.2.2.2.2.2.2.1
@[simp] theorem sendReq_queues (r : RReq) (s : State) : (sendReq r s).queues = s.queues := (sendReq_kept r s).2.2.2.2.2.2.2.2.2.2.2.2.2.2.1
@[simp] theorem sendReq_members (r : RReq) (s : State) : (sendReq r s).members = s.members := (sendReq_kept r s).2.2.2.2.2.2.2.2.2.2.2.2.2.2.2.1
@[simp] theorem sendReq_arrs (r : RReq) (s : State) : (sendReq r s).arrs = s.arrs := (sendReq_kept r s).2.2.2.2.2.2.2.2.2.2.2.2.2.2.2.2.1
@[simp] theorem sendReq_vols (r : RReq) (s : State) : (sendReq r s).vols = s.vols := (sendReq_kept r s).2.2.2.2.2.2.2.2.2.2.2.2.2.2.2.2.2.1
@[simp] theorem sendReq_canvas (r : RReq) (s : State) : (sendReq r s).canvas = s.canvas := (sendReq_kept r s).2.2.2.2.2.2.2.2.2.2.2.2.2.2.2.2.2.2.1
@[simp] theorem sendReq_skb (r : RReq) (s : State) : (sendReq r s).skb = s.skb := (sendReq_kept r s).2.2.2.2.2.2.2.2.2.2.2.2.2.2.2.2.2.2.2.1
@[simp] theorem sendReq_studios (r : RReq) (s : State) : (sendReq r s).studios = s.studios := (sendReq_kept r s).2.2.2.2.2.2.2.2.2.2.2.2.2.2.2.2.2.2.2.2.1
@[simp] theorem sendReq_referee (r : RReq) (s : State) : (sendReq r s).referee = s.referee := (sendReq_kept r s).2.2.2.2.2.2.2.2.2.2.2.2.2.2.2.2.2.2.2.2.2.1
@[simp] theorem sendReq_roster (r : RReq) (s : State) : (sendReq r s).roster = s.roster := (sendReq_kept r s).2.2.2.2.2.2.2.2.2.2.2.2.2.2.2.2.2.2.2.2.2.2.1
@[simp] theorem sendReq_regions (r : RReq) (s : State) : (sendReq r s).regions = s.regions := (sendReq_kept r s).2.2.2.2.2.2.2.2.2.2.2.2.2.2.2.2.2.2.2.2.2.2.2.1
@[simp] theorem sendReq_palette (r : RReq) (s : State) : (sendReq r s).palette = s.palette := (sendReq_kept r s).2.2.2.2.2.2.2.2.2.2.2.2.2.2.2.2.2.2.2.2.2.2.2.2.1
@[simp] theorem sendReq_freeCtr (r : RReq) (s : State) : (sendReq r s).freeCtr = s.freeCtr := (sendReq_kept r s).2.2.2.2.2.2.2.2.2.2.2.2.2.2.2.2.2.2.2.2.2.2.2.2.2
theorem ringRequest_kept (k : BitVec 4) (kind : ReqKind) (s : State) :
    (ringRequest k kind s).pending = s.pending ∧ (ringRequest k kind s).power = s.power ∧ (ringRequest k kind
    s).standby = s.standby ∧ (ringRequest k kind s).clk = s.clk ∧ (ringRequest k kind s).restart = s.restart ∧
    (ringRequest k kind s).ident = s.ident ∧ (ringRequest k kind s).nv = s.nv ∧ (ringRequest k kind s).pathC =
    s.pathC ∧ (ringRequest k kind s).pathM = s.pathM ∧ (ringRequest k kind s).cport = s.cport ∧ (ringRequest k kind
    s).mgmt = s.mgmt ∧ (ringRequest k kind s).scratch = s.scratch ∧ (ringRequest k kind s).hbu = s.hbu ∧
    (ringRequest k kind s).dma = s.dma ∧ (ringRequest k kind s).queues = s.queues ∧ (ringRequest k kind s).members =
    s.members ∧ (ringRequest k kind s).arrs = s.arrs ∧ (ringRequest k kind s).vols = s.vols ∧ (ringRequest k kind
    s).canvas = s.canvas ∧ (ringRequest k kind s).skb = s.skb ∧ (ringRequest k kind s).studios = s.studios ∧
    (ringRequest k kind s).referee = s.referee ∧ (ringRequest k kind s).roster = s.roster ∧ (ringRequest k kind
    s).regions = s.regions ∧ (ringRequest k kind s).palette = s.palette ∧ (ringRequest k kind s).freeCtr = s.freeCtr := by
  cases h : s.power.asleep.contains k <;> simp [ringRequest, onlyIf, h] <;> simp_all
@[simp] theorem ringRequest_pending (k : BitVec 4) (kind : ReqKind) (s : State) : (ringRequest k kind s).pending = s.pending := (ringRequest_kept k kind s).1
@[simp] theorem ringRequest_power (k : BitVec 4) (kind : ReqKind) (s : State) : (ringRequest k kind s).power = s.power := (ringRequest_kept k kind s).2.1
@[simp] theorem ringRequest_standby (k : BitVec 4) (kind : ReqKind) (s : State) : (ringRequest k kind s).standby = s.standby := (ringRequest_kept k kind s).2.2.1
@[simp] theorem ringRequest_clk (k : BitVec 4) (kind : ReqKind) (s : State) : (ringRequest k kind s).clk = s.clk := (ringRequest_kept k kind s).2.2.2.1
@[simp] theorem ringRequest_restart (k : BitVec 4) (kind : ReqKind) (s : State) : (ringRequest k kind s).restart = s.restart := (ringRequest_kept k kind s).2.2.2.2.1
@[simp] theorem ringRequest_ident (k : BitVec 4) (kind : ReqKind) (s : State) : (ringRequest k kind s).ident = s.ident := (ringRequest_kept k kind s).2.2.2.2.2.1
@[simp] theorem ringRequest_nv (k : BitVec 4) (kind : ReqKind) (s : State) : (ringRequest k kind s).nv = s.nv := (ringRequest_kept k kind s).2.2.2.2.2.2.1
@[simp] theorem ringRequest_pathC (k : BitVec 4) (kind : ReqKind) (s : State) : (ringRequest k kind s).pathC = s.pathC := (ringRequest_kept k kind s).2.2.2.2.2.2.2.1
@[simp] theorem ringRequest_pathM (k : BitVec 4) (kind : ReqKind) (s : State) : (ringRequest k kind s).pathM = s.pathM := (ringRequest_kept k kind s).2.2.2.2.2.2.2.2.1
@[simp] theorem ringRequest_cport (k : BitVec 4) (kind : ReqKind) (s : State) : (ringRequest k kind s).cport = s.cport := (ringRequest_kept k kind s).2.2.2.2.2.2.2.2.2.1
@[simp] theorem ringRequest_mgmt (k : BitVec 4) (kind : ReqKind) (s : State) : (ringRequest k kind s).mgmt = s.mgmt := (ringRequest_kept k kind s).2.2.2.2.2.2.2.2.2.2.1
@[simp] theorem ringRequest_scratch (k : BitVec 4) (kind : ReqKind) (s : State) : (ringRequest k kind s).scratch = s.scratch := (ringRequest_kept k kind s).2.2.2.2.2.2.2.2.2.2.2.1
@[simp] theorem ringRequest_hbu (k : BitVec 4) (kind : ReqKind) (s : State) : (ringRequest k kind s).hbu = s.hbu := (ringRequest_kept k kind s).2.2.2.2.2.2.2.2.2.2.2.2.1
@[simp] theorem ringRequest_dma (k : BitVec 4) (kind : ReqKind) (s : State) : (ringRequest k kind s).dma = s.dma := (ringRequest_kept k kind s).2.2.2.2.2.2.2.2.2.2.2.2.2.1
@[simp] theorem ringRequest_queues (k : BitVec 4) (kind : ReqKind) (s : State) : (ringRequest k kind s).queues = s.queues := (ringRequest_kept k kind s).2.2.2.2.2.2.2.2.2.2.2.2.2.2.1
@[simp] theorem ringRequest_members (k : BitVec 4) (kind : ReqKind) (s : State) : (ringRequest k kind s).members = s.members := (ringRequest_kept k kind s).2.2.2.2.2.2.2.2.2.2.2.2.2.2.2.1
@[simp] theorem ringRequest_arrs (k : BitVec 4) (kind : ReqKind) (s : State) : (ringRequest k kind s).arrs = s.arrs := (ringRequest_kept k kind s).2.2.2.2.2.2.2.2.2.2.2.2.2.2.2.2.1
@[simp] theorem ringRequest_vols (k : BitVec 4) (kind : ReqKind) (s : State) : (ringRequest k kind s).vols = s.vols := (ringRequest_kept k kind s).2.2.2.2.2.2.2.2.2.2.2.2.2.2.2.2.2.1
@[simp] theorem ringRequest_canvas (k : BitVec 4) (kind : ReqKind) (s : State) : (ringRequest k kind s).canvas = s.canvas := (ringRequest_kept k kind s).2.2.2.2.2.2.2.2.2.2.2.2.2.2.2.2.2.2.1
@[simp] theorem ringRequest_skb (k : BitVec 4) (kind : ReqKind) (s : State) : (ringRequest k kind s).skb = s.skb := (ringRequest_kept k kind s).2.2.2.2.2.2.2.2.2.2.2.2.2.2.2.2.2.2.2.1
@[simp] theorem ringRequest_studios (k : BitVec 4) (kind : ReqKind) (s : State) : (ringRequest k kind s).studios = s.studios := (ringRequest_kept k kind s).2.2.2.2.2.2.2.2.2.2.2.2.2.2.2.2.2.2.2.2.1
@[simp] theorem ringRequest_referee (k : BitVec 4) (kind : ReqKind) (s : State) : (ringRequest k kind s).referee = s.referee := (ringRequest_kept k kind s).2.2.2.2.2.2.2.2.2.2.2.2.2.2.2.2.2.2.2.2.2.1
@[simp] theorem ringRequest_roster (k : BitVec 4) (kind : ReqKind) (s : State) : (ringRequest k kind s).roster = s.roster := (ringRequest_kept k kind s).2.2.2.2.2.2.2.2.2.2.2.2.2.2.2.2.2.2.2.2.2.2.1
@[simp] theorem ringRequest_regions (k : BitVec 4) (kind : ReqKind) (s : State) : (ringRequest k kind s).regions = s.regions := (ringRequest_kept k kind s).2.2.2.2.2.2.2.2.2.2.2.2.2.2.2.2.2.2.2.2.2.2.2.1
@[simp] theorem ringRequest_palette (k : BitVec 4) (kind : ReqKind) (s : State) : (ringRequest k kind s).palette = s.palette := (ringRequest_kept k kind s).2.2.2.2.2.2.2.2.2.2.2.2.2.2.2.2.2.2.2.2.2.2.2.2.1
@[simp] theorem ringRequest_freeCtr (k : BitVec 4) (kind : ReqKind) (s : State) : (ringRequest k kind s).freeCtr = s.freeCtr := (ringRequest_kept k kind s).2.2.2.2.2.2.2.2.2.2.2.2.2.2.2.2.2.2.2.2.2.2.2.2.2
theorem progReq_kept (o : ProgOp) (s : State) :
    (progReq o s).pending = s.pending ∧ (progReq o s).power = s.power ∧ (progReq o s).standby = s.standby ∧ (progReq
    o s).clk = s.clk ∧ (progReq o s).restart = s.restart ∧ (progReq o s).ident = s.ident ∧ (progReq o s).log = s.log
    ∧ (progReq o s).pathC = s.pathC ∧ (progReq o s).pathM = s.pathM ∧ (progReq o s).cport = s.cport ∧ (progReq o
    s).mgmt = s.mgmt ∧ (progReq o s).scratch = s.scratch ∧ (progReq o s).hbu = s.hbu ∧ (progReq o s).ledger =
    s.ledger ∧ (progReq o s).dma = s.dma ∧ (progReq o s).queues = s.queues ∧ (progReq o s).members = s.members ∧
    (progReq o s).arrs = s.arrs ∧ (progReq o s).vols = s.vols ∧ (progReq o s).canvas = s.canvas ∧ (progReq o s).skb
    = s.skb ∧ (progReq o s).studios = s.studios ∧ (progReq o s).referee = s.referee ∧ (progReq o s).roster =
    s.roster ∧ (progReq o s).regions = s.regions ∧ (progReq o s).ring = s.ring ∧ (progReq o s).palette = s.palette ∧
    (progReq o s).freeCtr = s.freeCtr := by
  simp only [progReq]; (repeat' split) <;> simp
@[simp] theorem progReq_pending (o : ProgOp) (s : State) : (progReq o s).pending = s.pending := (progReq_kept o s).1
@[simp] theorem progReq_power (o : ProgOp) (s : State) : (progReq o s).power = s.power := (progReq_kept o s).2.1
@[simp] theorem progReq_standby (o : ProgOp) (s : State) : (progReq o s).standby = s.standby := (progReq_kept o s).2.2.1
@[simp] theorem progReq_clk (o : ProgOp) (s : State) : (progReq o s).clk = s.clk := (progReq_kept o s).2.2.2.1
@[simp] theorem progReq_restart (o : ProgOp) (s : State) : (progReq o s).restart = s.restart := (progReq_kept o s).2.2.2.2.1
@[simp] theorem progReq_ident (o : ProgOp) (s : State) : (progReq o s).ident = s.ident := (progReq_kept o s).2.2.2.2.2.1
@[simp] theorem progReq_log (o : ProgOp) (s : State) : (progReq o s).log = s.log := (progReq_kept o s).2.2.2.2.2.2.1
@[simp] theorem progReq_pathC (o : ProgOp) (s : State) : (progReq o s).pathC = s.pathC := (progReq_kept o s).2.2.2.2.2.2.2.1
@[simp] theorem progReq_pathM (o : ProgOp) (s : State) : (progReq o s).pathM = s.pathM := (progReq_kept o s).2.2.2.2.2.2.2.2.1
@[simp] theorem progReq_cport (o : ProgOp) (s : State) : (progReq o s).cport = s.cport := (progReq_kept o s).2.2.2.2.2.2.2.2.2.1
@[simp] theorem progReq_mgmt (o : ProgOp) (s : State) : (progReq o s).mgmt = s.mgmt := (progReq_kept o s).2.2.2.2.2.2.2.2.2.2.1
@[simp] theorem progReq_scratch (o : ProgOp) (s : State) : (progReq o s).scratch = s.scratch := (progReq_kept o s).2.2.2.2.2.2.2.2.2.2.2.1
@[simp] theorem progReq_hbu (o : ProgOp) (s : State) : (progReq o s).hbu = s.hbu := (progReq_kept o s).2.2.2.2.2.2.2.2.2.2.2.2.1
@[simp] theorem progReq_ledger (o : ProgOp) (s : State) : (progReq o s).ledger = s.ledger := (progReq_kept o s).2.2.2.2.2.2.2.2.2.2.2.2.2.1
@[simp] theorem progReq_dma (o : ProgOp) (s : State) : (progReq o s).dma = s.dma := (progReq_kept o s).2.2.2.2.2.2.2.2.2.2.2.2.2.2.1
@[simp] theorem progReq_queues (o : ProgOp) (s : State) : (progReq o s).queues = s.queues := (progReq_kept o s).2.2.2.2.2.2.2.2.2.2.2.2.2.2.2.1
@[simp] theorem progReq_members (o : ProgOp) (s : State) : (progReq o s).members = s.members := (progReq_kept o s).2.2.2.2.2.2.2.2.2.2.2.2.2.2.2.2.1
@[simp] theorem progReq_arrs (o : ProgOp) (s : State) : (progReq o s).arrs = s.arrs := (progReq_kept o s).2.2.2.2.2.2.2.2.2.2.2.2.2.2.2.2.2.1
@[simp] theorem progReq_vols (o : ProgOp) (s : State) : (progReq o s).vols = s.vols := (progReq_kept o s).2.2.2.2.2.2.2.2.2.2.2.2.2.2.2.2.2.2.1
@[simp] theorem progReq_canvas (o : ProgOp) (s : State) : (progReq o s).canvas = s.canvas := (progReq_kept o s).2.2.2.2.2.2.2.2.2.2.2.2.2.2.2.2.2.2.2.1
@[simp] theorem progReq_skb (o : ProgOp) (s : State) : (progReq o s).skb = s.skb := (progReq_kept o s).2.2.2.2.2.2.2.2.2.2.2.2.2.2.2.2.2.2.2.2.1
@[simp] theorem progReq_studios (o : ProgOp) (s : State) : (progReq o s).studios = s.studios := (progReq_kept o s).2.2.2.2.2.2.2.2.2.2.2.2.2.2.2.2.2.2.2.2.2.1
@[simp] theorem progReq_referee (o : ProgOp) (s : State) : (progReq o s).referee = s.referee := (progReq_kept o s).2.2.2.2.2.2.2.2.2.2.2.2.2.2.2.2.2.2.2.2.2.2.1
@[simp] theorem progReq_roster (o : ProgOp) (s : State) : (progReq o s).roster = s.roster := (progReq_kept o s).2.2.2.2.2.2.2.2.2.2.2.2.2.2.2.2.2.2.2.2.2.2.2.1
@[simp] theorem progReq_regions (o : ProgOp) (s : State) : (progReq o s).regions = s.regions := (progReq_kept o s).2.2.2.2.2.2.2.2.2.2.2.2.2.2.2.2.2.2.2.2.2.2.2.2.1
@[simp] theorem progReq_ring (o : ProgOp) (s : State) : (progReq o s).ring = s.ring := (progReq_kept o s).2.2.2.2.2.2.2.2.2.2.2.2.2.2.2.2.2.2.2.2.2.2.2.2.2.1
@[simp] theorem progReq_palette (o : ProgOp) (s : State) : (progReq o s).palette = s.palette := (progReq_kept o s).2.2.2.2.2.2.2.2.2.2.2.2.2.2.2.2.2.2.2.2.2.2.2.2.2.2.1
@[simp] theorem progReq_freeCtr (o : ProgOp) (s : State) : (progReq o s).freeCtr = s.freeCtr := (progReq_kept o s).2.2.2.2.2.2.2.2.2.2.2.2.2.2.2.2.2.2.2.2.2.2.2.2.2.2.2
theorem createOp_kept (o : MOp) (s : State) :
    (createOp o s).pending = s.pending ∧ (createOp o s).power = s.power ∧ (createOp o s).standby = s.standby ∧
    (createOp o s).clk = s.clk ∧ (createOp o s).restart = s.restart ∧ (createOp o s).ident = s.ident ∧ (createOp o
    s).nv = s.nv ∧ (createOp o s).pathC = s.pathC ∧ (createOp o s).pathM = s.pathM ∧ (createOp o s).cport = s.cport
    ∧ (createOp o s).mgmt = s.mgmt ∧ (createOp o s).scratch = s.scratch ∧ (createOp o s).hbu = s.hbu ∧ (createOp o
    s).dma = s.dma ∧ (createOp o s).queues = s.queues ∧ (createOp o s).arrs = s.arrs ∧ (createOp o s).vols = s.vols
    ∧ (createOp o s).canvas = s.canvas ∧ (createOp o s).skb = s.skb ∧ (createOp o s).studios = s.studios ∧ (createOp
    o s).referee = s.referee ∧ (createOp o s).roster = s.roster ∧ (createOp o s).regions = s.regions ∧ (createOp o
    s).palette = s.palette ∧ (createOp o s).freeCtr = s.freeCtr := by
  simp only [createOp]; (repeat' split) <;> simp
@[simp] theorem createOp_pending (o : MOp) (s : State) : (createOp o s).pending = s.pending := (createOp_kept o s).1
@[simp] theorem createOp_power (o : MOp) (s : State) : (createOp o s).power = s.power := (createOp_kept o s).2.1
@[simp] theorem createOp_standby (o : MOp) (s : State) : (createOp o s).standby = s.standby := (createOp_kept o s).2.2.1
@[simp] theorem createOp_clk (o : MOp) (s : State) : (createOp o s).clk = s.clk := (createOp_kept o s).2.2.2.1
@[simp] theorem createOp_restart (o : MOp) (s : State) : (createOp o s).restart = s.restart := (createOp_kept o s).2.2.2.2.1
@[simp] theorem createOp_ident (o : MOp) (s : State) : (createOp o s).ident = s.ident := (createOp_kept o s).2.2.2.2.2.1
@[simp] theorem createOp_nv (o : MOp) (s : State) : (createOp o s).nv = s.nv := (createOp_kept o s).2.2.2.2.2.2.1
@[simp] theorem createOp_pathC (o : MOp) (s : State) : (createOp o s).pathC = s.pathC := (createOp_kept o s).2.2.2.2.2.2.2.1
@[simp] theorem createOp_pathM (o : MOp) (s : State) : (createOp o s).pathM = s.pathM := (createOp_kept o s).2.2.2.2.2.2.2.2.1
@[simp] theorem createOp_cport (o : MOp) (s : State) : (createOp o s).cport = s.cport := (createOp_kept o s).2.2.2.2.2.2.2.2.2.1
@[simp] theorem createOp_mgmt (o : MOp) (s : State) : (createOp o s).mgmt = s.mgmt := (createOp_kept o s).2.2.2.2.2.2.2.2.2.2.1
@[simp] theorem createOp_scratch (o : MOp) (s : State) : (createOp o s).scratch = s.scratch := (createOp_kept o s).2.2.2.2.2.2.2.2.2.2.2.1
@[simp] theorem createOp_hbu (o : MOp) (s : State) : (createOp o s).hbu = s.hbu := (createOp_kept o s).2.2.2.2.2.2.2.2.2.2.2.2.1
@[simp] theorem createOp_dma (o : MOp) (s : State) : (createOp o s).dma = s.dma := (createOp_kept o s).2.2.2.2.2.2.2.2.2.2.2.2.2.1
@[simp] theorem createOp_queues (o : MOp) (s : State) : (createOp o s).queues = s.queues := (createOp_kept o s).2.2.2.2.2.2.2.2.2.2.2.2.2.2.1
@[simp] theorem createOp_arrs (o : MOp) (s : State) : (createOp o s).arrs = s.arrs := (createOp_kept o s).2.2.2.2.2.2.2.2.2.2.2.2.2.2.2.1
@[simp] theorem createOp_vols (o : MOp) (s : State) : (createOp o s).vols = s.vols := (createOp_kept o s).2.2.2.2.2.2.2.2.2.2.2.2.2.2.2.2.1
@[simp] theorem createOp_canvas (o : MOp) (s : State) : (createOp o s).canvas = s.canvas := (createOp_kept o s).2.2.2.2.2.2.2.2.2.2.2.2.2.2.2.2.2.1
@[simp] theorem createOp_skb (o : MOp) (s : State) : (createOp o s).skb = s.skb := (createOp_kept o s).2.2.2.2.2.2.2.2.2.2.2.2.2.2.2.2.2.2.1
@[simp] theorem createOp_studios (o : MOp) (s : State) : (createOp o s).studios = s.studios := (createOp_kept o s).2.2.2.2.2.2.2.2.2.2.2.2.2.2.2.2.2.2.2.1
@[simp] theorem createOp_referee (o : MOp) (s : State) : (createOp o s).referee = s.referee := (createOp_kept o s).2.2.2.2.2.2.2.2.2.2.2.2.2.2.2.2.2.2.2.2.1
@[simp] theorem createOp_roster (o : MOp) (s : State) : (createOp o s).roster = s.roster := (createOp_kept o s).2.2.2.2.2.2.2.2.2.2.2.2.2.2.2.2.2.2.2.2.2.1
@[simp] theorem createOp_regions (o : MOp) (s : State) : (createOp o s).regions = s.regions := (createOp_kept o s).2.2.2.2.2.2.2.2.2.2.2.2.2.2.2.2.2.2.2.2.2.2.1
@[simp] theorem createOp_palette (o : MOp) (s : State) : (createOp o s).palette = s.palette := (createOp_kept o s).2.2.2.2.2.2.2.2.2.2.2.2.2.2.2.2.2.2.2.2.2.2.2.1
@[simp] theorem createOp_freeCtr (o : MOp) (s : State) : (createOp o s).freeCtr = s.freeCtr := (createOp_kept o s).2.2.2.2.2.2.2.2.2.2.2.2.2.2.2.2.2.2.2.2.2.2.2.2
theorem fabricMake_kept (s : State) :
    (fabricMake s).pending = s.pending ∧ (fabricMake s).power = s.power ∧ (fabricMake s).standby = s.standby ∧
    (fabricMake s).clk = s.clk ∧ (fabricMake s).restart = s.restart ∧ (fabricMake s).nv = s.nv ∧ (fabricMake s).log
    = s.log ∧ (fabricMake s).pathC = s.pathC ∧ (fabricMake s).pathM = s.pathM ∧ (fabricMake s).cport = s.cport ∧
    (fabricMake s).mgmt = s.mgmt ∧ (fabricMake s).scratch = s.scratch ∧ (fabricMake s).hbu = s.hbu ∧ (fabricMake
    s).ledger = s.ledger ∧ (fabricMake s).dma = s.dma ∧ (fabricMake s).queues = s.queues ∧ (fabricMake s).members =
    s.members ∧ (fabricMake s).arrs = s.arrs ∧ (fabricMake s).vols = s.vols ∧ (fabricMake s).canvas = s.canvas ∧
    (fabricMake s).skb = s.skb ∧ (fabricMake s).studios = s.studios ∧ (fabricMake s).referee = s.referee ∧
    (fabricMake s).roster = s.roster ∧ (fabricMake s).regions = s.regions ∧ (fabricMake s).ring = s.ring ∧
    (fabricMake s).palette = s.palette ∧ (fabricMake s).freeCtr = s.freeCtr := by
  simp only [fabricMake]; (repeat' split) <;> simp
@[simp] theorem fabricMake_pending (s : State) : (fabricMake s).pending = s.pending := (fabricMake_kept s).1
@[simp] theorem fabricMake_power (s : State) : (fabricMake s).power = s.power := (fabricMake_kept s).2.1
@[simp] theorem fabricMake_standby (s : State) : (fabricMake s).standby = s.standby := (fabricMake_kept s).2.2.1
@[simp] theorem fabricMake_clk (s : State) : (fabricMake s).clk = s.clk := (fabricMake_kept s).2.2.2.1
@[simp] theorem fabricMake_restart (s : State) : (fabricMake s).restart = s.restart := (fabricMake_kept s).2.2.2.2.1
@[simp] theorem fabricMake_nv (s : State) : (fabricMake s).nv = s.nv := (fabricMake_kept s).2.2.2.2.2.1
@[simp] theorem fabricMake_log (s : State) : (fabricMake s).log = s.log := (fabricMake_kept s).2.2.2.2.2.2.1
@[simp] theorem fabricMake_pathC (s : State) : (fabricMake s).pathC = s.pathC := (fabricMake_kept s).2.2.2.2.2.2.2.1
@[simp] theorem fabricMake_pathM (s : State) : (fabricMake s).pathM = s.pathM := (fabricMake_kept s).2.2.2.2.2.2.2.2.1
@[simp] theorem fabricMake_cport (s : State) : (fabricMake s).cport = s.cport := (fabricMake_kept s).2.2.2.2.2.2.2.2.2.1
@[simp] theorem fabricMake_mgmt (s : State) : (fabricMake s).mgmt = s.mgmt := (fabricMake_kept s).2.2.2.2.2.2.2.2.2.2.1
@[simp] theorem fabricMake_scratch (s : State) : (fabricMake s).scratch = s.scratch := (fabricMake_kept s).2.2.2.2.2.2.2.2.2.2.2.1
@[simp] theorem fabricMake_hbu (s : State) : (fabricMake s).hbu = s.hbu := (fabricMake_kept s).2.2.2.2.2.2.2.2.2.2.2.2.1
@[simp] theorem fabricMake_ledger (s : State) : (fabricMake s).ledger = s.ledger := (fabricMake_kept s).2.2.2.2.2.2.2.2.2.2.2.2.2.1
@[simp] theorem fabricMake_dma (s : State) : (fabricMake s).dma = s.dma := (fabricMake_kept s).2.2.2.2.2.2.2.2.2.2.2.2.2.2.1
@[simp] theorem fabricMake_queues (s : State) : (fabricMake s).queues = s.queues := (fabricMake_kept s).2.2.2.2.2.2.2.2.2.2.2.2.2.2.2.1
@[simp] theorem fabricMake_members (s : State) : (fabricMake s).members = s.members := (fabricMake_kept s).2.2.2.2.2.2.2.2.2.2.2.2.2.2.2.2.1
@[simp] theorem fabricMake_arrs (s : State) : (fabricMake s).arrs = s.arrs := (fabricMake_kept s).2.2.2.2.2.2.2.2.2.2.2.2.2.2.2.2.2.1
@[simp] theorem fabricMake_vols (s : State) : (fabricMake s).vols = s.vols := (fabricMake_kept s).2.2.2.2.2.2.2.2.2.2.2.2.2.2.2.2.2.2.1
@[simp] theorem fabricMake_canvas (s : State) : (fabricMake s).canvas = s.canvas := (fabricMake_kept s).2.2.2.2.2.2.2.2.2.2.2.2.2.2.2.2.2.2.2.1
@[simp] theorem fabricMake_skb (s : State) : (fabricMake s).skb = s.skb := (fabricMake_kept s).2.2.2.2.2.2.2.2.2.2.2.2.2.2.2.2.2.2.2.2.1
@[simp] theorem fabricMake_studios (s : State) : (fabricMake s).studios = s.studios := (fabricMake_kept s).2.2.2.2.2.2.2.2.2.2.2.2.2.2.2.2.2.2.2.2.2.1
@[simp] theorem fabricMake_referee (s : State) : (fabricMake s).referee = s.referee := (fabricMake_kept s).2.2.2.2.2.2.2.2.2.2.2.2.2.2.2.2.2.2.2.2.2.2.1
@[simp] theorem fabricMake_roster (s : State) : (fabricMake s).roster = s.roster := (fabricMake_kept s).2.2.2.2.2.2.2.2.2.2.2.2.2.2.2.2.2.2.2.2.2.2.2.1
@[simp] theorem fabricMake_regions (s : State) : (fabricMake s).regions = s.regions := (fabricMake_kept s).2.2.2.2.2.2.2.2.2.2.2.2.2.2.2.2.2.2.2.2.2.2.2.2.1
@[simp] theorem fabricMake_ring (s : State) : (fabricMake s).ring = s.ring := (fabricMake_kept s).2.2.2.2.2.2.2.2.2.2.2.2.2.2.2.2.2.2.2.2.2.2.2.2.2.1
@[simp] theorem fabricMake_palette (s : State) : (fabricMake s).palette = s.palette := (fabricMake_kept s).2.2.2.2.2.2.2.2.2.2.2.2.2.2.2.2.2.2.2.2.2.2.2.2.2.2.1
@[simp] theorem fabricMake_freeCtr (s : State) : (fabricMake s).freeCtr = s.freeCtr := (fabricMake_kept s).2.2.2.2.2.2.2.2.2.2.2.2.2.2.2.2.2.2.2.2.2.2.2.2.2.2.2
theorem nvCommit_kept (c : NvChange) (s : State) :
    (nvCommit c s).pending = s.pending ∧ (nvCommit c s).power = s.power ∧ (nvCommit c s).standby = s.standby ∧
    (nvCommit c s).clk = s.clk ∧ (nvCommit c s).restart = s.restart ∧ (nvCommit c s).log = s.log ∧ (nvCommit c
    s).pathC = s.pathC ∧ (nvCommit c s).pathM = s.pathM ∧ (nvCommit c s).cport = s.cport ∧ (nvCommit c s).mgmt =
    s.mgmt ∧ (nvCommit c s).scratch = s.scratch ∧ (nvCommit c s).hbu = s.hbu ∧ (nvCommit c s).ledger = s.ledger ∧
    (nvCommit c s).dma = s.dma ∧ (nvCommit c s).queues = s.queues ∧ (nvCommit c s).members = s.members ∧ (nvCommit c
    s).arrs = s.arrs ∧ (nvCommit c s).vols = s.vols ∧ (nvCommit c s).canvas = s.canvas ∧ (nvCommit c s).skb = s.skb
    ∧ (nvCommit c s).studios = s.studios ∧ (nvCommit c s).referee = s.referee ∧ (nvCommit c s).roster = s.roster ∧
    (nvCommit c s).regions = s.regions ∧ (nvCommit c s).ring = s.ring ∧ (nvCommit c s).palette = s.palette ∧
    (nvCommit c s).freeCtr = s.freeCtr := by
  simp only [nvCommit]; (repeat' split) <;> simp
@[simp] theorem nvCommit_pending (c : NvChange) (s : State) : (nvCommit c s).pending = s.pending := (nvCommit_kept c s).1
@[simp] theorem nvCommit_power (c : NvChange) (s : State) : (nvCommit c s).power = s.power := (nvCommit_kept c s).2.1
@[simp] theorem nvCommit_standby (c : NvChange) (s : State) : (nvCommit c s).standby = s.standby := (nvCommit_kept c s).2.2.1
@[simp] theorem nvCommit_clk (c : NvChange) (s : State) : (nvCommit c s).clk = s.clk := (nvCommit_kept c s).2.2.2.1
@[simp] theorem nvCommit_restart (c : NvChange) (s : State) : (nvCommit c s).restart = s.restart := (nvCommit_kept c s).2.2.2.2.1
@[simp] theorem nvCommit_log (c : NvChange) (s : State) : (nvCommit c s).log = s.log := (nvCommit_kept c s).2.2.2.2.2.1
@[simp] theorem nvCommit_pathC (c : NvChange) (s : State) : (nvCommit c s).pathC = s.pathC := (nvCommit_kept c s).2.2.2.2.2.2.1
@[simp] theorem nvCommit_pathM (c : NvChange) (s : State) : (nvCommit c s).pathM = s.pathM := (nvCommit_kept c s).2.2.2.2.2.2.2.1
@[simp] theorem nvCommit_cport (c : NvChange) (s : State) : (nvCommit c s).cport = s.cport := (nvCommit_kept c s).2.2.2.2.2.2.2.2.1
@[simp] theorem nvCommit_mgmt (c : NvChange) (s : State) : (nvCommit c s).mgmt = s.mgmt := (nvCommit_kept c s).2.2.2.2.2.2.2.2.2.1
@[simp] theorem nvCommit_scratch (c : NvChange) (s : State) : (nvCommit c s).scratch = s.scratch := (nvCommit_kept c s).2.2.2.2.2.2.2.2.2.2.1
@[simp] theorem nvCommit_hbu (c : NvChange) (s : State) : (nvCommit c s).hbu = s.hbu := (nvCommit_kept c s).2.2.2.2.2.2.2.2.2.2.2.1
@[simp] theorem nvCommit_ledger (c : NvChange) (s : State) : (nvCommit c s).ledger = s.ledger := (nvCommit_kept c s).2.2.2.2.2.2.2.2.2.2.2.2.1
@[simp] theorem nvCommit_dma (c : NvChange) (s : State) : (nvCommit c s).dma = s.dma := (nvCommit_kept c s).2.2.2.2.2.2.2.2.2.2.2.2.2.1
@[simp] theorem nvCommit_queues (c : NvChange) (s : State) : (nvCommit c s).queues = s.queues := (nvCommit_kept c s).2.2.2.2.2.2.2.2.2.2.2.2.2.2.1
@[simp] theorem nvCommit_members (c : NvChange) (s : State) : (nvCommit c s).members = s.members := (nvCommit_kept c s).2.2.2.2.2.2.2.2.2.2.2.2.2.2.2.1
@[simp] theorem nvCommit_arrs (c : NvChange) (s : State) : (nvCommit c s).arrs = s.arrs := (nvCommit_kept c s).2.2.2.2.2.2.2.2.2.2.2.2.2.2.2.2.1
@[simp] theorem nvCommit_vols (c : NvChange) (s : State) : (nvCommit c s).vols = s.vols := (nvCommit_kept c s).2.2.2.2.2.2.2.2.2.2.2.2.2.2.2.2.2.1
@[simp] theorem nvCommit_canvas (c : NvChange) (s : State) : (nvCommit c s).canvas = s.canvas := (nvCommit_kept c s).2.2.2.2.2.2.2.2.2.2.2.2.2.2.2.2.2.2.1
@[simp] theorem nvCommit_skb (c : NvChange) (s : State) : (nvCommit c s).skb = s.skb := (nvCommit_kept c s).2.2.2.2.2.2.2.2.2.2.2.2.2.2.2.2.2.2.2.1
@[simp] theorem nvCommit_studios (c : NvChange) (s : State) : (nvCommit c s).studios = s.studios := (nvCommit_kept c s).2.2.2.2.2.2.2.2.2.2.2.2.2.2.2.2.2.2.2.2.1
@[simp] theorem nvCommit_referee (c : NvChange) (s : State) : (nvCommit c s).referee = s.referee := (nvCommit_kept c s).2.2.2.2.2.2.2.2.2.2.2.2.2.2.2.2.2.2.2.2.2.1
@[simp] theorem nvCommit_roster (c : NvChange) (s : State) : (nvCommit c s).roster = s.roster := (nvCommit_kept c s).2.2.2.2.2.2.2.2.2.2.2.2.2.2.2.2.2.2.2.2.2.2.1
@[simp] theorem nvCommit_regions (c : NvChange) (s : State) : (nvCommit c s).regions = s.regions := (nvCommit_kept c s).2.2.2.2.2.2.2.2.2.2.2.2.2.2.2.2.2.2.2.2.2.2.2.1
@[simp] theorem nvCommit_ring (c : NvChange) (s : State) : (nvCommit c s).ring = s.ring := (nvCommit_kept c s).2.2.2.2.2.2.2.2.2.2.2.2.2.2.2.2.2.2.2.2.2.2.2.2.1
@[simp] theorem nvCommit_palette (c : NvChange) (s : State) : (nvCommit c s).palette = s.palette := (nvCommit_kept c s).2.2.2.2.2.2.2.2.2.2.2.2.2.2.2.2.2.2.2.2.2.2.2.2.2.1
@[simp] theorem nvCommit_freeCtr (c : NvChange) (s : State) : (nvCommit c s).freeCtr = s.freeCtr := (nvCommit_kept c s).2.2.2.2.2.2.2.2.2.2.2.2.2.2.2.2.2.2.2.2.2.2.2.2.2.2
theorem memberReport_kept (p : Fin 8) (s : State) :
    (memberReport p s).pending = s.pending ∧ (memberReport p s).power = s.power ∧ (memberReport p s).standby =
    s.standby ∧ (memberReport p s).clk = s.clk ∧ (memberReport p s).restart = s.restart ∧ (memberReport p s).ident =
    s.ident ∧ (memberReport p s).nv = s.nv ∧ (memberReport p s).pathC = s.pathC ∧ (memberReport p s).pathM = s.pathM
    ∧ (memberReport p s).cport = s.cport ∧ (memberReport p s).mgmt = s.mgmt ∧ (memberReport p s).scratch = s.scratch
    ∧ (memberReport p s).hbu = s.hbu ∧ (memberReport p s).dma = s.dma ∧ (memberReport p s).queues = s.queues ∧
    (memberReport p s).members = s.members ∧ (memberReport p s).arrs = s.arrs ∧ (memberReport p s).vols = s.vols ∧
    (memberReport p s).canvas = s.canvas ∧ (memberReport p s).skb = s.skb ∧ (memberReport p s).studios = s.studios ∧
    (memberReport p s).referee = s.referee ∧ (memberReport p s).roster = s.roster ∧ (memberReport p s).regions =
    s.regions ∧ (memberReport p s).palette = s.palette ∧ (memberReport p s).freeCtr = s.freeCtr := by simp [memberReport]
@[simp] theorem memberReport_pending (p : Fin 8) (s : State) : (memberReport p s).pending = s.pending := (memberReport_kept p s).1
@[simp] theorem memberReport_power (p : Fin 8) (s : State) : (memberReport p s).power = s.power := (memberReport_kept p s).2.1
@[simp] theorem memberReport_standby (p : Fin 8) (s : State) : (memberReport p s).standby = s.standby := (memberReport_kept p s).2.2.1
@[simp] theorem memberReport_clk (p : Fin 8) (s : State) : (memberReport p s).clk = s.clk := (memberReport_kept p s).2.2.2.1
@[simp] theorem memberReport_restart (p : Fin 8) (s : State) : (memberReport p s).restart = s.restart := (memberReport_kept p s).2.2.2.2.1
@[simp] theorem memberReport_ident (p : Fin 8) (s : State) : (memberReport p s).ident = s.ident := (memberReport_kept p s).2.2.2.2.2.1
@[simp] theorem memberReport_nv (p : Fin 8) (s : State) : (memberReport p s).nv = s.nv := (memberReport_kept p s).2.2.2.2.2.2.1
@[simp] theorem memberReport_pathC (p : Fin 8) (s : State) : (memberReport p s).pathC = s.pathC := (memberReport_kept p s).2.2.2.2.2.2.2.1
@[simp] theorem memberReport_pathM (p : Fin 8) (s : State) : (memberReport p s).pathM = s.pathM := (memberReport_kept p s).2.2.2.2.2.2.2.2.1
@[simp] theorem memberReport_cport (p : Fin 8) (s : State) : (memberReport p s).cport = s.cport := (memberReport_kept p s).2.2.2.2.2.2.2.2.2.1
@[simp] theorem memberReport_mgmt (p : Fin 8) (s : State) : (memberReport p s).mgmt = s.mgmt := (memberReport_kept p s).2.2.2.2.2.2.2.2.2.2.1
@[simp] theorem memberReport_scratch (p : Fin 8) (s : State) : (memberReport p s).scratch = s.scratch := (memberReport_kept p s).2.2.2.2.2.2.2.2.2.2.2.1
@[simp] theorem memberReport_hbu (p : Fin 8) (s : State) : (memberReport p s).hbu = s.hbu := (memberReport_kept p s).2.2.2.2.2.2.2.2.2.2.2.2.1
@[simp] theorem memberReport_dma (p : Fin 8) (s : State) : (memberReport p s).dma = s.dma := (memberReport_kept p s).2.2.2.2.2.2.2.2.2.2.2.2.2.1
@[simp] theorem memberReport_queues (p : Fin 8) (s : State) : (memberReport p s).queues = s.queues := (memberReport_kept p s).2.2.2.2.2.2.2.2.2.2.2.2.2.2.1
@[simp] theorem memberReport_members (p : Fin 8) (s : State) : (memberReport p s).members = s.members := (memberReport_kept p s).2.2.2.2.2.2.2.2.2.2.2.2.2.2.2.1
@[simp] theorem memberReport_arrs (p : Fin 8) (s : State) : (memberReport p s).arrs = s.arrs := (memberReport_kept p s).2.2.2.2.2.2.2.2.2.2.2.2.2.2.2.2.1
@[simp] theorem memberReport_vols (p : Fin 8) (s : State) : (memberReport p s).vols = s.vols := (memberReport_kept p s).2.2.2.2.2.2.2.2.2.2.2.2.2.2.2.2.2.1
@[simp] theorem memberReport_canvas (p : Fin 8) (s : State) : (memberReport p s).canvas = s.canvas := (memberReport_kept p s).2.2.2.2.2.2.2.2.2.2.2.2.2.2.2.2.2.2.1
@[simp] theorem memberReport_skb (p : Fin 8) (s : State) : (memberReport p s).skb = s.skb := (memberReport_kept p s).2.2.2.2.2.2.2.2.2.2.2.2.2.2.2.2.2.2.2.1
@[simp] theorem memberReport_studios (p : Fin 8) (s : State) : (memberReport p s).studios = s.studios := (memberReport_kept p s).2.2.2.2.2.2.2.2.2.2.2.2.2.2.2.2.2.2.2.2.1
@[simp] theorem memberReport_referee (p : Fin 8) (s : State) : (memberReport p s).referee = s.referee := (memberReport_kept p s).2.2.2.2.2.2.2.2.2.2.2.2.2.2.2.2.2.2.2.2.2.1
@[simp] theorem memberReport_roster (p : Fin 8) (s : State) : (memberReport p s).roster = s.roster := (memberReport_kept p s).2.2.2.2.2.2.2.2.2.2.2.2.2.2.2.2.2.2.2.2.2.2.1
@[simp] theorem memberReport_regions (p : Fin 8) (s : State) : (memberReport p s).regions = s.regions := (memberReport_kept p s).2.2.2.2.2.2.2.2.2.2.2.2.2.2.2.2.2.2.2.2.2.2.2.1
@[simp] theorem memberReport_palette (p : Fin 8) (s : State) : (memberReport p s).palette = s.palette := (memberReport_kept p s).2.2.2.2.2.2.2.2.2.2.2.2.2.2.2.2.2.2.2.2.2.2.2.2.1
@[simp] theorem memberReport_freeCtr (p : Fin 8) (s : State) : (memberReport p s).freeCtr = s.freeCtr := (memberReport_kept p s).2.2.2.2.2.2.2.2.2.2.2.2.2.2.2.2.2.2.2.2.2.2.2.2.2
theorem memberSet_kept (m : Fin 128) (s : State) :
    (memberSet m s).pending = s.pending ∧ (memberSet m s).power = s.power ∧ (memberSet m s).standby = s.standby ∧
    (memberSet m s).clk = s.clk ∧ (memberSet m s).restart = s.restart ∧ (memberSet m s).ident = s.ident ∧ (memberSet
    m s).nv = s.nv ∧ (memberSet m s).pathC = s.pathC ∧ (memberSet m s).pathM = s.pathM ∧ (memberSet m s).cport =
    s.cport ∧ (memberSet m s).mgmt = s.mgmt ∧ (memberSet m s).scratch = s.scratch ∧ (memberSet m s).hbu = s.hbu ∧
    (memberSet m s).dma = s.dma ∧ (memberSet m s).queues = s.queues ∧ (memberSet m s).members = s.members ∧
    (memberSet m s).arrs = s.arrs ∧ (memberSet m s).vols = s.vols ∧ (memberSet m s).canvas = s.canvas ∧ (memberSet m
    s).skb = s.skb ∧ (memberSet m s).studios = s.studios ∧ (memberSet m s).referee = s.referee ∧ (memberSet m
    s).roster = s.roster ∧ (memberSet m s).regions = s.regions ∧ (memberSet m s).palette = s.palette ∧ (memberSet m
    s).freeCtr = s.freeCtr := by simp [memberSet]
@[simp] theorem memberSet_pending (m : Fin 128) (s : State) : (memberSet m s).pending = s.pending := (memberSet_kept m s).1
@[simp] theorem memberSet_power (m : Fin 128) (s : State) : (memberSet m s).power = s.power := (memberSet_kept m s).2.1
@[simp] theorem memberSet_standby (m : Fin 128) (s : State) : (memberSet m s).standby = s.standby := (memberSet_kept m s).2.2.1
@[simp] theorem memberSet_clk (m : Fin 128) (s : State) : (memberSet m s).clk = s.clk := (memberSet_kept m s).2.2.2.1
@[simp] theorem memberSet_restart (m : Fin 128) (s : State) : (memberSet m s).restart = s.restart := (memberSet_kept m s).2.2.2.2.1
@[simp] theorem memberSet_ident (m : Fin 128) (s : State) : (memberSet m s).ident = s.ident := (memberSet_kept m s).2.2.2.2.2.1
@[simp] theorem memberSet_nv (m : Fin 128) (s : State) : (memberSet m s).nv = s.nv := (memberSet_kept m s).2.2.2.2.2.2.1
@[simp] theorem memberSet_pathC (m : Fin 128) (s : State) : (memberSet m s).pathC = s.pathC := (memberSet_kept m s).2.2.2.2.2.2.2.1
@[simp] theorem memberSet_pathM (m : Fin 128) (s : State) : (memberSet m s).pathM = s.pathM := (memberSet_kept m s).2.2.2.2.2.2.2.2.1
@[simp] theorem memberSet_cport (m : Fin 128) (s : State) : (memberSet m s).cport = s.cport := (memberSet_kept m s).2.2.2.2.2.2.2.2.2.1
@[simp] theorem memberSet_mgmt (m : Fin 128) (s : State) : (memberSet m s).mgmt = s.mgmt := (memberSet_kept m s).2.2.2.2.2.2.2.2.2.2.1
@[simp] theorem memberSet_scratch (m : Fin 128) (s : State) : (memberSet m s).scratch = s.scratch := (memberSet_kept m s).2.2.2.2.2.2.2.2.2.2.2.1
@[simp] theorem memberSet_hbu (m : Fin 128) (s : State) : (memberSet m s).hbu = s.hbu := (memberSet_kept m s).2.2.2.2.2.2.2.2.2.2.2.2.1
@[simp] theorem memberSet_dma (m : Fin 128) (s : State) : (memberSet m s).dma = s.dma := (memberSet_kept m s).2.2.2.2.2.2.2.2.2.2.2.2.2.1
@[simp] theorem memberSet_queues (m : Fin 128) (s : State) : (memberSet m s).queues = s.queues := (memberSet_kept m s).2.2.2.2.2.2.2.2.2.2.2.2.2.2.1
@[simp] theorem memberSet_members (m : Fin 128) (s : State) : (memberSet m s).members = s.members := (memberSet_kept m s).2.2.2.2.2.2.2.2.2.2.2.2.2.2.2.1
@[simp] theorem memberSet_arrs (m : Fin 128) (s : State) : (memberSet m s).arrs = s.arrs := (memberSet_kept m s).2.2.2.2.2.2.2.2.2.2.2.2.2.2.2.2.1
@[simp] theorem memberSet_vols (m : Fin 128) (s : State) : (memberSet m s).vols = s.vols := (memberSet_kept m s).2.2.2.2.2.2.2.2.2.2.2.2.2.2.2.2.2.1
@[simp] theorem memberSet_canvas (m : Fin 128) (s : State) : (memberSet m s).canvas = s.canvas := (memberSet_kept m s).2.2.2.2.2.2.2.2.2.2.2.2.2.2.2.2.2.2.1
@[simp] theorem memberSet_skb (m : Fin 128) (s : State) : (memberSet m s).skb = s.skb := (memberSet_kept m s).2.2.2.2.2.2.2.2.2.2.2.2.2.2.2.2.2.2.2.1
@[simp] theorem memberSet_studios (m : Fin 128) (s : State) : (memberSet m s).studios = s.studios := (memberSet_kept m s).2.2.2.2.2.2.2.2.2.2.2.2.2.2.2.2.2.2.2.2.1
@[simp] theorem memberSet_referee (m : Fin 128) (s : State) : (memberSet m s).referee = s.referee := (memberSet_kept m s).2.2.2.2.2.2.2.2.2.2.2.2.2.2.2.2.2.2.2.2.2.1
@[simp] theorem memberSet_roster (m : Fin 128) (s : State) : (memberSet m s).roster = s.roster := (memberSet_kept m s).2.2.2.2.2.2.2.2.2.2.2.2.2.2.2.2.2.2.2.2.2.2.1
@[simp] theorem memberSet_regions (m : Fin 128) (s : State) : (memberSet m s).regions = s.regions := (memberSet_kept m s).2.2.2.2.2.2.2.2.2.2.2.2.2.2.2.2.2.2.2.2.2.2.2.1
@[simp] theorem memberSet_palette (m : Fin 128) (s : State) : (memberSet m s).palette = s.palette := (memberSet_kept m s).2.2.2.2.2.2.2.2.2.2.2.2.2.2.2.2.2.2.2.2.2.2.2.2.1
@[simp] theorem memberSet_freeCtr (m : Fin 128) (s : State) : (memberSet m s).freeCtr = s.freeCtr := (memberSet_kept m s).2.2.2.2.2.2.2.2.2.2.2.2.2.2.2.2.2.2.2.2.2.2.2.2.2
theorem memEnter_kept (m : Fin 128) (new : MState) (cause : Byte) (s : State) :
    (memEnter m new cause s).pending = s.pending ∧ (memEnter m new cause s).power = s.power ∧ (memEnter m new cause
    s).standby = s.standby ∧ (memEnter m new cause s).clk = s.clk ∧ (memEnter m new cause s).restart = s.restart ∧
    (memEnter m new cause s).ident = s.ident ∧ (memEnter m new cause s).pathC = s.pathC ∧ (memEnter m new cause
    s).pathM = s.pathM ∧ (memEnter m new cause s).cport = s.cport ∧ (memEnter m new cause s).mgmt = s.mgmt ∧
    (memEnter m new cause s).scratch = s.scratch ∧ (memEnter m new cause s).hbu = s.hbu ∧ (memEnter m new cause
    s).ledger = s.ledger ∧ (memEnter m new cause s).dma = s.dma ∧ (memEnter m new cause s).queues = s.queues ∧
    (memEnter m new cause s).arrs = s.arrs ∧ (memEnter m new cause s).vols = s.vols ∧ (memEnter m new cause
    s).canvas = s.canvas ∧ (memEnter m new cause s).skb = s.skb ∧ (memEnter m new cause s).studios = s.studios ∧
    (memEnter m new cause s).referee = s.referee ∧ (memEnter m new cause s).roster = s.roster ∧ (memEnter m new
    cause s).regions = s.regions ∧ (memEnter m new cause s).palette = s.palette ∧ (memEnter m new cause s).freeCtr =
    s.freeCtr := by simp [memEnter]
@[simp] theorem memEnter_pending (m : Fin 128) (new : MState) (cause : Byte) (s : State) : (memEnter m new cause s).pending = s.pending := (memEnter_kept m new cause s).1
@[simp] theorem memEnter_power (m : Fin 128) (new : MState) (cause : Byte) (s : State) : (memEnter m new cause s).power = s.power := (memEnter_kept m new cause s).2.1
@[simp] theorem memEnter_standby (m : Fin 128) (new : MState) (cause : Byte) (s : State) : (memEnter m new cause s).standby = s.standby := (memEnter_kept m new cause s).2.2.1
@[simp] theorem memEnter_clk (m : Fin 128) (new : MState) (cause : Byte) (s : State) : (memEnter m new cause s).clk = s.clk := (memEnter_kept m new cause s).2.2.2.1
@[simp] theorem memEnter_restart (m : Fin 128) (new : MState) (cause : Byte) (s : State) : (memEnter m new cause s).restart = s.restart := (memEnter_kept m new cause s).2.2.2.2.1
@[simp] theorem memEnter_ident (m : Fin 128) (new : MState) (cause : Byte) (s : State) : (memEnter m new cause s).ident = s.ident := (memEnter_kept m new cause s).2.2.2.2.2.1
@[simp] theorem memEnter_pathC (m : Fin 128) (new : MState) (cause : Byte) (s : State) : (memEnter m new cause s).pathC = s.pathC := (memEnter_kept m new cause s).2.2.2.2.2.2.1
@[simp] theorem memEnter_pathM (m : Fin 128) (new : MState) (cause : Byte) (s : State) : (memEnter m new cause s).pathM = s.pathM := (memEnter_kept m new cause s).2.2.2.2.2.2.2.1
@[simp] theorem memEnter_cport (m : Fin 128) (new : MState) (cause : Byte) (s : State) : (memEnter m new cause s).cport = s.cport := (memEnter_kept m new cause s).2.2.2.2.2.2.2.2.1
@[simp] theorem memEnter_mgmt (m : Fin 128) (new : MState) (cause : Byte) (s : State) : (memEnter m new cause s).mgmt = s.mgmt := (memEnter_kept m new cause s).2.2.2.2.2.2.2.2.2.1
@[simp] theorem memEnter_scratch (m : Fin 128) (new : MState) (cause : Byte) (s : State) : (memEnter m new cause s).scratch = s.scratch := (memEnter_kept m new cause s).2.2.2.2.2.2.2.2.2.2.1
@[simp] theorem memEnter_hbu (m : Fin 128) (new : MState) (cause : Byte) (s : State) : (memEnter m new cause s).hbu = s.hbu := (memEnter_kept m new cause s).2.2.2.2.2.2.2.2.2.2.2.1
@[simp] theorem memEnter_ledger (m : Fin 128) (new : MState) (cause : Byte) (s : State) : (memEnter m new cause s).ledger = s.ledger := (memEnter_kept m new cause s).2.2.2.2.2.2.2.2.2.2.2.2.1
@[simp] theorem memEnter_dma (m : Fin 128) (new : MState) (cause : Byte) (s : State) : (memEnter m new cause s).dma = s.dma := (memEnter_kept m new cause s).2.2.2.2.2.2.2.2.2.2.2.2.2.1
@[simp] theorem memEnter_queues (m : Fin 128) (new : MState) (cause : Byte) (s : State) : (memEnter m new cause s).queues = s.queues := (memEnter_kept m new cause s).2.2.2.2.2.2.2.2.2.2.2.2.2.2.1
@[simp] theorem memEnter_arrs (m : Fin 128) (new : MState) (cause : Byte) (s : State) : (memEnter m new cause s).arrs = s.arrs := (memEnter_kept m new cause s).2.2.2.2.2.2.2.2.2.2.2.2.2.2.2.1
@[simp] theorem memEnter_vols (m : Fin 128) (new : MState) (cause : Byte) (s : State) : (memEnter m new cause s).vols = s.vols := (memEnter_kept m new cause s).2.2.2.2.2.2.2.2.2.2.2.2.2.2.2.2.1
@[simp] theorem memEnter_canvas (m : Fin 128) (new : MState) (cause : Byte) (s : State) : (memEnter m new cause s).canvas = s.canvas := (memEnter_kept m new cause s).2.2.2.2.2.2.2.2.2.2.2.2.2.2.2.2.2.1
@[simp] theorem memEnter_skb (m : Fin 128) (new : MState) (cause : Byte) (s : State) : (memEnter m new cause s).skb = s.skb := (memEnter_kept m new cause s).2.2.2.2.2.2.2.2.2.2.2.2.2.2.2.2.2.2.1
@[simp] theorem memEnter_studios (m : Fin 128) (new : MState) (cause : Byte) (s : State) : (memEnter m new cause s).studios = s.studios := (memEnter_kept m new cause s).2.2.2.2.2.2.2.2.2.2.2.2.2.2.2.2.2.2.2.1
@[simp] theorem memEnter_referee (m : Fin 128) (new : MState) (cause : Byte) (s : State) : (memEnter m new cause s).referee = s.referee := (memEnter_kept m new cause s).2.2.2.2.2.2.2.2.2.2.2.2.2.2.2.2.2.2.2.2.1
@[simp] theorem memEnter_roster (m : Fin 128) (new : MState) (cause : Byte) (s : State) : (memEnter m new cause s).roster = s.roster := (memEnter_kept m new cause s).2.2.2.2.2.2.2.2.2.2.2.2.2.2.2.2.2.2.2.2.2.1
@[simp] theorem memEnter_regions (m : Fin 128) (new : MState) (cause : Byte) (s : State) : (memEnter m new cause s).regions = s.regions := (memEnter_kept m new cause s).2.2.2.2.2.2.2.2.2.2.2.2.2.2.2.2.2.2.2.2.2.2.1
@[simp] theorem memEnter_palette (m : Fin 128) (new : MState) (cause : Byte) (s : State) : (memEnter m new cause s).palette = s.palette := (memEnter_kept m new cause s).2.2.2.2.2.2.2.2.2.2.2.2.2.2.2.2.2.2.2.2.2.2.2.1
@[simp] theorem memEnter_freeCtr (m : Fin 128) (new : MState) (cause : Byte) (s : State) : (memEnter m new cause s).freeCtr = s.freeCtr := (memEnter_kept m new cause s).2.2.2.2.2.2.2.2.2.2.2.2.2.2.2.2.2.2.2.2.2.2.2.2
theorem memState_kept (m : Fin 128) (new : MState) (cause : Byte) (s : State) :
    (memState m new cause s).pending = s.pending ∧ (memState m new cause s).power = s.power ∧ (memState m new cause
    s).standby = s.standby ∧ (memState m new cause s).clk = s.clk ∧ (memState m new cause s).restart = s.restart ∧
    (memState m new cause s).ident = s.ident ∧ (memState m new cause s).pathC = s.pathC ∧ (memState m new cause
    s).pathM = s.pathM ∧ (memState m new cause s).cport = s.cport ∧ (memState m new cause s).mgmt = s.mgmt ∧
    (memState m new cause s).scratch = s.scratch ∧ (memState m new cause s).hbu = s.hbu ∧ (memState m new cause
    s).dma = s.dma ∧ (memState m new cause s).queues = s.queues ∧ (memState m new cause s).arrs = s.arrs ∧ (memState
    m new cause s).vols = s.vols ∧ (memState m new cause s).canvas = s.canvas ∧ (memState m new cause s).skb = s.skb
    ∧ (memState m new cause s).studios = s.studios ∧ (memState m new cause s).referee = s.referee ∧ (memState m new
    cause s).roster = s.roster ∧ (memState m new cause s).regions = s.regions ∧ (memState m new cause s).palette =
    s.palette ∧ (memState m new cause s).freeCtr = s.freeCtr := by
  simp only [memState]; (repeat' split) <;> simp
@[simp] theorem memState_pending (m : Fin 128) (new : MState) (cause : Byte) (s : State) : (memState m new cause s).pending = s.pending := (memState_kept m new cause s).1
@[simp] theorem memState_power (m : Fin 128) (new : MState) (cause : Byte) (s : State) : (memState m new cause s).power = s.power := (memState_kept m new cause s).2.1
@[simp] theorem memState_standby (m : Fin 128) (new : MState) (cause : Byte) (s : State) : (memState m new cause s).standby = s.standby := (memState_kept m new cause s).2.2.1
@[simp] theorem memState_clk (m : Fin 128) (new : MState) (cause : Byte) (s : State) : (memState m new cause s).clk = s.clk := (memState_kept m new cause s).2.2.2.1
@[simp] theorem memState_restart (m : Fin 128) (new : MState) (cause : Byte) (s : State) : (memState m new cause s).restart = s.restart := (memState_kept m new cause s).2.2.2.2.1
@[simp] theorem memState_ident (m : Fin 128) (new : MState) (cause : Byte) (s : State) : (memState m new cause s).ident = s.ident := (memState_kept m new cause s).2.2.2.2.2.1
@[simp] theorem memState_pathC (m : Fin 128) (new : MState) (cause : Byte) (s : State) : (memState m new cause s).pathC = s.pathC := (memState_kept m new cause s).2.2.2.2.2.2.1
@[simp] theorem memState_pathM (m : Fin 128) (new : MState) (cause : Byte) (s : State) : (memState m new cause s).pathM = s.pathM := (memState_kept m new cause s).2.2.2.2.2.2.2.1
@[simp] theorem memState_cport (m : Fin 128) (new : MState) (cause : Byte) (s : State) : (memState m new cause s).cport = s.cport := (memState_kept m new cause s).2.2.2.2.2.2.2.2.1
@[simp] theorem memState_mgmt (m : Fin 128) (new : MState) (cause : Byte) (s : State) : (memState m new cause s).mgmt = s.mgmt := (memState_kept m new cause s).2.2.2.2.2.2.2.2.2.1
@[simp] theorem memState_scratch (m : Fin 128) (new : MState) (cause : Byte) (s : State) : (memState m new cause s).scratch = s.scratch := (memState_kept m new cause s).2.2.2.2.2.2.2.2.2.2.1
@[simp] theorem memState_hbu (m : Fin 128) (new : MState) (cause : Byte) (s : State) : (memState m new cause s).hbu = s.hbu := (memState_kept m new cause s).2.2.2.2.2.2.2.2.2.2.2.1
@[simp] theorem memState_dma (m : Fin 128) (new : MState) (cause : Byte) (s : State) : (memState m new cause s).dma = s.dma := (memState_kept m new cause s).2.2.2.2.2.2.2.2.2.2.2.2.1
@[simp] theorem memState_queues (m : Fin 128) (new : MState) (cause : Byte) (s : State) : (memState m new cause s).queues = s.queues := (memState_kept m new cause s).2.2.2.2.2.2.2.2.2.2.2.2.2.1
@[simp] theorem memState_arrs (m : Fin 128) (new : MState) (cause : Byte) (s : State) : (memState m new cause s).arrs = s.arrs := (memState_kept m new cause s).2.2.2.2.2.2.2.2.2.2.2.2.2.2.1
@[simp] theorem memState_vols (m : Fin 128) (new : MState) (cause : Byte) (s : State) : (memState m new cause s).vols = s.vols := (memState_kept m new cause s).2.2.2.2.2.2.2.2.2.2.2.2.2.2.2.1
@[simp] theorem memState_canvas (m : Fin 128) (new : MState) (cause : Byte) (s : State) : (memState m new cause s).canvas = s.canvas := (memState_kept m new cause s).2.2.2.2.2.2.2.2.2.2.2.2.2.2.2.2.1
@[simp] theorem memState_skb (m : Fin 128) (new : MState) (cause : Byte) (s : State) : (memState m new cause s).skb = s.skb := (memState_kept m new cause s).2.2.2.2.2.2.2.2.2.2.2.2.2.2.2.2.2.1
@[simp] theorem memState_studios (m : Fin 128) (new : MState) (cause : Byte) (s : State) : (memState m new cause s).studios = s.studios := (memState_kept m new cause s).2.2.2.2.2.2.2.2.2.2.2.2.2.2.2.2.2.2.1
@[simp] theorem memState_referee (m : Fin 128) (new : MState) (cause : Byte) (s : State) : (memState m new cause s).referee = s.referee := (memState_kept m new cause s).2.2.2.2.2.2.2.2.2.2.2.2.2.2.2.2.2.2.2.1
@[simp] theorem memState_roster (m : Fin 128) (new : MState) (cause : Byte) (s : State) : (memState m new cause s).roster = s.roster := (memState_kept m new cause s).2.2.2.2.2.2.2.2.2.2.2.2.2.2.2.2.2.2.2.2.1
@[simp] theorem memState_regions (m : Fin 128) (new : MState) (cause : Byte) (s : State) : (memState m new cause s).regions = s.regions := (memState_kept m new cause s).2.2.2.2.2.2.2.2.2.2.2.2.2.2.2.2.2.2.2.2.2.1
@[simp] theorem memState_palette (m : Fin 128) (new : MState) (cause : Byte) (s : State) : (memState m new cause s).palette = s.palette := (memState_kept m new cause s).2.2.2.2.2.2.2.2.2.2.2.2.2.2.2.2.2.2.2.2.2.2.1
@[simp] theorem memState_freeCtr (m : Fin 128) (new : MState) (cause : Byte) (s : State) : (memState m new cause s).freeCtr = s.freeCtr := (memState_kept m new cause s).2.2.2.2.2.2.2.2.2.2.2.2.2.2.2.2.2.2.2.2.2.2.2
theorem busRefresh_kept (s : State) :
    (busRefresh s).pending = s.pending ∧ (busRefresh s).power = s.power ∧ (busRefresh s).standby = s.standby ∧
    (busRefresh s).clk = s.clk ∧ (busRefresh s).restart = s.restart ∧ (busRefresh s).ident = s.ident ∧ (busRefresh
    s).nv = s.nv ∧ (busRefresh s).log = s.log ∧ (busRefresh s).pathC = s.pathC ∧ (busRefresh s).pathM = s.pathM ∧
    (busRefresh s).cport = s.cport ∧ (busRefresh s).mgmt = s.mgmt ∧ (busRefresh s).scratch = s.scratch ∧ (busRefresh
    s).ledger = s.ledger ∧ (busRefresh s).dma = s.dma ∧ (busRefresh s).queues = s.queues ∧ (busRefresh s).members =
    s.members ∧ (busRefresh s).arrs = s.arrs ∧ (busRefresh s).vols = s.vols ∧ (busRefresh s).canvas = s.canvas ∧
    (busRefresh s).skb = s.skb ∧ (busRefresh s).studios = s.studios ∧ (busRefresh s).referee = s.referee ∧
    (busRefresh s).roster = s.roster ∧ (busRefresh s).regions = s.regions ∧ (busRefresh s).ring = s.ring ∧
    (busRefresh s).palette = s.palette ∧ (busRefresh s).freeCtr = s.freeCtr := ⟨rfl, rfl, rfl, rfl, rfl, rfl, rfl, rfl, rfl, rfl, rfl, rfl, rfl, rfl, rfl, rfl, rfl, rfl, rfl, rfl, rfl, rfl, rfl, rfl, rfl, rfl, rfl, rfl⟩
@[simp] theorem busRefresh_pending (s : State) : (busRefresh s).pending = s.pending := (busRefresh_kept s).1
@[simp] theorem busRefresh_power (s : State) : (busRefresh s).power = s.power := (busRefresh_kept s).2.1
@[simp] theorem busRefresh_standby (s : State) : (busRefresh s).standby = s.standby := (busRefresh_kept s).2.2.1
@[simp] theorem busRefresh_clk (s : State) : (busRefresh s).clk = s.clk := (busRefresh_kept s).2.2.2.1
@[simp] theorem busRefresh_restart (s : State) : (busRefresh s).restart = s.restart := (busRefresh_kept s).2.2.2.2.1
@[simp] theorem busRefresh_ident (s : State) : (busRefresh s).ident = s.ident := (busRefresh_kept s).2.2.2.2.2.1
@[simp] theorem busRefresh_nv (s : State) : (busRefresh s).nv = s.nv := (busRefresh_kept s).2.2.2.2.2.2.1
@[simp] theorem busRefresh_log (s : State) : (busRefresh s).log = s.log := (busRefresh_kept s).2.2.2.2.2.2.2.1
@[simp] theorem busRefresh_pathC (s : State) : (busRefresh s).pathC = s.pathC := (busRefresh_kept s).2.2.2.2.2.2.2.2.1
@[simp] theorem busRefresh_pathM (s : State) : (busRefresh s).pathM = s.pathM := (busRefresh_kept s).2.2.2.2.2.2.2.2.2.1
@[simp] theorem busRefresh_cport (s : State) : (busRefresh s).cport = s.cport := (busRefresh_kept s).2.2.2.2.2.2.2.2.2.2.1
@[simp] theorem busRefresh_mgmt (s : State) : (busRefresh s).mgmt = s.mgmt := (busRefresh_kept s).2.2.2.2.2.2.2.2.2.2.2.1
@[simp] theorem busRefresh_scratch (s : State) : (busRefresh s).scratch = s.scratch := (busRefresh_kept s).2.2.2.2.2.2.2.2.2.2.2.2.1
@[simp] theorem busRefresh_ledger (s : State) : (busRefresh s).ledger = s.ledger := (busRefresh_kept s).2.2.2.2.2.2.2.2.2.2.2.2.2.1
@[simp] theorem busRefresh_dma (s : State) : (busRefresh s).dma = s.dma := (busRefresh_kept s).2.2.2.2.2.2.2.2.2.2.2.2.2.2.1
@[simp] theorem busRefresh_queues (s : State) : (busRefresh s).queues = s.queues := (busRefresh_kept s).2.2.2.2.2.2.2.2.2.2.2.2.2.2.2.1
@[simp] theorem busRefresh_members (s : State) : (busRefresh s).members = s.members := (busRefresh_kept s).2.2.2.2.2.2.2.2.2.2.2.2.2.2.2.2.1
@[simp] theorem busRefresh_arrs (s : State) : (busRefresh s).arrs = s.arrs := (busRefresh_kept s).2.2.2.2.2.2.2.2.2.2.2.2.2.2.2.2.2.1
@[simp] theorem busRefresh_vols (s : State) : (busRefresh s).vols = s.vols := (busRefresh_kept s).2.2.2.2.2.2.2.2.2.2.2.2.2.2.2.2.2.2.1
@[simp] theorem busRefresh_canvas (s : State) : (busRefresh s).canvas = s.canvas := (busRefresh_kept s).2.2.2.2.2.2.2.2.2.2.2.2.2.2.2.2.2.2.2.1
@[simp] theorem busRefresh_skb (s : State) : (busRefresh s).skb = s.skb := (busRefresh_kept s).2.2.2.2.2.2.2.2.2.2.2.2.2.2.2.2.2.2.2.2.1
@[simp] theorem busRefresh_studios (s : State) : (busRefresh s).studios = s.studios := (busRefresh_kept s).2.2.2.2.2.2.2.2.2.2.2.2.2.2.2.2.2.2.2.2.2.1
@[simp] theorem busRefresh_referee (s : State) : (busRefresh s).referee = s.referee := (busRefresh_kept s).2.2.2.2.2.2.2.2.2.2.2.2.2.2.2.2.2.2.2.2.2.2.1
@[simp] theorem busRefresh_roster (s : State) : (busRefresh s).roster = s.roster := (busRefresh_kept s).2.2.2.2.2.2.2.2.2.2.2.2.2.2.2.2.2.2.2.2.2.2.2.1
@[simp] theorem busRefresh_regions (s : State) : (busRefresh s).regions = s.regions := (busRefresh_kept s).2.2.2.2.2.2.2.2.2.2.2.2.2.2.2.2.2.2.2.2.2.2.2.2.1
@[simp] theorem busRefresh_ring (s : State) : (busRefresh s).ring = s.ring := (busRefresh_kept s).2.2.2.2.2.2.2.2.2.2.2.2.2.2.2.2.2.2.2.2.2.2.2.2.2.1
@[simp] theorem busRefresh_palette (s : State) : (busRefresh s).palette = s.palette := (busRefresh_kept s).2.2.2.2.2.2.2.2.2.2.2.2.2.2.2.2.2.2.2.2.2.2.2.2.2.2.1
@[simp] theorem busRefresh_freeCtr (s : State) : (busRefresh s).freeCtr = s.freeCtr := (busRefresh_kept s).2.2.2.2.2.2.2.2.2.2.2.2.2.2.2.2.2.2.2.2.2.2.2.2.2.2.2
theorem portPower_kept (p : Fin 8) (on : Bool) (s : State) :
    (portPower p on s).pending = s.pending ∧ (portPower p on s).power = s.power ∧ (portPower p on s).standby =
    s.standby ∧ (portPower p on s).clk = s.clk ∧ (portPower p on s).restart = s.restart ∧ (portPower p on s).ident =
    s.ident ∧ (portPower p on s).nv = s.nv ∧ (portPower p on s).log = s.log ∧ (portPower p on s).pathC = s.pathC ∧
    (portPower p on s).pathM = s.pathM ∧ (portPower p on s).cport = s.cport ∧ (portPower p on s).mgmt = s.mgmt ∧
    (portPower p on s).scratch = s.scratch ∧ (portPower p on s).hbu = s.hbu ∧ (portPower p on s).ledger = s.ledger ∧
    (portPower p on s).dma = s.dma ∧ (portPower p on s).queues = s.queues ∧ (portPower p on s).arrs = s.arrs ∧
    (portPower p on s).vols = s.vols ∧ (portPower p on s).canvas = s.canvas ∧ (portPower p on s).skb = s.skb ∧
    (portPower p on s).studios = s.studios ∧ (portPower p on s).referee = s.referee ∧ (portPower p on s).roster =
    s.roster ∧ (portPower p on s).regions = s.regions ∧ (portPower p on s).ring = s.ring ∧ (portPower p on
    s).palette = s.palette ∧ (portPower p on s).freeCtr = s.freeCtr := by
  have h (q : Fin 8) (t : State) : (memPut (ownMember q t) { memGet (ownMember q t) t with pad := 0, mode := 0 } t).pending = t.pending := rfl
  unfold portPower portOn; simp only; (repeat' split) <;> simp [portPut, memPut]
@[simp] theorem portPower_pending (p : Fin 8) (on : Bool) (s : State) : (portPower p on s).pending = s.pending := (portPower_kept p on s).1
@[simp] theorem portPower_power (p : Fin 8) (on : Bool) (s : State) : (portPower p on s).power = s.power := (portPower_kept p on s).2.1
@[simp] theorem portPower_standby (p : Fin 8) (on : Bool) (s : State) : (portPower p on s).standby = s.standby := (portPower_kept p on s).2.2.1
@[simp] theorem portPower_clk (p : Fin 8) (on : Bool) (s : State) : (portPower p on s).clk = s.clk := (portPower_kept p on s).2.2.2.1
@[simp] theorem portPower_restart (p : Fin 8) (on : Bool) (s : State) : (portPower p on s).restart = s.restart := (portPower_kept p on s).2.2.2.2.1
@[simp] theorem portPower_ident (p : Fin 8) (on : Bool) (s : State) : (portPower p on s).ident = s.ident := (portPower_kept p on s).2.2.2.2.2.1
@[simp] theorem portPower_nv (p : Fin 8) (on : Bool) (s : State) : (portPower p on s).nv = s.nv := (portPower_kept p on s).2.2.2.2.2.2.1
@[simp] theorem portPower_log (p : Fin 8) (on : Bool) (s : State) : (portPower p on s).log = s.log := (portPower_kept p on s).2.2.2.2.2.2.2.1
@[simp] theorem portPower_pathC (p : Fin 8) (on : Bool) (s : State) : (portPower p on s).pathC = s.pathC := (portPower_kept p on s).2.2.2.2.2.2.2.2.1
@[simp] theorem portPower_pathM (p : Fin 8) (on : Bool) (s : State) : (portPower p on s).pathM = s.pathM := (portPower_kept p on s).2.2.2.2.2.2.2.2.2.1
@[simp] theorem portPower_cport (p : Fin 8) (on : Bool) (s : State) : (portPower p on s).cport = s.cport := (portPower_kept p on s).2.2.2.2.2.2.2.2.2.2.1
@[simp] theorem portPower_mgmt (p : Fin 8) (on : Bool) (s : State) : (portPower p on s).mgmt = s.mgmt := (portPower_kept p on s).2.2.2.2.2.2.2.2.2.2.2.1
@[simp] theorem portPower_scratch (p : Fin 8) (on : Bool) (s : State) : (portPower p on s).scratch = s.scratch := (portPower_kept p on s).2.2.2.2.2.2.2.2.2.2.2.2.1
@[simp] theorem portPower_hbu (p : Fin 8) (on : Bool) (s : State) : (portPower p on s).hbu = s.hbu := (portPower_kept p on s).2.2.2.2.2.2.2.2.2.2.2.2.2.1
@[simp] theorem portPower_ledger (p : Fin 8) (on : Bool) (s : State) : (portPower p on s).ledger = s.ledger := (portPower_kept p on s).2.2.2.2.2.2.2.2.2.2.2.2.2.2.1
@[simp] theorem portPower_dma (p : Fin 8) (on : Bool) (s : State) : (portPower p on s).dma = s.dma := (portPower_kept p on s).2.2.2.2.2.2.2.2.2.2.2.2.2.2.2.1
@[simp] theorem portPower_queues (p : Fin 8) (on : Bool) (s : State) : (portPower p on s).queues = s.queues := (portPower_kept p on s).2.2.2.2.2.2.2.2.2.2.2.2.2.2.2.2.1
@[simp] theorem portPower_arrs (p : Fin 8) (on : Bool) (s : State) : (portPower p on s).arrs = s.arrs := (portPower_kept p on s).2.2.2.2.2.2.2.2.2.2.2.2.2.2.2.2.2.1
@[simp] theorem portPower_vols (p : Fin 8) (on : Bool) (s : State) : (portPower p on s).vols = s.vols := (portPower_kept p on s).2.2.2.2.2.2.2.2.2.2.2.2.2.2.2.2.2.2.1
@[simp] theorem portPower_canvas (p : Fin 8) (on : Bool) (s : State) : (portPower p on s).canvas = s.canvas := (portPower_kept p on s).2.2.2.2.2.2.2.2.2.2.2.2.2.2.2.2.2.2.2.1
@[simp] theorem portPower_skb (p : Fin 8) (on : Bool) (s : State) : (portPower p on s).skb = s.skb := (portPower_kept p on s).2.2.2.2.2.2.2.2.2.2.2.2.2.2.2.2.2.2.2.2.1
@[simp] theorem portPower_studios (p : Fin 8) (on : Bool) (s : State) : (portPower p on s).studios = s.studios := (portPower_kept p on s).2.2.2.2.2.2.2.2.2.2.2.2.2.2.2.2.2.2.2.2.2.1
@[simp] theorem portPower_referee (p : Fin 8) (on : Bool) (s : State) : (portPower p on s).referee = s.referee := (portPower_kept p on s).2.2.2.2.2.2.2.2.2.2.2.2.2.2.2.2.2.2.2.2.2.2.1
@[simp] theorem portPower_roster (p : Fin 8) (on : Bool) (s : State) : (portPower p on s).roster = s.roster := (portPower_kept p on s).2.2.2.2.2.2.2.2.2.2.2.2.2.2.2.2.2.2.2.2.2.2.2.1
@[simp] theorem portPower_regions (p : Fin 8) (on : Bool) (s : State) : (portPower p on s).regions = s.regions := (portPower_kept p on s).2.2.2.2.2.2.2.2.2.2.2.2.2.2.2.2.2.2.2.2.2.2.2.2.1
@[simp] theorem portPower_ring (p : Fin 8) (on : Bool) (s : State) : (portPower p on s).ring = s.ring := (portPower_kept p on s).2.2.2.2.2.2.2.2.2.2.2.2.2.2.2.2.2.2.2.2.2.2.2.2.2.1
@[simp] theorem portPower_palette (p : Fin 8) (on : Bool) (s : State) : (portPower p on s).palette = s.palette := (portPower_kept p on s).2.2.2.2.2.2.2.2.2.2.2.2.2.2.2.2.2.2.2.2.2.2.2.2.2.2.1
@[simp] theorem portPower_freeCtr (p : Fin 8) (on : Bool) (s : State) : (portPower p on s).freeCtr = s.freeCtr := (portPower_kept p on s).2.2.2.2.2.2.2.2.2.2.2.2.2.2.2.2.2.2.2.2.2.2.2.2.2.2.2
theorem creditsFree_kept (fb : Bool) (s : State) :
    (creditsFree fb s).pending = s.pending ∧ (creditsFree fb s).power = s.power ∧ (creditsFree fb s).standby =
    s.standby ∧ (creditsFree fb s).clk = s.clk ∧ (creditsFree fb s).restart = s.restart ∧ (creditsFree fb s).ident =
    s.ident ∧ (creditsFree fb s).nv = s.nv ∧ (creditsFree fb s).log = s.log ∧ (creditsFree fb s).pathC = s.pathC ∧
    (creditsFree fb s).pathM = s.pathM ∧ (creditsFree fb s).cport = s.cport ∧ (creditsFree fb s).mgmt = s.mgmt ∧
    (creditsFree fb s).scratch = s.scratch ∧ (creditsFree fb s).hbu = s.hbu ∧ (creditsFree fb s).dma = s.dma ∧
    (creditsFree fb s).queues = s.queues ∧ (creditsFree fb s).members = s.members ∧ (creditsFree fb s).arrs = s.arrs
    ∧ (creditsFree fb s).vols = s.vols ∧ (creditsFree fb s).canvas = s.canvas ∧ (creditsFree fb s).skb = s.skb ∧
    (creditsFree fb s).studios = s.studios ∧ (creditsFree fb s).referee = s.referee ∧ (creditsFree fb s).roster =
    s.roster ∧ (creditsFree fb s).regions = s.regions ∧ (creditsFree fb s).ring = s.ring ∧ (creditsFree fb
    s).palette = s.palette ∧ (creditsFree fb s).freeCtr = s.freeCtr := ⟨rfl, rfl, rfl, rfl, rfl, rfl, rfl, rfl, rfl, rfl, rfl, rfl, rfl, rfl, rfl, rfl, rfl, rfl, rfl, rfl, rfl, rfl, rfl, rfl, rfl, rfl, rfl, rfl⟩
@[simp] theorem creditsFree_pending (fb : Bool) (s : State) : (creditsFree fb s).pending = s.pending := (creditsFree_kept fb s).1
@[simp] theorem creditsFree_power (fb : Bool) (s : State) : (creditsFree fb s).power = s.power := (creditsFree_kept fb s).2.1
@[simp] theorem creditsFree_standby (fb : Bool) (s : State) : (creditsFree fb s).standby = s.standby := (creditsFree_kept fb s).2.2.1
@[simp] theorem creditsFree_clk (fb : Bool) (s : State) : (creditsFree fb s).clk = s.clk := (creditsFree_kept fb s).2.2.2.1
@[simp] theorem creditsFree_restart (fb : Bool) (s : State) : (creditsFree fb s).restart = s.restart := (creditsFree_kept fb s).2.2.2.2.1
@[simp] theorem creditsFree_ident (fb : Bool) (s : State) : (creditsFree fb s).ident = s.ident := (creditsFree_kept fb s).2.2.2.2.2.1
@[simp] theorem creditsFree_nv (fb : Bool) (s : State) : (creditsFree fb s).nv = s.nv := (creditsFree_kept fb s).2.2.2.2.2.2.1
@[simp] theorem creditsFree_log (fb : Bool) (s : State) : (creditsFree fb s).log = s.log := (creditsFree_kept fb s).2.2.2.2.2.2.2.1
@[simp] theorem creditsFree_pathC (fb : Bool) (s : State) : (creditsFree fb s).pathC = s.pathC := (creditsFree_kept fb s).2.2.2.2.2.2.2.2.1
@[simp] theorem creditsFree_pathM (fb : Bool) (s : State) : (creditsFree fb s).pathM = s.pathM := (creditsFree_kept fb s).2.2.2.2.2.2.2.2.2.1
@[simp] theorem creditsFree_cport (fb : Bool) (s : State) : (creditsFree fb s).cport = s.cport := (creditsFree_kept fb s).2.2.2.2.2.2.2.2.2.2.1
@[simp] theorem creditsFree_mgmt (fb : Bool) (s : State) : (creditsFree fb s).mgmt = s.mgmt := (creditsFree_kept fb s).2.2.2.2.2.2.2.2.2.2.2.1
@[simp] theorem creditsFree_scratch (fb : Bool) (s : State) : (creditsFree fb s).scratch = s.scratch := (creditsFree_kept fb s).2.2.2.2.2.2.2.2.2.2.2.2.1
@[simp] theorem creditsFree_hbu (fb : Bool) (s : State) : (creditsFree fb s).hbu = s.hbu := (creditsFree_kept fb s).2.2.2.2.2.2.2.2.2.2.2.2.2.1
@[simp] theorem creditsFree_dma (fb : Bool) (s : State) : (creditsFree fb s).dma = s.dma := (creditsFree_kept fb s).2.2.2.2.2.2.2.2.2.2.2.2.2.2.1
@[simp] theorem creditsFree_queues (fb : Bool) (s : State) : (creditsFree fb s).queues = s.queues := (creditsFree_kept fb s).2.2.2.2.2.2.2.2.2.2.2.2.2.2.2.1
@[simp] theorem creditsFree_members (fb : Bool) (s : State) : (creditsFree fb s).members = s.members := (creditsFree_kept fb s).2.2.2.2.2.2.2.2.2.2.2.2.2.2.2.2.1
@[simp] theorem creditsFree_arrs (fb : Bool) (s : State) : (creditsFree fb s).arrs = s.arrs := (creditsFree_kept fb s).2.2.2.2.2.2.2.2.2.2.2.2.2.2.2.2.2.1
@[simp] theorem creditsFree_vols (fb : Bool) (s : State) : (creditsFree fb s).vols = s.vols := (creditsFree_kept fb s).2.2.2.2.2.2.2.2.2.2.2.2.2.2.2.2.2.2.1
@[simp] theorem creditsFree_canvas (fb : Bool) (s : State) : (creditsFree fb s).canvas = s.canvas := (creditsFree_kept fb s).2.2.2.2.2.2.2.2.2.2.2.2.2.2.2.2.2.2.2.1
@[simp] theorem creditsFree_skb (fb : Bool) (s : State) : (creditsFree fb s).skb = s.skb := (creditsFree_kept fb s).2.2.2.2.2.2.2.2.2.2.2.2.2.2.2.2.2.2.2.2.1
@[simp] theorem creditsFree_studios (fb : Bool) (s : State) : (creditsFree fb s).studios = s.studios := (creditsFree_kept fb s).2.2.2.2.2.2.2.2.2.2.2.2.2.2.2.2.2.2.2.2.2.1
@[simp] theorem creditsFree_referee (fb : Bool) (s : State) : (creditsFree fb s).referee = s.referee := (creditsFree_kept fb s).2.2.2.2.2.2.2.2.2.2.2.2.2.2.2.2.2.2.2.2.2.2.1
@[simp] theorem creditsFree_roster (fb : Bool) (s : State) : (creditsFree fb s).roster = s.roster := (creditsFree_kept fb s).2.2.2.2.2.2.2.2.2.2.2.2.2.2.2.2.2.2.2.2.2.2.2.1
@[simp] theorem creditsFree_regions (fb : Bool) (s : State) : (creditsFree fb s).regions = s.regions := (creditsFree_kept fb s).2.2.2.2.2.2.2.2.2.2.2.2.2.2.2.2.2.2.2.2.2.2.2.2.1
@[simp] theorem creditsFree_ring (fb : Bool) (s : State) : (creditsFree fb s).ring = s.ring := (creditsFree_kept fb s).2.2.2.2.2.2.2.2.2.2.2.2.2.2.2.2.2.2.2.2.2.2.2.2.2.1
@[simp] theorem creditsFree_palette (fb : Bool) (s : State) : (creditsFree fb s).palette = s.palette := (creditsFree_kept fb s).2.2.2.2.2.2.2.2.2.2.2.2.2.2.2.2.2.2.2.2.2.2.2.2.2.2.1
@[simp] theorem creditsFree_freeCtr (fb : Bool) (s : State) : (creditsFree fb s).freeCtr = s.freeCtr := (creditsFree_kept fb s).2.2.2.2.2.2.2.2.2.2.2.2.2.2.2.2.2.2.2.2.2.2.2.2.2.2.2
theorem dropFrom_kept (fb : Bool) (s : State) :
    (dropFrom fb s).pending = s.pending ∧ (dropFrom fb s).power = s.power ∧ (dropFrom fb s).standby = s.standby ∧
    (dropFrom fb s).clk = s.clk ∧ (dropFrom fb s).restart = s.restart ∧ (dropFrom fb s).ident = s.ident ∧ (dropFrom
    fb s).nv = s.nv ∧ (dropFrom fb s).log = s.log ∧ (dropFrom fb s).pathC = s.pathC ∧ (dropFrom fb s).pathM =
    s.pathM ∧ (dropFrom fb s).cport = s.cport ∧ (dropFrom fb s).mgmt = s.mgmt ∧ (dropFrom fb s).scratch = s.scratch
    ∧ (dropFrom fb s).hbu = s.hbu ∧ (dropFrom fb s).ledger = s.ledger ∧ (dropFrom fb s).dma = s.dma ∧ (dropFrom fb
    s).queues = s.queues ∧ (dropFrom fb s).members = s.members ∧ (dropFrom fb s).arrs = s.arrs ∧ (dropFrom fb
    s).vols = s.vols ∧ (dropFrom fb s).canvas = s.canvas ∧ (dropFrom fb s).skb = s.skb ∧ (dropFrom fb s).studios =
    s.studios ∧ (dropFrom fb s).referee = s.referee ∧ (dropFrom fb s).roster = s.roster ∧ (dropFrom fb s).regions =
    s.regions ∧ (dropFrom fb s).palette = s.palette ∧ (dropFrom fb s).freeCtr = s.freeCtr := by simp [dropFrom]
@[simp] theorem dropFrom_pending (fb : Bool) (s : State) : (dropFrom fb s).pending = s.pending := (dropFrom_kept fb s).1
@[simp] theorem dropFrom_power (fb : Bool) (s : State) : (dropFrom fb s).power = s.power := (dropFrom_kept fb s).2.1
@[simp] theorem dropFrom_standby (fb : Bool) (s : State) : (dropFrom fb s).standby = s.standby := (dropFrom_kept fb s).2.2.1
@[simp] theorem dropFrom_clk (fb : Bool) (s : State) : (dropFrom fb s).clk = s.clk := (dropFrom_kept fb s).2.2.2.1
@[simp] theorem dropFrom_restart (fb : Bool) (s : State) : (dropFrom fb s).restart = s.restart := (dropFrom_kept fb s).2.2.2.2.1
@[simp] theorem dropFrom_ident (fb : Bool) (s : State) : (dropFrom fb s).ident = s.ident := (dropFrom_kept fb s).2.2.2.2.2.1
@[simp] theorem dropFrom_nv (fb : Bool) (s : State) : (dropFrom fb s).nv = s.nv := (dropFrom_kept fb s).2.2.2.2.2.2.1
@[simp] theorem dropFrom_log (fb : Bool) (s : State) : (dropFrom fb s).log = s.log := (dropFrom_kept fb s).2.2.2.2.2.2.2.1
@[simp] theorem dropFrom_pathC (fb : Bool) (s : State) : (dropFrom fb s).pathC = s.pathC := (dropFrom_kept fb s).2.2.2.2.2.2.2.2.1
@[simp] theorem dropFrom_pathM (fb : Bool) (s : State) : (dropFrom fb s).pathM = s.pathM := (dropFrom_kept fb s).2.2.2.2.2.2.2.2.2.1
@[simp] theorem dropFrom_cport (fb : Bool) (s : State) : (dropFrom fb s).cport = s.cport := (dropFrom_kept fb s).2.2.2.2.2.2.2.2.2.2.1
@[simp] theorem dropFrom_mgmt (fb : Bool) (s : State) : (dropFrom fb s).mgmt = s.mgmt := (dropFrom_kept fb s).2.2.2.2.2.2.2.2.2.2.2.1
@[simp] theorem dropFrom_scratch (fb : Bool) (s : State) : (dropFrom fb s).scratch = s.scratch := (dropFrom_kept fb s).2.2.2.2.2.2.2.2.2.2.2.2.1
@[simp] theorem dropFrom_hbu (fb : Bool) (s : State) : (dropFrom fb s).hbu = s.hbu := (dropFrom_kept fb s).2.2.2.2.2.2.2.2.2.2.2.2.2.1
@[simp] theorem dropFrom_ledger (fb : Bool) (s : State) : (dropFrom fb s).ledger = s.ledger := (dropFrom_kept fb s).2.2.2.2.2.2.2.2.2.2.2.2.2.2.1
@[simp] theorem dropFrom_dma (fb : Bool) (s : State) : (dropFrom fb s).dma = s.dma := (dropFrom_kept fb s).2.2.2.2.2.2.2.2.2.2.2.2.2.2.2.1
@[simp] theorem dropFrom_queues (fb : Bool) (s : State) : (dropFrom fb s).queues = s.queues := (dropFrom_kept fb s).2.2.2.2.2.2.2.2.2.2.2.2.2.2.2.2.1
@[simp] theorem dropFrom_members (fb : Bool) (s : State) : (dropFrom fb s).members = s.members := (dropFrom_kept fb s).2.2.2.2.2.2.2.2.2.2.2.2.2.2.2.2.2.1
@[simp] theorem dropFrom_arrs (fb : Bool) (s : State) : (dropFrom fb s).arrs = s.arrs := (dropFrom_kept fb s).2.2.2.2.2.2.2.2.2.2.2.2.2.2.2.2.2.2.1
@[simp] theorem dropFrom_vols (fb : Bool) (s : State) : (dropFrom fb s).vols = s.vols := (dropFrom_kept fb s).2.2.2.2.2.2.2.2.2.2.2.2.2.2.2.2.2.2.2.1
@[simp] theorem dropFrom_canvas (fb : Bool) (s : State) : (dropFrom fb s).canvas = s.canvas := (dropFrom_kept fb s).2.2.2.2.2.2.2.2.2.2.2.2.2.2.2.2.2.2.2.2.1
@[simp] theorem dropFrom_skb (fb : Bool) (s : State) : (dropFrom fb s).skb = s.skb := (dropFrom_kept fb s).2.2.2.2.2.2.2.2.2.2.2.2.2.2.2.2.2.2.2.2.2.1
@[simp] theorem dropFrom_studios (fb : Bool) (s : State) : (dropFrom fb s).studios = s.studios := (dropFrom_kept fb s).2.2.2.2.2.2.2.2.2.2.2.2.2.2.2.2.2.2.2.2.2.2.1
@[simp] theorem dropFrom_referee (fb : Bool) (s : State) : (dropFrom fb s).referee = s.referee := (dropFrom_kept fb s).2.2.2.2.2.2.2.2.2.2.2.2.2.2.2.2.2.2.2.2.2.2.2.1
@[simp] theorem dropFrom_roster (fb : Bool) (s : State) : (dropFrom fb s).roster = s.roster := (dropFrom_kept fb s).2.2.2.2.2.2.2.2.2.2.2.2.2.2.2.2.2.2.2.2.2.2.2.2.1
@[simp] theorem dropFrom_regions (fb : Bool) (s : State) : (dropFrom fb s).regions = s.regions := (dropFrom_kept fb s).2.2.2.2.2.2.2.2.2.2.2.2.2.2.2.2.2.2.2.2.2.2.2.2.2.1
@[simp] theorem dropFrom_palette (fb : Bool) (s : State) : (dropFrom fb s).palette = s.palette := (dropFrom_kept fb s).2.2.2.2.2.2.2.2.2.2.2.2.2.2.2.2.2.2.2.2.2.2.2.2.2.2.1
@[simp] theorem dropFrom_freeCtr (fb : Bool) (s : State) : (dropFrom fb s).freeCtr = s.freeCtr := (dropFrom_kept fb s).2.2.2.2.2.2.2.2.2.2.2.2.2.2.2.2.2.2.2.2.2.2.2.2.2.2.2
theorem discarded_kept (p : Pkt) (s : State) :
    (discarded p s).pending = s.pending ∧ (discarded p s).power = s.power ∧ (discarded p s).standby = s.standby ∧
    (discarded p s).clk = s.clk ∧ (discarded p s).restart = s.restart ∧ (discarded p s).ident = s.ident ∧ (discarded
    p s).nv = s.nv ∧ (discarded p s).pathC = s.pathC ∧ (discarded p s).pathM = s.pathM ∧ (discarded p s).cport =
    s.cport ∧ (discarded p s).mgmt = s.mgmt ∧ (discarded p s).scratch = s.scratch ∧ (discarded p s).hbu = s.hbu ∧
    (discarded p s).ledger = s.ledger ∧ (discarded p s).dma = s.dma ∧ (discarded p s).queues = s.queues ∧ (discarded
    p s).members = s.members ∧ (discarded p s).arrs = s.arrs ∧ (discarded p s).vols = s.vols ∧ (discarded p
    s).canvas = s.canvas ∧ (discarded p s).skb = s.skb ∧ (discarded p s).studios = s.studios ∧ (discarded p
    s).referee = s.referee ∧ (discarded p s).roster = s.roster ∧ (discarded p s).regions = s.regions ∧ (discarded p
    s).ring = s.ring ∧ (discarded p s).palette = s.palette ∧ (discarded p s).freeCtr = s.freeCtr := by
  simp only [discarded]; split <;> simp
@[simp] theorem discarded_pending (p : Pkt) (s : State) : (discarded p s).pending = s.pending := (discarded_kept p s).1
@[simp] theorem discarded_power (p : Pkt) (s : State) : (discarded p s).power = s.power := (discarded_kept p s).2.1
@[simp] theorem discarded_standby (p : Pkt) (s : State) : (discarded p s).standby = s.standby := (discarded_kept p s).2.2.1
@[simp] theorem discarded_clk (p : Pkt) (s : State) : (discarded p s).clk = s.clk := (discarded_kept p s).2.2.2.1
@[simp] theorem discarded_restart (p : Pkt) (s : State) : (discarded p s).restart = s.restart := (discarded_kept p s).2.2.2.2.1
@[simp] theorem discarded_ident (p : Pkt) (s : State) : (discarded p s).ident = s.ident := (discarded_kept p s).2.2.2.2.2.1
@[simp] theorem discarded_nv (p : Pkt) (s : State) : (discarded p s).nv = s.nv := (discarded_kept p s).2.2.2.2.2.2.1
@[simp] theorem discarded_pathC (p : Pkt) (s : State) : (discarded p s).pathC = s.pathC := (discarded_kept p s).2.2.2.2.2.2.2.1
@[simp] theorem discarded_pathM (p : Pkt) (s : State) : (discarded p s).pathM = s.pathM := (discarded_kept p s).2.2.2.2.2.2.2.2.1
@[simp] theorem discarded_cport (p : Pkt) (s : State) : (discarded p s).cport = s.cport := (discarded_kept p s).2.2.2.2.2.2.2.2.2.1
@[simp] theorem discarded_mgmt (p : Pkt) (s : State) : (discarded p s).mgmt = s.mgmt := (discarded_kept p s).2.2.2.2.2.2.2.2.2.2.1
@[simp] theorem discarded_scratch (p : Pkt) (s : State) : (discarded p s).scratch = s.scratch := (discarded_kept p s).2.2.2.2.2.2.2.2.2.2.2.1
@[simp] theorem discarded_hbu (p : Pkt) (s : State) : (discarded p s).hbu = s.hbu := (discarded_kept p s).2.2.2.2.2.2.2.2.2.2.2.2.1
@[simp] theorem discarded_ledger (p : Pkt) (s : State) : (discarded p s).ledger = s.ledger := (discarded_kept p s).2.2.2.2.2.2.2.2.2.2.2.2.2.1
@[simp] theorem discarded_dma (p : Pkt) (s : State) : (discarded p s).dma = s.dma := (discarded_kept p s).2.2.2.2.2.2.2.2.2.2.2.2.2.2.1
@[simp] theorem discarded_queues (p : Pkt) (s : State) : (discarded p s).queues = s.queues := (discarded_kept p s).2.2.2.2.2.2.2.2.2.2.2.2.2.2.2.1
@[simp] theorem discarded_members (p : Pkt) (s : State) : (discarded p s).members = s.members := (discarded_kept p s).2.2.2.2.2.2.2.2.2.2.2.2.2.2.2.2.1
@[simp] theorem discarded_arrs (p : Pkt) (s : State) : (discarded p s).arrs = s.arrs := (discarded_kept p s).2.2.2.2.2.2.2.2.2.2.2.2.2.2.2.2.2.1
@[simp] theorem discarded_vols (p : Pkt) (s : State) : (discarded p s).vols = s.vols := (discarded_kept p s).2.2.2.2.2.2.2.2.2.2.2.2.2.2.2.2.2.2.1
@[simp] theorem discarded_canvas (p : Pkt) (s : State) : (discarded p s).canvas = s.canvas := (discarded_kept p s).2.2.2.2.2.2.2.2.2.2.2.2.2.2.2.2.2.2.2.1
@[simp] theorem discarded_skb (p : Pkt) (s : State) : (discarded p s).skb = s.skb := (discarded_kept p s).2.2.2.2.2.2.2.2.2.2.2.2.2.2.2.2.2.2.2.2.1
@[simp] theorem discarded_studios (p : Pkt) (s : State) : (discarded p s).studios = s.studios := (discarded_kept p s).2.2.2.2.2.2.2.2.2.2.2.2.2.2.2.2.2.2.2.2.2.1
@[simp] theorem discarded_referee (p : Pkt) (s : State) : (discarded p s).referee = s.referee := (discarded_kept p s).2.2.2.2.2.2.2.2.2.2.2.2.2.2.2.2.2.2.2.2.2.2.1
@[simp] theorem discarded_roster (p : Pkt) (s : State) : (discarded p s).roster = s.roster := (discarded_kept p s).2.2.2.2.2.2.2.2.2.2.2.2.2.2.2.2.2.2.2.2.2.2.2.1
@[simp] theorem discarded_regions (p : Pkt) (s : State) : (discarded p s).regions = s.regions := (discarded_kept p s).2.2.2.2.2.2.2.2.2.2.2.2.2.2.2.2.2.2.2.2.2.2.2.2.1
@[simp] theorem discarded_ring (p : Pkt) (s : State) : (discarded p s).ring = s.ring := (discarded_kept p s).2.2.2.2.2.2.2.2.2.2.2.2.2.2.2.2.2.2.2.2.2.2.2.2.2.1
@[simp] theorem discarded_palette (p : Pkt) (s : State) : (discarded p s).palette = s.palette := (discarded_kept p s).2.2.2.2.2.2.2.2.2.2.2.2.2.2.2.2.2.2.2.2.2.2.2.2.2.2.1
@[simp] theorem discarded_freeCtr (p : Pkt) (s : State) : (discarded p s).freeCtr = s.freeCtr := (discarded_kept p s).2.2.2.2.2.2.2.2.2.2.2.2.2.2.2.2.2.2.2.2.2.2.2.2.2.2.2
theorem linkDown_kept (fb : Bool) (l : Link) (s : State) :
    (linkDown fb l s).pending = s.pending ∧ (linkDown fb l s).power = s.power ∧ (linkDown fb l s).standby =
    s.standby ∧ (linkDown fb l s).clk = s.clk ∧ (linkDown fb l s).restart = s.restart ∧ (linkDown fb l s).ident =
    s.ident ∧ (linkDown fb l s).nv = s.nv ∧ (linkDown fb l s).pathC = s.pathC ∧ (linkDown fb l s).pathM = s.pathM ∧
    (linkDown fb l s).cport = s.cport ∧ (linkDown fb l s).mgmt = s.mgmt ∧ (linkDown fb l s).scratch = s.scratch ∧
    (linkDown fb l s).hbu = s.hbu ∧ (linkDown fb l s).dma = s.dma ∧ (linkDown fb l s).queues = s.queues ∧ (linkDown
    fb l s).members = s.members ∧ (linkDown fb l s).arrs = s.arrs ∧ (linkDown fb l s).vols = s.vols ∧ (linkDown fb l
    s).canvas = s.canvas ∧ (linkDown fb l s).skb = s.skb ∧ (linkDown fb l s).studios = s.studios ∧ (linkDown fb l
    s).referee = s.referee ∧ (linkDown fb l s).roster = s.roster ∧ (linkDown fb l s).regions = s.regions ∧ (linkDown
    fb l s).palette = s.palette ∧ (linkDown fb l s).freeCtr = s.freeCtr := by
  simp only [linkDown]
  refine ⟨(irqSet_pending ..).trans ((foldl_pending _ (by intro s a; split <;> simp) _ _).trans (by simp)), (irqSet_power ..).trans ((foldl_power _ (by intro s a; split <;> simp) _ _).trans (by simp)), (irqSet_standby ..).trans ((foldl_standby _ (by intro s a; split <;> simp) _ _).trans (by simp)), (irqSet_clk ..).trans ((foldl_clk _ (by intro s a; split <;> simp) _ _).trans (by simp)), (irqSet_restart ..).trans ((foldl_restart _ (by intro s a; split <;> simp) _ _).trans (by simp)), (irqSet_ident ..).trans ((foldl_ident _ (by intro s a; split <;> simp) _ _).trans (by simp)), (irqSet_nv ..).trans ((foldl_nv _ (by intro s a; split <;> simp) _ _).trans (by simp)), (irqSet_pathC ..).trans ((foldl_pathC _ (by intro s a; split <;> simp) _ _).trans (by simp)), (irqSet_pathM ..).trans ((foldl_pathM _ (by intro s a; split <;> simp) _ _).trans (by simp)), (irqSet_cport ..).trans ((foldl_cport _ (by intro s a; split <;> simp) _ _).trans (by simp)), (irqSet_mgmt ..).trans ((foldl_mgmt _ (by intro s a; split <;> simp) _ _).trans (by simp)), (irqSet_scratch ..).trans ((foldl_scratch _ (by intro s a; split <;> simp) _ _).trans (by simp)), (irqSet_hbu ..).trans ((foldl_hbu _ (by intro s a; split <;> simp) _ _).trans (by simp)), (irqSet_dma ..).trans ((foldl_dma _ (by intro s a; split <;> simp) _ _).trans (by simp)), (irqSet_queues ..).trans ((foldl_queues _ (by intro s a; split <;> simp) _ _).trans (by simp)), (irqSet_members ..).trans ((foldl_members _ (by intro s a; split <;> simp) _ _).trans (by simp)), (irqSet_arrs ..).trans ((foldl_arrs _ (by intro s a; split <;> simp) _ _).trans (by simp)), (irqSet_vols ..).trans ((foldl_vols _ (by intro s a; split <;> simp) _ _).trans (by simp)), (irqSet_canvas ..).trans ((foldl_canvas _ (by intro s a; split <;> simp) _ _).trans (by simp)), (irqSet_skb ..).trans ((foldl_skb _ (by intro s a; split <;> simp) _ _).trans (by simp)), (irqSet_studios ..).trans ((foldl_studios _ (by intro s a; split <;> simp) _ _).trans (by simp)), (irqSet_referee ..).trans ((foldl_referee _ (by intro s a; split <;> simp) _ _).trans (by simp)), (irqSet_roster ..).trans ((foldl_roster _ (by intro s a; split <;> simp) _ _).trans (by simp)), (irqSet_regions ..).trans ((foldl_regions _ (by intro s a; split <;> simp) _ _).trans (by simp)), (irqSet_palette ..).trans ((foldl_palette _ (by intro s a; split <;> simp) _ _).trans (by simp)), (irqSet_freeCtr ..).trans ((foldl_freeCtr _ (by intro s a; split <;> simp) _ _).trans (by simp))⟩
@[simp] theorem linkDown_pending (fb : Bool) (l : Link) (s : State) : (linkDown fb l s).pending = s.pending := (linkDown_kept fb l s).1
@[simp] theorem linkDown_power (fb : Bool) (l : Link) (s : State) : (linkDown fb l s).power = s.power := (linkDown_kept fb l s).2.1
@[simp] theorem linkDown_standby (fb : Bool) (l : Link) (s : State) : (linkDown fb l s).standby = s.standby := (linkDown_kept fb l s).2.2.1
@[simp] theorem linkDown_clk (fb : Bool) (l : Link) (s : State) : (linkDown fb l s).clk = s.clk := (linkDown_kept fb l s).2.2.2.1
@[simp] theorem linkDown_restart (fb : Bool) (l : Link) (s : State) : (linkDown fb l s).restart = s.restart := (linkDown_kept fb l s).2.2.2.2.1
@[simp] theorem linkDown_ident (fb : Bool) (l : Link) (s : State) : (linkDown fb l s).ident = s.ident := (linkDown_kept fb l s).2.2.2.2.2.1
@[simp] theorem linkDown_nv (fb : Bool) (l : Link) (s : State) : (linkDown fb l s).nv = s.nv := (linkDown_kept fb l s).2.2.2.2.2.2.1
@[simp] theorem linkDown_pathC (fb : Bool) (l : Link) (s : State) : (linkDown fb l s).pathC = s.pathC := (linkDown_kept fb l s).2.2.2.2.2.2.2.1
@[simp] theorem linkDown_pathM (fb : Bool) (l : Link) (s : State) : (linkDown fb l s).pathM = s.pathM := (linkDown_kept fb l s).2.2.2.2.2.2.2.2.1
@[simp] theorem linkDown_cport (fb : Bool) (l : Link) (s : State) : (linkDown fb l s).cport = s.cport := (linkDown_kept fb l s).2.2.2.2.2.2.2.2.2.1
@[simp] theorem linkDown_mgmt (fb : Bool) (l : Link) (s : State) : (linkDown fb l s).mgmt = s.mgmt := (linkDown_kept fb l s).2.2.2.2.2.2.2.2.2.2.1
@[simp] theorem linkDown_scratch (fb : Bool) (l : Link) (s : State) : (linkDown fb l s).scratch = s.scratch := (linkDown_kept fb l s).2.2.2.2.2.2.2.2.2.2.2.1
@[simp] theorem linkDown_hbu (fb : Bool) (l : Link) (s : State) : (linkDown fb l s).hbu = s.hbu := (linkDown_kept fb l s).2.2.2.2.2.2.2.2.2.2.2.2.1
@[simp] theorem linkDown_dma (fb : Bool) (l : Link) (s : State) : (linkDown fb l s).dma = s.dma := (linkDown_kept fb l s).2.2.2.2.2.2.2.2.2.2.2.2.2.1
@[simp] theorem linkDown_queues (fb : Bool) (l : Link) (s : State) : (linkDown fb l s).queues = s.queues := (linkDown_kept fb l s).2.2.2.2.2.2.2.2.2.2.2.2.2.2.1
@[simp] theorem linkDown_members (fb : Bool) (l : Link) (s : State) : (linkDown fb l s).members = s.members := (linkDown_kept fb l s).2.2.2.2.2.2.2.2.2.2.2.2.2.2.2.1
@[simp] theorem linkDown_arrs (fb : Bool) (l : Link) (s : State) : (linkDown fb l s).arrs = s.arrs := (linkDown_kept fb l s).2.2.2.2.2.2.2.2.2.2.2.2.2.2.2.2.1
@[simp] theorem linkDown_vols (fb : Bool) (l : Link) (s : State) : (linkDown fb l s).vols = s.vols := (linkDown_kept fb l s).2.2.2.2.2.2.2.2.2.2.2.2.2.2.2.2.2.1
@[simp] theorem linkDown_canvas (fb : Bool) (l : Link) (s : State) : (linkDown fb l s).canvas = s.canvas := (linkDown_kept fb l s).2.2.2.2.2.2.2.2.2.2.2.2.2.2.2.2.2.2.1
@[simp] theorem linkDown_skb (fb : Bool) (l : Link) (s : State) : (linkDown fb l s).skb = s.skb := (linkDown_kept fb l s).2.2.2.2.2.2.2.2.2.2.2.2.2.2.2.2.2.2.2.1
@[simp] theorem linkDown_studios (fb : Bool) (l : Link) (s : State) : (linkDown fb l s).studios = s.studios := (linkDown_kept fb l s).2.2.2.2.2.2.2.2.2.2.2.2.2.2.2.2.2.2.2.2.1
@[simp] theorem linkDown_referee (fb : Bool) (l : Link) (s : State) : (linkDown fb l s).referee = s.referee := (linkDown_kept fb l s).2.2.2.2.2.2.2.2.2.2.2.2.2.2.2.2.2.2.2.2.2.1
@[simp] theorem linkDown_roster (fb : Bool) (l : Link) (s : State) : (linkDown fb l s).roster = s.roster := (linkDown_kept fb l s).2.2.2.2.2.2.2.2.2.2.2.2.2.2.2.2.2.2.2.2.2.2.1
@[simp] theorem linkDown_regions (fb : Bool) (l : Link) (s : State) : (linkDown fb l s).regions = s.regions := (linkDown_kept fb l s).2.2.2.2.2.2.2.2.2.2.2.2.2.2.2.2.2.2.2.2.2.2.2.1
@[simp] theorem linkDown_palette (fb : Bool) (l : Link) (s : State) : (linkDown fb l s).palette = s.palette := (linkDown_kept fb l s).2.2.2.2.2.2.2.2.2.2.2.2.2.2.2.2.2.2.2.2.2.2.2.2.1
@[simp] theorem linkDown_freeCtr (fb : Bool) (l : Link) (s : State) : (linkDown fb l s).freeCtr = s.freeCtr := (linkDown_kept fb l s).2.2.2.2.2.2.2.2.2.2.2.2.2.2.2.2.2.2.2.2.2.2.2.2.2
theorem linkTrain_kept (fb : Bool) (s : State) :
    (linkTrain fb s).pending = s.pending ∧ (linkTrain fb s).power = s.power ∧ (linkTrain fb s).standby = s.standby ∧
    (linkTrain fb s).clk = s.clk ∧ (linkTrain fb s).restart = s.restart ∧ (linkTrain fb s).ident = s.ident ∧
    (linkTrain fb s).nv = s.nv ∧ (linkTrain fb s).pathC = s.pathC ∧ (linkTrain fb s).pathM = s.pathM ∧ (linkTrain fb
    s).cport = s.cport ∧ (linkTrain fb s).mgmt = s.mgmt ∧ (linkTrain fb s).scratch = s.scratch ∧ (linkTrain fb
    s).hbu = s.hbu ∧ (linkTrain fb s).ledger = s.ledger ∧ (linkTrain fb s).dma = s.dma ∧ (linkTrain fb s).queues =
    s.queues ∧ (linkTrain fb s).members = s.members ∧ (linkTrain fb s).arrs = s.arrs ∧ (linkTrain fb s).vols =
    s.vols ∧ (linkTrain fb s).canvas = s.canvas ∧ (linkTrain fb s).skb = s.skb ∧ (linkTrain fb s).studios =
    s.studios ∧ (linkTrain fb s).referee = s.referee ∧ (linkTrain fb s).roster = s.roster ∧ (linkTrain fb s).regions
    = s.regions ∧ (linkTrain fb s).palette = s.palette ∧ (linkTrain fb s).freeCtr = s.freeCtr := by
  simp only [linkTrain]; (repeat' split) <;> simp
@[simp] theorem linkTrain_pending (fb : Bool) (s : State) : (linkTrain fb s).pending = s.pending := (linkTrain_kept fb s).1
@[simp] theorem linkTrain_power (fb : Bool) (s : State) : (linkTrain fb s).power = s.power := (linkTrain_kept fb s).2.1
@[simp] theorem linkTrain_standby (fb : Bool) (s : State) : (linkTrain fb s).standby = s.standby := (linkTrain_kept fb s).2.2.1
@[simp] theorem linkTrain_clk (fb : Bool) (s : State) : (linkTrain fb s).clk = s.clk := (linkTrain_kept fb s).2.2.2.1
@[simp] theorem linkTrain_restart (fb : Bool) (s : State) : (linkTrain fb s).restart = s.restart := (linkTrain_kept fb s).2.2.2.2.1
@[simp] theorem linkTrain_ident (fb : Bool) (s : State) : (linkTrain fb s).ident = s.ident := (linkTrain_kept fb s).2.2.2.2.2.1
@[simp] theorem linkTrain_nv (fb : Bool) (s : State) : (linkTrain fb s).nv = s.nv := (linkTrain_kept fb s).2.2.2.2.2.2.1
@[simp] theorem linkTrain_pathC (fb : Bool) (s : State) : (linkTrain fb s).pathC = s.pathC := (linkTrain_kept fb s).2.2.2.2.2.2.2.1
@[simp] theorem linkTrain_pathM (fb : Bool) (s : State) : (linkTrain fb s).pathM = s.pathM := (linkTrain_kept fb s).2.2.2.2.2.2.2.2.1
@[simp] theorem linkTrain_cport (fb : Bool) (s : State) : (linkTrain fb s).cport = s.cport := (linkTrain_kept fb s).2.2.2.2.2.2.2.2.2.1
@[simp] theorem linkTrain_mgmt (fb : Bool) (s : State) : (linkTrain fb s).mgmt = s.mgmt := (linkTrain_kept fb s).2.2.2.2.2.2.2.2.2.2.1
@[simp] theorem linkTrain_scratch (fb : Bool) (s : State) : (linkTrain fb s).scratch = s.scratch := (linkTrain_kept fb s).2.2.2.2.2.2.2.2.2.2.2.1
@[simp] theorem linkTrain_hbu (fb : Bool) (s : State) : (linkTrain fb s).hbu = s.hbu := (linkTrain_kept fb s).2.2.2.2.2.2.2.2.2.2.2.2.1
@[simp] theorem linkTrain_ledger (fb : Bool) (s : State) : (linkTrain fb s).ledger = s.ledger := (linkTrain_kept fb s).2.2.2.2.2.2.2.2.2.2.2.2.2.1
@[simp] theorem linkTrain_dma (fb : Bool) (s : State) : (linkTrain fb s).dma = s.dma := (linkTrain_kept fb s).2.2.2.2.2.2.2.2.2.2.2.2.2.2.1
@[simp] theorem linkTrain_queues (fb : Bool) (s : State) : (linkTrain fb s).queues = s.queues := (linkTrain_kept fb s).2.2.2.2.2.2.2.2.2.2.2.2.2.2.2.1
@[simp] theorem linkTrain_members (fb : Bool) (s : State) : (linkTrain fb s).members = s.members := (linkTrain_kept fb s).2.2.2.2.2.2.2.2.2.2.2.2.2.2.2.2.1
@[simp] theorem linkTrain_arrs (fb : Bool) (s : State) : (linkTrain fb s).arrs = s.arrs := (linkTrain_kept fb s).2.2.2.2.2.2.2.2.2.2.2.2.2.2.2.2.2.1
@[simp] theorem linkTrain_vols (fb : Bool) (s : State) : (linkTrain fb s).vols = s.vols := (linkTrain_kept fb s).2.2.2.2.2.2.2.2.2.2.2.2.2.2.2.2.2.2.1
@[simp] theorem linkTrain_canvas (fb : Bool) (s : State) : (linkTrain fb s).canvas = s.canvas := (linkTrain_kept fb s).2.2.2.2.2.2.2.2.2.2.2.2.2.2.2.2.2.2.2.1
@[simp] theorem linkTrain_skb (fb : Bool) (s : State) : (linkTrain fb s).skb = s.skb := (linkTrain_kept fb s).2.2.2.2.2.2.2.2.2.2.2.2.2.2.2.2.2.2.2.2.1
@[simp] theorem linkTrain_studios (fb : Bool) (s : State) : (linkTrain fb s).studios = s.studios := (linkTrain_kept fb s).2.2.2.2.2.2.2.2.2.2.2.2.2.2.2.2.2.2.2.2.2.1
@[simp] theorem linkTrain_referee (fb : Bool) (s : State) : (linkTrain fb s).referee = s.referee := (linkTrain_kept fb s).2.2.2.2.2.2.2.2.2.2.2.2.2.2.2.2.2.2.2.2.2.2.1
@[simp] theorem linkTrain_roster (fb : Bool) (s : State) : (linkTrain fb s).roster = s.roster := (linkTrain_kept fb s).2.2.2.2.2.2.2.2.2.2.2.2.2.2.2.2.2.2.2.2.2.2.2.1
@[simp] theorem linkTrain_regions (fb : Bool) (s : State) : (linkTrain fb s).regions = s.regions := (linkTrain_kept fb s).2.2.2.2.2.2.2.2.2.2.2.2.2.2.2.2.2.2.2.2.2.2.2.2.1
@[simp] theorem linkTrain_palette (fb : Bool) (s : State) : (linkTrain fb s).palette = s.palette := (linkTrain_kept fb s).2.2.2.2.2.2.2.2.2.2.2.2.2.2.2.2.2.2.2.2.2.2.2.2.2.1
@[simp] theorem linkTrain_freeCtr (fb : Bool) (s : State) : (linkTrain fb s).freeCtr = s.freeCtr := (linkTrain_kept fb s).2.2.2.2.2.2.2.2.2.2.2.2.2.2.2.2.2.2.2.2.2.2.2.2.2.2
theorem broadcast_kept (kind : Byte) (flits : Bool → List Dword) (s : State) :
    (broadcast kind flits s).pending = s.pending ∧ (broadcast kind flits s).power = s.power ∧ (broadcast kind flits
    s).standby = s.standby ∧ (broadcast kind flits s).clk = s.clk ∧ (broadcast kind flits s).restart = s.restart ∧
    (broadcast kind flits s).ident = s.ident ∧ (broadcast kind flits s).nv = s.nv ∧ (broadcast kind flits s).pathC =
    s.pathC ∧ (broadcast kind flits s).pathM = s.pathM ∧ (broadcast kind flits s).cport = s.cport ∧ (broadcast kind
    flits s).mgmt = s.mgmt ∧ (broadcast kind flits s).scratch = s.scratch ∧ (broadcast kind flits s).hbu = s.hbu ∧
    (broadcast kind flits s).dma = s.dma ∧ (broadcast kind flits s).queues = s.queues ∧ (broadcast kind flits
    s).members = s.members ∧ (broadcast kind flits s).arrs = s.arrs ∧ (broadcast kind flits s).vols = s.vols ∧
    (broadcast kind flits s).canvas = s.canvas ∧ (broadcast kind flits s).skb = s.skb ∧ (broadcast kind flits
    s).studios = s.studios ∧ (broadcast kind flits s).referee = s.referee ∧ (broadcast kind flits s).roster =
    s.roster ∧ (broadcast kind flits s).regions = s.regions ∧ (broadcast kind flits s).palette = s.palette ∧
    (broadcast kind flits s).freeCtr = s.freeCtr := by
  simp only [broadcast]
  refine ⟨foldl_pending _ (by intro s a; split <;> simp) _ _, foldl_power _ (by intro s a; split <;> simp) _ _, foldl_standby _ (by intro s a; split <;> simp) _ _, foldl_clk _ (by intro s a; split <;> simp) _ _, foldl_restart _ (by intro s a; split <;> simp) _ _, foldl_ident _ (by intro s a; split <;> simp) _ _, foldl_nv _ (by intro s a; split <;> simp) _ _, foldl_pathC _ (by intro s a; split <;> simp) _ _, foldl_pathM _ (by intro s a; split <;> simp) _ _, foldl_cport _ (by intro s a; split <;> simp) _ _, foldl_mgmt _ (by intro s a; split <;> simp) _ _, foldl_scratch _ (by intro s a; split <;> simp) _ _, foldl_hbu _ (by intro s a; split <;> simp) _ _, foldl_dma _ (by intro s a; split <;> simp) _ _, foldl_queues _ (by intro s a; split <;> simp) _ _, foldl_members _ (by intro s a; split <;> simp) _ _, foldl_arrs _ (by intro s a; split <;> simp) _ _, foldl_vols _ (by intro s a; split <;> simp) _ _, foldl_canvas _ (by intro s a; split <;> simp) _ _, foldl_skb _ (by intro s a; split <;> simp) _ _, foldl_studios _ (by intro s a; split <;> simp) _ _, foldl_referee _ (by intro s a; split <;> simp) _ _, foldl_roster _ (by intro s a; split <;> simp) _ _, foldl_regions _ (by intro s a; split <;> simp) _ _, foldl_palette _ (by intro s a; split <;> simp) _ _, foldl_freeCtr _ (by intro s a; split <;> simp) _ _⟩
@[simp] theorem broadcast_pending (kind : Byte) (flits : Bool → List Dword) (s : State) : (broadcast kind flits s).pending = s.pending := (broadcast_kept kind flits s).1
@[simp] theorem broadcast_power (kind : Byte) (flits : Bool → List Dword) (s : State) : (broadcast kind flits s).power = s.power := (broadcast_kept kind flits s).2.1
@[simp] theorem broadcast_standby (kind : Byte) (flits : Bool → List Dword) (s : State) : (broadcast kind flits s).standby = s.standby := (broadcast_kept kind flits s).2.2.1
@[simp] theorem broadcast_clk (kind : Byte) (flits : Bool → List Dword) (s : State) : (broadcast kind flits s).clk = s.clk := (broadcast_kept kind flits s).2.2.2.1
@[simp] theorem broadcast_restart (kind : Byte) (flits : Bool → List Dword) (s : State) : (broadcast kind flits s).restart = s.restart := (broadcast_kept kind flits s).2.2.2.2.1
@[simp] theorem broadcast_ident (kind : Byte) (flits : Bool → List Dword) (s : State) : (broadcast kind flits s).ident = s.ident := (broadcast_kept kind flits s).2.2.2.2.2.1
@[simp] theorem broadcast_nv (kind : Byte) (flits : Bool → List Dword) (s : State) : (broadcast kind flits s).nv = s.nv := (broadcast_kept kind flits s).2.2.2.2.2.2.1
@[simp] theorem broadcast_pathC (kind : Byte) (flits : Bool → List Dword) (s : State) : (broadcast kind flits s).pathC = s.pathC := (broadcast_kept kind flits s).2.2.2.2.2.2.2.1
@[simp] theorem broadcast_pathM (kind : Byte) (flits : Bool → List Dword) (s : State) : (broadcast kind flits s).pathM = s.pathM := (broadcast_kept kind flits s).2.2.2.2.2.2.2.2.1
@[simp] theorem broadcast_cport (kind : Byte) (flits : Bool → List Dword) (s : State) : (broadcast kind flits s).cport = s.cport := (broadcast_kept kind flits s).2.2.2.2.2.2.2.2.2.1
@[simp] theorem broadcast_mgmt (kind : Byte) (flits : Bool → List Dword) (s : State) : (broadcast kind flits s).mgmt = s.mgmt := (broadcast_kept kind flits s).2.2.2.2.2.2.2.2.2.2.1
@[simp] theorem broadcast_scratch (kind : Byte) (flits : Bool → List Dword) (s : State) : (broadcast kind flits s).scratch = s.scratch := (broadcast_kept kind flits s).2.2.2.2.2.2.2.2.2.2.2.1
@[simp] theorem broadcast_hbu (kind : Byte) (flits : Bool → List Dword) (s : State) : (broadcast kind flits s).hbu = s.hbu := (broadcast_kept kind flits s).2.2.2.2.2.2.2.2.2.2.2.2.1
@[simp] theorem broadcast_dma (kind : Byte) (flits : Bool → List Dword) (s : State) : (broadcast kind flits s).dma = s.dma := (broadcast_kept kind flits s).2.2.2.2.2.2.2.2.2.2.2.2.2.1
@[simp] theorem broadcast_queues (kind : Byte) (flits : Bool → List Dword) (s : State) : (broadcast kind flits s).queues = s.queues := (broadcast_kept kind flits s).2.2.2.2.2.2.2.2.2.2.2.2.2.2.1
@[simp] theorem broadcast_members (kind : Byte) (flits : Bool → List Dword) (s : State) : (broadcast kind flits s).members = s.members := (broadcast_kept kind flits s).2.2.2.2.2.2.2.2.2.2.2.2.2.2.2.1
@[simp] theorem broadcast_arrs (kind : Byte) (flits : Bool → List Dword) (s : State) : (broadcast kind flits s).arrs = s.arrs := (broadcast_kept kind flits s).2.2.2.2.2.2.2.2.2.2.2.2.2.2.2.2.1
@[simp] theorem broadcast_vols (kind : Byte) (flits : Bool → List Dword) (s : State) : (broadcast kind flits s).vols = s.vols := (broadcast_kept kind flits s).2.2.2.2.2.2.2.2.2.2.2.2.2.2.2.2.2.1
@[simp] theorem broadcast_canvas (kind : Byte) (flits : Bool → List Dword) (s : State) : (broadcast kind flits s).canvas = s.canvas := (broadcast_kept kind flits s).2.2.2.2.2.2.2.2.2.2.2.2.2.2.2.2.2.2.1
@[simp] theorem broadcast_skb (kind : Byte) (flits : Bool → List Dword) (s : State) : (broadcast kind flits s).skb = s.skb := (broadcast_kept kind flits s).2.2.2.2.2.2.2.2.2.2.2.2.2.2.2.2.2.2.2.1
@[simp] theorem broadcast_studios (kind : Byte) (flits : Bool → List Dword) (s : State) : (broadcast kind flits s).studios = s.studios := (broadcast_kept kind flits s).2.2.2.2.2.2.2.2.2.2.2.2.2.2.2.2.2.2.2.2.1
@[simp] theorem broadcast_referee (kind : Byte) (flits : Bool → List Dword) (s : State) : (broadcast kind flits s).referee = s.referee := (broadcast_kept kind flits s).2.2.2.2.2.2.2.2.2.2.2.2.2.2.2.2.2.2.2.2.2.1
@[simp] theorem broadcast_roster (kind : Byte) (flits : Bool → List Dword) (s : State) : (broadcast kind flits s).roster = s.roster := (broadcast_kept kind flits s).2.2.2.2.2.2.2.2.2.2.2.2.2.2.2.2.2.2.2.2.2.2.1
@[simp] theorem broadcast_regions (kind : Byte) (flits : Bool → List Dword) (s : State) : (broadcast kind flits s).regions = s.regions := (broadcast_kept kind flits s).2.2.2.2.2.2.2.2.2.2.2.2.2.2.2.2.2.2.2.2.2.2.2.1
@[simp] theorem broadcast_palette (kind : Byte) (flits : Bool → List Dword) (s : State) : (broadcast kind flits s).palette = s.palette := (broadcast_kept kind flits s).2.2.2.2.2.2.2.2.2.2.2.2.2.2.2.2.2.2.2.2.2.2.2.2.1
@[simp] theorem broadcast_freeCtr (kind : Byte) (flits : Bool → List Dword) (s : State) : (broadcast kind flits s).freeCtr = s.freeCtr := (broadcast_kept kind flits s).2.2.2.2.2.2.2.2.2.2.2.2.2.2.2.2.2.2.2.2.2.2.2.2.2
theorem rollStart_kept (s : State) :
    (rollStart s).pending = s.pending ∧ (rollStart s).power = s.power ∧ (rollStart s).standby = s.standby ∧
    (rollStart s).clk = s.clk ∧ (rollStart s).restart = s.restart ∧ (rollStart s).ident = s.ident ∧ (rollStart s).nv
    = s.nv ∧ (rollStart s).pathC = s.pathC ∧ (rollStart s).pathM = s.pathM ∧ (rollStart s).cport = s.cport ∧
    (rollStart s).mgmt = s.mgmt ∧ (rollStart s).scratch = s.scratch ∧ (rollStart s).hbu = s.hbu ∧ (rollStart s).dma
    = s.dma ∧ (rollStart s).queues = s.queues ∧ (rollStart s).members = s.members ∧ (rollStart s).arrs = s.arrs ∧
    (rollStart s).vols = s.vols ∧ (rollStart s).canvas = s.canvas ∧ (rollStart s).skb = s.skb ∧ (rollStart
    s).studios = s.studios ∧ (rollStart s).referee = s.referee ∧ (rollStart s).roster = s.roster ∧ (rollStart
    s).regions = s.regions ∧ (rollStart s).palette = s.palette ∧ (rollStart s).freeCtr = s.freeCtr := by simp [rollStart]
@[simp] theorem rollStart_pending (s : State) : (rollStart s).pending = s.pending := (rollStart_kept s).1
@[simp] theorem rollStart_power (s : State) : (rollStart s).power = s.power := (rollStart_kept s).2.1
@[simp] theorem rollStart_standby (s : State) : (rollStart s).standby = s.standby := (rollStart_kept s).2.2.1
@[simp] theorem rollStart_clk (s : State) : (rollStart s).clk = s.clk := (rollStart_kept s).2.2.2.1
@[simp] theorem rollStart_restart (s : State) : (rollStart s).restart = s.restart := (rollStart_kept s).2.2.2.2.1
@[simp] theorem rollStart_ident (s : State) : (rollStart s).ident = s.ident := (rollStart_kept s).2.2.2.2.2.1
@[simp] theorem rollStart_nv (s : State) : (rollStart s).nv = s.nv := (rollStart_kept s).2.2.2.2.2.2.1
@[simp] theorem rollStart_pathC (s : State) : (rollStart s).pathC = s.pathC := (rollStart_kept s).2.2.2.2.2.2.2.1
@[simp] theorem rollStart_pathM (s : State) : (rollStart s).pathM = s.pathM := (rollStart_kept s).2.2.2.2.2.2.2.2.1
@[simp] theorem rollStart_cport (s : State) : (rollStart s).cport = s.cport := (rollStart_kept s).2.2.2.2.2.2.2.2.2.1
@[simp] theorem rollStart_mgmt (s : State) : (rollStart s).mgmt = s.mgmt := (rollStart_kept s).2.2.2.2.2.2.2.2.2.2.1
@[simp] theorem rollStart_scratch (s : State) : (rollStart s).scratch = s.scratch := (rollStart_kept s).2.2.2.2.2.2.2.2.2.2.2.1
@[simp] theorem rollStart_hbu (s : State) : (rollStart s).hbu = s.hbu := (rollStart_kept s).2.2.2.2.2.2.2.2.2.2.2.2.1
@[simp] theorem rollStart_dma (s : State) : (rollStart s).dma = s.dma := (rollStart_kept s).2.2.2.2.2.2.2.2.2.2.2.2.2.1
@[simp] theorem rollStart_queues (s : State) : (rollStart s).queues = s.queues := (rollStart_kept s).2.2.2.2.2.2.2.2.2.2.2.2.2.2.1
@[simp] theorem rollStart_members (s : State) : (rollStart s).members = s.members := (rollStart_kept s).2.2.2.2.2.2.2.2.2.2.2.2.2.2.2.1
@[simp] theorem rollStart_arrs (s : State) : (rollStart s).arrs = s.arrs := (rollStart_kept s).2.2.2.2.2.2.2.2.2.2.2.2.2.2.2.2.1
@[simp] theorem rollStart_vols (s : State) : (rollStart s).vols = s.vols := (rollStart_kept s).2.2.2.2.2.2.2.2.2.2.2.2.2.2.2.2.2.1
@[simp] theorem rollStart_canvas (s : State) : (rollStart s).canvas = s.canvas := (rollStart_kept s).2.2.2.2.2.2.2.2.2.2.2.2.2.2.2.2.2.2.1
@[simp] theorem rollStart_skb (s : State) : (rollStart s).skb = s.skb := (rollStart_kept s).2.2.2.2.2.2.2.2.2.2.2.2.2.2.2.2.2.2.2.1
@[simp] theorem rollStart_studios (s : State) : (rollStart s).studios = s.studios := (rollStart_kept s).2.2.2.2.2.2.2.2.2.2.2.2.2.2.2.2.2.2.2.2.1
@[simp] theorem rollStart_referee (s : State) : (rollStart s).referee = s.referee := (rollStart_kept s).2.2.2.2.2.2.2.2.2.2.2.2.2.2.2.2.2.2.2.2.2.1
@[simp] theorem rollStart_roster (s : State) : (rollStart s).roster = s.roster := (rollStart_kept s).2.2.2.2.2.2.2.2.2.2.2.2.2.2.2.2.2.2.2.2.2.2.1
@[simp] theorem rollStart_regions (s : State) : (rollStart s).regions = s.regions := (rollStart_kept s).2.2.2.2.2.2.2.2.2.2.2.2.2.2.2.2.2.2.2.2.2.2.2.1
@[simp] theorem rollStart_palette (s : State) : (rollStart s).palette = s.palette := (rollStart_kept s).2.2.2.2.2.2.2.2.2.2.2.2.2.2.2.2.2.2.2.2.2.2.2.2.1
@[simp] theorem rollStart_freeCtr (s : State) : (rollStart s).freeCtr = s.freeCtr := (rollStart_kept s).2.2.2.2.2.2.2.2.2.2.2.2.2.2.2.2.2.2.2.2.2.2.2.2.2
theorem rollEvent_kept (s : State) :
    (rollEvent s).pending = s.pending ∧ (rollEvent s).power = s.power ∧ (rollEvent s).standby = s.standby ∧
    (rollEvent s).clk = s.clk ∧ (rollEvent s).restart = s.restart ∧ (rollEvent s).ident = s.ident ∧ (rollEvent s).nv
    = s.nv ∧ (rollEvent s).pathC = s.pathC ∧ (rollEvent s).pathM = s.pathM ∧ (rollEvent s).cport = s.cport ∧
    (rollEvent s).mgmt = s.mgmt ∧ (rollEvent s).scratch = s.scratch ∧ (rollEvent s).hbu = s.hbu ∧ (rollEvent s).dma
    = s.dma ∧ (rollEvent s).queues = s.queues ∧ (rollEvent s).members = s.members ∧ (rollEvent s).arrs = s.arrs ∧
    (rollEvent s).vols = s.vols ∧ (rollEvent s).canvas = s.canvas ∧ (rollEvent s).skb = s.skb ∧ (rollEvent
    s).studios = s.studios ∧ (rollEvent s).referee = s.referee ∧ (rollEvent s).roster = s.roster ∧ (rollEvent
    s).regions = s.regions ∧ (rollEvent s).palette = s.palette ∧ (rollEvent s).freeCtr = s.freeCtr := by
  simp only [rollEvent]; (repeat' split) <;> simp
@[simp] theorem rollEvent_pending (s : State) : (rollEvent s).pending = s.pending := (rollEvent_kept s).1
@[simp] theorem rollEvent_power (s : State) : (rollEvent s).power = s.power := (rollEvent_kept s).2.1
@[simp] theorem rollEvent_standby (s : State) : (rollEvent s).standby = s.standby := (rollEvent_kept s).2.2.1
@[simp] theorem rollEvent_clk (s : State) : (rollEvent s).clk = s.clk := (rollEvent_kept s).2.2.2.1
@[simp] theorem rollEvent_restart (s : State) : (rollEvent s).restart = s.restart := (rollEvent_kept s).2.2.2.2.1
@[simp] theorem rollEvent_ident (s : State) : (rollEvent s).ident = s.ident := (rollEvent_kept s).2.2.2.2.2.1
@[simp] theorem rollEvent_nv (s : State) : (rollEvent s).nv = s.nv := (rollEvent_kept s).2.2.2.2.2.2.1
@[simp] theorem rollEvent_pathC (s : State) : (rollEvent s).pathC = s.pathC := (rollEvent_kept s).2.2.2.2.2.2.2.1
@[simp] theorem rollEvent_pathM (s : State) : (rollEvent s).pathM = s.pathM := (rollEvent_kept s).2.2.2.2.2.2.2.2.1
@[simp] theorem rollEvent_cport (s : State) : (rollEvent s).cport = s.cport := (rollEvent_kept s).2.2.2.2.2.2.2.2.2.1
@[simp] theorem rollEvent_mgmt (s : State) : (rollEvent s).mgmt = s.mgmt := (rollEvent_kept s).2.2.2.2.2.2.2.2.2.2.1
@[simp] theorem rollEvent_scratch (s : State) : (rollEvent s).scratch = s.scratch := (rollEvent_kept s).2.2.2.2.2.2.2.2.2.2.2.1
@[simp] theorem rollEvent_hbu (s : State) : (rollEvent s).hbu = s.hbu := (rollEvent_kept s).2.2.2.2.2.2.2.2.2.2.2.2.1
@[simp] theorem rollEvent_dma (s : State) : (rollEvent s).dma = s.dma := (rollEvent_kept s).2.2.2.2.2.2.2.2.2.2.2.2.2.1
@[simp] theorem rollEvent_queues (s : State) : (rollEvent s).queues = s.queues := (rollEvent_kept s).2.2.2.2.2.2.2.2.2.2.2.2.2.2.1
@[simp] theorem rollEvent_members (s : State) : (rollEvent s).members = s.members := (rollEvent_kept s).2.2.2.2.2.2.2.2.2.2.2.2.2.2.2.1
@[simp] theorem rollEvent_arrs (s : State) : (rollEvent s).arrs = s.arrs := (rollEvent_kept s).2.2.2.2.2.2.2.2.2.2.2.2.2.2.2.2.1
@[simp] theorem rollEvent_vols (s : State) : (rollEvent s).vols = s.vols := (rollEvent_kept s).2.2.2.2.2.2.2.2.2.2.2.2.2.2.2.2.2.1
@[simp] theorem rollEvent_canvas (s : State) : (rollEvent s).canvas = s.canvas := (rollEvent_kept s).2.2.2.2.2.2.2.2.2.2.2.2.2.2.2.2.2.2.1
@[simp] theorem rollEvent_skb (s : State) : (rollEvent s).skb = s.skb := (rollEvent_kept s).2.2.2.2.2.2.2.2.2.2.2.2.2.2.2.2.2.2.2.1
@[simp] theorem rollEvent_studios (s : State) : (rollEvent s).studios = s.studios := (rollEvent_kept s).2.2.2.2.2.2.2.2.2.2.2.2.2.2.2.2.2.2.2.2.1
@[simp] theorem rollEvent_referee (s : State) : (rollEvent s).referee = s.referee := (rollEvent_kept s).2.2.2.2.2.2.2.2.2.2.2.2.2.2.2.2.2.2.2.2.2.1
@[simp] theorem rollEvent_roster (s : State) : (rollEvent s).roster = s.roster := (rollEvent_kept s).2.2.2.2.2.2.2.2.2.2.2.2.2.2.2.2.2.2.2.2.2.2.1
@[simp] theorem rollEvent_regions (s : State) : (rollEvent s).regions = s.regions := (rollEvent_kept s).2.2.2.2.2.2.2.2.2.2.2.2.2.2.2.2.2.2.2.2.2.2.2.1
@[simp] theorem rollEvent_palette (s : State) : (rollEvent s).palette = s.palette := (rollEvent_kept s).2.2.2.2.2.2.2.2.2.2.2.2.2.2.2.2.2.2.2.2.2.2.2.2.1
@[simp] theorem rollEvent_freeCtr (s : State) : (rollEvent s).freeCtr = s.freeCtr := (rollEvent_kept s).2.2.2.2.2.2.2.2.2.2.2.2.2.2.2.2.2.2.2.2.2.2.2.2.2
theorem linkEvent_kept (s : State) :
    (linkEvent s).pending = s.pending ∧ (linkEvent s).power = s.power ∧ (linkEvent s).standby = s.standby ∧
    (linkEvent s).clk = s.clk ∧ (linkEvent s).restart = s.restart ∧ (linkEvent s).ident = s.ident ∧ (linkEvent s).nv
    = s.nv ∧ (linkEvent s).pathC = s.pathC ∧ (linkEvent s).pathM = s.pathM ∧ (linkEvent s).cport = s.cport ∧
    (linkEvent s).mgmt = s.mgmt ∧ (linkEvent s).scratch = s.scratch ∧ (linkEvent s).hbu = s.hbu ∧ (linkEvent s).dma
    = s.dma ∧ (linkEvent s).queues = s.queues ∧ (linkEvent s).members = s.members ∧ (linkEvent s).arrs = s.arrs ∧
    (linkEvent s).vols = s.vols ∧ (linkEvent s).canvas = s.canvas ∧ (linkEvent s).skb = s.skb ∧ (linkEvent
    s).studios = s.studios ∧ (linkEvent s).referee = s.referee ∧ (linkEvent s).roster = s.roster ∧ (linkEvent
    s).regions = s.regions ∧ (linkEvent s).palette = s.palette ∧ (linkEvent s).freeCtr = s.freeCtr := by
  simp only [linkEvent]; (repeat' split) <;> simp
@[simp] theorem linkEvent_pending (s : State) : (linkEvent s).pending = s.pending := (linkEvent_kept s).1
@[simp] theorem linkEvent_power (s : State) : (linkEvent s).power = s.power := (linkEvent_kept s).2.1
@[simp] theorem linkEvent_standby (s : State) : (linkEvent s).standby = s.standby := (linkEvent_kept s).2.2.1
@[simp] theorem linkEvent_clk (s : State) : (linkEvent s).clk = s.clk := (linkEvent_kept s).2.2.2.1
@[simp] theorem linkEvent_restart (s : State) : (linkEvent s).restart = s.restart := (linkEvent_kept s).2.2.2.2.1
@[simp] theorem linkEvent_ident (s : State) : (linkEvent s).ident = s.ident := (linkEvent_kept s).2.2.2.2.2.1
@[simp] theorem linkEvent_nv (s : State) : (linkEvent s).nv = s.nv := (linkEvent_kept s).2.2.2.2.2.2.1
@[simp] theorem linkEvent_pathC (s : State) : (linkEvent s).pathC = s.pathC := (linkEvent_kept s).2.2.2.2.2.2.2.1
@[simp] theorem linkEvent_pathM (s : State) : (linkEvent s).pathM = s.pathM := (linkEvent_kept s).2.2.2.2.2.2.2.2.1
@[simp] theorem linkEvent_cport (s : State) : (linkEvent s).cport = s.cport := (linkEvent_kept s).2.2.2.2.2.2.2.2.2.1
@[simp] theorem linkEvent_mgmt (s : State) : (linkEvent s).mgmt = s.mgmt := (linkEvent_kept s).2.2.2.2.2.2.2.2.2.2.1
@[simp] theorem linkEvent_scratch (s : State) : (linkEvent s).scratch = s.scratch := (linkEvent_kept s).2.2.2.2.2.2.2.2.2.2.2.1
@[simp] theorem linkEvent_hbu (s : State) : (linkEvent s).hbu = s.hbu := (linkEvent_kept s).2.2.2.2.2.2.2.2.2.2.2.2.1
@[simp] theorem linkEvent_dma (s : State) : (linkEvent s).dma = s.dma := (linkEvent_kept s).2.2.2.2.2.2.2.2.2.2.2.2.2.1
@[simp] theorem linkEvent_queues (s : State) : (linkEvent s).queues = s.queues := (linkEvent_kept s).2.2.2.2.2.2.2.2.2.2.2.2.2.2.1
@[simp] theorem linkEvent_members (s : State) : (linkEvent s).members = s.members := (linkEvent_kept s).2.2.2.2.2.2.2.2.2.2.2.2.2.2.2.1
@[simp] theorem linkEvent_arrs (s : State) : (linkEvent s).arrs = s.arrs := (linkEvent_kept s).2.2.2.2.2.2.2.2.2.2.2.2.2.2.2.2.1
@[simp] theorem linkEvent_vols (s : State) : (linkEvent s).vols = s.vols := (linkEvent_kept s).2.2.2.2.2.2.2.2.2.2.2.2.2.2.2.2.2.1
@[simp] theorem linkEvent_canvas (s : State) : (linkEvent s).canvas = s.canvas := (linkEvent_kept s).2.2.2.2.2.2.2.2.2.2.2.2.2.2.2.2.2.2.1
@[simp] theorem linkEvent_skb (s : State) : (linkEvent s).skb = s.skb := (linkEvent_kept s).2.2.2.2.2.2.2.2.2.2.2.2.2.2.2.2.2.2.2.1
@[simp] theorem linkEvent_studios (s : State) : (linkEvent s).studios = s.studios := (linkEvent_kept s).2.2.2.2.2.2.2.2.2.2.2.2.2.2.2.2.2.2.2.2.1
@[simp] theorem linkEvent_referee (s : State) : (linkEvent s).referee = s.referee := (linkEvent_kept s).2.2.2.2.2.2.2.2.2.2.2.2.2.2.2.2.2.2.2.2.2.1
@[simp] theorem linkEvent_roster (s : State) : (linkEvent s).roster = s.roster := (linkEvent_kept s).2.2.2.2.2.2.2.2.2.2.2.2.2.2.2.2.2.2.2.2.2.2.1
@[simp] theorem linkEvent_regions (s : State) : (linkEvent s).regions = s.regions := (linkEvent_kept s).2.2.2.2.2.2.2.2.2.2.2.2.2.2.2.2.2.2.2.2.2.2.2.1
@[simp] theorem linkEvent_palette (s : State) : (linkEvent s).palette = s.palette := (linkEvent_kept s).2.2.2.2.2.2.2.2.2.2.2.2.2.2.2.2.2.2.2.2.2.2.2.2.1
@[simp] theorem linkEvent_freeCtr (s : State) : (linkEvent s).freeCtr = s.freeCtr := (linkEvent_kept s).2.2.2.2.2.2.2.2.2.2.2.2.2.2.2.2.2.2.2.2.2.2.2.2.2
theorem linkBreak_kept (fb : Bool) (s : State) :
    (linkBreak fb s).pending = s.pending ∧ (linkBreak fb s).power = s.power ∧ (linkBreak fb s).standby = s.standby ∧
    (linkBreak fb s).clk = s.clk ∧ (linkBreak fb s).restart = s.restart ∧ (linkBreak fb s).ident = s.ident ∧
    (linkBreak fb s).nv = s.nv ∧ (linkBreak fb s).pathC = s.pathC ∧ (linkBreak fb s).pathM = s.pathM ∧ (linkBreak fb
    s).cport = s.cport ∧ (linkBreak fb s).mgmt = s.mgmt ∧ (linkBreak fb s).scratch = s.scratch ∧ (linkBreak fb
    s).hbu = s.hbu ∧ (linkBreak fb s).dma = s.dma ∧ (linkBreak fb s).queues = s.queues ∧ (linkBreak fb s).members =
    s.members ∧ (linkBreak fb s).arrs = s.arrs ∧ (linkBreak fb s).vols = s.vols ∧ (linkBreak fb s).canvas = s.canvas
    ∧ (linkBreak fb s).skb = s.skb ∧ (linkBreak fb s).studios = s.studios ∧ (linkBreak fb s).referee = s.referee ∧
    (linkBreak fb s).roster = s.roster ∧ (linkBreak fb s).regions = s.regions ∧ (linkBreak fb s).palette = s.palette
    ∧ (linkBreak fb s).freeCtr = s.freeCtr := by
  simp only [linkBreak]; (repeat' split) <;> simp
@[simp] theorem linkBreak_pending (fb : Bool) (s : State) : (linkBreak fb s).pending = s.pending := (linkBreak_kept fb s).1
@[simp] theorem linkBreak_power (fb : Bool) (s : State) : (linkBreak fb s).power = s.power := (linkBreak_kept fb s).2.1
@[simp] theorem linkBreak_standby (fb : Bool) (s : State) : (linkBreak fb s).standby = s.standby := (linkBreak_kept fb s).2.2.1
@[simp] theorem linkBreak_clk (fb : Bool) (s : State) : (linkBreak fb s).clk = s.clk := (linkBreak_kept fb s).2.2.2.1
@[simp] theorem linkBreak_restart (fb : Bool) (s : State) : (linkBreak fb s).restart = s.restart := (linkBreak_kept fb s).2.2.2.2.1
@[simp] theorem linkBreak_ident (fb : Bool) (s : State) : (linkBreak fb s).ident = s.ident := (linkBreak_kept fb s).2.2.2.2.2.1
@[simp] theorem linkBreak_nv (fb : Bool) (s : State) : (linkBreak fb s).nv = s.nv := (linkBreak_kept fb s).2.2.2.2.2.2.1
@[simp] theorem linkBreak_pathC (fb : Bool) (s : State) : (linkBreak fb s).pathC = s.pathC := (linkBreak_kept fb s).2.2.2.2.2.2.2.1
@[simp] theorem linkBreak_pathM (fb : Bool) (s : State) : (linkBreak fb s).pathM = s.pathM := (linkBreak_kept fb s).2.2.2.2.2.2.2.2.1
@[simp] theorem linkBreak_cport (fb : Bool) (s : State) : (linkBreak fb s).cport = s.cport := (linkBreak_kept fb s).2.2.2.2.2.2.2.2.2.1
@[simp] theorem linkBreak_mgmt (fb : Bool) (s : State) : (linkBreak fb s).mgmt = s.mgmt := (linkBreak_kept fb s).2.2.2.2.2.2.2.2.2.2.1
@[simp] theorem linkBreak_scratch (fb : Bool) (s : State) : (linkBreak fb s).scratch = s.scratch := (linkBreak_kept fb s).2.2.2.2.2.2.2.2.2.2.2.1
@[simp] theorem linkBreak_hbu (fb : Bool) (s : State) : (linkBreak fb s).hbu = s.hbu := (linkBreak_kept fb s).2.2.2.2.2.2.2.2.2.2.2.2.1
@[simp] theorem linkBreak_dma (fb : Bool) (s : State) : (linkBreak fb s).dma = s.dma := (linkBreak_kept fb s).2.2.2.2.2.2.2.2.2.2.2.2.2.1
@[simp] theorem linkBreak_queues (fb : Bool) (s : State) : (linkBreak fb s).queues = s.queues := (linkBreak_kept fb s).2.2.2.2.2.2.2.2.2.2.2.2.2.2.1
@[simp] theorem linkBreak_members (fb : Bool) (s : State) : (linkBreak fb s).members = s.members := (linkBreak_kept fb s).2.2.2.2.2.2.2.2.2.2.2.2.2.2.2.1
@[simp] theorem linkBreak_arrs (fb : Bool) (s : State) : (linkBreak fb s).arrs = s.arrs := (linkBreak_kept fb s).2.2.2.2.2.2.2.2.2.2.2.2.2.2.2.2.1
@[simp] theorem linkBreak_vols (fb : Bool) (s : State) : (linkBreak fb s).vols = s.vols := (linkBreak_kept fb s).2.2.2.2.2.2.2.2.2.2.2.2.2.2.2.2.2.1
@[simp] theorem linkBreak_canvas (fb : Bool) (s : State) : (linkBreak fb s).canvas = s.canvas := (linkBreak_kept fb s).2.2.2.2.2.2.2.2.2.2.2.2.2.2.2.2.2.2.1
@[simp] theorem linkBreak_skb (fb : Bool) (s : State) : (linkBreak fb s).skb = s.skb := (linkBreak_kept fb s).2.2.2.2.2.2.2.2.2.2.2.2.2.2.2.2.2.2.2.1
@[simp] theorem linkBreak_studios (fb : Bool) (s : State) : (linkBreak fb s).studios = s.studios := (linkBreak_kept fb s).2.2.2.2.2.2.2.2.2.2.2.2.2.2.2.2.2.2.2.2.1
@[simp] theorem linkBreak_referee (fb : Bool) (s : State) : (linkBreak fb s).referee = s.referee := (linkBreak_kept fb s).2.2.2.2.2.2.2.2.2.2.2.2.2.2.2.2.2.2.2.2.2.1
@[simp] theorem linkBreak_roster (fb : Bool) (s : State) : (linkBreak fb s).roster = s.roster := (linkBreak_kept fb s).2.2.2.2.2.2.2.2.2.2.2.2.2.2.2.2.2.2.2.2.2.2.1
@[simp] theorem linkBreak_regions (fb : Bool) (s : State) : (linkBreak fb s).regions = s.regions := (linkBreak_kept fb s).2.2.2.2.2.2.2.2.2.2.2.2.2.2.2.2.2.2.2.2.2.2.2.1
@[simp] theorem linkBreak_palette (fb : Bool) (s : State) : (linkBreak fb s).palette = s.palette := (linkBreak_kept fb s).2.2.2.2.2.2.2.2.2.2.2.2.2.2.2.2.2.2.2.2.2.2.2.2.1
@[simp] theorem linkBreak_freeCtr (fb : Bool) (s : State) : (linkBreak fb s).freeCtr = s.freeCtr := (linkBreak_kept fb s).2.2.2.2.2.2.2.2.2.2.2.2.2.2.2.2.2.2.2.2.2.2.2.2.2
theorem linkDark_kept (fb : Bool) (s : State) :
    (linkDark fb s).pending = s.pending ∧ (linkDark fb s).power = s.power ∧ (linkDark fb s).standby = s.standby ∧
    (linkDark fb s).clk = s.clk ∧ (linkDark fb s).restart = s.restart ∧ (linkDark fb s).ident = s.ident ∧ (linkDark
    fb s).nv = s.nv ∧ (linkDark fb s).pathC = s.pathC ∧ (linkDark fb s).pathM = s.pathM ∧ (linkDark fb s).cport =
    s.cport ∧ (linkDark fb s).mgmt = s.mgmt ∧ (linkDark fb s).scratch = s.scratch ∧ (linkDark fb s).hbu = s.hbu ∧
    (linkDark fb s).dma = s.dma ∧ (linkDark fb s).queues = s.queues ∧ (linkDark fb s).members = s.members ∧
    (linkDark fb s).arrs = s.arrs ∧ (linkDark fb s).vols = s.vols ∧ (linkDark fb s).canvas = s.canvas ∧ (linkDark fb
    s).skb = s.skb ∧ (linkDark fb s).studios = s.studios ∧ (linkDark fb s).referee = s.referee ∧ (linkDark fb
    s).roster = s.roster ∧ (linkDark fb s).regions = s.regions ∧ (linkDark fb s).palette = s.palette ∧ (linkDark fb
    s).freeCtr = s.freeCtr := by
  simp only [linkDark]; (repeat' split) <;> simp
@[simp] theorem linkDark_pending (fb : Bool) (s : State) : (linkDark fb s).pending = s.pending := (linkDark_kept fb s).1
@[simp] theorem linkDark_power (fb : Bool) (s : State) : (linkDark fb s).power = s.power := (linkDark_kept fb s).2.1
@[simp] theorem linkDark_standby (fb : Bool) (s : State) : (linkDark fb s).standby = s.standby := (linkDark_kept fb s).2.2.1
@[simp] theorem linkDark_clk (fb : Bool) (s : State) : (linkDark fb s).clk = s.clk := (linkDark_kept fb s).2.2.2.1
@[simp] theorem linkDark_restart (fb : Bool) (s : State) : (linkDark fb s).restart = s.restart := (linkDark_kept fb s).2.2.2.2.1
@[simp] theorem linkDark_ident (fb : Bool) (s : State) : (linkDark fb s).ident = s.ident := (linkDark_kept fb s).2.2.2.2.2.1
@[simp] theorem linkDark_nv (fb : Bool) (s : State) : (linkDark fb s).nv = s.nv := (linkDark_kept fb s).2.2.2.2.2.2.1
@[simp] theorem linkDark_pathC (fb : Bool) (s : State) : (linkDark fb s).pathC = s.pathC := (linkDark_kept fb s).2.2.2.2.2.2.2.1
@[simp] theorem linkDark_pathM (fb : Bool) (s : State) : (linkDark fb s).pathM = s.pathM := (linkDark_kept fb s).2.2.2.2.2.2.2.2.1
@[simp] theorem linkDark_cport (fb : Bool) (s : State) : (linkDark fb s).cport = s.cport := (linkDark_kept fb s).2.2.2.2.2.2.2.2.2.1
@[simp] theorem linkDark_mgmt (fb : Bool) (s : State) : (linkDark fb s).mgmt = s.mgmt := (linkDark_kept fb s).2.2.2.2.2.2.2.2.2.2.1
@[simp] theorem linkDark_scratch (fb : Bool) (s : State) : (linkDark fb s).scratch = s.scratch := (linkDark_kept fb s).2.2.2.2.2.2.2.2.2.2.2.1
@[simp] theorem linkDark_hbu (fb : Bool) (s : State) : (linkDark fb s).hbu = s.hbu := (linkDark_kept fb s).2.2.2.2.2.2.2.2.2.2.2.2.1
@[simp] theorem linkDark_dma (fb : Bool) (s : State) : (linkDark fb s).dma = s.dma := (linkDark_kept fb s).2.2.2.2.2.2.2.2.2.2.2.2.2.1
@[simp] theorem linkDark_queues (fb : Bool) (s : State) : (linkDark fb s).queues = s.queues := (linkDark_kept fb s).2.2.2.2.2.2.2.2.2.2.2.2.2.2.1
@[simp] theorem linkDark_members (fb : Bool) (s : State) : (linkDark fb s).members = s.members := (linkDark_kept fb s).2.2.2.2.2.2.2.2.2.2.2.2.2.2.2.1
@[simp] theorem linkDark_arrs (fb : Bool) (s : State) : (linkDark fb s).arrs = s.arrs := (linkDark_kept fb s).2.2.2.2.2.2.2.2.2.2.2.2.2.2.2.2.1
@[simp] theorem linkDark_vols (fb : Bool) (s : State) : (linkDark fb s).vols = s.vols := (linkDark_kept fb s).2.2.2.2.2.2.2.2.2.2.2.2.2.2.2.2.2.1
@[simp] theorem linkDark_canvas (fb : Bool) (s : State) : (linkDark fb s).canvas = s.canvas := (linkDark_kept fb s).2.2.2.2.2.2.2.2.2.2.2.2.2.2.2.2.2.2.1
@[simp] theorem linkDark_skb (fb : Bool) (s : State) : (linkDark fb s).skb = s.skb := (linkDark_kept fb s).2.2.2.2.2.2.2.2.2.2.2.2.2.2.2.2.2.2.2.1
@[simp] theorem linkDark_studios (fb : Bool) (s : State) : (linkDark fb s).studios = s.studios := (linkDark_kept fb s).2.2.2.2.2.2.2.2.2.2.2.2.2.2.2.2.2.2.2.2.1
@[simp] theorem linkDark_referee (fb : Bool) (s : State) : (linkDark fb s).referee = s.referee := (linkDark_kept fb s).2.2.2.2.2.2.2.2.2.2.2.2.2.2.2.2.2.2.2.2.2.1
@[simp] theorem linkDark_roster (fb : Bool) (s : State) : (linkDark fb s).roster = s.roster := (linkDark_kept fb s).2.2.2.2.2.2.2.2.2.2.2.2.2.2.2.2.2.2.2.2.2.2.1
@[simp] theorem linkDark_regions (fb : Bool) (s : State) : (linkDark fb s).regions = s.regions := (linkDark_kept fb s).2.2.2.2.2.2.2.2.2.2.2.2.2.2.2.2.2.2.2.2.2.2.2.1
@[simp] theorem linkDark_palette (fb : Bool) (s : State) : (linkDark fb s).palette = s.palette := (linkDark_kept fb s).2.2.2.2.2.2.2.2.2.2.2.2.2.2.2.2.2.2.2.2.2.2.2.2.1
@[simp] theorem linkDark_freeCtr (fb : Bool) (s : State) : (linkDark fb s).freeCtr = s.freeCtr := (linkDark_kept fb s).2.2.2.2.2.2.2.2.2.2.2.2.2.2.2.2.2.2.2.2.2.2.2.2.2
theorem episode_kept (fb : Bool) (s : State) :
    (episode fb s).pending = s.pending ∧ (episode fb s).power = s.power ∧ (episode fb s).standby = s.standby ∧
    (episode fb s).clk = s.clk ∧ (episode fb s).restart = s.restart ∧ (episode fb s).ident = s.ident ∧ (episode fb
    s).nv = s.nv ∧ (episode fb s).pathC = s.pathC ∧ (episode fb s).pathM = s.pathM ∧ (episode fb s).cport = s.cport
    ∧ (episode fb s).mgmt = s.mgmt ∧ (episode fb s).scratch = s.scratch ∧ (episode fb s).hbu = s.hbu ∧ (episode fb
    s).dma = s.dma ∧ (episode fb s).queues = s.queues ∧ (episode fb s).members = s.members ∧ (episode fb s).arrs =
    s.arrs ∧ (episode fb s).vols = s.vols ∧ (episode fb s).canvas = s.canvas ∧ (episode fb s).skb = s.skb ∧ (episode
    fb s).studios = s.studios ∧ (episode fb s).referee = s.referee ∧ (episode fb s).roster = s.roster ∧ (episode fb
    s).regions = s.regions ∧ (episode fb s).palette = s.palette ∧ (episode fb s).freeCtr = s.freeCtr := by
  simp only [episode]; (repeat' split) <;> simp
@[simp] theorem episode_pending (fb : Bool) (s : State) : (episode fb s).pending = s.pending := (episode_kept fb s).1
@[simp] theorem episode_power (fb : Bool) (s : State) : (episode fb s).power = s.power := (episode_kept fb s).2.1
@[simp] theorem episode_standby (fb : Bool) (s : State) : (episode fb s).standby = s.standby := (episode_kept fb s).2.2.1
@[simp] theorem episode_clk (fb : Bool) (s : State) : (episode fb s).clk = s.clk := (episode_kept fb s).2.2.2.1
@[simp] theorem episode_restart (fb : Bool) (s : State) : (episode fb s).restart = s.restart := (episode_kept fb s).2.2.2.2.1
@[simp] theorem episode_ident (fb : Bool) (s : State) : (episode fb s).ident = s.ident := (episode_kept fb s).2.2.2.2.2.1
@[simp] theorem episode_nv (fb : Bool) (s : State) : (episode fb s).nv = s.nv := (episode_kept fb s).2.2.2.2.2.2.1
@[simp] theorem episode_pathC (fb : Bool) (s : State) : (episode fb s).pathC = s.pathC := (episode_kept fb s).2.2.2.2.2.2.2.1
@[simp] theorem episode_pathM (fb : Bool) (s : State) : (episode fb s).pathM = s.pathM := (episode_kept fb s).2.2.2.2.2.2.2.2.1
@[simp] theorem episode_cport (fb : Bool) (s : State) : (episode fb s).cport = s.cport := (episode_kept fb s).2.2.2.2.2.2.2.2.2.1
@[simp] theorem episode_mgmt (fb : Bool) (s : State) : (episode fb s).mgmt = s.mgmt := (episode_kept fb s).2.2.2.2.2.2.2.2.2.2.1
@[simp] theorem episode_scratch (fb : Bool) (s : State) : (episode fb s).scratch = s.scratch := (episode_kept fb s).2.2.2.2.2.2.2.2.2.2.2.1
@[simp] theorem episode_hbu (fb : Bool) (s : State) : (episode fb s).hbu = s.hbu := (episode_kept fb s).2.2.2.2.2.2.2.2.2.2.2.2.1
@[simp] theorem episode_dma (fb : Bool) (s : State) : (episode fb s).dma = s.dma := (episode_kept fb s).2.2.2.2.2.2.2.2.2.2.2.2.2.1
@[simp] theorem episode_queues (fb : Bool) (s : State) : (episode fb s).queues = s.queues := (episode_kept fb s).2.2.2.2.2.2.2.2.2.2.2.2.2.2.1
@[simp] theorem episode_members (fb : Bool) (s : State) : (episode fb s).members = s.members := (episode_kept fb s).2.2.2.2.2.2.2.2.2.2.2.2.2.2.2.1
@[simp] theorem episode_arrs (fb : Bool) (s : State) : (episode fb s).arrs = s.arrs := (episode_kept fb s).2.2.2.2.2.2.2.2.2.2.2.2.2.2.2.2.1
@[simp] theorem episode_vols (fb : Bool) (s : State) : (episode fb s).vols = s.vols := (episode_kept fb s).2.2.2.2.2.2.2.2.2.2.2.2.2.2.2.2.2.1
@[simp] theorem episode_canvas (fb : Bool) (s : State) : (episode fb s).canvas = s.canvas := (episode_kept fb s).2.2.2.2.2.2.2.2.2.2.2.2.2.2.2.2.2.2.1
@[simp] theorem episode_skb (fb : Bool) (s : State) : (episode fb s).skb = s.skb := (episode_kept fb s).2.2.2.2.2.2.2.2.2.2.2.2.2.2.2.2.2.2.2.1
@[simp] theorem episode_studios (fb : Bool) (s : State) : (episode fb s).studios = s.studios := (episode_kept fb s).2.2.2.2.2.2.2.2.2.2.2.2.2.2.2.2.2.2.2.2.1
@[simp] theorem episode_referee (fb : Bool) (s : State) : (episode fb s).referee = s.referee := (episode_kept fb s).2.2.2.2.2.2.2.2.2.2.2.2.2.2.2.2.2.2.2.2.2.1
@[simp] theorem episode_roster (fb : Bool) (s : State) : (episode fb s).roster = s.roster := (episode_kept fb s).2.2.2.2.2.2.2.2.2.2.2.2.2.2.2.2.2.2.2.2.2.2.1
@[simp] theorem episode_regions (fb : Bool) (s : State) : (episode fb s).regions = s.regions := (episode_kept fb s).2.2.2.2.2.2.2.2.2.2.2.2.2.2.2.2.2.2.2.2.2.2.2.1
@[simp] theorem episode_palette (fb : Bool) (s : State) : (episode fb s).palette = s.palette := (episode_kept fb s).2.2.2.2.2.2.2.2.2.2.2.2.2.2.2.2.2.2.2.2.2.2.2.2.1
@[simp] theorem episode_freeCtr (fb : Bool) (s : State) : (episode fb s).freeCtr = s.freeCtr := (episode_kept fb s).2.2.2.2.2.2.2.2.2.2.2.2.2.2.2.2.2.2.2.2.2.2.2.2.2
theorem creditsIn_kept (fb : Bool) (w : Dword) (s : State) :
    (creditsIn fb w s).pending = s.pending ∧ (creditsIn fb w s).power = s.power ∧ (creditsIn fb w s).standby =
    s.standby ∧ (creditsIn fb w s).clk = s.clk ∧ (creditsIn fb w s).restart = s.restart ∧ (creditsIn fb w s).ident =
    s.ident ∧ (creditsIn fb w s).nv = s.nv ∧ (creditsIn fb w s).log = s.log ∧ (creditsIn fb w s).pathC = s.pathC ∧
    (creditsIn fb w s).pathM = s.pathM ∧ (creditsIn fb w s).cport = s.cport ∧ (creditsIn fb w s).mgmt = s.mgmt ∧
    (creditsIn fb w s).scratch = s.scratch ∧ (creditsIn fb w s).hbu = s.hbu ∧ (creditsIn fb w s).dma = s.dma ∧
    (creditsIn fb w s).queues = s.queues ∧ (creditsIn fb w s).members = s.members ∧ (creditsIn fb w s).arrs = s.arrs
    ∧ (creditsIn fb w s).vols = s.vols ∧ (creditsIn fb w s).canvas = s.canvas ∧ (creditsIn fb w s).skb = s.skb ∧
    (creditsIn fb w s).studios = s.studios ∧ (creditsIn fb w s).referee = s.referee ∧ (creditsIn fb w s).roster =
    s.roster ∧ (creditsIn fb w s).regions = s.regions ∧ (creditsIn fb w s).palette = s.palette ∧ (creditsIn fb w
    s).freeCtr = s.freeCtr := by simp [creditsIn]
@[simp] theorem creditsIn_pending (fb : Bool) (w : Dword) (s : State) : (creditsIn fb w s).pending = s.pending := (creditsIn_kept fb w s).1
@[simp] theorem creditsIn_power (fb : Bool) (w : Dword) (s : State) : (creditsIn fb w s).power = s.power := (creditsIn_kept fb w s).2.1
@[simp] theorem creditsIn_standby (fb : Bool) (w : Dword) (s : State) : (creditsIn fb w s).standby = s.standby := (creditsIn_kept fb w s).2.2.1
@[simp] theorem creditsIn_clk (fb : Bool) (w : Dword) (s : State) : (creditsIn fb w s).clk = s.clk := (creditsIn_kept fb w s).2.2.2.1
@[simp] theorem creditsIn_restart (fb : Bool) (w : Dword) (s : State) : (creditsIn fb w s).restart = s.restart := (creditsIn_kept fb w s).2.2.2.2.1
@[simp] theorem creditsIn_ident (fb : Bool) (w : Dword) (s : State) : (creditsIn fb w s).ident = s.ident := (creditsIn_kept fb w s).2.2.2.2.2.1
@[simp] theorem creditsIn_nv (fb : Bool) (w : Dword) (s : State) : (creditsIn fb w s).nv = s.nv := (creditsIn_kept fb w s).2.2.2.2.2.2.1
@[simp] theorem creditsIn_log (fb : Bool) (w : Dword) (s : State) : (creditsIn fb w s).log = s.log := (creditsIn_kept fb w s).2.2.2.2.2.2.2.1
@[simp] theorem creditsIn_pathC (fb : Bool) (w : Dword) (s : State) : (creditsIn fb w s).pathC = s.pathC := (creditsIn_kept fb w s).2.2.2.2.2.2.2.2.1
@[simp] theorem creditsIn_pathM (fb : Bool) (w : Dword) (s : State) : (creditsIn fb w s).pathM = s.pathM := (creditsIn_kept fb w s).2.2.2.2.2.2.2.2.2.1
@[simp] theorem creditsIn_cport (fb : Bool) (w : Dword) (s : State) : (creditsIn fb w s).cport = s.cport := (creditsIn_kept fb w s).2.2.2.2.2.2.2.2.2.2.1
@[simp] theorem creditsIn_mgmt (fb : Bool) (w : Dword) (s : State) : (creditsIn fb w s).mgmt = s.mgmt := (creditsIn_kept fb w s).2.2.2.2.2.2.2.2.2.2.2.1
@[simp] theorem creditsIn_scratch (fb : Bool) (w : Dword) (s : State) : (creditsIn fb w s).scratch = s.scratch := (creditsIn_kept fb w s).2.2.2.2.2.2.2.2.2.2.2.2.1
@[simp] theorem creditsIn_hbu (fb : Bool) (w : Dword) (s : State) : (creditsIn fb w s).hbu = s.hbu := (creditsIn_kept fb w s).2.2.2.2.2.2.2.2.2.2.2.2.2.1
@[simp] theorem creditsIn_dma (fb : Bool) (w : Dword) (s : State) : (creditsIn fb w s).dma = s.dma := (creditsIn_kept fb w s).2.2.2.2.2.2.2.2.2.2.2.2.2.2.1
@[simp] theorem creditsIn_queues (fb : Bool) (w : Dword) (s : State) : (creditsIn fb w s).queues = s.queues := (creditsIn_kept fb w s).2.2.2.2.2.2.2.2.2.2.2.2.2.2.2.1
@[simp] theorem creditsIn_members (fb : Bool) (w : Dword) (s : State) : (creditsIn fb w s).members = s.members := (creditsIn_kept fb w s).2.2.2.2.2.2.2.2.2.2.2.2.2.2.2.2.1
@[simp] theorem creditsIn_arrs (fb : Bool) (w : Dword) (s : State) : (creditsIn fb w s).arrs = s.arrs := (creditsIn_kept fb w s).2.2.2.2.2.2.2.2.2.2.2.2.2.2.2.2.2.1
@[simp] theorem creditsIn_vols (fb : Bool) (w : Dword) (s : State) : (creditsIn fb w s).vols = s.vols := (creditsIn_kept fb w s).2.2.2.2.2.2.2.2.2.2.2.2.2.2.2.2.2.2.1
@[simp] theorem creditsIn_canvas (fb : Bool) (w : Dword) (s : State) : (creditsIn fb w s).canvas = s.canvas := (creditsIn_kept fb w s).2.2.2.2.2.2.2.2.2.2.2.2.2.2.2.2.2.2.2.1
@[simp] theorem creditsIn_skb (fb : Bool) (w : Dword) (s : State) : (creditsIn fb w s).skb = s.skb := (creditsIn_kept fb w s).2.2.2.2.2.2.2.2.2.2.2.2.2.2.2.2.2.2.2.2.1
@[simp] theorem creditsIn_studios (fb : Bool) (w : Dword) (s : State) : (creditsIn fb w s).studios = s.studios := (creditsIn_kept fb w s).2.2.2.2.2.2.2.2.2.2.2.2.2.2.2.2.2.2.2.2.2.1
@[simp] theorem creditsIn_referee (fb : Bool) (w : Dword) (s : State) : (creditsIn fb w s).referee = s.referee := (creditsIn_kept fb w s).2.2.2.2.2.2.2.2.2.2.2.2.2.2.2.2.2.2.2.2.2.2.1
@[simp] theorem creditsIn_roster (fb : Bool) (w : Dword) (s : State) : (creditsIn fb w s).roster = s.roster := (creditsIn_kept fb w s).2.2.2.2.2.2.2.2.2.2.2.2.2.2.2.2.2.2.2.2.2.2.2.1
@[simp] theorem creditsIn_regions (fb : Bool) (w : Dword) (s : State) : (creditsIn fb w s).regions = s.regions := (creditsIn_kept fb w s).2.2.2.2.2.2.2.2.2.2.2.2.2.2.2.2.2.2.2.2.2.2.2.2.1
@[simp] theorem creditsIn_palette (fb : Bool) (w : Dword) (s : State) : (creditsIn fb w s).palette = s.palette := (creditsIn_kept fb w s).2.2.2.2.2.2.2.2.2.2.2.2.2.2.2.2.2.2.2.2.2.2.2.2.2.1
@[simp] theorem creditsIn_freeCtr (fb : Bool) (w : Dword) (s : State) : (creditsIn fb w s).freeCtr = s.freeCtr := (creditsIn_kept fb w s).2.2.2.2.2.2.2.2.2.2.2.2.2.2.2.2.2.2.2.2.2.2.2.2.2.2
theorem linkFlit_kept (fb : Bool) (w : Dword) (s : State) :
    (linkFlit fb w s).pending = s.pending ∧ (linkFlit fb w s).power = s.power ∧ (linkFlit fb w s).standby =
    s.standby ∧ (linkFlit fb w s).clk = s.clk ∧ (linkFlit fb w s).restart = s.restart ∧ (linkFlit fb w s).ident =
    s.ident ∧ (linkFlit fb w s).nv = s.nv ∧ (linkFlit fb w s).pathC = s.pathC ∧ (linkFlit fb w s).pathM = s.pathM ∧
    (linkFlit fb w s).cport = s.cport ∧ (linkFlit fb w s).mgmt = s.mgmt ∧ (linkFlit fb w s).scratch = s.scratch ∧
    (linkFlit fb w s).hbu = s.hbu ∧ (linkFlit fb w s).dma = s.dma ∧ (linkFlit fb w s).queues = s.queues ∧ (linkFlit
    fb w s).members = s.members ∧ (linkFlit fb w s).arrs = s.arrs ∧ (linkFlit fb w s).vols = s.vols ∧ (linkFlit fb w
    s).canvas = s.canvas ∧ (linkFlit fb w s).skb = s.skb ∧ (linkFlit fb w s).studios = s.studios ∧ (linkFlit fb w
    s).referee = s.referee ∧ (linkFlit fb w s).roster = s.roster ∧ (linkFlit fb w s).regions = s.regions ∧ (linkFlit
    fb w s).palette = s.palette ∧ (linkFlit fb w s).freeCtr = s.freeCtr := by
  simp only [linkFlit]; (repeat' split) <;> simp
@[simp] theorem linkFlit_pending (fb : Bool) (w : Dword) (s : State) : (linkFlit fb w s).pending = s.pending := (linkFlit_kept fb w s).1
@[simp] theorem linkFlit_power (fb : Bool) (w : Dword) (s : State) : (linkFlit fb w s).power = s.power := (linkFlit_kept fb w s).2.1
@[simp] theorem linkFlit_standby (fb : Bool) (w : Dword) (s : State) : (linkFlit fb w s).standby = s.standby := (linkFlit_kept fb w s).2.2.1
@[simp] theorem linkFlit_clk (fb : Bool) (w : Dword) (s : State) : (linkFlit fb w s).clk = s.clk := (linkFlit_kept fb w s).2.2.2.1
@[simp] theorem linkFlit_restart (fb : Bool) (w : Dword) (s : State) : (linkFlit fb w s).restart = s.restart := (linkFlit_kept fb w s).2.2.2.2.1
@[simp] theorem linkFlit_ident (fb : Bool) (w : Dword) (s : State) : (linkFlit fb w s).ident = s.ident := (linkFlit_kept fb w s).2.2.2.2.2.1
@[simp] theorem linkFlit_nv (fb : Bool) (w : Dword) (s : State) : (linkFlit fb w s).nv = s.nv := (linkFlit_kept fb w s).2.2.2.2.2.2.1
@[simp] theorem linkFlit_pathC (fb : Bool) (w : Dword) (s : State) : (linkFlit fb w s).pathC = s.pathC := (linkFlit_kept fb w s).2.2.2.2.2.2.2.1
@[simp] theorem linkFlit_pathM (fb : Bool) (w : Dword) (s : State) : (linkFlit fb w s).pathM = s.pathM := (linkFlit_kept fb w s).2.2.2.2.2.2.2.2.1
@[simp] theorem linkFlit_cport (fb : Bool) (w : Dword) (s : State) : (linkFlit fb w s).cport = s.cport := (linkFlit_kept fb w s).2.2.2.2.2.2.2.2.2.1
@[simp] theorem linkFlit_mgmt (fb : Bool) (w : Dword) (s : State) : (linkFlit fb w s).mgmt = s.mgmt := (linkFlit_kept fb w s).2.2.2.2.2.2.2.2.2.2.1
@[simp] theorem linkFlit_scratch (fb : Bool) (w : Dword) (s : State) : (linkFlit fb w s).scratch = s.scratch := (linkFlit_kept fb w s).2.2.2.2.2.2.2.2.2.2.2.1
@[simp] theorem linkFlit_hbu (fb : Bool) (w : Dword) (s : State) : (linkFlit fb w s).hbu = s.hbu := (linkFlit_kept fb w s).2.2.2.2.2.2.2.2.2.2.2.2.1
@[simp] theorem linkFlit_dma (fb : Bool) (w : Dword) (s : State) : (linkFlit fb w s).dma = s.dma := (linkFlit_kept fb w s).2.2.2.2.2.2.2.2.2.2.2.2.2.1
@[simp] theorem linkFlit_queues (fb : Bool) (w : Dword) (s : State) : (linkFlit fb w s).queues = s.queues := (linkFlit_kept fb w s).2.2.2.2.2.2.2.2.2.2.2.2.2.2.1
@[simp] theorem linkFlit_members (fb : Bool) (w : Dword) (s : State) : (linkFlit fb w s).members = s.members := (linkFlit_kept fb w s).2.2.2.2.2.2.2.2.2.2.2.2.2.2.2.1
@[simp] theorem linkFlit_arrs (fb : Bool) (w : Dword) (s : State) : (linkFlit fb w s).arrs = s.arrs := (linkFlit_kept fb w s).2.2.2.2.2.2.2.2.2.2.2.2.2.2.2.2.1
@[simp] theorem linkFlit_vols (fb : Bool) (w : Dword) (s : State) : (linkFlit fb w s).vols = s.vols := (linkFlit_kept fb w s).2.2.2.2.2.2.2.2.2.2.2.2.2.2.2.2.2.1
@[simp] theorem linkFlit_canvas (fb : Bool) (w : Dword) (s : State) : (linkFlit fb w s).canvas = s.canvas := (linkFlit_kept fb w s).2.2.2.2.2.2.2.2.2.2.2.2.2.2.2.2.2.2.1
@[simp] theorem linkFlit_skb (fb : Bool) (w : Dword) (s : State) : (linkFlit fb w s).skb = s.skb := (linkFlit_kept fb w s).2.2.2.2.2.2.2.2.2.2.2.2.2.2.2.2.2.2.2.1
@[simp] theorem linkFlit_studios (fb : Bool) (w : Dword) (s : State) : (linkFlit fb w s).studios = s.studios := (linkFlit_kept fb w s).2.2.2.2.2.2.2.2.2.2.2.2.2.2.2.2.2.2.2.2.1
@[simp] theorem linkFlit_referee (fb : Bool) (w : Dword) (s : State) : (linkFlit fb w s).referee = s.referee := (linkFlit_kept fb w s).2.2.2.2.2.2.2.2.2.2.2.2.2.2.2.2.2.2.2.2.2.1
@[simp] theorem linkFlit_roster (fb : Bool) (w : Dword) (s : State) : (linkFlit fb w s).roster = s.roster := (linkFlit_kept fb w s).2.2.2.2.2.2.2.2.2.2.2.2.2.2.2.2.2.2.2.2.2.2.1
@[simp] theorem linkFlit_regions (fb : Bool) (w : Dword) (s : State) : (linkFlit fb w s).regions = s.regions := (linkFlit_kept fb w s).2.2.2.2.2.2.2.2.2.2.2.2.2.2.2.2.2.2.2.2.2.2.2.1
@[simp] theorem linkFlit_palette (fb : Bool) (w : Dword) (s : State) : (linkFlit fb w s).palette = s.palette := (linkFlit_kept fb w s).2.2.2.2.2.2.2.2.2.2.2.2.2.2.2.2.2.2.2.2.2.2.2.2.1
@[simp] theorem linkFlit_freeCtr (fb : Bool) (w : Dword) (s : State) : (linkFlit fb w s).freeCtr = s.freeCtr := (linkFlit_kept fb w s).2.2.2.2.2.2.2.2.2.2.2.2.2.2.2.2.2.2.2.2.2.2.2.2.2
theorem receiveError_kept (fb : Bool) (s : State) :
    (receiveError fb s).pending = s.pending ∧ (receiveError fb s).power = s.power ∧ (receiveError fb s).standby =
    s.standby ∧ (receiveError fb s).clk = s.clk ∧ (receiveError fb s).restart = s.restart ∧ (receiveError fb
    s).ident = s.ident ∧ (receiveError fb s).nv = s.nv ∧ (receiveError fb s).log = s.log ∧ (receiveError fb s).pathC
    = s.pathC ∧ (receiveError fb s).pathM = s.pathM ∧ (receiveError fb s).cport = s.cport ∧ (receiveError fb s).mgmt
    = s.mgmt ∧ (receiveError fb s).scratch = s.scratch ∧ (receiveError fb s).hbu = s.hbu ∧ (receiveError fb
    s).ledger = s.ledger ∧ (receiveError fb s).dma = s.dma ∧ (receiveError fb s).queues = s.queues ∧ (receiveError
    fb s).members = s.members ∧ (receiveError fb s).arrs = s.arrs ∧ (receiveError fb s).vols = s.vols ∧
    (receiveError fb s).canvas = s.canvas ∧ (receiveError fb s).skb = s.skb ∧ (receiveError fb s).studios =
    s.studios ∧ (receiveError fb s).referee = s.referee ∧ (receiveError fb s).roster = s.roster ∧ (receiveError fb
    s).regions = s.regions ∧ (receiveError fb s).palette = s.palette ∧ (receiveError fb s).freeCtr = s.freeCtr := by
  simp only [receiveError]; (repeat' split) <;> simp
@[simp] theorem receiveError_pending (fb : Bool) (s : State) : (receiveError fb s).pending = s.pending := (receiveError_kept fb s).1
@[simp] theorem receiveError_power (fb : Bool) (s : State) : (receiveError fb s).power = s.power := (receiveError_kept fb s).2.1
@[simp] theorem receiveError_standby (fb : Bool) (s : State) : (receiveError fb s).standby = s.standby := (receiveError_kept fb s).2.2.1
@[simp] theorem receiveError_clk (fb : Bool) (s : State) : (receiveError fb s).clk = s.clk := (receiveError_kept fb s).2.2.2.1
@[simp] theorem receiveError_restart (fb : Bool) (s : State) : (receiveError fb s).restart = s.restart := (receiveError_kept fb s).2.2.2.2.1
@[simp] theorem receiveError_ident (fb : Bool) (s : State) : (receiveError fb s).ident = s.ident := (receiveError_kept fb s).2.2.2.2.2.1
@[simp] theorem receiveError_nv (fb : Bool) (s : State) : (receiveError fb s).nv = s.nv := (receiveError_kept fb s).2.2.2.2.2.2.1
@[simp] theorem receiveError_log (fb : Bool) (s : State) : (receiveError fb s).log = s.log := (receiveError_kept fb s).2.2.2.2.2.2.2.1
@[simp] theorem receiveError_pathC (fb : Bool) (s : State) : (receiveError fb s).pathC = s.pathC := (receiveError_kept fb s).2.2.2.2.2.2.2.2.1
@[simp] theorem receiveError_pathM (fb : Bool) (s : State) : (receiveError fb s).pathM = s.pathM := (receiveError_kept fb s).2.2.2.2.2.2.2.2.2.1
@[simp] theorem receiveError_cport (fb : Bool) (s : State) : (receiveError fb s).cport = s.cport := (receiveError_kept fb s).2.2.2.2.2.2.2.2.2.2.1
@[simp] theorem receiveError_mgmt (fb : Bool) (s : State) : (receiveError fb s).mgmt = s.mgmt := (receiveError_kept fb s).2.2.2.2.2.2.2.2.2.2.2.1
@[simp] theorem receiveError_scratch (fb : Bool) (s : State) : (receiveError fb s).scratch = s.scratch := (receiveError_kept fb s).2.2.2.2.2.2.2.2.2.2.2.2.1
@[simp] theorem receiveError_hbu (fb : Bool) (s : State) : (receiveError fb s).hbu = s.hbu := (receiveError_kept fb s).2.2.2.2.2.2.2.2.2.2.2.2.2.1
@[simp] theorem receiveError_ledger (fb : Bool) (s : State) : (receiveError fb s).ledger = s.ledger := (receiveError_kept fb s).2.2.2.2.2.2.2.2.2.2.2.2.2.2.1
@[simp] theorem receiveError_dma (fb : Bool) (s : State) : (receiveError fb s).dma = s.dma := (receiveError_kept fb s).2.2.2.2.2.2.2.2.2.2.2.2.2.2.2.1
@[simp] theorem receiveError_queues (fb : Bool) (s : State) : (receiveError fb s).queues = s.queues := (receiveError_kept fb s).2.2.2.2.2.2.2.2.2.2.2.2.2.2.2.2.1
@[simp] theorem receiveError_members (fb : Bool) (s : State) : (receiveError fb s).members = s.members := (receiveError_kept fb s).2.2.2.2.2.2.2.2.2.2.2.2.2.2.2.2.2.1
@[simp] theorem receiveError_arrs (fb : Bool) (s : State) : (receiveError fb s).arrs = s.arrs := (receiveError_kept fb s).2.2.2.2.2.2.2.2.2.2.2.2.2.2.2.2.2.2.1
@[simp] theorem receiveError_vols (fb : Bool) (s : State) : (receiveError fb s).vols = s.vols := (receiveError_kept fb s).2.2.2.2.2.2.2.2.2.2.2.2.2.2.2.2.2.2.2.1
@[simp] theorem receiveError_canvas (fb : Bool) (s : State) : (receiveError fb s).canvas = s.canvas := (receiveError_kept fb s).2.2.2.2.2.2.2.2.2.2.2.2.2.2.2.2.2.2.2.2.1
@[simp] theorem receiveError_skb (fb : Bool) (s : State) : (receiveError fb s).skb = s.skb := (receiveError_kept fb s).2.2.2.2.2.2.2.2.2.2.2.2.2.2.2.2.2.2.2.2.2.1
@[simp] theorem receiveError_studios (fb : Bool) (s : State) : (receiveError fb s).studios = s.studios := (receiveError_kept fb s).2.2.2.2.2.2.2.2.2.2.2.2.2.2.2.2.2.2.2.2.2.2.1
@[simp] theorem receiveError_referee (fb : Bool) (s : State) : (receiveError fb s).referee = s.referee := (receiveError_kept fb s).2.2.2.2.2.2.2.2.2.2.2.2.2.2.2.2.2.2.2.2.2.2.2.1
@[simp] theorem receiveError_roster (fb : Bool) (s : State) : (receiveError fb s).roster = s.roster := (receiveError_kept fb s).2.2.2.2.2.2.2.2.2.2.2.2.2.2.2.2.2.2.2.2.2.2.2.2.1
@[simp] theorem receiveError_regions (fb : Bool) (s : State) : (receiveError fb s).regions = s.regions := (receiveError_kept fb s).2.2.2.2.2.2.2.2.2.2.2.2.2.2.2.2.2.2.2.2.2.2.2.2.2.1
@[simp] theorem receiveError_palette (fb : Bool) (s : State) : (receiveError fb s).palette = s.palette := (receiveError_kept fb s).2.2.2.2.2.2.2.2.2.2.2.2.2.2.2.2.2.2.2.2.2.2.2.2.2.2.1
@[simp] theorem receiveError_freeCtr (fb : Bool) (s : State) : (receiveError fb s).freeCtr = s.freeCtr := (receiveError_kept fb s).2.2.2.2.2.2.2.2.2.2.2.2.2.2.2.2.2.2.2.2.2.2.2.2.2.2.2
theorem forward_kept (fb : Bool) (kind : Byte) (p : Pkt) (s : State) :
    (forward fb kind p s).pending = s.pending ∧ (forward fb kind p s).power = s.power ∧ (forward fb kind p
    s).standby = s.standby ∧ (forward fb kind p s).clk = s.clk ∧ (forward fb kind p s).restart = s.restart ∧
    (forward fb kind p s).ident = s.ident ∧ (forward fb kind p s).nv = s.nv ∧ (forward fb kind p s).pathC = s.pathC
    ∧ (forward fb kind p s).pathM = s.pathM ∧ (forward fb kind p s).cport = s.cport ∧ (forward fb kind p s).mgmt =
    s.mgmt ∧ (forward fb kind p s).scratch = s.scratch ∧ (forward fb kind p s).hbu = s.hbu ∧ (forward fb kind p
    s).dma = s.dma ∧ (forward fb kind p s).queues = s.queues ∧ (forward fb kind p s).members = s.members ∧ (forward
    fb kind p s).arrs = s.arrs ∧ (forward fb kind p s).vols = s.vols ∧ (forward fb kind p s).canvas = s.canvas ∧
    (forward fb kind p s).skb = s.skb ∧ (forward fb kind p s).studios = s.studios ∧ (forward fb kind p s).referee =
    s.referee ∧ (forward fb kind p s).roster = s.roster ∧ (forward fb kind p s).regions = s.regions ∧ (forward fb
    kind p s).palette = s.palette ∧ (forward fb kind p s).freeCtr = s.freeCtr := by
  simp only [forward]; (repeat' split) <;> simp
@[simp] theorem forward_pending (fb : Bool) (kind : Byte) (p : Pkt) (s : State) : (forward fb kind p s).pending = s.pending := (forward_kept fb kind p s).1
@[simp] theorem forward_power (fb : Bool) (kind : Byte) (p : Pkt) (s : State) : (forward fb kind p s).power = s.power := (forward_kept fb kind p s).2.1
@[simp] theorem forward_standby (fb : Bool) (kind : Byte) (p : Pkt) (s : State) : (forward fb kind p s).standby = s.standby := (forward_kept fb kind p s).2.2.1
@[simp] theorem forward_clk (fb : Bool) (kind : Byte) (p : Pkt) (s : State) : (forward fb kind p s).clk = s.clk := (forward_kept fb kind p s).2.2.2.1
@[simp] theorem forward_restart (fb : Bool) (kind : Byte) (p : Pkt) (s : State) : (forward fb kind p s).restart = s.restart := (forward_kept fb kind p s).2.2.2.2.1
@[simp] theorem forward_ident (fb : Bool) (kind : Byte) (p : Pkt) (s : State) : (forward fb kind p s).ident = s.ident := (forward_kept fb kind p s).2.2.2.2.2.1
@[simp] theorem forward_nv (fb : Bool) (kind : Byte) (p : Pkt) (s : State) : (forward fb kind p s).nv = s.nv := (forward_kept fb kind p s).2.2.2.2.2.2.1
@[simp] theorem forward_pathC (fb : Bool) (kind : Byte) (p : Pkt) (s : State) : (forward fb kind p s).pathC = s.pathC := (forward_kept fb kind p s).2.2.2.2.2.2.2.1
@[simp] theorem forward_pathM (fb : Bool) (kind : Byte) (p : Pkt) (s : State) : (forward fb kind p s).pathM = s.pathM := (forward_kept fb kind p s).2.2.2.2.2.2.2.2.1
@[simp] theorem forward_cport (fb : Bool) (kind : Byte) (p : Pkt) (s : State) : (forward fb kind p s).cport = s.cport := (forward_kept fb kind p s).2.2.2.2.2.2.2.2.2.1
@[simp] theorem forward_mgmt (fb : Bool) (kind : Byte) (p : Pkt) (s : State) : (forward fb kind p s).mgmt = s.mgmt := (forward_kept fb kind p s).2.2.2.2.2.2.2.2.2.2.1
@[simp] theorem forward_scratch (fb : Bool) (kind : Byte) (p : Pkt) (s : State) : (forward fb kind p s).scratch = s.scratch := (forward_kept fb kind p s).2.2.2.2.2.2.2.2.2.2.2.1
@[simp] theorem forward_hbu (fb : Bool) (kind : Byte) (p : Pkt) (s : State) : (forward fb kind p s).hbu = s.hbu := (forward_kept fb kind p s).2.2.2.2.2.2.2.2.2.2.2.2.1
@[simp] theorem forward_dma (fb : Bool) (kind : Byte) (p : Pkt) (s : State) : (forward fb kind p s).dma = s.dma := (forward_kept fb kind p s).2.2.2.2.2.2.2.2.2.2.2.2.2.1
@[simp] theorem forward_queues (fb : Bool) (kind : Byte) (p : Pkt) (s : State) : (forward fb kind p s).queues = s.queues := (forward_kept fb kind p s).2.2.2.2.2.2.2.2.2.2.2.2.2.2.1
@[simp] theorem forward_members (fb : Bool) (kind : Byte) (p : Pkt) (s : State) : (forward fb kind p s).members = s.members := (forward_kept fb kind p s).2.2.2.2.2.2.2.2.2.2.2.2.2.2.2.1
@[simp] theorem forward_arrs (fb : Bool) (kind : Byte) (p : Pkt) (s : State) : (forward fb kind p s).arrs = s.arrs := (forward_kept fb kind p s).2.2.2.2.2.2.2.2.2.2.2.2.2.2.2.2.1
@[simp] theorem forward_vols (fb : Bool) (kind : Byte) (p : Pkt) (s : State) : (forward fb kind p s).vols = s.vols := (forward_kept fb kind p s).2.2.2.2.2.2.2.2.2.2.2.2.2.2.2.2.2.1
@[simp] theorem forward_canvas (fb : Bool) (kind : Byte) (p : Pkt) (s : State) : (forward fb kind p s).canvas = s.canvas := (forward_kept fb kind p s).2.2.2.2.2.2.2.2.2.2.2.2.2.2.2.2.2.2.1
@[simp] theorem forward_skb (fb : Bool) (kind : Byte) (p : Pkt) (s : State) : (forward fb kind p s).skb = s.skb := (forward_kept fb kind p s).2.2.2.2.2.2.2.2.2.2.2.2.2.2.2.2.2.2.2.1
@[simp] theorem forward_studios (fb : Bool) (kind : Byte) (p : Pkt) (s : State) : (forward fb kind p s).studios = s.studios := (forward_kept fb kind p s).2.2.2.2.2.2.2.2.2.2.2.2.2.2.2.2.2.2.2.2.1
@[simp] theorem forward_referee (fb : Bool) (kind : Byte) (p : Pkt) (s : State) : (forward fb kind p s).referee = s.referee := (forward_kept fb kind p s).2.2.2.2.2.2.2.2.2.2.2.2.2.2.2.2.2.2.2.2.2.1
@[simp] theorem forward_roster (fb : Bool) (kind : Byte) (p : Pkt) (s : State) : (forward fb kind p s).roster = s.roster := (forward_kept fb kind p s).2.2.2.2.2.2.2.2.2.2.2.2.2.2.2.2.2.2.2.2.2.2.1
@[simp] theorem forward_regions (fb : Bool) (kind : Byte) (p : Pkt) (s : State) : (forward fb kind p s).regions = s.regions := (forward_kept fb kind p s).2.2.2.2.2.2.2.2.2.2.2.2.2.2.2.2.2.2.2.2.2.2.2.1
@[simp] theorem forward_palette (fb : Bool) (kind : Byte) (p : Pkt) (s : State) : (forward fb kind p s).palette = s.palette := (forward_kept fb kind p s).2.2.2.2.2.2.2.2.2.2.2.2.2.2.2.2.2.2.2.2.2.2.2.2.1
@[simp] theorem forward_freeCtr (fb : Bool) (kind : Byte) (p : Pkt) (s : State) : (forward fb kind p s).freeCtr = s.freeCtr := (forward_kept fb kind p s).2.2.2.2.2.2.2.2.2.2.2.2.2.2.2.2.2.2.2.2.2.2.2.2.2
theorem tableFwd_kept (k : BitVec 4) (space : ℕ) (e : ℕ) (w : List Word) (s : State) :
    (tableFwd k space e w s).pending = s.pending ∧ (tableFwd k space e w s).power = s.power ∧ (tableFwd k space e w
    s).standby = s.standby ∧ (tableFwd k space e w s).clk = s.clk ∧ (tableFwd k space e w s).restart = s.restart ∧
    (tableFwd k space e w s).ident = s.ident ∧ (tableFwd k space e w s).nv = s.nv ∧ (tableFwd k space e w s).pathC =
    s.pathC ∧ (tableFwd k space e w s).pathM = s.pathM ∧ (tableFwd k space e w s).cport = s.cport ∧ (tableFwd k
    space e w s).mgmt = s.mgmt ∧ (tableFwd k space e w s).scratch = s.scratch ∧ (tableFwd k space e w s).hbu = s.hbu
    ∧ (tableFwd k space e w s).dma = s.dma ∧ (tableFwd k space e w s).queues = s.queues ∧ (tableFwd k space e w
    s).members = s.members ∧ (tableFwd k space e w s).arrs = s.arrs ∧ (tableFwd k space e w s).vols = s.vols ∧
    (tableFwd k space e w s).canvas = s.canvas ∧ (tableFwd k space e w s).skb = s.skb ∧ (tableFwd k space e w
    s).studios = s.studios ∧ (tableFwd k space e w s).referee = s.referee ∧ (tableFwd k space e w s).roster =
    s.roster ∧ (tableFwd k space e w s).regions = s.regions ∧ (tableFwd k space e w s).palette = s.palette ∧
    (tableFwd k space e w s).freeCtr = s.freeCtr := by simp [tableFwd]
@[simp] theorem tableFwd_pending (k : BitVec 4) (space : ℕ) (e : ℕ) (w : List Word) (s : State) : (tableFwd k space e w s).pending = s.pending := (tableFwd_kept k space e w s).1
@[simp] theorem tableFwd_power (k : BitVec 4) (space : ℕ) (e : ℕ) (w : List Word) (s : State) : (tableFwd k space e w s).power = s.power := (tableFwd_kept k space e w s).2.1
@[simp] theorem tableFwd_standby (k : BitVec 4) (space : ℕ) (e : ℕ) (w : List Word) (s : State) : (tableFwd k space e w s).standby = s.standby := (tableFwd_kept k space e w s).2.2.1
@[simp] theorem tableFwd_clk (k : BitVec 4) (space : ℕ) (e : ℕ) (w : List Word) (s : State) : (tableFwd k space e w s).clk = s.clk := (tableFwd_kept k space e w s).2.2.2.1
@[simp] theorem tableFwd_restart (k : BitVec 4) (space : ℕ) (e : ℕ) (w : List Word) (s : State) : (tableFwd k space e w s).restart = s.restart := (tableFwd_kept k space e w s).2.2.2.2.1
@[simp] theorem tableFwd_ident (k : BitVec 4) (space : ℕ) (e : ℕ) (w : List Word) (s : State) : (tableFwd k space e w s).ident = s.ident := (tableFwd_kept k space e w s).2.2.2.2.2.1
@[simp] theorem tableFwd_nv (k : BitVec 4) (space : ℕ) (e : ℕ) (w : List Word) (s : State) : (tableFwd k space e w s).nv = s.nv := (tableFwd_kept k space e w s).2.2.2.2.2.2.1
@[simp] theorem tableFwd_pathC (k : BitVec 4) (space : ℕ) (e : ℕ) (w : List Word) (s : State) : (tableFwd k space e w s).pathC = s.pathC := (tableFwd_kept k space e w s).2.2.2.2.2.2.2.1
@[simp] theorem tableFwd_pathM (k : BitVec 4) (space : ℕ) (e : ℕ) (w : List Word) (s : State) : (tableFwd k space e w s).pathM = s.pathM := (tableFwd_kept k space e w s).2.2.2.2.2.2.2.2.1
@[simp] theorem tableFwd_cport (k : BitVec 4) (space : ℕ) (e : ℕ) (w : List Word) (s : State) : (tableFwd k space e w s).cport = s.cport := (tableFwd_kept k space e w s).2.2.2.2.2.2.2.2.2.1
@[simp] theorem tableFwd_mgmt (k : BitVec 4) (space : ℕ) (e : ℕ) (w : List Word) (s : State) : (tableFwd k space e w s).mgmt = s.mgmt := (tableFwd_kept k space e w s).2.2.2.2.2.2.2.2.2.2.1
@[simp] theorem tableFwd_scratch (k : BitVec 4) (space : ℕ) (e : ℕ) (w : List Word) (s : State) : (tableFwd k space e w s).scratch = s.scratch := (tableFwd_kept k space e w s).2.2.2.2.2.2.2.2.2.2.2.1
@[simp] theorem tableFwd_hbu (k : BitVec 4) (space : ℕ) (e : ℕ) (w : List Word) (s : State) : (tableFwd k space e w s).hbu = s.hbu := (tableFwd_kept k space e w s).2.2.2.2.2.2.2.2.2.2.2.2.1
@[simp] theorem tableFwd_dma (k : BitVec 4) (space : ℕ) (e : ℕ) (w : List Word) (s : State) : (tableFwd k space e w s).dma = s.dma := (tableFwd_kept k space e w s).2.2.2.2.2.2.2.2.2.2.2.2.2.1
@[simp] theorem tableFwd_queues (k : BitVec 4) (space : ℕ) (e : ℕ) (w : List Word) (s : State) : (tableFwd k space e w s).queues = s.queues := (tableFwd_kept k space e w s).2.2.2.2.2.2.2.2.2.2.2.2.2.2.1
@[simp] theorem tableFwd_members (k : BitVec 4) (space : ℕ) (e : ℕ) (w : List Word) (s : State) : (tableFwd k space e w s).members = s.members := (tableFwd_kept k space e w s).2.2.2.2.2.2.2.2.2.2.2.2.2.2.2.1
@[simp] theorem tableFwd_arrs (k : BitVec 4) (space : ℕ) (e : ℕ) (w : List Word) (s : State) : (tableFwd k space e w s).arrs = s.arrs := (tableFwd_kept k space e w s).2.2.2.2.2.2.2.2.2.2.2.2.2.2.2.2.1
@[simp] theorem tableFwd_vols (k : BitVec 4) (space : ℕ) (e : ℕ) (w : List Word) (s : State) : (tableFwd k space e w s).vols = s.vols := (tableFwd_kept k space e w s).2.2.2.2.2.2.2.2.2.2.2.2.2.2.2.2.2.1
@[simp] theorem tableFwd_canvas (k : BitVec 4) (space : ℕ) (e : ℕ) (w : List Word) (s : State) : (tableFwd k space e w s).canvas = s.canvas := (tableFwd_kept k space e w s).2.2.2.2.2.2.2.2.2.2.2.2.2.2.2.2.2.2.1
@[simp] theorem tableFwd_skb (k : BitVec 4) (space : ℕ) (e : ℕ) (w : List Word) (s : State) : (tableFwd k space e w s).skb = s.skb := (tableFwd_kept k space e w s).2.2.2.2.2.2.2.2.2.2.2.2.2.2.2.2.2.2.2.1
@[simp] theorem tableFwd_studios (k : BitVec 4) (space : ℕ) (e : ℕ) (w : List Word) (s : State) : (tableFwd k space e w s).studios = s.studios := (tableFwd_kept k space e w s).2.2.2.2.2.2.2.2.2.2.2.2.2.2.2.2.2.2.2.2.1
@[simp] theorem tableFwd_referee (k : BitVec 4) (space : ℕ) (e : ℕ) (w : List Word) (s : State) : (tableFwd k space e w s).referee = s.referee := (tableFwd_kept k space e w s).2.2.2.2.2.2.2.2.2.2.2.2.2.2.2.2.2.2.2.2.2.1
@[simp] theorem tableFwd_roster (k : BitVec 4) (space : ℕ) (e : ℕ) (w : List Word) (s : State) : (tableFwd k space e w s).roster = s.roster := (tableFwd_kept k space e w s).2.2.2.2.2.2.2.2.2.2.2.2.2.2.2.2.2.2.2.2.2.2.1
@[simp] theorem tableFwd_regions (k : BitVec 4) (space : ℕ) (e : ℕ) (w : List Word) (s : State) : (tableFwd k space e w s).regions = s.regions := (tableFwd_kept k space e w s).2.2.2.2.2.2.2.2.2.2.2.2.2.2.2.2.2.2.2.2.2.2.2.1
@[simp] theorem tableFwd_palette (k : BitVec 4) (space : ℕ) (e : ℕ) (w : List Word) (s : State) : (tableFwd k space e w s).palette = s.palette := (tableFwd_kept k space e w s).2.2.2.2.2.2.2.2.2.2.2.2.2.2.2.2.2.2.2.2.2.2.2.2.1
@[simp] theorem tableFwd_freeCtr (k : BitVec 4) (space : ℕ) (e : ℕ) (w : List Word) (s : State) : (tableFwd k space e w s).freeCtr = s.freeCtr := (tableFwd_kept k space e w s).2.2.2.2.2.2.2.2.2.2.2.2.2.2.2.2.2.2.2.2.2.2.2.2.2
theorem refForward_kept (e : ℕ) (s : State) :
    (refForward e s).pending = s.pending ∧ (refForward e s).power = s.power ∧ (refForward e s).standby = s.standby ∧
    (refForward e s).clk = s.clk ∧ (refForward e s).restart = s.restart ∧ (refForward e s).ident = s.ident ∧
    (refForward e s).nv = s.nv ∧ (refForward e s).pathC = s.pathC ∧ (refForward e s).pathM = s.pathM ∧ (refForward e
    s).cport = s.cport ∧ (refForward e s).mgmt = s.mgmt ∧ (refForward e s).scratch = s.scratch ∧ (refForward e
    s).hbu = s.hbu ∧ (refForward e s).dma = s.dma ∧ (refForward e s).queues = s.queues ∧ (refForward e s).members =
    s.members ∧ (refForward e s).arrs = s.arrs ∧ (refForward e s).vols = s.vols ∧ (refForward e s).canvas = s.canvas
    ∧ (refForward e s).skb = s.skb ∧ (refForward e s).studios = s.studios ∧ (refForward e s).referee = s.referee ∧
    (refForward e s).roster = s.roster ∧ (refForward e s).regions = s.regions ∧ (refForward e s).palette = s.palette
    ∧ (refForward e s).freeCtr = s.freeCtr := by simp [refForward, foldl_pending, foldl_power, foldl_standby, foldl_clk, foldl_restart, foldl_ident, foldl_nv, foldl_pathC, foldl_pathM, foldl_cport, foldl_mgmt, foldl_scratch, foldl_hbu, foldl_dma, foldl_queues, foldl_members, foldl_arrs, foldl_vols, foldl_canvas, foldl_skb, foldl_studios, foldl_referee, foldl_roster, foldl_regions, foldl_palette, foldl_freeCtr]
@[simp] theorem refForward_pending (e : ℕ) (s : State) : (refForward e s).pending = s.pending := (refForward_kept e s).1
@[simp] theorem refForward_power (e : ℕ) (s : State) : (refForward e s).power = s.power := (refForward_kept e s).2.1
@[simp] theorem refForward_standby (e : ℕ) (s : State) : (refForward e s).standby = s.standby := (refForward_kept e s).2.2.1
@[simp] theorem refForward_clk (e : ℕ) (s : State) : (refForward e s).clk = s.clk := (refForward_kept e s).2.2.2.1
@[simp] theorem refForward_restart (e : ℕ) (s : State) : (refForward e s).restart = s.restart := (refForward_kept e s).2.2.2.2.1
@[simp] theorem refForward_ident (e : ℕ) (s : State) : (refForward e s).ident = s.ident := (refForward_kept e s).2.2.2.2.2.1
@[simp] theorem refForward_nv (e : ℕ) (s : State) : (refForward e s).nv = s.nv := (refForward_kept e s).2.2.2.2.2.2.1
@[simp] theorem refForward_pathC (e : ℕ) (s : State) : (refForward e s).pathC = s.pathC := (refForward_kept e s).2.2.2.2.2.2.2.1
@[simp] theorem refForward_pathM (e : ℕ) (s : State) : (refForward e s).pathM = s.pathM := (refForward_kept e s).2.2.2.2.2.2.2.2.1
@[simp] theorem refForward_cport (e : ℕ) (s : State) : (refForward e s).cport = s.cport := (refForward_kept e s).2.2.2.2.2.2.2.2.2.1
@[simp] theorem refForward_mgmt (e : ℕ) (s : State) : (refForward e s).mgmt = s.mgmt := (refForward_kept e s).2.2.2.2.2.2.2.2.2.2.1
@[simp] theorem refForward_scratch (e : ℕ) (s : State) : (refForward e s).scratch = s.scratch := (refForward_kept e s).2.2.2.2.2.2.2.2.2.2.2.1
@[simp] theorem refForward_hbu (e : ℕ) (s : State) : (refForward e s).hbu = s.hbu := (refForward_kept e s).2.2.2.2.2.2.2.2.2.2.2.2.1
@[simp] theorem refForward_dma (e : ℕ) (s : State) : (refForward e s).dma = s.dma := (refForward_kept e s).2.2.2.2.2.2.2.2.2.2.2.2.2.1
@[simp] theorem refForward_queues (e : ℕ) (s : State) : (refForward e s).queues = s.queues := (refForward_kept e s).2.2.2.2.2.2.2.2.2.2.2.2.2.2.1
@[simp] theorem refForward_members (e : ℕ) (s : State) : (refForward e s).members = s.members := (refForward_kept e s).2.2.2.2.2.2.2.2.2.2.2.2.2.2.2.1
@[simp] theorem refForward_arrs (e : ℕ) (s : State) : (refForward e s).arrs = s.arrs := (refForward_kept e s).2.2.2.2.2.2.2.2.2.2.2.2.2.2.2.2.1
@[simp] theorem refForward_vols (e : ℕ) (s : State) : (refForward e s).vols = s.vols := (refForward_kept e s).2.2.2.2.2.2.2.2.2.2.2.2.2.2.2.2.2.1
@[simp] theorem refForward_canvas (e : ℕ) (s : State) : (refForward e s).canvas = s.canvas := (refForward_kept e s).2.2.2.2.2.2.2.2.2.2.2.2.2.2.2.2.2.2.1
@[simp] theorem refForward_skb (e : ℕ) (s : State) : (refForward e s).skb = s.skb := (refForward_kept e s).2.2.2.2.2.2.2.2.2.2.2.2.2.2.2.2.2.2.2.1
@[simp] theorem refForward_studios (e : ℕ) (s : State) : (refForward e s).studios = s.studios := (refForward_kept e s).2.2.2.2.2.2.2.2.2.2.2.2.2.2.2.2.2.2.2.2.1
@[simp] theorem refForward_referee (e : ℕ) (s : State) : (refForward e s).referee = s.referee := (refForward_kept e s).2.2.2.2.2.2.2.2.2.2.2.2.2.2.2.2.2.2.2.2.2.1
@[simp] theorem refForward_roster (e : ℕ) (s : State) : (refForward e s).roster = s.roster := (refForward_kept e s).2.2.2.2.2.2.2.2.2.2.2.2.2.2.2.2.2.2.2.2.2.2.1
@[simp] theorem refForward_regions (e : ℕ) (s : State) : (refForward e s).regions = s.regions := (refForward_kept e s).2.2.2.2.2.2.2.2.2.2.2.2.2.2.2.2.2.2.2.2.2.2.2.1
@[simp] theorem refForward_palette (e : ℕ) (s : State) : (refForward e s).palette = s.palette := (refForward_kept e s).2.2.2.2.2.2.2.2.2.2.2.2.2.2.2.2.2.2.2.2.2.2.2.2.1
@[simp] theorem refForward_freeCtr (e : ℕ) (s : State) : (refForward e s).freeCtr = s.freeCtr := (refForward_kept e s).2.2.2.2.2.2.2.2.2.2.2.2.2.2.2.2.2.2.2.2.2.2.2.2.2
theorem tblResult_kept (p : Path) (r : Byte) (d : Byte) (s : State) :
    (tblResult p r d s).pending = s.pending ∧ (tblResult p r d s).power = s.power ∧ (tblResult p r d s).standby =
    s.standby ∧ (tblResult p r d s).clk = s.clk ∧ (tblResult p r d s).restart = s.restart ∧ (tblResult p r d
    s).ident = s.ident ∧ (tblResult p r d s).nv = s.nv ∧ (tblResult p r d s).log = s.log ∧ (tblResult p r d s).cport
    = s.cport ∧ (tblResult p r d s).mgmt = s.mgmt ∧ (tblResult p r d s).scratch = s.scratch ∧ (tblResult p r d
    s).hbu = s.hbu ∧ (tblResult p r d s).ledger = s.ledger ∧ (tblResult p r d s).dma = s.dma ∧ (tblResult p r d
    s).queues = s.queues ∧ (tblResult p r d s).members = s.members ∧ (tblResult p r d s).arrs = s.arrs ∧ (tblResult
    p r d s).vols = s.vols ∧ (tblResult p r d s).canvas = s.canvas ∧ (tblResult p r d s).skb = s.skb ∧ (tblResult p
    r d s).studios = s.studios ∧ (tblResult p r d s).referee = s.referee ∧ (tblResult p r d s).roster = s.roster ∧
    (tblResult p r d s).regions = s.regions ∧ (tblResult p r d s).ring = s.ring ∧ (tblResult p r d s).palette =
    s.palette ∧ (tblResult p r d s).freeCtr = s.freeCtr := by cases p <;> simp [tblResult]
@[simp] theorem tblResult_pending (p : Path) (r : Byte) (d : Byte) (s : State) : (tblResult p r d s).pending = s.pending := (tblResult_kept p r d s).1
@[simp] theorem tblResult_power (p : Path) (r : Byte) (d : Byte) (s : State) : (tblResult p r d s).power = s.power := (tblResult_kept p r d s).2.1
@[simp] theorem tblResult_standby (p : Path) (r : Byte) (d : Byte) (s : State) : (tblResult p r d s).standby = s.standby := (tblResult_kept p r d s).2.2.1
@[simp] theorem tblResult_clk (p : Path) (r : Byte) (d : Byte) (s : State) : (tblResult p r d s).clk = s.clk := (tblResult_kept p r d s).2.2.2.1
@[simp] theorem tblResult_restart (p : Path) (r : Byte) (d : Byte) (s : State) : (tblResult p r d s).restart = s.restart := (tblResult_kept p r d s).2.2.2.2.1
@[simp] theorem tblResult_ident (p : Path) (r : Byte) (d : Byte) (s : State) : (tblResult p r d s).ident = s.ident := (tblResult_kept p r d s).2.2.2.2.2.1
@[simp] theorem tblResult_nv (p : Path) (r : Byte) (d : Byte) (s : State) : (tblResult p r d s).nv = s.nv := (tblResult_kept p r d s).2.2.2.2.2.2.1
@[simp] theorem tblResult_log (p : Path) (r : Byte) (d : Byte) (s : State) : (tblResult p r d s).log = s.log := (tblResult_kept p r d s).2.2.2.2.2.2.2.1
@[simp] theorem tblResult_cport (p : Path) (r : Byte) (d : Byte) (s : State) : (tblResult p r d s).cport = s.cport := (tblResult_kept p r d s).2.2.2.2.2.2.2.2.1
@[simp] theorem tblResult_mgmt (p : Path) (r : Byte) (d : Byte) (s : State) : (tblResult p r d s).mgmt = s.mgmt := (tblResult_kept p r d s).2.2.2.2.2.2.2.2.2.1
@[simp] theorem tblResult_scratch (p : Path) (r : Byte) (d : Byte) (s : State) : (tblResult p r d s).scratch = s.scratch := (tblResult_kept p r d s).2.2.2.2.2.2.2.2.2.2.1
@[simp] theorem tblResult_hbu (p : Path) (r : Byte) (d : Byte) (s : State) : (tblResult p r d s).hbu = s.hbu := (tblResult_kept p r d s).2.2.2.2.2.2.2.2.2.2.2.1
@[simp] theorem tblResult_ledger (p : Path) (r : Byte) (d : Byte) (s : State) : (tblResult p r d s).ledger = s.ledger := (tblResult_kept p r d s).2.2.2.2.2.2.2.2.2.2.2.2.1
@[simp] theorem tblResult_dma (p : Path) (r : Byte) (d : Byte) (s : State) : (tblResult p r d s).dma = s.dma := (tblResult_kept p r d s).2.2.2.2.2.2.2.2.2.2.2.2.2.1
@[simp] theorem tblResult_queues (p : Path) (r : Byte) (d : Byte) (s : State) : (tblResult p r d s).queues = s.queues := (tblResult_kept p r d s).2.2.2.2.2.2.2.2.2.2.2.2.2.2.1
@[simp] theorem tblResult_members (p : Path) (r : Byte) (d : Byte) (s : State) : (tblResult p r d s).members = s.members := (tblResult_kept p r d s).2.2.2.2.2.2.2.2.2.2.2.2.2.2.2.1
@[simp] theorem tblResult_arrs (p : Path) (r : Byte) (d : Byte) (s : State) : (tblResult p r d s).arrs = s.arrs := (tblResult_kept p r d s).2.2.2.2.2.2.2.2.2.2.2.2.2.2.2.2.1
@[simp] theorem tblResult_vols (p : Path) (r : Byte) (d : Byte) (s : State) : (tblResult p r d s).vols = s.vols := (tblResult_kept p r d s).2.2.2.2.2.2.2.2.2.2.2.2.2.2.2.2.2.1
@[simp] theorem tblResult_canvas (p : Path) (r : Byte) (d : Byte) (s : State) : (tblResult p r d s).canvas = s.canvas := (tblResult_kept p r d s).2.2.2.2.2.2.2.2.2.2.2.2.2.2.2.2.2.2.1
@[simp] theorem tblResult_skb (p : Path) (r : Byte) (d : Byte) (s : State) : (tblResult p r d s).skb = s.skb := (tblResult_kept p r d s).2.2.2.2.2.2.2.2.2.2.2.2.2.2.2.2.2.2.2.1
@[simp] theorem tblResult_studios (p : Path) (r : Byte) (d : Byte) (s : State) : (tblResult p r d s).studios = s.studios := (tblResult_kept p r d s).2.2.2.2.2.2.2.2.2.2.2.2.2.2.2.2.2.2.2.2.1
@[simp] theorem tblResult_referee (p : Path) (r : Byte) (d : Byte) (s : State) : (tblResult p r d s).referee = s.referee := (tblResult_kept p r d s).2.2.2.2.2.2.2.2.2.2.2.2.2.2.2.2.2.2.2.2.2.1
@[simp] theorem tblResult_roster (p : Path) (r : Byte) (d : Byte) (s : State) : (tblResult p r d s).roster = s.roster := (tblResult_kept p r d s).2.2.2.2.2.2.2.2.2.2.2.2.2.2.2.2.2.2.2.2.2.2.1
@[simp] theorem tblResult_regions (p : Path) (r : Byte) (d : Byte) (s : State) : (tblResult p r d s).regions = s.regions := (tblResult_kept p r d s).2.2.2.2.2.2.2.2.2.2.2.2.2.2.2.2.2.2.2.2.2.2.2.1
@[simp] theorem tblResult_ring (p : Path) (r : Byte) (d : Byte) (s : State) : (tblResult p r d s).ring = s.ring := (tblResult_kept p r d s).2.2.2.2.2.2.2.2.2.2.2.2.2.2.2.2.2.2.2.2.2.2.2.2.1
@[simp] theorem tblResult_palette (p : Path) (r : Byte) (d : Byte) (s : State) : (tblResult p r d s).palette = s.palette := (tblResult_kept p r d s).2.2.2.2.2.2.2.2.2.2.2.2.2.2.2.2.2.2.2.2.2.2.2.2.2.1
@[simp] theorem tblResult_freeCtr (p : Path) (r : Byte) (d : Byte) (s : State) : (tblResult p r d s).freeCtr = s.freeCtr := (tblResult_kept p r d s).2.2.2.2.2.2.2.2.2.2.2.2.2.2.2.2.2.2.2.2.2.2.2.2.2.2

end Frames

end Sys2Proof.Machine
end

