-- ==== Sys2Proof/Laws/Log.lean ====
section
/-! SUPPORT. Recording a condition (R558 to R566): what it counts, what enters the log, and what it leaves of the ring ports. -/

namespace Sys2Proof.Machine

theorem counterGet_counterInc (e k : Nat) (s : State) :
    counterGet k (counterInc e s) = if e = k then ctrInc (counterGet e s) else counterGet k s := by
  simp only [counterGet, counterInc, kget_kput]
  split <;> rfl

@[simp] theorem counterGet_counterInc_same (e : Nat) (s : State) :
    counterGet e (counterInc e s) = ctrInc (counterGet e s) := by
  simp only [counterGet_counterInc, if_true]

@[simp] theorem counterGet_irqSet (k b : Nat) (s : State) : counterGet k (irqSet b s) = counterGet k s := rfl

/-- A COUNTERS entry is read from the counters alone. -/
theorem counterGet_congr {s t : State} (h : t.log.counters = s.log.counters) (k : Nat) : counterGet k t = counterGet k s := by
  simp only [counterGet, h]

@[simp] theorem logSums_counters (code : Byte) (cls : LogClass) (bb : Bool) (st : Option (Fin 8)) (s : State) :
    (logSums code cls bb st s).log.counters = s.log.counters := by
  simp only [logSums, irqSet]; (repeat' split) <;> rfl

@[simp] theorem logSums_recs (code : Byte) (cls : LogClass) (bb : Bool) (st : Option (Fin 8)) (s : State) :
    (logSums code cls bb st s).log.recs = s.log.recs := by
  simp only [logSums, irqSet]; (repeat' split) <;> rfl

@[simp] theorem logSums_seqNext (code : Byte) (cls : LogClass) (bb : Bool) (st : Option (Fin 8)) (s : State) :
    (logSums code cls bb st s).log.seqNext = s.log.seqNext := by
  simp only [logSums, irqSet]; (repeat' split) <;> rfl

@[simp] theorem logSums_thisTick (code : Byte) (cls : LogClass) (bb : Bool) (st : Option (Fin 8)) (s : State) :
    (logSums code cls bb st s).log.thisTick = s.log.thisTick := by
  simp only [logSums, irqSet]; (repeat' split) <;> rfl

@[simp] theorem logPush_counters (r : LogRec) (l : Log) : (logPush r l).counters = l.counters := by
  simp only [logPush]; split <;> rfl

@[simp] theorem logPush_seqNext (r : LogRec) (l : Log) : (logPush r l).seqNext = l.seqNext + 1 := by
  simp only [logPush]; split <;> rfl

@[simp] theorem logPush_head (r : LogRec) (l : Log) : (logPush r l).recs.head? = some { r with seq := l.seqNext } := by
  simp only [logPush]; split <;> rfl

/-- A condition that R561 holds back is counted and nothing else. -/
theorem logAs_held (c : Code) (cls : LogClass) (st : Option (Fin 8)) (args : List Byte) (s : State)
    (h : (heldBack c.info.1 && s.log.thisTick.contains (BitVec.ofNat 8 c.info.1)) = true) :
    logAs c cls st args s = counterInc c.info.1 s := by
  have : (heldBack c.info.1 && (counterInc c.info.1 s).log.thisTick.contains (BitVec.ofNat 8 c.info.1)) = true := h
  simp only [logAs, this, if_true]

/-- Every occurrence of a code is counted (R565); entry 0 counts the records logged. -/
theorem counterGet_logAs (c : Code) (cls : LogClass) (st : Option (Fin 8)) (args : List Byte) (s : State) (k : Nat) (hk : k ≠ 0) :
    counterGet k (logAs c cls st args s) = if c.info.1 = k then ctrInc (counterGet k s) else counterGet k s := by
  simp only [logAs]
  split
  · rw [counterGet_counterInc]; split
    · subst_vars; rfl
    · rfl
  · rw [counterGet_congr (s := counterInc 0 (counterInc c.info.1 s)), counterGet_counterInc, if_neg (Ne.symm hk),
      counterGet_counterInc]
    · split
      · subst_vars; rfl
      · rfl
    · rw [logSums_counters]; split <;> simp

/-- No code is 0. -/
theorem Code.info_ne_zero (c : Code) : c.info.1 ≠ 0 := by cases c <;> decide

theorem counterGet_logRec (c : Code) (args : List Byte) (s : State) (k : Nat) (hk : k ≠ 0) :
    counterGet k (logRec c args s) = if c.info.1 = k then ctrInc (counterGet k s) else counterGet k s :=
  counterGet_logAs c _ _ _ s k hk

/-! ## What a record leaves of the ring ports -/

@[simp] theorem logForward_link (fb : Bool) (r : LogRec) (s : State) :
    (rport fb (logForward r s)).link = (rport fb s).link := by
  cases fb <;> simp only [logForward, rport] <;> (repeat' split) <;> simp_all

/-- What a record does to the ring interface: nothing, or one forwarded copy. -/
theorem logAs_ring (c : Code) (cls : LogClass) (st : Option (Fin 8)) (args : List Byte) (s : State) :
    (logAs c cls st args s).ring = s.ring ∨
      ∃ r u, u.ring = s.ring ∧ (logAs c cls st args s).ring = (logForward r u).ring := by
  simp only [logAs]
  split
  · exact .inl rfl
  · let r : LogRec :=
      ⟨BitVec.ofNat 8 c.info.1, cls, c.info.2.2, s.ident.node, s.log.seqNext, s.clk.tick.truncate 32, args⟩
    refine .inr ⟨r, counterInc 0 (counterInc c.info.1 s), rfl, ?_⟩
    rw [logSums_ring]
    split <;> rfl

@[simp] theorem logAs_link (fb : Bool) (c : Code) (cls : LogClass) (st : Option (Fin 8)) (args : List Byte) (s : State) :
    (rport fb (logAs c cls st args s)).link = (rport fb s).link := by
  rcases logAs_ring c cls st args s with h | ⟨r, u, hu, h⟩
  · simp only [rport, h]
  · have := logForward_link fb r u
    simp only [rport] at this ⊢
    rw [h, this, hu]

@[simp] theorem logRec_link (fb : Bool) (c : Code) (args : List Byte) (s : State) :
    (rport fb (logRec c args s)).link = (rport fb s).link := logAs_link fb c _ _ _ s

end Sys2Proof.Machine
end

