-- ==== Sys2Proof/WellFormed.lean ====
section
/-! DEFINITION. Which commands spell an input of their row. Every operand type admits only values that the outside world
can supply, but for a CPORT frame: its row is fixed by its OPCODE byte (R139), and the NOP row also takes every frame
whose OPCODE the part does not define, since such a frame too is complete and is answered (R143). -/

namespace Sys2Proof

/-- OPCODE of a frame: byte 0 (R139). -/
def Frame.opcode (f : Frame) : Byte := f.bytes.get 0

/-- The frame that a command carries, where it is one of the four CPORT rows. -/
def Instr.frame : Instr → Option Frame
  | .cportNop f | .cportRead f | .cportWrite f | .cportWhistle f => some f
  | _ => none

/-- A command is well-formed: a frame's OPCODE byte is its row's. -/
def Instr.wellFormed : Instr → Bool
  | .cportNop f => f.opcode != 0xC1 && f.opcode != 0xC2 && f.opcode != 0xC4
  | .cportRead f => f.opcode == 0xC2
  | .cportWrite f => f.opcode == 0xC1
  | .cportWhistle f => f.opcode == 0xC4
  | _ => true

end Sys2Proof
end

