-- ==== Sys2Proof/Laws/PerInstr.lean ====
section
/-! SUPPORT. One lemma per command about the command as syntax: a command that carries no CPORT frame is well-formed. -/

namespace Sys2Proof.Laws.Formed

/-- A command that is no CPORT frame is an input of its row whatever its operands are. -/
def Statement (i : Instr) : Prop := i.frame = none → i.wellFormed = true

section PerCommand

set_option Elab.async false

theorem powerOn (sup : Supplies) (vstby : Bool) : Statement (.powerOn sup vstby) := fun _ => rfl
theorem powerGoodMet (sup : Supplies) : Statement (.powerGoodMet sup) := fun _ => rfl
theorem resetEnd (straps : Straps) : Statement (.resetEnd straps) := fun _ => rfl
theorem resetNLow (cut : ProgEnd) : Statement (.resetNLow cut) := fun _ => rfl
theorem powerFailTrip (src : TripSrc) (sup : Supplies) (cut : ProgEnd) : Statement (.powerFailTrip src sup cut) := fun _ => rfl
theorem xinLoss (cut : ProgEnd) : Statement (.xinLoss cut) := fun _ => rfl
theorem bankAbsent (b : Bank) (cut : ProgEnd) : Statement (.bankAbsent b cut) := fun _ => rfl
theorem pllLock (ticks : Byte) : Statement (.pllLock ticks) := fun _ => rfl
theorem pllLockLoss (elapsed : Nat) (cut : ProgEnd) : Statement (.pllLockLoss elapsed cut) := fun _ => rfl
theorem pllLockRetry : Statement .pllLockRetry := fun _ => rfl
theorem selfChecksDone (skb canvas : Option Word) : Statement (.selfChecksDone skb canvas) := fun _ => rfl
theorem discoveryDeadline : Statement .discoveryDeadline := fun _ => rfl
theorem assembly (a : Fin 4) : Statement (.assembly a) := fun _ => rfl
theorem replayStripe (a : Fin 4) (stripe : Nat) : Statement (.replayStripe a stripe) := fun _ => rfl
theorem level1Entry (tier2 : Option (Half × Half)) : Statement (.level1Entry tier2) := fun _ => rfl
theorem level2Entry (fail : Option (Fin 3 × Word)) : Statement (.level2Entry fail) := fun _ => rfl
theorem ctrlRst (p : Path) : Statement (.ctrlRst p) := fun _ => rfl
theorem controlResetStart (cut : ProgEnd) : Statement (.controlResetStart cut) := fun _ => rfl
theorem portRst (p : Path) (mask : Byte) : Statement (.portRst p mask) := fun _ => rfl
theorem portResetLost (p : Fin 8) : Statement (.portResetLost p) := fun _ => rfl
theorem nvClear (p : Path) : Statement (.nvClear p) := fun _ => rfl
theorem reqRun (p : Path) : Statement (.reqRun p) := fun _ => rfl
theorem reqNap (p : Path) : Statement (.reqNap p) := fun _ => rfl
theorem reqDoze (p : Path) : Statement (.reqDoze p) := fun _ => rfl
theorem reqStandby (p : Path) : Statement (.reqStandby p) := fun _ => rfl
theorem vpfSelWrite (p : Path) (code : BitVec 3) : Statement (.vpfSelWrite p code) := fun _ => rfl
theorem autoNapExpiry : Statement .autoNapExpiry := fun _ => rfl
theorem napCommit : Statement .napCommit := fun _ => rfl
theorem dozeCommit (elapsed : Nat) : Statement (.dozeCommit elapsed) := fun _ => rfl
theorem standbyCommit : Statement .standbyCommit := fun _ => rfl
theorem wakeNAsserted : Statement .wakeNAsserted := fun _ => rfl
theorem wakeTimerExpiry : Statement .wakeTimerExpiry := fun _ => rfl
theorem standbyExitTimeout : Statement .standbyExitTimeout := fun _ => rfl
theorem dozeRelockTimeout : Statement .dozeRelockTimeout := fun _ => rfl
theorem powerOrderTimeout (node : BitVec 4) : Statement (.powerOrderTimeout node) := fun _ => rfl
theorem forwardedClockWake : Statement .forwardedClockWake := fun _ => rfl
theorem pllStart (p : Path) : Statement (.pllStart p) := fun _ => rfl
theorem pllStop (p : Path) : Statement (.pllStop p) := fun _ => rfl
theorem xclkSelChange : Statement .xclkSelChange := fun _ => rfl
theorem tickStep (pins : PinLevels) : Statement (.tickStep pins) := fun _ => rfl
theorem tickLoRead (p : Path) (l : Lanes) : Statement (.tickLoRead p l) := fun _ => rfl
theorem strapCheck (levels : Straps) : Statement (.strapCheck levels) := fun _ => rfl
theorem cportNop (f : Frame) : Statement (.cportNop f) := fun h => nomatch h
theorem cportRead (f : Frame) : Statement (.cportRead f) := fun h => nomatch h
theorem cportWrite (f : Frame) : Statement (.cportWrite f) := fun h => nomatch h
theorem cportWhistle (f : Frame) : Statement (.cportWhistle f) := fun h => nomatch h
theorem cportRunt : Statement .cportRunt := fun _ => rfl
theorem whistleDrainEnd : Statement .whistleDrainEnd := fun _ => rfl
theorem armWrite (p : Path) (value : Word) : Statement (.armWrite p value) := fun _ => rfl
theorem armTimeout (p : Path) : Statement (.armTimeout p) := fun _ => rfl
theorem registerWrite (p : Path) (off : BitVec 16) (l : Lanes) (w : Word) : Statement (.registerWrite p off l w) := fun _ => rfl
theorem tblSelWrite (p : Path) (w : Word) : Statement (.tblSelWrite p w) := fun _ => rfl
theorem tblDataRead (p : Path) (l : Lanes) : Statement (.tblDataRead p l) := fun _ => rfl
theorem tblDataStage (p : Path) (w : Word) : Statement (.tblDataStage p w) := fun _ => rfl
theorem memberCommit (p : Path) (w : Word) : Statement (.memberCommit p w) := fun _ => rfl
theorem arrayCommit (p : Path) (w : Word) : Statement (.arrayCommit p w) := fun _ => rfl
theorem volumeCommit (p : Path) (w : Word) : Statement (.volumeCommit p w) := fun _ => rfl
theorem studioCommit (p : Path) (w : Word) : Statement (.studioCommit p w) := fun _ => rfl
theorem queueCommit (p : Path) (w : Word) : Statement (.queueCommit p w) := fun _ => rfl
theorem dmaChanCommit (p : Path) (w : Word) : Statement (.dmaChanCommit p w) := fun _ => rfl
theorem layerStart (p : Path) (w : Word) : Statement (.layerStart p w) := fun _ => rfl
theorem layerStop (p : Path) (w : Word) : Statement (.layerStop p w) := fun _ => rfl
theorem layerCommit (p : Path) (w : Word) : Statement (.layerCommit p w) := fun _ => rfl
theorem busCommit (p : Path) (w : Word) : Statement (.busCommit p w) := fun _ => rfl
theorem auportCommit (p : Path) (w : Word) : Statement (.auportCommit p w) := fun _ => rfl
theorem refereeCommit (p : Path) (w : Word) : Statement (.refereeCommit p w) := fun _ => rfl
theorem hostRegionCommit (p : Path) (w : Word) : Statement (.hostRegionCommit p w) := fun _ => rfl
theorem roSpaceCommit (p : Path) (w : Word) : Statement (.roSpaceCommit p w) := fun _ => rfl
theorem nvCommitDone (ok : Bool) : Statement (.nvCommitDone ok) := fun _ => rfl
theorem arrayArgWrite (p : Path) (l : Lanes) (w : Word) : Statement (.arrayArgWrite p l w) := fun _ => rfl
theorem assemble (p : Path) : Statement (.assemble p) := fun _ => rfl
theorem forceAssemble (p : Path) : Statement (.forceAssemble p) := fun _ => rfl
theorem createArray (p : Path) : Statement (.createArray p) := fun _ => rfl
theorem deleteArray (p : Path) : Statement (.deleteArray p) := fun _ => rfl
theorem createVolume (p : Path) : Statement (.createVolume p) := fun _ => rfl
theorem deleteVolume (p : Path) : Statement (.deleteVolume p) := fun _ => rfl
theorem setOwner (p : Path) : Statement (.setOwner p) := fun _ => rfl
theorem addBench (p : Path) : Statement (.addBench p) := fun _ => rfl
theorem removeBench (p : Path) : Statement (.removeBench p) := fun _ => rfl
theorem retireMember (p : Path) : Statement (.retireMember p) := fun _ => rfl
theorem startRestoration (p : Path) : Statement (.startRestoration p) := fun _ => rfl
theorem copyBack (p : Path) : Statement (.copyBack p) := fun _ => rfl
theorem startInspection (p : Path) : Statement (.startInspection p) := fun _ => rfl
theorem startRepaint (p : Path) : Statement (.startRepaint p) := fun _ => rfl
theorem abortRepaint (p : Path) : Statement (.abortRepaint p) := fun _ => rfl
theorem pauseBackground (p : Path) : Statement (.pauseBackground p) := fun _ => rfl
theorem resumeBackground (p : Path) : Statement (.resumeBackground p) := fun _ => rfl
theorem stopArray (p : Path) : Statement (.stopArray p) := fun _ => rfl
theorem arrayCmdBadCode (p : Path) (code : Byte) : Statement (.arrayCmdBadCode p code) := fun _ => rfl
theorem mgmtCommandDone (timeout : Option (BitVec 4)) : Statement (.mgmtCommandDone timeout) := fun _ => rfl
theorem studioReset (mask : Byte) : Statement (.studioReset mask) := fun _ => rfl
theorem studioResetEnd (st : Fin 8) : Statement (.studioResetEnd st) := fun _ => rfl
theorem studioDoneAck (mask : Byte) : Statement (.studioDoneAck mask) := fun _ => rfl
theorem flushAll : Statement .flushAll := fun _ => rfl
theorem skbCtrlWrite (lanes : Lanes) (data : Word) : Statement (.skbCtrlWrite lanes data) := fun _ => rfl
theorem dmaKick (mask : Half) : Statement (.dmaKick mask) := fun _ => rfl
theorem dmaGlobalPause : Statement .dmaGlobalPause := fun _ => rfl
theorem dmaGlobalResume : Statement .dmaGlobalResume := fun _ => rfl
theorem rollNow : Statement .rollNow := fun _ => rfl
theorem forget (entry : BitVec 4) : Statement (.forget entry) := fun _ => rfl
theorem adopt (entry : BitVec 4) (key : Half) : Statement (.adopt entry key) := fun _ => rfl
theorem ringPortEnable (fb : Bool) : Statement (.ringPortEnable fb) := fun _ => rfl
theorem ringPortDisable (fb : Bool) : Statement (.ringPortDisable fb) := fun _ => rfl
theorem paletteEnable (mclk : Bool) : Statement (.paletteEnable mclk) := fun _ => rfl
theorem paletteDisable (mclk : Bool) : Statement (.paletteDisable mclk) := fun _ => rfl
theorem portWake (port : Fin 3) : Statement (.portWake port) := fun _ => rfl
theorem logTailWrite (p : Path) (l : Lanes) (w : Word) : Statement (.logTailWrite p l w) := fun _ => rfl
theorem faultSumRead (p : Path) (l : Lanes) : Statement (.faultSumRead p l) := fun _ => rfl
theorem whistleRead (via : Option (Fin 8)) : Statement (.whistleRead via) := fun _ => rfl
theorem sIrqStatClear (st : Fin 8) (data : Word) : Statement (.sIrqStatClear st data) := fun _ => rfl
theorem targetRead (off : BitVec 16) (be : Lanes) (early : Bool) : Statement (.targetRead off be early) := fun _ => rfl
theorem targetWrite (off : BitVec 16) (be : Lanes) (data : Word) (early : Bool) : Statement (.targetWrite off be data early) := fun _ => rfl
theorem postedWriteApply (al : Fin 8) : Statement (.postedWriteApply al) := fun _ => rfl
theorem sqTailDoorbell (q : Fin 32) (data : Word) : Statement (.sqTailDoorbell q data) := fun _ => rfl
theorem cqHeadDoorbell (q : Fin 32) (data : Word) : Statement (.cqHeadDoorbell q data) := fun _ => rfl
theorem sqResumeNext (q : Fin 32) (slot : BitVec 10) : Statement (.sqResumeNext q slot) := fun _ => rfl
theorem sqResumeRetry (q : Fin 32) (slot : BitVec 10) : Statement (.sqResumeRetry q slot) := fun _ => rfl
theorem sqResumeDiscard (q : Fin 32) (slot : BitVec 10) : Statement (.sqResumeDiscard q slot) := fun _ => rfl
theorem pioPush (st : Fin 8) : Statement (.pioPush st) := fun _ => rfl
theorem pioPop (st : Fin 8) : Statement (.pioPop st) := fun _ => rfl
theorem pioWaitExpiry (st : Fin 8) : Statement (.pioWaitExpiry st) := fun _ => rfl
theorem busGranted : Statement .busGranted := fun _ => rfl
theorem grantWithdrawn : Statement .grantWithdrawn := fun _ => rfl
theorem masterCycle : Statement .masterCycle := fun _ => rfl
theorem rdyTimeout (c : Fin 16) (addr : BitVec 24) : Statement (.rdyTimeout c addr) := fun _ => rfl
theorem selfAccess (c : Fin 16) (addr : BitVec 24) : Statement (.selfAccess c addr) := fun _ => rfl
theorem gntTimeout : Statement .gntTimeout := fun _ => rfl
theorem releaseGapExpiry : Statement .releaseGapExpiry := fun _ => rfl
theorem dmaPlace : Statement .dmaPlace := fun _ => rfl
theorem dmaBurst (data : Vector Byte 64) : Statement (.dmaBurst data) := fun _ => rfl
theorem dmaPollTimer (c : Fin 16) : Statement (.dmaPollTimer c) := fun _ => rfl
theorem descriptorReadDone (c : Fin 16) (bytes : Vector Byte 64) : Statement (.descriptorReadDone c bytes) := fun _ => rfl
theorem listEntryRead (c : Fin 16) (dst : Bool) (bytes : Vector Byte 8) : Statement (.listEntryRead c dst bytes) := fun _ => rfl
theorem dmaCompletion (c : Fin 16) : Statement (.dmaCompletion c) := fun _ => rfl
theorem queuePick : Statement .queuePick := fun _ => rfl
theorem commandFetched (slot : Nat) : Statement (.commandFetched slot) := fun _ => rfl
theorem nop (slot : Nat) : Statement (.nop slot) := fun _ => rfl
theorem read (run : SlotRun) : Statement (.read run) := fun _ => rfl
theorem write (run : SlotRun) : Statement (.write run) := fun _ => rfl
theorem verify (slot : Nat) : Statement (.verify slot) := fun _ => rfl
theorem trim (slot : Nat) : Statement (.trim slot) := fun _ => rfl
theorem flush (slot : Nat) : Statement (.flush slot) := fun _ => rfl
theorem flushComplete (slot : Nat) : Statement (.flushComplete slot) := fun _ => rfl
theorem whistleCommand (slot : Nat) : Statement (.whistleCommand slot) := fun _ => rfl
theorem whistleComplete (slot : Nat) : Statement (.whistleComplete slot) := fun _ => rfl
theorem writePauseRelease (slot : Nat) : Statement (.writePauseRelease slot) := fun _ => rfl
theorem lockGrant : Statement .lockGrant := fun _ => rfl
theorem poolGrant (pool : Fin 20) : Statement (.poolGrant pool) := fun _ => rfl
theorem completionPost (slot : Nat) : Statement (.completionPost slot) := fun _ => rfl
theorem completionWriteFault (slot : Nat) (self : Bool) (addr : BitVec 24) : Statement (.completionWriteFault slot self addr) := fun _ => rfl
theorem coalesceTimerExpiry (st : Fin 8) : Statement (.coalesceTimerExpiry st) := fun _ => rfl
theorem cardInserted (p : Fin 8) : Statement (.cardInserted p) := fun _ => rfl
theorem cardRemoved (p : Fin 8) : Statement (.cardRemoved p) := fun _ => rfl
theorem signatureRead (p : Fin 8) (d : CardIdent) : Statement (.signatureRead p d) := fun _ => rfl
theorem identFailed (p : Fin 8) (unsupported : Bool) : Statement (.identFailed p unsupported) := fun _ => rfl
theorem signatureRefresh (m : Fin 128) : Statement (.signatureRefresh m) := fun _ => rfl
theorem memberOpIssue (p : Fin 8) : Statement (.memberOpIssue p) := fun _ => rfl
theorem memberOpDone (p : Fin 8) (r : OpResult) : Statement (.memberOpDone p r) := fun _ => rfl
theorem memberOpTimeout (p : Fin 8) (retuned : Tunes) : Statement (.memberOpTimeout p retuned) := fun _ => rfl
theorem refereeDecay : Statement .refereeDecay := fun _ => rfl
theorem pageProgramDone : Statement .pageProgramDone := fun _ => rfl
theorem recordSeal : Statement .recordSeal := fun _ => rfl
theorem retirement (slot : Nat) : Statement (.retirement slot) := fun _ => rfl
theorem trimDoneUpdate (slot : Nat) : Statement (.trimDoneUpdate slot) := fun _ => rfl
theorem flushAgeExpiry (a : Fin 4) (stripe : Nat) : Statement (.flushAgeExpiry a stripe) := fun _ => rfl
theorem flushStep (id : Nat) : Statement (.flushStep id) := fun _ => rfl
theorem trimStripeApply (slot : Nat) : Statement (.trimStripeApply slot) := fun _ => rfl
theorem tileMend : Statement .tileMend := fun _ => rfl
theorem restorationStep (a : Fin 4) : Statement (.restorationStep a) := fun _ => rfl
theorem restorationFinish (a : Fin 4) : Statement (.restorationFinish a) := fun _ => rfl
theorem copyBackStep (a : Fin 4) : Statement (.copyBackStep a) := fun _ => rfl
theorem copyBackFinish (a : Fin 4) : Statement (.copyBackFinish a) := fun _ => rfl
theorem inspectionStep (a : Fin 4) : Statement (.inspectionStep a) := fun _ => rfl
theorem inspectionFinish (a : Fin 4) : Statement (.inspectionFinish a) := fun _ => rfl
theorem backgroundCheckpoint (a : Fin 4) : Statement (.backgroundCheckpoint a) := fun _ => rfl
theorem repaintCopyStep (a : Fin 4) : Statement (.repaintCopyStep a) := fun _ => rfl
theorem watermarkCommit (a : Fin 4) : Statement (.watermarkCommit a) := fun _ => rfl
theorem cutover (a : Fin 4) : Statement (.cutover a) := fun _ => rfl
theorem returnStep (a : Fin 4) : Statement (.returnStep a) := fun _ => rfl
theorem returnEnd (a : Fin 4) : Statement (.returnEnd a) := fun _ => rfl
theorem ledgerAudit : Statement .ledgerAudit := fun _ => rfl
theorem ctrlParity (unit : Byte) (address : Word) : Statement (.ctrlParity unit address) := fun _ => rfl
theorem tier2TransferDone : Statement .tier2TransferDone := fun _ => rfl
theorem tier2DqsTimeout : Statement .tier2DqsTimeout := fun _ => rfl
theorem tier2CheckRead (reg0 : Option Half) : Statement (.tier2CheckRead reg0) := fun _ => rfl
theorem linkTrainingStart (fb : Bool) : Statement (.linkTrainingStart fb) := fun _ => rfl
theorem forwardedClockSeen (fb : Bool) : Statement (.forwardedClockSeen fb) := fun _ => rfl
theorem trainingComplete (fb : Bool) : Statement (.trainingComplete fb) := fun _ => rfl
theorem trainingTimeout (fb : Bool) : Statement (.trainingTimeout fb) := fun _ => rfl
theorem linkBreak (fb : Bool) : Statement (.linkBreak fb) := fun _ => rfl
theorem brokenHoldExpiry (fb : Bool) : Statement (.brokenHoldExpiry fb) := fun _ => rfl
theorem linkFlit (fb : Bool) (payload : Dword) : Statement (.linkFlit fb payload) := fun _ => rfl
theorem linkFlitTimer (fb : Bool) : Statement (.linkFlitTimer fb) := fun _ => rfl
theorem packetReceiveError (fb crc : Bool) : Statement (.packetReceiveError fb crc) := fun _ => rfl
theorem resendTimeout (fb : Bool) : Statement (.resendTimeout fb) := fun _ => rfl
theorem packetForward (fb : Bool) (kind : Byte) (p : Pkt) : Statement (.packetForward fb kind p) := fun _ => rfl
theorem rollCallStart : Statement .rollCallStart := fun _ => rfl
theorem rollCall (fb : Bool) (p : Pkt) : Statement (.rollCall fb p) := fun _ => rfl
theorem rollAnswer (fb : Bool) (p : Pkt) (rtt : Half) : Statement (.rollAnswer fb p rtt) := fun _ => rfl
theorem rollCallCollectEnd : Statement .rollCallCollectEnd := fun _ => rfl
theorem rollAssign (fb : Bool) (p : Pkt) : Statement (.rollAssign fb p) := fun _ => rfl
theorem rollAck (fb : Bool) (p : Pkt) : Statement (.rollAck fb p) := fun _ => rfl
theorem rollDone (fb : Bool) (p : Pkt) : Statement (.rollDone fb p) := fun _ => rfl
theorem linkNote (fb : Bool) (p : Pkt) : Statement (.linkNote fb p) := fun _ => rfl
theorem ping (fb : Bool) (p : Pkt) : Statement (.ping fb p) := fun _ => rfl
theorem pong (fb : Bool) (p : Pkt) : Statement (.pong fb p) := fun _ => rfl
theorem requestTimeout (k : BitVec 4) (tag : Byte) : Statement (.requestTimeout k tag) := fun _ => rfl
theorem pingTimeout (k : BitVec 4) (tag : Byte) : Statement (.pingTimeout k tag) := fun _ => rfl
theorem tableFwd (fb : Bool) (p : Pkt) : Statement (.tableFwd fb p) := fun _ => rfl
theorem memberReport (fb : Bool) (p : Pkt) : Statement (.memberReport fb p) := fun _ => rfl
theorem memberReportTimer : Statement .memberReportTimer := fun _ => rfl
theorem memberSet (fb : Bool) (p : Pkt) : Statement (.memberSet fb p) := fun _ => rfl
theorem powerOrder (fb : Bool) (p : Pkt) : Statement (.powerOrder fb p) := fun _ => rfl
theorem powerAck (fb : Bool) (p : Pkt) : Statement (.powerAck fb p) := fun _ => rfl
theorem logFwd (fb : Bool) (p : Pkt) : Statement (.logFwd fb p) := fun _ => rfl
theorem mread (fb : Bool) (p : Pkt) : Statement (.mread fb p) := fun _ => rfl
theorem mreadData (fb : Bool) (p : Pkt) : Statement (.mreadData fb p) := fun _ => rfl
theorem mwrite (fb : Bool) (p : Pkt) : Statement (.mwrite fb p) := fun _ => rfl
theorem mwriteData (fb : Bool) (p : Pkt) : Statement (.mwriteData fb p) := fun _ => rfl
theorem merase (fb : Bool) (p : Pkt) : Statement (.merase fb p) := fun _ => rfl
theorem psumReq (fb : Bool) (p : Pkt) : Statement (.psumReq fb p) := fun _ => rfl
theorem psumData (fb : Bool) (p : Pkt) : Statement (.psumData fb p) := fun _ => rfl
theorem opDone (fb : Bool) (p : Pkt) : Statement (.opDone fb p) := fun _ => rfl
theorem frameBoundary (au2 : Vector (Vector Word 8) 32) : Statement (.frameBoundary au2) := fun _ => rfl
theorem streamTileArrived (layer : Fin 32) (n : Nat) : Statement (.streamTileArrived layer n) := fun _ => rfl
theorem hostRefillDone (layer : Fin 32) : Statement (.hostRefillDone layer) := fun _ => rfl
theorem supplyBelowResetLevel (vstby : Bool) (sup : Supplies) (cut : ProgEnd) : Statement (.supplyBelowResetLevel vstby sup cut) := fun _ => rfl
theorem powerGoodCountRestart (sup : Supplies) : Statement (.powerGoodCountRestart sup) := fun _ => rfl
theorem bankReturn (b : Bank) : Statement (.bankReturn b) := fun _ => rfl

end PerCommand

end Sys2Proof.Laws.Formed
end

