-- ==== Sys2Proof/Laws/Ring.lean ====
section
/-! SUPPORT. Sending on the ring: of the ring interface only the two ports' sending side changes, and no port changes its
link state or what it expects to receive (R472, R475, R476, R480). -/

namespace Sys2Proof.Machine

/-- What a port keeps while packets are sent on it: its link, its receiving side and its episodes. -/
def RPort.quiet (q r : RPort) : Prop :=
  r.link = q.link ∧ r.en = q.en ∧ r.rxSeq = q.rxSeq ∧ r.gotAny = q.gotAny ∧ r.discarding = q.discarding ∧
    r.episodes = q.episodes ∧ r.resends = q.resends

/-- Of the ring interface only the ports change, each quietly. -/
def ringQuiet (s t : State) : Prop :=
  t.ring = { s.ring with fa := t.ring.fa, fb := t.ring.fb } ∧ ∀ fb, (rport fb s).quiet (rport fb t)

theorem RPort.quiet_refl (q : RPort) : q.quiet q := ⟨rfl, rfl, rfl, rfl, rfl, rfl, rfl⟩

theorem RPort.quiet_trans {q r u : RPort} (h : q.quiet r) (k : r.quiet u) : q.quiet u := by
  simp only [RPort.quiet] at *
  simp only [k, h, and_self]

theorem ringQuiet_refl (s : State) : ringQuiet s s := ⟨rfl, fun _ => RPort.quiet_refl _⟩

theorem ringQuiet_trans {s t u : State} (h : ringQuiet s t) (k : ringQuiet t u) : ringQuiet s u :=
  ⟨by rw [k.1, h.1], fun fb => RPort.quiet_trans (h.2 fb) (k.2 fb)⟩

theorem ringQuiet_rportPut (fb : Bool) (q : RPort) (s : State) (h : (rport fb s).quiet q) : ringQuiet s (rportPut fb q s) := by
  refine ⟨by cases fb <;> rfl, fun b => ?_⟩
  cases fb <;> cases b <;> first | exact h | exact RPort.quiet_refl _

theorem ringQuiet_of_ring {s t : State} (h : t.ring = s.ring) : ringQuiet s t :=
  ⟨by rw [h], fun fb => by simp only [rport, h]; exact RPort.quiet_refl _⟩

theorem ringQuiet_sendLink (fb : Bool) (s : State) : ringQuiet s (sendLink fb s) :=
  ringQuiet_rportPut _ _ _ ⟨rfl, rfl, rfl, rfl, rfl, rfl, rfl⟩

theorem ringQuiet_creditBack (fb : Bool) (ch : Fin 3) (n : Nat) (s : State) : ringQuiet s (creditBack fb ch n s) := by
  have h := ringQuiet_rportPut fb { rport fb s with
    retData := (rport fb s).retData.set ch ((rport fb s).retData.get ch + n)
    retHead := (rport fb s).retHead.set ch ((rport fb s).retHead.get ch + 1) } s ⟨rfl, rfl, rfl, rfl, rfl, rfl, rfl⟩
  simp only [creditBack]
  split
  · exact ringQuiet_trans h (ringQuiet_sendLink ..)
  · exact h

theorem ringQuiet_poolTake (i : Fin 20) (w : Option (Fin 8)) (n : Nat) (s : State) : ringQuiet s (poolTake i w n s) :=
  ringQuiet_of_ring (poolTake_ring ..)

theorem ringQuiet_sendPacket (fb : Bool) (p : Packet) (s : State) : ringQuiet s (sendPacket fb p s) := by
  have h : ∀ q : RPort, (rport fb s).quiet q → ∀ n, ringQuiet s (poolTake (pRing fb p.p.ch) none n (rportPut fb q s)) :=
    fun q hq n => ringQuiet_trans (ringQuiet_rportPut fb q s hq) (ringQuiet_poolTake ..)
  simp only [sendPacket]
  split
  · refine ringQuiet_trans (h _ ?_ _) (ringQuiet_creditBack _ _ _ _)
    simp only [RPort.quiet, and_self]
  · refine h _ ?_ _
    simp only [RPort.quiet, and_self]

theorem ringQuiet_pump (fb : Bool) (n : Nat) (s : State) : ringQuiet s (pump fb n s) := by
  induction n generalizing s with
  | zero => exact ringQuiet_refl s
  | succ n ih =>
    simp only [pump]
    split
    · split
      · exact ringQuiet_refl s
      · exact ringQuiet_trans (ringQuiet_sendPacket ..) (ih _)
    · exact ringQuiet_refl s

theorem ringQuiet_ringSend (fb : Bool) (p : Packet) (s : State) : ringQuiet s (ringSend fb p s) := by
  simp only [ringSend]
  split
  · have h := ringQuiet_rportPut fb { rport fb s with out := (rport fb s).out ++ [p] } s ⟨rfl, rfl, rfl, rfl, rfl, rfl, rfl⟩
    exact ringQuiet_trans h (ringQuiet_pump ..)
  · exact ringQuiet_of_ring rfl

theorem ringQuiet_sendTo (k : BitVec 4) (kind : Byte) (p : Pkt) (c : Bool) (s : State) : ringQuiet s (sendTo k kind p c s) := by
  simp only [sendTo]
  split
  · exact ringQuiet_refl s
  · exact ringQuiet_ringSend ..

theorem ringQuiet_sendUp (kind : Byte) (ch : Fin 3) (tag : Byte) (arg : Half) (l : List Dword) (s : State) (c : Bool) :
    ringQuiet s (sendUp kind ch tag arg l s c) := ringQuiet_ringSend ..

theorem ringQuiet_foldl {α : Type} (g : State → α → State) (h : ∀ s a, ringQuiet s (g s a)) (l : List α) (s : State) :
    ringQuiet s (l.foldl g s) := by
  induction l generalizing s with
  | nil => exact ringQuiet_refl s
  | cons a t ih => exact ringQuiet_trans (h s a) (ih _)

theorem ringQuiet_broadcast (kind : Byte) (f : Bool → List Dword) (s : State) : ringQuiet s (broadcast kind f s) := by
  refine ringQuiet_foldl _ (fun s fb => ?_) _ s
  split
  · exact ringQuiet_ringSend ..
  · exact ringQuiet_refl s

theorem ringQuiet_logForward (r : LogRec) (s : State) : ringQuiet s (logForward r s) := by
  simp only [logForward]
  (repeat' split) <;> first
    | exact ringQuiet_refl s
    | (refine ⟨rfl, fun fb => ?_⟩; cases fb <;> simp_all [rport, RPort.quiet])

theorem ringQuiet_logAs (c : Code) (cls : LogClass) (st : Option (Fin 8)) (args : List Byte) (s : State) :
    ringQuiet s (logAs c cls st args s) := by
  rcases logAs_ring c cls st args s with h | ⟨r, u, hu, h⟩
  · exact ringQuiet_of_ring h
  · exact ringQuiet_trans (ringQuiet_trans (ringQuiet_of_ring hu) (ringQuiet_logForward r u)) (ringQuiet_of_ring h)

theorem ringQuiet_logRec (c : Code) (args : List Byte) (s : State) : ringQuiet s (logRec c args s) := ringQuiet_logAs ..

/-- A quiet change leaves the link states. -/
theorem ringQuiet.link {s t : State} (h : ringQuiet s t) (fb : Bool) : (rport fb t).link = (rport fb s).link := (h.2 fb).1

/-! ## A packet that is sent -/

/-- A packet that stands at a port, waiting or not acknowledged. -/
def standing (fb : Bool) (p : Packet) (s : State) : Prop :=
  p ∈ (rport fb s).out ∨ ∃ n, { p with p := { p.p with lseq := n } } ∈ (rport fb s).replay

@[simp] theorem sendLink_out (fb b : Bool) (s : State) : (rport b (sendLink fb s)).out = (rport b s).out := by
  cases fb <;> cases b <;> rfl

@[simp] theorem sendLink_replay (fb b : Bool) (s : State) : (rport b (sendLink fb s)).replay = (rport b s).replay := by
  cases fb <;> cases b <;> rfl

@[simp] theorem creditBack_out (fb b : Bool) (ch : Fin 3) (n : Nat) (s : State) :
    (rport b (creditBack fb ch n s)).out = (rport b s).out := by
  simp only [creditBack]; split <;> cases fb <;> cases b <;> rfl

@[simp] theorem creditBack_replay (fb b : Bool) (ch : Fin 3) (n : Nat) (s : State) :
    (rport b (creditBack fb ch n s)).replay = (rport b s).replay := by
  simp only [creditBack]; split <;> cases fb <;> cases b <;> rfl

@[simp] theorem poolTake_rport (b : Bool) (i : Fin 20) (w : Option (Fin 8)) (n : Nat) (s : State) :
    rport b (poolTake i w n s) = rport b s := by
  cases b <;> simp [rport]

theorem sendPacket_out (fb : Bool) (p : Packet) (s : State) : (rport fb (sendPacket fb p s)).out = (rport fb s).out.erase p := by
  simp only [sendPacket]; split <;> simp

theorem sendPacket_replay (fb : Bool) (p : Packet) (s : State) :
    (rport fb (sendPacket fb p s)).replay =
      (rport fb s).replay ++ [{ p with p := { p.p with lseq := (rport fb s).txSeq } }] := by
  simp only [sendPacket]; split <;> simp

theorem standing_pump (fb : Bool) (p : Packet) (n : Nat) (s : State) (h : standing fb p s) : standing fb p (pump fb n s) := by
  induction n generalizing s with
  | zero => exact h
  | succ n ih =>
    simp only [pump]
    split
    · split
      · exact h
      · rename_i x _
        apply ih
        simp only [standing, sendPacket_out, sendPacket_replay, List.mem_append, List.mem_singleton]
        rcases h with h | ⟨m, h⟩
        · by_cases hx : p = x
          · exact .inr ⟨_, .inr (by rw [hx])⟩
          · exact .inl ((List.mem_erase_of_ne hx).mpr h)
        · exact .inr ⟨m, .inl h⟩
    · exact h

/-- A packet sent on an UP port stands there. -/
theorem standing_ringSend (fb : Bool) (p : Packet) (s : State) (h : (rport fb s).link = .up) :
    standing fb p (ringSend fb p s) := by
  simp only [ringSend, h, beq_self_eq_true, if_true]
  exact standing_pump _ _ _ _ (.inl (by simp))

/-- A packet sent on a port that is not UP is counted and lost. -/
theorem ringSend_down (fb : Bool) (p : Packet) (s : State) (h : (rport fb s).link ≠ .up) :
    ringSend fb p s = counterInc 0x82 s := by
  simp [ringSend, h]

theorem standing_creditBack {fb b : Bool} {p : Packet} {ch : Fin 3} {n : Nat} {s : State} (h : standing b p s) :
    standing b p (creditBack fb ch n s) := by
  simpa only [standing, creditBack_out, creditBack_replay] using h

end Sys2Proof.Machine
end

