-- ==== Sys2Proof/Laws/Unfold.lean ====
section
/-! SUPPORT. The equations of the definitions for which Lean finds none of its own within the default limits, since they
hold a large literal: cite these in place of unfolding. -/

namespace Sys2Proof.Machine

theorem dataSectors_eq (m : Fin 128) (s : State) : dataSectors m s = (memGet m s).capacity.toNat - 8192 := rfl

theorem memberSize_eq (a : Arr) :
    a.memberSize = max (a.origin + a.rows * a.shape.c)
      (if a.repaint.sub == .none then 0 else a.repaint.origin + a.repaint.rows * a.repaint.shape.c) - 8192 := rfl

/-- A free tile is in range and unbound. -/
theorem freeTile_some {s : State} {n : Nat} (h : freeTile s = some n) : n < 1024 ∧ kget n s.canvas.tiles = none := by
  unfold freeTile at h
  have h1 := List.mem_of_find?_eq_some h
  have h2 := List.find?_some h
  exact ⟨List.mem_range.mp h1, Option.isNone_iff_eq_none.mp h2⟩

/-- Where every tile in range is bound, no tile is free. -/
theorem freeTile_none {s : State} (h : ∀ n, n < 1024 → (kget n s.canvas.tiles).isSome = true) : freeTile s = none := by
  unfold freeTile
  rw [List.find?_eq_none]
  intro n hn
  simp [Option.isSome_iff_ne_none.mp (h n (List.mem_range.mp hn))]

end Sys2Proof.Machine
end

