-- ==== Sys2Proof/Machine/Pins.lean ====
section
/-! DEFINITION. What the part does at its pins, as the state gives it: banks without supply, reset states, member port pads and
their rails, the ring, the second tier, the audio ports and the host bus (R59 to R66, R69, R70, R85, R319). Nothing is
stored here: every level is computed from the state of the unit that owns the pin. -/

namespace Sys2Proof.Machine

/-- What the part does at a pin. -/
inductive Pad where
  /-- driven low, or high. -/
  | low | high
  /-- high-impedance, without a pull. -/
  | z
  /-- an input, or released, with the weak internal pull-up or pull-down of R61. -/
  | pullUp | pullDown
  /-- its unit drives it or samples it, by that unit's own rules. -/
  | live
  deriving DecidableEq, Repr

/-- The banks of the pin table. -/
inductive PinBank where
  | h | y | b18 | b33 | a
  deriving DecidableEq, Repr

/-- The bank has its supply. -/
def bankUp (b : PinBank) (s : State) : Bool :=
  match b with
  | .h => s.power.sup.vioH
  | .y => s.power.sup.vstby
  | .b18 => s.power.sup.vio18
  | .b33 => s.power.sup.vio33
  | .a => s.power.sup.vioA

/-- A pin of a bank of the core: high-impedance with its pulls off while the bank has no supply, while no part of the core
runs, and in STANDBY (R61, R66, R69, R70). -/
def padOf (b : PinBank) (p : Pad) (s : State) : Pad :=
  if bankUp b s && s.power.core != .off && s.power.core != .standby then p else .z

/-- A driven level. -/
def Pad.ofBool (x : Bool) : Pad := if x then .high else .low

/-! ## Member ports (R60, R63, R64, R85, R319) -/

/-- The pins of a member port. -/
structure PortPins where
  clk : Pad
  cmd : Pad
  d : Pad
  cdN : Pad
  pwrEn : Pad
  deriving DecidableEq, Repr

/-- The pins of port p: CLK, CMD and D are low while SDn_PWR_EN is low; while it is high CMD and D are pulled up to the
port's pad supply and CLK is the port's, but low after a trip. -/
def portPins (p : Fin 8) (s : State) : PortPins :=
  let on := running s && (portGet p s).powered
  let held := (portGet p s).powered
  { clk := padOf .b33 (if on then .live else .low) s
    cmd := padOf .b33 (if held then .pullUp else .low) s
    d := padOf .b33 (if held then .pullUp else .low) s
    cdN := padOf .b33 .pullUp s
    pwrEn := padOf .b33 (Pad.ofBool held) s }

/-- The rail that the switched pads of port p are on: MEMBER.PAD of the card in it (R63, R344). -/
def padRail (p : Fin 8) (s : State) : BitVec 2 := (memGet (ownMember p s) s).pad

/-! ## Second tier (R60, R438, R439) -/

/-- XS_CK, XS_CS_N, XS_RST_N and the data pins with XS_DQS: in their reset states until the second tier has been probed,
then as R439 gives them between transactions. -/
structure TierPins where
  ck : Pad
  csN : Pad
  rstN : Pad
  dq : Pad
  deriving DecidableEq, Repr

/-- The second tier's pins: the reset of the device is over once it has been probed. -/
def tierPins (s : State) : TierPins :=
  { ck := padOf .b18 .low s
    csN := padOf .b18 .high s
    rstN := padOf .b18 (Pad.ofBool (running s && s.canvas.probed)) s
    dq := padOf .b18 (if running s && s.canvas.probed then .live else .pullDown) s }

/-! ## Ring ports (R60, R65, R469) -/

/-- The transmit pairs of a ring port: driven only in TRAINING and UP. -/
def ringTx (p : RPort) (s : State) : Pad :=
  padOf .b18 (if running s && (p.link == .training || p.link == .up) then .live else .z) s

/-! ## Audio ports (R59, R60, R530, R531) -/

/-- The pins of an audio port. -/
structure AudioPins where
  bclk : Pad
  fs : Pad
  data : Pad
  mute : Pad
  deriving DecidableEq, Repr

/-- The level of AUn_MUTE: high, its reset state, while the port is OFF; else at the muting level of MUTE_POL, and released in
RUN. DEDUCED: a port that is OFF again has its pins in their reset states, MUTE with them. -/
def mutePad (p : AuPort) : Pad :=
  match p.state with
  | .off => .high
  | .run | .sleep | .resuming => Pad.ofBool (p.muted != bit p.act0 16)

/-- The pins of audio port n. -/
def audioPins (n : Fin 3) (s : State) : AudioPins :=
  let p := s.palette.ports.get n
  let on := running s && p.state != .off
  { bclk := padOf .a (if on then .live else .low) s
    fs := padOf .a (if on then .live else .low) s
    data := padOf .a (if n == 2 then .pullDown else if on then .live else .low) s
    mute := padOf .a (if running s then mutePad p else .high) s }

/-- AU_MCLK runs while PAL_CTRL.EN and MCLK_EN are both 1. -/
def mclkPad (s : State) : Pad :=
  padOf .a (if running s && s.palette.enAct && s.palette.mclkAct then .live else .low) s

/-! ## Host bus and control port (R60, R70, R76, R85, R186 to R204) -/

/-- The host bus unit serves the bus: a manager at LEVEL2 that runs. -/
def hbuServes (s : State) : Bool := running s && isManager s && atLevel2 s

/-- The host bus pins that the part drives. -/
structure HostPins where
  d : Pad
  a : Pad
  strobes : Pad
  rdy : Pad
  csN : Pad
  breqN : Pad
  bgntN : Pad
  busyN : Pad
  irqN : Pad
  deriving DecidableEq, Repr

/-- The host bus pins: in their reset states below LEVEL2, on a worker and after a trip; in a tenure the address, the strobes
and the data are the part's. -/
def hostPins (s : State) : HostPins :=
  let up := hbuServes s
  let master := up && s.hbu.tenure.isSome
  { d := padOf .h (if up then .live else .z) s
    a := padOf .h (if master then .live else .z) s
    strobes := padOf .h (if master then .live else .z) s
    rdy := padOf .h (if up then .live else .z) s
    csN := padOf .h .pullUp s
    breqN := padOf .h (if up && s.hbu.breq then .low else .z) s
    bgntN := padOf .h .pullUp s
    busyN := padOf .h (if master then .low else .z) s
    irqN := padOf .h (if hbIrq s then .low else .z) s }

/-- CP_IRQ_N: pulled low or released (R151). -/
def cpIrqPad (s : State) : Pad := padOf .h (if cpIrq s then .low else .z) s

/-! ## Standby domain (R62, R70, R94) -/

/-- SUP_EN. -/
def supEnPad (s : State) : Pad := if bankUp .y s then Pad.ofBool s.standby.supEn else .z

end Sys2Proof.Machine
end

