-- ==== Sys2Proof/Laws/Units.lean ====
section
/-! SUPPORT. What the operations at a unit's edge can do: the pins of a bank without supply, the program operations that
outlive a stop of the units, the choice of a phase, and the gates of NAP and DOZE. -/

namespace Sys2Proof.Machine

/-- A bank without supply has its pins high-impedance (R66, R69). -/
theorem padOf_down {b : PinBank} {s : State} (p : Pad) (h : bankUp b s = false) : padOf b p s = .z := by
  simp [padOf, h]

/-- In STANDBY every pin of a bank of the core is high-impedance (R70). -/
theorem padOf_standby {s : State} (b : PinBank) (p : Pad) (h : s.power.core = .standby) : padOf b p s = .z := by
  simp [padOf, h]

/-- What a pin reads is high-impedance, or what its unit does there. -/
theorem padOf_cases (b : PinBank) (p : Pad) (s : State) : padOf b p s = .z ∨ padOf b p s = p := by
  unfold padOf
  split
  · exact .inr rfl
  · exact .inl rfl

/-- After the units have stopped no NV commit waits, no path shows COMMIT_BUSY, and only black-box pages are still to be
programmed (R28, R85, R563). -/
theorem progCut_left (cut : ProgEnd) (s : State) :
    (progCut cut s).nv.commits = [] ∧ (progCut cut s).pathC.commitBusy = false ∧
      (progCut cut s).pathM.commitBusy = false ∧ ∀ o ∈ (progCut cut s).nv.prog, o.isBbox = true := by
  refine ⟨rfl, rfl, rfl, fun o h => ?_⟩
  simp only [progCut, List.mem_filter] at h
  exact h.2

/-- Units that run are up (R88). -/
theorem unitsUp_of_unitsRun {s : State} (h : unitsRun s = true) : unitsUp s = true := by
  simp only [unitsRun, Bool.and_eq_true] at h
  exact h.1

/-- Units run in RUN alone (R88, R93). -/
theorem run_of_unitsRun {s : State} (h : unitsRun s = true) : s.power.state = .run := by
  simp only [unitsRun, Bool.and_eq_true, beq_iff_eq] at h
  exact h.2

/-- Queues run only with the units (R88, R161). -/
theorem unitsRun_of_queuesRun {s : State} (h : queuesRun s = true) : unitsRun s = true := by
  simp only [queuesRun, Bool.and_eq_true] at h
  exact h.1

/-- A port runs only with the units, powered, and outside a class M reset (R127, R334). -/
theorem portRuns_cases {p : Fin 8} {s : State} (h : portRuns p s = true) :
    unitsRun s = true ∧ (portGet p s).powered = true ∧ (portGet p s).classM = none := by
  simp only [portRuns, Bool.and_eq_true, Option.isNone_iff_eq_none] at h
  exact ⟨h.1.1, h.1.2, h.2⟩

/-- A level of SDn_CD_N is accepted only after 2500 equal samples of it (R318). -/
theorem cdHeld_cases {p : Fin 8} {low : Bool} {s : State} (h : cdHeld p low s = true) :
    discovering s = true ∧ (portGet p s).cdCount = 2500 ∧ (portGet p s).cdNow = low := by
  simp only [cdHeld, Bool.and_eq_true, beq_iff_eq] at h
  exact ⟨h.1.1, h.1.2, h.2⟩

end Sys2Proof.Machine
end

