-- ==== Sys2Proof/Laws/Words.lean ====
section
/-! SUPPORT. Words and their fields: each bit of a field, of a flag and of a merge by lanes, and a field read back. -/

namespace Sys2Proof.Machine

theorem getLsbD_fld (lo x i : Nat) : (fld lo x).getLsbD i = (decide (i < 32) && decide (lo ≤ i) && x.testBit (i - lo)) := by
  simp [fld, BitVec.getLsbD_ofNat, Nat.testBit_shiftLeft, Bool.and_assoc]

theorem getLsbD_flg (lo i : Nat) (b : Bool) : (flg lo b).getLsbD i = (b && decide (i < 32) && decide (i = lo)) := by
  cases b
  · simp [flg]
  · simp only [flg, if_true, BitVec.getLsbD_ofNat, Nat.shiftLeft_eq, Nat.one_mul, Nat.testBit_two_pow, Bool.true_and]
    congr 1
    exact decide_eq_decide.mpr eq_comm

theorem bit_fld (lo x i : Nat) : bit (fld lo x) i = (decide (i < 32) && decide (lo ≤ i) && x.testBit (i - lo)) :=
  getLsbD_fld lo x i

theorem bit_flg (lo i : Nat) (b : Bool) : bit (flg lo b) i = (b && decide (i < 32) && decide (i = lo)) :=
  getLsbD_flg lo i b

theorem bit_or (v w : Word) (i : Nat) : bit (v ||| w) i = (bit v i || bit w i) := by simp [bit]

theorem bit_and (v w : Word) (i : Nat) : bit (v &&& w) i = (bit v i && bit w i) := by simp [bit]

/-- A bit of the lanes' mask: the lane of its byte. -/
theorem getLsbD_laneMask (l : Lanes) (i : Nat) : (laneMask l).getLsbD i = (decide (i < 32) && lane l (i / 8)) := by
  by_cases h : i < 32
  · simp only [h, decide_true, Bool.true_and, laneMask]
    cases h0 : lane l 0 <;> cases h1 : lane l 1 <;> cases h2 : lane l 2 <;> cases h3 : lane l 3 <;>
      interval_cases i <;> simp_all
  · simp [h, BitVec.getLsbD_of_ge _ _ (Nat.le_of_not_lt h)]

/-- A bit of a merge: the new word's where its lane is enabled, the old word's elsewhere (R147). -/
theorem bit_mergeLanes (l : Lanes) (old new : Word) (i : Nat) (h : i < 32) :
    bit (mergeLanes l old new) i = if lane l (i / 8) then bit new i else bit old i := by
  simp only [mergeLanes, bit, BitVec.getLsbD_or, BitVec.getLsbD_and, BitVec.getLsbD_not, getLsbD_laneMask, h, decide_true,
    Bool.true_and]
  cases lane l (i / 8) <;> simp

theorem mergeLanes_full (old new : Word) : mergeLanes 0xF old new = new := by
  have h : laneMask 0xF = BitVec.allOnes 32 := by decide
  simp only [mergeLanes, h, BitVec.and_allOnes]
  simp

theorem mergeLanes_none (old new : Word) : mergeLanes 0 old new = old := by
  have h : laneMask 0#4 = 0#32 := by decide
  simp only [mergeLanes, show (0 : Lanes) = 0#4 from rfl, h]
  rw [BitVec.not_zero, BitVec.and_allOnes, BitVec.and_zero, BitVec.or_zero]

/-- A field is below its width. -/
theorem bits_lt (w : Word) (hi lo : Nat) : bits w hi lo < 2 ^ (hi + 1 - lo) := Nat.mod_lt _ (Nat.two_pow_pos _)

/-- The bits of a field. -/
theorem testBit_bits (w : Word) (hi lo i : Nat) :
    (bits w hi lo).testBit i = (decide (i < hi + 1 - lo) && w.getLsbD (i + lo)) := by
  simp only [bits, Nat.testBit_mod_two_pow, Nat.testBit_shiftRight, BitVec.testBit_toNat, Nat.add_comm lo i]

/-- A counter counts one more, or holds at its all-ones value (R7). -/
theorem toNat_ctrInc {w : Nat} (x : BitVec w) : (ctrInc x).toNat = min (x.toNat + 1) (2 ^ w - 1) := by
  simp only [ctrInc]
  split
  · subst_vars; simp
  · rename_i h
    have h1 : x.toNat ≠ 2 ^ w - 1 := fun e => h (BitVec.eq_of_toNat_eq (by simp [e]))
    have h2 := x.isLt
    have h3 : (x + 1).toNat = (x.toNat + 1) % 2 ^ w := by simp [BitVec.toNat_add]
    rw [h3, Nat.mod_eq_of_lt (by omega)]
    omega

@[simp] theorem ctrInc_allOnes {w : Nat} : ctrInc (BitVec.allOnes w) = BitVec.allOnes w := by simp [ctrInc]

end Sys2Proof.Machine
end

