-- ==== Sys2Proof/Machine/Flits.lean ====
section
/-! DEFINITION. How a link carries its traffic: the bytes of a flit with their CRC, the flit types, the TRAIN and IDLE flits, and
the header of a packet (R468, R470, R471, R477, R478). -/

namespace Sys2Proof.Machine

/-- The ten bytes of a flit in wire order: TYPE, the payload from its lowest byte up, and the CRC over these nine (R468,
R471). -/
def flitBytes (type : Byte) (payload : Dword) : List Byte :=
  let l := type :: leBytes 8 payload.toNat
  l ++ [crc8 l]

/-- A flit received in ten bytes: its TYPE and payload; none where its CRC fails or its TYPE is reserved (R471). -/
def flitParse (l : List Byte) : Option (Byte × Dword) :=
  let t := (l.getD 0 0)
  let known := [0x00, 0x01, 0x03, 0x10, 0x11, 0x12, 0x20, 0x21, 0x22].contains t.toNat
  if l.length = 10 && known && crc8 (takeAt l 0 9) == l.getD 9 0 then some (t, BitVec.ofNat 64 (leField l 1 8)) else none

/-- The IDLE flit. -/
def idleFlit : List Byte := flitBytes 0x00 0

/-- The TRAIN flit, with ACK (R470, R471). -/
def trainFlit (ack : Bool) : List Byte :=
  flitBytes 0x01 (BitVec.ofNat 64 (0x4C4E545241494E * 256 + (if ack then 2 else 0)))

/-- The header of a packet (R477). -/
def packetHeader (kind : Byte) (p : Pkt) : Dword :=
  BitVec.ofNat 64 (p.dst.toNat * 2 ^ 60 + p.src.toNat * 2 ^ 56 + p.lseq.toNat * 2 ^ 50 + (if p.bcast then 2 ^ 49 else 0)
    + (if p.path then 2 ^ 48 else 0) + kind.toNat * 2 ^ 40 + p.flits.length * 2 ^ 32 + p.epoch.toNat * 2 ^ 24
    + p.tag.toNat * 2 ^ 16 + p.arg.toNat)

/-- The flits of a packet: its HEAD and its DATA flits, on its channel (R471, R477). -/
def packetFlits (kind : Byte) (p : Pkt) : List (List Byte) :=
  flitBytes (0x10 + BitVec.ofNat 8 p.ch.val) (packetHeader kind p)
    :: p.flits.map (flitBytes (0x20 + BitVec.ofNat 8 p.ch.val))

/-- The LINK flit that a port sends now (R476). -/
def linkFlitBytes (q : RPort) : List Byte := flitBytes 0x03 (linkPayload q)

end Sys2Proof.Machine
end

