-- ==== Sys2Proof/Tests/Slice0.lean ====
section
/-! SUPPORT. Our own tests: each check of WellFormed refuses an ill-formed command; the manual's worked examples; and for
every statement of Certificates/Slice0 states and operands that meet the hypotheses of its clauses together. -/

namespace Sys2Proof.Tests

open Sys2Proof.Machine Sys2Proof.Safety

section All

set_option Elab.async false

/-! ## States the tests start from -/

/-! ## States the tests start from -/

/-- The reset state with the core elsewhere than running. -/
def core (c : CoreStatus) : State := { State.reset with power := { State.reset.power with core := c } }

/-- A manager with its PLL locked, at a level, its restart path ended. -/
def at' (l : Level) : State :=
  { State.reset with
    restart := { State.reset.restart with level := l, stage := if l = .level1 then 9 else 0 }
    clk := { State.reset.clk with pllEn := true, pllLock := true, bypass := false } }

/-- A manager at LEVEL2 with every studio that is enabled ACTIVE. -/
def up : State := studiosUp (at' .level2)

/-- A worker at LEVEL1, numbered 3 in a fabric, whose port FA is UP toward the manager. -/
def worker : State :=
  let s := at' .level1
  { s with
    restart := { s.restart with straps := { s.restart.straps with role := false }, stage := 0 }
    ident := { s.ident with fabricId := 7, node := 3 }
    ring := { s.ring with fa := { s.ring.fa with link := .up }, fabric := 7, doneSeen := true } }

/-- A path with an arm of a code. -/
def armed (p : Path) (code : BitVec 16) (s : State) : State :=
  pathPut p { pathGet p s with arm := some { code := code, left := 1 } } s

/-- A frame from its bytes, its CRC made good. -/
def frame (b : Fin 8 → Byte) : Frame :=
  let l := (List.finRange 8).map b
  ⟨Vector.ofFn fun i => if h : i.val < 8 then b ⟨i.val, h⟩ else if i.val = 8 then crc8 l else 0, false⟩

/-- The next state of a command, or the state itself. -/
def next (c : Instr) (s : State) : State := match exec c s with | .next t => t | .fault _ => s | .refused _ => s

/-! ## WellFormed -/

/-- A READ frame of CHIP_ID. -/
def readFrame : Frame := frame ![0xC2, 0, 0, 0xF, 0, 0, 0, 0]

theorem test_nop_refuses_read_frame : (Instr.cportNop readFrame).wellFormed = false := by decide
theorem test_read_refuses_write_frame : (Instr.cportRead (frame ![0xC1, 0, 0, 0xF, 0, 0, 0, 0])).wellFormed = false := by decide
theorem test_write_refuses_read_frame : (Instr.cportWrite readFrame).wellFormed = false := by decide
theorem test_whistle_refuses_read_frame : (Instr.cportWhistle readFrame).wellFormed = false := by decide
theorem test_ill_formed_frame_is_refused : exec (.cportNop readFrame) State.reset = .refused .illFormed := rfl

/-! ## Witnesses: supplies, clocks, resets and the restart path -/

theorem meets_PowerOnResetsThePart : (core .off).power.core = .off := by decide

/-- Every supply in range, and the same with VCORE below every trip level. -/
def good : Supplies := State.reset.power.sup
def low : Supplies := { good with vcoreMv := 500 }

/-- In STANDBY, its exit begun. -/
def leaving : State := { core .standby with standby := { State.reset.standby with exiting := some .timer } }

theorem meets_PowerGoodMovesTheCore :
    ((core .inResetP).power.core = .inResetP ∧ supplyGood good (core .inResetP) = true) ∧
    ((core .inResetD).power.core = .inResetD ∧ supplyGood good (core .inResetD) = true) ∧
    ((core .stopped).power.core = .stopped ∧ supplyGood good (core .stopped) = true) ∧
    (leaving.power.core = .standby ∧ leaving.standby.exiting = some .timer ∧ supplyGood good leaving = true) ∧
    supplyGood low (core .stopped) = false ∧
    ((core .standby).power.core ≠ .running ∧ (core .standby).power.core ≠ .off) ∧ running (core .off) = false ∧
    State.reset.power.core = .running := by decide

/-- In a class P reset with power-good met, the standby domain changed. -/
def inP (f : Standby → Standby) : State := { core .inResetP with standby := f State.reset.standby }

theorem meets_ResetPinAndItsEnd :
    (running State.reset = true ∧ State.reset.nv.prog = []) ∧
    (let s := core .inResetP
     s.power.core = .inResetP ∧ s.power.pgMet = true ∧ s.standby.exiting = none ∧ s.standby.tripLatch = none ∧
      s.power.fromBelow = false) ∧
    (let s := { core .inResetD with standby := { State.reset.standby with exiting := some .timer } }
     s.power.core = .inResetD ∧ s.power.pgMet = true ∧ s.standby.exiting.isSome = true) ∧
    (let s := inP fun x => { x with tripLatch := some .xin }
     s.standby.exiting = none ∧ s.standby.tripLatch = some .xin ∧ s.power.pgMet = true) ∧
    (let s := inP fun x => { x with tripLatch := some .pfail }
     s.standby.exiting = none ∧ s.standby.tripLatch.isSome = true ∧ s.standby.tripLatch ≠ some .xin ∧ s.power.pgMet = true) ∧
    (let s := { State.reset with power := { State.reset.power with core := .inResetP, fromBelow := true } }
     s.power.core = .inResetP ∧ s.power.pgMet = true ∧ s.power.fromBelow = true ∧ s.nv.session ≠ .opened ∧
      s.standby.exiting = none ∧ s.standby.tripLatch = none) := by decide

/-- An index record of a WRITE, and the state in which its program is in flight. -/
def sealRec : Rec :=
  { kind := .write, last := true, array := 0, cseq := 1, start := 8, volume := 0, studio := 0, count := 8, stripe := 0, cid := 1,
    sealTick := 0, pages := [] }
def sealing0 : State := { State.reset with nv := { State.reset.nv with prog := [.record none 3 sealRec] } }

theorem meets_TripsAndBanks :
    (running State.reset = true ∧ tripMet .vcore low State.reset = true ∧ tripMet .pfail { good with pfailPin := false } State.reset = true ∧
      tripMet .vio18 { good with vio18 := false } State.reset = true ∧ tripMet .vstby { good with vstby := false } State.reset = true ∧
      State.reset.nv.prog.head? ≠ some .nv) ∧
    (running sealing0 = true ∧ tripMet .vcore low sealing0 = true ∧ ProgEnd.torn ≠ .ends ∧
      sealing0.nv.prog.head? = some (.record none 3 sealRec)) ∧
    (running (core .off) = false ∧ tripMet .vcore good State.reset = false) ∧
    State.reset.clk.bypass = true ∧
    (running (at' .level1) = true ∧ (at' .level1).clk.bypass = false ∧ (at' .level1).restart.level = .level1) ∧
    (at' .level2).restart.level = .level2 := by
  decide

/-- The path parked at a stage of LEVEL0 with the PLL locked. -/
def stage (n : Fin 10) : State := { at' .level0 with restart := { State.reset.restart with stage := n } }

theorem meets_PllStartsStopsAndLocks :
    (openPath .cport State.reset ∧ State.reset.clk.pllEn = false ∧ State.reset.clk.pllLock = false) ∧
    (let s := next (.pllStart .cport) State.reset
     openPath .cport s ∧ s.clk.pllEn = true ∧ s.restart.level = .level0 ∧ s.restart.stage < 4 ∧ s.clk.pllLock = false ∧
       running s = true ∧ s.power.state = .run ∧ s.power.waking = false ∧ s.restart.pllRestart = none ∧ s.restart.stage = 3 ∧
       s.restart.nvcfgLost = false) ∧
    (openPath .cport (stage 4) ∧ (stage 4).clk.pllEn = true ∧ (stage 4).restart.level = .level0 ∧ 4 ≤ (stage 4).restart.stage ∧
      (stage 4).restart.nvcfgLost = false ∧ (stage 4).nv.prog = []) ∧
    (openPath .cport up ∧ up.clk.pllEn = true ∧ up.restart.level ≠ .level0) ∧ running State.reset = true := by
  simp only [openPath]; decide

theorem meets_LockLossFallsToLevel0 :
    (running up = true ∧ up.clk.pllLock = true ∧ up.nv.prog = [] ∧ up.restart.level = .level2) ∧
    (let s := at' .level1; running s = true ∧ s.clk.pllLock = true ∧ s.nv.prog = [] ∧ s.restart.level = .level1) := by decide

theorem meets_TickAndStraps :
    running State.reset = true ∧ State.reset.clk.pllLock = false ∧ (running up = true ∧ up.clk.pllLock = true ∧ up.clk.pllEn = true) ∧
    (let s := next (.pllStop .cport) (stage 4); running s = true ∧ s.clk.pllLock = true ∧ s.clk.pllEn = false) ∧
    pathLive .cport State.reset = true ∧ lane 1 0 = true ∧ State.reset.clk.tick.toNat % 100 = 0 ∧
    State.reset.restart.straps = State.reset.restart.straps ∧ (⟨false, 2, 3, true, true⟩ : Straps) ≠ State.reset.restart.straps ∧
    State.reset.restart.strapLogged = false ∧
    (let s := next (.strapCheck ⟨false, 2, 3, true, true⟩) State.reset
     s.restart.strapLogged = true ∧ running s = true ∧ s.clk.tick.toNat % 100 = 0) := by decide

/-- A copy of the NV configuration stands as the present one. -/
def configured (s : State) : State := { s with nv := { s.nv with a := .valid 5 7 0 (nvBody s), present := some false } }

theorem meets_RestartPathStages :
    (atStage 4 (stage 4) = true ∧ atStage 5 (stage 5) = true) ∧
    (let s := configured (stage 4); atStage 4 s = true ∧ nvPresent s = .valid 5 7 0 (nvBody (stage 4)) ∧ isManager s = true ∧
      (nvBody (stage 4)).manager = true) ∧
    (let s := next .discoveryDeadline (stage 5); atStage 5 s = true ∧ replayed s = true) ∧
    (unitsRun (at' .level1) = true ∧ isManager (at' .level1) = true ∧ (at' .level1).restart.level = .level1 ∧
      (at' .level1).restart.stage = 9 ∧ strapsDefined (at' .level1) = true ∧ ((at' .level1).studios.get 0).cfg.en = true) ∧
    (let s := { at' .level1 with restart := { (at' .level1).restart with straps := ⟨true, 3, 0, false, false⟩ } }
     unitsRun s = true ∧ isManager s = true ∧ s.restart.level = .level1 ∧ s.restart.stage = 9 ∧ strapsDefined s = false) := by
  and_intros <;> decide +kernel

/-- NVCFG_LOST is shown, and NV_CLEAR is armed. -/
def lost : State := armed .cport 0x00CE { State.reset with restart := { State.reset.restart with nvcfgLost := true } }

/-- A control reset has been accepted. -/
def accepted' : State := { State.reset with restart := { State.reset.restart with ctrlRst := true } }

theorem meets_ControlResets :
    (openPath .cport (armed .cport 0x00C5 State.reset) ∧ hasArm .cport 0x00C5 (armed .cport 0x00C5 State.reset)) ∧
    (openPath .cport lost ∧ hasArm .cport 0x00CE lost ∧ lost.restart.nvcfgLost = true) ∧
    (let s := armed .cport 0x00CE State.reset
     openPath .cport s ∧ hasArm .cport 0x00CE s ∧ s.restart.nvcfgLost = false) ∧
    (let s := accepted'
     running s = true ∧ s.restart.ctrlRst = true ∧ s.nv.prog = [] ∧ s.standby.exiting = none ∧
       s.standby.tripLatch = none ∧ s.power.fromBelow = false) ∧
    State.reset.restart.ctrlRst = false := by
  simp only [openPath, hasArm]; decide

/-! ## Witnesses: power states and the control port -/

/-- A command holds a slot, so that the part is not idle. -/
def busy : State := { up with queues := { slots := [(0, { sq := 0, idx := 0 })] } }

/-- A worker has answered, and a wake time is set. -/
def timed : State :=
  { up with
    ring := { up.ring with nodes := up.ring.nodes.set 3 { status := .worker, node := 3 } }
    standby := { up.standby with wakeTime := 3 } }

theorem meets_SleepRequests :
    (openPath .cport State.reset ∧ atLevel1 State.reset = false) ∧
    (openPath .cport up ∧ atLevel1 up = true ∧ idle up = true ∧ isManager up = true) ∧
    (openPath .cport busy ∧ atLevel1 busy = true ∧ idle busy = false ∧ isManager busy = true) ∧
    (let s := armed .cport 0x00F4 up
     openPath .cport s ∧ isManager s = true ∧ s.restart.level ≠ .failstop ∧ s.standby.wakeTime = 0 ∧ hasArm .cport 0x00F4 s) ∧
    (let s := armed .cport 0x00F4 timed
     openPath .cport s ∧ isManager s = true ∧ s.restart.level ≠ .failstop ∧ s.standby.wakeTime ≠ 0 ∧ anyWorker s = true ∧
       hasArm .cport 0x00F4 s) ∧
    (up.restart.level ≠ .failstop ∧ ¬hasArm .cport 0x00F4 up) ∧
    ((0#3).toNat < 6 ∧ releaseMv 0 ≤ up.power.sup.vcoreMv) ∧ ¬((7#3).toNat < 6 ∧ releaseMv 7 ≤ up.power.sup.vcoreMv) ∧
    (let s := { up with power := { up.power with autoNap := 1 } }
     openPath .cport s ∧ running s = true ∧ s.power.autoNap ≠ 0 ∧ idle s = true ∧ atLevel1 s = true) := by
  simp only [openPath, hasArm]; and_intros <;> decide

/-- At LEVEL2 with an entry accepted. -/
def entering (e : Sleep) : State := { up with power := { up.power with entry := some e } }

/-- At the commit point of STANDBY, the session word and the programs as given. -/
def closing (x : Session) (l : List ProgOp) : State :=
  { entering .standby with nv := { up.nv with session := x, prog := l } }

theorem meets_CommitPoints :
    (entryReady .nap (entering .nap) = true ∧ idle (entering .nap) = true) ∧
    (entryReady .doze (entering .doze) = true ∧ idle (entering .doze) = true ∧ (entering .doze).clk.bypass = false) ∧
    (let s := closing .closed []
     entryReady .standby s = true ∧ idle s = true ∧ s.nv.session = .closed ∧ s.nv.prog = []) ∧
    (let s := closing .opened []
     entryReady .standby s = true ∧ idle s = true ∧ s.nv.session ≠ .closed ∧ .session false ∉ s.nv.prog) ∧
    (let s := closing .opened [.session false]
     entryReady .standby s = true ∧ idle s = true ∧ .session false ∈ s.nv.prog) ∧
    (let s := { entering .nap with queues := busy.queues }
     entryReady .nap s = true ∧ idle s = false ∧ s.power.entry = some .nap) := by decide

/-- Asleep in a state of its own. -/
def asleep (x : PowerState) (s : State) : State := { s with power := { s.power with state := x } }

/-- With a wake time set. -/
def timedUp (s : State) : State := { s with standby := { s.standby with wakeTime := 3 } }

/-- A worker in DOZE, its links dark by order. -/
def dozing : State := { asleep .doze worker with power := { (asleep .doze worker).power with heldDark := true } }

/-- A wake from DOZE that waits for lock. -/
def relocking : State :=
  { up with power := { up.power with state := .doze, waking := true }, clk := { up.clk with pllLock := false, bypass := true } }

/-- A DOZE entry waits for node 3. -/
def ordering : State := { up with power := { up.power with entry := some .doze, ordersOut := [3] } }

theorem meets_WakesAndTheirTimeouts :
    (let s := timedUp (asleep .nap up)
     running s = true ∧ s.power.state = .nap ∧ s.standby.wakePinEn = true ∧ s.standby.wakeTime ≠ 0) ∧
    (let s := timedUp (core .standby)
     s.power.core = .standby ∧ s.standby.exiting = none ∧ s.standby.wakePinEn = true ∧ s.standby.wakeTime ≠ 0) ∧
    ({ up with standby := { up.standby with wakePinEn := false } }.standby.wakePinEn = false ∧ up.standby.wakeTime = 0) ∧
    (leaving.power.core = .standby ∧ leaving.standby.exiting.isSome = true) ∧
    (running dozing = true ∧ isManager dozing = false ∧ dozing.power.state = .doze ∧ dozing.power.heldDark = true) ∧
    (let s := relocking
     running s = true ∧ s.power.state = .doze ∧ s.power.waking = true ∧ s.clk.pllLock = false ∧ s.power.wakeWrite = none ∧
       s.restart.level = .level2) ∧
    (running ordering = true ∧ ordering.power.ordersOut.contains 3 = true ∧ ordering.power.entry = some .doze) := by decide

/-! ## Witnesses: frames, registers, tables and the management engine -/

/-- The state in which a path's arm is as good as new. -/
def armFresh (p : Path) (s : State) : State := pathPut p { pathGet p s with arm := some ⟨0x00CE, 8⟩ } s

theorem meets_FramesAreCheckedInOrder :
    running State.reset = true ∧
    (let f := ⟨readFrame.bytes.set 8 0, false⟩; byteOf f 0 = opRead ∧ frameCrcOk f = false) ∧
    (let f := ⟨(frame ![0xC1, 0, 0, 0xF, 0, 0, 0, 0]).bytes.set 8 0, false⟩; byteOf f 0 = opWrite ∧ frameCrcOk f = false) ∧
    (let f := ⟨(frame ![0xC4, 0, 0, 0xF, 0, 0, 0, 0]).bytes.set 8 0, false⟩; byteOf f 0 = opWhistle ∧ frameCrcOk f = false) ∧
    (let f := ⟨(frame ![0xC0, 0, 0, 0xF, 0, 0, 0, 0]).bytes.set 8 0, false⟩; byteOf f 0 = opNop ∧ frameCrcOk f = false) ∧
    (let f := frame ![0xC2, 0, 0, 0x1F, 0, 0, 0, 0]; byteOf f 0 = opRead ∧ frameCrcOk f = true ∧ frameReplay f = true) ∧
    (let f := frame ![0xC3, 0, 0, 0xF, 0, 0, 0, 0]
     byteOf f 0 ∉ [opRead, opWrite, opWhistle, opNop] ∧ frameCrcOk f = true) ∧
    (let f := frame ![0xC2, 0x01, 0x00, 0xF, 0, 0, 0, 0]
     byteOf f 0 = opRead ∧ frameCrcOk f = true ∧ frameReplay f = false ∧ 0xFC < frameOff f) ∧
    (let f := frame ![0xC2, 0, 0x02, 0xF, 0, 0, 0, 0]
     byteOf f 0 = opRead ∧ frameCrcOk f = true ∧ frameReplay f = false ∧ frameOff f % 4 ≠ 0) ∧
    (let f := frame ![0xC2, 0, 0xFC, 0, 0, 0, 0, 0]
     byteOf f 0 = opRead ∧ frameCrcOk f = true ∧ frameReplay f = false ∧ frameOff f ≤ 0xFC ∧ frameOff f % 4 = 0 ∧
       frameLanes f = 0) ∧
    (let f := frame ![0xC1, 0, 0xC0, 0xF, 0, 0, 0, 0]
     byteOf f 0 = opWrite ∧ frameCrcOk f = true ∧ frameReplay f = false ∧ 0xC0 ≤ frameOff f) ∧
    (let f := frame ![0xC1, 0, 0xBC, 0, 0, 0, 0, 0]
     byteOf f 0 = opWrite ∧ frameCrcOk f = true ∧ frameReplay f = false ∧ frameOff f < 0xC0 ∧ frameOff f % 4 = 0 ∧
       frameLanes f = 0) ∧
    (let f := frame ![0xC1, 0, 0x20, 1, 0, 0, 0, 1]
     byteOf f 0 = opWrite ∧ frameCrcOk f = true ∧ frameReplay f = false ∧ fullWidth (frameOff f) = true ∧ frameLanes f ≠ 0xF) ∧
    (let f := frame ![0xC1, 0, 0x20, 0xF, 0, 0, 0, 1]
     byteOf f 0 = opWrite ∧ frameCrcOk f = true ∧ frameReplay f = false ∧ frameOff f = 0x20 ∧ frameLanes f = 0xF ∧
       frameData f = 1 ∧ (armAge .cport (armFresh .cport up)).pathC.arm.map (·.code) ≠ some 0x00C5) ∧
    byteOf (frame ![0, 0, 0, 0, 0, 0, 0, 0]) 0 ≠ opRead ∧ byteOf (frame ![0, 0, 0, 0, 0, 0, 0, 0]) 0 ≠ opWrite ∧
    byteOf (frame ![0, 0, 0, 0, 0, 0, 0, 0]) 0 ≠ opWhistle ∧ byteOf readFrame 0 = opRead := by
  and_intros <;> decide +kernel

theorem meets_FramesExecute :
    (running up = true ∧ pathBusy .cport up = false ∧ up.power.waking = false ∧ openPath .cport up) ∧
    (let f := readFrame
     frameCrcOk f = true ∧ byteOf f 0 = opRead ∧ frameReplay f = false ∧ frameOff f < 0xC0 ∧ frameOff f % 4 = 0 ∧
       frameLanes f ≠ 0 ∧ frameOff f / 4 ∉ [0x0D, 0x11, 0x26]) ∧
    (let f := frame ![0xC1, 0, 0xBC, 0x5, 1, 2, 3, 4]
     frameCrcOk f = true ∧ byteOf f 0 = opWrite ∧ frameReplay f = false ∧ frameOff f = 0xA0 + 4 * 7 ∧ frameLanes f ≠ 0) ∧
    (let f := frame ![0xC0, 0, 0, 0, 0, 0, 0, 0]; frameCrcOk f = true ∧ byteOf f 0 = opNop ∧ frameReplay f = false) ∧
    (let f := frame ![0xC0, 0, 0, 0x10, 0, 0, 0, 0]; frameCrcOk f = true ∧ byteOf f 0 = opNop ∧ frameReplay f = true) ∧
    (let f := frame ![0xC4, 0, 0, 0, 0, 0, 0, 0]; frameCrcOk f = true ∧ byteOf f 0 = opWhistle ∧ frameReplay f = false) := by
  simp only [openPath]; and_intros <;> decide +kernel

theorem meets_RegisterWritesApplyTheirLanes :
    openPath .cport up ∧ (5 : Lanes) ≠ 0 ∧
    (((0 : Word).extractLsb' 0 8 : Byte) - up.log.tail).toNat ≤ ((up.log.seqNext.truncate 8 : Byte) - up.log.tail).toNat ∧
    (((1 : Word).extractLsb' 0 8 : Byte) - up.log.tail).toNat ≤ ((up.log.seqNext.truncate 8 : Byte) - up.log.tail).toNat ∧
    pathLive .cport up = true ∧ unitsRun up = true ∧ skbCtrlOk 0x5F96_0064 = true := by
  simp only [openPath]; decide

theorem meets_ArmsAndDrains :
    openPath .cport up ∧ (0xFF3AC5#32).extractLsb' 16 16 ≠ ~~~((0xFF3AC5#32).extractLsb' 0 16 : BitVec 16) ∧
    (0xFF3A00C5#32).extractLsb' 16 16 = ~~~((0xFF3A00C5#32).extractLsb' 0 16 : BitVec 16) ∧
    (let s := { up with cport := { up.cport with whistling := true } }
     running s = true ∧ s.cport.whistling = true ∧ commitOn .cport s = false ∧ ∀ al, (aliasGet al s).buf = []) := by
  simp only [openPath]; decide

/-- A state whose CPORT cursor an entry's word is selected for. -/
def selected (w : Word) (s : State) : State := next (.tblSelWrite .cport w) s

theorem meets_TableCursor :
    (openPath .cport up ∧ commitOn .cport up = false ∧
      cursorOut (bits 0x04000000 31 24) (bits 0x04000000 23 8) (bits 0x04000000 7 0) = none) ∧
    (let s := selected 0x04000000 up
     openPath .cport s ∧ (pathGet .cport s).cur.out = none ∧ commitOn .cport s = false ∧
       (pathGet .cport s).cur.word.toNat + 1 < (pathGet .cport s).cur.snap.length) ∧
    (let s := selected 0x04001008 up; openPath .cport s ∧ (pathGet .cport s).cur.out = some trBadIndex) ∧
    (let s := selected 0x55000000 up; openPath .cport s ∧ (pathGet .cport s).cur.out = some trBadSpace) := by
  simp only [openPath]; decide +kernel

/-- The CPORT cursor on the last word of an entry. -/
def onLast (space e : Nat) (s : State) : State :=
  next (.tblSelWrite .cport (fld 24 space ||| fld 8 e ||| fld 0 ((entryWords space e s).length - 1))) s

/-- The last word of an entry as it stands. -/
def lastWord (space e : Nat) (s : State) : Word := wordAt (entryWords space e s) ((entryWords space e s).length - 1)

/-- A rotating array of three ACTIVE members with one ONLINE volume of the house studio, all at LEVEL2. -/
def painted : State :=
  let card (i : Fin 128) : Member :=
    { state := .active, capacity := 200000
      sig := some { roleKind := 1, fabricId := 0, generation := 0, array := 0, role := i, home := i, benchMask := 0, cidHash := 0,
                    capacity := 200000, configSeq := 0, arrayWords := [], volWords := [] } }
  let s := memPut 0 (card 0) (memPut 1 (card 1) (memPut 2 (card 2) up))
  { s with
    arrs := s.arrs.set 0 { shape := { n := 3 }, rows := 100, origin := 8192, cap := 6400, state := .optimal,
                           roles := [⟨0, .present⟩, ⟨1, .present⟩, ⟨2, .present⟩] }
    vols := s.vols.set 0 { base := 0, size := 3200, state := .online } }

theorem meets_NvEntryCommits :
    ∀ x ∈ nvCommits .cport 0, let s := onLast x.2 0 painted
      readyToCommit .cport x.2 0 s ∧ commitPasses .cport (lastWord x.2 0 painted) s ∧ s.restart.nvcfgLost = false ∧
      s.restart.level ≠ .failstop ∧ isOwn 0 s = true := by
  simp only [readyToCommit, openPath, commitPasses]; decide +kernel

theorem meets_ReadOnlySpacesRefuseCommits :
    ∀ space ∈ [0x07, 0x08, 0x0C, 0x0E, 0x10, 0x11, 0x20, 0x21], readyToCommit .cport space 0 (onLast space 0 up) := by
  simp only [readyToCommit, openPath]; decide +kernel

/-- A commit that keeps what is in force is at the head of the program engine. -/
def keeping : State := { up with nv := { up.nv with prog := [.nv, .session true], commits := [.keep] } }

/-- A commit of HOST_REGION 2 is at the head of the program engine. -/
def regionDue : State := next (.hostRegionCommit .cport (lastWord 0x0F 2 up)) (onLast 0x0F 2 up)

theorem meets_NvCommitEnds :
    (running keeping = true ∧ keeping.nv.prog.head? = some .nv ∧ keeping.nv.commits = .keep :: []) ∧
    (running regionDue = true ∧ regionDue.nv.prog.head? = some .nv ∧ regionDue.restart.level ≠ .failstop ∧
       regionDue.nv.commits = [.table .cport 0x0F 2 (stagedWith .cport (lastWord 0x0F 2 up) (onLast 0x0F 2 up))]) := by
  decide +kernel

/-- Arguments staged on the CPORT path, with the arm that a code needs. -/
def staged (code : Byte) (l : List Word) (s : State) : State :=
  let s := pathPut .cport { pathGet .cport s with args := l } s
  if cmdArmed code then armed .cport (code.zeroExtend 16) s else s

/-- Array 0 of `painted` changed. -/
def withArr (f : Arr → Arr) : State := { painted with arrs := painted.arrs.set 0 (f (painted.arrs.get 0)) }

/-- A member of `painted` changed. -/
def withCard (m : Fin 128) (x : Member) (s : State) : State := memPut m x s

/-- Each management command with arguments and a state in which it is taken. -/
def takes : List (Byte × List Word × State) :=
  let blank : Member := { state := .blank, capacity := 200000 }
  let off : Arr → Arr := fun x => { x with state := .stopped }
  [(0x01, [0], withArr off),
   (0x02, [0x300, 0x020100], withArr off),
   (0x03, [1, 0x00030000, 0, 0x0A0908],
    withCard 8 blank (withCard 9 blank (withCard 10 blank painted))),
   (0x04, [0], withArr off), (0x05, [1, 0, 3200, 8, 0], painted), (0x06, [0], painted), (0x07, [0x700], painted),
   (0x08, [0x108], withCard 8 blank painted), (0x09, [0x8], withCard 8 { blank with state := .bench } painted),
   (0x0A, [0x8], withCard 8 blank painted),
   (0x0B, [0x800], withCard 8 blank (withArr fun x => { x with state := .degraded })),
   (0x0C, [0x800], withCard 8 blank (withArr fun x => { x with sparesUsed := 1 })),
   (0x0D, [0], painted),
   (0x0E, [0, 0x00040000, 0, 0x08020100], withCard 8 blank painted),
   (0x0F, [0], withArr fun x => { x with repaint := { sub := .paused } }),
   (0x10, [0], withArr fun x => { x with bgKind := 3 }), (0x11, [0], withArr fun x => { x with bgKind := 3, bgPaused := true }),
   (0x12, [0], painted)]

theorem meets_ManagementCommandsAreTaken :
    takes.map (·.1) = (mgmtCommands .cport).map (·.2) ∧
    ∀ x ∈ takes, let s := staged x.1 x.2.1 x.2.2
      openPath .cport s ∧ s.mgmt.busy = false ∧ (cmdArmed x.1 = true → hasArm .cport (x.1.zeroExtend 16) s) ∧
      mgmtCheck x.1 (pathGet .cport s).args (pathGet .cport s).overflow s = none := by
  simp only [openPath, hasArm]; decide +kernel

theorem meets_ManagementRefusalsAndArguments :
    (openPath .cport up ∧ (pathGet .cport up).args.length < 36 ∧ lane 0xF 3 = true ∧ lane 8 3 = true ∧ lane 7 3 = false) ∧
    (let s := staged 0x01 (List.replicate 36 0) up; openPath .cport s ∧ (pathGet .cport s).args.length = 36) ∧
    (let s := staged 0x0D [0] up
     openPath .cport s ∧ s.mgmt.busy = false ∧ cmdArmed 0x0D = false ∧
       mgmtCheck 0x0D (pathGet .cport s).args (pathGet .cport s).overflow s = some (mrNoSuch, 0)) ∧
    (up.mgmt.busy = false ∧ cmdDefined 0x00 = false ∧ cmdDefined 0x13 = false ∧ isManager up = true ∧ atLevel1 up = true) ∧
    (let s := next (.arrayCmdBadCode .cport 0x13) up
     openPath .cport s ∧ ∃ r ∈ s.mgmt.running, r.res = some (mrBadCode, 0xFF) ∧ r.sigs = [] ∧ mrBadCode ≠ mrMediaError ∧
       mrBadCode ≠ mrFabricTimeout) := by
  simp only [openPath]; and_intros <;> decide +kernel

/-! ## Witnesses: queues, commands, locks -/

/-- At LEVEL2 with studio 0 ACTIVE and queue 0 with its completion queue in queue-ring SRAM, eight slots each. -/
def queue0 : State :=
  let s := { painted with studios := painted.studios.set 0 { painted.studios.get 0 with state := .active } }
  sqPut 0 { en := true, loc := true, depthLog2 := 3, state := .running }
    (cqPut 0 { en := true, loc := true, depthLog2 := 3, base := 0x1000, run := true } s)

/-- Queue 0 changed. -/
def withSq (f : Sq → Sq) (s : State) : State := sqPut 0 (f (sqGet 0 s)) s

/-- Queue 0 with a completion queue that has gone round. -/
def wrapped : State := cqPut 0 { cqGet 0 queue0 with head := 6, tail := 1 } queue0

theorem meets_DoorbellsMoveTheirPointers :
    (queuesRun queue0 = true ∧ (sqGet 0 queue0).state = .running ∧ bits 7 9 0 < depthOf (sqGet 0 queue0).depthLog2 ∧
      ringSub (sqGet 0 queue0).tail (sqGet 0 queue0).head (depthOf (sqGet 0 queue0).depthLog2) ≤
        ringSub (bits 7 9 0) (sqGet 0 queue0).head (depthOf (sqGet 0 queue0).depthLog2)) ∧
    (queuesRun wrapped = true ∧ (cqGet 0 wrapped).run = true ∧ bits 1 9 0 < depthOf (cqGet 0 wrapped).depthLog2 ∧
       ringSub (bits 1 9 0) (cqGet 0 wrapped).head (depthOf (cqGet 0 wrapped).depthLog2) ≤
         ringSub (cqGet 0 wrapped).tail (cqGet 0 wrapped).head (depthOf (cqGet 0 wrapped).depthLog2)) ∧
    ¬bits 8 9 0 < depthOf (sqGet 0 queue0).depthLog2 ∧ (sqGet 1 queue0).state = .disabled ∧ (cqGet 1 queue0).run = false := by
  decide +kernel

/-- The 64 bytes of a command: its opcode, its volume, the low byte of SLBA and of NLB, and the valid mark. -/
def cmdBytes (op vol slba nlb : Byte) : List Byte :=
  [op, 0, 5, 1, vol, 0, 0, 0, slba, 0, 0, 0, 0, 0, 0, 0, nlb] ++ List.replicate 46 0 ++ [0x80]

/-- The 64 bytes of a NOP. -/
def nopBytes : List Byte := List.replicate 63 0 ++ [0x80]

/-- A command of queue 0 in CMD_SLOT 0, decoded, at a stage. -/
def inSlot (op : Byte) (o : Opcode) (nlb : Byte) (g : Stage) (s : State) : State :=
  let b := cmdBytes op 0 8 nlb
  slotPut 0 { sq := 0, idx := 0, stage := g, bytes := b, cmd := some (cmdOf b o), cid := 0x0105 } s

/-- Queue 0 FROZEN on ring slot 3, with no completion held. -/
def frozen3 (fetch tail : Nat) : State :=
  withSq (fun x => { x with state := .frozen, freezeSlot := 3, fetch := fetch, tail := tail }) queue0

/-- Queue 0 FROZEN with the completion of a NOP held. -/
def heldNop : State :=
  withSq (fun x => { x with state := .frozen, heldSlot := some 0, fetch := 1, tail := 2 })
    (slotPut 0 { sq := 0, idx := 0, stage := .held, bytes := nopBytes } queue0)

theorem meets_FrozenQueuesResume :
    (queuesRun (frozen3 4 4) = true ∧ (sqGet 0 (frozen3 4 4)).state = .frozen ∧
      (sqGet 0 (frozen3 4 4)).freezeSlot = (3 : BitVec 10).toNat ∧ (sqGet 0 (frozen3 4 4)).heldSlot = none ∧
      (sqGet 0 (frozen3 4 4)).fetch = (sqGet 0 (frozen3 4 4)).tail) ∧
    (queuesRun (frozen3 4 6) = true ∧ (sqGet 0 (frozen3 4 6)).heldSlot = none ∧
      (sqGet 0 (frozen3 4 6)).fetch ≠ (sqGet 0 (frozen3 4 6)).tail) ∧
    (queuesRun heldNop = true ∧ (sqGet 0 heldNop).state = .frozen ∧ (sqGet 0 heldNop).freezeSlot = (0 : BitVec 10).toNat ∧
       (sqGet 0 heldNop).heldSlot = some 0 ∧ ∃ x ∈ slotGet 0 heldNop, x.sq = 0 ∧
         checkBytes x.bytes (sqStudio x.sq) heldNop = .inl (cmdOf x.bytes .nop) ∧ (cmdOf x.bytes .nop).op = .nop) ∧
    (sqGet 0 queue0).state ≠ .frozen ∧ (sqGet 0 (frozen3 4 6)).freezeSlot ≠ (0 : BitVec 10).toNat := by decide +kernel

/-- The ring of queue 0 holds a command in its first slot, and the queue's next pick is fetching it. -/
def fetchingFrom (b : List Byte) (s : State) : State :=
  slotPut 0 { sq := 0, idx := 0, stage := .fetching }
    { s with hbu := { s.hbu with ringSram := memWriteList s.hbu.ringSram 0 b } }

/-- A command is being fetched in its turn, and its checks have this result. -/
def checked (r : Cmd ⊕ (Byte × Byte)) (s : State) : Prop :=
  queuesRun s = true ∧ ∃ x ∈ slotGet 0 s, x.stage = .fetching ∧ fetchTurn x s = true ∧
    ∃ b ∈ (fetchedBytes x s).bind Sum.getLeft?, checkBytes b (sqStudio x.sq) s = r

/-- Two commands wait in queue 0. -/
def queued2 : State := withSq (fun x => { x with tail := 2 }) queue0

theorem meets_PickAndChecks :
    (queuesRun queued2 = true ∧ fetching queued2 < 4 ∧ nextPick queued2 = some 0 ∧ freeSlot queued2 = some 0) ∧
    checked (.inl (cmdOf nopBytes .nop)) (fetchingFrom nopBytes queue0) ∧
    checked (.inl (cmdOf (cmdBytes 1 0 8 2) .read)) (fetchingFrom (cmdBytes 1 0 8 2) queue0) ∧
    (checked (.inr (stBadOpcode, 0)) (fetchingFrom (cmdBytes 7 0 8 2) queue0) ∧ (sqGet 0 queue0).errMode = false ∧
      (sqGet 0 queue0).first = none) := by
  simp only [checked]; decide +kernel

/-- A READ waits for its lock, first in the line. -/
def lockFirst : State :=
  let s := inSlot 1 .read 2 .lockWait queue0
  { s with queues := { s.queues with line :=
      [{ excl := false, studio := some 0, array := 0, start := 8, count := 2, kind := .command, work := .cmd 0 }] } }

/-- A transfer waits for its DMA_DESC unit. -/
def descWaits : State :=
  { queue0 with
    ledger := { queue0.ledger with waiting := [{ pool := pDesc, who := none, n := 1, use := .dmaDesc 0 }] }
    dma := { queue0.dma with waiting := [{ id := 0, kind := .fetch 0, studio := 0, src := .flat 0, dst := .device, length := 64 }] } }

theorem meets_LocksAndPoolsAreGranted :
    (let x : Lock := { excl := true, studio := none, array := 0, start := 8, count := 8, kind := .command, work := .cmd 0 }
     let y : Lock := { x with start := 15, count := 1, work := .cmd 1 }
     x.array = y.array ∧ (x.start ≤ 15 ∧ 15 < x.start + x.count ∧ y.start ≤ 15 ∧ 15 < y.start + y.count) ∧ x.excl = true ∧
       ¬(x.work = y.work ∧ (x.kind = .child ∨ y.kind = .child))) ∧
    (unitsRun lockFirst = true ∧ (∃ l ∈ grantable lockFirst, l.kind = .command ∧ l.work = .cmd 0) ∧
      (∃ x ∈ slotGet 0 lockFirst, ∃ c ∈ x.cmd, ownerCheck c (sqStudio x.sq) lockFirst = none ∧
       stateCheck c lockFirst = none) ∧
      ((List.range 384).find? fun k => (kget k lockFirst.queues.locks).isNone) = some 0) ∧
    (unitsRun descWaits = true ∧ ∃ r ∈ poolReady pDesc descWaits, r.use = .dmaDesc 0) ∧
    (let s := inSlot 2 .write 2 .pressed queue0
     queuesRun s = true ∧ ∃ x ∈ slotGet 0 s, ∃ c ∈ x.cmd, x.stage = .pressed ∧ c.op = .write ∧ mustPress c (sqStudio x.sq) s = false) := by
  decide +kernel

/-- CMD_SLOT 0 holds this command at this stage, at LEVEL2. -/
def atStageOf (o : Opcode) (g : Stage) (s : State) : Prop :=
  queuesRun s = true ∧ ∃ x ∈ slotGet 0 s, ∃ c ∈ x.cmd, x.stage = g ∧ c.op = o ∧ c.dptr ≠ .fifo ∧ x.moved = 0 ∧ x.covers = [] ∧
    x.wabort = false ∧ x.ending = none ∧ fifoLoaded 0 s = false ∧ (sqGet x.sq s).errMode = false ∧ (sqGet x.sq s).first = none

/-- The tile of the READ of `inSlot` held in canvas memory. -/
def tileHeld : State :=
  let s := inSlot 1 .read 2 .ready queue0
  { s with canvas := { s.canvas with tiles := [(0, { bind := .array 0 1, valid := 0xFF, dirty := false, data := Vector.replicate 8 0,
                                                     charge := none })] } }

/-- A NOP is ready in CMD_SLOT 0. -/
def nopReady : State := slotPut 0 { sq := 0, idx := 0, stage := .ready, cmd := some (cmdOf nopBytes .nop) } queue0

/-- A WHISTLE of queue 0 waits, and a covered queue has stopped. -/
def whistleBroken : State :=
  slotPut 0 { sq := 0, idx := 0, stage := .waiting, cmd := some (cmdOf (cmdBytes 6 0 0 0) .whistle), wabort := true } queue0

/-- A VERIFY that has done every stripe. -/
def verified : State :=
  slotPut 0 { sq := 0, idx := 0, stage := .active, cmd := some (cmdOf (cmdBytes 3 0 8 2) .verify), vpos := 100, skipped := 3 } queue0

theorem meets_DataCommandsStart :
    atStageOf .nop .ready nopReady ∧
    (atStageOf .read .ready tileHeld ∧ ∃ x ∈ slotGet 0 tileHeld, ∃ c ∈ x.cmd,
      badCovers (tileCover (cmdArray c tileHeld) (cmdStart c tileHeld / 8) tileHeld)
        (readMask c (cmdStart c tileHeld / 8) tileHeld &&& ~~~(cached (cmdArray c tileHeld) (cmdStart c tileHeld / 8) tileHeld).1) = [] ∧
      readMask c (cmdStart c tileHeld / 8) tileHeld &&& ~~~(coverMask (tileCover (cmdArray c tileHeld) (cmdStart c tileHeld / 8) tileHeld) |||
        (cached (cmdArray c tileHeld) (cmdStart c tileHeld / 8) tileHeld).1) = 0) ∧
    atStageOf .write .ready (inSlot 2 .write 2 .ready queue0) ∧ atStageOf .write .active (inSlot 2 .write 2 .active queue0) ∧
    atStageOf .read .active (inSlot 1 .read 2 .active queue0) ∧
    (atStageOf .trim .ready (inSlot 4 .trim 2 .ready queue0) ∧ (allocRec (inSlot 4 .trim 2 .ready queue0)).isSome = true) ∧
    atStageOf .flush .ready (inSlot 5 .flush 0 .ready queue0) ∧
    (atStageOf .flush .waiting (inSlot 5 .flush 0 .waiting queue0) ∧ liveRecs (inSlot 5 .flush 0 .waiting queue0) = []) ∧
    atStageOf .whistle .ready (inSlot 6 .whistle 0 .ready queue0) ∧
    (let s := inSlot 6 .whistle 0 .waiting queue0
     atStageOf .whistle .waiting s ∧ ∃ x ∈ slotGet 0 s, whistlePosted 0 x s = true ∧ x.tails = []) ∧
    (queuesRun whistleBroken = true ∧ ∃ x ∈ slotGet 0 whistleBroken, ∃ c ∈ x.cmd, c.op = .whistle ∧ x.stage = .waiting ∧
      whistlePosted 0 x whistleBroken = true ∧ x.wabort = true ∧ (sqGet x.sq whistleBroken).errMode = false ∧
      (sqGet x.sq whistleBroken).first = none) ∧
    (let s := inSlot 3 .verify 2 .ready queue0
     atStageOf .verify .ready s ∧ holds (.cmd 0) .child s = false ∧ waits (.cmd 0) .child s = false ∧
       ∃ x ∈ slotGet 0 s, ∃ c ∈ x.cmd, x.vcur = none ∧ verifyStripe x c s = some (false, 0)) ∧
    (atStageOf .verify .active verified ∧ ∃ x ∈ slotGet 0 verified, ∃ c ∈ x.cmd, x.vcur = none ∧ verifyStripe x c verified = none) := by
  simp only [atStageOf]; and_intros <;> decide +kernel

/-- The completion of the command in CMD_SLOT 0 is being written into host memory by channel 3. -/
def postRuns : State :=
  let s := cqPut 0 { cqGet 0 queue0 with loc := false } (inSlot 1 .read 2 .done queue0)
  let s := chanPut 3 { chanGet 3 s with
    en := true, state := .running
    cur := some { id := 0, kind := .post 0, studio := 0, src := .device, dst := .device, length := 16, hasDesc := true } } s
  { s with hbu := { s.hbu with
      masterEn := true, tenure := some 0
      access := some { chan := 3, behalf := 0, xfer := some 0, kind := .post 0, cycles := [⟨0x1000, 4, some [0, 0, 0, 0]⟩] } } }

/-- A studio's completions wait for their timer. -/
def timing : State :=
  { queue0 with queues := { queue0.queues with pend := queue0.queues.pend.set 0 1, timer := queue0.queues.timer.set 0 true } }

theorem meets_CompletionsArePosted :
    (let s := inSlot 1 .read 2 .done queue0
     unitsRun s = true ∧ s.hbu.access = none ∧ ∃ x ∈ slotGet 0 s, x.stage = .done ∧ (sqGet x.sq s).cmode = false ∧
       (sqGet x.sq s).first = none ∧ (cqGet (sqCq x.sq s) s).loc = true ∧ (cqGet (sqCq x.sq s) s).ien = false) ∧
    (unitsRun timing = true ∧ timing.queues.timer.get 0 = true ∧ 0 < timing.queues.pend.get 0 ∧ cplClear 0 timing = true) ∧
    (unitsRun postRuns = true ∧ postRuns.hbu.tenure.isSome = true ∧
      (∃ a ∈ postRuns.hbu.access, a.kind = .post 0 ∧ a.cycles ≠ [] ∧ (∀ h ∈ a.cycles, h.addr < 2 ^ 24) ∧
        ∃ f ∈ (chanGet a.chan postRuns).cur, a.xfer = some f.id ∧ f.kind = .post 0 ∧ f.leftover postRuns = false) ∧
      ∃ x ∈ slotGet 0 postRuns, (sqGet x.sq postRuns).cmode = false ∧ (sqGet x.sq postRuns).state = .running) ∧
    posting 0 0x1000 up = false := by decide +kernel

/-! ## Witnesses: the host bus and the DMA engine -/

/-- Every studio may use the first 1 MiB of host memory, by 32-bit cycles that wait for HB_RDY. -/
def mapped (s : State) : State :=
  { s with regions := s.regions.set 0 { base := 0, limit := 0x0FFFFF, en := true, width := 2, setup := 2, strobe := 4,
                                        mask := 0xFF, rdyWait := true, rdyTimeout := 9 } }

/-- The bus is the part's. -/
def ours (f : Hbu → Hbu) : State := mapped { up with hbu := f { up.hbu with masterEn := true, tenure := some 0 } }

/-- Two cycles of an access of channel 5 are still to run. -/
def cycles2 : Access :=
  { chan := 5, behalf := 0, xfer := some 0, kind := .soft, cycles := [⟨0x1000, 4, some [1, 2, 3, 4]⟩, ⟨0x1004, 4, some [5, 6, 7, 8]⟩] }

theorem meets_MasterTenures :
    (let s := { up with hbu := { up.hbu with breq := true, masterEn := true } }
     unitsRun s = true ∧ s.hbu.breq = true ∧ s.hbu.masterEn = true ∧ running s = true ∧ busWanted s = false) ∧
    (let s := ours fun h => { h with access := some cycles2 }
     unitsRun s = true ∧ s.hbu.tenure = some 0 ∧ s.hbu.access = some cycles2 ∧ s.hbu.masterEn = true ∧
       regionAllows cycles2.behalf 0x1004 s = true ∧ s.hbu.tenureMax = 0) ∧
    (let s := ours fun h => { h with access := some cycles2, tenure := some 14, tenureMax := 1 }
     14 + 1 < 16 * s.hbu.tenureMax.toNat) ∧
    (let s := ours fun h => { h with access := some cycles2, tenure := some 15, tenureMax := 1, releaseGap := 3 }
     s.hbu.tenure = some 15 ∧ s.hbu.tenureMax ≠ 0 ∧ 16 * s.hbu.tenureMax.toNat ≤ 15 + 1 ∧ s.hbu.releaseGap ≠ 0 ∧ busWanted s = true) ∧
    up.hbu.tenure = none := by decide +kernel

/-- A transfer of 100 bytes of descriptor 3. -/
def move : Xfer :=
  { id := 0, kind := .soft 3 7 true false, studio := 0, src := .flat 0x1000, dst := .flat 0x2001, length := 100, hasDesc := true }

/-- Channel 5 is SOFT with a transfer in a tenure of the host bus. -/
def soft5 (k : Chan → Chan) : State :=
  chanPut 5 (k { chanGet 5 up with user := userSoft, ringLog2 := 4, ringBase := 0x4000, state := .running, cur := some move })
    (ours id)

/-- An access of channel 5 is under way. -/
def running5 (k : Chan → Chan) (a : AccessKind) (l : List MCycle) : State :=
  let s := soft5 k
  { s with hbu := { s.hbu with
      access := some { chan := 5, behalf := 0, xfer := (chanGet 5 s).cur.map (·.id), kind := a, cycles := l } } }

/-- A read cycle and a write cycle. -/
def reads4 : MCycle := ⟨0x1000, 4, none⟩
def writes4 : MCycle := ⟨0x2004, 4, some [1, 2, 3, 4]⟩

/-- Channel 5 alone waits for a grant that does not come. -/
def noGrant : State :=
  let s := soft5 id
  { s with hbu := { s.hbu with tenure := none, breq := true, gntTimeout := 1 } }

theorem meets_BusFaultsEndTransfers :
    (let s := running5 id (.burst []) [reads4, writes4]
     unitsRun s = true ∧ s.hbu.tenure.isSome = true ∧ (∃ a ∈ s.hbu.access, a.cycles = [reads4, writes4] ∧ reads4.addr < 2 ^ 24 ∧ a.xfer = some move.id) ∧
       (chanGet 5 s).cur = some move ∧ move.kind = .soft 3 7 true false ∧ move.ended = none ∧
       ∃ r ∈ regionOf reads4.addr s, r.rdyWait = true ∧ r.rdyTimeout ≠ 0) ∧
    (let s := running5 id (.burst []) [reads4, writes4]
     let s := { s with regions := s.regions.set 0 { s.regions.get 0 with rdyTimeout := 0 } }
     ∃ r ∈ regionOf reads4.addr s, r.rdyTimeout = 0) ∧
    cycleAt 6 0x1000 (running5 id (.burst []) [reads4, writes4]) = false ∧
    (let s := { up with hbu := { up.hbu with breq := true, gntTimeout := 1 } }
     unitsRun s = true ∧ s.hbu.breq = true ∧ s.hbu.gntTimeout ≠ 0 ∧ waitingChans s = []) ∧
    (unitsRun noGrant = true ∧ noGrant.hbu.breq = true ∧ noGrant.hbu.gntTimeout ≠ 0 ∧ waitingChans noGrant = [5] ∧
      noGrant.hbu.access = none ∧ (chanGet 5 noGrant).cur = some move) := by decide +kernel

/-- A transfer waits for a channel. -/
def lined : State := { up with dma := { up.dma with waiting := [move] } }

theorem meets_DmaControl :
    (let s := soft5 fun k => { k with state := .idle, cur := none }
     unitsRun s = true ∧ (chanGet 5 s).state = .idle ∧ (chanGet 5 s).user = userSoft ∧ (chanGet 5 s).en = true ∧
       running s = true ∧ s.hbu.access = none) ∧
    (chanGet 5 (soft5 fun k => { k with state := .halted, cur := none })).state = .halted ∧
    (let s := soft5 fun k => { k with user := userQueue, state := .halted, cur := none }
     (chanGet 5 s).state = .halted ∧ (chanGet 5 s).user = userQueue) ∧
    (chanGet 5 (soft5 id)).state = .running ∧
    (let s := soft5 fun k => { k with state := .polling, cur := none }; (chanGet 5 s).state = .polling ∧ (chanGet 5 s).look = false) ∧
    (unitsRun lined = true ∧ lined.dma.waiting.find? (·.hasDesc) = some move ∧ idleQueueChan lined = some 0) := by
  and_intros <;> decide +kernel

/-- A list walk of channel 5 without runs. -/
def walk : Xfer := { move with src := .list 0x3000 [] 7 }

/-- Eight bytes of a list entry. -/
def entry (l : List Byte) : Vector Byte 8 := Vector.ofFn fun i => l.getD i.val 0

/-- Sixty-four bytes read from host memory. -/
def sevens : Vector Byte 64 := Vector.replicate 64 7

theorem meets_BurstsMoveBytes :
    (let s := soft5 id
     busOurs s ∧ (burstOrder s).find? (fun d => (burstOf d sevens.toList s).isSome) = some 5 ∧ (chanGet 5 s).cur = some move ∧
     (chanGet 5 s).state ≠ .stopping ∧
     ∃ src ∈ move.src.addrs move.pos move.burst, ∃ dst ∈ move.dst.addrs move.pos move.burst,
       ∃ out ∈ burstOut move move.burst sevens.toList s,
         beginsAt move.behalf (readCycles move.src move.pos src s ++ writeCycles move.dst move.pos dst out s) s) ∧
    (let s := running5 id (.burst sevens.toList) [writes4]
     ∃ a ∈ s.hbu.access, lastCycle a writes4 s ∧ a.kind = .burst sevens.toList ∧ a.xfer = some move.id ∧
       (chanGet a.chan s).cur = some move) ∧
    (let s := soft5 fun k => { k with cur := some walk }
     busOurs s ∧ (chanGet 5 s).cur = some walk ∧ walk.src = .list 0x3000 [] 7 ∧ walk.moves = true ∧ walk.pos < walk.length ∧
     beginsAt walk.behalf (readCycles .device 0 ((List.range 8).map (0x3000 + ·)) s) s) ∧
    (let s := running5 (fun k => { k with cur := some walk }) (.entry false (entry [0, 0, 0x10, 0, 0, 1, 0, 0]).toList) [reads4]
     ∃ a ∈ s.hbu.access, lastCycle a reads4 s ∧ a.xfer = some walk.id ∧ (chanGet a.chan s).cur = some walk) ∧
    (let l := (entry [0, 0, 0x10, 0, 0, 1, 0, 0]).toList
     leField l 3 1 = 0 ∧ leField l 7 1 = 0 ∧ leField l 4 3 ≠ 0 ∧ leField l 0 3 + leField l 4 3 ≤ 0x1000000) ∧
    (let l := (entry [0, 0x31, 0, 0, 0, 0, 0, 0x80]).toList; leField l 3 1 = 0 ∧ leField l 7 1 = 128 ∧ leField l 4 3 = 0) ∧
    leField (entry [0, 0, 0, 1, 8, 0, 0, 0]).toList 3 1 ≠ 0 := by
  simp only [busOurs, beginsAt, lastCycle]; and_intros <;> decide +kernel

/-- The 64 bytes of a software descriptor from 0x1000 to 0x2000 of 256 bytes, with its OWN bit or not. -/
def desc (own : Byte) : Vector Byte 64 :=
  Vector.ofFn fun i => ([0, 0, 0, 0, 0, 1, 0, 0, 0, 0x10, 0, 0, 0, 0x20, 0, 0] : List Byte).getD i.val (if i.val = 63 then own else 0)

/-- The read of descriptor 3 as a transfer. -/
def descXf : Xfer := { move with kind := .desc 3, src := .flat 0x40C0, dst := .device, length := 64 }

/-- The transfer of descriptor 3 has ended OK. -/
def endedXf : Xfer := { move with ended := some (stOk, 0), pos := 100 }

theorem meets_DescriptorsAndTheirCompletions :
    (let s := soft5 fun k => { k with cur := none, look := true, state := .idle }
     busOurs s ∧ (chanGet 5 s).state ≠ .stopping ∧ (chanGet 5 s).cur = none ∧ (chanGet 5 s).look = true ∧
       beginsAt (chanGet 5 s).studio (readCycles .device 0 (pollAddrs (chanGet 5 s) s) s) s) ∧
    (let s := soft5 fun k => { k with cur := some descXf }
     (chanGet 5 s).cur = some descXf ∧ descXf.kind = .desc 3 ∧ descXf.hasDesc = true ∧
       beginsAt descXf.behalf (readCycles .device 0 ((List.range 64).map ((chanGet 5 s).descAddr 3 + ·)) s) s) ∧
    (let s := soft5 fun k => { k with cur := some endedXf }
     (chanGet 5 s).cur = some endedXf ∧ (chanGet 5 s).cmode ≠ 1 ∧
       beginsAt endedXf.behalf (groupsCycles (softWrites 5 (chanGet 5 s) endedXf 3 7 stOk 0) s) s) ∧
    (let s := running5 (fun k => { k with cur := none, look := true, state := .idle }) (.poll 0x80) [reads4]
     (∃ a ∈ s.hbu.access, lastCycle a reads4 s ∧ (chanGet a.chan s).cur = none ∧ (chanGet a.chan s).look = true)) ∧
    (let s := running5 (fun k => { k with cur := some descXf }) (.desc (desc 0x80).toList) [reads4]
     ∃ a ∈ s.hbu.access, lastCycle a reads4 s ∧ a.xfer = some descXf.id ∧ (chanGet a.chan s).cur = some descXf) ∧
    ((0x7F : Byte).toNat < 128 ∧ 128 ≤ ((desc 0x80).toList.getD 63 0).toNat ∧ ((desc 0x7F).toList.getD 63 0).toNat < 128 ∧
      descCheck (descXfer descXf 3 (desc 0x80).toList) (desc 0x80).toList = none) ∧
    (let s := running5 (fun k => { k with cur := some endedXf }) .soft [writes4]
     ∃ a ∈ s.hbu.access, lastCycle a writes4 s ∧ a.xfer = some endedXf.id ∧ (chanGet a.chan s).cur = some endedXf) := by
  simp only [busOurs, beginsAt, lastCycle]; and_intros <;> decide +kernel

/-- `queue0` on a 32-bit host bus, with the mirror. -/
def bus32 : State :=
  { queue0 with restart := { queue0.restart with straps := { queue0.restart.straps with width := 2, ctlmir := true } } }

/-- Studio 0 may read no mailbox page. -/
def denied : State := studioPut 0 { studioGet 0 bus32 with cfg := { (studioGet 0 bus32).cfg with mbxRd := 0 } } bus32

/-- A mailbox write is posted. -/
def posted1 : State := aliasPut 0 { aliasGet 0 bus32 with buf := [⟨0x23FC, 0x5, 0x11223344⟩] } bus32

theorem meets_TargetCycles :
    (busFree bus32 = true ∧ awake bus32 ∧ bus32.restart.straps.width = 2 ∧ bus32.restart.straps.ctlmir = true) ∧
    ((∀ st, spotOf (0x2000 / 4 * 4) bus32 ≠ .pioData st) ∧
      (aliasGet (aliasOf (spotOf (0x2000 / 4 * 4) bus32) bus32) bus32).buf.length < 16) ∧
    (spotOf (0x2000 / 4 * 4) bus32 = .mailbox 0 ∧ (aliasGet (fin8 (0 / 1024)) bus32).buf = [] ∧
      mailboxAllows (fin8 (0 / 1024)) 0 false bus32 = true) ∧
    (busFree denied = true ∧ spotOf (0x2000 / 4 * 4) denied = .mailbox 0 ∧ mailboxAllows (fin8 (0 / 1024)) 0 false denied = false) ∧
    (∀ al, (aliasGet al bus32).buf = []) ∧
    (windowLive posted1 = true ∧ (aliasGet 0 posted1).buf = [⟨0x23FC, 0x5, 0x11223344⟩] ∧ spotOf 0x23FC posted1 = .mailbox 0x3FC ∧
       mailboxAllows (fin8 (0x3FC / 1024)) 0x3FC true posted1 = true) := by
  simp only [awake]; and_intros <;> decide +kernel

/-- Studio 0 has a FIFO command under way and an access that waits. -/
def waiting (push pop : Bool) (l : List Byte) (rem : Nat) : State :=
  aliasPut 0 { aliasGet 0 bus32 with pio := l, pioCur := some (0, 0, pop, rem), pioWait := [⟨push, 0xF, 0x04030201, false⟩] } bus32

theorem meets_WaitingPioAccesses :
    (let s := waiting true false [] 4
     windowLive s = true ∧ (aliasGet 0 s).pioWait = [⟨true, 0xF, 0x04030201, false⟩] ∧
       (aliasGet 0 s).pioCur = some (0, 0, false, 4) ∧ (aliasGet 0 s).buf = [] ∧ laneCount 0xF ≤ 4 ∧
       (aliasGet 0 s).pio.length + laneCount 0xF ≤ 2048) ∧
    (let s := waiting false true [1, 2, 3, 4] 512
     windowLive s = true ∧ s.restart.straps.width = 2 ∧ (aliasGet 0 s).pioWait = [⟨false, 0xF, 0x04030201, false⟩] ∧
       (aliasGet 0 s).pioCur = some (0, 0, true, 512) ∧ laneCount 0xF ≤ (aliasGet 0 s).pio.length ∧ 512 ≠ laneCount 0xF ∧
       (slotGet 0 s).bind (·.ending) = none) ∧
    (windowLive bus32 = true ∧ (aliasGet 0 bus32).pioWait = []) := by
  and_intros <;> decide +kernel

/-! ## Witnesses: studios, the Ledger, canvas memory -/

/-- Studio 2 in a state. -/
def studio2 (f : Studio → Studio) : State := studioPut 2 (f (studioGet 2 up)) up

/-- An access of studio 2 is under way. -/
def busy2 : State :=
  let s := studio2 fun x => { x with state := .resetting }
  { s with hbu := { s.hbu with access := some { chan := 5, behalf := 2, xfer := none, kind := .soft, cycles := [] } } }

theorem meets_StudioResets :
    (let s := studio2 fun x => { x with state := .active }
     running s = true ∧ atLevel2 s = true ∧ (studioGet 2 s).state = .active ∧ (studioGet 2 s).state ≠ .resetDone) ∧
    (let s := studio2 fun x => { x with state := .idle }; running s = true ∧ (studioGet 2 s).state = .idle) ∧
    (running (at' .level1) = true ∧ atLevel2 (at' .level1) = false) ∧
    (let s := studio2 fun x => { x with state := .resetting }
     unitsRun s = true ∧ (studioGet 2 s).state = .resetting ∧ studioQuiet 2 s = true ∧ auditFail (some 2) s = none) ∧
    (let s := studio2 fun x => { x with state := .resetting }
     let s := { s with ledger := { s.ledger with pools := s.ledger.pools.set 0 { poolGet 0 s with free := 3 } } }
     (studioGet 2 s).state = .resetting ∧ studioQuiet 2 s = true ∧ auditFail (some 2) s ≠ none) ∧
    (unitsRun busy2 = true ∧ (studioGet 2 busy2).state = .resetting ∧ studioQuiet 2 busy2 = false) ∧
    (let s := studio2 fun x => { x with state := .resetDone, done := true }
     unitsRun s = true ∧ running s = true ∧ atLevel2 s = true ∧ (studioGet 2 s).state = .resetDone) := by
  and_intros <;> decide +kernel

/-- A TICK counter value. -/
def ticked (n : Dword) (s : State) : State := { s with clk := { s.clk with tick := n } }

theorem meets_AuditAndParity :
    (auditRuns up = true ∧ auditFail none up = none ∧ running up = true ∧ up.restart.level ≠ .failstop) ∧
    (let s := { up with ledger := { up.ledger with pools := up.ledger.pools.set 1 { poolGet 1 up with free := 3 } } }
     auditRuns s = true ∧ ∃ x ∈ auditFail none s, x.1 = 1) ∧
    (ticked 101 up).clk.tick.toNat % 100 ≠ 0 := by
  and_intros <;> decide +kernel

theorem meets_SecondTier :
    let s := { up with
      ledger := { up.ledger with pools := up.ledger.pools.set 3 (.full 64) }, canvas := { up.canvas with density := 3 } }
    tier2Used s = true ∧ (0x0300 : Half).toNat / 256 % 8 = s.canvas.density.toNat ∧
      (0x0200 : Half).toNat / 256 % 8 ≠ s.canvas.density.toNat ∧ s.canvas.fails < 2 ∧
      2 ≤ { s.canvas with fails := 2 }.fails := by
  and_intros <;> decide +kernel

/-! ## Witnesses: members and their ports -/

/-- Port 3 of the manager with its member changed. -/
def port3 (x : Port) (m : Member) : State := portPut 3 x (memPut 3 m up)

/-- A powered port with an accepted card. -/
def live : Port := { cdLow := true, cdNow := true, cdKnown := true, discovered := true, powered := true }

/-- A port without a card whose SDn_CD_N has read low for 2500 TICKs, its power off for some. -/
def detected (n : Nat) : Port := { cdNow := true, cdKnown := true, cdCount := 2500, discovered := true, offTicks := n }

/-- A seated card's port whose SDn_CD_N has read high for 2500 TICKs. -/
def pulled : Port := { live with cdNow := false, cdCount := 2500 }

/-- What a blank SD card of the high-speed mode answers, its erased value 0. -/
def blankCard : CardIdent :=
  { emmc18 := false, emmc33 := false, sd := true, v2 := true, ccs := true, s18a := false, switches := false, sduc := false,
    wide := true, modes := 0x0006, limits := 1, tunes := {}, eraseOnes := false, capacity := 200000,
    cid := Vector.replicate 16 7, ms := 90, copyA := some (Vector.replicate 8 0), copyB := none }

/-- A card without a 4-bit bus. -/
def narrowCard : CardIdent := { blankCard with wide := false }

theorem meets_CardsComeAndGo :
    (cdHeld 3 true up = false ∧ cdHeld 3 false up = false) ∧
    (let s := port3 (detected 1000) {}
     awake s ∧ cdHeld 3 true s = true ∧ (portGet 3 s).powered = false ∧ (memGet (ownMember 3 s) s).state = .absent ∧
       1000 ≤ (portGet 3 s).offTicks) ∧
    (let s := port3 (detected 7) { state := .missing }
     awake s ∧ cdHeld 3 true s = true ∧ (memGet (ownMember 3 s) s).state = .missing ∧ (portGet 3 s).offTicks < 1000) ∧
    (let s := port3 live { state := .probing }
     unitsUp s = true ∧ s.power.state ≠ .doze ∧ isManager s = true ∧ (memGet (ownMember 3 s) s).state = .probing ∧
       (memGet (ownMember 3 s) s).mode = 0 ∧ (portGet 3 s).powered = true ∧ (portGet 3 s).classM = none ∧
       (identify (portGet 3 s).cfg blankCard).2.isSome = true ∧ chooseSig blankCard.copyA blankCard.copyB = some (none, none) ∧
       (portGet 3 s).issued = [] ∧ (portGet 3 s).qa = [] ∧ (portGet 3 s).qb = [] ∧ (portGet 3 s).qc = [] ∧
       (identify (portGet 3 s).cfg narrowCard).2.isNone = true) ∧
    (let s := port3 pulled { state := .blank }
     awake s ∧ cdHeld 3 false s = true ∧ (portGet 3 s).cdLow = true ∧ (portGet 3 s).classM = none ∧ (portGet 3 s).issued = [] ∧
       (memGet (ownMember 3 s) s).state = .blank) ∧
    (let s := portPut 1 pulled painted
     awake s ∧ cdHeld 1 false s = true ∧ (portGet 1 s).cdLow = true ∧ (portGet 1 s).classM = none ∧
       (memGet (ownMember 1 s) s).state = .active) := by
  simp only [awake]; and_intros <;> decide +kernel

theorem meets_PortResets :
    (let s := armed .cport 0x00C5 (port3 live { state := .blank })
     openPath .cport s ∧ hasArm .cport 0x00C5 s ∧ (portGet 3 s).cdLow = true ∧ (portGet 3 s).powered = true ∧
       (portGet 3 s).issued = [] ∧ (portGet 3 s).qa = [] ∧ (portGet 3 s).qb = [] ∧ (portGet 3 s).qc = []) ∧
    (let s := armed .cport 0x00C5 up; openPath .cport s ∧ hasArm .cport 0x00C5 s ∧ (portGet 3 s).cdLow = false) ∧
    (let s := port3 { live with classM := some (.active, none) } { state := .probing }
     unitsUp s = true ∧ (portGet 3 s).classM = some (.active, none) ∧ (memGet (ownMember 3 s) s).state = .probing) ∧
    (let s := port3 { live with classM := some (.failed, none) } { state := .probing }
     unitsUp s = true ∧ (portGet 3 s).classM = some (.failed, none)) ∧
    (unitsUp up = true ∧ (portGet 3 up).classM = none) := by
  simp only [openPath, hasArm]; and_intros <;> decide +kernel

/-- A read of one tile row of chunk 0 of stripe 0 of `painted`. -/
def rowRead : MOp :=
  { id := 0, member := 0, cls := .b, kind := .read, sector := 8192, count := 8, use := .chunk (.cmd 0) ⟨0, false, 0, 0⟩ 0 1 }

/-- Port 0 of `painted` with an operation issued and its raw tile waiting; its card in a mode. -/
def readingIn (mode : BitVec 4) (o : MOp) (x : Port → Port) : State :=
  let s := memPut 0 { memGet 0 painted with mode := mode } painted
  let s := portPut 0 (x { live with issued := [o], rungs := [7, 6, 5, 4, 3] }) s
  { s with canvas := { s.canvas with
    tiles := [(4, { bind := .raw (.cmd 0) ⟨0, false, 0, 0⟩ 0, valid := 0, dirty := false, data := Vector.replicate 8 0, charge := none })] } }

/-- Port 0 of `painted` with `rowRead` issued. -/
def reading (x : Port → Port) : State := readingIn 0 rowRead x

/-- `rowRead` after three tries in its mode. -/
def tried : MOp := { rowRead with tries := 3 }

theorem meets_MemberOperations :
    (let s := portPut 0 { live with qa := [{ rowRead with cls := .a, deadline := 9 }, { rowRead with cls := .a, deadline := 5 }] } painted
     portTakes 0 s = true ∧ (refereePick s.referee.cfg (portGet 0 s)).isSome = true) ∧
    (portTakes 0 up = false ∧ refereePick up.referee.cfg (portGet 0 up) = none) ∧
    (let s := reading id
     busRuns 0 s = true ∧ (portGet 0 s).issued = rowRead :: [] ∧ orphanOp rowRead s = false ∧
       rowRead.kind = .read ∧ rowRead.cls ≠ .a ∧ rowRead.use = .chunk (.cmd 0) ⟨0, false, 0, 0⟩ 0 1 ∧
       (tileFind (.raw (.cmd 0) ⟨0, false, 0, 0⟩ 0) s).isSome = true ∧ (portGet 0 s).cdNow = true ∧ rowRead.tries < 3 ∧
       tuneMask {} (memGet (ownMember 0 s) s).mode = none) ∧
    (let s := readingIn 7 rowRead id
     busRuns 0 s = true ∧ (portGet 0 s).issued = rowRead :: [] ∧
       tuneMask { sdr104 := 0x1F00 } (memGet (ownMember 0 s) s).mode = some 0x1F00 ∧ 4 ≤ widest 0x1F00) ∧
    (let s := readingIn 7 tried id
     busRuns 0 s = true ∧ (portGet 0 s).issued = tried :: [] ∧ 3 ≤ tried.tries ∧ tried.stepped = false ∧
       tuneDown {} (rungsBelow 0 s) = some (5, 0)) ∧
    (let s := reading fun x => { x with cdNow := false }; busRuns 0 s = true ∧ (portGet 0 s).cdNow = false) ∧
    (unitsUp (ticked 1024 up) = true ∧ (ticked 1024 up).clk.tick.toNat % 1024 = 0 ∧ (ticked 1024 up).clk.decayed = false) ∧
    (ticked 1023 up).clk.tick.toNat % 1024 ≠ 0 := by
  and_intros <;> decide +kernel

/-- Port 3 of the worker of these tests, with its member changed. -/
def workerCard (m : Member) : State := portPut 3 live (memPut (ownMember 3 worker) m worker)

theorem meets_SignaturesAreRefreshed :
    (let s := port3 live { state := .bench, sigDue := true }
     unitsRun s = true ∧ isManager s = true ∧ isOwn 3 s = true ∧ sigOut 3 s = false ∧ (memGet 3 s).sigDue = true ∧
       (memGet 3 s).state ≠ .active) ∧
    (let s := memPut 1 { memGet 1 painted with sigDue := true } painted
     unitsRun s = true ∧ isOwn 1 s = true ∧ (memGet 1 s).sigDue = true ∧ (sigFrom (sigSource s) 1 s).isSome = true) ∧
    (let s := port3 live { state := .bench, sigMend := some true }
     unitsRun s = true ∧ isManager s = true ∧ isOwn 3 s = true ∧ sigOut 3 s = false ∧ (memGet 3 s).sigDue = false ∧
       (memGet 3 s).sigMend = some true) ∧
    (let s := workerCard { state := .active, sigMend := some false }
     let m := ownMember 3 s
     unitsRun s = true ∧ isManager s = false ∧ isOwn m s = true ∧ sigOut m s = false ∧ (memGet m s).sigMend = some false ∧
       (memGet m s).state = .active) ∧
    (unitsRun up = true ∧ (memGet 3 up).sigDue = false ∧ (memGet 3 up).sigMend = none) := by
  and_intros <;> decide +kernel

/-! ## Witnesses: the Sketchbook and the stripe engine -/

/-- A record of a WRITE or TRIM of array sectors 8 to 15 of `painted`. -/
def record (k : RecKind) : Rec :=
  { kind := k, last := true, array := 0, cseq := 1, start := 8, volume := 0, studio := 0, count := 8, stripe := 0, cid := 0x0105,
    sealTick := 0, pages := if k = .write then [(7, 1)] else [] }

/-- `painted` with records in the slots from 0 on. -/
def sealed (l : List Rec) : State := { painted with skb := { painted.skb with recs := l.zipIdx.map fun (r, i) => (i, r) } }

/-- A state with a program operation in flight. -/
def inFlight (o : ProgOp) (s : State) : State := { s with nv := { s.nv with prog := [o] } }

/-- A page of a WRITE, wholly written. -/
def page1 : Page := { written := 0xFF, data := Vector.replicate 8 1, bad := false }

/-- A WRITE's page 7 is in flight. -/
def paging : State :=
  slotPut 0 { sq := 0, idx := 0, stage := .active, pages := [(1, 7, false)] } (inFlight (.page 0 7 page1) queue0)

/-- A WRITE record, and a TRIM record applied to its end. -/
def written : Rec := { record .write with doneOld := [0] }
def applied8 : Rec := { record .trim with applied := 8 }

theorem meets_ProgramsSealAndRetire :
    (unitsUp paging = true ∧ paging.nv.prog = .page 0 7 page1 :: [] ∧
      ∃ x ∈ slotGet 0 paging, x.pages.find? (fun q => q.2.1 == 7) = some (1, 7, false)) ∧
    (let s := inFlight (.record none 0 (record .write)) painted
     s.nv.prog = .record none 0 (record .write) :: [] ∧ unitsUp s = true ∧ sealOwner none (record .write) s = none ∧
       (record .write).kind = .write) ∧
    ((record .trim).kind = .trim ∧ (record .trim).system = false ∧ (record .trim).start ≤ 9 ∧
      9 < (record .trim).start + (record .trim).count ∧ kget 0 painted.skb.recs = none ∧ liveRecs painted = []) ∧
    (let s := inFlight (.record none 0 (record .write)) (at' .failstop)
     running s = true ∧ unitsUp s = false ∧ s.nv.prog = .record none 0 (record .write) :: []) ∧
    (let s := inFlight (.retire 0) (sealed [written])
     unitsUp s = true ∧ kget 0 s.skb.recs = some written ∧ s.nv.prog = .retire 0 :: [] ∧ (arrGet written.array s).state ≠ .replaying) ∧
    (let s := inFlight (.trimDone 0 8) (sealed [applied8])
     unitsUp s = true ∧ kget 0 s.skb.recs = some applied8 ∧ s.nv.prog = .trimDone 0 8 :: []) ∧
    (up.nv.prog.head? ≠ some (.retire 0) ∧ up.nv.prog.head? = none) := by
  and_intros <;> decide +kernel

/-- A flush of stripe 0 of `painted`. -/
def flush0 (f : Flush → Flush) : Flush := f { id := 0, array := 0, newRegion := false, stripe := 0 }

/-- A SYSTEM lock of some work on `painted`. -/
def sysLock (w : Work) (k : LockKind) : Lock :=
  { excl := true, studio := none, array := 0, start := 0, count := 64, kind := k, work := w }

/-- A WRITE record that is FLUSH_AGE old. -/
def aged (l : List Rec) : State := ticked 100000 (sealed l)

/-- A flush of the stripe of `record .write`. -/
def flushing0 (f : Flush) (l : List (Nat × Lock)) : State :=
  let s := sealed [record .write]
  { s with skb := { s.skb with flushes := [f] }, queues := { s.queues with locks := l } }

/-- Its last member writes have been issued. -/
def issued0 : Flush := flush0 fun f => { f with rows := [1], issued := true, carries := some [1] }

theorem meets_FlushesStartAndEnd :
    (let s := sealed [record .write]
     unitsRun s = true ∧ skbCtrlOk (skbCtrlWord s) = true ∧
       (liveRecs s).filter (fun x => x.2.kind == .write && x.2.array == 0 && x.2.stripe == 0) = [(0, record .write)] ∧
       (s.clk.tick.truncate 32 - (record .write).sealTick : Word).toNat < s.skb.flushAge * 1000) ∧
    (let s := aged [record .write]
     s.skb.flushAge * 1000 ≤ (s.clk.tick.truncate 32 - (record .write).sealTick : Word).toNat ∧ (arrGet 0 s).state.assembled = true ∧
       s.skb.forced = false ∧
       (liveRecs s).filter (fun x => x.2.kind == .write && x.2.array == 0 && x.2.stripe == 0) = [(0, record .write)]) ∧
    (let s := aged [record .write, record .trim]
     let s := { s with skb := { s.skb with forced := true } }
     s.skb.forced = true ∧
       oldestRec ((liveRecs s).filter fun x => (arrGet x.2.array s).state.assembled && x.2.trimLeft) = some (1, record .trim)) ∧
    (let s := sealed [record .trim]
     let r := record .trim
     kget 0 s.skb.recs = some r ∧ r.trimLeft = true ∧
       (arrGet r.array s).state.assembled = true ∧ flushing r.array (trimNext r s).1 (trimNext r s).2 s = false) ∧
    (let s := { painted with skb := { painted.skb with mends := [(⟨0, false, 0, 1⟩, 0)] } }
     s.skb.mends = (⟨0, false, 0, 1⟩, 0) :: [] ∧ (arrGet 0 s).state.assembled = true) ∧
    (let f := flush0 id
     let s := flushing0 f []
     unitsRun s = true ∧ s.skb.flushes.find? (fun g => g.id == f.id) = some f ∧ (arrGet f.array s).state.assembled = true ∧
       f.replay = false ∧ f.nolock = false ∧ holds (.flush f.id) .flush s = false ∧ waits (.flush f.id) .flush s = false) ∧
    (let s := flushing0 issued0 [(0, sysLock (.flush 0) .flush)]
     s.skb.flushes.find? (fun g => g.id == issued0.id) = some issued0 ∧ holds (.flush issued0.id) .flush s = true ∧
       issued0.issued = true ∧ issued0.trim = none ∧ issued0.mend = none ∧ opsOut (.flush issued0.id) s = false ∧
       rowsLeft { issued0 with doneRows := issued0.doneRows ++ issued0.rows } s = [] ∧ issued0.carries = some [(record .write).cseq]) := by
  and_intros <;> decide +kernel

/-! ## Witnesses: background work, assembly, commits that act at once -/

/-- `withArr` with the SYSTEM lock of its background work held. -/
def lockedBg (k : LockKind) (f : Arr → Arr) : State :=
  { withArr f with queues := { up.queues with locks := [(0, sysLock (.background 0) k)] } }

/-- A state with records in the slots from 0 on. -/
def withRecs (l : List Rec) (s : State) : State := { s with skb := { s.skb with recs := (sealed l).skb.recs } }

/-- A state with an NV commit in flight. -/
def committing (c : NvChange) (s : State) : State := { s with nv := { s.nv with prog := [.nv], commits := [c] } }

/-- `painted` lacks role 1, and a restoration onto a target runs. -/
def restoringArr (x : Arr) : Arr :=
  { x with state := .restoring, bgKind := 1, roles := [⟨0, .present⟩, ⟨1, .target⟩, ⟨2, .present⟩] }

theorem meets_BackgroundPasses :
    (∀ x ∈ [((1 : BitVec 4), LockKind.restoration, restoringArr),
        (2, .copyBack, fun x => { restoringArr x with bgKind := 2, sparesUsed := 1 }),
        (3, .inspection, fun x => { x with bgKind := 3 })],
      (let s := withArr x.2.2
       unitsRun s = true ∧ s.restart.nvcfgLost = false ∧ stepMay 0 x.1 s = true ∧
       (if x.1 = 1 then walkAt (arrGet 0 s).walk (arrGet 0 s).mark = some (false, 0) ∧ (arrGet 0 s).restoring.isSome = true
         else 0 = (arrGet 0 s).mark ∧ 0 < (arrGet 0 s).shape.stripes (arrGet 0 s).rows) ∧
       holds (.background 0) x.2.1 s = false ∧ waits (.background 0) x.2.1 s = false ∧
       (arrGet 0 s).state.assembled = true ∧ ((arrGet 0 s).bgKind = 1 ∨ (arrGet 0 s).bgKind = 2 ∨ (arrGet 0 s).bgKind = 3)) ∧
      (let s := withRecs [record .write] (lockedBg x.2.1 x.2.2)
       stepMay 0 x.1 s = true ∧ holds (.background 0) x.2.1 s = true ∧ (arrGet 0 s).bgIssued = false ∧
         stripeBusy 0 false 0 s = true ∧ ownFlush 0 false 0 s = false)) ∧
    (let s := lockedBg .restoration fun x => { restoringArr x with bgIssued := true }
     stepMay 0 1 s = true ∧ holds (.background 0) .restoration s = true ∧ (arrGet 0 s).bgIssued = true ∧
       opsOut (.background 0) s = false ∧ (walkAt (arrGet 0 s).walk (arrGet 0 s).mark).isSome = true ∧
       (arrGet 0 s).restoring.isSome = true) ∧
    (let s := committing (.mark 0 5) (withArr fun x => { restoringArr x with mark := 7 })
     (arrGet 0 s).state.assembled = true ∧ (arrGet 0 s).bgKind = 1 ∧ s.nv.commits = .mark 0 5 :: [] ∧ s.nv.prog = .nv :: [] ∧
       5 ≤ (arrGet 0 s).mark) ∧
    (∀ k ∈ [(1 : BitVec 4), 2, 3],
      let x (x : Arr) : Arr := { (if k == 1 then restoringArr x else { x with bgKind := k }) with mark := 100 }
      (withArr x).nv.commits.contains (.finish 0) = false ∧ passDone 0 k (withArr x) = true ∧
      (let s := committing (.finish 0) (withArr x)
       unitsRun s = true ∧ s.restart.nvcfgLost = false ∧ s.nv.commits = .finish 0 :: [] ∧ s.nv.prog = .nv :: [] ∧
         passDone 0 k s = true)) ∧
    (let s := committing (.finish 0) (withArr fun x => { restoringArr x with mark := 100 })
     (arrGet 0 s).rankBusy = false ∧ (arrGet 0 s).restoring = some 1 ∧ (arrGet 0 s).roles[1]? = some ⟨1, .target⟩ ∧
       (arrGet 0 s).repaint.sub = .none) ∧
    (let s := committing (.finish 0) (withArr fun x => { restoringArr x with mark := 100, rankBusy := true, sparesUsed := 1 })
     passDone 0 1 s = true ∧ (arrGet 0 s).rankBusy = true ∧ (arrGet 0 s).repaint.sub = .none) := by
  and_intros <;> decide +kernel

/-- A repaint of `painted` to four members, forward or back, at a front. -/
def paintingArr (back : Bool) (front w : Nat) (x : Arr) : Arr :=
  { x with
    bgKind := 4
    repaint := { sub := .active, back := back, shape := { n := 4 }, origin := 12000, rows := 60, k := 3264, wmark := w, front := front } }

/-- A part whose present NV copy and cards' signatures agree with its arrays, so that a generation may advance. -/
def settledNv (s : State) : State :=
  let s := (List.finRange 3).foldl (fun s i =>
    let m : Fin 128 := ⟨i.val, by omega⟩
    memPut m { memGet m s with sig := (memGet m s).sig.map fun g => { g with generation := 0 } } s) s
  nvWrite s

theorem meets_RepaintsMoveTheArray :
    (let s := withArr (paintingArr false 96 96)
     copyMay 0 false s = true ∧ 1 = (arrGet 0 s).repaint.front / ((arrGet 0 s).shapeAt true).stripeSectors ∧
       (arrGet 0 s).repaint.front < (arrGet 0 s).repaint.k ∧
       (arrGet 0 s).repaint.front - (arrGet 0 s).repaint.wmark < 64 * (arrGet 0 s).repaint.shape.stripeSectors ∧
       holds (.background 0) .repaint s = false ∧ waits (.background 0) .repaint s = false ∧ unitsRun s = true ∧
       (arrGet 0 s).state.assembled = true ∧ (arrGet 0 s).repaint.sub = .active ∧ (arrGet 0 s).bgKind = 4 ∧ s.skb.flushes = [] ∧
       frontDue 0 s = none ∧ s.restart.nvcfgLost = false) ∧
    (let s := withArr (paintingArr true 64 960)
     copyMay 0 true s = true ∧ (arrGet 0 s).repaint.front < (arrGet 0 s).repaint.wmark ∧
       (arrGet 0 s).repaint.front - (arrGet 0 s).repaint.rmark < 64 * (arrGet 0 s).shape.stripeSectors ∧
       holds (.background 0) .repaint s = false ∧ waits (.background 0) .repaint s = false) ∧
    (let s := lockedBg .repaint fun x => { paintingArr false 96 96 x with bgIssued := true }
     copyMay 0 false s = true ∧ holds (.background 0) .repaint s = true ∧ (arrGet 0 s).bgIssued = true ∧
       opsOut (.background 0) s = false ∧ ((arrGet 0 s).shapeAt true).tiles ≤ (arrGet 0 s).bgRow + 16) ∧
    (let s := settledNv (withArr (paintingArr false 3264 3168))
     endMay 0 false s = true ∧ (arrGet 0 s).repaint.k ≤ (arrGet 0 s).repaint.front) ∧
    (let s := settledNv (withArr (paintingArr true 960 960))
     endMay 0 true s = true ∧ (arrGet 0 s).repaint.wmark ≤ (arrGet 0 s).repaint.front) ∧
    (let s := committing (.front 0 96) (withArr (paintingArr false 192 0))
     unitsRun s = true ∧ s.nv.prog = .nv :: [] ∧ (arrGet 0 s).advDue = false ∧ s.nv.commits = .front 0 96 :: [] ∧
       (arrGet 0 s).repaint.back = false) ∧
    (let s := committing (.cutover 0) (withArr (paintingArr false 3264 3168))
     unitsRun s = true ∧ s.nv.prog = .nv :: [] ∧ (arrGet 0 s).advDue = false ∧ s.nv.commits = .cutover 0 :: []) ∧
    (let s := committing (.back 0) (withArr (paintingArr true 960 960))
     s.nv.prog = .nv :: [] ∧ (arrGet 0 s).advDue = false ∧ s.nv.commits = .back 0 :: [] ∧
       (arrGet 0 s).roles.length ≤ (arrGet 0 s).shape.n) := by
  and_intros <;> decide +kernel

/-- A REPLAYING array with a WRITE record. -/
def replaying0 : State := withRecs [record .write] (withArr fun x => { x with state := .replaying })

theorem meets_ArraysAssembleAndReplay :
    (let s := withArr fun x => { x with state := .stopped }
     assemblyRuns s = true ∧ assemblable 0 s = true ∧ ∀ r ∈ rolesNow 0 s, r.state ≠ .missing) ∧
    (let s := withArr fun x => { x with state := .stopped, offlineMark := true }
     assemblyRuns s = true ∧ atLevel1 s = true ∧ (arrGet 0 s).state = .stopped ∧ assemblable 0 s = false) ∧
    (let s := withArr fun x => { x with state := .replaying }
     unitsRun s = true ∧ (arrGet 0 s).state = .replaying ∧ liveRecs s = [] ∧ s.skb.flushes = [] ∧ (arrGet 0 s).lossDue = none ∧
       (volGet 0 s).array = 0 ∧ (volGet 0 s).state ≠ .gone ∧ (arrGet 0 s).stopping = false) ∧
    (unitsRun replaying0 = true ∧ (arrGet 0 replaying0).state = .replaying ∧ replayNext 0 replaying0 = some (0, record .write) ∧
      0 ∈ (record .write).stripesIn (arrGet 0 replaying0) false ∧ 1 ∉ (record .write).stripesIn (arrGet 0 replaying0) false ∧
      1 ∉ (record .write).stripesIn (arrGet 0 replaying0) true) ∧
    (arrGet 0 painted).state ≠ .replaying := by
  and_intros <;> decide +kernel

/-- The CPORT cursor on the last word of an entry with some of its words staged. -/
def stage' (space e : Nat) (l : List (Nat × Word)) (s : State) : State :=
  let t := onLast space e s
  let c := (pathGet .cport t).cur
  pathPut .cport { pathGet .cport t with cur := { c with staged := l.foldl (fun v x => v.set x.1 x.2) c.staged } } t

/-- That staged entry can be committed. -/
def commits (space e : Nat) (l : List (Nat × Word)) (s : State) : Prop :=
  readyToCommit .cport space e (stage' space e l s) ∧ commitPasses .cport (lastWord space e s) (stage' space e l s)

/-- Words of a LAYER entry: running from AU2, and from an extent of a volume that is GONE. -/
def au2Layer : List (Nat × Word) := [(0, 0xC0800000), (1, 0x5DC00000)]
def goneLayer : List (Nat × Word) := [(0, 0x80000000), (1, 0x5DC00200), (3, 5), (6, 8)]

/-- Layer 4 runs from AU2. -/
def layer4 : State :=
  layPut 4 { layGet 4 up with state := .priming, cfg := (Vector.replicate 8 0).set 0 0xC0800000 |>.set 1 0x5DC00000, r := 192 } up

theorem meets_VolatileCommits :
    commits 0x05 0 [(0, 0xC0300000), (1, 0x200)] (sqPut 0 {} queue0) ∧
    commits 0x05 32 [(0, 0xC0300000), (1, 0x1000)] (cqPut 0 {} (sqPut 0 {} queue0)) ∧
    ((sqGet 0 (sqPut 0 {} queue0)).state = .disabled ∧ (sqGet 0 (sqPut 0 {} queue0)).en = false) ∧
    (let s := chanPut 5 { chanGet 5 up with en := false, state := .disabled } up
     commits 0x06 5 [(0, 0x80000000)] s ∧ (chanGet 5 s).state = .disabled) ∧
    (commits 0x09 4 au2Layer up ∧ (layGet 4 up).state.busy = false ∧
      lKind (stagedVec 8 (stagedWith .cport (lastWord 0x09 4 up) (stage' 0x09 4 au2Layer up))) = 2) ∧
    (commits 0x09 4 goneLayer up ∧
      ∃ c ∈ (admitTerms (lVolume (stagedVec 8 (stagedWith .cport (lastWord 0x09 4 up) (stage' 0x09 4 goneLayer up)))) 96 2 up).getLeft?,
        0 < c) ∧
    (commits 0x09 4 [(0, 0x40800000)] layer4 ∧ (layGet 4 layer4).state.busy = true) ∧
    commits 0x09 4 [(2, 0x00220000)] layer4 ∧
    commits 0x0A 2 [] up ∧ commits 0x0B 1 [] up := by
  simp only [commits, readyToCommit, openPath, commitPasses]; and_intros <;> decide +kernel

/-! ## Witnesses: the Palette -/

/-- Layer 4 plays volume 0 of `painted` from LBA 8 on, its tile 0 awaited; that tile stands in canvas memory. -/
def streaming : State :=
  let v : LWords := ((Vector.replicate 8 0).set 0 0x80000000).set 1 0x5DC00200 |>.set 4 8 |>.set 6 16
  let s := layPut 4 { layGet 4 painted with
    state := .priming, cfg := v, act := v, listRead := true, extents := [(8, 16)], tiles := [⟨0, 3, 0, 0⟩], nextTile := 1 } painted
  { s with canvas := { s.canvas with
    tiles := [(1, { bind := .array 0 1, valid := 0xFF, dirty := false, data := Vector.replicate 8 0, charge := none }),
              (3, { bind := .stream 4 0, valid := 0, dirty := false, data := Vector.replicate 8 0, charge := none })] } }

/-- Layer 4 is fed by the host, with a refill of 512 bytes that has ended. -/
def hostFed : State :=
  let v : LWords := ((Vector.replicate 8 0).set 0 0xA0000000).set 1 0x5DC00200 |>.set 3 0x408 |>.set 5 0x1000
  layPut 4 { layGet 4 up with state := .playing, cfg := v, act := v, listRead := true, rd := 0xE00, refill := some 0x200 } up

theorem meets_PaletteFrames :
    (let s := auPut 1 { auGet 1 up with state := .sleep } up
     unitsRun s = true ∧ (auGet 1 s).state = .sleep ∧ (auGet 0 s).state ≠ .sleep) ∧
    (let s := auPut 0 { auGet 0 up with w0 := 0x992C8000 } { up with palette := { up.palette with en := true } }
     paletteRuns s = true ∧ s.palette.en = true ∧ aEn (auGet 0 s).w0 = true ∧ (auGet 0 s).state = .off ∧ aEn (auGet 1 s).w0 = false) ∧
    (let s := { layer4 with palette := { layer4.palette with enAct := true, booted := true } }
     paletteRuns s = true ∧ s.palette.en = false ∧ s.palette.enAct = true ∧ (layGet 4 s).rests = false ∧ (layGet 5 s).rests = true) ∧
    (unitsRun up = true ∧ (layGet 5 up).rests = true ∧ (layGet 5 up).refill = none) ∧
    (let s := streaming
     unitsRun s = true ∧ (layGet 4 s).rests = false ∧ lKind (layGet 4 s).act = 0 ∧ (layGet 4 s).listRead = true ∧
     (layGet 4 s).tiles.find? (fun y => y.n == 0 && y.held == 0) = some ⟨0, 3, 0, 0⟩ ∧
     (layGet 4 s).tileLba (0 - (layGet 4 s).first) = some 8 ∧
     badCovers (tileCover ((layGet 4 s).arrayTile 8 s).1 ((layGet 4 s).arrayTile 8 s).2 s)
       (0xFF &&& ~~~ (cached ((layGet 4 s).arrayTile 8 s).1 ((layGet 4 s).arrayTile 8 s).2 s).1) = [] ∧
     coverMask (tileCover ((layGet 4 s).arrayTile 8 s).1 ((layGet 4 s).arrayTile 8 s).2 s) |||
       (cached ((layGet 4 s).arrayTile 8 s).1 ((layGet 4 s).arrayTile 8 s).2 s).1 = 0xFF) ∧
    ((layGet 4 hostFed).refill = some 0x200 ∧ refilling 4 hostFed = false ∧ unitsRun hostFed = true) := by
  and_intros <;> decide +kernel

/-! ## Witnesses: the Ferek ring -/

/-- Port FA of `up` changed. -/
def withFa (f : RPort → RPort) : State := { up with ring := { up.ring with fa := f up.ring.fa } }

theorem meets_LinksTrainAndBreak :
    (unitsUp up = true ∧ linkMay false up = true ∧ (rport false up).link = .dark ∧ isManager up = true) ∧
    (let s := withFa fun q => { q with link := .training }
     unitsUp s = true ∧ (rport false s).link = .training ∧ rollsRun s = true ∧ s.ring.roll = none ∧ (rport true s).link ≠ .training) ∧
    (let s := withFa fun q => { q with link := .training }
     let s := { s with restart := { s.restart with nvcfgLost := true } }
     isManager s = true ∧ (rport false s).link = .training ∧ rollsRun s = false) ∧
    (let s := { withFa fun q => { q with link := .up } with ring := { (withFa fun q => { q with link := .up }).ring with roll := some { start := 0 } } }
     (rport false s).link = .up ∧ rollsRun s = true ∧ s.ring.roll.isSome = true ∧ (rport true s).link ≠ .up) ∧
    (let s := withFa fun q => { q with link := .broken }; (rport false s).link = .broken ∧ (rport true s).link ≠ .broken) := by
  and_intros <;> decide +kernel

/-- A packet of no flits. -/
def bare (dst src : BitVec 4) : Pkt := { ch := 0, dst := dst, src := src }

/-- Port FA is UP with two packets unacknowledged, LSEQ 0 and 1. -/
def unacked (e : Nat) : State :=
  withFa fun q => { q with link := .up, episodes := e, replay := [{ kind := 7, p := bare 1 0 }, { kind := 7, p := { bare 1 0 with lseq := 1 } }] }

theorem meets_PacketsAreAcknowledgedResentAndForwarded :
    (let s := unacked 2
     let w : Dword := 0x0000002140000000
     unitsUp s = true ∧ (rport false s).link = .up ∧ (rport false s).out = [] ∧ w.getLsbD 30 = true ∧ w.getLsbD 23 = false ∧
       (rport false s).replay.findIdx? (fun x => x.p.lseq == w.extractLsb' 24 6) = some 0) ∧
    ((0x00800000 : Dword).getLsbD 30 = false ∧ (0x00800000 : Dword).getLsbD 23 = true ∧ (rport false (unacked 6)).replay ≠ [] ∧
      (rport false (unacked 6)).episodes < 7 ∧ 7 ≤ (rport false (unacked 7)).episodes) ∧
    (rport false (withFa fun q => { q with link := .up })).replay = [] ∧
    (let p := bare 0 2
     unitsUp worker = true ∧ (rport false worker).link = .up ∧ consumes p worker = false ∧ inOrder false 0x08 p worker ∧
       (rport true worker).link ≠ .up) ∧
    (let s := { worker with ring := { worker.ring with fb := { worker.ring.fb with link := .up } } }
     inOrder false 0x08 (bare 0 2) s ∧ (rport true s).link = .up) ∧
    ({ bare 0 2 with lseq := 5 }.lseq ≠ (rport false worker).rxSeq ∧ (bare 0 2).lseq = (rport false worker).rxSeq ∧
      lenOk 0x01 (bare 0 2).flits.length = false ∧ consumes { bare 0 2 with lseq := 5 } worker = false) := by
  simp only [inOrder]; and_intros <;> decide +kernel

/-- A manager whose port FA is UP, with a state of its ring. -/
def ringUp (f : Ring → Ring) : State :=
  let s := withFa fun q => { q with link := .up }
  { s with ring := f s.ring, ident := { s.ident with fabricId := 7 } }

/-- A packet with flits. -/
def pkt (dst src : BitVec 4) (flits : List Dword) : Pkt := { ch := 0, dst := dst, src := src, flits := flits }

/-- A roll call under way with one answer of a blank worker on FA. -/
def found1 : Roll :=
  { start := 0, answers := [⟨false, 1, 0, 0, true, false, 0, 0xFF, 3, 0⟩] }

/-- A roll call that has collected these answers. -/
def rolled (l : List Answer) : State := ringUp fun g => { g with roll := some { found1 with answers := l } }

/-- The numbering at the end of its collection. -/
def planOf (r : Roll) (s : State) : List Numbered :=
  numberAll s.ident.fabricId s.roster s.ring.adopt [] (r.found.filter fun f => !excluded r f.1 s)

theorem meets_RollCallsNumberTheWorkers :
    (rollsRun up = true ∧ up.ring.roll = none ∧ unitsUp worker = true ∧ isManager worker = false) ∧
    (let s := ringUp fun g => { g with roll := some found1 }; rollsRun s = true ∧ s.ring.roll.isSome = true) ∧
    (let s := ringUp fun g => { g with nodes := g.nodes.set 5 { status := .unreachable, node := 5 } }
     unitsUp s = true ∧ isManager s = true ∧ mayForget 5 s = true ∧ s.restart.nvcfgLost = false ∧ mayForget 6 s = false) ∧
    (let s := ringUp fun g => { g with nodes := g.nodes.set 5 { status := .foreign, node := 5, fabricId := 0x10009 } }
     isManager s = true ∧ (s.ring.nodes.get (5 : BitVec 4).toFin).status = .foreign ∧
       (s.ring.nodes.get (5 : BitVec 4).toFin).fabricId.truncate 16 = (9 : Half) ∧
       (s.ring.nodes.get (6 : BitVec 4).toFin).status ≠ .foreign) ∧
    (let s := ringUp fun g => { g with roll := some found1, nonce := some 9 }
     let p := pkt 0 0 [7, 0x30009]
     isManager s = true ∧ inOrder false 0x01 p s ∧ s.ring.nonce = some ((flit p 1).truncate 16) ∧ s.ring.roll = some found1 ∧
       found1.acks = none ∧ s.ring.nonce ≠ some ((flit (pkt 0 0 [7, 0x3000A]) 1).truncate 16) ∧ s.ring.rollAgain = false) ∧
    (let p := { pkt 0 0 [7, 0] with bcast := true }; isManager worker = false ∧ p.bcast = true ∧ inOrder false 0x01 p worker) ∧
    (let s := ringUp fun g => { g with roll := some found1 }
     isManager s = true ∧ inOrder false 0x02 (pkt 0 2 [7, 0x32]) s ∧ s.ring.roll = some found1 ∧ found1.acks = none) ∧
    (let r := { found1 with acks := some [1, 2] }
     let s := ringUp fun g => { g with roll := some r }
     isManager s = true ∧ inOrder false 0x04 (bare 0 2) s ∧ s.ring.roll = some r ∧ r.acks = some [1, 2] ∧ [1, 2].erase (bare 0 2).src ≠ []) ∧
    (let p := { pkt 1 0 [7, 3] with path := true }
     inOrder false 0x03 p worker ∧ forWorker p worker ∧ worker.restart.nvcfgLost = false) ∧
    (let p := { pkt 0 0 [2] with bcast := true }; inOrder false 0x05 p worker ∧ isManager worker = false ∧ p.bcast = true) ∧
    (let s := ringUp id; inOrder false 0x06 (pkt 0 2 [1]) s ∧ rollsRun s = true ∧ s.ring.roll = none) ∧
    (let r := { found1 with acks := some [2] }
     let s := ringUp fun g => { g with roll := some r }
     inOrder false 0x04 (bare 0 2) s ∧ s.ring.roll = some r ∧ r.acks = some [2] ∧ [2].erase (bare 0 2).src = [] ∧
       s.ring.rollAgain = false ∧ s.ring.reqs = [] ∧ ∀ m, (memGet m s).state = .active → nodeOf m = 0) ∧
    (let s := ringUp fun g => { g with roll := some { start := 0 } }
     rollsRun s = true ∧ collected s = false) ∧
    (let s := rolled [⟨false, 1, 7, 3, true, false, 0, 0xFF, 3, 0⟩]
     let r := { found1 with answers := [⟨false, 1, 7, 3, true, false, 0, 0xFF, 3, 0⟩] }
     rollsRun s = true ∧ s.ring.roll = some r ∧ r.acks = none ∧ collected s = true ∧ s.ident.fabricId ≠ 0 ∧
       ((planOf r s).filter fun n => n.assigned s.ident.fabricId) = [] ∧ s.ring.rollAgain = false ∧ s.ring.reqs = [] ∧
       ∀ m, (memGet m s).state = .active → nodeOf m = 0) ∧
    (let s := rolled found1.answers
     rollsRun s = true ∧ s.ring.roll = some found1 ∧ found1.acks = none ∧ collected s = true ∧ s.ident.fabricId ≠ 0 ∧
       ((planOf found1 s).filter fun n => n.assigned s.ident.fabricId) ≠ []) := by
  simp only [inOrder, forWorker]; and_intros <;> decide +kernel

/-- `worker` with an ACTIVE member on its port 2. -/
def workerPort2 : State := memPut (ownMember 2 worker) { state := .active, capacity := 200000 } worker

/-- A request flit for port 2: eight sectors from 8192 on, of class B. -/
def reqFlit : Dword := BitVec.ofNat 64 (8192 + 7 * 2 ^ 48 + 2 * 2 ^ 57)

/-- A request of the manager to node 3. -/
def asked (k : ReqKind) (pinged reissued : Bool) : RReq :=
  { tag := 5, node := 3, epoch := 16, kind := k, pinged := pinged, reissued := reissued }

/-- A packet from node 3 to the manager about that request. -/
def answer3 (flits : List Dword) (arg : Half) : Pkt :=
  { ch := 0, dst := 0, src := 3, epoch := 16, tag := 5, arg := arg, flits := flits }

theorem meets_RingRequestsAndTheirAnswers :
    (let p := pkt 3 0 [reqFlit]
     forWorker p workerPort2 ∧ fin8 ((flit p 0).extractLsb' 57 3).toNat = 2 ∧ inOrder false 0x20 p workerPort2 ∧
       inOrder false 0x22 p workerPort2 ∧ inOrder false 0x24 p workerPort2 ∧ takesReq p workerPort2 = true ∧
       (memGet (ownMember 2 workerPort2) workerPort2).state = .active ∧ inOrder false 0x25 p workerPort2 ∧
       takesReq { p with epoch := 9 } worker = false ∧ serves (servedOf 0x20 p (flit p 0) worker) worker = false ∧
       inOrder false 0x20 p worker ∧ inOrder false 0x20 { p with epoch := 9 } worker ∧ (rport (upPort worker) worker).link = .up) ∧
    (let p := { pkt 3 0 (List.replicate 64 0) with tag := 5 }
     let v := { servedOf 0x22 (pkt 3 0 [reqFlit]) reqFlit worker with tag := 5 }
     let s := { worker with ring := { worker.ring with served := [v] } }
     forWorker p s ∧ inOrder false 0x23 p s ∧ s.ring.served.find? (fun v => v.tag == p.tag && v.epoch == p.epoch && v.kind == 0x22) = some v ∧
       v.data.length + 1 < v.count) ∧
    (forWorker (bare 3 0) worker ∧ inOrder false 0x07 (bare 3 0) worker) ∧
    (let r := asked (.op rowRead) false false
     let s := ringUp fun g => { g with reqs := [r] }
     isManager s = true ∧ answers (answer3 [] 0) s = some r ∧ inOrder false 0x21 (answer3 (List.replicate 64 0) 0) s ∧
       inOrder false 0x27 (answer3 [] 0) s ∧ r.kind = .op rowRead ∧ answers (answer3 [] 0) (ringUp id) = none) ∧
    (let q : Psum := { w := .background 0, cls := .c, studio := 0, deadline := 0, array := 0, newRegion := false, stripe := 0, row := 0,
                       chunks := [], sector := 8192, pos := 0 }
     let r := asked (.psum q) false false
     let s := ringUp fun g => { g with reqs := [r] }
     answers (answer3 (List.replicate 64 0) 0) s = some r ∧ r.got.length < 7 ∧ inOrder false 0x26 (answer3 (List.replicate 64 0) 0) s) ∧
    (let r := asked (.op rowRead) true false
     let s := ringUp fun g => { g with reqs := [r] }
     inOrder false 0x08 (answer3 [] 0) s ∧ reqOf 3 5 s = some r ∧ r.pinged = true ∧ r.reissued = false ∧ r.parked = false ∧ unitsUp s = true ∧
       isManager s = true ∧ ∀ q : Fin 8, (memGet (Fin.ofNat 128 (8 * (3 : BitVec 4).toNat + q.val)) s).state ≠ .active) ∧
    (let r := asked (.op rowRead) false true
     let s := { ringUp fun g => { g with reqs := [r], nodes := g.nodes.set 3 { status := .worker, node := 3, hopsA := 1 } } with roster := up.roster }
     reqOf 3 5 s = some r ∧ (r.reissued && !r.parked) = true ∧ r.pinged = false ∧ routeTo 3 s = some false ∧ rollsRun s = true) ∧
    (let r := { asked (.op rowRead) false false with parked := true }
     let s := ringUp fun g => { g with reqs := [r] }
     unitsUp s = true ∧ isManager s = true ∧ reqOf 3 5 s = some r ∧ r.parked = true) ∧
    reqOf 3 5 up = none := by
  simp only [inOrder, forWorker]; and_intros <;> decide +kernel

/-- A worker whose NV commit of a change is about to end. -/
def ending (c : NvChange) : State := { worker with nv := { worker.nv with commits := [c], prog := [.nv] } }

theorem meets_ReportsOrdersAndForwardedRecords :
    (let p := { pkt 3 0 [0] with arg := 0x0102 }; forWorker p worker ∧ inOrder false 0x09 p worker ∧ p.arg.extractLsb' 8 8 = 0x01 ∧
       worker.restart.nvcfgLost = false) ∧
    (let p := { pkt 3 0 [0] with arg := 0x0302 }
     inOrder false 0x09 p worker ∧ p.arg.extractLsb' 8 8 ≠ 0x01 ∧ p.arg.extractLsb' 8 8 ≠ 0x0D) ∧
    ({ pkt 3 0 [0] with arg := 0x0D02 }.arg.extractLsb' 8 8 = 0x0D) ∧
    (∀ c ∈ [NvChange.fwd 0x0D 2 [5], .fwd 0x01 2 [5], .assign 7 4 9], let s := ending c
     running s = true ∧ isManager s = false ∧ s.nv.prog = .nv :: [] ∧ s.nv.commits = c :: [] ∧
       (rport (upPort s) s).link = .up) ∧
    (let p := pkt 3 0 [0x28]
     forWorker p worker ∧ inOrder false 0x0B p worker ∧ (portGet (fin8 ((flit p 0).extractLsb' 4 3).toNat) worker).powered = false) ∧
    (let p := pkt 3 0 [2]; inOrder false 0x0C p worker ∧ (rport (upPort worker) worker).link = .up ∧
       (flit p 0).extractLsb' 0 2 = 2 ∧ worker.ring.served = []) ∧
    (let s := { worker with ring := { worker.ring with served := [servedOf 0x22 (pkt 3 0 [reqFlit]) reqFlit worker] } }
     forWorker (pkt 3 0 [3]) s ∧ inOrder false 0x0C (pkt 3 0 [3]) s ∧ s.ring.served ≠ [] ∧
       (flit (pkt 3 0 [3]) 0).extractLsb' 0 2 = 3) ∧
    ((flit (pkt 3 0 [0]) 0).extractLsb' 0 2 = 0) ∧
    (let s := { worker with ring := { worker.ring with changed := 4 } }
     unitsRun s = true ∧ isManager s = false ∧ (rport (upPort s) s).link = .up ∧ s.ring.changed.getLsbD 2 = true) ∧
    (let p := { pkt 0 3 (List.replicate 16 0) with arg := 2 }
     isManager (ringUp id) = true ∧ inOrder false 0x0A p (ringUp id) ∧ p.src ≠ 0 ∧
       mstateOf (bits (wordAt ((p.flits.take 8).flatMap lowHigh) 1) 31 28) = (memGet (Fin.ofNat 128 26) (ringUp id)).state ∧
       mstateOf (bits (wordAt ((p.flits.take 8).flatMap lowHigh) 1) 31 28) ≠ .probing ∧
       freshDue (Fin.ofNat 128 26) (ringUp id) = false) ∧
    (let p := { pkt 0 3 (0x8000030000000000 :: List.replicate 15 0) with arg := 2 }
     inOrder false 0x0A p (ringUp id) ∧ mstateOf (bits (wordAt ((p.flits.take 8).flatMap lowHigh) 1) 31 28) = .failed ∧
       (memGet (Fin.ofNat 128 26) (ringUp id)).state ≠ .failed ∧ roleOf (Fin.ofNat 128 26) (ringUp id) = none) ∧
    (inOrder false 0x0D (bare 0 3) (ringUp id) ∧ inOrder false 0x0E (pkt 0 3 [0, 0, 0, 0]) (ringUp id)) := by
  simp only [inOrder, forWorker]; and_intros <;> decide +kernel

/-! ## Witnesses: the log, the role, the invariants -/

theorem meets_NotesAreHeldBackWithinATick :
    (let s := next (.armWrite .cport 1) up
     BitVec.ofNat 8 Code.armMismatch.info.1 ∈ s.log.thisTick ∧ BitVec.ofNat 8 Code.armMismatch.info.1 ∉ up.log.thisTick) ∧
    (running up = true ∧ ∀ p, (portGet p up).heldFail = none) := by
  and_intros <;> decide +kernel

theorem meets_TheRoleStrapFixesTheRole :
    ((core .inResetP).power.core = .inResetP ∧ (core .inResetP).power.pgMet = true) ∧
    exec (.registerWrite .cport 0xA0 0xF 5) up = .next (next (.registerWrite .cport 0xA0 0xF 5) up) := ⟨by decide, rfl⟩

/-- `up` with one command waiting. -/
def oneWaits : State := { up with pending := [.hostRefillDone 0] }

theorem meets_WorkersStayBelowLevel2 :
    step oneWaits = .next (next (.hostRefillDone 0) up) ∧ (oneWaits.restart.level = .level2 → isManager oneWaits = true) ∧
    (oneWaits.power.core = .inResetP ∨ oneWaits.power.core = .inResetD → oneWaits.restart.level = .level0) :=
  ⟨rfl, by decide, by decide⟩

theorem meets_MemoriesKeepTheirForm :
    step oneWaits = .next (next (.hostRefillDone 0) up) ∧ Memory.wf oneWaits.hbu.mailbox = true ∧ Memory.wf oneWaits.hbu.ringSram = true :=
  ⟨rfl, by decide, by decide⟩

theorem meets_StepRunsTheFrontCommand : oneWaits.pending = .hostRefillDone 0 :: [] ∧ up.pending = [] := ⟨rfl, rfl⟩

/-! ## The manual's worked examples -/

/-- Ch. 6, On the bench: byte 8 of the READ of CHIP_ID, and of a NOP with every other byte 0. -/
theorem test_request_crc : byteOf readFrame 8 = 0xAE ∧ byteOf (frame ![0xC0, 0, 0, 0, 0, 0, 0, 0]) 8 = 0xB8 := by decide +kernel

/-- Ch. 6, frames 1 and 2: OK, C2 00 00, data 4C 4E 08 16, FLAGS 0x41. -/
theorem test_chip_id_response :
    (next (.cportRead readFrame) State.reset).cport.pend.bytes.take 9 = [0, 0xC2, 0, 0, 0x4C, 0x4E, 0x08, 0x16, 0x41] := by
  decide +kernel

/-- Ch. 6, frame 3: WRITE 0x0018, BE 0b0010, data 00 00 80 00 sets PLL_EN and keeps XCLK_SEL at 0b11. -/
theorem test_frame_starts_pll :
    let s := next (.cportWrite (frame ![0xC1, 0, 0x18, 0x2, 0, 0, 0x80, 0])) State.reset
    s.clk.pllEn = true ∧ s.clk.xclkSel = 3 := by decide +kernel

/-- Ch. 6, frames 10 and 11: PLL_LOCK 1 with BYPASS 1 and LAST_LOCK_TIME 0x10, then BYPASS 0 from the TICK boundary on. -/
theorem test_lock_then_tick :
    let s := next (.pllLock 0x10) (next (.pllStart .cport) State.reset)
    s.clk.pllLock = true ∧ s.clk.bypass = true ∧ s.clk.lastLockTime = 0x10 ∧ (next (.tickStep ⟨0, 1000, true, true, false, false⟩) s).clk.bypass = false := by
  decide +kernel

/-- Ch. 6, Firing a control reset: ARM = 0xFF3A_00C5, and RST_CTRL = 1 in the frame after it begins the reset window. -/
theorem test_arm_and_control_reset :
    let s := next (.cportWrite (frame ![0xC1, 0, 0x4C, 0xF, 0xFF, 0x3A, 0, 0xC5])) State.reset
    let t := next (.cportWrite (frame ![0xC1, 0, 0x20, 0xF, 0, 0, 0, 1])) s
    t.cport.pend.status = csOk ∧ t.restart.ctrlRst = true ∧
      (next (.cportWrite (frame ![0xC1, 0, 0x20, 0xF, 0, 0, 0, 1])) State.reset).restart.ctrlRst = false := by decide +kernel

/-- Ch. 10, On the bench: the loop pattern of a stereo pair, its first addresses and its last byte. -/
theorem test_loops_example :
    let l := loopSpecOf [0x02, 0, 0, 0x01, 0x03, 0, 0x01, 0, 0x02, 0, 0x08, 0, 0, 0, 0x09, 0]
    loopsCheck 0x10004 l 3072 = none ∧ [0, 2, 4, 6].map (l.addr 0x10004) = [0x10004, 0x10006, 0x1000C, 0x1000E] ∧
      l.addr 0x10004 3071 = 0x119FF := by decide +kernel

/-- Ch. 11: the WRITE of volume 2 at LBA 0x3000, byte by byte. -/
theorem test_write_command :
    let b : List Byte := [2, 0, 5, 1, 2, 0, 0, 0, 0, 0x30, 0, 0, 0, 0, 0, 0, 8, 0, 0, 0, 0, 0, 0, 0, 0, 0, 3, 0, 0, 0, 0, 0] ++
      List.replicate 31 0 ++ [0x80]
    let c := cmdOf b .write
    opcodeOf (b.getD 0 0) = some .write ∧ badField b .write = none ∧ c.cid = 0x0105 ∧ c.volume = 2 ∧ c.slba = 0x3000 ∧ c.nlb = 8 ∧
      c.dptr = .flat ∧ c.daddr = 0x030000 := by decide +kernel

/-- Ch. 11: the record of that WRITE. -/
theorem test_completion_record :
    recordBytes { sq := 4, idx := 5, cid := 0x0105, result := 8 } 6 true =
      [8, 0, 0, 0, 5, 1, 6, 0, 4, 0, 0, 0, 5, 0, 0, 0x80] := by decide +kernel

/-- Ch. 14: volume 2 LBA 0x3125 lies on role 1 at member sector 538 789, its parity on role 0. -/
theorem test_rotating_layout : rotMap 1061157 3 128 8192 = (1, 0, 538789) := by decide +kernel

/-- Ch. 14: the permutation of row 1 of the declustered array. -/
theorem test_row_permutation : rowPerm 0x9E3779B8 1 4 = [0, 2, 3, 1] := by decide +kernel

/-- Ch. 14: after restoration into spares, position 0 of that row is held by role 1. -/
theorem test_spare_holder : dcHolder [0, 2, 3, 1] 0 3 [0] = 1 := by decide +kernel

/-- Ch. 14: the rows and the capacity of the declustered array. -/
theorem test_declustered_size :
    let h := shapeOf 0x40040103 0x9E3779B8
    h.legal = true ∧ h.rowsFor 8192 3965952 = 123680 ∧ h.capacity 123680 = 7915520 := by decide +kernel

/-- Ch. 17: K, ORIGIN and ROWS of the new region. -/
theorem test_repaint_placement :
    place 7340032 512 2 128 8192 121200 4 128 3 5 (List.replicate 5 15523840) = some (7340032, 3678208, 92544) := by decide +kernel

/-- Ch. 17: array sector 1 061 157 in the new shape. -/
theorem test_repainted_sector : rotMap 1061157 5 128 3678208 = (0, 2, 3943461) := by decide +kernel

/-- The port of ch. 18, Eleven picks. -/
def picking : Port :=
  let o (k : OpClass) (st : Fin 8) (i : Nat) : MOp :=
    { id := i, member := 0, cls := k, studio := st, kind := .read, sector := 0, count := 128, use := .sig false false }
  { doneB := 3000, doneC := 600, rr := 1, qb := (List.range 6).flatMap fun i => [o .b 1 i, o .b 2 i], qc := (List.range 8).map (o .c 0) }

/-- Its weights, and one pick. -/
def pickCfg : RefCfg := { weight := (Vector.replicate 8 16).set 2 48 }
def pickOnce (p : Port) : Port := match refereePick pickCfg p with | some (o, x) => x.issue o | none => p

/-- Done counters and the deficits of studios 1 and 2. -/
def tally (p : Port) : List Nat := [p.doneA, p.doneB, p.doneC, p.deficit.get 1, p.deficit.get 2]

/-- Ch. 18: picks 1 to 6. -/
theorem test_picks_to_six :
    let p4 := pickOnce (pickOnce (pickOnce (pickOnce picking)))
    tally p4 = [0, 3000, 1112, 0, 0] ∧ tally (pickOnce p4) = [0, 3128, 1112, 0, 384] ∧
      tally (pickOnce (pickOnce p4)) = [0, 3256, 1112, 128, 256] := by decide +kernel

/-- Ch. 18: picks 7 to 11, from the tally after pick 6 with a class A operation of 8 sectors arrived. -/
theorem test_picks_to_eleven :
    let a : MOp := { id := 99, member := 0, cls := .a, deadline := 5, kind := .read, sector := 0, count := 8, use := .sig false false }
    let p6 := { picking with doneB := 3256, doneC := 1112, deficit := (Vector.replicate 8 0).set 1 128 |>.set 2 256, rr := 2, qa := [a] }
    let p8 := pickOnce (pickOnce p6)
    tally p8 = [8, 3384, 1112, 128, 128] ∧ tally (pickOnce p8) = [8, 3384, 1240, 128, 128] ∧
      tally (pickOnce (pickOnce p8)) = [8, 3512, 1240, 128, 0] ∧
      tally (pickOnce (pickOnce (pickOnce p8))) = [8, 3640, 1240, 0, 384] := by decide +kernel

/-- Ch. 13 and 21: default words of a MEMBER and of an AUPORT entry. -/
theorem test_default_entries :
    wordAt (entryWords 0x01 0 State.reset) 0 = 0x07201000 ∧ wordAt (entryWords 0x0B 0 State.reset) 0 = 0x192C8000 ∧
      wordAt (entryWords 0x0B 2 State.reset) 0 = 0x192C0000 ∧ wordAt (entryWords 0x0B 1 State.reset) 1 = 0x60001410 := by
  decide +kernel

/-- Ch. 25: SVC_LEVEL of the first build after power-on. -/
theorem test_svc_level_parked : regRead .cport 0x0C State.reset = 0x00020300 := by decide +kernel

end All

end Sys2Proof.Tests
end

section
/-! The role of the chip (R14). The strap sample stands in the restart path's registers, so it is enough that no operation
but the end of a class P or D reset writes it. One lemma per operation of the model says so, the operations of a unit
after those that they call: `f_restart` where `f` leaves all of the restart path's registers as they were, `f_straps`
where it moves the path on and leaves the strap sample, and `f_keeps` for the outcome of a command. -/

namespace Sys2Proof.Machine

section RoleStrap

/-! ## Outcomes, guards and folds -/

/-- If the outcome is a next state, the part of it is as it was in the state before. -/
def Keeps {α : Type} (part : State → α) (s : State) (o : Out) : Prop := ∀ t, o = .next t → part t = part s

@[simp] theorem keeps_next {α : Type} (part : State → α) (s t : State) : Keeps part s (.next t) ↔ part t = part s := by
  simp [Keeps]

@[simp] theorem keeps_refused {α : Type} (part : State → α) (s : State) (r : Refusal) : Keeps part s (.refused r) := by
  simp [Keeps]

/-- What keeps the restart path's registers keeps the strap sample among them. -/
theorem Keeps.straps {s : State} {o : Out} (h : Keeps State.restart s o) : Keeps (fun u => u.restart.straps) s o :=
  fun t ht => congrArg Restart.straps (h t ht)

@[simp] theorem onlyIf_restart (c : Bool) (f : State → State) (s : State) (h : (f s).restart = s.restart) :
    (onlyIf c f s).restart = s.restart := by
  cases c <;> simp [onlyIf, h]

@[simp] theorem onlyIf_straps (c : Bool) (f : State → State) (s : State) (h : (f s).restart.straps = s.restart.straps) :
    (onlyIf c f s).restart.straps = s.restart.straps := by
  cases c <;> simp [onlyIf, h]

/-- A part of the accumulator that no step of a fold changes is as it was at the fold's start. -/
theorem foldl_part {α β γ : Type} (part : β → γ) (g : β → α → β) (h : ∀ b a, part (g b a) = part b) (l : List α)
    (b : β) : part (l.foldl g b) = part b := by
  induction l generalizing b with
  | nil => rfl
  | cons a t ih => rw [List.foldl_cons, ih, h]

theorem foldl_straps {α : Type} (g : State → α → State) (h : ∀ s a, (g s a).restart.straps = s.restart.straps)
    (l : List α) (s : State) : (l.foldl g s).restart.straps = s.restart.straps :=
  foldl_part (fun u => u.restart.straps) g h l s

/-! ## Shared operations (Machine/Ops) -/

@[simp] theorem bbPut_restart (slot : Nat) (r : BbRec) (s : State) : (bbPut slot r s).restart = s.restart := by
  simp [bbPut]
@[simp] theorem bbTear_restart (page k : Nat) (s : State) : (bbTear page k s).restart = s.restart := by simp [bbTear]
@[simp] theorem setLevel_straps (l : Level) (s : State) : (setLevel l s).restart.straps = s.restart.straps := by
  simp [setLevel, apply_ite State.restart, apply_ite Restart.straps]
@[simp] theorem freeNext_restart (s : State) : (freeNext s).2.restart = s.restart := by simp [freeNext]

/-! ## FAILSTOP, pools and the audit (Machine/Ledger) -/

@[simp] theorem failstop_straps (s : State) : (failstop s).restart.straps = s.restart.straps := by
  simp [failstop, apply_ite State.restart, apply_ite Restart.straps]
@[simp] theorem poolAsk_restart (r : PoolReq) (s : State) : (poolAsk r s).2.restart = s.restart := by
  simp only [poolAsk]
  split <;> simp
@[simp] theorem poolUnwait_restart (r : PoolReq) (s : State) : (poolUnwait r s).restart = s.restart := by
  simp [poolUnwait]
@[simp] theorem audit_straps (reset : Option (Fin 8)) (s : State) :
    (audit reset s).restart.straps = s.restart.straps := by
  simp only [audit]
  split <;> simp
theorem execLedgerAudit_keeps (s : State) : Keeps (fun u => u.restart.straps) s (execLedgerAudit s) := by
  simp [execLedgerAudit]
theorem execCtrlParity_keeps (unit : Byte) (address : Word) (s : State) :
    Keeps (fun u => u.restart.straps) s (execCtrlParity unit address s) := by
  simp [execCtrlParity]

/-! ## Pages and record slots (Machine/Journal) -/

@[simp] theorem forcedUpdate_restart (s : State) : (forcedUpdate s).restart = s.restart := by
  simp [forcedUpdate, apply_ite State.restart]
theorem allocPage_restart {s r : State} {n : Nat} (h : allocPage s = some (n, r)) : r.restart = s.restart := by
  obtain ⟨_, _, h⟩ := Option.map_eq_some_iff.mp h
  cases h
  rfl
@[simp] theorem progNext_restart (s : State) : (progNext s).restart = s.restart := by simp [progNext]
@[simp] theorem sessionPut_restart (opened : Bool) (s : State) : (sessionPut opened s).restart = s.restart := by
  simp [sessionPut]
@[simp] theorem recPut_restart (slot : Nat) (f : Rec → Rec) (s : State) : (recPut slot f s).restart = s.restart := by
  simp only [recPut]
  split <;> simp
@[simp] theorem freePages_restart (l : List Nat) (s : State) : (freePages l s).restart = s.restart := by
  simp [freePages]
theorem allocRec_restart {s r : State} {n : Nat} (h : allocRec s = some (n, r)) : r.restart = s.restart := by
  obtain ⟨_, _, h⟩ := Option.map_eq_some_iff.mp h
  cases h
  rfl
@[simp] theorem reqSeal_restart (owner : Option Nat) (slot : Nat) (r : Rec) (s : State) :
    (reqSeal owner slot r s).restart = s.restart := by
  simp [reqSeal]

/-! ## Canvas memory (Machine/Canvas) -/

@[simp] theorem tileDrop_restart (n : Nat) (s : State) : (tileDrop n s).restart = s.restart := by
  simp only [tileDrop]
  split <;> simp
@[simp] theorem tier2Drop_restart (n : Nat) (s : State) : (tier2Drop n s).restart = s.restart := by
  simp only [tier2Drop]
  split <;> simp
@[simp] theorem tilesDrop_restart (l : List Nat) (s : State) : (tilesDrop l s).restart = s.restart := by
  simp [tilesDrop, foldl_restart]
@[simp] theorem dropWhere_restart (f : Bind → Bool) (s : State) : (dropWhere f s).restart = s.restart := by
  simp [dropWhere, foldl_restart]
@[simp] theorem workDrop_restart (w : Work) (s : State) : (workDrop w s).restart = s.restart := by simp [workDrop]
@[simp] theorem pageOut_restart (t : Tile) (s : State) : (pageOut t s).restart = s.restart := by
  simp only [pageOut]
  (repeat' split) <;> simp
theorem allocTile_restart {who : Option (Fin 8)} {b : Bind} {pins : Nat} {s : State} {n : Nat} {u : State}
    (h : allocTile who b pins s = some (n, u)) : u.restart = s.restart := by
  grind [allocTile, canvasPut_restart, pageOut_restart, poolMove_restart, poolTake_restart, tilePut_restart]
@[simp] theorem sealTile_restart (st : Option (Fin 8)) (slot : Nat) (a : Fin 4) (tile : Nat) (mask : BitVec 8)
    (data : TileData) (s : State) : (sealTile st slot a tile mask data s).restart = s.restart := by
  simp only [sealTile]
  (repeat' split) <;> simp
@[simp] theorem trimTiles_restart (a : Fin 4) (start count : Nat) (s : State) :
    (trimTiles a start count s).restart = s.restart := by
  simp [trimTiles, foldl_restart]
@[simp] theorem cleanTiles_restart (s : State) : (cleanTiles s).restart = s.restart := by simp [cleanTiles]

/-! ## Member operations and tile rows (Machine/Fetch) -/

@[simp] theorem dropOps_restart (f : MOp → Bool) (s : State) : (dropOps f s).restart = s.restart := by simp [dropOps]
@[simp] theorem markFailed_restart (w : Work) (c : ChunkAt) (row : Nat) (s : State) :
    (markFailed w c row s).restart = s.restart := by
  simp [markFailed]
@[simp] theorem waitTile_restart (w : Work) (who : Option (Fin 8)) (s : State) :
    (waitTile w who s).restart = s.restart := by
  simp [waitTile, apply_ite State.restart]
@[simp] theorem askRaw_restart (p : Payer) (w : Work) (c : ChunkAt) (row : Nat) (s : State) :
    (askRaw p w c row s).restart = s.restart := by
  grind [askRaw, allocTile_restart, createOp_restart, markFailed_restart, waitTile_restart]
@[simp] theorem askSum_restart (p : Payer) (w : Work) (c : ChunkAt) (k : BitVec 4) (cs : List ChunkAt) (row : Nat)
    (s : State) : (askSum p w c k cs row s).restart = s.restart := by
  grind [askSum, allocTile_restart, ringRequest_restart, waitTile_restart]

theorem retouch_restart {p : Payer} {w : Work} {c : ChunkAt} {row : Nat} {s : State} {n : Need} {u : State}
    (h : retouch p w c row s = (n, u)) : u.restart = s.restart := by
  simp only [retouch] at h
  (repeat' split at h) <;> cases h
  · rfl
  all_goals
    refine foldl_restart _ (fun v k => ?_) _ _
    split <;> simp [foldl_restart]

@[simp] theorem noteMend_restart (c : ChunkAt) (row : Nat) (s : State) : (noteMend c row s).restart = s.restart := by
  simp [noteMend, apply_ite State.restart]
@[simp] theorem mendOnce_restart (w : Work) (c : ChunkAt) (row : Nat) (s : State) :
    (mendOnce w c row s).restart = s.restart := by
  simp [mendOnce, apply_ite State.restart]
theorem chunkTile_restart {p : Payer} {w : Work} {c : ChunkAt} {row : Nat} {s : State} {n : Need} {m : Bool}
    {u : State} (h : chunkTile p w c row s = (n, m, u)) : u.restart = s.restart := by
  grind [chunkTile, askRaw_restart, mendOnce_restart, retouch_restart]
@[simp] theorem badPageNote_restart (slot page : Nat) (s : State) : (badPageNote slot page s).restart = s.restart := by
  simp [badPageNote]
@[simp] theorem badPageNotes_restart (v : Vector Cov 8) (s : State) : (badPageNotes v s).restart = s.restart := by
  simp [badPageNotes, foldl_restart]
theorem coveredTile_restart {v : Vector Cov 8} {p : Payer} {w : Work} {a : Fin 4} {tile : Nat} {want : BitVec 8}
    {s : State} {n : Need} {m : Bool} {u : State} (h : coveredTile v p w a tile want s = (n, m, u)) :
    u.restart = s.restart := by
  grind [coveredTile, chunkTile_restart]
theorem currentTile_restart {p : Payer} {w : Work} {a : Fin 4} {tile : Nat} {want : BitVec 8} {s : State} {n : Need}
    {m : Bool} {u : State} (h : currentTile p w a tile want s = (n, m, u)) : u.restart = s.restart := by
  grind [currentTile, badPageNote_restart, coveredTile_restart]

/-! ## Commands in their slots and range locks (Machine/Slot) -/

@[simp] theorem lockRequest_restart (l : Lock) (s : State) : (lockRequest l s).restart = s.restart := by
  simp [lockRequest]
@[simp] theorem lockTake_restart (l : Lock) (s : State) : (lockTake l s).restart = s.restart := by
  simp only [lockTake]
  split <;> simp
@[simp] theorem lockDrop_restart (f : Lock → Bool) (s : State) : (lockDrop f s).restart = s.restart := by
  simp [lockDrop, foldl_restart]

@[simp] theorem cmdRelease_restart (i : Nat) (s : State) : (cmdRelease i s).restart = s.restart := by
  unfold cmdRelease
  split
  · rfl
  · simp only [forcedUpdate_restart, cleanTiles_restart, slotPut_restart, poolGive_restart, freePages_restart,
      dropWhere_restart, workDrop_restart, dropOps_restart, lockDrop_restart]

@[simp] theorem whistleBreak_restart (q : Fin 32) (s : State) : (whistleBreak q s).restart = s.restart := by
  simp [whistleBreak]
@[simp] theorem kickOff_restart (q : Fin 32) (s : State) : (kickOff q s).restart = s.restart := by simp [kickOff]
@[simp] theorem freezeQueue_restart (q : Fin 32) (x : Slot) (held : Option Nat) (cause : Bool) (s : State) :
    (freezeQueue q x held cause s).restart = s.restart := by
  simp [freezeQueue]
@[simp] theorem xferNew_restart (k : XferKind) (st : Fin 8) (src dst : Side) (len : Nat) (s : State) :
    (xferNew k st src dst len s).restart = s.restart := by
  simp [xferNew]
@[simp] theorem cmdDone_restart (i : Nat) (x : Slot) (s : State) : (cmdDone i x s).restart = s.restart := by
  simp [cmdDone, apply_ite State.restart]
@[simp] theorem xferDrop_restart (f : Xfer → Bool) (s : State) : (xferDrop f s).restart = s.restart := by
  simp [xferDrop, foldl_restart, apply_ite State.restart]
@[simp] theorem pioEnd_restart (i : Nat) (s : State) : (pioEnd i s).restart = s.restart := by simp [pioEnd]
@[simp] theorem decideCmd_restart (i : Nat) (status detail : Byte) (result : Word) (s : State) :
    (decideCmd i status detail result s).restart = s.restart := by
  simp only [decideCmd]
  (repeat' split) <;> simp
@[simp] theorem endCmd_restart (i : Nat) (status detail : Byte) (result : Word) (s : State) :
    (endCmd i status detail result s).restart = s.restart := by
  simp only [endCmd]
  (repeat' split) <;> simp
@[simp] theorem endDrained_restart (i : Nat) (s : State) : (endDrained i s).restart = s.restart := by
  simp only [endDrained]
  (repeat' split) <;> simp
@[simp] theorem failCmd_restart (i : Nat) (status detail : Byte) (s : State) :
    (failCmd i status detail s).restart = s.restart := by
  simp [failCmd]

/-! ## Member states and lost members (Machine/Loss) -/

@[simp] theorem volsNote_restart (f : Vol → Bool) (s : State) : (volsNote f s).restart = s.restart :=
  foldl_restart _ (fun u v => by split <;> simp) _ s
@[simp] theorem volsFollow_restart (a : Fin 4) (s : State) : (volsFollow a s).restart = s.restart := by
  simp [volsFollow]
@[simp] theorem setArr_restart (a : Fin 4) (x : Arr) (s : State) : (setArr a x s).restart = s.restart := by
  simp [setArr]
@[simp] theorem refreshArray_restart (a : Fin 4) (s : State) : (refreshArray a s).restart = s.restart := by
  simp [refreshArray, foldl_restart, apply_ite State.restart]
@[simp] theorem genNext_restart (a : Fin 4) (s : State) : (genNext a s).restart = s.restart := by
  simp [genNext, apply_ite State.restart]
@[simp] theorem advance_restart (a : Fin 4) (s : State) : (advance a s).restart = s.restart := by simp [advance]
@[simp] theorem advancesDue_restart (s : State) : (advancesDue s).restart = s.restart := by
  simp [advancesDue, foldl_restart, apply_ite State.restart]
@[simp] theorem flushesEnd_restart (a : Fin 4) (s : State) : (flushesEnd a s).restart = s.restart := by
  simp [flushesEnd, foldl_restart]
@[simp] theorem volTrimDrop_restart (a : Fin 4) (s : State) : (volTrimDrop a s).restart = s.restart := by
  simp [volTrimDrop]
@[simp] theorem backgroundEnd_restart (a : Fin 4) (s : State) : (backgroundEnd a s).restart = s.restart := by
  simp [backgroundEnd]
@[simp] theorem cmdsOffline_restart (a : Fin 4) (s : State) : (cmdsOffline a s).restart = s.restart :=
  foldl_restart _ (fun u x => by (repeat' split) <;> simp) _ s
@[simp] theorem goOffline_restart (a : Fin 4) (m1 m2 stripe : Nat) (s : State) :
    (goOffline a m1 m2 stripe s).restart = s.restart := by
  simp [goOffline, apply_ite State.restart]
@[simp] theorem restoreSpares_restart (a : Fin 4) (role : Nat) (s : State) :
    (restoreSpares a role s).restart = s.restart := by
  simp [restoreSpares]
@[simp] theorem restoreOnto_restart (a : Fin 4) (role : Nat) (m : Fin 128) (cause : Byte) (s : State) :
    (restoreOnto a role m cause s).restart = s.restart := by
  simp [restoreOnto]
@[simp] theorem autoRestore_restart (a : Fin 4) (role : Nat) (lost : Fin 128) (s : State) :
    (autoRestore a role lost s).restart = s.restart := by
  simp only [autoRestore]
  (repeat' split) <;> simp
@[simp] theorem repaintNote_restart (a : Fin 4) (s : State) : (repaintNote a s).restart = s.restart := by
  simp [repaintNote]
@[simp] theorem bgUnwait_restart (a : Fin 4) (s : State) : (bgUnwait a s).restart = s.restart := by simp [bgUnwait]
@[simp] theorem paintLoss_restart (a : Fin 4) (i : Nat) (m : Fin 128) (s : State) :
    (paintLoss a i m s).restart = s.restart := by
  simp [paintLoss]
@[simp] theorem roleLost_restart (a : Fin 4) (i : Nat) (rs : RoleState) (m : Fin 128) (s : State) :
    (roleLost a i rs m s).restart = s.restart := by
  grind [roleLost, advance_restart, arrPut_restart, autoRestore_restart, backgroundEnd_restart, goOffline_restart,
    paintLoss_restart, repaintNote_restart, setArr_restart]
@[simp] theorem memberLost_restart (m : Fin 128) (rs : RoleState) (s : State) :
    (memberLost m rs s).restart = s.restart := by
  simp only [memberLost]
  split <;> simp

/-! ## Flushing stripes (Machine/Flush) -/

@[simp] theorem progOnly_restart (s : State) : (progOnly s).restart = s.restart := by
  simp only [progOnly]
  split <;> simp
@[simp] theorem addFlush_restart (f : Flush) (s : State) : (addFlush f s).restart = s.restart := by
  simp [addFlush, apply_ite State.restart]
@[simp] theorem startFlush_restart (a : Fin 4) (new : Bool) (stripe : Nat) (s : State) :
    (startFlush a new stripe s).restart = s.restart := by
  simp [startFlush, apply_ite State.restart]
@[simp] theorem flushRec_restart (r : Rec) (s : State) : (flushRec r s).restart = s.restart := by
  simp [flushRec, foldl_restart]
@[simp] theorem flushWhere_restart (f : Rec → Bool) (s : State) : (flushWhere f s).restart = s.restart := by
  simp [flushWhere, foldl_restart]
@[simp] theorem flushAll_restart (s : State) : (flushAll s).restart = s.restart := by simp [flushAll]
@[simp] theorem trimApply_restart (slot : Nat) (s : State) : (trimApply slot s).restart = s.restart := by
  simp only [trimApply]
  (repeat' split) <;> simp
@[simp] theorem recAdvance_restart (i : Nat) (r : Rec) (s : State) : (recAdvance i r s).restart = s.restart := by
  simp only [recAdvance]
  split <;> simp
@[simp] theorem forcedFlush_restart (s : State) : (forcedFlush s).restart = s.restart := by
  simp only [forcedFlush]
  (repeat' split) <;> simp
@[simp] theorem flushData_restart (f : Flush) (x row : Nat) (s : State) :
    (flushData f x row s).2.restart = s.restart := by
  grind [flushData, badPageNotes_restart, chunkTile_restart]
@[simp] theorem tileLostNote_restart (a : Fin 4) (stripe row : Nat) (ms : List (Fin 128)) (s : State) :
    (tileLostNote a stripe row ms s).restart = s.restart := by
  simp [tileLostNote]

@[simp] theorem rowData_restart (f : Flush) (row : Nat) (s : State) : (rowData f row s).2.restart = s.restart := by
  have hdata := foldl_part (fun acc : List (Nat × Need) × State => acc.2.restart)
    (fun acc x => (acc.1 ++ [(x, (flushData f x row acc.2).1)], (flushData f x row acc.2).2))
    (fun acc x => flushData_restart f x row acc.2)
  simp only [rowData]
  split
  · exact hdata _ _
  · refine (foldl_part (fun acc : _ × State => acc.2.restart) _ (fun acc g => ?_) _ _).trans (hdata _ _)
    generalize List.foldl _ _ _ = data
    obtain ⟨n, u⟩ := acc
    obtain ⟨x, m⟩ := g
    cases n with
    | tiles l => cases m with
      | lost ms =>
        dsimp only
        (repeat' split) <;> simp
      | _ => rfl
    | _ => rfl

@[simp] theorem writeChunk_restart (w : Work) (a : Fin 4) (new : Bool) (stripe x : Nat) (rows : List (Nat × TileData))
    (s : State) : (writeChunk w a new stripe x rows s).restart = s.restart := by
  simp [writeChunk, foldl_restart]

theorem askIntent_restart {f : Flush} {rows : List (Nat × TileData)} {s u : State} (h : askIntent f rows s = some u) :
    u.restart = s.restart := by
  simp only [askIntent, Option.ite_none_right_eq_some, Option.some.injEq] at h
  obtain ⟨-, rfl⟩ := h
  rw [flushPut_restart]
  refine (foldl_part (fun acc : List (Nat × Rec) × State => acc.2.restart) _ (fun acc part => ?_) _ _).trans (by simp)
  have hpage := foldl_part (fun acc : List (Nat × Nat) × State => acc.2.restart)
    (fun acc x => match allocPage acc.2 with
        | none => acc
        | some (pg, s) => (acc.1 ++ [(pg, x.1)], progReq (.parity f.id pg ⟨0xFF, x.2, false⟩) s))
    (fun acc x => by
      split
      · rfl
      next h => simp [allocPage_restart h]) part ([], acc.2)
  split
  · exact hpage
  next h => exact (allocRec_restart h).trans hpage

theorem askIntent_getD_restart (f : Flush) (rows : List (Nat × TileData)) (s : State) :
    ((askIntent f rows s).getD s).restart = s.restart := by
  cases h : askIntent f rows s with
  | none => rfl
  | some u => exact askIntent_restart h

@[simp] theorem endFlush_restart (f : Flush) (s : State) : (endFlush f s).restart = s.restart := by simp [endFlush]
@[simp] theorem markFlushed_restart (f : Flush) (s : State) : (markFlushed f s).restart = s.restart := by
  simp [markFlushed]
@[simp] theorem finishFlush_restart (f : Flush) (s : State) : (finishFlush f s).restart = s.restart := by
  simp only [finishFlush]
  (repeat' split) <;> simp
@[simp] theorem zeroStripe_restart (f : Flush) (s : State) : (zeroStripe f s).restart = s.restart :=
  foldl_restart _ (fun _ _ => foldl_restart _ (fun _ _ => createOp_restart ..) _ _) _ s
@[simp] theorem stepData_restart(f : Flush) (s : State) : (stepData f s).2.2.restart = s.restart := by
  refine foldl_part (fun acc : _ × _ × State => acc.2.2.restart) _ (fun acc row => ?_) _ _
  dsimp only
  split <;> exact rowData_restart ..
@[simp] theorem issueWrites_restart (f : Flush) (data : List (Nat × List TileData)) (s : State) :
    (issueWrites f data s).restart = s.restart := by
  simp [issueWrites, foldl_restart]
@[simp] theorem streamsAnew_restart (f : Flush) (s : State) : (streamsAnew f s).restart = s.restart := by
  simp [streamsAnew]

@[simp] theorem flushStep_restart (f : Flush) (s : State) : (flushStep f s).restart = s.restart := by
  unfold flushStep
  extract_lets w a dropped recs _ carried _ doneState _ g rowState _ marked
  have hdone : doneState.restart = s.restart := by simp [doneState, carried, dropped]
  have hmarked : marked.restart = s.restart := by
    simp only [marked]
    (repeat' split) <;> simp [rowState]
  have hstep : (stepData g marked).2.2.restart = s.restart := by simp [hmarked]
  generalize stepData g marked = d at hstep
  obtain ⟨n, data, u⟩ := d
  clear_value doneState marked
  (repeat' split) <;> simp_all [askIntent_getD_restart, apply_ite State.restart]

theorem execFlushAgeExpiry_keeps (a : Fin 4) (stripe : Nat) (s : State) :
    Keeps State.restart s (execFlushAgeExpiry a stripe s) := by
  simp only [execFlushAgeExpiry]
  (repeat' split) <;> simp [foldl_restart]
@[simp] theorem wordsAsk_restart (s : State) : (wordsAsk s).restart = s.restart :=
  foldl_restart _ (fun u x => by (repeat' split) <;> simp) _ s
theorem execFlushStep_keeps (id : Nat) (s : State) : Keeps State.restart s (execFlushStep id s) := by
  simp only [execFlushStep, onlyIf]
  (repeat' split) <;> simp
@[simp] theorem startVolTrim_restart (v : Fin 64) (s : State) : (startVolTrim v s).restart = s.restart := by
  simp [startVolTrim, apply_ite State.restart]
@[simp] theorem volTrimsResume_restart (a : Fin 4) (s : State) : (volTrimsResume a s).restart = s.restart := by
  simp [volTrimsResume, foldl_restart, apply_ite State.restart]
@[simp] theorem replayEnd_restart (a : Fin 4) (s : State) : (replayEnd a s).restart = s.restart := by
  simp only [replayEnd]
  (repeat' split) <;> simp
@[simp] theorem retired_restart (slot : Nat) (s : State) : (retired slot s).restart = s.restart := by
  simp only [retired]
  split <;> simp
theorem execRetirement_keeps (slot : Nat) (s : State) : Keeps State.restart s (execRetirement slot s) := by
  simp [execRetirement, apply_ite State.restart]
theorem execTrimStripeApply_keeps (slot : Nat) (s : State) : Keeps State.restart s (execTrimStripeApply slot s) := by
  simp [execTrimStripeApply]
@[simp] theorem flushEverything_restart (s : State) : (flushEverything s).restart = s.restart := by
  simp [flushEverything, foldl_restart, apply_ite State.restart]
theorem execTrimDoneUpdate_keeps (slot : Nat) (s : State) : Keeps State.restart s (execTrimDoneUpdate slot s) := by
  simp only [execTrimDoneUpdate]
  (repeat' split) <;> simp
theorem execReplayStripe_keeps (a : Fin 4) (stripe : Nat) (s : State) :
    Keeps State.restart s (execReplayStripe a stripe s) := by
  simp only [execReplayStripe, onlyIf]
  (repeat' split) <;> simp
theorem execTileMend_keeps (s : State) : Keeps State.restart s (execTileMend s) := by
  simp only [execTileMend, onlyIf]
  (repeat' split) <;> simp

/-! ## The program engine of the Sketchbook (Machine/Sketchbook) -/

@[simp] theorem writeProgress_restart (i : Nat) (s : State) : (writeProgress i s).restart = s.restart := by
  simp only [writeProgress]
  (repeat' split) <;> try rfl
  next h => simp [allocRec_restart h]
@[simp] theorem pageRequest_restart (i tile : Nat) (s : State) : (pageRequest i tile s).restart = s.restart := by
  simp only [pageRequest]
  (repeat' split) <;> try rfl
  next h => simp [allocPage_restart h]
@[simp] theorem writePageDone_restart (i pg : Nat) (p : Page) (s : State) :
    (writePageDone i pg p s).restart = s.restart := by
  simp only [writePageDone]
  (repeat' split) <;> simp
@[simp] theorem parityPageDone_restart (f pg : Nat) (p : Page) (s : State) :
    (parityPageDone f pg p s).restart = s.restart := by
  simp only [parityPageDone]
  (repeat' split) <;> simp [foldl_restart]
@[simp] theorem pageProgramDone_restart (s : State) : (pageProgramDone s).restart = s.restart := by
  simp only [pageProgramDone]
  split <;> simp
@[simp] theorem mergeRecord_restart (owner : Nat) (r : Rec) (s : State) : (mergeRecord owner r s).restart = s.restart :=
  foldl_restart _ (fun u x => by (repeat' split) <;> simp) _ s
@[simp] theorem flushFull_restart (r : Rec) (s : State) : (flushFull r s).restart = s.restart := by
  simp [flushFull, foldl_restart, apply_ite State.restart]
@[simp] theorem trimFull_restart (slot : Nat) (r : Rec) (s : State) : (trimFull slot r s).restart = s.restart := by
  simp [trimFull, apply_ite State.restart]
@[simp] theorem sealCommand_restart (i : Nat) (r : Rec) (s : State) : (sealCommand i r s).restart = s.restart := by
  simp only [sealCommand]
  (repeat' split) <;> simp
theorem volTrimSeal_restart {v : Fin 64} {start : Nat} {s : State} {n : Bool} {u : State} (h : volTrimSeal v start s =
    (n, u)) : u.restart = s.restart := by
  grind [volTrimSeal, allocRec_restart, forcedUpdate_restart, poolTake_restart, reqSeal_restart]
@[simp] theorem volTrimNext_restart (v : Fin 64) (start : Nat) (s : State) :
    (volTrimNext v start s).restart = s.restart := by
  grind [volTrimNext, lockDrop_restart, startVolTrim_restart, volTrimSeal_restart]
@[simp] theorem volTrimSealed_restart (r : Rec) (s : State) : (volTrimSealed r s).restart = s.restart := by
  simp [volTrimSealed, apply_ite State.restart]
@[simp] theorem landed_restart (tag epoch : Byte) (s : State) : (landed tag epoch s).restart = s.restart := by
  simp only [landed]
  split <;> simp
@[simp] theorem recordSeal_restart (s : State) : (recordSeal s).restart = s.restart := by
  simp only [recordSeal]
  (repeat' split) <;> simp
theorem execPageProgramDone_keeps (s : State) : Keeps State.restart s (execPageProgramDone s) := by
  simp only [execPageProgramDone]
  (repeat' split) <;> simp
theorem execRecordSeal_keeps (s : State) : Keeps State.restart s (execRecordSeal s) := by
  simp only [execRecordSeal]
  (repeat' split) <;> simp
@[simp] theorem skbCtrlWrite_restart (lanes : Lanes) (data : Word) (s : State) :
    (skbCtrlWrite lanes data s).restart = s.restart := by
  simp only [skbCtrlWrite]
  (repeat' split) <;> simp

/-! ## Background passes (Machine/Background) -/

@[simp] theorem stripeClean_restart (a : Fin 4) (new : Bool) (t : Nat) (s : State) :
    (stripeClean a new t s).2.restart = s.restart := by
  simp only [stripeClean]
  (repeat' split) <;> simp
@[simp] theorem stepReady_restart (a : Fin 4) (new : Bool) (t : Nat) (k : LockKind) (s : State) :
    (stepReady a new t k s).2.restart = s.restart := by
  simp only [stepReady]
  (repeat' split) <;> simp
@[simp] theorem stepDone_restart (a : Fin 4) (s : State) : (stepDone a s).restart = s.restart := by simp [stepDone]
@[simp] theorem keepRaw_restart (p : Payer) (w : Work) (c : ChunkAt) (row : Nat) (t : TileData) (s : State) :
    (keepRaw p w c row t s).restart = s.restart := by
  grind [keepRaw, allocTile_restart, tilePut_restart, waitTile_restart]
@[simp] theorem dropOthers_restart (w : Work) (c : ChunkAt) (row : Nat) (s : State) :
    (dropOthers w c row s).restart = s.restart := by
  simp [dropOthers]

theorem salvageRow_restart {a : Fin 4} {c : ChunkAt} {row : Nat} {ms : List (Fin 128)} {s : State}
    {n : Option TileData} {u : State} (h : salvageRow a c row ms s = (n, u)) : u.restart = s.restart := by
  simp only [salvageRow] at h
  have hask := foldl_restart (fun s d => if unobtainable (bgWork a) d row s then s else askRaw .system (bgWork a) d row s)
    (fun s a => by split <;> simp) (others c s) s
  split at h
  · cases h
    exact hask
  · cases h
    rw [tileLostNote_restart, apply_ite State.restart, writeChunk_restart, ite_self,
      foldl_restart _ (fun u x => by split <;> simp), hask]

@[simp] theorem obtainRow_restart (a : Fin 4) (c : ChunkAt) (row : Nat) (s : State) :
    (obtainRow a c row s).2.restart = s.restart := by
  simp only [obtainRow]
  rcases hc : chunkTile .system (bgWork a) c row s with ⟨n, f, u⟩
  have hu := chunkTile_restart hc
  (repeat' split) <;> simp [hu]
  · next h => rw [salvageRow_restart h, hu]
  · next h => rw [salvageRow_restart h, hu]

@[simp] theorem moveChunk_restart (a : Fin 4) (c : ChunkAt) (target : Fin 128) (s : State) :
    (moveChunk a c target s).restart = s.restart := by
  simp only [moveChunk]
  have h := foldl_part (fun acc : Bool × State => acc.2.restart)
    (fun acc row => if acc.1 then obtainRow a c row acc.2 else acc) (fun acc row => by split <;> simp)
    (List.range ((arrGet a s).shapeAt c.newRegion).tiles) (true, s)
  (repeat' split) <;> simp [h]

@[simp] theorem restorationStep_restart (a : Fin 4) (s : State) : (restorationStep a s).restart = s.restart := by
  simp only [restorationStep]
  (repeat' split) <;> simp
theorem execRestorationStep_keeps (a : Fin 4) (s : State) : Keeps State.restart s (execRestorationStep a s) := by
  simp [execRestorationStep]
@[simp] theorem repaintReturn_restart (a : Fin 4) (s : State) : (repaintReturn a s).restart = s.restart := by
  simp [repaintReturn, apply_ite State.restart]
@[simp] theorem restorationEnd_restart (a : Fin 4) (s : State) : (restorationEnd a s).restart = s.restart := by
  simp only [restorationEnd]
  split <;> simp
@[simp] theorem copyBackStep_restart (a : Fin 4) (s : State) : (copyBackStep a s).restart = s.restart := by
  simp only [copyBackStep]
  (repeat' split) <;> simp
theorem execCopyBackStep_keeps (a : Fin 4) (s : State) : Keeps State.restart s (execCopyBackStep a s) := by
  simp [execCopyBackStep]
@[simp] theorem copyBackEnd_restart (a : Fin 4) (s : State) : (copyBackEnd a s).restart = s.restart := by
  simp [copyBackEnd]
@[simp] theorem checkRow_restart (p : Payer) (w : Work) (a : Fin 4) (new : Bool) (t row : Nat) (s : State) :
    (checkRow p w a new t row s).2.restart = s.restart := by
  simp only [checkRow]
  (repeat' split) <;> simp [foldl_restart, apply_ite State.restart]
@[simp] theorem correctRow_restart (a : Fin 4) (new : Bool) (t row : Nat) (s : State) :
    (correctRow a new t row s).restart = s.restart := by
  simp [correctRow]
@[simp] theorem inspectionStep_restart (a : Fin 4) (s : State) : (inspectionStep a s).restart = s.restart := by
  simp only [inspectionStep]
  (repeat' split) <;> simp
theorem execInspectionStep_keeps (a : Fin 4) (s : State) : Keeps State.restart s (execInspectionStep a s) := by
  simp [execInspectionStep]
@[simp] theorem inspectionEnd_restart (a : Fin 4) (s : State) : (inspectionEnd a s).restart = s.restart := by
  simp [inspectionEnd]
@[simp] theorem passFinish_keeps (a : Fin 4) (k : BitVec 4) (s : State) : Keeps State.restart s (passFinish a k s) := by
  simp [passFinish]
@[simp] theorem passEnd_restart (a : Fin 4) (s : State) : (passEnd a s).restart = s.restart := by
  simp [passEnd, apply_ite State.restart]
theorem execRestorationFinish_keeps (a : Fin 4) (s : State) : Keeps State.restart s (execRestorationFinish a s) := by
  simp [execRestorationFinish]
theorem execCopyBackFinish_keeps (a : Fin 4) (s : State) : Keeps State.restart s (execCopyBackFinish a s) := by
  simp [execCopyBackFinish]
theorem execInspectionFinish_keeps (a : Fin 4) (s : State) : Keeps State.restart s (execInspectionFinish a s) := by
  simp [execInspectionFinish]
@[simp] theorem frontEnd_restart (a : Fin 4) (m : Nat) (s : State) : (frontEnd a m s).restart = s.restart := by
  simp [frontEnd, foldl_restart]
@[simp] theorem frontCommit_restart (a : Fin 4) (s : State) : (frontCommit a s).restart = s.restart := by
  simp [frontCommit, apply_ite State.restart]
theorem execWatermarkCommit_keeps (a : Fin 4) (s : State) : Keeps State.restart s (execWatermarkCommit a s) := by
  simp [execWatermarkCommit]
@[simp] theorem markEnd_restart (a : Fin 4) (m : Nat) (s : State) : (markEnd a m s).restart = s.restart := by
  simp [markEnd, apply_ite State.restart]
theorem execBackgroundCheckpoint_keeps (a : Fin 4) (s : State) :
    Keeps State.restart s (execBackgroundCheckpoint a s) := by
  simp [execBackgroundCheckpoint]

/-! ## Repaint (Machine/Repaint) -/

@[simp] theorem copyTile_restart (a : Fin 4) (tile : Nat) (s : State) : (copyTile a tile s).2.restart = s.restart := by
  grind [copyTile, badPageNotes_restart, coveredTile_restart]
@[simp] theorem copyRow_restart (a : Fin 4) (new : Bool) (t row : Nat) (s : State) :
    (copyRow a new t row s).2.restart = s.restart := by
  refine foldl_part (fun acc : _ × State => acc.2.restart) _ (fun acc row => ?_) _ _
  dsimp only
  split <;> simp
@[simp] theorem copyDone_restart (a : Fin 4) (new : Bool) (t : Nat) (s : State) :
    (copyDone a new t s).restart = s.restart := by
  simp only [copyDone]
  (repeat' split) <;> simp

@[simp] theorem copyStep_restart (a : Fin 4) (new : Bool) (t : Nat) (s : State) :
    (copyStep a new t s).restart = s.restart := by
  unfold copyStep
  extract_lets x w h rows
  split
  · split <;> simp
  split
  · (repeat' split) <;> simp
  split
  next n data v hv =>
    have hs : v.restart = s.restart := by
      rw [← congrArg (fun acc : _ × _ × State => acc.2.2.restart) hv]
      refine foldl_part (fun acc : RowNeed × List (Nat × List TileData) × State => acc.2.2.restart) _
        (fun acc row => ?_) _ _
      split
      · dsimp only
        (repeat' split) <;> simp
      · rfl
      · rfl
    split
    · exact hs
    · simp [hs]
    · simp [hs, foldl_restart]

theorem execRepaintCopyStep_keeps (a : Fin 4) (s : State) : Keeps State.restart s (execRepaintCopyStep a s) := by
  simp [execRepaintCopyStep]
theorem execReturnStep_keeps (a : Fin 4) (s : State) : Keeps State.restart s (execReturnStep a s) := by
  simp [execReturnStep]
@[simp] theorem readsFlip_restart (a : Fin 4) (s : State) : (readsFlip a s).restart = s.restart := by simp [readsFlip]
@[simp] theorem verifiesAnew_restart (a : Fin 4) (s : State) : (verifiesAnew a s).restart = s.restart := by
  simp [verifiesAnew, foldl_restart]
@[simp] theorem regionEnd_restart (a : Fin 4) (new : Bool) (s : State) : (regionEnd a new s).restart = s.restart := by
  simp [regionEnd, foldl_restart]
@[simp] theorem cutoverEnd_restart (a : Fin 4) (s : State) : (cutoverEnd a s).restart = s.restart := by
  simp [cutoverEnd]
theorem execCutover_keeps (a : Fin 4) (s : State) : Keeps State.restart s (execCutover a s) := by simp [execCutover]
@[simp] theorem sigWrite_restart (m : Fin 128) (s : State) : (sigWrite m s).restart = s.restart := by simp [sigWrite]
@[simp] theorem backEnd_restart (a : Fin 4) (s : State) : (backEnd a s).restart = s.restart := by
  simp [backEnd, foldl_restart]
theorem execReturnEnd_keeps (a : Fin 4) (s : State) : Keeps State.restart s (execReturnEnd a s) := by
  simp [execReturnEnd]

/-! ## DMA channels and transfers (Machine/Dma) -/

@[simp] theorem descGive_restart (x : Xfer) (s : State) : (descGive x s).restart = s.restart := by
  simp [descGive, apply_ite State.restart]
@[simp] theorem hbFlag_restart (b : Nat) (s : State) : (hbFlag b s).restart = s.restart := by simp [hbFlag]
@[simp] theorem noteMiss_restart (st : Fin 8) (a : Nat) (s : State) : (noteMiss st a s).restart = s.restart := by
  simp [noteMiss]
@[simp] theorem noteBus_restart (detail : Byte) (addr : Nat) (s : State) :
    (noteBus detail addr s).restart = s.restart := by
  simp [noteBus, apply_ite State.restart]
@[simp] theorem chanFree_restart (c : Fin 16) (s : State) : (chanFree c s).restart = s.restart := by simp [chanFree]
@[simp] theorem xferEnd_restart (c : Fin 16) (x : Xfer) (s : State) : (xferEnd c x s).restart = s.restart := by
  simp [xferEnd]
@[simp] theorem noteFault_restart (c : Fin 16) (status detail : Byte) (s : State) :
    (noteFault c status detail s).restart = s.restart := by
  simp [noteFault]
@[simp] theorem chanHalt_restart (c : Fin 16) (s : State) : (chanHalt c s).restart = s.restart := by
  simp [chanHalt, apply_ite State.restart]
@[simp] theorem slotFree_restart (i : Nat) (s : State) : (slotFree i s).restart = s.restart := by
  simp only [slotFree]
  (repeat' split) <;> simp
@[simp] theorem completionFault_restart (i addr : Nat) (s : State) :
    (completionFault i addr s).restart = s.restart := by
  simp only [completionFault]
  (repeat' split) <;> simp [foldl_restart, apply_ite State.restart]
@[simp] theorem xferFault_restart (c : Fin 16) (status detail : Byte) (s : State) :
    (xferFault c status detail s).restart = s.restart := by
  simp only [xferFault]
  (repeat' split) <;> simp
@[simp] theorem busFault_restart (c : Fin 16) (detail : Byte) (addr : Nat) (s : State) :
    (busFault c detail addr s).restart = s.restart := by
  simp [busFault]
@[simp] theorem placeOn_restart (c : Fin 16) (x : Xfer) (s : State) : (placeOn c x s).restart = s.restart := by
  simp [placeOn]
theorem execDmaPlace_keeps (s : State) : Keeps State.restart s (execDmaPlace s) := by
  simp only [execDmaPlace, onlyIf]
  (repeat' split) <;> simp
@[simp] theorem softLook_restart (c : Fin 16) (s : State) : (softLook c s).restart = s.restart := by simp [softLook]
@[simp] theorem kick_restart (c : Fin 16) (s : State) : (kick c s).restart = s.restart := by
  simp only [kick]
  (repeat' split) <;> simp
@[simp] theorem kickAll_restart (mask : Half) (s : State) : (kickAll mask s).restart = s.restart := by
  simp [kickAll, foldl_restart, apply_ite State.restart]
@[simp] theorem dmaEnable_restart (b : Bool) (s : State) : (dmaEnable b s).restart = s.restart := by simp [dmaEnable]
@[simp] theorem dmaGctrlWrite_restart (lanes : Lanes) (data : Word) (s : State) :
    (dmaGctrlWrite lanes data s).restart = s.restart := by
  simp [dmaGctrlWrite, apply_ite State.restart]
theorem execDmaPollTimer_keeps (c : Fin 16) (s : State) : Keeps State.restart s (execDmaPollTimer c s) := by
  simp [execDmaPollTimer]
theorem execBusGranted_keeps (s : State) : Keeps State.restart s (execBusGranted s) := by simp [execBusGranted]
theorem execGrantWithdrawn_keeps (s : State) : Keeps State.restart s (execGrantWithdrawn s) := by
  simp [execGrantWithdrawn]
@[simp] theorem tenureCycle_restart (s : State) : (tenureCycle s).restart = s.restart := by
  simp only [tenureCycle]
  (repeat' split) <;> simp
theorem execReleaseGapExpiry_keeps (s : State) : Keeps State.restart s (execReleaseGapExpiry s) := by
  simp [execReleaseGapExpiry]

/-! ## The queue engine (Machine/Queue) -/

@[simp] theorem doorbellBad_restart (q : Fin 32) (off : Nat) (data : Word) (s : State) :
    (doorbellBad q off data s).restart = s.restart := by
  simp [doorbellBad]
@[simp] theorem sqTail_restart (q : Fin 32) (data : Word) (s : State) : (sqTail q data s).restart = s.restart := by
  simp [sqTail, apply_ite State.restart]
@[simp] theorem cqHead_restart (q : Fin 32) (data : Word) (s : State) : (cqHead q data s).restart = s.restart := by
  simp [cqHead, apply_ite State.restart]
theorem execSqTailDoorbell_keeps (q : Fin 32) (data : Word) (s : State) :
    Keeps State.restart s (execSqTailDoorbell q data s) := by
  simp [execSqTailDoorbell]
theorem execCqHeadDoorbell_keeps (q : Fin 32) (data : Word) (s : State) :
    Keeps State.restart s (execCqHeadDoorbell q data s) := by
  simp [execCqHeadDoorbell]
@[simp] theorem pick_restart (q : Fin 32) (i : Nat) (s : State) : (pick q i s).restart = s.restart := by
  simp [pick, apply_ite State.restart]
theorem execQueuePick_keeps (s : State) : Keeps State.restart s (execQueuePick s) := by
  simp only [execQueuePick, onlyIf]
  (repeat' split) <;> simp
@[simp] theorem cmdLock_restart (i : Nat) (x : Slot) (c : Cmd) (s : State) : (cmdLock i x c s).restart = s.restart := by
  simp [cmdLock, apply_ite State.restart]
@[simp] theorem dispatch_restart (i : Nat) (x : Slot) (c : Cmd) (s : State) :
    (dispatch i x c s).restart = s.restart := by
  simp only [dispatch]
  (repeat' split) <;> simp
@[simp] theorem checkCmd_restart (i : Nat) (x : Slot) (b : List Byte) (s : State) :
    (checkCmd i x b s).restart = s.restart := by
  simp only [checkCmd]
  split <;> simp
@[simp] theorem commandFetched_restart (i : Nat) (s : State) : (commandFetched i s).restart = s.restart := by
  simp only [commandFetched]
  (repeat' split) <;> simp
theorem execCommandFetched_keeps (i : Nat) (s : State) : Keeps State.restart s (execCommandFetched i s) := by
  simp [execCommandFetched]
theorem execWritePauseRelease_keeps (i : Nat) (s : State) : Keeps State.restart s (execWritePauseRelease i s) := by
  simp only [execWritePauseRelease, onlyIf]
  (repeat' split) <;> simp
@[simp] theorem granted_restart (l : Lock) (s : State) : (granted l s).restart = s.restart := by
  simp only [granted]
  (repeat' split) <;> simp
theorem execLockGrant_keeps (s : State) : Keeps State.restart s (execLockGrant s) := by
  simp only [execLockGrant, onlyIf]
  (repeat' split) <;> simp
@[simp] theorem postHeld_restart (q : Fin 32) (s : State) : (postHeld q s).restart = s.restart := by
  simp only [postHeld]
  (repeat' split) <;> simp
@[simp] theorem retryHeld_restart (q : Fin 32) (s : State) : (retryHeld q s).restart = s.restart := by
  simp only [retryHeld]
  (repeat' split) <;> simp
@[simp] theorem sqRun_restart (q : Fin 32) (s : State) : (sqRun q s).restart = s.restart := by simp [sqRun]
@[simp] theorem sqResume_restart (q : Fin 32) (data : Word) (s : State) : (sqResume q data s).restart = s.restart := by
  simp only [sqResume]
  (repeat' split) <;> simp
theorem execSqResumeNext_keeps (q : Fin 32) (slot : BitVec 10) (s : State) :
    Keeps State.restart s (execSqResumeNext q slot s) := by
  simp [execSqResumeNext]
theorem execSqResumeRetry_keeps (q : Fin 32) (slot : BitVec 10) (s : State) :
    Keeps State.restart s (execSqResumeRetry q slot s) := by
  simp [execSqResumeRetry]
theorem execSqResumeDiscard_keeps (q : Fin 32) (slot : BitVec 10) (s : State) :
    Keeps State.restart s (execSqResumeDiscard q slot s) := by
  simp [execSqResumeDiscard]
@[simp] theorem coalesce_restart (st : Fin 8) (now : Bool) (s : State) : (coalesce st now s).restart = s.restart := by
  simp [coalesce, apply_ite State.restart]
@[simp] theorem heldPosted_restart (i : Nat) (q : Fin 32) (s : State) : (heldPosted i q s).restart = s.restart := by
  simp [heldPosted, foldl_restart, apply_ite State.restart]
@[simp] theorem completed_restart (i : Nat) (x : Slot) (s : State) : (completed i x s).restart = s.restart := by
  simp [completed, apply_ite State.restart]
@[simp] theorem cqAdvance_restart (c : Fin 32) (s : State) : (cqAdvance c s).restart = s.restart := by simp [cqAdvance]
@[simp] theorem postDone_restart (i : Nat) (x : Slot) (s : State) : (postDone i x s).restart = s.restart := by
  simp [postDone, apply_ite State.restart]
theorem execCoalesceTimerExpiry_keeps (st : Fin 8) (s : State) :
    Keeps State.restart s (execCoalesceTimerExpiry st s) := by
  simp [execCoalesceTimerExpiry, apply_ite State.restart]
@[simp] theorem sqDisable_restart (q : Fin 32) (s : State) : (sqDisable q s).restart = s.restart := by
  simp [sqDisable, apply_ite State.restart]

/-! ## Queue commands (Machine/Commands) -/

@[simp] theorem nopRun_restart (i : Nat) (s : State) : (nopRun i s).restart = s.restart := by
  simp only [nopRun]
  split <;> simp
@[simp] theorem trimRun_restart (i : Nat) (s : State) : (trimRun i s).restart = s.restart := by
  grind [trimRun, allocRec_restart, reqSeal_restart, slotPut_restart]
theorem execTrim_keeps (i : Nat) (s : State) : Keeps State.restart s (execTrim i s) := by simp [execTrim]
@[simp] theorem flushRun_restart (i : Nat) (s : State) : (flushRun i s).restart = s.restart := by
  simp only [flushRun]
  (repeat' split) <;> simp [foldl_restart, apply_ite State.restart]
theorem execFlush_keeps (i : Nat) (s : State) : Keeps State.restart s (execFlush i s) := by simp [execFlush]
@[simp] theorem flushComplete_restart (i : Nat) (s : State) : (flushComplete i s).restart = s.restart := by
  simp only [flushComplete]
  (repeat' split) <;> simp
theorem execFlushComplete_keeps (i : Nat) (s : State) : Keeps State.restart s (execFlushComplete i s) := by
  simp [execFlushComplete]
@[simp] theorem whistleRun_restart (i : Nat) (s : State) : (whistleRun i s).restart = s.restart := by
  simp only [whistleRun]
  split <;> simp
theorem execWhistleCommand_keeps (i : Nat) (s : State) : Keeps State.restart s (execWhistleCommand i s) := by
  simp [execWhistleCommand]
@[simp] theorem whistleComplete_restart (i : Nat) (s : State) : (whistleComplete i s).restart = s.restart := by
  simp only [whistleComplete]
  (repeat' split) <;> simp
theorem execWhistleComplete_keeps (i : Nat) (s : State) : Keeps State.restart s (execWhistleComplete i s) := by
  simp [execWhistleComplete]

theorem fillTile_restart {i : Nat} {x : Slot} {a : Fin 4} {tile : Nat} {s : State} {n : Nat} {m : Tile} {u : State}
    (h : fillTile i x a tile s = some (n, m, u)) : u.restart = s.restart := by
  simp only [fillTile] at h
  split at h
  · cases h; rfl
  · split at h
    · cases h
    · split at h
      · cases h
      next ha =>
        obtain ⟨_, _, ht⟩ := Option.map_eq_some_iff.mp h
        cases ht
        exact allocTile_restart ha

theorem writeBytes_restart {i pos : Nat} {l : List Byte} {s : State}  {u : State} (h : writeBytes i pos l s = some u) :
    u.restart = s.restart := by
  grind [writeBytes, fillTile_restart, pageRequest_restart, slotPut_restart, tilePut_restart]
theorem readNeed_restart {i : Nat} {x : Slot} {c : Cmd} {s : State} {n : Need} {m : Bool} {u : State}
    (h : readNeed i x c s = (n, m, u)) : u.restart = s.restart := by
  grind [readNeed, currentTile_restart]
@[simp] theorem keepTile_restart (w : Work) (a : Fin 4) (tile : Nat) (data : TileData) (s : State) :
    (keepTile w a tile data s).restart = s.restart := by
  simp only [keepTile]
  split <;> simp
@[simp] theorem readMoved_restart (i stop : Nat) (s : State) : (readMoved i stop s).restart = s.restart := by
  grind [readMoved, decideCmd_restart, keepTile_restart, readNeed_restart, slotPut_restart]
@[simp] theorem fifoStart_restart (i : Nat) (x : Slot) (c : Cmd) (s : State) :
    (fifoStart i x c s).restart = s.restart := by
  simp [fifoStart]
@[simp] theorem fifoFill_restart (i : Nat) (s : State) : (fifoFill i s).restart = s.restart := by
  simp only [fifoFill]
  (repeat' split) <;> simp
@[simp] theorem fifoTake_restart (i : Nat) (s : State) : (fifoTake i s).restart = s.restart := by
  simp only [fifoTake]
  (repeat' split) <;> try rfl
  next h => simp [writeBytes_restart h]
@[simp] theorem startData_restart (i : Nat) (x : Slot) (c : Cmd) (s : State) :
    (startData i x c s).restart = s.restart := by
  simp only [startData]
  (repeat' split) <;> simp
@[simp] theorem writeRun_restart (i : Nat) (s : State) : (writeRun i s).restart = s.restart := by
  simp only [writeRun]
  split <;> simp
@[simp] theorem internalNote_restart (x : Slot) (s : State) : (internalNote x s).restart = s.restart := by
  simp [internalNote]
@[simp] theorem writeInternal_restart (i : Nat) (s : State) : (writeInternal i s).restart = s.restart := by
  simp only [writeInternal]
  split <;> simp
theorem execWrite_keeps (run : SlotRun) (s : State) : Keeps State.restart s (execWrite run s) := by
  simp only [execWrite]
  split <;> simp
@[simp] theorem mediaError_restart (i : Nat) (a : Fin 4) (stripe : Nat) (ms : List (Fin 128)) (res : Word) (s : State) :
    (mediaError i a stripe ms res s).restart = s.restart := by
  simp [mediaError, apply_ite State.restart]
@[simp] theorem readGo_restart (i : Nat) (x : Slot) (c : Cmd) (s : State) : (readGo i x c s).restart = s.restart := by
  grind [readGo, endCmd_restart, fifoFill_restart, internalNote_restart, mediaError_restart, readNeed_restart,
    slotPut_restart]
@[simp] theorem readRun_restart (i : Nat) (s : State) : (readRun i s).restart = s.restart := by
  simp only [readRun]
  (repeat' split) <;> simp
@[simp] theorem pagesBad_restart (l : List Nat) (s : State) : (pagesBad l s).restart = s.restart := by simp [pagesBad]
@[simp] theorem readFault_restart (i : Nat) (canvas : Bool) (s : State) :
    (readFault i canvas s).restart = s.restart := by
  simp only [readFault]
  (repeat' split) <;> simp
theorem execRead_keeps (run : SlotRun) (s : State) : Keeps State.restart s (execRead run s) := by
  simp only [execRead]
  split <;> simp
@[simp] theorem verifyNext_restart (i : Nat) (x : Slot) (c : Cmd) (new : Bool) (t : Nat) (s : State) :
    (verifyNext i x c new t s).restart = s.restart := by
  simp [verifyNext]
@[simp] theorem verifyRow_restart (i : Nat) (x : Slot) (c : Cmd) (new : Bool) (t : Nat) (s : State) :
    (verifyRow i x c new t s).restart = s.restart := by
  simp only [verifyRow]
  (repeat' split) <;> simp
@[simp] theorem verifyLocked_restart (i : Nat) (x : Slot) (c : Cmd) (new : Bool) (t : Nat) (s : State) :
    (verifyLocked i x c new t s).restart = s.restart := by
  simp [verifyLocked, apply_ite State.restart]
@[simp] theorem verifyRun_restart (i : Nat) (s : State) : (verifyRun i s).restart = s.restart := by
  simp only [verifyRun]
  (repeat' split) <;> simp
theorem execVerify_keeps (i : Nat) (s : State) : Keeps State.restart s (execVerify i s) := by simp [execVerify]

/-! ## Master cycles (Machine/Burst) -/

@[simp] theorem refillBytes_restart (layer pos : Nat) (l : List Byte) (s : State) :
    (refillBytes layer pos l s).restart = s.restart := by
  simp only [refillBytes]
  (repeat' split) <;> simp
theorem burstIn_restart {x : Xfer} {l : List Byte} {s : State}  {u : State} (h : burstIn x l s = some u) :
    u.restart = s.restart := by
  grind [burstIn, refillBytes_restart, slotPut_restart, writeBytes_restart]
@[simp] theorem burstSent_restart (x : Xfer) (n : Nat) (s : State) : (burstSent x n s).restart = s.restart := by
  simp only [burstSent]
  split <;> simp
@[simp] theorem burstCount_restart (c : Fin 16) (x : Xfer) (n : Nat) (s : State) :
    (burstCount c x n s).restart = s.restart := by
  simp only [burstCount]
  (repeat' split) <;> simp
@[simp] theorem burstDone_restart (c : Fin 16) (x : Xfer) (l : List Byte) (s : State) :
    (burstDone c x l s).restart = s.restart := by
  grind [burstDone, burstCount_restart, burstIn_restart, burstSent_restart]
@[simp] theorem xferAccess_restart (c : Fin 16) (x : Xfer) (k : AccessKind) (l : List MCycle) (s : State) :
    (xferAccess c x k l s).restart = s.restart := by
  simp [xferAccess]
@[simp] theorem burstTurn_restart (c : Fin 16) (s : State) : (burstTurn c s).restart = s.restart := by
  simp [burstTurn, apply_ite State.restart]
theorem burstOf_restart {c : Fin 16} {data : List Byte} {s : State}  {u : State} (h : burstOf c data s = some u) :
    u.restart = s.restart := by
  grind [burstOf, burstIn_restart, xferAccess_restart, xferFault_restart]
@[simp] theorem burstPick_restart (data : List Byte) (s : State) (l : List (Fin 16)) :
    (burstPick data s l).restart = s.restart := by
  induction l with
  | nil => rfl
  | cons c t ih => grind [burstPick, burstOf_restart, burstTurn_restart]
@[simp] theorem listRead_restart (c : Fin 16) (dst : Bool) (l : List Byte) (s : State) :
    (listRead c dst l s).restart = s.restart := by
  simp only [listRead]
  (repeat' split) <;> simp
@[simp] theorem entryDone_restart (c : Fin 16) (x : Xfer) (dst : Bool) (l : List Byte) (s : State) :
    (entryDone c x dst l s).restart = s.restart := by
  simp only [entryDone]
  (repeat' split) <;> simp
@[simp] theorem pollFault_restart (c : Fin 16) (detail : Byte) (addr : Nat) (s : State) :
    (pollFault c detail addr s).restart = s.restart := by
  simp [pollFault]
@[simp] theorem pollDone_restart (c : Fin 16) (own : Byte) (s : State) : (pollDone c own s).restart = s.restart := by
  simp [pollDone, apply_ite State.restart]
@[simp] theorem descDone_restart (c : Fin 16) (x : Xfer) (idx : Nat) (l : List Byte) (s : State) :
    (descDone c x idx l s).restart = s.restart := by
  simp only [descDone]
  (repeat' split) <;> simp
@[simp] theorem descRead_restart (c : Fin 16) (l : List Byte) (s : State) : (descRead c l s).restart = s.restart := by
  simp only [descRead]
  (repeat' split) <;> simp
@[simp] theorem wbFault_restart (c : Fin 16) (x : Xfer) (st dt : Byte) (addr : Nat) (s : State) :
    (wbFault c x st dt addr s).restart = s.restart := by
  simp [wbFault]
@[simp] theorem softDone_restart (c : Fin 16) (x : Xfer) (st dt : Byte) (irq stop : Bool) (s : State) :
    (softDone c x st dt irq stop s).restart = s.restart := by
  simp [softDone, apply_ite State.restart]
@[simp] theorem softEnd_restart (c : Fin 16) (x : Xfer) (s : State) : (softEnd c x s).restart = s.restart := by
  simp only [softEnd]
  split <;> simp
@[simp] theorem softComplete_restart (c : Fin 16) (s : State) : (softComplete c s).restart = s.restart := by
  simp only [softComplete]
  (repeat' split) <;> simp
@[simp] theorem postNow_restart (i : Nat) (s : State) : (postNow i s).restart = s.restart := by
  simp only [postNow]
  (repeat' split) <;> simp
@[simp] theorem postEnd_restart (c : Fin 16) (f : Xfer) (i : Nat) (s : State) :
    (postEnd c f i s).restart = s.restart := by
  simp only [postEnd]
  split <;> simp

@[simp] theorem reap_restart (w : Work) (s : State) : (reap w s).restart = s.restart := by
  cases w with
  | cmd i =>
    simp only [reap]
    (repeat' split) <;> simp
  | _ => rfl

@[simp] theorem leftoverEnd_restart (x : Xfer) (s : State) : (leftoverEnd x s).restart = s.restart := by
  simp only [leftoverEnd]
  split <;> simp
@[simp] theorem chanStop_restart (c : Fin 16) (s : State) : (chanStop c s).restart = s.restart := by
  simp only [chanStop]
  (repeat' split) <;> simp
@[simp] theorem accessDone_restart (a : Access) (s : State) : (accessDone a s).restart = s.restart := by
  simp only [accessDone]
  (repeat' split) <;> simp
@[simp] theorem workFault_restart (c : Fin 16) (detail : Byte) (addr : Nat) (s : State) :
    (workFault c detail addr s).restart = s.restart := by
  simp only [workFault]
  (repeat' split) <;> simp
@[simp] theorem boundary_restart (c : Fin 16) (s : State) : (boundary c s).restart = s.restart := by
  simp [boundary, apply_ite State.restart]
@[simp] theorem accessFault_restart (a : Access) (detail : Byte) (addr : Nat) (s : State) :
    (accessFault a detail addr s).restart = s.restart := by
  simp [accessFault, apply_ite State.restart]
@[simp] theorem accessOn_restart (s : State) : (accessOn s).restart = s.restart := by
  simp only [accessOn]
  (repeat' split) <;> simp
@[simp] theorem cycleRun_restart (s : State) : (cycleRun s).restart = s.restart := by
  simp only [cycleRun]
  (repeat' split) <;> simp
theorem execMasterCycle_keeps (s : State) : Keeps State.restart s (execMasterCycle s) := by simp [execMasterCycle]
@[simp] theorem accessBegun_restart (s : State) : (accessBegun s).restart = s.restart := by simp [accessBegun]
theorem execDmaBurst_keeps (data : Vector Byte 64) (s : State) : Keeps State.restart s (execDmaBurst data s) := by
  simp [execDmaBurst]
theorem execListEntryRead_keeps (c : Fin 16) (dst : Bool) (bytes : Vector Byte 8) (s : State) :
    Keeps State.restart s (execListEntryRead c dst bytes s) := by
  simp [execListEntryRead]
theorem execDescriptorReadDone_keeps (c : Fin 16) (bytes : Vector Byte 64) (s : State) :
    Keeps State.restart s (execDescriptorReadDone c bytes s) := by
  simp [execDescriptorReadDone]
theorem execDmaCompletion_keeps (c : Fin 16) (s : State) : Keeps State.restart s (execDmaCompletion c s) := by
  simp [execDmaCompletion]
theorem execCompletionPost_keeps (i : Nat) (s : State) : Keeps State.restart s (execCompletionPost i s) := by
  simp [execCompletionPost]
@[simp] theorem cycleFault_restart (self : Bool) (s : State) : (cycleFault self s).restart = s.restart := by
  simp only [cycleFault]
  (repeat' split) <;> simp
theorem execRdyTimeout_keeps (c : Fin 16) (addr : BitVec 24) (s : State) :
    Keeps State.restart s (execRdyTimeout c addr s) := by
  simp [execRdyTimeout]
theorem execSelfAccess_keeps (c : Fin 16) (addr : BitVec 24) (s : State) :
    Keeps State.restart s (execSelfAccess c addr s) := by
  simp [execSelfAccess]
theorem execCompletionWriteFault_keeps (i : Nat) (self : Bool) (addr : BitVec 24) (s : State) :
    Keeps State.restart s (execCompletionWriteFault i self addr s) := by
  simp [execCompletionWriteFault]
@[simp] theorem grantFault_restart (c : Fin 16) (s : State) : (grantFault c s).restart = s.restart := by
  simp only [grantFault]
  (repeat' split) <;> simp
theorem execGntTimeout_keeps (s : State) : Keeps State.restart s (execGntTimeout s) := by
  simp [execGntTimeout, foldl_restart]
theorem execDmaKick_keeps (mask : Half) (s : State) : Keeps State.restart s (execDmaKick mask s) := by
  simp [execDmaKick]
theorem execDmaGlobalPause_keeps (s : State) : Keeps State.restart s (execDmaGlobalPause s) := by
  simp [execDmaGlobalPause]
theorem execDmaGlobalResume_keeps (s : State) : Keeps State.restart s (execDmaGlobalResume s) := by
  simp [execDmaGlobalResume]
theorem execPoolGrant_keeps (pool : Fin 20) (s : State) : Keeps State.restart s (execPoolGrant pool s) := by
  simp only [execPoolGrant, onlyIf]
  (repeat' split) <;> simp
theorem execFlushAll_keeps (s : State) : Keeps State.restart s (execFlushAll s) := by simp [execFlushAll]
theorem execSkbCtrlWrite_keeps (lanes : Lanes) (data : Word) (s : State) :
    Keeps State.restart s (execSkbCtrlWrite lanes data s) := by
  simp [execSkbCtrlWrite]
theorem execNop_keeps (i : Nat) (s : State) : Keeps State.restart s (execNop i s) := by simp [execNop]

/-! ## Member ports (Machine/Port) -/

@[simp] theorem portChanged_restart (p : Fin 8) (s : State) : (portChanged p s).restart = s.restart := by
  simp [portChanged]
@[simp] theorem ownEdit_restart (p : Fin 8) (f : Member → Member) (s : State) :
    (ownEdit p f s).restart = s.restart := by
  simp [ownEdit]
@[simp] theorem portOn_restart (p : Fin 8) (s : State) : (portOn p s).restart = s.restart := by simp [portOn]
@[simp] theorem portTick_restart (p : Fin 8) (s : State) : (portTick p s).restart = s.restart := by
  simp [portTick, apply_ite State.restart]
@[simp] theorem allocPages_restart (n : Nat) (s : State) : (allocPages n s).2.restart = s.restart := by
  induction n generalizing s with
  | zero => rfl
  | succ n ih => grind [allocPages, allocPage_restart]
@[simp] theorem land_restart (v : Served) (s : State) : (land v s).restart = s.restart := by
  simp [land, foldl_restart, apply_ite State.restart]
@[simp] theorem orderAck_restart (s : State) : (orderAck s).restart = s.restart := by
  simp only [orderAck]
  (repeat' split) <;> simp
@[simp] theorem servedDrop_restart (v : Served) (s : State) : (servedDrop v s).restart = s.restart := by
  simp [servedDrop, foldl_restart]
@[simp] theorem reply_restart (v : Served) (kind : Byte) (arg : Nat) (flits : List Dword) (s : State) :
    (reply v kind arg flits s).restart = s.restart := by
  simp [reply]
@[simp] theorem psumReply_restart (v : Served) (s : State) : (psumReply v s).restart = s.restart := by
  simp [psumReply, foldl_restart]
@[simp] theorem servedResult_restart (tag epoch : Byte) (o : MOp) (r : OpEnd) (s : State) :
    (servedResult tag epoch o r s).restart = s.restart := by
  simp only [servedResult]
  (repeat' split) <;> simp [foldl_restart]
@[simp] theorem chunkResult_restart (w : Work) (c : ChunkAt) (row : Nat) (r : OpEnd) (s : State) :
    (chunkResult w c row r s).restart = s.restart := by
  simp only [chunkResult]
  (repeat' split) <;> simp
@[simp] theorem retiredOff_restart (m : Fin 128) (s : State) : (retiredOff m s).restart = s.restart := by
  simp [retiredOff, apply_ite State.restart]
@[simp] theorem mgmtAsk_restart (r : MgmtRun) (s : State) : (mgmtAsk r s).restart = s.restart := by
  simp only [mgmtAsk, onlyIf]
  (repeat' split) <;> simp
@[simp] theorem mgmtSigOk_restart (m : Fin 128) (copyB : Bool) (s : State) :
    (mgmtSigOk m copyB s).restart = s.restart := by
  simp only [mgmtSigOk]
  (repeat' split) <;> simp
@[simp] theorem mgmtSigFail_restart (m : Fin 128) (s : State) : (mgmtSigFail m s).restart = s.restart := by
  simp only [mgmtSigFail]
  (repeat' split) <;> simp
@[simp] theorem sigResult_restart (o : MOp) (copyB own : Bool) (s : State) :
    (sigResult o copyB own s).restart = s.restart := by
  simp [sigResult, apply_ite State.restart]
@[simp] theorem sigLost_restart (m : Fin 128) (s : State) : (sigLost m s).restart = s.restart := by
  simp [sigLost, apply_ite State.restart]
@[simp] theorem sigSeen_restart (o : MOp) (r : OpEnd) (s : State) : (sigSeen o r s).restart = s.restart := by
  simp only [sigSeen]
  (repeat' split) <;> simp
@[simp] theorem opResult_restart (o : MOp) (r : OpEnd) (s : State) : (opResult o r s).restart = s.restart := by
  simp only [opResult]
  (repeat' split) <;> simp
@[simp] theorem opOut_restart (p : Fin 8) (o : MOp) (s : State) : (opOut p o s).restart = s.restart := by simp [opOut]
@[simp] theorem portAbort_restart (p : Fin 8) (r : OpEnd) (s : State) : (portAbort p r s).restart = s.restart := by
  simp [portAbort, foldl_restart]
@[simp] theorem memLeave_restart (p : Fin 8) (st : MState) (cause : Byte) (s : State) :
    (memLeave p st cause s).restart = s.restart := by
  simp [memLeave, apply_ite State.restart]
@[simp] theorem modeTake_restart (p : Fin 8) (k : BitVec 4 × BitVec 5) (s : State) :
    (modeTake p k s).restart = s.restart := by
  simp [modeTake, apply_ite State.restart]
@[simp] theorem retune_restart (p : Fin 8) (t : Tunes) (s : State) : (retune p t s).restart = s.restart := by
  simp only [retune]
  split <;> simp
@[simp] theorem headPut_restart (p : Fin 8) (o : MOp) (s : State) : (headPut p o s).restart = s.restart := by
  simp [headPut]
@[simp] theorem tryAgain_restart (p : Fin 8) (o : MOp) (s : State) : (tryAgain p o s).restart = s.restart := by
  simp [tryAgain]
@[simp] theorem linkError_restart (p : Fin 8) (o : MOp) (t : Tunes) (s : State) :
    (linkError p o t s).restart = s.restart := by
  simp only [linkError]
  (repeat' split) <;> simp
@[simp] theorem cardError_restart (p : Fin 8) (o : MOp) (good : List (BitVec 4096)) (t : Tunes) (s : State) :
    (cardError p o good t s).restart = s.restart := by
  simp only [cardError]
  (repeat' split) <;> simp
@[simp] theorem attemptFailed_restart (p : Fin 8) (t : Tunes) (f : State → State) (s : State)
    (h : (f s).restart = s.restart) : (attemptFailed p t f s).restart = s.restart := by
  simp only [attemptFailed]
  split <;> simp [h]
@[simp] theorem memberOpDone_restart (p : Fin 8) (r : OpResult) (s : State) :
    (memberOpDone p r s).restart = s.restart := by
  simp only [memberOpDone]
  (repeat' split) <;> simp
theorem execMemberOpDone_keeps (p : Fin 8) (r : OpResult) (s : State) :
    Keeps State.restart s (execMemberOpDone p r s) := by
  simp [execMemberOpDone]
theorem execMemberOpTimeout_keeps (p : Fin 8) (t : Tunes) (s : State) :
    Keeps State.restart s (execMemberOpTimeout p t s) := by
  simp only [execMemberOpTimeout, onlyIf]
  (repeat' split) <;> simp
@[simp] theorem heldRetry_restart (p : Fin 8) (s : State) : (heldRetry p s).restart = s.restart := by
  simp only [heldRetry]
  (repeat' split) <;> simp
@[simp] theorem sampleCd_restart (p : Fin 8) (low : Bool) (s : State) : (sampleCd p low s).restart = s.restart := by
  simp only [sampleCd, onlyIf]
  (repeat' split) <;> simp
@[simp] theorem roleMove_restart (m : Fin 128) (s : State) : (roleMove m s).restart = s.restart := by
  simp only [roleMove]
  (repeat' split) <;> simp
@[simp] theorem classified_restart (m : Fin 128) (mend : Option Bool) (s : State) :
    (classified m mend s).restart = s.restart := by
  simp only [classified]
  split <;> simp
@[simp] theorem portFound_restart (p : Fin 8) (s : State) : (portFound p s).restart = s.restart := by simp [portFound]
@[simp] theorem identFail_restart (p : Fin 8) (cause : Byte) (s : State) :
    (identFail p cause s).restart = s.restart := by
  simp only [identFail]
  split <;> simp
@[simp] theorem identEntry_restart (p : Fin 8) (d : CardIdent) (f : Found) (sig : Option Sig) (mend : Option Bool)
    (s : State) : (identEntry p d f sig mend s).restart = s.restart := by
  simp [identEntry]
@[simp] theorem cardFound_restart (p : Fin 8) (mend : Option Bool) (s : State) :
    (cardFound p mend s).restart = s.restart := by
  simp [cardFound, apply_ite State.restart]
@[simp] theorem portReturn_restart (p : Fin 8) (old : MState) (s : State) :
    (portReturn p old s).restart = s.restart := by
  simp [portReturn]
@[simp] theorem signatureRead_restart (p : Fin 8) (d : CardIdent) (s : State) :
    (signatureRead p d s).restart = s.restart := by
  simp only [signatureRead]
  (repeat' split) <;> simp
theorem execSignatureRead_keeps (p : Fin 8) (d : CardIdent) (s : State) :
    Keeps State.restart s (execSignatureRead p d s) := by
  simp [execSignatureRead]
theorem execIdentFailed_keeps (p : Fin 8) (unsupported : Bool) (s : State) :
    Keeps State.restart s (execIdentFailed p unsupported s) := by
  simp [execIdentFailed]
@[simp] theorem cdAccept_restart (p : Fin 8) (low : Bool) (s : State) : (cdAccept p low s).restart = s.restart := by
  simp [cdAccept]
@[simp] theorem cardInserted_restart (p : Fin 8) (s : State) : (cardInserted p s).restart = s.restart := by
  simp [cardInserted, apply_ite State.restart]
@[simp] theorem cardRemoved_restart (p : Fin 8) (s : State) : (cardRemoved p s).restart = s.restart := by
  simp [cardRemoved, apply_ite State.restart]
@[simp] theorem portHold_restart (p : Fin 8) (s : State) : (portHold p s).restart = s.restart := by
  simp [portHold, foldl_restart]
@[simp] theorem portReset_restart (p : Fin 8) (s : State) : (portReset p s).restart = s.restart := by
  simp [portReset, apply_ite State.restart]
@[simp] theorem portsReset_restart (mask : Byte) (s : State) : (portsReset mask s).restart = s.restart := by
  simp [portsReset, foldl_restart, apply_ite State.restart]
theorem execPortResetLost_keeps (p : Fin 8) (s : State) : Keeps State.restart s (execPortResetLost p s) := by
  simp only [execPortResetLost, onlyIf]
  (repeat' split) <;> simp
@[simp] theorem signatureMend_restart (m : Fin 128) (s : State) : (signatureMend m s).restart = s.restart := by
  simp only [signatureMend]
  (repeat' split) <;> simp
@[simp] theorem signatureRefresh_restart (m : Fin 128) (s : State) : (signatureRefresh m s).restart = s.restart := by
  simp [signatureRefresh, apply_ite State.restart]
theorem execSignatureRefresh_keeps (m : Fin 128) (s : State) : Keeps State.restart s (execSignatureRefresh m s) := by
  simp [execSignatureRefresh, apply_ite State.restart]
theorem execMemberReportTimer_keeps (s : State) : Keeps State.restart s (execMemberReportTimer s) := by
  simp [execMemberReportTimer, foldl_restart]
@[simp] theorem memberEvtClear_restart (w : Word) (s : State) : (memberEvtClear w s).restart = s.restart := by
  simp [memberEvtClear]

/-! ## The Referee and the second tier (Machine/Referee) -/

@[simp] theorem memberOpIssue_restart (p : Fin 8) (s : State) : (memberOpIssue p s).restart = s.restart := by
  simp only [memberOpIssue]
  (repeat' split) <;> simp
theorem execMemberOpIssue_keeps (p : Fin 8) (s : State) : Keeps State.restart s (execMemberOpIssue p s) := by
  simp [execMemberOpIssue]
theorem execRefereeDecay_keeps (s : State) : Keeps State.restart s (execRefereeDecay s) := by simp [execRefereeDecay]
@[simp] theorem admitAdd_restart (x : Fin 4 × Nat × Nat × Nat) (s : State) : (admitAdd x s).restart = s.restart := by
  simp [admitAdd]
@[simp] theorem admitSub_restart (x : Fin 4 × Nat × Nat × Nat) (s : State) : (admitSub x s).restart = s.restart := by
  simp [admitSub]
@[simp] theorem tier2Total_restart (n : Nat) (s : State) : (tier2Total n s).restart = s.restart := by simp [tier2Total]
@[simp] theorem tier2Probe_restart (regs : Option (Half × Half)) (s : State) :
    (tier2Probe regs s).restart = s.restart := by
  simp only [tier2Probe]
  (repeat' split) <;> simp
@[simp] theorem tier2Lose_restart (s : State) : (tier2Lose s).restart = s.restart := by simp [tier2Lose]
@[simp] theorem tier2Fail_restart (s : State) : (tier2Fail s).restart = s.restart := by
  simp [tier2Fail, apply_ite State.restart]
theorem execTier2TransferDone_keeps (s : State) : Keeps State.restart s (execTier2TransferDone s) := by
  simp only [execTier2TransferDone, onlyIf]
  (repeat' split) <;> simp
theorem execTier2DqsTimeout_keeps (s : State) : Keeps State.restart s (execTier2DqsTimeout s) := by
  simp [execTier2DqsTimeout]
theorem execTier2CheckRead_keeps (reg0 : Option Half) (s : State) :
    Keeps State.restart s (execTier2CheckRead reg0 s) := by
  simp only [execTier2CheckRead]
  (repeat' split) <;> simp [apply_ite State.restart]

/-! ## Studio resets (Machine/Studio) -/

@[simp] theorem resetQueues_restart (st : Fin 8) (s : State) : (resetQueues st s).restart = s.restart := by
  simp [resetQueues, foldl_restart, apply_ite State.restart]
@[simp] theorem barPost_restart (st : Fin 8) (s : State) : (barPost st s).restart = s.restart := by
  simp only [barPost]
  (repeat' split) <;> simp
@[simp] theorem dropIssued_restart (w : Work) (s : State) : (dropIssued w s).restart = s.restart := by
  simp [dropIssued, foldl_restart]
@[simp] theorem keepStep_restart (i : Nat) (s : State) : (keepStep i s).restart = s.restart := by
  simp only [keepStep]
  (repeat' split) <;> simp
@[simp] theorem resetCmd_restart (i : Nat) (s : State) : (resetCmd i s).restart = s.restart := by
  simp only [resetCmd]
  (repeat' split) <;> simp
@[simp] theorem handProgram_restart (st : Fin 8) (s : State) : (handProgram st s).2.restart = s.restart := by
  simp only [handProgram]
  (repeat' split) <;> simp
@[simp] theorem handRecords_restart (st : Fin 8) (s : State) : (handRecords st s).2.restart = s.restart := by
  simp [handRecords, foldl_restart]
@[simp] theorem handTiles_restart (st : Fin 8) (s : State) : (handTiles st s).restart = s.restart := by
  simp [handTiles, foldl_restart, apply_ite State.restart]
@[simp] theorem resetAlias_restart (st : Fin 8) (s : State) : (resetAlias st s).restart = s.restart := by
  simp [resetAlias]
@[simp] theorem resetChan_restart (c : Fin 16) (s : State) : (resetChan c s).restart = s.restart := by
  simp only [resetChan]
  split <;> simp
@[simp] theorem resetChans_restart (st : Fin 8) (s : State) : (resetChans st s).restart = s.restart := by
  simp [resetChans, foldl_restart, apply_ite State.restart]
@[simp] theorem resetLayers_restart (st : Fin 8) (s : State) : (resetLayers st s).restart = s.restart := by
  simp [resetLayers]
@[simp] theorem studioReset_restart (st : Fin 8) (s : State) : (studioReset st s).restart = s.restart := by
  simp [studioReset, foldl_restart]
@[simp] theorem studioRequest_restart (st : Fin 8) (s : State) : (studioRequest st s).restart = s.restart := by
  simp [studioRequest, apply_ite State.restart]
@[simp] theorem studioRst_restart (mask : Byte) (s : State) : (studioRst mask s).restart = s.restart := by
  simp [studioRst, foldl_restart, apply_ite State.restart]
theorem execStudioReset_keeps (mask : Byte) (s : State) : Keeps State.restart s (execStudioReset mask s) := by
  simp [execStudioReset]
@[simp] theorem studioResetEnd_straps (st : Fin 8) (s : State) :
    (studioResetEnd st s).restart.straps = s.restart.straps := by
  simp [studioResetEnd, apply_ite State.restart]
theorem execStudioResetEnd_keeps (st : Fin 8) (s : State) :
    Keeps (fun u => u.restart.straps) s (execStudioResetEnd st s) := by
  simp [execStudioResetEnd]
@[simp] theorem studioAck_restart (st : Fin 8) (s : State) : (studioAck st s).restart = s.restart := by
  simp [studioAck, apply_ite State.restart]
@[simp] theorem studioDone_restart (mask : Byte) (s : State) : (studioDone mask s).restart = s.restart := by
  simp [studioDone, foldl_restart, apply_ite State.restart]
theorem execStudioDoneAck_keeps (mask : Byte) (s : State) : Keeps State.restart s (execStudioDoneAck mask s) := by
  simp [execStudioDoneAck]
@[simp] theorem studiosUp_restart (s : State) : (studiosUp s).restart = s.restart := by simp [studiosUp]
@[simp] theorem studiosDown_restart (s : State) : (studiosDown s).restart = s.restart := by simp [studiosDown]

/-! ## Links and the roll call (Machine/Ring) -/

@[simp] theorem ringTrain_restart (s : State) : (ringTrain s).restart = s.restart := by simp [ringTrain]
theorem execLinkTrainingStart_keeps (fb : Bool) (s : State) : Keeps State.restart s (execLinkTrainingStart fb s) := by
  simp [execLinkTrainingStart]
theorem execForwardedClockSeen_keeps (fb : Bool) (s : State) : Keeps State.restart s (execForwardedClockSeen fb s) := by
  simp [execForwardedClockSeen]
theorem execTrainingTimeout_keeps (fb : Bool) (s : State) : Keeps State.restart s (execTrainingTimeout fb s) := by
  simp [execTrainingTimeout]
theorem execBrokenHoldExpiry_keeps (fb : Bool) (s : State) : Keeps State.restart s (execBrokenHoldExpiry fb s) := by
  simp [execBrokenHoldExpiry]
theorem execRollCallStart_keeps (s : State) : Keeps State.restart s (execRollCallStart s) := by simp [execRollCallStart]
theorem execTrainingComplete_keeps (fb : Bool) (s : State) : Keeps State.restart s (execTrainingComplete fb s) := by
  simp [execTrainingComplete]
theorem execLinkBreak_keeps (fb : Bool) (s : State) : Keeps State.restart s (execLinkBreak fb s) := by
  simp [execLinkBreak]
@[simp] theorem linksOrdered_restart (s : State) : (linksOrdered s).restart = s.restart := by
  simp only [linksOrdered]
  (repeat' split) <;> simp
@[simp] theorem linksLifted_restart (s : State) : (linksLifted s).restart = s.restart := by simp [linksLifted]
theorem execLinkFlit_keeps (fb : Bool) (payload : Dword) (s : State) :
    Keeps State.restart s (execLinkFlit fb payload s) := by
  simp [execLinkFlit]
theorem execLinkFlitTimer_keeps (fb : Bool) (s : State) : Keeps State.restart s (execLinkFlitTimer fb s) := by
  simp [execLinkFlitTimer]
theorem execPacketReceiveError_keeps (fb crc : Bool) (s : State) :
    Keeps State.restart s (execPacketReceiveError fb crc s) := by
  simp [execPacketReceiveError, apply_ite State.restart]
theorem execResendTimeout_keeps (fb : Bool) (s : State) : Keeps State.restart s (execResendTimeout fb s) := by
  simp [execResendTimeout]
@[simp] theorem receive_restart (fb : Bool) (kind : Byte) (p : Pkt) (act : State → State) (s : State)
    (h : ∀ u, (act u).restart = u.restart) : (receive fb kind p act s).restart = s.restart := by
  simp only [receive]
  (repeat' split) <;> simp [h]
@[simp] theorem received_keeps (fb : Bool) (kind : Byte) (p : Pkt) (act : State → State) (s : State)
    (h : ∀ u, (act u).restart = u.restart) : Keeps State.restart s (received fb kind p act s) := by
  simp [received, h]
theorem execPacketForward_keeps (fb : Bool) (kind : Byte) (p : Pkt) (s : State) :
    Keeps State.restart s (execPacketForward fb kind p s) := by
  simp [execPacketForward]
@[simp] theorem onManager_restart (f : State → State) (s : State) (h : (f s).restart = s.restart) :
    (onManager f s).restart = s.restart := by
  simp [onManager, h]
@[simp] theorem onWorker_restart (f : State → State) (s : State) (h : (f s).restart = s.restart) :
    (onWorker f s).restart = s.restart := by
  simp [onWorker, h]
@[simp] theorem rollCallWorker_restart (fb : Bool) (p : Pkt) (s : State) :
    (rollCallWorker fb p s).restart = s.restart := by
  simp [rollCallWorker]
@[simp] theorem rollCallManager_restart (fb : Bool) (p : Pkt) (s : State) :
    (rollCallManager fb p s).restart = s.restart := by
  simp only [rollCallManager]
  (repeat' split) <;> simp
theorem execRollCall_keeps (fb : Bool) (p : Pkt) (s : State) : Keeps State.restart s (execRollCall fb p s) := by
  simp only [execRollCall]
  split <;> simp
theorem execRollAnswer_keeps (fb : Bool) (p : Pkt) (rtt : Half) (s : State) :
    Keeps State.restart s (execRollAnswer fb p rtt s) :=
  received_keeps _ _ _ _ _ (fun u => onManager_restart _ _ (by (repeat' split) <;> rfl))

/-! ## The fabric (Machine/Fabric) -/

@[simp] theorem sendAssign_restart (n : Numbered) (s : State) : (sendAssign n s).restart = s.restart := by
  simp [sendAssign]
@[simp] theorem nodeLost_restart (k : BitVec 4) (s : State) : (nodeLost k s).restart = s.restart := by
  simp [nodeLost, foldl_restart, apply_ite State.restart]
@[simp] theorem psumEnd_restart (p : Psum) (k : BitVec 4) (sum : List (BitVec 4096)) (failed : Byte) (s : State) :
    (psumEnd p k sum failed s).restart = s.restart := by
  simp only [psumEnd]
  (repeat' split) <;> simp [foldl_restart]
@[simp] theorem reqLost_restart (r : RReq) (s : State) : (reqLost r s).restart = s.restart := by
  simp only [reqLost]
  split <;> simp
@[simp] theorem reissueAll_restart (s : State) : (reissueAll s).restart = s.restart := by
  simp [reissueAll, foldl_restart, apply_ite State.restart]
@[simp] theorem rollFinish_restart (s : State) : (rollFinish s).restart = s.restart := by
  simp only [rollFinish]
  (repeat' split) <;> simp [foldl_restart]
@[simp] theorem rollCollectEnd_restart (s : State) : (rollCollectEnd s).restart = s.restart := by
  simp only [rollCollectEnd]
  (repeat' split) <;> simp [foldl_restart, apply_ite State.restart]
theorem execRollCallCollectEnd_keeps (s : State) : Keeps State.restart s (execRollCallCollectEnd s) := by
  simp [execRollCallCollectEnd]
theorem execRollAck_keeps (fb : Bool) (p : Pkt) (s : State) : Keeps State.restart s (execRollAck fb p s) :=
  received_keeps _ _ _ _ _ (fun u => onManager_restart _ _ (by (repeat' split) <;> simp [apply_ite State.restart]))
theorem execRollAssign_keeps (fb : Bool) (p : Pkt) (s : State) : Keeps State.restart s (execRollAssign fb p s) := by
  simp [execRollAssign]
@[simp] theorem dropEpochs_restart (e : Byte) (s : State) : (dropEpochs e s).restart = s.restart := by
  simp [dropEpochs, foldl_restart]
@[simp] theorem rollDone_restart (p : Pkt) (s : State) : (rollDone p s).restart = s.restart := by
  simp [rollDone, foldl_restart, apply_ite State.restart]
theorem execRollDone_keeps (fb : Bool) (p : Pkt) (s : State) : Keeps State.restart s (execRollDone fb p s) := by
  simp [execRollDone]
theorem execLinkNote_keeps (fb : Bool) (p : Pkt) (s : State) : Keeps State.restart s (execLinkNote fb p s) := by
  simp [execLinkNote]
@[simp] theorem reqDrop_restart (r : RReq) (s : State) : (reqDrop r s).restart = s.restart := by simp [reqDrop]
@[simp] theorem verdict_restart (k : BitVec 4) (s : State) : (verdict k s).restart = s.restart := by simp [verdict]
theorem execRequestTimeout_keeps (k : BitVec 4) (tag : Byte) (s : State) :
    Keeps State.restart s (execRequestTimeout k tag s) := by
  simp only [execRequestTimeout, onlyIf]
  (repeat' split) <;> simp
theorem execPingTimeout_keeps (k : BitVec 4) (tag : Byte) (s : State) :
    Keeps State.restart s (execPingTimeout k tag s) := by
  simp only [execPingTimeout, onlyIf]
  (repeat' split) <;> simp
theorem execPing_keeps (fb : Bool) (p : Pkt) (s : State) : Keeps State.restart s (execPing fb p s) := by simp [execPing]
@[simp] theorem pong_restart (p : Pkt) (s : State) : (pong p s).restart = s.restart := by
  simp only [pong]
  (repeat' split) <;> simp
theorem execPong_keeps (fb : Bool) (p : Pkt) (s : State) : Keeps State.restart s (execPong fb p s) := by simp [execPong]
@[simp] theorem readData_restart (p : Pkt) (s : State) : (readData p s).restart = s.restart := by
  simp only [readData]
  split <;> simp
theorem execMreadData_keeps (fb : Bool) (p : Pkt) (s : State) : Keeps State.restart s (execMreadData fb p s) := by
  simp [execMreadData]
@[simp] theorem psumData_restart (p : Pkt) (s : State) : (psumData p s).restart = s.restart := by
  simp only [psumData]
  (repeat' split) <;> simp
theorem execPsumData_keeps (fb : Bool) (p : Pkt) (s : State) : Keeps State.restart s (execPsumData fb p s) := by
  simp [execPsumData]
@[simp] theorem opDone_restart (p : Pkt) (s : State) : (opDone p s).restart = s.restart := by
  simp only [opDone]
  (repeat' split) <;> simp
theorem execOpDone_keeps (fb : Bool) (p : Pkt) (s : State) : Keeps State.restart s (execOpDone fb p s) := by
  simp [execOpDone]
@[simp] theorem servedAdd_restart (v : Served) (s : State) : (servedAdd v s).restart = s.restart := by simp [servedAdd]
@[simp] theorem servedOp_restart (v : Served) (k : OpKind) (u : OpUse) (port : Fin 8) (sector count : Nat) (s : State) :
    (servedOp v k u port sector count s).restart = s.restart := by
  simp [servedOp]
@[simp] theorem servedRead_restart (v : Served) (port : Fin 8) (sector count : Nat) (s : State) :
    (servedRead v port sector count s).restart = s.restart := by
  simp [servedRead]
@[simp] theorem ringWake_restart (s : State) : (ringWake s).restart = s.restart := by
  simp [ringWake, apply_ite State.restart]
@[simp] theorem serve_restart (kind : Byte) (p : Pkt) (f : Served → State → State) (s : State)
    (h : ∀ v u, (f v u).restart = u.restart) : (serve kind p f s).restart = s.restart := by
  simp only [serve]
  (repeat' split) <;> simp [h]
theorem execMread_keeps (fb : Bool) (p : Pkt) (s : State) : Keeps State.restart s (execMread fb p s) :=
  received_keeps _ _ _ _ _ (fun u => onWorker_restart _ _ (serve_restart _ _ _ _ (by simp)))
theorem execMwrite_keeps (fb : Bool) (p : Pkt) (s : State) : Keeps State.restart s (execMwrite fb p s) :=
  received_keeps _ _ _ _ _ (fun u => onWorker_restart _ _ (serve_restart _ _ _ _ (by simp)))
@[simp] theorem writeData_restart (p : Pkt) (s : State) : (writeData p s).restart = s.restart := by
  simp only [writeData]
  split <;> simp
theorem execMwriteData_keeps (fb : Bool) (p : Pkt) (s : State) : Keeps State.restart s (execMwriteData fb p s) := by
  simp [execMwriteData]
theorem execMerase_keeps (fb : Bool) (p : Pkt) (s : State) : Keeps State.restart s (execMerase fb p s) :=
  received_keeps _ _ _ _ _ (fun u => onWorker_restart _ _ (serve_restart _ _ _ _ (by simp)))

@[simp] theorem psumReq_restart (p : Pkt) (s : State) : (psumReq p s).restart = s.restart := by
  simp only [psumReq]
  split
  · rfl
  split
  · rw [psumReply_restart, ringWake_restart]
  · rw [foldl_restart _ (fun _ _ => servedRead_restart ..), servedAdd_restart, ringWake_restart]

theorem execPsumReq_keeps (fb : Bool) (p : Pkt) (s : State) : Keeps State.restart s (execPsumReq fb p s) := by
  simp [execPsumReq]
@[simp] theorem tableIn_restart (p : Pkt) (s : State) : (tableIn p s).restart = s.restart := by simp [tableIn]
@[simp] theorem fwdApply_restart (space e : Nat) (w : List Word) (s : State) :
    (fwdApply space e w s).restart = s.restart := by
  simp only [fwdApply]
  split <;> simp
theorem execTableFwd_keeps (fb : Bool) (p : Pkt) (s : State) : Keeps State.restart s (execTableFwd fb p s) := by
  simp [execTableFwd]
@[simp] theorem reportEntry_restart (m : Fin 128) (w : List Word) (sig : Option Sig) (s : State) :
    (reportEntry m w sig s).restart = s.restart := by
  simp [reportEntry]
@[simp] theorem reclassify_restart (m : Fin 128) (s : State) : (reclassify m s).restart = s.restart := by
  simp [reclassify, apply_ite State.restart]
@[simp] theorem freshDone_restart (m : Fin 128) (s : State) : (freshDone m s).restart = s.restart := by simp [freshDone]
@[simp] theorem reportState_restart (m : Fin 128) (r : MState) (ident : Bool) (cause : Byte) (s : State) :
    (reportState m r ident cause s).restart = s.restart := by
  simp only [reportState]
  (repeat' split) <;> simp
@[simp] theorem reportIn_restart (p : Pkt) (s : State) : (reportIn p s).restart = s.restart := by simp [reportIn]
theorem execMemberReport_keeps (fb : Bool) (p : Pkt) (s : State) : Keeps State.restart s (execMemberReport fb p s) := by
  simp [execMemberReport, apply_ite State.restart]
@[simp] theorem setIn_restart (p : Pkt) (s : State) : (setIn p s).restart = s.restart := by
  simp [setIn, apply_ite State.restart]
theorem execMemberSet_keeps (fb : Bool) (p : Pkt) (s : State) : Keeps State.restart s (execMemberSet fb p s) := by
  simp [execMemberSet]
@[simp] theorem orderIn_restart (p : Pkt) (s : State) : (orderIn p s).restart = s.restart := by
  simp only [orderIn]
  split <;> simp
theorem execPowerOrder_keeps (fb : Bool) (p : Pkt) (s : State) : Keeps State.restart s (execPowerOrder fb p s) := by
  simp [execPowerOrder]
theorem execPowerAck_keeps (fb : Bool) (p : Pkt) (s : State) : Keeps State.restart s (execPowerAck fb p s) := by
  simp [execPowerAck]
@[simp] theorem logIn_restart (p : Pkt) (s : State) : (logIn p s).restart = s.restart := by simp [logIn]
theorem execLogFwd_keeps (fb : Bool) (p : Pkt) (s : State) : Keeps State.restart s (execLogFwd fb p s) := by
  simp [execLogFwd]
@[simp] theorem ringRefused_restart (w : Word) (s : State) : (ringRefused w s).restart = s.restart := by
  simp [ringRefused]
@[simp] theorem ringEnable_restart (fb on : Bool) (s : State) : (ringEnable fb on s).restart = s.restart := by
  simp [ringEnable, apply_ite State.restart]
@[simp] theorem ringAction_restart (act : Nat) (k : BitVec 4) (key : Half) (w : Word) (s : State) :
    (ringAction act k key w s).restart = s.restart := by
  simp [ringAction, apply_ite State.restart]
@[simp] theorem ringCtrlWrite_restart (lanes : Lanes) (w : Word) (s : State) :
    (ringCtrlWrite lanes w s).restart = s.restart := by
  simp [ringCtrlWrite, apply_ite State.restart]
theorem execRollNow_keeps (s : State) : Keeps State.restart s (execRollNow s) := by simp [execRollNow]
theorem execForget_keeps (entry : BitVec 4) (s : State) : Keeps State.restart s (execForget entry s) := by
  simp [execForget]
theorem execAdopt_keeps (entry : BitVec 4) (key : Half) (s : State) :
    Keeps State.restart s (execAdopt entry key s) := by
  simp [execAdopt]
theorem execRingPortEnable_keeps (fb : Bool) (s : State) : Keeps State.restart s (execRingPortEnable fb s) := by
  simp [execRingPortEnable]
theorem execRingPortDisable_keeps (fb : Bool) (s : State) : Keeps State.restart s (execRingPortDisable fb s) := by
  simp [execRingPortDisable]

/-! ## Palette layers (Machine/Layer) -/

@[simp] theorem layerEvent_restart (i : Fin 32) (s : State) : (layerEvent i s).restart = s.restart := by
  simp [layerEvent]
theorem streamTile_restart {i : Fin 32} {deadline n : Nat} {a : Fin 4} {tile : Nat} {want : BitVec 8} {s : State}
    {m : Need} {k : Bool} {u : State} (h : streamTile i deadline n a tile want s = (m, k, u)) :
    u.restart = s.restart := by
  grind [streamTile, currentTile_restart]

@[simp] theorem tileAsk_restart (i : Fin 32) (n : Nat) (s : State) : (tileAsk i n s).restart = s.restart := by
  simp only [tileAsk]
  split
  · rfl
  split
  · rfl
  split
  next h =>
    have hu := streamTile_restart h
    split <;> simp [hu]
  next h => exact streamTile_restart h

theorem tileTake_restart {i : Fin 32} {deadline : Nat} {s : State}  {u : State} (h : tileTake i deadline s = some u) :
    u.restart = s.restart := by
  grind [tileTake, allocTile_restart, layPut_restart]
@[simp] theorem tilesIssue_restart (i : Fin 32) (urgent : Bool) (n : Nat) (s : State) :
    (tilesIssue i urgent n s).restart = s.restart := by
  induction n generalizing s with
  | zero => rfl
  | succ n ih => grind [tilesIssue, tileTake_restart, tileAsk_restart, waitTile_restart]
@[simp] theorem tilesFree_restart (i : Fin 32) (f : LTile → Bool) (s : State) :
    (tilesFree i f s).restart = s.restart := by
  simp [tilesFree, foldl_restart]
@[simp] theorem tilesPass_restart (i : Fin 32) (s : State) : (tilesPass i s).restart = s.restart := by simp [tilesPass]
@[simp] theorem refillStart_restart (i : Fin 32) (len : Nat) (s : State) :
    (refillStart i len s).restart = s.restart := by
  simp [refillStart]
@[simp] theorem hostRefill_restart (i : Fin 32) (s : State) : (hostRefill i s).restart = s.restart := by
  grind [hostRefill, layPut_restart, refillStart_restart, tileTake_restart, waitTile_restart]
@[simp] theorem refillDone_restart (i : Fin 32) (s : State) : (refillDone i s).restart = s.restart := by
  simp only [refillDone]
  (repeat' split) <;> simp
theorem execHostRefillDone_keeps (layer : Fin 32) (s : State) : Keeps State.restart s (execHostRefillDone layer s) := by
  simp [execHostRefillDone]
@[simp] theorem layerFree_restart (i : Fin 32) (s : State) : (layerFree i s).restart = s.restart := by
  simp only [layerFree]
  split <;> simp
@[simp] theorem layerStopped_restart (i : Fin 32) (c : LCause) (s : State) :
    (layerStopped i c s).restart = s.restart := by
  simp [layerStopped]
@[simp] theorem listAsk_restart (i : Fin 32) (s : State) : (listAsk i s).restart = s.restart := by
  grind [listAsk, layPut_restart, layerStopped_restart, streamTile_restart, tilesIssue_restart, workDrop_restart]
@[simp] theorem layerPrime_restart (i : Fin 32) (v : LWords) (r : Nat) (t : Option (Fin 4 × Nat × Nat × Nat))
    (s : State) : (layerPrime i v r t s).restart = s.restart := by
  simp [layerPrime, apply_ite State.restart]
@[simp] theorem layerDenied_restart (i : Fin 32) (v : LWords) (reason r : Nat) (s : State) :
    (layerDenied i v reason r s).restart = s.restart := by
  simp [layerDenied]
@[simp] theorem layerStart_restart (i : Fin 32) (v : LWords) (s : State) : (layerStart i v s).restart = s.restart := by
  simp only [layerStart]
  (repeat' split) <;> simp
@[simp] theorem layerApply_restart (i : Fin 32) (v : LWords) (s : State) : (layerApply i v s).restart = s.restart := by
  simp [layerApply, apply_ite State.restart]
@[simp] theorem tileArrived_restart (i : Fin 32) (n : Nat) (s : State) : (tileArrived i n s).restart = s.restart := by
  simp [tileArrived, apply_ite State.restart]
theorem execStreamTileArrived_keeps (layer : Fin 32) (n : Nat) (s : State) :
    Keeps State.restart s (execStreamTileArrived layer n s) := by
  simp [execStreamTileArrived]

/-! ## Palette buses and audio ports (Machine/Bus) -/

@[simp] theorem delayFree_restart (b : Fin 8) (s : State) : (delayFree b s).restart = s.restart := by simp [delayFree]
@[simp] theorem delayTiles_restart (b : Fin 8) (n : Nat) (s : State) : (delayTiles b n s).restart = s.restart := by
  induction n generalizing s with
  | zero => rfl
  | succ n ih => grind [delayTiles, allocTile_restart]
@[simp] theorem delayTake_restart (b : Fin 8) (n : Nat) (s : State) : (delayTake b n s).restart = s.restart := by
  simp [delayTake]
@[simp] theorem busApply_restart (b : Fin 8) (v : BWords) (s : State) : (busApply b v s).restart = s.restart := by
  simp [busApply, apply_ite State.restart]
@[simp] theorem auApply_restart (p : Fin 3) (w0 w1 : Word) (s : State) : (auApply p w0 w1 s).restart = s.restart := by
  simp [auApply]
@[simp] theorem busTakes_restart (b : Fin 8) (s : State) : (busTakes b s).restart = s.restart := by
  simp [busTakes, apply_ite State.restart]
@[simp] theorem portEvent_restart (c : Code) (p : Fin 3) (s : State) : (portEvent c p s).restart = s.restart := by
  simp [portEvent]
@[simp] theorem countClips_restart (p : Fin 3) (s : State) : (countClips p s).restart = s.restart := by
  simp [countClips]
@[simp] theorem portBoundary_restart (p : Fin 3) (s : State) : (portBoundary p s).restart = s.restart := by
  simp only [portBoundary]
  (repeat' split) <;> simp
@[simp] theorem portListens_restart (p : Fin 3) (s : State) : (portListens p s).restart = s.restart := by
  simp only [portListens]
  (repeat' split) <;> simp

/-! ## The Palette at work (Machine/Palette) -/

@[simp] theorem layerTakes_restart (i : Fin 32) (s : State) : (layerTakes i s).restart = s.restart := by
  simp only [layerTakes]
  (repeat' split) <;> simp
@[simp] theorem layerMoves_restart (u : State) (i : Fin 32) (s : State) : (layerMoves u i s).restart = s.restart := by
  simp only [layerMoves]
  (repeat' split) <;> simp
@[simp] theorem layerAfter_restart (i : Fin 32) (s : State) : (layerAfter i s).restart = s.restart := by
  simp only [layerAfter]
  (repeat' split) <;> simp
@[simp] theorem eachLayer_restart (f : Fin 32 → State → State) (s : State) (h : ∀ i u, (f i u).restart = u.restart) :
    (eachLayer f s).restart = s.restart := foldl_restart _ (fun u i => h i u) _ s
@[simp] theorem au2Keeps_restart (l : Vector (Vector Word 8) 32) (s : State) : (au2Keeps l s).restart = s.restart := by
  simp [au2Keeps]
@[simp] theorem paletteEnds_restart (s : State) : (paletteEnds s).restart = s.restart := by
  simp [paletteEnds, apply_ite State.restart]

@[simp] theorem frame_restart (s : State) : (frame s).restart = s.restart := by
  simp only [frame]
  rw [eachLayer_restart _ _ layerAfter_restart]
  simp only [portListens_restart]
  rw [eachLayer_restart _ _ (by simp), eachLayer_restart _ _ (fun _ _ => by split <;> simp)]
  simp [foldl_restart]

theorem execFrameBoundary_keeps (au2 : Vector (Vector Word 8) 32) (s : State) :
    Keeps State.restart s (execFrameBoundary au2 s) := by
  simp [execFrameBoundary, apply_ite State.restart]
@[simp] theorem portsWake_restart (mask : Nat) (s : State) : (portsWake mask s).restart = s.restart := by
  simp [portsWake, foldl_restart, apply_ite State.restart]
@[simp] theorem palCtrlWrite_restart (lanes : Lanes) (w : Word) (s : State) :
    (palCtrlWrite lanes w s).restart = s.restart := by
  simp [palCtrlWrite, apply_ite State.restart]
@[simp] theorem palStatWrite_restart (lanes : Lanes) (w : Word) (s : State) :
    (palStatWrite lanes w s).restart = s.restart := by
  simp [palStatWrite, apply_ite State.restart]
theorem execPaletteEnable_keeps (mclk : Bool) (s : State) : Keeps State.restart s (execPaletteEnable mclk s) := by
  simp [execPaletteEnable]
theorem execPaletteDisable_keeps (mclk : Bool) (s : State) : Keeps State.restart s (execPaletteDisable mclk s) := by
  simp [execPaletteDisable]
theorem execPortWake_keeps (port : Fin 3) (s : State) : Keeps State.restart s (execPortWake port s) := by
  simp [execPortWake]
@[simp] theorem palDown_restart (s : State) : (palDown s).restart = s.restart := by simp [palDown]
@[simp] theorem palNap_restart (s : State) : (palNap s).restart = s.restart := by simp [palNap]
@[simp] theorem palWake_restart (s : State) : (palWake s).restart = s.restart := by simp [palWake]

/-! ## Table commits (Machine/Table) -/

@[simp] theorem tblSelWrite_restart (p : Path) (l : Lanes) (data : Word) (s : State) :
    (tblSelWrite p l data s).restart = s.restart := by
  simp [tblSelWrite]
@[simp] theorem tblDataRead_restart (p : Path) (l : Lanes) (s : State) :
    (tblDataRead p l s).restart = s.restart := by
  simp only [tblDataRead]
  (repeat' split) <;> simp
@[simp] theorem chanOff_restart (c : Fin 16) (s : State) : (chanOff c s).restart = s.restart := by
  simp [chanOff, apply_ite State.restart]
@[simp] theorem chanApply_restart (c : Fin 16) (w : List Word) (s : State) : (chanApply c w s).restart = s.restart := by
  simp [chanApply, apply_ite State.restart]
@[simp] theorem sqApply_restart (q : Fin 32) (w : List Word) (s : State) : (sqApply q w s).restart = s.restart := by
  simp [sqApply, apply_ite State.restart]
@[simp] theorem cqApply_restart (q : Fin 32) (w : List Word) (s : State) : (cqApply q w s).restart = s.restart := by
  simp [cqApply, apply_ite State.restart]
@[simp] theorem studioApply_restart (st : Fin 8) (w : List Word) (s : State) :
    (studioApply st w s).restart = s.restart := by
  simp [studioApply]
@[simp] theorem arrayApply_restart (a : Fin 4) (w : List Word) (s : State) :
    (arrayApply a w s).restart = s.restart := by
  simp [arrayApply]
@[simp] theorem volumeApply_restart (v : Fin 64) (w : List Word) (s : State) :
    (volumeApply v w s).restart = s.restart := by
  simp [volumeApply]
@[simp] theorem refereeApply_restart (e : Nat) (w : List Word) (s : State) :
    (refereeApply e w s).restart = s.restart := by
  simp [refereeApply, apply_ite State.restart]
@[simp] theorem regionApply_restart (e : Nat) (w : List Word) (s : State) :
    (regionApply e w s).restart = s.restart := by
  simp [regionApply]
@[simp] theorem memberApply_restart (e : Nat) (w : List Word) (s : State) :
    (memberApply e w s).restart = s.restart := by
  simp [memberApply]
@[simp] theorem nvApply_restart (space e : Nat) (w : List Word) (s : State) :
    (nvApply space e w s).restart = s.restart := by
  simp only [nvApply]
  split <;> simp
@[simp] theorem volApply_restart (space e : Nat) (w : List Word) (s : State) :
    (volApply space e w s).restart = s.restart := by
  simp only [volApply]
  (repeat' split) <;> simp
@[simp] theorem memberForward_restart (p : Path) (e : Nat) (w : List Word) (s : State) :
    (memberForward p e w s).restart = s.restart := by
  simp [memberForward, apply_ite State.restart]
@[simp] theorem commitApply_restart (p : Path) (space e : Nat) (w : List Word) (s : State) :
    (commitApply p space e w s).restart = s.restart := by
  simp only [commitApply]
  (repeat' split) <;> simp
@[simp] theorem commitEntry_restart (p : Path) (c : Cursor) (w : List Word) (s : State) :
    (commitEntry p c w s).restart = s.restart := by
  simp [commitEntry, apply_ite State.restart]
@[simp] theorem tblDataWrite_restart (p : Path) (l : Lanes) (data : Word) (s : State) :
    (tblDataWrite p l data s).restart = s.restart := by
  simp only [tblDataWrite]
  (repeat' split) <;> simp

/-! ## Management effects (Machine/MgmtEffect) -/

@[simp] theorem uncommitted_restart (f : State → State) (s : State) (h : (f s).restart = s.restart) :
    (uncommitted f s).restart = s.restart := h
@[simp] theorem makeActive_restart (l : List (Fin 128)) (s : State) : (makeActive l s).restart = s.restart := by
  simp [makeActive, foldl_restart, apply_ite State.restart]
@[simp] theorem createArrayEffect_restart (l : List Word) (s : State) :
    (createArrayEffect l s).restart = s.restart := by
  simp [createArrayEffect]
@[simp] theorem recsDiscard_restart (a : Fin 4) (s : State) : (recsDiscard a s).restart = s.restart := by
  simp [recsDiscard, foldl_restart]
@[simp] theorem deleteArrayEffect_restart (l : List Word) (s : State) :
    (deleteArrayEffect l s).restart = s.restart := by
  simp [deleteArrayEffect, foldl_restart]
@[simp] theorem forceEffect_restart (l : List Word) (s : State) : (forceEffect l s).restart = s.restart := by
  simp only [forceEffect]
  (repeat' split) <;> simp
@[simp] theorem createVolumeEffect_restart (l : List Word) (s : State) :
    (createVolumeEffect l s).restart = s.restart := by
  simp [createVolumeEffect]
@[simp] theorem deleteVolumeEffect_restart (l : List Word) (s : State) :
    (deleteVolumeEffect l s).restart = s.restart := by
  simp [deleteVolumeEffect]
@[simp] theorem setOwnerEffect_restart (l : List Word) (s : State) : (setOwnerEffect l s).restart = s.restart := by
  simp [setOwnerEffect]
@[simp] theorem addBenchEffect_restart (l : List Word) (s : State) : (addBenchEffect l s).restart = s.restart := by
  simp [addBenchEffect]
@[simp] theorem removeBenchEffect_restart (l : List Word) (s : State) :
    (removeBenchEffect l s).restart = s.restart := by
  simp [removeBenchEffect]
@[simp] theorem retireEffect_restart (l : List Word) (s : State) : (retireEffect l s).restart = s.restart := by
  simp [retireEffect, apply_ite State.restart]
@[simp] theorem restorationEffect_restart (l : List Word) (s : State) :
    (restorationEffect l s).restart = s.restart := by
  simp only [restorationEffect]
  (repeat' split) <;> simp
@[simp] theorem copyBackEffect_restart (l : List Word) (s : State) : (copyBackEffect l s).restart = s.restart := by
  simp [copyBackEffect]
@[simp] theorem inspectionEffect_restart (l : List Word) (s : State) : (inspectionEffect l s).restart = s.restart := by
  simp [inspectionEffect]
@[simp] theorem repaintEffect_restart (l : List Word) (s : State) : (repaintEffect l s).restart = s.restart := by
  simp only [repaintEffect]
  split <;> simp
@[simp] theorem abortEffect_restart (a : Fin 4) (s : State) : (abortEffect a s).restart = s.restart := by
  simp [abortEffect, apply_ite State.restart]
@[simp] theorem pausePass_restart (a : Fin 4) (s : State) : (pausePass a s).restart = s.restart := by simp [pausePass]
@[simp] theorem pausePaint_restart (a : Fin 4) (s : State) : (pausePaint a s).restart = s.restart := by
  simp [pausePaint, apply_ite State.restart]
@[simp] theorem pauseEffect_restart (a : Fin 4) (s : State) : (pauseEffect a s).restart = s.restart := by
  simp [pauseEffect, apply_ite State.restart]
@[simp] theorem resumeEffect_restart (l : List Word) (s : State) : (resumeEffect l s).restart = s.restart := by
  simp [resumeEffect, apply_ite State.restart]
@[simp] theorem stopCheckpoint_restart (a : Fin 4) (s : State) : (stopCheckpoint a s).restart = s.restart := by
  simp [stopCheckpoint, apply_ite State.restart]
@[simp] theorem stopEnd_restart (a : Fin 4) (s : State) : (stopEnd a s).restart = s.restart := by
  simp [stopEnd, apply_ite State.restart]
@[simp] theorem mgmtEffect_restart (code : Byte) (l : List Word) (s : State) :
    (mgmtEffect code l s).restart = s.restart := by
  simp only [mgmtEffect]
  split <;> simp

/-! ## The management engine and NV commits (Machine/Mgmt) -/

@[simp] theorem nvWrite_straps (s : State) : (nvWrite s).restart.straps = s.restart.straps := by simp [nvWrite]
@[simp] theorem missingRelease_restart (s : State) : (missingRelease s).restart = s.restart := by
  simp [missingRelease, foldl_restart, apply_ite State.restart]
@[simp] theorem refreshChanged_restart (old : Vector Arr 4 × Vector Vol 64) (s : State) :
    (refreshChanged old s).restart = s.restart := by
  simp [refreshChanged, foldl_restart, apply_ite State.restart]
@[simp] theorem arrayArgWrite_restart (p : Path) (l : Lanes) (data : Word) (s : State) :
    (arrayArgWrite p l data s).restart = s.restart := by
  simp [arrayArgWrite]
@[simp] theorem mgmtIdentity_restart (code : Byte) (l : List Word) (s : State) :
    (mgmtIdentity code l s).restart = s.restart := by
  simp only [mgmtIdentity]
  (repeat' split) <;> simp
@[simp] theorem bgHold_restart (a : Fin 4) (s : State) : (bgHold a s).restart = s.restart := by simp [bgHold]
@[simp] theorem stopTurn_restart (a : Fin 4) (s : State) : (stopTurn a s).restart = s.restart := by
  simp [stopTurn, foldl_restart, apply_ite State.restart]
@[simp] theorem stopStart_restart (r : MgmtRun) (a : Fin 4) (s : State) : (stopStart r a s).restart = s.restart := by
  simp [stopStart, apply_ite State.restart]
@[simp] theorem mgmtWrite_restart (r : MgmtRun) (s : State) : (mgmtWrite r s).restart = s.restart := by
  simp [mgmtWrite, foldl_restart]
@[simp] theorem mgmtStart_restart (r : MgmtRun) (s : State) : (mgmtStart r s).restart = s.restart := by
  simp only [mgmtStart]
  (repeat' split) <;> simp
@[simp] theorem mgmtTake_restart (p : Path) (code : Byte) (s : State) :
    (mgmtTake p code s).restart = s.restart := by
  simp only [mgmtTake]
  split <;> simp
@[simp] theorem mgmtTurn_restart (r : MgmtRun) (s : State) : (mgmtTurn r s).restart = s.restart := by
  simp only [mgmtTurn]
  (repeat' split) <;> simp
@[simp] theorem mgmtUndo_restart (r : MgmtRun) (s : State) : (mgmtUndo r s).restart = s.restart := by
  simp [mgmtUndo, foldl_restart, apply_ite State.restart]
@[simp] theorem mgmtFinish_restart (r : MgmtRun) (e : Byte × Byte) (s : State) :
    (mgmtFinish r e s).restart = s.restart := by
  simp [mgmtFinish, apply_ite State.restart]
@[simp] theorem mgmtTimeout_restart (k : BitVec 4) (r : MgmtRun) (s : State) :
    (mgmtTimeout k r s).restart = s.restart := by
  simp only [mgmtTimeout]
  (repeat' split) <;> simp
@[simp] theorem mgmtDone_restart (timeout : Option (BitVec 4)) (s : State) :
    (mgmtDone timeout s).restart = s.restart := by
  simp only [mgmtDone]
  (repeat' split) <;> simp
theorem execMgmtCommandDone_keeps (timeout : Option (BitVec 4)) (s : State) :
    Keeps State.restart s (execMgmtCommandDone timeout s) := by
  simp [execMgmtCommandDone]
@[simp] theorem assemble_restart (a : Fin 4) (s : State) : (assemble a s).restart = s.restart := by
  simp only [assemble]
  (repeat' split) <;> simp
@[simp] theorem assembly_restart (a : Fin 4) (s : State) : (assembly a s).restart = s.restart := by
  simp [assembly, apply_ite State.restart]
theorem execAssembly_keeps (a : Fin 4) (s : State) : Keeps State.restart s (execAssembly a s) := by simp [execAssembly]
@[simp] theorem identAssign_restart (fabricId : Dword) (node : BitVec 4) (tag : Byte) (s : State) :
    (identAssign fabricId node tag s).restart = s.restart := by
  simp only [identAssign, sendUp_restart]
  refine (foldl_restart _ (fun _ _ => by simp) _ _).trans ?_
  exact foldl_restart _ (fun _ _ => by simp) _ _
@[simp] theorem nvChange_restart (c : NvChange) (s : State) : (nvChange c s).restart = s.restart := by
  simp only [nvChange]
  (repeat' split) <;> simp
@[simp] theorem nvCommitDone_straps (ok : Bool) (s : State) :
    (nvCommitDone ok s).restart.straps = s.restart.straps := by
  simp only [nvCommitDone]
  (repeat' split) <;> simp
theorem execNvCommitDone_keeps (ok : Bool) (s : State) :
    Keeps (fun u => u.restart.straps) s (execNvCommitDone ok s) := by
  simp [execNvCommitDone]

/-! ## Resets and the restart path (Machine/Restart) -/

@[simp] theorem nvTargetPut_restart (f : NvCopy → NvCopy) (s : State) : (nvTargetPut f s).restart = s.restart := by
  simp [nvTargetPut, apply_ite State.restart]
@[simp] theorem progTorn_restart (body : Bool) (s : State) : (progTorn body s).restart = s.restart := by
  simp only [progTorn]
  (repeat' split) <;> simp
@[simp] theorem progEnds_straps (s : State) : (progEnds s).restart.straps = s.restart.straps := by
  simp only [progEnds]
  split <;> simp
@[simp] theorem progCut_straps (cut : ProgEnd) (s : State) : (progCut cut s).restart.straps = s.restart.straps := by
  simp only [progCut]
  split <;> simp
@[simp] theorem progNone_restart (s : State) : (progNone s).restart = s.restart := by simp [progNone]
@[simp] theorem stagesDrop_restart (s : State) : (stagesDrop s).restart = s.restart := by simp [stagesDrop]
@[simp] theorem resetCommon_straps (s : State) : (resetCommon s).restart.straps = s.restart.straps := by
  simp [resetCommon]
@[simp] theorem resetC_straps (s : State) : (resetC s).restart.straps = s.restart.straps := by simp [resetC]
@[simp] theorem resetPD_straps (p : Bool) (s : State) : (resetPD p s).restart.straps = s.restart.straps := by
  simp [resetPD]
@[simp] theorem restartWrite_straps (trigger : Cause) (prev : Option Level) (s : State) :
    (restartWrite trigger prev s).restart.straps = s.restart.straps := by
  simp [restartWrite]
@[simp] theorem noCopy_straps (s : State) : (noCopy s).restart.straps = s.restart.straps := by simp [noCopy]
@[simp] theorem copyChoice_straps (s : State) : (copyChoice s).restart.straps = s.restart.straps := by
  simp only [copyChoice]
  (repeat' split) <;> simp
@[simp] theorem indexScan_restart (s : State) : (indexScan s).restart = s.restart := by
  simp only [indexScan, forcedUpdate_restart, poolTake_restart]
  exact foldl_restart (fun s _ => counterInc 0x80 s) (fun _ _ => rfl) _ _
@[simp] theorem stageFour_straps (s : State) : (stageFour s).restart.straps = s.restart.straps := by
  simp [stageFour, apply_ite State.restart]
@[simp] theorem pathOn_straps (s : State) : (pathOn s).restart.straps = s.restart.straps := by
  simp [pathOn, apply_ite State.restart, apply_ite Restart.straps]
@[simp] theorem pllStart_straps (s : State) : (pllStart s).restart.straps = s.restart.straps := by simp [pllStart]
@[simp] theorem stageTwo_straps (s : State) : (stageTwo s).restart.straps = s.restart.straps := by
  simp only [stageTwo]
  (repeat' split) <;> simp

@[simp] theorem tablesLoad_restart (s : State) : (tablesLoad s).restart = s.restart := by
  unfold tablesLoad
  split
  · extract_lets _ _ own
    have hown : own.restart = s.restart := foldl_restart _ (fun _ _ => memPut_restart ..) _ _
    clear_value own
    split <;> exact hown
  all_goals rfl

@[simp] theorem selfCheckFail_restart (unit : Byte) (addr : Word) (s : State) :
    (selfCheckFail unit addr s).restart = s.restart := by
  simp [selfCheckFail]
@[simp] theorem skbCheckFail_straps (a : Word) (s : State) : (skbCheckFail a s).restart.straps = s.restart.straps := by
  simp [skbCheckFail]
@[simp] theorem canvasCheckFail_straps (a : Word) (s : State) :
    (canvasCheckFail a s).restart.straps = s.restart.straps := by
  simp [canvasCheckFail]
@[simp] theorem selfChecksDone_straps (skb canvas : Option Word) (s : State) :
    (selfChecksDone skb canvas s).restart.straps = s.restart.straps := by
  simp only [selfChecksDone]
  split <;> simp
theorem execSelfChecksDone_keeps (skb canvas : Option Word) (s : State) :
    Keeps (fun u => u.restart.straps) s (execSelfChecksDone skb canvas s) := by
  simp [execSelfChecksDone]
theorem execDiscoveryDeadline_keeps (s : State) : Keeps (fun u => u.restart.straps) s (execDiscoveryDeadline s) := by
  simp [execDiscoveryDeadline]
@[simp] theorem repaintsResume_restart (s : State) : (repaintsResume s).restart = s.restart := by
  simp [repaintsResume, foldl_restart, apply_ite State.restart]
@[simp] theorem level1Entry_straps (tier2 : Option (Half × Half)) (s : State) :
    (level1Entry tier2 s).restart.straps = s.restart.straps := by
  simp [level1Entry]
theorem execLevel1Entry_keeps (tier2 : Option (Half × Half)) (s : State) :
    Keeps (fun u => u.restart.straps) s (execLevel1Entry tier2 s) := by
  simp [execLevel1Entry]
@[simp] theorem level2Entry_straps (s : State) : (level2Entry s).restart.straps = s.restart.straps := by
  simp [level2Entry]
theorem execLevel2Entry_keeps (fail : Option (Fin 3 × Word)) (s : State) :
    Keeps (fun u => u.restart.straps) s (execLevel2Entry fail s) := by
  simp only [execLevel2Entry]
  (repeat' split) <;> simp [apply_ite State.restart, apply_ite Restart.straps]
theorem execControlResetStart_keeps (cut : ProgEnd) (s : State) :
    Keeps (fun u => u.restart.straps) s (execControlResetStart cut s) := by
  simp [execControlResetStart]
@[simp] theorem nvClear_restart (s : State) : (nvClear s).restart = s.restart := by
  simp [nvClear, apply_ite State.restart]

/-! ## Supplies, clocks and power states (Machine/Power) -/

@[simp] theorem reqResult_restart (r : ReqResult) (s : State) : (reqResult r s).restart = s.restart := by
  simp [reqResult, apply_ite State.restart]
@[simp] theorem orderTo_restart (code : Nat) (k : BitVec 4) (s : State) : (orderTo code k s).restart = s.restart := by
  simp [orderTo]
@[simp] theorem cancelEntry_restart (s : State) : (cancelEntry s).restart = s.restart := by
  simp only [cancelEntry]
  (repeat' split) <;> simp [foldl_restart]
@[simp] theorem wakeDone_restart (s : State) : (wakeDone s).restart = s.restart := by simp [wakeDone]
@[simp] theorem wake_restart (s : State) : (wake s).restart = s.restart := by
  simp only [wake]
  (repeat' split) <;> simp
@[simp] theorem standbyWake_restart (src : WakeSrc) (s : State) : (standbyWake src s).restart = s.restart := by
  simp [standbyWake, apply_ite State.restart]
@[simp] theorem wakeAny_restart (src : WakeSrc) (s : State) : (wakeAny src s).restart = s.restart := by
  simp only [wakeAny]
  (repeat' split) <;> simp
theorem execWakeNAsserted_keeps (s : State) : Keeps State.restart s (execWakeNAsserted s) := by simp [execWakeNAsserted]
theorem execWakeTimerExpiry_keeps (s : State) : Keeps State.restart s (execWakeTimerExpiry s) := by
  simp [execWakeTimerExpiry]
theorem execForwardedClockWake_keeps (s : State) : Keeps State.restart s (execForwardedClockWake s) := by
  simp [execForwardedClockWake]
theorem execCardInserted_keeps (p : Fin 8) (s : State) : Keeps State.restart s (execCardInserted p s) := by
  simp [execCardInserted]
theorem execCardRemoved_keeps (p : Fin 8) (s : State) : Keeps State.restart s (execCardRemoved p s) := by
  simp [execCardRemoved]
@[simp] theorem enter_restart (z : Sleep) (s : State) : (enter z s).restart = s.restart := by
  simp only [enter]
  (repeat' split) <;> simp [foldl_restart]
@[simp] theorem askNap_restart (s : State) : (askNap s).restart = s.restart := by simp [askNap, apply_ite State.restart]
@[simp] theorem askDoze_restart (s : State) : (askDoze s).restart = s.restart := by
  simp [askDoze, apply_ite State.restart]
@[simp] theorem askStandby_restart (armed : Bool) (s : State) : (askStandby armed s).restart = s.restart := by
  simp [askStandby, apply_ite State.restart]
@[simp] theorem reqWrite_restart (code : BitVec 3) (armed : Bool) (s : State) :
    (reqWrite code armed s).restart = s.restart := by
  simp only [reqWrite]
  split <;> simp
theorem execAutoNapExpiry_keeps (s : State) : Keeps State.restart s (execAutoNapExpiry s) := by simp [execAutoNapExpiry]

@[simp] theorem commitPoint_straps (z : Sleep) (f : State → State) (s : State)
    (h : (f s).restart.straps = s.restart.straps) : (commitPoint z f s).restart.straps = s.restart.straps := by
  simp only [commitPoint]
  (repeat' split) <;> simp [h]

@[simp] theorem commitPoint_restart (z : Sleep) (f : State → State) (s : State) (h : (f s).restart = s.restart) :
    (commitPoint z f s).restart = s.restart := by
  simp only [commitPoint]
  (repeat' split) <;> simp [h]

@[simp] theorem entryOver_restart (s : State) : (entryOver s).restart = s.restart := by simp [entryOver]
theorem execNapCommit_keeps (s : State) : Keeps State.restart s (execNapCommit s) := by simp [execNapCommit]
@[simp] theorem toXin_restart (elapsed : Nat) (s : State) : (toXin elapsed s).restart = s.restart := by simp [toXin]
theorem execDozeCommit_keeps (elapsed : Nat) (s : State) : Keeps State.restart s (execDozeCommit elapsed s) := by
  simp [execDozeCommit]
@[simp] theorem standbyDown_straps (s : State) : (standbyDown s).restart.straps = s.restart.straps := by
  simp [standbyDown]
theorem execStandbyCommit_keeps (s : State) : Keeps (fun u => u.restart.straps) s (execStandbyCommit s) := by
  simp [execStandbyCommit, apply_ite State.restart, apply_ite Restart.straps]
theorem execStandbyExitTimeout_keeps (s : State) : Keeps State.restart s (execStandbyExitTimeout s) := by
  simp [execStandbyExitTimeout]
theorem execPowerOrderTimeout_keeps (node : BitVec 4) (s : State) :
    Keeps State.restart s (execPowerOrderTimeout node s) := by
  simp [execPowerOrderTimeout]
@[simp] theorem tripStop_straps (src : TripSrc) (cut : ProgEnd) (s : State) :
    (tripStop src cut s).restart.straps = s.restart.straps := by
  simp [tripStop]
theorem execPowerFailTrip_keeps (src : TripSrc) (sup : Supplies) (cut : ProgEnd) (s : State) :
    Keeps (fun u => u.restart.straps) s (execPowerFailTrip src sup cut s) := by
  simp [execPowerFailTrip]
@[simp] theorem enterP_straps (s : State) : (enterP s).restart.straps = s.restart.straps := by simp [enterP]
theorem execPowerOn_keeps (sup : Supplies) (vstby : Bool) (s : State) :
    Keeps (fun u => u.restart.straps) s (execPowerOn sup vstby s) := by
  simp [execPowerOn, apply_ite State.restart]
theorem execSupplyBelowResetLevel_keeps (vstby : Bool) (sup : Supplies) (cut : ProgEnd) (s : State) :
    Keeps (fun u => u.restart.straps) s (execSupplyBelowResetLevel vstby sup cut s) := by
  simp only [execSupplyBelowResetLevel]
  (repeat' split) <;> simp
theorem execPowerGoodMet_keeps (sup : Supplies) (s : State) :
    Keeps (fun u => u.restart.straps) s (execPowerGoodMet sup s) := by
  simp only [execPowerGoodMet, onlyIf]
  (repeat' split) <;> simp
theorem execPowerGoodCountRestart_keeps (sup : Supplies) (s : State) :
    Keeps State.restart s (execPowerGoodCountRestart sup s) := by
  simp [execPowerGoodCountRestart]
@[simp] theorem enterD_straps (cut : ProgEnd) (s : State) : (enterD cut s).restart.straps = s.restart.straps := by
  simp [enterD, apply_ite State.restart, apply_ite Restart.straps]
theorem execResetNLow_keeps (cut : ProgEnd) (s : State) :
    Keeps (fun u => u.restart.straps) s (execResetNLow cut s) := by
  simp [execResetNLow]

/-- Outside a class P or D reset RESET_END changes nothing (R540). -/
theorem execResetEnd_keeps (straps : Straps) (s : State) (h : s.power.core ≠ .inResetP ∧ s.power.core ≠ .inResetD) :
    Keeps (fun u => u.restart.straps) s (execResetEnd straps s) := by
  simp [execResetEnd, onlyIf, h]

/-- RESET_END of a class P or D reset takes the levels of the straps into the sample (R14). -/
theorem execResetEnd_samples (straps : Straps) (s : State) (hcore : s.power.core = .inResetP ∨ s.power.core = .inResetD)
    (hpg : s.power.pgMet = true) : ∃ t, execResetEnd straps s = .next t ∧ t.restart.straps = straps := by
  refine ⟨_, rfl, ?_⟩
  simp [onlyIf, hcore, hpg]

@[simp] theorem bankShow_restart (b : Bank) (on : Bool) (s : State) : (bankShow b on s).restart = s.restart := by
  simp [bankShow]
theorem execBankAbsent_keeps (b : Bank) (cut : ProgEnd) (s : State) :
    Keeps (fun u => u.restart.straps) s (execBankAbsent b cut s) := by
  simp only [execBankAbsent]
  split <;> simp
theorem execBankReturn_keeps (b : Bank) (s : State) : Keeps State.restart s (execBankReturn b s) := by
  simp [execBankReturn]
@[simp] theorem vpfWrite_restart (code : BitVec 3) (s : State) : (vpfWrite code s).restart = s.restart := by
  simp [vpfWrite, apply_ite State.restart]
@[simp] theorem ringDark_restart (s : State) : (ringDark s).restart = s.restart := by simp [ringDark]
@[simp] theorem pathInterrupt_straps (cut : ProgEnd) (s : State) :
    (pathInterrupt cut s).restart.straps = s.restart.straps := by
  simp [pathInterrupt, apply_ite State.restart, apply_ite Restart.straps]
@[simp] theorem pllWrite_straps (on : Bool) (s : State) : (pllWrite on s).restart.straps = s.restart.straps := by
  simp [pllWrite, apply_ite State.restart, apply_ite Restart.straps]
@[simp] theorem clockMove_restart (s : State) : (clockMove s).restart = s.restart := by
  simp [clockMove, apply_ite State.restart]
@[simp] theorem serviceDown_restart (s : State) : (serviceDown s).restart = s.restart := by simp [serviceDown]
@[simp] theorem lockFall_straps (old : Level) (elapsed : Nat) (s : State) :
    (lockFall old elapsed s).restart.straps = s.restart.straps := by
  simp only [lockFall]
  split <;> simp
@[simp] theorem lockLoss_straps (elapsed : Nat) (cut : ProgEnd) (s : State) :
    (lockLoss elapsed cut s).restart.straps = s.restart.straps := by
  simp [lockLoss, apply_ite State.restart, apply_ite Restart.straps]
theorem execXinLoss_keeps (cut : ProgEnd) (s : State) : Keeps (fun u => u.restart.straps) s (execXinLoss cut s) := by
  simp [execXinLoss, apply_ite State.restart, apply_ite Restart.straps]
theorem execPllLockLoss_keeps (elapsed : Nat) (cut : ProgEnd) (s : State) :
    Keeps (fun u => u.restart.straps) s (execPllLockLoss elapsed cut s) := by
  simp [execPllLockLoss]
theorem execPllLockRetry_keeps (s : State) : Keeps State.restart s (execPllLockRetry s) := by simp [execPllLockRetry]
theorem execXclkSelChange_keeps (s : State) : Keeps State.restart s (execXclkSelChange s) := by simp [execXclkSelChange]
theorem execTickStep_keeps (pins : PinLevels) (s : State) : Keeps State.restart s (execTickStep pins s) := by
  simp only [execTickStep, onlyIf]
  (repeat' split) <;> simp [apply_ite State.restart, foldl_restart]
theorem execStrapCheck_keeps (levels : Straps) (s : State) :
    Keeps (fun u => u.restart.straps) s (execStrapCheck levels s) := by
  simp [execStrapCheck, apply_ite State.restart, apply_ite Restart.straps]

/-! ## Direct registers (Machine/Regs) -/

@[simp] theorem tickLoRead_restart (p : Path) (l : Lanes) (s : State) :
    (tickLoRead p l s).restart = s.restart := by
  simp [tickLoRead, apply_ite State.restart]
@[simp] theorem faultSumRead_restart (l : Lanes) (s : State) : (faultSumRead l s).restart = s.restart := by
  simp [faultSumRead, apply_ite State.restart]
@[simp] theorem regReadFx_restart (p : Path) (off : Nat) (l : Lanes) (s : State) :
    (regReadFx p off l s).restart = s.restart := by
  simp only [regReadFx]
  split <;> simp
@[simp] theorem pwrCtrlWrite_restart (l : Lanes) (w : Word) (armed : Bool) (s : State) :
    (pwrCtrlWrite l w armed s).restart = s.restart := by
  simp [pwrCtrlWrite, apply_ite State.restart]
@[simp] theorem clkCtrlWrite_straps (l : Lanes) (w : Word) (s : State) :
    (clkCtrlWrite l w s).restart.straps = s.restart.straps := by
  simp [clkCtrlWrite, apply_ite State.restart, apply_ite Restart.straps]
@[simp] theorem rstCtrlWrite_straps (w : Word) (s : State) : (rstCtrlWrite w s).restart.straps = s.restart.straps := by
  simp [rstCtrlWrite, apply_ite State.restart, apply_ite Restart.straps]
@[simp] theorem logTailWrite_restart (p : Path) (l : Lanes) (w : Word) (s : State) :
    (logTailWrite p l w s).restart = s.restart := by
  simp [logTailWrite, apply_ite State.restart]
@[simp] theorem armWrite_restart (p : Path) (w : Word) (s : State) :
    (armWrite p w s).restart = s.restart := by
  simp [armWrite, apply_ite State.restart]
@[simp] theorem hbCfgWrite_restart (l : Lanes) (w : Word) (s : State) : (hbCfgWrite l w s).restart = s.restart := by
  simp [hbCfgWrite]
@[simp] theorem regWrite_straps (p : Path) (off : Nat) (l : Lanes) (w : Word) (armed : Bool) (s : State) :
    (regWrite p off l w armed s).restart.straps = s.restart.straps := by
  simp only [regWrite]
  (repeat' split) <;> simp
@[simp] theorem armAge_restart (p : Path) (s : State) : (armAge p s).restart = s.restart := by
  simp only [armAge]
  split <;> simp
@[simp] theorem writeCheck_restart (p : Path) (off : Nat) (l : Lanes) (w : Word) (s : State) :
    (writeCheck p off l w s).2.2.restart = s.restart := by
  simp only [writeCheck]
  (repeat' split) <;> simp
@[simp] theorem writeApply_straps (p : Path) (off : Nat) (l : Lanes) (w : Word) (ok : Bool) (s : State) :
    (writeApply p off l w ok s).restart.straps = s.restart.straps := by
  simp only [writeApply]
  split <;> simp
@[simp] theorem pathWrite_straps (p : Path) (off : Nat) (l : Lanes) (w : Word) (s : State) :
    (pathWrite p off l w s).2.restart.straps = s.restart.straps := by
  simp [pathWrite, apply_ite State.restart, apply_ite Restart.straps]
theorem execArmTimeout_keeps (p : Path) (s : State) : Keeps State.restart s (execArmTimeout p s) := by
  simp [execArmTimeout]
@[simp] theorem mirrorRefused_restart (status : Byte) (off : Nat) (s : State) :
    (mirrorRefused status off s).restart = s.restart := by
  simp [mirrorRefused]
@[simp] theorem narrowNote_restart (al off : Nat) (l : Lanes) (s : State) :
    (narrowNote al off l s).restart = s.restart := by
  simp [narrowNote]
@[simp] theorem mirrorWrite_straps (off : Nat) (l : Lanes) (w : Word) (s : State) :
    (mirrorWrite off l w s).restart.straps = s.restart.straps := by
  simp [mirrorWrite, apply_ite State.restart, apply_ite Restart.straps]
@[simp] theorem viaPath_straps (p : Path) (off : Nat) (l : Lanes) (w : Word) (s : State) :
    (viaPath p off l w s).restart.straps = s.restart.straps := by
  simp only [viaPath]
  (repeat' split) <;> simp
@[simp] theorem readVia_restart (p : Path) (f : State → State) (s : State) (h : ∀ u, (f u).restart = u.restart) :
    (readVia p f s).restart = s.restart := by
  simp [readVia, h]
@[simp] theorem viaPathFull_straps (p : Path) (off : Nat) (w : Word) (s : State) :
    (viaPathFull p off w s).restart.straps = s.restart.straps := by
  simp [viaPathFull]
theorem execRegisterWrite_keeps (p : Path) (off : BitVec 16) (l : Lanes) (w : Word) (s : State) :
    Keeps (fun u => u.restart.straps) s (execRegisterWrite p off l w s) := by
  simp [execRegisterWrite]
theorem execArmWrite_keeps (p : Path) (value : Word) (s : State) :
    Keeps (fun u => u.restart.straps) s (execArmWrite p value s) := by
  simp [execArmWrite]
theorem execCtrlRst_keeps (p : Path) (s : State) : Keeps (fun u => u.restart.straps) s (execCtrlRst p s) := by
  simp [execCtrlRst]
theorem execPortRst_keeps (p : Path) (mask : Byte) (s : State) :
    Keeps (fun u => u.restart.straps) s (execPortRst p mask s) := by
  simp [execPortRst]
theorem execNvClear_keeps (p : Path) (s : State) : Keeps (fun u => u.restart.straps) s (execNvClear p s) := by
  simp [execNvClear]
@[simp] theorem viaReq_straps (p : Path) (req : Nat) (s : State) :
    (viaReq p req s).restart.straps = s.restart.straps := by
  simp [viaReq]
theorem execReqRun_keeps (p : Path) (s : State) : Keeps (fun u => u.restart.straps) s (execReqRun p s) := by
  simp [execReqRun]
theorem execReqNap_keeps (p : Path) (s : State) : Keeps (fun u => u.restart.straps) s (execReqNap p s) := by
  simp [execReqNap]
theorem execReqDoze_keeps (p : Path) (s : State) : Keeps (fun u => u.restart.straps) s (execReqDoze p s) := by
  simp [execReqDoze]
theorem execReqStandby_keeps (p : Path) (s : State) :
    Keeps (fun u => u.restart.straps) s (execReqStandby p s) := by
  simp [execReqStandby]
theorem execVpfSelWrite_keeps (p : Path) (code : BitVec 3) (s : State) :
    Keeps (fun u => u.restart.straps) s (execVpfSelWrite p code s) := by
  simp [execVpfSelWrite]
theorem execPllStart_keeps (p : Path) (s : State) :
    Keeps (fun u => u.restart.straps) s (execPllStart p s) := by
  simp [execPllStart]
theorem execPllStop_keeps (p : Path) (s : State) : Keeps (fun u => u.restart.straps) s (execPllStop p s) := by
  simp [execPllStop]
theorem execTickLoRead_keeps (p : Path) (l : Lanes) (s : State) :
    Keeps State.restart s (execTickLoRead p l s) := by
  simp [execTickLoRead]
theorem execFaultSumRead_keeps (p : Path) (l : Lanes) (s : State) :
    Keeps State.restart s (execFaultSumRead p l s) := by
  simp [execFaultSumRead]
theorem execLogTailWrite_keeps (p : Path) (l : Lanes) (w : Word) (s : State) :
    Keeps (fun u => u.restart.straps) s (execLogTailWrite p l w s) := by
  simp [execLogTailWrite]
theorem execTblSelWrite_keeps (p : Path) (w : Word) (s : State) :
    Keeps (fun u => u.restart.straps) s (execTblSelWrite p w s) := by
  simp [execTblSelWrite]
theorem execTblDataRead_keeps (p : Path) (l : Lanes) (s : State) :
    Keeps State.restart s (execTblDataRead p l s) := by
  simp [execTblDataRead]
theorem execTblDataStage_keeps (p : Path) (w : Word) (s : State) :
    Keeps (fun u => u.restart.straps) s (execTblDataStage p w s) := by
  simp [execTblDataStage]
@[simp] theorem commitVia_straps (p : Path) (space : Nat) (w : Word) (s : State) :
    (commitVia p space w s).restart.straps = s.restart.straps := by
  simp [commitVia]
theorem execMemberCommit_keeps (p : Path) (w : Word) (s : State) :
    Keeps (fun u => u.restart.straps) s (execMemberCommit p w s) := by
  simp [execMemberCommit]
theorem execArrayCommit_keeps (p : Path) (w : Word) (s : State) :
    Keeps (fun u => u.restart.straps) s (execArrayCommit p w s) := by
  simp [execArrayCommit]
theorem execVolumeCommit_keeps (p : Path) (w : Word) (s : State) :
    Keeps (fun u => u.restart.straps) s (execVolumeCommit p w s) := by
  simp [execVolumeCommit]
theorem execStudioCommit_keeps (p : Path) (w : Word) (s : State) :
    Keeps (fun u => u.restart.straps) s (execStudioCommit p w s) := by
  simp [execStudioCommit]
theorem execQueueCommit_keeps (p : Path) (w : Word) (s : State) :
    Keeps (fun u => u.restart.straps) s (execQueueCommit p w s) := by
  simp [execQueueCommit]
theorem execDmaChanCommit_keeps (p : Path) (w : Word) (s : State) :
    Keeps (fun u => u.restart.straps) s (execDmaChanCommit p w s) := by
  simp [execDmaChanCommit]
theorem execLayerStart_keeps (p : Path) (w : Word) (s : State) :
    Keeps (fun u => u.restart.straps) s (execLayerStart p w s) := by
  simp [execLayerStart]
theorem execLayerStop_keeps (p : Path) (w : Word) (s : State) :
    Keeps (fun u => u.restart.straps) s (execLayerStop p w s) := by
  simp [execLayerStop]
theorem execLayerCommit_keeps (p : Path) (w : Word) (s : State) :
    Keeps (fun u => u.restart.straps) s (execLayerCommit p w s) := by
  simp [execLayerCommit]
theorem execBusCommit_keeps (p : Path) (w : Word) (s : State) :
    Keeps (fun u => u.restart.straps) s (execBusCommit p w s) := by
  simp [execBusCommit]
theorem execAuportCommit_keeps (p : Path) (w : Word) (s : State) :
    Keeps (fun u => u.restart.straps) s (execAuportCommit p w s) := by
  simp [execAuportCommit]
theorem execRefereeCommit_keeps (p : Path) (w : Word) (s : State) :
    Keeps (fun u => u.restart.straps) s (execRefereeCommit p w s) := by
  simp [execRefereeCommit]
theorem execHostRegionCommit_keeps (p : Path) (w : Word) (s : State) :
    Keeps (fun u => u.restart.straps) s (execHostRegionCommit p w s) := by
  simp [execHostRegionCommit]
theorem execRoSpaceCommit_keeps (p : Path) (w : Word) (s : State) :
    Keeps (fun u => u.restart.straps) s (execRoSpaceCommit p w s) := by
  simp [execRoSpaceCommit]
theorem execArrayArgWrite_keeps (p : Path) (l : Lanes) (w : Word) (s : State) :
    Keeps (fun u => u.restart.straps) s (execArrayArgWrite p l w s) := by
  simp [execArrayArgWrite]
@[simp] theorem command_straps (p : Path) (code : Nat) (s : State) :
    (command p code s).restart.straps = s.restart.straps := by
  simp [command]
theorem execAssemble_keeps (p : Path) (s : State) :
    Keeps (fun u => u.restart.straps) s (execAssemble p s) := by
  simp [execAssemble]
theorem execForceAssemble_keeps (p : Path) (s : State) :
    Keeps (fun u => u.restart.straps) s (execForceAssemble p s) := by
  simp [execForceAssemble]
theorem execCreateArray_keeps (p : Path) (s : State) :
    Keeps (fun u => u.restart.straps) s (execCreateArray p s) := by
  simp [execCreateArray]
theorem execDeleteArray_keeps (p : Path) (s : State) :
    Keeps (fun u => u.restart.straps) s (execDeleteArray p s) := by
  simp [execDeleteArray]
theorem execCreateVolume_keeps (p : Path) (s : State) :
    Keeps (fun u => u.restart.straps) s (execCreateVolume p s) := by
  simp [execCreateVolume]
theorem execDeleteVolume_keeps (p : Path) (s : State) :
    Keeps (fun u => u.restart.straps) s (execDeleteVolume p s) := by
  simp [execDeleteVolume]
theorem execSetOwner_keeps (p : Path) (s : State) :
    Keeps (fun u => u.restart.straps) s (execSetOwner p s) := by
  simp [execSetOwner]
theorem execAddBench_keeps (p : Path) (s : State) :
    Keeps (fun u => u.restart.straps) s (execAddBench p s) := by
  simp [execAddBench]
theorem execRemoveBench_keeps (p : Path) (s : State) :
    Keeps (fun u => u.restart.straps) s (execRemoveBench p s) := by
  simp [execRemoveBench]
theorem execRetireMember_keeps (p : Path) (s : State) :
    Keeps (fun u => u.restart.straps) s (execRetireMember p s) := by
  simp [execRetireMember]
theorem execStartRestoration_keeps (p : Path) (s : State) :
    Keeps (fun u => u.restart.straps) s (execStartRestoration p s) := by
  simp [execStartRestoration]
theorem execCopyBack_keeps (p : Path) (s : State) :
    Keeps (fun u => u.restart.straps) s (execCopyBack p s) := by
  simp [execCopyBack]
theorem execStartInspection_keeps (p : Path) (s : State) :
    Keeps (fun u => u.restart.straps) s (execStartInspection p s) := by
  simp [execStartInspection]
theorem execStartRepaint_keeps (p : Path) (s : State) :
    Keeps (fun u => u.restart.straps) s (execStartRepaint p s) := by
  simp [execStartRepaint]
theorem execAbortRepaint_keeps (p : Path) (s : State) :
    Keeps (fun u => u.restart.straps) s (execAbortRepaint p s) := by
  simp [execAbortRepaint]
theorem execPauseBackground_keeps (p : Path) (s : State) :
    Keeps (fun u => u.restart.straps) s (execPauseBackground p s) := by
  simp [execPauseBackground]
theorem execResumeBackground_keeps (p : Path) (s : State) :
    Keeps (fun u => u.restart.straps) s (execResumeBackground p s) := by
  simp [execResumeBackground]
theorem execStopArray_keeps (p : Path) (s : State) :
    Keeps (fun u => u.restart.straps) s (execStopArray p s) := by
  simp [execStopArray]
theorem execArrayCmdBadCode_keeps (p : Path) (code : Byte) (s : State) :
    Keeps (fun u => u.restart.straps) s (execArrayCmdBadCode p code s) := by
  simp [execArrayCmdBadCode]

/-! ## Control port frames (Machine/Cport) -/

@[simp] theorem frameBegin_restart (f : Frame) (s : State) : (frameBegin f s).restart = s.restart := by
  simp [frameBegin]
@[simp] theorem respond_restart (f : Frame) (status : Byte) (data : Word) (s : State) :
    (respond f status data s).restart = s.restart := by
  simp [respond]

@[simp] theorem frameStep_straps (f : Frame) (body : State → State) (s : State)
    (h : ∀ u, (body u).restart.straps = u.restart.straps) : (frameStep f body s).restart.straps = s.restart.straps := by
  refine onlyIf_straps _ _ _ ?_
  dsimp only
  split <;> simp [h]

@[simp] theorem frameStep_restart (f : Frame) (body : State → State) (s : State) (h : ∀ u, (body u).restart = u.restart) :
    (frameStep f body s).restart = s.restart := by
  refine onlyIf_restart _ _ _ ?_
  dsimp only
  split <;> simp [h]

@[simp] theorem nopBody_restart (f : Frame) (s : State) : (nopBody f s).restart = s.restart := by
  simp [nopBody, apply_ite State.restart]
@[simp] theorem readBody_restart (f : Frame) (s : State) : (readBody f s).restart = s.restart := by
  simp [readBody, apply_ite State.restart]
@[simp] theorem writeBody_straps (f : Frame) (s : State) : (writeBody f s).restart.straps = s.restart.straps := by
  simp [writeBody]
@[simp] theorem whistleBody_restart (f : Frame) (s : State) : (whistleBody f s).restart = s.restart := by
  simp [whistleBody, apply_ite State.restart]
theorem execCportNop_keeps (f : Frame) (s : State) : Keeps State.restart s (execCportNop f s) := by
  simp only [execCportNop]
  split <;> simp
theorem execCportRead_keeps (f : Frame) (s : State) : Keeps State.restart s (execCportRead f s) := by
  simp only [execCportRead]
  split <;> simp
theorem execCportWrite_keeps (f : Frame) (s : State) : Keeps (fun u => u.restart.straps) s (execCportWrite f s) := by
  simp only [execCportWrite]
  split <;> simp
theorem execCportWhistle_keeps (f : Frame) (s : State) : Keeps State.restart s (execCportWhistle f s) := by
  simp only [execCportWhistle]
  split <;> simp
theorem execCportRunt_keeps (s : State) : Keeps State.restart s (execCportRunt s) := by simp [execCportRunt]

/-! ## The host bus unit as a target (Machine/HostBus) -/

@[simp] theorem earlyNote_restart (al : Fin 8) (u : Nat) (w : Bool) (s : State) :
    (earlyNote al u w s).restart = s.restart := by
  simp [earlyNote]
@[simp] theorem unalignedNote_restart (al : Fin 8) (u : Nat) (l : Lanes) (s : State) :
    (unalignedNote al u l s).restart = s.restart := by
  simp [unalignedNote]
@[simp] theorem discardNote_restart (al : Fin 8) (x : WLatch) (s : State) :
    (discardNote al x s).restart = s.restart := by
  simp [discardNote]
@[simp] theorem reservedNote_restart (al : Fin 8) (u : Nat) (s : State) :
    (reservedNote al u s).restart = s.restart := by
  simp [reservedNote]
@[simp] theorem deniedNote_restart (st : Fin 8) (u : Nat) (w : Bool) (s : State) :
    (deniedNote st u w s).restart = s.restart := by
  simp [deniedNote]
@[simp] theorem strayNote_restart (al : Fin 8) (u : Nat) (s : State) : (strayNote al u s).restart = s.restart := by
  simp [strayNote]
@[simp] theorem pioNote_restart (st : Fin 8) (push : Bool) (n : Nat) (s : State) :
    (pioNote st push n s).restart = s.restart := by
  simp [pioNote]
@[simp] theorem pushApply_restart (st : Fin 8) (l : Lanes) (w : Word) (s : State) :
    (pushApply st l w s).restart = s.restart := by
  simp only [pushApply]
  split <;> simp
@[simp] theorem popApply_restart (st : Fin 8) (l : Lanes) (s : State) : (popApply st l s).2.restart = s.restart := by
  simp only [popApply, onlyIf]
  (repeat' split) <;> simp
@[simp] theorem sIrqClear_restart (st : Fin 8) (w : Word) (s : State) : (sIrqClear st w s).restart = s.restart := by
  simp [sIrqClear]
@[simp] theorem blockWrite_restart (st : Fin 8) (r : Nat) (l : Lanes) (w : Word) (s : State) :
    (blockWrite st r l w s).restart = s.restart := by
  simp only [blockWrite, onlyIf]
  (repeat' split) <;> simp
@[simp] theorem mailboxWrite_restart (st : Fin 8) (u b : Nat) (l : Lanes) (w : Word) (s : State) :
    (mailboxWrite st u b l w s).restart = s.restart := by
  simp [mailboxWrite, apply_ite State.restart]
@[simp] theorem keepPut_restart (mir : Bool) (al : Fin 8) (k : Option WLatch × Option (BitVec 16 × Word)) (s : State) :
    (keepPut mir al k s).restart = s.restart := by
  simp [keepPut, apply_ite State.restart]
@[simp] theorem snapDrop_restart (x : Spot) (al : Fin 8) (off : Nat) (s : State) :
    (snapDrop x al off s).restart = s.restart := by
  simp only [snapDrop]
  (repeat' split) <;> simp
@[simp] theorem applyPosted_straps (al : Fin 8) (p : Posted) (s : State) :
    (applyPosted al p s).restart.straps = s.restart.straps := by
  simp only [applyPosted]
  (repeat' split) <;> simp
@[simp] theorem applyHead_straps (al : Fin 8) (s : State) : (applyHead al s).restart.straps = s.restart.straps := by
  simp only [applyHead]
  split <;> simp
@[simp] theorem drainAlias_straps (al : Fin 8) (s : State) : (drainAlias al s).restart.straps = s.restart.straps := by
  simp [drainAlias, foldl_straps]
@[simp] theorem drainAll_straps (s : State) : (drainAll s).restart.straps = s.restart.straps := by
  simp [drainAll, foldl_straps]
@[simp] theorem post_straps (al : Fin 8) (p : Posted) (s : State) :
    (post al p s).restart.straps = s.restart.straps := by
  simp [post]
@[simp] theorem latchWrite_straps (x : Spot) (al : Fin 8) (wo : Nat) (l : Lanes) (w : Word) (s : State) :
    (latchWrite x al wo l w s).restart.straps = s.restart.straps := by
  simp only [latchWrite]
  (repeat' split) <;> simp
@[simp] theorem readOut_restart (early : Bool) (al : Fin 8) (u : Nat) (l : Lanes) (v : Word) (s : State) :
    (readOut early al u l v s).restart = s.restart := by
  simp [readOut]
@[simp] theorem regLive_restart (x : Spot) (l : Lanes) (drained : Nat) (s : State) :
    (regLive x l drained s).2.restart = s.restart := by
  simp only [regLive, onlyIf]
  (repeat' split) <;> simp
@[simp] theorem mailboxRead_restart (st : Fin 8) (u b : Nat) (s : State) :
    (mailboxRead st u b s).2.restart = s.restart := by
  simp only [mailboxRead]
  split <;> simp
@[simp] theorem memLive_restart (x : Spot) (u : Nat) (s : State) : (memLive x u s).2.restart = s.restart := by
  simp only [memLive]
  split <;> simp
@[simp] theorem pioShort_restart (st : Fin 8) (x : PioWait) (u : Nat) (s : State) :
    (pioShort st x u s).restart = s.restart := by
  simp [pioShort, apply_ite State.restart]
@[simp] theorem pioRead_restart (st : Fin 8) (early : Bool) (u : Nat) (l : Lanes) (s : State) :
    (pioRead st early u l s).restart = s.restart := by
  simp [pioRead, apply_ite State.restart]
@[simp] theorem pioWrite_straps (st : Fin 8) (wo u : Nat) (l : Lanes) (w : Word) (s : State) :
    (pioWrite st wo u l w s).restart.straps = s.restart.straps := by
  simp [pioWrite, apply_ite State.restart, apply_ite Restart.straps]
@[simp] theorem readCycle_straps (early : Bool) (u : Nat) (l : Lanes) (s : State) :
    (readCycle early u l s).restart.straps = s.restart.straps := by
  simp only [readCycle]
  (repeat' split) <;> simp
@[simp] theorem writeCycle_straps (u : Nat) (l : Lanes) (w : Word) (s : State) :
    (writeCycle u l w s).restart.straps = s.restart.straps := by
  simp only [writeCycle]
  (repeat' split) <;> simp
@[simp] theorem runCycle_straps (c : Cycle) (s : State) : (runCycle c s).restart.straps = s.restart.straps := by
  simp [runCycle, apply_ite State.restart, apply_ite Restart.straps]
@[simp] theorem takeCycle_straps (c : Cycle) (s : State) : (takeCycle c s).restart.straps = s.restart.straps := by
  simp only [takeCycle]
  (repeat' split) <;> simp
theorem execTargetRead_keeps (off : BitVec 16) (be : Lanes) (early : Bool) (s : State) :
    Keeps (fun u => u.restart.straps) s (execTargetRead off be early s) := by
  simp [execTargetRead]
theorem execTargetWrite_keeps (off : BitVec 16) (be : Lanes) (data : Word) (early : Bool) (s : State) :
    Keeps (fun u => u.restart.straps) s (execTargetWrite off be data early s) := by
  simp [execTargetWrite]
theorem execPostedWriteApply_keeps (al : Fin 8) (s : State) :
    Keeps (fun u => u.restart.straps) s (execPostedWriteApply al s) := by
  simp [execPostedWriteApply]
theorem execWhistleRead_keeps (via : Option (Fin 8)) (s : State) :
    Keeps (fun u => u.restart.straps) s (execWhistleRead via s) := by
  simp [execWhistleRead]
theorem execSIrqStatClear_keeps (st : Fin 8) (data : Word) (s : State) :
    Keeps (fun u => u.restart.straps) s (execSIrqStatClear st data s) := by
  simp [execSIrqStatClear]
theorem execPioPush_keeps (st : Fin 8) (s : State) : Keeps (fun u => u.restart.straps) s (execPioPush st s) := by
  simp only [execPioPush]
  split <;> simp
theorem execPioPop_keeps (st : Fin 8) (s : State) : Keeps State.restart s (execPioPop st s) := by
  simp only [execPioPop]
  split <;> simp
theorem execPioWaitExpiry_keeps (st : Fin 8) (s : State) : Keeps State.restart s (execPioWaitExpiry st s) := by
  simp only [execPioWaitExpiry]
  (repeat' split) <;> simp
theorem execWhistleDrainEnd_keeps (s : State) : Keeps (fun u => u.restart.straps) s (execWhistleDrainEnd s) := by
  simp [execWhistleDrainEnd]

/-! ## PLL locks (Machine/Wake) -/

@[simp] theorem wakeWriteApply_straps (s : State) : (wakeWriteApply s).restart.straps = s.restart.straps := by
  simp only [wakeWriteApply]
  split <;> simp
@[simp] theorem heldApply_straps (s : State) : (heldApply s).restart.straps = s.restart.straps := by
  simp [heldApply, foldl_straps]
@[simp] theorem wakeEnd_straps (s : State) : (wakeEnd s).restart.straps = s.restart.straps := by simp [wakeEnd]
@[simp] theorem lockTaken_restart (ticks : Byte) (s : State) : (lockTaken ticks s).restart = s.restart := by
  simp [lockTaken]
@[simp] theorem lockGoesOn_straps (s : State) : (lockGoesOn s).restart.straps = s.restart.straps := by
  simp only [lockGoesOn]
  (repeat' split) <;> simp
theorem execPllLock_keeps (ticks : Byte) (s : State) : Keeps (fun u => u.restart.straps) s (execPllLock ticks s) := by
  simp [execPllLock]
theorem execDozeRelockTimeout_keeps (s : State) : Keeps (fun u => u.restart.straps) s (execDozeRelockTimeout s) := by
  simp [execDozeRelockTimeout]

/-! ## The command table -/

/-- Every command but the end of a class P or D reset leaves the strap sample (R14). -/
theorem exec_keeps_straps (c : Instr) (s : State)
    (h : ∀ straps, c = .resetEnd straps → s.power.core ≠ .inResetP ∧ s.power.core ≠ .inResetD) :
    Keeps (fun u => u.restart.straps) s (exec c s) := by
  cases c with
  | powerOn sup vstby => exact execPowerOn_keeps sup vstby s
  | powerGoodMet sup => exact execPowerGoodMet_keeps sup s
  | resetEnd straps => exact execResetEnd_keeps _ s (h _ rfl)
  | resetNLow cut => exact execResetNLow_keeps cut s
  | powerFailTrip src sup cut => exact execPowerFailTrip_keeps src sup cut s
  | xinLoss cut => exact execXinLoss_keeps cut s
  | bankAbsent b cut => exact execBankAbsent_keeps b cut s
  | pllLock ticks => exact execPllLock_keeps ticks s
  | pllLockLoss elapsed cut => exact execPllLockLoss_keeps elapsed cut s
  | pllLockRetry => exact (execPllLockRetry_keeps s).straps
  | selfChecksDone skb canvas => exact execSelfChecksDone_keeps skb canvas s
  | discoveryDeadline => exact execDiscoveryDeadline_keeps s
  | assembly a => exact (execAssembly_keeps a s).straps
  | replayStripe a stripe => exact (execReplayStripe_keeps a stripe s).straps
  | level1Entry tier2 => exact execLevel1Entry_keeps tier2 s
  | level2Entry fail => exact execLevel2Entry_keeps fail s
  | ctrlRst p => exact execCtrlRst_keeps p s
  | controlResetStart cut => exact execControlResetStart_keeps cut s
  | portRst p mask => exact execPortRst_keeps p mask s
  | portResetLost p => exact (execPortResetLost_keeps p s).straps
  | nvClear p => exact execNvClear_keeps p s
  | reqRun p => exact execReqRun_keeps p s
  | reqNap p => exact execReqNap_keeps p s
  | reqDoze p => exact execReqDoze_keeps p s
  | reqStandby p => exact execReqStandby_keeps p s
  | vpfSelWrite p code => exact execVpfSelWrite_keeps p code s
  | autoNapExpiry => exact (execAutoNapExpiry_keeps s).straps
  | napCommit => exact (execNapCommit_keeps s).straps
  | dozeCommit elapsed => exact (execDozeCommit_keeps elapsed s).straps
  | standbyCommit => exact execStandbyCommit_keeps s
  | wakeNAsserted => exact (execWakeNAsserted_keeps s).straps
  | wakeTimerExpiry => exact (execWakeTimerExpiry_keeps s).straps
  | standbyExitTimeout => exact (execStandbyExitTimeout_keeps s).straps
  | dozeRelockTimeout => exact execDozeRelockTimeout_keeps s
  | powerOrderTimeout node => exact (execPowerOrderTimeout_keeps node s).straps
  | forwardedClockWake => exact (execForwardedClockWake_keeps s).straps
  | pllStart p => exact execPllStart_keeps p s
  | pllStop p => exact execPllStop_keeps p s
  | xclkSelChange => exact (execXclkSelChange_keeps s).straps
  | tickStep pins => exact (execTickStep_keeps pins s).straps
  | tickLoRead p l => exact (execTickLoRead_keeps p l s).straps
  | strapCheck levels => exact execStrapCheck_keeps levels s
  | cportNop f => exact (execCportNop_keeps f s).straps
  | cportRead f => exact (execCportRead_keeps f s).straps
  | cportWrite f => exact execCportWrite_keeps f s
  | cportWhistle f => exact (execCportWhistle_keeps f s).straps
  | cportRunt => exact (execCportRunt_keeps s).straps
  | whistleDrainEnd => exact execWhistleDrainEnd_keeps s
  | armWrite p value => exact execArmWrite_keeps p value s
  | armTimeout p => exact (execArmTimeout_keeps p s).straps
  | registerWrite p off l w => exact execRegisterWrite_keeps p off l w s
  | tblSelWrite p w => exact execTblSelWrite_keeps p w s
  | tblDataRead p l => exact (execTblDataRead_keeps p l s).straps
  | tblDataStage p w => exact execTblDataStage_keeps p w s
  | memberCommit p w => exact execMemberCommit_keeps p w s
  | arrayCommit p w => exact execArrayCommit_keeps p w s
  | volumeCommit p w => exact execVolumeCommit_keeps p w s
  | studioCommit p w => exact execStudioCommit_keeps p w s
  | queueCommit p w => exact execQueueCommit_keeps p w s
  | dmaChanCommit p w => exact execDmaChanCommit_keeps p w s
  | layerStart p w => exact execLayerStart_keeps p w s
  | layerStop p w => exact execLayerStop_keeps p w s
  | layerCommit p w => exact execLayerCommit_keeps p w s
  | busCommit p w => exact execBusCommit_keeps p w s
  | auportCommit p w => exact execAuportCommit_keeps p w s
  | refereeCommit p w => exact execRefereeCommit_keeps p w s
  | hostRegionCommit p w => exact execHostRegionCommit_keeps p w s
  | roSpaceCommit p w => exact execRoSpaceCommit_keeps p w s
  | nvCommitDone ok => exact execNvCommitDone_keeps ok s
  | arrayArgWrite p l w => exact execArrayArgWrite_keeps p l w s
  | assemble p => exact execAssemble_keeps p s
  | forceAssemble p => exact execForceAssemble_keeps p s
  | createArray p => exact execCreateArray_keeps p s
  | deleteArray p => exact execDeleteArray_keeps p s
  | createVolume p => exact execCreateVolume_keeps p s
  | deleteVolume p => exact execDeleteVolume_keeps p s
  | setOwner p => exact execSetOwner_keeps p s
  | addBench p => exact execAddBench_keeps p s
  | removeBench p => exact execRemoveBench_keeps p s
  | retireMember p => exact execRetireMember_keeps p s
  | startRestoration p => exact execStartRestoration_keeps p s
  | copyBack p => exact execCopyBack_keeps p s
  | startInspection p => exact execStartInspection_keeps p s
  | startRepaint p => exact execStartRepaint_keeps p s
  | abortRepaint p => exact execAbortRepaint_keeps p s
  | pauseBackground p => exact execPauseBackground_keeps p s
  | resumeBackground p => exact execResumeBackground_keeps p s
  | stopArray p => exact execStopArray_keeps p s
  | arrayCmdBadCode p code => exact execArrayCmdBadCode_keeps p code s
  | mgmtCommandDone timeout => exact (execMgmtCommandDone_keeps timeout s).straps
  | studioReset mask => exact (execStudioReset_keeps mask s).straps
  | studioResetEnd st => exact execStudioResetEnd_keeps st s
  | studioDoneAck mask => exact (execStudioDoneAck_keeps mask s).straps
  | flushAll => exact (execFlushAll_keeps s).straps
  | skbCtrlWrite lanes data => exact (execSkbCtrlWrite_keeps lanes data s).straps
  | dmaKick mask => exact (execDmaKick_keeps mask s).straps
  | dmaGlobalPause => exact (execDmaGlobalPause_keeps s).straps
  | dmaGlobalResume => exact (execDmaGlobalResume_keeps s).straps
  | rollNow => exact (execRollNow_keeps s).straps
  | forget entry => exact (execForget_keeps entry s).straps
  | adopt entry key => exact (execAdopt_keeps entry key s).straps
  | ringPortEnable fb => exact (execRingPortEnable_keeps fb s).straps
  | ringPortDisable fb => exact (execRingPortDisable_keeps fb s).straps
  | paletteEnable mclk => exact (execPaletteEnable_keeps mclk s).straps
  | paletteDisable mclk => exact (execPaletteDisable_keeps mclk s).straps
  | portWake port => exact (execPortWake_keeps port s).straps
  | logTailWrite p l w => exact execLogTailWrite_keeps p l w s
  | faultSumRead p l => exact (execFaultSumRead_keeps p l s).straps
  | whistleRead via => exact execWhistleRead_keeps via s
  | sIrqStatClear st data => exact execSIrqStatClear_keeps st data s
  | targetRead off be early => exact execTargetRead_keeps off be early s
  | targetWrite off be data early => exact execTargetWrite_keeps off be data early s
  | postedWriteApply al => exact execPostedWriteApply_keeps al s
  | sqTailDoorbell q data => exact (execSqTailDoorbell_keeps q data s).straps
  | cqHeadDoorbell q data => exact (execCqHeadDoorbell_keeps q data s).straps
  | sqResumeNext q slot => exact (execSqResumeNext_keeps q slot s).straps
  | sqResumeRetry q slot => exact (execSqResumeRetry_keeps q slot s).straps
  | sqResumeDiscard q slot => exact (execSqResumeDiscard_keeps q slot s).straps
  | pioPush st => exact execPioPush_keeps st s
  | pioPop st => exact (execPioPop_keeps st s).straps
  | pioWaitExpiry st => exact (execPioWaitExpiry_keeps st s).straps
  | busGranted => exact (execBusGranted_keeps s).straps
  | grantWithdrawn => exact (execGrantWithdrawn_keeps s).straps
  | masterCycle => exact (execMasterCycle_keeps s).straps
  | rdyTimeout c addr => exact (execRdyTimeout_keeps c addr s).straps
  | selfAccess c addr => exact (execSelfAccess_keeps c addr s).straps
  | gntTimeout => exact (execGntTimeout_keeps s).straps
  | releaseGapExpiry => exact (execReleaseGapExpiry_keeps s).straps
  | dmaPlace => exact (execDmaPlace_keeps s).straps
  | dmaBurst data => exact (execDmaBurst_keeps data s).straps
  | dmaPollTimer c => exact (execDmaPollTimer_keeps c s).straps
  | descriptorReadDone c bytes => exact (execDescriptorReadDone_keeps c bytes s).straps
  | listEntryRead c dst bytes => exact (execListEntryRead_keeps c dst bytes s).straps
  | dmaCompletion c => exact (execDmaCompletion_keeps c s).straps
  | queuePick => exact (execQueuePick_keeps s).straps
  | commandFetched slot => exact (execCommandFetched_keeps slot s).straps
  | nop slot => exact (execNop_keeps slot s).straps
  | read run => exact (execRead_keeps run s).straps
  | write run => exact (execWrite_keeps run s).straps
  | verify slot => exact (execVerify_keeps slot s).straps
  | trim slot => exact (execTrim_keeps slot s).straps
  | flush slot => exact (execFlush_keeps slot s).straps
  | flushComplete slot => exact (execFlushComplete_keeps slot s).straps
  | whistleCommand slot => exact (execWhistleCommand_keeps slot s).straps
  | whistleComplete slot => exact (execWhistleComplete_keeps slot s).straps
  | writePauseRelease slot => exact (execWritePauseRelease_keeps slot s).straps
  | lockGrant => exact (execLockGrant_keeps s).straps
  | poolGrant pool => exact (execPoolGrant_keeps pool s).straps
  | completionPost slot => exact (execCompletionPost_keeps slot s).straps
  | completionWriteFault slot self addr => exact (execCompletionWriteFault_keeps slot self addr s).straps
  | coalesceTimerExpiry st => exact (execCoalesceTimerExpiry_keeps st s).straps
  | cardInserted p => exact (execCardInserted_keeps p s).straps
  | cardRemoved p => exact (execCardRemoved_keeps p s).straps
  | signatureRead p d => exact (execSignatureRead_keeps p d s).straps
  | identFailed p unsupported => exact (execIdentFailed_keeps p unsupported s).straps
  | signatureRefresh m => exact (execSignatureRefresh_keeps m s).straps
  | memberOpIssue p => exact (execMemberOpIssue_keeps p s).straps
  | memberOpDone p r => exact (execMemberOpDone_keeps p r s).straps
  | memberOpTimeout p retuned => exact (execMemberOpTimeout_keeps p retuned s).straps
  | refereeDecay => exact (execRefereeDecay_keeps s).straps
  | pageProgramDone => exact (execPageProgramDone_keeps s).straps
  | recordSeal => exact (execRecordSeal_keeps s).straps
  | retirement slot => exact (execRetirement_keeps slot s).straps
  | trimDoneUpdate slot => exact (execTrimDoneUpdate_keeps slot s).straps
  | flushAgeExpiry a stripe => exact (execFlushAgeExpiry_keeps a stripe s).straps
  | flushStep id => exact (execFlushStep_keeps id s).straps
  | trimStripeApply slot => exact (execTrimStripeApply_keeps slot s).straps
  | tileMend => exact (execTileMend_keeps s).straps
  | restorationStep a => exact (execRestorationStep_keeps a s).straps
  | restorationFinish a => exact (execRestorationFinish_keeps a s).straps
  | copyBackStep a => exact (execCopyBackStep_keeps a s).straps
  | copyBackFinish a => exact (execCopyBackFinish_keeps a s).straps
  | inspectionStep a => exact (execInspectionStep_keeps a s).straps
  | inspectionFinish a => exact (execInspectionFinish_keeps a s).straps
  | backgroundCheckpoint a => exact (execBackgroundCheckpoint_keeps a s).straps
  | repaintCopyStep a => exact (execRepaintCopyStep_keeps a s).straps
  | watermarkCommit a => exact (execWatermarkCommit_keeps a s).straps
  | cutover a => exact (execCutover_keeps a s).straps
  | returnStep a => exact (execReturnStep_keeps a s).straps
  | returnEnd a => exact (execReturnEnd_keeps a s).straps
  | ledgerAudit => exact execLedgerAudit_keeps s
  | ctrlParity unit address => exact execCtrlParity_keeps unit address s
  | tier2TransferDone => exact (execTier2TransferDone_keeps s).straps
  | tier2DqsTimeout => exact (execTier2DqsTimeout_keeps s).straps
  | tier2CheckRead reg0 => exact (execTier2CheckRead_keeps reg0 s).straps
  | linkTrainingStart fb => exact (execLinkTrainingStart_keeps fb s).straps
  | forwardedClockSeen fb => exact (execForwardedClockSeen_keeps fb s).straps
  | trainingComplete fb => exact (execTrainingComplete_keeps fb s).straps
  | trainingTimeout fb => exact (execTrainingTimeout_keeps fb s).straps
  | linkBreak fb => exact (execLinkBreak_keeps fb s).straps
  | brokenHoldExpiry fb => exact (execBrokenHoldExpiry_keeps fb s).straps
  | linkFlit fb payload => exact (execLinkFlit_keeps fb payload s).straps
  | linkFlitTimer fb => exact (execLinkFlitTimer_keeps fb s).straps
  | packetReceiveError fb crc => exact (execPacketReceiveError_keeps fb crc s).straps
  | resendTimeout fb => exact (execResendTimeout_keeps fb s).straps
  | packetForward fb kind p => exact (execPacketForward_keeps fb kind p s).straps
  | rollCallStart => exact (execRollCallStart_keeps s).straps
  | rollCall fb p => exact (execRollCall_keeps fb p s).straps
  | rollAnswer fb p rtt => exact (execRollAnswer_keeps fb p rtt s).straps
  | rollCallCollectEnd => exact (execRollCallCollectEnd_keeps s).straps
  | rollAssign fb p => exact (execRollAssign_keeps fb p s).straps
  | rollAck fb p => exact (execRollAck_keeps fb p s).straps
  | rollDone fb p => exact (execRollDone_keeps fb p s).straps
  | linkNote fb p => exact (execLinkNote_keeps fb p s).straps
  | ping fb p => exact (execPing_keeps fb p s).straps
  | pong fb p => exact (execPong_keeps fb p s).straps
  | requestTimeout k tag => exact (execRequestTimeout_keeps k tag s).straps
  | pingTimeout k tag => exact (execPingTimeout_keeps k tag s).straps
  | tableFwd fb p => exact (execTableFwd_keeps fb p s).straps
  | memberReport fb p => exact (execMemberReport_keeps fb p s).straps
  | memberReportTimer => exact (execMemberReportTimer_keeps s).straps
  | memberSet fb p => exact (execMemberSet_keeps fb p s).straps
  | powerOrder fb p => exact (execPowerOrder_keeps fb p s).straps
  | powerAck fb p => exact (execPowerAck_keeps fb p s).straps
  | logFwd fb p => exact (execLogFwd_keeps fb p s).straps
  | mread fb p => exact (execMread_keeps fb p s).straps
  | mreadData fb p => exact (execMreadData_keeps fb p s).straps
  | mwrite fb p => exact (execMwrite_keeps fb p s).straps
  | mwriteData fb p => exact (execMwriteData_keeps fb p s).straps
  | merase fb p => exact (execMerase_keeps fb p s).straps
  | psumReq fb p => exact (execPsumReq_keeps fb p s).straps
  | psumData fb p => exact (execPsumData_keeps fb p s).straps
  | opDone fb p => exact (execOpDone_keeps fb p s).straps
  | frameBoundary au2 => exact (execFrameBoundary_keeps au2 s).straps
  | streamTileArrived layer n => exact (execStreamTileArrived_keeps layer n s).straps
  | hostRefillDone layer => exact (execHostRefillDone_keeps layer s).straps
  | supplyBelowResetLevel vstby sup cut => exact execSupplyBelowResetLevel_keeps vstby sup cut s
  | powerGoodCountRestart sup => exact (execPowerGoodCountRestart_keeps sup s).straps
  | bankReturn b => exact (execBankReturn_keeps b s).straps

/-- Settles O58: RESET_END samples the straps, and no other command writes the sample that gives the role. -/
theorem theRoleStrapFixesTheRole : Obligations.TheRoleStrapFixesTheRole := by
  refine ⟨fun s straps hcore hpg => ?_, fun c s t ht h => ?_⟩
  · obtain ⟨t, ht, hstraps⟩ := execResetEnd_samples straps s hcore hpg
    refine ⟨t, ht, fun hrole => ?_, fun hrole => ?_⟩ <;> rw [isManager, hstraps, hrole]
  · exact congrArg Straps.role (exec_keeps_straps c s h t ht)

end RoleStrap

end Sys2Proof.Machine
end

section
/-! Range locks, pool grants and the end of back-pressure (R273, R293 to R298, R434). The conflict of two locks is read off as a
statement about array sectors; each shared operation that a grant uses (the units taken, the request's place in the line, the
flushes that forced flushing starts) has one lemma that says what it writes, as an equation of states. -/

namespace Sys2Proof.Machine

section LocksAndPools

/-! ## Conflicts of locks (R293, R295) -/

/-- Two locks overlap if they share an array sector. -/
theorem Lock.overlaps_iff (x y : Lock) : x.overlaps y = true ↔ x.array = y.array ∧
    ∃ a, x.start ≤ a ∧ a < x.start + x.count ∧ y.start ≤ a ∧ a < y.start + y.count := by
  simp only [Lock.overlaps, Bool.and_eq_true, beq_iff_eq, decide_eq_true_eq]
  refine and_congr_right fun _ => ⟨fun h => ⟨max x.start y.start, ?_⟩, fun ⟨a, h⟩ => ?_⟩ <;> omega

theorem Lock.conflicts_iff (x y : Lock) : x.conflicts y = true ↔ x.overlaps y = true ∧ (x.excl = true ∨ y.excl = true) ∧
    ¬(x.work = y.work ∧ (x.kind = .child ∨ y.kind = .child)) := by
  simp [Lock.conflicts, Lock.family, and_assoc, ← not_or, imp_iff_not_or]

theorem Lock.conflicts_shared {x y : Lock} (hx : x.excl = false) (hy : y.excl = false) : x.conflicts y = false := by
  simp [Lock.conflicts, hx, hy]

theorem Lock.conflicts_family {x y : Lock} (hwork : x.work = y.work) (hkind : x.kind = .child ∨ y.kind = .child) :
    x.conflicts y = false := by
  rw [← Bool.not_eq_true, Lock.conflicts_iff]
  exact fun ⟨_, _, hother⟩ => hother ⟨hwork, hkind⟩

theorem Lock.conflicts_apart {x y : Lock} (h : x.overlaps y = false) : x.conflicts y = false := by
  simp [Lock.conflicts, h]

/-! ## The request line (R296) -/

/-- The request that is granted next conflicts with no lock held. -/
theorem firstGrant_free {s : State} {l : Lock} {line : List Lock} : ∀ {ahead : List Lock},
    firstGrant s ahead line = some l → ∀ h ∈ s.queues.locks, h.2.conflicts l = false := by
  induction line with
  | nil => intro _ hl; cases hl
  | cons r rest ih =>
    intro ahead hl
    rw [firstGrant] at hl
    split at hl
    case isTrue => exact ih hl
    case isFalse hfree =>
      cases hl
      simp only [Bool.or_eq_true, List.any_eq_true, not_or] at hfree
      obtain ⟨⟨⟨hlocks, -⟩, -⟩, -⟩ := hfree
      simpa using hlocks

/-- A request stands in the line, at the place that it takes. -/
theorem lockRequest_mem (l : Lock) (s : State) : ∃ place, { l with place := place } ∈ (lockRequest l s).queues.line :=
  ⟨_, List.mem_append_right _ List.mem_cons_self⟩

/-! ## Units taken from a pool (R431, R434) -/

@[simp] theorem Pool.addTo_free (who : Option (Fin 8)) (n : Nat) (p : Pool) : (p.addTo who n).free = p.free := by
  cases who <;> rfl

@[simp] theorem poolTake_free (i : Fin 20) (who : Option (Fin 8)) (n : Nat) (s : State) :
    (poolGet i (poolTake i who n s)).free = (poolGet i s).free - n := by
  simp [poolTake]

/-! ## Flushes that start (R382, R383) -/

/-- The two states differ in the flushes under way alone. -/
def OnlyFlushes (s t : State) : Prop :=
  ∃ l n, t = { s with skb := { s.skb with flushes := l, nextFlush := n } }

theorem OnlyFlushes.refl (s : State) : OnlyFlushes s s := ⟨_, _, rfl⟩

theorem OnlyFlushes.trans {s t u : State} (h : OnlyFlushes s t) (h' : OnlyFlushes t u) : OnlyFlushes s u := by
  obtain ⟨_, _, rfl⟩ := h
  obtain ⟨_, _, rfl⟩ := h'
  exact ⟨_, _, rfl⟩

theorem OnlyFlushes.foldl {α : Type} {g : State → α → State} (h : ∀ s a, OnlyFlushes s (g s a)) (l : List α) (s : State) :
    OnlyFlushes s (l.foldl g s) := by
  induction l generalizing s with
  | nil => exact .refl s
  | cons a t ih => exact (h s a).trans (ih _)

theorem addFlush_onlyFlushes (f : Flush) (s : State) : OnlyFlushes s (addFlush f s) := by
  unfold addFlush
  split
  · exact ⟨_, _, rfl⟩
  · exact .refl s

theorem startFlush_onlyFlushes (a : Fin 4) (new : Bool) (stripe : Nat) (s : State) :
    OnlyFlushes s (startFlush a new stripe s) := by
  unfold startFlush
  split
  · exact .refl s
  · exact addFlush_onlyFlushes _ s

theorem flushRec_onlyFlushes (r : Rec) (s : State) : OnlyFlushes s (flushRec r s) :=
  have go (new : Bool) (s : State) := OnlyFlushes.foldl (fun s t => startFlush_onlyFlushes r.array new t s)
    (r.stripesIn (arrGet r.array _) new) s
  (go false s).trans (go true _)

theorem trimApply_onlyFlushes (slot : Nat) (s : State) : OnlyFlushes s (trimApply slot s) := by
  unfold trimApply
  split
  · exact .refl s
  · split
    · dsimp only
      split
      · exact .refl s
      · exact addFlush_onlyFlushes _ s
    · exact .refl s

theorem recAdvance_onlyFlushes (i : Nat) (r : Rec) (s : State) : OnlyFlushes s (recAdvance i r s) := by
  unfold recAdvance
  split
  · exact flushRec_onlyFlushes r s
  · exact trimApply_onlyFlushes i s
  · exact .refl s

theorem forcedFlush_onlyFlushes (s : State) : OnlyFlushes s (forcedFlush s) := by
  unfold forcedFlush
  split
  · split
    · exact .refl s
    · exact recAdvance_onlyFlushes _ _ s
  · exact .refl s

/-- Forced flushing and PAUSE follow USED, and of the log only IRQ_STAT can change. -/
theorem forcedUpdate_writes (s : State) : ∃ f p q,
    forcedUpdate s = { s with skb := { s.skb with forced := f, pause := p }, log := { s.log with irqStat := q } } := by
  unfold forcedUpdate
  extract_lets _ f changed
  cases changed
  · exact ⟨f, _, _, rfl⟩
  · exact ⟨f, _, _, rfl⟩

/-! ## The lock request of a command (R273, R294, R376) -/

/-- The journal pages that a command reserves with its lock request, and the flushes that this forces. -/
def reservePages (x : Slot) (c : Cmd) (s : State) : State :=
  if pageNeed c s = 0 then s else forcedFlush (forcedUpdate (poolTake pPage (some (sqStudio x.sq)) (pageNeed c s) s))

/-- The lock that a command asks for. -/
def lockOf (i : Nat) (x : Slot) (c : Cmd) (s : State) : Lock :=
  { excl := c.op == .write || c.op == .trim, studio := some (sqStudio x.sq), array := cmdArray c s, start := cmdStart c s,
    count := c.nlb, sq := x.sq.val, kind := .command, work := .cmd i }

theorem cmdLock_eq (i : Nat) (x : Slot) (c : Cmd) (s : State) : cmdLock i x c s =
    lockRequest (lockOf i x c (reservePages x c s)) (slotPut i
      { x with stage := .lockWait, reserved := pageNeed c s, turn := (reservePages x c s).queues.nextPlace }
      (reservePages x c s)) := rfl

/-- The reservation writes the pool, the flushes, what follows USED, and the interrupt; no record and no page. -/
theorem reservePages_writes (x : Slot) (c : Cmd) (s : State) : ∃ g k l,
    reservePages x c s = { s with ledger := g, skb := k, log := l } ∧ k.recs = s.skb.recs ∧ k.pages = s.skb.pages := by
  unfold reservePages
  split
  · exact ⟨_, _, _, rfl, rfl, rfl⟩
  · obtain ⟨f, p, q, hupdate⟩ := forcedUpdate_writes (poolTake pPage (some (sqStudio x.sq)) (pageNeed c s) s)
    obtain ⟨l, n, hflush⟩ := forcedFlush_onlyFlushes (forcedUpdate (poolTake pPage (some (sqStudio x.sq)) (pageNeed c s) s))
    rw [hflush, hupdate]
    exact ⟨_, _, _, rfl, rfl, rfl⟩

/-- The command waits for its lock with its pages reserved, and its request stands in the line. -/
theorem cmdLock_asks (i : Nat) (x : Slot) (c : Cmd) (s : State) :
    let t := cmdLock i x c s
    slotGet i t = some { x with stage := .lockWait, reserved := pageNeed c s, turn := s.queues.nextPlace } ∧
      (∃ place, { lockOf i x c s with place := place } ∈ t.queues.line) ∧
      t.skb.recs = s.skb.recs ∧ t.skb.pages = s.skb.pages ∧
      t = { s with queues := t.queues, ledger := t.ledger, skb := t.skb, log := t.log } := by
  obtain ⟨g, k, l, hpages, hrecs, hpgs⟩ := reservePages_writes x c s
  rw [cmdLock_eq, hpages]
  exact ⟨kget_kput_same .., lockRequest_mem (lockOf i x c s) _, hrecs, hpgs, rfl⟩

/-! ## What a grant does (R296, R298, R434) -/

/-- A granted request leaves the line for the lowest free unit. -/
theorem lockTake_eq {s : State} {k : Nat} (l : Lock)
    (hk : ((List.range 384).find? fun k => (kget k s.queues.locks).isNone) = some k) :
    lockTake l s = poolTake pRangeLock l.studio 1
      { s with queues := { s.queues with line := s.queues.line.erase l, locks := kput k l s.queues.locks } } := by
  rw [lockTake, hk]

/-- A command whose checks 4 and 6 still pass once its lock is granted is ready (R298). -/
theorem granted_command {s : State} {l : Lock} {i : Nat} {x : Slot} {c : Cmd} (hkind : l.kind = .command)
    (hwork : l.work = .cmd i) (hx : slotGet i s = some x) (hc : x.cmd = some c)
    (howner : ownerCheck c (sqStudio x.sq) s = none) (hstate : stateCheck c s = none) :
    granted l s = slotPut i { x with stage := .ready } s := by
  simp [granted, hkind, hwork, hx, hc, howner, hstate]

theorem execLockGrant_takes {s : State} {l : Lock} (hrun : unitsRun s = true) (hl : grantable s = some l) :
    execLockGrant s = .next (granted l (lockTake l s)) := by
  simp [execLockGrant, onlyIf, hrun, hl]

/-- The transfer of an id has its DMA_DESC unit. -/
def Xfer.give (n : Nat) (x : Xfer) : Xfer := if x.id == n then { x with hasDesc := true } else x

theorem execPoolGrant_desc {s : State} {r : PoolReq} {n : Nat} (hrun : unitsRun s = true) (hr : poolReady pDesc s = some r)
    (huse : r.use = .dmaDesc n) : execPoolGrant pDesc s =
      .next (busRefresh { poolTake pDesc r.who r.n (poolUnwait r s) with dma := { s.dma with
        waiting := s.dma.waiting.map (Xfer.give n)
        chans := s.dma.chans.map fun k => { k with cur := k.cur.map (Xfer.give n) } } }) := by
  simp only [execPoolGrant, onlyIf, hrun, hr, huse]
  rfl

theorem execWritePauseRelease_asks {s : State} {i : Nat} {x : Slot} {c : Cmd} (hrun : queuesRun s = true)
    (hx : slotGet i s = some x) (hc : x.cmd = some c) (hstage : x.stage = .pressed)
    (hpress : mustPress c (sqStudio x.sq) s = false) : execWritePauseRelease i s = .next (cmdLock i x c s) := by
  simp [execWritePauseRelease, onlyIf, hrun, hx, hc, hstage, hpress]

end LocksAndPools

/-- Settles O28: the conflicts by the shared sector, and each grant by the equation of what it writes. -/
theorem locksAndPoolsAreGranted : Obligations.LocksAndPoolsAreGranted := by
  refine ⟨fun x y => ⟨Lock.conflicts_shared, ?_, ?_, ?_⟩, ?_, ?_, ?_⟩
  · exact fun harray hsector hexcl hfamily =>
      (x.conflicts_iff y).mpr ⟨(x.overlaps_iff y).mpr ⟨harray, hsector⟩, hexcl, hfamily⟩
  · exact fun hkind hwork => ⟨Lock.conflicts_family hwork (.inl hkind), Lock.conflicts_family hwork.symm (.inr hkind)⟩
  · intro hapart
    refine Lock.conflicts_apart (Bool.eq_false_iff.mpr fun hover => ?_)
    obtain ⟨harray, a, hx, hx', hy⟩ := (x.overlaps_iff y).mp hover
    exact hapart.elim (fun h => h harray) fun h => h a hx hx' hy
  · intro s l i x c hrun hl hkind hwork hx hc howner hstate k hk
    have htake := lockTake_eq l hk
    refine ⟨firstGrant_free hl, slotPut i { x with stage := .ready } (lockTake l s), ?_, ?_⟩
    · refine (execLockGrant_takes hrun hl).trans (congrArg _ ?_)
      rw [htake]
      exact granted_command hkind hwork hx hc howner hstate
    · rw [htake]
      exact ⟨kget_kput_same .., rfl, rfl, poolTake_free .., rfl⟩
  · intro s r n hrun hr huse
    exact ⟨_, execPoolGrant_desc hrun hr huse, rfl, poolTake_free .., rfl, rfl⟩
  · intro s i x c hrun hx hc hstage hop hpress
    obtain ⟨hslot, ⟨place, hline⟩, hrecs, hpages, hframe⟩ := cmdLock_asks i x c s
    refine ⟨_, execWritePauseRelease_asks hrun hx hc hstage hpress, hslot, ⟨_, hline, rfl, ?_, rfl, rfl, rfl⟩, hrecs,
      hpages, hframe⟩
    simp [lockOf, hop]

end Sys2Proof.Machine
end

section
/-! What a TICK period holds back (R561). A condition's record is read off once, as what `logAs` does where the period
does not hold it back; and a TICK step is followed through its parts with one invariant: the period has logged nothing,
and no port holds a failed operation whose retry could log. -/

namespace Sys2Proof.Machine

/-! ## A detected condition (R558 to R561) -/

theorem heldBack_iff (n : Nat) : heldBack n = true ↔ 0x10 ≤ n ∧ n ≤ 0x1C ∨ 0x22 ≤ n ∧ n ≤ 0x25 := by
  simp [heldBack]

@[simp] theorem logPush_thisTick (r : LogRec) (l : Log) : (logPush r l).thisTick = l.thisTick := by
  simp only [logPush]; split <;> rfl

@[simp] theorem counterInc_seqNext (e : Nat) (s : State) : (counterInc e s).log.seqNext = s.log.seqNext := rfl
@[simp] theorem counterInc_thisTick (e : Nat) (s : State) : (counterInc e s).log.thisTick = s.log.thisTick := rfl

/-- A condition that is not held back: the period keeps its code where R561 names it, and the log takes its record at the
next sequence number, with the TICK and node of its detection. -/
theorem logAs_logged (c : Code) (cls : LogClass) (st : Option (Fin 8)) (args : List Byte) (s : State)
    (h : ¬(heldBack c.info.1 = true ∧ BitVec.ofNat 8 c.info.1 ∈ s.log.thisTick)) :
    (logAs c cls st args s).log.thisTick =
        (if heldBack c.info.1 then BitVec.ofNat 8 c.info.1 :: s.log.thisTick else s.log.thisTick) ∧
      (logAs c cls st args s).log.seqNext = s.log.seqNext + 1 ∧
      (logAs c cls st args s).log.recs.head? =
        some ⟨BitVec.ofNat 8 c.info.1, cls, c.info.2.2, s.ident.node, s.log.seqNext, s.clk.tick.truncate 32, args⟩ := by
  have hnow : (heldBack c.info.1 && (counterInc c.info.1 s).log.thisTick.contains (BitVec.ofNat 8 c.info.1)) = false := by
    simpa using h
  simp only [logAs, hnow, Bool.false_eq_true, if_false]
  cases c.info.2.2 <;> simp

/-! ## A new TICK period -/

/-- The TICK period has logged no code that R561 holds back, and no port holds a failed operation for SDn_CD_N (R339). -/
structure FreshTick (s : State) : Prop where
  noneLogged : s.log.thisTick = []
  noneHeld : ∀ p, (portGet p s).heldFail = none

theorem FreshTick.congr {s t : State} (h : FreshTick s) (hlog : t.log.thisTick = s.log.thisTick)
    (hports : t.members.ports = s.members.ports) : FreshTick t :=
  ⟨hlog.trans h.noneLogged, fun p => by rw [portGet, hports]; exact h.noneHeld p⟩

theorem FreshTick.portPut {s : State} (h : FreshTick s) (p : Fin 8) {x : Port} (hx : x.heldFail = none) :
    FreshTick (portPut p x s) := by
  refine ⟨h.noneLogged, fun q => ?_⟩
  rw [portGet_portPut]
  split
  · exact hx
  · exact h.noneHeld q

@[simp] theorem discarded_thisTick (p : Pkt) (s : State) : (discarded p s).log.thisTick = s.log.thisTick := by
  simp only [discarded]; split <;> rfl

@[simp] theorem linkDown_thisTick (fb : Bool) (l : Link) (s : State) :
    (linkDown fb l s).log.thisTick = s.log.thisTick := by
  simp only [linkDown]
  refine (foldl_part (fun u : State => u.log.thisTick) _ (fun u p => ?_) _ _).trans (by simp)
  split <;> simp

/-- The core's move between its clocks logs nothing (R100, R101). -/
theorem FreshTick.clockMove {s : State} (h : FreshTick s) : FreshTick (clockMove s) := by
  unfold Machine.clockMove
  split
  · exact h
  · split
    · exact h.congr rfl rfl
    · exact h.congr (by simp [ringDark, irqSet, toXin]) (by simp [ringDark, toXin])

theorem FreshTick.portOn {s : State} (h : FreshTick s) (p : Fin 8) : FreshTick (portOn p s) := by
  have hput := h.portPut p (h.noneHeld p)
    (x := { portGet p s with powered := true, powerDue := false, cfg := (memGet (ownMember p s) s).cfg })
  exact hput.congr rfl rfl

/-- No TICK of a port that is off logs anything, its power-on included (R319). -/
theorem FreshTick.portTick {s : State} (h : FreshTick s) (p : Fin 8) : FreshTick (portTick p s) := by
  simp only [Machine.portTick]
  split
  · exact h
  · have hput := h.portPut p (x := { portGet p s with offTicks := min 1000 ((portGet p s).offTicks + 1) }) (h.noneHeld p)
    split
    · exact hput.portOn p
    · exact hput

/-- Only a failure that was held is retried. -/
theorem heldRetry_none {p : Fin 8} {s : State} (h : (portGet p s).heldFail = none) : heldRetry p s = s := by
  simp [heldRetry, h]

theorem FreshTick.onlyIf {s : State} (h : FreshTick s) (c : Bool) {f : State → State} (hf : FreshTick (f s)) :
    FreshTick (onlyIf c f s) := by
  cases c
  · exact h
  · exact hf

/-- A sample of SDn_CD_N logs nothing where no failure waits for it. -/
theorem FreshTick.sampleCd {s : State} (h : FreshTick s) (p : Fin 8) (low : Bool) : FreshTick (sampleCd p low s) := by
  have hput := fun low n => h.portPut p (x := { portGet p s with cdNow := low, cdCount := n }) (h.noneHeld p)
  refine (hput _ _).onlyIf _ ?_
  rw [heldRetry_none ((hput _ _).noneHeld p)]
  exact hput _ _

/-- A TICK step of a part that holds no failed operation opens a new period (R561). -/
theorem execTickStep_opens {s : State} (pins : PinLevels) (hrun : running s = true)
    (hheld : ∀ p, (portGet p s).heldFail = none) :
    ∃ t, execTickStep pins s = .next t ∧ t.log.thisTick = [] := by
  refine ⟨_, congrArg Host.Outcome.next (if_pos hrun), (congrArg Log.thisTick (busRefresh_log _)).trans ?_⟩
  refine (List.foldlRecOn (motive := FreshTick) _ _ (FreshTick.clockMove ?_) fun u hu p _ => ?_).noneLogged
  · exact ⟨rfl, hheld⟩
  · have hcd := hu.sampleCd p (pins.cd.getLsbD p.val)
    exact hcd.onlyIf _ (hcd.portTick p)

/-- Settles O57: what `logAs` does to a code that the period holds back and to every other one, and the TICK step's new
period. -/
theorem notesAreHeldBackWithinATick : Obligations.NotesAreHeldBackWithinATick := by
  refine ⟨fun c cls st args s => ?_, fun s pins hrun hheld => execTickStep_opens pins hrun hheld⟩
  simp only [← heldBack_iff]
  have hlogged := logAs_logged c cls st args s
  refine ⟨fun hrange => ⟨fun hmem => ?_, fun hmem => ?_⟩, fun hrange => ?_, fun hopen => ?_, ?_⟩
  · exact logAs_held c cls st args s (by simp [hrange, hmem])
  · obtain ⟨htick, -, -⟩ := hlogged fun ⟨_, hmem'⟩ => hmem hmem'
    rw [htick, if_pos hrange]
  · obtain ⟨htick, -, -⟩ := hlogged fun ⟨hrange', _⟩ => hrange hrange'
    rw [htick, if_neg hrange]
  · obtain ⟨-, hseq, hhead⟩ := hlogged (not_and_or.mpr hopen)
    exact ⟨hseq, _, hhead, rfl, rfl, rfl, rfl, rfl, rfl⟩
  · rw [counterGet_logAs _ _ _ _ _ _ c.info_ne_zero, if_pos rfl]

end Sys2Proof.Machine
end

section
/-! What no command but a few writes: the core's status, the level and both byte memories; and what no unit's work writes:
the queue of commands, the standby domain, the clocks, the SCRATCH registers and the control port's link. One lemma per
operation of the model says so, the operations of a unit after those that they call: `f_stays` where `f` leaves all of them
as they were, `f_steady` where it leaves the first four, `f_sound` where it writes a byte memory and keeps its canonical
form. The commands that move the level or the core have lemmas of their own, and every step upholds the two invariants. -/

namespace Sys2Proof.Machine

section Invariants

/-! ## What stays, and what keeps its form -/

/-- The core's status, the level and both byte memories are as they were. -/
@[reducible, simp] def Steady (s t : State) : Prop :=
  t.power.core = s.power.core ∧ t.restart.level = s.restart.level ∧ t.hbu.mailbox = s.hbu.mailbox ∧
    t.hbu.ringSram = s.hbu.ringSram

theorem Steady.refl (s : State) : Steady s s := ⟨rfl, rfl, rfl, rfl⟩

theorem Steady.trans {s t u : State} (h : Steady t u) (k : Steady s t) : Steady s u :=
  ⟨h.1.trans k.1, h.2.1.trans k.2.1, h.2.2.1.trans k.2.2.1, h.2.2.2.trans k.2.2.2⟩

/-- So are the queue of commands, the standby domain, the clocks, the SCRATCH registers and the control port's link. -/
@[reducible, simp] def Stays (s t : State) : Prop :=
  t.power.core = s.power.core ∧ t.restart.level = s.restart.level ∧ t.hbu.mailbox = s.hbu.mailbox ∧
    t.hbu.ringSram = s.hbu.ringSram ∧ t.pending = s.pending ∧ t.standby = s.standby ∧ t.clk = s.clk ∧
    t.scratch = s.scratch ∧ t.cport = s.cport

theorem Stays.refl (s : State) : Stays s s := ⟨rfl, rfl, rfl, rfl, rfl, rfl, rfl, rfl, rfl⟩

theorem Stays.trans {s t u : State} (h : Stays t u) (k : Stays s t) : Stays s u := by simp [h, k]

theorem Stays.steady {s t : State} (h : Stays s t) : Steady s t := by simp [h]

/-- The core's status and the level are as they were, and each byte memory that was in its canonical form still is. -/
@[reducible, simp] def Sound (s t : State) : Prop :=
  t.power.core = s.power.core ∧ t.restart.level = s.restart.level ∧
    (Memory.wf s.hbu.mailbox = true → Memory.wf t.hbu.mailbox = true) ∧
    (Memory.wf s.hbu.ringSram = true → Memory.wf t.hbu.ringSram = true)

theorem Steady.sound {s t : State} (h : Steady s t) : Sound s t := by simp [h]

theorem Stays.sound {s t : State} (h : Stays s t) : Sound s t := h.steady.sound

theorem Sound.trans {s t u : State} (h : Sound t u) (k : Sound s t) : Sound s u :=
  ⟨h.1.trans k.1, h.2.1.trans k.2.1, fun m => h.2.2.1 (k.2.2.1 m), fun m => h.2.2.2 (k.2.2.2 m)⟩

/-! The branches of a conditional, for each of them. -/

section Branches

variable (c : Prop) [Decidable c]
@[simp] theorem ite_core (a b : State) : (if c then a else b).power.core = if c then a.power.core else b.power.core :=
  apply_ite (fun s : State => s.power.core) c a b
@[simp] theorem ite_level (a b : State) :
    (if c then a else b).restart.level = if c then a.restart.level else b.restart.level :=
  apply_ite (fun s : State => s.restart.level) c a b
@[simp] theorem ite_mailbox (a b : State) : (if c then a else b).hbu.mailbox = if c then a.hbu.mailbox else
    b.hbu.mailbox :=
  apply_ite (fun s : State => s.hbu.mailbox) c a b
@[simp] theorem ite_ringSram (a b : State) :
    (if c then a else b).hbu.ringSram = if c then a.hbu.ringSram else b.hbu.ringSram :=
  apply_ite (fun s : State => s.hbu.ringSram) c a b
@[simp] theorem ite_pending (a b : State) : (if c then a else b).pending = if c then a.pending else b.pending :=
  apply_ite (fun s : State => s.pending) c a b
@[simp] theorem ite_standby (a b : State) : (if c then a else b).standby = if c then a.standby else b.standby :=
  apply_ite (fun s : State => s.standby) c a b
@[simp] theorem ite_clk (a b : State) : (if c then a else b).clk = if c then a.clk else b.clk :=
  apply_ite (fun s : State => s.clk) c a b
@[simp] theorem ite_scratch (a b : State) : (if c then a else b).scratch = if c then a.scratch else b.scratch :=
  apply_ite (fun s : State => s.scratch) c a b
@[simp] theorem ite_cport (a b : State) : (if c then a else b).cport = if c then a.cport else b.cport :=
  apply_ite (fun s : State => s.cport) c a b
@[simp] theorem Power.ite_core (a b : Power) : (if c then a else b).core = if c then a.core else b.core :=
    apply_ite _ c a b
@[simp] theorem Restart.ite_level (a b : Restart) : (if c then a else b).level = if c then a.level else b.level :=
  apply_ite _ c a b
@[simp] theorem Hbu.ite_mailbox (a b : Hbu) : (if c then a else b).mailbox = if c then a.mailbox else b.mailbox :=
  apply_ite _ c a b
@[simp] theorem Hbu.ite_ringSram (a b : Hbu) : (if c then a else b).ringSram = if c then a.ringSram else b.ringSram :=
  apply_ite _ c a b

end Branches

/-- Where the outcome is a next state, all four are as they were. -/
def KeepsSteady (s : State) (o : Out) : Prop := ∀ t, o = .next t → Steady s t

@[simp] theorem keepsSteady_next (s t : State) : KeepsSteady s (.next t) ↔ Steady s t := by simp [KeepsSteady]
@[simp] theorem keepsSteady_refused (s : State) (r : Refusal) : KeepsSteady s (.refused r) := by simp [KeepsSteady]

/-- Where the outcome is a next state, each byte memory keeps its form and the rest is as it was. -/
def KeepsSound (s : State) (o : Out) : Prop := ∀ t, o = .next t → Sound s t

theorem keepsSound_next {s t : State} : KeepsSound s (.next t) ↔ Sound s t := by simp [KeepsSound]

theorem onlyIf_sound (c : Bool) (f : State → State) (s : State) (h : Sound s (f s)) : Sound s (onlyIf c f s) := by
  cases c
  · exact (Steady.refl s).sound
  · exact h

theorem foldl_sound {α : Type} (g : State → α → State) (h : ∀ s a, Sound s (g s a)) (l : List α) (s : State) :
    Sound s (l.foldl g s) := by
  induction l generalizing s with
  | nil => exact (Steady.refl s).sound
  | cons a t ih => exact (ih _).trans (h s a)

@[simp] theorem onlyIf_steady (c : Bool) (f : State → State) (s : State) (h : Steady s (f s)) :
    Steady s (onlyIf c f s) := by
  cases c <;> simp [onlyIf, h]

@[simp] theorem onlyIf_stays (c : Bool) (f : State → State) (s : State) (h : Stays s (f s)) :
    Stays s (onlyIf c f s) := by
  cases c <;> simp [onlyIf, h]

theorem foldl_staysOn {α β : Type} (part : β → State) (g : β → α → β)
    (h : ∀ b a, Stays (part b) (part (g b a))) (l : List α) (b : β) : Stays (part b) (part (l.foldl g b)) := by
  induction l generalizing b with
  | nil => exact Stays.refl _
  | cons a t ih => exact (ih _).trans (h b a)

theorem foldl_stays {α : Type} (g : State → α → State) (h : ∀ s a, Stays s (g s a)) (l : List α) (s : State) :
    Stays s (l.foldl g s) := foldl_staysOn id g h l s

@[simp] theorem busRefresh_stays (s : State) : Stays s (busRefresh s) := by
  simp [busRefresh]
@[simp] theorem sirqSet_stays (st : Fin 8) (b : Nat) (s : State) : Stays s (sirqSet st b s) := by
  simp [sirqSet, aliasPut]
@[simp] theorem aliasPut_stays (i : Fin 8) (a : Alias) (s : State) : Stays s (aliasPut i a s) := by
  simp [aliasPut]
@[simp] theorem sendUp_stays (kind : Byte) (ch : Fin 3) (tag : Byte) (arg : Half) (flits : List Dword) (s : State)
    (classC : Bool) : Stays s (sendUp kind ch tag arg flits s classC) := by simp
@[simp] theorem canvasPut_stays (c : Canvas) (s : State) : Stays s (canvasPut c s) := by simp
@[simp] theorem createOp_stays (o : MOp) (s : State) : Stays s (createOp o s) := by simp
@[simp] theorem ringRequest_stays (k : BitVec 4) (kind : ReqKind) (s : State) :
    Stays s (ringRequest k kind s) := by simp
@[simp] theorem slotPut_stays (i : Nat) (x : Slot) (s : State) : Stays s (slotPut i x s) := by simp
@[simp] theorem poolGive_stays (i : Fin 20) (who : Option (Fin 8)) (n : Nat) (s : State) :
    Stays s (poolGive i who n s) := by simp
@[simp] theorem arrPut_stays (a : Fin 4) (x : Arr) (s : State) : Stays s (arrPut a x s) := by simp
@[simp] theorem flushPut_stays (f : Flush) (s : State) : Stays s (flushPut f s) := by simp
@[simp] theorem poolTake_stays (i : Fin 20) (who : Option (Fin 8)) (n : Nat) (s : State) :
    Stays s (poolTake i who n s) := by simp
@[simp] theorem poolMove_stays (i : Fin 20) (from' : Option (Fin 8)) (to' : Option (Fin 8)) (n : Nat) (s : State) :
    Stays s (poolMove i from' to' n s) := by simp
@[simp] theorem tilePut_stays (n : Nat) (t : Tile) (s : State) : Stays s (tilePut n t s) := by simp
@[simp] theorem layPut_stays (i : Fin 32) (l : Layer) (s : State) : Stays s (layPut i l s) := by simp
@[simp] theorem logRec_stays (c : Code) (args : List Byte) (s : State) : Stays s (logRec c args s) := by simp
@[simp] theorem memPut_stays (m : Fin 128) (x : Member) (s : State) : Stays s (memPut m x s) := by simp
@[simp] theorem portPut_stays (p : Fin 8) (x : Port) (s : State) : Stays s (portPut p x s) := by simp
@[simp] theorem progReq_stays (o : ProgOp) (s : State) : Stays s (progReq o s) := by simp
@[simp] theorem sqPut_stays (q : Fin 32) (x : Sq) (s : State) : Stays s (sqPut q x s) := by simp
@[simp] theorem cqPut_stays (q : Fin 32) (x : Cq) (s : State) : Stays s (cqPut q x s) := by simp
@[simp] theorem chanPut_stays (c : Fin 16) (x : Chan) (s : State) : Stays s (chanPut c x s) := by simp
@[simp] theorem studioPut_stays (i : Fin 8) (x : Studio) (s : State) : Stays s (studioPut i x s) := by simp
@[simp] theorem pathPut_stays (p : Path) (r : PathRegs) (s : State) : Stays s (pathPut p r s) := by simp
@[simp] theorem irqSet_stays (b : Nat) (s : State) : Stays s (irqSet b s) := by simp
@[simp] theorem logAs_stays (c : Code) (cls : LogClass) (studio : Option (Fin 8)) (args : List Byte) (s : State) :
    Stays s (logAs c cls studio args s) := by simp
@[simp] theorem nvCommit_stays (c : NvChange) (s : State) : Stays s (nvCommit c s) := by simp
@[simp] theorem counterInc_stays (e : Nat) (s : State) : Stays s (counterInc e s) := by simp
/-! ## Outcomes, guards and folds -/

/-! ## Shared operations (Machine/Ops) -/

@[simp] theorem bbPut_stays (slot : Nat) (r : BbRec) (s : State) : Stays s (bbPut slot r s) := by
  simp [bbPut]
@[simp] theorem bbTear_stays (page k : Nat) (s : State) : Stays s (bbTear page k s) := by simp [bbTear]
@[simp] theorem freeNext_stays (s : State) : Stays s (freeNext s).2 := by simp [freeNext]

/-! ## FAILSTOP, pools and the audit (Machine/Ledger) -/

@[simp] theorem poolAsk_stays (r : PoolReq) (s : State) : Stays s (poolAsk r s).2 := by
  simp only [poolAsk]
  split <;> simp
@[simp] theorem poolUnwait_stays (r : PoolReq) (s : State) : Stays s (poolUnwait r s) := by
  simp [poolUnwait]
/-! ## Pages and record slots (Machine/Journal) -/

@[simp] theorem forcedUpdate_stays (s : State) : Stays s (forcedUpdate s) := by
  simp [forcedUpdate]
theorem allocPage_stays {s r : State} {n : Nat} (h : allocPage s = some (n, r)) : Stays s r := by
  obtain ⟨_, _, h⟩ := Option.map_eq_some_iff.mp h
  cases h
  exact Stays.refl _
@[simp] theorem progNext_stays (s : State) : Stays s (progNext s) := by simp [progNext]
@[simp] theorem sessionPut_stays (opened : Bool) (s : State) : Stays s (sessionPut opened s) := by
  simp [sessionPut]
@[simp] theorem recPut_stays (slot : Nat) (f : Rec → Rec) (s : State) : Stays s (recPut slot f s) := by
  simp only [recPut]
  split <;> simp
@[simp] theorem freePages_stays (l : List Nat) (s : State) : Stays s (freePages l s) := by
  simp [freePages]
theorem allocRec_stays {s r : State} {n : Nat} (h : allocRec s = some (n, r)) : Stays s r := by
  obtain ⟨_, _, h⟩ := Option.map_eq_some_iff.mp h
  cases h
  exact Stays.refl _
@[simp] theorem reqSeal_stays (owner : Option Nat) (slot : Nat) (r : Rec) (s : State) :
    Stays s (reqSeal owner slot r s) := by
  simp [reqSeal]

/-! ## Canvas memory (Machine/Canvas) -/

@[simp] theorem tileDrop_stays (n : Nat) (s : State) : Stays s (tileDrop n s) := by
  simp only [tileDrop]
  split <;> simp
@[simp] theorem tier2Drop_stays (n : Nat) (s : State) : Stays s (tier2Drop n s) := by
  simp only [tier2Drop]
  split <;> simp
@[simp] theorem tilesDrop_stays (l : List Nat) (s : State) : Stays s (tilesDrop l s) := by
  simp [tilesDrop, foldl_stays]
@[simp] theorem dropWhere_stays (f : Bind → Bool) (s : State) : Stays s (dropWhere f s) := by
  simp [dropWhere, foldl_stays]
@[simp] theorem workDrop_stays (w : Work) (s : State) : Stays s (workDrop w s) := by simp [workDrop]
@[simp] theorem pageOut_stays (t : Tile) (s : State) : Stays s (pageOut t s) := by
  simp only [pageOut]
  (repeat' split) <;> simp
theorem allocTile_stays {who : Option (Fin 8)} {b : Bind} {pins : Nat} {s : State} {n : Nat} {u : State}
    (h : allocTile who b pins s = some (n, u)) : Stays s u := by
  simp only [allocTile] at h
  (repeat' split at h) <;> cases h <;> simp
@[simp] theorem sealTile_stays (st : Option (Fin 8)) (slot : Nat) (a : Fin 4) (tile : Nat) (mask : BitVec 8)
    (data : TileData) (s : State) : Stays s (sealTile st slot a tile mask data s) := by
  simp only [sealTile]
  (repeat' split) <;> simp
@[simp] theorem trimTiles_stays (a : Fin 4) (start count : Nat) (s : State) :
    Stays s (trimTiles a start count s) := by
  simp [trimTiles, foldl_stays]
@[simp] theorem cleanTiles_stays (s : State) : Stays s (cleanTiles s) := by simp [cleanTiles]

/-! ## Member operations and tile rows (Machine/Fetch) -/

@[simp] theorem dropOps_stays (f : MOp → Bool) (s : State) : Stays s (dropOps f s) := by simp [dropOps]
@[simp] theorem markFailed_stays (w : Work) (c : ChunkAt) (row : Nat) (s : State) :
    Stays s (markFailed w c row s) := by
  simp [markFailed]
@[simp] theorem waitTile_stays (w : Work) (who : Option (Fin 8)) (s : State) : Stays s (waitTile w who s) := by
  simp [waitTile]
@[simp] theorem askRaw_stays (p : Payer) (w : Work) (c : ChunkAt) (row : Nat) (s : State) :
    Stays s (askRaw p w c row s) := by
  simp only [askRaw]
  split
  · exact Stays.refl _
  · split
    · simp
    · split
      · simp
      · split
        · simp
        · exact (createOp_stays ..).trans (allocTile_stays ‹_›)
@[simp] theorem askSum_stays (p : Payer) (w : Work) (c : ChunkAt) (k : BitVec 4) (cs : List ChunkAt) (row : Nat)
    (s : State) : Stays s (askSum p w c k cs row s) := by
  simp only [askSum]
  split
  · exact Stays.refl _
  · split
    · simp
    · exact (ringRequest_stays ..).trans (allocTile_stays ‹_›)

theorem retouch_stays {p : Payer} {w : Work} {c : ChunkAt} {row : Nat} {s : State} {n : Need} {u : State}
    (h : retouch p w c row s = (n, u)) : Stays s u := by
  simp only [retouch] at h
  (repeat' split at h) <;> cases h
  · exact Stays.refl _
  all_goals
    refine foldl_stays _ (fun v k => ?_) _ _
    split <;> simp [foldl_stays]

@[simp] theorem noteMend_stays (c : ChunkAt) (row : Nat) (s : State) : Stays s (noteMend c row s) := by
  simp [noteMend]
@[simp] theorem mendOnce_stays (w : Work) (c : ChunkAt) (row : Nat) (s : State) : Stays s (mendOnce w c row s) := by
  simp [mendOnce]
theorem chunkTile_stays {p : Payer} {w : Work} {c : ChunkAt} {row : Nat} {s : State} {n : Need} {m : Bool}
    {u : State} (h : chunkTile p w c row s = (n, m, u)) : Stays s u := by
  simp only [chunkTile] at h
  split at h
  · split at h
    · cases h
      exact (mendOnce_stays ..).trans (retouch_stays ‹_›)
    · cases h
      exact retouch_stays ‹_›
  · split at h
    · cases h
      exact Stays.refl _
    · cases h
      simp
@[simp] theorem badPageNote_stays (slot page : Nat) (s : State) : Stays s (badPageNote slot page s) := by
  simp [badPageNote]
@[simp] theorem badPageNotes_stays (v : Vector Cov 8) (s : State) : Stays s (badPageNotes v s) := by
  simp [badPageNotes, foldl_stays]
theorem coveredTile_stays {v : Vector Cov 8} {p : Payer} {w : Work} {a : Fin 4} {tile : Nat} {want : BitVec 8}
    {s : State} {n : Need} {m : Bool} {u : State} (h : coveredTile v p w a tile want s = (n, m, u)) : Stays s u := by
  simp only [coveredTile] at h
  split at h
  · cases h
    exact Stays.refl _
  · split at h
    · cases h
      exact chunkTile_stays ‹_›
    · exact chunkTile_stays h
theorem currentTile_stays {p : Payer} {w : Work} {a : Fin 4} {tile : Nat} {want : BitVec 8} {s : State} {n : Need}
    {m : Bool} {u : State} (h : currentTile p w a tile want s = (n, m, u)) : Stays s u := by
  simp only [currentTile] at h
  split at h
  · cases h
    simp
  · exact coveredTile_stays h

/-! ## Commands in their slots and range locks (Machine/Slot) -/

@[simp] theorem lockRequest_stays (l : Lock) (s : State) : Stays s (lockRequest l s) := by
  simp [lockRequest]
@[simp] theorem lockTake_stays (l : Lock) (s : State) : Stays s (lockTake l s) := by
  simp only [lockTake]
  split <;> simp
@[simp] theorem lockDrop_stays (f : Lock → Bool) (s : State) : Stays s (lockDrop f s) := by
  simp [lockDrop, foldl_stays]

@[simp] theorem cmdRelease_stays (i : Nat) (s : State) : Stays s (cmdRelease i s) := by
  unfold cmdRelease
  split
  · exact Stays.refl _
  · simp
@[simp] theorem whistleBreak_stays (q : Fin 32) (s : State) : Stays s (whistleBreak q s) := by
  simp [whistleBreak]
@[simp] theorem kickOff_stays (q : Fin 32) (s : State) : Stays s (kickOff q s) := by simp [kickOff]
@[simp] theorem freezeQueue_stays (q : Fin 32) (x : Slot) (held : Option Nat) (cause : Bool) (s : State) :
    Stays s (freezeQueue q x held cause s) := by
  simp [freezeQueue]
@[simp] theorem xferNew_stays (k : XferKind) (st : Fin 8) (src dst : Side) (len : Nat) (s : State) :
    Stays s (xferNew k st src dst len s) := by
  simp [xferNew]
@[simp] theorem cmdDone_stays (i : Nat) (x : Slot) (s : State) : Stays s (cmdDone i x s) := by
  simp [cmdDone]
@[simp] theorem xferDrop_stays (f : Xfer → Bool) (s : State) : Stays s (xferDrop f s) := by
  simp [xferDrop, foldl_stays]
@[simp] theorem pioEnd_stays (i : Nat) (s : State) : Stays s (pioEnd i s) := by simp [pioEnd]
@[simp] theorem decideCmd_stays (i : Nat) (status detail : Byte) (result : Word) (s : State) :
    Stays s (decideCmd i status detail result s) := by
  simp only [decideCmd]
  (repeat' split) <;> simp
@[simp] theorem endCmd_stays (i : Nat) (status detail : Byte) (result : Word) (s : State) :
    Stays s (endCmd i status detail result s) := by
  simp only [endCmd]
  (repeat' split) <;> simp
@[simp] theorem endDrained_stays (i : Nat) (s : State) : Stays s (endDrained i s) := by
  simp only [endDrained]
  (repeat' split) <;> simp
@[simp] theorem failCmd_stays (i : Nat) (status detail : Byte) (s : State) : Stays s (failCmd i status detail s) := by
  simp [failCmd]

/-! ## Member states and lost members (Machine/Loss) -/

@[simp] theorem volsNote_stays (f : Vol → Bool) (s : State) : Stays s (volsNote f s) :=
  foldl_stays _ (fun u v => by split <;> simp) _ s
@[simp] theorem volsFollow_stays (a : Fin 4) (s : State) : Stays s (volsFollow a s) := by
  simp [volsFollow]
@[simp] theorem setArr_stays (a : Fin 4) (x : Arr) (s : State) : Stays s (setArr a x s) := by
  simp [setArr]
@[simp] theorem refreshArray_stays (a : Fin 4) (s : State) : Stays s (refreshArray a s) := by
  simp [refreshArray, foldl_stays]
@[simp] theorem genNext_stays (a : Fin 4) (s : State) : Stays s (genNext a s) := by
  simp [genNext]
@[simp] theorem advance_stays (a : Fin 4) (s : State) : Stays s (advance a s) := by simp [advance]
@[simp] theorem advancesDue_stays (s : State) : Stays s (advancesDue s) := by
  simp [advancesDue, foldl_stays]
@[simp] theorem flushesEnd_stays (a : Fin 4) (s : State) : Stays s (flushesEnd a s) := by
  simp [flushesEnd, foldl_stays]
@[simp] theorem volTrimDrop_stays (a : Fin 4) (s : State) : Stays s (volTrimDrop a s) := by
  simp [volTrimDrop]
@[simp] theorem backgroundEnd_stays (a : Fin 4) (s : State) : Stays s (backgroundEnd a s) := by
  simp [backgroundEnd]
@[simp] theorem cmdsOffline_stays (a : Fin 4) (s : State) : Stays s (cmdsOffline a s) :=
  foldl_stays _ (fun u x => by (repeat' split) <;> simp) _ s
@[simp] theorem goOffline_stays (a : Fin 4) (m1 m2 stripe : Nat) (s : State) :
    Stays s (goOffline a m1 m2 stripe s) := by
  simp [goOffline]
@[simp] theorem restoreSpares_stays (a : Fin 4) (role : Nat) (s : State) : Stays s (restoreSpares a role s) := by
  simp [restoreSpares]
@[simp] theorem restoreOnto_stays (a : Fin 4) (role : Nat) (m : Fin 128) (cause : Byte) (s : State) :
    Stays s (restoreOnto a role m cause s) := by
  simp [restoreOnto]
@[simp] theorem autoRestore_stays (a : Fin 4) (role : Nat) (lost : Fin 128) (s : State) :
    Stays s (autoRestore a role lost s) := by
  simp only [autoRestore]
  (repeat' split) <;> simp
@[simp] theorem repaintNote_stays (a : Fin 4) (s : State) : Stays s (repaintNote a s) := by
  simp [repaintNote]
@[simp] theorem bgUnwait_stays (a : Fin 4) (s : State) : Stays s (bgUnwait a s) := by simp [bgUnwait]
@[simp] theorem paintLoss_stays (a : Fin 4) (i : Nat) (m : Fin 128) (s : State) : Stays s (paintLoss a i m s) := by
  simp [paintLoss]
@[simp] theorem roleLost_stays (a : Fin 4) (i : Nat) (rs : RoleState) (m : Fin 128) (s : State) :
    Stays s (roleLost a i rs m s) := by
  unfold roleLost
  extract_lets x wasTarget lacked x'
  clear_value lacked x'
  split
  · simp
  split
  · simp
  split
  · simp
  split
  · simp
  cases lacked with
  | cons j t => simp
  | nil =>
    dsimp only
    split
    · split <;> simp +zetaDelta
    · refine (autoRestore_stays ..).trans ?_
      split <;> simp +zetaDelta
@[simp] theorem memberLost_stays (m : Fin 128) (rs : RoleState) (s : State) : Stays s (memberLost m rs s) := by
  simp only [memberLost]
  split <;> simp

/-! ## Flushing stripes (Machine/Flush) -/

@[simp] theorem progOnly_stays (s : State) : Stays s (progOnly s) := by
  simp only [progOnly]
  split <;> simp
@[simp] theorem addFlush_stays (f : Flush) (s : State) : Stays s (addFlush f s) := by
  simp [addFlush]
@[simp] theorem startFlush_stays (a : Fin 4) (new : Bool) (stripe : Nat) (s : State) :
    Stays s (startFlush a new stripe s) := by
  simp [startFlush]
@[simp] theorem flushRec_stays (r : Rec) (s : State) : Stays s (flushRec r s) := by
  simp [flushRec, foldl_stays]
@[simp] theorem flushWhere_stays (f : Rec → Bool) (s : State) : Stays s (flushWhere f s) := by
  simp [flushWhere, foldl_stays]
@[simp] theorem flushAll_stays (s : State) : Stays s (flushAll s) := by simp [flushAll]
@[simp] theorem trimApply_stays (slot : Nat) (s : State) : Stays s (trimApply slot s) := by
  simp only [trimApply]
  (repeat' split) <;> simp
@[simp] theorem recAdvance_stays (i : Nat) (r : Rec) (s : State) : Stays s (recAdvance i r s) := by
  simp only [recAdvance]
  split <;> simp
@[simp] theorem forcedFlush_stays (s : State) : Stays s (forcedFlush s) := by
  simp only [forcedFlush]
  (repeat' split) <;> simp
@[simp] theorem flushData_stays (f : Flush) (x row : Nat) (s : State) : Stays s (flushData f x row s).2 := by
  simp only [flushData]
  split
  · simp
  · split
    · simp
    · generalize ht : badPageNotes _ s = t
      have hnotes : Stays s t := ht ▸ badPageNotes_stays _ _
      have hchunk (p : Payer) (w : Work) (c : ChunkAt) (r : Nat) : Stays s (chunkTile p w c r t).2.2 :=
        (chunkTile_stays rfl).trans hnotes
      (repeat' split) <;> simp_all
@[simp] theorem tileLostNote_stays (a : Fin 4) (stripe row : Nat) (ms : List (Fin 128)) (s : State) :
    Stays s (tileLostNote a stripe row ms s) := by
  simp [tileLostNote]

@[simp] theorem rowData_stays (f : Flush) (row : Nat) (s : State) : Stays s (rowData f row s).2 := by
  have hdata := foldl_staysOn (fun acc : List (Nat × Need) × State => acc.2)
    (fun acc x => (acc.1 ++ [(x, (flushData f x row acc.2).1)], (flushData f x row acc.2).2))
    (fun acc x => flushData_stays f x row acc.2)
  simp only [rowData]
  split
  · exact hdata _ _
  · refine (foldl_staysOn (fun acc : _ × State => acc.2) _ (fun acc g => ?_) _ _).trans (hdata _ _)
    generalize List.foldl _ _ _ = data
    obtain ⟨n, u⟩ := acc
    obtain ⟨x, m⟩ := g
    cases n with
    | tiles l => cases m with
      | lost ms =>
        dsimp only
        (repeat' split) <;> simp
      | _ => exact Stays.refl _
    | _ => exact Stays.refl _

@[simp] theorem writeChunk_stays (w : Work) (a : Fin 4) (new : Bool) (stripe x : Nat) (rows : List (Nat × TileData))
    (s : State) : Stays s (writeChunk w a new stripe x rows s) := by
  simp [writeChunk, foldl_stays]

theorem askIntent_stays {f : Flush} {rows : List (Nat × TileData)} {s u : State} (h : askIntent f rows s = some u) :
    Stays s u := by
  simp only [askIntent, Option.ite_none_right_eq_some, Option.some.injEq] at h
  obtain ⟨-, rfl⟩ := h
  refine (flushPut_stays ..).trans
    ((foldl_staysOn (fun acc : List (Nat × Rec) × State => acc.2) _ (fun acc part => ?_) _ _).trans (by simp))
  have hpage := foldl_staysOn (fun acc : List (Nat × Nat) × State => acc.2)
    (fun acc x => match allocPage acc.2 with
        | none => acc
        | some (pg, s) => (acc.1 ++ [(pg, x.1)], progReq (.parity f.id pg ⟨0xFF, x.2, false⟩) s))
    (fun acc x => by
      split
      · exact Stays.refl _
      next h => exact (progReq_stays ..).trans (allocPage_stays h)) part ([], acc.2)
  split
  · exact hpage
  next h => exact (allocRec_stays h).trans hpage
theorem askIntent_getD_stays (f : Flush) (rows : List (Nat × TileData)) (s : State) :
    Stays s ((askIntent f rows s).getD s) := by
  cases h : askIntent f rows s with
  | none => exact Stays.refl _
  | some u => exact askIntent_stays h

@[simp] theorem endFlush_stays (f : Flush) (s : State) : Stays s (endFlush f s) := by simp [endFlush]
@[simp] theorem markFlushed_stays (f : Flush) (s : State) : Stays s (markFlushed f s) := by
  simp [markFlushed]
@[simp] theorem finishFlush_stays (f : Flush) (s : State) : Stays s (finishFlush f s) := by
  simp only [finishFlush]
  (repeat' split) <;> simp
@[simp] theorem zeroStripe_stays (f : Flush) (s : State) : Stays s (zeroStripe f s) :=
  foldl_stays _ (fun _ _ => foldl_stays _ (fun _ _ => createOp_stays ..) _ _) _ s
@[simp] theorem stepData_stays(f : Flush) (s : State) : Stays s (stepData f s).2.2 := by
  refine foldl_staysOn (fun acc : _ × _ × State => acc.2.2) _ (fun acc row => ?_) _ _
  dsimp only
  split <;> exact rowData_stays ..
@[simp] theorem issueWrites_stays (f : Flush) (data : List (Nat × List TileData)) (s : State) :
    Stays s (issueWrites f data s) := by
  simp [issueWrites, foldl_stays]
@[simp] theorem streamsAnew_stays (f : Flush) (s : State) : Stays s (streamsAnew f s) := by
  simp [streamsAnew]

@[simp] theorem flushStep_stays (f : Flush) (s : State) : Stays s (flushStep f s) := by
  unfold flushStep
  extract_lets w a dropped recs _ carried _ doneState _ g rowState _ marked
  have hdone : Stays s doneState := by simp [doneState, carried, dropped]
  have hmarked : Stays s marked := by
    simp only [marked]
    (repeat' split) <;> simp [rowState]
  have hstep : Stays s (stepData g marked).2.2 := by simp [hmarked]
  generalize stepData g marked = d at hstep
  obtain ⟨n, data, u⟩ := d
  clear_value doneState marked
  (repeat' split) <;> simp_all [askIntent_getD_stays]

@[simp] theorem execFlushAgeExpiry_keepsSteady (a : Fin 4) (stripe : Nat) (s : State) :
    KeepsSteady s (execFlushAgeExpiry a stripe s) := by
  simp only [execFlushAgeExpiry]
  (repeat' split) <;> simp [foldl_stays]
@[simp] theorem wordsAsk_stays (s : State) : Stays s (wordsAsk s) :=
  foldl_stays _ (fun u x => by (repeat' split) <;> simp) _ s
@[simp] theorem execFlushStep_keepsSteady (id : Nat) (s : State) : KeepsSteady s (execFlushStep id s) := by
  simp only [execFlushStep, onlyIf]
  (repeat' split) <;> simp
@[simp] theorem startVolTrim_stays (v : Fin 64) (s : State) : Stays s (startVolTrim v s) := by
  simp [startVolTrim]
@[simp] theorem volTrimsResume_stays (a : Fin 4) (s : State) : Stays s (volTrimsResume a s) := by
  simp [volTrimsResume, foldl_stays]
@[simp] theorem replayEnd_stays (a : Fin 4) (s : State) : Stays s (replayEnd a s) := by
  simp only [replayEnd]
  (repeat' split) <;> simp
@[simp] theorem retired_stays (slot : Nat) (s : State) : Stays s (retired slot s) := by
  simp only [retired]
  split <;> simp
@[simp] theorem execRetirement_keepsSteady (slot : Nat) (s : State) : KeepsSteady s (execRetirement slot s) := by
  simp [execRetirement]
@[simp] theorem execTrimStripeApply_keepsSteady (slot : Nat) (s : State) :
    KeepsSteady s (execTrimStripeApply slot s) := by
  simp [execTrimStripeApply]
@[simp] theorem flushEverything_stays (s : State) : Stays s (flushEverything s) := by
  simp [flushEverything, foldl_stays]
@[simp] theorem execTrimDoneUpdate_keepsSteady (slot : Nat) (s : State) :
    KeepsSteady s (execTrimDoneUpdate slot s) := by
  simp only [execTrimDoneUpdate]
  (repeat' split) <;> simp
@[simp] theorem execReplayStripe_keepsSteady (a : Fin 4) (stripe : Nat) (s : State) :
    KeepsSteady s (execReplayStripe a stripe s) := by
  simp only [execReplayStripe, onlyIf]
  (repeat' split) <;> simp
@[simp] theorem execTileMend_keepsSteady (s : State) : KeepsSteady s (execTileMend s) := by
  simp only [execTileMend, onlyIf]
  (repeat' split) <;> simp

/-! ## The program engine of the Sketchbook (Machine/Sketchbook) -/

@[simp] theorem writeProgress_stays (i : Nat) (s : State) : Stays s (writeProgress i s) := by
  simp only [writeProgress]
  (repeat' split) <;> try exact Stays.refl _
  next h => simp [allocRec_stays h]
@[simp] theorem pageRequest_stays (i tile : Nat) (s : State) : Stays s (pageRequest i tile s) := by
  simp only [pageRequest]
  (repeat' split) <;> try exact Stays.refl _
  next h => simp [allocPage_stays h]
@[simp] theorem writePageDone_stays (i pg : Nat) (p : Page) (s : State) : Stays s (writePageDone i pg p s) := by
  simp only [writePageDone]
  (repeat' split) <;> simp
@[simp] theorem parityPageDone_stays (f pg : Nat) (p : Page) (s : State) : Stays s (parityPageDone f pg p s) := by
  simp only [parityPageDone]
  (repeat' split) <;> simp [foldl_stays]
@[simp] theorem pageProgramDone_stays (s : State) : Stays s (pageProgramDone s) := by
  simp only [pageProgramDone]
  split <;> simp
@[simp] theorem mergeRecord_stays (owner : Nat) (r : Rec) (s : State) : Stays s (mergeRecord owner r s) :=
  foldl_stays _ (fun u x => by (repeat' split) <;> simp) _ s
@[simp] theorem flushFull_stays (r : Rec) (s : State) : Stays s (flushFull r s) := by
  simp [flushFull, foldl_stays]
@[simp] theorem trimFull_stays (slot : Nat) (r : Rec) (s : State) : Stays s (trimFull slot r s) := by
  simp [trimFull]
@[simp] theorem sealCommand_stays (i : Nat) (r : Rec) (s : State) : Stays s (sealCommand i r s) := by
  simp only [sealCommand]
  (repeat' split) <;> simp
theorem volTrimSeal_stays {v : Fin 64} {start : Nat} {s : State} {n : Bool} {u : State} (h : volTrimSeal v start s =
    (n, u)) : Stays s u := by
  simp only [volTrimSeal] at h
  split at h
  · cases h
    exact Stays.refl _
  · split at h
    · cases h
      exact Stays.refl _
    · cases h
      exact (reqSeal_stays ..).trans ((forcedUpdate_stays _).trans ((poolTake_stays ..).trans (allocRec_stays ‹_›)))
@[simp] theorem volTrimNext_stays (v : Fin 64) (start : Nat) (s : State) : Stays s (volTrimNext v start s) := by
  grind [volTrimNext, lockDrop_stays, startVolTrim_stays, volTrimSeal_stays]
@[simp] theorem volTrimSealed_stays (r : Rec) (s : State) : Stays s (volTrimSealed r s) := by
  simp [volTrimSealed]
@[simp] theorem landed_stays (tag epoch : Byte) (s : State) : Stays s (landed tag epoch s) := by
  simp only [landed]
  split <;> simp
@[simp] theorem recordSeal_stays (s : State) : Stays s (recordSeal s) := by
  simp only [recordSeal]
  (repeat' split) <;> simp
@[simp] theorem execPageProgramDone_keepsSteady (s : State) : KeepsSteady s (execPageProgramDone s) := by
  simp only [execPageProgramDone]
  (repeat' split) <;> simp
@[simp] theorem execRecordSeal_keepsSteady (s : State) : KeepsSteady s (execRecordSeal s) := by
  simp only [execRecordSeal]
  (repeat' split) <;> simp
@[simp] theorem skbCtrlWrite_stays (lanes : Lanes) (data : Word) (s : State) :
    Stays s (skbCtrlWrite lanes data s) := by
  simp only [skbCtrlWrite]
  (repeat' split) <;> simp

/-! ## Background passes (Machine/Background) -/

@[simp] theorem stripeClean_stays (a : Fin 4) (new : Bool) (t : Nat) (s : State) :
    Stays s (stripeClean a new t s).2 := by
  simp only [stripeClean]
  (repeat' split) <;> simp
@[simp] theorem stepReady_stays (a : Fin 4) (new : Bool) (t : Nat) (k : LockKind) (s : State) :
    Stays s (stepReady a new t k s).2 := by
  simp only [stepReady]
  (repeat' split) <;> simp
@[simp] theorem stepDone_stays (a : Fin 4) (s : State) : Stays s (stepDone a s) := by simp [stepDone]
@[simp] theorem keepRaw_stays (p : Payer) (w : Work) (c : ChunkAt) (row : Nat) (t : TileData) (s : State) :
    Stays s (keepRaw p w c row t s) := by
  simp only [keepRaw]
  split
  · simp
  · split
    · exact allocTile_stays ‹_›
    · exact (tilePut_stays ..).trans (allocTile_stays ‹_›)
@[simp] theorem dropOthers_stays (w : Work) (c : ChunkAt) (row : Nat) (s : State) :
    Stays s (dropOthers w c row s) := by
  simp [dropOthers]

theorem salvageRow_stays {a : Fin 4} {c : ChunkAt} {row : Nat} {ms : List (Fin 128)} {s : State}
    {n : Option TileData} {u : State} (h : salvageRow a c row ms s = (n, u)) : Stays s u := by
  simp only [salvageRow] at h
  have hask := foldl_stays (fun s d => if unobtainable (bgWork a) d row s then s else askRaw .system (bgWork a)
    d row s)
    (fun s a => by split <;> simp) (others c s) s
  split at h
  · cases h
    exact hask
  · cases h
    have hzero := foldl_stays (fun s x => if x != c.pos && rawFailed (bgWork a) { c with pos := x } row s then
      writeChunk (bgWork a) a c.newRegion c.stripe x [(row, zeroTile)] s else s) (fun s x => by split <;> simp)
    refine (tileLostNote_stays ..).trans ?_
    split
    · exact (hzero _ _).trans hask
    · exact (writeChunk_stays ..).trans ((hzero _ _).trans hask)
@[simp] theorem obtainRow_stays (a : Fin 4) (c : ChunkAt) (row : Nat) (s : State) :
    Stays s (obtainRow a c row s).2 := by
  simp only [obtainRow]
  rcases hc : chunkTile .system (bgWork a) c row s with ⟨n, f, u⟩
  have hu := chunkTile_stays hc
  (repeat' split) <;> simp [hu]
  · next h => exact (salvageRow_stays h).trans hu
  · next h => exact (salvageRow_stays h).trans hu
@[simp] theorem moveChunk_stays (a : Fin 4) (c : ChunkAt) (target : Fin 128) (s : State) :
    Stays s (moveChunk a c target s) := by
  simp only [moveChunk]
  have h := foldl_staysOn (fun acc : Bool × State => acc.2)
    (fun acc row => if acc.1 then obtainRow a c row acc.2 else acc) (fun acc row => by split <;> simp)
    (List.range ((arrGet a s).shapeAt c.newRegion).tiles) (true, s)
  (repeat' split) <;> simp [h]

@[simp] theorem restorationStep_stays (a : Fin 4) (s : State) : Stays s (restorationStep a s) := by
  simp only [restorationStep]
  (repeat' split) <;> simp
@[simp] theorem execRestorationStep_keepsSteady (a : Fin 4) (s : State) : KeepsSteady s (execRestorationStep a s) := by
  simp [execRestorationStep]
@[simp] theorem repaintReturn_stays (a : Fin 4) (s : State) : Stays s (repaintReturn a s) := by
  simp [repaintReturn]
@[simp] theorem restorationEnd_stays (a : Fin 4) (s : State) : Stays s (restorationEnd a s) := by
  simp only [restorationEnd]
  split <;> simp
@[simp] theorem copyBackStep_stays (a : Fin 4) (s : State) : Stays s (copyBackStep a s) := by
  simp only [copyBackStep]
  (repeat' split) <;> simp
@[simp] theorem execCopyBackStep_keepsSteady (a : Fin 4) (s : State) : KeepsSteady s (execCopyBackStep a s) := by
  simp [execCopyBackStep]
@[simp] theorem copyBackEnd_stays (a : Fin 4) (s : State) : Stays s (copyBackEnd a s) := by
  simp [copyBackEnd]
@[simp] theorem checkRow_stays (p : Payer) (w : Work) (a : Fin 4) (new : Bool) (t row : Nat) (s : State) :
    Stays s (checkRow p w a new t row s).2 := by
  simp only [checkRow]
  (repeat' split) <;> simp [foldl_stays]
@[simp] theorem correctRow_stays (a : Fin 4) (new : Bool) (t row : Nat) (s : State) :
    Stays s (correctRow a new t row s) := by
  simp [correctRow]
@[simp] theorem inspectionStep_stays (a : Fin 4) (s : State) : Stays s (inspectionStep a s) := by
  simp only [inspectionStep]
  (repeat' split) <;> simp
@[simp] theorem execInspectionStep_keepsSteady (a : Fin 4) (s : State) : KeepsSteady s (execInspectionStep a s) := by
  simp [execInspectionStep]
@[simp] theorem inspectionEnd_stays (a : Fin 4) (s : State) : Stays s (inspectionEnd a s) := by
  simp [inspectionEnd]
@[simp] theorem passFinish_keepsSteady (a : Fin 4) (k : BitVec 4) (s : State) : KeepsSteady s (passFinish a k s) := by
  simp [passFinish]
@[simp] theorem passEnd_stays (a : Fin 4) (s : State) : Stays s (passEnd a s) := by
  simp [passEnd]
@[simp] theorem execRestorationFinish_keepsSteady (a : Fin 4) (s : State) :
    KeepsSteady s (execRestorationFinish a s) := by
  simp [execRestorationFinish]
@[simp] theorem execCopyBackFinish_keepsSteady (a : Fin 4) (s : State) : KeepsSteady s (execCopyBackFinish a s) := by
  simp [execCopyBackFinish]
@[simp] theorem execInspectionFinish_keepsSteady (a : Fin 4) (s : State) :
    KeepsSteady s (execInspectionFinish a s) := by
  simp [execInspectionFinish]
@[simp] theorem frontEnd_stays (a : Fin 4) (m : Nat) (s : State) : Stays s (frontEnd a m s) := by
  simp [frontEnd, foldl_stays]
@[simp] theorem frontCommit_stays (a : Fin 4) (s : State) : Stays s (frontCommit a s) := by
  simp [frontCommit]
@[simp] theorem execWatermarkCommit_keepsSteady (a : Fin 4) (s : State) : KeepsSteady s (execWatermarkCommit a s) := by
  simp [execWatermarkCommit]
@[simp] theorem markEnd_stays (a : Fin 4) (m : Nat) (s : State) : Stays s (markEnd a m s) := by
  simp [markEnd]
@[simp] theorem execBackgroundCheckpoint_keepsSteady (a : Fin 4) (s : State) :
    KeepsSteady s (execBackgroundCheckpoint a s) := by
  simp [execBackgroundCheckpoint]

/-! ## Repaint (Machine/Repaint) -/

@[simp] theorem copyTile_stays (a : Fin 4) (tile : Nat) (s : State) : Stays s (copyTile a tile s).2 := by
  simp only [copyTile]
  split
  · exact Stays.refl _
  · split
    · exact coveredTile_stays rfl
    · exact (badPageNotes_stays ..).trans (coveredTile_stays rfl)
@[simp] theorem copyRow_stays (a : Fin 4) (new : Bool) (t row : Nat) (s : State) :
    Stays s (copyRow a new t row s).2 := by
  refine foldl_staysOn (fun acc : _ × State => acc.2) _ (fun acc row => ?_) _ _
  dsimp only
  split <;> simp
@[simp] theorem copyDone_stays (a : Fin 4) (new : Bool) (t : Nat) (s : State) : Stays s (copyDone a new t s) := by
  simp only [copyDone]
  (repeat' split) <;> simp

@[simp] theorem copyStep_stays (a : Fin 4) (new : Bool) (t : Nat) (s : State) : Stays s (copyStep a new t s) := by
  unfold copyStep
  extract_lets x w h rows
  split
  · split <;> simp
  split
  · (repeat' split) <;> simp
  split
  next n data v hv =>
    have hs : Stays s v := by
      have hacc : (_ : State) = v := congrArg (fun acc : _ × _ × State => acc.2.2) hv
      rw [← hacc]
      refine foldl_staysOn (fun acc : RowNeed × List (Nat × List TileData) × State => acc.2.2) _
        (fun acc row => ?_) _ _
      split
      · dsimp only
        (repeat' split) <;> simp
      · exact Stays.refl _
      · exact Stays.refl _
    split
    · exact hs
    · simp [hs]
    · simp [hs, foldl_stays]
@[simp] theorem execRepaintCopyStep_keepsSteady (a : Fin 4) (s : State) : KeepsSteady s (execRepaintCopyStep a s) := by
  simp [execRepaintCopyStep]
@[simp] theorem execReturnStep_keepsSteady (a : Fin 4) (s : State) : KeepsSteady s (execReturnStep a s) := by
  simp [execReturnStep]
@[simp] theorem readsFlip_stays (a : Fin 4) (s : State) : Stays s (readsFlip a s) := by simp [readsFlip]
@[simp] theorem verifiesAnew_stays (a : Fin 4) (s : State) : Stays s (verifiesAnew a s) := by
  simp [verifiesAnew, foldl_stays]
@[simp] theorem regionEnd_stays (a : Fin 4) (new : Bool) (s : State) : Stays s (regionEnd a new s) := by
  simp [regionEnd, foldl_stays]
@[simp] theorem cutoverEnd_stays (a : Fin 4) (s : State) : Stays s (cutoverEnd a s) := by
  simp [cutoverEnd]
@[simp] theorem execCutover_keepsSteady (a : Fin 4) (s : State) :
    KeepsSteady s (execCutover a s) := by simp [execCutover]
@[simp] theorem sigWrite_stays (m : Fin 128) (s : State) : Stays s (sigWrite m s) := by simp [sigWrite]
@[simp] theorem backEnd_stays (a : Fin 4) (s : State) : Stays s (backEnd a s) := by
  simp [backEnd, foldl_stays]
@[simp] theorem execReturnEnd_keepsSteady (a : Fin 4) (s : State) : KeepsSteady s (execReturnEnd a s) := by
  simp [execReturnEnd]

/-! ## DMA channels and transfers (Machine/Dma) -/

@[simp] theorem descGive_stays (x : Xfer) (s : State) : Stays s (descGive x s) := by
  simp [descGive]
@[simp] theorem hbFlag_stays (b : Nat) (s : State) : Stays s (hbFlag b s) := by simp [hbFlag]
@[simp] theorem noteMiss_stays (st : Fin 8) (a : Nat) (s : State) : Stays s (noteMiss st a s) := by
  simp [noteMiss]
@[simp] theorem noteBus_stays (detail : Byte) (addr : Nat) (s : State) : Stays s (noteBus detail addr s) := by
  simp [noteBus]
@[simp] theorem chanFree_stays (c : Fin 16) (s : State) : Stays s (chanFree c s) := by simp [chanFree]
@[simp] theorem xferEnd_stays (c : Fin 16) (x : Xfer) (s : State) : Stays s (xferEnd c x s) := by
  simp [xferEnd]
@[simp] theorem noteFault_stays (c : Fin 16) (status detail : Byte) (s : State) :
    Stays s (noteFault c status detail s) := by
  simp [noteFault]
@[simp] theorem chanHalt_stays (c : Fin 16) (s : State) : Stays s (chanHalt c s) := by
  simp [chanHalt]
@[simp] theorem slotFree_stays (i : Nat) (s : State) : Stays s (slotFree i s) := by
  simp only [slotFree]
  (repeat' split) <;> simp
@[simp] theorem completionFault_stays (i addr : Nat) (s : State) : Stays s (completionFault i addr s) := by
  simp only [completionFault]
  (repeat' split) <;> simp [foldl_stays]
@[simp] theorem xferFault_stays (c : Fin 16) (status detail : Byte) (s : State) :
    Stays s (xferFault c status detail s) := by
  simp only [xferFault]
  (repeat' split) <;> simp
@[simp] theorem busFault_stays (c : Fin 16) (detail : Byte) (addr : Nat) (s : State) :
    Stays s (busFault c detail addr s) := by
  simp [busFault]
@[simp] theorem placeOn_stays (c : Fin 16) (x : Xfer) (s : State) : Stays s (placeOn c x s) := by
  simp [placeOn]
@[simp] theorem execDmaPlace_keepsSteady (s : State) : KeepsSteady s (execDmaPlace s) := by
  simp only [execDmaPlace, onlyIf]
  (repeat' split) <;> simp
@[simp] theorem softLook_stays (c : Fin 16) (s : State) : Stays s (softLook c s) := by simp [softLook]
@[simp] theorem kick_stays (c : Fin 16) (s : State) : Stays s (kick c s) := by
  simp only [kick]
  (repeat' split) <;> simp
@[simp] theorem kickAll_stays (mask : Half) (s : State) : Stays s (kickAll mask s) := by
  simp [kickAll, foldl_stays]
@[simp] theorem dmaEnable_stays (b : Bool) (s : State) : Stays s (dmaEnable b s) := by simp [dmaEnable]
@[simp] theorem dmaGctrlWrite_stays (lanes : Lanes) (data : Word) (s : State) :
    Stays s (dmaGctrlWrite lanes data s) := by
  simp [dmaGctrlWrite]
@[simp] theorem execDmaPollTimer_keepsSteady (c : Fin 16) (s : State) : KeepsSteady s (execDmaPollTimer c s) := by
  simp [execDmaPollTimer]
@[simp] theorem execBusGranted_keepsSteady (s : State) : KeepsSteady s (execBusGranted s) := by simp [execBusGranted]
@[simp] theorem execGrantWithdrawn_keepsSteady (s : State) : KeepsSteady s (execGrantWithdrawn s) := by
  simp [execGrantWithdrawn]
@[simp] theorem tenureCycle_stays (s : State) : Stays s (tenureCycle s) := by
  simp only [tenureCycle]
  (repeat' split) <;> simp
@[simp] theorem execReleaseGapExpiry_keepsSteady (s : State) : KeepsSteady s (execReleaseGapExpiry s) := by
  simp [execReleaseGapExpiry]

/-! ## The queue engine (Machine/Queue) -/

@[simp] theorem doorbellBad_stays (q : Fin 32) (off : Nat) (data : Word) (s : State) :
    Stays s (doorbellBad q off data s) := by
  simp [doorbellBad]
@[simp] theorem sqTail_stays (q : Fin 32) (data : Word) (s : State) : Stays s (sqTail q data s) := by
  simp [sqTail]
@[simp] theorem cqHead_stays (q : Fin 32) (data : Word) (s : State) : Stays s (cqHead q data s) := by
  simp [cqHead]
@[simp] theorem execSqTailDoorbell_keepsSteady (q : Fin 32) (data : Word) (s : State) :
    KeepsSteady s (execSqTailDoorbell q data s) := by
  simp [execSqTailDoorbell]
@[simp] theorem execCqHeadDoorbell_keepsSteady (q : Fin 32) (data : Word) (s : State) :
    KeepsSteady s (execCqHeadDoorbell q data s) := by
  simp [execCqHeadDoorbell]
@[simp] theorem pick_stays (q : Fin 32) (i : Nat) (s : State) : Stays s (pick q i s) := by
  simp [pick]
@[simp] theorem execQueuePick_keepsSteady (s : State) : KeepsSteady s (execQueuePick s) := by
  simp only [execQueuePick, onlyIf]
  (repeat' split) <;> simp
@[simp] theorem cmdLock_stays (i : Nat) (x : Slot) (c : Cmd) (s : State) : Stays s (cmdLock i x c s) := by
  simp [cmdLock]
@[simp] theorem dispatch_stays (i : Nat) (x : Slot) (c : Cmd) (s : State) : Stays s (dispatch i x c s) := by
  simp only [dispatch]
  (repeat' split) <;> simp
@[simp] theorem checkCmd_stays (i : Nat) (x : Slot) (b : List Byte) (s : State) : Stays s (checkCmd i x b s) := by
  simp only [checkCmd]
  split <;> simp
@[simp] theorem commandFetched_stays (i : Nat) (s : State) : Stays s (commandFetched i s) := by
  simp only [commandFetched]
  (repeat' split) <;> simp
@[simp] theorem execCommandFetched_keepsSteady (i : Nat) (s : State) : KeepsSteady s (execCommandFetched i s) := by
  simp [execCommandFetched]
@[simp] theorem execWritePauseRelease_keepsSteady (i : Nat) (s : State) :
    KeepsSteady s (execWritePauseRelease i s) := by
  simp only [execWritePauseRelease, onlyIf]
  (repeat' split) <;> simp
@[simp] theorem granted_stays (l : Lock) (s : State) : Stays s (granted l s) := by
  simp only [granted]
  (repeat' split) <;> simp
@[simp] theorem execLockGrant_keepsSteady (s : State) : KeepsSteady s (execLockGrant s) := by
  simp only [execLockGrant, onlyIf]
  (repeat' split) <;> simp
@[simp] theorem postHeld_stays (q : Fin 32) (s : State) : Stays s (postHeld q s) := by
  simp only [postHeld]
  (repeat' split) <;> simp
@[simp] theorem retryHeld_stays (q : Fin 32) (s : State) : Stays s (retryHeld q s) := by
  simp only [retryHeld]
  (repeat' split) <;> simp
@[simp] theorem sqRun_stays (q : Fin 32) (s : State) : Stays s (sqRun q s) := by simp [sqRun]
@[simp] theorem sqResume_stays (q : Fin 32) (data : Word) (s : State) : Stays s (sqResume q data s) := by
  simp only [sqResume]
  (repeat' split) <;> simp
@[simp] theorem execSqResumeNext_keepsSteady (q : Fin 32) (slot : BitVec 10) (s : State) :
    KeepsSteady s (execSqResumeNext q slot s) := by
  simp [execSqResumeNext]
@[simp] theorem execSqResumeRetry_keepsSteady (q : Fin 32) (slot : BitVec 10) (s : State) :
    KeepsSteady s (execSqResumeRetry q slot s) := by
  simp [execSqResumeRetry]
@[simp] theorem execSqResumeDiscard_keepsSteady (q : Fin 32) (slot : BitVec 10) (s : State) :
    KeepsSteady s (execSqResumeDiscard q slot s) := by
  simp [execSqResumeDiscard]
@[simp] theorem coalesce_stays (st : Fin 8) (now : Bool) (s : State) : Stays s (coalesce st now s) := by
  simp [coalesce]
@[simp] theorem heldPosted_stays (i : Nat) (q : Fin 32) (s : State) : Stays s (heldPosted i q s) := by
  simp [heldPosted, foldl_stays]
@[simp] theorem completed_stays (i : Nat) (x : Slot) (s : State) : Stays s (completed i x s) := by
  simp [completed]
@[simp] theorem cqAdvance_stays (c : Fin 32) (s : State) : Stays s (cqAdvance c s) := by simp [cqAdvance]
@[simp] theorem postDone_stays (i : Nat) (x : Slot) (s : State) : Stays s (postDone i x s) := by
  simp [postDone]
@[simp] theorem execCoalesceTimerExpiry_keepsSteady (st : Fin 8) (s : State) :
    KeepsSteady s (execCoalesceTimerExpiry st s) := by
  simp [execCoalesceTimerExpiry]
@[simp] theorem sqDisable_stays (q : Fin 32) (s : State) : Stays s (sqDisable q s) := by
  simp [sqDisable]

/-! ## Queue commands (Machine/Commands) -/

@[simp] theorem nopRun_stays (i : Nat) (s : State) : Stays s (nopRun i s) := by
  simp only [nopRun]
  split <;> simp
@[simp] theorem trimRun_stays (i : Nat) (s : State) : Stays s (trimRun i s) := by
  simp only [trimRun]
  split
  · exact Stays.refl _
  · split
    · exact Stays.refl _
    · exact (reqSeal_stays ..).trans ((slotPut_stays ..).trans (allocRec_stays ‹_›))
@[simp] theorem execTrim_keepsSteady (i : Nat) (s : State) : KeepsSteady s (execTrim i s) := by simp [execTrim]
@[simp] theorem flushRun_stays (i : Nat) (s : State) : Stays s (flushRun i s) := by
  simp only [flushRun]
  (repeat' split) <;> simp [foldl_stays]
@[simp] theorem execFlush_keepsSteady (i : Nat) (s : State) : KeepsSteady s (execFlush i s) := by simp [execFlush]
@[simp] theorem flushComplete_stays (i : Nat) (s : State) : Stays s (flushComplete i s) := by
  simp only [flushComplete]
  (repeat' split) <;> simp
@[simp] theorem execFlushComplete_keepsSteady (i : Nat) (s : State) : KeepsSteady s (execFlushComplete i s) := by
  simp [execFlushComplete]
@[simp] theorem whistleRun_stays (i : Nat) (s : State) : Stays s (whistleRun i s) := by
  simp only [whistleRun]
  split <;> simp
@[simp] theorem execWhistleCommand_keepsSteady (i : Nat) (s : State) : KeepsSteady s (execWhistleCommand i s) := by
  simp [execWhistleCommand]
@[simp] theorem whistleComplete_stays (i : Nat) (s : State) : Stays s (whistleComplete i s) := by
  simp only [whistleComplete]
  (repeat' split) <;> simp
@[simp] theorem execWhistleComplete_keepsSteady (i : Nat) (s : State) : KeepsSteady s (execWhistleComplete i s) := by
  simp [execWhistleComplete]

theorem fillTile_stays {i : Nat} {x : Slot} {a : Fin 4} {tile : Nat} {s : State} {n : Nat} {m : Tile} {u : State}
    (h : fillTile i x a tile s = some (n, m, u)) : Stays s u := by
  simp only [fillTile] at h
  split at h
  · cases h; exact Stays.refl _
  · split at h
    · cases h
    · split at h
      · cases h
      next ha =>
        obtain ⟨_, _, ht⟩ := Option.map_eq_some_iff.mp h
        cases ht
        exact allocTile_stays ha

theorem writeBytes_stays {i pos : Nat} {l : List Byte} {s : State}  {u : State} (h : writeBytes i pos l s = some u) :
    Stays s u := by
  simp only [writeBytes] at h
  split at h
  · cases h
  · split at h
    · cases h
    · have hfill := fillTile_stays ‹_›
      split at h <;> cases h
      · exact (pageRequest_stays ..).trans ((tilePut_stays ..).trans ((slotPut_stays ..).trans hfill))
      · exact (tilePut_stays ..).trans ((slotPut_stays ..).trans hfill)
theorem readNeed_stays {i : Nat} {x : Slot} {c : Cmd} {s : State} {n : Need} {m : Bool} {u : State}
    (h : readNeed i x c s = (n, m, u)) : Stays s u := by
  grind [readNeed, currentTile_stays]
@[simp] theorem keepTile_stays (w : Work) (a : Fin 4) (tile : Nat) (data : TileData) (s : State) :
    Stays s (keepTile w a tile data s) := by
  simp only [keepTile]
  split <;> simp
@[simp] theorem readMoved_stays (i stop : Nat) (s : State) : Stays s (readMoved i stop s) := by
  simp only [readMoved]
  split
  · exact Stays.refl _
  · split
    case' isTrue => refine (decideCmd_stays ..).trans ((slotPut_stays ..).trans ?_)
    case' isFalse => refine (slotPut_stays ..).trans ?_
    all_goals
      split
      · split
        · exact (keepTile_stays ..).trans (readNeed_stays ‹_›)
        · exact Stays.refl _
      · exact Stays.refl _
@[simp] theorem fifoStart_stays (i : Nat) (x : Slot) (c : Cmd) (s : State) : Stays s (fifoStart i x c s) := by
  simp [fifoStart]
@[simp] theorem fifoFill_stays (i : Nat) (s : State) : Stays s (fifoFill i s) := by
  simp only [fifoFill]
  (repeat' split) <;> simp
@[simp] theorem fifoTake_stays (i : Nat) (s : State) : Stays s (fifoTake i s) := by
  simp only [fifoTake]
  (repeat' split) <;> try exact Stays.refl _
  next h => simp [writeBytes_stays h]
@[simp] theorem startData_stays (i : Nat) (x : Slot) (c : Cmd) (s : State) : Stays s (startData i x c s) := by
  simp only [startData]
  (repeat' split) <;> simp
@[simp] theorem writeRun_stays (i : Nat) (s : State) : Stays s (writeRun i s) := by
  simp only [writeRun]
  split <;> simp
@[simp] theorem internalNote_stays (x : Slot) (s : State) : Stays s (internalNote x s) := by
  simp [internalNote]
@[simp] theorem writeInternal_stays (i : Nat) (s : State) : Stays s (writeInternal i s) := by
  simp only [writeInternal]
  split <;> simp
@[simp] theorem execWrite_keepsSteady (run : SlotRun) (s : State) : KeepsSteady s (execWrite run s) := by
  simp only [execWrite]
  split <;> simp
@[simp] theorem mediaError_stays (i : Nat) (a : Fin 4) (stripe : Nat) (ms : List (Fin 128)) (res : Word) (s : State) :
    Stays s (mediaError i a stripe ms res s) := by
  simp [mediaError]
@[simp] theorem readGo_stays (i : Nat) (x : Slot) (c : Cmd) (s : State) : Stays s (readGo i x c s) := by
  grind [readGo, endCmd_stays, fifoFill_stays, internalNote_stays, mediaError_stays, readNeed_stays,
    slotPut_stays]
@[simp] theorem readRun_stays (i : Nat) (s : State) : Stays s (readRun i s) := by
  simp only [readRun]
  (repeat' split) <;> simp
@[simp] theorem pagesBad_stays (l : List Nat) (s : State) : Stays s (pagesBad l s) := by simp [pagesBad]
@[simp] theorem readFault_stays (i : Nat) (canvas : Bool) (s : State) : Stays s (readFault i canvas s) := by
  simp only [readFault]
  (repeat' split) <;> simp
@[simp] theorem execRead_keepsSteady (run : SlotRun) (s : State) : KeepsSteady s (execRead run s) := by
  simp only [execRead]
  split <;> simp
@[simp] theorem verifyNext_stays (i : Nat) (x : Slot) (c : Cmd) (new : Bool) (t : Nat) (s : State) :
    Stays s (verifyNext i x c new t s) := by
  simp [verifyNext]
@[simp] theorem verifyRow_stays (i : Nat) (x : Slot) (c : Cmd) (new : Bool) (t : Nat) (s : State) :
    Stays s (verifyRow i x c new t s) := by
  simp only [verifyRow]
  (repeat' split) <;> simp
@[simp] theorem verifyLocked_stays (i : Nat) (x : Slot) (c : Cmd) (new : Bool) (t : Nat) (s : State) :
    Stays s (verifyLocked i x c new t s) := by
  simp [verifyLocked]
@[simp] theorem verifyRun_stays (i : Nat) (s : State) : Stays s (verifyRun i s) := by
  simp only [verifyRun]
  (repeat' split) <;> simp
@[simp] theorem execVerify_keepsSteady (i : Nat) (s : State) : KeepsSteady s (execVerify i s) := by simp [execVerify]

/-! ## Master cycles (Machine/Burst) -/

@[simp] theorem refillBytes_stays (layer pos : Nat) (l : List Byte) (s : State) :
    Stays s (refillBytes layer pos l s) := by
  simp only [refillBytes]
  (repeat' split) <;> simp
theorem burstIn_stays {x : Xfer} {l : List Byte} {s : State}  {u : State} (h : burstIn x l s = some u) :
    Stays s u := by
  grind [burstIn, refillBytes_stays, slotPut_stays, writeBytes_stays]
@[simp] theorem burstSent_stays (x : Xfer) (n : Nat) (s : State) : Stays s (burstSent x n s) := by
  simp only [burstSent]
  split <;> simp
@[simp] theorem burstCount_stays (c : Fin 16) (x : Xfer) (n : Nat) (s : State) : Stays s (burstCount c x n s) := by
  simp only [burstCount]
  (repeat' split) <;> simp
@[simp] theorem burstDone_stays (c : Fin 16) (x : Xfer) (l : List Byte) (s : State) :
    Stays s (burstDone c x l s) := by
  grind [burstDone, burstCount_stays, burstIn_stays, burstSent_stays]
@[simp] theorem xferAccess_stays (c : Fin 16) (x : Xfer) (k : AccessKind) (l : List MCycle) (s : State) :
    Stays s (xferAccess c x k l s) := by
  simp [xferAccess]
@[simp] theorem burstTurn_stays (c : Fin 16) (s : State) : Stays s (burstTurn c s) := by
  simp [burstTurn]
theorem burstOf_stays {c : Fin 16} {data : List Byte} {s : State}  {u : State} (h : burstOf c data s = some u) :
    Stays s u := by
  simp only [burstOf] at h
  (repeat' split at h) <;> cases h <;> simp
@[simp] theorem burstPick_stays (data : List Byte) (s : State) (l : List (Fin 16)) :
    Stays s (burstPick data s l) := by
  induction l with
  | nil => exact Stays.refl _
  | cons c t ih => grind [burstPick, burstOf_stays, burstTurn_stays]
@[simp] theorem listRead_stays (c : Fin 16) (dst : Bool) (l : List Byte) (s : State) :
    Stays s (listRead c dst l s) := by
  simp only [listRead]
  (repeat' split) <;> simp
@[simp] theorem entryDone_stays (c : Fin 16) (x : Xfer) (dst : Bool) (l : List Byte) (s : State) :
    Stays s (entryDone c x dst l s) := by
  simp only [entryDone]
  (repeat' split) <;> simp
@[simp] theorem pollFault_stays (c : Fin 16) (detail : Byte) (addr : Nat) (s : State) :
    Stays s (pollFault c detail addr s) := by
  simp [pollFault]
@[simp] theorem pollDone_stays (c : Fin 16) (own : Byte) (s : State) : Stays s (pollDone c own s) := by
  simp [pollDone]
@[simp] theorem descDone_stays (c : Fin 16) (x : Xfer) (idx : Nat) (l : List Byte) (s : State) :
    Stays s (descDone c x idx l s) := by
  simp only [descDone]
  (repeat' split) <;> simp
@[simp] theorem descRead_stays (c : Fin 16) (l : List Byte) (s : State) : Stays s (descRead c l s) := by
  simp only [descRead]
  (repeat' split) <;> simp
@[simp] theorem wbFault_stays (c : Fin 16) (x : Xfer) (st dt : Byte) (addr : Nat) (s : State) :
    Stays s (wbFault c x st dt addr s) := by
  simp [wbFault]
@[simp] theorem softDone_stays (c : Fin 16) (x : Xfer) (st dt : Byte) (irq stop : Bool) (s : State) :
    Stays s (softDone c x st dt irq stop s) := by
  simp [softDone]
@[simp] theorem softEnd_stays (c : Fin 16) (x : Xfer) (s : State) : Stays s (softEnd c x s) := by
  simp only [softEnd]
  split <;> simp
@[simp] theorem softComplete_stays (c : Fin 16) (s : State) : Stays s (softComplete c s) := by
  simp only [softComplete]
  (repeat' split) <;> simp
theorem postNow_sound (i : Nat) (s : State) : Sound s (postNow i s) := by
  simp only [postNow]
  (repeat' split) <;> simp +contextual [memWriteList_wf]
@[simp] theorem postEnd_stays (c : Fin 16) (f : Xfer) (i : Nat) (s : State) : Stays s (postEnd c f i s) := by
  simp only [postEnd]
  split <;> simp

@[simp] theorem reap_stays (w : Work) (s : State) : Stays s (reap w s) := by
  cases w with
  | cmd i =>
    simp only [reap]
    (repeat' split) <;> simp
  | _ => exact Stays.refl _

@[simp] theorem leftoverEnd_stays (x : Xfer) (s : State) : Stays s (leftoverEnd x s) := by
  simp only [leftoverEnd]
  split <;> simp
@[simp] theorem chanStop_stays (c : Fin 16) (s : State) : Stays s (chanStop c s) := by
  simp only [chanStop]
  (repeat' split) <;> simp
@[simp] theorem accessDone_stays (a : Access) (s : State) : Stays s (accessDone a s) := by
  simp only [accessDone]
  (repeat' split) <;> simp
@[simp] theorem workFault_stays (c : Fin 16) (detail : Byte) (addr : Nat) (s : State) :
    Stays s (workFault c detail addr s) := by
  simp only [workFault]
  (repeat' split) <;> simp
@[simp] theorem boundary_stays (c : Fin 16) (s : State) : Stays s (boundary c s) := by
  simp [boundary]
@[simp] theorem accessFault_stays (a : Access) (detail : Byte) (addr : Nat) (s : State) :
    Stays s (accessFault a detail addr s) := by
  simp [accessFault]
@[simp] theorem accessOn_stays (s : State) : Stays s (accessOn s) := by
  simp only [accessOn]
  (repeat' split) <;> simp
@[simp] theorem cycleRun_stays (s : State) : Stays s (cycleRun s) := by
  simp only [cycleRun]
  (repeat' split) <;> simp
@[simp] theorem execMasterCycle_keepsSteady (s : State) : KeepsSteady s (execMasterCycle s) := by simp [execMasterCycle]
@[simp] theorem accessBegun_stays (s : State) : Stays s (accessBegun s) := by simp [accessBegun]
@[simp] theorem execDmaBurst_keepsSteady (data : Vector Byte 64) (s : State) : KeepsSteady s (execDmaBurst data s) := by
  simp [execDmaBurst]
@[simp] theorem execListEntryRead_keepsSteady (c : Fin 16) (dst : Bool) (bytes : Vector Byte 8) (s : State) :
    KeepsSteady s (execListEntryRead c dst bytes s) := by
  simp [execListEntryRead]
@[simp] theorem execDescriptorReadDone_keepsSteady (c : Fin 16) (bytes : Vector Byte 64) (s : State) :
    KeepsSteady s (execDescriptorReadDone c bytes s) := by
  simp [execDescriptorReadDone]
@[simp] theorem execDmaCompletion_keepsSteady (c : Fin 16) (s : State) : KeepsSteady s (execDmaCompletion c s) := by
  simp [execDmaCompletion]
theorem execCompletionPost_keepsSound (i : Nat) (s : State) : KeepsSound s (execCompletionPost i s) :=
  keepsSound_next.mpr (onlyIf_sound _ _ _ ((accessBegun_stays _).sound.trans (postNow_sound i s)))
@[simp] theorem cycleFault_stays (self : Bool) (s : State) : Stays s (cycleFault self s) := by
  simp only [cycleFault]
  (repeat' split) <;> simp
@[simp] theorem execRdyTimeout_keepsSteady (c : Fin 16) (addr : BitVec 24) (s : State) :
    KeepsSteady s (execRdyTimeout c addr s) := by
  simp [execRdyTimeout]
@[simp] theorem execSelfAccess_keepsSteady (c : Fin 16) (addr : BitVec 24) (s : State) :
    KeepsSteady s (execSelfAccess c addr s) := by
  simp [execSelfAccess]
@[simp] theorem execCompletionWriteFault_keepsSteady (i : Nat) (self : Bool) (addr : BitVec 24) (s : State) :
    KeepsSteady s (execCompletionWriteFault i self addr s) := by
  simp [execCompletionWriteFault]
@[simp] theorem grantFault_stays (c : Fin 16) (s : State) : Stays s (grantFault c s) := by
  simp only [grantFault]
  (repeat' split) <;> simp
@[simp] theorem execGntTimeout_keepsSteady (s : State) : KeepsSteady s (execGntTimeout s) := by
  simp [execGntTimeout, foldl_stays]
@[simp] theorem execDmaKick_keepsSteady (mask : Half) (s : State) : KeepsSteady s (execDmaKick mask s) := by
  simp [execDmaKick]
@[simp] theorem execDmaGlobalPause_keepsSteady (s : State) : KeepsSteady s (execDmaGlobalPause s) := by
  simp [execDmaGlobalPause]
@[simp] theorem execDmaGlobalResume_keepsSteady (s : State) : KeepsSteady s (execDmaGlobalResume s) := by
  simp [execDmaGlobalResume]
@[simp] theorem execPoolGrant_keepsSteady (pool : Fin 20) (s : State) : KeepsSteady s (execPoolGrant pool s) := by
  simp only [execPoolGrant, onlyIf]
  (repeat' split) <;> simp
@[simp] theorem execFlushAll_keepsSteady (s : State) : KeepsSteady s (execFlushAll s) := by simp [execFlushAll]
@[simp] theorem execSkbCtrlWrite_keepsSteady (lanes : Lanes) (data : Word) (s : State) :
    KeepsSteady s (execSkbCtrlWrite lanes data s) := by
  simp [execSkbCtrlWrite]
@[simp] theorem execNop_keepsSteady (i : Nat) (s : State) : KeepsSteady s (execNop i s) := by simp [execNop]

/-! ## Member ports (Machine/Port) -/

@[simp] theorem portChanged_stays (p : Fin 8) (s : State) : Stays s (portChanged p s) := by
  simp [portChanged]
@[simp] theorem ownEdit_stays (p : Fin 8) (f : Member → Member) (s : State) : Stays s (ownEdit p f s) := by
  simp [ownEdit]
@[simp] theorem portOn_stays (p : Fin 8) (s : State) : Stays s (portOn p s) := by simp [portOn]
@[simp] theorem portTick_stays (p : Fin 8) (s : State) : Stays s (portTick p s) := by
  simp [portTick]
@[simp] theorem allocPages_stays (n : Nat) (s : State) : Stays s (allocPages n s).2 := by
  induction n generalizing s with
  | zero => exact Stays.refl _
  | succ n ih => grind [allocPages, allocPage_stays]
@[simp] theorem land_stays (v : Served) (s : State) : Stays s (land v s) := by
  simp [land, foldl_stays]
@[simp] theorem orderAck_stays (s : State) : Stays s (orderAck s) := by
  simp only [orderAck]
  (repeat' split) <;> simp
@[simp] theorem servedDrop_stays (v : Served) (s : State) : Stays s (servedDrop v s) := by
  simp [servedDrop, foldl_stays]
@[simp] theorem reply_stays (v : Served) (kind : Byte) (arg : Nat) (flits : List Dword) (s : State) :
    Stays s (reply v kind arg flits s) := by
  simp [reply]
@[simp] theorem psumReply_stays (v : Served) (s : State) : Stays s (psumReply v s) := by
  simp [psumReply, foldl_stays]
@[simp] theorem servedResult_stays (tag epoch : Byte) (o : MOp) (r : OpEnd) (s : State) :
    Stays s (servedResult tag epoch o r s) := by
  simp only [servedResult]
  (repeat' split) <;> simp [foldl_stays]
@[simp] theorem chunkResult_stays (w : Work) (c : ChunkAt) (row : Nat) (r : OpEnd) (s : State) :
    Stays s (chunkResult w c row r s) := by
  simp only [chunkResult]
  (repeat' split) <;> simp
@[simp] theorem retiredOff_stays (m : Fin 128) (s : State) : Stays s (retiredOff m s) := by
  simp [retiredOff]
@[simp] theorem mgmtAsk_stays (r : MgmtRun) (s : State) : Stays s (mgmtAsk r s) := by
  simp only [mgmtAsk, onlyIf]
  (repeat' split) <;> simp
@[simp] theorem mgmtSigOk_stays (m : Fin 128) (copyB : Bool) (s : State) : Stays s (mgmtSigOk m copyB s) := by
  simp only [mgmtSigOk]
  (repeat' split) <;> simp
@[simp] theorem mgmtSigFail_stays (m : Fin 128) (s : State) : Stays s (mgmtSigFail m s) := by
  simp only [mgmtSigFail]
  (repeat' split) <;> simp
@[simp] theorem sigResult_stays (o : MOp) (copyB own : Bool) (s : State) : Stays s (sigResult o copyB own s) := by
  simp [sigResult]
@[simp] theorem sigLost_stays (m : Fin 128) (s : State) : Stays s (sigLost m s) := by
  simp [sigLost]
@[simp] theorem sigSeen_stays (o : MOp) (r : OpEnd) (s : State) : Stays s (sigSeen o r s) := by
  simp only [sigSeen]
  (repeat' split) <;> simp
@[simp] theorem opResult_stays (o : MOp) (r : OpEnd) (s : State) : Stays s (opResult o r s) := by
  simp only [opResult]
  (repeat' split) <;> simp
@[simp] theorem opOut_stays (p : Fin 8) (o : MOp) (s : State) : Stays s (opOut p o s) := by simp [opOut]
@[simp] theorem portAbort_stays (p : Fin 8) (r : OpEnd) (s : State) : Stays s (portAbort p r s) := by
  simp [portAbort, foldl_stays]
@[simp] theorem memLeave_stays (p : Fin 8) (st : MState) (cause : Byte) (s : State) :
    Stays s (memLeave p st cause s) := by
  simp [memLeave]
@[simp] theorem modeTake_stays (p : Fin 8) (k : BitVec 4 × BitVec 5) (s : State) : Stays s (modeTake p k s) := by
  simp [modeTake]
@[simp] theorem retune_stays (p : Fin 8) (t : Tunes) (s : State) : Stays s (retune p t s) := by
  simp only [retune]
  split <;> simp
@[simp] theorem headPut_stays (p : Fin 8) (o : MOp) (s : State) : Stays s (headPut p o s) := by
  simp [headPut]
@[simp] theorem tryAgain_stays (p : Fin 8) (o : MOp) (s : State) : Stays s (tryAgain p o s) := by
  simp [tryAgain]
@[simp] theorem linkError_stays (p : Fin 8) (o : MOp) (t : Tunes) (s : State) : Stays s (linkError p o t s) := by
  simp only [linkError]
  (repeat' split) <;> simp
@[simp] theorem cardError_stays (p : Fin 8) (o : MOp) (good : List (BitVec 4096)) (t : Tunes) (s : State) :
    Stays s (cardError p o good t s) := by
  simp only [cardError]
  (repeat' split) <;> simp
@[simp] theorem attemptFailed_stays (p : Fin 8) (t : Tunes) (f : State → State) (s : State)
    (h : Stays s (f s)) : Stays s (attemptFailed p t f s) := by
  simp only [attemptFailed]
  split <;> simp [h]
@[simp] theorem memberOpDone_stays (p : Fin 8) (r : OpResult) (s : State) : Stays s (memberOpDone p r s) := by
  simp only [memberOpDone]
  (repeat' split) <;> simp
@[simp] theorem execMemberOpDone_keepsSteady (p : Fin 8) (r : OpResult) (s : State) :
    KeepsSteady s (execMemberOpDone p r s) := by
  simp [execMemberOpDone]
@[simp] theorem execMemberOpTimeout_keepsSteady (p : Fin 8) (t : Tunes) (s : State) :
    KeepsSteady s (execMemberOpTimeout p t s) := by
  simp only [execMemberOpTimeout, onlyIf]
  (repeat' split) <;> simp
@[simp] theorem heldRetry_stays (p : Fin 8) (s : State) : Stays s (heldRetry p s) := by
  simp only [heldRetry]
  (repeat' split) <;> simp
@[simp] theorem sampleCd_stays (p : Fin 8) (low : Bool) (s : State) : Stays s (sampleCd p low s) := by
  simp only [sampleCd, onlyIf]
  (repeat' split) <;> simp
@[simp] theorem roleMove_stays (m : Fin 128) (s : State) : Stays s (roleMove m s) := by
  simp only [roleMove]
  (repeat' split) <;> simp
@[simp] theorem classified_stays (m : Fin 128) (mend : Option Bool) (s : State) : Stays s (classified m mend s) := by
  simp only [classified]
  split <;> simp
@[simp] theorem portFound_stays (p : Fin 8) (s : State) : Stays s (portFound p s) := by simp [portFound]
@[simp] theorem identFail_stays (p : Fin 8) (cause : Byte) (s : State) : Stays s (identFail p cause s) := by
  simp only [identFail]
  split <;> simp
@[simp] theorem identEntry_stays (p : Fin 8) (d : CardIdent) (f : Found) (sig : Option Sig) (mend : Option Bool)
    (s : State) : Stays s (identEntry p d f sig mend s) := by
  simp [identEntry]
@[simp] theorem cardFound_stays (p : Fin 8) (mend : Option Bool) (s : State) : Stays s (cardFound p mend s) := by
  simp [cardFound]
@[simp] theorem portReturn_stays (p : Fin 8) (old : MState) (s : State) : Stays s (portReturn p old s) := by
  simp [portReturn]
@[simp] theorem signatureRead_stays (p : Fin 8) (d : CardIdent) (s : State) : Stays s (signatureRead p d s) := by
  simp only [signatureRead]
  (repeat' split) <;> simp
@[simp] theorem execSignatureRead_keepsSteady (p : Fin 8) (d : CardIdent) (s : State) :
    KeepsSteady s (execSignatureRead p d s) := by
  simp [execSignatureRead]
@[simp] theorem execIdentFailed_keepsSteady (p : Fin 8) (unsupported : Bool) (s : State) :
    KeepsSteady s (execIdentFailed p unsupported s) := by
  simp [execIdentFailed]
@[simp] theorem cdAccept_stays (p : Fin 8) (low : Bool) (s : State) : Stays s (cdAccept p low s) := by
  simp [cdAccept]
@[simp] theorem cardInserted_stays (p : Fin 8) (s : State) : Stays s (cardInserted p s) := by
  simp [cardInserted]
@[simp] theorem cardRemoved_stays (p : Fin 8) (s : State) : Stays s (cardRemoved p s) := by
  simp [cardRemoved]
@[simp] theorem portHold_stays (p : Fin 8) (s : State) : Stays s (portHold p s) := by
  simp [portHold, foldl_stays]
@[simp] theorem portReset_stays (p : Fin 8) (s : State) : Stays s (portReset p s) := by
  simp [portReset]
@[simp] theorem portsReset_stays (mask : Byte) (s : State) : Stays s (portsReset mask s) := by
  simp [portsReset, foldl_stays]
@[simp] theorem execPortResetLost_keepsSteady (p : Fin 8) (s : State) : KeepsSteady s (execPortResetLost p s) := by
  simp only [execPortResetLost, onlyIf]
  (repeat' split) <;> simp
@[simp] theorem signatureMend_stays (m : Fin 128) (s : State) : Stays s (signatureMend m s) := by
  simp only [signatureMend]
  (repeat' split) <;> simp
@[simp] theorem signatureRefresh_stays (m : Fin 128) (s : State) : Stays s (signatureRefresh m s) := by
  simp [signatureRefresh]
@[simp] theorem execSignatureRefresh_keepsSteady (m : Fin 128) (s : State) :
    KeepsSteady s (execSignatureRefresh m s) := by
  simp [execSignatureRefresh]
@[simp] theorem execMemberReportTimer_keepsSteady (s : State) : KeepsSteady s (execMemberReportTimer s) := by
  simp [execMemberReportTimer, foldl_stays]
@[simp] theorem memberEvtClear_stays (w : Word) (s : State) : Stays s (memberEvtClear w s) := by
  simp [memberEvtClear]

/-! ## The Referee and the second tier (Machine/Referee) -/

@[simp] theorem memberOpIssue_stays (p : Fin 8) (s : State) : Stays s (memberOpIssue p s) := by
  simp only [memberOpIssue]
  (repeat' split) <;> simp
@[simp] theorem execMemberOpIssue_keepsSteady (p : Fin 8) (s : State) : KeepsSteady s (execMemberOpIssue p s) := by
  simp [execMemberOpIssue]
@[simp] theorem execRefereeDecay_keepsSteady (s : State) :
    KeepsSteady s (execRefereeDecay s) := by simp [execRefereeDecay]
@[simp] theorem admitAdd_stays (x : Fin 4 × Nat × Nat × Nat) (s : State) : Stays s (admitAdd x s) := by
  simp [admitAdd]
@[simp] theorem admitSub_stays (x : Fin 4 × Nat × Nat × Nat) (s : State) : Stays s (admitSub x s) := by
  simp [admitSub]
@[simp] theorem tier2Total_stays (n : Nat) (s : State) : Stays s (tier2Total n s) := by simp [tier2Total]
@[simp] theorem tier2Probe_stays (regs : Option (Half × Half)) (s : State) : Stays s (tier2Probe regs s) := by
  simp only [tier2Probe]
  (repeat' split) <;> simp
@[simp] theorem tier2Lose_stays (s : State) : Stays s (tier2Lose s) := by simp [tier2Lose]
@[simp] theorem tier2Fail_stays (s : State) : Stays s (tier2Fail s) := by
  simp [tier2Fail]
@[simp] theorem execTier2TransferDone_keepsSteady (s : State) : KeepsSteady s (execTier2TransferDone s) := by
  simp only [execTier2TransferDone, onlyIf]
  (repeat' split) <;> simp
@[simp] theorem execTier2DqsTimeout_keepsSteady (s : State) : KeepsSteady s (execTier2DqsTimeout s) := by
  simp [execTier2DqsTimeout]
@[simp] theorem execTier2CheckRead_keepsSteady (reg0 : Option Half) (s : State) :
    KeepsSteady s (execTier2CheckRead reg0 s) := by
  simp only [execTier2CheckRead]
  (repeat' split) <;> simp

/-! ## Studio resets (Machine/Studio) -/

@[simp] theorem resetQueues_stays (st : Fin 8) (s : State) : Stays s (resetQueues st s) := by
  simp [resetQueues, foldl_stays]
@[simp] theorem barPost_stays (st : Fin 8) (s : State) : Stays s (barPost st s) := by
  simp only [barPost]
  (repeat' split) <;> simp
@[simp] theorem dropIssued_stays (w : Work) (s : State) : Stays s (dropIssued w s) := by
  simp [dropIssued, foldl_stays]
@[simp] theorem keepStep_stays (i : Nat) (s : State) : Stays s (keepStep i s) := by
  simp only [keepStep]
  (repeat' split) <;> simp
@[simp] theorem resetCmd_stays (i : Nat) (s : State) : Stays s (resetCmd i s) := by
  simp only [resetCmd]
  (repeat' split) <;> simp
@[simp] theorem handProgram_stays (st : Fin 8) (s : State) : Stays s (handProgram st s).2 := by
  simp only [handProgram]
  (repeat' split) <;> simp
@[simp] theorem handRecords_stays (st : Fin 8) (s : State) : Stays s (handRecords st s).2 := by
  simp [handRecords, foldl_stays]
@[simp] theorem handTiles_stays (st : Fin 8) (s : State) : Stays s (handTiles st s) := by
  simp [handTiles, foldl_stays]
@[simp] theorem resetAlias_stays (st : Fin 8) (s : State) : Stays s (resetAlias st s) := by
  simp [resetAlias]
@[simp] theorem resetChan_stays (c : Fin 16) (s : State) : Stays s (resetChan c s) := by
  simp only [resetChan]
  split <;> simp
@[simp] theorem resetChans_stays (st : Fin 8) (s : State) : Stays s (resetChans st s) := by
  simp [resetChans, foldl_stays]
@[simp] theorem resetLayers_stays (st : Fin 8) (s : State) : Stays s (resetLayers st s) := by
  simp [resetLayers]
@[simp] theorem studioReset_stays (st : Fin 8) (s : State) : Stays s (studioReset st s) := by
  simp [studioReset, foldl_stays]
@[simp] theorem studioRequest_stays (st : Fin 8) (s : State) : Stays s (studioRequest st s) := by
  simp [studioRequest]
@[simp] theorem studioRst_stays (mask : Byte) (s : State) : Stays s (studioRst mask s) := by
  simp [studioRst, foldl_stays]
@[simp] theorem execStudioReset_keepsSteady (mask : Byte) (s : State) : KeepsSteady s (execStudioReset mask s) := by
  simp [execStudioReset]
@[simp] theorem studioAck_stays (st : Fin 8) (s : State) : Stays s (studioAck st s) := by
  simp [studioAck]
@[simp] theorem studioDone_stays (mask : Byte) (s : State) : Stays s (studioDone mask s) := by
  simp [studioDone, foldl_stays]
@[simp] theorem execStudioDoneAck_keepsSteady (mask : Byte) (s : State) : KeepsSteady s (execStudioDoneAck mask s) := by
  simp [execStudioDoneAck]
@[simp] theorem studiosUp_stays (s : State) : Stays s (studiosUp s) := by simp [studiosUp]
@[simp] theorem studiosDown_stays (s : State) : Stays s (studiosDown s) := by simp [studiosDown]

/-! ## Links and the roll call (Machine/Ring) -/

@[simp] theorem ringTrain_stays (s : State) : Stays s (ringTrain s) := by simp [ringTrain]
@[simp] theorem execLinkTrainingStart_keepsSteady (fb : Bool) (s : State) :
    KeepsSteady s (execLinkTrainingStart fb s) := by
  simp [execLinkTrainingStart]
@[simp] theorem execForwardedClockSeen_keepsSteady (fb : Bool) (s : State) :
    KeepsSteady s (execForwardedClockSeen fb s) := by
  simp [execForwardedClockSeen]
@[simp] theorem execTrainingTimeout_keepsSteady (fb : Bool) (s : State) : KeepsSteady s (execTrainingTimeout fb s) := by
  simp [execTrainingTimeout]
@[simp] theorem execBrokenHoldExpiry_keepsSteady (fb : Bool) (s : State) :
    KeepsSteady s (execBrokenHoldExpiry fb s) := by
  simp [execBrokenHoldExpiry]
@[simp] theorem execRollCallStart_keepsSteady (s : State) :
    KeepsSteady s (execRollCallStart s) := by simp [execRollCallStart]
@[simp] theorem execTrainingComplete_keepsSteady (fb : Bool) (s : State) :
    KeepsSteady s (execTrainingComplete fb s) := by
  simp [execTrainingComplete]
@[simp] theorem execLinkBreak_keepsSteady (fb : Bool) (s : State) : KeepsSteady s (execLinkBreak fb s) := by
  simp [execLinkBreak]
@[simp] theorem linksOrdered_stays (s : State) : Stays s (linksOrdered s) := by
  simp only [linksOrdered]
  (repeat' split) <;> simp
@[simp] theorem linksLifted_stays (s : State) : Stays s (linksLifted s) := by simp [linksLifted]
@[simp] theorem execLinkFlit_keepsSteady (fb : Bool) (payload : Dword) (s : State) :
    KeepsSteady s (execLinkFlit fb payload s) := by
  simp [execLinkFlit]
@[simp] theorem execLinkFlitTimer_keepsSteady (fb : Bool) (s : State) : KeepsSteady s (execLinkFlitTimer fb s) := by
  simp [execLinkFlitTimer]
@[simp] theorem execPacketReceiveError_keepsSteady (fb crc : Bool) (s : State) :
    KeepsSteady s (execPacketReceiveError fb crc s) := by
  simp [execPacketReceiveError]
@[simp] theorem execResendTimeout_keepsSteady (fb : Bool) (s : State) : KeepsSteady s (execResendTimeout fb s) := by
  simp [execResendTimeout]
@[simp] theorem receive_stays (fb : Bool) (kind : Byte) (p : Pkt) (act : State → State) (s : State)
    (h : ∀ u, Stays u (act u)) : Stays s (receive fb kind p act s) := by
  simp only [receive]
  (repeat' split) <;> simp [h]
@[simp] theorem received_keepsSteady (fb : Bool) (kind : Byte) (p : Pkt) (act : State → State) (s : State)
    (h : ∀ u, Stays u (act u)) : KeepsSteady s (received fb kind p act s) := by
  simp [received, h]
@[simp] theorem execPacketForward_keepsSteady (fb : Bool) (kind : Byte) (p : Pkt) (s : State) :
    KeepsSteady s (execPacketForward fb kind p s) := by
  simp [execPacketForward]
@[simp] theorem onManager_stays (f : State → State) (s : State) (h : Stays s (f s)) : Stays s (onManager f s) := by
  simp [onManager, h]
@[simp] theorem onWorker_stays (f : State → State) (s : State) (h : Stays s (f s)) : Stays s (onWorker f s) := by
  simp [onWorker, h]
@[simp] theorem rollCallWorker_stays (fb : Bool) (p : Pkt) (s : State) : Stays s (rollCallWorker fb p s) := by
  simp [rollCallWorker]
@[simp] theorem rollCallManager_stays (fb : Bool) (p : Pkt) (s : State) : Stays s (rollCallManager fb p s) := by
  simp only [rollCallManager]
  (repeat' split) <;> simp
@[simp] theorem execRollCall_keepsSteady (fb : Bool) (p : Pkt) (s : State) : KeepsSteady s (execRollCall fb p s) := by
  simp only [execRollCall]
  split <;> simp
@[simp] theorem execRollAnswer_keepsSteady (fb : Bool) (p : Pkt) (rtt : Half) (s : State) :
    KeepsSteady s (execRollAnswer fb p rtt s) :=
  received_keepsSteady _ _ _ _ _ (fun u => onManager_stays _ _ (by (repeat' split) <;> exact Stays.refl _))
/-! ## The fabric (Machine/Fabric) -/

@[simp] theorem sendAssign_stays (n : Numbered) (s : State) : Stays s (sendAssign n s) := by
  simp [sendAssign]
@[simp] theorem nodeLost_stays (k : BitVec 4) (s : State) : Stays s (nodeLost k s) := by
  simp [nodeLost, foldl_stays]
@[simp] theorem psumEnd_stays (p : Psum) (k : BitVec 4) (sum : List (BitVec 4096)) (failed : Byte) (s : State) :
    Stays s (psumEnd p k sum failed s) := by
  simp only [psumEnd]
  (repeat' split) <;> simp [foldl_stays]
@[simp] theorem reqLost_stays (r : RReq) (s : State) : Stays s (reqLost r s) := by
  simp only [reqLost]
  split <;> simp
@[simp] theorem reissueAll_stays (s : State) : Stays s (reissueAll s) := by
  simp [reissueAll, foldl_stays]
@[simp] theorem rollFinish_stays (s : State) : Stays s (rollFinish s) := by
  simp only [rollFinish]
  (repeat' split) <;> simp [foldl_stays]
@[simp] theorem rollCollectEnd_stays (s : State) : Stays s (rollCollectEnd s) := by
  simp only [rollCollectEnd]
  (repeat' split) <;> simp [foldl_stays]
@[simp] theorem execRollCallCollectEnd_keepsSteady (s : State) : KeepsSteady s (execRollCallCollectEnd s) := by
  simp [execRollCallCollectEnd]
@[simp] theorem execRollAck_keepsSteady (fb : Bool) (p : Pkt) (s : State) : KeepsSteady s (execRollAck fb p s) :=
  received_keepsSteady _ _ _ _ _ (fun u => onManager_stays _ _ (by (repeat' split) <;> simp))
@[simp] theorem execRollAssign_keepsSteady (fb : Bool) (p : Pkt) (s : State) :
    KeepsSteady s (execRollAssign fb p s) := by
  simp [execRollAssign]
@[simp] theorem dropEpochs_stays (e : Byte) (s : State) : Stays s (dropEpochs e s) := by
  simp [dropEpochs, foldl_stays]
@[simp] theorem rollDone_stays (p : Pkt) (s : State) : Stays s (rollDone p s) := by
  simp [rollDone, foldl_stays]
@[simp] theorem execRollDone_keepsSteady (fb : Bool) (p : Pkt) (s : State) : KeepsSteady s (execRollDone fb p s) := by
  simp [execRollDone]
@[simp] theorem execLinkNote_keepsSteady (fb : Bool) (p : Pkt) (s : State) : KeepsSteady s (execLinkNote fb p s) := by
  simp [execLinkNote]
@[simp] theorem reqDrop_stays (r : RReq) (s : State) : Stays s (reqDrop r s) := by simp [reqDrop]
@[simp] theorem verdict_stays (k : BitVec 4) (s : State) : Stays s (verdict k s) := by simp [verdict]
@[simp] theorem execRequestTimeout_keepsSteady (k : BitVec 4) (tag : Byte) (s : State) :
    KeepsSteady s (execRequestTimeout k tag s) := by
  simp only [execRequestTimeout, onlyIf]
  (repeat' split) <;> simp
@[simp] theorem execPingTimeout_keepsSteady (k : BitVec 4) (tag : Byte) (s : State) :
    KeepsSteady s (execPingTimeout k tag s) := by
  simp only [execPingTimeout, onlyIf]
  (repeat' split) <;> simp
@[simp] theorem execPing_keepsSteady (fb : Bool) (p : Pkt) (s : State) :
    KeepsSteady s (execPing fb p s) := by simp [execPing]
@[simp] theorem pong_stays (p : Pkt) (s : State) : Stays s (pong p s) := by
  simp only [pong]
  (repeat' split) <;> simp
@[simp] theorem execPong_keepsSteady (fb : Bool) (p : Pkt) (s : State) :
    KeepsSteady s (execPong fb p s) := by simp [execPong]
@[simp] theorem readData_stays (p : Pkt) (s : State) : Stays s (readData p s) := by
  simp only [readData]
  split <;> simp
@[simp] theorem execMreadData_keepsSteady (fb : Bool) (p : Pkt) (s : State) : KeepsSteady s (execMreadData fb p s) := by
  simp [execMreadData]
@[simp] theorem psumData_stays (p : Pkt) (s : State) : Stays s (psumData p s) := by
  simp only [psumData]
  (repeat' split) <;> simp
@[simp] theorem execPsumData_keepsSteady (fb : Bool) (p : Pkt) (s : State) : KeepsSteady s (execPsumData fb p s) := by
  simp [execPsumData]
@[simp] theorem opDone_stays (p : Pkt) (s : State) : Stays s (opDone p s) := by
  simp only [opDone]
  (repeat' split) <;> simp
@[simp] theorem execOpDone_keepsSteady (fb : Bool) (p : Pkt) (s : State) : KeepsSteady s (execOpDone fb p s) := by
  simp [execOpDone]
@[simp] theorem servedAdd_stays (v : Served) (s : State) : Stays s (servedAdd v s) := by simp [servedAdd]
@[simp] theorem servedOp_stays (v : Served) (k : OpKind) (u : OpUse) (port : Fin 8) (sector count : Nat) (s : State) :
    Stays s (servedOp v k u port sector count s) := by
  simp [servedOp]
@[simp] theorem servedRead_stays (v : Served) (port : Fin 8) (sector count : Nat) (s : State) :
    Stays s (servedRead v port sector count s) := by
  simp [servedRead]
@[simp] theorem ringWake_stays (s : State) : Stays s (ringWake s) := by
  simp [ringWake]
@[simp] theorem serve_stays (kind : Byte) (p : Pkt) (f : Served → State → State) (s : State)
    (h : ∀ v u, Stays u (f v u)) : Stays s (serve kind p f s) := by
  simp only [serve]
  (repeat' split) <;> simp [h]
@[simp] theorem execMread_keepsSteady (fb : Bool) (p : Pkt) (s : State) : KeepsSteady s (execMread fb p s) :=
  received_keepsSteady _ _ _ _ _ (fun u => onWorker_stays _ _ (serve_stays _ _ _ _ (by simp)))
@[simp] theorem execMwrite_keepsSteady (fb : Bool) (p : Pkt) (s : State) : KeepsSteady s (execMwrite fb p s) :=
  received_keepsSteady _ _ _ _ _ (fun u => onWorker_stays _ _ (serve_stays _ _ _ _ (by simp)))
@[simp] theorem writeData_stays (p : Pkt) (s : State) : Stays s (writeData p s) := by
  simp only [writeData]
  split <;> simp
@[simp] theorem execMwriteData_keepsSteady (fb : Bool) (p : Pkt) (s : State) :
    KeepsSteady s (execMwriteData fb p s) := by
  simp [execMwriteData]
@[simp] theorem execMerase_keepsSteady (fb : Bool) (p : Pkt) (s : State) : KeepsSteady s (execMerase fb p s) :=
  received_keepsSteady _ _ _ _ _ (fun u => onWorker_stays _ _ (serve_stays _ _ _ _ (by simp)))

@[simp] theorem psumReq_stays (p : Pkt) (s : State) : Stays s (psumReq p s) := by
  simp only [psumReq]
  split
  · exact Stays.refl _
  split
  · simp
  · exact (foldl_stays _ (fun _ _ => servedRead_stays ..) _ _).trans (by simp)
@[simp] theorem execPsumReq_keepsSteady (fb : Bool) (p : Pkt) (s : State) : KeepsSteady s (execPsumReq fb p s) := by
  simp [execPsumReq]
@[simp] theorem tableIn_stays (p : Pkt) (s : State) : Stays s (tableIn p s) := by simp [tableIn]
@[simp] theorem fwdApply_stays (space e : Nat) (w : List Word) (s : State) : Stays s (fwdApply space e w s) := by
  simp only [fwdApply]
  split <;> simp
@[simp] theorem execTableFwd_keepsSteady (fb : Bool) (p : Pkt) (s : State) : KeepsSteady s (execTableFwd fb p s) := by
  simp [execTableFwd]
@[simp] theorem reportEntry_stays (m : Fin 128) (w : List Word) (sig : Option Sig) (s : State) :
    Stays s (reportEntry m w sig s) := by
  simp [reportEntry]
@[simp] theorem reclassify_stays (m : Fin 128) (s : State) : Stays s (reclassify m s) := by
  simp [reclassify]
@[simp] theorem freshDone_stays (m : Fin 128) (s : State) : Stays s (freshDone m s) := by simp [freshDone]
@[simp] theorem reportState_stays (m : Fin 128) (r : MState) (ident : Bool) (cause : Byte) (s : State) :
    Stays s (reportState m r ident cause s) := by
  simp only [reportState]
  (repeat' split) <;> simp
@[simp] theorem reportIn_stays (p : Pkt) (s : State) : Stays s (reportIn p s) := by simp [reportIn]
@[simp] theorem execMemberReport_keepsSteady (fb : Bool) (p : Pkt) (s : State) :
    KeepsSteady s (execMemberReport fb p s) := by
  simp [execMemberReport]
@[simp] theorem setIn_stays (p : Pkt) (s : State) : Stays s (setIn p s) := by
  simp [setIn]
@[simp] theorem execMemberSet_keepsSteady (fb : Bool) (p : Pkt) (s : State) : KeepsSteady s (execMemberSet fb p s) := by
  simp [execMemberSet]
@[simp] theorem orderIn_stays (p : Pkt) (s : State) : Stays s (orderIn p s) := by
  simp only [orderIn]
  split <;> simp
@[simp] theorem execPowerOrder_keepsSteady (fb : Bool) (p : Pkt) (s : State) :
    KeepsSteady s (execPowerOrder fb p s) := by
  simp [execPowerOrder]
@[simp] theorem execPowerAck_keepsSteady (fb : Bool) (p : Pkt) (s : State) : KeepsSteady s (execPowerAck fb p s) := by
  simp [execPowerAck]
@[simp] theorem logIn_stays (p : Pkt) (s : State) : Stays s (logIn p s) := by simp [logIn]
@[simp] theorem execLogFwd_keepsSteady (fb : Bool) (p : Pkt) (s : State) : KeepsSteady s (execLogFwd fb p s) := by
  simp [execLogFwd]
@[simp] theorem ringRefused_stays (w : Word) (s : State) : Stays s (ringRefused w s) := by
  simp [ringRefused]
@[simp] theorem ringEnable_stays (fb on : Bool) (s : State) : Stays s (ringEnable fb on s) := by
  simp [ringEnable]
@[simp] theorem ringAction_stays (act : Nat) (k : BitVec 4) (key : Half) (w : Word) (s : State) :
    Stays s (ringAction act k key w s) := by
  simp [ringAction]
@[simp] theorem ringCtrlWrite_stays (lanes : Lanes) (w : Word) (s : State) : Stays s (ringCtrlWrite lanes w s) := by
  simp [ringCtrlWrite]
@[simp] theorem execRollNow_keepsSteady (s : State) : KeepsSteady s (execRollNow s) := by simp [execRollNow]
@[simp] theorem execForget_keepsSteady (entry : BitVec 4) (s : State) : KeepsSteady s (execForget entry s) := by
  simp [execForget]
@[simp] theorem execAdopt_keepsSteady (entry : BitVec 4) (key : Half) (s : State) :
    KeepsSteady s (execAdopt entry key s) := by
  simp [execAdopt]
@[simp] theorem execRingPortEnable_keepsSteady (fb : Bool) (s : State) : KeepsSteady s (execRingPortEnable fb s) := by
  simp [execRingPortEnable]
@[simp] theorem execRingPortDisable_keepsSteady (fb : Bool) (s : State) : KeepsSteady s (execRingPortDisable fb s) := by
  simp [execRingPortDisable]

/-! ## Palette layers (Machine/Layer) -/

@[simp] theorem layerEvent_stays (i : Fin 32) (s : State) : Stays s (layerEvent i s) := by
  simp [layerEvent]
theorem streamTile_stays {i : Fin 32} {deadline n : Nat} {a : Fin 4} {tile : Nat} {want : BitVec 8} {s : State}
    {m : Need} {k : Bool} {u : State} (h : streamTile i deadline n a tile want s = (m, k, u)) : Stays s u := by
  grind [streamTile, currentTile_stays]

@[simp] theorem tileAsk_stays (i : Fin 32) (n : Nat) (s : State) : Stays s (tileAsk i n s) := by
  simp only [tileAsk]
  split
  · exact Stays.refl _
  split
  · exact Stays.refl _
  split
  next h =>
    have hu := streamTile_stays h
    split <;> simp [hu]
  next h => exact streamTile_stays h

theorem tileTake_stays {i : Fin 32} {deadline : Nat} {s : State}  {u : State} (h : tileTake i deadline s = some u) :
    Stays s u := by
  grind [tileTake, allocTile_stays, layPut_stays]
@[simp] theorem tilesIssue_stays (i : Fin 32) (urgent : Bool) (n : Nat) (s : State) :
    Stays s (tilesIssue i urgent n s) := by
  induction n generalizing s with
  | zero => exact Stays.refl _
  | succ n ih =>
    simp only [tilesIssue]
    split
    · exact Stays.refl _
    · split
      · exact Stays.refl _
      · split
        · simp
        · exact (ih _).trans ((tileAsk_stays ..).trans (tileTake_stays ‹_›))
@[simp] theorem tilesFree_stays (i : Fin 32) (f : LTile → Bool) (s : State) : Stays s (tilesFree i f s) := by
  simp [tilesFree, foldl_stays]
@[simp] theorem tilesPass_stays (i : Fin 32) (s : State) : Stays s (tilesPass i s) := by simp [tilesPass]
@[simp] theorem refillStart_stays (i : Fin 32) (len : Nat) (s : State) : Stays s (refillStart i len s) := by
  simp [refillStart]
@[simp] theorem hostRefill_stays (i : Fin 32) (s : State) : Stays s (hostRefill i s) := by
  have hstart (n : Nat) {t u : State} (h : Stays s t) (full : Bool)
      (htake : (if full then tileTake i t.clk.tick.toNat t else some t) = some u) : Stays s (refillStart i n u) := by
    cases full
    · cases htake
      exact (refillStart_stays ..).trans h
    · exact (refillStart_stays ..).trans ((tileTake_stays htake).trans h)
  simp only [hostRefill]
  split
  · exact Stays.refl _
  · split
    · simp
    · split
      · simp
      · split
        · simp
        · exact hstart _ (layPut_stays ..) _ ‹_›
theorem refillDone_sound (i : Fin 32) (s : State) : Sound s (refillDone i s) := by
  simp only [refillDone]
  (repeat' split) <;> simp +contextual [memWriteList_wf]
theorem execHostRefillDone_keepsSound (layer : Fin 32) (s : State) : KeepsSound s (execHostRefillDone layer s) :=
  keepsSound_next.mpr (onlyIf_sound _ _ _ (refillDone_sound layer s))
@[simp] theorem layerFree_stays (i : Fin 32) (s : State) : Stays s (layerFree i s) := by
  simp only [layerFree]
  split <;> simp
@[simp] theorem layerStopped_stays (i : Fin 32) (c : LCause) (s : State) : Stays s (layerStopped i c s) := by
  simp [layerStopped]
@[simp] theorem listAsk_stays (i : Fin 32) (s : State) : Stays s (listAsk i s) := by
  grind [listAsk, layPut_stays, layerStopped_stays, streamTile_stays, tilesIssue_stays, workDrop_stays]
@[simp] theorem layerPrime_stays (i : Fin 32) (v : LWords) (r : Nat) (t : Option (Fin 4 × Nat × Nat × Nat))
    (s : State) : Stays s (layerPrime i v r t s) := by
  simp [layerPrime]
@[simp] theorem layerDenied_stays (i : Fin 32) (v : LWords) (reason r : Nat) (s : State) :
    Stays s (layerDenied i v reason r s) := by
  simp [layerDenied]
@[simp] theorem layerStart_stays (i : Fin 32) (v : LWords) (s : State) : Stays s (layerStart i v s) := by
  simp only [layerStart]
  (repeat' split) <;> simp
@[simp] theorem layerApply_stays (i : Fin 32) (v : LWords) (s : State) : Stays s (layerApply i v s) := by
  simp [layerApply]
@[simp] theorem tileArrived_stays (i : Fin 32) (n : Nat) (s : State) : Stays s (tileArrived i n s) := by
  simp [tileArrived]
@[simp] theorem execStreamTileArrived_keepsSteady (layer : Fin 32) (n : Nat) (s : State) :
    KeepsSteady s (execStreamTileArrived layer n s) := by
  simp [execStreamTileArrived]

/-! ## Palette buses and audio ports (Machine/Bus) -/

@[simp] theorem delayFree_stays (b : Fin 8) (s : State) : Stays s (delayFree b s) := by simp [delayFree]
@[simp] theorem delayTiles_stays (b : Fin 8) (n : Nat) (s : State) : Stays s (delayTiles b n s) := by
  induction n generalizing s with
  | zero => exact Stays.refl _
  | succ n ih => grind [delayTiles, allocTile_stays]
@[simp] theorem delayTake_stays (b : Fin 8) (n : Nat) (s : State) : Stays s (delayTake b n s) := by
  simp [delayTake]
@[simp] theorem busApply_stays (b : Fin 8) (v : BWords) (s : State) : Stays s (busApply b v s) := by
  simp [busApply]
@[simp] theorem auApply_stays (p : Fin 3) (w0 w1 : Word) (s : State) : Stays s (auApply p w0 w1 s) := by
  simp [auApply]
@[simp] theorem busTakes_stays (b : Fin 8) (s : State) : Stays s (busTakes b s) := by
  simp [busTakes]
@[simp] theorem portEvent_stays (c : Code) (p : Fin 3) (s : State) : Stays s (portEvent c p s) := by
  simp [portEvent]
@[simp] theorem countClips_stays (p : Fin 3) (s : State) : Stays s (countClips p s) := by
  simp [countClips]
@[simp] theorem portBoundary_stays (p : Fin 3) (s : State) : Stays s (portBoundary p s) := by
  simp only [portBoundary]
  (repeat' split) <;> simp
@[simp] theorem portListens_stays (p : Fin 3) (s : State) : Stays s (portListens p s) := by
  simp only [portListens]
  (repeat' split) <;> simp

/-! ## The Palette at work (Machine/Palette) -/

@[simp] theorem layerTakes_stays (i : Fin 32) (s : State) : Stays s (layerTakes i s) := by
  simp only [layerTakes]
  (repeat' split) <;> simp
@[simp] theorem layerMoves_stays (u : State) (i : Fin 32) (s : State) : Stays s (layerMoves u i s) := by
  simp only [layerMoves]
  (repeat' split) <;> simp
@[simp] theorem layerAfter_stays (i : Fin 32) (s : State) : Stays s (layerAfter i s) := by
  simp only [layerAfter]
  (repeat' split) <;> simp
@[simp] theorem eachLayer_stays (f : Fin 32 → State → State) (s : State) (h : ∀ i u, Stays u (f i u)) :
    Stays s (eachLayer f s) := foldl_stays _ (fun u i => h i u) _ s
@[simp] theorem au2Keeps_stays (l : Vector (Vector Word 8) 32) (s : State) : Stays s (au2Keeps l s) := by
  simp [au2Keeps]
@[simp] theorem paletteEnds_stays (s : State) : Stays s (paletteEnds s) := by
  simp [paletteEnds]

@[simp] theorem frame_stays (s : State) : Stays s (frame s) := by
  unfold frame
  extract_lets _ _ begun ports taken buses ended moved _ _ mixed
  have hports : Stays s ports := by simp [ports, begun]
  have htaken : Stays ports taken := eachLayer_stays layerTakes ports fun i u => layerTakes_stays i u
  have hbuses : Stays taken buses := foldl_stays _ (fun u b => busTakes_stays b u) _ _
  have hended : Stays buses ended := eachLayer_stays _ buses fun _ _ => by split <;> simp
  have hmoved : Stays ended moved := eachLayer_stays (layerMoves ended) ended fun _ _ => by simp
  have hmixed : Stays moved mixed := by simp [mixed]
  have hlistens : Stays mixed (portListens 1 (portListens 0 mixed)) := by simp
  have hafter := eachLayer_stays _ (portListens 1 (portListens 0 mixed)) layerAfter_stays
  exact hafter.trans
    (hlistens.trans (hmixed.trans (hmoved.trans (hended.trans (hbuses.trans (htaken.trans hports))))))
@[simp] theorem execFrameBoundary_keepsSteady (au2 : Vector (Vector Word 8) 32) (s : State) :
    KeepsSteady s (execFrameBoundary au2 s) := by
  simp [execFrameBoundary]
@[simp] theorem portsWake_stays (mask : Nat) (s : State) : Stays s (portsWake mask s) := by
  simp [portsWake, foldl_stays]
@[simp] theorem palCtrlWrite_stays (lanes : Lanes) (w : Word) (s : State) : Stays s (palCtrlWrite lanes w s) := by
  simp [palCtrlWrite]
@[simp] theorem palStatWrite_stays (lanes : Lanes) (w : Word) (s : State) : Stays s (palStatWrite lanes w s) := by
  simp [palStatWrite]
@[simp] theorem execPaletteEnable_keepsSteady (mclk : Bool) (s : State) : KeepsSteady s (execPaletteEnable mclk s) := by
  simp [execPaletteEnable]
@[simp] theorem execPaletteDisable_keepsSteady (mclk : Bool) (s : State) :
    KeepsSteady s (execPaletteDisable mclk s) := by
  simp [execPaletteDisable]
@[simp] theorem execPortWake_keepsSteady (port : Fin 3) (s : State) : KeepsSteady s (execPortWake port s) := by
  simp [execPortWake]
@[simp] theorem palDown_stays (s : State) : Stays s (palDown s) := by simp [palDown]
@[simp] theorem palNap_stays (s : State) : Stays s (palNap s) := by simp [palNap]
@[simp] theorem palWake_stays (s : State) : Stays s (palWake s) := by simp [palWake]

/-! ## Table commits (Machine/Table) -/

@[simp] theorem tblSelWrite_stays (p : Path) (l : Lanes) (data : Word) (s : State) :
    Stays s (tblSelWrite p l data s) := by
  simp [tblSelWrite]
@[simp] theorem tblDataRead_stays (p : Path) (l : Lanes) (s : State) : Stays s (tblDataRead p l s) := by
  simp only [tblDataRead]
  (repeat' split) <;> simp
@[simp] theorem chanOff_stays (c : Fin 16) (s : State) : Stays s (chanOff c s) := by
  simp [chanOff]
@[simp] theorem chanApply_stays (c : Fin 16) (w : List Word) (s : State) : Stays s (chanApply c w s) := by
  simp [chanApply]
@[simp] theorem sqApply_stays (q : Fin 32) (w : List Word) (s : State) : Stays s (sqApply q w s) := by
  simp [sqApply]
@[simp] theorem cqApply_stays (q : Fin 32) (w : List Word) (s : State) : Stays s (cqApply q w s) := by
  simp [cqApply]
@[simp] theorem studioApply_stays (st : Fin 8) (w : List Word) (s : State) : Stays s (studioApply st w s) := by
  simp [studioApply]
@[simp] theorem arrayApply_stays (a : Fin 4) (w : List Word) (s : State) : Stays s (arrayApply a w s) := by
  simp [arrayApply]
@[simp] theorem volumeApply_stays (v : Fin 64) (w : List Word) (s : State) : Stays s (volumeApply v w s) := by
  simp [volumeApply]
@[simp] theorem refereeApply_stays (e : Nat) (w : List Word) (s : State) : Stays s (refereeApply e w s) := by
  simp [refereeApply]
@[simp] theorem regionApply_stays (e : Nat) (w : List Word) (s : State) : Stays s (regionApply e w s) := by
  simp [regionApply]
@[simp] theorem memberApply_stays (e : Nat) (w : List Word) (s : State) : Stays s (memberApply e w s) := by
  simp [memberApply]
@[simp] theorem nvApply_stays (space e : Nat) (w : List Word) (s : State) : Stays s (nvApply space e w s) := by
  simp only [nvApply]
  split <;> simp
@[simp] theorem volApply_stays (space e : Nat) (w : List Word) (s : State) : Stays s (volApply space e w s) := by
  simp only [volApply]
  (repeat' split) <;> simp
@[simp] theorem memberForward_stays (p : Path) (e : Nat) (w : List Word) (s : State) :
    Stays s (memberForward p e w s) := by
  simp [memberForward]
@[simp] theorem commitApply_stays (p : Path) (space e : Nat) (w : List Word) (s : State) :
    Stays s (commitApply p space e w s) := by
  simp only [commitApply]
  (repeat' split) <;> simp
@[simp] theorem commitEntry_stays (p : Path) (c : Cursor) (w : List Word) (s : State) :
    Stays s (commitEntry p c w s) := by
  simp [commitEntry]
@[simp] theorem tblDataWrite_stays (p : Path) (l : Lanes) (data : Word) (s : State) :
    Stays s (tblDataWrite p l data s) := by
  simp only [tblDataWrite]
  (repeat' split) <;> simp

/-! ## Management effects (Machine/MgmtEffect) -/

@[simp] theorem uncommitted_stays (f : State → State) (s : State) (h : Stays s (f s)) : Stays s (uncommitted f s) := h
@[simp] theorem makeActive_stays (l : List (Fin 128)) (s : State) : Stays s (makeActive l s) := by
  simp [makeActive, foldl_stays]
@[simp] theorem createArrayEffect_stays (l : List Word) (s : State) : Stays s (createArrayEffect l s) := by
  simp [createArrayEffect]
@[simp] theorem recsDiscard_stays (a : Fin 4) (s : State) : Stays s (recsDiscard a s) := by
  simp [recsDiscard, foldl_stays]
@[simp] theorem deleteArrayEffect_stays (l : List Word) (s : State) : Stays s (deleteArrayEffect l s) := by
  simp [deleteArrayEffect, foldl_stays]
@[simp] theorem forceEffect_stays (l : List Word) (s : State) : Stays s (forceEffect l s) := by
  simp only [forceEffect]
  (repeat' split) <;> simp
@[simp] theorem createVolumeEffect_stays (l : List Word) (s : State) : Stays s (createVolumeEffect l s) := by
  simp [createVolumeEffect]
@[simp] theorem deleteVolumeEffect_stays (l : List Word) (s : State) : Stays s (deleteVolumeEffect l s) := by
  simp [deleteVolumeEffect]
@[simp] theorem setOwnerEffect_stays (l : List Word) (s : State) : Stays s (setOwnerEffect l s) := by
  simp [setOwnerEffect]
@[simp] theorem addBenchEffect_stays (l : List Word) (s : State) : Stays s (addBenchEffect l s) := by
  simp [addBenchEffect]
@[simp] theorem removeBenchEffect_stays (l : List Word) (s : State) : Stays s (removeBenchEffect l s) := by
  simp [removeBenchEffect]
@[simp] theorem retireEffect_stays (l : List Word) (s : State) : Stays s (retireEffect l s) := by
  simp [retireEffect]
@[simp] theorem restorationEffect_stays (l : List Word) (s : State) : Stays s (restorationEffect l s) := by
  simp only [restorationEffect]
  (repeat' split) <;> simp
@[simp] theorem copyBackEffect_stays (l : List Word) (s : State) : Stays s (copyBackEffect l s) := by
  simp [copyBackEffect]
@[simp] theorem inspectionEffect_stays (l : List Word) (s : State) : Stays s (inspectionEffect l s) := by
  simp [inspectionEffect]
@[simp] theorem repaintEffect_stays (l : List Word) (s : State) : Stays s (repaintEffect l s) := by
  simp only [repaintEffect]
  split <;> simp
@[simp] theorem abortEffect_stays (a : Fin 4) (s : State) : Stays s (abortEffect a s) := by
  simp [abortEffect]
@[simp] theorem pausePass_stays (a : Fin 4) (s : State) : Stays s (pausePass a s) := by simp [pausePass]
@[simp] theorem pausePaint_stays (a : Fin 4) (s : State) : Stays s (pausePaint a s) := by
  simp [pausePaint]
@[simp] theorem pauseEffect_stays (a : Fin 4) (s : State) : Stays s (pauseEffect a s) := by
  simp [pauseEffect]
@[simp] theorem resumeEffect_stays (l : List Word) (s : State) : Stays s (resumeEffect l s) := by
  simp [resumeEffect]
@[simp] theorem stopCheckpoint_stays (a : Fin 4) (s : State) : Stays s (stopCheckpoint a s) := by
  simp [stopCheckpoint]
@[simp] theorem stopEnd_stays (a : Fin 4) (s : State) : Stays s (stopEnd a s) := by
  simp [stopEnd]
@[simp] theorem mgmtEffect_stays (code : Byte) (l : List Word) (s : State) : Stays s (mgmtEffect code l s) := by
  simp only [mgmtEffect]
  split <;> simp

/-! ## The management engine and NV commits (Machine/Mgmt) -/

@[simp] theorem nvWrite_stays (s : State) : Stays s (nvWrite s) := by simp [nvWrite]
@[simp] theorem missingRelease_stays (s : State) : Stays s (missingRelease s) := by
  simp [missingRelease, foldl_stays]
@[simp] theorem refreshChanged_stays (old : Vector Arr 4 × Vector Vol 64) (s : State) :
    Stays s (refreshChanged old s) := by
  simp [refreshChanged, foldl_stays]
@[simp] theorem arrayArgWrite_stays (p : Path) (l : Lanes) (data : Word) (s : State) :
    Stays s (arrayArgWrite p l data s) := by
  simp [arrayArgWrite]
@[simp] theorem mgmtIdentity_stays (code : Byte) (l : List Word) (s : State) : Stays s (mgmtIdentity code l s) := by
  simp only [mgmtIdentity]
  (repeat' split) <;> simp
@[simp] theorem bgHold_stays (a : Fin 4) (s : State) : Stays s (bgHold a s) := by simp [bgHold]
@[simp] theorem stopTurn_stays (a : Fin 4) (s : State) : Stays s (stopTurn a s) := by
  simp [stopTurn, foldl_stays]
@[simp] theorem stopStart_stays (r : MgmtRun) (a : Fin 4) (s : State) : Stays s (stopStart r a s) := by
  simp [stopStart]
@[simp] theorem mgmtWrite_stays (r : MgmtRun) (s : State) : Stays s (mgmtWrite r s) := by
  simp [mgmtWrite, foldl_stays]
@[simp] theorem mgmtStart_stays (r : MgmtRun) (s : State) : Stays s (mgmtStart r s) := by
  simp only [mgmtStart]
  (repeat' split) <;> simp
@[simp] theorem mgmtTake_stays (p : Path) (code : Byte) (s : State) : Stays s (mgmtTake p code s) := by
  simp only [mgmtTake]
  split <;> simp
@[simp] theorem mgmtTurn_stays (r : MgmtRun) (s : State) : Stays s (mgmtTurn r s) := by
  simp only [mgmtTurn]
  (repeat' split) <;> simp
@[simp] theorem mgmtUndo_stays (r : MgmtRun) (s : State) : Stays s (mgmtUndo r s) := by
  simp [mgmtUndo, foldl_stays]
@[simp] theorem mgmtFinish_stays (r : MgmtRun) (e : Byte × Byte) (s : State) : Stays s (mgmtFinish r e s) := by
  simp [mgmtFinish]
@[simp] theorem mgmtTimeout_stays (k : BitVec 4) (r : MgmtRun) (s : State) : Stays s (mgmtTimeout k r s) := by
  simp only [mgmtTimeout]
  (repeat' split) <;> simp
@[simp] theorem mgmtDone_stays (timeout : Option (BitVec 4)) (s : State) : Stays s (mgmtDone timeout s) := by
  simp only [mgmtDone]
  (repeat' split) <;> simp
@[simp] theorem execMgmtCommandDone_keepsSteady (timeout : Option (BitVec 4)) (s : State) :
    KeepsSteady s (execMgmtCommandDone timeout s) := by
  simp [execMgmtCommandDone]
@[simp] theorem assemble_stays (a : Fin 4) (s : State) : Stays s (assemble a s) := by
  simp only [assemble]
  (repeat' split) <;> simp
@[simp] theorem assembly_stays (a : Fin 4) (s : State) : Stays s (assembly a s) := by
  simp [assembly]
@[simp] theorem execAssembly_keepsSteady (a : Fin 4) (s : State) :
    KeepsSteady s (execAssembly a s) := by simp [execAssembly]
@[simp] theorem identAssign_stays (fabricId : Dword) (node : BitVec 4) (tag : Byte) (s : State) :
    Stays s (identAssign fabricId node tag s) := by
  have hput (f : Fin 8 → Member) := foldl_stays (fun s p => memPut (ownMember p s) (f p) s) (fun _ _ =>
    memPut_stays ..)
  exact (sendUp_stays ..).trans ((hput _ _ _).trans (hput (fun _ => {}) _ _))
@[simp] theorem nvChange_stays (c : NvChange) (s : State) : Stays s (nvChange c s) := by
  simp only [nvChange]
  (repeat' split) <;> simp
/-! ## Resets and the restart path (Machine/Restart) -/

@[simp] theorem nvTargetPut_stays (f : NvCopy → NvCopy) (s : State) : Stays s (nvTargetPut f s) := by
  simp [nvTargetPut]
@[simp] theorem progTorn_stays (body : Bool) (s : State) : Stays s (progTorn body s) := by
  simp only [progTorn]
  (repeat' split) <;> simp
@[simp] theorem progEnds_stays (s : State) : Stays s (progEnds s) := by
  simp only [progEnds]
  split <;> simp
@[simp] theorem progCut_stays (cut : ProgEnd) (s : State) : Stays s (progCut cut s) := by
  simp only [progCut]
  split <;> simp
@[simp] theorem progNone_stays (s : State) : Stays s (progNone s) := by simp [progNone]
@[simp] theorem stagesDrop_stays (s : State) : Stays s (stagesDrop s) := by simp [stagesDrop]
@[simp] theorem restartWrite_steady (trigger : Cause) (prev : Option Level) (s : State) :
    Steady s (restartWrite trigger prev s) := by
  simp [restartWrite]
@[simp] theorem noCopy_stays (s : State) : Stays s (noCopy s) := by simp [noCopy]
@[simp] theorem copyChoice_stays (s : State) : Stays s (copyChoice s) := by
  simp only [copyChoice]
  (repeat' split) <;> simp
@[simp] theorem indexScan_stays (s : State) : Stays s (indexScan s) := by
  refine (forcedUpdate_stays _).trans ((poolTake_stays ..).trans ?_)
  exact foldl_stays (fun s _ => counterInc 0x80 s) (fun s _ => counterInc_stays ..) _ _
@[simp] theorem stageFour_stays (s : State) : Stays s (stageFour s) := by
  simp [stageFour]
@[simp] theorem pathOn_stays (s : State) : Stays s (pathOn s) := by
  simp [pathOn]
@[simp] theorem pllStart_steady (s : State) : Steady s (pllStart s) := by simp [pllStart]
@[simp] theorem stageTwo_steady (s : State) : Steady s (stageTwo s) := by
  simp only [stageTwo]
  (repeat' split) <;> simp

@[simp] theorem tablesLoad_stays (s : State) : Stays s (tablesLoad s) := by
  unfold tablesLoad
  split
  · extract_lets _ t own
    have hown : Stays t own := foldl_stays _ (fun _ _ => memPut_stays ..) _ _
    clear_value own
    split <;> exact hown
  all_goals exact Stays.refl _
@[simp] theorem selfCheckFail_stays (unit : Byte) (addr : Word) (s : State) :
    Stays s (selfCheckFail unit addr s) := by
  simp [selfCheckFail]
@[simp] theorem skbCheckFail_stays (a : Word) (s : State) : Stays s (skbCheckFail a s) := by
  simp [skbCheckFail]
@[simp] theorem canvasCheckFail_stays (a : Word) (s : State) : Stays s (canvasCheckFail a s) := by
  simp [canvasCheckFail]
@[simp] theorem selfChecksDone_stays (skb canvas : Option Word) (s : State) :
    Stays s (selfChecksDone skb canvas s) := by
  simp only [selfChecksDone]
  split <;> simp
@[simp] theorem execSelfChecksDone_keepsSteady (skb canvas : Option Word) (s : State) :
    KeepsSteady s (execSelfChecksDone skb canvas s) := by
  simp [execSelfChecksDone]
@[simp] theorem execDiscoveryDeadline_keepsSteady (s : State) : KeepsSteady s (execDiscoveryDeadline s) := by
  simp [execDiscoveryDeadline]
@[simp] theorem repaintsResume_stays (s : State) : Stays s (repaintsResume s) := by
  simp [repaintsResume, foldl_stays]
@[simp] theorem nvClear_stays (s : State) : Stays s (nvClear s) := by
  simp [nvClear]

/-! ## Supplies, clocks and power states (Machine/Power) -/

@[simp] theorem reqResult_stays (r : ReqResult) (s : State) : Stays s (reqResult r s) := by
  simp [reqResult]
@[simp] theorem orderTo_stays (code : Nat) (k : BitVec 4) (s : State) : Stays s (orderTo code k s) := by
  simp [orderTo]
@[simp] theorem cancelEntry_stays (s : State) : Stays s (cancelEntry s) := by
  simp only [cancelEntry]
  (repeat' split) <;> simp [foldl_stays]
@[simp] theorem wakeDone_stays (s : State) : Stays s (wakeDone s) := by simp [wakeDone]
@[simp] theorem wake_stays (s : State) : Stays s (wake s) := by
  simp only [wake]
  (repeat' split) <;> simp
@[simp] theorem standbyWake_steady (src : WakeSrc) (s : State) : Steady s (standbyWake src s) := by
  simp [standbyWake]
@[simp] theorem wakeAny_steady (src : WakeSrc) (s : State) : Steady s (wakeAny src s) := by
  simp only [wakeAny]
  (repeat' split) <;> simp
@[simp] theorem execWakeNAsserted_keepsSteady (s : State) :
    KeepsSteady s (execWakeNAsserted s) := by simp [execWakeNAsserted]
@[simp] theorem execWakeTimerExpiry_keepsSteady (s : State) : KeepsSteady s (execWakeTimerExpiry s) := by
  simp [execWakeTimerExpiry]
@[simp] theorem execForwardedClockWake_keepsSteady (s : State) : KeepsSteady s (execForwardedClockWake s) := by
  simp [execForwardedClockWake]
@[simp] theorem execCardInserted_keepsSteady (p : Fin 8) (s : State) : KeepsSteady s (execCardInserted p s) := by
  simp [execCardInserted]
@[simp] theorem execCardRemoved_keepsSteady (p : Fin 8) (s : State) : KeepsSteady s (execCardRemoved p s) := by
  simp [execCardRemoved]
@[simp] theorem enter_stays (z : Sleep) (s : State) : Stays s (enter z s) := by
  simp only [enter]
  (repeat' split) <;> simp [foldl_stays]
@[simp] theorem askNap_stays (s : State) : Stays s (askNap s) := by simp [askNap]
@[simp] theorem askDoze_stays (s : State) : Stays s (askDoze s) := by
  simp [askDoze]
@[simp] theorem askStandby_stays (armed : Bool) (s : State) : Stays s (askStandby armed s) := by
  simp [askStandby]
@[simp] theorem reqWrite_stays (code : BitVec 3) (armed : Bool) (s : State) : Stays s (reqWrite code armed s) := by
  simp only [reqWrite]
  split <;> simp
@[simp] theorem execAutoNapExpiry_keepsSteady (s : State) :
    KeepsSteady s (execAutoNapExpiry s) := by simp [execAutoNapExpiry]

@[simp] theorem commitPoint_steady (z : Sleep) (f : State → State) (s : State)
    (h : Steady s (f s)) : Steady s (commitPoint z f s) := by
  simp only [commitPoint]
  (repeat' split) <;> simp [h]

@[simp] theorem entryOver_stays (s : State) : Stays s (entryOver s) := by simp [entryOver]
@[simp] theorem execNapCommit_keepsSteady (s : State) : KeepsSteady s (execNapCommit s) := by simp [execNapCommit]
@[simp] theorem toXin_steady (elapsed : Nat) (s : State) : Steady s (toXin elapsed s) := by simp [toXin]
@[simp] theorem execDozeCommit_keepsSteady (elapsed : Nat) (s : State) : KeepsSteady s (execDozeCommit elapsed s) := by
  simp [execDozeCommit]
@[simp] theorem execStandbyExitTimeout_keepsSteady (s : State) : KeepsSteady s (execStandbyExitTimeout s) := by
  simp [execStandbyExitTimeout]
@[simp] theorem execPowerOrderTimeout_keepsSteady (node : BitVec 4) (s : State) :
    KeepsSteady s (execPowerOrderTimeout node s) := by
  simp [execPowerOrderTimeout]
@[simp] theorem execPowerGoodCountRestart_keepsSteady (sup : Supplies) (s : State) :
    KeepsSteady s (execPowerGoodCountRestart sup s) := by
  simp [execPowerGoodCountRestart]
@[simp] theorem bankShow_stays (b : Bank) (on : Bool) (s : State) : Stays s (bankShow b on s) := by
  simp [bankShow]
@[simp] theorem execBankReturn_keepsSteady (b : Bank) (s : State) : KeepsSteady s (execBankReturn b s) := by
  simp [execBankReturn]
@[simp] theorem vpfWrite_stays (code : BitVec 3) (s : State) : Stays s (vpfWrite code s) := by
  simp [vpfWrite]
@[simp] theorem ringDark_stays (s : State) : Stays s (ringDark s) := by simp [ringDark]
@[simp] theorem pathInterrupt_stays (cut : ProgEnd) (s : State) : Stays s (pathInterrupt cut s) := by
  simp [pathInterrupt]
@[simp] theorem pllWrite_steady (on : Bool) (s : State) : Steady s (pllWrite on s) := by
  simp [pllWrite]
@[simp] theorem clockMove_steady (s : State) : Steady s (clockMove s) := by
  simp [clockMove]
@[simp] theorem serviceDown_stays (s : State) : Stays s (serviceDown s) := by simp [serviceDown]
@[simp] theorem execPllLockRetry_keepsSteady (s : State) :
    KeepsSteady s (execPllLockRetry s) := by simp [execPllLockRetry]
@[simp] theorem execXclkSelChange_keepsSteady (s : State) :
    KeepsSteady s (execXclkSelChange s) := by simp [execXclkSelChange]
@[simp] theorem execTickStep_keepsSteady (pins : PinLevels) (s : State) : KeepsSteady s (execTickStep pins s) := by
  simp only [execTickStep, onlyIf]
  (repeat' split) <;> simp [foldl_stays]
@[simp] theorem execStrapCheck_keepsSteady (levels : Straps) (s : State) :
    KeepsSteady s (execStrapCheck levels s) := by
  simp [execStrapCheck]

/-! ## Direct registers (Machine/Regs) -/

@[simp] theorem tickLoRead_stays (p : Path) (l : Lanes) (s : State) : Stays s (tickLoRead p l s) := by
  simp [tickLoRead]
@[simp] theorem faultSumRead_stays (l : Lanes) (s : State) : Stays s (faultSumRead l s) := by
  simp [faultSumRead]
@[simp] theorem regReadFx_stays (p : Path) (off : Nat) (l : Lanes) (s : State) : Stays s (regReadFx p off l s) := by
  simp only [regReadFx]
  split <;> simp
@[simp] theorem pwrCtrlWrite_steady (l : Lanes) (w : Word) (armed : Bool) (s : State) :
    Steady s (pwrCtrlWrite l w armed s) := by
  simp [pwrCtrlWrite]
@[simp] theorem clkCtrlWrite_steady (l : Lanes) (w : Word) (s : State) : Steady s (clkCtrlWrite l w s) := by
  simp [clkCtrlWrite]
@[simp] theorem rstCtrlWrite_stays (w : Word) (s : State) : Stays s (rstCtrlWrite w s) := by
  simp [rstCtrlWrite]
@[simp] theorem logTailWrite_stays (p : Path) (l : Lanes) (w : Word) (s : State) :
    Stays s (logTailWrite p l w s) := by
  simp [logTailWrite]
@[simp] theorem armWrite_stays (p : Path) (w : Word) (s : State) : Stays s (armWrite p w s) := by
  simp [armWrite]
@[simp] theorem hbCfgWrite_stays (l : Lanes) (w : Word) (s : State) : Stays s (hbCfgWrite l w s) := by
  simp [hbCfgWrite]
@[simp] theorem regWrite_steady (p : Path) (off : Nat) (l : Lanes) (w : Word) (armed : Bool) (s : State) :
    Steady s (regWrite p off l w armed s) := by
  simp only [regWrite]
  (repeat' split) <;> simp
@[simp] theorem armAge_stays (p : Path) (s : State) : Stays s (armAge p s) := by
  simp only [armAge]
  split <;> simp
@[simp] theorem writeCheck_stays (p : Path) (off : Nat) (l : Lanes) (w : Word) (s : State) :
    Stays s (writeCheck p off l w s).2.2 := by
  simp only [writeCheck]
  (repeat' split) <;> simp
@[simp] theorem writeApply_steady (p : Path) (off : Nat) (l : Lanes) (w : Word) (ok : Bool) (s : State) :
    Steady s (writeApply p off l w ok s) := by
  simp only [writeApply]
  split <;> simp
@[simp] theorem pathWrite_steady (p : Path) (off : Nat) (l : Lanes) (w : Word) (s : State) :
    Steady s (pathWrite p off l w s).2 := by
  simp [pathWrite]
@[simp] theorem execArmTimeout_keepsSteady (p : Path) (s : State) : KeepsSteady s (execArmTimeout p s) := by
  simp [execArmTimeout]
@[simp] theorem mirrorRefused_stays (status : Byte) (off : Nat) (s : State) :
    Stays s (mirrorRefused status off s) := by
  simp [mirrorRefused]
@[simp] theorem narrowNote_stays (al off : Nat) (l : Lanes) (s : State) : Stays s (narrowNote al off l s) := by
  simp [narrowNote]
@[simp] theorem mirrorWrite_steady (off : Nat) (l : Lanes) (w : Word) (s : State) :
    Steady s (mirrorWrite off l w s) := by
  simp [mirrorWrite]
@[simp] theorem viaPath_steady (p : Path) (off : Nat) (l : Lanes) (w : Word) (s : State) :
    Steady s (viaPath p off l w s) := by
  simp only [viaPath]
  (repeat' split) <;> simp
@[simp] theorem readVia_stays (p : Path) (f : State → State) (s : State) (h : ∀ u, Stays u (f u)) :
    Stays s (readVia p f s) := by
  simp [readVia, h]
@[simp] theorem viaPathFull_steady (p : Path) (off : Nat) (w : Word) (s : State) :
    Steady s (viaPathFull p off w s) := by
  simp [viaPathFull]
@[simp] theorem execRegisterWrite_keepsSteady (p : Path) (off : BitVec 16) (l : Lanes) (w : Word) (s : State) :
    KeepsSteady s (execRegisterWrite p off l w s) := by
  simp [execRegisterWrite]
@[simp] theorem execArmWrite_keepsSteady (p : Path) (value : Word) (s : State) :
    KeepsSteady s (execArmWrite p value s) := by
  simp [execArmWrite]
@[simp] theorem execCtrlRst_keepsSteady (p : Path) (s : State) : KeepsSteady s (execCtrlRst p s) := by
  simp [execCtrlRst]
@[simp] theorem execPortRst_keepsSteady (p : Path) (mask : Byte) (s : State) :
    KeepsSteady s (execPortRst p mask s) := by
  simp [execPortRst]
@[simp] theorem execNvClear_keepsSteady (p : Path) (s : State) : KeepsSteady s (execNvClear p s) := by
  simp [execNvClear]
@[simp] theorem viaReq_steady (p : Path) (req : Nat) (s : State) : Steady s (viaReq p req s) := by
  simp [viaReq]
@[simp] theorem execReqRun_keepsSteady (p : Path) (s : State) : KeepsSteady s (execReqRun p s) := by
  simp [execReqRun]
@[simp] theorem execReqNap_keepsSteady (p : Path) (s : State) : KeepsSteady s (execReqNap p s) := by
  simp [execReqNap]
@[simp] theorem execReqDoze_keepsSteady (p : Path) (s : State) : KeepsSteady s (execReqDoze p s) := by
  simp [execReqDoze]
@[simp] theorem execReqStandby_keepsSteady (p : Path) (s : State) :
    KeepsSteady s (execReqStandby p s) := by
  simp [execReqStandby]
@[simp] theorem execVpfSelWrite_keepsSteady (p : Path) (code : BitVec 3) (s : State) :
    KeepsSteady s (execVpfSelWrite p code s) := by
  simp [execVpfSelWrite]
@[simp] theorem execPllStart_keepsSteady (p : Path) (s : State) :
    KeepsSteady s (execPllStart p s) := by
  simp [execPllStart]
@[simp] theorem execPllStop_keepsSteady (p : Path) (s : State) : KeepsSteady s (execPllStop p s) := by
  simp [execPllStop]
@[simp] theorem execTickLoRead_keepsSteady (p : Path) (l : Lanes) (s : State) :
    KeepsSteady s (execTickLoRead p l s) := by
  simp [execTickLoRead]
@[simp] theorem execFaultSumRead_keepsSteady (p : Path) (l : Lanes) (s : State) :
    KeepsSteady s (execFaultSumRead p l s) := by
  simp [execFaultSumRead]
@[simp] theorem execLogTailWrite_keepsSteady (p : Path) (l : Lanes) (w : Word) (s : State) :
    KeepsSteady s (execLogTailWrite p l w s) := by
  simp [execLogTailWrite]
@[simp] theorem execTblSelWrite_keepsSteady (p : Path) (w : Word) (s : State) :
    KeepsSteady s (execTblSelWrite p w s) := by
  simp [execTblSelWrite]
@[simp] theorem execTblDataRead_keepsSteady (p : Path) (l : Lanes) (s : State) :
    KeepsSteady s (execTblDataRead p l s) := by
  simp [execTblDataRead]
@[simp] theorem execTblDataStage_keepsSteady (p : Path) (w : Word) (s : State) :
    KeepsSteady s (execTblDataStage p w s) := by
  simp [execTblDataStage]
@[simp] theorem commitVia_steady (p : Path) (space : Nat) (w : Word) (s : State) :
    Steady s (commitVia p space w s) := by
  simp [commitVia]
@[simp] theorem execMemberCommit_keepsSteady (p : Path) (w : Word) (s : State) :
    KeepsSteady s (execMemberCommit p w s) := by
  simp [execMemberCommit]
@[simp] theorem execArrayCommit_keepsSteady (p : Path) (w : Word) (s : State) :
    KeepsSteady s (execArrayCommit p w s) := by
  simp [execArrayCommit]
@[simp] theorem execVolumeCommit_keepsSteady (p : Path) (w : Word) (s : State) :
    KeepsSteady s (execVolumeCommit p w s) := by
  simp [execVolumeCommit]
@[simp] theorem execStudioCommit_keepsSteady (p : Path) (w : Word) (s : State) :
    KeepsSteady s (execStudioCommit p w s) := by
  simp [execStudioCommit]
@[simp] theorem execQueueCommit_keepsSteady (p : Path) (w : Word) (s : State) :
    KeepsSteady s (execQueueCommit p w s) := by
  simp [execQueueCommit]
@[simp] theorem execDmaChanCommit_keepsSteady (p : Path) (w : Word) (s : State) :
    KeepsSteady s (execDmaChanCommit p w s) := by
  simp [execDmaChanCommit]
@[simp] theorem execLayerStart_keepsSteady (p : Path) (w : Word) (s : State) :
    KeepsSteady s (execLayerStart p w s) := by
  simp [execLayerStart]
@[simp] theorem execLayerStop_keepsSteady (p : Path) (w : Word) (s : State) :
    KeepsSteady s (execLayerStop p w s) := by
  simp [execLayerStop]
@[simp] theorem execLayerCommit_keepsSteady (p : Path) (w : Word) (s : State) :
    KeepsSteady s (execLayerCommit p w s) := by
  simp [execLayerCommit]
@[simp] theorem execBusCommit_keepsSteady (p : Path) (w : Word) (s : State) :
    KeepsSteady s (execBusCommit p w s) := by
  simp [execBusCommit]
@[simp] theorem execAuportCommit_keepsSteady (p : Path) (w : Word) (s : State) :
    KeepsSteady s (execAuportCommit p w s) := by
  simp [execAuportCommit]
@[simp] theorem execRefereeCommit_keepsSteady (p : Path) (w : Word) (s : State) :
    KeepsSteady s (execRefereeCommit p w s) := by
  simp [execRefereeCommit]
@[simp] theorem execHostRegionCommit_keepsSteady (p : Path) (w : Word) (s : State) :
    KeepsSteady s (execHostRegionCommit p w s) := by
  simp [execHostRegionCommit]
@[simp] theorem execRoSpaceCommit_keepsSteady (p : Path) (w : Word) (s : State) :
    KeepsSteady s (execRoSpaceCommit p w s) := by
  simp [execRoSpaceCommit]
@[simp] theorem execArrayArgWrite_keepsSteady (p : Path) (l : Lanes) (w : Word) (s : State) :
    KeepsSteady s (execArrayArgWrite p l w s) := by
  simp [execArrayArgWrite]
@[simp] theorem command_steady (p : Path) (code : Nat) (s : State) : Steady s (command p code s) := by
  simp [command]
@[simp] theorem execAssemble_keepsSteady (p : Path) (s : State) :
    KeepsSteady s (execAssemble p s) := by
  simp [execAssemble]
@[simp] theorem execForceAssemble_keepsSteady (p : Path) (s : State) :
    KeepsSteady s (execForceAssemble p s) := by
  simp [execForceAssemble]
@[simp] theorem execCreateArray_keepsSteady (p : Path) (s : State) :
    KeepsSteady s (execCreateArray p s) := by
  simp [execCreateArray]
@[simp] theorem execDeleteArray_keepsSteady (p : Path) (s : State) :
    KeepsSteady s (execDeleteArray p s) := by
  simp [execDeleteArray]
@[simp] theorem execCreateVolume_keepsSteady (p : Path) (s : State) :
    KeepsSteady s (execCreateVolume p s) := by
  simp [execCreateVolume]
@[simp] theorem execDeleteVolume_keepsSteady (p : Path) (s : State) :
    KeepsSteady s (execDeleteVolume p s) := by
  simp [execDeleteVolume]
@[simp] theorem execSetOwner_keepsSteady (p : Path) (s : State) :
    KeepsSteady s (execSetOwner p s) := by
  simp [execSetOwner]
@[simp] theorem execAddBench_keepsSteady (p : Path) (s : State) :
    KeepsSteady s (execAddBench p s) := by
  simp [execAddBench]
@[simp] theorem execRemoveBench_keepsSteady (p : Path) (s : State) :
    KeepsSteady s (execRemoveBench p s) := by
  simp [execRemoveBench]
@[simp] theorem execRetireMember_keepsSteady (p : Path) (s : State) :
    KeepsSteady s (execRetireMember p s) := by
  simp [execRetireMember]
@[simp] theorem execStartRestoration_keepsSteady (p : Path) (s : State) :
    KeepsSteady s (execStartRestoration p s) := by
  simp [execStartRestoration]
@[simp] theorem execCopyBack_keepsSteady (p : Path) (s : State) :
    KeepsSteady s (execCopyBack p s) := by
  simp [execCopyBack]
@[simp] theorem execStartInspection_keepsSteady (p : Path) (s : State) :
    KeepsSteady s (execStartInspection p s) := by
  simp [execStartInspection]
@[simp] theorem execStartRepaint_keepsSteady (p : Path) (s : State) :
    KeepsSteady s (execStartRepaint p s) := by
  simp [execStartRepaint]
@[simp] theorem execAbortRepaint_keepsSteady (p : Path) (s : State) :
    KeepsSteady s (execAbortRepaint p s) := by
  simp [execAbortRepaint]
@[simp] theorem execPauseBackground_keepsSteady (p : Path) (s : State) :
    KeepsSteady s (execPauseBackground p s) := by
  simp [execPauseBackground]
@[simp] theorem execResumeBackground_keepsSteady (p : Path) (s : State) :
    KeepsSteady s (execResumeBackground p s) := by
  simp [execResumeBackground]
@[simp] theorem execStopArray_keepsSteady (p : Path) (s : State) :
    KeepsSteady s (execStopArray p s) := by
  simp [execStopArray]
@[simp] theorem execArrayCmdBadCode_keepsSteady (p : Path) (code : Byte) (s : State) :
    KeepsSteady s (execArrayCmdBadCode p code s) := by
  simp [execArrayCmdBadCode]

/-! ## Control port frames (Machine/Cport) -/

@[simp] theorem frameBegin_steady (f : Frame) (s : State) : Steady s (frameBegin f s) := by
  simp [frameBegin]
@[simp] theorem respond_steady (f : Frame) (status : Byte) (data : Word) (s : State) :
    Steady s (respond f status data s) := by
  simp [respond]

@[simp] theorem frameStep_steady (f : Frame) (body : State → State) (s : State) (h : ∀ u, Steady u (body u)) :
    Steady s (frameStep f body s) := by
  refine onlyIf_steady _ _ _ ?_
  dsimp only
  split <;> simp [h]
@[simp] theorem nopBody_steady (f : Frame) (s : State) : Steady s (nopBody f s) := by
  simp [nopBody]
@[simp] theorem readBody_steady (f : Frame) (s : State) : Steady s (readBody f s) := by
  simp [readBody]
@[simp] theorem writeBody_steady (f : Frame) (s : State) : Steady s (writeBody f s) := by
  simp [writeBody]
@[simp] theorem whistleBody_steady (f : Frame) (s : State) : Steady s (whistleBody f s) := by
  simp [whistleBody]
@[simp] theorem execCportNop_keepsSteady (f : Frame) (s : State) : KeepsSteady s (execCportNop f s) := by
  simp only [execCportNop]
  split <;> simp
@[simp] theorem execCportRead_keepsSteady (f : Frame) (s : State) : KeepsSteady s (execCportRead f s) := by
  simp only [execCportRead]
  split <;> simp
@[simp] theorem execCportWrite_keepsSteady (f : Frame) (s : State) : KeepsSteady s (execCportWrite f s) := by
  simp only [execCportWrite]
  split <;> simp
@[simp] theorem execCportWhistle_keepsSteady (f : Frame) (s : State) : KeepsSteady s (execCportWhistle f s) := by
  simp only [execCportWhistle]
  split <;> simp
@[simp] theorem execCportRunt_keepsSteady (s : State) : KeepsSteady s (execCportRunt s) := by simp [execCportRunt]

/-! ## The host bus unit as a target (Machine/HostBus) -/

@[simp] theorem earlyNote_stays (al : Fin 8) (u : Nat) (w : Bool) (s : State) : Stays s (earlyNote al u w s) := by
  simp [earlyNote]
@[simp] theorem unalignedNote_stays (al : Fin 8) (u : Nat) (l : Lanes) (s : State) :
    Stays s (unalignedNote al u l s) := by
  simp [unalignedNote]
@[simp] theorem discardNote_stays (al : Fin 8) (x : WLatch) (s : State) : Stays s (discardNote al x s) := by
  simp [discardNote]
@[simp] theorem reservedNote_stays (al : Fin 8) (u : Nat) (s : State) : Stays s (reservedNote al u s) := by
  simp [reservedNote]
@[simp] theorem deniedNote_stays (st : Fin 8) (u : Nat) (w : Bool) (s : State) : Stays s (deniedNote st u w s) := by
  simp [deniedNote]
@[simp] theorem strayNote_stays (al : Fin 8) (u : Nat) (s : State) : Stays s (strayNote al u s) := by
  simp [strayNote]
@[simp] theorem pioNote_stays (st : Fin 8) (push : Bool) (n : Nat) (s : State) : Stays s (pioNote st push n s) := by
  simp [pioNote]
@[simp] theorem pushApply_stays (st : Fin 8) (l : Lanes) (w : Word) (s : State) : Stays s (pushApply st l w s) := by
  simp only [pushApply]
  split <;> simp
@[simp] theorem popApply_stays (st : Fin 8) (l : Lanes) (s : State) : Stays s (popApply st l s).2 := by
  simp only [popApply, onlyIf]
  (repeat' split) <;> simp
@[simp] theorem sIrqClear_stays (st : Fin 8) (w : Word) (s : State) : Stays s (sIrqClear st w s) := by
  simp [sIrqClear]
@[simp] theorem blockWrite_stays (st : Fin 8) (r : Nat) (l : Lanes) (w : Word) (s : State) :
    Stays s (blockWrite st r l w s) := by
  simp only [blockWrite, onlyIf]
  (repeat' split) <;> simp
@[simp] theorem mailboxWrite_sound (st : Fin 8) (u b : Nat) (l : Lanes) (w : Word) (s : State) :
    Sound s (mailboxWrite st u b l w s) := by
  simp only [mailboxWrite]
  split <;> simp +contextual [memPutLanes_wf]
@[simp] theorem keepPut_stays (mir : Bool) (al : Fin 8) (k : Option WLatch × Option (BitVec 16 × Word)) (s : State) :
    Stays s (keepPut mir al k s) := by
  simp [keepPut]
@[simp] theorem snapDrop_stays (x : Spot) (al : Fin 8) (off : Nat) (s : State) : Stays s (snapDrop x al off s) := by
  simp only [snapDrop]
  (repeat' split) <;> simp
@[simp] theorem applyPosted_sound (al : Fin 8) (p : Posted) (s : State) : Sound s (applyPosted al p s) := by
  simp only [applyPosted]
  (repeat' split) <;> simp +contextual [memPutLanes_wf]
@[simp] theorem applyHead_sound (al : Fin 8) (s : State) : Sound s (applyHead al s) := by
  unfold applyHead
  split
  · exact (Steady.refl s).sound
  · exact (applyPosted_sound ..).trans (aliasPut_stays ..).sound
@[simp] theorem drainAlias_sound (al : Fin 8) (s : State) :
    Sound s (drainAlias al s) := by
  exact foldl_sound _ (fun _ _ => by simp +contextual) _ s
@[simp] theorem drainAll_sound (s : State) :
    Sound s (drainAll s) := by
  exact foldl_sound _ (fun _ _ => by simp +contextual) _ s
@[simp] theorem post_sound (al : Fin 8) (p : Posted) (s : State) :
    Sound s (post al p s) := by
  exact (aliasPut_stays ..).sound.trans (onlyIf_sound _ _ _ (applyHead_sound al s))
@[simp] theorem latchWrite_sound (x : Spot) (al : Fin 8) (wo : Nat) (l : Lanes) (w : Word) (s : State) :
    Sound s (latchWrite x al wo l w s) := by
  simp only [latchWrite]
  (repeat' split) <;> simp +contextual
@[simp] theorem readOut_stays (early : Bool) (al : Fin 8) (u : Nat) (l : Lanes) (v : Word) (s : State) :
    Stays s (readOut early al u l v s) := by
  simp [readOut]
@[simp] theorem regLive_stays (x : Spot) (l : Lanes) (drained : Nat) (s : State) :
    Stays s (regLive x l drained s).2 := by
  simp only [regLive, onlyIf]
  (repeat' split) <;> simp
@[simp] theorem mailboxRead_stays (st : Fin 8) (u b : Nat) (s : State) : Stays s (mailboxRead st u b s).2 := by
  simp only [mailboxRead]
  split <;> simp
@[simp] theorem memLive_stays (x : Spot) (u : Nat) (s : State) : Stays s (memLive x u s).2 := by
  simp only [memLive]
  split <;> simp
@[simp] theorem pioShort_stays (st : Fin 8) (x : PioWait) (u : Nat) (s : State) : Stays s (pioShort st x u s) := by
  simp [pioShort]
@[simp] theorem pioRead_stays (st : Fin 8) (early : Bool) (u : Nat) (l : Lanes) (s : State) :
    Stays s (pioRead st early u l s) := by
  simp [pioRead]
@[simp] theorem pioWrite_sound (st : Fin 8) (wo u : Nat) (l : Lanes) (w : Word) (s : State) :
    Sound s (pioWrite st wo u l w s) := by
  simp only [pioWrite]
  (repeat' split) <;> simp +contextual
@[simp] theorem readCycle_sound (early : Bool) (u : Nat) (l : Lanes) (s : State) :
    Sound s (readCycle early u l s) := by
  simp only [readCycle]
  (repeat' split) <;> simp +contextual
@[simp] theorem writeCycle_sound (u : Nat) (l : Lanes) (w : Word) (s : State) :
    Sound s (writeCycle u l w s) := by
  simp only [writeCycle]
  (repeat' split) <;> simp +contextual
@[simp] theorem runCycle_sound (c : Cycle) (s : State) :
    Sound s (runCycle c s) := by
  simp only [runCycle]
  (repeat' split) <;> simp +contextual
@[simp] theorem takeCycle_sound (c : Cycle) (s : State) :
    Sound s (takeCycle c s) := by
  simp only [takeCycle]
  (repeat' split) <;> simp +contextual
theorem execTargetRead_keepsSound (off : BitVec 16) (be : Lanes) (early : Bool) (s : State) :
    KeepsSound s (execTargetRead off be early s) := by
  simp +contextual [execTargetRead, keepsSound_next]
theorem execTargetWrite_keepsSound (off : BitVec 16) (be : Lanes) (data : Word) (early : Bool) (s : State) :
    KeepsSound s (execTargetWrite off be data early s) := by
  simp +contextual [execTargetWrite, keepsSound_next]
theorem execPostedWriteApply_keepsSound (al : Fin 8) (s : State) : KeepsSound s (execPostedWriteApply al s) := by
  simp only [execPostedWriteApply, keepsSound_next, onlyIf]
  (repeat' split) <;> simp +contextual
theorem execWhistleRead_keepsSound (via : Option (Fin 8)) (s : State) : KeepsSound s (execWhistleRead via s) := by
  simp only [execWhistleRead, keepsSound_next, onlyIf]
  (repeat' split) <;> simp +contextual
theorem execSIrqStatClear_keepsSound (st : Fin 8) (data : Word) (s : State) :
    KeepsSound s (execSIrqStatClear st data s) :=
  keepsSound_next.mpr (onlyIf_sound _ _ _ (applyPosted_sound ..))
theorem execPioPush_keepsSound (st : Fin 8) (s : State) : KeepsSound s (execPioPush st s) := by
  simp only [execPioPush, keepsSound_next, onlyIf]
  (repeat' split) <;> simp +contextual
theorem execPioPop_keepsSound (st : Fin 8) (s : State) : KeepsSound s (execPioPop st s) := by
  simp only [execPioPop, keepsSound_next, onlyIf]
  (repeat' split) <;> simp +contextual
theorem execPioWaitExpiry_keepsSound (st : Fin 8) (s : State) : KeepsSound s (execPioWaitExpiry st s) := by
  simp only [execPioWaitExpiry, keepsSound_next, onlyIf]
  (repeat' split) <;> simp +contextual
theorem execWhistleDrainEnd_keepsSound (s : State) : KeepsSound s (execWhistleDrainEnd s) := by
  simp only [execWhistleDrainEnd, keepsSound_next, onlyIf]
  (repeat' split) <;> simp +contextual
/-! ## PLL locks (Machine/Wake) -/

@[simp] theorem wakeWriteApply_steady (s : State) : Steady s (wakeWriteApply s) := by
  simp only [wakeWriteApply]
  split <;> simp
@[simp] theorem heldApply_sound (s : State) :
    Sound s (heldApply s) := by
  exact onlyIf_sound _ _ _ (foldl_sound _ (fun _ _ => runCycle_sound ..) _ _)
@[simp] theorem wakeEnd_sound (s : State) :
    Sound s (wakeEnd s) := by
  simp +contextual [wakeEnd]
@[simp] theorem lockTaken_steady (ticks : Byte) (s : State) : Steady s (lockTaken ticks s) := by
  simp [lockTaken]

end Invariants

section Steps

/-! ## Steps that move the level -/

/-- LEVEL2 is held by a manager alone, and a part in a class P or D reset is at LEVEL0. -/
def LevelInv (s : State) : Prop :=
  (s.restart.level = .level2 → isManager s = true) ∧
    (s.power.core = .inResetP ∨ s.power.core = .inResetD → s.restart.level = .level0)

/-- What a step keeps of every state: the invariant of the level, and the form of both byte memories. -/
def Upholds (s t : State) : Prop :=
  (LevelInv s → LevelInv t) ∧ (Memory.wf s.hbu.mailbox = true → Memory.wf t.hbu.mailbox = true) ∧
    (Memory.wf s.hbu.ringSram = true → Memory.wf t.hbu.ringSram = true)

/-- The form of both byte memories is kept. -/
@[reducible, simp] def KeepsForm (s t : State) : Prop :=
  (Memory.wf s.hbu.mailbox = true → Memory.wf t.hbu.mailbox = true) ∧
    (Memory.wf s.hbu.ringSram = true → Memory.wf t.hbu.ringSram = true)

theorem Upholds.refl (s : State) : Upholds s s := ⟨id, id, id⟩

theorem Upholds.trans {s t u : State} (h : Upholds t u) (k : Upholds s t) : Upholds s u :=
  ⟨fun m => h.1 (k.1 m), fun m => h.2.1 (k.2.1 m), fun m => h.2.2 (k.2.2 m)⟩

theorem Sound.upholds {s t : State} (h : Sound s t) (hrole : isManager t = isManager s) : Upholds s t := by
  obtain ⟨hcore, hlevel, hform⟩ := h
  exact ⟨fun hs => by rwa [LevelInv, hcore, hlevel, hrole], hform⟩

/-- A step that ends at LEVEL0 upholds the invariant of the level in every state. -/
theorem Upholds.of_level0 {s t : State} (hlevel : t.restart.level = .level0) (hform : KeepsForm s t) : Upholds s t :=
  ⟨fun _ => ⟨by simp [hlevel], fun _ => hlevel⟩, hform⟩

/-- A step that leaves the core out of a reset, and does not rise to LEVEL2, upholds it. -/
theorem Upholds.of_out {s t : State} (hlevel : t.restart.level = .level2 → s.restart.level = .level2)
    (hrole : isManager t = isManager s) (hcore : t.power.core ≠ .inResetP ∧ t.power.core ≠ .inResetD)
    (hform : KeepsForm s t) : Upholds s t :=
  ⟨fun hs => ⟨fun h => hrole.trans (hs.1 (hlevel h)), fun h => absurd h (not_or.mpr hcore)⟩, hform⟩

theorem KeepsForm.trans {s t u : State} (h : KeepsForm t u) (k : KeepsForm s t) : KeepsForm s u :=
  ⟨fun m => h.1 (k.1 m), fun m => h.2 (k.2 m)⟩

theorem Steady.form {s t : State} (h : Steady s t) : KeepsForm s t := h.sound.2.2

theorem core_of_running {s : State} (h : running s = true) : s.power.core = .running := by simpa [running] using h

theorem running_of_unitsUp {s : State} (h : unitsUp s = true) : running s = true := by
  simp only [unitsUp, Bool.and_eq_true] at h
  exact h.1.1

theorem onlyIf_cases {c : Bool} {f : State → State} {s : State} {P : State → Prop} (hs : P s) (hf : c = true →
    P (f s)) :
    P (onlyIf c f s) := by
  cases c
  · exact hs
  · exact hf rfl

@[simp] theorem setLevel_level (l : Level) (s : State) : (setLevel l s).restart.level = l := by
  simp only [setLevel]
  split
  · assumption
  · rfl

@[simp] theorem failstop_core (s : State) : (failstop s).power.core = s.power.core := by simp [failstop]
@[simp] theorem failstop_hbu (s : State) : (failstop s).hbu = s.hbu := by
  simp only [failstop]
  split <;> simp
@[simp] theorem failstop_level (s : State) : (failstop s).restart.level = .failstop := by
  simp only [failstop]
  split
  · assumption
  · simp

theorem audit_level (reset : Option (Fin 8)) (s : State) (h : (audit reset s).restart.level = .level2) :
    s.restart.level = .level2 := by
  simp only [audit] at h
  split at h
  · exact h
  · simp at h
@[simp] theorem audit_core (reset : Option (Fin 8)) (s : State) : (audit reset s).power.core = s.power.core := by
  simp only [audit]
  split <;> simp
@[simp] theorem audit_hbu (reset : Option (Fin 8)) (s : State) : (audit reset s).hbu = s.hbu := by
  simp only [audit]
  split <;> simp

/-- What a class C reset leaves: LEVEL0 and empty byte memories (R114). -/
@[simp] theorem resetC_clears (s : State) :
    (resetC s).restart.level = .level0 ∧ (resetC s).hbu.mailbox = [] ∧ (resetC s).hbu.ringSram = [] :=
  ⟨rfl, rfl, rfl⟩

@[simp] theorem wf_nil : Memory.wf [] = true := rfl

/-- Where the outcome is a next state, it is one that upholds the invariants. -/
def KeepsInvs (s : State) (o : Out) : Prop := ∀ t, o = .next t → Upholds s t

theorem keepsInvs_next {s t : State} : KeepsInvs s (.next t) ↔ Upholds s t := by simp [KeepsInvs]

theorem KeepsSound.invs {s : State} {o : Out} (h : KeepsSound s o) (hrole : Keeps (fun u => u.restart.straps) s o) :
    KeepsInvs s o := fun t ht => (h t ht).upholds (congrArg Straps.role (hrole t ht))

theorem KeepsSteady.invs {s : State} {o : Out} (h : KeepsSteady s o) (hrole : Keeps (fun u => u.restart.straps) s o) :
    KeepsInvs s o := KeepsSound.invs (fun t ht => (h t ht).sound) hrole

theorem execPowerOn_invs (sup : Supplies) (vstby : Bool) (s : State) : KeepsInvs s (execPowerOn sup vstby s) :=
  keepsInvs_next.mpr (onlyIf_cases (.refl s) fun _ => .of_level0 rfl ⟨fun _ => rfl, fun _ => rfl⟩)

theorem execPowerGoodMet_invs (sup : Supplies) (s : State) : KeepsInvs s (execPowerGoodMet sup s) := by
  refine keepsInvs_next.mpr (onlyIf_cases (.refl s) fun _ => ?_)
  split
  · exact .refl s
  · exact .refl s
  · exact Sound.upholds ((Steady.refl s).sound) rfl
  · exact Sound.upholds ((Steady.refl s).sound) rfl
  · exact .of_level0 rfl ⟨fun _ => rfl, fun _ => rfl⟩
  · split
    · exact .refl s
    · exact .of_level0 rfl ⟨fun _ => rfl, fun _ => rfl⟩

/-- RESET_END takes a part from a reset, and so from LEVEL0, to the start of the restart path, which stays there. -/
theorem execResetEnd_invs (straps : Straps) (s : State) : KeepsInvs s (execResetEnd straps s) := by
  refine keepsInvs_next.mpr (onlyIf_cases (.refl s) fun hc => ?_)
  simp only [Bool.and_eq_true, Bool.or_eq_true, beq_iff_eq] at hc
  refine ⟨fun hs => ?_, ?_, ?_⟩
  · have h0 := hs.2 hc.1
    exact ⟨by simp [h0], by simp⟩
  · simp
  · simp

theorem enterD_upholds (cut : ProgEnd) (s : State) : Upholds s (enterD cut s) := by
  simp only [enterD]
  split
  · exact .refl s
  · exact .of_level0 rfl ⟨fun _ => rfl, fun _ => rfl⟩

theorem execResetNLow_invs (cut : ProgEnd) (s : State) : KeepsInvs s (execResetNLow cut s) :=
  keepsInvs_next.mpr (enterD_upholds cut s)

/-- A stop as after a trip leaves the core stopped, at the level that it had. -/
theorem tripStop_stops (src : TripSrc) (cut : ProgEnd) (s : State) :
    (tripStop src cut s).power.core = .stopped ∧ (tripStop src cut s).restart.level = s.restart.level ∧
      KeepsForm s (tripStop src cut s) := by
  simp [tripStop]

theorem tripStop_upholds (src : TripSrc) (cut : ProgEnd) (s : State) : Upholds s (tripStop src cut s) := by
  obtain ⟨hcore, hlevel, hform⟩ := tripStop_stops src cut s
  exact .of_out (hlevel ▸ id) (by simp [isManager]) (by simp [hcore]) hform

theorem execPowerFailTrip_invs (src : TripSrc) (sup : Supplies) (cut : ProgEnd) (s : State) :
    KeepsInvs s (execPowerFailTrip src sup cut s) :=
  keepsInvs_next.mpr (onlyIf_cases (.refl s) fun _ =>
    tripStop_upholds src cut { s with power := { s.power with sup := sup } })

/-- A loss of lock moves the level to LEVEL0 or leaves it. -/
theorem lockFall_level (old : Level) (elapsed : Nat) (s : State) (h : (lockFall old elapsed s).restart.level =
    .level2) :
    s.restart.level = .level2 := by
  cases old <;> simp_all [lockFall]

@[simp] theorem lockFall_core (old : Level) (elapsed : Nat) (s : State) :
    (lockFall old elapsed s).power.core = s.power.core := by
  cases old <;> simp [lockFall]
theorem lockFall_form (old : Level) (elapsed : Nat) (s : State) : KeepsForm s (lockFall old elapsed s) := by
  cases old <;> simp [lockFall]

theorem execXinLoss_invs (cut : ProgEnd) (s : State) : KeepsInvs s (execXinLoss cut s) := by
  refine keepsInvs_next.mpr (onlyIf_cases (.refl s) fun _ => ?_)
  extract_lets _ u
  have hu : Steady s u := by simp [u]
  have hfall : KeepsForm s (if u.clk.bypass then u else lockFall u.restart.level 0 u) := by
    split
    · exact hu.form
    · exact (lockFall_form u.restart.level 0 u).trans hu.form
  obtain ⟨hcore, hlevel, hform⟩ := tripStop_stops .xin .ends (if u.clk.bypass then u else lockFall
    u.restart.level 0 u)
  refine .of_out ?_ (by split <;> simp [isManager, u]) (by simp [hcore]) (hform.trans hfall)
  rw [hlevel, ← hu.2.1]
  split
  · exact id
  · exact lockFall_level _ _ _

theorem execBankAbsent_invs (b : Bank) (cut : ProgEnd) (s : State) : KeepsInvs s (execBankAbsent b cut s) := by
  have hshow : Stays s (bankShow b false s) := by simp
  have hstay := Sound.upholds hshow.sound (by simp [isManager])
  simp only [execBankAbsent]
  cases b with
  | h =>
    refine keepsInvs_next.mpr ?_
    exact enterD_upholds cut (bankShow .h false s)
  | b18 => exact keepsInvs_next.mpr (onlyIf_cases hstay fun _ => tripStop_upholds .vio18 cut (bankShow .b18 false s))
  | b33 => exact keepsInvs_next.mpr hstay
  | sn p => exact keepsInvs_next.mpr hstay
  | a => exact keepsInvs_next.mpr (Sound.upholds (Stays.sound (by simp)) (by simp [isManager]))

/-- A part that is turned off upholds the invariants. -/
theorem Upholds.off {s t u : State} (h : Upholds s t) (hlevel : u.restart = t.restart) (hhbu : u.hbu = t.hbu)
    (hcore : u.power.core = .off) : Upholds s u :=
  (Upholds.of_out (s := t) (hlevel ▸ id) (by rw [isManager, hlevel]; rfl) (by simp [hcore]) (by simp [hhbu])).trans h

theorem execSupplyBelowResetLevel_invs (vstby : Bool) (sup : Supplies) (cut : ProgEnd) (s : State) :
    KeepsInvs s (execSupplyBelowResetLevel vstby sup cut s) := by
  unfold execSupplyBelowResetLevel
  extract_lets _ levels stopped
  have hlevels : Upholds s levels := Sound.upholds (Steady.refl s).sound rfl
  have hstopped : Upholds s stopped := by
    simp only [stopped]
    split
    · exact (tripStop_upholds ..).trans hlevels
    · exact hlevels
  split
  · exact keepsInvs_next.mpr (hstopped.off rfl rfl rfl)
  · exact keepsInvs_next.mpr (onlyIf_cases hstopped fun _ => hstopped.off rfl rfl rfl)

/-- A restart after lock leaves the part at LEVEL0 with empty byte memories (R27, R114). -/
theorem lockGoesOn_upholds (s : State) : Upholds s (lockGoesOn s) := by
  simp only [lockGoesOn]
  split
  · exact .refl s
  split
  · exact Sound.upholds (wakeEnd_sound s) (by simp [isManager])
  split
  · exact .of_level0 (by simp) (by simp)
  · exact Sound.upholds (Stays.sound (by simp)) (by simp [isManager])

theorem execPllLock_invs (ticks : Byte) (s : State) : KeepsInvs s (execPllLock ticks s) :=
  keepsInvs_next.mpr (onlyIf_cases (.refl s) fun _ => lockGoesOn_upholds (lockTaken ticks s))

@[simp] theorem lockLoss_core (elapsed : Nat) (cut : ProgEnd) (s : State) :
    (lockLoss elapsed cut s).power.core = s.power.core := by
  simp [lockLoss]
theorem lockLoss_level (elapsed : Nat) (cut : ProgEnd) (s : State) (h : (lockLoss elapsed cut s).restart.level
    = .level2) :
    s.restart.level = .level2 := by
  simpa using lockFall_level _ _ _ h
theorem lockLoss_form (elapsed : Nat) (cut : ProgEnd) (s : State) : KeepsForm s (lockLoss elapsed cut s) := by
  unfold lockLoss
  extract_lets old u _ v
  have hv : Steady s (logRec .pllLost [v.clk.lockLossCount, BitVec.ofNat 8 old.num] v) := by simp [v, u]
  exact (lockFall_form old elapsed _).trans hv.form

theorem lockLoss_upholds (elapsed : Nat) (cut : ProgEnd) {s : State} (hrun : running s = true) :
    Upholds s (lockLoss elapsed cut s) :=
  .of_out (lockLoss_level elapsed cut s) (by simp [isManager]) (by simp [core_of_running hrun]) (lockLoss_form ..)

theorem execPllLockLoss_invs (elapsed : Nat) (cut : ProgEnd) (s : State) :
    KeepsInvs s (execPllLockLoss elapsed cut s) := by
  refine keepsInvs_next.mpr (onlyIf_cases (.refl s) fun hc => ?_)
  simp only [Bool.and_eq_true] at hc
  exact lockLoss_upholds elapsed cut hc.1

theorem execDozeRelockTimeout_invs (s : State) : KeepsInvs s (execDozeRelockTimeout s) := by
  refine keepsInvs_next.mpr (onlyIf_cases (.refl s) fun hc => ?_)
  simp only [Bool.and_eq_true] at hc
  extract_lets _ _ u
  have hu : Steady s u := (wakeDone_stays _).steady
  have hrun : running u = true := by rw [running, hu.1]; exact hc.1.1.1
  have hloss := (lockLoss_upholds 0 .ends hrun).trans (Sound.upholds hu.sound (by simp [isManager, u]))
  exact (Sound.upholds (wakeWriteApply_steady _).sound (by simp [isManager])).trans hloss

theorem execLevel1Entry_invs (tier2 : Option (Half × Half)) (s : State) : KeepsInvs s (execLevel1Entry tier2 s) := by
  refine keepsInvs_next.mpr (onlyIf_cases (.refl s) fun hc => ?_)
  simp only [atStage, unitsRun, Bool.and_eq_true] at hc
  have hrun := core_of_running (running_of_unitsUp hc.1.1.1.1.1.1.1.1)
  exact .of_out (by simp [level1Entry]) (by simp [isManager]) (by simp [level1Entry, hrun]) (by simp [level1Entry])

/-- LEVEL2 is entered by a manager alone (R543). -/
theorem execLevel2Entry_invs (fail : Option (Fin 3 × Word)) (s : State) : KeepsInvs s (execLevel2Entry fail s) := by
  refine keepsInvs_next.mpr (onlyIf_cases (.refl s) fun hc => ?_)
  simp only [unitsRun, Bool.and_eq_true] at hc
  obtain ⟨⟨⟨⟨hup, -⟩, hman⟩, -⟩, -⟩ := hc
  have hrun := core_of_running (running_of_unitsUp hup)
  split
  · exact Sound.upholds (Stays.sound (by simp)) (by simp [isManager])
  · split
    · refine ⟨fun _ => ⟨fun _ => ?_, fun h => ?_⟩, ?_⟩
      · simpa [isManager] using hman
      · simp [level2Entry, hrun] at h
      · simp [level2Entry]
    · exact Sound.upholds (Stays.sound (by simp)) (by simp [isManager])

theorem execControlResetStart_invs (cut : ProgEnd) (s : State) : KeepsInvs s (execControlResetStart cut s) :=
  keepsInvs_next.mpr (onlyIf_cases (.refl s) fun _ => .of_level0 (by simp) (by simp))

theorem execStandbyCommit_invs (s : State) : KeepsInvs s (execStandbyCommit s) := by
  refine keepsInvs_next.mpr ?_
  simp only [commitPoint]
  split
  · exact .refl s
  split
  · exact Sound.upholds (Stays.sound (by simp)) (by simp [isManager])
  split
  · exact .of_level0 rfl ⟨fun _ => rfl, fun _ => rfl⟩
  split
  · exact .refl s
  · exact Sound.upholds (Stays.sound (by simp)) (by simp [isManager])

theorem execNvCommitDone_invs (ok : Bool) (s : State) : KeepsInvs s (execNvCommitDone ok s) := by
  refine keepsInvs_next.mpr (onlyIf_cases (.refl s) fun hrun => ?_)
  simp only [nvCommitDone]
  split
  · split
    · exact Sound.upholds (Stays.sound (by simp)) (by simp [isManager])
    · exact .of_out (by simp) (by simp [isManager]) (by simp [core_of_running hrun]) (by simp)
  · exact .refl s

theorem audit_upholds (reset : Option (Fin 8)) {s : State} (hrun : running s = true) : Upholds s (audit reset s) :=
  .of_out (audit_level reset s) (by simp [isManager]) (by simp [core_of_running hrun]) (by simp)

theorem execLedgerAudit_invs (s : State) : KeepsInvs s (execLedgerAudit s) := by
  refine keepsInvs_next.mpr (onlyIf_cases (.refl s) fun hc => ?_)
  simp only [auditRuns, Bool.and_eq_true] at hc
  exact audit_upholds none (running_of_unitsUp hc.1.1.1)

theorem execStudioResetEnd_invs (st : Fin 8) (s : State) : KeepsInvs s (execStudioResetEnd st s) := by
  refine keepsInvs_next.mpr (onlyIf_cases (.refl s) fun hc => ?_)
  simp only [unitsRun, Bool.and_eq_true] at hc
  have haudit (u : Studio) : Upholds s (audit (some st) (studioPut st u s)) :=
    audit_upholds (some st) (s := studioPut st u s) (running_of_unitsUp hc.1.1.1)
  simp only [studioResetEnd]
  split
  · exact haudit _
  · exact (Sound.upholds (studioPut_stays ..).sound (by simp [isManager])).trans (haudit _)

theorem execCtrlParity_invs (unit : Byte) (address : Word) (s : State) : KeepsInvs s (execCtrlParity unit
    address s) :=
  keepsInvs_next.mpr (onlyIf_cases (.refl s) fun hrun =>
    .of_out (by simp) (by simp [isManager]) (by simp [core_of_running hrun]) (by simp))

/-! ## The command table -/

/-- Every command upholds the invariants: those that move the level or write a byte memory by their own lemma,
    all others
because they leave the core's status, the level and both byte memories as they were. -/
theorem exec_invs (c : Instr) (s : State) : KeepsInvs s (exec c s) := by
  have hrole := exec_keeps_straps c s
  cases c
  case powerOn => apply execPowerOn_invs
  case powerGoodMet => apply execPowerGoodMet_invs
  case resetEnd => apply execResetEnd_invs
  case resetNLow => apply execResetNLow_invs
  case powerFailTrip => apply execPowerFailTrip_invs
  case xinLoss => apply execXinLoss_invs
  case bankAbsent => apply execBankAbsent_invs
  case supplyBelowResetLevel => apply execSupplyBelowResetLevel_invs
  case pllLock => apply execPllLock_invs
  case pllLockLoss => apply execPllLockLoss_invs
  case dozeRelockTimeout => apply execDozeRelockTimeout_invs
  case level1Entry => apply execLevel1Entry_invs
  case level2Entry => apply execLevel2Entry_invs
  case controlResetStart => apply execControlResetStart_invs
  case standbyCommit => apply execStandbyCommit_invs
  case nvCommitDone => apply execNvCommitDone_invs
  case ledgerAudit => apply execLedgerAudit_invs
  case studioResetEnd => apply execStudioResetEnd_invs
  case ctrlParity => apply execCtrlParity_invs
  case completionPost => exact KeepsSound.invs (by apply execCompletionPost_keepsSound) (hrole (by simp))
  case hostRefillDone => exact KeepsSound.invs (by apply execHostRefillDone_keepsSound) (hrole (by simp))
  case targetRead => exact KeepsSound.invs (by apply execTargetRead_keepsSound) (hrole (by simp))
  case targetWrite => exact KeepsSound.invs (by apply execTargetWrite_keepsSound) (hrole (by simp))
  case postedWriteApply => exact KeepsSound.invs (by apply execPostedWriteApply_keepsSound) (hrole (by simp))
  case whistleRead => exact KeepsSound.invs (by apply execWhistleRead_keepsSound) (hrole (by simp))
  case sIrqStatClear => exact KeepsSound.invs (by apply execSIrqStatClear_keepsSound) (hrole (by simp))
  case pioPush => exact KeepsSound.invs (by apply execPioPush_keepsSound) (hrole (by simp))
  case pioPop => exact KeepsSound.invs (by apply execPioPop_keepsSound) (hrole (by simp))
  case pioWaitExpiry => exact KeepsSound.invs (by apply execPioWaitExpiry_keepsSound) (hrole (by simp))
  case whistleDrainEnd => exact KeepsSound.invs (by apply execWhistleDrainEnd_keepsSound) (hrole (by simp))
  all_goals exact KeepsSteady.invs (by simp [exec]) (hrole (by simp))

/-- Every step upholds the invariants; a block with an empty queue idles. -/
theorem step_upholds {s t : State} (h : step s = .next t) : Upholds s t := by
  unfold step at h
  split at h
  · cases h
    exact .refl s
  · have hnext := exec_invs _ _ t h
    exact hnext

end Steps

/-- Settles O59: every command upholds the invariant of the level. -/
theorem workersStayBelowLevel2 : Obligations.WorkersStayBelowLevel2 :=
  fun _ _ h hmanager hreset => (step_upholds h).1 ⟨hmanager, hreset⟩

/-- Settles O60: of the commands that write a byte memory, each writes it byte by byte in its canonical form. -/
theorem memoriesKeepTheirForm : Obligations.MemoriesKeepTheirForm :=
  fun _ _ h => (step_upholds h).2

end Sys2Proof.Machine
end

section
/-! How a guarded command reaches its state, and the plainest statements: a step runs the command at the front, the values
of the reset state, and the power-on (R112). -/

namespace Sys2Proof.Machine

open Sys2Proof.Safety

section GuardedCommands

/-! ## The branches of a conditional, component by component -/

section Conditionals

variable (c : Prop) [Decidable c]

@[simp] theorem ite_power (a b : State) : (if c then a else b).power = if c then a.power else b.power :=
  apply_ite State.power c a b
@[simp] theorem ite_restart (a b : State) : (if c then a else b).restart = if c then a.restart else b.restart :=
  apply_ite State.restart c a b
@[simp] theorem ite_ident (a b : State) : (if c then a else b).ident = if c then a.ident else b.ident :=
  apply_ite State.ident c a b
@[simp] theorem ite_nv (a b : State) : (if c then a else b).nv = if c then a.nv else b.nv :=
  apply_ite State.nv c a b
@[simp] theorem ite_log (a b : State) : (if c then a else b).log = if c then a.log else b.log :=
  apply_ite State.log c a b
@[simp] theorem ite_pathC (a b : State) : (if c then a else b).pathC = if c then a.pathC else b.pathC :=
  apply_ite State.pathC c a b
@[simp] theorem ite_pathM (a b : State) : (if c then a else b).pathM = if c then a.pathM else b.pathM :=
  apply_ite State.pathM c a b
@[simp] theorem ite_mgmt (a b : State) : (if c then a else b).mgmt = if c then a.mgmt else b.mgmt :=
  apply_ite State.mgmt c a b
@[simp] theorem ite_hbu (a b : State) : (if c then a else b).hbu = if c then a.hbu else b.hbu :=
  apply_ite State.hbu c a b
@[simp] theorem ite_ledger (a b : State) : (if c then a else b).ledger = if c then a.ledger else b.ledger :=
  apply_ite State.ledger c a b
@[simp] theorem ite_dma (a b : State) : (if c then a else b).dma = if c then a.dma else b.dma :=
  apply_ite State.dma c a b
@[simp] theorem ite_queues (a b : State) : (if c then a else b).queues = if c then a.queues else b.queues :=
  apply_ite State.queues c a b
@[simp] theorem ite_members (a b : State) : (if c then a else b).members = if c then a.members else b.members :=
  apply_ite State.members c a b
@[simp] theorem ite_arrs (a b : State) : (if c then a else b).arrs = if c then a.arrs else b.arrs :=
  apply_ite State.arrs c a b
@[simp] theorem ite_vols (a b : State) : (if c then a else b).vols = if c then a.vols else b.vols :=
  apply_ite State.vols c a b
@[simp] theorem ite_canvas (a b : State) : (if c then a else b).canvas = if c then a.canvas else b.canvas :=
  apply_ite State.canvas c a b
@[simp] theorem ite_skb (a b : State) : (if c then a else b).skb = if c then a.skb else b.skb :=
  apply_ite State.skb c a b
@[simp] theorem ite_studios (a b : State) : (if c then a else b).studios = if c then a.studios else b.studios :=
  apply_ite State.studios c a b
@[simp] theorem ite_referee (a b : State) : (if c then a else b).referee = if c then a.referee else b.referee :=
  apply_ite State.referee c a b
@[simp] theorem ite_roster (a b : State) : (if c then a else b).roster = if c then a.roster else b.roster :=
  apply_ite State.roster c a b
@[simp] theorem ite_regions (a b : State) : (if c then a else b).regions = if c then a.regions else b.regions :=
  apply_ite State.regions c a b
@[simp] theorem ite_ring (a b : State) : (if c then a else b).ring = if c then a.ring else b.ring :=
  apply_ite State.ring c a b
@[simp] theorem ite_palette (a b : State) : (if c then a else b).palette = if c then a.palette else b.palette :=
  apply_ite State.palette c a b
@[simp] theorem ite_freeCtr (a b : State) : (if c then a else b).freeCtr = if c then a.freeCtr else b.freeCtr :=
  apply_ite State.freeCtr c a b
@[simp] theorem Ring.ite_fa (a b : Ring) : (if c then a else b).fa = if c then a.fa else b.fa := apply_ite Ring.fa c a b
@[simp] theorem Ring.ite_fb (a b : Ring) : (if c then a else b).fb = if c then a.fb else b.fb := apply_ite Ring.fb c a b
@[simp] theorem RPort.ite_link (a b : RPort) : (if c then a else b).link = if c then a.link else b.link :=
  apply_ite RPort.link c a b

end Conditionals

/-! ## How a command reaches a state -/

/-- Two states with the same components are the same. -/
theorem State.ext {s t : State} (pending : s.pending = t.pending) (power : s.power = t.power)
    (standby : s.standby = t.standby) (clk : s.clk = t.clk) (restart : s.restart = t.restart) (ident : s.ident = t.ident)
    (nv : s.nv = t.nv) (log : s.log = t.log) (pathC : s.pathC = t.pathC) (pathM : s.pathM = t.pathM)
    (cport : s.cport = t.cport) (mgmt : s.mgmt = t.mgmt) (scratch : s.scratch = t.scratch) (hbu : s.hbu = t.hbu)
    (ledger : s.ledger = t.ledger) (dma : s.dma = t.dma) (queues : s.queues = t.queues) (members : s.members = t.members)
    (arrs : s.arrs = t.arrs) (vols : s.vols = t.vols) (canvas : s.canvas = t.canvas) (skb : s.skb = t.skb)
    (studios : s.studios = t.studios) (referee : s.referee = t.referee) (roster : s.roster = t.roster)
    (regions : s.regions = t.regions) (ring : s.ring = t.ring) (palette : s.palette = t.palette)
    (freeCtr : s.freeCtr = t.freeCtr) : s = t := by
  cases s
  cases t
  simp only at *
  subst_vars
  rfl

/-- A command whose guard holds reaches what its operation gives. -/
theorem reaches_of_guard {i : Instr} {c : Bool} {f : State → State} {s u : State} {Q : State → Prop}
    (hexec : exec i s = .next (onlyIf c f u)) (hc : c = true) (hq : Q (f u)) : reaches i s Q :=
  ⟨f u, by rw [hexec, hc]; rfl, hq⟩

/-- A command whose guard fails leaves the state. -/
theorem reaches_same {i : Instr} {c : Bool} {f : State → State} {s u : State}
    (hexec : exec i s = .next (onlyIf c f u)) (hc : c = false) : reaches i s fun t => t = u :=
  ⟨u, by rw [hexec, hc]; rfl, rfl⟩

end GuardedCommands

/-- Settles O1: both are the cases of `step`. -/
theorem stepRunsTheFrontCommand : Obligations.StepRunsTheFrontCommand := fun _ _ _ => ⟨rfl, rfl⟩

/-- Settles O2: each value by evaluation of the reset state. -/
theorem resetStateValues : Obligations.ResetStateValues := by
  refine ⟨rfl, rfl, rfl, rfl, rfl, ?_, ?_, ?_, ?_, ?_, ?_, rfl, rfl, rfl, rfl, rfl, rfl, rfl, rfl, rfl, rfl, rfl, rfl, rfl, rfl, rfl, rfl⟩
  all_goals decide +kernel

/-- Settles O3: a class P reset with the supplies shown, after the standby domain's own reset where VSTBY rose. -/
theorem powerOnResetsThePart : Obligations.PowerOnResetsThePart := by
  intro s sup vstby hoff
  refine reaches_of_guard rfl (by simp [hoff]) ?_
  cases vstby <;>
    exact ⟨rfl, rfl, rfl, rfl, rfl, rfl, rfl, rfl, rfl, rfl, rfl, rfl, rfl, rfl, rfl, rfl, rfl, rfl, rfl, rfl, rfl, rfl, rfl⟩

end Sys2Proof.Machine
end

section
/-! A register write through an open control path (R143 to R149, R152): where every check passes it is the register's own
write, of a state whose arm is one access older, or spent where the write needs it. -/

namespace Sys2Proof.Machine

open Sys2Proof.Safety

section OpenPaths

/-! ## The arm -/

/-- An arm after one more access (R149). -/
def Arm.aged (a : Arm) : Option Arm := if a.left = 0 then none else some { a with left := a.left - 1 }

theorem armAge_eq (p : Path) (s : State) :
    armAge p s = pathPut p { pathGet p s with arm := (pathGet p s).arm.bind Arm.aged } s := by
  simp only [armAge]
  split
  case h_1 h =>
    rw [h, Option.bind_none, ← h]
    exact (pathPut_pathGet s p).symm
  case h_2 a h => simp [h, Arm.aged]

/-- What the age of an arm leaves: all but the path itself. -/
@[reducible, simp] def OffArm (s t : State) : Prop :=
  t.pending = s.pending ∧ t.power = s.power ∧ t.standby = s.standby ∧ t.clk = s.clk ∧ t.restart = s.restart ∧
    t.ident = s.ident ∧ t.nv = s.nv ∧ t.log = s.log ∧ t.cport = s.cport ∧ t.mgmt = s.mgmt ∧ t.scratch = s.scratch ∧
    t.hbu = s.hbu ∧ t.ledger = s.ledger ∧ t.dma = s.dma ∧ t.queues = s.queues ∧ t.members = s.members ∧ t.arrs = s.arrs ∧
    t.vols = s.vols ∧ t.canvas = s.canvas ∧ t.skb = s.skb ∧ t.studios = s.studios ∧ t.referee = s.referee ∧
    t.roster = s.roster ∧ t.regions = s.regions ∧ t.ring = s.ring ∧ t.palette = s.palette ∧ t.freeCtr = s.freeCtr

@[simp] theorem armAge_offArm (p : Path) (s : State) : OffArm s (armAge p s) := by simp [armAge_eq]
@[simp] theorem armSpent_offArm (p : Path) (s : State) : OffArm s (armSpent p s) := by simp [armSpent]

@[simp] theorem counterGet_armAge (k : Nat) (p : Path) (s : State) : counterGet k (armAge p s) = counterGet k s :=
  counterGet_congr (by simp) k
@[simp] theorem counterGet_armSpent (k : Nat) (p : Path) (s : State) : counterGet k (armSpent p s) = counterGet k s :=
  counterGet_congr (by simp) k

@[simp] theorem pathGet_armAge (p : Path) (s : State) :
    pathGet p (armAge p s) = { pathGet p s with arm := (pathGet p s).arm.bind Arm.aged } := by simp [armAge_eq]
@[simp] theorem pathGet_armSpent (p : Path) (s : State) : pathGet p (armSpent p s) = { pathGet p s with arm := none } := by
  simp [armSpent]

/-- An arm that is spent does not show its age. -/
theorem armSpent_armAge (p : Path) (s : State) : armSpent p (armAge p s) = armSpent p s := by simp [armSpent, armAge_eq]

/-- An arm that lasts for one more access is found by it. -/
theorem armAge_hasArm {p : Path} {code : BitVec 16} {s : State} (h : hasArm p code s) :
    (pathGet p (armAge p s)).arm.map (·.code) = some code := by
  obtain ⟨a, harm, ha⟩ : ∃ a, (pathGet p s).arm = some a ∧ (a.code = code ∧ 0 < a.left) := by
    simpa [hasArm, Option.any_eq_true] using h
  simp [harm, Arm.aged, ha.1, Nat.pos_iff_ne_zero.mp ha.2]

/-! ## Accesses through an open path -/

/-- With no entry to a sleep state under way there is nothing to cancel. -/
theorem cancelEntry_of_none {s : State} (hentry : s.power.entry = none) (hordered : s.power.ordered = none)
    (hdue : s.power.orderDue = none) : cancelEntry s = s := by
  obtain ⟨_, power⟩ := s
  obtain ⟨sup, core⟩ := power
  subst hentry hordered hdue
  rfl

theorem wake_of_run {s : State} (hrun : s.power.state = .run) (hentry : s.power.entry = none)
    (hordered : s.power.ordered = none) (hdue : s.power.orderDue = none) : wake s = s := by
  simp [wake, hrun, hentry, cancelEntry_of_none hentry hordered hdue]

theorem wake_armAge {p : Path} {s : State} (h : openPath p s) : wake (armAge p s) = armAge p s := by
  obtain ⟨-, -, hrun, -, hentry, hordered, hdue⟩ := h
  exact wake_of_run (by simp [hrun]) (by simp [hentry]) (by simp [hordered]) (by simp [hdue])

theorem wake_armSpent {p : Path} {s : State} (h : openPath p s) : wake (armSpent p s) = armSpent p s := by
  obtain ⟨-, -, hrun, -, hentry, hordered, hdue⟩ := h
  exact wake_of_run (by simp [hrun]) (by simp [hentry]) (by simp [hordered]) (by simp [hdue])

/-- The checks of R143 and R152 that the register and the lanes decide. -/
structure LaneChecks (off : Nat) (l : Lanes) : Prop where
  offset : off < 0xC0 ∧ off % 4 = 0
  lanes : l ≠ 0
  full : fullWidth off = true → l = 0xF
  narrow : narrowIgnored off = true → l = 0xF

theorem LaneChecks.offsetOk {off : Nat} {l : Lanes} (h : LaneChecks off l) : (decide (0xC0 ≤ off) || off % 4 != 0) = false := by
  simp [h.offset]
theorem LaneChecks.lanesOk {off : Nat} {l : Lanes} (h : LaneChecks off l) :
    (l == 0 || (fullWidth off && l != 0xF)) = false := by
  have hlanes := h.lanes
  have hfull := h.full
  cases hf : fullWidth off <;> simp_all

@[simp] theorem commitOn_armAge (p : Path) (s : State) : commitOn p (armAge p s) = commitOn p s := by simp [commitOn]
@[simp] theorem commitOn_armSpent (p : Path) (s : State) : commitOn p (armSpent p s) = commitOn p s := by simp [commitOn]
@[simp] theorem writeBusy_armAge (p : Path) (off : Nat) (s : State) : writeBusy p off (armAge p s) = writeBusy p off s := by
  simp [writeBusy, pathBusy]
@[simp] theorem pathLive_armAge (p q : Path) (s : State) : pathLive p (armAge q s) = pathLive p s := by
  cases p <;> simp [pathLive, running, mirrorLive, windowLive, isManager, atLevel2]

/-- A write whose register and lanes are in order and whose target is free passes, if it needs no arm … -/
theorem writeCheck_plain {p : Path} {off : Nat} {l : Lanes} {w : Word} {s : State} (hl : LaneChecks off l)
    (hbusy : writeBusy p off s = false) (harm : armNeed off l w = none) : writeCheck p off l w s = (csOk, false, s) := by
  simp only [writeCheck, hl.offsetOk, hl.lanesOk, hbusy, harm, Bool.false_eq_true, if_false]

/-- … or if it finds its arm, or may do without; the arm is spent. -/
theorem writeCheck_arm {p : Path} {off : Nat} {l : Lanes} {w : Word} {code : BitVec 16} {refuses ok : Bool} {s : State}
    (hl : LaneChecks off l) (hbusy : writeBusy p off s = false) (harm : armNeed off l w = some (code, refuses))
    (hok : (((pathGet p s).arm.map (·.code)) == some code && code != 0) = ok) (hneed : refuses = true → ok = true) :
    writeCheck p off l w s = (csOk, ok, armSpent p s) := by
  have hgo : (refuses && !ok) = false := by cases refuses <;> simp_all
  simp only [writeCheck, hl.offsetOk, hl.lanesOk, hbusy, harm, hok, hgo, Bool.false_eq_true, if_false]
  rfl

/-- A write that passes its checks through an open path takes effect at once. -/
theorem pathWrite_of_check {p : Path} {off : Nat} {l : Lanes} {w : Word} {ok : Bool} {s t : State} (hopen : openPath p s)
    (hcheck : writeCheck p off l w (armAge p s) = (csOk, ok, t)) (ht : t = armAge p s ∨ t = armSpent p s) :
    pathWrite p off l w (armAge p s) = (csOk, regWrite p off l w ok t) := by
  have hwake : wake t = t := by
    rcases ht with rfl | rfl
    · exact wake_armAge hopen
    · exact wake_armSpent hopen
  obtain ⟨-, -, hrun, -⟩ := hopen
  have hstate : t.power.state = .run := by rcases ht with rfl | rfl <;> simp [hrun]
  have happly : writeApply p off l w ok t = regWrite p off l w ok t := by simp [writeApply, hstate, hwake]
  simp [pathWrite, hcheck, happly]

theorem viaPath_of_check {p : Path} {off : Nat} {l : Lanes} {w : Word} {ok : Bool} {s t : State} (hopen : openPath p s)
    (hl : LaneChecks off l) (hcheck : writeCheck p off l w (armAge p s) = (csOk, ok, t))
    (ht : t = armAge p s ∨ t = armSpent p s) : viaPath p off l w s = regWrite p off l w ok t := by
  have hwrite := pathWrite_of_check hopen hcheck ht
  obtain ⟨hlive, -, -, hwaking, -⟩ := hopen
  have hnarrow : (narrowIgnored off && l != 0xF) = false := by
    cases h : narrowIgnored off <;> simp [hl.narrow, h]
  cases p
  case cport => simp [viaPath, hlive, hwrite]
  case mirror =>
    have hmirror : mirrorWrite off l w (armAge .mirror s) = regWrite .mirror off l w ok t := by
      simp only [mirrorWrite, hnarrow, hwrite, Bool.false_eq_true, if_false, beq_self_eq_true, if_true]
    simp [viaPath, hlive, hmirror, hwaking, onlyIf]

theorem viaPath_open {p : Path} {off : Nat} {l : Lanes} {w : Word} {s : State} (hopen : openPath p s)
    (hl : LaneChecks off l) (hbusy : writeBusy p off s = false) (harm : armNeed off l w = none) :
    viaPath p off l w s = regWrite p off l w false (armAge p s) :=
  viaPath_of_check hopen hl (writeCheck_plain hl (by simpa using hbusy) harm) (.inl rfl)

/-- A write that finds its arm spends it. -/
theorem viaPath_armed {p : Path} {off : Nat} {l : Lanes} {w : Word} {code : BitVec 16} {refuses : Bool} {s : State}
    (hopen : openPath p s) (hl : LaneChecks off l) (hbusy : writeBusy p off s = false)
    (hneed : armNeed off l w = some (code, refuses)) (harm : hasArm p code s) (hcode : code ≠ 0) :
    viaPath p off l w s = regWrite p off l w true (armSpent p s) := by
  refine viaPath_of_check hopen hl ?_ (.inr rfl)
  rw [← armSpent_armAge]
  exact writeCheck_arm hl (by simpa using hbusy) hneed (by rw [armAge_hasArm harm]; simpa using hcode) fun _ => rfl

end OpenPaths

end Sys2Proof.Machine
end

section
/-! Power-good, resets from outside, trips and what the restart path does up to the wait for lock (R82 to R98, R112 to R126). -/

namespace Sys2Proof.Machine

open Sys2Proof.Safety

section ResetsAndTrips

/-! ## The path up to the wait for lock -/

/-- What neither the end of a reset nor a stage of the path up to the wait for lock touches. -/
@[reducible, simp] def OffPath (s t : State) : Prop :=
  t.pending = s.pending ∧ t.ident = s.ident ∧ t.pathC = s.pathC ∧ t.pathM = s.pathM ∧ t.cport = s.cport ∧
    t.mgmt = s.mgmt ∧ t.scratch = s.scratch ∧ t.hbu = s.hbu ∧ t.dma = s.dma ∧ t.queues = s.queues ∧
    t.members = s.members ∧ t.arrs = s.arrs ∧ t.vols = s.vols ∧ t.canvas = s.canvas ∧ t.studios = s.studios ∧
    t.referee = s.referee ∧ t.roster = s.roster ∧ t.regions = s.regions ∧ t.palette = s.palette ∧ t.freeCtr = s.freeCtr

@[simp] theorem forcedUpdate_offPath (s : State) : OffPath s (forcedUpdate s) := by
  obtain ⟨f, p, q, h⟩ := forcedUpdate_writes s
  rw [h]
  simp
@[simp] theorem foldl_counterInc_offPath {α : Type} (e : Nat) (l : List α) (s : State) :
    OffPath s (l.foldl (fun s _ => counterInc e s) s) := by
  induction l generalizing s with
  | nil => simp
  | cons a l ih => simpa using ih (counterInc e s)
@[simp] theorem indexScan_offPath (s : State) : OffPath s (indexScan s) := by simp [indexScan]
@[simp] theorem noCopy_offPath (s : State) : OffPath s (noCopy s) := by simp [noCopy]
@[simp] theorem copyChoice_offPath (s : State) : OffPath s (copyChoice s) := by
  simp only [copyChoice]
  (repeat' split) <;> simp
@[simp] theorem onlyIf_offPath (c : Bool) (f : State → State) (s : State) (h : OffPath s (f s)) :
    OffPath s (onlyIf c f s) := by
  cases c <;> simp [onlyIf, h]
@[simp] theorem stageFour_offPath (s : State) : OffPath s (stageFour s) := by
  simp only [stageFour]
  split <;> simp
@[simp] theorem pathOn_offPath (s : State) : OffPath s (pathOn s) := by
  simp only [pathOn]
  split <;> simp
@[simp] theorem pllStart_offPath (s : State) : OffPath s (pllStart s) := by simp [pllStart]
@[simp] theorem stageTwo_offPath (s : State) : OffPath s (stageTwo s) := by
  simp only [stageTwo]
  (repeat' split) <;> simp

/-- What the stages up to the wait for lock keep of the NV area, the path itself and the clocks. -/
@[reducible, simp] def PathKeeps (s t : State) : Prop :=
  t.power = s.power ∧ t.standby = s.standby ∧ t.ring = s.ring ∧ t.nv.a = s.nv.a ∧ t.nv.b = s.nv.b ∧ t.restart.cause = s.restart.cause ∧ t.restart.ctrlRst = s.restart.ctrlRst ∧
    t.clk.tick = s.clk.tick ∧ t.clk.pllLock = s.clk.pllLock

@[simp] theorem forcedUpdate_rest (s : State) :
    (forcedUpdate s).power = s.power ∧ (forcedUpdate s).ring = s.ring ∧ (forcedUpdate s).nv = s.nv := by
  obtain ⟨f, p, q, h⟩ := forcedUpdate_writes s
  rw [h]
  simp
@[simp] theorem foldl_counterInc_rest {α : Type} (e : Nat) (l : List α) (s : State) :
    (l.foldl (fun s _ => counterInc e s) s).power = s.power ∧ (l.foldl (fun s _ => counterInc e s) s).ring = s.ring ∧
      (l.foldl (fun s _ => counterInc e s) s).nv = s.nv := by
  induction l generalizing s with
  | nil => simp
  | cons a l ih => simpa using ih (counterInc e s)
@[simp] theorem indexScan_rest (s : State) :
    (indexScan s).power = s.power ∧ (indexScan s).ring = s.ring ∧ (indexScan s).nv = s.nv := by
  simp [indexScan]
@[simp] theorem noCopy_pathKeeps (s : State) : PathKeeps s (noCopy s) := by simp [noCopy]
@[simp] theorem copyChoice_pathKeeps (s : State) : PathKeeps s (copyChoice s) := by
  simp only [copyChoice]
  (repeat' split) <;> simp
@[simp] theorem stageFour_pathKeeps (s : State) : PathKeeps s (stageFour s) := by
  simp only [stageFour]
  split <;> simp
@[simp] theorem pathOn_pathKeeps (s : State) : PathKeeps s (pathOn s) := by
  simp only [pathOn]
  split <;> simp
@[simp] theorem pllStart_pathKeeps (s : State) : PathKeeps s (pllStart s) := by simp [pllStart]
@[simp] theorem stageTwo_pathKeeps (s : State) : PathKeeps s (stageTwo s) := by
  simp only [stageTwo]
  (repeat' split) <;> simp

/-- A record of a class other than WARN is not forwarded. -/
theorem logRec_ring_of_note {c : Code} (h : c.info.2.1.isWarn = false) (args : List Byte) (s : State) :
    (logRec c args s).ring = s.ring := by
  simp only [logRec, logAs]
  split
  · rfl
  · simp only [logForward, h, logSums_ring]
    split <;> simp

/-- A record of a code that is not copied into the black box leaves the NV area. -/
theorem logRec_nv_of_plain {c : Code} (h : c.info.2.2 = false) (args : List Byte) (s : State) :
    (logRec c args s).nv = s.nv := by
  simp only [logRec, logAs, h]
  split <;> simp

/-- Of the NV area a record may ask for a page of the black box, and moves its sequence number. -/
@[simp] theorem logRec_nvCopies (c : Code) (args : List Byte) (s : State) :
    (logRec c args s).nv.a = s.nv.a ∧ (logRec c args s).nv.b = s.nv.b ∧
      (logRec c args s).nv.present = s.nv.present ∧ (logRec c args s).nv.session = s.nv.session ∧
      (logRec c args s).nv.commits = s.nv.commits := by
  simp only [logRec, logAs]
  split
  · simp
  · split <;> simp [bbCopy]

theorem restartWrite_writes (trigger : Cause) (prev : Option Level) (s : State) :
    (restartWrite trigger prev s).restart.cause = (causeOf trigger s).1 ∧
      (restartWrite trigger prev s).restart.ctrlRst = s.restart.ctrlRst ∧
      (restartWrite trigger prev s).standby =
        { s.standby with
          restartCount := ctrInc s.standby.restartCount, tripLatch := none, exiting := none, levelLatch := some .level0 } ∧
      (restartWrite trigger prev s).power = { s.power with fromBelow := false } ∧
      (restartWrite trigger prev s).ring =
        { s.ring with rollSeq := BitVec.ofNat 8 (16 * (ctrInc s.standby.restartCount).toNat) } ∧
      (restartWrite trigger prev s).nv = s.nv ∧ (restartWrite trigger prev s).skb = s.skb ∧
      (restartWrite trigger prev s).clk = s.clk := by
  simp [restartWrite, logRec_ring_of_note (c := .restart) rfl, logRec_nv_of_plain (c := .restart) rfl]

@[simp] theorem restartWrite_offPath (trigger : Cause) (prev : Option Level) (s : State) :
    OffPath s (restartWrite trigger prev s) := by simp [restartWrite]

/-- CAUSE by the first rule that applies (R120). -/
theorem causeOf_exit {trigger : Cause} {s : State} (h : s.standby.exiting.isSome = true) :
    (causeOf trigger s).1 = .standbyExit := by simp [causeOf, h]
theorem causeOf_xin {trigger : Cause} {s : State} (h : s.standby.exiting = none) (hx : s.standby.tripLatch = some .xin) :
    (causeOf trigger s).1 = .xinLoss := by simp [causeOf, h, hx]
theorem causeOf_trip {trigger : Cause} {s : State} (h : s.standby.exiting = none) (hs : s.standby.tripLatch.isSome = true)
    (hx : s.standby.tripLatch ≠ some .xin) : (causeOf trigger s).1 = .powerFail := by
  obtain ⟨src, hsrc⟩ := Option.isSome_iff_exists.mp hs
  cases src <;> simp_all [causeOf]
theorem causeOf_trigger {trigger : Cause} {s : State} (h : s.standby.exiting = none) (hl : s.standby.tripLatch = none)
    (hb : s.power.fromBelow = false) : (causeOf trigger s).1 = trigger := by simp [causeOf, h, hl, hb]
theorem causeOf_below {trigger : Cause} {s : State} (h : s.standby.exiting = none) (hl : s.standby.tripLatch = none)
    (hb : s.power.fromBelow = true) (ho : s.nv.session ≠ .opened) : (causeOf trigger s).1 = .powerOn := by
  simp [causeOf, h, hl, hb, ho]

/-- With no program operation requested, the units stop with nothing cut. -/
theorem progCut_idle (cut : ProgEnd) {s : State} (h : s.nv.prog = []) : progCut cut s =
    { s with
      nv := { s.nv with prog := [], commits := [] }
      pathC := { s.pathC with commitBusy := false }, pathM := { s.pathM with commitBusy := false } } := by
  cases cut <;> simp [progCut, progEnds, progOnly, progTorn, h]

/-! ## Trips -/

/-- What a stop as after a trip leaves (R85): the core, the latch of the standby domain, the bus and the program engine. -/
theorem tripStop_leaves (src : TripSrc) (cut : ProgEnd) (s : State) :
    (tripStop src cut s).power.core = .stopped ∧ (tripStop src cut s).power.pgMet = false ∧
      (tripStop src cut s).standby = { s.standby with tripLatch := some src } ∧ (tripStop src cut s).clk = s.clk ∧
      (tripStop src cut s).hbu.breq = false ∧ (tripStop src cut s).hbu.tenure = none ∧ (tripStop src cut s).nv.prog = [] := by
  simp [tripStop, progNone]

/-- The remote write that a worker serves at port 0, the last of the requests that its order to DOZE waits for. -/
def lastServed : Served :=
  { tag := 1, epoch := 0, ch := 1, kind := 0x22, port := 0, op := .c, deadline := 0, studio := 0, sector := 0, count := 8, queued := true }

/-- The member operation of that request, issued on port 0. -/
def lastServedOp : MOp :=
  { id := 1, member := 0, cls := .c, kind := .write, sector := 0, count := 8, use := .write (.remote 1 0) }

/-- A running part whose NV commit in flight is that of RETIRE_MEMBER of member 0, with a power order that waits for the
member's last served request. -/
def retiring : State :=
  { State.reset with
    power := { State.reset.power with orderDue := some .doze }
    nv := { State.reset.nv with prog := [.nv], commits := [.mgmt] }
    mgmt := { State.reset.mgmt with running := some { code := 0x0A, args := [0] } }
    members := { State.reset.members with
      ports := State.reset.members.ports.set 0 { cdLow := true, cdNow := true, powered := true, issued := [lastServedOp] } }
    ring := { State.reset.ring with served := [lastServed] } }

/-- Levels below every trip level. -/
def lowSupplies : Supplies := { State.reset.power.sup with vcoreMv := 0 }

end ResetsAndTrips

/-- Settles O4: each core state is a branch of the command; a running part stops by `tripStop`. -/
theorem powerGoodMovesTheCore : Obligations.PowerGoodMovesTheCore := by
  intro s sup cut
  refine ⟨?_, ?_, ?_, ?_, ?_, ?_, ?_, ?_, ?_⟩
  · intro hgood hcore
    refine reaches_of_guard rfl hgood ?_
    rcases hcore with hcore | hcore <;> simp only [hcore]
  · intro hgood hcore
    refine reaches_of_guard rfl hgood ?_
    simp [hcore, enterP, resetPD, resetCommon, stagesDrop]
  · intro src hgood hcore hexit
    refine reaches_of_guard rfl hgood ?_
    simp [hcore, hexit, enterP, resetPD, resetCommon, stagesDrop]
  · exact fun hbad => reaches_same rfl hbad
  · exact fun hrun hoff => reaches_of_guard rfl (by simp [hrun, hoff]) rfl
  · intro hrun
    refine ⟨_, rfl, ?_⟩
    simp_all [running]
  · intro hcore
    refine reaches_of_guard rfl ?_ ?_ <;> rcases hcore with hcore | hcore | hcore <;> simp [running, hcore]
  · intro hcore
    refine ⟨_, rfl, ?_⟩
    simp [running, hcore, onlyIf]
  · intro hcore
    obtain ⟨hc, hpg, hsb, -, hbreq, hten, hprog⟩ := tripStop_leaves .vcore cut { s with power := { s.power with sup := sup } }
    obtain ⟨hc, hpg, hsb, -, hbreq, hten, hprog⟩ := tripStop_leaves .vstby cut { s with power := { s.power with sup := sup } }
    constructor
    · refine reaches_of_guard rfl ?_ ?_ <;> simp_all [running]
    · refine ⟨_, rfl, ?_⟩
      simp_all [running]

/-- Settles O5: a class D reset of what the units leave, and the start of the restart path, which writes its own parts alone. -/
theorem resetPinAndItsEnd : Obligations.ResetPinAndItsEnd := by
  constructor
  · intro s cut hrun hprog
    refine ⟨_, rfl, ?_⟩
    simp [enterD, hrun, progCut_idle cut hprog, resetPD, resetCommon, stagesDrop, canvasFree]
  · intro s straps hcore hpg
    refine reaches_of_guard rfl (by rcases hcore with h | h <;> simp [h, hpg]) ?_
    simp only [stageTwo_pathKeeps, stageTwo_straps, stageTwo_steady, restartWrite_writes, restartWrite_straps,
      restartWrite_steady]
    refine ⟨trivial, trivial, trivial, trivial, trivial, trivial, trivial, trivial, ?_⟩
    refine ⟨causeOf_exit, causeOf_xin, causeOf_trip, causeOf_trigger, causeOf_below, ?_, trivial, trivial⟩
    apply State.ext <;> simp [restartWrite_writes]

/-- Refutes O6: the NV commit that ends in the trip retires a member, which ends the last request that an ordered entry
waits for, so that the entry is taken up: the power state changes in more than the core and the levels. -/
theorem not_tripsAndBanks : ¬ Obligations.TripsAndBanks := by
  intro h
  obtain ⟨t, ht, hpower, -⟩ := (h.1 retiring .vcore lowSupplies .ends).1 rfl rfl
  have hdue : t.power.orderDue = none := by
    cases ht
    decide +kernel
  rw [hpower] at hdue
  cases hdue

end Sys2Proof.Machine
end

section
/-! The clocks: PLL_EN through a path, lock and its loss, and what a TICK step does (R27, R99 to R107, R572). -/

namespace Sys2Proof.Machine

open Sys2Proof.Safety

section Clocks

/-! ## CLK_CTRL through a path -/

/-- A path that is open turns no write away but one of the registers that may be busy by themselves. -/
theorem writeBusy_open {p : Path} {off : Nat} {s : State} (h : openPath p s) (hcur : off ≠ 0x40) (hdata : off ≠ 0x44)
    (hcmd : off ≠ 0x68) : writeBusy p off s = false := by
  obtain ⟨-, hbusy, -, hwaking, -⟩ := h
  simp [writeBusy, hbusy, hwaking, hcur, hdata, hcmd]

/-- A write of lane 1 of CLK_CTRL with XIN_EXT as it stands writes PLL_EN alone. -/
theorem clkCtrlWrite_pllEn (on : Bool) (s : State) :
    clkCtrlWrite 2 (flg 15 on ||| flg 14 s.clk.xinExt) s = if on != s.clk.pllEn then pllWrite on s else s := by
  have hsel : ∀ (x : BitVec 2) (a b c d : Bool),
      (mergeLanes 2 (fld 22 x.toNat ||| flg 15 a ||| flg 14 b) (flg 15 c ||| flg 14 d)).extractLsb' 22 2 = x ∧
      bit (mergeLanes 2 (fld 22 x.toNat ||| flg 15 a ||| flg 14 b) (flg 15 c ||| flg 14 d)) 14 = d ∧
      bit (flg 15 c ||| flg 14 d) 15 = c ∧ lane 2 1 = true := by decide
  obtain ⟨hx, hd, hc, hl⟩ := hsel s.clk.xclkSel s.clk.pllEn s.clk.xinExt on s.clk.xinExt
  simp only [clkCtrlWrite, clkCtrlWord, hx, hd, hc, hl, Bool.true_and]

theorem clkCtrl_laneChecks : LaneChecks 0x18 2 := ⟨by decide, by decide, by decide, by decide⟩

/-- PLL_EN written through an open path. -/
theorem viaPath_pllEn {p : Path} {s : State} (h : openPath p s) (on : Bool) (hne : on ≠ s.clk.pllEn) :
    viaPath p 0x18 2 (flg 15 on ||| flg 14 s.clk.xinExt) s = pllWrite on (armAge p s) := by
  rw [viaPath_open h clkCtrl_laneChecks (writeBusy_open h (by decide) (by decide) (by decide)) rfl]
  have hclk : (armAge p s).clk = s.clk := by simp
  show clkCtrlWrite 2 (flg 15 on ||| flg 14 s.clk.xinExt) (armAge p s) = _
  rw [← hclk, clkCtrlWrite_pllEn, hclk, if_pos (by simpa using hne)]

/-- PLL_STOP through an open path. -/
theorem execPllStop_open {p : Path} {s : State} (h : openPath p s) (hen : s.clk.pllEn = true) :
    exec (.pllStop p) s = .next (pllWrite false (armAge p s)) := by
  have hword : flg 15 false ||| flg 14 s.clk.xinExt = flg 14 s.clk.xinExt := by cases s.clk.xinExt <;> rfl
  rw [← viaPath_pllEn h false (by simp [hen]), hword]
  rfl

/-- Without lock the path does not go on. -/
theorem pathOn_of_unlocked {s : State} (h : s.clk.pllLock = false) : pathOn s = s := by simp [pathOn, h]

/-- A path that waits at stage 3 with a running PLL begins stage 4 with lock. -/
theorem pathOn_stage {s : State} (hen : s.clk.pllEn = true) (hlock : s.clk.pllLock = true)
    (hlevel : s.restart.level = .level0) (hstage : s.restart.stage = 3) (hnv : s.restart.nvcfgLost = false) :
    (pathOn s).restart.stage = 4 := by
  have hchoice (u : State) : (copyChoice u).restart.stage = u.restart.stage := by
    simp only [copyChoice, noCopy]
    (repeat' split) <;> rfl
  have hgo : (s.clk.pllEn && s.clk.pllLock && s.restart.level == .level0 && s.restart.stage == 3 && !s.restart.nvcfgLost) = true := by
    simp [hen, hlock, hlevel, hstage, hnv]
  rw [pathOn, if_pos hgo, stageFour]
  dsimp only
  split <;> simp [hchoice]

@[simp] theorem ringTrain_nv (s : State) : (ringTrain s).nv = s.nv := by simp [ringTrain]

/-! ## Service stops -/

/-- What the release of the Palette's work leaves. -/
@[reducible, simp] def Freed (s t : State) : Prop :=
  t.pending = s.pending ∧ t.power = s.power ∧ t.standby = s.standby ∧ t.clk = s.clk ∧ t.restart = s.restart ∧
    t.ident = s.ident ∧ t.nv = s.nv ∧ t.log = s.log ∧ t.pathC = s.pathC ∧ t.pathM = s.pathM ∧ t.cport = s.cport ∧
    t.mgmt = s.mgmt ∧ t.scratch = s.scratch ∧ t.queues = s.queues ∧ t.arrs = s.arrs ∧ t.vols = s.vols ∧
    t.studios = s.studios ∧ t.roster = s.roster ∧ t.regions = s.regions ∧ t.freeCtr = s.freeCtr ∧
    t.ring.fa = s.ring.fa ∧ t.ring.fb = s.ring.fb

theorem Freed.refl (s : State) : Freed s s := by simp
theorem Freed.trans {s t u : State} (h : Freed t u) (k : Freed s t) : Freed s u := by simp [h, k]

theorem foldl_freed {α : Type} (g : State → α → State) (h : ∀ s a, Freed s (g s a)) (l : List α) (s : State) :
    Freed s (l.foldl g s) := by
  induction l generalizing s with
  | nil => exact .refl s
  | cons a l ih => exact (ih _).trans (h s a)

@[simp] theorem tileDrop_freed (n : Nat) (s : State) : Freed s (tileDrop n s) := by
  simp only [tileDrop]
  split <;> simp
@[simp] theorem tier2Drop_freed (n : Nat) (s : State) : Freed s (tier2Drop n s) := by
  simp only [tier2Drop]
  split <;> simp
@[simp] theorem dropWhere_freed (f : Bind → Bool) (s : State) : Freed s (dropWhere f s) :=
  (foldl_freed _ (fun s n => tier2Drop_freed n s) _ _).trans (foldl_freed _ (fun s n => tileDrop_freed n s) _ s)
@[simp] theorem workDrop_freed (w : Work) (s : State) : Freed s (workDrop w s) := by simp [workDrop]
@[simp] theorem dropOps_freed (f : MOp → Bool) (s : State) : Freed s (dropOps f s) := by simp [dropOps]
@[simp] theorem xferDrop_freed (f : Xfer → Bool) (s : State) : Freed s (xferDrop f s) := by
  have hgive (l : List Xfer) (u : State) : Freed u (l.foldl (fun s x =>
      if x.hasDesc then poolGive pDesc (if x.system then none else some x.studio) 1 s else s) u) :=
    foldl_freed _ (fun s x => by split <;> simp) l u
  simp [xferDrop, hgive]
@[simp] theorem tilesFree_freed (i : Fin 32) (f : LTile → Bool) (s : State) : Freed s (tilesFree i f s) :=
  (foldl_freed _ (fun _ _ => by simp) _ _).trans (by simp)
@[simp] theorem layerFree_freed (i : Fin 32) (s : State) : Freed s (layerFree i s) := by
  simp only [layerFree, busRefresh]
  split <;> simp [admitSub]
theorem eachLayer_freed (f : Fin 32 → State → State) (s : State) (h : ∀ i u, Freed u (f i u)) :
    Freed s (eachLayer f s) := foldl_freed _ (fun u i => h i u) _ s
@[simp] theorem palDown_freed (s : State) : Freed s (palDown s) := by simp [palDown, eachLayer_freed]

/-- A link that goes down takes the state named, and the other port keeps its own. -/
theorem linkDown_link (fb b : Bool) (l : Link) (s : State) :
    (rport b (linkDown fb l s)).link = if b = fb then l else (rport b s).link := by
  have hbase : (rport b (dropFrom fb (creditsFree fb (rportPut fb ((rport fb s).down l) s)))).link =
      if b = fb then l else (rport b s).link := by
    cases b <;> cases fb <;> simp [dropFrom, rport, rportPut, RPort.down]
  rw [← hbase]
  refine ringQuiet.link (ringQuiet_trans (ringQuiet_foldl _ (fun u p => ?_) _ _) (ringQuiet_of_ring (irqSet_ring ..))) b
  have hdiscard : ringQuiet u (discarded p.p u) := ringQuiet_of_ring (by simp [discarded, apply_ite State.ring])
  dsimp only
  split
  · exact ringQuiet_trans hdiscard (ringQuiet_creditBack ..)
  · exact hdiscard

/-! ## A TICK step -/

/-- What neither a port nor the work of a command that is let go touches, the links' states among it. -/
@[reducible, simp] def Aside (s t : State) : Prop :=
  t.power = s.power ∧ t.hbu = s.hbu ∧ t.pathC = s.pathC ∧ t.pathM = s.pathM ∧
    t.ring.fa.link = s.ring.fa.link ∧ t.ring.fb.link = s.ring.fb.link

theorem Aside.refl (s : State) : Aside s s := by simp
theorem Aside.trans {s t u : State} (h : Aside t u) (k : Aside s t) : Aside s u := by simp [h, k]

theorem foldl_asideOn {α β : Type} (part : β → State) (g : β → α → β)
    (h : ∀ b a, Aside (part b) (part (g b a))) (l : List α) (b : β) : Aside (part b) (part (l.foldl g b)) := by
  induction l generalizing b with
  | nil => exact .refl _
  | cons a t ih => exact (ih _).trans (h b a)
theorem foldl_aside {α : Type} (g : State → α → State) (h : ∀ s a, Aside s (g s a)) (l : List α) (s : State) :
    Aside s (l.foldl g s) := foldl_asideOn id g h l s
@[simp] theorem onlyIf_aside (c : Bool) (f : State → State) (s : State) (h : Aside s (f s)) :
    Aside s (onlyIf c f s) := by
  cases c <;> simp [onlyIf, h]


theorem ringQuiet.links {s t : State} (h : ringQuiet s t) :
    t.ring.fa.link = s.ring.fa.link ∧ t.ring.fb.link = s.ring.fb.link := ⟨h.link false, h.link true⟩
@[simp] theorem logAs_links (c : Code) (cls : LogClass) (studio : Option (Fin 8)) (args : List Byte) (s : State) :
    (logAs c cls studio args s).ring.fa.link = s.ring.fa.link ∧ (logAs c cls studio args s).ring.fb.link = s.ring.fb.link :=
  (ringQuiet_logAs ..).links
@[simp] theorem logRec_links (c : Code) (args : List Byte) (s : State) :
    (logRec c args s).ring.fa.link = s.ring.fa.link ∧ (logRec c args s).ring.fb.link = s.ring.fb.link :=
  (ringQuiet_logRec ..).links
@[simp] theorem ringRequest_links (k : BitVec 4) (kind : ReqKind) (s : State) :
    (ringRequest k kind s).ring.fa.link = s.ring.fa.link ∧ (ringRequest k kind s).ring.fb.link = s.ring.fb.link := by
  have hsend (r : RReq) (u : State) : ringQuiet u (sendReq r u) := ringQuiet_foldl _ (fun _ _ => ringQuiet_sendTo ..) _ u
  simp only [ringRequest, onlyIf]
  split
  · exact (hsend _ _).links
  · exact ⟨rfl, rfl⟩
@[simp] theorem createOp_links (o : MOp) (s : State) :
    (createOp o s).ring.fa.link = s.ring.fa.link ∧ (createOp o s).ring.fb.link = s.ring.fb.link := by
  simp only [createOp]
  split <;> simp
@[simp] theorem sendUp_links (kind : Byte) (ch : Fin 3) (tag : Byte) (arg : Half) (l : List Dword) (s : State) (c : Bool) :
    (sendUp kind ch tag arg l s c).ring.fa.link = s.ring.fa.link ∧ (sendUp kind ch tag arg l s c).ring.fb.link = s.ring.fb.link :=
  (ringQuiet_sendUp ..).links

@[simp] theorem canvasPut_aside (c : Canvas) (s : State) : Aside s (canvasPut c s) := by simp
@[simp] theorem createOp_aside (o : MOp) (s : State) : Aside s (createOp o s) := by simp
@[simp] theorem ringRequest_aside (k : BitVec 4) (kind : ReqKind) (s : State) :
    Aside s (ringRequest k kind s) := by simp
@[simp] theorem slotPut_aside (i : Nat) (x : Slot) (s : State) : Aside s (slotPut i x s) := by simp
@[simp] theorem poolGive_aside (i : Fin 20) (who : Option (Fin 8)) (n : Nat) (s : State) :
    Aside s (poolGive i who n s) := by simp
@[simp] theorem tilePut_aside (n : Nat) (t : Tile) (s : State) : Aside s (tilePut n t s) := by simp
@[simp] theorem logRec_aside (c : Code) (args : List Byte) (s : State) : Aside s (logRec c args s) := by simp
@[simp] theorem memPut_aside (m : Fin 128) (x : Member) (s : State) : Aside s (memPut m x s) := by simp
@[simp] theorem portPut_aside (p : Fin 8) (x : Port) (s : State) : Aside s (portPut p x s) := by simp
@[simp] theorem irqSet_aside (b : Nat) (s : State) : Aside s (irqSet b s) := by simp
@[simp] theorem logAs_aside (c : Code) (cls : LogClass) (studio : Option (Fin 8)) (args : List Byte) (s : State) :
    Aside s (logAs c cls studio args s) := by simp
@[simp] theorem counterInc_aside (e : Nat) (s : State) : Aside s (counterInc e s) := by simp
@[simp] theorem forcedUpdate_aside (s : State) : Aside s (forcedUpdate s) := by
  simp [forcedUpdate]
@[simp] theorem freePages_aside (l : List Nat) (s : State) : Aside s (freePages l s) := by
  simp [freePages]
@[simp] theorem tileDrop_aside (n : Nat) (s : State) : Aside s (tileDrop n s) := by
  simp only [tileDrop]
  split <;> simp
@[simp] theorem tier2Drop_aside (n : Nat) (s : State) : Aside s (tier2Drop n s) := by
  simp only [tier2Drop]
  split <;> simp
@[simp] theorem tilesDrop_aside (l : List Nat) (s : State) : Aside s (tilesDrop l s) := by
  simp [tilesDrop, foldl_aside]
@[simp] theorem dropWhere_aside (f : Bind → Bool) (s : State) : Aside s (dropWhere f s) := by
  simp [dropWhere, foldl_aside]
@[simp] theorem workDrop_aside (w : Work) (s : State) : Aside s (workDrop w s) := by simp [workDrop]
@[simp] theorem cleanTiles_aside (s : State) : Aside s (cleanTiles s) := by simp [cleanTiles]
@[simp] theorem dropOps_aside (f : MOp → Bool) (s : State) : Aside s (dropOps f s) := by simp [dropOps]
@[simp] theorem markFailed_aside (w : Work) (c : ChunkAt) (row : Nat) (s : State) :
    Aside s (markFailed w c row s) := by
  simp [markFailed]
@[simp] theorem lockDrop_aside (f : Lock → Bool) (s : State) : Aside s (lockDrop f s) := by
  simp [lockDrop, foldl_aside]
@[simp] theorem cmdRelease_aside (i : Nat) (s : State) : Aside s (cmdRelease i s) := by
  unfold cmdRelease
  split
  · exact Aside.refl _
  · simp
@[simp] theorem reap_aside (w : Work) (s : State) : Aside s (reap w s) := by
  cases w with
  | cmd i =>
    simp only [reap]
    (repeat' split) <;> simp
  | _ => exact Aside.refl _
@[simp] theorem portChanged_aside (p : Fin 8) (s : State) : Aside s (portChanged p s) := by
  simp [portChanged]
@[simp] theorem ownEdit_aside (p : Fin 8) (f : Member → Member) (s : State) : Aside s (ownEdit p f s) := by
  simp [ownEdit]
@[simp] theorem portOn_aside (p : Fin 8) (s : State) : Aside s (portOn p s) := by simp [portOn]
@[simp] theorem portTick_aside (p : Fin 8) (s : State) : Aside s (portTick p s) := by
  simp [portTick]
@[simp] theorem chunkResult_aside (w : Work) (c : ChunkAt) (row : Nat) (r : OpEnd) (s : State) :
    Aside s (chunkResult w c row r s) := by
  simp only [chunkResult]
  (repeat' split) <;> simp
@[simp] theorem opOut_aside (p : Fin 8) (o : MOp) (s : State) : Aside s (opOut p o s) := by simp [opOut]
@[simp] theorem modeTake_aside (p : Fin 8) (k : BitVec 4 × BitVec 5) (s : State) : Aside s (modeTake p k s) := by
  simp [modeTake]
@[simp] theorem retune_aside (p : Fin 8) (t : Tunes) (s : State) : Aside s (retune p t s) := by
  simp only [retune]
  split <;> simp
@[simp] theorem headPut_aside (p : Fin 8) (o : MOp) (s : State) : Aside s (headPut p o s) := by
  simp [headPut]
@[simp] theorem tryAgain_aside (p : Fin 8) (o : MOp) (s : State) : Aside s (tryAgain p o s) := by
  simp [tryAgain]

/-- The result of a lost operation of a command goes to that command. -/
theorem opResult_lost_aside {o : MOp} {i : Nat} (h : o.use.work = some (.cmd i)) (s : State) : Aside s (opResult o .lost s) := by
  obtain ⟨id, member, cls, studio, deadline, layer, kind, sector, count, use⟩ := o
  cases use <;> cases h
  case chunk =>
    simp only [opResult]
    (repeat' split) <;> simp
  case write =>
    simp only [opResult]
    split <;> simp

/-- An operation that a link error meets first is tried again, or goes back to the command that has gone. -/
theorem linkError_first_aside {o : MOp} (h : o.tries = 0) (p : Fin 8) (t : Tunes) (s : State) :
    Aside s (linkError p o t s) := by
  unfold linkError
  extract_lets u
  have hu : Aside s u := ownEdit_aside ..
  split
  case isTrue horphan =>
    obtain ⟨i, hi⟩ : ∃ i, o.use.work = some (.cmd i) := by
      simp only [orphanOp] at horphan
      split at horphan
      · exact ⟨_, ‹_›⟩
      · cases horphan
    exact (opResult_lost_aside hi _).trans ((opOut_aside ..).trans hu)
  case isFalse =>
    rw [if_pos (by omega)]
    exact (tryAgain_aside ..).trans ((onlyIf_aside _ _ _ (retune_aside ..)).trans hu)

@[simp] theorem heldRetry_aside (p : Fin 8) (s : State) : Aside s (heldRetry p s) := by
  simp only [heldRetry]
  split
  · split
    · exact (linkError_first_aside rfl ..).trans (portPut_aside ..)
    · exact .refl s
  · exact .refl s

@[simp] theorem sampleCd_aside (p : Fin 8) (low : Bool) (s : State) : Aside s (sampleCd p low s) := by
  simp only [sampleCd]
  exact (onlyIf_aside _ _ _ (heldRetry_aside ..)).trans (portPut_aside ..)

/-- A TICK step before any clock moves: the counter and the live levels (R7, R105, R109). -/
def tickCounted (pins : PinLevels) (s : State) : State :=
  { s with
    clk := { s.clk with
      tick := ctrInc s.clk.tick, carry := 0, decayed := false, pattern := if s.clk.bypass then s.clk.pattern + 1 else s.clk.pattern }
    power := { s.power with sup := { s.power.sup with
      vcoreMv := pins.vcoreMv, pfailPin := pins.pfail, wakePin := pins.wake } }
    hbu := { s.hbu with
      busyIn := pins.busy, gnt := pins.gnt, breqHold := false, tenure := if pins.gnt then s.hbu.tenure else none }
    log := { s.log with thisTick := [] } }

/-- A TICK step at every port: the sample of SDn_CD_N and the count of the time without power (R318, R319). -/
def portsSampled (pins : PinLevels) (s : State) : State :=
  (List.finRange 8).foldl (fun s p => onlyIf (unitsUp s) (portTick p) (sampleCd p (pins.cd.getLsbD p.val) s)) s

theorem execTickStep_eq {s : State} (pins : PinLevels) (h : running s = true) :
    exec (.tickStep pins) s = .next (busRefresh (portsSampled pins (clockMove (tickCounted pins s)))) :=
  congrArg Host.Outcome.next (if_pos h)

@[simp] theorem portsSampled_aside (pins : PinLevels) (s : State) : Aside s (portsSampled pins s) :=
  foldl_aside _ (fun _ _ => (onlyIf_aside _ _ _ (portTick_aside ..)).trans (sampleCd_aside ..)) _ s
@[simp] theorem portsSampled_stays (pins : PinLevels) (s : State) : Stays s (portsSampled pins s) :=
  foldl_stays _ (fun _ _ => (onlyIf_stays _ _ _ (portTick_stays ..)).trans (sampleCd_stays ..)) _ s
@[simp] theorem portsSampled_restart (pins : PinLevels) (s : State) : (portsSampled pins s).restart = s.restart :=
  foldl_restart _ (fun s p => by simp) _ s

@[simp] theorem ringDark_links (s : State) :
    (ringDark s).ring.fa.link = .dark ∧ (ringDark s).ring.fb.link = .dark :=
  ⟨(linkDown_link true false .dark _).trans (linkDown_link false false .dark s), linkDown_link true true .dark _⟩

/-- The core moves to CCLK or to XIN, or stays where it runs (R100, R101). -/
theorem clockMove_unlocked {s : State} (h : s.clk.pllLock = false) : clockMove s = s := by simp [clockMove, h]
theorem clockMove_locked {s : State} (hlock : s.clk.pllLock = true) (hen : s.clk.pllEn = true) :
    clockMove s = { s with clk := { s.clk with bypass := false } } := by simp [clockMove, hlock, hen]
theorem clockMove_stopped {s : State} (hlock : s.clk.pllLock = true) (hen : s.clk.pllEn = false) :
    (clockMove s).clk.bypass = true ∧ (clockMove s).clk.pllLock = false ∧
      (clockMove s).ring.fa.link = .dark ∧ (clockMove s).ring.fb.link = .dark := by
  have hdark (u : State) := ringDark_links u
  simp only [ringDark] at hdark
  cases h : s.clk.bypass <;> simp [clockMove, hlock, hen, toXin, h, ringDark, hdark]
@[simp] theorem clockMove_kept (s : State) :
    (clockMove s).power = s.power ∧ (clockMove s).hbu = s.hbu ∧ (clockMove s).pathC = s.pathC ∧
      (clockMove s).pathM = s.pathM ∧ (clockMove s).standby = s.standby ∧ (clockMove s).scratch = s.scratch ∧
      (clockMove s).clk.tick = s.clk.tick ∧ (clockMove s).clk.decayed = s.clk.decayed ∧
      (clockMove s).clk.pllEn = s.clk.pllEn ∧ (s.clk.carry = 0 → (clockMove s).clk.carry = 0) := by
  simp only [clockMove]
  (repeat' split) <;> cases h : s.clk.bypass <;> simp [ringDark, toXin, h]

end Clocks

/-- Settles O7: PLL_EN through a path is `pllWrite`, and lock lets the path go on. -/
theorem pllStartsStopsAndLocks : Obligations.PllStartsStopsAndLocks := by
  intro s p ticks
  refine ⟨?_, ?_, ?_, ?_, ⟨s, rfl, rfl⟩, fun hrun => reaches_of_guard rfl hrun rfl⟩
  · intro hopen hen hlock
    refine ⟨_, congrArg Host.Outcome.next (viaPath_pllEn hopen true (by simp [hen])), ?_⟩
    simp [pllWrite, pllStart, hen, pathOn_of_unlocked, hlock]
  · intro hopen hen hlevel
    refine ⟨fun hstage => ⟨_, execPllStop_open hopen hen, ?_⟩, fun hstage hnv hprog => ⟨_, execPllStop_open hopen hen, ?_⟩⟩
    · have hbelow : ¬ 4 ≤ s.restart.stage.val := Nat.not_le.mpr hstage
      simp [pllWrite, hlevel, pathInterrupt, hbelow]
    · have hfrom : 4 ≤ s.restart.stage.val := hstage
      simp [pllWrite, hlevel, pathInterrupt, hfrom, hnv]
      simp [progCut_idle, hprog, stagesDrop, hnv]
  · intro hopen hen hlevel
    refine ⟨_, execPllStop_open hopen hen, ?_⟩
    simp only [pllWrite, bne_iff_ne, ne_eq, armAge_offArm, hlevel, not_false_eq_true, if_true, Bool.false_eq_true, if_false]
    refine ⟨?_, ?_⟩
    · simp [counterGet_logRec, Code.info]
    · apply State.ext <;> simp
  · intro hrun hen hlock hstate hwaking hre
    refine reaches_of_guard rfl (by simp [hrun, hen, hlock, hstate]) ?_
    simp only [lockGoesOn]
    split
    case isTrue hfail =>
      simp_all [lockTaken]
    case isFalse =>
      simp [lockTaken, hwaking, hre]
      exact fun hlevel hstage hnv => pathOn_stage hen rfl hlevel hstage hnv

/-- Settles O8: at LEVEL1 and at LEVEL2 the loss is the fall to LEVEL0, of a part whose program engine was idle. -/
theorem lockLossFallsToLevel0 : Obligations.LockLossFallsToLevel0 := by
  intro s elapsed cut hrun hlock hprog hlevel
  refine reaches_of_guard rfl (by simp [hrun, hlock]) ?_
  have hdark (u : State) := ringDark_links u
  simp only [ringDark] at hdark
  rcases hlevel with hlevel | hlevel <;> cases hbypass : s.clk.bypass <;>
    simp [hbypass, lockLoss, lockFall, hlevel, progCut_idle cut hprog, serviceDown, toXin, studiosDown, ringDark, hdark]

/-- Settles O9: TICK_STEP is the count, then the clock's move at the TICK, then the samples of the ports, and only the
move of the clock and the links' state can reach a path, a level or a power word. -/
theorem tickAndStraps : Obligations.TickAndStraps := by
  refine ⟨fun s pins hrun => ⟨_, execTickStep_eq pins hrun, ?_⟩, fun s p l hlive hlane => ?_, fun s levels hrun htick => ⟨fun hsame => ?_, fun hne hlog => ?_⟩⟩
  · have hrest : (busRefresh (portsSampled pins (clockMove (tickCounted pins s)))).hbu.busyIn = pins.busy ∧
        (busRefresh (portsSampled pins (clockMove (tickCounted pins s)))).hbu.gnt = pins.gnt := by
      simp [busRefresh, tickCounted]
    refine ⟨by simp [tickCounted], by simp [tickCounted], by simp [tickCounted], by simp [tickCounted],
      by simp [tickCounted], hrest.1, hrest.2, fun hlock => ?_, fun hlock hen => ?_, fun hlock hen => ?_, ?_⟩
    · rw [clockMove_unlocked (s := tickCounted pins s) hlock]
      simp [tickCounted, hlock]
    · rw [clockMove_locked (s := tickCounted pins s) hlock hen]
      simp [tickCounted, hlock]
    · simpa using clockMove_stopped (s := tickCounted pins s) hlock hen
    · simp [tickCounted]
  · refine reaches_of_guard rfl hlive ?_
    simp [tickLoRead, hlane, armAge_eq]
  · refine reaches_of_guard rfl (by simp [hrun, htick]) ?_
    rcases hsame with hsame | hsame <;> simp [hsame]
  · refine reaches_of_guard rfl (by simp [hrun, htick]) ?_
    simp only [beq_iff_eq, hne, hlog, Bool.or_false, if_false]
    refine ⟨by simp, by simp [counterGet_logRec, Code.info]; rfl, ?_⟩
    apply State.ext <;> simp

end Sys2Proof.Machine
end

section
/-! The restart path: the self-checks of stage 4, the entries to LEVEL1 and LEVEL2, and control resets (R25, R118,
R128 to R133, R543). -/

namespace Sys2Proof.Machine
open Sys2Proof.Safety

/-! ## Stages 4 to 9 -/

/-- A program that is asked for stays asked for. -/
@[reducible] def Asked (s t : State) : Prop := ∀ o ∈ s.nv.prog, o ∈ t.nv.prog

theorem progReq_asked (o : ProgOp) (s : State) : Asked s (progReq o s) := by
  intro q hq
  unfold progReq
  split
  · exact hq
  · exact List.mem_append_left _ hq

theorem mem_progReq {s : State} (h : s.restart.level ≠ .failstop) (o : ProgOp) : o ∈ (progReq o s).nv.prog := by
  simp [progReq, h]

theorem bbCopy_asked (r : LogRec) (s : State) : Asked s (bbCopy r s) := by
  intro q hq
  simp [bbCopy, hq]

theorem logRec_asked (c : Code) (args : List Byte) (s : State) : Asked s (logRec c args s) := by
  intro q hq
  simp only [logRec, logAs]
  split
  · simpa using hq
  · split
    · simpa using bbCopy_asked _ _ q (by simpa using hq)
    · simpa using hq

theorem nvCommit_asked (c : NvChange) (s : State) : Asked s (nvCommit c s) := by
  intro q hq
  unfold nvCommit
  split
  · exact hq
  · exact progReq_asked _ _ q (by simpa using hq)

theorem repaintsResume_asked (s : State) : Asked s (repaintsResume s) := by
  refine List.foldlRecOn (motive := fun t => Asked s t) (List.finRange 4) _ (fun _ h => h) fun t ht a _ q hq => ?_
  dsimp only
  split
  · exact ht q hq
  · exact logRec_asked _ _ _ q (by simpa [repaintNote] using ht q hq)

@[simp] theorem tier2Total_stands (n : Nat) (s : State) :
    (tier2Total n s).nv = s.nv ∧ (tier2Total n s).skb = s.skb := by simp [tier2Total]

theorem tier2Probe_asked (r : Option (Half × Half)) (s : State) : Asked s (tier2Probe r s) := by
  intro q hq
  unfold tier2Probe
  split
  · simpa using hq
  · split
    · exact logRec_asked _ _ _ q (by simpa using hq)
    · dsimp only
      split
      · exact logRec_asked _ _ _ q (by simpa using hq)
      · simpa using hq

/-- Neither the path itself, nor the standby domain, the Sketchbook, a SCRATCH register or the host bus unit changes. -/
@[reducible, simp] def Unmoved (s t : State) : Prop :=
  t.restart = s.restart ∧ t.standby = s.standby ∧ t.skb = s.skb ∧ t.scratch = s.scratch ∧ t.hbu = s.hbu

theorem foldl_unmoved {α : Type} (g : State → α → State) (h : ∀ s a, Unmoved s (g s a)) (l : List α) (s : State) :
    Unmoved s (l.foldl g s) :=
  List.foldlRecOn (motive := fun t => Unmoved s t) l g (by simp) fun t ht a _ => by simpa [h t a] using ht

@[simp] theorem repaintsResume_unmoved (s : State) : Unmoved s (repaintsResume s) := by
  refine foldl_unmoved _ (fun t a => ?_) _ s
  dsimp only
  split <;> simp [repaintNote]

@[simp] theorem tier2Total_hbu (n : Nat) (s : State) : (tier2Total n s).hbu = s.hbu := by simp [tier2Total]

@[simp] theorem tier2Probe_unmoved (r : Option (Half × Half)) (s : State) : Unmoved s (tier2Probe r s) := by
  unfold tier2Probe
  split
  · simp
  · split
    · simp
    · dsimp only
      split <;> simp

@[simp] theorem tablesLoad_unmoved (s : State) : Unmoved s (tablesLoad s) := by
  unfold tablesLoad
  split
  · extract_lets _ t own
    have hown : Unmoved t own := foldl_unmoved _ (fun _ _ => by simp) _ _
    clear_value own
    split <;> exact hown
  all_goals simp

/-- The tables that a chosen copy loads: a worker takes no table of the manager. -/
theorem tablesLoad_of_valid {s : State} {q : Word} {f : Dword} {n : BitVec 4} {b : NvBody}
    (h : nvPresent s = .valid q f n b) :
    (tablesLoad s).ident.fabricId = f ∧ (tablesLoad s).referee.cfg = b.referee.sane ∧
      (isManager s = true → b.manager = true → (tablesLoad s).roster = b.roster ∧ (tablesLoad s).regions = b.regions) := by
  unfold tablesLoad
  split
  case h_1 q' f' n' b' hv =>
    cases h.symm.trans hv
    extract_lets _ t own
    have hident : own.ident.fabricId = f := congrArg Ident.fabricId (foldl_ident _ (fun _ _ => memPut_ident ..) _ t)
    have hreferee : own.referee.cfg = b.referee.sane :=
      congrArg Referee.cfg (foldl_referee _ (fun _ _ => memPut_referee ..) _ t)
    have hrestart : own.restart = s.restart := foldl_restart _ (fun _ _ => memPut_restart ..) _ t
    have hrole : isManager own = isManager s := by simp [isManager, hrestart]
    clear_value own
    refine ⟨?_, ?_, fun hm hb => ?_⟩
    · split <;> exact hident
    · split <;> exact hreferee
    · rw [if_pos (by simp [hrole, hm, hb])]
      exact ⟨rfl, rfl⟩
  all_goals
    rename_i hv
    cases h.symm.trans hv

theorem cseqFirst_congr {s t : State} (h : t.skb = s.skb) : cseqFirst t = cseqFirst s := by
  simp [cseqFirst, liveRecs, h]

/-- SELF_CHECK_FAIL only counts and logs. -/
theorem selfCheckFail_logged (unit : Byte) (a : Word) (s : State) :
    counterGet 0x08 (selfCheckFail unit a s) = ctrInc (counterGet 0x08 s) ∧
      selfCheckFail unit a s = { s with
        log := (selfCheckFail unit a s).log, ring := (selfCheckFail unit a s).ring, nv := (selfCheckFail unit a s).nv } :=
  ⟨by simp [selfCheckFail, counterGet_logRec, Code.info], by apply State.ext <;> simp [selfCheckFail]⟩

/-- LEVEL1_ENTRY as its parts: the level is taken and the program of OPEN is requested before anything else. -/
def opened (s : State) : State :=
  progReq (.session true) { setLevel .level1 s with
    restart := { (setLevel .level1 s).restart with stage := if isManager (setLevel .level1 s) then 9 else 0 } }

theorem level1Entry_eq (tier2 : Option (Half × Half)) (s : State) :
    level1Entry tier2 s =
      tier2Probe tier2 (onlyIf (isManager (onlyIf (partnerBad (opened s)) (nvCommit .keep) (opened s))) repaintsResume
        (onlyIf (partnerBad (opened s)) (nvCommit .keep) (opened s))) := rfl

/-- LEVEL2_ENTRY raises the level and makes every enabled studio ACTIVE; of a bank that is absent it only logs. -/
theorem level2Entry_of_level1 {s : State} (h : s.restart.level = .level1) :
    (level2Entry s).restart.level = .level2 ∧ (level2Entry s).restart.stage = 0 ∧
      (level2Entry s).standby.levelLatch = some .level2 ∧
      (∀ st : Fin 8, (s.studios.get st).cfg.en = true → ((level2Entry s).studios.get st).state = .active) ∧
      (level2Entry s).skb = s.skb ∧ (level2Entry s).members = s.members ∧ (level2Entry s).arrs = s.arrs := by
  have hup : ∀ st : Fin 8, (level2Entry s).studios.get st =
      if (s.studios.get st).cfg.en then { s.studios.get st with state := .active } else s.studios.get st := fun st => by
    simp [level2Entry, onlyIf, setLevel, h, studiosUp]
  refine ⟨?_, ?_, ?_, fun st hst => by simp [hup, hst], ?_, ?_, ?_⟩
  all_goals simp [level2Entry, onlyIf, setLevel, h, studiosUp]

/-- Settles O10: what follows the level and the stage of an entry leaves both alone, and a program once asked for stays
asked for. -/
theorem restartPathStages : Obligations.RestartPathStages := by
  unfold Obligations.RestartPathStages
  intro s
  refine ⟨fun h4 => ⟨?_, ?_, ?_, ?_⟩, ?_, ?_, fun hrun hman hlevel hstage => ⟨?_, ?_, ?_⟩⟩
  · refine reaches_of_guard rfl h4 ?_
    simp [selfChecksDone, cseqFirst_congr (s := s) (t := tablesLoad s) (by simp)]
  · intro q f n b hv
    exact reaches_of_guard rfl h4 (tablesLoad_of_valid hv)
  · intro a
    refine reaches_of_guard rfl h4 ?_
    have hlog := selfCheckFail_logged 0 a { s with restart := { s.restart with skbFault := true } }
    exact ⟨by simp [selfChecksDone, skbCheckFail], hlog.1, by simp [selfChecksDone, skbCheckFail, selfCheckFail]⟩
  · intro a
    refine reaches_of_guard rfl h4 ?_
    have hlog := selfCheckFail_logged 1 a { s with restart := { s.restart with canvasFault := true } }
    exact ⟨by simp [selfChecksDone, canvasCheckFail], hlog.1, by simp [selfChecksDone, canvasCheckFail, selfCheckFail]⟩
  · exact fun h => reaches_of_guard rfl (by simpa using h) rfl
  · intro tier2 h5 hrep
    have hl : s.restart.level = .level0 := by simp_all [atStage]
    refine reaches_of_guard rfl (by simp [h5, hrep]) ?_
    have hasked : .session true ∈ (opened s).nv.prog := mem_progReq (by simp [setLevel, hl]) _
    rw [level1Entry_eq]
    generalize hc : onlyIf (partnerBad (opened s)) (nvCommit .keep) (opened s) = c
    have hcommitted : .session true ∈ c.nv.prog := by
      rw [← hc, onlyIf]
      split
      · exact nvCommit_asked _ _ _ hasked
      · exact hasked
    have hprog : .session true ∈ (onlyIf (isManager c) repaintsResume c).nv.prog := by
      rw [onlyIf]
      split
      · exact repaintsResume_asked _ _ hcommitted
      · exact hcommitted
    have hkept : Unmoved (opened s) c := by rw [← hc]; simp [onlyIf]
    have hpath : Unmoved (opened s) (tier2Probe tier2 (onlyIf (isManager c) repaintsResume c)) := by
      simpa [onlyIf] using hkept
    obtain ⟨hrestart, hstandby, hskb, hscratch, hhbu⟩ := hpath
    refine ⟨?_, tier2Probe_asked _ _ _ hprog, ?_, ?_, ?_, ?_, ?_⟩
    · rw [hrestart]; simp [opened, setLevel, hl]
    · rw [hstandby]; simp [opened, setLevel, hl]
    · rw [hrestart]; simp [opened, setLevel, hl, isManager]; rfl
    · rw [hskb]; simp [opened]
    · rw [hscratch]; simp [opened]
    · rw [hhbu]; simp [opened]
  · intro hstraps
    refine reaches_of_guard rfl (by simp [hrun, hman, hlevel, hstage]) ?_
    simp only [hstraps, if_true]
    exact level2Entry_of_level1 hlevel
  · intro hstraps
    refine reaches_of_guard rfl (by simp [hrun, hman, hlevel, hstage]) ?_
    simp [hstraps]
  · intro u a
    refine reaches_of_guard rfl (by simp [hrun, hman, hlevel, hstage]) ?_
    have hlog := selfCheckFail_logged (BitVec.ofNat 8 (u.val + 2)) a
      { s with restart := { s.restart with hostFault := true, stage := 0 } }
    exact ⟨by simp [selfCheckFail], hlog.1, by simpa [selfCheckFail] using hlog.2⟩

/-! ## Control resets -/

theorem rstCtrl_laneChecks : LaneChecks 0x20 0xF := ⟨by decide, by decide, by decide, by decide⟩

/-- A write of RST_CTRL that finds its arm through an open path. -/
theorem viaPath_rstCtrl {p : Path} {w : Word} {code : BitVec 16} {s : State} (hopen : openPath p s)
    (hneed : armNeed 0x20 0xF w = some (code, true)) (harm : hasArm p code s) (hcode : code ≠ 0) :
    viaPathFull p 0x20 w s = rstCtrlWrite w (armSpent p s) :=
  viaPath_armed hopen rstCtrl_laneChecks (writeBusy_open hopen (by decide) (by decide) (by decide)) hneed harm hcode

/-- Without a port in the mask no port is reset. -/
theorem portsReset_none (s : State) : portsReset 0#8 s = s :=
  List.foldlRecOn (motive := fun t => t = s) (List.finRange 8) _ rfl fun t ht p _ => by simp [ht]

theorem viaPath_nvClear {p : Path} {s : State} (hopen : openPath p s) (harm : hasArm p 0x00CE s) :
    viaPathFull p 0x20 0x100 s = nvClear (armSpent p s) := by
  rw [viaPath_rstCtrl hopen (by decide) harm (by decide)]
  simp [rstCtrlWrite, bit, portsReset_none, onlyIf]

@[simp] theorem cleared_isBlank (c : NvCopy) : c.cleared.isBlank = true := by cases c <;> rfl

/-- Settles O11: a write of RST_CTRL through an open path is the register's own write, and the class C reset is followed
only by stages of the path that leave what it cleared. -/
theorem controlResets : Obligations.ControlResets := by
  unfold Obligations.ControlResets
  intro s p
  refine ⟨fun hopen harm => ?_, fun hopen harm => ⟨fun hlost => ?_, fun hlost => ?_⟩, ?_, ?_⟩
  · refine ⟨_, congrArg Host.Outcome.next (viaPath_rstCtrl hopen (by decide) harm (by decide)), ?_⟩
    simp [rstCtrlWrite, bit]
  · refine ⟨_, congrArg Host.Outcome.next (viaPath_nvClear hopen harm), ?_⟩
    simp [nvClear, hlost]
  · refine ⟨_, congrArg Host.Outcome.next (viaPath_nvClear hopen harm), ?_⟩
    simp [nvClear, hlost]
  · intro cut hrun hrst hprog hexit htrip hbelow
    refine reaches_of_guard rfl (by simp [hrun, hrst]) ?_
    simp only [progCut_idle cut hprog]
    simp [restartWrite_writes, resetC, resetCommon, stagesDrop, causeOf, hexit, htrip, hbelow]
  · intro cut hrst
    exact reaches_same rfl (by simp [hrst])

end Sys2Proof.Machine
end

section
/-! Sleep: requests, entries and their commit points, and wakes (R87 to R98, R545). -/

namespace Sys2Proof.Machine
open Sys2Proof.Safety

/-! ## PWR_CTRL -/

theorem pwrCtrl_lane0 : LaneChecks 0x10 1 := ⟨by decide, by decide, by decide, by decide⟩
theorem pwrCtrl_lane1 : LaneChecks 0x10 2 := ⟨by decide, by decide, by decide, by decide⟩

/-- A field is what its bits are. -/
theorem extract_eq_of_bits {w : Word} {lo n : Nat} {x : BitVec n} (h : ∀ i < n, bit w (lo + i) = x.getLsbD i) :
    w.extractLsb' lo n = x :=
  BitVec.eq_of_getLsbD_eq fun i hi => by rw [BitVec.getLsbD_extractLsb', ← h i hi]; simp [hi, bit]

theorem bit_of_extract {w : Word} {lo n i : Nat} (hi : i < n) : (w.extractLsb' lo n).getLsbD i = bit w (lo + i) := by
  rw [BitVec.getLsbD_extractLsb']
  simp [hi, bit]

/-- A field whose lanes are not enabled stays in a merge, and one whose lanes are is the new word's (R147). -/
theorem extract_mergeLanes {l : Lanes} {lo n : Nat} {b : Bool} (old new : Word) (hn : lo + n ≤ 32)
    (h : ∀ i < n, lane l ((lo + i) / 8) = b) :
    (mergeLanes l old new).extractLsb' lo n = (if b then new else old).extractLsb' lo n := by
  refine extract_eq_of_bits fun i hi => ?_
  rw [bit_mergeLanes _ _ _ _ (by omega), h i hi, bit_of_extract hi]
  cases b <;> rfl

theorem bit_pwrCtrlWord (s : State) (i : Nat) (h : i < 32) : bit (pwrCtrlWord s) i =
    ((decide (16 ≤ i) && s.standby.wakeTime.getLsbD (i - 16)) || (s.standby.wakePinEn && decide (i = 15)) ||
     (decide (12 ≤ i) && s.power.vpfSel.getLsbD (i - 12)) || (s.power.pfailPinEn && decide (i = 11)) ||
     (decide (4 ≤ i) && s.power.autoNap.getLsbD (i - 4))) := by
  simp only [pwrCtrlWord, bit_or, bit_fld, bit_flg, h, BitVec.testBit_toNat, decide_true, Bool.true_and, Bool.and_true]

theorem pwrCtrlWord_fields (s : State) :
    (pwrCtrlWord s).extractLsb' 16 16 = s.standby.wakeTime ∧ bit (pwrCtrlWord s) 15 = s.standby.wakePinEn ∧
      bit (pwrCtrlWord s) 11 = s.power.pfailPinEn ∧ (pwrCtrlWord s).extractLsb' 4 4 = s.power.autoNap := by
  refine ⟨extract_eq_of_bits fun i hi => ?_, ?_, ?_, extract_eq_of_bits fun i hi => ?_⟩
  · have hvpf : s.power.vpfSel.getLsbD (16 + i - 12) = false := BitVec.getLsbD_of_ge _ _ (by omega)
    have hnap : s.power.autoNap.getLsbD (16 + i - 4) = false := BitVec.getLsbD_of_ge _ _ (by omega)
    rw [bit_pwrCtrlWord _ _ (by omega), hvpf, hnap]
    simp [show 16 + i ≠ 15 by omega, show 16 + i ≠ 11 by omega]
  · simp [bit_pwrCtrlWord]
  · simp [bit_pwrCtrlWord]
  · rw [bit_pwrCtrlWord _ _ (by omega)]
    simp [show ¬ 16 ≤ 4 + i by omega, show ¬ 12 ≤ 4 + i by omega, show 4 + i ≠ 15 by omega, show 4 + i ≠ 11 by omega]

/-- A write of PWR_CTRL that carries the fields as they stand, wherever its lanes are enabled, changes VPF_SEL and REQ
alone. -/
theorem pwrCtrlWrite_fields {l : Lanes} {w : Word} {armed : Bool} {s : State} (h2 : lane l 2 = false) (h3 : lane l 3 = false)
    (h1 : lane l 1 = true → bit w 15 = s.standby.wakePinEn ∧ bit w 11 = s.power.pfailPinEn)
    (h0 : lane l 0 = true → w.extractLsb' 4 4 = s.power.autoNap) :
    pwrCtrlWrite l w armed s =
      if lane l 0 then reqWrite (w.extractLsb' 0 3) armed (if lane l 1 then vpfWrite (w.extractLsb' 12 3) s else s)
      else if lane l 1 then vpfWrite (w.extractLsb' 12 3) s else s := by
  obtain ⟨htime, hpin, hpfail, hnap⟩ := pwrCtrlWord_fields s
  have h16 : (mergeLanes l (pwrCtrlWord s) w).extractLsb' 16 16 = s.standby.wakeTime := by
    rw [extract_mergeLanes (b := false) _ _ (by omega) fun i hi => ?_]
    · exact htime
    · obtain h | h : (16 + i) / 8 = 2 ∨ (16 + i) / 8 = 3 := by omega
      · rw [h, h2]
      · rw [h, h3]
  have h4 : (mergeLanes l (pwrCtrlWord s) w).extractLsb' 4 4 = s.power.autoNap := by
    rw [extract_mergeLanes (b := lane l 0) _ _ (by omega) fun i hi => by rw [show (4 + i) / 8 = 0 by omega]]
    split
    · exact h0 ‹_›
    · exact hnap
  have h15 : bit (mergeLanes l (pwrCtrlWord s) w) 15 = s.standby.wakePinEn := by
    rw [bit_mergeLanes _ _ _ _ (by omega)]
    split
    · exact (h1 ‹_›).1
    · exact hpin
  have h11 : bit (mergeLanes l (pwrCtrlWord s) w) 11 = s.power.pfailPinEn := by
    rw [bit_mergeLanes _ _ _ _ (by omega)]
    split
    · exact (h1 ‹_›).2
    · exact hpfail
  simp only [pwrCtrlWrite, h16, h4, h15, h11]

theorem vpfWrite_power (code : BitVec 3) (s : State) (h : code.toNat < 6 ∧ releaseMv code ≤ s.power.sup.vcoreMv) :
    vpfWrite code s = { s with power := { s.power with vpfSel := code } } := if_pos h

/-- The word that a write of REQ alone carries, and its fields. -/
theorem reqWord_fields (nap : BitVec 4) (req : BitVec 3) :
    (fld 4 nap.toNat ||| fld 0 req.toNat).extractLsb' 4 4 = nap ∧
      (fld 4 nap.toNat ||| fld 0 req.toNat).extractLsb' 0 3 = req ∧ bits (fld 4 nap.toNat ||| fld 0 req.toNat) 2 0 = req.toNat := by
  revert nap req
  decide

theorem vpfWord_fields (pin pfail : Bool) (code : BitVec 3) :
    bit (flg 15 pin ||| flg 11 pfail ||| fld 12 code.toNat) 15 = pin ∧
      bit (flg 15 pin ||| flg 11 pfail ||| fld 12 code.toNat) 11 = pfail ∧
      (flg 15 pin ||| flg 11 pfail ||| fld 12 code.toNat).extractLsb' 12 3 = code := by
  revert pin pfail code
  decide

theorem regWrite_pwrCtrl (p : Path) (l : Lanes) (w : Word) (armed : Bool) (s : State) :
    regWrite p 0x10 l w armed s = pwrCtrlWrite l w armed s := rfl

/-- A write of lane 0 with AUTO_NAP as it stands is the request alone. -/
theorem regWrite_req {p : Path} (req : BitVec 3) (armed : Bool) {s u : State} (hu : u.power = s.power) :
    regWrite p 0x10 1 (fld 4 s.power.autoNap.toNat ||| fld 0 req.toNat) armed u = reqWrite req armed u := by
  obtain ⟨hnap, hreq, -⟩ := reqWord_fields s.power.autoNap req
  rw [regWrite_pwrCtrl, pwrCtrlWrite_fields (by decide) (by decide) (fun h => absurd h (by decide)) fun _ => by rw [hnap, hu], hreq]
  rfl

/-- A write of REQ alone through an open path is the request itself … -/
theorem viaReq_plain {p : Path} {s : State} (h : openPath p s) (req : BitVec 3) (hreq : req ≠ 4) :
    viaReq p req.toNat s = reqWrite req false (armAge p s) := by
  have hneed : bits (fld 4 s.power.autoNap.toNat ||| fld 0 req.toNat) 2 0 ≠ 4 := fun hb =>
    hreq (BitVec.eq_of_toNat_eq ((reqWord_fields s.power.autoNap req).2.2.symm.trans hb))
  unfold viaReq
  rw [viaPath_open h pwrCtrl_lane0 (writeBusy_open h (by decide) (by decide) (by decide)) (by simp [armNeed, hneed])]
  exact regWrite_req req false (by simp)

/-- … and a request for STANDBY spends the arm, found or not. -/
theorem viaReq_standby {p : Path} {s : State} (h : openPath p s) (ok : Bool)
    (hok : (((pathGet p (armAge p s)).arm.map (·.code)) == some 0x00F4) = ok) :
    viaReq p 4 s = reqWrite 4 ok (armSpent p s) := by
  have hneed : armNeed 0x10 1 (fld 4 s.power.autoNap.toNat ||| fld 0 4) = some (0x00F4, false) := by
    generalize s.power.autoNap = nap
    revert nap
    decide
  unfold viaReq
  rw [viaPath_of_check h pwrCtrl_lane0 (ok := ok) (t := armSpent p s) ?_ (.inr rfl)]
  · exact regWrite_req 4 ok (by simp)
  · rw [← armSpent_armAge]
    refine writeCheck_arm pwrCtrl_lane0 ?_ hneed ?_ (by simp)
    · rw [writeBusy_armAge]
      exact writeBusy_open h (by decide) (by decide) (by decide)
    · rw [hok]; simp

/-- A write of VPF_SEL alone through an open path. -/
theorem execVpfSelWrite_open {p : Path} {s : State} (h : openPath p s) (code : BitVec 3) :
    exec (.vpfSelWrite p code) s = .next (vpfWrite code (armAge p s)) := by
  obtain ⟨hpin, hpfail, hcode⟩ := vpfWord_fields s.standby.wakePinEn s.power.pfailPinEn code
  refine congrArg Host.Outcome.next ?_
  rw [viaPath_open h pwrCtrl_lane1 (writeBusy_open h (by decide) (by decide) (by decide)) rfl]
  rw [regWrite_pwrCtrl, pwrCtrlWrite_fields (by decide) (by decide) (fun _ => ⟨by simpa using hpin, by simpa using hpfail⟩)
    (fun h => absurd h (by decide)), hcode]
  rfl

/-- An arm that does not last for one more access is not found. -/
theorem armAge_of_not_hasArm {p : Path} {code : BitVec 16} {s : State} (h : ¬hasArm p code s) :
    (((pathGet p (armAge p s)).arm.map (·.code)) == some code) = false := by
  rw [pathGet_armAge]
  cases harm : (pathGet p s).arm with
  | none => rfl
  | some a =>
    by_cases hleft : a.left = 0
    · simp [Arm.aged, hleft]
    · have hcode : a.code ≠ code := fun hc => h (by simp [hasArm, harm, hc, Nat.pos_of_ne_zero hleft])
      simp [Arm.aged, hleft, hcode]

/-! ## Entries -/

theorem flushAll_onlyFlushes (s : State) : OnlyFlushes s (flushAll s) :=
  OnlyFlushes.foldl (fun _ _ => flushRec_onlyFlushes _ _) _ s

theorem flushEverything_onlyFlushes (s : State) : OnlyFlushes s (flushEverything s) := by
  refine (flushAll_onlyFlushes s).trans (OnlyFlushes.foldl (fun t a => ?_) _ _)
  obtain ⟨i, r⟩ := a
  dsimp only
  split
  · exact trimApply_onlyFlushes i t
  · exact .refl t

/-- A packet that finds no link that is UP is counted, in 0x82 alone. -/
theorem counterGet_sendTo (k : BitVec 4) (kind : Byte) (p : Pkt) (classC : Bool) (s : State) {e : Nat} (he : e ≠ 0x82) :
    counterGet e (sendTo k kind p classC s) = counterGet e s := by
  unfold sendTo
  split
  · rfl
  · simp only [ringSend]
    split
    · exact counterGet_congr (by simp) e
    · rw [counterGet_counterInc, if_neg he.symm]

/-- A power order only goes out on the ring. -/
@[reducible, simp] def OnRing (s t : State) : Prop :=
  t = { s with log := t.log, ledger := t.ledger, ring := t.ring } ∧ counterGet 0x05 t = counterGet 0x05 s

theorem orderTo_onRing (code : Nat) (k : BitVec 4) (s : State) : OnRing s (orderTo code k s) :=
  ⟨by apply State.ext <;> simp [orderTo], counterGet_sendTo _ _ _ _ _ (by decide)⟩

theorem foldl_orderTo_onRing (code : Nat) (l : List (BitVec 4)) (s : State) :
    OnRing s (l.foldl (fun s k => orderTo code k s) s) := by
  refine List.foldlRecOn (motive := fun t => OnRing s t) l _ (by simp) fun t ht k _ => ?_
  obtain ⟨hstate, hcount⟩ := orderTo_onRing code k t
  refine ⟨?_, hcount.trans ht.2⟩
  rw [hstate, ht.1]

/-- The entry that an accepted request makes, with no entry under way, before its orders go out. -/
def entered (z : Sleep) (s : State) : State :=
  onlyIf (atLevel1 s) flushEverything { s with power := { s.power with reqResult := .entering, entry := some z } }

theorem entered_writes (z : Sleep) (s : State) :
    (entered z s).power = { s.power with reqResult := .entering, entry := some z } ∧
      entered z s = { s with power := (entered z s).power, skb := (entered z s).skb } ∧
      (entered z s).skb.recs = s.skb.recs := by
  unfold entered onlyIf
  split
  · obtain ⟨l, n, h⟩ := flushEverything_onlyFlushes
      { s with power := { s.power with reqResult := .entering, entry := some z } }
    rw [h]
    exact ⟨rfl, rfl, rfl⟩
  · exact ⟨rfl, rfl, rfl⟩

theorem enter_nap {s : State} (h : s.power.entry = none) : enter .nap s = entered .nap s := by
  simp [enter, entered, h, onlyIf, reqResult, atLevel1]

/-- DOZE and STANDBY then wait for every worker. -/
theorem enter_writes {z : Sleep} {s : State} (hz : z ≠ .nap) (h : s.power.entry = none) :
    (enter z s).power = { s.power with reqResult := .entering, entry := some z, ordersOut := workerList s } ∧
      (enter z s).hbu = s.hbu ∧ (enter z s).queues = s.queues ∧ (enter z s).pathC = s.pathC ∧ (enter z s).pathM = s.pathM := by
  obtain ⟨hpower, hstate, -⟩ := entered_writes z s
  have hlist : workerList (entered z s) = workerList s := by rw [hstate]; rfl
  have henter : enter z s = (workerList s).foldl (fun s k => orderTo z.num k s)
      { entered z s with power := { (entered z s).power with ordersOut := workerList s } } := by
    rw [← hlist]
    cases z
    · exact absurd rfl hz
    all_goals simp [enter, entered, h, onlyIf, reqResult, atLevel1, workerList]
  rw [henter, (foldl_orderTo_onRing _ _ _).1, hstate]
  exact ⟨by rw [hpower], rfl, rfl, rfl, rfl⟩

/-- Settles O12: a write of REQ, or of VPF_SEL, alone is the request, or the code, alone, and an accepted request beside it
starts flushes and sends orders. -/
theorem sleepRequests : Obligations.SleepRequests := by
  unfold Obligations.SleepRequests
  intro s p hopen
  have hnone : (armAge p s).power.entry = none := by obtain ⟨-, -, -, -, h, -⟩ := hopen; simp [h]
  have hspent : (armSpent p s).power.entry = none := by obtain ⟨-, -, -, -, h, -⟩ := hopen; simp [h]
  have hlevel : atLevel1 (armAge p s) = atLevel1 s := by simp [atLevel1]
  have hidle : idle (armAge p s) = idle s := by simp [idle]
  have hman : isManager (armAge p s) = isManager s := by simp [isManager]
  have hman' : isManager (armSpent p s) = isManager s := by simp [isManager]
  have hwork : workerList (armAge p s) = workerList s := by simp [workerList]
  have hwork' : workerList (armSpent p s) = workerList s := by simp [workerList]
  have hrun : exec (.reqRun p) s = .next (reqResult .done (armAge p s)) :=
    congrArg Host.Outcome.next (viaReq_plain hopen 1 (by decide))
  have hnap : exec (.reqNap p) s = .next (askNap (armAge p s)) :=
    congrArg Host.Outcome.next (viaReq_plain hopen 2 (by decide))
  have hdoze : exec (.reqDoze p) s = .next (askDoze (armAge p s)) :=
    congrArg Host.Outcome.next (viaReq_plain hopen 3 (by decide))
  have hstandby (ok : Bool) (hok : (((pathGet p (armAge p s)).arm.map (·.code)) == some 0x00F4) = ok) :
      exec (.reqStandby p) s = .next (askStandby ok (armSpent p s)) :=
    congrArg Host.Outcome.next (viaReq_standby hopen ok hok)
  refine ⟨?_, ?_, ?_, ?_, ?_, ?_, ?_, ?_, ?_, ?_⟩
  · exact ⟨_, hrun, by simp [reqResult, irqSet]⟩
  · intro h1 hi
    obtain ⟨hpower, hstate, hrecs⟩ := entered_writes .nap (armAge p s)
    refine ⟨_, hnap, ?_⟩
    simp only [askNap, hlevel, h1, hidle, hi, Bool.not_true, Bool.false_eq_true, if_false, enter_nap hnone]
    exact ⟨by rw [hpower]; simp, hstate, by rw [hrecs]; simp⟩
  · intro h1 hi c hc
    rcases hc with rfl | ⟨rfl, hm⟩
    · refine ⟨_, hnap, ?_⟩
      simp [askNap, hlevel, h1, hidle, hi, reqResult, irqSet]
    · refine ⟨_, hdoze, ?_⟩
      simp [askDoze, hman, hm, hlevel, h1, hidle, hi, reqResult, irqSet]
  · intro h1 c hc
    simp only [List.mem_cons, List.not_mem_nil, or_false] at hc
    rcases hc with rfl | rfl
    · exact ⟨_, hnap, by simp [askNap, hlevel, h1, reqResult, irqSet]⟩
    · exact ⟨_, hdoze, by simp [askDoze, hlevel, h1, reqResult, irqSet]⟩
  · intro hm h1 hi
    obtain ⟨hpower, hhbu, hqueues, -⟩ := enter_writes (z := .doze) (by decide) hnone
    refine ⟨_, hdoze, ?_⟩
    simp only [askDoze, hman, hm, hlevel, h1, hidle, hi, Bool.not_true, Bool.or_self, Bool.false_eq_true, if_false]
    exact ⟨by rw [hpower, hwork]; simp, by rw [hhbu]; simp, by rw [hqueues]; simp⟩
  · intro hm hfail harm
    have hok : (((pathGet p (armAge p s)).arm.map (·.code)) == some 0x00F4) = true := by rw [armAge_hasArm harm]; rfl
    refine ⟨fun hfree => ?_, fun htime hworker => ?_⟩
    · obtain ⟨hpower, -, -, hpathC, hpathM⟩ := enter_writes (z := .standby) (by decide) hspent
      have hfree' : (s.standby.wakeTime != 0 && anyWorker s) = false := by
        rcases hfree with h | h
        · simp [h]
        · simp [h]
      have hask : askStandby true (armSpent p s) = enter .standby (armSpent p s) := by
        simp_all [askStandby, anyWorker]
      refine ⟨_, hstandby true hok, ?_⟩
      rw [hask]
      refine ⟨by rw [hpower, hwork']; simp, ?_⟩
      have hpath : pathGet p (enter .standby (armSpent p s)) = pathGet p (armSpent p s) := by
        cases p
        · exact hpathC
        · exact hpathM
      rw [hpath, pathGet_armSpent]
    · have htime' : (s.standby.wakeTime != 0) = true := bne_iff_ne.mpr htime
      refine ⟨_, hstandby true hok, ?_⟩
      simp_all [askStandby, anyWorker, reqResult, irqSet]
  · intro hm hfail harm
    refine ⟨_, hstandby false (armAge_of_not_hasArm harm), ?_⟩
    simp [askStandby, hman', hm, hfail, reqResult, irqSet]
  · intro code h6 hmv
    refine ⟨_, execVpfSelWrite_open hopen code, ?_⟩
    rw [vpfWrite_power code _ ⟨h6, by simpa using hmv⟩]
    simp
  · intro code hbad
    refine ⟨_, execVpfSelWrite_open hopen code, ?_⟩
    rw [vpfWrite, if_neg (by simpa using hbad)]
    exact ⟨by simp [counterGet_logRec, Code.info], by apply State.ext <;> simp⟩
  · intro hr hauto hi h1
    have hnap : s.power.autoNap ≠ 0#4 := hauto
    obtain ⟨-, -, hstate, -, hentry, -⟩ := hopen
    obtain ⟨hpower, hrest, -⟩ := entered_writes .nap s
    refine reaches_of_guard rfl (by simp [hr, hnap, hi, hstate, hentry]) ?_
    simp only [askNap, h1, hi, Bool.not_true, Bool.false_eq_true, if_false, enter_nap hentry]
    exact ⟨hpower, hrest⟩

/-! ## Commit points -/

theorem commitPoint_idle {z : Sleep} {f : State → State} {s : State} (hready : entryReady z s = true) (hidle : idle s = true) :
    commitPoint z f s = f s := by simp [commitPoint, hready, hidle]

theorem commitPoint_busy {z : Sleep} {f : State → State} {s : State} (hready : entryReady z s = true)
    (hidle : idle s = false) : commitPoint z f s = cancelEntry s := by simp [commitPoint, hready, hidle]

/-- A link goes DARK by order where it is UP or trains. -/
def orderDark (fb : Bool) (s : State) : State :=
  match (rport fb s).link with
  | .up | .training => linkDown fb .dark s
  | .dark | .broken => s

theorem linksOrdered_eq (s : State) :
    linksOrdered s = orderDark true (orderDark false { s with power := { s.power with heldDark := true } }) := rfl

/-- A port at rest stays so, and its own order takes it there. -/
theorem orderDark_link (fb b : Bool) (s : State) (h : b = fb ∨ (rport b s).link ≠ .up ∧ (rport b s).link ≠ .training) :
    (rport b (orderDark fb s)).link ≠ .up ∧ (rport b (orderDark fb s)).link ≠ .training := by
  unfold orderDark
  split
  case h_1 | h_2 =>
    rw [linkDown_link]
    split
    · exact ⟨by decide, by decide⟩
    · exact h.resolve_left ‹_›
  case h_3 hlink | h_4 hlink =>
    rcases h with rfl | h
    · simp [hlink]
    · exact h

theorem linksOrdered_dark (s : State) (b : Bool) :
    (rport b (linksOrdered s)).link ≠ .up ∧ (rport b (linksOrdered s)).link ≠ .training := by
  rw [linksOrdered_eq]
  refine orderDark_link true b _ ?_
  cases b
  · exact .inr (orderDark_link false false _ (.inl rfl))
  · exact .inl rfl

theorem linksOrdered_keeps (s : State) :
    (linksOrdered s).power = { s.power with heldDark := true } ∧ (linksOrdered s).clk = s.clk ∧
      (linksOrdered s).restart = s.restart ∧ (linksOrdered s).skb = s.skb ∧ (linksOrdered s).nv = s.nv := by
  simp only [linksOrdered]
  split <;> split <;> simp

theorem level_of_entryReady {z : Sleep} {s : State} (h : entryReady z s = true) : s.restart.level ≠ .failstop := by
  simp only [entryReady, unitsRun, unitsUp, Bool.and_eq_true] at h
  simp_all

/-- The part at the commit point of DOZE, and what it then does. -/
def dozed (s : State) : State :=
  { s with power := { s.power with entry := none, state := .doze, asleep := if isManager s then workerList s else [] } }

def dozeDown (elapsed : Nat) (s : State) : State := palNap (irqSet irqClock (toXin elapsed (linksOrdered (dozed s))))

theorem execDozeCommit_idle {elapsed : Nat} {s : State} (hready : entryReady .doze s = true) (hidle : idle s = true) :
    exec (.dozeCommit elapsed) s = .next (dozeDown elapsed s) :=
  congrArg Host.Outcome.next (commitPoint_idle hready hidle)

/-- The core runs from XIN, and its clock was moved there if it ran from CCLK. -/
theorem toXin_clk (elapsed : Nat) (s : State) :
    (toXin elapsed s).clk.pllLock = false ∧ (toXin elapsed s).clk.bypass = true ∧
      (toXin elapsed s).clk.lockLossCount = s.clk.lockLossCount ∧ (toXin elapsed s).clk.tick = s.clk.tick ∧
      (s.clk.bypass = false → (toXin elapsed s).clk.carry = elapsed * 3 / 50 ∧ (toXin elapsed s).clk.pattern = 0) := by
  cases h : s.clk.bypass <;> simp [toXin, h]

theorem dozeDown_writes (elapsed : Nat) (s : State) :
    (dozeDown elapsed s).clk = (toXin elapsed (linksOrdered (dozed s))).clk ∧
      (dozeDown elapsed s).ring = (linksOrdered (dozed s)).ring ∧
      (dozeDown elapsed s).power = { (dozed s).power with heldDark := true } ∧
      (dozeDown elapsed s).restart = s.restart ∧ (dozeDown elapsed s).skb = s.skb ∧ (dozeDown elapsed s).nv = s.nv := by
  obtain ⟨hpower, -, hrestart, hskb, hnv⟩ := linksOrdered_keeps (dozed s)
  exact ⟨rfl, rfl, hpower, hrestart, hskb, hnv⟩

/-- Settles O13: past the second look at the idle condition a commit point is its own effect. -/
theorem commitPoints : Obligations.CommitPoints := by
  unfold Obligations.CommitPoints
  intro s
  refine ⟨fun hready hidle => ?_, fun elapsed hready hidle => ?_, fun hready hidle => ⟨?_, ?_, ?_⟩, fun hready hidle hentry => ?_⟩
  · exact ⟨_, congrArg Host.Outcome.next (commitPoint_idle hready hidle), by simp [entryOver, palNap]⟩
  · obtain ⟨hfa, hfaT⟩ := linksOrdered_dark (dozed s) false
    obtain ⟨hfb, hfbT⟩ := linksOrdered_dark (dozed s) true
    obtain ⟨hclk, hring, hpower, hrestart, hskb, hnv⟩ := dozeDown_writes elapsed s
    have hxin := toXin_clk elapsed (linksOrdered (dozed s))
    have hsame : (linksOrdered (dozed s)).clk = s.clk := (linksOrdered_keeps (dozed s)).2.1
    obtain ⟨hlock, hbypass, hloss, htick, hmove⟩ := hxin
    rw [hsame] at hloss htick hmove
    refine ⟨_, execDozeCommit_idle hready hidle, ?_⟩
    dsimp only
    rw [hclk, hring, hpower]
    exact ⟨rfl, rfl, rfl, hlock, hbypass, hloss, hmove, htick, hfa, hfb, hfaT, hfbT, hrestart, hskb, hnv⟩
  · intro hclosed hprog
    refine ⟨_, congrArg Host.Outcome.next (commitPoint_idle hready hidle), ?_⟩
    simp [hclosed, hprog, standbyDown, resetPD, resetCommon, stagesDrop]
  · intro hopen hprog
    refine ⟨_, congrArg Host.Outcome.next (commitPoint_idle hready hidle), ?_⟩
    simp [hopen, hprog, progReq, level_of_entryReady hready]
  · intro hprog
    refine ⟨_, congrArg Host.Outcome.next (commitPoint_idle hready hidle), ?_⟩
    have hsome : s.nv.prog.isEmpty = false := by cases h : s.nv.prog <;> simp_all
    simp [hprog, hsome]
  · refine ⟨_, congrArg Host.Outcome.next (commitPoint_busy hready hidle), ?_⟩
    simp [cancelEntry, hentry, reqResult, irqSet]

/-! ## Wakes -/

@[simp] theorem Power.ite_state {c : Prop} [Decidable c] (p q : Power) : (if c then p else q).state = if c then p.state else q.state :=
  apply_ite Power.state c p q
@[simp] theorem Power.ite_waking {c : Prop} [Decidable c] (p q : Power) :
    (if c then p else q).waking = if c then p.waking else q.waking := apply_ite Power.waking c p q
@[simp] theorem Power.ite_wakeWrite {c : Prop} [Decidable c] (p q : Power) :
    (if c then p else q).wakeWrite = if c then p.wakeWrite else q.wakeWrite := apply_ite Power.wakeWrite c p q
@[simp] theorem Hbu.ite_heldCycle {c : Prop} [Decidable c] (p q : Hbu) :
    (if c then p else q).heldCycle = if c then p.heldCycle else q.heldCycle := apply_ite Hbu.heldCycle c p q
/-- Neither the sleep state, a wake under way with its write, nor the held bus cycles change. -/
@[reducible, simp] def Asleep (s t : State) : Prop :=

    t.power.state = s.power.state ∧ t.power.waking = s.power.waking ∧ t.power.wakeWrite = s.power.wakeWrite ∧ t.hbu.heldCycle = s.hbu.heldCycle

theorem Asleep.refl (s : State) : Asleep s s := by simp
theorem Asleep.trans {s t u : State} (h : Asleep t u) (k : Asleep s t) : Asleep s u := by simp [h, k]

theorem foldl_asleepOn {α β : Type} (part : β → State) (g : β → α → β)
    (h : ∀ b a, Asleep (part b) (part (g b a))) (l : List α) (b : β) : Asleep (part b) (part (l.foldl g b)) := by
  induction l generalizing b with
  | nil => exact .refl _
  | cons a t ih => exact (ih _).trans (h b a)
theorem foldl_asleep {α : Type} (g : State → α → State) (h : ∀ s a, Asleep s (g s a)) (l : List α) (s : State) :
    Asleep s (l.foldl g s) := foldl_asleepOn id g h l s
@[simp] theorem onlyIf_asleep (c : Bool) (f : State → State) (s : State) (h : Asleep s (f s)) :
    Asleep s (onlyIf c f s) := by
  cases c <;> simp [onlyIf, h]

@[simp] theorem busRefresh_asleep (s : State) : Asleep s (busRefresh s) := by
  simp [busRefresh]
@[simp] theorem sirqSet_asleep (st : Fin 8) (b : Nat) (s : State) : Asleep s (sirqSet st b s) := by
  simp [sirqSet, aliasPut]
@[simp] theorem aliasPut_asleep (i : Fin 8) (a : Alias) (s : State) : Asleep s (aliasPut i a s) := by
  simp [aliasPut]
@[simp] theorem canvasPut_asleep (c : Canvas) (s : State) : Asleep s (canvasPut c s) := by simp
@[simp] theorem createOp_asleep (o : MOp) (s : State) : Asleep s (createOp o s) := by simp
@[simp] theorem ringRequest_asleep (k : BitVec 4) (kind : ReqKind) (s : State) :
    Asleep s (ringRequest k kind s) := by simp
@[simp] theorem slotPut_asleep (i : Nat) (x : Slot) (s : State) : Asleep s (slotPut i x s) := by simp
@[simp] theorem poolGive_asleep (i : Fin 20) (who : Option (Fin 8)) (n : Nat) (s : State) :
    Asleep s (poolGive i who n s) := by simp
@[simp] theorem arrPut_asleep (a : Fin 4) (x : Arr) (s : State) : Asleep s (arrPut a x s) := by simp
@[simp] theorem poolTake_asleep (i : Fin 20) (who : Option (Fin 8)) (n : Nat) (s : State) :
    Asleep s (poolTake i who n s) := by simp
@[simp] theorem tilePut_asleep (n : Nat) (t : Tile) (s : State) : Asleep s (tilePut n t s) := by simp
@[simp] theorem layPut_asleep (i : Fin 32) (l : Layer) (s : State) : Asleep s (layPut i l s) := by simp
@[simp] theorem memPut_asleep (m : Fin 128) (x : Member) (s : State) : Asleep s (memPut m x s) := by simp
@[simp] theorem portPut_asleep (p : Fin 8) (x : Port) (s : State) : Asleep s (portPut p x s) := by simp
@[simp] theorem progReq_asleep (o : ProgOp) (s : State) : Asleep s (progReq o s) := by simp
@[simp] theorem sqPut_asleep (q : Fin 32) (x : Sq) (s : State) : Asleep s (sqPut q x s) := by simp
@[simp] theorem studioPut_asleep (i : Fin 8) (x : Studio) (s : State) : Asleep s (studioPut i x s) := by simp
@[simp] theorem pathPut_asleep (p : Path) (r : PathRegs) (s : State) : Asleep s (pathPut p r s) := by simp
@[simp] theorem irqSet_asleep (b : Nat) (s : State) : Asleep s (irqSet b s) := by simp
@[simp] theorem logAs_asleep (c : Code) (cls : LogClass) (studio : Option (Fin 8)) (args : List Byte) (s : State) :
    Asleep s (logAs c cls studio args s) := by simp
@[simp] theorem nvCommit_asleep (c : NvChange) (s : State) : Asleep s (nvCommit c s) := by simp
@[simp] theorem counterInc_asleep (e : Nat) (s : State) : Asleep s (counterInc e s) := by simp
@[simp] theorem bbPut_asleep (slot : Nat) (r : BbRec) (s : State) : Asleep s (bbPut slot r s) := by
  simp [bbPut]
@[simp] theorem bbTear_asleep (page k : Nat) (s : State) : Asleep s (bbTear page k s) := by simp [bbTear]
@[simp] theorem freeNext_asleep (s : State) : Asleep s (freeNext s).2 := by simp [freeNext]
@[simp] theorem poolAsk_asleep (r : PoolReq) (s : State) : Asleep s (poolAsk r s).2 := by
  simp only [poolAsk]
  split <;> simp
@[simp] theorem forcedUpdate_asleep (s : State) : Asleep s (forcedUpdate s) := by
  simp [forcedUpdate]
theorem allocPage_asleep {s r : State} {n : Nat} (h : allocPage s = some (n, r)) : Asleep s r := by
  obtain ⟨_, _, h⟩ := Option.map_eq_some_iff.mp h
  cases h
  exact Asleep.refl _
@[simp] theorem progNext_asleep (s : State) : Asleep s (progNext s) := by simp [progNext]
@[simp] theorem sessionPut_asleep (opened : Bool) (s : State) : Asleep s (sessionPut opened s) := by
  simp [sessionPut]
@[simp] theorem recPut_asleep (slot : Nat) (f : Rec → Rec) (s : State) : Asleep s (recPut slot f s) := by
  simp only [recPut]
  split <;> simp
@[simp] theorem freePages_asleep (l : List Nat) (s : State) : Asleep s (freePages l s) := by
  simp [freePages]
@[simp] theorem tileDrop_asleep (n : Nat) (s : State) : Asleep s (tileDrop n s) := by
  simp only [tileDrop]
  split <;> simp
@[simp] theorem tier2Drop_asleep (n : Nat) (s : State) : Asleep s (tier2Drop n s) := by
  simp only [tier2Drop]
  split <;> simp
@[simp] theorem tilesDrop_asleep (l : List Nat) (s : State) : Asleep s (tilesDrop l s) := by
  simp [tilesDrop, foldl_asleep]
@[simp] theorem dropWhere_asleep (f : Bind → Bool) (s : State) : Asleep s (dropWhere f s) := by
  simp [dropWhere, foldl_asleep]
@[simp] theorem workDrop_asleep (w : Work) (s : State) : Asleep s (workDrop w s) := by simp [workDrop]
@[simp] theorem cleanTiles_asleep (s : State) : Asleep s (cleanTiles s) := by simp [cleanTiles]
@[simp] theorem dropOps_asleep (f : MOp → Bool) (s : State) : Asleep s (dropOps f s) := by simp [dropOps]
@[simp] theorem markFailed_asleep (w : Work) (c : ChunkAt) (row : Nat) (s : State) :
    Asleep s (markFailed w c row s) := by
  simp [markFailed]
@[simp] theorem lockRequest_asleep (l : Lock) (s : State) : Asleep s (lockRequest l s) := by
  simp [lockRequest]
@[simp] theorem lockDrop_asleep (f : Lock → Bool) (s : State) : Asleep s (lockDrop f s) := by
  simp [lockDrop, foldl_asleep]
@[simp] theorem cmdRelease_asleep (i : Nat) (s : State) : Asleep s (cmdRelease i s) := by
  unfold cmdRelease
  split
  · exact Asleep.refl _
  · simp
@[simp] theorem whistleBreak_asleep (q : Fin 32) (s : State) : Asleep s (whistleBreak q s) := by
  simp [whistleBreak]
@[simp] theorem kickOff_asleep (q : Fin 32) (s : State) : Asleep s (kickOff q s) := by simp [kickOff]
@[simp] theorem freezeQueue_asleep (q : Fin 32) (x : Slot) (held : Option Nat) (cause : Bool) (s : State) :
    Asleep s (freezeQueue q x held cause s) := by
  simp [freezeQueue]
@[simp] theorem xferNew_asleep (k : XferKind) (st : Fin 8) (src dst : Side) (len : Nat) (s : State) :
    Asleep s (xferNew k st src dst len s) := by
  simp [xferNew]
@[simp] theorem cmdDone_asleep (i : Nat) (x : Slot) (s : State) : Asleep s (cmdDone i x s) := by
  simp [cmdDone]
@[simp] theorem xferDrop_asleep (f : Xfer → Bool) (s : State) : Asleep s (xferDrop f s) := by
  simp [xferDrop, foldl_asleep]
@[simp] theorem pioEnd_asleep (i : Nat) (s : State) : Asleep s (pioEnd i s) := by simp [pioEnd]
@[simp] theorem decideCmd_asleep (i : Nat) (status detail : Byte) (result : Word) (s : State) :
    Asleep s (decideCmd i status detail result s) := by
  simp only [decideCmd]
  (repeat' split) <;> simp
@[simp] theorem endCmd_asleep (i : Nat) (status detail : Byte) (result : Word) (s : State) :
    Asleep s (endCmd i status detail result s) := by
  simp only [endCmd]
  (repeat' split) <;> simp
@[simp] theorem volsNote_asleep (f : Vol → Bool) (s : State) : Asleep s (volsNote f s) :=
  foldl_asleep _ (fun u v => by split <;> simp) _ s
@[simp] theorem volsFollow_asleep (a : Fin 4) (s : State) : Asleep s (volsFollow a s) := by
  simp [volsFollow]
@[simp] theorem setArr_asleep (a : Fin 4) (x : Arr) (s : State) : Asleep s (setArr a x s) := by
  simp [setArr]
@[simp] theorem refreshArray_asleep (a : Fin 4) (s : State) : Asleep s (refreshArray a s) := by
  simp [refreshArray, foldl_asleep]
@[simp] theorem genNext_asleep (a : Fin 4) (s : State) : Asleep s (genNext a s) := by
  simp [genNext]
@[simp] theorem advance_asleep (a : Fin 4) (s : State) : Asleep s (advance a s) := by simp [advance]
@[simp] theorem advancesDue_asleep (s : State) : Asleep s (advancesDue s) := by
  simp [advancesDue, foldl_asleep]
@[simp] theorem flushesEnd_asleep (a : Fin 4) (s : State) : Asleep s (flushesEnd a s) := by
  simp [flushesEnd, foldl_asleep]
@[simp] theorem volTrimDrop_asleep (a : Fin 4) (s : State) : Asleep s (volTrimDrop a s) := by
  simp [volTrimDrop]
@[simp] theorem backgroundEnd_asleep (a : Fin 4) (s : State) : Asleep s (backgroundEnd a s) := by
  simp [backgroundEnd]
@[simp] theorem cmdsOffline_asleep (a : Fin 4) (s : State) : Asleep s (cmdsOffline a s) :=
  foldl_asleep _ (fun u x => by (repeat' split) <;> simp) _ s
@[simp] theorem goOffline_asleep (a : Fin 4) (m1 m2 stripe : Nat) (s : State) :
    Asleep s (goOffline a m1 m2 stripe s) := by
  simp [goOffline]
@[simp] theorem restoreSpares_asleep (a : Fin 4) (role : Nat) (s : State) : Asleep s (restoreSpares a role s) := by
  simp [restoreSpares]
@[simp] theorem restoreOnto_asleep (a : Fin 4) (role : Nat) (m : Fin 128) (cause : Byte) (s : State) :
    Asleep s (restoreOnto a role m cause s) := by
  simp [restoreOnto]
@[simp] theorem autoRestore_asleep (a : Fin 4) (role : Nat) (lost : Fin 128) (s : State) :
    Asleep s (autoRestore a role lost s) := by
  simp only [autoRestore]
  (repeat' split) <;> simp
@[simp] theorem repaintNote_asleep (a : Fin 4) (s : State) : Asleep s (repaintNote a s) := by
  simp [repaintNote]
@[simp] theorem bgUnwait_asleep (a : Fin 4) (s : State) : Asleep s (bgUnwait a s) := by simp [bgUnwait]
@[simp] theorem paintLoss_asleep (a : Fin 4) (i : Nat) (m : Fin 128) (s : State) : Asleep s (paintLoss a i m s) := by
  simp [paintLoss]
@[simp] theorem roleLost_asleep (a : Fin 4) (i : Nat) (rs : RoleState) (m : Fin 128) (s : State) :
    Asleep s (roleLost a i rs m s) := by
  unfold roleLost
  extract_lets x wasTarget lacked x'
  clear_value lacked x'
  split
  · simp
  split
  · simp
  split
  · simp
  split
  · simp
  cases lacked with
  | cons j t => simp
  | nil =>
    dsimp only
    split
    · split <;> simp +zetaDelta
    · refine (autoRestore_asleep ..).trans ?_
      split <;> simp +zetaDelta
@[simp] theorem memberLost_asleep (m : Fin 128) (rs : RoleState) (s : State) : Asleep s (memberLost m rs s) := by
  simp only [memberLost]
  split <;> simp
@[simp] theorem progOnly_asleep (s : State) : Asleep s (progOnly s) := by
  simp only [progOnly]
  split <;> simp
@[simp] theorem addFlush_asleep (f : Flush) (s : State) : Asleep s (addFlush f s) := by
  simp [addFlush]
@[simp] theorem startFlush_asleep (a : Fin 4) (new : Bool) (stripe : Nat) (s : State) :
    Asleep s (startFlush a new stripe s) := by
  simp [startFlush]
@[simp] theorem flushRec_asleep (r : Rec) (s : State) : Asleep s (flushRec r s) := by
  simp [flushRec, foldl_asleep]
@[simp] theorem trimApply_asleep (slot : Nat) (s : State) : Asleep s (trimApply slot s) := by
  simp only [trimApply]
  (repeat' split) <;> simp
@[simp] theorem recAdvance_asleep (i : Nat) (r : Rec) (s : State) : Asleep s (recAdvance i r s) := by
  simp only [recAdvance]
  split <;> simp
@[simp] theorem forcedFlush_asleep (s : State) : Asleep s (forcedFlush s) := by
  simp only [forcedFlush]
  (repeat' split) <;> simp
@[simp] theorem endFlush_asleep (f : Flush) (s : State) : Asleep s (endFlush f s) := by simp [endFlush]
@[simp] theorem wordsAsk_asleep (s : State) : Asleep s (wordsAsk s) :=
  foldl_asleep _ (fun u x => by (repeat' split) <;> simp) _ s
@[simp] theorem startVolTrim_asleep (v : Fin 64) (s : State) : Asleep s (startVolTrim v s) := by
  simp [startVolTrim]
@[simp] theorem volTrimsResume_asleep (a : Fin 4) (s : State) : Asleep s (volTrimsResume a s) := by
  simp [volTrimsResume, foldl_asleep]
@[simp] theorem replayEnd_asleep (a : Fin 4) (s : State) : Asleep s (replayEnd a s) := by
  simp only [replayEnd]
  (repeat' split) <;> simp
@[simp] theorem retired_asleep (slot : Nat) (s : State) : Asleep s (retired slot s) := by
  simp only [retired]
  split <;> simp
@[simp] theorem repaintReturn_asleep (a : Fin 4) (s : State) : Asleep s (repaintReturn a s) := by
  simp [repaintReturn]
@[simp] theorem restorationEnd_asleep (a : Fin 4) (s : State) : Asleep s (restorationEnd a s) := by
  simp only [restorationEnd]
  split <;> simp
@[simp] theorem copyBackEnd_asleep (a : Fin 4) (s : State) : Asleep s (copyBackEnd a s) := by
  simp [copyBackEnd]
@[simp] theorem inspectionEnd_asleep (a : Fin 4) (s : State) : Asleep s (inspectionEnd a s) := by
  simp [inspectionEnd]
@[simp] theorem passEnd_asleep (a : Fin 4) (s : State) : Asleep s (passEnd a s) := by
  simp [passEnd]
@[simp] theorem frontEnd_asleep (a : Fin 4) (m : Nat) (s : State) : Asleep s (frontEnd a m s) := by
  simp [frontEnd, foldl_asleep]
@[simp] theorem markEnd_asleep (a : Fin 4) (m : Nat) (s : State) : Asleep s (markEnd a m s) := by
  simp [markEnd]
@[simp] theorem readsFlip_asleep (a : Fin 4) (s : State) : Asleep s (readsFlip a s) := by simp [readsFlip]
@[simp] theorem verifiesAnew_asleep (a : Fin 4) (s : State) : Asleep s (verifiesAnew a s) := by
  simp [verifiesAnew, foldl_asleep]
@[simp] theorem regionEnd_asleep (a : Fin 4) (new : Bool) (s : State) : Asleep s (regionEnd a new s) := by
  simp [regionEnd, foldl_asleep]
@[simp] theorem cutoverEnd_asleep (a : Fin 4) (s : State) : Asleep s (cutoverEnd a s) := by
  simp [cutoverEnd]
@[simp] theorem sigWrite_asleep (m : Fin 128) (s : State) : Asleep s (sigWrite m s) := by simp [sigWrite]
@[simp] theorem backEnd_asleep (a : Fin 4) (s : State) : Asleep s (backEnd a s) := by
  simp [backEnd, foldl_asleep]
@[simp] theorem reap_asleep (w : Work) (s : State) : Asleep s (reap w s) := by
  cases w with
  | cmd i =>
    simp only [reap]
    (repeat' split) <;> simp
  | _ => exact Asleep.refl _
@[simp] theorem portChanged_asleep (p : Fin 8) (s : State) : Asleep s (portChanged p s) := by
  simp [portChanged]
@[simp] theorem ownEdit_asleep (p : Fin 8) (f : Member → Member) (s : State) : Asleep s (ownEdit p f s) := by
  simp [ownEdit]
@[simp] theorem portOn_asleep (p : Fin 8) (s : State) : Asleep s (portOn p s) := by simp [portOn]
@[simp] theorem allocPages_asleep (n : Nat) (s : State) : Asleep s (allocPages n s).2 := by
  induction n generalizing s with
  | zero => exact Asleep.refl _
  | succ n ih => grind [allocPages, allocPage_asleep]
@[simp] theorem land_asleep (v : Served) (s : State) : Asleep s (land v s) := by
  simp [land, foldl_asleep]
@[simp] theorem orderAck_asleep (s : State) : Asleep s (orderAck s) := by
  simp only [orderAck]
  (repeat' split) <;> simp
@[simp] theorem servedDrop_asleep (v : Served) (s : State) : Asleep s (servedDrop v s) := by
  simp [servedDrop, foldl_asleep]
@[simp] theorem reply_asleep (v : Served) (kind : Byte) (arg : Nat) (flits : List Dword) (s : State) :
    Asleep s (reply v kind arg flits s) := by
  simp [reply]
@[simp] theorem psumReply_asleep (v : Served) (s : State) : Asleep s (psumReply v s) := by
  simp [psumReply, foldl_asleep]
@[simp] theorem servedResult_asleep (tag epoch : Byte) (o : MOp) (r : OpEnd) (s : State) :
    Asleep s (servedResult tag epoch o r s) := by
  simp only [servedResult]
  (repeat' split) <;> simp [foldl_asleep]
@[simp] theorem chunkResult_asleep (w : Work) (c : ChunkAt) (row : Nat) (r : OpEnd) (s : State) :
    Asleep s (chunkResult w c row r s) := by
  simp only [chunkResult]
  (repeat' split) <;> simp
@[simp] theorem retiredOff_asleep (m : Fin 128) (s : State) : Asleep s (retiredOff m s) := by
  simp [retiredOff]
@[simp] theorem mgmtAsk_asleep (r : MgmtRun) (s : State) : Asleep s (mgmtAsk r s) := by
  simp only [mgmtAsk, onlyIf]
  (repeat' split) <;> simp
@[simp] theorem mgmtSigOk_asleep (m : Fin 128) (copyB : Bool) (s : State) : Asleep s (mgmtSigOk m copyB s) := by
  simp only [mgmtSigOk]
  (repeat' split) <;> simp
@[simp] theorem mgmtSigFail_asleep (m : Fin 128) (s : State) : Asleep s (mgmtSigFail m s) := by
  simp only [mgmtSigFail]
  (repeat' split) <;> simp
@[simp] theorem sigResult_asleep (o : MOp) (copyB own : Bool) (s : State) : Asleep s (sigResult o copyB own s) := by
  simp [sigResult]
@[simp] theorem sigLost_asleep (m : Fin 128) (s : State) : Asleep s (sigLost m s) := by
  simp [sigLost]
@[simp] theorem sigSeen_asleep (o : MOp) (r : OpEnd) (s : State) : Asleep s (sigSeen o r s) := by
  simp only [sigSeen]
  (repeat' split) <;> simp
@[simp] theorem opResult_asleep (o : MOp) (r : OpEnd) (s : State) : Asleep s (opResult o r s) := by
  simp only [opResult]
  (repeat' split) <;> simp
@[simp] theorem opOut_asleep (p : Fin 8) (o : MOp) (s : State) : Asleep s (opOut p o s) := by simp [opOut]
@[simp] theorem portAbort_asleep (p : Fin 8) (r : OpEnd) (s : State) : Asleep s (portAbort p r s) := by
  simp [portAbort, foldl_asleep]
@[simp] theorem admitSub_asleep (x : Fin 4 × Nat × Nat × Nat) (s : State) : Asleep s (admitSub x s) := by
  simp [admitSub]
@[simp] theorem studiosDown_asleep (s : State) : Asleep s (studiosDown s) := by simp [studiosDown]
@[simp] theorem fwdApply_asleep (space e : Nat) (w : List Word) (s : State) : Asleep s (fwdApply space e w s) := by
  simp only [fwdApply]
  split <;> simp
@[simp] theorem tilesFree_asleep (i : Fin 32) (f : LTile → Bool) (s : State) : Asleep s (tilesFree i f s) := by
  simp [tilesFree, foldl_asleep]
@[simp] theorem layerFree_asleep (i : Fin 32) (s : State) : Asleep s (layerFree i s) := by
  simp only [layerFree]
  split <;> simp
@[simp] theorem eachLayer_asleep (f : Fin 32 → State → State) (s : State) (h : ∀ i u, Asleep u (f i u)) :
    Asleep s (eachLayer f s) := foldl_asleep _ (fun u i => h i u) _ s
@[simp] theorem palDown_asleep (s : State) : Asleep s (palDown s) := by simp [palDown]
@[simp] theorem studioApply_asleep (st : Fin 8) (w : List Word) (s : State) : Asleep s (studioApply st w s) := by
  simp [studioApply]
@[simp] theorem arrayApply_asleep (a : Fin 4) (w : List Word) (s : State) : Asleep s (arrayApply a w s) := by
  simp [arrayApply]
@[simp] theorem volumeApply_asleep (v : Fin 64) (w : List Word) (s : State) : Asleep s (volumeApply v w s) := by
  simp [volumeApply]
@[simp] theorem refereeApply_asleep (e : Nat) (w : List Word) (s : State) : Asleep s (refereeApply e w s) := by
  simp [refereeApply]
@[simp] theorem regionApply_asleep (e : Nat) (w : List Word) (s : State) : Asleep s (regionApply e w s) := by
  simp [regionApply]
@[simp] theorem memberApply_asleep (e : Nat) (w : List Word) (s : State) : Asleep s (memberApply e w s) := by
  simp [memberApply]
@[simp] theorem nvApply_asleep (space e : Nat) (w : List Word) (s : State) : Asleep s (nvApply space e w s) := by
  simp only [nvApply]
  split <;> simp
@[simp] theorem uncommitted_asleep (f : State → State) (s : State) (h : Asleep s (f s)) : Asleep s (uncommitted f s) := h
@[simp] theorem makeActive_asleep (l : List (Fin 128)) (s : State) : Asleep s (makeActive l s) := by
  simp [makeActive, foldl_asleep]
@[simp] theorem createArrayEffect_asleep (l : List Word) (s : State) : Asleep s (createArrayEffect l s) := by
  simp [createArrayEffect]
@[simp] theorem recsDiscard_asleep (a : Fin 4) (s : State) : Asleep s (recsDiscard a s) := by
  simp [recsDiscard, foldl_asleep]
@[simp] theorem deleteArrayEffect_asleep (l : List Word) (s : State) : Asleep s (deleteArrayEffect l s) := by
  simp [deleteArrayEffect, foldl_asleep]
@[simp] theorem forceEffect_asleep (l : List Word) (s : State) : Asleep s (forceEffect l s) := by
  simp only [forceEffect]
  (repeat' split) <;> simp
@[simp] theorem createVolumeEffect_asleep (l : List Word) (s : State) : Asleep s (createVolumeEffect l s) := by
  simp [createVolumeEffect]
@[simp] theorem deleteVolumeEffect_asleep (l : List Word) (s : State) : Asleep s (deleteVolumeEffect l s) := by
  simp [deleteVolumeEffect]
@[simp] theorem setOwnerEffect_asleep (l : List Word) (s : State) : Asleep s (setOwnerEffect l s) := by
  simp [setOwnerEffect]
@[simp] theorem addBenchEffect_asleep (l : List Word) (s : State) : Asleep s (addBenchEffect l s) := by
  simp [addBenchEffect]
@[simp] theorem removeBenchEffect_asleep (l : List Word) (s : State) : Asleep s (removeBenchEffect l s) := by
  simp [removeBenchEffect]
@[simp] theorem retireEffect_asleep (l : List Word) (s : State) : Asleep s (retireEffect l s) := by
  simp [retireEffect]
@[simp] theorem restorationEffect_asleep (l : List Word) (s : State) : Asleep s (restorationEffect l s) := by
  simp only [restorationEffect]
  (repeat' split) <;> simp
@[simp] theorem copyBackEffect_asleep (l : List Word) (s : State) : Asleep s (copyBackEffect l s) := by
  simp [copyBackEffect]
@[simp] theorem inspectionEffect_asleep (l : List Word) (s : State) : Asleep s (inspectionEffect l s) := by
  simp [inspectionEffect]
@[simp] theorem repaintEffect_asleep (l : List Word) (s : State) : Asleep s (repaintEffect l s) := by
  simp only [repaintEffect]
  split <;> simp
@[simp] theorem abortEffect_asleep (a : Fin 4) (s : State) : Asleep s (abortEffect a s) := by
  simp [abortEffect]
@[simp] theorem pausePass_asleep (a : Fin 4) (s : State) : Asleep s (pausePass a s) := by simp [pausePass]
@[simp] theorem pausePaint_asleep (a : Fin 4) (s : State) : Asleep s (pausePaint a s) := by
  simp [pausePaint]
@[simp] theorem pauseEffect_asleep (a : Fin 4) (s : State) : Asleep s (pauseEffect a s) := by
  simp [pauseEffect]
@[simp] theorem resumeEffect_asleep (l : List Word) (s : State) : Asleep s (resumeEffect l s) := by
  simp [resumeEffect]
@[simp] theorem stopCheckpoint_asleep (a : Fin 4) (s : State) : Asleep s (stopCheckpoint a s) := by
  simp [stopCheckpoint]
@[simp] theorem stopEnd_asleep (a : Fin 4) (s : State) : Asleep s (stopEnd a s) := by
  simp [stopEnd]
@[simp] theorem mgmtEffect_asleep (code : Byte) (l : List Word) (s : State) : Asleep s (mgmtEffect code l s) := by
  simp only [mgmtEffect]
  split <;> simp
@[simp] theorem nvWrite_asleep (s : State) : Asleep s (nvWrite s) := by simp [nvWrite]
theorem sendUp_asleep (kind : Byte) (ch : Fin 3) (tag : Byte) (arg : Half) (l : List Dword) (s : State) (c : Bool) :
    Asleep s (sendUp kind ch tag arg l s c) := by simp
@[simp] theorem identAssign_asleep (fabricId : Dword) (node : BitVec 4) (tag : Byte) (s : State) :
    Asleep s (identAssign fabricId node tag s) := by
  have hput (f : Fin 8 → Member) := foldl_asleep (fun s p => memPut (ownMember p s) (f p) s) (fun _ _ =>
    memPut_asleep ..)
  exact (sendUp_asleep ..).trans ((hput _ _ _).trans (hput (fun _ => {}) _ _))
@[simp] theorem nvChange_asleep (c : NvChange) (s : State) : Asleep s (nvChange c s) := by
  simp only [nvChange]
  (repeat' split) <;> simp
@[simp] theorem nvTargetPut_asleep (f : NvCopy → NvCopy) (s : State) : Asleep s (nvTargetPut f s) := by
  simp [nvTargetPut]
@[simp] theorem progTorn_asleep (body : Bool) (s : State) : Asleep s (progTorn body s) := by
  simp only [progTorn]
  (repeat' split) <;> simp
@[simp] theorem progEnds_asleep (s : State) : Asleep s (progEnds s) := by
  simp only [progEnds]
  split <;> simp
@[simp] theorem progCut_asleep (cut : ProgEnd) (s : State) : Asleep s (progCut cut s) := by
  simp only [progCut]
  split <;> simp
@[simp] theorem stagesDrop_asleep (s : State) : Asleep s (stagesDrop s) := by simp [stagesDrop]
theorem wakeDone_writes (s : State) :
    (wakeDone s).power = { s.power with state := .run, waking := false, ordered := none, reqResult := .done } ∧
      wakeDone s = { s with power := (wakeDone s).power, log := (wakeDone s).log, palette := (wakeDone s).palette } := by
  simp [wakeDone, palWake, reqResult, irqSet]

theorem wakeAny_nap {src : WakeSrc} {s : State} (hrun : running s = true) (hnap : s.power.state = .nap) :
    wakeAny src s = wakeDone s := by
  have hcore : s.power.core = .running := by simpa [running] using hrun
  simp [wakeAny, hcore, hnap, wake]

theorem wakeAny_standby {src : WakeSrc} {s : State} (hcore : s.power.core = .standby) (hexit : s.standby.exiting = none) :
    wakeAny src s = { s with standby := { s.standby with supEn := true, exiting := some src } } := by
  simp [wakeAny, hcore, standbyWake, hexit]

@[simp] theorem pathInterrupt_asleep (cut : ProgEnd) (s : State) : Asleep s (pathInterrupt cut s) := by
  unfold pathInterrupt
  split <;> simp [stagesDrop]

/-- The loss of lock counts, and neither ends nor starts a sleep state. -/
theorem lockLoss_awake (elapsed : Nat) (cut : ProgEnd) (s : State) (hheld : s.hbu.heldCycle = []) :
    (lockLoss elapsed cut s).power.state = s.power.state ∧ (lockLoss elapsed cut s).power.waking = s.power.waking ∧
      (lockLoss elapsed cut s).power.wakeWrite = s.power.wakeWrite ∧ (lockLoss elapsed cut s).hbu.heldCycle = [] ∧
      (lockLoss elapsed cut s).clk.lostLock = true ∧
      (lockLoss elapsed cut s).clk.lockLossCount = ctrInc s.clk.lockLossCount ∧
      (s.restart.level = .level1 ∨ s.restart.level = .level2 → (lockLoss elapsed cut s).restart.level = .level0) := by
  cases hlevel : s.restart.level <;> cases hbypass : s.clk.bypass <;>
    simp [lockLoss, lockFall, hlevel, ringDark, serviceDown, toXin, studiosDown, hheld, hbypass]

/-- Without a held write nothing is applied after a wake. -/
theorem wakeWriteApply_none {s : State} (hwrite : s.power.wakeWrite = none) :
    wakeWriteApply s = s := by simp [wakeWriteApply, hwrite]

/-- An entry to DOZE that is cancelled: its orders are taken back. -/
theorem cancelEntry_ordered {s : State} (h : s.power.entry = some .doze) :
    (cancelEntry s).power.entry = none ∧ (cancelEntry s).power.ordersOut = [] ∧
      (cancelEntry s).power.reqResult = .cancelled ∧ counterGet 0x05 (cancelEntry s) = counterGet 0x05 s := by
  have hpower (l : List (BitVec 4)) (u : State) : (l.foldl (fun s k => orderTo 0 k s) u).power = u.power := by
    rw [(foldl_orderTo_onRing 0 l u).1]
  have hcount (l : List (BitVec 4)) (u : State) :
      counterGet 0x05 (l.foldl (fun s k => orderTo 0 k s) u) = counterGet 0x05 u := (foldl_orderTo_onRing 0 l u).2
  have hreq (o : ProgOp) (u : State) : counterGet 0x05 (progReq o u) = counterGet 0x05 u := counterGet_congr (by simp) _
  have hcancel (u : State) : counterGet 0x05 (reqResult .cancelled u) = counterGet 0x05 u := counterGet_congr rfl _
  simp only [cancelEntry, h, hpower, hcount, onlyIf, ite_power, apply_ite (counterGet 0x05), hreq, hcancel, progReq_power,
    ite_self]
  exact ⟨rfl, rfl, rfl, rfl⟩

/-- Settles O14: a wake is `wakeDone` or the exit from STANDBY, a failed relock then loses lock, and a cancelled entry takes
its orders back. -/
theorem wakesAndTheirTimeouts : Obligations.WakesAndTheirTimeouts := by
  unfold Obligations.WakesAndTheirTimeouts
  intro s
  refine ⟨fun hrun hnap => ⟨fun hpin => ?_, fun htime => ?_⟩, fun hcore hexit => ⟨fun hpin => ?_, fun htime => ?_⟩, ?_, ?_, ?_,
    ?_, ?_, ?_⟩
  · refine reaches_of_guard rfl hpin ?_
    rw [wakeAny_nap (s := { s with power := { s.power with sup := { s.power.sup with wakePin := false } } })
      (by simpa [running] using hrun) hnap]
    obtain ⟨hpower, hrest⟩ := wakeDone_writes { s with power := { s.power with sup := { s.power.sup with wakePin := false } } }
    exact ⟨by rw [hpower], by rw [hpower], by rw [hpower], hrest⟩
  · refine reaches_of_guard rfl (bne_iff_ne.mpr htime) ?_
    rw [wakeAny_nap hrun hnap]
    obtain ⟨hpower, hrest⟩ := wakeDone_writes s
    exact ⟨by rw [hpower], by rw [hpower], hrest⟩
  · refine reaches_of_guard rfl hpin ?_
    exact wakeAny_standby
      (s := { s with power := { s.power with sup := { s.power.sup with wakePin := false } } }) hcore hexit
  · exact reaches_of_guard rfl (bne_iff_ne.mpr htime) (wakeAny_standby hcore hexit)
  · exact fun hpin => reaches_same rfl hpin
  · intro htime
    exact reaches_same rfl (by simp [htime])
  · exact fun hcore hexit => reaches_of_guard rfl (by simp [hcore, hexit]) rfl
  · intro hrun hman hdoze hdark
    refine reaches_of_guard rfl (by simp [hrun, hman, hdoze, hdark]) ?_
    simp [wake, hdoze]
  · intro hrun hdoze hwaking hlock hwrite
    refine reaches_of_guard rfl (by simp [hrun, hdoze, hwaking, hlock]) ?_
    obtain ⟨hpower, hrest⟩ :=
      wakeDone_writes { s with power := { s.power with heldDark := false }, hbu := { s.hbu with heldCycle := [] } }
    generalize hw : wakeDone _ = w at hpower hrest
    obtain ⟨hstate, hwake, hkept, hheld, hlost, hcount, hfall⟩ := lockLoss_awake 0 .ends w (by rw [hrest])
    have hnone : (lockLoss 0 .ends w).power.wakeWrite = none := by rw [hkept, hpower]; exact hwrite
    dsimp only
    rw [wakeWriteApply_none hnone]
    rw [show w.clk = s.clk by rw [hrest]] at hcount
    rw [show w.restart = s.restart by rw [hrest]] at hfall
    exact ⟨by rw [hstate, hpower], by rw [hwake, hpower], hlost, hcount, hheld, hfall⟩
  · intro node hrun hnode hentry
    refine reaches_of_guard rfl (by rw [hrun, hnode]; rfl) ?_
    obtain ⟨hnone, hout, hres, hcount⟩ := cancelEntry_ordered (s := logRec .powerOrderTimeout
      [BitVec.ofNat 8 node.toNat, BitVec.ofNat 8 ((s.power.entry.map Sleep.num).getD 0)] s) (by simpa using hentry)
    exact ⟨hnone, hout, hres, hcount.trans (by simp [counterGet_logRec, Code.info])⟩

end Sys2Proof.Machine
end

section
/-! Frames on the control port: their checks in order, and a good READ, WRITE, NOP and WHISTLE (R135 to R151). -/

namespace Sys2Proof.Machine
open Sys2Proof.Safety

/-- The control port once a complete frame has begun: it has counted, and the response to the frame before has gone out. -/
def framed (f : Frame) (s : State) : State :=
  { s with cport := { s.cport with fseq := s.cport.fseq + 1, sent := respOut f.early s } }

theorem armAge_cport (p : Path) (s : State) (c : Cport) :
    armAge p { s with cport := c } = { armAge p s with cport := c } := by
  cases p <;> simp [armAge_eq, pathGet, pathPut]

theorem frameBegin_eq (f : Frame) (s : State) : frameBegin f s = armAge .cport (framed f s) := rfl

theorem frameStep_bad {f : Frame} {body : State → State} {st : Byte} {s : State} (hrun : running s = true)
    (hbad : frameBad f = some st) : frameStep f body s = respond f st 0 (armAge .cport (framed f s)) := by
  simp [frameStep, onlyIf, hrun, hbad, frameBegin_eq]

theorem frameStep_good {f : Frame} {body : State → State} {s : State} (hrun : running s = true)
    (hgood : frameBad f = none) : frameStep f body s = body (armAge .cport (framed f s)) := by
  simp [frameStep, onlyIf, hrun, hgood, frameBegin_eq]

/-- A frame whose CRC holds, of a defined OPCODE and without REPLAY, or a NOP, passes the first two checks. -/
theorem frameBad_none {f : Frame} (hcrc : frameCrcOk f = true)
    (hop : byteOf f 0 = opNop ∨ (byteOf f 0 = opRead ∨ byteOf f 0 = opWrite ∨ byteOf f 0 = opWhistle) ∧ frameReplay f = false) :
    frameBad f = none := by
  rcases hop with h | ⟨h | h | h, hreplay⟩ <;> simp_all [frameBad]

theorem frameBad_crc {f : Frame} (h : frameCrcOk f = false) : frameBad f = some csCrcBad := by simp [frameBad, h]

theorem frameBad_op {f : Frame} (hcrc : frameCrcOk f = true)
    (h : byteOf f 0 ∉ [opRead, opWrite, opWhistle, opNop] ∨ byteOf f 0 ≠ opNop ∧ frameReplay f = true) :
    frameBad f = some csBadOp := by
  simp only [frameBad, hcrc]
  by_cases hdef : byteOf f 0 ∈ [opRead, opWrite, opWhistle, opNop]
  · obtain ⟨hnop, hreplay⟩ := h.resolve_left (not_not_intro hdef)
    simp_all
  · simp_all

/-- What a frame that a check refuses does: it counts, and it is answered with the status and no data (R143). -/
def answered (f : Frame) (st : Byte) (s t : State) : Prop :=
  t = { armAge .cport s with cport := t.cport } ∧ t.cport.fseq = s.cport.fseq + 1 ∧ t.cport.pend.status = st ∧
    t.cport.pend.data = 0 ∧ t.cport.sent = respOut f.early s

theorem respond_answered (f : Frame) (st : Byte) (s : State) :
    answered f st s (respond f st 0 (armAge .cport (framed f s))) := by
  simp [answered, respond, respOf, framed, armAge_cport]

theorem execCportRead_op {f : Frame} (s : State) (h : byteOf f 0 = opRead) :
    exec (.cportRead f) s = .next (frameStep f (readBody f) s) := if_neg (by simp [h])
theorem execCportWrite_op {f : Frame} (s : State) (h : byteOf f 0 = opWrite) :
    exec (.cportWrite f) s = .next (frameStep f (writeBody f) s) := if_neg (by simp [h])
theorem execCportWhistle_op {f : Frame} (s : State) (h : byteOf f 0 = opWhistle) :
    exec (.cportWhistle f) s = .next (frameStep f (whistleBody f) s) := if_neg (by simp [h])
theorem execCportNop_op {f : Frame} (s : State) (h : byteOf f 0 ≠ opRead ∧ byteOf f 0 ≠ opWrite ∧ byteOf f 0 ≠ opWhistle) :
    exec (.cportNop f) s = .next (frameStep f (nopBody f) s) := if_neg (by simp [h])

/-- The rows of frames with their OPCODE. -/
def frameRows (f : Frame) : List (Instr × Byte) :=
  [(.cportRead f, opRead), (.cportWrite f, opWrite), (.cportWhistle f, opWhistle), (.cportNop f, opNop)]

/-- A frame of its own row that one of the first two checks refuses is answered so. -/
theorem frame_refused {f : Frame} {c : Instr} {op st : Byte} {s : State} (hrun : running s = true)
    (hrow : (c, op) ∈ frameRows f) (hop : byteOf f 0 = op) (hbad : frameBad f = some st) : reaches c s (answered f st s) := by
  have hstep (body : State → State) : answered f st s (frameStep f body s) := by
    rw [frameStep_bad hrun hbad]
    exact respond_answered f st s
  simp only [frameRows, List.mem_cons, Prod.mk.injEq, List.not_mem_nil, or_false] at hrow
  rcases hrow with ⟨rfl, rfl⟩ | ⟨rfl, rfl⟩ | ⟨rfl, rfl⟩ | ⟨rfl, rfl⟩
  · exact ⟨_, execCportRead_op s hop, hstep _⟩
  · exact ⟨_, execCportWrite_op s hop, hstep _⟩
  · exact ⟨_, execCportWhistle_op s hop, hstep _⟩
  · exact ⟨_, execCportNop_op s (by rw [hop]; decide), hstep _⟩

/-- A WRITE that its checks refuse changes at most the arm. -/
theorem writeBody_refused {f : Frame} {st : Byte} {ok : Bool} {s t : State}
    (h : writeCheck .cport (frameOff f) (frameLanes f) (frameData f) s = (st, ok, t)) (hst : st ≠ csOk) :
    writeBody f s = respond f st 0 t := by
  simp [writeBody, pathWrite, h, hst]

/-- A write that is refused without its arm spends what arm there is (R149). -/
theorem writeCheck_unarmed {p : Path} {off : Nat} {l : Lanes} {w : Word} {code : BitVec 16} {s : State}
    (hl : LaneChecks off l) (hneed : armNeed off l w = some (code, true))
    (harm : (pathGet p s).arm.map (·.code) ≠ some code) : writeCheck p off l w s = (csNotArmed, false, armSpent p s) := by
  have hno : (((pathGet p s).arm.map (·.code)) == some code && code != 0) = false := by simp [harm]
  simp only [writeCheck, hl.offsetOk, hl.lanesOk, hneed, hno, Bool.false_eq_true, if_false]
  rfl

/-- Settles O15: each of the checks stops the frame where it stands in the order, before it can have an effect. -/
theorem framesAreCheckedInOrder : Obligations.FramesAreCheckedInOrder := by
  unfold Obligations.FramesAreCheckedInOrder
  intro s f hrun
  refine ⟨?_, ?_, ?_, ?_, ?_, ?_, ?_, ?_, ?_, ?_, ?_, ?_⟩
  · exact fun c op hrow hop hcrc => frame_refused hrun hrow hop (frameBad_crc hcrc)
  · exact fun c op hrow hne hop hcrc hreplay => frame_refused hrun hrow hop (frameBad_op hcrc (.inr ⟨by rwa [hop], hreplay⟩))
  · intro hop hcrc
    refine ⟨_, execCportNop_op s (by simp_all), ?_⟩
    rw [frameStep_bad hrun (frameBad_op hcrc (.inl hop))]
    exact respond_answered f _ s
  · intro hop hcrc hreplay hoff
    refine ⟨_, execCportRead_op s hop, ?_⟩
    rw [frameStep_good hrun (frameBad_none hcrc (.inr ⟨.inl hop, hreplay⟩)), readBody, if_pos (by simpa using hoff)]
    exact respond_answered f _ s
  · intro hop hcrc hreplay hoff halign hlanes
    refine ⟨_, execCportRead_op s hop, ?_⟩
    rw [frameStep_good hrun (frameBad_none hcrc (.inr ⟨.inl hop, hreplay⟩)), readBody, if_neg (by simp; omega),
      if_pos (by simp [hlanes])]
    exact respond_answered f _ s
  · intro hop hcrc hreplay hoff
    refine ⟨_, execCportWrite_op s hop, ?_⟩
    rw [frameStep_good hrun (frameBad_none hcrc (.inr ⟨.inr (.inl hop), hreplay⟩)),
      writeBody_refused (if_pos (by simpa using hoff)) (by decide)]
    exact respond_answered f _ s
  · intro hop hcrc hreplay hoff halign hlanes
    have hcheck (u : State) :
        writeCheck .cport (frameOff f) (frameLanes f) (frameData f) u = (csBadWidth, false, u) := by
      rw [writeCheck, if_neg (by simp; omega), if_pos (by simpa using hlanes)]
    refine ⟨_, execCportWrite_op s hop, ?_⟩
    rw [frameStep_good hrun (frameBad_none hcrc (.inr ⟨.inr (.inl hop), hreplay⟩)),
      writeBody_refused (hcheck _) (by decide)]
    exact respond_answered f _ s
  · intro hop hcrc hreplay hoff hlanes hdata harm
    have hpath : (armAge .cport (framed f s)).pathC = (armAge .cport s).pathC := by rw [framed, armAge_cport]
    have hcheck := writeCheck_unarmed (code := 0x00C5) (s := armAge .cport (framed f s)) (w := frameData f) rstCtrl_laneChecks
      (by rw [hdata]; decide) (by rw [pathGet, hpath]; exact harm)
    rw [← hoff, ← hlanes, armSpent_armAge] at hcheck
    refine ⟨_, execCportWrite_op s hop, ?_⟩
    rw [frameStep_good hrun (frameBad_none hcrc (.inr ⟨.inr (.inl hop), hreplay⟩)),
      writeBody_refused hcheck (by decide)]
    simp [respond, respOf, framed, armSpent, pathPut, pathGet]
  · exact fun hop => if_pos (by simpa using hop)
  · exact fun hop => if_pos (by simpa using hop)
  · exact fun hop => if_pos (by simpa using hop)
  · exact fun hop => if_pos (by rcases hop with h | h | h <;> simp [h])

/-! ## Good frames -/

/-- A register reads the same while a frame begins. -/
theorem regRead_framed (f : Frame) (off : Nat) (s : State) :
    regRead .cport off (armAge .cport (framed f s)) = regRead .cport off s := by
  rw [armAge_eq]
  simp only [regRead]
  split <;> rfl

theorem regReadFx_none {p : Path} {off : Nat} (h : off / 4 ∉ [0x0D, 0x11, 0x26]) (l : Lanes) (s : State) :
    regReadFx p off l s = s := by
  simp only [List.mem_cons, List.not_mem_nil, or_false, not_or] at h
  obtain ⟨h0, h1, h2⟩ := h
  unfold regReadFx
  split
  · exact absurd ‹_› h0
  · exact absurd ‹_› h1
  · exact absurd ‹_› h2
  · rfl

theorem pathBusy_framed (p : Path) (f : Frame) (s : State) :
    pathBusy p (armAge .cport (framed f s)) = pathBusy p s := by simp [pathBusy, framed]

theorem scratch_laneChecks (k : Fin 8) {l : Lanes} (hl : l ≠ 0) : LaneChecks (0xA0 + 4 * k.val) l where
  offset := by omega
  lanes := hl
  full h := by
    have : ∀ k : Fin 8, fullWidth (0xA0 + 4 * k.val) = false := by decide
    rw [this k] at h
    cases h
  narrow h := by
    have : ∀ k : Fin 8, narrowIgnored (0xA0 + 4 * k.val) = false := by decide
    rw [this k] at h
    cases h

theorem armNeed_scratch (k : Fin 8) (l : Lanes) (w : Word) : armNeed (0xA0 + 4 * k.val) l w = none := by
  have h1 : 0xA0 + 4 * k.val ≠ 0x20 := by omega
  have h2 : 0xA0 + 4 * k.val ≠ 0x68 := by omega
  have h3 : 0xA0 + 4 * k.val ≠ 0x10 := by omega
  simp [armNeed, h1, h2, h3]

theorem regRead_scratch (p : Path) (k : Fin 8) (s : State) : regRead p (0xA0 + 4 * k.val) s = s.scratch.get k := by
  have hdiv : (0xA0 + 4 * k.val) / 4 = 0x28 + k.val := by omega
  unfold regRead
  split
  case h_36 => simp [hdiv, Vector.get]
  all_goals omega

/-- A write of SCRATCHk merges its lanes and changes nothing else. -/
theorem regWrite_scratch (p : Path) (k : Fin 8) (l : Lanes) (w : Word) (s : State) :
    regWrite p (0xA0 + 4 * k.val) l w false s = { s with scratch := s.scratch.set k (mergeLanes l (s.scratch.get k) w) } := by
  have hdiv : (0xA0 + 4 * k.val) / 4 = 0x28 + k.val := by omega
  unfold regWrite
  extract_lets
  split
  case h_26 =>
    simp only [hdiv, regRead_scratch]
    rw [if_pos (by simp; omega), Nat.add_sub_cancel_left]
    congr 1
    exact Vector.toArray_inj.mp (by simp [Array.setIfInBounds_def])
  all_goals omega

/-- Settles O16: past the first two checks a frame is its row's own body, of the state in which it has counted and aged the
arm. -/
theorem framesExecute : Obligations.FramesExecute := by
  unfold Obligations.FramesExecute
  intro s f hrun hbusy hcrc
  refine ⟨?_, ?_, ?_, ?_, ?_, ⟨s, rfl, rfl⟩⟩
  · intro hop hreplay hoff halign hlanes hplain
    refine ⟨_, execCportRead_op s hop, ?_⟩
    rw [frameStep_good hrun (frameBad_none hcrc (.inr ⟨.inl hop, hreplay⟩)), readBody, if_neg (by simp; omega),
      if_neg (by simpa using hlanes), pathBusy_framed, if_neg (by simp [hbusy]), if_pos hoff, regRead_framed,
      regReadFx_none hplain]
    simp [respond, respOf, framed, armAge_cport, hop]
  · intro k hop hreplay hoff hlanes hopen
    have hopen' : openPath .cport (framed f s) := hopen
    have hcheck : writeCheck .cport (frameOff f) (frameLanes f) (frameData f) (armAge .cport (framed f s)) =
        (csOk, false, armAge .cport (framed f s)) := by
      rw [hoff]
      exact writeCheck_plain (scratch_laneChecks k hlanes)
        (by rw [writeBusy_armAge]; exact writeBusy_open hopen' (by omega) (by omega) (by omega)) (armNeed_scratch k _ _)
    refine ⟨_, execCportWrite_op s hop, ?_⟩
    rw [frameStep_good hrun (frameBad_none hcrc (.inr ⟨.inr (.inl hop), hreplay⟩)), writeBody,
      pathWrite_of_check hopen' hcheck (.inl rfl), hoff, regWrite_scratch]
    simp [respond, respOf, framed, armAge_cport]
  · intro hop hreplay
    refine ⟨_, execCportNop_op s (by rw [hop]; decide), ?_⟩
    rw [frameStep_good hrun (frameBad_none hcrc (.inl hop)), nopBody, if_neg (by simp [hreplay])]
    simp [respond, respOf, framed, armAge_cport]
  · intro hop hreplay
    refine ⟨_, execCportNop_op s (by rw [hop]; decide), ?_⟩
    rw [frameStep_good hrun (frameBad_none hcrc (.inl hop)), nopBody, if_pos hreplay]
    simp [respOf, framed, armAge_cport]
  · intro hop hreplay hwaking
    refine ⟨_, execCportWhistle_op s hop, ?_⟩
    rw [frameStep_good hrun (frameBad_none hcrc (.inr ⟨.inr (.inr hop), hreplay⟩)), whistleBody, pathBusy_framed,
      if_neg (by simp [hbusy, framed, hwaking])]
    simp [respond, respOf, framed, armAge_cport]

end Sys2Proof.Machine
end

section
/-! Register writes through an open path, arms, and the table cursor (R145 to R150, R164 to R172, R393, R562, R567). -/

namespace Sys2Proof.Machine
open Sys2Proof.Safety

/-! ## Registers -/

/-- Of the direct registers that no write changes. -/
def readOnlyOffsets : List (BitVec 16) :=
  [0x00#16, 0x04#16, 0x08#16, 0x0C#16, 0x1C#16, 0x24#16, 0x38#16, 0x48#16, 0x54#16, 0x98#16, 0x9C#16]

theorem regWrite_readOnly {off : BitVec 16} (h : off ∈ readOnlyOffsets) (p : Path) (w : Word) (s : State) :
    regWrite p off.toNat 0xF w false s = s ∧ LaneChecks off.toNat 0xF ∧ armNeed off.toNat 0xF w = none ∧
      off.toNat ≠ 0x40 ∧ off.toNat ≠ 0x44 ∧ off.toNat ≠ 0x68 := by
  simp only [readOnlyOffsets, List.mem_cons, List.not_mem_nil, or_false] at h
  rcases h with rfl | rfl | rfl | rfl | rfl | rfl | rfl | rfl | rfl | rfl | rfl <;>
    exact ⟨rfl, ⟨by decide, by decide, by decide, by decide⟩, rfl, by decide, by decide, by decide⟩

/-- Forced flushing and the pause that stay as they were change nothing of the log. -/
theorem forcedUpdate_log {s : State} (hforced : (forcedUpdate s).skb.forced = s.skb.forced)
    (hpause : (forcedUpdate s).skb.pause = s.skb.pause) : (forcedUpdate s).log = s.log := by
  unfold forcedUpdate at hforced hpause ⊢
  simp only [ite_skb, irqSet, ite_self] at hforced hpause
  simp only [hforced, hpause, bne_self_eq_false, Bool.or_self, Bool.false_eq_true, if_false]

/-- The fields of SKB_CTRL. -/
def skbCtrlSet (w : Word) (s : State) : State :=
  { s with skb := { s.skb with pausePct := bits w 30 24, hwmPct := bits w 23 17, flushAge := bits w 15 0 } }

theorem skbCtrlWrite_full {w : Word} {s : State} (hok : skbCtrlOk w = true) :
    ∃ g : State → State, (∀ u, OnlyFlushes u (g u)) ∧ skbCtrlWrite 0xF w s = g (forcedUpdate (skbCtrlSet w s)) := by
  refine ⟨onlyIf (unitsRun (forcedUpdate (skbCtrlSet w s)))
    (if lane 0xF 3 && bit w 31 then flushEverything else forcedFlush), fun u => ?_, ?_⟩
  · unfold onlyIf
    split
    · split
      · exact flushEverything_onlyFlushes u
      · exact forcedFlush_onlyFlushes u
    · exact .refl u
  · simp only [skbCtrlWrite, mergeLanes_full, hok, if_true, skbCtrlSet]

/-- Settles O17: through an open path a write is the register's own, of lanes that its word merges. -/
theorem registerWritesApplyTheirLanes : Obligations.RegisterWritesApplyTheirLanes := by
  unfold Obligations.RegisterWritesApplyTheirLanes
  intro s p l w
  refine ⟨fun k hopen hl => ?_, fun hopen => ?_, fun off hoff hopen => ?_, fun hopen htail => ?_, fun hlive => ?_,
    fun hrun hok => ?_⟩
  · have hoff : (BitVec.ofNat 16 (0xA0 + 4 * k.val)).toNat = 0xA0 + 4 * k.val := by
      rw [BitVec.toNat_ofNat]
      omega
    have hwrite : viaPath p (0xA0 + 4 * k.val) l w s = _ := viaPath_open hopen (scratch_laneChecks k hl)
      (writeBusy_open hopen (by omega) (by omega) (by omega)) (armNeed_scratch k l w)
    refine ⟨_, congrArg Host.Outcome.next ((congrArg (viaPath p · l w s) hoff).trans hwrite), ?_⟩
    rw [regWrite_scratch]
    simp
  · refine ⟨_, congrArg Host.Outcome.next (viaPath_open hopen ⟨by decide, by decide, by decide, by decide⟩
      (writeBusy_open hopen (by decide) (by decide) (by decide)) rfl), ?_⟩
    have hmask : laneMask 15#4 = BitVec.allOnes 32 := by decide
    simp only [regWrite, show laneMask 0xF = BitVec.allOnes 32 from hmask, BitVec.and_allOnes]
    simp
  · obtain ⟨hsame, hl, harm, h0, h1, h2⟩ := regWrite_readOnly hoff p w (armAge p s)
    exact ⟨_, congrArg Host.Outcome.next (viaPath_open hopen hl (writeBusy_open hopen h0 h1 h2) harm), hsame⟩
  · refine ⟨_, congrArg Host.Outcome.next (viaPath_open hopen ⟨by decide, by decide, by decide, by decide⟩
      (writeBusy_open hopen (by decide) (by decide) (by decide)) rfl), ?_⟩
    show logTailWrite p 1 w (armAge p s) = _
    have hlanes : lane 1 3 = false ∧ lane 1 0 = true := by decide
    have htail' : ((w.extractLsb' 0 8 : Byte) - (armAge p s).log.tail).toNat ≤
        (((armAge p s).log.seqNext.truncate 8 : Byte) - (armAge p s).log.tail).toNat := by simpa using htail
    simp only [logTailWrite, hlanes, Bool.false_eq_true, if_false, Bool.not_true, htail', if_true]
    simp
  · refine reaches_of_guard rfl hlive ?_
    have hlane : lane 1#4 0 = true := by decide
    simp [faultSumRead, hlane]
  · refine reaches_of_guard rfl hrun ?_
    obtain ⟨g, hg, heq⟩ := skbCtrlWrite_full (s := s) hok
    rw [heq]
    obtain ⟨f, n, hflush⟩ := hg (forcedUpdate (skbCtrlSet w s))
    have hlog := forcedUpdate_log (s := skbCtrlSet w s)
    obtain ⟨a, b, c, hforced⟩ := forcedUpdate_writes (skbCtrlSet w s)
    rw [hflush]
    rw [hforced] at hlog ⊢
    exact ⟨rfl, rfl, rfl, rfl, rfl, fun h => hlog h.1 h.2⟩

/-! ## Arms -/

theorem pathGet_congr {p : Path} {s t : State} (hc : t.pathC = s.pathC) (hm : t.pathM = s.pathM) : pathGet p t = pathGet p s := by
  cases p
  · exact hc
  · exact hm

theorem execArmWrite_open {p : Path} {w : Word} {s : State} (h : openPath p s) :
    exec (.armWrite p w) s = .next (armWrite p w (armAge p s)) :=
  congrArg Host.Outcome.next (viaPath_open h ⟨by decide, by decide, by decide, by decide⟩
    (writeBusy_open h (by decide) (by decide) (by decide)) rfl)

/-- Settles O18: ARM through an open path is its own write, and a drain with no posted write left applies none. -/
theorem armsAndDrains : Obligations.ArmsAndDrains := by
  unfold Obligations.ArmsAndDrains
  intro s p w
  refine ⟨fun hopen hw => ⟨_, execArmWrite_open hopen, ?_⟩, fun hopen hw => ⟨_, execArmWrite_open hopen, ?_⟩, ⟨_, rfl, rfl⟩,
    fun hrun hdrain hcommit hbuf => ?_⟩
  · rw [armWrite, if_pos hw]
    cases p <;> simp [armAge_eq, pathGet, pathPut]
  · rw [armWrite, if_neg hw]
    have hspent : pathPut p { pathGet p (armAge p s) with arm := none } (armAge p s) = armSpent p s := armSpent_armAge p s
    rw [hspent]
    refine ⟨?_, by simp [counterGet_logRec, Code.info], by apply State.ext <;> simp⟩
    rw [pathGet_congr (s := armSpent p s) (by simp) (by simp), pathGet_armSpent]
  · refine reaches_of_guard rfl (by simp [hrun, hdrain, hcommit]) ?_
    have hdry : drainAll s = s := List.foldlRecOn (motive := fun t => t = s) (List.finRange 8) _ rfl fun t ht al _ => by
      rw [ht, drainAlias, hbuf al]
      rfl
    simp only [onlyIf, hdry, ite_self]

/-! ## The table cursor -/

theorem entryWords_armAge (space e : Nat) (p : Path) (s : State) : entryWords space e (armAge p s) = entryWords space e s := by
  rw [armAge_eq]
  cases p <;> (simp only [entryWords]; split <;> rfl)

theorem cursorEnter_armAge (space e word : Nat) (p : Path) (s : State) :
    cursorEnter space e word (armAge p s) = cursorEnter space e word s := by
  simp only [cursorEnter, entryWords_armAge]

theorem cursorNext_armAge (c : Cursor) (p : Path) (s : State) : cursorNext c (armAge p s) = cursorNext c s := by
  simp only [cursorNext, cursorEnter_armAge]

theorem commitCheck_armAge (c : Cursor) (w : List Word) (p : Path) (s : State) :
    commitCheck c w (armAge p s) = commitCheck c w s := by
  rw [armAge_eq]
  cases p <;> rfl

theorem tblSel_laneChecks : LaneChecks 0x40 0xF := ⟨by decide, by decide, by decide, by decide⟩
theorem tblData_laneChecks : LaneChecks 0x44 0xF := ⟨by decide, by decide, by decide, by decide⟩

/-- The cursor's registers are free where the path is open and no commit of it is in progress. -/
theorem writeBusy_cursor {p : Path} {off : Nat} {s : State} (h : openPath p s) (hcommit : commitOn p s = false)
    (hoff : off ≠ 0x68) : writeBusy p off s = false := by
  obtain ⟨-, hbusy, -, hwaking, -⟩ := h
  simp [writeBusy, hbusy, hwaking, hcommit, hoff]

theorem viaPath_tblData {p : Path} {w : Word} {s : State} (h : openPath p s) (hcommit : commitOn p s = false) :
    viaPathFull p 0x44 w s = tblDataWrite p 0xF w (armAge p s) :=
  viaPath_open h tblData_laneChecks (writeBusy_cursor h hcommit (by decide)) rfl

theorem viaPath_tblSel {p : Path} {w : Word} {s : State} (h : openPath p s) (hcommit : commitOn p s = false) :
    viaPathFull p 0x40 w s = cursorPut p (cursorEnter (bits w 31 24) (bits w 23 8) (bits w 7 0) s) (armAge p s) := by
  have hwrite : viaPathFull p 0x40 w s = tblSelWrite p 0xF w (armAge p s) :=
    viaPath_open h tblSel_laneChecks (writeBusy_cursor h hcommit (by decide)) rfl
  rw [hwrite, tblSelWrite, mergeLanes_full, cursorEnter_armAge]

/-- Settles O19: no word of an entry shows the age of an arm, so that the cursor moves over the entries of the state itself. -/
theorem tableCursor : Obligations.TableCursor := by
  unfold Obligations.TableCursor
  intro s p w hopen
  have hlive := hopen.1
  refine ⟨fun hcommit => ?_, fun hout => ?_, fun r hout => ?_, fun hcommit hout hnext => ?_⟩
  · refine ⟨_, congrArg Host.Outcome.next (viaPath_tblSel hopen hcommit), rfl, by simp [cursorPut, cursorEnter], fun hin => ?_⟩
    simp [cursorPut, cursorEnter, hin]
  · refine reaches_of_guard rfl hlive ?_
    have hlane : lane 1#4 0 = true := by decide
    simp [tblDataRead, hout, hlane, cursorNext_armAge]
  · refine reaches_of_guard rfl hlive ?_
    simp [tblDataRead, hout]
  · have hlast : atLast p s = false := by simp [atLast, atLastWord]; omega
    refine reaches_of_guard rfl (by simp [hlast]) ?_
    rw [viaPath_tblData hopen hcommit]
    simp [tblDataWrite, hout, hnext, cursorNext, stagedWith]

/-! ## Commits of entries -/

/-- The cursor once the last word of its entry has been staged. -/
def stagedCursor (p : Path) (w : Word) (s : State) : Cursor := { (pathGet p s).cur with staged := stagedWith p w s }

/-- The write of the last word of an entry commits the entry, and the cursor goes on. -/
theorem viaPath_commit {p : Path} {space e : Nat} {w : Word} {s : State} (h : readyToCommit p space e s) :
    viaPathFull p 0x44 w s =
      cursorPut p (cursorNext (stagedCursor p w s) (commitEntry p (stagedCursor p w s) (stagedWith p w s) (armAge p s)))
        (commitEntry p (stagedCursor p w s) (stagedWith p w s) (armAge p s)) := by
  obtain ⟨hopen, hcommit, hlast, -⟩ := h
  simp only [atLastWord, Bool.and_eq_true, Option.isNone_iff_eq_none, decide_eq_true_eq] at hlast
  obtain ⟨⟨hout, -⟩, hlen⟩ := hlast
  rw [viaPath_tblData hopen hcommit]
  simp [tblDataWrite, hout, hlen, stagedCursor, stagedWith]

/-- A space that is read-only is refused whatever is staged. -/
theorem commitCheck_readOnly {c : Cursor} {space : Nat} (h : space ∈ [0x07, 0x08, 0x0C, 0x0E, 0x10, 0x11, 0x20, 0x21])
    (hc : c.space.toNat = space) (w : List Word) (s : State) : commitCheck c w s = (trReadOnly, 0xFF) := by
  simp only [commitCheck, hc]
  simp only [List.mem_cons, List.not_mem_nil, or_false] at h
  rcases h with rfl | rfl | rfl | rfl | rfl | rfl | rfl | rfl <;> rfl

/-- Settles O21: the kind of the space is the first check of a commit. -/
theorem readOnlySpacesRefuseCommits : Obligations.ReadOnlySpacesRefuseCommits := by
  unfold Obligations.ReadOnlySpacesRefuseCommits
  intro s p w space e hspace hready
  have hlast := hready.2.2.1
  have hsp : (stagedCursor p w s).space.toNat = space := by
    simp only [atLastWord, Bool.and_eq_true, beq_iff_eq] at hlast
    exact hlast.1.2
  refine reaches_of_guard rfl (List.any_eq_true.mpr ⟨space, hspace, hlast⟩) ?_
  rw [viaPath_commit hready]
  simp only [commitEntry, commitCheck_readOnly hspace hsp, show (trReadOnly == trOk) = false from rfl,
    Bool.false_eq_true, if_false]
  refine ⟨by simp [cursorPut, tblResult], by simp [cursorPut, tblResult], by simp [cursorPut, tblResult], ?_⟩
  cases p <;> simp [cursorPut, tblResult, armAge_eq, pathPut, pathGet]

/-- The path once a commit that passes its checks shows its result. -/
def resultOk (p : Path) (s : State) : State :=
  tblResult p trOk 0 (pathPut p { pathGet p s with cseq := (pathGet p s).cseq + 1 } s)

theorem commitEntry_ok {p : Path} {c : Cursor} {w : List Word} {s : State} (h : commitCheck c w s = (trOk, 0)) :
    commitEntry p c w s = commitApply p c.space.toNat c.entry.toNat w (resultOk p s) := by
  simp only [commitEntry, h]
  rfl

/-- The commit of an entry that the NV configuration keeps requests one NV commit of its words. -/
theorem commitApply_nv {p : Path} {space e n m : Nat} {w : List Word} {s : State}
    (hspace : spaceOf space = some (n, m, .nv)) (hown : space = 0x01 → isOwn (Fin.ofNat 128 e) s = true) :
    commitApply p space e w s =
      nvCommit (.table p (BitVec.ofNat 8 space) e w) (pathPut p { pathGet p s with commitBusy := true } s) := by
  have hforeign : (space == 0x01 && !isOwn (Fin.ofNat 128 e) s) = false := by
    by_cases h : space = 0x01
    · rw [hown h, Bool.not_true, Bool.and_false]
    · simp [h]
  simp only [commitApply, hspace, hforeign]
  rfl

theorem nvCommit_writes {c : NvChange} {s : State} (hlost : s.restart.nvcfgLost = false) (hfail : s.restart.level ≠ .failstop) :
    nvCommit c s = { s with
      ident := (fabricMake s).ident, nv := { s.nv with commits := s.nv.commits ++ [c], prog := s.nv.prog ++ [.nv] } } := by
  have hmake : fabricMake s = { s with ident := (fabricMake s).ident } := by
    unfold fabricMake
    split <;> rfl
  rw [nvCommit, if_neg (by simp [hlost, hfail])]
  simp only [progReq]
  rw [hmake]
  simp [hfail]

/-- Settles O20: the write of the last word passes its checks, shows its result and requests the NV commit, in this order. -/
theorem nvEntryCommits : Obligations.NvEntryCommits := by
  unfold Obligations.NvEntryCommits
  intro s p w c space e hc hready hpass hlost hfail hown
  have hlast := hready.2.2.1
  have hguard : exec c s = .next (onlyIf (atLastWord p space s) (viaPathFull p 0x44 w) s) := by
    simp only [nvCommits, List.mem_cons, Prod.mk.injEq, List.not_mem_nil, or_false] at hc
    rcases hc with ⟨rfl, rfl⟩ | ⟨rfl, rfl⟩ | ⟨rfl, rfl⟩ | ⟨rfl, rfl⟩ | ⟨rfl, rfl⟩ | ⟨rfl, rfl⟩ <;> rfl
  have hspace : ∃ n m, spaceOf space = some (n, m, .nv) := by
    simp only [nvCommits, List.mem_cons, Prod.mk.injEq, List.not_mem_nil, or_false] at hc
    rcases hc with ⟨rfl, rfl⟩ | ⟨rfl, rfl⟩ | ⟨rfl, rfl⟩ | ⟨rfl, rfl⟩ | ⟨rfl, rfl⟩ | ⟨rfl, rfl⟩ <;> exact ⟨_, _, rfl⟩
  obtain ⟨n, m, hspace⟩ := hspace
  have hsp : (stagedCursor p w s).space.toNat = space := by
    simp only [atLastWord, Bool.and_eq_true, beq_iff_eq] at hlast
    exact hlast.1.2
  have he : (stagedCursor p w s).entry.toNat = e := hready.2.2.2
  refine reaches_of_guard hguard hlast ?_
  rw [viaPath_commit hready]
  have hcheck : commitCheck (stagedCursor p w s) (stagedWith p w s) (armAge p s) = (trOk, 0) := by
    rw [commitCheck_armAge]
    exact hpass
  rw [commitEntry_ok hcheck, hsp, he, commitApply_nv hspace (fun h => by simpa [resultOk, tblResult, isOwn] using hown h),
    nvCommit_writes (by simpa [resultOk, tblResult] using hlost) (by simpa [resultOk, tblResult] using hfail)]
  generalize cursorNext _ _ = next
  cases p <;>
    simp [committed, cursorPut, resultOk, tblResult, armAge_eq, pathGet, pathPut, otherPath]

end Sys2Proof.Machine
end

section
/-! The end of an NV commit (R125, R126, R565). -/

namespace Sys2Proof.Machine
open Sys2Proof.Safety

/-- Neither a copy of the NV configuration nor what this statement shows of its body changes, no path does, and what is
asked of the program engine goes behind what it has. -/
def Onto (s t : State) : Prop :=
  (t.nv.a = s.nv.a ∧ t.nv.b = s.nv.b ∧ t.nv.present = s.nv.present) ∧ s.nv.prog <+: t.nv.prog ∧
    (t.regions = s.regions ∧ t.referee = s.referee ∧ t.roster = s.roster ∧ t.pathC = s.pathC ∧ t.pathM = s.pathM)

theorem Onto.refl (s : State) : Onto s s := ⟨⟨rfl, rfl, rfl⟩, List.prefix_rfl, rfl, rfl, rfl, rfl, rfl⟩

theorem Onto.trans {s t u : State} (h : Onto s t) (h' : Onto t u) : Onto s u := by
  obtain ⟨⟨ha, hb, hp⟩, hprog, hregions, hreferee, hroster, hc, hm⟩ := h
  obtain ⟨⟨ha', hb', hp'⟩, hprog', hregions', hreferee', hroster', hc', hm'⟩ := h'
  exact ⟨⟨ha'.trans ha, hb'.trans hb, hp'.trans hp⟩, hprog.trans hprog', hregions'.trans hregions,
    hreferee'.trans hreferee, hroster'.trans hroster, hc'.trans hc, hm'.trans hm⟩

theorem Onto.foldl {α : Type} {g : State → α → State} (h : ∀ s a, Onto s (g s a)) (l : List α) (s : State) :
    Onto s (l.foldl g s) :=
  List.foldlRecOn (motive := fun t => Onto s t) l g (.refl s) fun _ ht a _ => ht.trans (h _ a)

/-- A step that leaves the NV area and the rest alone. -/
theorem Onto.of_same {s t : State} (hnv : t.nv = s.nv) (hrest : t.regions = s.regions ∧ t.referee = s.referee ∧
    t.roster = s.roster ∧ t.pathC = s.pathC ∧ t.pathM = s.pathM) : Onto s t := by
  refine ⟨?_, ?_, hrest⟩ <;> rw [hnv]
  exact ⟨rfl, rfl, rfl⟩

theorem progReq_onto (o : ProgOp) (s : State) : Onto s (progReq o s) := by
  unfold progReq
  split
  · exact .refl s
  · exact ⟨⟨rfl, rfl, rfl⟩, List.prefix_append _ _, rfl, rfl, rfl, rfl, rfl⟩

theorem nvCommit_onto (c : NvChange) (s : State) : Onto s (nvCommit c s) := by
  unfold nvCommit
  split
  · exact .refl s
  · refine Onto.trans (t := { fabricMake s with nv := { (fabricMake s).nv with commits := (fabricMake s).nv.commits ++ [c] } })
      ?_ (progReq_onto ..)
    unfold fabricMake
    split <;> exact ⟨⟨rfl, rfl, rfl⟩, List.prefix_rfl, rfl, rfl, rfl, rfl, rfl⟩

theorem bbCopy_onto (r : LogRec) (s : State) : Onto s (bbCopy r s) :=
  ⟨⟨rfl, rfl, rfl⟩, List.prefix_append _ _, rfl, rfl, rfl, rfl, rfl⟩

theorem logSums_onto (code : Byte) (cls : LogClass) (bb : Bool) (studio : Option (Fin 8)) (s : State) :
    Onto s (logSums code cls bb studio s) := .of_same (by simp) (by simp)

theorem logAs_onto (c : Code) (cls : LogClass) (studio : Option (Fin 8)) (args : List Byte) (s : State) :
    Onto s (logAs c cls studio args s) := by
  simp only [logAs]
  split
  · exact .of_same (by simp) (by simp)
  · split
    · exact ((Onto.of_same (by simp) (by simp)).trans (bbCopy_onto _ _)).trans (logSums_onto ..)
    · exact (Onto.of_same (by simp) (by simp)).trans (logSums_onto ..)

theorem memEnter_onto (m : Fin 128) (new : MState) (cause : Byte) (s : State) : Onto s (memEnter m new cause s) := by
  have hlog := logAs_onto .memberState (if new.warns then .warn else .note) none
    ([BitVec.ofNat 8 m.val, BitVec.ofNat 8 (memGet m s).state.num, BitVec.ofNat 8 new.num, cause]
      ++ leBytes 4 (((memGet m s).sig.map Sig.generation).getD 0).toNat)
    (memPut m { memGet m s with state := new, lastChange := cause, changeTick := s.clk.tick.truncate 32 } s)
  exact Onto.trans (.of_same (by simp) (by simp)) (hlog.trans (.of_same rfl ⟨rfl, rfl, rfl, rfl, rfl⟩))

theorem memState_onto (m : Fin 128) (new : MState) (cause : Byte) (s : State) : Onto s (memState m new cause s) := by
  refine (memEnter_onto m new cause s).trans ?_
  unfold memState
  dsimp only
  (repeat' split) <;> exact .of_same (by simp [memberSet, memberReport]) (by simp [memberSet, memberReport])

theorem missingRelease_onto (s : State) : Onto s (missingRelease s) := by
  unfold missingRelease
  split
  · exact .refl s
  · refine Onto.foldl (fun t m => ?_) _ s
    split
    · exact memState_onto ..
    · exact .refl t

theorem refreshChanged_onto (old : Vector Arr 4 × Vector Vol 64) (s : State) : Onto s (refreshChanged old s) := by
  refine Onto.foldl (fun t a => ?_) _ s
  dsimp only
  split
  · refine Onto.foldl (fun u r => ?_) _ t
    dsimp only
    split
    · exact .of_same (by simp) (by simp)
    · exact .refl u
  · exact .refl t

theorem wordsAsk_onto (s : State) : Onto s (wordsAsk s) := by
  refine Onto.foldl (fun t x => ?_) _ s
  obtain ⟨i, r⟩ := x
  dsimp only
  (repeat' split)
  · exact .refl t
  · exact progReq_onto ..
  · exact progReq_onto ..
  · exact .refl t

theorem genNext_onto (a : Fin 4) (s : State) : Onto s (genNext a s) := by
  unfold genNext
  dsimp only
  split <;> exact .of_same (by simp) (by simp)

theorem advance_onto (a : Fin 4) (s : State) : Onto s (advance a s) :=
  (genNext_onto a s).trans (nvCommit_onto ..)

theorem advancesDue_onto (s : State) : Onto s (advancesDue s) := by
  refine Onto.foldl (fun t a => ?_) _ s
  split
  · exact advance_onto a t
  · exact .refl t

/-- The state once an NV commit's change has been made and before its copy is written. -/
def changed (rest : List NvChange) (c : NvChange) (s : State) : State :=
  missingRelease (nvChange c (progNext { s with nv := { s.nv with commits := rest } }))

theorem nvCommitDone_eq {s : State} {c : NvChange} {rest : List NvChange} (hprog : s.nv.prog.head? = some .nv)
    (hcommits : s.nv.commits = c :: rest) :
    nvCommitDone true s = advancesDue (wordsAsk (refreshChanged (nvPresent s).tables (nvWrite (changed rest c s)))) := by
  simp only [nvCommitDone, hprog, hcommits]
  rfl

/-- The copy written is the one that was not present, and it holds the configuration as it stands. -/
theorem nvWrite_shows (u : State) :
    (nvWrite u).nv.present = some (nvTarget u) ∧
      (if nvTarget u then (nvWrite u).nv.a = u.nv.a else (nvWrite u).nv.b = u.nv.b) ∧ (nvWrite u).nv.prog = u.nv.prog ∧
      nvPresent (nvWrite u) = .valid (nvSeqNext u) u.ident.fabricId u.ident.node (nvBody u) := by
  cases h : nvTarget u <;> simp [nvWrite, nvPresent, h]

theorem nvPresent_congr {s t : State} (ha : t.nv.a = s.nv.a) (hb : t.nv.b = s.nv.b) (hp : t.nv.present = s.nv.present) :
    nvPresent t = nvPresent s := by simp only [nvPresent, ha, hb, hp]

/-- A commit that ends well writes the copy that is not the present one, which becomes it, and the other stays; `w` is the
state in which its change has been made. -/
theorem nvCommitDone_written {s w : State} {c : NvChange} {rest : List NvChange} (hprog : s.nv.prog.head? = some .nv)
    (hcommits : s.nv.commits = c :: rest) (hw : Onto w (changed rest c s))
    (hnv : w.nv.a = s.nv.a ∧ w.nv.b = s.nv.b ∧ w.nv.present = s.nv.present ∧ w.nv.prog = s.nv.prog.drop 1)
    (hident : (changed rest c s).ident = s.ident) :
    ((nvCommitDone true s).nv.present = some (nvTarget s) ∧
      (if nvTarget s then (nvCommitDone true s).nv.a = s.nv.a else (nvCommitDone true s).nv.b = s.nv.b) ∧
      s.nv.prog.drop 1 <+: (nvCommitDone true s).nv.prog ∧ (nvCommitDone true s).regions = w.regions ∧
      (holdsWhole (nvPresent (nvCommitDone true s))).map (fun (q, f, n, b) => (q, f, n, b.regions, b.referee, b.roster)) =
        some (nvSeqNext s, s.ident.fabricId, s.ident.node, w.regions, w.referee.cfg, w.roster)) ∧
      (∀ p, pathGet p (nvCommitDone true s) = pathGet p w) := by
  have hlast : Onto (nvWrite (changed rest c s)) (nvCommitDone true s) := by
    rw [nvCommitDone_eq hprog hcommits]
    exact (refreshChanged_onto _ _).trans ((wordsAsk_onto _).trans (advancesDue_onto _))
  generalize changed rest c s = u at hw hident hlast
  obtain ⟨⟨ha, hb, hp⟩, huprog, hregions, hreferee, hroster, hc, hm⟩ := hw
  obtain ⟨⟨hta, htb, htp⟩, htprog, htregions, -, -, htc, htm⟩ := hlast
  obtain ⟨hna, hnb, hnp, hnprog⟩ := hnv
  obtain ⟨hpresent, hother, hkept, hcopy⟩ := nvWrite_shows u
  have htarget : nvTarget u = nvTarget s := by simp only [nvTarget, hp, hnp]
  have hseq : nvSeqNext u = nvSeqNext s := by
    simp only [nvSeqNext, nvPresent_congr (ha.trans hna) (hb.trans hnb) (hp.trans hnp)]
  rw [htarget] at hpresent hother
  refine ⟨⟨htp.trans hpresent, ?_, ?_, htregions.trans hregions, ?_⟩, fun p => ?_⟩
  · cases h : nvTarget s <;> simp only [h, if_true, Bool.false_eq_true, if_false] at hother ⊢
    · exact htb.trans (hother.trans (hb.trans hnb))
    · exact hta.trans (hother.trans (ha.trans hna))
  · rw [← hnprog]
    exact huprog.trans (hkept ▸ htprog)
  · rw [nvPresent_congr hta htb htp, hcopy, hseq, hident]
    simp [holdsWhole, nvBody, hregions, hreferee, hroster]
  · exact pathGet_congr (htc.trans hc) (htm.trans hm)

theorem missingRelease_ident (s : State) : (missingRelease s).ident = s.ident := by
  unfold missingRelease
  split
  · rfl
  · refine foldl_ident _ (fun t m => ?_) _ s
    split <;> simp

/-- A HOST_REGION entry takes effect, and its path shows no commit any more. -/
def regionChanged (p : Path) (e : Nat) (w : List Word) (s : State) : State :=
  pathPut p { pathGet p (regionApply e w s) with commitBusy := false } (regionApply e w s)

/-- FAILSTOP leaves the copies of the NV configuration. -/
@[simp] theorem failstop_copies (s : State) :
    (failstop s).nv.a = s.nv.a ∧ (failstop s).nv.b = s.nv.b ∧ (failstop s).nv.present = s.nv.present := by
  unfold failstop
  split <;> simp

/-- Settles O22: what follows a commit's change asks the program engine for more and leaves the copies alone. -/
theorem nvCommitEnds : Obligations.NvCommitEnds := by
  unfold Obligations.NvCommitEnds
  intro s hrun hprog
  refine ⟨fun rest hcommits => ?_, fun p e w rest hcommits => ?_, fun c rest hcommits => ?_⟩
  · refine reaches_of_guard rfl hrun ?_
    have hmissing := missingRelease_onto (progNext { s with nv := { s.nv with commits := rest } })
    exact (nvCommitDone_written hprog hcommits hmissing ⟨rfl, rfl, rfl, rfl⟩
      (missingRelease_ident _)).1
  · refine reaches_of_guard rfl hrun ?_
    have hmissing := missingRelease_onto (regionChanged p e w (progNext { s with nv := { s.nv with commits := rest } }))
    have hident : (changed rest (.table p 0x0F e w) s).ident = s.ident :=
      (missingRelease_ident (regionChanged p e w (progNext { s with nv := { s.nv with commits := rest } }))).trans
        (by simp [regionChanged, regionApply, progNext])
    have hwritten := nvCommitDone_written hprog hcommits hmissing (by simp [regionChanged, regionApply, busRefresh, progNext])
      hident
    refine ⟨by simpa [regionChanged, regionApply, busRefresh, progNext] using hwritten.1, ?_⟩
    rw [hwritten.2 p]
    simp [regionChanged]
  · refine reaches_of_guard rfl hrun ?_
    simp only [nvCommitDone, hprog, hcommits, Bool.false_eq_true, if_false]
    refine ⟨failstop_level _, ?_, ?_, ?_, fun hlevel => ?_⟩
    · simp [progNext]
    · simp [progNext]
    · simp [progNext]
    · simp [failstop, progNext, hlevel]

end Sys2Proof.Machine
end

section
/-! The management engine: a command is taken from a path, checked, started or refused, and answered (R174 to R181). -/

namespace Sys2Proof.Machine
open Sys2Proof.Safety

/-! ## A command through a path -/

theorem commandWord_fields (code : Byte) :
    (fld 0 code.toNat).extractLsb' 0 8 = code ∧ BitVec.ofNat 16 (bits (fld 0 code.toNat) 7 0) = code.zeroExtend 16 := by
  revert code
  decide

theorem armCode_ne : ∀ {code : Byte}, cmdArmed code = true → (code.zeroExtend 16 : BitVec 16) ≠ 0 := by decide

theorem command_laneChecks : LaneChecks 0x68 0xF := ⟨by decide, by decide, by decide, by decide⟩

theorem writeBusy_command {p : Path} {s : State} (h : openPath p s) (hfree : s.mgmt.busy = false) :
    writeBusy p 0x68 s = false := by
  obtain ⟨-, hbusy, -, hwaking, -⟩ := h
  simp [writeBusy, hbusy, hwaking, hfree]

/-- The path with the arm that a command needs spent, or one access older where it needs none. -/
def commandArm (p : Path) (code : Byte) (s : State) : State := if cmdArmed code then armSpent p s else armAge p s

theorem command_open {p : Path} {code : Byte} {s : State} (h : openPath p s) (hfree : s.mgmt.busy = false)
    (harm : cmdArmed code = true → hasArm p (code.zeroExtend 16) s) :
    command p code.toNat s = mgmtTake p code (commandArm p code s) := by
  obtain ⟨hcode, hword⟩ := commandWord_fields code
  have hregs (armed : Bool) (u : State) : regWrite p 0x68 0xF (fld 0 code.toNat) armed u = mgmtTake p code u := by
    show mgmtTake p ((fld 0 code.toNat).extractLsb' 0 8) u = _
    rw [hcode]
  unfold command viaPathFull commandArm
  split
  case isTrue hneed =>
    rw [viaPath_armed h command_laneChecks (writeBusy_command h hfree) (code := code.zeroExtend 16) (refuses := true) ?_
      (harm hneed) (armCode_ne hneed), hregs]
    simp [armNeed, hcode, hneed, hword]
  case isFalse hneed =>
    rw [viaPath_open h command_laneChecks (writeBusy_command h hfree) (by simp [armNeed, hcode, hneed]), hregs]

theorem exec_mgmtCommand {p : Path} {c : Instr} {code : Byte} {s : State} (hc : (c, code) ∈ mgmtCommands p) :
    exec c s = .next (command p code.toNat s) := by
  simp only [mgmtCommands, List.mem_cons, Prod.mk.injEq, List.not_mem_nil, or_false] at hc
  rcases hc with ⟨rfl, rfl⟩ | ⟨rfl, rfl⟩ | ⟨rfl, rfl⟩ | ⟨rfl, rfl⟩ | ⟨rfl, rfl⟩ | ⟨rfl, rfl⟩ | ⟨rfl, rfl⟩ | ⟨rfl, rfl⟩ |
    ⟨rfl, rfl⟩ | ⟨rfl, rfl⟩ | ⟨rfl, rfl⟩ | ⟨rfl, rfl⟩ | ⟨rfl, rfl⟩ | ⟨rfl, rfl⟩ | ⟨rfl, rfl⟩ | ⟨rfl, rfl⟩ | ⟨rfl, rfl⟩ |
    ⟨rfl, rfl⟩ <;> rfl

/-- The state in which a taken command is checked. -/
def taken (p : Path) (code : Byte) (s : State) : State :=
  let u := pathPut p { pathGet p s with args := [], overflow := false, argStage := 0 } s
  { u with mgmt := { u.mgmt with
      busy := true, origin := p, seq := u.mgmt.seq + 1, running := some { code := code, args := (pathGet p s).args } } }

theorem mgmtCheck_taken (p : Path) (code : Byte) (l : List Word) (ovf : Bool) (s : State) :
    mgmtCheck code l ovf (taken p code s) = mgmtCheck code l ovf s := by cases p <;> rfl

theorem mgmtCheck_commandArm (p : Path) (code : Byte) (l : List Word) (ovf : Bool) (s : State) :
    mgmtCheck code l ovf (commandArm p code s) = mgmtCheck code l ovf s := by
  rw [commandArm, armAge_eq]
  split <;> cases p <;> rfl

/-! ## What the start of a command leaves -/

/-- What the management engine does not touch while it starts a command. -/
@[reducible, simp] def Engine (s t : State) : Prop :=
  t.dma = s.dma ∧ t.studios = s.studios ∧ t.roster = s.roster ∧ t.regions = s.regions ∧ t.palette = s.palette ∧
    t.pathC = s.pathC ∧ t.pathM = s.pathM ∧ t.mgmt = s.mgmt

theorem Engine.refl (s : State) : Engine s s := by simp
theorem Engine.trans {s t u : State} (h : Engine t u) (k : Engine s t) : Engine s u := by simp [h, k]

theorem foldl_engineOn {α β : Type} (part : β → State) (g : β → α → β)
    (h : ∀ b a, Engine (part b) (part (g b a))) (l : List α) (b : β) : Engine (part b) (part (l.foldl g b)) := by
  induction l generalizing b with
  | nil => exact .refl _
  | cons a t ih => exact (ih _).trans (h b a)
theorem foldl_engine {α : Type} (g : State → α → State) (h : ∀ s a, Engine s (g s a)) (l : List α) (s : State) :
    Engine s (l.foldl g s) := foldl_engineOn id g h l s
@[simp] theorem onlyIf_engine (c : Bool) (f : State → State) (s : State) (h : Engine s (f s)) :
    Engine s (onlyIf c f s) := by
  cases c <;> simp [onlyIf, h]

@[simp] theorem sirqSet_engine (st : Fin 8) (b : Nat) (s : State) : Engine s (sirqSet st b s) := by
  simp [sirqSet, aliasPut]
@[simp] theorem aliasPut_engine (i : Fin 8) (a : Alias) (s : State) : Engine s (aliasPut i a s) := by
  simp [aliasPut]
@[simp] theorem canvasPut_engine (c : Canvas) (s : State) : Engine s (canvasPut c s) := by simp
@[simp] theorem createOp_engine (o : MOp) (s : State) : Engine s (createOp o s) := by simp
@[simp] theorem ringRequest_engine (k : BitVec 4) (kind : ReqKind) (s : State) :
    Engine s (ringRequest k kind s) := by simp
@[simp] theorem poolGive_engine (i : Fin 20) (who : Option (Fin 8)) (n : Nat) (s : State) :
    Engine s (poolGive i who n s) := by simp
@[simp] theorem arrPut_engine (a : Fin 4) (x : Arr) (s : State) : Engine s (arrPut a x s) := by simp
@[simp] theorem logRec_engine (c : Code) (args : List Byte) (s : State) : Engine s (logRec c args s) := by simp
@[simp] theorem memPut_engine (m : Fin 128) (x : Member) (s : State) : Engine s (memPut m x s) := by simp
@[simp] theorem portPut_engine (p : Fin 8) (x : Port) (s : State) : Engine s (portPut p x s) := by simp
@[simp] theorem irqSet_engine (b : Nat) (s : State) : Engine s (irqSet b s) := by simp
@[simp] theorem logAs_engine (c : Code) (cls : LogClass) (studio : Option (Fin 8)) (args : List Byte) (s : State) :
    Engine s (logAs c cls studio args s) := by simp
@[simp] theorem counterInc_engine (e : Nat) (s : State) : Engine s (counterInc e s) := by simp
@[simp] theorem tileDrop_engine (n : Nat) (s : State) : Engine s (tileDrop n s) := by
  simp only [tileDrop]
  split <;> simp
@[simp] theorem tier2Drop_engine (n : Nat) (s : State) : Engine s (tier2Drop n s) := by
  simp only [tier2Drop]
  split <;> simp
@[simp] theorem tilesDrop_engine (l : List Nat) (s : State) : Engine s (tilesDrop l s) := by
  simp [tilesDrop, foldl_engine]
@[simp] theorem dropWhere_engine (f : Bind → Bool) (s : State) : Engine s (dropWhere f s) := by
  simp [dropWhere, foldl_engine]
@[simp] theorem workDrop_engine (w : Work) (s : State) : Engine s (workDrop w s) := by simp [workDrop]
@[simp] theorem lockDrop_engine (f : Lock → Bool) (s : State) : Engine s (lockDrop f s) := by
  simp [lockDrop, foldl_engine]
@[simp] theorem volsNote_engine (f : Vol → Bool) (s : State) : Engine s (volsNote f s) :=
  foldl_engine _ (fun u v => by split <;> simp) _ s
@[simp] theorem volsFollow_engine (a : Fin 4) (s : State) : Engine s (volsFollow a s) := by
  simp [volsFollow]
@[simp] theorem setArr_engine (a : Fin 4) (x : Arr) (s : State) : Engine s (setArr a x s) := by
  simp [setArr]
@[simp] theorem volTrimDrop_engine (a : Fin 4) (s : State) : Engine s (volTrimDrop a s) := by
  simp [volTrimDrop]
@[simp] theorem repaintNote_engine (a : Fin 4) (s : State) : Engine s (repaintNote a s) := by
  simp [repaintNote]
@[simp] theorem bgUnwait_engine (a : Fin 4) (s : State) : Engine s (bgUnwait a s) := by simp [bgUnwait]
@[simp] theorem addFlush_engine (f : Flush) (s : State) : Engine s (addFlush f s) := by
  simp [addFlush]
@[simp] theorem startFlush_engine (a : Fin 4) (new : Bool) (stripe : Nat) (s : State) :
    Engine s (startFlush a new stripe s) := by
  simp [startFlush]
@[simp] theorem flushRec_engine (r : Rec) (s : State) : Engine s (flushRec r s) := by
  simp [flushRec, foldl_engine]
@[simp] theorem flushWhere_engine (f : Rec → Bool) (s : State) : Engine s (flushWhere f s) := by
  simp [flushWhere, foldl_engine]
@[simp] theorem trimApply_engine (slot : Nat) (s : State) : Engine s (trimApply slot s) := by
  simp only [trimApply]
  (repeat' split) <;> simp
@[simp] theorem endFlush_engine (f : Flush) (s : State) : Engine s (endFlush f s) := by simp [endFlush]
@[simp] theorem frontEnd_engine (a : Fin 4) (m : Nat) (s : State) : Engine s (frontEnd a m s) := by
  simp [frontEnd, foldl_engine]
@[simp] theorem uncommitted_engine (f : State → State) (s : State) (h : Engine s (f s)) : Engine s (uncommitted f s) := h
@[simp] theorem pausePass_engine (a : Fin 4) (s : State) : Engine s (pausePass a s) := by simp [pausePass]
@[simp] theorem pausePaint_engine (a : Fin 4) (s : State) : Engine s (pausePaint a s) := by
  simp [pausePaint]
@[simp] theorem stopCheckpoint_engine (a : Fin 4) (s : State) : Engine s (stopCheckpoint a s) := by
  simp [stopCheckpoint]
@[simp] theorem stopEnd_engine (a : Fin 4) (s : State) : Engine s (stopEnd a s) := by
  simp [stopEnd]
@[simp] theorem mgmtIdentity_engine (code : Byte) (l : List Word) (s : State) : Engine s (mgmtIdentity code l s) := by
  simp only [mgmtIdentity]
  (repeat' split) <;> simp
@[simp] theorem bgHold_engine (a : Fin 4) (s : State) : Engine s (bgHold a s) := by simp [bgHold]
@[simp] theorem stopTurn_engine (a : Fin 4) (s : State) : Engine s (stopTurn a s) := by
  simp [stopTurn, foldl_engine]

/-- The engine runs a command further: only its own record of the command changes. -/
def Runs (r : MgmtRun) (s t : State) : Prop :=
  ∃ r', r'.code = r.code ∧ r'.args = r.args ∧ Engine { s with mgmt := { s.mgmt with running := some r' } } t

theorem mgmtPut_runs {r r' : MgmtRun} {s t : State} (hcode : r'.code = r.code) (hargs : r'.args = r.args) (h : Engine s t) :
    Runs r s (mgmtPut r' t) := ⟨r', hcode, hargs, by simp_all [mgmtPut]⟩

theorem mgmtAsk_runs {r r' : MgmtRun} {s t : State} (hcode : r'.code = r.code) (hargs : r'.args = r.args) (h : Engine s t) :
    Runs r s (mgmtAsk r' t) := by
  unfold mgmtAsk
  split
  · exact ⟨{ r' with committing := true }, hcode, hargs, by simp_all [mgmtPut]⟩
  · exact mgmtPut_runs hcode hargs h

theorem stopStart_runs (r : MgmtRun) (a : Fin 4) (s : State) : Runs r s (stopStart r a s) := by
  simp only [stopStart]
  (repeat' split)
  · exact mgmtAsk_runs rfl rfl (.refl s)
  · exact mgmtPut_runs rfl rfl (by simp)
  · exact mgmtPut_runs rfl rfl (by simp)

theorem mgmtWrite_runs (r : MgmtRun) (s : State) : Runs r s (mgmtWrite r s) :=
  mgmtAsk_runs rfl rfl ((foldl_engine _ (fun _ _ => by simp) _ _).trans (by simp))

/-- A command that starts is the one that the engine runs. -/
theorem mgmtStart_runs (r : MgmtRun) (s : State) : Runs r s (mgmtStart r s) := by
  simp only [mgmtStart]
  split
  · exact mgmtPut_runs rfl rfl (by simp)
  · split
    · exact mgmtPut_runs rfl rfl (.refl s)
    · exact mgmtWrite_runs r s
  · exact mgmtPut_runs rfl rfl (by simp)
  · (repeat' split)
    · exact mgmtPut_runs rfl rfl (by simp)
    · exact mgmtPut_runs rfl rfl (.refl s)
    · exact mgmtPut_runs rfl rfl (by simp)
    · exact mgmtPut_runs rfl rfl (.refl s)
  · (repeat' split)
    · exact mgmtPut_runs rfl rfl (.refl s)
    · exact mgmtWrite_runs r s
    · exact mgmtPut_runs rfl rfl (.refl s)
    · exact mgmtWrite_runs r s
  · exact stopStart_runs r _ s
  · exact mgmtWrite_runs r s

theorem commandArm_path (p : Path) (code : Byte) (s : State) :
    (pathGet p (commandArm p code s)).args = (pathGet p s).args ∧
      (pathGet p (commandArm p code s)).overflow = (pathGet p s).overflow ∧
      (cmdArmed code = true → (pathGet p (commandArm p code s)).arm = none) := by
  unfold commandArm
  split
  · simp
  · simp [*]

theorem commandArm_offArm (p : Path) (code : Byte) (s : State) : OffArm s (commandArm p code s) := by
  unfold commandArm
  split
  · exact armSpent_offArm p s
  · exact armAge_offArm p s

theorem commandArm_other (p : Path) (code : Byte) (s : State) :
    pathGet (otherPath p) (commandArm p code s) = pathGet (otherPath p) s := by
  rw [commandArm, armAge_eq]
  split <;> cases p <;> rfl

/-- What a path shows once a command has been taken from it, and what the taking leaves. -/
theorem taken_writes (p : Path) (code : Byte) (s : State) :
    (taken p code s).mgmt = { s.mgmt with
        busy := true, origin := p, seq := s.mgmt.seq + 1, running := some { code := code, args := (pathGet p s).args } } ∧
      pathGet p (taken p code s) = { pathGet p s with args := [], overflow := false, argStage := 0 } ∧
      pathGet (otherPath p) (taken p code s) = pathGet (otherPath p) s ∧
      taken p code s = pathPut p (pathGet p (taken p code s)) { s with mgmt := (taken p code s).mgmt } := by
  cases p <;> exact ⟨rfl, rfl, rfl, rfl⟩

/-- A command whose checks pass starts … -/
theorem mgmtTake_starts {p : Path} {code : Byte} {s : State}
    (h : mgmtCheck code (pathGet p s).args (pathGet p s).overflow s = none) :
    mgmtTake p code s = mgmtStart { code := code, args := (pathGet p s).args } (taken p code s) := by
  have htaken := (mgmtCheck_taken p code (pathGet p s).args (pathGet p s).overflow s).trans h
  simp only [mgmtTake]
  split
  case h_1 e he => cases he.symm.trans htaken
  case h_2 => rfl

/-- … and one that fails has its result decided. -/
theorem mgmtTake_fails {p : Path} {code : Byte} {s : State} {e : Byte × Byte}
    (h : mgmtCheck code (pathGet p s).args (pathGet p s).overflow s = some e) :
    mgmtTake p code s = mgmtPut { code := code, args := (pathGet p s).args, res := some e } (taken p code s) := by
  have htaken := (mgmtCheck_taken p code (pathGet p s).args (pathGet p s).overflow s).trans h
  simp only [mgmtTake]
  split
  case h_1 e' he =>
    cases he.symm.trans htaken
    rfl
  case h_2 he => cases he.symm.trans htaken

/-- Settles O23: the command is taken with its arm, and no start of a command touches what the statement names. -/
theorem managementCommandsAreTaken : Obligations.ManagementCommandsAreTaken := by
  unfold Obligations.ManagementCommandsAreTaken
  intro s p c code hc hopen hfree harm hcheck
  obtain ⟨hargs, hovf, hspent⟩ := commandArm_path p code s
  have hstart := mgmtTake_starts (p := p) (code := code) (s := commandArm p code s)
    (by rw [hargs, hovf, mgmtCheck_commandArm]; exact hcheck)
  refine ⟨_, (exec_mgmtCommand hc).trans (congrArg Host.Outcome.next ((command_open hopen hfree harm).trans hstart)), ?_⟩
  have hstays := mgmtStart_stays { code := code, args := (pathGet p (commandArm p code s)).args } (taken p code (commandArm p code s))
  obtain ⟨r, hcode, hrargs, hengine⟩ :=
    mgmtStart_runs { code := code, args := (pathGet p (commandArm p code s)).args } (taken p code (commandArm p code s))
  generalize mgmtStart _ _ = t at hstays hengine
  obtain ⟨hmgmt, hpath, hother, hwhole⟩ := taken_writes p code (commandArm p code s)
  have hoff := commandArm_offArm p code s
  have hkept : Engine s { taken p code (commandArm p code s) with
      pathC := s.pathC, pathM := s.pathM, mgmt := s.mgmt } ∧ (taken p code (commandArm p code s)).scratch = s.scratch ∧
      (taken p code (commandArm p code s)).clk = s.clk := by
    rw [hwhole]
    simp [hoff]
  obtain ⟨⟨hdma, hstudios, hroster, hregions, hpalette, -⟩, hscratch, hclk⟩ := hkept
  obtain ⟨tdma, tstudios, troster, tregions, tpalette, tpathC, tpathM, tmgmt⟩ := hengine
  have hp : pathGet p t = pathGet p (taken p code (commandArm p code s)) := pathGet_congr tpathC tpathM
  have ho : pathGet (otherPath p) t = pathGet (otherPath p) (taken p code (commandArm p code s)) :=
    pathGet_congr tpathC tpathM
  obtain ⟨-, -, -, -, -, -, tclk, tscratch, -⟩ := hstays
  have hm : t.mgmt = { (commandArm p code s).mgmt with
      busy := true, origin := p, seq := (commandArm p code s).mgmt.seq + 1, running := some r } := by
    rw [tmgmt, hmgmt]
  have hsame : (commandArm p code s).mgmt = s.mgmt := hoff.2.2.2.2.2.2.2.2.2.1
  dsimp only
  rw [hm, hp, ho, hpath, hother, hsame, commandArm_other]
  exact ⟨rfl, rfl, rfl, ⟨r, rfl, hcode, hrargs.trans hargs⟩, rfl, rfl, hspent, tscratch.trans hscratch, tclk.trans hclk,
    tdma.trans hdma, tstudios.trans hstudios, troster.trans hroster, tregions.trans hregions, tpalette.trans hpalette, rfl⟩

/-- A command that is taken and fails touches the engine and its path alone. -/
theorem refused_writes (p : Path) (code : Byte) (r : MgmtRun) (s : State) :
    (mgmtPut r (taken p code (commandArm p code s))).mgmt.busy = true ∧
      (mgmtPut r (taken p code (commandArm p code s))).mgmt.running = some r ∧
      mgmtPut r (taken p code (commandArm p code s)) =
        pathPut p (pathGet p (mgmtPut r (taken p code (commandArm p code s))))
          { s with mgmt := (mgmtPut r (taken p code (commandArm p code s))).mgmt } := by
  rw [commandArm, armAge_eq]
  split <;> cases p <;> exact ⟨rfl, rfl, rfl⟩

theorem cmdArmed_undefined : ∀ {code : Byte}, cmdDefined code = false → cmdArmed code = false := by decide

/-- A code that no command has is found so before anything else of the command. -/
theorem mgmtCheck_undefined {code : Byte} {s : State} (hcode : cmdDefined code = false) (hman : isManager s = true)
    (hlevel : atLevel1 s = true) (l : List Word) (ovf : Bool) : mgmtCheck code l ovf s = some (mrBadCode, 0xFF) := by
  simp [mgmtCheck, genericCheck, firstFail, failAt, hcode, hman, hlevel]

/-- Settles O24: a write of ARRAY_ARG is its own, a failed check ends a command in its taking, and a decided one is finished. -/
theorem managementRefusalsAndArguments : Obligations.ManagementRefusalsAndArguments := by
  unfold Obligations.ManagementRefusalsAndArguments
  intro s p w hopen
  have hput (q : PathRegs) : pathPut p q (armAge p s) = pathPut p q s := by
    cases p <;> simp [armAge_eq, pathGet, pathPut]
  have hargs (l : Lanes) (hl : l ≠ 0) : exec (.arrayArgWrite p l w) s = .next (arrayArgWrite p l w (armAge p s)) :=
    congrArg Host.Outcome.next (viaPath_open hopen ⟨by decide, hl, fun h => absurd h (by decide), fun h => absurd h (by decide)⟩
      (writeBusy_open hopen (by decide) (by decide) (by decide)) rfl)
  have hlane {l : Lanes} (h : lane l 3 = true) : l ≠ 0 := by
    rintro rfl
    exact absurd h (by decide)
  refine ⟨fun l h3 hlen => ?_, fun l h3 hlen => ?_, fun l hl h3 => ?_, fun c code e hc hfree harm hcheck => ?_,
    fun code hfree hundef hman hlevel => ?_, fun r e timeout hrun hres hsigs hmedia hfabric => ?_⟩
  · refine ⟨_, hargs l (hlane h3), ?_⟩
    simp [arrayArgWrite, h3, hput, Nat.ne_of_lt hlen]
  · refine ⟨_, hargs l (hlane h3), ?_⟩
    simp [arrayArgWrite, h3, hput, hlen]
  · refine ⟨_, hargs l hl, ?_⟩
    simp [arrayArgWrite, h3, hput]
  · obtain ⟨hargs, hovf, -⟩ := commandArm_path p code s
    have hfail := mgmtTake_fails (p := p) (code := code) (s := commandArm p code s) (e := e)
      (by rw [hargs, hovf, mgmtCheck_commandArm]; exact hcheck)
    refine ⟨_, (exec_mgmtCommand hc).trans (congrArg Host.Outcome.next ((command_open hopen hfree harm).trans hfail)), ?_⟩
    obtain ⟨hbusy, hrunning, hwhole⟩ := refused_writes p code
      { code := code, args := (pathGet p (commandArm p code s)).args, res := some e } s
    exact ⟨hbusy, ⟨_, hrunning, rfl, rfl⟩, hwhole⟩
  · have hfail := mgmtTake_fails (p := p) (code := code) (s := commandArm p code s)
      ((mgmtCheck_commandArm ..).trans (mgmtCheck_undefined hundef hman hlevel _ _))
    have harm : cmdArmed code = true → hasArm p (code.zeroExtend 16) s := fun h => by
      rw [cmdArmed_undefined hundef] at h
      cases h
    obtain ⟨hbusy, hrunning, hwhole⟩ := refused_writes p code
      { code := code, args := (pathGet p (commandArm p code s)).args, res := some (mrBadCode, 0xFF) } s
    refine reaches_of_guard rfl (by simp [hundef]) ?_
    rw [command_open hopen hfree harm, hfail]
    exact ⟨⟨_, hrunning, rfl⟩, hbusy, hwhole⟩
  · have hlive : running s = true := by
      have := hopen.1
      cases p <;> simp_all [pathLive, mirrorLive, windowLive]
    refine reaches_of_guard rfl hlive ?_
    have hturn : onlyIf (unitsRun s) (mgmtTurn r) s = s := by simp [onlyIf, mgmtTurn, hres]
    simp [mgmtDone, hrun, hturn, hres, hsigs, mgmtFinish, hmedia, hfabric, irqSet]

end Sys2Proof.Machine
end

section
/-! Submission and completion queues: doorbells, resumption, the pick and the checks of a fetched command (R268 to R276). -/

namespace Sys2Proof.Machine
open Sys2Proof.Safety

/-! ## Doorbells -/

/-- A doorbell that is no valid one is counted, and only the log and where its records go see it. -/
theorem doorbellBad_logged (q : Fin 32) (off : Nat) (data : Word) (s : State) :
    counterGet 0x1B (doorbellBad q off data s) = ctrInc (counterGet 0x1B s) ∧
      doorbellBad q off data s = { s with
        log := (doorbellBad q off data s).log, ring := (doorbellBad q off data s).ring, nv := (doorbellBad q off data s).nv } :=
  ⟨by simp [doorbellBad, counterGet_logRec, Code.info], by apply State.ext <;> simp [doorbellBad]⟩

/-- Settles O25: each pointer moves exactly where its guard holds. -/
theorem doorbellsMoveTheirPointers : Obligations.DoorbellsMoveTheirPointers := by
  unfold Obligations.DoorbellsMoveTheirPointers
  intro s q data hrun
  refine ⟨fun hgood => ?_, fun hgood => ?_, fun hbad => ?_, fun hbad => ?_⟩
  · exact reaches_of_guard rfl hrun (if_pos (by simpa [and_assoc] using hgood))
  · exact reaches_of_guard rfl hrun (if_pos (by simpa [and_assoc] using hgood))
  · refine reaches_of_guard rfl hrun ?_
    have htail : sqTail q data s = doorbellBad q 0 data s := if_neg (by simpa [and_assoc] using hbad)
    rw [htail]
    exact doorbellBad_logged ..
  · refine reaches_of_guard rfl hrun ?_
    have hhead : cqHead q data s = doorbellBad q 0x10 data s := if_neg (by simpa [and_assoc] using hbad)
    rw [hhead]
    exact doorbellBad_logged ..

/-! ## Resumption -/

theorem resumeWord_fields (slot : BitVec 10) {act : Nat} (h : act < 4) : bits (resumeWord slot act) 1 0 = act ∧
    bits (resumeWord slot act) 25 16 = slot.toNat ∧ bits (resumeWord slot act) 31 26 = 0 ∧
    bits (resumeWord slot act) 15 2 = 0 := by
  have hall : ∀ (slot : BitVec 10) (act : Fin 4), bits (resumeWord slot act.val) 1 0 = act.val ∧
    bits (resumeWord slot act.val) 25 16 = slot.toNat ∧ bits (resumeWord slot act.val) 31 26 = 0 ∧
    bits (resumeWord slot act.val) 15 2 = 0 := by decide +kernel
  exact hall slot ⟨act, h⟩

/-- A write of SQ_RESUME of the slot that a queue is frozen on takes its action; of any other it is counted. -/
theorem sqResume_frozen {q : Fin 32} {slot : BitVec 10} {s : State} (hstate : (sqGet q s).state = .frozen)
    (hslot : (sqGet q s).freezeSlot = slot.toNat) :
    sqResume q (resumeWord slot 1) s = postHeld q (sqRun q s) ∧
      sqResume q (resumeWord slot 2) s = retryHeld q (sqRun q s) ∧
      sqResume q (resumeWord slot 3) s =
        if (sqGet q (postHeld q s)).fetch == (sqGet q (postHeld q s)).tail then sqRun q (postHeld q s)
        else sqPut q { sqGet q (postHeld q s) with discardTo := some (sqGet q (postHeld q s)).tail } (postHeld q s) := by
  refine ⟨?_, ?_, ?_⟩
  · obtain ⟨hact, hsel, hhigh, hlow⟩ := resumeWord_fields slot (act := 1) (by decide)
    simp [sqResume, hact, hsel, hhigh, hlow, hstate, hslot]
  · obtain ⟨hact, hsel, hhigh, hlow⟩ := resumeWord_fields slot (act := 2) (by decide)
    simp [sqResume, hact, hsel, hhigh, hlow, hstate, hslot]
  · obtain ⟨hact, hsel, hhigh, hlow⟩ := resumeWord_fields slot (act := 3) (by decide)
    simp [sqResume, hact, hsel, hhigh, hlow, hstate, hslot]

theorem sqResume_other {q : Fin 32} {slot : BitVec 10} {s : State} {act : Nat} (hact : act < 4)
    (h : (sqGet q s).state ≠ .frozen ∨ (sqGet q s).freezeSlot ≠ slot.toNat) :
    sqResume q (resumeWord slot act) s = doorbellBad q 0x20 (resumeWord slot act) s := by
  obtain ⟨-, hsel, -⟩ := resumeWord_fields slot hact
  refine if_neg ?_
  rw [hsel]
  rcases h with h | h
  · simp [h]
  · simp [h.symm]

theorem postHeld_none {q : Fin 32} {s : State} (h : (sqGet q s).heldSlot = none) : postHeld q s = s := by
  simp [postHeld, h]

theorem postHeld_some {q : Fin 32} {i : Nat} {x : Slot} {s : State} (h : (sqGet q s).heldSlot = some i)
    (hx : slotGet i s = some x) : postHeld q s = cmdDone i x (sqPut q { sqGet q s with heldSlot := none } s) := by
  have hx' : slotGet i (sqPut q { sqGet q s with heldSlot := none } s) = some x := hx
  simp [postHeld, h, hx']

theorem poolAsk_writes (r : PoolReq) (s : State) : (poolAsk r s).2 = { s with ledger := (poolAsk r s).2.ledger } := by
  unfold poolAsk
  split
  · rfl
  · rfl

/-- A transfer that is asked for stands in line, with its unit of DMA_DESC or waiting for it. -/
theorem xferNew_writes (k : XferKind) (st : Fin 8) (src dst : Side) (len : Nat) (s : State) :
    xferNew k st src dst len s = { s with
      dma := (xferNew k st src dst len s).dma, ledger := (xferNew k st src dst len s).ledger } := by
  unfold xferNew
  dsimp only
  rw [poolAsk_writes]

/-- A decided command: its slot is done, no queue changes, and a completion in host memory asks for its transfer. -/
theorem cmdDone_writes (i : Nat) (x : Slot) (s : State) :
    slotGet i (cmdDone i x s) = some { x with stage := .done } ∧ (∀ q, sqGet q (cmdDone i x s) = sqGet q s) ∧
      cmdDone i x s = { s with
        dma := (cmdDone i x s).dma, ledger := (cmdDone i x s).ledger, queues := (cmdDone i x s).queues } := by
  have hslot (u : State) : slotGet i (slotPut i { x with stage := .done } u) = some { x with stage := .done } := by
    simp [slotGet, slotPut]
  unfold cmdDone
  dsimp only
  split
  · rw [xferNew_writes]
    exact ⟨hslot s, fun q => rfl, rfl⟩
  · exact ⟨hslot s, fun q => rfl, rfl⟩

theorem checkCmd_pass {i : Nat} {x : Slot} {b : List Byte} {c : Cmd} {s : State}
    (h : checkBytes b (sqStudio x.sq) s = .inl c) :
    checkCmd i x b s = dispatch i { x with bytes := b, cid := BitVec.ofNat 16 (leField b 2 2) } c s := by
  simp only [checkCmd, h]

theorem checkCmd_fail {i : Nat} {x : Slot} {b : List Byte} {st d : Byte} {s : State}
    (h : checkBytes b (sqStudio x.sq) s = .inr (st, d)) :
    checkCmd i x b s = failCmd i st d (slotPut i { x with bytes := b, cid := BitVec.ofNat 16 (leField b 2 2) } s) := by
  simp only [checkCmd, h]

/-- A NOP or a WHISTLE that passes its checks is ready at once. -/
theorem dispatch_ready {i : Nat} {x : Slot} {c : Cmd} (h : c.op = .nop ∨ c.op = .whistle) (s : State) :
    dispatch i x c s = slotPut i { x with stage := .ready, cmd := some c, cid := c.cid, urgent := c.urgent } s := by
  rcases h with h | h
  · simp [dispatch, h]
  · simp [dispatch, h]

/-- The command that a queue holds stands in its slot again with its bytes alone, in a new place of fetch order. -/
def retrying (q : Fin 32) (i : Nat) (x : Slot) (s : State) : State :=
  let u := sqPut q { sqGet q s with heldSlot := none } s
  slotPut i { sq := x.sq, order := u.queues.nextPick, idx := x.idx, bytes := x.bytes }
    { u with queues := { u.queues with nextPick := u.queues.nextPick + 1 } }

theorem retryHeld_eq {q : Fin 32} {i : Nat} {x : Slot} {s : State} (h : (sqGet q s).heldSlot = some i)
    (hx : slotGet i s = some x) : retryHeld q s =
      checkCmd i { sq := x.sq, order := s.queues.nextPick, idx := x.idx, bytes := x.bytes } x.bytes
        (retrying q i x s) := by
  have hx' : slotGet i (sqPut q { sqGet q s with heldSlot := none } s) = some x := hx
  simp only [retryHeld, h, hx']
  rfl

/-- Settles O26. -/
theorem frozenQueuesResume : Obligations.FrozenQueuesResume := by
  unfold Obligations.FrozenQueuesResume
  intro s q slot hrun
  refine ⟨fun hstate hslot => ?_, fun hother c hc => ?_⟩
  · obtain ⟨hnext, hretry, hdiscard⟩ := sqResume_frozen hstate hslot
    refine ⟨fun hheld => ?_, fun i x hheld hx hq => ?_, fun i x c hheld hx hcheck hop => ?_, fun hheld htail => ?_,
      fun hheld htail => ?_, fun i x hheld hx hq => ?_⟩
    · refine reaches_of_guard rfl hrun ?_
      rw [hnext, postHeld_none (by simpa [sqRun] using hheld)]
      rfl
    · refine reaches_of_guard rfl hrun ?_
      rw [hnext, postHeld_some (s := sqRun q s) (i := i) (x := x) (by simpa [sqRun] using hheld) hx]
      obtain ⟨hdone, hsq, hrest⟩ := cmdDone_writes i x
        (sqPut q { sqGet q (sqRun q s) with heldSlot := none } (sqRun q s))
      exact ⟨(hsq q).trans (by simp [sqRun]), hdone, hrest⟩
    · refine reaches_of_guard rfl hrun ?_
      have hcheck' : checkBytes x.bytes (sqStudio x.sq) (retrying q i x (sqRun q s)) = .inl c := hcheck
      have hheld' : (sqGet q (sqRun q s)).heldSlot = some i := by simpa [sqRun] using hheld
      rw [hretry, retryHeld_eq hheld' hx, checkCmd_pass (x := { sq := x.sq, order := _, idx := x.idx, bytes := x.bytes }) hcheck',
        dispatch_ready (.inl hop)]
      refine ⟨?_, by simp [slotGet, slotPut]; rfl, rfl⟩
      change sqGet q (sqPut q { sqGet q (sqRun q s) with heldSlot := none } (sqRun q s)) = _
      simp [sqRun]
    · refine reaches_of_guard rfl hrun ?_
      rw [hdiscard, postHeld_none hheld, if_pos (by simpa using htail)]
      rfl
    · refine reaches_of_guard rfl hrun ?_
      rw [hdiscard, postHeld_none hheld, if_neg (by simpa using htail)]
    · refine reaches_of_guard rfl hrun ?_
      rw [hdiscard, postHeld_some hheld hx]
      obtain ⟨hdone, hsq, hrest⟩ := cmdDone_writes i x (sqPut q { sqGet q s with heldSlot := none } s)
      have hk : sqGet q (cmdDone i x (sqPut q { sqGet q s with heldSlot := none } s)) = { sqGet q s with heldSlot := none } := by
        rw [hsq, sqGet_sqPut_same]
      generalize cmdDone i x _ = u at hdone hrest hk
      simp only [hk, beq_iff_eq]
      split
      · exact ⟨hdone, by simp [sqRun, hk], by rw [hrest]; rfl⟩
      · exact ⟨hdone, by simp, by rw [hrest]; rfl⟩
  · simp only [List.mem_cons, List.not_mem_nil, or_false] at hc
    rcases hc with rfl | rfl | rfl
    · refine reaches_of_guard rfl hrun ?_
      rw [sqResume_other (by decide) hother]
      exact doorbellBad_logged ..
    · refine reaches_of_guard rfl hrun ?_
      rw [sqResume_other (by decide) hother]
      exact doorbellBad_logged ..
    · refine reaches_of_guard rfl hrun ?_
      rw [sqResume_other (by decide) hother]
      exact doorbellBad_logged ..


/-! ## The end of a command -/

/-- What the end of a command leaves alone. -/
@[reducible, simp] def Local (s t : State) : Prop :=
  t.pending = s.pending ∧ t.power = s.power ∧ t.standby = s.standby ∧ t.clk = s.clk ∧ t.restart = s.restart ∧
    t.ident = s.ident ∧ t.pathC = s.pathC ∧ t.pathM = s.pathM ∧ t.cport = s.cport ∧ t.mgmt = s.mgmt ∧
    t.scratch = s.scratch ∧ t.arrs = s.arrs ∧ t.vols = s.vols ∧ t.studios = s.studios ∧ t.referee = s.referee ∧
    t.roster = s.roster ∧ t.regions = s.regions ∧ t.palette = s.palette ∧ t.freeCtr = s.freeCtr ∧
    t.hbu.mailbox = s.hbu.mailbox ∧ t.hbu.ringSram = s.hbu.ringSram

theorem Local.refl (s : State) : Local s s := by simp
theorem Local.trans {s t u : State} (h : Local t u) (k : Local s t) : Local s u := by simp [h, k]

theorem foldl_localOn {α β : Type} (part : β → State) (g : β → α → β)
    (h : ∀ b a, Local (part b) (part (g b a))) (l : List α) (b : β) : Local (part b) (part (l.foldl g b)) := by
  induction l generalizing b with
  | nil => exact .refl _
  | cons a t ih => exact (ih _).trans (h b a)
theorem foldl_local {α : Type} (g : State → α → State) (h : ∀ s a, Local s (g s a)) (l : List α) (s : State) :
    Local s (l.foldl g s) := foldl_localOn id g h l s
@[simp] theorem onlyIf_local (c : Bool) (f : State → State) (s : State) (h : Local s (f s)) :
    Local s (onlyIf c f s) := by
  cases c <;> simp [onlyIf, h]

@[simp] theorem sirqSet_local (st : Fin 8) (b : Nat) (s : State) : Local s (sirqSet st b s) := by
  simp [sirqSet, aliasPut]
@[simp] theorem aliasPut_local (i : Fin 8) (a : Alias) (s : State) : Local s (aliasPut i a s) := by
  simp [aliasPut]
@[simp] theorem canvasPut_local (c : Canvas) (s : State) : Local s (canvasPut c s) := by simp
@[simp] theorem slotPut_local (i : Nat) (x : Slot) (s : State) : Local s (slotPut i x s) := by simp
@[simp] theorem poolGive_local (i : Fin 20) (who : Option (Fin 8)) (n : Nat) (s : State) :
    Local s (poolGive i who n s) := by simp
@[simp] theorem poolTake_local (i : Fin 20) (who : Option (Fin 8)) (n : Nat) (s : State) :
    Local s (poolTake i who n s) := by simp
@[simp] theorem logRec_local (c : Code) (args : List Byte) (s : State) : Local s (logRec c args s) := by simp
@[simp] theorem sqPut_local (q : Fin 32) (x : Sq) (s : State) : Local s (sqPut q x s) := by simp
@[simp] theorem irqSet_local (b : Nat) (s : State) : Local s (irqSet b s) := by simp
@[simp] theorem logAs_local (c : Code) (cls : LogClass) (studio : Option (Fin 8)) (args : List Byte) (s : State) :
    Local s (logAs c cls studio args s) := by simp
@[simp] theorem counterInc_local (e : Nat) (s : State) : Local s (counterInc e s) := by simp
@[simp] theorem poolAsk_local (r : PoolReq) (s : State) : Local s (poolAsk r s).2 := by
  simp only [poolAsk]
  split <;> simp
@[simp] theorem forcedUpdate_local (s : State) : Local s (forcedUpdate s) := by
  simp [forcedUpdate]
@[simp] theorem freePages_local (l : List Nat) (s : State) : Local s (freePages l s) := by
  simp [freePages]
@[simp] theorem tileDrop_local (n : Nat) (s : State) : Local s (tileDrop n s) := by
  simp only [tileDrop]
  split <;> simp
@[simp] theorem tier2Drop_local (n : Nat) (s : State) : Local s (tier2Drop n s) := by
  simp only [tier2Drop]
  split <;> simp
@[simp] theorem tilesDrop_local (l : List Nat) (s : State) : Local s (tilesDrop l s) := by
  simp [tilesDrop, foldl_local]
@[simp] theorem dropWhere_local (f : Bind → Bool) (s : State) : Local s (dropWhere f s) := by
  simp [dropWhere, foldl_local]
@[simp] theorem workDrop_local (w : Work) (s : State) : Local s (workDrop w s) := by simp [workDrop]
@[simp] theorem cleanTiles_local (s : State) : Local s (cleanTiles s) := by simp [cleanTiles]
@[simp] theorem dropOps_local (f : MOp → Bool) (s : State) : Local s (dropOps f s) := by simp [dropOps]
@[simp] theorem lockDrop_local (f : Lock → Bool) (s : State) : Local s (lockDrop f s) := by
  simp [lockDrop, foldl_local]
@[simp] theorem cmdRelease_local (i : Nat) (s : State) : Local s (cmdRelease i s) := by
  unfold cmdRelease
  split
  · exact Local.refl _
  · simp
@[simp] theorem whistleBreak_local (q : Fin 32) (s : State) : Local s (whistleBreak q s) := by
  simp [whistleBreak]
@[simp] theorem kickOff_local (q : Fin 32) (s : State) : Local s (kickOff q s) := by simp [kickOff]
@[simp] theorem freezeQueue_local (q : Fin 32) (x : Slot) (held : Option Nat) (cause : Bool) (s : State) :
    Local s (freezeQueue q x held cause s) := by
  simp [freezeQueue]
@[simp] theorem xferNew_local (k : XferKind) (st : Fin 8) (src dst : Side) (len : Nat) (s : State) :
    Local s (xferNew k st src dst len s) := by
  simp [xferNew]
@[simp] theorem cmdDone_local (i : Nat) (x : Slot) (s : State) : Local s (cmdDone i x s) := by
  simp [cmdDone]
@[simp] theorem xferDrop_local (f : Xfer → Bool) (s : State) : Local s (xferDrop f s) := by
  simp [xferDrop, foldl_local]
@[simp] theorem pioEnd_local (i : Nat) (s : State) : Local s (pioEnd i s) := by simp [pioEnd]
@[simp] theorem decideCmd_local (i : Nat) (status detail : Byte) (result : Word) (s : State) :
    Local s (decideCmd i status detail result s) := by
  simp only [decideCmd]
  (repeat' split) <;> simp
@[simp] theorem endCmd_local (i : Nat) (status detail : Byte) (result : Word) (s : State) :
    Local s (endCmd i status detail result s) := by
  simp only [endCmd]
  (repeat' split) <;> simp
@[simp] theorem internalNote_local (x : Slot) (s : State) : Local s (internalNote x s) := by
  simp [internalNote]

theorem Local.commandFrame {s t : State} (h : Local s t) : commandFrame s t := by
  obtain ⟨h1, h2, h3, h4, h5, h6, h7, h8, h9, h10, h11, h12, h13, h14, h15, h16, h17, h18, h19, hmailbox, hram⟩ := h
  exact ⟨by apply State.ext <;> simp [*], hmailbox, hram⟩

/-- No queue, command slot or range lock changes. -/
@[reducible, simp] def Unqueued (s t : State) : Prop :=
  t.queues = s.queues

theorem Unqueued.refl (s : State) : Unqueued s s := by simp
theorem Unqueued.trans {s t u : State} (h : Unqueued t u) (k : Unqueued s t) : Unqueued s u := by simp [h, k]

theorem foldl_unqueuedOn {α β : Type} (part : β → State) (g : β → α → β)
    (h : ∀ b a, Unqueued (part b) (part (g b a))) (l : List α) (b : β) : Unqueued (part b) (part (l.foldl g b)) := by
  induction l generalizing b with
  | nil => exact .refl _
  | cons a t ih => exact (ih _).trans (h b a)
theorem foldl_unqueued {α : Type} (g : State → α → State) (h : ∀ s a, Unqueued s (g s a)) (l : List α) (s : State) :
    Unqueued s (l.foldl g s) := foldl_unqueuedOn id g h l s
@[simp] theorem onlyIf_unqueued (c : Bool) (f : State → State) (s : State) (h : Unqueued s (f s)) :
    Unqueued s (onlyIf c f s) := by
  cases c <;> simp [onlyIf, h]

@[simp] theorem canvasPut_unqueued (c : Canvas) (s : State) : Unqueued s (canvasPut c s) := by simp
@[simp] theorem poolGive_unqueued (i : Fin 20) (who : Option (Fin 8)) (n : Nat) (s : State) :
    Unqueued s (poolGive i who n s) := by simp
@[simp] theorem irqSet_unqueued (b : Nat) (s : State) : Unqueued s (irqSet b s) := by simp
@[simp] theorem forcedUpdate_unqueued (s : State) : Unqueued s (forcedUpdate s) := by
  simp [forcedUpdate]
@[simp] theorem freePages_unqueued (l : List Nat) (s : State) : Unqueued s (freePages l s) := by
  simp [freePages]
@[simp] theorem tileDrop_unqueued (n : Nat) (s : State) : Unqueued s (tileDrop n s) := by
  simp only [tileDrop]
  split <;> simp
@[simp] theorem tier2Drop_unqueued (n : Nat) (s : State) : Unqueued s (tier2Drop n s) := by
  simp only [tier2Drop]
  split <;> simp
@[simp] theorem tilesDrop_unqueued (l : List Nat) (s : State) : Unqueued s (tilesDrop l s) := by
  simp [tilesDrop, foldl_unqueued]
@[simp] theorem dropWhere_unqueued (f : Bind → Bool) (s : State) : Unqueued s (dropWhere f s) := by
  simp [dropWhere, foldl_unqueued]
@[simp] theorem workDrop_unqueued (w : Work) (s : State) : Unqueued s (workDrop w s) := by simp [workDrop]
@[simp] theorem cleanTiles_unqueued (s : State) : Unqueued s (cleanTiles s) := by simp [cleanTiles]
@[simp] theorem dropOps_unqueued (f : MOp → Bool) (s : State) : Unqueued s (dropOps f s) := by simp [dropOps]
@[simp] theorem xferDrop_unqueued (f : Xfer → Bool) (s : State) : Unqueued s (xferDrop f s) := by
  simp [xferDrop, foldl_unqueued]
@[simp] theorem pioEnd_unqueued (i : Nat) (s : State) : Unqueued s (pioEnd i s) := by simp [pioEnd]

theorem lockDrop_queues (f : Lock → Bool) (s : State) : (lockDrop f s).queues =
    { s.queues with line := s.queues.line.filter (!f ·), locks := s.queues.locks.filter fun (_, l) => !f l } := by
  unfold lockDrop
  dsimp only
  rw [foldl_queues _ (fun u a => poolGive_queues ..)]

/-- A command that ends gives back what it held; its slot keeps the rest of it, and no queue changes. -/
theorem cmdRelease_queues {i : Nat} {x : Slot} {s : State} (hx : slotGet i s = some x) :
    (cmdRelease i s).queues.sqs = s.queues.sqs ∧
      slotGet i (cmdRelease i s) = some { x with reserved := 0, pages := [], sealing := false } := by
  simp only [cmdRelease, hx]
  simp [slotGet, slotPut, lockDrop_queues]

/-- A command of a queue that holds no completion and that its error does not freeze has its completion due. -/
theorem decideCmd_decided {i : Nat} {x : Slot} {status detail : Byte} {result : Word} {s : State}
    (hx : slotGet i s = some x) (hstage : x.stage ≠ .done ∧ x.stage ≠ .behind ∧ x.stage ≠ .held)
    (hfirst : (sqGet x.sq s).first = none) (herr : isError status = true → (sqGet x.sq s).errMode = false) :
    decided i status detail result (decideCmd i status detail result s) := by
  have hdone : (x.stage == .done || x.stage == .behind || x.stage == .held) = false := by simpa [and_assoc] using hstage
  generalize hu : cmdRelease i (pioEnd i (xferDrop (Xfer.dataOf i) s)) = u
  have hx' : slotGet i (pioEnd i (xferDrop (Xfer.dataOf i) s)) = some x := by simpa [slotGet] using hx
  obtain ⟨hsqs, hslot⟩ := cmdRelease_queues hx'
  rw [hu] at hsqs hslot
  have hq : sqGet x.sq u = sqGet x.sq s := by simp [sqGet, hsqs]
  simp only [decideCmd, hx, hdone, Bool.false_eq_true, if_false, hu, hslot, hq]
  have hfreeze : (isError status && status != stAborted && (sqGet x.sq s).errMode && (sqGet x.sq s).state == .running &&
      (sqGet x.sq s).heldSlot == none && !x.late) = false := by
    cases h : isError status with
    | true => simp [herr h]
    | false => simp
  rw [if_neg (by rw [hfreeze]; decide), if_neg ?_]
  · exact ⟨_, (cmdDone_writes ..).1, rfl, rfl, rfl, rfl⟩
  · have hnone : (sqGet x.sq (if isError status = true then
        sqPut x.sq { sqGet x.sq s with errors := ctrInc (sqGet x.sq s).errors } u else u)).first = none := by
      split
      · simpa using hfirst
      · rw [hq, hfirst]
    simp [postsAfter, hnone]

/-! ## Picks and the checks of a fetched command -/

/-- The transfer that is asked for, at the end of the line. -/
theorem xferNew_waiting (k : XferKind) (st : Fin 8) (src dst : Side) (len : Nat) (s : State) :
    (xferNew k st src dst len s).dma.waiting = s.dma.waiting ++
      [{ id := s.dma.nextId, kind := k, studio := st, src := src, dst := dst, length := len,
         hasDesc := (poolAsk ⟨pDesc, some st, 1, .dmaDesc s.dma.nextId⟩
           { s with dma := { s.dma with nextId := s.dma.nextId + 1 } }).1 }] := by
  unfold xferNew
  dsimp only
  rw [poolAsk_writes]

theorem poolAsk_pool (r : PoolReq) (s : State) {p : Fin 20} (h : r.pool ≠ p) : poolGet p (poolAsk r s).2 = poolGet p s := by
  unfold poolAsk
  split
  · exact poolGet_poolPut_ne (h := h) ..
  · exact poolGet_poolPut_ne (h := h) ..

theorem xferNew_pool (k : XferKind) (st : Fin 8) (src dst : Side) (len : Nat) (s : State) {p : Fin 20} (h : p ≠ pDesc) :
    poolGet p (xferNew k st src dst len s) = poolGet p s :=
  poolAsk_pool ⟨pDesc, some st, 1, .dmaDesc s.dma.nextId⟩ { s with dma := { s.dma with nextId := s.dma.nextId + 1 } } h.symm

/-- The CMD_SLOT that a pick fills. -/
def pickedSlot (q : Fin 32) (s : State) : Slot :=
  { sq := q, order := s.queues.nextPick, idx := (sqGet q s).fetch,
    stage := if (sqGet q s).discardTo.isSome then .discarding else .fetching }

/-- A pick before its fetch is asked for. -/
def picked (q : Fin 32) (i : Nat) (s : State) : State :=
  let u := slotPut i (pickedSlot q s) (sqPut q (sqGet q s).advance (poolTake pCmdSlot (some (sqStudio q)) 1 s))
  let u := { u with queues := { u.queues with lastPick := q, nextPick := u.queues.nextPick + 1 } }
  if (sqGet q s).cmode then u else cqPut (sqCq q u) { cqGet (sqCq q u) u with reserved := (cqGet (sqCq q u) u).reserved + 1 } u

theorem picked_writes (q : Fin 32) (i : Nat) (s : State) :
    slotGet i (picked q i s) = some (pickedSlot q s) ∧ (picked q i s).queues.lastPick = q ∧
      sqGet q (picked q i s) = (sqGet q s).advance ∧
      poolGet pCmdSlot (picked q i s) = poolGet pCmdSlot (poolTake pCmdSlot (some (sqStudio q)) 1 s) ∧
      picked q i s = { s with ledger := (picked q i s).ledger, queues := (picked q i s).queues } := by
  unfold picked
  dsimp only
  split
  · exact ⟨by simp [slotGet, slotPut], rfl, sqGet_sqPut_same .., rfl, rfl⟩
  · exact ⟨by simp [slotGet, slotPut, cqPut], rfl, sqGet_sqPut_same .., rfl, rfl⟩

theorem pick_eq (q : Fin 32) (i : Nat) (s : State) : pick q i s = if (sqGet q s).loc then picked q i s
    else xferNew (.fetch i) (sqStudio q) (.flat ((sqGet q s).base.toNat + 64 * (sqGet q s).fetch)) .device 64 (picked q i s) :=
  rfl

theorem pick_writes (q : Fin 32) (i : Nat) (s : State) :
    slotGet i (pick q i s) = some (pickedSlot q s) ∧ (pick q i s).queues.lastPick = q ∧
      sqGet q (pick q i s) = (sqGet q s).advance ∧
      poolGet pCmdSlot (pick q i s) = poolGet pCmdSlot (poolTake pCmdSlot (some (sqStudio q)) 1 s) ∧
      (pick q i s).dma.waiting.length = s.dma.waiting.length + (if (sqGet q s).loc then 0 else 1) ∧
      pick q i s = { s with
        dma := (pick q i s).dma, ledger := (pick q i s).ledger, queues := (pick q i s).queues } := by
  obtain ⟨hslot, hlast, hsq, hpool, hrest⟩ := picked_writes q i s
  have hdma : (picked q i s).dma = s.dma := by rw [hrest]
  rw [pick_eq]
  split
  · exact ⟨hslot, hlast, hsq, hpool, by rw [hdma]; rfl, by rw [hrest]⟩
  · rw [xferNew_waiting, hdma, xferNew_pool _ _ _ _ _ _ (by decide)]
    rw [xferNew_writes]
    exact ⟨hslot, hlast, hsq, hpool, by simp, by rw [hrest]⟩

theorem Sq.advance_pointers (x : Sq) : x.advance.fetch = (x.fetch + 1) % depthOf x.depthLog2 ∧ x.advance.tail = x.tail ∧
    x.advance.outstanding = x.outstanding + 1 := by
  unfold Sq.advance
  dsimp only
  split
  · exact ⟨rfl, rfl, rfl⟩
  · exact ⟨rfl, rfl, rfl⟩

/-- A READ waits for its shared lock and reserves nothing. -/
theorem cmdLock_read {c : Cmd} (hop : c.op = .read) (i : Nat) (x : Slot) (s : State) :
    slotGet i (cmdLock i x c s) = some { x with stage := .lockWait, reserved := 0, turn := s.queues.nextPlace } ∧
      (∃ l ∈ (cmdLock i x c s).queues.line, l.work = .cmd i ∧ l.kind = .command ∧ l.excl = false ∧ l.array = cmdArray c s ∧
        l.start = cmdStart c s ∧ l.count = c.nlb) ∧
      cmdLock i x c s = { s with queues := (cmdLock i x c s).queues } := by
  have hneed : pageNeed c s = 0 := by simp [pageNeed, hop]
  obtain ⟨hslot, ⟨place, hmem⟩, -⟩ := cmdLock_asks i x c s
  refine ⟨by rw [hslot, hneed], ⟨_, hmem, rfl, rfl, by simp [lockOf, hop], rfl, rfl, rfl⟩, ?_⟩
  rw [cmdLock_eq]
  simp only [reservePages, hneed, if_true]
  rfl

/-- Settles O27. -/
theorem pickAndChecks : Obligations.PickAndChecks := by
  unfold Obligations.PickAndChecks
  refine ⟨fun s q i hrun hfetch hq hi => ?_, fun s i x b hrun hx hstage hturn hbytes => ?_⟩
  · obtain ⟨hslot, hlast, hsq, hpool, hwait, hrest⟩ := pick_writes q i s
    have hexec : exec .queuePick s = .next (pick q i s) := by
      change execQueuePick s = _
      simp [execQueuePick, onlyIf, hrun, hfetch, hq, hi]
    obtain ⟨hfetchptr, htail, hcount⟩ := Sq.advance_pointers (sqGet q s)
    exact ⟨_, hexec, hslot, hlast, by rw [hsq, hfetchptr], by rw [hsq, htail], by rw [hsq, hcount],
      by rw [hpool, poolTake_free], hwait, hrest⟩
  · have hchecked : commandFetched i s = checkCmd i x b s := by simp [commandFetched, hx, hstage, hturn, hbytes]
    refine ⟨fun c hc hop => ?_, fun c hc hop => ?_, fun st d hc hmode hfirst => ?_⟩
    · refine reaches_of_guard rfl hrun ?_
      rw [hchecked, checkCmd_pass hc, dispatch_ready hop]
    · refine reaches_of_guard rfl hrun ?_
      rw [hchecked, checkCmd_pass hc]
      simp only [dispatch, hop]
      exact cmdLock_read hop ..
    · refine reaches_of_guard rfl hrun ?_
      rw [hchecked, checkCmd_fail hc]
      refine ⟨decideCmd_decided (x := { x with bytes := b, cid := BitVec.ofNat 16 (leField b 2 2) })
        (by simp [slotGet, slotPut]) (by simp [hstage]) hfirst fun _ => hmode, ?_⟩
      exact Local.commandFrame (decideCmd_local ..)

end Sys2Proof.Machine
end

section
/-! The effects of the queue commands: decisions, data transfers, seals, flushes and whistles (R225 to R227, R278 to R285). -/

namespace Sys2Proof.Machine
open Sys2Proof.Safety

theorem cmdAt_some {i : Nat} {x : Slot} {c : Cmd} {s : State} {op : Opcode} {stages : List Stage} (hx : slotGet i s = some x)
    (hc : x.cmd = some c) (hop : c.op = op) (hstage : x.stage ∈ stages) : cmdAt i op stages s = some (x, c) := by
  simp [cmdAt, hx, hc, hop, hstage]

/-- A tile all of whose wanted sectors the journal, with no bad page that counts, and canvas memory hold is there at once. -/
theorem currentTile_held {a : Fin 4} {tile : Nat} {want : BitVec 8} {s : State}
    (hgood : badCovers (tileCover a tile s) (want &&& ~~~ (cached a tile s).1) = [])
    (hheld : want &&& ~~~ (coverMask (tileCover a tile s) ||| (cached a tile s).1) = 0) (p : Payer) (w : Work) :
    ∃ d, currentTile p w a tile want s = (.got d, false, s) := by
  simp only [currentTile, hgood, coveredTile, hheld, if_true]
  exact ⟨_, rfl⟩

/-- A READ whose tile is there goes on in the same state. -/
theorem readGo_held {i : Nat} {x : Slot} {c : Cmd} {s : State} (hside : c.dptr ≠ .fifo)
    (hgood : badCovers (tileCover (cmdArray c s) (readTile x c s) s)
      (readMask c (readTile x c s) s &&& ~~~ (cached (cmdArray c s) (readTile x c s) s).1) = [])
    (hheld : readMask c (readTile x c s) s &&& ~~~ (coverMask (tileCover (cmdArray c s) (readTile x c s) s) |||
      (cached (cmdArray c s) (readTile x c s) s).1) = 0) : readGo i x c s = slotPut i x s := by
  obtain ⟨d, hneed⟩ := currentTile_held hgood hheld (cmdPayer x) (.cmd i)
  simp [readGo, readNeed, hneed, hside, readRetouched]

/-- A READ or WRITE outside the FIFO is active with one transfer of its bytes in line. -/
theorem startData_transfer {i : Nat} {x : Slot} {c : Cmd} {s : State} (hside : c.dptr ≠ .fifo) : startData i x c s =
    if c.op == .write then xferNew (.data i true) (sqStudio x.sq) c.side .device (512 * c.nlb) (slotPut i { x with stage := .active } s)
    else xferNew (.data i false) (sqStudio x.sq) .device c.side (512 * c.nlb) (slotPut i { x with stage := .active } s) := by
  cases h : c.dptr with
  | fifo => exact absurd h hside
  | flat => simp [startData, h]
  | list => simp [startData, h]
  | loops => simp [startData, h]

/-- The flush or the TRIM of a record that a FLUSH covers goes on. -/
def coveredFlush (x : Slot) (s : State) (e : Nat × Rec) : State :=
  if x.covers.contains e.2.cseq then (if e.2.kind == .trim then trimApply e.1 s else flushRec e.2 s) else s

theorem coveredFlush_onlyFlushes (x : Slot) (s : State) (e : Nat × Rec) : OnlyFlushes s (coveredFlush x s e) := by
  unfold coveredFlush
  split
  · split
    · exact trimApply_onlyFlushes ..
    · exact flushRec_onlyFlushes ..
  · exact .refl s

/-- The seal of a record is asked for with the next CSEQ, outside FAILSTOP. -/
theorem reqSeal_eq (owner : Option Nat) (slot : Nat) (r : Rec) {s : State} (h : s.restart.level ≠ .failstop) :
    reqSeal owner slot r s = { s with
      nv := { s.nv with prog := s.nv.prog ++
        [.record owner slot { r with cseq := s.skb.cseq, sealTick := s.clk.tick.truncate 32 }] }
      skb := { s.skb with cseq := s.skb.cseq + 1 } } :=
  if_neg (by simpa using h)

theorem allocRec_writes {k : Nat} {s u : State} (h : allocRec s = some (k, u)) :
    u = { s with skb := { s.skb with lastRec := k } } := by
  obtain ⟨j, -, hj⟩ := Option.map_eq_some_iff.mp h
  obtain ⟨rfl, rfl⟩ := Prod.mk.inj hj
  rfl

/-- Settles O29. -/
theorem dataCommandsStart : Obligations.DataCommandsStart := by
  unfold Obligations.DataCommandsStart
  intro s i x c hrun hx hc
  have hdecide (status detail : Byte) (result : Word) (hstage : x.stage ≠ .done ∧ x.stage ≠ .behind ∧ x.stage ≠ .held)
      (hfirst : (sqGet x.sq s).first = none) (herr : isError status = false ∨ (sqGet x.sq s).errMode = false) :
      decided i status detail result (decideCmd i status detail result s) ∧
        commandFrame s (decideCmd i status detail result s) :=
    ⟨decideCmd_decided hx hstage hfirst fun h => herr.resolve_left (by simp [h]), (decideCmd_local ..).commandFrame⟩
  have hinternal (result : Word) (hstage : x.stage = .active) (hfirst : (sqGet x.sq s).first = none)
      (hmode : (sqGet x.sq s).errMode = false) :
      decided i stInternal 0 result (decideCmd i stInternal 0 result (internalNote x s)) ∧
        commandFrame s (decideCmd i stInternal 0 result (internalNote x s)) :=
    ⟨decideCmd_decided (x := x) (by simpa [slotGet, internalNote] using hx) (by simp [hstage])
      (by simpa [sqGet, internalNote] using hfirst) (fun _ => by simpa [sqGet, internalNote] using hmode),
      ((decideCmd_local ..).trans (internalNote_local ..)).commandFrame⟩
  refine ⟨fun hop hstage hfirst => ?_, fun hop hstage hside hmoved hending hgood hheld => ?_, fun hop hstage hside => ?_,
    fun hop hstage hfirst hmode => ?_, fun hop hstage hending hfifo hfirst hmode => ?_, fun k u hop hstage hrec => ?_,
    fun hop hstage => ?_, fun hop hstage hlive hfirst => ?_, fun hop hstage => ?_,
    fun hop hstage hposted hab htails hfirst => ?_, fun hop hstage hposted hab hmode hfirst => ?_,
    fun new n hop hstage hcur hstripe hholds hwaits => ?_, fun hop hstage hcur hstripe hfirst => ?_⟩
  · refine reaches_of_guard rfl hrun ?_
    simp only [nopRun, cmdAt_some hx hc hop (stages := [.ready]) (by simp [hstage])]
    exact hdecide _ _ _ (by simp [hstage]) hfirst (.inl (by decide))
  · refine reaches_of_guard rfl hrun ?_
    have hstart := startData_transfer (i := i) (x := x) (s := s) hside
    rw [if_neg (by simp [hop])] at hstart
    have hwait := xferNew_waiting (.data i false) (sqStudio x.sq) .device c.side (512 * c.nlb) (slotPut i { x with stage := .active } s)
    have hu := xferNew_writes (.data i false) (sqStudio x.sq) .device c.side (512 * c.nlb) (slotPut i { x with stage := .active } s)
    have hgo : readRun i s = readGo i { x with stage := .active } c (startData i x c s) := by
      have hslot : slotGet i (startData i x c s) = some { x with stage := .active } := by
        rw [hstart, hu]
        exact kget_kput_same ..
      simp only [readRun, cmdAt_some hx hc hop (stages := [.ready]) (by simp [hstage]),
        cmdAt_some hslot hc hop (stages := [.active]) (by simp), hending, Option.isSome_none, Bool.false_eq_true, if_false]
    rw [hgo, hstart]
    generalize xferNew (.data i false) (sqStudio x.sq) .device c.side (512 * c.nlb) (slotPut i { x with stage := .active } s) = u
      at hwait hu
    have htile : readTile { x with stage := .active } c u = cmdStart c s / 8 := by
      rw [hu]
      simp only [readTile, hmoved, Nat.add_zero]
      rfl
    rw [readGo_held hside (by rw [htile, hu]; exact hgood) (by rw [htile, hu]; exact hheld)]
    exact ⟨kget_kput_same .., by simp [slotPut, hwait], by simp [slotPut, hwait], by rw [hu]; rfl⟩
  · refine reaches_of_guard rfl hrun ?_
    have hstart : writeRun i s = startData i x c s := by
      simp only [writeRun, cmdAt_some hx hc hop (stages := [.ready]) (by simp [hstage])]
    rw [hstart, startData_transfer hside, if_pos (by simp [hop]), xferNew_waiting]
    rw [xferNew_writes]
    exact ⟨kget_kput_same .., by simp [slotPut], by simp [slotPut], rfl⟩
  · refine reaches_of_guard rfl hrun ?_
    have hfail : writeInternal i s = decideCmd i stInternal 0 0 (internalNote x s) := by
      simp only [writeInternal, cmdAt_some hx hc hop (stages := [.active]) (by simp [hstage])]
      rfl
    change decided i stInternal 0 0 (writeInternal i s) ∧ commandFrame s (writeInternal i s)
    rw [hfail]
    exact hinternal _ hstage hfirst hmode
  · refine reaches_of_guard rfl hrun ?_
    have hfail : readFault i true s = decideCmd i stInternal 0 (BitVec.ofNat 32 x.moved) (internalNote x s) := by
      have hslot : slotGet i (internalNote x s) = some x := by simpa [slotGet, internalNote] using hx
      have hempty : fifoLoaded i (internalNote x s) = false := by simpa [fifoLoaded, internalNote] using hfifo
      simp [readFault, cmdAt_some hx hc hop (stages := [.active]) (by simp [hstage]), endCmd, hslot, hending, hempty]
    change decided i stInternal 0 _ (readFault i true s) ∧ commandFrame s (readFault i true s)
    rw [hfail]
    exact hinternal _ hstage hfirst hmode
  · refine reaches_of_guard rfl hrun ?_
    simp only [trimRun, cmdAt_some hx hc hop (stages := [.ready]) (by simp [hstage]), hrec]
    obtain ⟨l, rfl⟩ := allocRec_writes hrec
    have hlevel : s.restart.level ≠ .failstop := by
      simp only [queuesRun, atLevel2, Bool.and_eq_true, beq_iff_eq] at hrun
      simp [hrun.2]
    rw [reqSeal_eq _ _ _ (by exact hlevel)]
    exact ⟨rfl, rfl, kget_kput_same .., rfl⟩
  · refine reaches_of_guard rfl hrun ?_
    have hfold : flushRun i s = (liveRecs s).foldl (coveredFlush x) (slotPut i { x with stage := .waiting } s) := by
      simp only [flushRun, cmdAt_some hx hc hop (stages := [.ready]) (by simp [hstage])]
      rfl
    obtain ⟨l, n, hflush⟩ := OnlyFlushes.foldl (coveredFlush_onlyFlushes x) (liveRecs s) (slotPut i { x with stage := .waiting } s)
    rw [hfold]
    refine ⟨by rw [hflush], by rw [hflush]; rfl, fun hnone => ?_, by rw [hflush]; rfl⟩
    have hsame (e : Nat × Rec) : coveredFlush x (slotPut i { x with stage := .waiting } s) e = slotPut i { x with stage := .waiting } s := by
      simp [coveredFlush, hnone]
    rw [List.foldl_fixed' hsame]
    rfl
  · refine reaches_of_guard rfl hrun ?_
    have hnone : ((liveRecs s).any fun e => x.covers.contains e.2.cseq) = false := by simpa using hlive
    simp only [flushComplete, cmdAt_some hx hc hop (stages := [.waiting]) (by simp [hstage]), hnone, Bool.false_eq_true, if_false]
    exact hdecide _ _ _ (by simp [hstage]) hfirst (.inl (by decide))
  · refine reaches_of_guard rfl hrun ?_
    simp only [whistleRun, cmdAt_some hx hc hop (stages := [.ready]) (by simp [hstage])]
  · refine reaches_of_guard rfl hrun ?_
    have hall : (x.tails.all fun t => t.1 == x.sq || (sqGet t.1 s).fetch == t.2) = true := by simpa using htails
    simp only [whistleComplete, cmdAt_some hx hc hop (stages := [.waiting]) (by simp [hstage]), hposted, hab, hall, if_true,
      Bool.false_eq_true, if_false]
    exact hdecide _ _ _ (by simp [hstage]) hfirst (.inl (by decide))
  · refine reaches_of_guard rfl hrun ?_
    simp only [whistleComplete, cmdAt_some hx hc hop (stages := [.waiting]) (by simp [hstage]), hposted, hab, if_true]
    exact hdecide _ _ _ (by simp [hstage]) hfirst (.inr hmode)
  · refine reaches_of_guard rfl hrun ?_
    simp only [verifyRun, cmdAt_some hx hc hop (stages := [.ready, .active]) (by simp [hstage]), hcur, hstripe, Option.orElse]
    have hholds' (k : Slot) : holds (.cmd i) .child (slotPut i k s) = false := hholds
    have hwaits' (k : Slot) : waits (.cmd i) .child (slotPut i k s) = false := hwaits
    simp only [verifyLocked, hholds', hwaits', Bool.false_eq_true, if_false]
    obtain ⟨place, hmem⟩ := lockRequest_mem { stripeLock (cmdArray c s) new n .child (.cmd i) s with sq := x.sq.val }
      (slotPut i { x with stage := .active, vcur := some (new, n) } s)
    exact ⟨kget_kput_same .., ⟨_, hmem, rfl⟩, rfl⟩
  · refine reaches_of_guard rfl hrun ?_
    simp only [verifyRun, cmdAt_some hx hc hop (stages := [.ready, .active]) (by simp [hstage]), hcur, hstripe, Option.orElse]
    exact hdecide _ _ _ (by simp [hstage]) hfirst (.inl (by cases x.retouched <;> rfl))

end Sys2Proof.Machine
end

section
/-! The part's tenures of the host bus and its DMA channels: cycles, kicks, the pause and placement (R202 to R204, R234, R246,
R247, R257). -/

namespace Sys2Proof.Machine
open Sys2Proof.Safety

/-! ## Tenures -/

/-- While its work needs the bus a tenure goes on, and HB_BREQ_N stays released. -/
theorem busRefresh_tenured {s : State} (hwant : busWanted s = true) (hten : s.hbu.tenure.isSome = true) :
    busRefresh s = { s with hbu := { s.hbu with breq := false } } := by
  obtain ⟨n, hn⟩ := Option.isSome_iff_exists.mp hten
  simp [busRefresh, hwant, hn]

/-- Where no work needs the bus, no tenure goes on and HB_BREQ_N is released. -/
theorem busRefresh_unwanted {s : State} (hwant : busWanted s = false) :
    busRefresh s = { s with hbu := { s.hbu with tenure := none, breq := false } } := by
  simp [busRefresh, hwant]

theorem busRefresh_released {s : State} (hwant : busWanted s = false) : (busRefresh s).hbu.breq = false := by
  rw [busRefresh_unwanted hwant]

/-- Without a tenure only HB_BREQ_N follows the work. -/
theorem busRefresh_idle {s : State} (h : s.hbu.tenure = none) :
    busRefresh s = { s with hbu := { s.hbu with breq := (busRefresh s).hbu.breq } } := by
  simp [busRefresh, h]

theorem busRefresh_gap {s : State} (h : s.hbu.gap = true) : (busRefresh s).hbu.breq = false := by
  simp [busRefresh, h]

theorem busWanted_access {s : State} {a : Access} (h : s.hbu.access = some a) : busWanted s = true := by
  simp [busWanted, h]

/-- An access whose next cycle the regions allow goes on. -/
theorem accessOn_next {s : State} {a : Access} {h : MCycle} {l : List MCycle} (hacc : s.hbu.access = some a)
    (hcyc : a.cycles = h :: l) (hen : s.hbu.masterEn = true) (hreg : regionAllows a.behalf h.addr s = true) : accessOn s = s := by
  simp [accessOn, hacc, hcyc, hen, hreg]

theorem accessOn_none {s : State} (h : s.hbu.access = none) : accessOn s = s := by
  simp [accessOn, h]

/-- One cycle of the access under way has run, before what follows it. -/
def cycleRan (a : Access) (h : MCycle) (l : List MCycle) (s : State) : State :=
  { s with hbu := { s.hbu with
    access := some { a with cycles := l, wrote := a.wrote ++ h.cells }
    lastWrite := if h.out.isSome then a.wrote ++ h.cells else s.hbu.lastWrite } }

theorem cycleRun_eq {s : State} {a : Access} {h : MCycle} {l : List MCycle} (hacc : s.hbu.access = some a)
    (hcyc : a.cycles = h :: l) : cycleRun s = busRefresh (accessOn (tenureCycle (cycleRan a h l s))) := by
  simp only [cycleRun, hacc, hcyc]
  rfl

theorem tenureCycle_counts {s : State} {n : Nat} (hten : s.hbu.tenure = some n)
    (h : s.hbu.tenureMax = 0 ∨ n + 1 < 16 * s.hbu.tenureMax.toNat) :
    tenureCycle s = { s with hbu := { s.hbu with tenure := some (n + 1) } } := by
  have hmax : ¬(s.hbu.tenureMax ≠ 0 ∧ 16 * s.hbu.tenureMax.toNat ≤ n + 1) := by
    rintro ⟨hne, hle⟩
    exact h.elim hne (by omega)
  simp only [tenureCycle, hten]
  rw [if_neg (by simpa using hmax)]

theorem tenureCycle_ends {s : State} {n : Nat} (hten : s.hbu.tenure = some n) (hmax : s.hbu.tenureMax ≠ 0)
    (hle : 16 * s.hbu.tenureMax.toNat ≤ n + 1) :
    tenureCycle s = { s with hbu := { s.hbu with tenure := none, gap := s.hbu.releaseGap != 0 } } := by
  simp only [tenureCycle, hten]
  rw [if_pos (by simpa using ⟨hmax, hle⟩)]

theorem tenureCycle_writes (s : State) :
    ∃ n g, tenureCycle s = { s with hbu := { s.hbu with tenure := n, gap := g } } := by
  unfold tenureCycle
  split
  · exact ⟨_, _, rfl⟩
  · split
    · exact ⟨_, _, rfl⟩
    · exact ⟨_, _, rfl⟩

/-- A cycle that another follows, whose address the regions give, leaves the access under way. -/
theorem cycleRun_next {s : State} {a : Access} {h h2 : MCycle} {l : List MCycle} (hacc : s.hbu.access = some a)
    (hcyc : a.cycles = h :: h2 :: l) (hen : s.hbu.masterEn = true) (hreg : regionAllows a.behalf h2.addr s = true) :
    cycleRun s = busRefresh (tenureCycle (cycleRan a h (h2 :: l) s)) := by
  obtain ⟨n, g, hten⟩ := tenureCycle_writes (cycleRan a h (h2 :: l) s)
  rw [cycleRun_eq hacc hcyc, hten]
  exact congrArg busRefresh (accessOn_next rfl rfl hen hreg)

/-- Settles O31: what a refresh of HB_BREQ_N leaves, in each row. -/
theorem masterTenures : Obligations.MasterTenures := by
  unfold Obligations.MasterTenures
  intro s
  refine ⟨fun hrun hreq hen => ?_, fun hrun => ?_, fun n a h h2 l hrun hten hacc hcyc hen hreg => ?_, fun hidle => ?_,
    fun hrun => ?_⟩
  · exact reaches_of_guard rfl (by simp [hrun, hreq, hen]) rfl
  · refine reaches_of_guard rfl hrun ⟨?_, fun hwant => ?_⟩
    · simp [busRefresh]
    · exact busRefresh_released hwant
  · have hran := cycleRun_next hacc hcyc hen hreg
    have hten' : (cycleRan a h (h2 :: l) s).hbu.tenure = some n := hten
    refine ⟨fun hmax => ?_, fun hmax hle => ?_⟩
    · refine reaches_of_guard rfl (by simp [hrun, hten]) ?_
      rw [hran, tenureCycle_counts hten' hmax]
      exact busRefresh_tenured (busWanted_access rfl) rfl
    · refine reaches_of_guard rfl (by simp [hrun, hten]) ?_
      rw [hran, tenureCycle_ends hten' hmax hle]
      refine ⟨?_, fun hgap => ?_⟩
      · exact busRefresh_idle rfl
      · exact busRefresh_gap (bne_iff_ne.mpr hgap)
  · refine ⟨s, ?_, rfl⟩
    change execMasterCycle s = _
    rcases hidle with hten | hacc
    · simp [execMasterCycle, onlyIf, hten]
    · simp [execMasterCycle, onlyIf, cycleRun, hacc]
  · refine reaches_of_guard rfl hrun ⟨rfl, fun hwant => ?_⟩
    exact if_pos hwant

/-! ## Channels -/

/-- Of a fold that acts on one element of a list without repetitions, that action remains. -/
theorem foldl_single {α β : Type} {f : β → α → β} {p : α → Bool} {c : α} (hp : ∀ d, p d = true ↔ d = c) {l : List α}
    (hnodup : l.Nodup) (hmem : c ∈ l) (b : β) : l.foldl (fun b d => if p d then f b d else b) b = f b c := by
  have hskip (l : List α) (h : c ∉ l) (b : β) : l.foldl (fun b d => if p d then f b d else b) b = b := by
    induction l generalizing b with
    | nil => rfl
    | cons d t ih =>
      have hd : p d ≠ true := fun hd => h (by simp [(hp d).mp hd])
      rw [List.foldl_cons, if_neg hd, ih fun hmem => h (List.mem_cons_of_mem _ hmem)]
  induction l generalizing b with
  | nil => simp at hmem
  | cons d t ih =>
    obtain ⟨hd, ht⟩ := List.nodup_cons.mp hnodup
    rw [List.foldl_cons]
    rcases List.mem_cons.mp hmem with rfl | hmem
    · rw [if_pos ((hp c).mpr rfl), hskip t hd]
    · have hne : p d ≠ true := fun h => hd ((hp d).mp h ▸ hmem)
      rw [if_neg hne, ih ht hmem]

theorem oneHot_getLsbD16 (c d : Fin 16) : (BitVec.ofNat 16 (2 ^ c.val)).getLsbD d.val = true ↔ d = c := by
  revert c d
  decide +kernel

/-- A kick of a mask with one bit is a kick of that channel. -/
theorem kickAll_one (c : Fin 16) (s : State) : kickAll (BitVec.ofNat 16 (2 ^ c.val)) s = kick c s :=
  foldl_single (f := fun s c => kick c s) (fun d => oneHot_getLsbD16 c d) (List.nodup_finRange 16) (List.mem_finRange c) s

theorem softLook_eq {c : Fin 16} {s : State} : softLook c s = busRefresh (chanPut c { chanGet c s with
    look := true, state := if (chanGet c s).state == .halted then .idle else (chanGet c s).state } s) := rfl

/-- Settles O33. -/
theorem dmaControl : Obligations.DmaControl := by
  unfold Obligations.DmaControl
  intro s
  refine ⟨fun c hrun => ⟨fun hstate huser hen => ?_, fun hstate huser => ?_, fun hstate huser => ?_, fun hstate => ?_,
    fun hstate hlook => ?_⟩, fun hrun => ⟨?_, ?_⟩, fun x c hrun hx hc => ⟨fun d hd => ?_, ?_⟩⟩
  · refine reaches_of_guard rfl hrun ?_
    have hkick : kick c s = softLook c s := by
      rcases hstate with h | h
      · simp [kick, h, huser, hen]
      · simp [kick, h, huser, hen]
    have hstay : ((chanGet c s).state == ChanState.halted) = false := by
      rcases hstate with h | h
      · simp [h]
      · simp [h]
    rw [kickAll_one, hkick, softLook_eq, hstay]
    rfl
  · refine reaches_of_guard rfl hrun ?_
    have hkick : kick c s = softLook c s := by simp [kick, hstate, huser]
    rw [kickAll_one, hkick, softLook_eq, hstate]
    rfl
  · refine reaches_of_guard rfl hrun ?_
    rw [kickAll_one]
    simp [kick, hstate, huser, userQueue, userSoft]
  · refine reaches_of_guard rfl hrun ?_
    rw [kickAll_one]
    rcases hstate with h | h | h
    · simp [kick, h]
    · simp [kick, h]
    · simp [kick, h]
  · refine reaches_of_guard rfl (by simp [hrun, hstate, hlook]) ?_
    rw [softLook_eq, hstate]
    rfl
  · refine reaches_of_guard rfl hrun ⟨rfl, fun hacc => ?_⟩
    have hwant : busWanted { s with dma := { s.dma with en := false } } = false := by simp [busWanted, hacc]
    rw [dmaEnable, busRefresh_unwanted hwant]
    exact ⟨rfl, rfl⟩
  · exact reaches_of_guard rfl hrun rfl
  · obtain ⟨-, i, hi, hget, hbefore⟩ := List.find?_eq_some_iff_getElem.mp hc
    have hci : c.val = i := by simpa using congrArg Fin.val hget.symm
    have hd' : d.val < i := by omega
    rintro ⟨hen, huser, hstate, hcur⟩
    have hnot := hbefore d.val hd'
    simp [hen, huser, hstate, hcur] at hnot
  · have hexec : exec .dmaPlace s = .next (placeOn c x s) := by
      change execDmaPlace s = _
      simp [execDmaPlace, onlyIf, hrun, hx, hc]
    refine ⟨_, hexec, ?_, rfl, fun d hd => ?_, ?_⟩
    · exact chanGet_chanPut_same ..
    · exact chanGet_chanPut_ne (h := hd.symm) ..
    · rfl

end Sys2Proof.Machine
end

section
/-! Accesses by master cycles: bursts, list walks and the descriptors of software channels (R236 to R250). -/

namespace Sys2Proof.Machine
open Sys2Proof.Safety

/-! ## The cycles of a list of addresses (R239) -/

theorem runAfter_le (t : List Nat) (a : Nat) : runAfter a t ≤ t.length := by
  induction t generalizing a with
  | nil => exact le_rfl
  | cons b t ih =>
    unfold runAfter
    split
    · exact Nat.succ_le_succ (ih b)
    · exact Nat.zero_le _

/-- The addresses of a run are adjacent. -/
theorem take_of_le_runAfter {n : Nat} {t : List Nat} {a : Nat} (h : n ≤ runAfter a t + 1) :
    (a :: t).take n = (List.range n).map (a + ·) := by
  induction t generalizing a n with
  | nil =>
    have hn : n = 0 ∨ n = 1 := by simp [runAfter] at h; omega
    rcases hn with rfl | rfl
    · rfl
    · rfl
  | cons b t ih =>
    cases n with
    | zero => rfl
    | succ m =>
      rw [List.take_succ_cons, List.range_succ_eq_map, List.map_cons, List.map_map, Nat.add_zero]
      congr 1
      by_cases hb : b = a + 1
      · have hm : m ≤ runAfter b t + 1 := by simpa [runAfter, hb] using h
        rw [ih hm, hb]
        exact List.map_congr_left fun k _ => by simp only [Function.comp]; omega
      · have hm : m = 0 := by simpa [runAfter, hb] using h
        simp [hm]

theorem widthAt_pos (a : Nat) (s : State) : 1 ≤ widthAt a s := Nat.one_le_two_pow

/-- A cycle moves at least one byte, no more than the run and the width hold, and is aligned. -/
theorem cycleBytes_spec (w a run : Nat) (hw : 1 ≤ w) :
    1 ≤ cycleBytes w a run ∧ cycleBytes w a run ≤ max run 1 ∧ cycleBytes w a run ≤ w ∧ a % cycleBytes w a run = 0 := by
  unfold cycleBytes
  split
  · next h =>
    simp only [Bool.and_eq_true, decide_eq_true_eq] at h
    omega
  · split
    · next h =>
      simp only [Bool.and_eq_true, decide_eq_true_eq] at h
      omega
    · omega

/-- A write cycle of adjacent addresses puts each byte at its own. -/
theorem cells_write (a n : Nat) (l : List Byte) (h : l.length = n) :
    MCycle.cells ⟨a, n, some l⟩ = ((List.range n).map (a + ·)).zip l := by
  subst h
  refine List.ext_getElem (by simp [MCycle.cells]) fun k _ _ => ?_
  simp [MCycle.cells]

/-- The write cycles of addresses put each byte at its own. -/
theorem cells_putCycles (left : Nat → Nat) (s : State) (f k : Nat) (l : List Nat) (b : List Byte) (hf : l.length ≤ f)
    (hb : b.length = l.length) : (putCycles (cyclesFrom left s f k l) b).flatMap MCycle.cells = l.zip b := by
  induction f generalizing k l b with
  | zero =>
    have hl : l = [] := List.eq_nil_of_length_eq_zero (by omega)
    simp [hl, cyclesFrom, putCycles]
  | succ f ih =>
    cases l with
    | nil => simp [cyclesFrom, putCycles]
    | cons a t =>
      obtain ⟨hpos, hrun, -⟩ := cycleBytes_spec (widthAt a s) a (min (left k) (runAfter a t + 1)) (widthAt_pos a s)
      simp only [cyclesFrom, putCycles, List.flatMap_cons]
      generalize cycleBytes (widthAt a s) a (min (left k) (runAfter a t + 1)) = n at hpos hrun ⊢
      have hn : n ≤ runAfter a t + 1 := by omega
      have hlen : n ≤ t.length + 1 := hn.trans (Nat.succ_le_succ (runAfter_le t a))
      have hb' : b.length = t.length + 1 := hb
      have hf' : t.length ≤ f := Nat.le_of_succ_le_succ hf
      have htake : (b.take n).length = n := List.length_take_of_le (by omega)
      have hdrop : ((a :: t).drop n).length ≤ f := by rw [List.length_drop, List.length_cons]; omega
      rw [cells_write a n _ htake, ih _ _ _ hdrop (by rw [List.length_drop, List.length_drop, hb]),
        ← take_of_le_runAfter hn, ← List.zip_append (by rw [htake, List.length_take_of_le hlen]), List.take_append_drop,
        List.take_append_drop]

theorem mem_cyclesFrom (left : Nat → Nat) (s : State) (f k : Nat) (l : List Nat) (c : Nat × Nat)
    (h : c ∈ cyclesFrom left s f k l) : c.2 ≤ widthAt c.1 s ∧ c.1 % c.2 = 0 := by
  induction f generalizing k l with
  | zero => simp [cyclesFrom] at h
  | succ f ih =>
    cases l with
    | nil => simp [cyclesFrom] at h
    | cons a t =>
      obtain ⟨-, -, hwidth, halign⟩ := cycleBytes_spec (widthAt a s) a (min (left k) (runAfter a t + 1)) (widthAt_pos a s)
      rcases List.mem_cons.mp h with rfl | h
      · exact ⟨hwidth, halign⟩
      · exact ih _ _ h

theorem mem_putCycles {l : List (Nat × Nat)} {b : List Byte} {m : MCycle} (h : m ∈ putCycles l b) : (m.addr, m.n) ∈ l := by
  induction l generalizing b with
  | nil => simp [putCycles] at h
  | cons c t ih =>
    rcases List.mem_cons.mp h with rfl | h
    · exact List.mem_cons_self
    · exact List.mem_cons_of_mem _ (ih h)

theorem writeCycles_cells (d : Side) (k : Nat) (l : List Nat) (b : List Byte) (s : State) (h : b.length = l.length) :
    (writeCycles d k l b s).flatMap MCycle.cells = l.zip b :=
  cells_putCycles d.left s l.length k l b le_rfl h

/-! ## Accesses -/

/-- An access that begins on the part's bus, at an address that the regions give, is under way. -/
theorem accessBegun_begins {s : State} {a : Access} (hacc : s.hbu.access = some a) (hen : s.hbu.masterEn = true)
    (hten : s.hbu.tenure.isSome = true) (hbegin : beginsAt a.behalf a.cycles s) :
    accessBegun s = { s with hbu := { s.hbu with breq := false } } := by
  obtain ⟨h, hhead, hreg⟩ := hbegin
  obtain ⟨l, hl⟩ := List.head?_eq_some_iff.mp hhead
  rw [accessBegun, accessOn_next hacc hl hen hreg, busRefresh_tenured (busWanted_access hacc) hten]

theorem accessBegun_none {s : State} (h : s.hbu.access = none) : accessBegun s = busRefresh s := by
  rw [accessBegun, accessOn_none h]

/-- The access whose last cycle has run. -/
def spent (a : Access) (h : MCycle) : Access := { a with cycles := [], wrote := a.wrote ++ h.cells }

/-- The state after the last cycle of an access, before what it does. -/
def ranOut (a : Access) (h : MCycle) (s : State) : State :=
  let u := tenureCycle (cycleRan a h [] s)
  { u with hbu := { u.hbu with access := none } }

theorem ranOut_writes (a : Access) (h : MCycle) (s : State) : ∃ n g, ranOut a h s = { s with hbu := { s.hbu with
    access := none, tenure := n, gap := g, lastWrite := if h.out.isSome then a.wrote ++ h.cells else s.hbu.lastWrite } } := by
  obtain ⟨n, g, hten⟩ := tenureCycle_writes (cycleRan a h [] s)
  exact ⟨n, g, by rw [ranOut, hten]; rfl⟩

theorem boundary_calm {c : Fin 16} {s : State} (h : (chanGet c s).state ≠ .stopping) : boundary c s = busRefresh s := by
  simp [boundary, h]

theorem lastCycle_calm {a : Access} {h : MCycle} {s : State} (hlast : lastCycle a h s) :
    (chanGet a.chan s).state ≠ .stopping := by
  obtain ⟨-, -, -, -, hcalm⟩ := hlast
  exact hcalm

/-- With its last cycle an access does what it is for. -/
theorem masterCycle_last {a : Access} {h : MCycle} {s v : State} (hlast : lastCycle a h s)
    (hplace : accessStuck (spent a h) (tenureCycle (cycleRan a h [] s)) = false)
    (hdone : accessDone (spent a h) (ranOut a h s) = v) (hcalm : (chanGet a.chan v).state ≠ .stopping) :
    exec .masterCycle s = .next (busRefresh (busRefresh v)) := by
  obtain ⟨hrun, hten, hacc, hcyc, -⟩ := hlast
  have hended : accessOn (tenureCycle (cycleRan a h [] s)) = busRefresh v := by
    obtain ⟨n, g, hwrites⟩ := tenureCycle_writes (cycleRan a h [] s)
    have haccess : (tenureCycle (cycleRan a h [] s)).hbu.access = some (spent a h) := by rw [hwrites]; rfl
    have hon : accessOn (tenureCycle (cycleRan a h [] s)) =
        boundary a.chan (accessDone (spent a h) (ranOut a h s)) := by
      simp only [accessOn, haccess, spent, ranOut] at hplace ⊢
      rw [if_neg (by simpa [haccess] using hplace)]
    rw [hon, hdone, boundary_calm hcalm]
  change execMasterCycle s = _
  simp only [execMasterCycle, onlyIf, hrun, hten, Bool.and_self, if_true, cycleRun_eq hacc hcyc, hended]

/-- With its last cycle an access does what it is for, and shows it; of the bus only HB_BREQ_N and the tenure follow. -/
theorem masterCycle_does {a : Access} {h : MCycle} {s v : State} (hlast : lastCycle a h s)
    (hplace : accessStuck (spent a h) (tenureCycle (cycleRan a h [] s)) = false)
    (hdone : accessDone (spent a h) (ranOut a h s) = v) (hcalm : (chanGet a.chan v).state ≠ .stopping)
    (hhbu : ∃ al, v.hbu = { (ranOut a h s).hbu with aliases := al })
    (hothers : ∀ d, d ≠ a.chan → chanGet d v = chanGet d (ranOut a h s)) :
    reaches .masterCycle s fun t => accessEnded a h s t ∧
      t = { v with hbu := { v.hbu with tenure := t.hbu.tenure, breq := t.hbu.breq } } := by
  refine ⟨_, masterCycle_last hlast hplace hdone hcalm, ?_, rfl⟩
  obtain ⟨al, hal⟩ := hhbu
  obtain ⟨n, g, hran⟩ := ranOut_writes a h s
  rw [hran] at hal hothers
  change v.hbu.access = none ∧ v.hbu.mailbox = _ ∧ v.hbu.ringSram = _ ∧ v.hbu.lastWrite = _ ∧ ∀ d, _ → chanGet d v = _
  rw [hal]
  exact ⟨rfl, rfl, rfl, rfl, hothers⟩

/-- With its last cycle an access that only changes its channel leaves the rest as it is. -/
theorem masterCycle_chanPut {a : Access} {h : MCycle} {s : State} {k : Chan} (hlast : lastCycle a h s)
    (hplace : accessStuck (spent a h) (tenureCycle (cycleRan a h [] s)) = false)
    (hdone : accessDone (spent a h) (ranOut a h s) = chanPut a.chan k (ranOut a h s)) (hcalm : k.state ≠ .stopping) :
    reaches .masterCycle s fun t => chanGet a.chan t = k ∧ accessEnded a h s t ∧ t = { s with dma := t.dma, hbu := t.hbu } := by
  obtain ⟨t, hexec, hend, ht⟩ := masterCycle_does hlast hplace hdone (by rwa [chanGet_chanPut_same]) ⟨_, rfl⟩
    fun d hd => chanGet_chanPut_ne (h := hd.symm) ..
  obtain ⟨n, g, hran⟩ := ranOut_writes a h s
  refine ⟨t, hexec, ?_, hend, ?_⟩
  · rw [ht]
    exact chanGet_chanPut_same ..
  · rw [ht, hran]
    rfl

/-! ## Faults of a software transfer -/

theorem noteFault_writes (c : Fin 16) (status detail : Byte) (s : State) : noteFault c status detail s = { s with
    dma := { s.dma with
      chans := s.dma.chans.set c { chanGet c s with lastStatus := status, lastDetail := detail }, faultSeen := true }
    log := (noteFault c status detail s).log, ring := (noteFault c status detail s).ring
    nv := (noteFault c status detail s).nv } := by
  apply State.ext <;> simp [noteFault, chanPut]

/-- A software transfer that faults has ended with that status; its channel shows it, and the note is counted. -/
theorem xferFault_soft {c : Fin 16} {s : State} {x : Xfer} {i : Nat} {tag : Word} {irq stop : Bool} (status detail : Byte)
    (hcur : (chanGet c s).cur = some x) (hkind : x.kind = .soft i tag irq stop) :
    let t := xferFault c status detail s
    chanGet c t = { chanGet c s with
      lastStatus := status, lastDetail := detail, cur := some { x with ended := some (status, detail) } } ∧
    t.dma.faultSeen = true ∧ (∀ d, d ≠ c → chanGet d t = chanGet d s) ∧
    (∀ n, n ≠ 0 → n ≠ 0x20 → counterGet n t = counterGet n s) ∧
    t = { s with dma := t.dma, log := t.log, ring := t.ring, nv := t.nv } := by
  have hfault : xferFault c status detail s = chanPut c { chanGet c (noteFault c status detail s) with
      cur := some { x with ended := some (status, detail) } } (noteFault c status detail s) := by
    simp only [xferFault, hcur, hkind]
  have hnote := noteFault_writes c status detail s
  have hcount (n : Nat) (h0 : n ≠ 0) (h : n ≠ 0x20) : counterGet n (noteFault c status detail s) = counterGet n s := by
    change counterGet n (logRec .dmaFault _ (chanPut c _ s)) = _
    rw [counterGet_logRec _ _ _ _ h0, if_neg (by simpa [Code.info] using h.symm)]
    rfl
  simp only [hfault]
  generalize noteFault c status detail s = u at hnote hcount
  have hchan : chanGet c u = { chanGet c s with lastStatus := status, lastDetail := detail } := by
    rw [hnote]
    exact chanGet_chanPut_same ..
  refine ⟨by rw [chanGet_chanPut_same, hchan], by rw [hnote]; rfl, fun d hd => ?_, hcount, by rw [hnote]; rfl⟩
  rw [chanGet_chanPut_ne (h := hd.symm), hnote]
  exact chanGet_chanPut_ne (h := hd.symm) ..

/-! ## Bursts and list walks -/

theorem busTaken_of_ours {s : State} (h : busOurs s) : busTaken s = true := by
  obtain ⟨-, -, -, hten, hacc⟩ := h
  simp [busTaken, hten, hacc]

/-- The access of a channel's transfer begins. -/
theorem accessBegun_xferAccess {s : State} {l : List MCycle} {x : Xfer} (hours : busOurs s) (hbegin : beginsAt x.behalf l s)
    (c : Fin 16) (k : AccessKind) : accessBegun (xferAccess c x k l s) = { s with hbu := { s.hbu with
      access := some { chan := c, behalf := x.behalf, xfer := some x.id, kind := k, cycles := l }, breq := false } } := by
  obtain ⟨-, -, hmaster, hten, -⟩ := hours
  exact accessBegun_begins (s := xferAccess c x k l s) rfl hmaster hten hbegin

/-- The first channel of an order with a burst ready takes it. -/
theorem burstPick_find {data : List Byte} {s u : State} {c : Fin 16} {l : List (Fin 16)}
    (hfind : l.find? (fun d => (burstOf d data s).isSome) = some c) (hburst : burstOf c data s = some u) :
    burstPick data s l = burstTurn c u := by
  induction l with
  | nil => simp at hfind
  | cons d t ih =>
    cases hd : burstOf d data s with
    | none =>
      rw [burstPick, hd]
      exact ih (by simpa [hd] using hfind)
    | some v =>
      obtain rfl : d = c := by simpa [hd] using hfind
      simp [burstPick, hburst]

theorem burstTurn_writes (c : Fin 16) (s : State) : ∃ p o, burstTurn c s = { s with dma := { s.dma with rrPal := p, rrOther := o } } := by
  unfold burstTurn
  split
  · exact ⟨_, _, rfl⟩
  · exact ⟨_, _, rfl⟩

/-- The burst of a software transfer begins with its read cycles and its write cycles. -/
theorem burstOf_soft {c : Fin 16} {data out : List Byte} {s : State} {x : Xfer} {i : Nat} {tag : Word} {irq stop : Bool}
    {src dst : List Nat} (hours : busOurs s) (hcur : (chanGet c s).cur = some x) (hkind : x.kind = .soft i tag irq stop)
    (hended : x.ended = none) (hdesc : x.hasDesc = true) (hsrc : x.src.addrs x.pos x.burst = some src)
    (hdst : x.dst.addrs x.pos x.burst = some dst) (hout : burstOut x x.burst data s = some out) :
    burstOf c data s = some (xferAccess c x (.burst out)
      (readCycles x.src x.pos src s ++ writeCycles x.dst x.pos dst out s) s) := by
  have hmoves : x.moves = true := by simp [Xfer.moves, hkind, hended]
  have hplace : (burstIn x out s).isNone = false := by simp [burstIn, hkind]
  have htaken := busTaken_of_ours hours
  obtain ⟨-, -, hen, -⟩ := hours
  simp [burstOf, hcur, hdesc, hmoves, hen, htaken, hsrc, hdst, hout, hplace]

/-- A software transfer after a burst. -/
theorem burstDone_soft {c : Fin 16} {x : Xfer} {l : List Byte} {s : State} {i : Nat} {tag : Word} {irq stop : Bool}
    (hcur : (chanGet c s).cur = some x) (hkind : x.kind = .soft i tag irq stop) (hended : x.ended = none) :
    burstDone c x l s = chanPut c { chanGet c s with
      bytes := ctrAdd (chanGet c s).bytes x.burst
      cur := some { x with
        pos := x.pos + x.burst, src := x.src.moved x.burst, dst := x.dst.moved x.burst
        ended := if x.pos + x.burst < x.length then none else some (stOk, 0) } } s := by
  simp only [burstDone, burstIn, burstSent, burstCount, hkind, chanGet_chanPut_same, hcur]
  split
  · simp [hended, chanPut]
  · simp [chanPut]

theorem listEntry_data {next links : Nat} {l : List Byte} (hhigh : leField l 3 1 = 0) (hkind : leField l 7 1 = 0)
    (hlen : leField l 4 3 ≠ 0) (hend : leField l 0 3 + leField l 4 3 ≤ 0x1000000) :
    listEntry next [] links l = .inr (.list (next + 8) [(leField l 0 3, leField l 4 3)] 0) := by
  have hin : ¬0xFFFFFF < leField l 0 3 + leField l 4 3 - 1 := by omega
  simp [listEntry, hhigh, hkind, hlen, hin]

theorem listEntry_link {next links : Nat} {l : List Byte} (hhigh : leField l 3 1 = 0) (hkind : leField l 7 1 = 128)
    (hlen : leField l 4 3 = 0) (hlinks : links < 8) :
    listEntry next [] links l = .inr (.list (leField l 0 3) [] (links + 1)) := by
  have hfew : ¬8 < links + 1 := by omega
  simp [listEntry, hhigh, hkind, hlen, hfew]

theorem listEntry_reserved {next links : Nat} {l : List Byte} (hhigh : leField l 3 1 ≠ 0) :
    listEntry next [] links l = .inl (stBadField, dtListEntry) := by
  simp [listEntry, hhigh]

/-- Settles O34. -/
theorem burstsMoveBytes : Obligations.BurstsMoveBytes := by
  unfold Obligations.BurstsMoveBytes
  refine ⟨fun d k l b s hb => ⟨writeCycles_cells d k l b s hb, fun m hm => mem_cyclesFrom _ _ _ _ _ _ (mem_putCycles hm)⟩,
    fun s data c x i tag irq stop src dst out hours hfind hcur hkind hended hdesc hstate hsrc hdst hout hbegin => ?_,
    fun s a h x i tag irq stop l hlast hakind hxfer hcur hkind hended => ?_,
    fun s c l x next links hours hcur hsrc hdesc hmoves hpos hstate halign hbegin => ?_,
    fun s a h x l next links i tag irq stop hlast hakind hxfer hcur hsrc hkind hended => ?_⟩
  · have hburst := burstOf_soft hours hcur hkind hended hdesc hsrc hdst hout
    obtain ⟨p, o, hturn⟩ := burstTurn_writes c (xferAccess c x (.burst out)
      (readCycles x.src x.pos src s ++ writeCycles x.dst x.pos dst out s) s)
    obtain ⟨hrun, hen, hmaster, hten, -⟩ := hours
    refine reaches_of_guard rfl (by simp [hrun, hen]) ?_
    dsimp only
    rw [burstPick_find hfind hburst, accessBegun_begins (s := burstTurn c _) (by rw [hturn]; rfl) (by rw [hturn]; exact hmaster)
      (by rw [hturn]; exact hten) (by rw [hturn]; exact hbegin), hturn]
    rfl
  · obtain ⟨n, g, hran⟩ := ranOut_writes a h s
    have hcur' : (chanGet a.chan (ranOut a h s)).cur = some x := by rw [hran]; exact hcur
    have hleft : x.leftover (ranOut a h s) = false := by simp [Xfer.leftover, hkind]
    have hdone : accessDone (spent a h) (ranOut a h s) = burstDone a.chan x l (ranOut a h s) := by
      simp [accessDone, spent, hcur', hxfer, hleft, hakind]
    rw [burstDone_soft hcur' hkind hended] at hdone
    have hplace : accessStuck (spent a h) (tenureCycle (cycleRan a h [] s)) = false := by
      obtain ⟨n, g, hten⟩ := tenureCycle_writes (cycleRan a h [] s)
      have hcur'' : (chanGet a.chan (tenureCycle (cycleRan a h [] s))).cur = some x := by rw [hten]; exact hcur
      simp [accessStuck, spent, hakind, hcur'', burstIn, hkind]
    have hchan : chanGet a.chan (ranOut a h s) = chanGet a.chan s := by rw [hran]; rfl
    have hcalm := lastCycle_calm hlast
    rw [hchan] at hdone
    exact masterCycle_chanPut hlast hplace hdone hcalm
  · have htaken := busTaken_of_ours hours
    have hbegun := accessBegun_xferAccess hours hbegin c (.entry false l.toList)
    obtain ⟨hrun, hen, hmaster, -⟩ := hours
    refine reaches_of_guard rfl (by simp [hrun, hen]) ?_
    obtain ⟨n, hn⟩ : ∃ n, x.burst = n + 1 := ⟨x.burst - 1, by simp only [Xfer.burst]; omega⟩
    have hruns : (runAddrs [] x.burst).isSome = false := by simp [hn, runAddrs]
    have hread : listRead c false l.toList s = xferAccess c x (.entry false l.toList) (readCycles .device 0 ((List.range 8).map (next + ·)) s) s := by
      simp [listRead, hcur, Xfer.side, hsrc, hdesc, hmoves, hruns, halign, hmaster, htaken]
    dsimp only
    rw [hread, hbegun]
  · obtain ⟨n, g, hran⟩ := ranOut_writes a h s
    have hcur' : (chanGet a.chan (ranOut a h s)).cur = some x := by rw [hran]; exact hcur
    have hchan : chanGet a.chan (ranOut a h s) = chanGet a.chan s := by rw [hran]; rfl
    have hleft : x.leftover (ranOut a h s) = false := by simp [Xfer.leftover, hkind]
    have hplace : accessStuck (spent a h) (tenureCycle (cycleRan a h [] s)) = false := by simp [accessStuck, spent, hakind]
    have hdone : accessDone (spent a h) (ranOut a h s) = entryDone a.chan x false l (ranOut a h s) := by
      simp [accessDone, spent, hcur', hxfer, hleft, hakind]
    have hcalm := lastCycle_calm hlast
    have hgoes {d : Side} (hentry : listEntry next [] links l = .inr d) : accessDone (spent a h) (ranOut a h s) =
        chanPut a.chan { chanGet a.chan s with cur := some { x with src := d } } (ranOut a h s) := by
      rw [hdone, ← hchan]
      simp [entryDone, Xfer.side, hsrc, hentry, Xfer.withSide]
    refine ⟨fun hhigh hbyte hlen hend => masterCycle_chanPut hlast hplace (hgoes (listEntry_data hhigh hbyte hlen hend)) hcalm,
      fun hhigh hbyte hlen hlinks => masterCycle_chanPut hlast hplace (hgoes (listEntry_link hhigh hbyte hlen hlinks)) hcalm,
      fun hhigh => ?_⟩
    have hfault : accessDone (spent a h) (ranOut a h s) = xferFault a.chan stBadField dtListEntry (ranOut a h s) := by
      rw [hdone]
      simp [entryDone, Xfer.side, hsrc, listEntry_reserved hhigh]
    obtain ⟨hends, hseen, hothers, -, hrest⟩ := xferFault_soft stBadField dtListEntry hcur' hkind
    rw [← hfault] at hends hseen hothers hrest
    obtain ⟨t, hexec, hend, ht⟩ := masterCycle_does hlast hplace rfl (by rw [hends, hchan]; exact hcalm)
      ⟨_, by rw [hrest]⟩ hothers
    exact ⟨t, hexec, by rw [ht]; exact congrArg Chan.cur hends, by rw [ht]; exact hseen, hend⟩

/-! ## Descriptors and their completions -/

theorem groupCycles_cells (l : List Host.Cell) (s : State) : (groupCycles l s).flatMap MCycle.cells = l := by
  rw [groupCycles, writeCycles_cells _ _ _ _ _ (by simp)]
  exact (List.zip_of_prod rfl rfl).symm

/-- The write cycles of groups of cells write those cells, in order. -/
theorem groupsCycles_cells (l : List (List Host.Cell)) (s : State) : (groupsCycles l s).flatMap MCycle.cells = l.flatten := by
  induction l with
  | nil => rfl
  | cons g t ih => simp [groupsCycles, groupCycles_cells, ← ih]

/-- In write-back mode the cells are bytes 56 to 63 of the descriptor's slot. -/
theorem softWrites_writeBack {k : Chan} (h : k.cmode ≠ 1) (c : Fin 16) (x : Xfer) (i : Nat) (tag : Word) (st dt : Byte) :
    (softWrites c k x i tag st dt).flatten =
      (leBytes 4 x.pos ++ [st, dt, 0, 0]).zipIdx.map (fun y => (k.ringBase.toNat + 64 * i + 56 + y.2, y.1)) := by
  have hmode : (k.cmode == 1) = false := by simpa using h
  simp only [softWrites, hmode, leBytes, Chan.descAddr]
  rfl

/-- The read of an OWN bit begins. -/
def pollBegun (c : Fin 16) (l : List Byte) (s : State) : State :=
  let a : Access :=
    { chan := c, behalf := (chanGet c s).studio, xfer := none, kind := .poll (l.getD 63 0),
      cycles := readCycles .device 0 (pollAddrs (chanGet c s) s) s }
  { s with hbu := { s.hbu with access := some a } }

theorem descRead_poll {c : Fin 16} {l : List Byte} {s : State} (hcur : (chanGet c s).cur = none)
    (hlook : (chanGet c s).look = true) (hmaster : s.hbu.masterEn = true) (htaken : busTaken s = true) :
    descRead c l s = pollBegun c l s := by
  simp [descRead, hcur, hlook, hmaster, htaken, pollBegun]

/-- An owned slot's descriptor is read as a transfer, which takes or waits for its DMA_DESC unit. -/
theorem pollDone_owned (c : Fin 16) {own : Byte} {s : State} (hown : 128 ≤ own.toNat) : ∃ f ledger,
    (f.kind, f.src, f.length, f.pos) = (.desc (chanGet c s).nextIdx.toNat,
      .flat ((chanGet c s).descAddr (chanGet c s).nextIdx.toNat), 64, 0) ∧
    pollDone c own s = chanPut c { chanGet c s with cur := some f, look := false, state := .running }
      { s with dma := { s.dma with nextId := s.dma.nextId + 1 }, ledger := ledger } := by
  simp only [pollDone, if_neg (Nat.not_lt.mpr hown)]
  rw [poolAsk_writes]
  exact ⟨_, _, rfl, rfl⟩

theorem poolGive_free (i : Fin 20) (who : Option (Fin 8)) (n : Nat) (s : State) :
    (poolGet i (poolGive i who n s)).free = (poolGet i s).free + n := by
  cases who with
  | none => simp [poolGive, Pool.subFrom]
  | some st => simp [poolGive, Pool.subFrom]

/-- A bit of S_IRQ_STAT that is set stays so while others are. -/
theorem sirqSet_keeps {st : Fin 8} {k : Nat} {s : State} (h : (aliasGet st s).irqStat.getLsbD k = true) (st' : Fin 8)
    (b : Nat) : (aliasGet st (sirqSet st' b s)).irqStat.getLsbD k = true := by
  rw [sirqSet, aliasGet_aliasPut]
  split
  · next heq =>
    subst heq
    simp [BitVec.getLsbD_or, h]
  · exact h

theorem sirqSet_dmaCpl (st : Fin 8) (s : State) : (aliasGet st (sirqSet st sirqDmaCpl s)).irqStat.getLsbD sirqDmaCpl = true := by
  rw [sirqSet, aliasGet_aliasPut_same, BitVec.getLsbD_or]
  simp [sirqDmaCpl]

/-- The channel of a software descriptor whose completion is counted, by the descriptor's status and STOP. -/
def Chan.settled (k : Chan) (st : Byte) (stop : Bool) : Chan :=
  if st ≠ stOk then { k with cur := none, look := false, state := .halted }
  else if stop then { k with state := .idle } else { k with look := true }

/-- What follows the count of a software descriptor's completion. -/
def softSettled (c : Fin 16) (st : Byte) (stop : Bool) (s : State) : State :=
  if st != stOk then chanHalt c s
  else if stop then chanPut c { chanGet c s with state := .idle } s
  else chanPut c { chanGet c s with look := true } s

/-- The two states differ in the studios' blocks alone, where no bit of S_IRQ_STAT is cleared. -/
def Raised (s t : State) : Prop :=
  (∃ al, t = { s with hbu := { s.hbu with aliases := al } }) ∧
    ∀ st k, (aliasGet st s).irqStat.getLsbD k = true → (aliasGet st t).irqStat.getLsbD k = true

theorem Raised.refl (s : State) : Raised s s := ⟨⟨_, rfl⟩, fun _ _ h => h⟩

theorem sirqSet_raised (st : Fin 8) (b : Nat) (s : State) : Raised s (sirqSet st b s) :=
  ⟨⟨_, rfl⟩, fun _ _ h => sirqSet_keeps h st b⟩

theorem softSettled_chanPut (c : Fin 16) {k : Chan} (hstate : k.state ≠ .stopping) (st : Byte) (stop : Bool) (s : State) :
    ∃ u, Raised s u ∧ softSettled c st stop (chanPut c k s) = chanPut c (k.settled st stop) u := by
  have hput (k' : Chan) (u : State) : chanPut c k' (chanPut c k u) = chanPut c k' u := by simp [chanPut]
  have hcalm : (k.state == ChanState.stopping) = false := by simpa using hstate
  by_cases hst : st = stOk
  · refine ⟨s, .refl s, ?_⟩
    cases stop
    · simp [softSettled, Chan.settled, hst, hput]
    · simp [softSettled, Chan.settled, hst, hput]
  · refine ⟨_, sirqSet_raised (if k.user == userSoft then k.studio else 0) sirqDmaFault s, ?_⟩
    simp only [softSettled, Chan.settled, bne_iff_ne.mpr hst, hst, ne_eq, not_false_eq_true, if_true, chanHalt,
      chanGet_chanPut_same, hcalm, Bool.false_eq_true, if_false, hput]
    rfl

/-- The channel whose software descriptor's completion is counted. -/
def Chan.counted (k : Chan) (st dt : Byte) : Chan :=
  { k.advance with lastStatus := st, lastDetail := dt, doneCount := ctrInc k.doneCount, cur := none }

theorem descGive_writes (x : Xfer) (s : State) : descGive x s = { s with ledger := (descGive x s).ledger } := by
  unfold descGive
  split <;> rfl

theorem Chan.settled_counted (k : Chan) (st dt : Byte) (stop : Bool) :
    let y := (k.counted st dt).settled st stop
    y.nextIdx = BitVec.ofNat 10 ((k.nextIdx.toNat + 1) % 2 ^ k.ringLog2.toNat) ∧ y.doneCount = ctrInc k.doneCount ∧
    y.lastStatus = st ∧ y.lastDetail = dt ∧ y.cur = none ∧ (st ≠ stOk → y.state = .halted) ∧
    (st = stOk → stop = true → y.state = .idle) ∧ (st = stOk → stop = false → y.look = true ∧ y.state = k.state) := by
  by_cases hst : st = stOk
  · cases stop
    · simp [Chan.settled, hst, Chan.counted, Chan.advance]
    · simp [Chan.settled, hst, Chan.counted, Chan.advance]
  · simp [Chan.settled, hst, Chan.counted, Chan.advance]

theorem Chan.settled_calm {k : Chan} (h : k.state ≠ .stopping) (st dt : Byte) (stop : Bool) :
    ((k.counted st dt).settled st stop).state ≠ .stopping := by
  by_cases hst : st = stOk
  · cases stop
    · simpa [Chan.settled, hst, Chan.counted, Chan.advance] using h
    · simp [Chan.settled, hst]
  · simp [Chan.settled, hst]

theorem softDone_eq {c : Fin 16} {x : Xfer} {st dt : Byte} {irq stop : Bool} {s : State}
    (hstate : (chanGet c s).state ≠ .stopping) : softDone c x st dt irq stop s =
      softSettled c st stop (chanPut c ((chanGet c s).counted st dt)
        (if irq then sirqSet (chanGet c s).studio sirqDmaCpl (descGive x s) else descGive x s)) := by
  have hget : chanGet c (descGive x s) = chanGet c s := by rw [descGive_writes]; rfl
  have hcalm : ((chanGet c s).advance.state == ChanState.stopping) = false := by
    simpa [Chan.advance] using hstate
  cases irq
  · simp only [softDone, hget, hcalm, Bool.false_eq_true, if_false]
    rfl
  · simp only [softDone, hget, hcalm, Bool.false_eq_true, if_false]
    rfl

/-- The completion of a software descriptor changes its channel, gives back its unit and may raise its studio's bits. -/
theorem softEnd_writes {c : Fin 16} {s : State} {x : Xfer} {i : Nat} {tag : Word} {irq stop : Bool} {st dt : Byte}
    (hkind : x.kind = .soft i tag irq stop) (hended : x.ended = some (st, dt)) (hstate : (chanGet c s).state ≠ .stopping) :
    ∃ n al, softEnd c x s = chanPut c ((({ chanGet c s with bytes := n } : Chan).counted st dt).settled st stop)
        { s with hbu := { s.hbu with aliases := al }, ledger := (descGive x s).ledger } ∧
      (irq = true → (al.get (chanGet c s).studio).irqStat.getLsbD sirqDmaCpl = true) := by
  have hsoft : softEnd c x s = softDone c x st dt irq stop (chanPut c { chanGet c s with
      bytes := ctrAdd (chanGet c s).bytes ((softWrites c (chanGet c s) x i tag st dt).map (·.length)).sum } s) := by
    simp only [softEnd, hkind, hended]
  generalize ctrAdd (chanGet c s).bytes _ = n at hsoft
  refine ⟨n, ?_⟩
  rw [hsoft, softDone_eq (by rwa [chanGet_chanPut_same]), chanGet_chanPut_same]
  obtain ⟨u, ⟨⟨al, hu⟩, hbits⟩, hsettled⟩ := softSettled_chanPut c (k := ({ chanGet c s with bytes := n } : Chan).counted st dt)
    (by simpa [Chan.counted, Chan.advance] using hstate) st stop
    (if irq then sirqSet (chanGet c s).studio sirqDmaCpl (descGive x (chanPut c { chanGet c s with bytes := n } s))
      else descGive x (chanPut c { chanGet c s with bytes := n } s))
  have hledger (k : Chan) : (descGive x (chanPut c k s)).ledger = (descGive x s).ledger := by
    unfold descGive
    split <;> rfl
  refine ⟨al, hsettled.trans ?_, fun hirq => ?_⟩
  · rw [hu, ← hledger]
    cases irq
    · simp only [Bool.false_eq_true, if_false]
      rw [descGive_writes]
      simp [chanPut]
    · simp only [if_true]
      rw [descGive_writes]
      simp [chanPut, sirqSet, aliasPut]
  · have hset := hbits (chanGet c s).studio sirqDmaCpl (by rw [if_pos hirq]; exact sirqSet_dmaCpl ..)
    rw [hu] at hset
    exact hset

/-- Settles O35. -/
theorem descriptorsAndTheirCompletions : Obligations.DescriptorsAndTheirCompletions := by
  unfold Obligations.DescriptorsAndTheirCompletions
  refine ⟨fun s c l hours hstate => ⟨fun hcur hlook hbegin => ?_, fun x idx hcur hkind hdesc hbegin => ?_,
    fun x i tag irq stop st dt hcur hkind hended hmode => ⟨?_, fun hbegin => ?_⟩⟩, fun s a h hlast => ?_⟩
  · have htaken := busTaken_of_ours hours
    obtain ⟨hrun, hen, hmaster, hten, -⟩ := hours
    refine reaches_of_guard rfl (by simp [hrun, hen]) ?_
    rw [descRead_poll hcur hlook hmaster htaken]
    exact accessBegun_begins (s := pollBegun c l.toList s) rfl hmaster hten hbegin
  · have htaken := busTaken_of_ours hours
    have hbegun := accessBegun_xferAccess hours hbegin c (.desc l.toList)
    obtain ⟨hrun, hen, hmaster, -⟩ := hours
    refine reaches_of_guard rfl (by simp [hrun, hen]) ?_
    have hread : descRead c l.toList s = xferAccess c x (.desc l.toList)
        (readCycles .device 0 ((List.range 64).map ((chanGet c s).descAddr idx + ·)) s) s := by
      simp [descRead, hcur, hkind, hdesc, hmaster, htaken]
    rw [hread]
    exact hbegun
  · rw [groupsCycles_cells]
    exact softWrites_writeBack hmode ..
  · have htaken := busTaken_of_ours hours
    have hbegun := accessBegun_xferAccess hours hbegin c .soft
    obtain ⟨hrun, hen, hmaster, -⟩ := hours
    refine reaches_of_guard rfl (by simp [hrun, hen]) ?_
    have hcomplete : softComplete c s =
        xferAccess c x .soft (groupsCycles (softWrites c (chanGet c s) x i tag st dt) s) s := by
      simp [softComplete, hcur, hkind, hended, hmaster, htaken]
    rw [hcomplete]
    exact hbegun
  · obtain ⟨n, g, hran⟩ := ranOut_writes a h s
    have hchan : chanGet a.chan (ranOut a h s) = chanGet a.chan s := by rw [hran]; rfl
    refine ⟨fun own hakind hcur hlook => ?_, fun x idx l hakind hxfer hcur hkind hdesc => ?_,
      fun x i tag irq stop st dt hakind hxfer hcur hkind hended => ?_⟩
    · have hplace : accessStuck (spent a h) (tenureCycle (cycleRan a h [] s)) = false := by simp [accessStuck, spent, hakind]
      have hdone : accessDone (spent a h) (ranOut a h s) = pollDone a.chan own (ranOut a h s) := by
        simp [accessDone, spent, hchan, hcur, hlook, hakind]
      refine ⟨fun hown => ?_, fun hown => ?_⟩
      · refine masterCycle_chanPut hlast hplace (hdone.trans ?_) ?_
        · rw [pollDone, if_pos hown, hchan]
          simp
        · dsimp only
          split <;> decide
      · obtain ⟨f, ledger, hf, hpoll⟩ := pollDone_owned a.chan (s := ranOut a h s) hown
        rw [hchan] at hpoll hf
        rw [hpoll] at hdone
        obtain ⟨t, hexec, hend, ht⟩ := masterCycle_does hlast hplace hdone (by simp) ⟨_, rfl⟩
          fun d hd => chanGet_chanPut_ne (h := hd.symm) ..
        have hget : chanGet a.chan t = { chanGet a.chan s with cur := some f, look := false, state := .running } := by
          rw [ht]
          exact chanGet_chanPut_same ..
        exact ⟨t, hexec, by rw [hget], by rw [hget]; exact congrArg some hf, hend, by rw [ht, hran]; rfl⟩
    · have hplace : accessStuck (spent a h) (tenureCycle (cycleRan a h [] s)) = false := by simp [accessStuck, spent, hakind]
      have hleft : x.leftover (ranOut a h s) = false := by simp [Xfer.leftover, hkind]
      have hdone : accessDone (spent a h) (ranOut a h s) = descDone a.chan x idx l (ranOut a h s) := by
        simp [accessDone, spent, hchan, hcur, hxfer, hleft, hakind, hkind]
      refine ⟨fun hown hcheck => ?_, fun hown => ?_⟩
      · refine masterCycle_chanPut hlast hplace (hdone.trans ?_) (lastCycle_calm hlast)
        rw [descDone, if_neg (Nat.not_lt.mpr hown), hchan]
        simp only [hcheck]
      · rw [descDone, if_pos hown, descGive, if_pos hdesc] at hdone
        obtain ⟨t, hexec, hend, ht⟩ := masterCycle_does hlast hplace hdone (by rw [chanGet_chanPut_same, hran]; exact (lastCycle_calm hlast :))
          ⟨_, rfl⟩ fun d hd => chanGet_chanPut_ne (h := hd.symm) ..
        refine ⟨t, hexec, ?_, ?_, hend, by rw [ht, hran]; rfl⟩
        · rw [ht, hran]
          exact chanGet_chanPut_same ..
        · rw [ht, hran]
          exact poolGive_free ..
    · have hplace : accessStuck (spent a h) (tenureCycle (cycleRan a h [] s)) = false := by simp [accessStuck, spent, hakind]
      have hleft : x.leftover (ranOut a h s) = false := by simp [Xfer.leftover, hkind]
      have hdone : accessDone (spent a h) (ranOut a h s) = softEnd a.chan x (ranOut a h s) := by
        simp [accessDone, spent, hchan, hcur, hxfer, hleft, hakind]
      obtain ⟨bytes, al, hsoft, hirq⟩ := softEnd_writes (c := a.chan) (s := ranOut a h s) hkind hended
        (by rw [hchan]; exact lastCycle_calm hlast)
      rw [hchan] at hsoft hirq
      have hcalm := Chan.settled_calm (k := { chanGet a.chan s with bytes := bytes }) (lastCycle_calm hlast) st dt stop
      obtain ⟨t, hexec, hend, ht⟩ := masterCycle_does hlast hplace (hdone.trans hsoft)
        (by rw [chanGet_chanPut_same]; exact hcalm) ⟨al, rfl⟩
        fun d hd => chanGet_chanPut_ne (h := hd.symm) ..
      · have hget : chanGet a.chan t = (({ chanGet a.chan s with bytes := bytes } : Chan).counted st dt).settled st stop := by
          rw [ht]
          exact chanGet_chanPut_same ..
        obtain ⟨hnext, hcount, hstatus, hdetail, hnone, hbad, hstop, hlook⟩ :=
          Chan.settled_counted { chanGet a.chan s with bytes := bytes } st dt stop
        simp only [← hget] at hnext hcount hstatus hdetail hnone hbad hstop hlook
        exact ⟨t, hexec, hnext, hcount, hstatus, hdetail, hnone, hbad, hstop, hlook,
          fun h => by rw [ht]; exact hirq h, hend, by rw [ht, hran]; rfl⟩

end Sys2Proof.Machine
end

section
/-! Bus faults of transfers and completions of commands (R207, R250 to R254, R286 to R292). -/

namespace Sys2Proof.Machine
open Sys2Proof.Safety

/-! ## Faults of a software transfer -/

/-- A bus fault ends a software transfer with its detail; its channel shows the unit's address. -/
theorem busFault_soft {c : Fin 16} {s : State} {x : Xfer} {i : Nat} {tag : Word} {irq stop : Bool} (detail : Byte) (addr : Nat)
    (hcur : (chanGet c s).cur = some x) (hkind : x.kind = .soft i tag irq stop) :
    let t := busFault c detail addr s
    chanGet c t = { chanGet c s with
      faultAddr := BitVec.ofNat 24 (unitAddr addr s), lastStatus := stDmaFault, lastDetail := detail
      cur := some { x with ended := some (stDmaFault, detail) } } ∧
    t.dma.faultSeen = true ∧ (∀ d, d ≠ c → chanGet d t = chanGet d s) ∧
    (∀ n, n ≠ 0 → n ≠ 0x20 → counterGet n t = counterGet n s) ∧
    t = { s with dma := t.dma, log := t.log, ring := t.ring, nv := t.nv } := by
  obtain ⟨hchan, hseen, hothers, hcount, hrest⟩ := xferFault_soft stDmaFault detail
    (s := chanPut c { chanGet c s with faultAddr := BitVec.ofNat 24 (unitAddr addr s) } s)
    (by rw [chanGet_chanPut_same]; exact hcur) hkind
  rw [chanGet_chanPut_same] at hchan
  exact ⟨hchan, hseen, fun d hd => (hothers d hd).trans (chanGet_chanPut_ne (h := hd.symm) ..), hcount, hrest⟩

theorem workFault_soft {c : Fin 16} {s : State} {x : Xfer} {i : Nat} {tag : Word} {irq stop : Bool}
    (hcur : (chanGet c s).cur = some x) (hkind : x.kind = .soft i tag irq stop) (hended : x.ended = none) (detail : Byte)
    (addr : Nat) : workFault c detail addr s = busFault c detail addr s := by
  have hleft : x.leftover s = false := by simp [Xfer.leftover, hkind]
  simp [workFault, hcur, hleft, hkind, hended]

/-- A software transfer that has ended goes past a burst boundary to its completion. -/
theorem boundary_ended {c : Fin 16} {s : State} {x : Xfer} {i : Nat} {tag : Word} {irq stop : Bool}
    (hcur : (chanGet c s).cur = some x) (hkind : x.kind = .soft i tag irq stop) (hended : x.ended.isSome = true) :
    boundary c s = busRefresh s := by
  simp [boundary, chanStop, hcur, hkind, hended]

/-- The note and the flag of a cycle that ended in a bus fault. -/
theorem noteBus_writes {detail : Byte} {flag : BitVec 10} {note : Nat}
    (h : detail = dtRdyTimeout ∧ flag = 8#10 ∧ note = 0x23 ∨ detail = dtSelfAccess ∧ flag = 2#10 ∧ note = 0x24) (addr : Nat)
    (s : State) :
    counterGet note (noteBus detail addr s) = ctrInc (counterGet note s) ∧
      noteBus detail addr s = { s with
        hbu := { s.hbu with flags := s.hbu.flags ||| flag }, log := (noteBus detail addr s).log
        ring := (noteBus detail addr s).ring, nv := (noteBus detail addr s).nv } := by
  rcases h with ⟨rfl, rfl, rfl⟩ | ⟨rfl, rfl, rfl⟩
  · have hb : noteBus dtRdyTimeout addr s = hbFlag hbRdy (logRec .rdyTimeout (leBytes 4 addr) s) := if_pos rfl
    have hcount : counterGet 0x23 (logRec .rdyTimeout (leBytes 4 addr) s) = ctrInc (counterGet 0x23 s) := by
      simp [counterGet_logRec, Code.info]
    rw [hb]
    exact ⟨hcount, by apply State.ext <;> simp [hbFlag, hbRdy]⟩
  · have hb : noteBus dtSelfAccess addr s = hbFlag hbSelf (logRec .selfAccess (leBytes 4 addr) s) := rfl
    have hcount : counterGet 0x24 (logRec .selfAccess (leBytes 4 addr) s) = ctrInc (counterGet 0x24 s) := by
      simp [counterGet_logRec, Code.info]
    rw [hb]
    exact ⟨hcount, by apply State.ext <;> simp [hbFlag, hbSelf]⟩

/-- The cycle under way of a software transfer ends in a fault. -/
theorem cycleFault_soft {s : State} {a : Access} {h : MCycle} {x : Xfer} {i : Nat} {tag : Word}
    {irq stop : Bool} {detail : Byte} {flag : BitVec 10} {note : Nat}
    (hxfer : a.xfer = some x.id) (hcur : (chanGet a.chan s).cur = some x) (hkind : x.kind = .soft i tag irq stop) (hended : x.ended = none)
    (hnote : detail = dtRdyTimeout ∧ flag = 8#10 ∧ note = 0x23 ∨ detail = dtSelfAccess ∧ flag = 2#10 ∧ note = 0x24) :
    let t := busRefresh (accessFault a detail h.addr (noteBus detail (unitAddr h.addr s) (tenureCycle s)))
    (chanGet a.chan t).cur = some { x with ended := some (stDmaFault, detail) } ∧
      (chanGet a.chan t).lastStatus = stDmaFault ∧ (chanGet a.chan t).lastDetail = detail ∧
      (chanGet a.chan t).faultAddr = BitVec.ofNat 24 (unitAddr h.addr s) ∧ t.dma.faultSeen = true ∧
      t.hbu.flags = s.hbu.flags ||| flag ∧ counterGet note t = ctrInc (counterGet note s) ∧
      t.hbu.access = none ∧ t.hbu.lastWrite = s.hbu.lastWrite ∧ (∀ d, d ≠ a.chan → chanGet d t = chanGet d s) ∧
      t = { s with dma := t.dma, hbu := t.hbu, log := t.log, ring := t.ring, nv := t.nv } := by
  obtain ⟨n, g, hten⟩ := tenureCycle_writes s
  obtain ⟨hcount, hrest⟩ := noteBus_writes hnote (unitAddr h.addr s) (tenureCycle s)
  generalize noteBus detail (unitAddr h.addr s) (tenureCycle s) = u at hcount hrest
  rw [hten] at hcount hrest
  have hcur' : (chanGet a.chan { u with hbu := { u.hbu with access := none } }).cur = some x := by
    rw [hrest]
    exact hcur
  have hfault : accessFault a detail h.addr u =
      boundary a.chan (workFault a.chan detail h.addr { u with hbu := { u.hbu with access := none } }) := by
    have hsame : (a.xfer == (chanGet a.chan { u with hbu := { u.hbu with access := none } }).cur.map (·.id)) = true := by
      rw [hxfer, hcur']
      exact beq_self_eq_true _
    simp only [accessFault, hsame, if_true]
  rw [hfault, workFault_soft hcur' hkind hended]
  obtain ⟨hchan, hseen, hothers, hcounts, hbus⟩ := busFault_soft detail h.addr hcur' hkind
  rw [boundary_ended (x := { x with ended := some (stDmaFault, detail) }) (congrArg Chan.cur hchan) hkind rfl]
  have haddr : unitAddr h.addr { u with hbu := { u.hbu with access := none } } = unitAddr h.addr s := by rw [hrest]; rfl
  have hnote0 : note ≠ 0 ∧ note ≠ 0x20 := by
    rcases hnote with ⟨-, -, rfl⟩ | ⟨-, -, rfl⟩
    · decide
    · decide
  rw [haddr] at hchan
  have hcounted := (hcounts note hnote0.1 hnote0.2).trans hcount
  generalize busFault a.chan detail h.addr { u with hbu := { u.hbu with access := none } } = v at *
  rw [hrest] at hbus hothers
  refine ⟨congrArg Chan.cur hchan, congrArg Chan.lastStatus hchan, congrArg Chan.lastDetail hchan,
    congrArg Chan.faultAddr hchan, hseen, ?_, hcounted, ?_, ?_, hothers, ?_⟩
  · rw [hbus]; rfl
  · rw [hbus]; rfl
  · rw [hbus]; rfl
  · rw [hbus]; rfl

theorem busRefresh_held {s : State} (h : s.hbu.breqHold = true) : (busRefresh s).hbu.breq = false := by
  simp [busRefresh, h]

/-- The flag and the note of a grant that does not come. -/
def gntNoted (s : State) : State := hbFlag hbGnt (logRec .gntTimeout (leBytes 2 (waitingChans s).length) s)

theorem gntNoted_writes (s : State) : counterGet 0x25 (gntNoted s) = ctrInc (counterGet 0x25 s) ∧
    gntNoted s = { s with
      hbu := { s.hbu with flags := s.hbu.flags ||| 4#10 }, log := (gntNoted s).log, ring := (gntNoted s).ring
      nv := (gntNoted s).nv } := by
  have hcount : counterGet 0x25 (logRec .gntTimeout (leBytes 2 (waitingChans s).length) s) = ctrInc (counterGet 0x25 s) := by
    simp [counterGet_logRec, Code.info]
  exact ⟨hcount, by apply State.ext <;> simp [gntNoted, hbFlag, hbGnt]⟩

/-- HB_BREQ_N is held released for one TICK. -/
def gntEnded (s : State) : State := busRefresh { s with hbu := { s.hbu with breqHold := true } }

/-- The row of a grant time-out on a part whose requests wait. -/
theorem execGntTimeout_eq {s : State} (hrun : unitsRun s = true) (hreq : s.hbu.breq = true) (htime : s.hbu.gntTimeout ≠ 0) :
    exec .gntTimeout s = .next (gntEnded ((waitingChans s).foldl (fun s c => grantFault c s) (gntNoted s))) := by
  have hguard : (unitsRun s && s.hbu.breq && s.hbu.gntTimeout != 0) = true := by
    simpa [hrun, hreq] using htime
  change execGntTimeout s = _
  simp only [execGntTimeout, onlyIf, hguard, if_true]
  rfl

/-- Settles O32. -/
theorem busFaultsEndTransfers : Obligations.BusFaultsEndTransfers := by
  unfold Obligations.BusFaultsEndTransfers
  intro s hrun
  refine ⟨fun a h l x i tag irq stop hten hacc hcyc haddr hxfer hcur hkind hended => ⟨fun r hr hwait htime => ?_, ?_, fun r hr hno => ?_⟩,
    fun c addr hat => ⟨?_, ?_⟩, fun hreq htime => ⟨fun hnone => ?_, fun c x i tag irq stop hone hacc hcur hkind hended => ?_⟩⟩
  · refine reaches_of_guard rfl (by simp [hrun, hten, cycleAt, hacc, hcyc]; omega) ?_
    have hcycle : cycleFault false s =
        busRefresh (accessFault a dtRdyTimeout h.addr (noteBus dtRdyTimeout (unitAddr h.addr s) (tenureCycle s))) := by
      have hwaits : (r.rdyWait && r.rdyTimeout != 0) = true := by simpa [hwait] using htime
      simp only [cycleFault, hacc, hcyc, hr, hwaits, Bool.false_or, if_true, Bool.false_eq_true, if_false]
    rw [hcycle]
    exact cycleFault_soft hxfer hcur hkind hended (.inl ⟨rfl, rfl, rfl⟩)
  · refine reaches_of_guard rfl (by simp [hrun, hten, cycleAt, hacc, hcyc]; omega) ?_
    have hcycle : cycleFault true s =
        busRefresh (accessFault a dtSelfAccess h.addr (noteBus dtSelfAccess (unitAddr h.addr s) (tenureCycle s))) := by
      simp [cycleFault, hacc, hcyc]
    rw [hcycle]
    exact cycleFault_soft hxfer hcur hkind hended (.inr ⟨rfl, rfl, rfl⟩)
  · refine reaches_of_guard rfl (by simp [hrun, hten, cycleAt, hacc, hcyc]; omega) ?_
    have hwaits : (r.rdyWait && r.rdyTimeout != 0) = false := by
      rcases hno with h | h
      · simp [h]
      · simp [h]
    simp only [cycleFault, hacc, hcyc, hr, hwaits, Bool.false_or, Bool.false_eq_true, if_false]
  · exact reaches_same rfl (by simp [hat])
  · exact reaches_same rfl (by simp [hat])
  · obtain ⟨hcount, hrest⟩ := gntNoted_writes s
    refine ⟨_, execGntTimeout_eq hrun hreq htime, ?_⟩
    rw [hnone, List.foldl_nil]
    exact ⟨⟨busRefresh_held rfl, rfl, congrArg (·.hbu.flags) hrest, hcount⟩, by rw [hrest]; rfl⟩
  · obtain ⟨hcount, hrest⟩ := gntNoted_writes s
    have hnext : nextAddr c (gntNoted s) = nextAddr c s := by rw [hrest]; rfl
    have hacc' : (gntNoted s).hbu.access = none := by rw [hrest]; exact hacc
    have hcur' : (chanGet c (gntNoted s)).cur = some x := by rw [hrest]; exact hcur
    have hgrant : grantFault c (gntNoted s) = busFault c dtGntTimeout (nextAddr c s) (gntNoted s) := by
      simp only [grantFault, hacc', hnext]
      exact workFault_soft hcur' hkind hended ..
    obtain ⟨hchan, hseen, hothers, hcounts, hbus⟩ := busFault_soft dtGntTimeout (nextAddr c s) hcur' hkind
    have haddr : unitAddr (nextAddr c s) (gntNoted s) = unitAddr (nextAddr c s) s := by rw [hrest]; rfl
    rw [haddr] at hchan
    refine ⟨_, execGntTimeout_eq hrun hreq htime, ?_⟩
    rw [hone, List.foldl_cons, List.foldl_nil, hgrant]
    have hcounted := (hcounts 0x25 (by decide) (by decide)).trans hcount
    generalize busFault c dtGntTimeout (nextAddr c s) (gntNoted s) = v at *
    rw [hrest] at hbus hothers
    refine ⟨⟨busRefresh_held rfl, rfl, ?_, hcounted⟩, congrArg Chan.cur hchan, congrArg Chan.faultAddr hchan, hothers, ?_⟩
    · rw [hbus]; rfl
    · rw [hbus]; rfl

/-! ## Completions of commands -/

/-- What a completion that cannot be written leaves alone while its queues freeze. -/
@[reducible, simp] def OffBus (s t : State) : Prop :=
  t.scratch = s.scratch ∧ t.dma = s.dma ∧
    t.hbu.access = s.hbu.access ∧ t.hbu.mailbox = s.hbu.mailbox ∧ t.hbu.ringSram = s.hbu.ringSram ∧ t.skb.recs = s.skb.recs

theorem OffBus.refl (s : State) : OffBus s s := by simp
theorem OffBus.trans {s t u : State} (h : OffBus t u) (k : OffBus s t) : OffBus s u := by simp [h, k]

theorem foldl_offBusOn {α β : Type} (part : β → State) (g : β → α → β)
    (h : ∀ b a, OffBus (part b) (part (g b a))) (l : List α) (b : β) : OffBus (part b) (part (l.foldl g b)) := by
  induction l generalizing b with
  | nil => exact .refl _
  | cons a t ih => exact (ih _).trans (h b a)
theorem foldl_offBus {α : Type} (g : State → α → State) (h : ∀ s a, OffBus s (g s a)) (l : List α) (s : State) :
    OffBus s (l.foldl g s) := foldl_offBusOn id g h l s
@[simp] theorem onlyIf_offBus (c : Bool) (f : State → State) (s : State) (h : OffBus s (f s)) :
    OffBus s (onlyIf c f s) := by
  cases c <;> simp [onlyIf, h]

@[simp] theorem sirqSet_offBus (st : Fin 8) (b : Nat) (s : State) : OffBus s (sirqSet st b s) := by
  simp [sirqSet, aliasPut]
@[simp] theorem aliasPut_offBus (i : Fin 8) (a : Alias) (s : State) : OffBus s (aliasPut i a s) := by
  simp [aliasPut]
@[simp] theorem poolGive_offBus (i : Fin 20) (who : Option (Fin 8)) (n : Nat) (s : State) :
    OffBus s (poolGive i who n s) := by simp
@[simp] theorem sqPut_offBus (q : Fin 32) (x : Sq) (s : State) : OffBus s (sqPut q x s) := by simp
@[simp] theorem cqPut_offBus (q : Fin 32) (x : Cq) (s : State) : OffBus s (cqPut q x s) := by simp
@[simp] theorem irqSet_offBus (b : Nat) (s : State) : OffBus s (irqSet b s) := by simp
@[simp] theorem logAs_offBus (c : Code) (cls : LogClass) (studio : Option (Fin 8)) (args : List Byte) (s : State) :
    OffBus s (logAs c cls studio args s) := by simp
@[simp] theorem counterInc_offBus (e : Nat) (s : State) : OffBus s (counterInc e s) := by simp
@[simp] theorem whistleBreak_offBus (q : Fin 32) (s : State) : OffBus s (whistleBreak q s) := by
  simp [whistleBreak]
@[simp] theorem kickOff_offBus (q : Fin 32) (s : State) : OffBus s (kickOff q s) := by simp [kickOff]
@[simp] theorem freezeQueue_offBus (q : Fin 32) (x : Slot) (held : Option Nat) (cause : Bool) (s : State) :
    OffBus s (freezeQueue q x held cause s) := by
  simp [freezeQueue]
@[simp] theorem slotFree_offBus (i : Nat) (s : State) : OffBus s (slotFree i s) := by
  simp only [slotFree]
  (repeat' split) <;> simp
@[simp] theorem completionFault_offBus (i addr : Nat) (s : State) : OffBus s (completionFault i addr s) := by
  simp only [completionFault]
  split
  · simp
  · refine (slotFree_offBus ..).trans ((foldl_offBus _ (fun s q => ?_) _ _).trans (logAs_offBus ..))
    split
    · simp
    · simp

/-- Slots that keep their keys keep what they lack. -/
theorem kget_map_none {α : Type} {f : Nat × α → Nat × α} (hf : ∀ e, (f e).1 = e.1) {k : Nat} {l : List (Nat × α)}
    (h : kget k l = none) : kget k (l.map f) = none := by
  induction l with
  | nil => rfl
  | cons e t ih =>
    obtain ⟨j, v⟩ := e
    have hj : (f (j, v)).1 = j := hf (j, v)
    by_cases hjk : j = k
    · simp [kget, hjk] at h
    · simp only [kget, hjk, if_false] at h
      rw [List.map_cons, kget, hj, if_neg hjk]
      exact ih h

theorem slotGet_whistleBreak_none {i : Nat} {s : State} (h : slotGet i s = none) (q : Fin 32) :
    slotGet i (whistleBreak q s) = none :=
  kget_map_none (fun e => by dsimp only; split <;> rfl) h

/-- A queue whose command has left its CMD_SLOT. -/
def Sq.released (q : Sq) : Sq :=
  if q.state == .draining && q.outstanding - 1 == 0 then { q with outstanding := q.outstanding - 1, state := .disabled }
  else { q with outstanding := q.outstanding - 1 }

theorem Sq.released_outstanding (q : Sq) : q.released.outstanding = q.outstanding - 1 := by
  unfold Sq.released
  split <;> rfl

theorem Sq.released_frozen {q : Sq} (h : q.state = .frozen) : q.released.state = .frozen := by
  simp [Sq.released, h]

/-- A command has left its CMD_SLOT and its queue's count. -/
def slotLeft (i : Nat) (x : Slot) (s : State) : State :=
  let u := poolGive pCmdSlot (some (sqStudio x.sq)) 1 { s with queues := { s.queues with slots := kdel i s.queues.slots } }
  if (sqGet x.sq s).state == .draining && (sqGet x.sq s).outstanding - 1 == 0 then
    whistleBreak x.sq (sqPut x.sq (sqGet x.sq s).released u)
  else sqPut x.sq (sqGet x.sq s).released u

theorem slotLeft_spec (i : Nat) (x : Slot) (s : State) :
    slotGet i (slotLeft i x s) = none ∧ sqGet x.sq (slotLeft i x s) = (sqGet x.sq s).released ∧
      (∀ q, q ≠ x.sq → sqGet q (slotLeft i x s) = sqGet q s) ∧ (∀ c, cqGet c (slotLeft i x s) = cqGet c s) ∧
      slotLeft i x s = { s with queues := (slotLeft i x s).queues, ledger := (slotLeft i x s).ledger } := by
  have hgone : slotGet i (poolGive pCmdSlot (some (sqStudio x.sq)) 1
      { s with queues := { s.queues with slots := kdel i s.queues.slots } }) = none := kget_kdel_same ..
  unfold slotLeft
  dsimp only
  split
  · exact ⟨slotGet_whistleBreak_none (s := sqPut ..) hgone _, sqGet_sqPut_same .., fun q hq => sqGet_sqPut_ne (h := hq.symm) ..,
      fun c => rfl, rfl⟩
  · exact ⟨hgone, sqGet_sqPut_same .., fun q hq => sqGet_sqPut_ne (h := hq.symm) .., fun c => rfl, rfl⟩

theorem slotFree_eq {i : Nat} {x : Slot} {s : State} (hx : slotGet i s = some x) : slotFree i s =
    if (sqGet x.sq s).cmode then slotLeft i x s
    else cqPut (sqCq x.sq (slotLeft i x s)) { cqGet (sqCq x.sq (slotLeft i x s)) (slotLeft i x s) with
      reserved := (cqGet (sqCq x.sq (slotLeft i x s)) (slotLeft i x s)).reserved - 1 } (slotLeft i x s) := by
  have hget : sqGet x.sq (poolGive pCmdSlot (some (sqStudio x.sq)) 1
      { s with queues := { s.queues with slots := kdel i s.queues.slots } }) = sqGet x.sq s := rfl
  by_cases hlast : ((sqGet x.sq s).state == .draining && (sqGet x.sq s).outstanding - 1 == 0) = true
  · simp only [slotFree, hx, slotLeft, Sq.released, hget, hlast, if_true]
  · simp only [slotFree, hx, slotLeft, Sq.released, hget, hlast, if_false, Bool.false_eq_true]

/-- What the release of a CMD_SLOT writes: the slot, its queue's count, the completion queue's reservation. -/
theorem slotFree_spec {i : Nat} {x : Slot} {s : State} (hx : slotGet i s = some x) :
    slotGet i (slotFree i s) = none ∧ sqGet x.sq (slotFree i s) = (sqGet x.sq s).released ∧
      (∀ q, q ≠ x.sq → sqGet q (slotFree i s) = sqGet q s) ∧
      (∀ c, (cqGet c (slotFree i s)).tail = (cqGet c s).tail ∧ (cqGet c (slotFree i s)).posted = (cqGet c s).posted) ∧
      slotFree i s = { s with queues := (slotFree i s).queues, ledger := (slotFree i s).ledger } := by
  obtain ⟨hgone, hown, hothers, hcqs, hrest⟩ := slotLeft_spec i x s
  rw [slotFree_eq hx]
  split
  · exact ⟨hgone, hown, hothers, fun c => by rw [hcqs]; exact ⟨rfl, rfl⟩, hrest⟩
  · refine ⟨hgone, hown, hothers, fun c => ?_, by rw [hrest]; rfl⟩
    rw [cqGet_cqPut]
    split
    · next hc =>
      subst hc
      rw [← hcqs (sqCq x.sq (slotLeft i x s))]
      exact ⟨rfl, rfl⟩
    · rw [hcqs]
      exact ⟨rfl, rfl⟩

theorem slotGet_slotFree (i : Nat) (s : State) : slotGet i (slotFree i s) = none := by
  cases hx : slotGet i s with
  | none => rw [slotFree, hx]; exact hx
  | some x => exact (slotFree_spec hx).1

/-- A FROZEN queue stays so while a CMD_SLOT is freed. -/
theorem slotFree_state {q : Fin 32} {s : State} (h : (sqGet q s).state = .frozen) (i : Nat) :
    (sqGet q (slotFree i s)).state = .frozen := by
  cases hx : slotGet i s with
  | none => rw [slotFree, hx]; exact h
  | some x =>
    obtain ⟨-, hown, hothers, -⟩ := slotFree_spec hx
    by_cases hq : q = x.sq
    · rw [hq, hown]
      exact Sq.released_frozen (hq ▸ h)
    · rw [hothers q hq, h]

/-! ## Queues that freeze -/

theorem sqGet_freezeQueue (p q : Fin 32) (x : Slot) (held : Option Nat) (cause : Bool) (s : State) :
    sqGet p (freezeQueue q x held cause s) = if q = p then { sqGet q s with
      state := .frozen, heldSlot := held, freezeSlot := x.idx, lastStatus := x.status, lastDetail := x.detail }
      else sqGet p s := by
  have hlog (c : Code) (cls : LogClass) (st : Option (Fin 8)) (l : List Byte) (u : State) :
      sqGet p (logAs c cls st l u) = sqGet p u := by simp [sqGet]
  unfold freezeQueue
  change sqGet p (logAs ..) = _
  rw [hlog, sqGet_sqPut]
  rfl

/-- The queue of a completion that cannot be written freezes, or shows its status where it does not run. -/
def freezeStep (x : Slot) (s : State) (q : Fin 32) : State :=
  if (sqGet q s).state == .running then freezeQueue q { x with sq := q } none true s
  else sqPut q { sqGet q s with lastStatus := x.status, lastDetail := x.detail } s

theorem freezeStep_state (x : Slot) (s : State) (p q : Fin 32) : (sqGet p (freezeStep x s q)).state =
    if q = p ∧ (sqGet q s).state = .running then .frozen else (sqGet p s).state := by
  unfold freezeStep
  by_cases hrun : (sqGet q s).state = .running
  · rw [if_pos (by simp [hrun]), sqGet_freezeQueue]
    by_cases hpq : q = p
    · simp [hpq, hpq ▸ hrun]
    · simp [hpq]
  · rw [if_neg (by simp [hrun]), sqGet_sqPut]
    by_cases hpq : q = p
    · simp [hpq, hpq ▸ hrun]
    · simp [hpq]

/-- Every running queue of a list freezes. -/
theorem freezeSteps_frozen (x : Slot) (p : Fin 32) (l : List (Fin 32)) (s : State)
    (h : (sqGet p s).state = .frozen ∨ (sqGet p s).state = .running ∧ p ∈ l) :
    (sqGet p (l.foldl (freezeStep x) s)).state = .frozen := by
  induction l generalizing s with
  | nil => simpa using h
  | cons q t ih =>
    refine ih _ ?_
    rw [freezeStep_state]
    rcases h with h | ⟨h, hmem⟩
    · left
      split
      · rfl
      · exact h
    · by_cases hq : q = p
      · left
        rw [if_pos ⟨hq, hq ▸ h⟩]
      · right
        rw [if_neg fun hn => hq hn.1]
        exact ⟨h, (List.mem_cons.mp hmem).resolve_left fun hp => hq hp.symm⟩

/-- A scoreboard queue writes to its own ring. -/
theorem mem_ringWriters {x : Slot} {s : State} (h : (sqGet x.sq s).cmode = false) : x.sq ∈ ringWriters x s := by
  simp [ringWriters, h]

/-- The running queue of a command whose completion cannot be written is FROZEN, and its CMD_SLOT is free. -/
theorem completionFault_frozen {i : Nat} {x : Slot} {s : State} (hx : slotGet i s = some x)
    (hmode : (sqGet x.sq s).cmode = false) (hrun : (sqGet x.sq s).state = .running) (addr : Nat) :
    (sqGet x.sq (completionFault i addr s)).state = .frozen ∧ slotGet i (completionFault i addr s) = none := by
  have hfault : completionFault i addr s = slotFree i ((ringWriters x (logAs .queueCplFault .stopStudio (some (sqStudio x.sq))
      ([BitVec.ofNat 8 x.sq.val] ++ leBytes 2 x.idx ++ [x.status, x.detail] ++ leBytes 4 addr) s)).foldl (freezeStep x)
      (logAs .queueCplFault .stopStudio (some (sqStudio x.sq))
        ([BitVec.ofNat 8 x.sq.val] ++ leBytes 2 x.idx ++ [x.status, x.detail] ++ leBytes 4 addr) s)) := by
    simp only [completionFault, hx]
    rfl
  rw [hfault]
  generalize hu : logAs .queueCplFault .stopStudio _ _ s = u
  have hsq : sqGet x.sq u = sqGet x.sq s := by rw [← hu]; simp [sqGet]
  refine ⟨slotFree_state (freezeSteps_frozen x x.sq _ u (.inr ⟨by rw [hsq, hrun], mem_ringWriters (by rw [hsq, hmode])⟩)) i,
    slotGet_slotFree ..⟩

/-- The state in which a command's completion cannot be written: its channel is free. -/
def postStopped (c : Fin 16) (f : Xfer) (detail : Byte) (addr : Nat) (s : State) : State :=
  busRefresh (chanFree c (descGive f (noteFault c stDmaFault detail
    (chanPut c { chanGet c s with faultAddr := BitVec.ofNat 24 (unitAddr addr s) } s))))

/-- A bus fault of a command's completion stops its transfer, and the completion faults. -/
theorem busFault_post {c : Fin 16} {f : Xfer} {i : Nat} {s : State} (hcur : (chanGet c s).cur = some f)
    (hkind : f.kind = .post i) (detail : Byte) (addr : Nat) :
    ∃ b, busFault c detail addr s = completionFault i b (postStopped c f detail addr s) := by
  have hcur' : (chanGet c (chanPut c { chanGet c s with faultAddr := BitVec.ofNat 24 (unitAddr addr s) } s)).cur = some f := by
    rw [chanGet_chanPut_same, hcur]
  simp only [busFault, xferFault, hcur', hkind]
  exact ⟨_, rfl⟩

theorem postStopped_writes (c : Fin 16) (f : Xfer) (detail : Byte) (addr : Nat) (s : State) :
    (chanGet c (postStopped c f detail addr s)).cur = none ∧ (chanGet c (postStopped c f detail addr s)).state ≠ .stopping ∧
      ∃ ten req, postStopped c f detail addr s = { s with
        dma := (postStopped c f detail addr s).dma, hbu := { s.hbu with tenure := ten, breq := req }
        ledger := (postStopped c f detail addr s).ledger, log := (postStopped c f detail addr s).log
        ring := (postStopped c f detail addr s).ring, nv := (postStopped c f detail addr s).nv } := by
  unfold postStopped
  have hnote := noteFault_writes c stDmaFault detail
    (chanPut c { chanGet c s with faultAddr := BitVec.ofNat 24 (unitAddr addr s) } s)
  generalize noteFault c stDmaFault detail _ = u at hnote
  have hgive := descGive_writes f u
  generalize descGive f u = v at hgive
  refine ⟨congrArg Chan.cur (chanGet_chanPut_same (s := v) c _), ?_, (busRefresh (chanFree c v)).hbu.tenure,
    (busRefresh (chanFree c v)).hbu.breq, ?_⟩
  · change (chanGet c (chanFree c v)).state ≠ _
    rw [chanFree, chanGet_chanPut_same]
    dsimp only
    split <;> decide
  · rw [hgive, hnote]
    rfl

/-- The state of a completed command before its CMD_SLOT is freed: its queue's words, and the records it makes posted. -/
def postMarked (x : Slot) (s : State) : State :=
  let u := sqPut x.sq (if (sqGet x.sq s).state == .frozen then sqGet x.sq s
    else { sqGet x.sq s with lastStatus := x.status, lastDetail := x.detail }) s
  { u with skb := { u.skb with recs := u.skb.recs.map fun (j, r) =>
      if !r.posted && r.order == x.order && r.kind != .parity && !r.retired then (j, { r with posted := true }) else (j, r) } }

/-- The completion of a scoreboard queue that holds none and whose ring raises no interrupt ends with its CMD_SLOT free. -/
theorem completed_scoreboard {i : Nat} {x : Slot} {s : State} (hmode : (sqGet x.sq s).cmode = false)
    (hfirst : (sqGet x.sq s).first = none) (hien : (cqGet (sqCq x.sq s) s).ien = false) :
    completed i x s = slotFree i (postMarked x s) := by
  simp only [completed, postMarked]
  generalize hq : (if (sqGet x.sq s).state == .frozen then sqGet x.sq s
    else { sqGet x.sq s with lastStatus := x.status, lastDetail := x.detail }) = q
  have hkept : q.cmode = false ∧ q.first = none ∧ q.cqSel = (sqGet x.sq s).cqSel := by
    rw [← hq]
    split
    · exact ⟨hmode, hfirst, rfl⟩
    · exact ⟨hmode, hfirst, rfl⟩
  obtain ⟨hqmode, hqfirst, hsel⟩ := hkept
  have hheld : heldPosted i x.sq (sqPut x.sq q s) = sqPut x.sq q s := by simp [heldPosted, hqfirst]
  have hcq (u : Skb) : (cqGet (sqCq x.sq { sqPut x.sq q s with skb := u }) { sqPut x.sq q s with skb := u }).ien = false := by
    have hsame : sqCq x.sq { sqPut x.sq q s with skb := u } = sqCq x.sq s := by
      change sqCq x.sq (sqPut x.sq q s) = _
      simp only [sqCq, sqGet_sqPut_same, hsel]
    rw [hsame]
    exact hien
  simp only [hqmode, Bool.false_eq_true, if_false, hheld, hcq]

/-- A completion's bytes stand in queue-ring SRAM. -/
def sramWritten (x : Slot) (s : State) : State :=
  { s with hbu := { s.hbu with ringSram := memWriteList s.hbu.ringSram (postPlace x s).2.1 (postPlace x s).2.2 } }

/-- A completion queue whose record at the tail is written. -/
def Cq.written (k : Cq) : Cq :=
  let t := (k.tail + 1) % depthOf k.depthLog2
  { k with tail := t, phase := if t = 0 then !k.phase else k.phase, posted := ctrInc k.posted }

/-- A completed command whose record stands at the tail of its completion queue, before its CMD_SLOT is freed. -/
def recordPosted (x : Slot) (s : State) : State := postMarked x (cqAdvance (sqCq x.sq s) (sramWritten x s))

theorem cqGet_cqAdvance (c : Fin 32) (s : State) : cqGet c (cqAdvance c s) = (cqGet c s).written := cqGet_cqPut_same ..

theorem recordPosted_writes (x : Slot) (s : State) : recordPosted x s = { s with
    hbu := { s.hbu with ringSram := memWriteList s.hbu.ringSram (postPlace x s).2.1 (postPlace x s).2.2 }
    queues := (recordPosted x s).queues, skb := (recordPosted x s).skb } := rfl

theorem slotGet_recordPosted (i : Nat) (x : Slot) (s : State) : slotGet i (recordPosted x s) = slotGet i s := rfl

theorem outstanding_recordPosted (x : Slot) (s : State) :
    (sqGet x.sq (recordPosted x s)).outstanding = (sqGet x.sq s).outstanding := by
  refine (congrArg Sq.outstanding (sqGet_sqPut_same ..)).trans ?_
  split <;> rfl

theorem cqGet_recordPosted (x : Slot) (s : State) :
    cqGet (sqCq x.sq s) (recordPosted x s) = (cqGet (sqCq x.sq s) s).written :=
  cqGet_cqAdvance (sqCq x.sq s) (sramWritten x s)

/-- The completion of a scoreboard in queue-ring SRAM is written, and its CMD_SLOT is freed. -/
theorem postNow_scoreboard {s : State} {i : Nat} {x : Slot} (hx : slotGet i s = some x) (hstage : x.stage = .done)
    (hmode : (sqGet x.sq s).cmode = false) (hfirst : (sqGet x.sq s).first = none)
    (hsram : (postPlace x s).1 = true) (hien : (cqGet (sqCq x.sq s) s).ien = false) :
    postNow i s = slotFree i (recordPosted x s) := by
  have hnow : postNow i s = postDone i x (sramWritten x s) := by
    simp only [postNow, hx, hstage, hsram]
    rfl
  have hmode' : (sqGet x.sq (sramWritten x s)).cmode = false := hmode
  rw [hnow, postDone, if_neg (by simp [hmode'])]
  refine completed_scoreboard hmode hfirst ?_
  exact (congrArg Cq.ien (cqGet_cqAdvance (sqCq x.sq s) (sramWritten x s))).trans hien

/-- The completion of a scoreboard in queue-ring SRAM is written at the tail's slot, and its CMD_SLOT is free. -/
theorem completionPost_scoreboard {s : State} {i : Nat} {x : Slot} (hrun : unitsRun s = true) (hx : slotGet i s = some x)
    (hstage : x.stage = .done) (hmode : (sqGet x.sq s).cmode = false) (hfirst : (sqGet x.sq s).first = none)
    (hacc : s.hbu.access = none) (hloc : (cqGet (sqCq x.sq s) s).loc = true) (hien : (cqGet (sqCq x.sq s) s).ien = false) :
    let k := cqGet (sqCq x.sq s) s
    let b := k.base.toNat + 16 * k.tail
    ∃ t, exec (.completionPost i) s = .next t ∧
      (∀ j < 16, memRead t.hbu.ringSram (b + j) = (recordBytes x (sqGet x.sq s).head k.phase).getD j 0) ∧
      (∀ a, a < b ∨ b + 16 ≤ a → memRead t.hbu.ringSram a = memRead s.hbu.ringSram a) ∧
      (cqGet (sqCq x.sq s) t).tail = (k.tail + 1) % depthOf k.depthLog2 ∧
      (cqGet (sqCq x.sq s) t).posted = ctrInc k.posted ∧ slotGet i t = none ∧
      (sqGet x.sq t).outstanding = (sqGet x.sq s).outstanding - 1 ∧ t.hbu.mailbox = s.hbu.mailbox ∧
      t = { s with hbu := t.hbu, queues := t.queues, ledger := t.ledger, skb := t.skb } := by
  have hplace : postPlace x s = (true, (cqGet (sqCq x.sq s) s).base.toNat + 16 * (cqGet (sqCq x.sq s) s).tail,
      recordBytes x (sqGet x.sq s).head (cqGet (sqCq x.sq s) s).phase) := by
    simp only [postPlace, hmode, Bool.false_eq_true, if_false]
    rw [hloc]
  have hnow := postNow_scoreboard hx hstage hmode hfirst (congrArg Prod.fst hplace) hien
  have hframe := recordPosted_writes x s
  have hcount := outstanding_recordPosted x s
  have hcq := cqGet_recordPosted x s
  have hx' : slotGet i (recordPosted x s) = some x := (slotGet_recordPosted ..).trans hx
  rw [hplace] at hframe
  generalize recordPosted x s = u at hnow hframe hcount hcq hx'
  obtain ⟨hgone, hown, -, hcqs, hrest⟩ := slotFree_spec hx'
  have hexec : exec (.completionPost i) s = .next (busRefresh (slotFree i u)) := by
    have hidle : (slotFree i u).hbu.access = none := by
      rw [hrest, hframe]
      exact hacc
    change execCompletionPost i s = _
    simp only [execCompletionPost, onlyIf, hrun, if_true, hnow, accessBegun_none hidle]
  have hmem : (busRefresh (slotFree i u)).hbu.ringSram = memWriteList s.hbu.ringSram
      ((cqGet (sqCq x.sq s) s).base.toNat + 16 * (cqGet (sqCq x.sq s) s).tail)
      (recordBytes x (sqGet x.sq s).head (cqGet (sqCq x.sq s) s).phase) := by
    change (slotFree i u).hbu.ringSram = _
    rw [hrest, hframe]
  have hlen : (recordBytes x (sqGet x.sq s).head (cqGet (sqCq x.sq s) s).phase).length = 16 := by
    simp [recordBytes, leBytes]
  refine ⟨_, hexec, fun j hj => ?_, fun b hb => ?_, ?_, ?_, hgone, ?_, ?_, ?_⟩
  · rw [hmem, memRead_memWriteList_in _ _ _ _ (by omega)]
  · rw [hmem, memRead_memWriteList_out _ _ _ _ (by omega)]
  · exact ((hcqs _).1).trans (by rw [hcq]; rfl)
  · exact ((hcqs _).2).trans (by rw [hcq]; rfl)
  · exact (congrArg Sq.outstanding hown).trans (by rw [Sq.released_outstanding, hcount])
  · change (slotFree i u).hbu.mailbox = _
    rw [hrest, hframe]
  · rw [hrest, hframe]
    rfl

/-- A completion whose write reaches the part itself freezes its queue, and its CMD_SLOT is free. -/
theorem completionWriteFault_freezes {s : State} {i : Nat} {a : Access} {h : MCycle} {rest : List MCycle} {f : Xfer} {x : Slot}
    (hrun : unitsRun s = true) (hten : s.hbu.tenure.isSome = true) (hacc : s.hbu.access = some a) (hakind : a.kind = .post i)
    (hcyc : a.cycles = h :: rest) (haddr : h.addr < 2 ^ 24) (hcur : (chanGet a.chan s).cur = some f)
    (hxfer : a.xfer = some f.id) (hkind : f.kind = .post i) (hleft : f.leftover s = false) (hx : slotGet i s = some x)
    (hmode : (sqGet x.sq s).cmode = false) (hstate : (sqGet x.sq s).state = .running) :
    reaches (.completionWriteFault i true (BitVec.ofNat 24 h.addr)) s fun t =>
      (sqGet x.sq t).state = .frozen ∧ (chanGet a.chan t).cur = none ∧ slotGet i t = none ∧ t.hbu.access = none ∧
      t.hbu.mailbox = s.hbu.mailbox ∧ t.hbu.ringSram = s.hbu.ringSram ∧ t.skb.recs = s.skb.recs ∧ t.scratch = s.scratch := by
  refine reaches_of_guard rfl (by simp [hrun, hten, posting, hakind, cycleAt, hacc, hcyc]; omega) ?_
  have hcycle : cycleFault true s =
      busRefresh (accessFault a dtSelfAccess h.addr (noteBus dtSelfAccess (unitAddr h.addr s) (tenureCycle s))) := by
    simp [cycleFault, hacc, hcyc]
  obtain ⟨n, g, hten⟩ := tenureCycle_writes s
  obtain ⟨-, hrest⟩ := noteBus_writes (.inr ⟨rfl, rfl, rfl⟩) (unitAddr h.addr s) (tenureCycle s)
  rw [hcycle]
  generalize noteBus dtSelfAccess (unitAddr h.addr s) (tenureCycle s) = u at hrest
  rw [hten] at hrest
  have hcur' : (chanGet a.chan { u with hbu := { u.hbu with access := none } }).cur = some f := by rw [hrest]; exact hcur
  have hleft' : f.leftover { u with hbu := { u.hbu with access := none } } = false := by rw [hrest]; exact hleft
  have hfault : accessFault a dtSelfAccess h.addr u =
      boundary a.chan (busFault a.chan dtSelfAccess h.addr { u with hbu := { u.hbu with access := none } }) := by
    simp [accessFault, hxfer, hcur', workFault, hleft', hkind]
  obtain ⟨hfree, hcalm, ten, req, hstop⟩ :=
    postStopped_writes a.chan f dtSelfAccess h.addr { u with hbu := { u.hbu with access := none } }
  obtain ⟨b, hpost⟩ := busFault_post hcur' hkind dtSelfAccess h.addr
  rw [hfault, hpost]
  generalize postStopped a.chan f dtSelfAccess h.addr { u with hbu := { u.hbu with access := none } } = v at *
  rw [hrest] at hstop
  have hx' : slotGet i v = some x := by rw [hstop]; exact hx
  have hmode' : (sqGet x.sq v).cmode = false := by rw [hstop]; exact hmode
  have hstate' : (sqGet x.sq v).state = .running := by rw [hstop]; exact hstate
  obtain ⟨hfrozen, hgone⟩ := completionFault_frozen hx' hmode' hstate' b
  obtain ⟨hscratch, hdma, haccess, hmail, hram, hrecs⟩ := completionFault_offBus i b v
  have hchan : chanGet a.chan (completionFault i b v) = chanGet a.chan v := by rw [chanGet, hdma]; rfl
  rw [boundary_calm (by rwa [hchan])]
  refine ⟨hfrozen, (congrArg Chan.cur hchan).trans hfree, hgone, haccess.trans ?_, hmail.trans ?_, hram.trans ?_,
    hrecs.trans ?_, hscratch.trans ?_⟩
  · rw [hstop]
  · rw [hstop]
  · rw [hstop]
  · rw [hstop]
  · rw [hstop]

/-- Settles O30. -/
theorem completionsArePosted : Obligations.CompletionsArePosted := by
  unfold Obligations.CompletionsArePosted
  refine ⟨fun s i x hrun hx hstage hmode hfirst hacc => completionPost_scoreboard hrun hx hstage hmode hfirst hacc,
    fun s st hrun htimer hpend hclear => ?_,
    fun s i a h rest f x hrun hten hacc hakind hcyc haddr hcur hxfer hkind hleft hx hmode hstate =>
      completionWriteFault_freezes hrun hten hacc hakind hcyc haddr hcur hxfer hkind hleft hx hmode hstate,
    fun s i self addr hnot => reaches_same rfl (by simp [hnot])⟩
  refine reaches_of_guard rfl (by simp [hrun, htimer]) ?_
  have hclear' : cplClear st (pendPut st 0 false s) = true := hclear
  dsimp only
  rw [if_pos (by simp [hpend, hclear'])]
  exact ⟨(vector_get_set ..).trans (if_pos rfl), (vector_get_set ..).trans (if_pos rfl), by rw [sirqSet, aliasGet_aliasPut_same]; rfl, rfl⟩

end Sys2Proof.Machine
end

section
/-! The part as a target of the host bus: cycles, posted writes, whistles and the waits on the PIO FIFOs (R188 to R201, R214,
R221). -/

namespace Sys2Proof.Machine
open Sys2Proof.Safety

/-! ## Target cycles on a 32-bit bus -/

theorem busBytes_word {s : State} (h : s.restart.straps.width = 2) : busBytes s = 4 := by
  simp [busBytes, widthBytes, h]

/-- A full cycle on a 32-bit bus enables every lane of its word. -/
theorem cycleLanes_word {s : State} (h : s.restart.straps.width = 2) (n : Nat) : cycleLanes (n / 4 * 4) 0xF#4 s = 0xF#4 := by
  simp [cycleLanes, busBytes_word h]

theorem unitOff_word {s : State} (h : s.restart.straps.width = 2) (n : Nat) : unitOff n s = n / 4 * 4 := by
  simp [unitOff, busBytes_word h]

/-- A cycle on a free bus of a part that is awake runs at once. -/
theorem takeCycle_awake {s : State} (hfree : busFree s = true) (hawake : awake s) (c : Cycle) : takeCycle c s = runCycle c s := by
  obtain ⟨hrun, hentry, hordered, hdue⟩ := hawake
  have hwake := wake_of_run hrun hentry hordered hdue
  simp [takeCycle, hfree, hrun, hwake]

theorem laneMask_full (w : Word) : w &&& laneMask 0xF#4 = w := by
  have hmask : laneMask 0xF#4 = BitVec.allOnes 32 := by decide
  rw [hmask, BitVec.and_allOnes]

/-- A full read on a 32-bit bus runs as a read of its whole word. -/
theorem runCycle_read {s : State} (h : s.restart.straps.width = 2) (off : BitVec 16) :
    runCycle ⟨false, off, 0xF, 0, false⟩ s = readCycle false (off.toNat / 4 * 4) 0xF s := by
  simp [runCycle, unitOff_word h, cycleLanes_word h, laneAligned]

theorem runCycle_write {s : State} (h : s.restart.straps.width = 2) (off : BitVec 16) (w : Word) :
    runCycle ⟨true, off, 0xF, w, false⟩ s = writeCycle (off.toNat / 4 * 4) 0xF w s := by
  simp [runCycle, unitOff_word h, cycleLanes_word h, laneAligned, cycleData]

theorem readOut_word (al : Fin 8) (n : Nat) (v : Word) (s : State) :
    readOut false al (n / 4 * 4) 0xF v s = { s with hbu := { s.hbu with readData := some v } } := by
  simp [readOut, onlyIf, laneMask_full]

theorem drainAlias_empty {al : Fin 8} {s : State} (h : (aliasGet al s).buf = []) : drainAlias al s = s := by
  simp [drainAlias, h]

theorem drainAll_empty {s : State} (h : ∀ a, (aliasGet a s).buf = []) : drainAll s = s :=
  List.foldl_fixed' (fun a => drainAlias_empty (h a)) _

theorem foldl_zero {α : Type} (l : List α) : (l.map fun _ => 0).foldl (· + ·) 0 = 0 := by
  induction l with
  | nil => rfl
  | cons a t ih => exact ih

theorem postedCount_empty {s : State} (h : ∀ a, (aliasGet a s).buf = []) : postedCount s = 0 := by
  have hall : ∀ a ∈ s.hbu.aliases.toList, a.buf.length = 0 := by
    intro a ha
    obtain ⟨k, hk, rfl⟩ := List.mem_iff_getElem.mp ha
    have hbuf := h ⟨k, by simpa using hk⟩
    simp only [aliasGet, Vector.get_eq_getElem] at hbuf
    simpa using hbuf
  rw [postedCount, List.map_congr_left hall]
  exact foldl_zero _

/-- A word of the window outside its registers and DATA ports is posted last in its studio's buffer. -/
theorem writeCycle_posts {u : Nat} {l : Lanes} {w : Word} {s : State} (hwidth : s.restart.straps.width = 2)
    (hpio : ∀ st, spotOf (u / 4 * 4) s ≠ .pioData st) :
    writeCycle u l w s = post (aliasOf (spotOf (u / 4 * 4) s) s) ⟨BitVec.ofNat 16 (u / 4 * 4), l, w⟩ s := by
  simp only [writeCycle, busBytes_word hwidth]
  cases hx : spotOf (u / 4 * 4) s with
  | pioData st => exact absurd hx (hpio st)
  | reg st r => simp
  | lens st b => simp
  | pioReg st r => simp
  | mailbox b => simp
  | ring b => simp
  | mirror r => simp
  | reserved st => simp

theorem post_room {al : Fin 8} {s : State} (h : (aliasGet al s).buf.length < 16) (p : Posted) :
    post al p s = aliasPut al { aliasGet al s with buf := (aliasGet al s).buf ++ [p] } s := by
  simp [post, onlyIf, Nat.not_le.mpr h]

/-- A write that the host ends early is dropped, noted and counted. -/
theorem earlyNote_logged (al : Fin 8) (u : Nat) (s : State) :
    counterGet 0x12 (earlyNote al u true s) = ctrInc (counterGet 0x12 s) ∧
      earlyNote al u true s = { s with
        hbu := { s.hbu with flags := s.hbu.flags ||| 16#10 }, log := (earlyNote al u true s).log
        ring := (earlyNote al u true s).ring, nv := (earlyNote al u true s).nv } := by
  have hcount : counterGet 0x12 (logRec .hbEarlyEnd (noteAt al u ++ [1]) s) = ctrInc (counterGet 0x12 s) := by
    simp [counterGet_logRec, Code.info]
  exact ⟨hcount, by apply State.ext <;> simp [earlyNote, hbFlag, hbEarly]⟩

theorem deniedNote_logged (st : Fin 8) (u : Nat) (w : Bool) (s : State) :
    counterGet 0x17 (deniedNote st u w s) = ctrInc (counterGet 0x17 s) ∧
      deniedNote st u w s = { s with
        hbu := { s.hbu with flags := s.hbu.flags ||| 64#10 }, log := (deniedNote st u w s).log
        ring := (deniedNote st u w s).ring, nv := (deniedNote st u w s).nv } := by
  have hcount (l : List Byte) : counterGet 0x17 (logRec .mbxDenied l s) = ctrInc (counterGet 0x17 s) := by
    simp [counterGet_logRec, Code.info]
  exact ⟨hcount _, by apply State.ext <;> simp [deniedNote, hbFlag, hbMbx]⟩

/-- A read of the mailbox with an empty buffer. -/
theorem readCycle_mailbox {u b : Nat} {s : State} (hspot : spotOf (u / 4 * 4) s = .mailbox b)
    (hbuf : (aliasGet (fin8 (b / 1024)) s).buf = []) : readCycle false u 0xF s =
      readOut false (fin8 (b / 1024)) u 0xF (mailboxRead (fin8 (b / 1024)) u b s).1 (mailboxRead (fin8 (b / 1024)) u b s).2 := by
  have hdrain := drainAlias_empty hbuf
  simp [readCycle, hspot, snapHit, Spot.isReg, Spot.isWhistle, aliasOf, hdrain, memLive]

theorem runCycle_early {s : State} (h : s.restart.straps.width = 2) (off : BitVec 16) (w : Word) :
    runCycle ⟨true, off, 0xF, w, true⟩ s =
      earlyNote (aliasOf (spotOf (off.toNat / 4 * 4 / 4 * 4) s) s) (off.toNat / 4 * 4) true
        (onlyIf (spotOf (off.toNat / 4 * 4 / 4 * 4) s).isMirror (armAge .mirror) s) := by
  simp [runCycle, unitOff_word h, cycleLanes_word h]

theorem armAge_mirror (s : State) : armAge .mirror s = { s with pathM := (armAge .mirror s).pathM } := by
  simp only [armAge]
  split
  · rfl
  · rfl

/-- The registers of a studio block lie at their offsets. -/
theorem spotOf_block (st : Fin 8) {r : Nat} (hr : r ≤ 0x40) (s : State) : spotOf (0x200 * st.val + r) s = .reg st r := by
  have hlow : 0x200 * st.val + r < 0x1000 := by omega
  have hmod : (0x200 * st.val + r) % 0x200 = r := by omega
  have hdiv : (0x200 * st.val + r) / 0x200 = st.val := by omega
  have hfin : fin8 st.val = st := Fin.ext (Nat.mod_eq_of_lt st.isLt)
  simp only [spotOf, hlow, hmod, hdiv, hfin, if_true, if_neg (show ¬0x100 ≤ r by omega), if_pos hr]

/-- A full read of a register on a 32-bit bus with empty buffers. -/
theorem readCycle_reg {u : Nat} {s : State} (hwidth : s.restart.straps.width = 2) (hreg : (spotOf (u / 4 * 4) s).isReg = true)
    (hempty : ∀ a, (aliasGet a s).buf = []) : readCycle false u 0xF s =
      readOut false (aliasOf (spotOf (u / 4 * 4) s) s) u 0xF (regLive (spotOf (u / 4 * 4) s) 0xF 0 s).1
        (regLive (spotOf (u / 4 * 4) s) 0xF 0 s).2 := by
  have hsnap : snapHit (spotOf (u / 4 * 4) s) (aliasOf (spotOf (u / 4 * 4) s) s) (u / 4 * 4) 0xF s = none := by
    simp [snapHit, busBytes_word hwidth]
  have hdrain : (if (spotOf (u / 4 * 4) s).isWhistle then drainAll s
      else drainAlias (aliasOf (spotOf (u / 4 * 4) s) s) s) = s := by
    split
    · exact drainAll_empty hempty
    · exact drainAlias_empty (hempty _)
  simp only [readCycle, hsnap, hdrain, hreg, postedCount_empty hempty, busBytes_word hwidth]
  rfl

/-- The mirror's WSEQ counts, and the arm of its path is one access older. -/
def mirrorCounted (s : State) : State :=
  { armAge .mirror s with hbu := { (armAge .mirror s).hbu with mirWseq := (armAge .mirror s).hbu.mirWseq + 1 } }

/-- A read of WHISTLE through the mirror. -/
theorem regLive_mirrorWhistle (s : State) : regLive (.mirror 0x50) 0xF 0 s =
    (flg 31 (commitOn .mirror s) ||| fld 0 (s.hbu.mirWseq + 1).toNat,
      { armAge .mirror s with hbu := { s.hbu with mirWseq := s.hbu.mirWseq + 1 } }) := by
  have hhbu : (armAge .mirror s).hbu = s.hbu := by simp
  have hcommit (n : BitVec 16) : commitOn .mirror { armAge .mirror s with hbu := { s.hbu with mirWseq := n } } =
      commitOn .mirror s := commitOn_armAge .mirror s
  have hlive : regLive (.mirror 0x50) 0xF 0 s = (whistleWord .mirror 0 (mirrorCounted s), mirrorCounted s) := rfl
  rw [hlive, whistleWord, mirrorCounted, hhbu, hcommit]
  simp [fld]

/-- What a byte memory reads after bytes were written at offsets of a base. -/
theorem memRead_foldl (g : Nat → Byte) (b a : Nat) (l : List Nat) (m : List Host.Cell) :
    memRead (l.foldl (fun m k => memWrite m (b + k) (g k)) m) a = if b ≤ a ∧ a - b ∈ l then g (a - b) else memRead m a := by
  induction l generalizing m with
  | nil => simp
  | cons k t ih =>
    rw [List.foldl_cons, ih, memRead_memWrite]
    by_cases hk : b + k = a
    · subst hk
      simp
    · have hmem : (b ≤ a ∧ a - b ∈ k :: t) ↔ b ≤ a ∧ a - b ∈ t := by
        refine and_congr_right fun hle => ?_
        rw [List.mem_cons, or_iff_right (by omega)]
      simp only [hmem, if_neg hk]

theorem aliasPut_same (al : Fin 8) (s : State) : aliasPut al (aliasGet al s) s = s := by
  simp [aliasPut, aliasGet, Vector.get_eq_getElem]

/-- An entry of the mailbox that the studio may write puts its enabled bytes there. -/
theorem applyPosted_mailbox {al : Fin 8} {p : Posted} {b : Nat} {s : State} (hspot : spotOf p.off.toNat s = .mailbox b)
    (hallow : mailboxAllows (fin8 (b / 1024)) b true s = true) : applyPosted al p s =
      { s with hbu := { s.hbu with mailbox := memPutLanes s.hbu.mailbox b p.lanes p.data } } := by
  have hkeep : snapDrop (.mailbox b) al p.off.toNat s = s := by
    unfold snapDrop
    dsimp only
    split
    · simp [Spot.isReg]
    · rfl
  simp [applyPosted, hspot, hkeep, mailboxWrite, hallow]

/-- A full W1C write of S_IRQ_STAT clears what is written with 1 and drops a snapshot of the register. -/
theorem applyPosted_irqStat (st : Fin 8) (w : Word) (s : State) :
    applyPosted st ⟨BitVec.ofNat 16 (0x200 * st.val + 0x30), 0xF, w⟩ s = aliasPut st { aliasGet st s with
      irqStat := (aliasGet st s).irqStat &&& ~~~ w.truncate 6
      snap := (aliasGet st s).snap.filter fun y => y.1.toNat != 0x200 * st.val + 0x30 } s := by
  have hoff : (BitVec.ofNat 16 (0x200 * st.val + 0x30)).toNat = 0x200 * st.val + 0x30 := by
    rw [BitVec.toNat_ofNat]
    omega
  have hspot (u : State) := spotOf_block st (r := 0x30) (by decide) u
  have hdrop : snapDrop (.reg st 0x30) st (0x200 * st.val + 0x30) s = aliasPut st { aliasGet st s with
      snap := (aliasGet st s).snap.filter fun y => y.1.toNat != 0x200 * st.val + 0x30 } s := by
    have hkeep (h : ((aliasGet st s).snap.filter fun y => y.1.toNat != 0x200 * st.val + 0x30) = (aliasGet st s).snap) :
        aliasPut st { aliasGet st s with
          snap := (aliasGet st s).snap.filter fun y => y.1.toNat != 0x200 * st.val + 0x30 } s = s := by
      rw [h]
      exact aliasPut_same st s
    cases hsnap : (aliasGet st s).snap with
    | none =>
      rw [← hsnap, hkeep (by rw [hsnap]; rfl)]
      simp [snapDrop, keepGet, Spot.isMirror, hsnap]
    | some y =>
      by_cases hy : y.1.toNat = 0x200 * st.val + 0x30
      · simp [snapDrop, keepGet, keepPut, Spot.isMirror, Spot.isReg, hsnap, hy, Option.filter]
      · rw [← hsnap, hkeep (by rw [hsnap]; simp [Option.filter, hy])]
        simp [snapDrop, keepGet, Spot.isMirror, Spot.isReg, hsnap, hy]
  simp only [applyPosted, hoff, hspot, hdrop]
  have hclear (u : State) : blockWrite st 0x30 0xF w u = sIrqClear st w u := rfl
  rw [hclear, sIrqClear, aliasGet_aliasPut_same]
  simp [aliasPut]

/-- Settles O36. -/
theorem targetCycles : Obligations.TargetCycles := by
  unfold Obligations.TargetCycles
  refine ⟨fun s off w hfree hawake hwidth => ⟨?_, fun hpio hroom => ?_, ?_, fun b hspot hbuf => ⟨fun hallow => ?_, fun hdeny => ?_⟩,
    fun hempty => ⟨fun st => ?_, fun hmir => ?_⟩⟩, fun s al p rest b hlive hbuf hspot hallow => ?_, fun s st w hlive => ?_⟩
  · refine ⟨_, congrArg Host.Outcome.next ((takeCycle_awake hfree hawake _)), ?_⟩
    simp [runCycle, cycleLanes]
  · refine ⟨_, congrArg Host.Outcome.next ((takeCycle_awake hfree hawake _).trans (runCycle_write hwidth off w)), ?_⟩
    have hword : off.toNat / 4 * 4 / 4 * 4 = off.toNat / 4 * 4 := by omega
    rw [writeCycle_posts hwidth (by rwa [hword]), hword, post_room hroom]
  · refine ⟨_, congrArg Host.Outcome.next ((takeCycle_awake hfree hawake _).trans (runCycle_early hwidth off w)), ?_⟩
    have hword : off.toNat / 4 * 4 / 4 * 4 = off.toNat / 4 * 4 := by omega
    rw [hword]
    cases hmir : (spotOf (off.toNat / 4 * 4) s).isMirror with
    | true =>
      obtain ⟨hcount, hrest⟩ := earlyNote_logged (aliasOf (spotOf (off.toNat / 4 * 4) s) s) (off.toNat / 4 * 4) (armAge .mirror s)
      simp only [onlyIf, if_true]
      generalize earlyNote _ _ true (armAge .mirror s) = v at *
      rw [counterGet_armAge] at hcount
      rw [armAge_mirror] at hrest
      exact ⟨by rw [hrest], hcount, by rw [hrest], fun h => absurd h (by simp)⟩
    | false =>
      obtain ⟨hcount, hrest⟩ := earlyNote_logged (aliasOf (spotOf (off.toNat / 4 * 4) s) s) (off.toNat / 4 * 4) s
      simp only [onlyIf, Bool.false_eq_true, if_false]
      generalize earlyNote _ _ true s = v at *
      exact ⟨by rw [hrest], hcount, by rw [hrest], fun _ => by rw [hrest]⟩
  · have hword : off.toNat / 4 * 4 / 4 * 4 = off.toNat / 4 * 4 := by omega
    refine ⟨_, congrArg Host.Outcome.next ((takeCycle_awake hfree hawake _).trans (runCycle_read hwidth off)), ?_⟩
    rw [readCycle_mailbox (by rwa [hword]) hbuf, readOut_word]
    simp [mailboxRead, hallow]
  · have hword : off.toNat / 4 * 4 / 4 * 4 = off.toNat / 4 * 4 := by omega
    refine ⟨_, congrArg Host.Outcome.next ((takeCycle_awake hfree hawake _).trans (runCycle_read hwidth off)), ?_⟩
    have hread (u : Nat) : mailboxRead (fin8 (b / 1024)) u b s = (0, deniedNote (fin8 (b / 1024)) u false s) := by
      simp [mailboxRead, hdeny]
    rw [readCycle_mailbox (by rwa [hword]) hbuf, readOut_word, hread]
    obtain ⟨hcount, hrest⟩ := deniedNote_logged (fin8 (b / 1024)) (off.toNat / 4 * 4) false s
    generalize deniedNote (fin8 (b / 1024)) (off.toNat / 4 * 4) false s = u at hcount hrest
    exact ⟨by rw [hrest], hcount, by rw [hrest]⟩
  · refine ⟨_, congrArg Host.Outcome.next ((takeCycle_awake hfree hawake _).trans (runCycle_read hwidth _)), ?_⟩
    have hoff : (BitVec.ofNat 16 (0x200 * st.val + 0x38)).toNat / 4 * 4 = 0x200 * st.val + 0x38 := by
      rw [BitVec.toNat_ofNat]
      omega
    have hword : (0x200 * st.val + 0x38) / 4 * 4 = 0x200 * st.val + 0x38 := by omega
    have hspot := spotOf_block st (r := 0x38) (by decide) s
    dsimp only
    have hlive : regLive (.reg st 0x38) 0xF 0 s = (fld 0 ((aliasGet st s).wseq + 1).toNat,
        aliasPut st { aliasGet st s with wseq := (aliasGet st s).wseq + 1 } s) := by
      change (blockRead st 0x38 0 (aliasPut st _ s), aliasPut st _ s) = _
      simp [blockRead, fld]
    rw [hoff, readCycle_reg hwidth (by rw [hword, hspot]; rfl) hempty, hword, hspot, hlive, ← hword, readOut_word]
  · have hexec : exec (.whistleRead none) s = .next (readCycle false 0x8050 0xF s) := by
      change Host.Outcome.next (onlyIf _ _ _) = _
      rw [hmir]
      exact congrArg Host.Outcome.next ((takeCycle_awake hfree hawake _).trans (runCycle_read hwidth (BitVec.ofNat 16 0x8050)))
    have hspot : spotOf 0x8050 s = .mirror 0x50 := by simp [spotOf, hmir]
    have hread := readCycle_reg (u := 0x8050) hwidth (by rw [hspot]; rfl) hempty
    rw [hspot, regLive_mirrorWhistle] at hread
    exact ⟨_, hexec, hread.trans (readOut_word _ 0x8050 _ _)⟩
  · have hexec : exec (.postedWriteApply al) s = .next (applyPosted al p (aliasPut al { aliasGet al s with buf := rest } s)) := by
      change execPostedWriteApply al s = _
      simp [execPostedWriteApply, onlyIf, hlive, applyHead, hbuf]
    have hspot' : spotOf p.off.toNat (aliasPut al { aliasGet al s with buf := rest } s) = .mailbox b := hspot
    rw [applyPosted_mailbox hspot' hallow] at hexec
    have hread (a : Nat) := memRead_foldl (fun k => p.data.extractLsb' (8 * k) 8) b a ((List.range 4).filter (lane p.lanes))
      s.hbu.mailbox
    refine ⟨_, hexec, ?_, fun k hk hlane => ?_, fun a ha => ?_, rfl, rfl⟩
    · exact congrArg Alias.buf (aliasGet_aliasPut_same ..)
    · refine (hread (b + k)).trans ?_
      simp [hk, hlane]
    · refine (hread a).trans (if_neg ?_)
      rintro ⟨hle, hmem⟩
      simp only [List.mem_filter, List.mem_range] at hmem
      exact ha _ hmem.1 hmem.2 (by omega)
  · refine reaches_of_guard rfl hlive ?_
    exact applyPosted_irqStat ..

/-! ## Waits on the PIO FIFOs -/

theorem pioOff_toNat (st : Fin 8) : (BitVec.ofNat 16 (pioOff st)).toNat = pioOff st := by
  rw [BitVec.toNat_ofNat, pioOff]
  omega

theorem spotOf_pioOff (st : Fin 8) (s : State) : spotOf (pioOff st) s = .pioData st := by
  have hfin : fin8 ((0x1000 + 0x200 * st.val) / 0x200) = st := Fin.ext (by simp [fin8, Fin.ofNat]; omega)
  have hlow : ¬0x1000 + 0x200 * st.val < 0x1000 := by omega
  have hhigh : 0x1000 + 0x200 * st.val < 0x2000 := by omega
  have hdata : (0x1000 + 0x200 * st.val) % 0x200 < 0x1F0 := by omega
  simp only [spotOf, pioOff, hlow, hhigh, hdata, hfin, if_true, if_false]

theorem aliasPut_aliasPut (i : Fin 8) (a b : Alias) (s : State) : aliasPut i a (aliasPut i b s) = aliasPut i a s := by
  simp [aliasPut]

theorem unitOfLanes_word {s : State} (hwidth : s.restart.straps.width = 2) (o : Nat) (l : Lanes) : unitOfLanes o l s = o := by
  have hlow : lowLane l / busBytes s = 0 := by
    rw [busBytes_word hwidth]
    exact Nat.div_eq_of_lt (by unfold lowLane; split <;> [omega; split <;> [omega; split <;> omega]])
  simp [unitOfLanes, hlow]

theorem pushApply_command {st : Fin 8} {i : Nat} {q : Nat} {rem : Nat} {l : Lanes} {w : Word} {s : State}
    (hcur : (aliasGet st s).pioCur = some (i, q, false, rem)) :
    pushApply st l w s = aliasPut st { aliasGet st s with
      pio := (aliasGet st s).pio ++ laneBytes l w, pioCur := some (i, q, false, rem - laneCount l) } s := by
  simp only [pushApply, hcur]

/-- A pop that leaves bytes of its command to come, of a CMD_SLOT whose end is not held. -/
theorem popApply_more {st : Fin 8} {i : Nat} {q : Nat} {rem : Nat} {l : Lanes} {s : State}
    (hcur : (aliasGet st s).pioCur = some (i, q, true, rem)) (hrem : rem ≠ laneCount l)
    (hending : (slotGet i s).bind (·.ending) = none) :
    popApply st l s = (laneSpread l ((aliasGet st s).pio.take (laneCount l)), aliasPut st { aliasGet st s with
      pio := (aliasGet st s).pio.drop (laneCount l), pioCur := some (i, q, true, rem - laneCount l) } s) := by
  have hend (v : State) (hv : slotGet i v = slotGet i s) : endDrained i v = v := by
    unfold endDrained
    rw [hv]
    cases hslot : slotGet i s with
    | none => rfl
    | some x =>
      rw [hslot] at hending
      have hx : x.ending = none := hending
      simp only [hx]
  simp only [popApply, hcur, onlyIf, beq_iff_eq, hrem, if_false]
  exact congrArg (Prod.mk _) (hend _ rfl)

theorem readOut_data (st : Fin 8) (u : Nat) (l : Lanes) (v : Word) (s : State) (h : u % 4 = 0) :
    readOut false st u l v s = { s with hbu := { s.hbu with readData := some (v &&& laneMask l) } } := by
  simp [readOut, onlyIf, h]

theorem readOut_zero (st : Fin 8) (u : Nat) (l : Lanes) (s : State) :
    readOut false st u l 0 s = { s with hbu := { s.hbu with readData := some 0 } } := by
  simp [readOut, onlyIf]

/-- A push that enters an empty buffer takes effect at once when the buffer is drained. -/
theorem drainAlias_push {st : Fin 8} {l : Lanes} {w : Word} {s : State} (hbuf : (aliasGet st s).buf = []) :
    drainAlias st (post st ⟨BitVec.ofNat 16 (pioOff st), l, w⟩ s) = pushApply st l w s := by
  have happly : applyPosted st ⟨BitVec.ofNat 16 (pioOff st), l, w⟩ s = pushApply st l w s := by
    have hkeep : snapDrop (.pioData st) st (pioOff st) s = s := by
      unfold snapDrop
      dsimp only
      split
      · simp [Spot.isReg]
      · rfl
    simp only [applyPosted, pioOff_toNat, spotOf_pioOff, hkeep]
  have hempty : ({ aliasGet st s with buf := [] } : Alias) = aliasGet st s := by rw [← hbuf]
  rw [post_room (by simp [hbuf])]
  simp only [drainAlias, hbuf, List.nil_append, aliasGet_aliasPut_same, List.foldl_cons, List.foldl_nil, applyHead,
    aliasPut_aliasPut, hempty, aliasPut_same, happly]

/-- The note of a wait that runs out. -/
theorem pioNote_logged (st : Fin 8) (push : Bool) (n : Nat) (s : State) :
    counterGet (if push then 0x19 else 0x1A) (pioNote st push n s) = ctrInc (counterGet (if push then 0x19 else 0x1A) s) ∧
      pioNote st push n s = { s with
        hbu := { s.hbu with flags := s.hbu.flags ||| 32#10 }, log := (pioNote st push n s).log
        ring := (pioNote st push n s).ring, nv := (pioNote st push n s).nv } := by
  cases push with
  | false =>
    have hcount (l : List Byte) : counterGet 0x1A (logRec .pioEmpty l s) = ctrInc (counterGet 0x1A s) := by
      simp [counterGet_logRec, Code.info]
    exact ⟨hcount _, by apply State.ext <;> simp [pioNote, hbFlag, hbPio]⟩
  | true =>
    have hcount (l : List Byte) : counterGet 0x19 (logRec .pioFull l s) = ctrInc (counterGet 0x19 s) := by
      simp [counterGet_logRec, Code.info]
    exact ⟨hcount _, by apply State.ext <;> simp [pioNote, hbFlag, hbPio]⟩

/-- Settles O37. -/
theorem waitingPioAccesses : Obligations.WaitingPioAccesses := by
  unfold Obligations.WaitingPioAccesses
  intro s st l w early more hlive
  refine ⟨fun i q rem hwait hcur hbuf hrem hroom => ?_, fun i q rem hwait hcur hwidth hfits hrem hending => ?_,
    fun hwait => ?_, fun hwait => ?_, fun hwait => ⟨?_, ?_, ?_⟩⟩
  · have hposted : pioPosted (aliasGet st s) s = 0 := by simp [pioPosted, hbuf]
    have hfits : pushFits (laneCount l) (aliasGet st s) s = true := by simp [pushFits, hcur, hposted, hrem, hroom]
    have hexec : exec (.pioPush st) s = .next (pushApply st l w (aliasPut st { aliasGet st s with pioWait := more } s)) := by
      have hdrain := drainAlias_push (l := l) (w := w) (s := aliasPut st { aliasGet st s with pioWait := more } s)
        (by rw [aliasGet_aliasPut_same]; exact hbuf)
      change execPioPush st s = _
      simp only [execPioPush, hwait, onlyIf, hlive, hfits, Bool.and_self, if_true, hdrain]
    refine ⟨_, hexec, (pushApply_command (by rw [aliasGet_aliasPut_same]; exact hcur)).trans ?_⟩
    rw [aliasGet_aliasPut_same, aliasPut_aliasPut]
  · have hpop : popFits (laneCount l) (aliasGet st s) = true := by simp [popFits, pioWith, hcur, hfits]
    have happly := popApply_more (s := aliasPut st { aliasGet st s with pioWait := more } s) (l := l)
      (by rw [aliasGet_aliasPut_same]; exact hcur) hrem hending
    rw [aliasGet_aliasPut_same, aliasPut_aliasPut] at happly
    have hexec : exec (.pioPop st) s = .next (readOut false st (pioOff st) l
        (popApply st l (aliasPut st { aliasGet st s with pioWait := more } s)).1
        (popApply st l (aliasPut st { aliasGet st s with pioWait := more } s)).2) := by
      change execPioPop st s = _
      simp only [execPioPop, hwait, onlyIf, hlive, hpop, Bool.and_self, if_true]
      rw [unitOfLanes_word (by rw [happly]; exact hwidth)]
    refine ⟨_, hexec, ?_⟩
    rw [happly, readOut_data _ _ _ _ _ (by unfold pioOff; omega)]
  · have hnote := pioNote_logged st true (laneCount l) (aliasPut st { aliasGet st s with pioWait := more } s)
    have hexec : exec (.pioWaitExpiry st) s =
        .next (pioNote st true (laneCount l) (aliasPut st { aliasGet st s with pioWait := more } s)) := by
      change execPioWaitExpiry st s = _
      simp only [execPioWaitExpiry, hwait, onlyIf, hlive, if_true]
    obtain ⟨hcount, hrest⟩ := hnote
    generalize pioNote st true (laneCount l) (aliasPut st { aliasGet st s with pioWait := more } s) = u at *
    exact ⟨_, hexec, congrArg State.hbu hrest, hcount, congrArg (fun v : State => { v with hbu := u.hbu }) hrest⟩
  · have hnote := pioNote_logged st false (laneCount l) (aliasPut st { aliasGet st s with pioWait := more } s)
    have hexec : exec (.pioWaitExpiry st) s = .next (readOut false st
        (unitOfLanes (pioOff st) l (pioNote st false (laneCount l) (aliasPut st { aliasGet st s with pioWait := more } s))) l 0
        (pioNote st false (laneCount l) (aliasPut st { aliasGet st s with pioWait := more } s))) := by
      change execPioWaitExpiry st s = _
      simp only [execPioWaitExpiry, hwait, onlyIf, hlive, if_true, Bool.false_eq_true, if_false]
    obtain ⟨hcount, hrest⟩ := hnote
    generalize pioNote st false (laneCount l) (aliasPut st { aliasGet st s with pioWait := more } s) = u at *
    rw [readOut_zero] at hexec
    exact ⟨_, hexec, congrArg (fun v : State => { v.hbu with readData := some 0 }) hrest, hcount,
      congrArg (fun v : State => { v with hbu := { u.hbu with readData := some 0 } }) hrest⟩
  · exact ⟨s, by change execPioPush st s = _; simp [execPioPush, hwait], rfl⟩
  · exact ⟨s, by change execPioPop st s = _; simp [execPioPop, hwait], rfl⟩
  · exact ⟨s, by change execPioWaitExpiry st s = _; simp [execPioWaitExpiry, hwait], rfl⟩

end Sys2Proof.Machine
end

section
/-! Studio resets and the Ledger's audit (R450 to R466). -/

namespace Sys2Proof.Machine
open Sys2Proof.Safety

/-- A part whose studio 2 has been RESETTING since TICK 0 and has nothing under way, at TICK 5, with units missing from
the first pool. -/
def resettingShort : State :=
  { State.reset with
    clk := { State.reset.clk with tick := 5 }
    studios := State.reset.studios.set 2 { state := .resetting }
    ledger := { State.reset.ledger with pools := State.reset.ledger.pools.set 0 { poolGet 0 State.reset with free := 3 } } }

/-- Refutes O38: the audit that fails takes the part to FAILSTOP, but the studio shows how long its reset took all the
same, so that the studios are not as before. -/
theorem not_studioResets : ¬ Obligations.StudioResets := by
  intro h
  obtain ⟨-, -, hend, -⟩ := h resettingShort 2
  have hends := hend (by decide +kernel) (by decide +kernel)
  obtain ⟨-, hfails, -⟩ := hends
  obtain ⟨t, ht, -, -, hstudios⟩ := hfails (by decide +kernel) (by decide +kernel)
  have hshown : (studioGet 2 t).resetTicks = 5 := by
    cases ht
    decide +kernel
  have hbefore : (studioGet 2 t).resetTicks = (studioGet 2 resettingShort).resetTicks :=
    congrArg (fun v => (v.get 2 : Studio).resetTicks) hstudios
  rw [hshown] at hbefore
  exact absurd hbefore (by decide +kernel)

end Sys2Proof.Machine
end

section
/-! The Ledger's audit, parity and the second tier (R450 to R453). -/

namespace Sys2Proof.Machine
open Sys2Proof.Safety

/-- A record that also goes into the black box: the next black-box number, and the code shown as the last one there. -/
theorem logRec_boxed {c : Code} (hbox : c.info.2.2 = true) (hheld : heldBack c.info.1 = false) (args : List Byte) (s : State) :
    (logRec c args s).nv.bseq = s.nv.bseq + 1 ∧ (logRec c args s).log.lastBb = BitVec.ofNat 8 c.info.1 := by
  simp only [logRec, logAs, hheld, Bool.false_and, Bool.false_eq_true, if_false]
  simp [logSums, hbox, bbCopy]

/-- FAILSTOP, entered from another level. -/
theorem failstop_entered {s : State} (h : s.restart.level ≠ .failstop) :
    (failstop s).restart.level = .failstop ∧ (failstop s).power.entry = none ∧ (failstop s).power.ordered = none ∧
      (failstop s).nv.bseq = s.nv.bseq ∧ (failstop s).log.lastBb = s.log.lastBb ∧
      (failstop s).log.counters = s.log.counters ∧ (failstop s).ledger = s.ledger ∧ (failstop s).skb = s.skb ∧
      (failstop s).members = s.members ∧ (failstop s).queues = s.queues := by
  simp [failstop, h, setLevel, irqSet]

theorem poolGet_failure_first {f : Option (Fin 8)} {s : State} {i : Fin 20} {k : BitVec 2} (h : auditFail f s = some (i, k)) :
    (∀ j, j < i → (poolGet j s).failure f = none) ∧ (poolGet i s).failure f = some k := by
  obtain ⟨before, a, after, hlist, ha, hbefore⟩ := List.findSome?_eq_some_iff.mp h
  simp only [Option.map_eq_some_iff, Prod.mk.injEq] at ha
  obtain ⟨k', hk, rfl, rfl⟩ := ha
  refine ⟨fun j hj => ?_, hk⟩
  have hsorted := List.pairwise_lt_finRange 20
  have hmem := List.mem_finRange j
  rw [hlist, List.pairwise_append] at hsorted
  rw [hlist, List.mem_append, List.mem_cons] at hmem
  obtain ⟨-, hafter, -⟩ := hsorted
  rw [List.pairwise_cons] at hafter
  obtain ⟨hafter, -⟩ := hafter
  rcases hmem with hin | rfl | hin
  · simpa using hbefore j hin
  · exact absurd hj (lt_irrefl _)
  · exact absurd (hafter j hin) (not_lt_of_gt hj)

/-- Settles O39. -/
theorem auditAndParity : Obligations.AuditAndParity := by
  intro s
  refine ⟨fun hruns hpass => ?_, fun i k hruns hfail => ?_, fun htick => ?_, fun unit a hrun hlevel => ?_⟩
  · refine reaches_of_guard rfl hruns ?_
    have hfail : auditFail none { s with ledger := { s.ledger with auditTick := s.clk.tick.truncate 24 } } = none := hpass
    simp only [audit, hfail]
  · obtain ⟨hbelow, hfirst⟩ := poolGet_failure_first hfail
    refine ⟨hbelow, hfirst, reaches_of_guard rfl hruns ?_⟩
    have hlevel : s.restart.level ≠ .failstop := by
      simp only [auditRuns, unitsUp, Bool.and_eq_true, bne_iff_ne] at hruns
      tauto
    have hfails : auditFail none { s with ledger := { s.ledger with auditTick := s.clk.tick.truncate 24 } } = some (i, k) := hfail
    simp only [audit, hfails]
    generalize hbad : ({ s with ledger := _ } : State) = u
    have hcommon : u.restart = s.restart ∧ u.nv = s.nv ∧ u.ledger.pools = s.ledger.pools ∧ u.ledger.fail = true ∧
      u.ledger.failPool = BitVec.ofNat 5 i.val ∧ u.ledger.failKind = k := by
        rw [← hbad]
        exact ⟨rfl, rfl, rfl, rfl, rfl, rfl⟩
    obtain ⟨hrestart, hnv, hpools, hshown, hpool, hkind⟩ := hcommon
    generalize auditArgs i k _ = l
    obtain ⟨hseq, hcode⟩ := logRec_boxed (c := .ledgerMismatch) rfl (by decide) l u
    obtain ⟨hstopped, -, -, hseq', hcode', -, hledger, -⟩ := failstop_entered (s := logRec .ledgerMismatch l u)
      (by simpa [hrestart] using hlevel)
    rw [hstopped, hledger, hseq', hcode', hseq, hcode, hnv]
    simp [hpools, hshown, hpool, hkind, Code.info]
  · exact reaches_same rfl (by simp [auditRuns, htick])
  · refine reaches_of_guard rfl hrun ?_
    obtain ⟨hseq, hcode⟩ := logRec_boxed (c := .ctrlParity) rfl (by decide) (unit :: leBytes 4 a.toNat) s
    have hcount : counterGet 0x0A (logRec .ctrlParity (unit :: leBytes 4 a.toNat) s) = ctrInc (counterGet 0x0A s) := by
      simp [counterGet_logRec, Code.info]
    obtain ⟨hstopped, hentry, hordered, hseq', hcode', hcounters, -, hskb, hmembers, hqueues⟩ :=
      failstop_entered (s := logRec .ctrlParity (unit :: leBytes 4 a.toNat) s) (by simpa using hlevel)
    refine ⟨hstopped, hseq'.trans hseq, hcode'.trans hcode, ?_, ?_, ?_, ?_, ?_, ?_, hentry, hordered⟩
    · rw [← hcount]
      exact congrArg (fun l => (kget 0x0A l).getD 0) hcounters
    all_goals simp [hskb, hmembers, hqueues]


/-- A failure of the second tier, however it was found. -/
theorem exec_tier2Fail {s : State} (hused : tier2Used s = true) {c : Instr} (hc : c = .tier2DqsTimeout ∨ c = .tier2CheckRead none ∨
    ∃ r : Half, r.toNat / 256 % 8 ≠ s.canvas.density.toNat ∧ c = .tier2CheckRead (some r)) :
    exec c s = .next (tier2Fail s) := by
  rcases hc with rfl | rfl | ⟨r, hr, rfl⟩
  · change execTier2DqsTimeout s = _
    simp only [execTier2DqsTimeout, onlyIf, hused, if_true]
  · change execTier2CheckRead none s = _
    simp only [execTier2CheckRead, onlyIf, hused, if_true]
  · change execTier2CheckRead (some r) s = _
    simp only [execTier2CheckRead, onlyIf, hused, hr, if_true, if_false]

/-- The second tier is lost: its tiles are dropped, its pool holds no unit, and the loss is counted. -/
theorem tier2Lose_leaves (s : State) :
    (tier2Lose s).canvas = { s.canvas with tier2 := [], fails := 0 } ∧ (poolGet pTier2 (tier2Lose s)).total = 0 ∧
      (poolGet pTier2 (tier2Lose s)).free = 0 ∧ counterGet 0x3B (tier2Lose s) = ctrInc (counterGet 0x3B s) ∧
      (∀ i, i ≠ pTier2 → poolGet i (tier2Lose s) = poolGet i s) ∧
      tier2Lose s = { s with canvas := (tier2Lose s).canvas, ledger := (tier2Lose s).ledger, log := (tier2Lose s).log
                             ring := (tier2Lose s).ring, nv := (tier2Lose s).nv } := by
  simp only [tier2Lose]
  generalize leBytes 2 s.canvas.tier2.length = l
  have hpool (i : Fin 20) (u : State) : poolGet i (logRec .tier2Lost l u) = poolGet i u := by simp [poolGet]
  have hcount (u : State) : counterGet 0x3B (logRec .tier2Lost l u) = ctrInc (counterGet 0x3B u) := by
    simp [counterGet_logRec, Code.info]
  refine ⟨by simp [tier2Total, canvasPut], ?_, ?_, hcount _, fun i hi => ?_, ?_⟩
  · rw [hpool]
    simp [tier2Total, Pool.full]
  · rw [hpool]
    simp [tier2Total, Pool.full]
  · rw [hpool]
    exact poolGet_poolPut_ne (h := hi.symm) ..
  · apply State.ext <;> simp [tier2Total, canvasPut, poolPut]

/-- Settles O40. -/
theorem secondTier : Obligations.SecondTier := by
  intro s hused
  refine ⟨reaches_of_guard rfl hused rfl, fun r hr => ?_, fun c hc => ⟨fun hfew => ?_, fun hmany => ?_⟩⟩
  · refine reaches_of_guard rfl hused ?_
    simp only [hr, if_true]
  · exact ⟨_, exec_tier2Fail hused hc, by simp only [tier2Fail, Nat.not_le.mpr hfew, if_false, canvasPut]⟩
  · obtain ⟨hcanvas, htotal, hfree, hcount, hpools, hrest⟩ := tier2Lose_leaves s
    refine ⟨_, exec_tier2Fail hused hc, ?_⟩
    simp only [tier2Fail, hmany, if_true]
    exact ⟨by rw [hcanvas], by rw [hcanvas], htotal, hfree, hcount, by rw [hcanvas], hpools, hrest⟩

end Sys2Proof.Machine
end

section
/-! Cards that come and go (R318 to R339). -/

namespace Sys2Proof.Machine
open Sys2Proof.Safety

/-! ## What a change of a member's state does -/

theorem memEnter_tbl (m : Fin 128) (new : MState) (cause : Byte) (s : State) :
    (memEnter m new cause s).members.tbl = (memPut m { memGet m s with
      state := new, lastChange := cause, changeTick := s.clk.tick.truncate 32 } s).members.tbl := by
  simp [memEnter, memPut]

theorem memState_tbl (m : Fin 128) (new : MState) (cause : Byte) (s : State) :
    (memState m new cause s).members.tbl = (memPut m { memGet m s with
      state := new, lastChange := cause, changeTick := s.clk.tick.truncate 32 } s).members.tbl := by
  rw [← memEnter_tbl]
  simp only [memState]
  (repeat' split) <;> simp

/-- A member after a change of its state. -/
@[simp] theorem memGet_memState_same (m : Fin 128) (new : MState) (cause : Byte) (s : State) :
    memGet m (memState m new cause s) =
      { memGet m s with state := new, lastChange := cause, changeTick := s.clk.tick.truncate 32 } :=
  (congrArg (·.get m) (memState_tbl m new cause s)).trans (memGet_memPut_same ..)

theorem memGet_memState_ne {m k : Fin 128} (h : m ≠ k) (new : MState) (cause : Byte) (s : State) :
    memGet k (memState m new cause s) = memGet k s :=
  (congrArg (·.get k) (memState_tbl m new cause s)).trans (memGet_memPut_ne (h := h) ..)

@[simp] theorem portGet_memState (p : Fin 8) (m : Fin 128) (new : MState) (cause : Byte) (s : State) :
    portGet p (memState m new cause s) = portGet p s := by
  have hports : (memState m new cause s).members.ports = s.members.ports := by
    simp only [memState]
    (repeat' split) <;> simp [memEnter, memPut]
  exact congrArg (·.get p) hports

/-- A packet that finds no link that is UP is counted, in 0x82 alone. -/
theorem counterGet_ringSend (fb : Bool) (x : Packet) (s : State) {e : Nat} (he : e ≠ 0x82) :
    counterGet e (ringSend fb x s) = counterGet e s := by
  simp only [ringSend]
  split
  · exact counterGet_congr (by simp) e
  · rw [counterGet_counterInc, if_neg he.symm]

/-- A change of a member's state is noted once. -/
theorem counterGet_memState (m : Fin 128) (new : MState) (cause : Byte) (s : State) :
    counterGet 0x30 (memState m new cause s) = ctrInc (counterGet 0x30 s) := by
  have henter : counterGet 0x30 (memEnter m new cause s) = ctrInc (counterGet 0x30 s) := by
    refine (counterGet_logAs _ _ _ _ _ _ (by decide)).trans ?_
    simp [Code.info]
    rfl
  rw [← henter]
  simp only [memState]
  (repeat' split)
  · rfl
  · exact counterGet_sendTo _ _ _ _ _ (by decide)
  · exact counterGet_ringSend _ _ _ (by decide)
  · rfl

/-! ## Power of a port, and a port without operations -/

theorem portPower_off (p : Fin 8) (s : State) : portPower p false s =
    memPut (ownMember p s) { memGet (ownMember p s) s with pad := 0, mode := 0 }
      (portPut p { portGet p s with
        powered := false, powerDue := false, offTicks := if (portGet p s).powered then 0 else (portGet p s).offTicks } s) := rfl

theorem portPower_on_early {p : Fin 8} {s : State} (hoff : (portGet p s).powered = false) (h : (portGet p s).offTicks < 1000) :
    portPower p true s = portPut p { portGet p s with powerDue := true } s := by
  simp [portPower, hoff, h]

theorem portPower_on {p : Fin 8} {s : State} (hoff : (portGet p s).powered = false) (h : 1000 ≤ (portGet p s).offTicks) :
    portPower p true s = portOn p s := by
  simp [portPower, hoff, Nat.not_lt.mpr h]

/-- No operation of a port waits or is issued. -/
@[reducible, simp] def PortIdle (x : Port) : Prop := x.issued = [] ∧ x.qa = [] ∧ x.qb = [] ∧ x.qc = []

theorem portAbort_idle {p : Fin 8} {s : State} (h : PortIdle (portGet p s)) (r : OpEnd) :
    portAbort p r s = portPut p { portGet p s with heldFail := none } s := by
  obtain ⟨hi, ha, hb, hc⟩ := h
  simp only [portAbort, hi, ha, hb, hc, List.append_nil, List.foldl_nil]

/-- What a change of one member of this node changes of the whole state. -/
@[reducible, simp] def MembersOnly (s t : State) : Prop :=
  t = { s with ledger := t.ledger, log := t.log, members := t.members, nv := t.nv, ring := t.ring }

theorem portGet_portOn (p : Fin 8) (s : State) : portGet p (portOn p s) =
    { portGet p s with powered := true, powerDue := false, cfg := (memGet (ownMember p s) s).cfg } :=
  (portGet_memPut ..).trans (portGet_portPut_same ..)

theorem memGet_portOn_cfg (p : Fin 8) (m : Fin 128) (s : State) : (memGet m (portOn p s)).cfg = (memGet m s).cfg := by
  have hown : ownMember p (portPut p { portGet p s with
      powered := true, powerDue := false, cfg := (memGet (ownMember p s) s).cfg } s) = ownMember p s := rfl
  simp only [portOn, memGet_memPut]
  split
  · next h => rw [← h]; rfl
  · rfl

theorem memGet_portOn_ne {p : Fin 8} {m : Fin 128} {s : State} (h : m ≠ ownMember p s) : memGet m (portOn p s) = memGet m s :=
  (memGet_memPut_ne (h := h.symm) ..).trans rfl

/-! ## Insertion -/

theorem ownMember_cdAccept (p q : Fin 8) (low : Bool) (s : State) : ownMember q (cdAccept p low s) = ownMember q s := rfl

theorem cardInserted_powers {p : Fin 8} {s : State}
    (hst : (memGet (ownMember p s) s).state = .absent ∨ (memGet (ownMember p s) s).state = .missing) :
    cardInserted p s = memState (ownMember p s) .probing chInserted (portPower p true (cdAccept p true s)) := by
  have hin : (memGet (ownMember p s) (cdAccept p true s)).state = .absent ∨
    (memGet (ownMember p s) (cdAccept p true s)).state = .missing := hst
  unfold cardInserted
  dsimp only
  rw [ownMember_cdAccept, if_pos (by simpa using hin)]

theorem cardInserted_leaves {p : Fin 8} {s : State} (hoff : (portGet p s).powered = false)
    (hst : (memGet (ownMember p s) s).state = .absent ∨ (memGet (ownMember p s) s).state = .missing) :
    (memGet (ownMember p s) (cardInserted p s)).state = .probing ∧
      (memGet (ownMember p s) (cardInserted p s)).lastChange = 0x01 ∧
      (memGet (ownMember p s) (cardInserted p s)).changeTick = s.clk.tick.truncate 32 ∧
      (memGet (ownMember p s) (cardInserted p s)).cfg = (memGet (ownMember p s) s).cfg ∧
      (1000 ≤ (portGet p s).offTicks → portGet p (cardInserted p s) = { portGet p s with
        cdLow := true, cdKnown := true, cdCount := 0, powered := true, powerDue := false,
        cfg := (memGet (ownMember p s) s).cfg }) ∧
      ((portGet p s).offTicks < 1000 → portGet p (cardInserted p s) = { portGet p s with
        cdLow := true, cdKnown := true, cdCount := 0, powerDue := true }) ∧
      (∀ m, m ≠ ownMember p s → memGet m (cardInserted p s) = memGet m s) ∧
      counterGet 0x30 (cardInserted p s) = ctrInc (counterGet 0x30 s) ∧ MembersOnly s (cardInserted p s) := by
  rw [cardInserted_powers hst]
  have hport : portGet p (cdAccept p true s) = { portGet p s with cdLow := true, cdKnown := true, cdCount := 0 } :=
    portGet_portPut_same ..
  have hframe : MembersOnly s (memState (ownMember p s) .probing chInserted (portPower p true (cdAccept p true s))) := by
    apply State.ext <;> simp [cdAccept]
  have hcount : counterGet 0x30 (memState (ownMember p s) .probing chInserted (portPower p true (cdAccept p true s))) =
      ctrInc (counterGet 0x30 s) := by
    rw [counterGet_memState]
    exact congrArg ctrInc (counterGet_congr (by simp [cdAccept]) _)
  rcases Nat.lt_or_ge (portGet p s).offTicks 1000 with hlow | hhigh
  · rw [portPower_on_early (by rw [hport]; exact hoff) (by rw [hport]; exact hlow), hport] at *
    rw [memGet_memState_same, portGet_memState, portGet_portPut_same]
    exact ⟨rfl, rfl, rfl, rfl, fun h => absurd h (Nat.not_le.mpr hlow), fun _ => rfl,
      fun m hm => (memGet_memState_ne hm.symm ..).trans rfl, hcount, hframe⟩
  · rw [portPower_on (by rw [hport]; exact hoff) (by rw [hport]; exact hhigh)] at *
    have hcfg : (memGet (ownMember p s) (portOn p (cdAccept p true s))).cfg = (memGet (ownMember p s) s).cfg :=
      memGet_portOn_cfg ..
    rw [memGet_memState_same, portGet_memState, portGet_portOn, hport]
    exact ⟨rfl, rfl, rfl, hcfg, fun _ => rfl, fun h => absurd hhigh (Nat.not_le.mpr h),
      fun m hm => (memGet_memState_ne hm.symm ..).trans (memGet_portOn_ne hm), hcount, hframe⟩

/-! ## A card that leaves its port -/

/-- The card of a port goes into a state without power, and the port's operations end. -/
def cardOut (p : Fin 8) (st : MState) (cause : Byte) (s : State) : State :=
  portAbort p .lost (memState (ownMember p s) st cause (portPower p false (portPut p { portGet p s with classM := none } s)))

theorem memLeave_inactive {p : Fin 8} {s : State} (hclass : (portGet p s).classM = none)
    (hactive : (memGet (ownMember p s) s).state ≠ .active) (hretired : (memGet (ownMember p s) s).state ≠ .retired)
    (st : MState) (cause : Byte) : memLeave p st cause s = cardOut p st cause s := by
  simp [memLeave, cardOut, hclass, hactive, hretired]

theorem portIdle_off {p : Fin 8} {s : State} (h : PortIdle (portGet p s)) (m : Fin 128) (st : MState) (cause : Byte) :
    PortIdle (portGet p (memState m st cause (portPower p false (portPut p { portGet p s with classM := none } s)))) := by
  simpa [portPower_off] using h

/-- What is left of a card without operations, of its port and of the rest. -/
theorem cardOut_leaves {p : Fin 8} {s : State} (h : PortIdle (portGet p s)) (st : MState) (cause : Byte) :
    (memGet (ownMember p s) (cardOut p st cause s)).state = st ∧
      (memGet (ownMember p s) (cardOut p st cause s)).lastChange = cause ∧
      (memGet (ownMember p s) (cardOut p st cause s)).mode = 0 ∧ (memGet (ownMember p s) (cardOut p st cause s)).pad = 0 ∧
      (portGet p (cardOut p st cause s)).powered = false ∧ (portGet p (cardOut p st cause s)).cdLow = (portGet p s).cdLow ∧
      (∀ m, m ≠ ownMember p s → memGet m (cardOut p st cause s) = memGet m s) ∧ MembersOnly s (cardOut p st cause s) := by
  have hown : ownMember p (portPut p { portGet p s with classM := none } s) = ownMember p s := rfl
  rw [cardOut, portAbort_idle (portIdle_off h ..)]
  simp only [memGet_portPut, portGet_portPut_same, memGet_memState_same, portGet_memState, portPower_off, hown,
    memGet_memPut_same, portGet_memPut]
  refine ⟨trivial, trivial, trivial, trivial, trivial, trivial, fun m hm => ?_, ?_⟩
  · rw [memGet_memState_ne hm.symm, memGet_memPut_ne (h := hm.symm)]
    rfl
  · apply State.ext <;> simp

theorem identify_cause (c : MemberCfg) (d : CardIdent) : (identify c d).1 = chIdentFailed ∨ (identify c d).1 = chUnsupported := by
  unfold identify
  split
  · exact .inl rfl
  · split
    · exact .inl rfl
    · split
      · exact .inr rfl
      · exact .inl rfl

/-! ## An identified card is classified -/

/-- The words of an entry that identification finds. -/
@[reducible, simp] def SameCard (x y : Member) : Prop :=
  y.capacity = x.capacity ∧ y.cid = x.cid ∧ y.kind = x.kind ∧ y.phase = x.phase ∧ y.sig = x.sig

/-- What discovery has found at a port. -/
@[reducible, simp] def SameFind (x y : Port) : Prop := y.discovered = x.discovered ∧ y.rungs = x.rungs

theorem roleMove_members (m : Fin 128) (s : State) : (roleMove m s).members = s.members := by
  unfold roleMove
  dsimp only
  (repeat' split) <;> simp

theorem portGet_congr {s t : State} (h : t.members = s.members) (p : Fin 8) : portGet p t = portGet p s :=
  congrArg (fun x => x.ports.get p) h

/-- The power-off of a RETIRED card leaves what is known of any card. -/
theorem retiredOff_keeps (m k : Fin 128) (p : Fin 8) (s : State) :
    SameCard (memGet k s) (memGet k (retiredOff m s)) ∧ (memGet k (retiredOff m s)).state = (memGet k s).state ∧
      SameFind (portGet p s) (portGet p (retiredOff m s)) := by
  unfold retiredOff
  split
  · simp only [portPower_off, memGet_memPut, portGet_memPut, memGet_portPut, portGet_portPut]
    constructor
    · split
      · next h => rw [h]; simp
      · simp
    · constructor
      · split
        · next h => rw [h]
        · rfl
      · split
        · next h => rw [h]; simp
        · simp
  · have hmembers := memberSet_members m s
    rw [memGet_congr (h := hmembers), portGet_congr (h := hmembers)]
    simp

/-- A card that classify turns into a clone is another one. -/
theorem classify_clone_ne {m k : Fin 128} {s : State} (h : (classify m s).2.2 = some k) : k ≠ m := by
  have hcard {a : Fin 4} {i : Nat} (hr : roleCard a i m s = some k) : k ≠ m := by
    have hk := List.find?_some hr
    simp only [Bool.and_eq_true, bne_iff_ne] at hk
    exact hk.1.1
  unfold classify at h
  dsimp only at h
  repeat' split at h
  all_goals simp only [reduceCtorEq, Option.some.injEq] at h
  subst h
  next hr _ => exact hcard hr

/-- The other card that a classification turns into a clone. -/
def cloneOut (clone : Option (Fin 128)) (s : State) : State :=
  match clone with
  | none => s
  | some k => memState k .foreign chClone s

theorem classified_eq (m : Fin 128) (mend : Option Bool) (s : State) : ∃ due sm,
    let u := onlyIf ((classify m s).1 == .retired) (retiredOff m)
      (roleMove m (memState m (classify m s).1 (classify m s).2.1 (cloneOut (classify m s).2.2 s)))
    classified m mend s = memPut m { memGet m u with sigDue := due, sigMend := sm } u :=
  ⟨_, _, rfl⟩

theorem classified_leaves (m : Fin 128) (mend : Option Bool) (p : Fin 8) (s : State) :
    (memGet m (classified m mend s)).state = (classify m s).1 ∧ SameCard (memGet m s) (memGet m (classified m mend s)) ∧
      SameFind (portGet p s) (portGet p (classified m mend s)) := by
  rcases hc : classify m s with ⟨st, cause, clone⟩
  have hclone : memGet m (cloneOut clone s) = memGet m s ∧ portGet p (cloneOut clone s) = portGet p s := by
    cases clone with
    | none => exact ⟨rfl, rfl⟩
    | some k => exact ⟨memGet_memState_ne (classify_clone_ne (by rw [hc])) .., portGet_memState ..⟩
  obtain ⟨due, sm, heq⟩ := classified_eq m mend s
  rw [heq, hc]
  dsimp only
  generalize cloneOut clone s = u at *
  obtain ⟨hmem, hport⟩ := hclone
  have hentered : SameCard (memGet m s) (memGet m (roleMove m (memState m st cause u))) ∧
      (memGet m (roleMove m (memState m st cause u))).state = st ∧
      SameFind (portGet p s) (portGet p (roleMove m (memState m st cause u))) := by
    rw [memGet_congr (h := roleMove_members ..), portGet_congr (h := roleMove_members ..)]
    simp [hmem, hport]
  obtain ⟨hcard, hstate, hfind⟩ := hentered
  generalize roleMove m (memState m st cause u) = v at *
  have hoff : SameCard (memGet m v) (memGet m (onlyIf (st == .retired) (retiredOff m) v)) ∧
      (memGet m (onlyIf (st == .retired) (retiredOff m) v)).state = (memGet m v).state ∧
      SameFind (portGet p v) (portGet p (onlyIf (st == .retired) (retiredOff m) v)) := by
    unfold onlyIf
    split
    · exact retiredOff_keeps m m p v
    · simp
  simp only [memGet_memPut_same, portGet_memPut]
  generalize onlyIf (st == .retired) (retiredOff m) v = w at *
  exact ⟨hoff.2.1.trans hstate, by simp_all, by simp_all⟩

theorem portPut_same (p : Fin 8) (s : State) : portPut p (portGet p s) s = s := by
  simp [portPut, portGet, Vector.get_eq_getElem]

theorem signatureRead_found {p : Fin 8} {d : CardIdent} {s : State} {cause : Byte} {f : Found} {sig : Option Sig}
    {mend : Option Bool} (hman : isManager s = true) (hstate : (memGet (ownMember p s) s).state = .probing)
    (hmode : (memGet (ownMember p s) s).mode = 0) (hon : (portGet p s).powered = true) (hclass : (portGet p s).classM = none)
    (hid : identify (portGet p s).cfg d = (cause, some f)) (hsig : chooseSig d.copyA d.copyB = some (sig, mend)) :
    signatureRead p d s = classified (ownMember p s) mend (portFound p (identEntry p d f sig mend s)) := by
  have hsame : portPut p { portGet p s with classM := none } s = s := by
    have hport : ({ portGet p s with classM := none } : Port) = portGet p s := by rw [← hclass]
    rw [hport, portPut_same]
  have hman' : isManager (portFound p (identEntry p d f sig mend s)) = true := hman
  unfold signatureRead
  dsimp only
  rw [if_neg (by simp [hstate, hmode, hon]), hid]
  dsimp only
  rw [hsig]
  dsimp only
  rw [hsame, hclass]
  dsimp only
  rw [cardFound, if_pos hman']
  rfl

/-- What identification finds enters the entry and the port. -/
theorem identEntry_enters (p : Fin 8) (d : CardIdent) (f : Found) (sig : Option Sig) (mend : Option Bool) (s : State) :
    SameCard { memGet (ownMember p s) s with
        capacity := d.capacity, cid := d.cid, kind := f.kind, phase := f.take.2, sig := sig }
      (memGet (ownMember p s) (portFound p (identEntry p d f sig mend s))) ∧
      (portGet p (portFound p (identEntry p d f sig mend s))).discovered = true ∧
      (portGet p (portFound p (identEntry p d f sig mend s))).rungs = f.rungs := by
  have hmem : memGet (ownMember p s) (portFound p (identEntry p d f sig mend s)) = { memGet (ownMember p s) s with
      kind := f.kind, mode := f.take.1, pad := f.pad, eraseOnes := d.eraseOnes, capacity := d.capacity, cid := d.cid,
      cidHash := crc32c d.cid.toList, phase := f.take.2, identMs := d.ms, steps := 0, sig := sig, sigMend := mend } :=
    memGet_memPut_same ..
  have hport : portGet p (portFound p (identEntry p d f sig mend s)) = { portGet p s with
      rungs := f.rungs, limit := if f.kind == 3 then none else limitOf (portGet p s).cfg d, discovered := true } := by
    refine (portGet_portPut_same ..).trans ?_
    have hrungs : portGet p (identEntry p d f sig mend s) = { portGet p s with
        rungs := f.rungs, limit := if f.kind == 3 then none else limitOf (portGet p s).cfg d } := portGet_portPut_same ..
    rw [hrungs]
  rw [hmem, hport]
  simp

theorem identFail_plain {p : Fin 8} {s : State} (hclass : (portGet p s).classM = none) (cause : Byte)
    (hstate : (memGet (ownMember p s) s).state = .probing) :
    identFail p cause s = cardOut p .failed cause (portFound p s) := by
  have hclass' : (portGet p (portFound p s)).classM = none := (congrArg Port.classM (portGet_portPut_same ..)).trans hclass
  have hstate' : (memGet (ownMember p (portFound p s)) (portFound p s)).state = .probing := hstate
  simp only [identFail, hclass']
  exact memLeave_inactive hclass' (by simp [hstate']) (by simp [hstate']) ..

/-! ## The loss of a member leaves the MISSING cards where they are -/

/-- For each port of a node: nothing, or where its card is MISSING, its power, its accepted level of card
detect and its class M reset. -/
def lostCards (n : BitVec 4) (x : Members) (p : Fin 8) : Option (Bool × Bool × Option (MState × Option Sig)) :=
  if (x.tbl.get (Fin.ofNat 128 (8 * n.toNat + p.val))).state = .missing then
    some ((x.ports.get p).powered, (x.ports.get p).cdLow, (x.ports.get p).classM)
  else none

@[simp] theorem lostCards_ite (n : BitVec 4) (c : Prop) [Decidable c] (x y : Members) :
    lostCards n (if c then x else y) = if c then lostCards n x else lostCards n y := apply_ite ..
@[simp] theorem ite_node (c : Prop) [Decidable c] (x y : Ident) : (if c then x else y).node = if c then x.node else y.node :=
  apply_ite ..

theorem lostCards_congr {n : BitVec 4} {x y : Members}
    (htbl : ∀ m, (y.tbl.get m).state = .missing ↔ (x.tbl.get m).state = .missing)
    (hport : ∀ p, (y.ports.get p).powered = (x.ports.get p).powered ∧ (y.ports.get p).cdLow = (x.ports.get p).cdLow ∧
      (y.ports.get p).classM = (x.ports.get p).classM) :
    lostCards n y = lostCards n x := by
  funext p
  obtain ⟨h1, h2, h3⟩ := hport p
  simp only [lostCards, htbl, h1, h2, h3]

theorem lostCards_memPut {n : BitVec 4} {m : Fin 128} {x : Member} {s : State}
    (h : x.state = .missing ↔ (memGet m s).state = .missing) : lostCards n (memPut m x s).members = lostCards n s.members := by
  refine lostCards_congr (fun k => ?_) fun p => ⟨rfl, rfl, rfl⟩
  have hk := memGet_memPut (s := s) m k x
  change (memGet k (memPut m x s)).state = _ ↔ (memGet k s).state = _
  rw [hk]
  split
  · next e => rw [← e, h]
  · rfl

theorem lostCards_portPut {n : BitVec 4} {p : Fin 8} {x : Port} {s : State}
    (h : x.powered = (portGet p s).powered ∧ x.cdLow = (portGet p s).cdLow ∧ x.classM = (portGet p s).classM) :
    lostCards n (portPut p x s).members = lostCards n s.members := by
  refine lostCards_congr (fun k => .rfl) fun q => ?_
  change (portGet q (portPut p x s)).powered = (portGet q s).powered ∧ (portGet q (portPut p x s)).cdLow = (portGet q s).cdLow ∧
    (portGet q (portPut p x s)).classM = (portGet q s).classM
  rw [portGet_portPut]
  split
  · next e => rw [← e]; exact h
  · exact ⟨rfl, rfl, rfl⟩

/-- The member of the port of a card of this node. -/
theorem ownMember_portOf {m : Fin 128} {s : State} (h : isOwn m s = true) : ownMember (portOf m) s = m := by
  have hnode : (nodeOf m).toNat = s.ident.node.toNat := by
    rw [eq_of_beq h]
  have hm := m.isLt
  simp only [nodeOf, BitVec.toNat_ofNat] at hnode
  simp only [ownMember, portOf]
  apply Fin.ext
  simp only [Fin.ofNat]
  omega

theorem foldl_chosen {α : Type} {f : Option α → α → Option α} (hf : ∀ b a, f b a = b ∨ f b a = some a) {m : α} (l : List α)
    (b : Option α) (h : l.foldl f b = some m) : b = some m ∨ m ∈ l := by
  induction l generalizing b with
  | nil => exact .inl h
  | cons a l ih =>
    rcases ih _ h with hb | hin
    · rcases hf b a with e | e
      · exact .inl (e ▸ hb)
      · rw [e, Option.some.injEq] at hb
        exact .inr (hb ▸ List.mem_cons_self)
    · exact .inr (List.mem_cons_of_mem _ hin)

/-- The card that takes a lost one's place is on the BENCH. -/
theorem benchChoice_bench {a : Fin 4} {lost m : Fin 128} {s : State} (h : benchChoice a lost s = some m) :
    (memGet m s).state ≠ .missing := by
  unfold benchChoice at h
  extract_lets ok same at h
  have hin := foldl_chosen (fun b a => by cases b with
    | none => exact .inr rfl
    | some b =>
      dsimp only
      split
      · exact .inr rfl
      · exact .inl rfl) _ _ h
  have hok : m ∈ ok := by
    rcases hin with h0 | hin
    · exact nomatch h0
    · split at hin
      · exact hin
      · exact List.mem_of_mem_filter hin
  simp only [ok, List.mem_filter, Bool.and_eq_true, beq_iff_eq] at hok
  obtain ⟨-, ⟨⟨hbench, -⟩, -⟩, -⟩ := hok
  simp [hbench]

/-- What the loss of a member leaves of the cards that are MISSING: their ports stay as they are, and no other card becomes MISSING. -/
@[reducible, simp] def Seated (s t : State) : Prop :=
  t.ident.node = s.ident.node ∧ ∀ n, n = s.ident.node → lostCards n t.members = lostCards n s.members

theorem Seated.refl (s : State) : Seated s s := by simp
theorem Seated.trans {s t u : State} (h : Seated t u) (k : Seated s t) : Seated s u := by
  obtain ⟨hnode, hlost⟩ := h
  obtain ⟨knode, klost⟩ := k
  exact ⟨hnode.trans knode, fun n hn => (hlost n (hn.trans knode.symm)).trans (klost n hn)⟩

theorem foldl_seatedOn {α β : Type} (part : β → State) (g : β → α → β)
    (h : ∀ b a, Seated (part b) (part (g b a))) (l : List α) (b : β) : Seated (part b) (part (l.foldl g b)) := by
  induction l generalizing b with
  | nil => exact .refl _
  | cons a t ih => exact (ih _).trans (h b a)
theorem foldl_seated {α : Type} (g : State → α → State) (h : ∀ s a, Seated s (g s a)) (l : List α) (s : State) :
    Seated s (l.foldl g s) := foldl_seatedOn id g h l s
@[simp] theorem onlyIf_seated (c : Bool) (f : State → State) (s : State) (h : Seated s (f s)) :
    Seated s (onlyIf c f s) := by
  cases c <;> simp [onlyIf, h]

@[simp] theorem sirqSet_seated (st : Fin 8) (b : Nat) (s : State) : Seated s (sirqSet st b s) := by
  simp [sirqSet, aliasPut]
@[simp] theorem aliasPut_seated (i : Fin 8) (a : Alias) (s : State) : Seated s (aliasPut i a s) := by
  simp [aliasPut]
@[simp] theorem canvasPut_seated (c : Canvas) (s : State) : Seated s (canvasPut c s) := by simp
theorem portPut_seated {p : Fin 8} {x : Port} {s : State}
    (h : x.powered = (portGet p s).powered ∧ x.cdLow = (portGet p s).cdLow ∧ x.classM = (portGet p s).classM) : Seated s (portPut p x s) :=
  ⟨rfl, fun _ _ => lostCards_portPut h⟩

@[simp] theorem enqueue_powered (o : MOp) (x : Port) : (x.enqueue o).powered = x.powered := by
  unfold Port.enqueue
  split <;> rfl
@[simp] theorem enqueue_cdLow (o : MOp) (x : Port) : (x.enqueue o).cdLow = x.cdLow := by
  unfold Port.enqueue
  split <;> rfl
@[simp] theorem enqueue_classM (o : MOp) (x : Port) : (x.enqueue o).classM = x.classM := by
  unfold Port.enqueue
  split <;> rfl
@[simp] theorem createOp_seated (o : MOp) (s : State) : Seated s (createOp o s) := by
  unfold createOp
  dsimp only
  generalize hu : ({ s with members := _ } : State) = u
  have hstart : Seated s u := by
    subst hu
    exact ⟨rfl, fun _ _ => rfl⟩
  split
  · exact (portPut_seated (by simp)).trans hstart
  · exact Seated.trans (by simp) hstart
@[simp] theorem ringRequest_seated (k : BitVec 4) (kind : ReqKind) (s : State) :
    Seated s (ringRequest k kind s) := by simp
@[simp] theorem slotPut_seated (i : Nat) (x : Slot) (s : State) : Seated s (slotPut i x s) := by simp
@[simp] theorem poolGive_seated (i : Fin 20) (who : Option (Fin 8)) (n : Nat) (s : State) :
    Seated s (poolGive i who n s) := by simp
@[simp] theorem arrPut_seated (a : Fin 4) (x : Arr) (s : State) : Seated s (arrPut a x s) := by simp
@[simp] theorem poolTake_seated (i : Fin 20) (who : Option (Fin 8)) (n : Nat) (s : State) :
    Seated s (poolTake i who n s) := by simp
@[simp] theorem tilePut_seated (n : Nat) (t : Tile) (s : State) : Seated s (tilePut n t s) := by simp
@[simp] theorem logRec_seated (c : Code) (args : List Byte) (s : State) : Seated s (logRec c args s) := by simp


@[simp] theorem progReq_seated (o : ProgOp) (s : State) : Seated s (progReq o s) := by simp
@[simp] theorem sqPut_seated (q : Fin 32) (x : Sq) (s : State) : Seated s (sqPut q x s) := by simp
@[simp] theorem irqSet_seated (b : Nat) (s : State) : Seated s (irqSet b s) := by simp
@[simp] theorem logAs_seated (c : Code) (cls : LogClass) (studio : Option (Fin 8)) (args : List Byte) (s : State) :
    Seated s (logAs c cls studio args s) := by simp
@[simp] theorem fabricMake_node (s : State) : (fabricMake s).ident.node = s.ident.node := by
  unfold fabricMake
  split <;> rfl
@[simp] theorem nvCommit_seated (c : NvChange) (s : State) : Seated s (nvCommit c s) := by
  unfold nvCommit
  split <;> simp
@[simp] theorem counterInc_seated (e : Nat) (s : State) : Seated s (counterInc e s) := by simp
@[simp] theorem poolAsk_seated (r : PoolReq) (s : State) : Seated s (poolAsk r s).2 := by
  simp only [poolAsk]
  split <;> simp
@[simp] theorem forcedUpdate_seated (s : State) : Seated s (forcedUpdate s) := by
  simp [forcedUpdate]
theorem allocPage_seated {s r : State} {n : Nat} (h : allocPage s = some (n, r)) : Seated s r := by
  obtain ⟨_, _, h⟩ := Option.map_eq_some_iff.mp h
  cases h
  exact Seated.refl _
@[simp] theorem freePages_seated (l : List Nat) (s : State) : Seated s (freePages l s) := by
  simp [freePages]
@[simp] theorem tileDrop_seated (n : Nat) (s : State) : Seated s (tileDrop n s) := by
  simp only [tileDrop]
  split <;> simp
@[simp] theorem tier2Drop_seated (n : Nat) (s : State) : Seated s (tier2Drop n s) := by
  simp only [tier2Drop]
  split <;> simp
@[simp] theorem tilesDrop_seated (l : List Nat) (s : State) : Seated s (tilesDrop l s) := by
  simp [tilesDrop, foldl_seated]
@[simp] theorem dropWhere_seated (f : Bind → Bool) (s : State) : Seated s (dropWhere f s) := by
  simp [dropWhere, foldl_seated]
@[simp] theorem workDrop_seated (w : Work) (s : State) : Seated s (workDrop w s) := by simp [workDrop]
@[simp] theorem cleanTiles_seated (s : State) : Seated s (cleanTiles s) := by simp [cleanTiles]
@[simp] theorem dropOps_seated (f : MOp → Bool) (s : State) : Seated s (dropOps f s) :=
  ⟨rfl, fun _ _ => lostCards_congr (fun _ => .rfl) (fun p => by simp [dropOps, Vector.get_eq_getElem])⟩
@[simp] theorem markFailed_seated (w : Work) (c : ChunkAt) (row : Nat) (s : State) :
    Seated s (markFailed w c row s) := by
  simp [markFailed]
@[simp] theorem lockDrop_seated (f : Lock → Bool) (s : State) : Seated s (lockDrop f s) := by
  simp [lockDrop, foldl_seated]
@[simp] theorem cmdRelease_seated (i : Nat) (s : State) : Seated s (cmdRelease i s) := by
  unfold cmdRelease
  split
  · exact Seated.refl _
  · simp
@[simp] theorem whistleBreak_seated (q : Fin 32) (s : State) : Seated s (whistleBreak q s) := by
  simp [whistleBreak]
@[simp] theorem kickOff_seated (q : Fin 32) (s : State) : Seated s (kickOff q s) := by simp [kickOff]
@[simp] theorem freezeQueue_seated (q : Fin 32) (x : Slot) (held : Option Nat) (cause : Bool) (s : State) :
    Seated s (freezeQueue q x held cause s) := by
  simp [freezeQueue]
@[simp] theorem xferNew_seated (k : XferKind) (st : Fin 8) (src dst : Side) (len : Nat) (s : State) :
    Seated s (xferNew k st src dst len s) := by
  simp [xferNew]
@[simp] theorem cmdDone_seated (i : Nat) (x : Slot) (s : State) : Seated s (cmdDone i x s) := by
  have hput : Seated s (slotPut i { x with stage := .done } s) := by simp
  have hnew (k : XferKind) (st : Fin 8) (n : Nat) (u : State) : Seated u (xferNew k st .device .device n u) := by
    simp [xferNew]
  unfold cmdDone
  dsimp only
  split
  · exact (hnew ..).trans hput
  · exact hput
@[simp] theorem xferDrop_seated (f : Xfer → Bool) (s : State) : Seated s (xferDrop f s) := by
  simp [xferDrop, foldl_seated]
@[simp] theorem pioEnd_seated (i : Nat) (s : State) : Seated s (pioEnd i s) := by simp [pioEnd]
@[simp] theorem decideCmd_seated (i : Nat) (status detail : Byte) (result : Word) (s : State) :
    Seated s (decideCmd i status detail result s) := by
  simp only [decideCmd]
  (repeat' split) <;> simp
@[simp] theorem endCmd_seated (i : Nat) (status detail : Byte) (result : Word) (s : State) :
    Seated s (endCmd i status detail result s) := by
  simp only [endCmd]
  (repeat' split) <;> simp
@[simp] theorem volsNote_seated (f : Vol → Bool) (s : State) : Seated s (volsNote f s) :=
  foldl_seated _ (fun u v => by split <;> simp) _ s
@[simp] theorem volsFollow_seated (a : Fin 4) (s : State) : Seated s (volsFollow a s) := by
  simp [volsFollow]
@[simp] theorem setArr_seated (a : Fin 4) (x : Arr) (s : State) : Seated s (setArr a x s) := by
  simp [setArr]
@[simp] theorem genNext_seated (a : Fin 4) (s : State) : Seated s (genNext a s) := by
  simp [genNext]
@[simp] theorem advance_seated (a : Fin 4) (s : State) : Seated s (advance a s) := by simp [advance]
@[simp] theorem advancesDue_seated (s : State) : Seated s (advancesDue s) :=
  foldl_seated _ (fun u a => by split <;> simp) _ s
@[simp] theorem flushesEnd_seated (a : Fin 4) (s : State) : Seated s (flushesEnd a s) := by
  simp [flushesEnd, foldl_seated]
@[simp] theorem volTrimDrop_seated (a : Fin 4) (s : State) : Seated s (volTrimDrop a s) := by
  simp [volTrimDrop]
@[simp] theorem backgroundEnd_seated (a : Fin 4) (s : State) : Seated s (backgroundEnd a s) := by
  simp [backgroundEnd]
@[simp] theorem cmdsOffline_seated (a : Fin 4) (s : State) : Seated s (cmdsOffline a s) :=
  foldl_seated _ (fun u x => by (repeat' split) <;> simp) _ s
@[simp] theorem goOffline_seated (a : Fin 4) (m1 m2 stripe : Nat) (s : State) :
    Seated s (goOffline a m1 m2 stripe s) := by
  simp [goOffline]
@[simp] theorem restoreSpares_seated (a : Fin 4) (role : Nat) (s : State) : Seated s (restoreSpares a role s) := by
  simp [restoreSpares]
theorem restoreOnto_seated (a : Fin 4) (role : Nat) {m : Fin 128} (cause : Byte) {s : State}
    (h : (memGet m s).state ≠ .missing) : Seated s (restoreOnto a role m cause s) := by
  have hin : Seated s (memState m .active cause s) := ⟨by simp, fun _ _ => (lostCards_congr (fun k => by
    rw [show (memState m .active cause s).members.tbl.get k = memGet k (memState m .active cause s) from rfl]
    by_cases hk : m = k
    · subst hk
      exact ⟨fun hs => by simp at hs, fun hs => absurd hs h⟩
    · rw [memGet_memState_ne hk]
      rfl) fun p => ⟨congrArg Port.powered (portGet_memState ..), congrArg Port.cdLow (portGet_memState ..),
      congrArg Port.classM (portGet_memState ..)⟩)⟩
  unfold restoreOnto
  dsimp only
  generalize memState m .active cause s = u at *
  exact Seated.trans (by simp) hin
@[simp] theorem autoRestore_seated (a : Fin 4) (role : Nat) (lost : Fin 128) (s : State) :
    Seated s (autoRestore a role lost s) := by
  simp only [autoRestore]
  split
  · simp
  · split
    · simp
    · split
      · next hm => exact restoreOnto_seated _ _ _ (benchChoice_bench hm)
      · simp
@[simp] theorem repaintNote_seated (a : Fin 4) (s : State) : Seated s (repaintNote a s) := by
  simp [repaintNote]
@[simp] theorem bgUnwait_seated (a : Fin 4) (s : State) : Seated s (bgUnwait a s) := by simp [bgUnwait]
@[simp] theorem paintLoss_seated (a : Fin 4) (i : Nat) (m : Fin 128) (s : State) : Seated s (paintLoss a i m s) := by
  simp [paintLoss]
@[simp] theorem roleLost_seated (a : Fin 4) (i : Nat) (rs : RoleState) (m : Fin 128) (s : State) :
    Seated s (roleLost a i rs m s) := by
  unfold roleLost
  extract_lets x wasTarget lacked x'
  clear_value lacked x'
  split
  · simp
  split
  · simp
  split
  · simp
  split
  · simp
  cases lacked with
  | cons j t => simp
  | nil =>
    dsimp only
    split
    · split <;> simp +zetaDelta
    · refine (autoRestore_seated ..).trans ?_
      split <;> simp +zetaDelta
@[simp] theorem memberLost_seated (m : Fin 128) (rs : RoleState) (s : State) : Seated s (memberLost m rs s) := by
  simp only [memberLost]
  split <;> simp
@[simp] theorem reap_seated (w : Work) (s : State) : Seated s (reap w s) := by
  cases w with
  | cmd i =>
    simp only [reap]
    (repeat' split) <;> simp
  | _ => exact Seated.refl _
@[simp] theorem portChanged_seated (p : Fin 8) (s : State) : Seated s (portChanged p s) := by
  simp [portChanged]
theorem ownEdit_seated {p : Fin 8} {f : Member → Member} {s : State} (h : ∀ x : Member, (f x).state = x.state) :
    Seated s (ownEdit p f s) :=
  ⟨rfl, fun _ _ => lostCards_memPut (by rw [h])⟩

@[simp] theorem allocPages_seated (n : Nat) (s : State) : Seated s (allocPages n s).2 := by
  induction n generalizing s with
  | zero => exact Seated.refl _
  | succ n ih => grind [allocPages, allocPage_seated]
@[simp] theorem land_seated (v : Served) (s : State) : Seated s (land v s) := by
  simp [land, foldl_seated]
@[simp] theorem orderAck_seated (s : State) : Seated s (orderAck s) := by
  simp only [orderAck]
  (repeat' split) <;> simp
@[simp] theorem servedDrop_seated (v : Served) (s : State) : Seated s (servedDrop v s) := by
  simp [servedDrop, foldl_seated]
@[simp] theorem reply_seated (v : Served) (kind : Byte) (arg : Nat) (flits : List Dword) (s : State) :
    Seated s (reply v kind arg flits s) := by
  simp [reply]
@[simp] theorem psumReply_seated (v : Served) (s : State) : Seated s (psumReply v s) := by
  simp [psumReply, foldl_seated]
@[simp] theorem servedResult_seated (tag epoch : Byte) (o : MOp) (r : OpEnd) (s : State) :
    Seated s (servedResult tag epoch o r s) := by
  simp only [servedResult]
  (repeat' split) <;> simp [foldl_seated]
@[simp] theorem chunkResult_seated (w : Work) (c : ChunkAt) (row : Nat) (r : OpEnd) (s : State) :
    Seated s (chunkResult w c row r s) := by
  simp only [chunkResult]
  (repeat' split) <;> simp
/-- A RETIRED card that is powered off is no MISSING one. -/
theorem retiredOff_seated {m : Fin 128} {s : State} (h : (memGet m s).state = .retired) : Seated s (retiredOff m s) := by
  unfold retiredOff
  split
  · next hown =>
    refine ⟨rfl, fun n hn => ?_⟩
    rw [portPower_off, ownMember_portOf hown]
    have hmem (x : Port) (y : Member) (hy : y.state = (memGet m s).state) :
        lostCards n (memPut m y (portPut (portOf m) x s)).members = lostCards n (portPut (portOf m) x s).members :=
      lostCards_memPut (by rw [hy]; exact .rfl)
    refine (hmem _ { memGet m s with pad := 0, mode := 0 } rfl).trans ?_
    funext q
    subst hn
    by_cases hq : portOf m = q
    · have hmem : Fin.ofNat 128 (8 * s.ident.node.toNat + q.val) = m := hq ▸ ownMember_portOf hown
      have hnone (x : Members) (hx : x.tbl = s.members.tbl) : lostCards s.ident.node x q = none := by
        have hstate : (x.tbl.get m).state = .retired := by
          rw [hx]
          exact h
        rw [lostCards, hmem, hstate]
        rfl
      have hport (x : Port) : lostCards s.ident.node (portPut (portOf m) x s).members q = none := hnone _ rfl
      exact (hport _).trans (hnone _ rfl).symm
    · have hport (x : Port) : (portPut (portOf m) x s).members.ports.get q = s.members.ports.get q :=
        portGet_portPut_ne (h := hq) ..
      simp only [lostCards, hport]
      rfl
  · simp
@[simp] theorem mgmtAsk_seated (r : MgmtRun) (s : State) : Seated s (mgmtAsk r s) := by
  simp only [mgmtAsk, onlyIf]
  (repeat' split) <;> simp
@[simp] theorem mgmtSigOk_seated (m : Fin 128) (copyB : Bool) (s : State) : Seated s (mgmtSigOk m copyB s) := by
  simp only [mgmtSigOk]
  (repeat' split) <;> simp
@[simp] theorem mgmtSigFail_seated (m : Fin 128) (s : State) : Seated s (mgmtSigFail m s) := by
  simp only [mgmtSigFail]
  (repeat' split) <;> simp
@[simp] theorem sigResult_seated (o : MOp) (copyB own : Bool) (s : State) : Seated s (sigResult o copyB own s) := by
  have hput (g : Option Sig) : Seated s (memPut o.member { memGet o.member s with sig := g } s) := ⟨rfl, fun _ _ => lostCards_memPut .rfl⟩
  unfold sigResult
  dsimp only
  split
  · split
    · next h => exact retiredOff_seated (by simpa using h)
    · simp
  · split
    · exact hput _
    · exact (createOp_seated ..).trans (hput _)
@[simp] theorem sigLost_seated (m : Fin 128) (s : State) : Seated s (sigLost m s) := by
  unfold sigLost
  dsimp only
  split
  · next h => exact retiredOff_seated (by simpa using h)
  · split
    · exact ⟨rfl, fun _ _ => lostCards_memPut .rfl⟩
    · simp
@[simp] theorem sigSeen_seated (o : MOp) (r : OpEnd) (s : State) : Seated s (sigSeen o r s) := by
  unfold sigSeen
  split
  · split
    · exact ⟨rfl, fun _ _ => lostCards_memPut .rfl⟩
    · simp
  all_goals simp
/-- A class A read that comes after its deadline counts. -/
def lateCounted (o : MOp) (s : State) : State :=
  match o.cls, o.use with
  | .a, .chunk _ c _ _ =>
    if o.deadline < s.clk.tick.toNat then
      { s with referee := { s.referee with
          aLate := s.referee.aLate.set c.array (ctrInc (s.referee.aLate.get c.array)) } }
    else s
  | _, _ => s

theorem lateCounted_seated (o : MOp) (s : State) : Seated s (lateCounted o s) := by
  unfold lateCounted
  (repeat' split) <;> simp

@[simp] theorem opResult_seated (o : MOp) (r : OpEnd) (s : State) : Seated s (opResult o r s) := by
  have hstart := lateCounted_seated o s
  unfold opResult
  extract_lets _ u
  change Seated s u at hstart
  clear_value u
  have hmend : Seated u (memPut o.member { memGet o.member u with sigMend := none } u) := ⟨rfl, fun _ _ => lostCards_memPut .rfl⟩
  have hgiven (v : State) (h : Seated u v) : Seated s v := h.trans hstart
  apply hgiven
  split
  · simp
  · exact (reap_seated ..).trans (chunkResult_seated ..)
  · exact (servedResult_seated ..).trans (sigSeen_seated ..)
  · split
    · simp
    all_goals split <;> simp
  · split
    · exact (advancesDue_seated _).trans ((onlyIf_seated _ _ _ (mgmtSigOk_seated ..)).trans (sigResult_seated ..))
    all_goals exact (onlyIf_seated _ _ _ (mgmtSigFail_seated ..)).trans (sigLost_seated ..)
  · split
    · exact (advancesDue_seated _).trans hmend
    all_goals simp
@[simp] theorem opOut_seated (p : Fin 8) (o : MOp) (s : State) : Seated s (opOut p o s) := by
  have hport : Seated s (portPut p { portGet p s with issued := (portGet p s).issued.erase o } s) := portPut_seated ⟨rfl, rfl, rfl⟩
  have hpool (u : State) : Seated u (poolGive (pMember p) o.payer 1 u) := by simp
  exact (ownEdit_seated (f := fun m => { m with ops := ctrInc m.ops }) fun _ => rfl).trans ((hpool _).trans hport)
@[simp] theorem portAbort_seated (p : Fin 8) (r : OpEnd) (s : State) : Seated s (portAbort p r s) := by
  have hout := foldl_seated _ (fun s o => opOut_seated p o s) (portGet p s).issued s
  unfold portAbort
  dsimp only
  generalize (portGet p s).issued.foldl (fun s o => opOut p o s) s = u at *
  have hcleared : Seated u (portPut p { portGet p u with qa := [], qb := [], qc := [], issued := [], heldFail := none } u) :=
    portPut_seated ⟨rfl, rfl, rfl⟩
  exact (foldl_seated _ (fun s o => opResult_seated o r s) _ _).trans (hcleared.trans hout)

theorem lostCards_eq {n : BitVec 4} {x : Members} {p : Fin 8} {on low : Bool} {c : Option (MState × Option Sig)} :
    lostCards n x p = some (on, low, c) ↔
      (x.tbl.get (Fin.ofNat 128 (8 * n.toNat + p.val))).state = .missing ∧ (x.ports.get p).powered = on ∧
        (x.ports.get p).cdLow = low ∧ (x.ports.get p).classM = c := by
  unfold lostCards
  split <;> simp_all

/-- A MISSING card stays where it is. -/
theorem Seated.missing {s t : State} (h : Seated s t) {p : Fin 8} {on low : Bool}
    {c : Option (MState × Option Sig)} (hs : (memGet (ownMember p s) s).state = .missing ∧ (portGet p s).powered = on ∧
      (portGet p s).cdLow = low ∧ (portGet p s).classM = c) :
    (memGet (ownMember p s) t).state = .missing ∧ (portGet p t).powered = on ∧ (portGet p t).cdLow = low ∧
      (portGet p t).classM = c := by
  obtain ⟨-, hlost⟩ := h
  have hs' := lostCards_eq.mpr hs
  rw [← hlost _ rfl] at hs'
  exact lostCards_eq.mp hs'

/-- The card of a port whose member counts as ACTIVE is MISSING; its array and its operations are not told yet. -/
def cardMissing (p : Fin 8) (cause : Byte) (s : State) : State :=
  memState (ownMember p s) .missing cause (portPower p false (portPut p { portGet p s with classM := none } s))

theorem memLeave_missing {p : Fin 8} {s : State}
    (hheld : ((portGet p s).classM.map (·.1)).getD (memGet (ownMember p s) s).state = .active)
    (hretired : (memGet (ownMember p s) s).state ≠ .retired) (cause : Byte) : memLeave p .missing cause s =
      portAbort p .lost (memberLost (ownMember p s) .missing (cardMissing p cause s)) := by
  unfold memLeave
  extract_lets m x held u v w
  have hx : x.state ≠ .retired := hretired
  have hh : held = .active := hheld
  rw [if_neg (by simpa using hx)]
  congr 1
  exact if_pos (by simpa using hh)

theorem cardMissing_leaves (p : Fin 8) (cause : Byte) (s : State) :
    ownMember p (cardMissing p cause s) = ownMember p s ∧ (memGet (ownMember p s) (cardMissing p cause s)).state = .missing ∧
      (portGet p (cardMissing p cause s)).powered = false ∧ (portGet p (cardMissing p cause s)).cdLow = (portGet p s).cdLow ∧
      (portGet p (cardMissing p cause s)).classM = none := by
  have hnode : (cardMissing p cause s).ident = s.ident := by simp [cardMissing]
  refine ⟨by rw [ownMember, hnode]; rfl, ?_⟩
  rw [cardMissing, memGet_memState_same, portGet_memState, portPower_off, portGet_memPut, portGet_portPut_same,
    portGet_portPut_same]
  exact ⟨rfl, rfl, rfl, rfl⟩

/-- An ACTIVE card that leaves is MISSING, with its port without power, whatever else its loss brings. -/
theorem memLeave_active {p : Fin 8} {s : State}
    (hheld : ((portGet p s).classM.map (·.1)).getD (memGet (ownMember p s) s).state = .active)
    (hretired : (memGet (ownMember p s) s).state ≠ .retired) (cause : Byte) :
    (memGet (ownMember p s) (memLeave p .missing cause s)).state = .missing ∧
      (portGet p (memLeave p .missing cause s)).powered = false ∧
      (portGet p (memLeave p .missing cause s)).cdLow = (portGet p s).cdLow ∧
      (portGet p (memLeave p .missing cause s)).classM = none := by
  obtain ⟨hown, hmissing⟩ := cardMissing_leaves p cause s
  rw [memLeave_missing hheld hretired]
  generalize cardMissing p cause s = u at *
  rw [← hown] at hmissing ⊢
  have hout : Seated u (portAbort p .lost (memberLost (ownMember p u) .missing u)) :=
    (portAbort_seated ..).trans (memberLost_seated ..)
  exact hout.missing hmissing

/-- Settles O41. -/
theorem cardsComeAndGo : Obligations.CardsComeAndGo := by
  intro s p
  refine ⟨fun h => reaches_same rfl h, fun h => reaches_same rfl h, fun hawake hheld hoff hst => ?_,
    fun d cause f sig mend hup hdoze hman hstate hmode hon hclass hid hsig => ?_,
    fun c hup hdoze hstate hmode hon hclass hi ha hb hc hcmd => ?_,
    fun hawake hheld hlow habsent hactive hclass hi ha hb hc => ?_, fun hawake hheld hlow hclass hactive => ?_⟩
  · obtain ⟨hrun, hentry, hordered, hdue⟩ := hawake
    refine reaches_of_guard rfl hheld ?_
    rw [wake_of_run hrun hentry hordered hdue]
    exact cardInserted_leaves hoff hst
  · refine reaches_of_guard rfl (by simp [hup, hdoze]) ?_
    rw [signatureRead_found hman hstate hmode hon hclass hid hsig]
    obtain ⟨⟨h1, h2, h3, h4, h5⟩, h6, h7⟩ := identEntry_enters p d f sig mend s
    obtain ⟨k1, ⟨k2, k3, k4, k5, k6⟩, k7, k8⟩ :=
      classified_leaves (ownMember p s) mend p (portFound p (identEntry p d f sig mend s))
    exact ⟨k1, k2.trans h1, k3.trans h2, k4.trans h3, k5.trans h4, k6.trans h5, k7.trans h6, k8.trans h7⟩
  · have hfails : ∃ cause, exec c s = .next (identFail p cause s) ∧ (cause = 0x04 ∨ cause = 0x05) ∧
        (c = .identFailed p true → cause = 0x05) := by
      have hguard (u : Bool) : exec (.identFailed p u) s = .next (identFail p (if u then chUnsupported else chIdentFailed) s) := by
        change execIdentFailed p u s = _
        simp [execIdentFailed, onlyIf, hup, hdoze, hstate, hmode, hon]
      rcases hcmd with rfl | rfl | ⟨d, cause, hid, rfl⟩
      · exact ⟨_, hguard false, .inl rfl, nofun⟩
      · exact ⟨_, hguard true, .inr rfl, fun _ => rfl⟩
      · refine ⟨cause, ?_, ?_, nofun⟩
        · change execSignatureRead p d s = _
          simp [execSignatureRead, signatureRead, onlyIf, hup, hdoze, hstate, hmode, hon, hid]
        · have hcause := identify_cause (portGet p s).cfg d
          rwa [hid] at hcause
    obtain ⟨cause, hexec, hcause, hunsupported⟩ := hfails
    have hidle : PortIdle (portGet p (portFound p s)) := by simp [portFound, hi, ha, hb, hc]
    obtain ⟨k1, k2, -, -, k3, -, k4, k5⟩ := cardOut_leaves hidle .failed cause
    rw [identFail_plain hclass _ hstate] at hexec
    refine ⟨_, hexec, k1, ?_, fun h => k2.trans (hunsupported h), k3, k4, ?_⟩
    · exact hcause.imp k2.trans k2.trans
    · refine k5.trans rfl
  · obtain ⟨hrun, hentry, hordered, hdue⟩ := hawake
    refine reaches_of_guard rfl hheld ?_
    rw [wake_of_run hrun hentry hordered hdue]
    have hout : cardRemoved p s = cardOut p .absent chRemoved (portFound p (cdAccept p false s)) := by
      simp only [cardRemoved, hlow, hclass, Option.map_none, Option.getD_none, Bool.not_true, Bool.false_or, beq_iff_eq, habsent,
        hactive, if_false]
      rfl
    have hidle : PortIdle (portGet p (portFound p (cdAccept p false s))) := by simp [portFound, cdAccept, hi, ha, hb, hc]
    have hcd : (portGet p (portFound p (cdAccept p false s))).cdLow = false := by simp [portFound, cdAccept]
    obtain ⟨k1, k2, k3, k4, k5, k6, k7, k8⟩ := cardOut_leaves hidle .absent chRemoved
    rw [hout]
    exact ⟨k1, k2, k3, k4, k5, k6.trans hcd, k7, k8⟩
  · obtain ⟨hrun, hentry, hordered, hdue⟩ := hawake
    refine reaches_of_guard rfl hheld ?_
    rw [wake_of_run hrun hentry hordered hdue]
    have hout : cardRemoved p s = memLeave p .missing chRemoved (portFound p (cdAccept p false s)) := by
      simp only [cardRemoved, hlow, hclass, hactive, Option.map_none, Option.getD_none, Bool.not_true, Bool.false_or, beq_iff_eq,
        reduceCtorEq, if_false, if_true]
    have hport : portGet p (portFound p (cdAccept p false s)) = { portGet p s with
        cdLow := false, cdKnown := true, cdCount := 0, discovered := true } := by
      simp [portFound, cdAccept]
    have hactive' : (memGet (ownMember p s) (portFound p (cdAccept p false s))).state = .active := hactive
    have hnot : (memGet (ownMember p s) (portFound p (cdAccept p false s))).state ≠ .retired := by
      rw [hactive']
      decide
    have hleft := memLeave_active (p := p) (s := portFound p (cdAccept p false s)) (by rw [hport, hclass]; exact hactive') hnot chRemoved
    rw [hport] at hleft
    rw [hout]
    obtain ⟨hstate, hoff, hcd, -⟩ := hleft
    exact ⟨hstate, hoff, hcd⟩

end Sys2Proof.Machine
end

section
/-! Class M resets of ports (R127). -/

namespace Sys2Proof.Machine
open Sys2Proof.Safety

/-- A part that still waits for the lock of its PLL at stage 3, before member discovery, with the arm of PORT_RST made on
the control port and a card that was accepted at port 0 before the PLL was stopped. -/
def waitingForLock : State :=
  { State.reset with
    pathC := { State.reset.pathC with arm := some ⟨0x00C5, 8⟩ }
    members := { State.reset.members with ports := State.reset.members.ports.set 0 { cdLow := true } } }

/-- Refutes O42: outside member discovery PORT_RST spends its arm and resets no port. -/
theorem not_portResets : ¬ Obligations.PortResets := by
  intro h
  obtain ⟨hreset, -⟩ := h
  obtain ⟨hcard, -⟩ := hreset waitingForLock .cport 0 (by unfold openPath; decide +kernel) (by unfold hasArm; decide +kernel)
  obtain ⟨t, ht, hentry, -⟩ := hcard (by decide +kernel)
  have hstate : (memGet (ownMember 0 waitingForLock) t).state = .absent := by
    cases ht
    decide +kernel
  rw [hentry] at hstate
  cases hstate

end Sys2Proof.Machine
end

section
/-! Member operations: the pick, the issue, results, retries and held failures (R335 to R339, R442 to R444). -/

namespace Sys2Proof.Machine
open Sys2Proof.Safety

/-! ## The pick and the issue -/

theorem MOp.deadline_le_of_not_sooner {x o : MOp} (h : x.sooner o = false) : o.deadline ≤ x.deadline := by
  simp only [MOp.sooner, Bool.or_eq_false_iff, decide_eq_false_iff_not] at h
  exact Nat.not_lt.mp h.1

theorem MOp.deadline_le_of_sooner {x o : MOp} (h : x.sooner o = true) : x.deadline ≤ o.deadline := by
  simp only [MOp.sooner, Bool.or_eq_true, Bool.and_eq_true, decide_eq_true_eq, beq_iff_eq] at h
  rcases h with h | ⟨h, -⟩
  · exact h.le
  · exact h.le

/-- The earliest of some operations is one of them, with the earliest deadline. -/
theorem earliest_spec {l : List MOp} {o : MOp} (h : earliest l = some o) : o ∈ l ∧ ∀ y ∈ l, o.deadline ≤ y.deadline := by
  induction l generalizing o with
  | nil => exact nomatch h
  | cons a t ih =>
    unfold earliest at h
    cases ht : earliest t with
    | none =>
      have hnil : t = [] := by
        cases t with
        | nil => rfl
        | cons b u =>
          unfold earliest at ht
          split at ht
          · cases ht
          · split at ht <;> cases ht
      rw [ht, Option.some.injEq] at h
      subst h hnil
      simp
    | some x =>
      obtain ⟨hin, hle⟩ := ih ht
      rw [ht] at h
      dsimp only at h
      split at h
      · next hs =>
        cases h
        refine ⟨List.mem_cons_of_mem _ hin, fun y hy => ?_⟩
        rcases List.mem_cons.mp hy with rfl | hy
        · exact MOp.deadline_le_of_sooner hs
        · exact hle y hy
      · next hs =>
        cases h
        refine ⟨List.mem_cons_self, fun y hy => ?_⟩
        rcases List.mem_cons.mp hy with rfl | hy
        · exact le_refl _
        · exact (MOp.deadline_le_of_not_sooner (by simpa using hs)).trans (hle y hy)

/-- Class A goes first, by earliest deadline. -/
theorem refereePick_classA {c : RefCfg} {p x : Port} {o : MOp} (h : refereePick c p = some (o, x)) :
    ∀ y ∈ p.qa, o ∈ p.qa ∧ o.deadline ≤ y.deadline := by
  intro y hy
  unfold refereePick at h
  cases ha : earliest p.qa with
  | none =>
    cases hq : p.qa with
    | nil => rw [hq] at hy; exact nomatch hy
    | cons b u =>
      rw [hq] at ha
      unfold earliest at ha
      split at ha
      · cases ha
      · split at ha <;> cases ha
  | some o' =>
    rw [ha, Option.some.injEq, Prod.mk.injEq] at h
    obtain ⟨rfl, -⟩ := h
    obtain ⟨hin, hle⟩ := earliest_spec ha
    exact ⟨hin, hle y hy⟩

/-- A picked operation is issued with its MEMBER_SLOT unit. -/
theorem memberOpIssue_issues {p : Fin 8} {s : State} {o : MOp} {x : Port} (h : refereePick s.referee.cfg (portGet p s) = some (o, x)) :
    portGet p (memberOpIssue p s) = x.issue o ∧
      (poolGet (pMember p) (memberOpIssue p s)).free = (poolGet (pMember p) s).free - 1 ∧
      (∀ q, q ≠ p → portGet q (memberOpIssue p s) = portGet q s) ∧
      memberOpIssue p s = { s with ledger := (memberOpIssue p s).ledger, members := (memberOpIssue p s).members
                                   referee := (memberOpIssue p s).referee } := by
  have htaken (u : State) (hu : u.members = (portPut p (x.issue o) s).members)
      (hl : u.ledger = (poolTake (pMember p) o.payer 1 (portPut p (x.issue o) s)).ledger) :
      portGet p u = x.issue o ∧ (poolGet (pMember p) u).free = (poolGet (pMember p) s).free - 1 ∧
        ∀ q, q ≠ p → portGet q u = portGet q s := by
    refine ⟨(portGet_congr hu p).trans (portGet_portPut_same ..), ?_, fun q hq => ?_⟩
    · refine (congrArg (fun l : Ledger => (l.pools.get (pMember p)).free) hl).trans ?_
      exact poolTake_free (pMember p) o.payer 1 (portPut p (x.issue o) s)
    · exact (portGet_congr hu q).trans (portGet_portPut_ne (h := hq.symm) ..)
  have hframe : memberOpIssue p s = { s with
      ledger := (memberOpIssue p s).ledger, members := (memberOpIssue p s).members, referee := (memberOpIssue p s).referee } := by
    simp only [memberOpIssue, h]
    cases o.cls <;> apply State.ext <;> simp
  have hparts : (memberOpIssue p s).members = (portPut p (x.issue o) s).members ∧
      (memberOpIssue p s).ledger = (poolTake (pMember p) o.payer 1 (portPut p (x.issue o) s)).ledger := by
    simp only [memberOpIssue, h]
    cases o.cls <;> simp
  obtain ⟨h1, h2, h3⟩ := htaken _ hparts.1 hparts.2
  exact ⟨h1, h2, h3, hframe⟩

/-! ## The results of operations -/

theorem memGet_ownEdit (p : Fin 8) (f : Member → Member) (s : State) :
    memGet (ownMember p s) (ownEdit p f s) = f (memGet (ownMember p s) s) := memGet_memPut_same ..

/-- An issued operation leaves its port. -/
theorem opOut_leaves {p : Fin 8} {o : MOp} {rest : List MOp} {s : State} (h : (portGet p s).issued = o :: rest) :
    (portGet p (opOut p o s)).issued = rest ∧
      (memGet (ownMember p s) (opOut p o s)).ops = ctrInc (memGet (ownMember p s) s).ops ∧
      (poolGet (pMember p) (opOut p o s)).free = (poolGet (pMember p) s).free + 1 ∧
      opOut p o s = { s with ledger := (opOut p o s).ledger, members := (opOut p o s).members, ring := (opOut p o s).ring } := by
  have hissued : (portGet p (opOut p o s)).issued = (portGet p s).issued.erase o :=
    congrArg Port.issued (portGet_portPut_same (s := s) ..)
  refine ⟨by rw [hissued, h, List.erase_cons_head], ?_, ?_, ?_⟩
  · exact congrArg Member.ops (memGet_ownEdit p (fun m => { m with ops := ctrInc m.ops })
      (poolGive (pMember p) o.payer 1 (portPut p { portGet p s with issued := (portGet p s).issued.erase o } s)))
  · exact poolGive_free (pMember p) o.payer 1 _
  · rfl

/-- A chunk that has been read outside class A fills the tile that waits for it. -/
theorem opResult_chunk {o : MOp} {w : Work} {c : ChunkAt} {row rows n : Nat} {tl : Tile} {d : List (BitVec 4096)} {s : State}
    (horphan : orphanOp o s = false) (hcls : o.cls ≠ .a) (huse : o.use = .chunk w c row rows) (hw : ∀ a b, w ≠ .remote a b)
    (htile : tileFind (.raw w c row) s = some (n, tl)) :
    opResult o (.ok d) s = tilePut n { tl with valid := 0xFF, data := tileOf d } s := by
  have hchunk : chunkResult w c row (.ok d) s = tilePut n { tl with valid := 0xFF, data := tileOf d } s := by
    simp only [chunkResult, htile]
  have hreap : reap w (tilePut n { tl with valid := 0xFF, data := tileOf d } s) =
      tilePut n { tl with valid := 0xFF, data := tileOf d } s := by
    cases w with
    | cmd i =>
      have hslot : ((slotGet i s).map (·.orphan)).getD false = false := by
        simpa [orphanOp, huse, OpUse.work] using horphan
      have hslot' : ((slotGet i (tilePut n { tl with valid := 0xFF, data := tileOf d } s)).map (·.orphan)).getD false = false := hslot
      simp only [reap]
      cases hx : slotGet i (tilePut n { tl with valid := 0xFF, data := tileOf d } s) with
      | none => rfl
      | some x =>
        rw [hx] at hslot'
        simp only [Option.map_some, Option.getD_some] at hslot'
        simp [hslot']
    | flush _ => rfl
    | background _ => rfl
    | stream _ _ => rfl
    | volTrim _ => rfl
    | remote a b => exact absurd rfl (hw a b)
  rw [← hreap, ← hchunk]
  unfold opResult
  rw [huse]
  cases hc : o.cls with
  | a => exact absurd hc hcls
  | b => cases w with | remote a b => exact absurd rfl (hw a b) | _ => rfl
  | c => cases w with | remote a b => exact absurd rfl (hw a b) | _ => rfl

/-! ## Errors of operations -/

/-- An attempt that failed is held while SDn_CD_N reads high. -/
theorem attemptFailed_held {p : Fin 8} {s : State} (h : (portGet p s).cdNow = false) (t : Tunes) (f : State → State) :
    attemptFailed p t f s = portPut p { portGet p s with heldFail := some t } s := by
  simp [attemptFailed, h]

theorem attemptFailed_seen {p : Fin 8} {s : State} (h : (portGet p s).cdNow = true) (t : Tunes) (f : State → State) :
    attemptFailed p t f s = f s := by
  simp [attemptFailed, h]

/-- An operation that is tried again stands on the bus again, and the retry counts. -/
theorem tryAgain_leaves (p : Fin 8) (o : MOp) (s : State) :
    portGet p (tryAgain p o s) = { portGet p s with issued := o :: (portGet p s).issued.tail } ∧
      memGet (ownMember p s) (tryAgain p o s) =
        { memGet (ownMember p s) s with retries := ctrInc (memGet (ownMember p s) s).retries } ∧
      tryAgain p o s = { s with members := (tryAgain p o s).members, ring := (tryAgain p o s).ring } := by
  refine ⟨portGet_portPut_same .., ?_, rfl⟩
  exact (memGet_ownEdit p (fun m => { m with retries := ctrInc m.retries }) (headPut p o s))

/-- Outside a tuned mode, and after the first retry, the port is not tuned again. -/
theorem retune_none {p : Fin 8} {o : MOp} {t : Tunes} {s : State}
    (h : 0 < o.tries ∨ tuneMask t (memGet (ownMember p s) s).mode = none) : onlyIf (o.tries == 0) (retune p t) s = s := by
  unfold onlyIf
  split
  · next h0 =>
    rcases h with h | h
    · simp at h0
      omega
    · simp only [retune, h]
  · rfl

theorem tuneDown_passes {t : Tunes} {k : BitVec 4} {w : Word} (h : tuneMask t k = some w) (hw : 4 ≤ widest w) (l : List (BitVec 4)) :
    tuneDown t (k :: l) = some (k, phaseOf w) := by
  simp [tuneDown, h, Nat.not_lt.mpr hw]

theorem retune_passes {p : Fin 8} {t : Tunes} {w : Word} {s : State} (h : tuneMask t (memGet (ownMember p s) s).mode = some w)
    (hw : 4 ≤ widest w) :
    retune p t s = memPut (ownMember p s) { memGet (ownMember p s) s with phase := phaseOf w } s := by
  simp [retune, h, tuneDown_passes h hw, modeTake]

/-- A link error is counted. -/
def linkErrored (p : Fin 8) (s : State) : State := ownEdit p (fun m => { m with linkErrs := ctrInc m.linkErrs }) s

theorem linkError_retry {p : Fin 8} {o : MOp} {s : State} (horphan : orphanOp o s = false) (htries : o.tries < 3) (t : Tunes) :
    linkError p o t s = tryAgain p { o with tries := o.tries + 1 } (onlyIf (o.tries == 0) (retune p t) (linkErrored p s)) := by
  have horphan' : orphanOp o (linkErrored p s) = false := horphan
  change (if orphanOp o (linkErrored p s) then _ else _) = _
  rw [if_neg (by simpa using horphan'), if_pos htries]
  rfl

/-- A link error below three tries, without a new tuning: the operation is tried again. -/
theorem linkError_again {p : Fin 8} {o : MOp} {t : Tunes} {rest : List MOp} {s : State} (h : (portGet p s).issued = o :: rest)
    (horphan : orphanOp o s = false) (htries : o.tries < 3)
    (htune : 0 < o.tries ∨ tuneMask t (memGet (ownMember p s) s).mode = none) :
    portGet p (linkError p o t s) = { portGet p s with issued := { o with tries := o.tries + 1 } :: rest } ∧
      memGet (ownMember p s) (linkError p o t s) = { memGet (ownMember p s) s with
        linkErrs := ctrInc (memGet (ownMember p s) s).linkErrs, retries := ctrInc (memGet (ownMember p s) s).retries } ∧
      linkError p o t s = { s with members := (linkError p o t s).members, ring := (linkError p o t s).ring } := by
  have hmem : memGet (ownMember p s) (linkErrored p s) =
    { memGet (ownMember p s) s with linkErrs := ctrInc (memGet (ownMember p s) s).linkErrs } := memGet_ownEdit ..
  have hmode : (memGet (ownMember p s) (linkErrored p s)).mode = (memGet (ownMember p s) s).mode  :=
    (congrArg Member.mode hmem).trans rfl
  rw [linkError_retry horphan htries, retune_none (htune.imp_right ((congrArg (tuneMask t) hmode).trans ·))]
  obtain ⟨hport, hentry, hrest⟩ := tryAgain_leaves p { o with tries := o.tries + 1 } (linkErrored p s)
  refine ⟨hport.trans ?_, hentry.trans ?_, ?_⟩
  · rw [show portGet p (linkErrored p s) = portGet p s from rfl, h]
    rfl
  · rw [show ownMember p (linkErrored p s) = ownMember p s from rfl, hmem]
  · generalize tryAgain p { o with tries := o.tries + 1 } (linkErrored p s) = u at *
    rw [hrest]
    rfl

/-- A first link error in a tuned mode whose tuning passes: the phase is taken from it. -/
theorem linkError_tuned {p : Fin 8} {o : MOp} {t : Tunes} {w : Word} {rest : List MOp} {s : State}
    (h : (portGet p s).issued = o :: rest) (horphan : orphanOp o s = false) (htries : o.tries = 0)
    (htune : tuneMask t (memGet (ownMember p s) s).mode = some w) (hw : 4 ≤ widest w) :
    portGet p (linkError p o t s) = { portGet p s with issued := { o with tries := 1 } :: rest } ∧
      memGet (ownMember p s) (linkError p o t s) = { memGet (ownMember p s) s with
        phase := phaseOf w
        linkErrs := ctrInc (memGet (ownMember p s) s).linkErrs, retries := ctrInc (memGet (ownMember p s) s).retries } ∧
      linkError p o t s = { s with members := (linkError p o t s).members, ring := (linkError p o t s).ring } := by
  have hmem : memGet (ownMember p s) (linkErrored p s) =
    { memGet (ownMember p s) s with linkErrs := ctrInc (memGet (ownMember p s) s).linkErrs } := memGet_ownEdit ..
  have hmode : (memGet (ownMember p s) (linkErrored p s)).mode = (memGet (ownMember p s) s).mode :=
    (congrArg Member.mode hmem).trans rfl
  have hretune : onlyIf (o.tries == 0) (retune p t) (linkErrored p s) = memPut (ownMember p s)
      { memGet (ownMember p s) (linkErrored p s) with phase := phaseOf w } (linkErrored p s) := by
    simp only [onlyIf, htries, BEq.rfl, if_true]
    exact retune_passes ((congrArg (tuneMask t) hmode).trans htune) hw
  rw [linkError_retry horphan (by omega), hretune, htries]
  generalize hu : memPut (ownMember p s) { memGet (ownMember p s) (linkErrored p s) with phase := phaseOf w } (linkErrored p s) = u
  have hown : ownMember p u = ownMember p s := by
    rw [← hu]
    rfl
  have hportu : portGet p u = portGet p s := by
    rw [← hu]
    rfl
  have hentryu : memGet (ownMember p s) u = { memGet (ownMember p s) s with
      linkErrs := ctrInc (memGet (ownMember p s) s).linkErrs, phase := phaseOf w } := by
    rw [← hu, memGet_memPut_same, hmem]
  obtain ⟨hport, hentry, hrest⟩ := tryAgain_leaves p { o with tries := 0 + 1 } u
  rw [hown, hentryu] at hentry
  rw [hportu, h] at hport
  refine ⟨hport, hentry, ?_⟩
  generalize tryAgain p { o with tries := 0 + 1 } u = v at *
  rw [hrest, ← hu]
  rfl

/-- A port that takes a mode and a phase. -/
theorem modeTake_takes (p : Fin 8) (k : BitVec 4 × BitVec 5) (s : State) :
    ownMember p (modeTake p k s) = ownMember p s ∧ portGet p (modeTake p k s) = portGet p s ∧
      (memGet (ownMember p s) (modeTake p k s)).mode = k.1 ∧ (memGet (ownMember p s) (modeTake p k s)).phase = k.2 ∧
      (memGet (ownMember p s) (modeTake p k s)).linkErrs = (memGet (ownMember p s) s).linkErrs := by
  unfold modeTake
  dsimp only
  split
  · next h =>
    rw [memGet_memPut_same]
    exact ⟨rfl, rfl, (eq_of_beq h).symm, rfl, rfl⟩
  · have hmembers (c : Code) (l : List Byte) (u : State) : (logRec c l u).members = u.members := by simp
    refine ⟨by simp [ownMember], portGet_congr (hmembers ..) p, ?_⟩
    rw [memGet_congr (h := hmembers ..), memGet_memPut_same]
    exact ⟨rfl, rfl, rfl⟩

/-- A link error after three tries: the port takes the mode below. -/
theorem linkError_steps {p : Fin 8} {o : MOp} {t : Tunes} {k : BitVec 4 × BitVec 5} {rest : List MOp} {s : State}
    (h : (portGet p s).issued = o :: rest) (horphan : orphanOp o s = false) (htries : 3 ≤ o.tries) (hstep : o.stepped = false)
    (hdown : tuneDown t (rungsBelow p s) = some k) :
    portGet p (linkError p o t s) = { portGet p s with issued := { o with tries := 0, stepped := true } :: rest } ∧
      (memGet (ownMember p s) (linkError p o t s)).mode = k.1 ∧ (memGet (ownMember p s) (linkError p o t s)).phase = k.2 ∧
      (memGet (ownMember p s) (linkError p o t s)).linkErrs = ctrInc (memGet (ownMember p s) s).linkErrs := by
  have hmem : memGet (ownMember p s) (linkErrored p s) =
    { memGet (ownMember p s) s with linkErrs := ctrInc (memGet (ownMember p s) s).linkErrs } := memGet_ownEdit ..
  have hmode : (memGet (ownMember p s) (linkErrored p s)).mode = (memGet (ownMember p s) s).mode :=
    (congrArg Member.mode hmem).trans rfl
  have horphan' : orphanOp o (linkErrored p s) = false := horphan
  have hbelow : rungsBelow p (linkErrored p s) = rungsBelow p s :=
    congrArg (fun m => ((portGet p s).rungs.dropWhile (· != m)).drop 1) hmode
  have hlink : linkError p o t s = tryAgain p { o with tries := 0, stepped := true } (modeTake p k (linkErrored p s)) := by
    change (if orphanOp o (linkErrored p s) then _ else _) = _
    rw [if_neg (by simpa using horphan'), if_neg (by omega)]
    change (match (if o.stepped then none else tuneDown t (rungsBelow p (linkErrored p s))) with | none => _ | some k => _) = _
    rw [hstep, hbelow, hdown]
    rfl
  obtain ⟨hown, hports, hm, hp, hl⟩ := modeTake_takes p k (linkErrored p s)
  obtain ⟨hport, hentry, -⟩ := tryAgain_leaves p { o with tries := 0, stepped := true } (modeTake p k (linkErrored p s))
  rw [hlink]
  generalize tryAgain p { o with tries := 0, stepped := true } (modeTake p k (linkErrored p s)) = v at *
  rw [hown] at hentry
  rw [hports] at hport
  have hentry' : memGet (ownMember p s) v = _ := hentry
  have hport' : portGet p v = { portGet p s with issued := { o with tries := 0, stepped := true } :: (portGet p s).issued.tail } := hport
  rw [h] at hport'
  rw [hentry']
  exact ⟨hport', hm, hp, hl.trans (congrArg Member.linkErrs hmem)⟩

/-- A card error below three tries, without a new tuning: the operation is tried again. -/
theorem cardError_again {p : Fin 8} {o : MOp} {t : Tunes} {good : List (BitVec 4096)} {rest : List MOp} {s : State}
    (h : (portGet p s).issued = o :: rest) (horphan : orphanOp o s = false) (htries : o.tries < 3)
    (htune : 0 < o.tries ∨ tuneMask t (memGet (ownMember p s) s).mode = none) :
    portGet p (cardError p o good t s) = { portGet p s with issued := { o with tries := o.tries + 1 } :: rest } ∧
      memGet (ownMember p s) (cardError p o good t s) =
        { memGet (ownMember p s) s with retries := ctrInc (memGet (ownMember p s) s).retries } ∧
      cardError p o good t s = { s with members := (cardError p o good t s).members, ring := (cardError p o good t s).ring } := by
  have hcard : cardError p o good t s = tryAgain p { o with tries := o.tries + 1 } s := by
    rw [cardError, if_neg (by simpa using horphan), if_pos htries, retune_none htune]
  rw [hcard]
  obtain ⟨hport, hentry, hrest⟩ := tryAgain_leaves p { o with tries := o.tries + 1 } s
  exact ⟨hport.trans (by rw [h]; rfl), hentry, hrest⟩

/-- A timeout is counted. -/
def timedOut (p : Fin 8) (s : State) : State := ownEdit p (fun m => { m with timeouts := ctrInc m.timeouts }) s

/-- Settles O43. -/
theorem memberOperations : Obligations.MemberOperations := by
  refine ⟨fun s p => ⟨fun o x htakes hpick => ?_, fun hnone => ?_⟩, fun s p o rest hbus hissued horphan => ?_, fun s => ⟨fun hup htick hdec => ?_, fun hskip => ?_⟩⟩
  · exact ⟨refereePick_classA hpick, reaches_of_guard rfl htakes (memberOpIssue_issues hpick)⟩
  · rcases Bool.eq_false_or_eq_true (portTakes p s) with htakes | htakes
    · refine reaches_of_guard rfl htakes ?_
      rcases hnone with hno | hno
      · rw [htakes] at hno
        exact nomatch hno
      · simp only [memberOpIssue, hno]
    · exact reaches_same rfl htakes
  · have hdone (r : OpResult) : exec (.memberOpDone p r) s = .next (memberOpDone p r s) := by
      change execMemberOpDone p r s = _
      simp only [execMemberOpDone, onlyIf, hbus, if_true]
    have hlink (t : Tunes) : memberOpDone p (.linkError t) s = attemptFailed p t (linkError p o t) s := by
      simp only [memberOpDone, hissued, List.head?_cons]
    have hcard (n : Nat) (d) (t : Tunes) :
        memberOpDone p (.cardError n d t) s = attemptFailed p t (cardError p o ((opData o d).take n) t) s := by
      simp only [memberOpDone, hissued, List.head?_cons]
    have hclock : memGet (ownMember p s) (timedOut p s) =
      { memGet (ownMember p s) s with timeouts := ctrInc (memGet (ownMember p s) s).timeouts } := memGet_ownEdit ..
    have htimeout (t : Tunes) (hcd : (portGet p s).cdNow = true) :
        exec (.memberOpTimeout p t) s = .next (linkError p o t (timedOut p s)) := by
      change execMemberOpTimeout p t s = _
      simp only [execMemberOpTimeout, onlyIf, hbus, if_true, hissued, List.head?_cons]
      exact congrArg Host.Outcome.next (attemptFailed_seen (s := timedOut p s) hcd t _)
    refine ⟨fun d w c row rows n tl hread hcls huse hw htile => ?_,
      fun tn hcd htries => ⟨fun htune => ⟨?_, ?_, fun n d => ?_⟩, fun w h0 htune hw => ?_⟩,
      fun tn k hcd htries hstep hdown => ?_, fun hcd n d tn => ⟨?_, ?_⟩⟩
    · have hok : memberOpDone p (.ok d) s = tilePut n { tl with valid := 0xFF, data := tileOf (opData o d) } (opOut p o s) := by
        simp only [memberOpDone, hissued, List.head?_cons, hread, BEq.rfl, if_true]
        exact opResult_chunk (s := opOut p o s) horphan hcls huse hw htile
      obtain ⟨hleft, hops, hfree, hrest⟩ := opOut_leaves hissued
      refine ⟨_, hdone _, ?_⟩
      rw [hok]
      generalize opOut p o s = u at *
      refine ⟨?_, hleft, hops, hfree, ?_⟩
      · rw [hrest]
        rfl
      · rw [hrest]
        rfl
    · exact ⟨_, hdone _, by rw [hlink, attemptFailed_seen hcd]; exact linkError_again hissued horphan htries htune⟩
    · obtain ⟨hport, hentry, hrest⟩ := linkError_again (t := tn) (s := timedOut p s) hissued horphan htries
        (htune.imp_right ((congrArg (fun m : Member => tuneMask tn m.mode) hclock).trans ·))
      refine ⟨_, htimeout tn hcd, hport, hentry.trans ?_, ?_⟩
      · exact congrArg (fun m : Member => { m with linkErrs := ctrInc m.linkErrs, retries := ctrInc m.retries }) hclock
      · generalize linkError p o tn (timedOut p s) = u at *
        rw [hrest]
        rfl
    · exact ⟨_, hdone _, by rw [hcard, attemptFailed_seen hcd]; exact cardError_again hissued horphan htries htune⟩
    · exact ⟨_, hdone _, by rw [hlink, attemptFailed_seen hcd]; exact linkError_tuned hissued horphan h0 htune hw⟩
    · exact ⟨_, hdone _, by rw [hlink, attemptFailed_seen hcd]; exact linkError_steps hissued horphan htries hstep hdown⟩
    · exact ⟨_, hdone _, by rw [hcard, attemptFailed_held hcd]⟩
    · exact ⟨_, hdone _, by rw [hlink, attemptFailed_held hcd]⟩
  · refine reaches_of_guard rfl (by simp [hup, htick, hdec]) ?_
    have hport (q : Fin 8) (u : State) (hu : u.members.ports = s.members.ports.map Port.decay) :
        portGet q u = (portGet q s).decay := by
      simp [portGet, hu, Vector.get_eq_getElem]
    refine ⟨fun q => ?_, rfl, rfl, rfl, rfl⟩
    rw [hport q _ rfl]
    exact ⟨rfl, rfl, rfl, rfl⟩
  · refine reaches_same rfl ?_
    rcases hskip with h | h <;> simp [h]

end Sys2Proof.Machine
end

section
/-! Signatures that are written again (R328, R329). -/

namespace Sys2Proof.Machine
open Sys2Proof.Safety

/-- Class C work for a card of this node is queued last on its port. -/
theorem createOp_queued {o : MOp} {s : State} (hown : isOwn o.member s = true) (hcls : o.cls = .c) :
    portGet (portOf o.member) (createOp o s) = { portGet (portOf o.member) s with
        qc := (portGet (portOf o.member) s).qc ++ [{ o with id := s.members.nextOp }] } ∧
      (createOp o s).members.tbl = s.members.tbl ∧ createOp o s = { s with members := (createOp o s).members } := by
  have hown' : isOwn o.member { s with members := { s.members with nextOp := s.members.nextOp + 1 } } = true := hown
  have hcreate : createOp o s = portPut (portOf o.member)
      ((portGet (portOf o.member) s).enqueue { o with id := s.members.nextOp })
      { s with members := { s.members with nextOp := s.members.nextOp + 1 } } := if_pos hown'
  rw [hcreate, portGet_portPut_same]
  exact ⟨by simp only [Port.enqueue, hcls], rfl, rfl⟩

theorem signatureMend_queued {m : Fin 128} {b : Bool} {s : State} (hown : isOwn m s = true) (hout : sigOut m s = false)
    (hmend : (memGet m s).sigMend = some b) :
    portGet (portOf m) (signatureMend m s) = { portGet (portOf m) s with
        qc := (portGet (portOf m) s).qc ++ [{
          id := s.members.nextOp, member := m, cls := .c, kind := .write, sector := if b then 4096 else 0, count := 8,
          use := .mend b, data := sigSectors (memGet m s).sig }] } ∧
      (signatureMend m s).members.tbl = s.members.tbl ∧ signatureMend m s = { s with members := (signatureMend m s).members } := by
  have hsig : signatureMend m s = createOp (sigOp m (.mend b) (memGet m s).sig) s := by
    simp only [signatureMend, hmend, hout, Bool.false_eq_true, if_false]
  rw [hsig]
  exact createOp_queued (o := sigOp m (.mend b) (memGet m s).sig) hown rfl

/-- A member without a copy to be mended, or with one being written, is left alone. -/
theorem signatureMend_none {m : Fin 128} {s : State} (h : (memGet m s).sigMend = none ∨ sigOut m s = true) :
    signatureMend m s = s := by
  unfold signatureMend
  dsimp only
  split
  · next hb =>
    rcases h with h | h
    · rw [h] at hb
      cases hb
    · rw [if_pos h]
  · rfl

/-- Settles O44. -/
theorem signaturesAreRefreshed : Obligations.SignaturesAreRefreshed := by
  intro s m hruns
  have hexec : exec (.signatureRefresh m) s = .next (if isManager s then signatureRefresh m s
      else if isOwn m s && ((memGet m s).state == .active || (memGet m s).state == .bench) then signatureMend m s else s) := by
    change execSignatureRefresh m s = _
    simp only [execSignatureRefresh, onlyIf, hruns, if_true]
  refine ⟨fun hman hown hout hdue hblock => ?_, fun b hown hout hmend hnode => ?_, fun hnone => ?_⟩
  · have hgo : ((memGet m s).state == .active && (sigFrom (sigSource s) m s).isNone) = false := by
      rcases hblock with h | h
      · simp [h]
      · simp [h]
    have hrefresh : signatureRefresh m s = createOp (sigOp m (.sig false false) (sigFrom (sigSource s) m s))
        (memPut m { memGet m s with sigDue := false, sigMend := none } s) := by
      simp only [signatureRefresh, hout, hdue, hgo, Bool.false_eq_true, if_false, if_true]
    obtain ⟨hqueued, htbl, hrest⟩ := createOp_queued (o := sigOp m (.sig false false) (sigFrom (sigSource s) m s))
      (s := memPut m { memGet m s with sigDue := false, sigMend := none } s) hown rfl
    rw [if_pos hman, hrefresh] at hexec
    refine ⟨_, hexec, hqueued, ?_, fun k hk => ?_, ?_⟩
    · exact (congrArg (·.get m) htbl).trans (memGet_memPut_same ..)
    · exact (congrArg (·.get k) htbl).trans (memGet_memPut_ne (h := hk.symm) ..)
    · exact hrest.trans rfl
  · obtain hmended := signatureMend_queued hown hout hmend
    rcases hnode with ⟨hman, hdue⟩ | ⟨hman, hstate⟩
    · have hrefresh : signatureRefresh m s = signatureMend m s := by
        simp only [signatureRefresh, hout, hdue, Bool.false_eq_true, if_false]
      rw [if_pos hman, hrefresh] at hexec
      exact ⟨_, hexec, hmended⟩
    · have huse : (isOwn m s && ((memGet m s).state == .active || (memGet m s).state == .bench)) = true := by
        rcases hstate with h | h <;> simp [hown, h]
      rw [if_neg (by simp [hman]), if_pos huse] at hexec
      exact ⟨_, hexec, hmended⟩
  · have hmend : signatureMend m s = s := signatureMend_none (hnone.imp_left And.right)
    have hrefresh : signatureRefresh m s = s := by
      unfold signatureRefresh
      dsimp only
      split
      · rfl
      · next hout =>
        rcases hnone with ⟨hdue, -⟩ | h
        · rw [hdue, if_neg (by decide), hmend]
        · exact absurd h hout
    rw [hrefresh, hmend] at hexec
    refine ⟨_, hexec, ?_⟩
    (repeat' split) <;> rfl

end Sys2Proof.Machine
end

section
/-! Page programs, seals and retirement of the Sketchbook's records (R374 to R385). -/

namespace Sys2Proof.Machine
open Sys2Proof.Safety

/-- Only canvas memory and the pools change. -/
def OnCanvas (s t : State) : Prop := ∃ c d, t = { s with canvas := c, ledger := d }

theorem OnCanvas.refl (s : State) : OnCanvas s s := ⟨_, _, rfl⟩

theorem OnCanvas.trans {s t u : State} (h : OnCanvas s t) (k : OnCanvas t u) : OnCanvas s u := by
  obtain ⟨_, _, rfl⟩ := h
  obtain ⟨_, _, rfl⟩ := k
  exact ⟨_, _, rfl⟩

theorem foldl_onCanvas {α : Type} {f : State → α → State} (h : ∀ s a, OnCanvas s (f s a)) (l : List α) (s : State) :
    OnCanvas s (l.foldl f s) := by
  induction l generalizing s with
  | nil => exact .refl s
  | cons a l ih => exact (h s a).trans (ih _)

theorem tier2Drop_onCanvas (n : Nat) (s : State) : OnCanvas s (tier2Drop n s) := by
  unfold tier2Drop
  split <;> exact ⟨_, _, rfl⟩

theorem tileDrop_onCanvas (n : Nat) (s : State) : OnCanvas s (tileDrop n s) := by
  unfold tileDrop
  split <;> exact ⟨_, _, rfl⟩

theorem moveTile_onCanvas (c : Bool) (from' to' : Option (Fin 8)) (s : State) :
    OnCanvas s (if c then s else poolMove pTile from' to' 1 s) := by
  split <;> exact ⟨_, _, rfl⟩

theorem sealTile_onCanvas (st : Option (Fin 8)) (slot : Nat) (a : Fin 4) (tile : Nat) (mask : BitVec 8) (data : TileData)
    (s : State) : OnCanvas s (sealTile st slot a tile mask data s) := by
  unfold sealTile
  extract_lets u at' _ v
  have hu : OnCanvas s u := by
    unfold u
    split
    · exact tier2Drop_onCanvas ..
    · exact .refl s
  have hv : OnCanvas s v := hu.trans ⟨_, _, rfl⟩
  clear_value v
  split
  · extract_lets w
    have hw : OnCanvas s w := by
      unfold w
      split
      · exact hv.trans (tileDrop_onCanvas ..)
      · exact hv
    exact (hw.trans (moveTile_onCanvas ..)).trans ⟨_, _, rfl⟩
  · exact (hv.trans (moveTile_onCanvas ..)).trans ⟨_, _, rfl⟩
  · exact hv

theorem mergeRecord_onCanvas (owner : Nat) (r : Rec) (s : State) : OnCanvas s (mergeRecord owner r s) :=
  foldl_onCanvas (fun u x => by
    dsimp only
    split
    · exact .refl u
    · exact sealTile_onCanvas ..) _ s

theorem trimTiles_onCanvas (a : Fin 4) (start count : Nat) (s : State) : OnCanvas s (trimTiles a start count s) :=
  (foldl_onCanvas (fun u n => tier2Drop_onCanvas n u) _ s).trans ⟨_, _, rfl⟩

theorem flushFull_onlyFlushes (r : Rec) (s : State) : OnlyFlushes s (flushFull r s) :=
  OnlyFlushes.foldl (fun u new => OnlyFlushes.foldl (fun v t => by
    split
    · exact startFlush_onlyFlushes ..
    · exact .refl v) _ u) _ s

theorem trimFull_onlyFlushes (slot : Nat) (r : Rec) (s : State) : OnlyFlushes s (trimFull slot r s) := by
  unfold trimFull
  dsimp only
  split
  · exact trimApply_onlyFlushes ..
  · exact .refl s

/-! ## The seal of a record -/

/-- A record in its slot, with its check values, once its program has ended. -/
def sealedIn (k : Nat) (r : Rec) (s : State) : State :=
  let u := progNext s
  { u with skb := { u.skb with recs := kput k { r with pcrcs := r.crcs s } u.skb.recs, torn := kdel k u.skb.torn } }

/-- What follows a seal touches the tiles, the pools and the flushes alone. -/
theorem sealed_leaves {s u t : State} {k : Nat} {r : Rec} {o : ProgOp} {rest : List ProgOp} (hprog : s.nv.prog = o :: rest)
    (hu : OnCanvas (sealedIn k r s) u) (ht : OnlyFlushes u t) :
    t.skb.recs = kput k { r with pcrcs := r.crcs s } s.skb.recs ∧ t.nv.prog = rest ∧ t.skb.pages = s.skb.pages ∧
      t = { s with canvas := t.canvas, ledger := t.ledger, skb := t.skb, nv := { s.nv with prog := rest } } := by
  obtain ⟨c, d, rfl⟩ := hu
  obtain ⟨l, n, rfl⟩ := ht
  have hnv : (progNext s).nv = { s.nv with prog := rest } := by simp [progNext, hprog]
  refine ⟨rfl, congrArg Nv.prog hnv, rfl, ?_⟩
  exact congrArg (fun v : Nv => { s with
    canvas := c, ledger := d, nv := v, skb := { (sealedIn k r s).skb with flushes := l, nextFlush := n } }) hnv

theorem recordSeal_write {s : State} {owner : Option Nat} {k : Nat} {r : Rec} {rest : List ProgOp}
    (hprog : s.nv.prog = .record owner k r :: rest) (howner : sealOwner owner r s = none) (hkind : r.kind = .write) :
    recordSeal s = forcedFlush (flushFull { r with pcrcs := r.crcs s } (mergeRecord 256 { r with pcrcs := r.crcs s } (sealedIn k r s))) := by
  have howner' : sealOwner owner r (progNext s) = none := howner
  unfold recordSeal
  rw [hprog]
  dsimp only [List.head?_cons]
  rw [howner']
  cases r
  subst hkind
  rfl

theorem recordSeal_trim {s : State} {owner : Option Nat} {k : Nat} {r : Rec} {rest : List ProgOp}
    (hprog : s.nv.prog = .record owner k r :: rest) (howner : sealOwner owner r s = none) (hkind : r.kind = .trim)
    (hsystem : r.system = false) :
    recordSeal s = forcedFlush (trimFull k { r with pcrcs := r.crcs s } (trimTiles r.array r.start r.count (sealedIn k r s))) := by
  have howner' : sealOwner owner r (progNext s) = none := howner
  unfold recordSeal
  rw [hprog]
  dsimp only [List.head?_cons]
  rw [howner']
  cases r
  subst hkind hsystem
  rfl

/-- A record newer than every other one that covers a sector is the one that covers it. -/
theorem foldl_newerRec {x : Nat × Rec} {l : List (Nat × Rec)} (hx : x ∈ l)
    (hnew : ∀ q ∈ l, q = x ∨ newer x.2.cseq q.2.cseq = true ∧ newer q.2.cseq x.2.cseq = false) (b : Option (Nat × Rec))
    (hb : ∀ q, b = some q → q = x ∨ newer x.2.cseq q.2.cseq = true) : l.foldl newerRec b = some x := by
  have hkeep (m : List (Nat × Rec)) (hm : ∀ q ∈ m, q = x ∨ newer q.2.cseq x.2.cseq = false) : m.foldl newerRec (some x) = some x := by
    induction m with
    | nil => rfl
    | cons q m ih =>
      have hq : newerRec (some x) q = some x := by
        rcases hm q List.mem_cons_self with rfl | h
        · simp [newerRec]
        · simp [newerRec, h]
      rw [List.foldl_cons, hq]
      exact ih fun p hp => hm p (List.mem_cons_of_mem _ hp)
  induction l generalizing b with
  | nil => exact nomatch hx
  | cons q l ih =>
    rw [List.foldl_cons]
    have hold : ∀ p ∈ l, p = x ∨ newer p.2.cseq x.2.cseq = false := fun p hp =>
      (hnew p (List.mem_cons_of_mem _ hp)).imp_right And.right
    by_cases hq : q = x
    · have hstep : newerRec b q = some x := by
        subst hq
        cases b with
        | none => rfl
        | some p =>
          rcases hb p rfl with rfl | h
          · simp [newerRec]
          · simp [newerRec, h]
      rw [hstep]
      exact hkeep l hold
    · have hin : x ∈ l := by
        rcases List.mem_cons.mp hx with h | h
        · exact absurd h.symm hq
        · exact h
      refine ih hin (fun p hp => hnew p (List.mem_cons_of_mem _ hp)) _ fun p hp => ?_
      have hchoice : p = q ∨ b = some p := by
        cases b with
        | none => exact .inl (Option.some.inj hp).symm
        | some y =>
          simp only [newerRec] at hp
          split at hp
          · exact .inl (Option.some.inj hp).symm
          · exact .inr hp
      rcases hchoice with rfl | h
      · exact .inr ((hnew p List.mem_cons_self).resolve_left hq).1
      · exact hb p h

/-- The sector that a TRIM record newer than all others covers reads zeros. -/
theorem journalSector_trim {s : State} {k x : Nat} {r : Rec} (hin : (k, r) ∈ liveRecs s) (hkind : r.kind = .trim)
    (hcovers : r.covers r.array x = true)
    (hnew : ∀ q ∈ liveRecs s, q.2.covers r.array x = true →
      q = (k, r) ∨ newer r.cseq q.2.cseq = true ∧ newer q.2.cseq r.cseq = false) : journalSector r.array x s = .data 0 := by
  have hcover : coverOf r.array x s = some (k, r) := by
    refine foldl_newerRec (x := (k, r)) ?_ (fun q hq => ?_) none nofun
    · exact List.mem_filter.mpr ⟨hin, hcovers⟩
    · obtain ⟨hlive, hc⟩ := List.mem_filter.mp hq
      exact hnew q hlive hc
  rw [journalSector, hcover]
  simp [Rec.sector, hkind]

/-! ## RETIRE and TRIM_DONE words -/

/-- Program operations are asked for, and nothing else changes. -/
def OnlyAsks (s t : State) : Prop := ∃ l, t = { s with nv := { s.nv with prog := s.nv.prog ++ l } }

theorem OnlyAsks.refl (s : State) : OnlyAsks s s := ⟨[], by rw [List.append_nil]⟩

theorem OnlyAsks.trans {s t u : State} (h : OnlyAsks s t) (k : OnlyAsks t u) : OnlyAsks s u := by
  obtain ⟨l, rfl⟩ := h
  obtain ⟨m, rfl⟩ := k
  exact ⟨l ++ m, by simp only [List.append_assoc]⟩

theorem progReq_onlyAsks (o : ProgOp) (s : State) : OnlyAsks s (progReq o s) := by
  unfold progReq
  split
  · exact .refl s
  · exact ⟨[o], rfl⟩

theorem OnlyAsks.wordAsked {s t : State} (h : OnlyAsks s t) {i : Nat} (hi : wordAsked i s = true) : wordAsked i t = true := by
  obtain ⟨l, rfl⟩ := h
  unfold Machine.wordAsked at hi ⊢
  simp only [List.any_append, hi, Bool.true_or]

theorem OnlyAsks.retirable {s t : State} (h : OnlyAsks s t) (r : Rec) : retirable r t = retirable r s := by
  obtain ⟨l, rfl⟩ := h
  rfl

/-- What wordsAsk does for one record. -/
def askWord (s : State) (x : Nat × Rec) : State :=
  if wordAsked x.1 s then s
  else if retirable x.2 s then progReq (.retire x.1) s
  else match trimDoneNext x.2 s with
    | some n => progReq (.trimDone x.1 n) s
    | none => s

theorem askWord_onlyAsks (s : State) (x : Nat × Rec) : OnlyAsks s (askWord s x) := by
  unfold askWord
  split
  · exact .refl s
  · split
    · exact progReq_onlyAsks ..
    · split
      · exact progReq_onlyAsks ..
      · exact .refl s

theorem askWord_asks {s : State} {x : Nat × Rec} (hlevel : s.restart.level ≠ .failstop) (h : retirable x.2 s = true) :
    wordAsked x.1 (askWord s x) = true := by
  unfold askWord
  split
  · next hasked => exact hasked
  · simp [progReq, hlevel, wordAsked]

theorem foldl_askWord_onlyAsks (l : List (Nat × Rec)) (s : State) : OnlyAsks s (l.foldl askWord s) := by
  induction l generalizing s with
  | nil => exact .refl s
  | cons x l ih => exact (askWord_onlyAsks s x).trans (ih _)

/-- Every record that may retire has its RETIRE word asked for. -/
theorem foldl_askWord_asks {l : List (Nat × Rec)} {s : State} (hlevel : s.restart.level ≠ .failstop) {x : Nat × Rec} (hx : x ∈ l)
    (h : retirable x.2 s = true) : wordAsked x.1 (l.foldl askWord s) = true := by
  induction l generalizing s with
  | nil => exact nomatch hx
  | cons y l ih =>
    have hstep := askWord_onlyAsks s y
    rcases List.mem_cons.mp hx with rfl | hin
    · exact (foldl_askWord_onlyAsks l _).wordAsked (askWord_asks hlevel h)
    · have hlevel' : (askWord s y).restart.level ≠ .failstop := by
        obtain ⟨m, hm⟩ := hstep
        rw [hm]
        exact hlevel
      exact ih hlevel' hin (by rw [hstep.retirable]; exact h)

/-- The state in which a retired record's pages and units are free. -/
def retiredIn (k : Nat) (r : Rec) (s : State) : State :=
  poolGive pPage r.owner r.units (freePages (r.pages.map (·.1))
    { s with skb := { s.skb with recs := kput k { r with retired := true } s.skb.recs } })

theorem replayEnd_none {a : Fin 4} {s : State} (h : (arrGet a s).state ≠ .replaying) : replayEnd a s = s := by
  simp [replayEnd, h]

theorem wordsAsk_onlyAsks (s : State) : OnlyAsks s (wordsAsk s) := foldl_askWord_onlyAsks _ s

/-- What a retirement brings beside the free pages, of an array that is not REPLAYING: clean tiles, forced flushing as the
free pages ask for it, and words that may now be programmed. -/
theorem afterRetire_writes {a : Fin 4} {s : State} (h : (arrGet a s).state ≠ .replaying) : ∃ c f p q l n m,
    wordsAsk (replayEnd a (forcedFlush (forcedUpdate (cleanTiles s)))) = { s with
      canvas := c, log := { s.log with irqStat := q }, nv := { s.nv with prog := m }
      skb := { s.skb with forced := f, pause := p, flushes := l, nextFlush := n } } := by
  obtain ⟨c, hclean⟩ : ∃ c, cleanTiles s = canvasPut c s := ⟨_, rfl⟩
  obtain ⟨f, p, q, hforced⟩ := forcedUpdate_writes (canvasPut c s)
  obtain ⟨l, n, hflush⟩ := forcedFlush_onlyFlushes (forcedUpdate (canvasPut c s))
  rw [hforced] at hflush
  obtain ⟨m, hasks⟩ := wordsAsk_onlyAsks (forcedFlush (forcedUpdate (canvasPut c s)))
  rw [hclean, replayEnd_none, hasks, hforced, hflush]
  · exact ⟨c, f, p, q, l, n, _, rfl⟩
  · rw [hforced, hflush]
    exact h

theorem retired_leaves {k : Nat} {r : Rec} {s : State} (hrec : kget k s.skb.recs = some r)
    (harr : (arrGet r.array s).state ≠ .replaying) :
    (retired k s).skb.recs = kput k { r with retired := true } s.skb.recs ∧
      (poolGet pPage (retired k s)).free = (poolGet pPage s).free + r.units ∧
      (∀ p ∈ r.pages, p.1 ∉ (retired k s).skb.usedPages) ∧
      retired k s = { s with canvas := (retired k s).canvas, ledger := (retired k s).ledger, log := (retired k s).log
                             skb := (retired k s).skb, nv := { s.nv with prog := (retired k s).nv.prog } } := by
  have hret : retired k s = wordsAsk (replayEnd r.array (forcedFlush (forcedUpdate (cleanTiles (retiredIn k r s))))) := by
    simp only [retired, hrec]
    rfl
  obtain ⟨c, f, p, q, l, n, m, hafter⟩ := afterRetire_writes (a := r.array) (s := retiredIn k r s) harr
  rw [hret, hafter]
  refine ⟨rfl, poolGive_free .., fun x hx => ?_, rfl⟩
  have hnot : x.1 ∉ s.skb.usedPages.filter fun p => !(r.pages.map (·.1)).contains p := by
    simp only [List.mem_filter, List.contains_eq_mem, not_and, Bool.not_eq_true', decide_eq_false_iff_not, not_not]
    exact fun _ => List.mem_map_of_mem hx
  exact hnot

/-! ## Page programs -/

theorem reqSeal_writes (owner : Option Nat) (slot : Nat) (r : Rec) (s : State) : ∃ l,
    reqSeal owner slot r s = { s with nv := { s.nv with prog := l }, skb := { s.skb with cseq := s.skb.cseq + 1 } } := by
  obtain ⟨l, h⟩ := progReq_onlyAsks (.record owner slot { r with cseq := s.skb.cseq, sealTick := s.clk.tick.truncate 32 })
    { s with skb := { s.skb with cseq := s.skb.cseq + 1 } }
  exact ⟨_, h⟩

/-- No record and no page changes, and a command keeps its own pages. -/
def ProgressKeeps (i : Nat) (s t : State) : Prop :=
  ∃ d k l, t = { s with queues := d, skb := k, nv := { s.nv with prog := l } } ∧ k.recs = s.skb.recs ∧
    k.pages = s.skb.pages ∧ ∀ x, slotGet i s = some x → ∃ y, slotGet i t = some y ∧ y.pages = x.pages

theorem ProgressKeeps.refl (i : Nat) (s : State) : ProgressKeeps i s s := ⟨_, _, _, rfl, rfl, rfl, fun x hx => ⟨x, hx, rfl⟩⟩

/-- The seal of a WRITE's next record is asked for. -/
theorem nextSeal_progressKeeps {i k : Nat} {x : Slot} {s u : State} (hx : slotGet i s = some x) (halloc : allocRec s = some (k, u))
    (r : Rec) : ProgressKeeps i s (reqSeal (some i) k r (slotPut i { x with sealing := true } u)) := by
  have hu := allocRec_writes halloc
  obtain ⟨l, hreq⟩ := reqSeal_writes (some i) k r (slotPut i { x with sealing := true } u)
  rw [hreq, hu]
  refine ⟨_, _, _, rfl, rfl, rfl, fun y hy => ⟨{ x with sealing := true }, kget_kput_same .., ?_⟩⟩
  rw [hx] at hy
  cases hy
  rfl

theorem writeProgress_progressKeeps (i : Nat) (s : State) : ProgressKeeps i s (writeProgress i s) := by
  unfold writeProgress
  split
  · exact .refl i s
  · next x hx =>
    split
    · exact .refl i s
    · extract_lets a first start stop pgs
      split
      · split
        · cases halloc : allocRec s with
          | none => exact .refl i s
          | some z => exact nextSeal_progressKeeps hx halloc _
        · exact .refl i s
      · exact .refl i s

/-- The state with a page marked programmed for its command, before its FILLING tile is released. -/
def pageMarked (i pg : Nat) (x : Slot) (s : State) : State :=
  slotPut i { x with pages := x.pages.map fun q => if q.2.1 == pg then (q.1, pg, true) else q } s

theorem writePageDone_writes {i pg tile : Nat} {p : Page} {x : Slot} {b : Bool} {s : State} (hslot : slotGet i s = some x)
    (hpage : x.pages.find? (fun q => q.2.1 == pg) = some (tile, pg, b)) : ∃ c,
    writePageDone i pg p s = writeProgress i (pagePut pg p { pageMarked i pg x s with canvas := c }) := by
  unfold writePageDone
  rw [hslot]
  dsimp only
  rw [hpage]
  dsimp only
  split
  · exact ⟨_, rfl⟩
  · split
    · exact ⟨_, rfl⟩
    · exact ⟨_, rfl⟩

/-- A record's TRIM_DONE word has been programmed. -/
def trimmedTo (k n : Nat) (r : Rec) (s : State) : State :=
  let u := progNext s
  { u with skb := { u.skb with recs := kput k { r with trimDone := n } u.skb.recs } }

theorem mem_kput {α : Type} {k : Nat} {v : α} {l : List (Nat × α)} (h : kget k l = none) (q : Nat × α) :
    q ∈ kput k v l ↔ q = (k, v) ∨ q ∈ l := by
  induction l with
  | nil => simp [kput]
  | cons x l ih =>
    obtain ⟨j, w⟩ := x
    have hj : k ≠ j := by
      rintro rfl
      simp [kget] at h
    have hl : kget k l = none := by
      simpa [kget, hj.symm] using h
    simp only [kput]
    split
    · simp
    · simp only [List.mem_cons, ih hl]
      tauto

/-- Settles O45. -/
theorem programsSealAndRetire : Obligations.ProgramsSealAndRetire := by
  have hseal {s : State} {owner : Option Nat} {k : Nat} {r : Rec} {rest : List ProgOp}
      (hprog : s.nv.prog = .record owner k r :: rest) (hup : unitsUp s = true) : exec .recordSeal s = .next (recordSeal s) := by
    change execRecordSeal s = _
    simp only [execRecordSeal, hprog, List.head?_cons, hup, if_true]
  refine ⟨fun s i pg tile p rest x hup hprog hslot hpage => ?_, fun s owner k r rest hprog => ⟨fun hup howner hkind => ?_,
    fun hup howner hkind hsystem => ⟨?_, fun x hfrom hto hlive hfree hnew => ?_⟩, fun hrun hup => ?_⟩,
    fun s k r rest hup hrec => ⟨fun hprog harr => ?_, fun n hprog => ?_⟩, fun s k => ⟨fun hother => ?_, fun hother => ?_⟩⟩
  · obtain ⟨c, hdone⟩ := writePageDone_writes (p := p) (s := progNext s) hslot hpage
    obtain ⟨d, k, l, hwrites, hrecs, hpages, hslots⟩ :=
      writeProgress_progressKeeps i (pagePut pg p { pageMarked i pg x (progNext s) with canvas := c })
    have hexec : exec .pageProgramDone s = .next (writeProgress i (pagePut pg p { pageMarked i pg x (progNext s) with canvas := c })) := by
      change execPageProgramDone s = _
      simp only [execPageProgramDone, pageProgramDone, hprog, List.head?_cons, hup, if_true, hdone]
    obtain ⟨y, hy, hypages⟩ := hslots _ (kget_kput_same ..)
    have hmem : (tile, pg, true) ∈ y.pages := by
      rw [hypages]
      exact List.mem_map.mpr ⟨(tile, pg, false), List.mem_of_find?_eq_some hpage, if_pos (beq_self_eq_true pg)⟩
    refine ⟨_, hexec, ?_, ⟨y, hy, hmem⟩, ?_, ?_⟩
    · rw [hwrites]
      exact (congrArg (kget pg) hpages).trans (kget_kput_same ..)
    · rw [hwrites]
      exact hrecs
    · rw [hwrites]
      rfl
  · refine ⟨_, hseal hprog hup, ?_⟩
    rw [recordSeal_write hprog howner hkind]
    exact sealed_leaves hprog (mergeRecord_onCanvas ..) ((flushFull_onlyFlushes ..).trans (forcedFlush_onlyFlushes _))
  · refine ⟨_, hseal hprog hup, ?_⟩
    rw [recordSeal_trim hprog howner hkind hsystem]
    exact sealed_leaves hprog (trimTiles_onCanvas ..) ((trimFull_onlyFlushes ..).trans (forcedFlush_onlyFlushes _))
  · refine ⟨_, hseal hprog hup, ?_⟩
    rw [recordSeal_trim hprog howner hkind hsystem]
    obtain ⟨hrecs, -⟩ := sealed_leaves hprog (trimTiles_onCanvas r.array r.start r.count (sealedIn k r s))
      ((trimFull_onlyFlushes k { r with pcrcs := r.crcs s } _).trans (forcedFlush_onlyFlushes _))
    generalize forcedFlush _ = t at *
    have hmem (q : Nat × Rec) : q ∈ liveRecs t ↔ q = (k, { r with pcrcs := r.crcs s }) ∨ q ∈ liveRecs s := by
      simp only [liveRecs, hrecs, List.mem_filter, mem_kput hfree]
      constructor
      · rintro ⟨rfl | hin, hl⟩
        · exact .inl rfl
        · exact .inr ⟨hin, hl⟩
      · rintro (rfl | ⟨hin, hl⟩)
        · exact ⟨.inl rfl, by simpa using hlive⟩
        · exact ⟨.inr hin, hl⟩
    refine journalSector_trim (k := k) (r := { r with pcrcs := r.crcs s }) ((hmem _).mpr (.inl rfl)) hkind ?_ fun q hq hcovers => ?_
    · simp [Rec.covers, hkind, hfrom, hto]
    · exact ((hmem q).mp hq).imp_right fun hin => hnew q hin hcovers
  · change ∃ t, execRecordSeal s = .next t ∧ _
    simp only [execRecordSeal, hprog, List.head?_cons, hup, Bool.false_eq_true, if_false, onlyIf, hrun, if_true]
    refine ⟨_, rfl, ?_⟩
    simp only [progOnly, progNext, hprog, List.head?_cons, List.drop_succ_cons, List.drop_zero]
  · refine ⟨retired k (progNext s), ?_, ?_⟩
    · change execRetirement k s = _
      simp only [execRetirement, hprog, List.head?_cons, BEq.rfl, hup, if_true]
    · exact retired_leaves (s := progNext s) hrec harr
  · have hlevel : s.restart.level ≠ .failstop := by
      simp only [unitsUp, Bool.and_eq_true, bne_iff_ne] at hup
      tauto
    have hexec : exec (.trimDoneUpdate k) s = .next (wordsAsk (trimmedTo k n r s)) := by
      change execTrimDoneUpdate k s = _
      have hput : recPut k (fun r => { r with trimDone := n }) (progNext s) = trimmedTo k n r s := by
        have hrec' : kget k (progNext s).skb.recs = some r := hrec
        simp only [recPut, hrec', trimmedTo]
      simp only [execTrimDoneUpdate, hprog, List.head?_cons, bne_self_eq_false, Bool.false_eq_true, if_false, hup, if_true, hput]
    obtain ⟨l, hasks⟩ := wordsAsk_onlyAsks (trimmedTo k n r s)
    refine ⟨_, hexec, ?_, fun x hx hret => ?_, ?_⟩
    · rw [hasks]
      rfl
    · have hlive : liveRecs (wordsAsk (trimmedTo k n r s)) = liveRecs (trimmedTo k n r s) := by
        rw [hasks]
        rfl
      rw [hlive] at hx
      rw [(wordsAsk_onlyAsks _).retirable] at hret
      exact foldl_askWord_asks (s := trimmedTo k n r s) hlevel hx hret
    · rw [hasks]
      rfl
  · change ∃ t, execRetirement k s = .next t ∧ _
    rw [execRetirement, if_neg (by simpa using hother)]
    exact ⟨s, rfl, rfl⟩
  · change ∃ t, execTrimDoneUpdate k s = .next t ∧ _
    refine ⟨s, ?_, rfl⟩
    unfold execTrimDoneUpdate
    split
    · next j n hn =>
      have hj : j ≠ k := fun h => hother n (h ▸ hn)
      simp [hj]
    all_goals rfl

end Sys2Proof.Machine
end

section
/-! Flushes: what starts them, their lock and their end (R382 to R394). -/

namespace Sys2Proof.Machine
open Sys2Proof.Safety

/-! ## Flushes that start -/

/-- Flushes join the ones under way, and nothing else changes. -/
def MoreFlushes (s t : State) : Prop :=
  ∃ l n, t = { s with skb := { s.skb with flushes := s.skb.flushes ++ l, nextFlush := n } }

theorem MoreFlushes.refl (s : State) : MoreFlushes s s := ⟨[], s.skb.nextFlush, by rw [List.append_nil]⟩

theorem MoreFlushes.trans {s t u : State} (h : MoreFlushes s t) (k : MoreFlushes t u) : MoreFlushes s u := by
  obtain ⟨l, n, rfl⟩ := h
  obtain ⟨m, o, rfl⟩ := k
  exact ⟨l ++ m, o, by simp only [List.append_assoc]⟩

theorem MoreFlushes.foldl {α : Type} {g : State → α → State} (h : ∀ s a, MoreFlushes s (g s a)) (l : List α) (s : State) :
    MoreFlushes s (l.foldl g s) := by
  induction l generalizing s with
  | nil => exact .refl s
  | cons a t ih => exact (h s a).trans (ih _)

theorem MoreFlushes.flushing {s t : State} (h : MoreFlushes s t) {a : Fin 4} {new : Bool} {n : Nat}
    (hs : flushing a new n s = true) : flushing a new n t = true := by
  obtain ⟨l, m, rfl⟩ := h
  unfold Machine.flushing at hs ⊢
  simp only [List.any_append, hs, Bool.true_or]

theorem addFlush_of_assembled {f : Flush} {s : State} (h : (arrGet f.array s).state.assembled = true) : addFlush f s =
    { s with skb := { s.skb with
      flushes := s.skb.flushes ++ [{ f with id := s.skb.nextFlush }], nextFlush := s.skb.nextFlush + 1 } } := if_pos h

theorem addFlush_moreFlushes (f : Flush) (s : State) : MoreFlushes s (addFlush f s) := by
  unfold addFlush
  split
  · exact ⟨_, _, rfl⟩
  · exact .refl s

theorem startFlush_moreFlushes (a : Fin 4) (new : Bool) (stripe : Nat) (s : State) : MoreFlushes s (startFlush a new stripe s) := by
  unfold startFlush
  split
  · exact .refl s
  · exact addFlush_moreFlushes _ s

/-- A stripe of an assembled array whose flush has started is flushed. -/
theorem startFlush_flushing {a : Fin 4} {new : Bool} {stripe : Nat} {s : State} (h : (arrGet a s).state.assembled = true) :
    flushing a new stripe (startFlush a new stripe s) = true := by
  unfold startFlush
  split
  · next hs => exact hs
  · rw [addFlush_of_assembled h]
    simp [flushing]

theorem trimApply_moreFlushes (slot : Nat) (s : State) : MoreFlushes s (trimApply slot s) := by
  unfold trimApply
  split
  · exact .refl s
  · split
    · dsimp only
      split
      · exact .refl s
      · exact addFlush_moreFlushes _ s
    · exact .refl s

/-- The flushes of some stripes of a region. -/
theorem foldl_startFlush {a : Fin 4} {new : Bool} {l : List Nat} {s : State} (h : (arrGet a s).state.assembled = true) {n : Nat}
    (hn : n ∈ l) : flushing a new n (l.foldl (fun s t => startFlush a new t s) s) = true := by
  induction l generalizing s with
  | nil => exact nomatch hn
  | cons m l ih =>
    rw [List.foldl_cons]
    have hstep := startFlush_moreFlushes a new m s
    rcases List.mem_cons.mp hn with rfl | hin
    · exact (MoreFlushes.foldl (fun u t => startFlush_moreFlushes a new t u) l _).flushing (startFlush_flushing h)
    · obtain ⟨k, o, hk⟩ := hstep
      exact ih (by rw [hk]; exact h) hin

theorem flushRec_moreFlushes (r : Rec) (s : State) : MoreFlushes s (flushRec r s) :=
  have go (new : Bool) (s : State) := MoreFlushes.foldl (fun s t => startFlush_moreFlushes r.array new t s)
    (r.stripesIn (arrGet r.array _) new) s
  (go false s).trans (go true _)

/-- Every stripe of the old region that a record has work in is flushed. -/
theorem flushRec_flushing {r : Rec} {s : State} (h : (arrGet r.array s).state.assembled = true) {n : Nat}
    (hn : n ∈ r.stripesIn (arrGet r.array s) false) : flushing r.array false n (flushRec r s) = true :=
  (MoreFlushes.foldl (fun s t => startFlush_moreFlushes r.array true t s) (r.stripesIn (arrGet r.array s) true) _).flushing
    (foldl_startFlush h hn)

/-- The flushes of some records. -/
theorem foldl_flushRec {l : List (Nat × Rec)} {x : Nat × Rec} {s : State} (hx : x ∈ l)
    (h : (arrGet x.2.array s).state.assembled = true) {n : Nat} (hn : n ∈ x.2.stripesIn (arrGet x.2.array s) false) :
    flushing x.2.array false n (l.foldl (fun s y => flushRec y.2 s) s) = true := by
  induction l generalizing s with
  | nil => exact nomatch hx
  | cons y l ih =>
    rw [List.foldl_cons]
    rcases List.mem_cons.mp hx with rfl | hin
    · exact (MoreFlushes.foldl (fun u z => flushRec_moreFlushes z.2 u) l _).flushing (flushRec_flushing h hn)
    · obtain ⟨k, o, hk⟩ := flushRec_moreFlushes y.2 s
      exact ih hin (by rw [hk]; exact h) (by rw [hk]; exact hn)

/-- Every stripe that an unretired WRITE record of an assembled array has work in is flushed. -/
theorem flushEverything_flushing {s : State} {x : Nat × Rec} (hx : x ∈ liveRecs s) (hkind : x.2.kind = .write)
    (h : (arrGet x.2.array s).state.assembled = true) {n : Nat} (hn : n ∈ x.2.stripesIn (arrGet x.2.array s) false) :
    flushing x.2.array false n (flushEverything s) = true := by
  have hall : flushing x.2.array false n (flushAll s) = true :=
    foldl_flushRec (List.mem_filter.mpr ⟨hx, by simp [hkind]⟩) h hn
  have htrim (u : State) (y : Nat × Rec) : MoreFlushes u (if y.2.kind == .trim then trimApply y.1 u else u) := by
    split
    · exact trimApply_moreFlushes ..
    · exact .refl u
  exact (MoreFlushes.foldl htrim (liveRecs (flushAll s)) (flushAll s)).flushing hall

/-- FLUSH of SKB_CTRL is not one of its fields. -/
theorem bits_or_flush (w : Word) {hi lo : Nat} (h : hi < 31) : bits (w ||| flg 31 true) hi lo = bits w hi lo := by
  have hflag : (flg 31 true).toNat = 2 ^ 31 := by decide
  apply Nat.eq_of_testBit_eq
  intro i
  simp only [bits, BitVec.toNat_or, hflag, Nat.testBit_mod_two_pow, Nat.testBit_shiftRight, Nat.testBit_or, Nat.testBit_two_pow]
  by_cases hi' : i < hi + 1 - lo
  · have hne : ¬31 = lo + i := by omega
    simp [hne]
  · simp [hi']

theorem skbCtrlOk_flush {w : Word} (h : skbCtrlOk w = true) : skbCtrlOk (w ||| flg 31 true) = true := by
  simpa only [skbCtrlOk, bits_or_flush w (show 30 < 31 by omega), bits_or_flush w (show 23 < 31 by omega),
    bits_or_flush w (show 15 < 31 by omega)] using h

theorem bit_flush (w : Word) : bit (w ||| flg 31 true) 31 = true := by
  have hflag : (flg 31 true).getLsbD 31 = true := by decide
  simp only [bit, BitVec.getLsbD_or, hflag, Bool.or_true]

/-- The state of FLUSH_ALL before its flushes start: the fields of SKB_CTRL are as they read. -/
def flushAsked (s : State) : State := forcedUpdate (skbCtrlSet (skbCtrlWord s ||| flg 31 true) s)

theorem flushAsked_writes (s : State) : ∃ k q, flushAsked s = { s with skb := k, log := { s.log with irqStat := q } } ∧
    k.recs = s.skb.recs := by
  obtain ⟨f, p, q, h⟩ := forcedUpdate_writes (skbCtrlSet (skbCtrlWord s ||| flg 31 true) s)
  exact ⟨_, q, h, rfl⟩

/-- FLUSH_ALL flushes everything. -/
theorem exec_flushAll {s : State} (hruns : unitsRun s = true) (hok : skbCtrlOk (skbCtrlWord s) = true) :
    exec .flushAll s = .next (flushEverything (flushAsked s)) := by
  have hruns' : unitsRun (flushAsked s) = true := by
    obtain ⟨k, q, h, -⟩ := flushAsked_writes s
    rw [h]
    exact hruns
  change execFlushAll s = _
  have hwrite : skbCtrlWrite 0xF (skbCtrlWord s ||| flg 31 true) s =
      onlyIf (unitsRun (flushAsked s)) (if lane 0xF 3 && bit (skbCtrlWord s ||| flg 31 true) 31 then flushEverything else forcedFlush)
        (flushAsked s) := by
    simp only [skbCtrlWrite, mergeLanes_full, skbCtrlOk_flush hok, if_true]
    rfl
  have hlane : lane 0xF 3 = true := by decide
  simp only [execFlushAll, onlyIf, hruns, if_true, hwrite, hruns', bit_flush, hlane, Bool.and_self]

/-! ## The end of a flush -/

/-- Coverage by the journal depends on the unretired records alone, and on nothing of PARITY records. -/
theorem journalSector_bare (a : Fin 4) (x : Nat) (s : State) :
    journalSector a x s = .bare ↔ (liveRecs s).filter (fun c => c.2.covers a x) = [] := by
  have hfold (l : List (Nat × Rec)) (b : Option (Nat × Rec)) (hb : b ≠ none) : l.foldl newerRec b ≠ none := by
    induction l generalizing b with
    | nil => exact hb
    | cons c l ih =>
      refine ih _ ?_
      cases b with
      | none => exact absurd rfl hb
      | some y =>
        simp only [newerRec]
        split <;> simp
  unfold journalSector coverOf
  cases hl : (liveRecs s).filter (fun c => c.2.covers a x) with
  | nil => simp
  | cons c l =>
    cases hc : (c :: l).foldl newerRec none with
    | none => exact absurd hc (hfold l (some c) nofun)
    | some y =>
      simp only [reduceCtorEq, iff_false]
      unfold Rec.sector
      split
      · dsimp only
        split
        · nofun
        · split <;> nofun
      · nofun
      · nofun

theorem dropWhere_onCanvas (f : Bind → Bool) (s : State) : OnCanvas s (dropWhere f s) :=
  (foldl_onCanvas (fun u n => tileDrop_onCanvas n u) _ s).trans (foldl_onCanvas (fun u n => tier2Drop_onCanvas n u) _ _)

theorem workDrop_writes (w : Work) (s : State) : ∃ c d m,
    workDrop w s = { s with canvas := c, ledger := d, skb := { s.skb with marks := m } } := by
  obtain ⟨c, d, h⟩ := dropWhere_onCanvas (Bind.ofWork w) s
  refine ⟨c, d, s.skb.marks.filter fun m => m.w != w, ?_⟩
  unfold workDrop
  rw [h]

theorem lockDrop_writes (f : Lock → Bool) (s : State) : ∃ d, lockDrop f s = { s with
    ledger := d
    queues := { s.queues with line := s.queues.line.filter (!f ·), locks := s.queues.locks.filter fun x => !f x.2 } } := by
  have hgive {l : List (Nat × Lock)} (u : State) : ∃ d, l.foldl (fun s x => poolGive pRangeLock x.2.studio 1 s) u = { u with ledger := d } := by
    induction l generalizing u with
    | nil => exact ⟨_, rfl⟩
    | cons x l ih =>
      obtain ⟨d, h⟩ := ih (poolGive pRangeLock x.2.studio 1 u)
      exact ⟨d, h⟩
  exact hgive _

/-- The records once the intents of a step have been carried to the members. -/
def carry (l : List Nat) (x : Nat × Rec) : Nat × Rec := if l.contains x.1 then (x.1, { x.2 with carried := true }) else x

/-- A flush's step whose member writes have all responded. -/
def rowsDone (f : Flush) : Flush :=
  { f with doneRows := f.doneRows ++ f.rows, rows := [], parity := none, intents := [], issued := false }

/-- The state of such a step, before the flush goes on or ends. -/
def rowsEnded (f : Flush) (s : State) : State :=
  let u := workDrop (flushWork f) s
  flushPut (rowsDone f) { u with skb := { u.skb with recs := u.skb.recs.map (carry f.intents) } }

theorem rowsEnded_writes (f : Flush) (s : State) : ∃ c d m l, rowsEnded f s = { s with
    canvas := c, ledger := d
    skb := { s.skb with marks := m, flushes := l, recs := s.skb.recs.map (carry f.intents) } } := by
  obtain ⟨c, d, m, h⟩ := workDrop_writes (flushWork f) s
  refine ⟨c, d, m, ?_⟩
  unfold rowsEnded
  rw [h]
  exact ⟨_, rfl⟩

theorem carry_covers (l : List Nat) (x : Nat × Rec) (a : Fin 4) (n : Nat) : (carry l x).2.covers a n = x.2.covers a n := by
  unfold carry
  split <;> rfl

theorem carry_retired (l : List Nat) (x : Nat × Rec) : (carry l x).2.retired = x.2.retired := by
  unfold carry
  split <;> rfl

/-- That intents have been carried uncovers nothing. -/
theorem journalSector_carry {s t : State} {l : List Nat} (h : t.skb.recs = s.skb.recs.map (carry l)) (a : Fin 4) (x : Nat) :
    journalSector a x t = .bare ↔ journalSector a x s = .bare := by
  have hlist : (liveRecs t).filter (fun c => c.2.covers a x) =
      ((liveRecs s).filter (fun c => c.2.covers a x)).map (carry l) := by
    simp only [liveRecs, h, List.filter_map, Function.comp_def, carry_covers, carry_retired]
  rw [journalSector_bare, journalSector_bare, hlist, List.map_eq_nil_iff]

theorem rowsLeft_congr {s t : State} (harrs : t.arrs = s.arrs)
    (hbare : ∀ a x, journalSector a x t = .bare ↔ journalSector a x s = .bare) (f : Flush) : rowsLeft f t = rowsLeft f s := by
  have harr (a : Fin 4) : arrGet a t = arrGet a s := by rw [arrGet, harrs]; rfl
  have hmask (tile : Nat) : coverMask (tileCover f.array tile t) = coverMask (tileCover f.array tile s) := by
    have hfilter : ((List.finRange 8).filter fun k => (tileCover f.array tile t).get k != .bare) =
        ((List.finRange 8).filter fun k => (tileCover f.array tile s).get k != .bare) := by
      refine List.filter_congr fun k _ => ?_
      have hk := hbare f.array (8 * tile + k.val)
      have hget (u : State) : (tileCover f.array tile u).get k = journalSector f.array (8 * tile + k.val) u := by
        simp [tileCover, Vector.get_eq_getElem]
      rw [hget, hget, bne, bne, Bool.not_inj_iff, Bool.eq_iff_iff, beq_iff_eq, beq_iff_eq, hk]
    rw [coverMask, hfilter]
    rfl
  have htouched (r : Nat) : touched f r t = touched f r s := by
    simp only [touched, flushMask, flushTile, harr, hmask]
    rfl
  simp only [rowsLeft, harr, htouched]

theorem finishFlush_plain {f : Flush} {s : State} (htrim : f.trim = none) (hmend : f.mend = none) :
    finishFlush f s = endFlush f (markFlushed f s) := by
  simp only [finishFlush, htrim, hmend]

/-- The last member writes of a flush have responded and no row is left: it ends. -/
theorem flushStep_ends {f : Flush} {s : State} (harr : (arrGet f.array s).state.assembled = true)
    (hholds : holds (.flush f.id) .flush s = true) (hissued : f.issued = true) (htrim : f.trim = none) (hmend : f.mend = none)
    (hout : opsOut (.flush f.id) s = false) (hrows : rowsLeft { f with doneRows := f.doneRows ++ f.rows } s = []) :
    flushStep f s = endFlush (rowsDone f) (markFlushed (rowsDone f) (rowsEnded f s)) := by
  obtain ⟨c, d, m, l, hended⟩ := rowsEnded_writes f s
  have hleft : rowsLeft (rowsDone f) (rowsEnded f s) = [] := by
    refine Eq.trans (rowsLeft_congr (s := s) ?_ (fun a x => journalSector_carry (l := f.intents) ?_ a x) _) hrows
    · rw [hended]
    · rw [hended]
  have hwhole : trimsWhole (rowsDone f) (rowsEnded f s) = false := by
    have ht : (rowsDone f).trim = none := htrim
    simp only [trimsWhole, ht]
  have hgo : (!f.replay && !f.nolock && !holds (flushWork f) .flush s) = false := by
    have hh : holds (flushWork f) .flush s = true := hholds
    simp [hh]
  have hout' : opsOut (flushWork f) s = false := hout
  rw [← finishFlush_plain (f := rowsDone f) htrim hmend]
  unfold flushStep
  dsimp only
  rw [if_neg (by simp [harr]), if_neg (by simp [hgo]), if_pos hissued, if_neg (by simp [hout'])]
  have hend : (trimsWhole (rowsDone f) (rowsEnded f s) || (rowsLeft (rowsDone f) (rowsEnded f s)).isEmpty) = true := by
    rw [hwhole, hleft]
    rfl
  exact if_pos hend

/-- What the end of a flush leaves: no flush and no lock of its own, and its records written in its stripe. -/
theorem endFlush_writes (f : Flush) (s : State) : ∃ c d m, endFlush f s = { s with
    canvas := c, ledger := d
    skb := { s.skb with marks := m, flushes := s.skb.flushes.filter fun g => g.id != f.id }
    queues := { s.queues with
      line := s.queues.line.filter (fun l => !(l.work == flushWork f))
      locks := s.queues.locks.filter fun x => !(x.2.work == flushWork f) } } := by
  obtain ⟨d, hd⟩ := lockDrop_writes (fun l => l.work == flushWork f) s
  obtain ⟨c, e, m, hw⟩ := workDrop_writes (flushWork f) (lockDrop (fun l => l.work == flushWork f) s)
  refine ⟨c, e, m, ?_⟩
  unfold endFlush
  dsimp only
  rw [hw, hd]

theorem markDone_doneIn (r : Rec) (new : Bool) (n : Nat) : n ∈ (r.markDone new n).doneIn new := by
  unfold Rec.markDone
  split
  · next h => simpa using h
  · cases new <;> simp [Rec.doneIn]

/-- A record that a flush carried counts as written in its stripe. -/
def mark (f : Flush) (x : Nat × Rec) : Nat × Rec :=
  if x.2.kind != .parity && x.2.array == f.array && !x.2.retired && (f.carries.getD []).contains x.2.cseq then
    (x.1, x.2.markDone f.newRegion f.stripe)
  else x

theorem markFlushed_eq (f : Flush) (s : State) :
    markFlushed f s = { s with skb := { s.skb with recs := s.skb.recs.map (mark f) } } := rfl

theorem markDone_keeps (r : Rec) (new : Bool) (n : Nat) : (r.markDone new n).kind = r.kind ∧ (r.markDone new n).array = r.array ∧
    (r.markDone new n).retired = r.retired ∧ (r.markDone new n).cseq = r.cseq := by
  unfold Rec.markDone
  split
  · simp
  · split <;> simp

/-- A record that was carried has been written in the stripe. -/
theorem mark_written {f : Flush} {y : Nat × Rec} (hkind : (mark f y).2.kind ≠ .parity) (harr : (mark f y).2.array = f.array)
    (hret : (mark f y).2.retired = false) (hin : (mark f y).2.cseq ∈ f.carries.getD []) :
    f.stripe ∈ (mark f y).2.doneIn f.newRegion := by
  obtain ⟨k1, k2, k3, k4⟩ := markDone_keeps y.2 f.newRegion f.stripe
  unfold mark at *
  split at hkind
  · next h =>
    rw [if_pos h]
    exact markDone_doneIn ..
  · next h =>
    rw [if_neg h] at harr hret hin
    exact absurd (by simp [hkind, harr, hret, hin]) h

theorem mark_slot (f : Flush) (y : Nat × Rec) : ((mark f y).1, (mark f y).2.retired) = (y.1, y.2.retired) := by
  obtain ⟨-, -, k3, -⟩ := markDone_keeps y.2 f.newRegion f.stripe
  unfold mark
  split
  · rw [k3]
  · rfl

theorem carry_slot (l : List Nat) (y : Nat × Rec) : ((carry l y).1, (carry l y).2.retired) = (y.1, y.2.retired) := by
  unfold carry
  split <;> rfl

/-- Settles O46. -/
theorem flushesStartAndEnd : Obligations.FlushesStartAndEnd := by
  have hage {s : State} {a : Fin 4} {stripe k : Nat} {r : Rec}
      (hmine : (liveRecs s).filter (fun x => x.2.kind == .write && x.2.array == a && x.2.stripe == stripe) = [(k, r)])
      (hgo : (unitsRun s && decide (s.skb.flushAge * 1000 ≤ (s.clk.tick.truncate 32 - r.sealTick : Word).toNat)) = true) :
      exec (.flushAgeExpiry a stripe) s = .next (match (if s.skb.forced then
        oldestRec ((liveRecs s).filter fun (_, r) => (arrGet r.array s).state.assembled && r.trimLeft) else none) with
        | some (i, _) => trimApply i s
        | none => flushRec r s) := by
    change execFlushAgeExpiry a stripe s = _
    simp only [execFlushAgeExpiry, hmine, oldestRec, List.foldl_cons, List.foldl_nil, hgo, onlyIf, if_true] <;> rfl
  have hgo {s : State} {f : Flush} (hruns : unitsRun s = true) (hfind : s.skb.flushes.find? (fun g => g.id == f.id) = some f) :
      exec (.flushStep f.id) s = .next (wordsAsk (flushStep f s)) := by
    change execFlushStep f.id s = _
    simp only [execFlushStep, onlyIf, hruns, if_true, hfind]
  refine ⟨fun s hruns => ⟨fun hok => ?_, fun a stripe k r hmine => ⟨fun hold => ⟨fun hforced harr => ?_, fun i q hforced htrim => ?_⟩,
    fun hyoung => ?_⟩, fun k r hrec hleft harr hflush => ?_, fun c row rest hmends harr => ?_⟩,
    fun s f hruns hfind harr hreplay hnolock => ⟨fun hholds hwaits => ?_, fun hholds hissued htrim hmend hout hrows => ?_⟩⟩
  · refine ⟨_, exec_flushAll hruns hok, ?_⟩
    obtain ⟨k, q, hasked, hrecs⟩ := flushAsked_writes s
    obtain ⟨l, n, hflush⟩ := flushEverything_onlyFlushes (flushAsked s)
    have hlive : liveRecs (flushAsked s) = liveRecs s := by
      rw [hasked, liveRecs]
      exact congrArg (List.filter _) hrecs
    have harrs (a : Fin 4) : arrGet a (flushAsked s) = arrGet a s := by
      rw [hasked]
      rfl
    refine ⟨fun x hx hkind harr n hn => ?_, ?_, ?_⟩
    · exact flushEverything_flushing (hlive ▸ hx) hkind (by rw [harrs]; exact harr) (by rw [harrs]; exact hn)
    · rw [hflush, hasked]
      exact hrecs
    · rw [hflush, hasked]
  · refine ⟨_, hage hmine (by rw [hruns, decide_eq_true hold]; rfl), ?_⟩
    rw [hforced, if_neg (by decide)]
    obtain ⟨l, n, hflush⟩ := flushRec_onlyFlushes r s
    have ha : r.array = a := by
      have hin : (k, r) ∈ (liveRecs s).filter (fun x => x.2.kind == .write && x.2.array == a && x.2.stripe == stripe) :=
        hmine ▸ List.mem_cons_self
      simp only [List.mem_filter, Bool.and_eq_true, beq_iff_eq] at hin
      exact hin.2.1.2
    subst ha
    refine ⟨fun n hn => flushRec_flushing harr hn, ?_, ?_⟩
    · rw [hflush]
    · rw [hflush]
  · refine ⟨_, hage hmine (by rw [hruns, decide_eq_true hold]; rfl), ?_⟩
    rw [hforced, if_pos rfl, htrim]
  · have hexec : exec (.flushAgeExpiry a stripe) s = .next s := by
      change execFlushAgeExpiry a stripe s = _
      simp only [execFlushAgeExpiry, hmine, oldestRec, List.foldl_cons, List.foldl_nil, Nat.not_le.mpr hyoung, decide_false,
        Bool.and_false, onlyIf, Bool.false_eq_true, if_false]
    exact ⟨s, hexec, rfl⟩
  · refine reaches_of_guard rfl hruns ?_
    simp only [trimApply, hrec, hleft, hflush, if_true, Bool.false_eq_true, if_false]
    exact addFlush_of_assembled harr
  · refine reaches_of_guard rfl hruns ?_
    simp only [hmends]
    exact addFlush_of_assembled harr
  · have hstep : flushStep f s = lockRequest (stripeLock f.array f.newRegion f.stripe .flush (flushWork f) s) s := by
      have hh : holds (flushWork f) .flush s = false := hholds
      have hw : waits (flushWork f) .flush s = false := hwaits
      simp only [flushStep, harr, hreplay, hnolock, hh, hw, Bool.not_true, Bool.not_false, Bool.and_self, Bool.false_eq_true,
        if_false, if_true]
    refine ⟨_, hgo hruns hfind, ?_⟩
    obtain ⟨l, hasks⟩ := wordsAsk_onlyAsks (flushStep f s)
    rw [hasks, hstep]
    refine ⟨⟨_, List.mem_append_right _ List.mem_cons_self, rfl, rfl, rfl, rfl, rfl, rfl⟩, rfl⟩
  · refine ⟨_, hgo hruns hfind, ?_⟩
    obtain ⟨l, hasks⟩ := wordsAsk_onlyAsks (flushStep f s)
    obtain ⟨c, d, m, fl, hended⟩ := rowsEnded_writes f s
    obtain ⟨c', d', m', hend⟩ := endFlush_writes (rowsDone f) (markFlushed (rowsDone f) (rowsEnded f s))
    rw [hasks, flushStep_ends harr hholds hissued htrim hmend hout hrows, hend, markFlushed_eq, hended]
    refine ⟨fun g hg => ?_, ?_, fun x hx => ?_, ?_, rfl, rfl⟩
    · simpa [rowsDone] using (List.mem_filter.mp hg).2
    · have hnone (x : Nat × Lock) (hx : x ∈ s.queues.locks.filter fun x => !(x.2.work == flushWork (rowsDone f))) :
          (x.2.work == Work.flush f.id && x.2.kind == .flush) = false := by
        have hw : (x.2.work == Work.flush f.id) = false := by simpa [flushWork, rowsDone] using (List.mem_filter.mp hx).2
        rw [hw]
        rfl
      exact List.any_eq_false.mpr fun x hx => by simpa using hnone x hx
    · obtain ⟨y, -, rfl⟩ := List.mem_map.mp hx
      exact mark_written
    · simp only [List.map_map, Function.comp_def, mark_slot, carry_slot]

end Sys2Proof.Machine
end

section
/-! Background passes: their steps, checkpoints and finishes (R129, R402 to R409), and what follows a commit's change. -/

namespace Sys2Proof.Machine
open Sys2Proof.Safety

/-! ## What follows the change of an NV commit -/

/-- An array changes in its generation alone, and only where one is due; a note of another code than the member states'
and the ring's is not counted. -/
def Follows (s t : State) : Prop :=
  (∀ a, ∃ g d, arrGet a t = { arrGet a s with generation := g, advDue := d }) ∧
    (∀ a, (arrGet a s).advDue = false → arrGet a t = arrGet a s) ∧
    ∀ n, n ≠ 0 → n ≠ 0x30 → n ≠ 0x82 → counterGet n t = counterGet n s

theorem Follows.of_same {s t : State} (harrs : t.arrs = s.arrs)
    (hcount : ∀ n, n ≠ 0 → n ≠ 0x30 → n ≠ 0x82 → counterGet n t = counterGet n s) : Follows s t := by
  have harr (a : Fin 4) : arrGet a t = arrGet a s := congrArg (Vector.get · a) harrs
  exact ⟨fun a => ⟨_, _, harr a⟩, fun a _ => harr a, hcount⟩

theorem Follows.refl (s : State) : Follows s s := .of_same rfl fun _ _ _ _ => rfl

/-- A step that leaves the arrays and the counters alone. -/
theorem Follows.of_quiet {s t : State} (harrs : t.arrs = s.arrs) (hlog : t.log.counters = s.log.counters) : Follows s t :=
  .of_same harrs fun n _ _ _ => counterGet_congr hlog n

theorem arrPut_counters (a : Fin 4) (x : Arr) (s : State) : (arrPut a x s).log.counters = s.log.counters := by
  unfold arrPut
  dsimp only
  split <;> rfl

theorem Follows.trans {s t u : State} (h : Follows s t) (k : Follows t u) : Follows s u := by
  obtain ⟨h1, h2, h3⟩ := h
  obtain ⟨k1, k2, k3⟩ := k
  refine ⟨fun a => ?_, fun a hdue => ?_, fun n h0 h30 h82 => (k3 n h0 h30 h82).trans (h3 n h0 h30 h82)⟩
  · obtain ⟨g, d, ht⟩ := h1 a
    obtain ⟨g', d', hu⟩ := k1 a
    exact ⟨g', d', by rw [hu, ht]⟩
  · have ht := h2 a hdue
    exact (k2 a (by rw [ht]; exact hdue)).trans ht

theorem Follows.foldl {α : Type} {g : State → α → State} (h : ∀ s a, Follows s (g s a)) (l : List α) (s : State) :
    Follows s (l.foldl g s) :=
  List.foldlRecOn (motive := fun t => Follows s t) l g (.refl s) fun _ ht a _ => ht.trans (h _ a)

theorem memState_follows (m : Fin 128) (new : MState) (cause : Byte) (s : State) : Follows s (memState m new cause s) := by
  refine .of_same (by simp) fun n h0 h30 h82 => ?_
  have henter : counterGet n (memEnter m new cause s) = counterGet n s := by
    refine (counterGet_logAs _ _ _ _ _ _ h0).trans ?_
    rw [if_neg (by simpa [Code.info] using h30.symm)]
    exact counterGet_congr (by simp) n
  rw [← henter]
  unfold memState
  dsimp only
  (repeat' split) <;> simp [memberSet, memberReport, sendUp, counterGet_sendTo _ _ _ _ _ h82, counterGet_ringSend _ _ _ h82]

theorem missingRelease_follows (s : State) : Follows s (missingRelease s) := by
  unfold missingRelease
  split
  · exact .refl s
  · refine Follows.foldl (fun t m => ?_) _ s
    split
    · exact memState_follows ..
    · exact .refl t

theorem refreshChanged_follows (old : Vector Arr 4 × Vector Vol 64) (s : State) : Follows s (refreshChanged old s) := by
  refine Follows.foldl (fun t a => ?_) _ s
  dsimp only
  split
  · refine Follows.foldl (fun u r => ?_) _ t
    dsimp only
    split
    · exact .of_quiet (by simp) (by simp)
    · exact .refl u
  · exact .refl t

theorem wordsAsk_follows (s : State) : Follows s (wordsAsk s) := by
  obtain ⟨l, h⟩ := wordsAsk_onlyAsks s
  rw [h]
  exact .of_quiet rfl rfl

theorem nvWrite_follows (s : State) : Follows s (nvWrite s) := .of_quiet rfl rfl

theorem nvCommit_follows (c : NvChange) (s : State) : Follows s (nvCommit c s) := .of_quiet (by simp) (by simp)

/-- The advance that is due leaves the array without one due. -/
theorem advance_follows {a : Fin 4} {s : State} (hdue : (arrGet a s).advDue = true) : Follows s (advance a s) := by
  refine Follows.trans ?_ (nvCommit_follows _ _)
  unfold genNext
  dsimp only
  refine ⟨fun b => ?_, fun b hb => ?_, fun n _ _ _ => ?_⟩
  · by_cases hab : a = b
    · subst hab
      split <;> exact ⟨_, _, by rw [arrGet_arrPut_same]⟩
    · split <;> exact ⟨_, _, by rw [arrGet_arrPut_ne (h := hab)]⟩
  · have hab : a ≠ b := by
      rintro rfl
      rw [hdue] at hb
      exact nomatch hb
    split <;> rw [arrGet_arrPut_ne (h := hab)]
  · split <;> exact counterGet_congr (arrPut_counters ..) n

theorem advancesDue_follows (s : State) : Follows s (advancesDue s) := by
  refine Follows.foldl (fun t a => ?_) _ s
  split
  · next h => exact advance_follows (by simp only [Bool.and_eq_true] at h; exact h.1)
  · exact .refl t

/-- What follows a commit's change when its copy has been written. -/
theorem nvCommitDone_follows {s : State} {c : NvChange} {rest : List NvChange} (hprog : s.nv.prog.head? = some .nv)
    (hcommits : s.nv.commits = c :: rest) :
    Follows (nvChange c (progNext { s with nv := { s.nv with commits := rest } })) (nvCommitDone true s) := by
  rw [nvCommitDone_eq hprog hcommits]
  refine .trans (t := changed rest c s) (missingRelease_follows _) ((nvWrite_follows _).trans ?_)
  exact (refreshChanged_follows ..).trans ((wordsAsk_follows _).trans (advancesDue_follows _))

/-! ## Steps -/

theorem stepReady_asks {a : Fin 4} {new : Bool} {n : Nat} {k : LockKind} {s : State} (hholds : holds (.background a) k s = false)
    (hwaits : waits (.background a) k s = false) :
    stepReady a new n k s = (false, lockRequest (stripeLock a new n k (.background a) s) s) := by
  have hh : holds (bgWork a) k s = false := hholds
  have hw : waits (bgWork a) k s = false := hwaits
  simp only [stepReady, hh, hw, Bool.false_eq_true, if_false]
  rfl

theorem stepReady_flushes {a : Fin 4} {new : Bool} {n : Nat} {k : LockKind} {s : State}
    (hholds : holds (.background a) k s = true) (hissued : (arrGet a s).bgIssued = false) (hbusy : stripeBusy a new n s = true)
    (hown : ownFlush a new n s = false) (harr : (arrGet a s).state.assembled = true) :
    stepReady a new n k s = (false, { s with skb := { s.skb with
      nextFlush := s.skb.nextFlush + 1
      flushes := s.skb.flushes ++ [{ id := s.skb.nextFlush, array := a, newRegion := new, stripe := n, nolock := true }] } }) := by
  have hh : holds (bgWork a) k s = true := hholds
  simp only [stepReady, hh, hissued, stripeClean, hown, hbusy, Bool.false_eq_true, if_false, if_true]
  exact congrArg (Prod.mk false) (addFlush_of_assembled harr)

/-- A step in flight goes on. -/
theorem stepReady_goes {a : Fin 4} {new : Bool} {n : Nat} {k : LockKind} {s : State}
    (hholds : holds (.background a) k s = true) (hissued : (arrGet a s).bgIssued = true) : stepReady a new n k s = (true, s) := by
  have hh : holds (bgWork a) k s = true := hholds
  simp only [stepReady, hh, hissued, if_true]

/-- While its stripe is not ready, a step of each pass only makes it so. -/
theorem passStep_waits {c : Instr} {a : Fin 4} {k : BitVec 4} {kind : LockKind} {new : Bool} {n : Nat} {s t : State}
    (hc : (c, k, kind) ∈ [(Instr.restorationStep a, (1 : BitVec 4), LockKind.restoration), (.copyBackStep a, 2, .copyBack),
      (.inspectionStep a, 3, .inspection)]) (hmay : stepMay a k s = true)
    (hat : if k = 1 then walkAt (arrGet a s).walk (arrGet a s).mark = some (new, n) ∧ (arrGet a s).restoring.isSome = true
      else new = false ∧ n = (arrGet a s).mark ∧ n < (arrGet a s).shape.stripes (arrGet a s).rows)
    (hready : stepReady a new n kind s = (false, t)) : exec c s = .next t := by
  simp only [List.mem_cons, Prod.mk.injEq, List.not_mem_nil, or_false] at hc
  rcases hc with ⟨rfl, rfl, rfl⟩ | ⟨rfl, rfl, rfl⟩ | ⟨rfl, rfl, rfl⟩
  · rw [if_pos rfl] at hat
    obtain ⟨hwalk, hsome⟩ := hat
    obtain ⟨role, hrole⟩ := Option.isSome_iff_exists.mp hsome
    change execRestorationStep a s = _
    simp only [execRestorationStep, onlyIf, hmay, if_true, restorationStep, hwalk, hrole, hready, Bool.false_eq_true, if_false]
  · rw [if_neg (by decide)] at hat
    obtain ⟨rfl, rfl, hlt⟩ := hat
    change execCopyBackStep a s = _
    simp only [execCopyBackStep, onlyIf, hmay, if_true, copyBackStep, hlt, hready, Bool.false_eq_true, if_false]
  · rw [if_neg (by decide)] at hat
    obtain ⟨rfl, rfl, hlt⟩ := hat
    change execInspectionStep a s = _
    simp only [execInspectionStep, onlyIf, hmay, if_true, inspectionStep, hlt, hready, Bool.not_false]

/-- An array whose states stay changes without an interrupt. -/
theorem arrPut_quiet {a : Fin 4} {x : Arr} {s : State} (hstate : x.state = (arrGet a s).state)
    (hsub : x.repaint.sub = (arrGet a s).repaint.sub) (hkind : x.bgKind = (arrGet a s).bgKind) :
    arrPut a x s = { s with arrs := s.arrs.set a x } := by
  simp only [arrPut, hstate, hsub, hkind, bne_self_eq_false, Bool.or_self, Bool.false_eq_true, if_false]

/-- A step that ends leaves its lock and its tiles, and the mark stands past its stripe. -/
theorem stepDone_writes (a : Fin 4) (s : State) : ∃ c d m, stepDone a s = { s with
    canvas := c, ledger := d, skb := { s.skb with marks := m }
    queues := { s.queues with
      line := s.queues.line.filter (fun l => !(l.work == .background a))
      locks := s.queues.locks.filter fun x => !(x.2.work == .background a) }
    arrs := s.arrs.set a { arrGet a s with mark := (arrGet a s).mark + 1, bgRow := 0, bgIssued := false } } := by
  obtain ⟨d, hd⟩ := lockDrop_writes (fun l => l.work == bgWork a) s
  obtain ⟨c, e, m, hw⟩ := workDrop_writes (bgWork a) (lockDrop (fun l => l.work == bgWork a) s)
  refine ⟨c, e, m, ?_⟩
  unfold stepDone
  dsimp only
  rw [hw, hd]
  exact arrPut_quiet rfl rfl rfl

/-- No lock of a work is left once they are dropped. -/
theorem holds_dropped {w : Work} {k : LockKind} {s : State} (l : List (Nat × Lock))
    (h : s.queues.locks = l.filter fun x => !(x.2.work == w)) : holds w k s = false := by
  unfold holds
  rw [h]
  refine List.any_eq_false.mpr fun x hx => ?_
  have hw : (x.2.work == w) = false := by simpa using (List.mem_filter.mp hx).2
  simp [hw]

/-- A restoration's step whose member write has responded ends. -/
theorem restorationStep_ends {a : Fin 4} {s : State} (hholds : holds (.background a) .restoration s = true)
    (hissued : (arrGet a s).bgIssued = true) (hout : opsOut (.background a) s = false)
    (hwalk : (walkAt (arrGet a s).walk (arrGet a s).mark).isSome = true) (hrole : (arrGet a s).restoring.isSome = true) :
    restorationStep a s = stepDone a s := by
  obtain ⟨⟨new, n⟩, hat⟩ := Option.isSome_iff_exists.mp hwalk
  obtain ⟨role, hrestoring⟩ := Option.isSome_iff_exists.mp hrole
  have hout' : opsOut (bgWork a) s = false := hout
  simp only [restorationStep, hat, hrestoring, stepReady_goes hholds hissued, if_true]
  split
  · rfl
  · split
    · rfl
    · simp only [moveChunk, hissued, if_true, hout', Bool.false_eq_true, if_false]

/-! ## Finishes -/

/-- The finish of a pass that is done is requested. -/
theorem passFinish_asks {c : Instr} {a : Fin 4} {k : BitVec 4} {s : State}
    (hc : (c, k) ∈ [(Instr.restorationFinish a, (1 : BitVec 4)), (.copyBackFinish a, 2), (.inspectionFinish a, 3)])
    (hruns : unitsRun s = true) (hdone : passDone a k s = true) (hnone : s.nv.commits.contains (.finish a) = false) :
    exec c s = .next (nvCommit (.finish a) s) := by
  have hfinish : passFinish a k s = .next (nvCommit (.finish a) s) := by
    simp only [passFinish, onlyIf, hruns, hdone, hnone, Bool.not_false, Bool.and_self, if_true]
  simp only [List.mem_cons, Prod.mk.injEq, List.not_mem_nil, or_false] at hc
  rcases hc with ⟨rfl, rfl⟩ | ⟨rfl, rfl⟩ | ⟨rfl, rfl⟩ <;> exact hfinish

theorem passDone_kind {a : Fin 4} {k : BitVec 4} {s : State} (h : passDone a k s = true) : (arrGet a s).bgKind = k := by
  simp only [passDone, Bool.and_eq_true, beq_iff_eq] at h
  exact h.1.1.2

theorem passDone_other {a : Fin 4} {k j : BitVec 4} {s : State} (h : passDone a k s = true) (hne : k ≠ j) :
    passDone a j s = false := by
  cases hj : passDone a j s
  · rfl
  · exact absurd ((passDone_kind h).symm.trans (passDone_kind hj)) hne

theorem volsNote_writes (f : Vol → Bool) (s : State) : ∃ h, volsNote f s = { s with hbu := h } := by
  unfold volsNote
  generalize s.vols.toList = l
  induction l generalizing s with
  | nil => exact ⟨_, rfl⟩
  | cons v l ih =>
    rw [List.foldl_cons]
    split
    · obtain ⟨h, hl⟩ := ih (sirqSet v.owner sirqVol s)
      exact ⟨h, hl⟩
    · exact ih s

theorem setArr_writes (a : Fin 4) (x : Arr) (s : State) : ∃ h v, setArr a x s = { arrPut a x s with hbu := h, vols := v } := by
  unfold setArr volsFollow
  dsimp only
  generalize arrPut a x s = u
  obtain ⟨h, hnote⟩ := volsNote_writes (fun v => v.array == a && v.state != .gone &&
    v.state != (if (arrGet a u).state.serves && !(arrGet a u).stopping then .online else .stopped)) u
  rw [hnote]
  exact ⟨h, _, rfl⟩

/-- An array that is set is the one that is read then. -/
theorem arrGet_setArr (a : Fin 4) (x : Arr) (s : State) : arrGet a (setArr a x s) = x := by
  obtain ⟨h, v, hset⟩ := setArr_writes a x s
  rw [hset]
  exact arrGet_arrPut_same ..

theorem counterGet_setArr (a : Fin 4) (x : Arr) (s : State) (n : Nat) : counterGet n (setArr a x s) = counterGet n s := by
  obtain ⟨h, v, hset⟩ := setArr_writes a x s
  rw [hset]
  exact counterGet_congr (arrPut_counters ..) n

theorem repaintReturn_none {a : Fin 4} {s : State} (h : (arrGet a s).repaint.sub = .none) : repaintReturn a s = s := by
  have hne : (Sub.none == Sub.paused) = false := by decide
  simp only [repaintReturn, h, hne, Bool.false_and, Bool.false_eq_true, if_false]

/-- The array with the rank applied, or the role present, that a restoration has rebuilt. -/
def roleBack (x : Arr) (role : Nat) : Arr :=
  if x.rankBusy then { x with rankBusy := false }
  else match x.roles[role]? with
    | some r => x.setRole role { r with state := .present }
    | none => x

/-- The array once its restoration has ended. -/
def restored (x : Arr) : Arr :=
  let y : Arr := { x with
    bgKind := if x.repaint.sub == .none then 0 else 4, bgPaused := x.repaint.cause == .operator, bgTarget := 0,
    bgStripe := if x.repaint.sub == .none then 0 else x.repaintStripe, mark := 0 }
  let y := { y with state := y.settled }
  { y with salvage := y.salvage && y.state != .optimal }

theorem restorationEnd_eq {a : Fin 4} {s : State} {role : Nat} (hrole : (arrGet a s).restoring = some role) :
    restorationEnd a s = repaintReturn a (logRec .restorationDone ([BitVec.ofNat 8 a.val,
      BitVec.ofNat 8 (arrGet a s).bgTarget.val] ++ leBytes 4 (walkLen (arrGet a s).walk))
        (setArr a (restored (roleBack (arrGet a s) role)) s)) := by
  unfold restorationEnd
  simp only [hrole]
  rfl

/-- With no repaint, the array is out of the pass and the finish is noted. -/
theorem restorationEnd_ends {a : Fin 4} {s : State} {role : Nat} (hrole : (arrGet a s).restoring = some role)
    (hsub : (roleBack (arrGet a s) role).repaint.sub = .none) :
    arrGet a (restorationEnd a s) = restored (roleBack (arrGet a s) role) ∧
      (restored (roleBack (arrGet a s) role)).bgKind = 0 ∧
      counterGet 0x43 (restorationEnd a s) = ctrInc (counterGet 0x43 s) := by
  have hlog (l : List Byte) (u : State) : arrGet a (logRec .restorationDone l u) = arrGet a u := by simp [arrGet]
  rw [restorationEnd_eq hrole, repaintReturn_none (by rw [hlog, arrGet_setArr]; exact hsub), hlog, arrGet_setArr]
  refine ⟨rfl, ?_, ?_⟩
  · have hnone : ((roleBack (arrGet a s) role).repaint.sub == .none) = true := by rw [hsub]; rfl
    simp only [restored, hnone, if_true]
  · rw [counterGet_logRec _ _ _ _ (by decide), if_pos (by decide), counterGet_setArr]

theorem copyBackEnd_ends (a : Fin 4) (s : State) :
    (arrGet a (copyBackEnd a s)).sparesUsed = (arrGet a s).sparesUsed - 1 ∧ (arrGet a (copyBackEnd a s)).bgKind = 0 ∧
      (arrGet a (copyBackEnd a s)).mark = 0 := by
  unfold copyBackEnd
  rw [arrGet_setArr]
  exact ⟨rfl, rfl, rfl⟩

theorem inspectionEnd_ends (a : Fin 4) (s : State) :
    arrGet a (inspectionEnd a s) =
        { arrGet a s with bgKind := 0, bgPaused := false, bgStripe := 0, mark := 0, found := 0 } ∧
      counterGet 0x44 (inspectionEnd a s) = ctrInc (counterGet 0x44 s) := by
  unfold inspectionEnd
  refine ⟨?_, ?_⟩
  · have hlog (l : List Byte) (u : State) : arrGet a (logRec .inspectionDone l u) = arrGet a u := by simp [arrGet]
    rw [hlog, arrGet_setArr]
  · rw [counterGet_logRec _ _ _ _ (by decide), if_pos (by decide), counterGet_setArr]

/-- Settles O47. -/
theorem backgroundPasses : Obligations.BackgroundPasses := by
  unfold Obligations.BackgroundPasses
  intro s a hruns hlost
  have hup : unitsUp s = true := by
    simp only [unitsRun, Bool.and_eq_true] at hruns
    exact hruns.1
  have hrun : running s = true := running_of_unitsUp hup
  have hfail : s.restart.level ≠ .failstop := by
    simp only [unitsUp, Bool.and_eq_true, bne_iff_ne] at hup
    exact hup.1.2
  have hcommit {c : NvChange} {rest : List NvChange} {ops : List ProgOp} (hcommits : s.nv.commits = c :: rest)
      (hprog : s.nv.prog = .nv :: ops) :
      Follows (nvChange c (progNext { s with nv := { s.nv with commits := rest } })) (nvCommitDone true s) :=
    nvCommitDone_follows (by rw [hprog]; rfl) hcommits
  refine ⟨fun c k kind new n hc hmay hat => ⟨fun hholds hwaits => ?_, fun hholds hissued hbusy hown => ?_⟩,
    fun hmay hholds hissued hout hwalk hrole => ?_, fun harr hkind => ⟨?_, fun m rest ops hcommits hprog hle => ?_⟩,
    fun hnone c k hc hdone => ?_, fun rest ops hcommits hprog => ⟨fun i r hdone hbusy hrole hr hsub => ?_,
      fun hdone hbusy hsub => ?_, fun hdone => ?_, fun hdone => ?_⟩⟩
  · refine ⟨_, passStep_waits hc hmay hat (stepReady_asks hholds hwaits), ?_, rfl⟩
    exact ⟨_, List.mem_append_right _ List.mem_cons_self, rfl, rfl, rfl, rfl, rfl, rfl, rfl⟩
  · have harr : (arrGet a s).state.assembled = true := by
      simp only [stepMay, Bool.and_eq_true] at hmay
      exact hmay.1.1.1.1.1.2
    exact ⟨_, passStep_waits hc hmay hat (stepReady_flushes hholds hissued hbusy hown harr), rfl⟩
  · refine reaches_of_guard rfl hmay ?_
    rw [restorationStep_ends hholds hissued hout hwalk hrole]
    obtain ⟨c, d, m, hdone⟩ := stepDone_writes a s
    have hget : arrGet a (stepDone a s) =
        { arrGet a s with mark := (arrGet a s).mark + 1, bgRow := 0, bgIssued := false } := by
      rw [hdone]
      simp [arrGet, Vector.get_eq_getElem]
    rw [hget]
    refine ⟨rfl, rfl, ?_, rfl, ?_⟩
    · rw [hdone]
      exact holds_dropped _ rfl
    · rw [hdone]
  · have hguard : (unitsRun s && (arrGet a s).state.assembled &&
        ((arrGet a s).bgKind == 1 || (arrGet a s).bgKind == 2 || (arrGet a s).bgKind == 3)) = true := by
      rw [hruns, harr]
      rcases hkind with h | h | h <;> rw [h] <;> rfl
    refine reaches_of_guard rfl hguard ?_
    rw [nvCommit_writes hlost hfail]
    exact ⟨rfl, rfl⟩
  · refine reaches_of_guard rfl hrun ?_
    obtain ⟨g, d, hget⟩ := (hcommit hcommits hprog).1 a
    have hmark : arrGet a (markEnd a m (progNext { s with nv := { s.nv with commits := rest } })) =
        { arrGet a s with bgStripe := m } := by
      have hgo : (((arrGet a s).bgKind == 1 || (arrGet a s).bgKind == 2 || (arrGet a s).bgKind == 3) &&
          decide (m ≤ (arrGet a s).mark)) = true := by
        rw [decide_eq_true hle]
        rcases hkind with h | h | h <;> rw [h] <;> rfl
      unfold markEnd
      refine (congrArg (arrGet a) (if_pos hgo)).trans ?_
      exact arrGet_arrPut_same ..
    have hchange : nvChange (.mark a m) (progNext { s with nv := { s.nv with commits := rest } }) =
        markEnd a m (progNext { s with nv := { s.nv with commits := rest } }) := rfl
    rw [hget, hchange, hmark]
    exact ⟨rfl, rfl⟩
  · refine ⟨_, passFinish_asks hc hruns hdone hnone, ?_⟩
    rw [nvCommit_writes hlost hfail]
    exact ⟨rfl, rfl⟩
  · refine reaches_of_guard rfl hrun ?_
    obtain ⟨hall, -, hcount⟩ := hcommit hcommits hprog
    obtain ⟨g, d, hget⟩ := hall a
    rw [hget, hcount _ (by decide) (by decide) (by decide)]
    have hend : nvChange (.finish a) (progNext { s with nv := { s.nv with commits := rest } }) =
        restorationEnd a (progNext { s with nv := { s.nv with commits := rest } }) := if_pos hdone
    have hback : roleBack (arrGet a s) i = (arrGet a s).setRole i { r with state := .present } := by
      simp only [roleBack, hbusy, hr, Bool.false_eq_true, if_false]
    obtain ⟨harr, hkind, hnote⟩ := restorationEnd_ends (s := progNext { s with nv := { s.nv with commits := rest } }) hrole
      (by exact (congrArg (fun x : Arr => x.repaint.sub) hback).trans hsub)
    rw [hend, harr]
    exact ⟨congrArg Arr.roles hback, hkind, rfl, hnote⟩
  · refine reaches_of_guard rfl hrun ?_
    obtain ⟨hall, -, hcount⟩ := hcommit hcommits hprog
    obtain ⟨g, d, hget⟩ := hall a
    rw [hget, hcount _ (by decide) (by decide) (by decide)]
    have hend : nvChange (.finish a) (progNext { s with nv := { s.nv with commits := rest } }) =
        restorationEnd a (progNext { s with nv := { s.nv with commits := rest } }) := if_pos hdone
    have hrole : (arrGet a s).restoring = some (rankRole (arrGet a s).spareRole ((arrGet a s).sparesUsed - 1)) := by
      simp only [Arr.restoring, hbusy, if_true]
    have hback : roleBack (arrGet a s) (rankRole (arrGet a s).spareRole ((arrGet a s).sparesUsed - 1)) =
        { arrGet a s with rankBusy := false } := by
      simp only [roleBack, hbusy, if_true]
    obtain ⟨harr, hkind, hnote⟩ := restorationEnd_ends (s := progNext { s with nv := { s.nv with commits := rest } }) hrole
      (by exact (congrArg (fun x : Arr => x.repaint.sub) hback).trans hsub)
    rw [hend, harr]
    have hbusy' := congrArg Arr.rankBusy hback
    have hused := congrArg Arr.sparesUsed hback
    have hroles := congrArg Arr.roles hback
    exact ⟨hbusy', hused, hkind, hroles, hnote⟩
  · refine reaches_of_guard rfl hrun ?_
    obtain ⟨g, d, hget⟩ := (hcommit hcommits hprog).1 a
    rw [hget]
    have hend : nvChange (.finish a) (progNext { s with nv := { s.nv with commits := rest } }) =
        copyBackEnd a (progNext { s with nv := { s.nv with commits := rest } }) :=
      (if_neg (by exact Bool.eq_false_iff.mp (passDone_other hdone (by decide)))).trans (if_pos hdone)
    rw [hend]
    exact copyBackEnd_ends a (progNext { s with nv := { s.nv with commits := rest } })
  · refine reaches_of_guard rfl hrun ?_
    obtain ⟨hall, -, hcount⟩ := hcommit hcommits hprog
    obtain ⟨g, d, hget⟩ := hall a
    rw [hget, hcount _ (by decide) (by decide) (by decide)]
    have hend : nvChange (.finish a) (progNext { s with nv := { s.nv with commits := rest } }) =
        inspectionEnd a (progNext { s with nv := { s.nv with commits := rest } }) :=
      (if_neg (by exact Bool.eq_false_iff.mp (passDone_other hdone (by decide)))).trans
        ((if_neg (by exact Bool.eq_false_iff.mp (passDone_other hdone (by decide)))).trans (if_pos hdone))
    obtain ⟨harr, hnote⟩ := inspectionEnd_ends a (progNext { s with nv := { s.nv with commits := rest } })
    rw [hend, harr]
    exact ⟨rfl, rfl, rfl, hnote⟩

end Sys2Proof.Machine
end

section
/-! Repaints: copy steps in both directions, the front's commit, cutover and the end of a return (R418 to R430). -/

namespace Sys2Proof.Machine
open Sys2Proof.Safety

/-! ## What the end of a work leaves -/

/-- Only the works that are under way change: their tiles, units, places and flushes. -/
def WorksOnly (s t : State) : Prop :=
  ∃ c d q k, t = { s with canvas := c, ledger := d, queues := q, skb := k }

theorem WorksOnly.refl (s : State) : WorksOnly s s := ⟨_, _, _, _, rfl⟩

theorem WorksOnly.trans {s t u : State} (h : WorksOnly s t) (k : WorksOnly t u) : WorksOnly s u := by
  obtain ⟨c, d, q, l, rfl⟩ := h
  obtain ⟨c', d', q', l', rfl⟩ := k
  exact ⟨c', d', q', l', rfl⟩

theorem WorksOnly.foldl {α : Type} {g : State → α → State} (h : ∀ s a, WorksOnly s (g s a)) (l : List α) (s : State) :
    WorksOnly s (l.foldl g s) :=
  List.foldlRecOn (motive := fun t => WorksOnly s t) l g (.refl s) fun _ ht a _ => ht.trans (h _ a)

theorem WorksOnly.arrs {s t : State} (h : WorksOnly s t) : t.arrs = s.arrs := by
  obtain ⟨c, d, q, k, rfl⟩ := h
  rfl

theorem WorksOnly.log {s t : State} (h : WorksOnly s t) : t.log = s.log := by
  obtain ⟨c, d, q, k, rfl⟩ := h
  rfl

theorem endFlush_worksOnly (f : Flush) (s : State) : WorksOnly s (endFlush f s) := by
  obtain ⟨c, d, m, h⟩ := endFlush_writes f s
  exact ⟨_, _, _, _, h⟩

theorem workDrop_worksOnly (w : Work) (s : State) : WorksOnly s (workDrop w s) := by
  obtain ⟨c, d, m, h⟩ := workDrop_writes w s
  exact ⟨_, _, _, _, h⟩

theorem lockDrop_worksOnly (f : Lock → Bool) (s : State) : WorksOnly s (lockDrop f s) := by
  obtain ⟨d, h⟩ := lockDrop_writes f s
  exact ⟨_, _, _, _, h⟩

theorem regionEnd_worksOnly (a : Fin 4) (new : Bool) (s : State) : WorksOnly s (regionEnd a new s) :=
  WorksOnly.foldl (fun u f => endFlush_worksOnly f u) _ s

theorem verifiesAnew_worksOnly (a : Fin 4) (s : State) : WorksOnly s (verifiesAnew a s) := by
  refine WorksOnly.foldl (fun u x => ?_) _ s
  exact .trans ⟨_, _, _, _, rfl⟩ ((lockDrop_worksOnly _ (slotPut ..)).trans (workDrop_worksOnly ..))

/-! ## Copy steps -/

/-- A record with sectors in a stripe that a copy step has passed counts as written there. -/
def passed (a : Fin 4) (new : Bool) (n width : Nat) (x : Nat × Rec) : Nat × Rec :=
  if x.2.kind != .parity && x.2.array == a && !x.2.retired && decide (n * width < x.2.start + x.2.count)
      && decide (x.2.start < (n + 1) * width) then (x.1, x.2.markDone new n)
  else x

theorem passed_written {a : Fin 4} {new : Bool} {n width : Nat} {y : Nat × Rec}
    (hkind : (passed a new n width y).2.kind ≠ .parity) (harr : (passed a new n width y).2.array = a)
    (hret : (passed a new n width y).2.retired = false)
    (hlow : n * width < (passed a new n width y).2.start + (passed a new n width y).2.count)
    (hhigh : (passed a new n width y).2.start < (n + 1) * width) : n ∈ (passed a new n width y).2.doneIn new := by
  by_cases h : (y.2.kind != .parity && y.2.array == a && !y.2.retired && decide (n * width < y.2.start + y.2.count)
      && decide (y.2.start < (n + 1) * width)) = true
  · have hp : passed a new n width y = (y.1, y.2.markDone new n) := if_pos h
    rw [hp]
    exact markDone_doneIn ..
  · have hp : passed a new n width y = y := if_neg h
    rw [hp] at hkind harr hret hlow hhigh
    exact absurd (by simp [hkind, harr, hret, hlow, hhigh]) h

/-- A copy step whose last member writes have responded: its lock is gone, and the front stands past its stripe. -/
theorem copyDone_writes {a : Fin 4} {new : Bool} {n : Nat} {s : State} (hsub : (arrGet a s).repaint.sub = .active) :
    ∃ c d m, copyDone a new n s = { s with
      canvas := c, ledger := d
      skb := { s.skb with
        marks := m, recs := s.skb.recs.map (passed a new n ((arrGet a s).shapeAt new).stripeSectors) }
      queues := { s.queues with
        line := s.queues.line.filter (fun l => !(l.work == .background a))
        locks := s.queues.locks.filter fun x => !(x.2.work == .background a) }
      arrs := s.arrs.set a { arrGet a s with
        repaint := { (arrGet a s).repaint with front := (n + 1) * ((arrGet a s).shapeAt new).stripeSectors }
        bgRow := 0, bgIssued := false } } := by
  obtain ⟨d, hd⟩ := lockDrop_writes (fun l => l.work == bgWork a) s
  obtain ⟨c, e, m, hw⟩ := workDrop_writes (bgWork a) (lockDrop (fun l => l.work == bgWork a) s)
  refine ⟨c, e, m, ?_⟩
  have hrun : ((arrGet a s).repaint.sub == .paused) = false := by rw [hsub]; rfl
  unfold copyDone
  dsimp only
  rw [hw, hd]
  exact (if_neg (by exact ne_true_of_eq_false hrun)).trans (arrPut_quiet rfl rfl rfl)

theorem copyStep_asks {a : Fin 4} {new : Bool} {n : Nat} {s : State} (hholds : holds (.background a) .repaint s = false)
    (hwaits : waits (.background a) .repaint s = false) :
    copyStep a new n s = lockRequest (stripeLock a new n .repaint (.background a) s) s := by
  have hh : holds (bgWork a) .repaint s = false := hholds
  have hw : waits (bgWork a) .repaint s = false := hwaits
  simp only [copyStep, hh, hw, Bool.not_false, if_true, Bool.false_eq_true, if_false]
  rfl

theorem copyStep_ends {a : Fin 4} {new : Bool} {n : Nat} {s : State} (hholds : holds (.background a) .repaint s = true)
    (hissued : (arrGet a s).bgIssued = true) (hout : opsOut (.background a) s = false)
    (hlast : ((arrGet a s).shapeAt new).tiles ≤ (arrGet a s).bgRow + 16) : copyStep a new n s = copyDone a new n s := by
  have hh : holds (bgWork a) .repaint s = true := hholds
  have ho : opsOut (bgWork a) s = false := hout
  simp only [copyStep, hh, Bool.not_true, Bool.false_eq_true, if_false, hissued, if_true, ho, hlast]

/-- A copy step in either direction that may run. -/
theorem exec_copyStep {c : Instr} {a : Fin 4} {back new : Bool} {s : State}
    (hc : (c, back, new) ∈ [(Instr.repaintCopyStep a, false, true), (.returnStep a, true, false)])
    (hmay : copyMay a back s = true)
    (hroom : if back then (arrGet a s).repaint.front < (arrGet a s).repaint.wmark ∧
        (arrGet a s).repaint.front - (arrGet a s).repaint.rmark < 64 * (arrGet a s).shape.stripeSectors
      else (arrGet a s).repaint.front < (arrGet a s).repaint.k ∧
        (arrGet a s).repaint.front - (arrGet a s).repaint.wmark < 64 * (arrGet a s).repaint.shape.stripeSectors) :
    exec c s = .next (copyStep a new ((arrGet a s).repaint.front / ((arrGet a s).shapeAt new).stripeSectors) s) := by
  simp only [List.mem_cons, Prod.mk.injEq, List.not_mem_nil, or_false] at hc
  rcases hc with ⟨rfl, rfl, rfl⟩ | ⟨rfl, rfl, rfl⟩
  · obtain ⟨hbelow, hwindow⟩ : _ ∧ _ := hroom
    change execRepaintCopyStep a s = _
    simp only [execRepaintCopyStep, onlyIf, hmay, hbelow, hwindow, decide_true, Bool.and_self, if_true]
    rfl
  · obtain ⟨hbelow, hwindow⟩ : _ ∧ _ := hroom
    change execReturnStep a s = _
    simp only [execReturnStep, onlyIf, hmay, hbelow, hwindow, decide_true, Bool.and_self, if_true]
    rfl

theorem copyMay_runs {a : Fin 4} {back : Bool} {s : State} (h : copyMay a back s = true) : unitsRun s = true := by
  simp only [copyMay, Bool.and_eq_true] at h
  exact h.1.1.1.1.1.1

theorem level_of_unitsRun {s : State} (h : unitsRun s = true) : s.restart.level ≠ .failstop := by
  simp only [unitsRun, unitsUp, Bool.and_eq_true, bne_iff_ne] at h
  exact h.1.1.2

/-! ## The commits of a repaint -/

/-- The committed front is the watermark, or the return mark. -/
theorem arrGet_frontEnd (a : Fin 4) (m : Nat) (s : State) : arrGet a (frontEnd a m s) = (arrGet a s).commitFront m := by
  have hends := WorksOnly.foldl (fun (u : State) (f : Flush) => endFlush_worksOnly f u)
    (s.skb.flushes.filter fun f => passedBelow a m s f && !f.issued) s
  have harr := congrArg (Vector.get · a) hends.arrs
  refine (arrGet_arrPut_same ..).trans ?_
  exact congrArg (Arr.commitFront m) harr

/-- After cutover the array has the new shape, in the next generation, with a note. -/
theorem cutoverEnd_ends (a : Fin 4) (s : State) :
    arrGet a (cutoverEnd a s) = { (arrGet a s).cutOver with generation := (arrGet a s).generation + 1 } ∧
      counterGet 0x46 (cutoverEnd a s) = ctrInc (counterGet 0x46 s) := by
  have hends := (regionEnd_worksOnly a false s).trans (verifiesAnew_worksOnly a _)
  have harr : arrGet a (readsFlip a (verifiesAnew a (regionEnd a false s))) = arrGet a s := congrArg (Vector.get · a) hends.arrs
  have hlog : (readsFlip a (verifiesAnew a (regionEnd a false s))).log = s.log := hends.log
  have hkeep (l : List Byte) (u : State) : arrGet a (logRec .repaintDone l u) = arrGet a u := by simp [arrGet]
  unfold cutoverEnd
  dsimp only
  generalize readsFlip a (verifiesAnew a (regionEnd a false s)) = u at harr hlog
  refine ⟨?_, ?_⟩
  · rw [hkeep, arrGet_arrPut_same, ← harr]
    rfl
  · rw [counterGet_logRec _ _ _ _ (by decide), if_pos (by decide), counterGet_congr (arrPut_counters ..)]
    exact congrArg ctrInc (counterGet_congr (congrArg Log.counters hlog) _)

/-- A return without joining members leaves the array as it was before the repaint. -/
theorem backEnd_ends {a : Fin 4} {s : State} (hroles : (arrGet a s).roles.length ≤ (arrGet a s).shape.n) :
    (∃ l, arrGet a (backEnd a s) = { arrGet a s with
      roles := l, repaint := {}, bgKind := 0, bgPaused := false, bgStripe := 0 }) ∧
      counterGet 0x45 (backEnd a s) = ctrInc (counterGet 0x45 s) := by
  have hends := (regionEnd_worksOnly a true s).trans (verifiesAnew_worksOnly a _)
  have harr : arrGet a (verifiesAnew a (regionEnd a true s)) = arrGet a s := congrArg (Vector.get · a) hends.arrs
  have hnone : (arrGet a s).roles.drop (arrGet a s).shape.n = [] := List.drop_eq_nil_of_le hroles
  have hkeep (l : List Byte) (u : State) : arrGet a (logRec .repaintState l u) = arrGet a u := by simp [arrGet]
  unfold backEnd
  dsimp only
  generalize verifiesAnew a (regionEnd a true s) = u at harr hends
  rw [harr, hnone]
  refine ⟨⟨(arrGet a s).roles.take (arrGet a s).shape.n, ?_⟩, ?_⟩
  · rw [hkeep]
    exact arrGet_arrPut_same ..
  · rw [counterGet_logRec _ _ _ _ (by decide), if_pos (by decide), List.foldl_nil, counterGet_congr (arrPut_counters ..)]
    exact congrArg ctrInc (counterGet_congr (congrArg Log.counters hends.log) _)

/-- Settles O48. -/
theorem repaintsMoveTheArray : Obligations.RepaintsMoveTheArray := by
  unfold Obligations.RepaintsMoveTheArray
  intro s a hlost
  refine ⟨fun c back new n hc hmay hn hroom => ⟨fun hholds hwaits => ?_, fun hholds hissued hout hlast hsub => ?_⟩,
    fun hruns harr hsub hkind hissued hdue => ?_, fun hmay hend => ?_, fun hmay hend => ?_,
    fun rest ops hruns hprog hdue => ⟨fun m hcommits => ?_, fun hcommits => ?_, fun hcommits hroles => ?_⟩⟩
  · subst hn
    refine ⟨_, exec_copyStep hc hmay hroom, ?_⟩
    rw [copyStep_asks hholds hwaits]
    exact ⟨⟨_, List.mem_append_right _ List.mem_cons_self, rfl, rfl, rfl, rfl, rfl⟩, rfl⟩
  · subst hn
    refine ⟨_, exec_copyStep hc hmay hroom, ?_⟩
    obtain ⟨cv, d, m, hdone⟩ := copyDone_writes (new := new)
      (n := (arrGet a s).repaint.front / ((arrGet a s).shapeAt new).stripeSectors) hsub
    rw [copyStep_ends hholds hissued hout hlast]
    generalize (arrGet a s).repaint.front / ((arrGet a s).shapeAt new).stripeSectors = n at hdone ⊢
    have hget : arrGet a (copyDone a new n s) = { arrGet a s with
        repaint := { (arrGet a s).repaint with front := (n + 1) * ((arrGet a s).shapeAt new).stripeSectors }
        bgRow := 0, bgIssued := false } := by
      rw [hdone]
      simp [arrGet, Vector.get_eq_getElem]
    rw [hget]
    refine ⟨rfl, ?_, rfl, fun x hx => ?_, ?_⟩
    · rw [hdone]
      exact holds_dropped _ rfl
    · rw [hdone] at hx
      obtain ⟨y, -, rfl⟩ := List.mem_map.mp hx
      exact passed_written
    · rw [hdone]
  · have hguard : (unitsRun s && (arrGet a s).state.assembled && (arrGet a s).repaint.sub == .active &&
        (arrGet a s).bgKind == 4) = true := by
      rw [hruns, harr, hsub, hkind]
      rfl
    refine reaches_of_guard rfl hguard ?_
    have hcommit : frontCommit a s = nvCommit (.front a (arrGet a s).repaint.front) s := by
      have hnone : (s.skb.flushes.any fun f => passedFlush a s f && f.issued) = false := by
        refine List.any_eq_false.mpr fun f hf => ?_
        cases hp : passedFlush a s f
        · simp
        · simp [hissued f hf hp]
      simp only [frontCommit, hnone, hdue, Option.isSome_none, Bool.or_self, Bool.false_eq_true, if_false]
    rw [hcommit, nvCommit_writes hlost (level_of_unitsRun hruns)]
    exact ⟨rfl, rfl⟩
  · have hruns : unitsRun s = true := by
      simp only [endMay, Bool.and_eq_true] at hmay
      exact copyMay_runs hmay.1.1.1
    refine reaches_of_guard (c := endMay a false s && decide ((arrGet a s).repaint.k ≤ (arrGet a s).repaint.front)) rfl
      (by rw [hmay, decide_eq_true hend]; rfl) ?_
    rw [nvCommit_writes hlost (level_of_unitsRun hruns)]
    exact ⟨rfl, rfl⟩
  · have hruns : unitsRun s = true := by
      simp only [endMay, Bool.and_eq_true] at hmay
      exact copyMay_runs hmay.1.1.1
    refine reaches_of_guard (c := endMay a true s && decide ((arrGet a s).repaint.wmark ≤ (arrGet a s).repaint.front)) rfl
      (by rw [hmay, decide_eq_true hend]; rfl) ?_
    rw [nvCommit_writes hlost (level_of_unitsRun hruns)]
    exact ⟨rfl, rfl⟩
  all_goals
    have hrun : running s = true := by
      simp only [unitsRun, Bool.and_eq_true] at hruns
      exact running_of_unitsUp hruns.1
    refine reaches_of_guard rfl hrun ?_
    obtain ⟨hall, hsame, hcount⟩ := nvCommitDone_follows (by rw [hprog]; rfl) hcommits
  · obtain ⟨g, d, hget⟩ := hall a
    have hfront := arrGet_frontEnd a m (progNext { s with nv := { s.nv with commits := rest } })
    have hchange : nvChange (.front a m) (progNext { s with nv := { s.nv with commits := rest } }) =
        frontEnd a m (progNext { s with nv := { s.nv with commits := rest } }) := rfl
    rw [hget, hchange, hfront]
    refine ⟨fun hback => ?_, fun hback => ?_⟩
    · change (if (arrGet a s).repaint.back = true then _ else _ : Repaint).wmark = m
      rw [hback]
      rfl
    · change (if (arrGet a s).repaint.back = true then _ else _ : Repaint).rmark = m
      rw [hback]
      rfl
  · obtain ⟨hcut, hnote⟩ := cutoverEnd_ends a (progNext { s with nv := { s.nv with commits := rest } })
    have hchange : nvChange (.cutover a) (progNext { s with nv := { s.nv with commits := rest } }) =
        cutoverEnd a (progNext { s with nv := { s.nv with commits := rest } }) := rfl
    rw [hchange] at hsame hcount
    rw [hsame a (by rw [hcut]; exact hdue), hcount _ (by decide) (by decide) (by decide), hcut]
    exact ⟨rfl, rfl, rfl, rfl, rfl, rfl, rfl, hnote⟩
  · obtain ⟨⟨l, hback⟩, hnote⟩ := backEnd_ends (s := progNext { s with nv := { s.nv with commits := rest } }) hroles
    have hchange : nvChange (.back a) (progNext { s with nv := { s.nv with commits := rest } }) =
        backEnd a (progNext { s with nv := { s.nv with commits := rest } }) := rfl
    rw [hchange] at hsame hcount
    rw [hsame a (by rw [hback]; exact hdue), hcount _ (by decide) (by decide) (by decide), hback]
    exact ⟨rfl, rfl, rfl, rfl, hnote⟩

end Sys2Proof.Machine
end

section
/-! Assembly of an array, and its replay (R26, R358, R391). -/

namespace Sys2Proof.Machine
open Sys2Proof.Safety

/-- The volumes of an array that is set take the state that it gives them. -/
theorem volGet_setArr {a : Fin 4} {x : Arr} {s : State} {v : Fin 64} (harr : (volGet v s).array = a)
    (hthere : (volGet v s).state ≠ .gone) :
    (volGet v (setArr a x s)).state = if x.state.serves && !x.stopping then .online else .stopped := by
  unfold setArr volsFollow
  dsimp only
  rw [arrGet_arrPut_same]
  have hvol : volGet v (arrPut a x s) = volGet v s := by
    unfold arrPut
    dsimp only
    split <;> rfl
  generalize arrPut a x s = u at hvol
  obtain ⟨h, hnote⟩ := volsNote_writes (fun v => v.array == a && v.state != .gone &&
    v.state != (if x.state.serves && !x.stopping then .online else .stopped)) u
  rw [hnote]
  have hmine : ((volGet v u).array == a && (volGet v u).state != .gone) = true := by
    rw [hvol, harr]
    simpa using hthere
  have hmap (g : Vol → Vol) (t : Vector Vol 64) : (t.map g).get v = g (t.get v) := by simp [Vector.get_eq_getElem]
  exact (congrArg Vol.state (hmap _ _)).trans (congrArg Vol.state (if_pos hmine))

theorem settled_serves (x : Arr) : x.settled.serves = true := by
  unfold Arr.settled
  split
  · rfl
  · split <;> rfl

/-- The trims of deleted volumes take up their place among the lock requests again. -/
theorem volTrimsResume_writes (a : Fin 4) (s : State) : ∃ q, volTrimsResume a s = { s with queues := q } := by
  refine List.foldlRecOn (motive := fun t => ∃ q, t = { s with queues := q }) _ _ ⟨s.queues, rfl⟩ fun t ht v _ => ?_
  obtain ⟨q, rfl⟩ := ht
  dsimp only
  split
  · unfold startVolTrim
    dsimp only
    split <;> exact ⟨_, rfl⟩
  · exact ⟨_, rfl⟩

/-- The array that a replay without a loss leaves. -/
def replayEnded (x : Arr) : Arr :=
  { x with state := x.settled, salvage := x.salvage && x.settled != .optimal, lossDue := none }

theorem replayEnd_settles {a : Fin 4} {s : State} (hstate : (arrGet a s).state = .replaying)
    (hrecs : ∀ x ∈ liveRecs s, x.2.array ≠ a) (hflushes : ∀ f ∈ s.skb.flushes, f.array ≠ a)
    (hloss : (arrGet a s).lossDue = none) : replayEnd a s = volTrimsResume a (setArr a (replayEnded (arrGet a s)) s) := by
  have hnorec : ((liveRecs s).any fun x => x.2.array == a) = false := by
    refine List.any_eq_false.mpr fun x hx => ?_
    simpa using hrecs x hx
  have hnoflush : (s.skb.flushes.any (Flush.ofArray a)) = false := by
    refine List.any_eq_false.mpr fun f hf => ?_
    simpa [Flush.ofArray] using hflushes f hf
  have hend : ((arrGet a s).state == .replaying && !((liveRecs s).any fun x => x.2.array == a) &&
      !(s.skb.flushes.any (Flush.ofArray a))) = true := by
    rw [hstate, hnorec, hnoflush]
    rfl
  simp only [replayEnd, hend, if_true, hloss, Option.bind_none] <;> rfl

/-- The record that a replay brings next is one of the array's own. -/
theorem replayNext_mem {a : Fin 4} {s : State} {k : Nat} {r : Rec} (h : replayNext a s = some (k, r)) :
    (k, r) ∈ liveRecs s ∧ r.array = a := by
  have hfold (l : List (Nat × Rec)) (b : Option (Nat × Rec)) (x : Nat × Rec)
      (hl : (l.foldl (fun best c => match best with
        | none => some c
        | some b => if newer b.2.cseq c.2.cseq then some c else some b) b) = some x) : x ∈ l ∨ b = some x := by
    induction l generalizing b with
    | nil => exact .inr hl
    | cons c l ih =>
      rcases ih _ hl with hin | hb
      · exact .inl (List.mem_cons_of_mem _ hin)
      · cases b with
        | none =>
          cases hb
          exact .inl List.mem_cons_self
        | some y =>
          dsimp only at hb
          split at hb
          · cases hb
            exact .inl List.mem_cons_self
          · exact .inr hb
  rcases hfold _ _ _ h with hin | hnone
  · rw [List.mem_filter, Bool.and_eq_true] at hin
    exact ⟨hin.1, by simpa using hin.2.1⟩
  · exact nomatch hnone

theorem replayNext_none {a : Fin 4} {s : State} (h : ∀ x ∈ liveRecs s, x.2.array ≠ a) : replayNext a s = none := by
  have hnil : (liveRecs s).filter (fun x => x.2.array == a && recWaits x.2 s) = [] := by
    refine List.filter_eq_nil_iff.mpr fun x hx => ?_
    simp [h x hx]
  exact congrArg oldestRec hnil

/-- The stripe has work of a WRITE record in one of the regions. -/
def inStripe (r : Rec) (a : Fin 4) (stripe : Nat) (s : State) : Bool :=
  [false, true].any fun new => (r.stripesIn (arrGet a s) new).contains stripe

/-- What a replay does for a stripe while a WRITE record waits. -/
theorem exec_replayStripe {a : Fin 4} {stripe : Nat} {s : State} {k : Nat} {r : Rec} (hruns : unitsRun s = true)
    (hstate : (arrGet a s).state = .replaying) (hnext : replayNext a s = some (k, r)) (hkind : r.kind = .write) :
    exec (.replayStripe a stripe) s = .next (if inStripe r a stripe s then flushRec r s else s) := by
  have hgo : (unitsRun s && (arrGet a s).state == .replaying) = true := by rw [hruns, hstate]; rfl
  have hadvance : recAdvance k r s = flushRec r s := by simp only [recAdvance, hkind]
  change execReplayStripe a stripe s = _
  simp only [execReplayStripe, onlyIf, hgo, if_true, hnext, hkind, hadvance] <;> rfl

/-- Settles O49. -/
theorem arraysAssembleAndReplay : Obligations.ArraysAssembleAndReplay := by
  unfold Obligations.ArraysAssembleAndReplay
  intro s a
  refine ⟨fun hruns hmay hroles => ?_, fun hruns hlevel hstate hmay => ?_, fun stripe hruns hstate =>
    ⟨fun hrecs hflushes hloss => ?_, fun k r hnext hkind => ⟨fun hin => ?_, fun hold hnew => ?_⟩⟩, fun stripe hstate => ?_⟩
  · have hlost : ((List.range (rolesNow a s).length).filter fun i => ((rolesNow a s)[i]?.map (·.state)) == some .missing &&
        ((arrGet a s).roles[i]?.map (·.state)) != some .missing) = [] := by
      refine List.filter_eq_nil_iff.mpr fun i hi => ?_
      have hi' : i < (rolesNow a s).length := List.mem_range.mp hi
      have hpresent := hroles _ (List.getElem_mem hi')
      simp [List.getElem?_eq_getElem hi', hpresent]
    have hstopped : (arrGet a s).state = .stopped ∧ (arrGet a s).offlineMark = false := by
      simp only [assemblable, Bool.and_eq_true, beq_iff_eq, Bool.not_eq_true'] at hmay
      exact hmay.1.1
    have hassembly : assembly a s = if rolesNow a s != (arrGet a s).roles then
        nvCommit .keep (setArr a { arrGet a s with roles := rolesNow a s, state := .replaying } s)
        else setArr a { arrGet a s with roles := rolesNow a s, state := .replaying } s := by
      have hassembling : (AState.stopped == AState.assembling) = false := by decide
      simp only [assembly, hstopped.1, hstopped.2, hassembling, hmay, Bool.and_false, Bool.false_and, Bool.false_eq_true,
        if_false, if_true, assemble, hlost]
    have hset : arrGet a (setArr a { arrGet a s with roles := rolesNow a s, state := .replaying } s) =
        { arrGet a s with roles := rolesNow a s, state := .replaying } := arrGet_setArr ..
    have hkeeps (y : Arr) : (∀ b, b ≠ a → arrGet b (setArr a y s) = arrGet b s) ∧ (setArr a y s).members = s.members ∧
        (setArr a y s).skb.recs = s.skb.recs := by
      obtain ⟨h, v, hwrites⟩ := setArr_writes a y s
      rw [hwrites]
      exact ⟨fun b hb => arrGet_arrPut_ne (s := s) a b y hb.symm, by simp, by simp⟩
    have hcommit (u : State) : (nvCommit .keep u).arrs = u.arrs ∧ (nvCommit .keep u).members = u.members ∧
        (nvCommit .keep u).skb = u.skb := by simp
    refine reaches_of_guard rfl hruns ?_
    rw [hassembly]
    obtain ⟨hothers, hmembers, hrecs⟩ := hkeeps { arrGet a s with roles := rolesNow a s, state := .replaying }
    generalize setArr a { arrGet a s with roles := rolesNow a s, state := .replaying } s = u at *
    split
    · obtain ⟨harrs, hmem, hskb⟩ := hcommit u
      have harr (b : Fin 4) : arrGet b (nvCommit .keep u) = arrGet b u := congrArg (Vector.get · b) harrs
      exact ⟨(harr a).trans hset, fun b hb => (harr b).trans (hothers b hb), hmem.trans hmembers,
        (congrArg Skb.recs hskb).trans hrecs⟩
    · exact ⟨hset, hothers, hmembers, hrecs⟩
  · refine reaches_of_guard rfl hruns ?_
    have hassembling : (AState.stopped == AState.assembling) = false := by decide
    simp only [assembly, hstate, hassembling, hlevel, hmay, Bool.not_true, Bool.and_false, Bool.false_eq_true, if_false]
  · have hgo : (unitsRun s && (arrGet a s).state == .replaying) = true := by rw [hruns, hstate]; rfl
    have hexec : exec (.replayStripe a stripe) s = .next (replayEnd a (wordsAsk s)) := by
      change execReplayStripe a stripe s = _
      simp only [execReplayStripe, onlyIf, hgo, if_true, replayNext_none hrecs]
    obtain ⟨l, hasks⟩ := wordsAsk_onlyAsks s
    have hsame : arrGet a (wordsAsk s) = arrGet a s ∧ liveRecs (wordsAsk s) = liveRecs s ∧ (wordsAsk s).skb = s.skb ∧
        ∀ v, volGet v (wordsAsk s) = volGet v s := by
      rw [hasks]
      exact ⟨rfl, rfl, rfl, fun _ => rfl⟩
    obtain ⟨harr, hlive, hskb, hvols⟩ := hsame
    generalize wordsAsk s = u at hexec harr hlive hskb hvols
    refine ⟨_, hexec, ?_⟩
    rw [replayEnd_settles (by rw [harr, hstate]) (by rw [hlive]; exact hrecs) (by rw [hskb]; exact hflushes)
      (by rw [harr, hloss]), harr]
    have hset : arrGet a (setArr a (replayEnded (arrGet a s)) u) = replayEnded (arrGet a s) := arrGet_setArr ..
    have honline (v : Fin 64) (h1 : (volGet v s).array = a) (h2 : (volGet v s).state ≠ .gone)
        (h3 : (arrGet a s).stopping = false) : (volGet v (setArr a (replayEnded (arrGet a s)) u)).state = .online := by
      rw [volGet_setArr (by rw [hvols]; exact h1) (by rw [hvols]; exact h2)]
      refine if_pos ?_
      have hserves : (replayEnded (arrGet a s)).state.serves = true := settled_serves _
      have hgoes : (replayEnded (arrGet a s)).stopping = false := h3
      rw [hserves, hgoes]
      rfl
    have hrest : (setArr a (replayEnded (arrGet a s)) u).skb.recs = s.skb.recs := by
      obtain ⟨h, v, hwrites⟩ := setArr_writes a (replayEnded (arrGet a s)) u
      rw [hwrites, ← hskb]
      simp
    obtain ⟨q, hresume⟩ := volTrimsResume_writes a (setArr a (replayEnded (arrGet a s)) u)
    rw [hresume]
    have hstate' : (arrGet a (setArr a (replayEnded (arrGet a s)) u)).state = (arrGet a s).settled := by
      rw [hset]
      rfl
    have hroles : (arrGet a (setArr a (replayEnded (arrGet a s)) u)).roles = (arrGet a s).roles := by
      rw [hset]
      rfl
    exact ⟨hstate', honline, hroles, hrest⟩
  · refine ⟨_, exec_replayStripe hruns hstate hnext hkind, ?_⟩
    obtain ⟨-, rfl⟩ := replayNext_mem hnext
    have hgo : inStripe r r.array stripe s = true := by simp [inStripe, hin]
    rw [hgo, if_pos rfl]
    obtain ⟨l, n, hflush⟩ := flushRec_moreFlushes r s
    refine ⟨fun n hn => flushRec_flushing (by rw [hstate]; rfl) hn, ?_, ?_⟩
    · rw [hflush]
      exact hstate
    · rw [hflush]
  · refine ⟨_, exec_replayStripe hruns hstate hnext hkind, ?_⟩
    have hgo : inStripe r a stripe s = false := by simp [inStripe, hold, hnew]
    rw [hgo]
    rfl
  · have hgo : (unitsRun s && (arrGet a s).state == .replaying) = false := by
      rw [beq_eq_false_iff_ne.mpr hstate, Bool.and_false]
    exact reaches_same rfl hgo

end Sys2Proof.Machine
end

section
/-! Commits of entries that the NV configuration does not keep: they apply at once (R170, R255, R268, R269, R500). -/

namespace Sys2Proof.Machine
open Sys2Proof.Safety

/-! ## A commit that passes its checks -/

/-- The state in which a commit that has passed its checks is applied: its path shows the result. -/
def accepts (p : Path) (s : State) : State := resultOk p (armAge p s)

theorem accepts_writes (p : Path) (s : State) : ∃ c m, accepts p s = { s with pathC := c, pathM := m } := by
  unfold accepts resultOk tblResult
  rw [armAge_eq]
  cases p <;> exact ⟨_, _, rfl⟩

theorem cursorPut_writes (p : Path) (c : Cursor) (s : State) : ∃ a b, cursorPut p c s = { s with pathC := a, pathM := b } := by
  cases p <;> exact ⟨_, _, rfl⟩

/-- The path of a commit shows it, whatever the commit applies beside the paths. -/
theorem committed_of {p : Path} {c : Cursor} {s u : State} (hc : u.pathC = (accepts p s).pathC) (hm : u.pathM = (accepts p s).pathM) :
    committed p s (cursorPut p c u) := by
  have hpath : pathGet p u = pathGet p (accepts p s) := pathGet_congr hc hm
  simp [committed, cursorPut, hpath, accepts, resultOk, tblResult]

/-- The write of the last word of a volatile entry applies its staged words. -/
theorem viaPath_applies {p : Path} {space e n m : Nat} {w : Word} {s : State} (hready : readyToCommit p space e s)
    (hpass : commitPasses p w s) (hspace : spaceOf space = some (n, m, .vol)) :
    ∃ c, viaPathFull p 0x44 w s = cursorPut p c (volApply space e (stagedWith p w s) (accepts p s)) := by
  have hlast := hready.2.2.1
  have hsp : (stagedCursor p w s).space.toNat = space := by
    simp only [atLastWord, Bool.and_eq_true, beq_iff_eq] at hlast
    exact hlast.1.2
  have he : (stagedCursor p w s).entry.toNat = e := hready.2.2.2
  have hcheck : commitCheck (stagedCursor p w s) (stagedWith p w s) (armAge p s) = (trOk, 0) := by
    rw [commitCheck_armAge]
    exact hpass
  have happly (u : State) : commitApply p space e (stagedWith p w s) u = volApply space e (stagedWith p w s) u := by
    simp only [commitApply, hspace]
  rw [viaPath_commit hready, commitEntry_ok hcheck, hsp, he, happly]
  exact ⟨_, rfl⟩

theorem commitVia_last {p : Path} {space e : Nat} {w : Word} {s : State} (hready : readyToCommit p space e s) :
    commitVia p space w s = viaPathFull p 0x44 w s := if_pos hready.2.2.1

/-! ## Queues -/

/-- Only the queues, their transfers and their units change. -/
def QueueWork (s t : State) : Prop := ∃ d l q, t = { s with dma := d, ledger := l, queues := q }

theorem QueueWork.trans {s t u : State} (h : QueueWork s t) (k : QueueWork t u) : QueueWork s u := by
  obtain ⟨d, l, q, rfl⟩ := h
  obtain ⟨d', l', q', rfl⟩ := k
  exact ⟨d', l', q', rfl⟩

theorem sqPut_queueWork (q : Fin 32) (x : Sq) (s : State) : QueueWork s (sqPut q x s) := ⟨_, _, _, rfl⟩

theorem postHeld_queueWork (q : Fin 32) (s : State) : QueueWork s (postHeld q s) := by
  unfold postHeld
  split
  · exact ⟨_, _, _, rfl⟩
  · dsimp only
    split
    · exact sqPut_queueWork ..
    · exact (sqPut_queueWork ..).trans ⟨_, _, _, (cmdDone_writes _ _ _).2.2⟩

theorem sqDisable_queueWork (q : Fin 32) (s : State) : QueueWork s (sqDisable q s) := by
  unfold sqDisable
  dsimp only
  have hpost := (sqPut_queueWork q { sqGet q s with first := (sqGet q s).heldSlot } s).trans (postHeld_queueWork q _)
  generalize postHeld q _ = u at *
  refine hpost.trans ?_
  split
  · exact sqPut_queueWork ..
  · split
    · exact (sqPut_queueWork ..).trans ⟨_, _, _, rfl⟩
    · exact sqPut_queueWork ..

theorem queueApply_queueWork (e : Nat) (w : List Word) (s : State) : QueueWork s (volApply 0x05 e w s) := by
  change QueueWork s (if e < 32 then sqApply (Fin.ofNat 32 e) w s else cqApply (Fin.ofNat 32 e) w s)
  split
  · unfold sqApply
    dsimp only
    (repeat' split)
    · exact sqPut_queueWork ..
    · exact (sqPut_queueWork ..).trans (sqDisable_queueWork ..)
    · exact sqPut_queueWork ..
  · unfold cqApply
    dsimp only
    split <;> exact ⟨_, _, _, rfl⟩

/-- A submission queue that was DISABLED and is enabled runs with its pointers at 0. -/
theorem sqApply_starts {q : Fin 32} {w : List Word} {s : State} (hoff : (sqGet q s).en = false)
    (hstate : (sqGet q s).state = .disabled) (hon : bit (wordAt w 0) 31 = true) :
    sqApply q w s = sqPut q { (sqGet q s).put w with
      state := .running, head := 0, fetch := 0, tail := 0, outstanding := 0, heldSlot := none, discardTo := none
      doneAhead := [] } s := by
  have hen : ((sqGet q s).put w).en = true := hon
  have hgo : (!(sqGet q s).en && ((sqGet q s).put w).en && (sqGet q s).state == .disabled) = true := by
    rw [hoff, hen, hstate]
    rfl
  exact if_pos hgo

/-- A completion queue that is enabled runs with its pointers at 0 and phase 1. -/
theorem cqApply_starts {q : Fin 32} {w : List Word} {s : State} (hoff : (cqGet q s).en = false)
    (hon : bit (wordAt w 0) 31 = true) :
    cqApply q w s = cqPut q { (cqGet q s).put w with run := true, head := 0, tail := 0, reserved := 0, phase := true } s := by
  have hen : ((cqGet q s).put w).en = true := hon
  exact if_pos (by rw [hoff, hen]; rfl)

/-! ## Channels, buses and layers -/

/-- A DISABLED channel that is enabled is IDLE at START_IDX. -/
theorem chanApply_starts {c : Fin 16} {w : List Word} {s : State} (hstate : (chanGet c s).state = .disabled)
    (hon : bit (wordAt w 0) 31 = true) :
    chanApply c w s = chanPut c { (chanGet c s).put w with
      state := .idle, nextIdx := ((chanGet c s).put w).startIdx, phase := true } (chanPut c ((chanGet c s).put w) s) := by
  have hen : ((chanGet c s).put w).en = true := hon
  have hoff : ((chanGet c s).state == .disabled) = true := by rw [hstate]; rfl
  simp only [chanApply, hoff, hen, if_true]

/-- The words of a bus stand, and the other buses, the layers and the ports as before. -/
def BusSet (b : Fin 8) (s t : State) : Prop :=
  (busGet b t).cfg = (busGet b s).cfg ∧ (busGet b t).act = (busGet b s).act ∧ (∀ k, k ≠ b → busGet k t = busGet k s) ∧
    t.palette.layers = s.palette.layers ∧ t.palette.ports = s.palette.ports ∧ t.pathC = s.pathC ∧ t.pathM = s.pathM

theorem BusSet.refl (b : Fin 8) (s : State) : BusSet b s s := ⟨rfl, rfl, fun _ _ => rfl, rfl, rfl, rfl, rfl⟩

theorem BusSet.trans {b : Fin 8} {s t u : State} (h : BusSet b s t) (k : BusSet b t u) : BusSet b s u := by
  obtain ⟨h1, h2, h3, h4, h5, h6, h7⟩ := h
  obtain ⟨k1, k2, k3, k4, k5, k6, k7⟩ := k
  exact ⟨k1.trans h1, k2.trans h2, fun c hc => (k3 c hc).trans (h3 c hc), k4.trans h4, k5.trans h5, k6.trans h6, k7.trans h7⟩

theorem BusSet.of_onCanvas {b : Fin 8} {s t : State} (h : OnCanvas s t) : BusSet b s t := by
  obtain ⟨c, d, rfl⟩ := h
  exact .refl b s

theorem busPut_busSet {b : Fin 8} {x : Bus} {s : State} (hcfg : x.cfg = (busGet b s).cfg) (hact : x.act = (busGet b s).act) :
    BusSet b s (busPut b x s) := by
  refine ⟨?_, ?_, fun k hk => busGet_busPut_ne (h := hk.symm) .., rfl, rfl, rfl, rfl⟩
  · rw [busGet_busPut_same, hcfg]
  · rw [busGet_busPut_same, hact]

theorem delayFree_busSet (b : Fin 8) (s : State) : BusSet b s (delayFree b s) := by
  unfold delayFree
  dsimp only
  have hdrop : BusSet b s (dropWhere (· == .delay b) s) := .of_onCanvas (dropWhere_onCanvas ..)
  generalize dropWhere (· == .delay b) s = u at hdrop
  exact hdrop.trans (.trans (t := { u with referee := { u.referee with tilesAdm := u.referee.tilesAdm - (busGet b s).delayTiles } })
    ⟨rfl, rfl, fun _ _ => rfl, rfl, rfl, rfl, rfl⟩ (busPut_busSet rfl rfl))

theorem pageOut_onCanvas (t : Tile) (s : State) : OnCanvas s (pageOut t s) := by
  unfold pageOut
  split
  · exact .refl s
  · dsimp only
    (repeat' split)
    · exact .refl s
    · exact tier2Drop_onCanvas ..
    · exact .refl s
    · exact ⟨_, _, rfl⟩
    · exact (tier2Drop_onCanvas ..).trans ⟨_, _, rfl⟩
    · exact ⟨_, _, rfl⟩

theorem allocTile_onCanvas {who : Option (Fin 8)} {b : Bind} {pins n : Nat} {s u : State}
    (h : allocTile who b pins s = some (n, u)) : OnCanvas s u := by
  unfold allocTile at h
  dsimp only at h
  (repeat' split at h) <;> cases h
  · exact ⟨_, _, rfl⟩
  · exact (pageOut_onCanvas _ s).trans ⟨_, _, rfl⟩
  · exact (pageOut_onCanvas _ s).trans ⟨_, _, rfl⟩

theorem delayTiles_onCanvas (b : Fin 8) (n : Nat) (s : State) : OnCanvas s (delayTiles b n s) := by
  induction n generalizing s with
  | zero => exact .refl s
  | succ n ih =>
    unfold delayTiles
    split
    · exact .refl s
    · next h => exact (allocTile_onCanvas h).trans (ih _)

theorem delayTake_busSet (b : Fin 8) (n : Nat) (s : State) : BusSet b s (delayTake b n s) := by
  refine .trans (t := { s with referee := { s.referee with tilesAdm := s.referee.tilesAdm + n } })
    ⟨rfl, rfl, fun _ _ => rfl, rfl, rfl, rfl, rfl⟩ ?_
  have htake (u : State) : BusSet b u (delayTiles b n (busPut b { busGet b u with delayTiles := n } u)) :=
    (busPut_busSet (x := { busGet b u with delayTiles := n }) rfl rfl).trans (.of_onCanvas (delayTiles_onCanvas b n _))
  exact htake _

/-- A BUS commit takes its words; the delay's tiles alone follow. -/
theorem busApply_sets (b : Fin 8) (v : BWords) (s : State) : BusSet b (busPut b { busGet b s with cfg := v } s) (busApply b v s) := by
  unfold busApply
  dsimp only
  split
  · exact .refl b _
  · split
    · exact (delayFree_busSet ..).trans (delayTake_busSet ..)
    · split
      · exact .refl b _
      · exact delayFree_busSet ..

/-- What a BUS commit leaves of the Palette. -/
theorem busApply_takes (b : Fin 8) (v : BWords) (s : State) :
    (busGet b (busApply b v s)).cfg = v ∧ (busGet b (busApply b v s)).act = (busGet b s).act ∧
      (∀ k, k ≠ b → busGet k (busApply b v s) = busGet k s) ∧ (busApply b v s).palette.layers = s.palette.layers ∧
      (busApply b v s).palette.ports = s.palette.ports ∧ (busApply b v s).pathC = s.pathC ∧
      (busApply b v s).pathM = s.pathM := by
  obtain ⟨h1, h2, h3, h4, h5, h6, h7⟩ := busApply_sets b v s
  rw [busGet_busPut_same] at h1 h2
  exact ⟨h1, h2, fun k hk => (h3 k hk).trans (busGet_busPut_ne (h := hk.symm) ..), h4, h5, h6, h7⟩

theorem rests_eq (l : Layer) : l.rests = !l.state.busy := by
  unfold Layer.rests LState.busy
  cases l.state <;> rfl

/-- The layer that a start of an AU2 layer leaves: it asks for no data. -/
def au2Layer (i : Fin 32) (v : LWords) (s : State) : Layer :=
  { cfg := v, act := v, state := .priming, pan0 := lPan v, nextTile := (layGet i s).nextTile, first := (layGet i s).nextTile,
    r := layerRate v, listRead := true, extents := [(lLba v, lSectors v)], loopTo := if lLoop v then some 0 else none }

theorem layerApply_au2 {i : Fin 32} {v : LWords} {s : State} (hrests : (layGet i s).state.busy = false) (hrun : lRun v = true)
    (hkind : lKind v = 2) : layerApply i v s = layPut i (au2Layer i v s) s := by
  have hstarts : (layGet i s).starts v = true := by
    simp only [Layer.starts, rests_eq, hrests, hrun, Bool.not_false, Bool.and_self]
  have hstream : ((2 : Nat) == 0) = false := rfl
  simp only [layerApply, hstarts, if_true, layerStart, hkind, layerPrime, hstream, Bool.false_and, Bool.not_false, Bool.true_and,
    OfNat.ofNat_ne_zero, OfNat.ofNat_ne_one, if_false]
  rfl

theorem layerApply_refused {i : Fin 32} {v : LWords} {code : Nat} {s : State} (hrests : (layGet i s).state.busy = false)
    (hrun : lRun v = true) (hkind : lKind v = 0)
    (hterms : admitTerms (lVolume v) (layerRate v) (lPrefetch v) s = .inl code) :
    layerApply i v s = layerDenied i v code (layerRate v) s := by
  have hstarts : (layGet i s).starts v = true := by
    simp only [Layer.starts, rests_eq, hrests, hrun, Bool.not_false, Bool.and_self]
  simp only [layerApply, hstarts, if_true, layerStart, hkind, hterms]

theorem layerApply_changes {i : Fin 32} {v : LWords} {s : State} (hno : (layGet i s).starts v = false) :
    layerApply i v s = layPut i { layGet i s with cfg := v } s := by
  simp only [layerApply, hno, Bool.false_eq_true, if_false]

/-- The layer of a commit is the one under the cursor, with what its RUN bit asks for. -/
theorem stagedLayer_eq {p : Path} {space e : Nat} {i : Fin 32} {s : State} (hready : readyToCommit p space e s) (he : e = i.val) :
    stagedLayer p s = (i, bit (wordAt (pathGet p s).cur.staged 0) 31) := by
  have hentry : (pathGet p s).cur.entry.toNat = i.val := hready.2.2.2.trans he
  simp only [stagedLayer, hentry, Fin.ofNat_val_eq_self]

theorem ofNat_val {n : Nat} [NeZero n] {e : Nat} {i : Fin n} (he : e = i.val) : Fin.ofNat n e = i := by
  rw [he, Fin.ofNat_val_eq_self]

theorem admitTerms_accepts (v : Fin 64) (r t : Nat) (p : Path) (s : State) :
    admitTerms v r t (accepts p s) = admitTerms v r t s := by
  obtain ⟨c, m, hacc⟩ := accepts_writes p s
  rw [hacc]
  rfl

/-- A QUEUE commit changes the queues and what they hold alone, and starts a queue that it enables. -/
theorem queueCommit_applies {p : Path} {w : Word} {e : Nat} {s : State} (hpass : commitPasses p w s)
    (hready : readyToCommit p 0x05 e s) : reaches (.queueCommit p w) s fun t =>
      committed p s t ∧ t = { s with pathC := t.pathC, pathM := t.pathM, dma := t.dma, ledger := t.ledger, queues := t.queues } ∧
      (∀ q : Fin 32, e = q.val → (sqGet q s).en = false → (sqGet q s).state = .disabled →
        bit (wordAt (stagedWith p w s) 0) 31 = true →
        (sqGet q t).en = true ∧ (sqGet q t).state = .running ∧ (sqGet q t).head = 0 ∧ (sqGet q t).fetch = 0 ∧
        (sqGet q t).tail = 0 ∧ (sqGet q t).base = BitVec.ofNat 24 (bits (wordAt (stagedWith p w s) 1) 23 0) ∧
        (∀ k, k ≠ q → sqGet k t = sqGet k s)) ∧
      (∀ q : Fin 32, e = 32 + q.val → (cqGet q s).en = false → bit (wordAt (stagedWith p w s) 0) 31 = true →
        (cqGet q t).run = true ∧ (cqGet q t).head = 0 ∧ (cqGet q t).tail = 0 ∧ (cqGet q t).phase = true ∧
        (∀ k, k ≠ q → cqGet k t = cqGet k s)) := by
  obtain ⟨c₀, m₀, hacc⟩ := accepts_writes p s
  obtain ⟨c, happly⟩ := viaPath_applies hready hpass rfl
  refine ⟨_, congrArg Host.Outcome.next (commitVia_last hready), ?_⟩
  rw [happly]
  obtain ⟨a, b, hcursor⟩ := cursorPut_writes p c (volApply 0x05 e (stagedWith p w s) (accepts p s))
  obtain ⟨d, l, q', hwork⟩ := queueApply_queueWork e (stagedWith p w s) (accepts p s)
  have hsq (q : Fin 32) : sqGet q (accepts p s) = sqGet q s := by rw [hacc]; rfl
  have hcq (q : Fin 32) : cqGet q (accepts p s) = cqGet q s := by rw [hacc]; rfl
  refine ⟨committed_of (by rw [hwork]) (by rw [hwork]), ?_, fun q he hoff hstate hon => ?_, fun q he hoff hon => ?_⟩
  · rw [hcursor, hwork, hacc]
  · have hstarts : volApply 0x05 e (stagedWith p w s) (accepts p s) = _ :=
      (if_pos (he ▸ q.isLt)).trans ((congrArg (sqApply · _ _) (ofNat_val he)).trans
        (sqApply_starts (by rw [hsq, hoff]) (by rw [hsq, hstate]) hon))
    rw [hcursor, hstarts]
    have hself := sqGet_sqPut_same (s := accepts p s) q { (sqGet q (accepts p s)).put (stagedWith p w s) with
      state := .running, head := 0, fetch := 0, tail := 0, outstanding := 0, heldSlot := none, discardTo := none
      doneAhead := [] }
    refine ⟨?_, ?_, ?_, ?_, ?_, ?_, fun k hk => ?_⟩
    · exact (congrArg Sq.en hself).trans hon
    · exact congrArg Sq.state hself
    · exact congrArg Sq.head hself
    · exact congrArg Sq.fetch hself
    · exact congrArg Sq.tail hself
    · exact congrArg Sq.base hself
    · exact (sqGet_sqPut_ne (h := hk.symm) ..).trans (hsq k)
  · have hq : Fin.ofNat 32 e = q := by
      rw [he]
      exact Fin.ext (by simp [Fin.ofNat, Nat.mod_eq_of_lt q.isLt])
    have hstarts : volApply 0x05 e (stagedWith p w s) (accepts p s) = _ :=
      (if_neg (show ¬e < 32 by omega)).trans ((congrArg (cqApply · _ _) hq).trans
        (cqApply_starts (by rw [hcq, hoff]) hon))
    rw [hcursor, hstarts]
    have hself := cqGet_cqPut_same (s := accepts p s) q { (cqGet q (accepts p s)).put (stagedWith p w s) with
      run := true, head := 0, tail := 0, reserved := 0, phase := true }
    refine ⟨?_, ?_, ?_, ?_, fun k hk => ?_⟩
    · exact congrArg Cq.run hself
    · exact congrArg Cq.head hself
    · exact congrArg Cq.tail hself
    · exact congrArg Cq.phase hself
    · exact (cqGet_cqPut_ne (h := hk.symm) ..).trans (hcq k)

/-- A DMA_CHAN commit that enables a DISABLED channel. -/
theorem dmaChanCommit_starts {p : Path} {w : Word} {e : Nat} {s : State} (hpass : commitPasses p w s) {c : Fin 16}
    (hready : readyToCommit p 0x06 e s) (he : e = c.val) (hstate : (chanGet c s).state = .disabled)
    (hon : bit (wordAt (stagedWith p w s) 0) 31 = true) : reaches (.dmaChanCommit p w) s fun t =>
      committed p s t ∧ (chanGet c t).state = .idle ∧ (chanGet c t).en = true ∧
      (chanGet c t).nextIdx = (chanGet c t).startIdx ∧ (chanGet c t).phase = true ∧
      (∀ d, d ≠ c → chanGet d t = chanGet d s) ∧ t = { s with pathC := t.pathC, pathM := t.pathM, dma := t.dma } := by
  obtain ⟨c₀, m₀, hacc⟩ := accepts_writes p s
  obtain ⟨cur, happly⟩ := viaPath_applies hready hpass rfl
  refine ⟨_, congrArg Host.Outcome.next (commitVia_last hready), ?_⟩
  have hchan (k : Fin 16) : chanGet k (accepts p s) = chanGet k s := by rw [hacc]; rfl
  have hstarts : volApply 0x06 e (stagedWith p w s) (accepts p s) = _ :=
    (congrArg (chanApply · _ _) (ofNat_val he)).trans (chanApply_starts (by rw [hchan, hstate]) hon)
  rw [happly, hstarts]
  obtain ⟨a, b, hcursor⟩ := cursorPut_writes p cur (chanPut c { (chanGet c (accepts p s)).put (stagedWith p w s) with
    state := .idle, nextIdx := ((chanGet c (accepts p s)).put (stagedWith p w s)).startIdx, phase := true }
    (chanPut c ((chanGet c (accepts p s)).put (stagedWith p w s)) (accepts p s)))
  have hself := chanGet_chanPut_same (s := chanPut c ((chanGet c (accepts p s)).put (stagedWith p w s)) (accepts p s)) c
    { (chanGet c (accepts p s)).put (stagedWith p w s) with
      state := .idle, nextIdx := ((chanGet c (accepts p s)).put (stagedWith p w s)).startIdx, phase := true }
  refine ⟨committed_of rfl rfl, ?_⟩
  rw [hcursor]
  refine ⟨?_, ?_, ?_, ?_, fun d hd => ?_, ?_⟩
  · exact congrArg Chan.state hself
  · exact (congrArg Chan.en hself).trans hon
  · exact (congrArg Chan.nextIdx hself).trans (congrArg Chan.startIdx hself).symm
  · exact congrArg Chan.phase hself
  · exact (chanGet_chanPut_ne (h := hd.symm) ..).trans ((chanGet_chanPut_ne (h := hd.symm) ..).trans (hchan d))
  · rw [hacc]
    rfl

theorem layGet_accepts (i : Fin 32) (p : Path) (s : State) : layGet i (accepts p s) = layGet i s := by
  obtain ⟨c, m, hacc⟩ := accepts_writes p s
  rw [hacc]
  rfl

theorem lRun_staged (p : Path) (w : Word) (s : State) :
    lRun (stagedVec 8 (stagedWith p w s)) = bit (wordAt (stagedWith p w s) 0) 31 := by
  simp [lRun, stagedVec, Vector.get_eq_getElem]

/-- A LAYER commit that starts an AU2 layer. -/
theorem layerStart_primes {p : Path} {w : Word} {e : Nat} {s : State} (hpass : commitPasses p w s) {i : Fin 32}
    (hready : readyToCommit p 0x09 e s) (he : e = i.val)
    (hbit : bit (wordAt (stagedWith p w s) 0) 31 = bit (wordAt (pathGet p s).cur.staged 0) 31)
    (hrun : bit (wordAt (stagedWith p w s) 0) 31 = true) (hrests : (layGet i s).state.busy = false)
    (hkind : lKind (stagedVec 8 (stagedWith p w s)) = 2) : reaches (.layerStart p w) s fun t =>
      committed p s t ∧ (layGet i t).state = .priming ∧ (layGet i t).cfg = stagedVec 8 (stagedWith p w s) ∧
      (∀ k, k ≠ i → layGet k t = layGet k s) ∧ t = { s with pathC := t.pathC, pathM := t.pathM, palette := t.palette } := by
  obtain ⟨c₀, m₀, hacc⟩ := accepts_writes p s
  obtain ⟨cur, happly⟩ := viaPath_applies hready hpass rfl
  have hexec : exec (.layerStart p w) s = .next (viaPathFull p 0x44 w s) := by
    change execLayerStart p w s = _
    simp only [execLayerStart, stagedLayer_eq hready he, ← hbit, hrun, hrests, Bool.not_false, Bool.and_self, onlyIf, if_true,
      commitVia_last hready]
  have hstarts : volApply 0x09 e (stagedWith p w s) (accepts p s) = _ :=
    (congrArg (layerApply · _ _) (ofNat_val he)).trans (layerApply_au2 (by rw [layGet_accepts, hrests]) (by rw [lRun_staged, hrun]) hkind)
  refine ⟨_, hexec, ?_⟩
  rw [happly, hstarts]
  refine ⟨committed_of rfl rfl, ?_⟩
  obtain ⟨a, b, hcursor⟩ := cursorPut_writes p cur (layPut i (au2Layer i (stagedVec 8 (stagedWith p w s)) (accepts p s)) (accepts p s))
  rw [hcursor]
  have hself := layGet_layPut_same (s := accepts p s) i (au2Layer i (stagedVec 8 (stagedWith p w s)) (accepts p s))
  refine ⟨congrArg Layer.state hself, congrArg Layer.cfg hself, fun k hk => ?_, ?_⟩
  · exact (layGet_layPut_ne (h := hk.symm) ..).trans (layGet_accepts k p s)
  · rw [hacc]
    rfl

/-- A LAYER commit that would start a STREAM layer which admission refuses. -/
theorem layerStart_refused {p : Path} {w : Word} {e : Nat} {s : State} (hpass : commitPasses p w s) {i : Fin 32}
    (hready : readyToCommit p 0x09 e s) (he : e = i.val)
    (hbit : bit (wordAt (stagedWith p w s) 0) 31 = bit (wordAt (pathGet p s).cur.staged 0) 31)
    (hrun : bit (wordAt (stagedWith p w s) 0) 31 = true) (hrests : (layGet i s).state.busy = false) {code : Nat}
    (hkind : lKind (stagedVec 8 (stagedWith p w s)) = 0)
    (hterms : admitTerms (lVolume (stagedVec 8 (stagedWith p w s))) (layerRate (stagedVec 8 (stagedWith p w s)))
      (lPrefetch (stagedVec 8 (stagedWith p w s))) s = .inl code) : reaches (.layerStart p w) s fun t =>
      committed p s t ∧ (layGet i t).state = .idle ∧ (layGet i t).reason = BitVec.ofNat 8 code ∧ t.palette.evt = true ∧
      counterGet 0x48 t = ctrInc (counterGet 0x48 s) ∧ t.referee = s.referee ∧ t.canvas = s.canvas := by
  obtain ⟨c₀, m₀, hacc⟩ := accepts_writes p s
  obtain ⟨cur, happly⟩ := viaPath_applies hready hpass rfl
  have hexec : exec (.layerStart p w) s = .next (viaPathFull p 0x44 w s) := by
    change execLayerStart p w s = _
    simp only [execLayerStart, stagedLayer_eq hready he, ← hbit, hrun, hrests, Bool.not_false, Bool.and_self, onlyIf, if_true,
      commitVia_last hready]
  have hstarts : volApply 0x09 e (stagedWith p w s) (accepts p s) = _ :=
    (congrArg (layerApply · _ _) (ofNat_val he)).trans (layerApply_refused (by rw [layGet_accepts, hrests])
      (by rw [lRun_staged, hrun]) hkind (by rw [admitTerms_accepts, hterms]))
  refine ⟨_, hexec, ?_⟩
  rw [happly, hstarts]
  generalize stagedVec 8 (stagedWith p w s) = v
  have hpaths : (layerDenied i v code (layerRate v) (accepts p s)).pathC = (accepts p s).pathC ∧
      (layerDenied i v code (layerRate v) (accepts p s)).pathM = (accepts p s).pathM := by
    simp [layerDenied, layerEvent, layPut]
  refine ⟨committed_of hpaths.1 hpaths.2, ?_⟩
  obtain ⟨a, b, hcursor⟩ := cursorPut_writes p cur (layerDenied i v code (layerRate v) (accepts p s))
  rw [hcursor]
  have hself : layGet i (layerDenied i v code (layerRate v) (accepts p s)) =
      { cfg := v, act := v, nextTile := (layGet i (accepts p s)).nextTile, first := (layGet i (accepts p s)).nextTile
        reason := BitVec.ofNat 8 code } := by
    have hevent (u : State) : layGet i (layerEvent i u) = layGet i u := rfl
    have hlog (l : List Byte) (u : State) : layGet i (logRec .admitRefused l u) = layGet i u := by simp [layGet]
    rw [layerDenied, hevent, hlog, layGet_layPut_same]
  refine ⟨congrArg Layer.state hself, congrArg Layer.reason hself, rfl, ?_, ?_, ?_⟩
  · have hcount (u : State) : counterGet 0x48 (layerEvent i u) = counterGet 0x48 u := rfl
    have hput (l : Layer) : counterGet 0x48 (layPut i l (accepts p s)) = counterGet 0x48 s := by rw [hacc]; rfl
    change counterGet 0x48 (layerDenied i v code (layerRate v) (accepts p s)) = _
    rw [layerDenied, hcount, counterGet_logRec _ _ _ _ (by decide), if_pos (by decide), hput]
  · change (layerDenied i v code (layerRate v) (accepts p s)).referee = _
    simp [layerDenied, layerEvent, layPut, hacc]
  · change (layerDenied i v code (layerRate v) (accepts p s)).canvas = _
    simp [layerDenied, layerEvent, layPut, hacc]

/-- The words of a layer that is not started. -/
def wordsTaken (p : Path) (w : Word) (i : Fin 32) (s : State) : State :=
  layPut i { layGet i s with cfg := stagedVec 8 (stagedWith p w s) } (accepts p s)

theorem wordsTaken_leaves (p : Path) (w : Word) (i : Fin 32) (c : Cursor) (s : State) :
    committed p s (cursorPut p c (wordsTaken p w i s)) ∧
      layGet i (cursorPut p c (wordsTaken p w i s)) = { layGet i s with cfg := stagedVec 8 (stagedWith p w s) } ∧
      (∀ k, k ≠ i → layGet k (cursorPut p c (wordsTaken p w i s)) = layGet k s) ∧
      cursorPut p c (wordsTaken p w i s) = { s with
        pathC := (cursorPut p c (wordsTaken p w i s)).pathC, pathM := (cursorPut p c (wordsTaken p w i s)).pathM
        palette := (cursorPut p c (wordsTaken p w i s)).palette } := by
  obtain ⟨c₀, m₀, hacc⟩ := accepts_writes p s
  obtain ⟨a, b, hcursor⟩ := cursorPut_writes p c (wordsTaken p w i s)
  refine ⟨committed_of rfl rfl, ?_, fun k hk => ?_, ?_⟩
  · rw [hcursor]
    exact layGet_layPut_same ..
  · rw [hcursor]
    exact (layGet_layPut_ne (h := hk.symm) ..).trans (layGet_accepts k p s)
  · rw [hcursor, wordsTaken, hacc]
    rfl

/-- A LAYER commit that stops a layer changes its words alone. -/
theorem layerStop_takes {p : Path} {w : Word} {e : Nat} {s : State} (hpass : commitPasses p w s) {i : Fin 32}
    (hready : readyToCommit p 0x09 e s) (he : e = i.val)
    (hbit : bit (wordAt (stagedWith p w s) 0) 31 = bit (wordAt (pathGet p s).cur.staged 0) 31)
    (hrun : bit (wordAt (stagedWith p w s) 0) 31 = false) (hbusy : (layGet i s).state.busy = true) : reaches (.layerStop p w) s fun t =>
      committed p s t ∧ layGet i t = { layGet i s with cfg := stagedVec 8 (stagedWith p w s) } ∧
      (∀ k, k ≠ i → layGet k t = layGet k s) ∧ t = { s with pathC := t.pathC, pathM := t.pathM, palette := t.palette } := by
  obtain ⟨cur, happly⟩ := viaPath_applies hready hpass rfl
  have hexec : exec (.layerStop p w) s = .next (viaPathFull p 0x44 w s) := by
    change execLayerStop p w s = _
    simp only [execLayerStop, stagedLayer_eq hready he, ← hbit, hrun, hbusy, Bool.not_false, Bool.and_self, onlyIf, if_true,
      commitVia_last hready]
  refine ⟨_, hexec, ?_⟩
  have hno : (layGet i (accepts p s)).starts (stagedVec 8 (stagedWith p w s)) = false := by
    simp only [Layer.starts, lRun_staged, hrun, Bool.and_false]
  have htaken : volApply 0x09 e (stagedWith p w s) (accepts p s) = wordsTaken p w i s :=
    (congrArg (layerApply · _ _) (ofNat_val he)).trans ((layerApply_changes hno).trans (by rw [layGet_accepts]; rfl))
  rw [happly, htaken]
  exact wordsTaken_leaves ..

/-- A LAYER commit that neither starts nor stops a layer changes its words alone. -/
theorem layerCommit_takes {p : Path} {w : Word} {e : Nat} {s : State} (hpass : commitPasses p w s) {i : Fin 32}
    (hready : readyToCommit p 0x09 e s) (he : e = i.val)
    (hbit : bit (wordAt (stagedWith p w s) 0) 31 = bit (wordAt (pathGet p s).cur.staged 0) 31)
    (hrun : bit (wordAt (stagedWith p w s) 0) 31 = (layGet i s).state.busy) : reaches (.layerCommit p w) s fun t =>
      committed p s t ∧ layGet i t = { layGet i s with cfg := stagedVec 8 (stagedWith p w s) } ∧
      (∀ k, k ≠ i → layGet k t = layGet k s) ∧ t = { s with pathC := t.pathC, pathM := t.pathM, palette := t.palette } := by
  obtain ⟨cur, happly⟩ := viaPath_applies hready hpass rfl
  have hexec : exec (.layerCommit p w) s = .next (viaPathFull p 0x44 w s) := by
    change execLayerCommit p w s = _
    simp only [execLayerCommit, stagedLayer_eq hready he, ← hbit, hrun, beq_self_eq_true, onlyIf, if_true,
      commitVia_last hready]
  refine ⟨_, hexec, ?_⟩
  have hno : (layGet i (accepts p s)).starts (stagedVec 8 (stagedWith p w s)) = false := by
    rw [Layer.starts, rests_eq, layGet_accepts]
    cases hbusy : (layGet i s).state.busy
    · rw [lRun_staged, hrun.trans hbusy, Bool.and_false]
    · rfl
  have htaken : volApply 0x09 e (stagedWith p w s) (accepts p s) = wordsTaken p w i s :=
    (congrArg (layerApply · _ _) (ofNat_val he)).trans ((layerApply_changes hno).trans (by rw [layGet_accepts]; rfl))
  rw [happly, htaken]
  exact wordsTaken_leaves ..

/-- A BUS commit takes the bus's words. -/
theorem busCommit_takes {p : Path} {w : Word} {e : Nat} {s : State} (hpass : commitPasses p w s) {b : Fin 8}
    (hready : readyToCommit p 0x0A e s) (he : e = b.val) : reaches (.busCommit p w) s fun t =>
      committed p s t ∧ (busGet b t).cfg = stagedVec 28 (stagedWith p w s) ∧ (busGet b t).act = (busGet b s).act ∧
      (∀ k, k ≠ b → busGet k t = busGet k s) ∧ t.palette.layers = s.palette.layers ∧ t.palette.ports = s.palette.ports := by
  obtain ⟨c₀, m₀, hacc⟩ := accepts_writes p s
  obtain ⟨cur, happly⟩ := viaPath_applies hready hpass rfl
  refine ⟨_, congrArg Host.Outcome.next (commitVia_last hready), ?_⟩
  have hb : fin8 e = b := ofNat_val he
  have hset : volApply 0x0A e (stagedWith p w s) (accepts p s) = busApply b (stagedVec 28 (stagedWith p w s)) (accepts p s) :=
    congrArg (busApply · _ _) hb
  rw [happly, hset]
  have hpal : (accepts p s).palette = s.palette := by rw [hacc]
  have hbus (k : Fin 8) : busGet k (accepts p s) = busGet k s := by rw [hacc]; rfl
  obtain ⟨h1, h2, h3, h4, h5, h6, h7⟩ := busApply_takes b (stagedVec 28 (stagedWith p w s)) (accepts p s)
  generalize busApply b (stagedVec 28 (stagedWith p w s)) (accepts p s) = x at *
  refine ⟨committed_of h6 h7, ?_⟩
  obtain ⟨a, m, hcursor⟩ := cursorPut_writes p cur x
  rw [hcursor]
  exact ⟨h1, h2.trans (congrArg Bus.act (hbus b)), fun k hk => (h3 k hk).trans (hbus k),
    h4.trans (congrArg Palette.layers hpal), h5.trans (congrArg Palette.ports hpal)⟩

/-- An AUPORT commit takes the port's words. -/
theorem auportCommit_takes {p : Path} {w : Word} {e : Nat} {s : State} (hpass : commitPasses p w s) {k : Fin 3}
    (hready : readyToCommit p 0x0B e s) (he : e = k.val) : reaches (.auportCommit p w) s fun t =>
      committed p s t ∧ (auGet k t).w0 = wordAt (stagedWith p w s) 0 &&& 0xFFFF8000#32 ∧
      (auGet k t).act0 = (auGet k s).act0 ∧ (auGet k t).state = (auGet k s).state ∧ (∀ j, j ≠ k → auGet j t = auGet j s) ∧
      t = { s with pathC := t.pathC, pathM := t.pathM, palette := t.palette } := by
  obtain ⟨c₀, m₀, hacc⟩ := accepts_writes p s
  obtain ⟨cur, happly⟩ := viaPath_applies hready hpass rfl
  refine ⟨_, congrArg Host.Outcome.next (commitVia_last hready), ?_⟩
  have hset : volApply 0x0B e (stagedWith p w s) (accepts p s) =
      auApply k (wordAt (stagedWith p w s) 0) (wordAt (stagedWith p w s) 1) (accepts p s) :=
    congrArg (auApply · _ _ _) (ofNat_val he)
  have hau (j : Fin 3) : auGet j (accepts p s) = auGet j s := by rw [hacc]; rfl
  rw [happly, hset]
  refine ⟨committed_of rfl rfl, ?_⟩
  obtain ⟨a, m, hcursor⟩ := cursorPut_writes p cur
    (auApply k (wordAt (stagedWith p w s) 0) (wordAt (stagedWith p w s) 1) (accepts p s))
  rw [hcursor]
  have hself := auGet_auPut_same (s := accepts p s) k { auGet k (accepts p s) with
    w0 := wordAt (stagedWith p w s) 0 &&& 0xFFFF8000#32, w1 := wordAt (stagedWith p w s) 1 &&& 0xFFE0FFFF#32 }
  refine ⟨congrArg AuPort.w0 hself, ?_, ?_, fun j hj => ?_, ?_⟩
  · refine (congrArg AuPort.act0 hself).trans ?_
    rw [← hau k]
  · refine (congrArg AuPort.state hself).trans ?_
    rw [← hau k]
  · exact (auGet_auPut_ne (h := hj.symm) ..).trans (hau j)
  · rw [hacc]
    rfl

/-- Settles O50. -/
theorem volatileCommits : Obligations.VolatileCommits := by
  unfold Obligations.VolatileCommits
  intro s p w e hpass
  exact ⟨queueCommit_applies hpass, fun c hready he hstate hon => dmaChanCommit_starts hpass hready he hstate hon,
    fun i hready he hbit => ⟨fun hrun hrests => ⟨layerStart_primes hpass hready he hbit hrun hrests,
      fun code => layerStart_refused hpass hready he hbit hrun hrests⟩,
      layerStop_takes hpass hready he hbit, layerCommit_takes hpass hready he hbit⟩,
    fun b => busCommit_takes hpass, fun k => auportCommit_takes hpass⟩

end Sys2Proof.Machine
end

section
/-! What the Palette's neighbours leave of it: canvas memory, member operations, pools and the log do not touch it. -/

namespace Sys2Proof.Machine
open Sys2Proof.Safety

/-- The Palette stays. -/
@[reducible, simp] def PalKept (s t : State) : Prop :=
  t.palette = s.palette

theorem PalKept.refl (s : State) : PalKept s s := by simp
theorem PalKept.trans {s t u : State} (h : PalKept t u) (k : PalKept s t) : PalKept s u := by simp [h, k]

theorem foldl_palKeptOn {α β : Type} (part : β → State) (g : β → α → β)
    (h : ∀ b a, PalKept (part b) (part (g b a))) (l : List α) (b : β) : PalKept (part b) (part (l.foldl g b)) := by
  induction l generalizing b with
  | nil => exact .refl _
  | cons a t ih => exact (ih _).trans (h b a)
theorem foldl_palKept {α : Type} (g : State → α → State) (h : ∀ s a, PalKept s (g s a)) (l : List α) (s : State) :
    PalKept s (l.foldl g s) := foldl_palKeptOn id g h l s
@[simp] theorem onlyIf_palKept (c : Bool) (f : State → State) (s : State) (h : PalKept s (f s)) :
    PalKept s (onlyIf c f s) := by
  cases c <;> simp [onlyIf, h]

@[simp] theorem busRefresh_palKept (s : State) : PalKept s (busRefresh s) := by
  simp [busRefresh]
@[simp] theorem sirqSet_palKept (st : Fin 8) (b : Nat) (s : State) : PalKept s (sirqSet st b s) := by
  simp [sirqSet, aliasPut]
@[simp] theorem aliasPut_palKept (i : Fin 8) (a : Alias) (s : State) : PalKept s (aliasPut i a s) := by
  simp [aliasPut]
@[simp] theorem canvasPut_palKept (c : Canvas) (s : State) : PalKept s (canvasPut c s) := by simp
@[simp] theorem createOp_palKept (o : MOp) (s : State) : PalKept s (createOp o s) := by simp
@[simp] theorem ringRequest_palKept (k : BitVec 4) (kind : ReqKind) (s : State) :
    PalKept s (ringRequest k kind s) := by simp
@[simp] theorem poolGive_palKept (i : Fin 20) (who : Option (Fin 8)) (n : Nat) (s : State) :
    PalKept s (poolGive i who n s) := by simp
@[simp] theorem poolTake_palKept (i : Fin 20) (who : Option (Fin 8)) (n : Nat) (s : State) :
    PalKept s (poolTake i who n s) := by simp
@[simp] theorem poolMove_palKept (i : Fin 20) (from' : Option (Fin 8)) (to' : Option (Fin 8)) (n : Nat) (s : State) :
    PalKept s (poolMove i from' to' n s) := by simp
@[simp] theorem tilePut_palKept (n : Nat) (t : Tile) (s : State) : PalKept s (tilePut n t s) := by simp
@[simp] theorem logRec_palKept (c : Code) (args : List Byte) (s : State) : PalKept s (logRec c args s) := by simp
@[simp] theorem portPut_palKept (p : Fin 8) (x : Port) (s : State) : PalKept s (portPut p x s) := by simp
@[simp] theorem chanPut_palKept (c : Fin 16) (x : Chan) (s : State) : PalKept s (chanPut c x s) := by simp
@[simp] theorem irqSet_palKept (b : Nat) (s : State) : PalKept s (irqSet b s) := by simp
@[simp] theorem logAs_palKept (c : Code) (cls : LogClass) (studio : Option (Fin 8)) (args : List Byte) (s : State) :
    PalKept s (logAs c cls studio args s) := by simp
@[simp] theorem counterInc_palKept (e : Nat) (s : State) : PalKept s (counterInc e s) := by simp
@[simp] theorem poolAsk_palKept (r : PoolReq) (s : State) : PalKept s (poolAsk r s).2 := by
  simp only [poolAsk]
  split <;> simp
@[simp] theorem tileDrop_palKept (n : Nat) (s : State) : PalKept s (tileDrop n s) := by
  simp only [tileDrop]
  split <;> simp
@[simp] theorem tier2Drop_palKept (n : Nat) (s : State) : PalKept s (tier2Drop n s) := by
  simp only [tier2Drop]
  split <;> simp
@[simp] theorem tilesDrop_palKept (l : List Nat) (s : State) : PalKept s (tilesDrop l s) := by
  simp [tilesDrop, foldl_palKept]
@[simp] theorem dropWhere_palKept (f : Bind → Bool) (s : State) : PalKept s (dropWhere f s) := by
  simp [dropWhere, foldl_palKept]
@[simp] theorem workDrop_palKept (w : Work) (s : State) : PalKept s (workDrop w s) := by simp [workDrop]
@[simp] theorem pageOut_palKept (t : Tile) (s : State) : PalKept s (pageOut t s) := by
  simp only [pageOut]
  (repeat' split) <;> simp
theorem allocTile_palKept {who : Option (Fin 8)} {b : Bind} {pins : Nat} {s : State} {n : Nat} {u : State}
    (h : allocTile who b pins s = some (n, u)) : PalKept s u := by
  simp only [allocTile] at h
  (repeat' split at h) <;> cases h <;> simp
@[simp] theorem dropOps_palKept (f : MOp → Bool) (s : State) : PalKept s (dropOps f s) := by simp [dropOps]
@[simp] theorem markFailed_palKept (w : Work) (c : ChunkAt) (row : Nat) (s : State) :
    PalKept s (markFailed w c row s) := by
  simp [markFailed]
@[simp] theorem waitTile_palKept (w : Work) (who : Option (Fin 8)) (s : State) : PalKept s (waitTile w who s) := by
  simp [waitTile]
@[simp] theorem askRaw_palKept (p : Payer) (w : Work) (c : ChunkAt) (row : Nat) (s : State) :
    PalKept s (askRaw p w c row s) := by
  simp only [askRaw]
  split
  · exact PalKept.refl _
  · split
    · simp
    · split
      · simp
      · split
        · simp
        · exact (createOp_palKept ..).trans (allocTile_palKept ‹_›)
@[simp] theorem askSum_palKept (p : Payer) (w : Work) (c : ChunkAt) (k : BitVec 4) (cs : List ChunkAt) (row : Nat)
    (s : State) : PalKept s (askSum p w c k cs row s) := by
  simp only [askSum]
  split
  · exact PalKept.refl _
  · split
    · simp
    · exact (ringRequest_palKept ..).trans (allocTile_palKept ‹_›)
theorem retouch_palKept {p : Payer} {w : Work} {c : ChunkAt} {row : Nat} {s : State} {n : Need} {u : State}
    (h : retouch p w c row s = (n, u)) : PalKept s u := by
  simp only [retouch] at h
  (repeat' split at h) <;> cases h
  · exact PalKept.refl _
  all_goals
    refine foldl_palKept _ (fun v k => ?_) _ _
    split <;> simp [foldl_palKept]
@[simp] theorem noteMend_palKept (c : ChunkAt) (row : Nat) (s : State) : PalKept s (noteMend c row s) := by
  simp [noteMend]
@[simp] theorem mendOnce_palKept (w : Work) (c : ChunkAt) (row : Nat) (s : State) : PalKept s (mendOnce w c row s) := by
  simp [mendOnce]
theorem chunkTile_palKept {p : Payer} {w : Work} {c : ChunkAt} {row : Nat} {s : State} {n : Need} {m : Bool}
    {u : State} (h : chunkTile p w c row s = (n, m, u)) : PalKept s u := by
  simp only [chunkTile] at h
  split at h
  · split at h
    · cases h
      exact (mendOnce_palKept ..).trans (retouch_palKept ‹_›)
    · cases h
      exact retouch_palKept ‹_›
  · split at h
    · cases h
      exact PalKept.refl _
    · cases h
      simp
@[simp] theorem badPageNote_palKept (slot page : Nat) (s : State) : PalKept s (badPageNote slot page s) := by
  simp [badPageNote]
theorem coveredTile_palKept {v : Vector Cov 8} {p : Payer} {w : Work} {a : Fin 4} {tile : Nat} {want : BitVec 8}
    {s : State} {n : Need} {m : Bool} {u : State} (h : coveredTile v p w a tile want s = (n, m, u)) : PalKept s u := by
  simp only [coveredTile] at h
  split at h
  · cases h
    exact PalKept.refl _
  · split at h
    · cases h
      exact chunkTile_palKept ‹_›
    · exact chunkTile_palKept h
theorem currentTile_palKept {p : Payer} {w : Work} {a : Fin 4} {tile : Nat} {want : BitVec 8} {s : State} {n : Need}
    {m : Bool} {u : State} (h : currentTile p w a tile want s = (n, m, u)) : PalKept s u := by
  simp only [currentTile] at h
  split at h
  · cases h
    simp
  · exact coveredTile_palKept h
@[simp] theorem xferDrop_palKept (f : Xfer → Bool) (s : State) : PalKept s (xferDrop f s) := by
  simp [xferDrop, foldl_palKept]
@[simp] theorem admitSub_palKept (x : Fin 4 × Nat × Nat × Nat) (s : State) : PalKept s (admitSub x s) := by
  simp [admitSub]
theorem streamTile_palKept {i : Fin 32} {deadline n : Nat} {a : Fin 4} {tile : Nat} {want : BitVec 8} {s : State}
    {m : Need} {k : Bool} {u : State} (h : streamTile i deadline n a tile want s = (m, k, u)) : PalKept s u := by
  grind [streamTile, currentTile_palKept]

/-! ## Layers and the clock -/

/-- What PAL_CTRL and the frame clock show. -/
def clockOf (p : Palette) : Bool × Bool × Bool × Bool × Bool × BitVec 16 :=
  (p.en, p.mclkEn, p.enAct, p.mclkAct, p.booted, p.frame)

/-- The frame clock and the ports stay. -/
def Clocked (s t : State) : Prop := clockOf t.palette = clockOf s.palette ∧ t.palette.ports = s.palette.ports

theorem Clocked.refl (s : State) : Clocked s s := ⟨rfl, rfl⟩

theorem Clocked.trans {s t u : State} (h : Clocked s t) (k : Clocked t u) : Clocked s u := ⟨k.1.trans h.1, k.2.trans h.2⟩

theorem Clocked.foldl {α : Type} {g : State → α → State} (h : ∀ s a, Clocked s (g s a)) (l : List α) (s : State) :
    Clocked s (l.foldl g s) :=
  List.foldlRecOn (motive := fun t => Clocked s t) l g (.refl s) fun _ ht a _ => ht.trans (h _ a)

/-- Of the layers one alone changes, and neither the clock nor a port. -/
def LayerWork (i : Fin 32) (s t : State) : Prop := (∀ k, k ≠ i → layGet k t = layGet k s) ∧ Clocked s t

theorem LayerWork.refl (i : Fin 32) (s : State) : LayerWork i s s := ⟨fun _ _ => rfl, .refl s⟩

theorem LayerWork.trans {i : Fin 32} {s t u : State} (h : LayerWork i s t) (k : LayerWork i t u) : LayerWork i s u :=
  ⟨fun j hj => (k.1 j hj).trans (h.1 j hj), h.2.trans k.2⟩

theorem layGet_of_kept {i : Fin 32} {s t : State} (h : PalKept s t) : layGet i t = layGet i s := by
  have hp : t.palette = s.palette := h
  rw [layGet, hp]
  rfl

theorem LayerWork.of_kept {i : Fin 32} {s t : State} (h : PalKept s t) : LayerWork i s t := by
  have hp : t.palette = s.palette := h
  exact ⟨fun _ _ => layGet_of_kept h, by rw [hp], by rw [hp]⟩

theorem layPut_layerWork (i : Fin 32) (l : Layer) (s : State) : LayerWork i s (layPut i l s) :=
  ⟨fun _ hk => layGet_layPut_ne (h := hk.symm) .., rfl, rfl⟩

/-- What a layer's tiles and refills leave of it: its state, its place in the ring and every whole tile. -/
def Grows (l m : Layer) : Prop :=
  m.state = l.state ∧ m.rd = l.rd ∧ ∀ y ∈ l.tiles, y.held = 4096 → ∃ z ∈ m.tiles, z.n = y.n ∧ z.held = 4096

theorem Grows.refl (l : Layer) : Grows l l := ⟨rfl, rfl, fun y hy h => ⟨y, hy, rfl, h⟩⟩

theorem Grows.trans {l m n : Layer} (h : Grows l m) (k : Grows m n) : Grows l n := by
  obtain ⟨h1, h2, h3⟩ := h
  obtain ⟨k1, k2, k3⟩ := k
  refine ⟨k1.trans h1, k2.trans h2, fun y hy hheld => ?_⟩
  obtain ⟨z, hz, hn, hz'⟩ := h3 y hy hheld
  obtain ⟨x, hx, hn', hx'⟩ := k3 z hz hz'
  exact ⟨x, hx, hn'.trans hn, hx'⟩

/-- A layer is filled, and nothing else of the Palette changes. -/
def Fills (i : Fin 32) (s t : State) : Prop := Grows (layGet i s) (layGet i t) ∧ LayerWork i s t

theorem Fills.refl (i : Fin 32) (s : State) : Fills i s s := ⟨.refl _, .refl i s⟩

theorem Fills.trans {i : Fin 32} {s t u : State} (h : Fills i s t) (k : Fills i t u) : Fills i s u :=
  ⟨h.1.trans k.1, h.2.trans k.2⟩

theorem Fills.of_kept {i : Fin 32} {s t : State} (h : PalKept s t) : Fills i s t :=
  ⟨by rw [layGet_of_kept h]; exact .refl _, .of_kept h⟩

theorem layPut_fills {i : Fin 32} {l : Layer} {s : State} (h : Grows (layGet i s) l) : Fills i s (layPut i l s) :=
  ⟨by rw [layGet_layPut_same]; exact h, layPut_layerWork i l s⟩

/-- The layer once the tile of a number is whole. -/
def tileWhole (n : Nat) (l : Layer) : Layer := { l with tiles := l.tiles.map fun u => if u.n == n then { u with held := 4096 } else u }

theorem tileWhole_grows (n : Nat) (l : Layer) : Grows l (tileWhole n l) := by
  refine ⟨rfl, rfl, fun y hy hheld => ⟨_, List.mem_map_of_mem hy, ?_, ?_⟩⟩
  · split <;> rfl
  · split
    · rfl
    · exact hheld

theorem tileAsk_fills (i : Fin 32) (n : Nat) (s : State) : Fills i s (tileAsk i n s) := by
  unfold tileAsk
  dsimp only
  split
  · exact .refl i s
  · split
    · exact .refl i s
    · split
      · next h =>
        have hkept := streamTile_palKept h
        refine Fills.trans ?_ (.of_kept (workDrop_palKept ..))
        split
        · exact (Fills.of_kept hkept).trans (.trans (.of_kept (tilePut_palKept ..)) (layPut_fills (tileWhole_grows n _)))
        · exact (Fills.of_kept hkept).trans (layPut_fills (tileWhole_grows n _))
      · next h => exact .of_kept (streamTile_palKept h)

theorem tileTake_fills {i : Fin 32} {deadline : Nat} {s u : State} (h : tileTake i deadline s = some u) : Fills i s u := by
  unfold tileTake at h
  dsimp only at h
  split at h
  · exact nomatch h
  · next htile =>
    cases h
    have hkept := allocTile_palKept htile
    refine (Fills.of_kept hkept).trans (layPut_fills ?_)
    rw [layGet_of_kept hkept]
    exact ⟨rfl, rfl, fun y hy hheld => ⟨y, List.mem_append_left _ hy, rfl, hheld⟩⟩

theorem tilesIssue_fills (i : Fin 32) (urgent : Bool) (fuel : Nat) (s : State) : Fills i s (tilesIssue i urgent fuel s) := by
  induction fuel generalizing s with
  | zero => exact .refl i s
  | succ fuel ih =>
    unfold tilesIssue
    dsimp only
    split
    · exact .refl i s
    · split
      · exact .refl i s
      · split
        · exact .of_kept (waitTile_palKept ..)
        · next h => exact (tileTake_fills h).trans ((tileAsk_fills i _ _).trans (ih _))

theorem refillStart_fills (i : Fin 32) (len : Nat) (s : State) : Fills i s (refillStart i len s) := by
  have hask : PalKept s (poolAsk ⟨pDesc, none, 1, .dmaDesc s.dma.nextId⟩ { s with dma := { s.dma with nextId := s.dma.nextId + 1 } }).2 :=
    poolAsk_palKept ..
  unfold refillStart
  dsimp only
  generalize (poolAsk ⟨pDesc, none, 1, .dmaDesc s.dma.nextId⟩ { s with dma := { s.dma with nextId := s.dma.nextId + 1 } }) = r at *
  refine (Fills.of_kept hask).trans (.trans (layPut_fills (l := { layGet i s with refill := some len }) ?_) ?_)
  · rw [layGet_of_kept hask]
    exact ⟨rfl, rfl, fun y hy hheld => ⟨y, hy, rfl, hheld⟩⟩
  · exact (Fills.of_kept (chanPut_palKept ..)).trans (.of_kept (busRefresh_palKept ..))

theorem hostRefill_fills (i : Fin 32) (s : State) : Fills i s (hostRefill i s) := by
  have hstart (n : Nat) {t u : State} (full : Bool)
      (htake : (if full then tileTake i t.clk.tick.toNat t else some t) = some u) : Fills i t (refillStart i n u) := by
    cases full
    · cases htake
      exact refillStart_fills ..
    · exact (tileTake_fills htake).trans (refillStart_fills ..)
  simp only [hostRefill]
  split
  · exact .refl i s
  · have hread : Fills i s (layPut i { layGet i s with wr := mboxIndex (lSel (layGet i s).act) s } s) :=
      layPut_fills ⟨rfl, rfl, fun y hy hheld => ⟨y, hy, rfl, hheld⟩⟩
    split
    · refine hread.trans (layPut_fills ?_)
      rw [layGet_layPut_same]
      exact ⟨rfl, rfl, fun y hy hheld => ⟨y, hy, rfl, hheld⟩⟩
    · split
      · exact hread
      · split
        · exact hread.trans (.of_kept (waitTile_palKept ..))
        · exact hread.trans (hstart _ _ ‹_›)

theorem tilesFree_layerWork (i : Fin 32) (f : LTile → Bool) (s : State) : LayerWork i s (tilesFree i f s) := by
  unfold tilesFree
  dsimp only
  refine (layPut_layerWork i _ s).trans (.of_kept (foldl_palKept _ (fun u t => ?_) _ _))
  exact (workDrop_palKept ..).trans ((dropOps_palKept ..).trans (tileDrop_palKept ..))

/-- A layer's admission terms are given up. -/
def termsBack (i : Fin 32) (s : State) : State :=
  let u := match (layGet i s).terms with
    | some t => admitSub t s
    | none => s
  busRefresh (layPut i { layGet i s with terms := none, refill := none, r := 0 } u)

theorem termsBack_layerWork (i : Fin 32) (s : State) : LayerWork i s (termsBack i s) := by
  unfold termsBack
  dsimp only
  refine .trans (.trans ?_ (layPut_layerWork i _ _)) (.of_kept (busRefresh_palKept ..))
  split
  · exact .of_kept (admitSub_palKept ..)
  · exact .refl i s

theorem layerFree_layerWork (i : Fin 32) (s : State) : LayerWork i s (layerFree i s) := by
  have hdrop (w : Work) (u : State) : PalKept u (xferDrop (fun x => x.kind == .refill i.val)
      (workDrop w (dropOps (fun o => o.use.work == some w) u))) :=
    (xferDrop_palKept ..).trans ((workDrop_palKept ..).trans (dropOps_palKept ..))
  have hfree := tilesFree_layerWork i (fun _ => true) s
  unfold layerFree
  dsimp only
  generalize tilesFree i (fun _ => true) s = u at hfree ⊢
  have hkept := hdrop (streamWork i (layGet i u).nextTile) u
  generalize xferDrop _ _ = v at hkept ⊢
  generalize List.filter _ v.ledger.waiting = l
  have hledger : LayerWork i v { v with ledger := { v.ledger with waiting := l } } := .of_kept rfl
  exact hfree.trans ((LayerWork.of_kept hkept).trans (hledger.trans (termsBack_layerWork i _)))

/-- A layer that stops: the others, the clock and the ports stay. -/
theorem layerStopped_stops (i : Fin 32) (c : LCause) (s : State) :
    LayerWork i s (layerStopped i c s) ∧ (layGet i (layerStopped i c s)).state = .stopped ∧
      (layGet i (layerStopped i c s)).cause = c := by
  unfold layerStopped
  dsimp only
  have hfree := layerFree_layerWork i s
  generalize layerFree i s = u at hfree
  have hput := layPut_layerWork i { layGet i u with state := .stopped, cause := c, stopping := false, stopAt := .none } u
  have hself := layGet_layPut_same (s := u) i { layGet i u with state := .stopped, cause := c, stopping := false, stopAt := .none }
  generalize layPut i _ u = v at hput hself
  have hlog : PalKept v (logAs .layerStopped (if c.warns then .warn else .note) none [BitVec.ofNat 8 i.val, BitVec.ofNat 8 c.num] v) :=
    logAs_palKept ..
  have hevent (x : State) : LayerWork i x (layerEvent i x) := ⟨fun _ _ => rfl, rfl, rfl⟩
  have hstill (x : State) : layGet i (layerEvent i x) = layGet i x := rfl
  refine ⟨hfree.trans (hput.trans ((LayerWork.of_kept hlog).trans (hevent _))), ?_, ?_⟩
  · rw [hstill, layGet_of_kept hlog, hself]
  · rw [hstill, layGet_of_kept hlog, hself]

end Sys2Proof.Machine
end

section
/-! The Palette's frames: PAL_CTRL, the boundary, tiles that arrive and refills (R498 to R511, R534). -/

namespace Sys2Proof.Machine
open Sys2Proof.Safety

/-! ## PAL_CTRL -/

theorem portsWake_zero (s : State) : portsWake 0 s = s := by
  refine List.foldlRecOn (motive := fun t => t = s) _ _ rfl fun t ht p _ => ?_
  subst ht
  simp

/-- PALETTE_ENABLE and PALETTE_DISABLE write their two bits. -/
theorem palCtrlWrite_bits (en mclk : Bool) (s : State) :
    palCtrlWrite 8 (flg 31 en ||| flg 30 mclk) s = { s with palette := { s.palette with en := en, mclkEn := mclk } } := by
  have hlane : lane 8 3 = true := by decide
  have hen : bit (flg 31 en ||| flg 30 mclk) 31 = en := by cases en <;> cases mclk <;> decide
  have hmclk : bit (flg 31 en ||| flg 30 mclk) 30 = mclk := by cases en <;> cases mclk <;> decide
  have hwake : bits (flg 31 en ||| flg 30 mclk) 26 24 = 0 := by cases en <;> cases mclk <;> decide
  simp only [palCtrlWrite, hlane, hen, hmclk, hwake, Bool.not_true, Bool.false_eq_true, if_false, portsWake_zero]

/-- PORT_WAKE of one port. -/
theorem portsWake_one (p : Fin 3) (s : State) : portsWake (2 ^ p.val) s =
    if (auGet p s).state == .sleep then auPut p { auGet p s with wake := true } s else s := by
  have hall : List.finRange 3 = [0, 1, 2] := by decide
  simp only [portsWake, hall, List.foldl_cons, List.foldl_nil]
  fin_cases p <;> simp

/-! ## The frame boundary -/

/-- A layer's work, done for each layer, leaves the clock and the ports. -/
theorem eachLayer_clocked {f : Fin 32 → State → State} (h : ∀ i s, LayerWork i s (f i s)) (s : State) :
    Clocked s (eachLayer f s) := Clocked.foldl (fun t i => (h i t).2) _ s

theorem layerTakes_layerWork (i : Fin 32) (s : State) : LayerWork i s (layerTakes i s) := by
  unfold layerTakes
  dsimp only
  (repeat' split)
  · exact layPut_layerWork ..
  · exact (layPut_layerWork ..).trans (layerStopped_stops ..).1
  all_goals exact layPut_layerWork ..

theorem logRec_layerWork (i : Fin 32) (c : Code) (l : List Byte) (s : State) : LayerWork i s (layerEvent i (logRec c l s)) :=
  (LayerWork.of_kept (logRec_palKept ..)).trans ⟨fun _ _ => rfl, rfl, rfl⟩

theorem layerMoves_layerWork (u : State) (i : Fin 32) (s : State) : LayerWork i s (layerMoves u i s) := by
  unfold layerMoves
  dsimp only
  split
  · exact .refl i s
  · exact .refl i s
  · split
    · exact layPut_layerWork ..
    · exact .refl i s
  · split
    · exact .refl i s
    · exact (layPut_layerWork ..).trans (logRec_layerWork ..)
  · split
    · exact layPut_layerWork ..
    · exact .refl i s

theorem layerAfter_layerWork (i : Fin 32) (s : State) : LayerWork i s (layerAfter i s) := by
  have hissue (urgent : Bool) (u : State) : LayerWork i u (tilesIssue i urgent 32 u) := (tilesIssue_fills ..).2
  have hadv (l : Layer) (u : State) : LayerWork i u (tilesIssue i false 32 (tilesPass i (layPut i l u))) :=
    (layPut_layerWork i l u).trans ((tilesFree_layerWork ..).trans (hissue ..))
  have hend (g : Nat) (u : State) : LayerWork i u (if (layGet i u).stopping && g = 0 then layerStopped i .stop u else hostRefill i u) := by
    split
    · exact (layerStopped_stops ..).1
    · exact (hostRefill_fills ..).2
  unfold layerAfter
  dsimp only
  refine LayerWork.trans ?_ (hend ..)
  split
  · exact .refl i s
  · exact .refl i s
  · exact hissue ..
  · exact (hadv ..).trans (layPut_layerWork ..)
  · split
    · exact (hadv ..).trans (layPut_layerWork ..)
    · exact (layPut_layerWork ..).trans (hissue ..)

theorem busPut_clocked (b : Fin 8) (x : Bus) (s : State) : Clocked s (busPut b x s) := ⟨rfl, rfl⟩

theorem Clocked.of_kept {s t : State} (h : PalKept s t) : Clocked s t := (LayerWork.of_kept (i := 0) h).2

theorem delayFree_clocked (b : Fin 8) (s : State) : Clocked s (delayFree b s) := by
  unfold delayFree
  dsimp only
  have hdrop : Clocked s (dropWhere (· == .delay b) s) := .of_kept (dropWhere_palKept ..)
  generalize dropWhere (· == .delay b) s = u at hdrop ⊢
  exact hdrop.trans ⟨rfl, rfl⟩

theorem busTakes_clocked (b : Fin 8) (s : State) : Clocked s (busTakes b s) := by
  have htake (x : Bus) (c : Bool) : Clocked s (if c then delayFree b (busPut b x s) else busPut b x s) := by
    split
    · exact (busPut_clocked b x s).trans (delayFree_clocked ..)
    · exact busPut_clocked b x s
  unfold busTakes
  dsimp only
  split <;> exact htake ..

/-- A port alone changes, and not the clock. -/
def PortWork (p : Fin 3) (s t : State) : Prop := clockOf t.palette = clockOf s.palette ∧ ∀ q, q ≠ p → auGet q t = auGet q s

theorem PortWork.refl (p : Fin 3) (s : State) : PortWork p s s := ⟨rfl, fun _ _ => rfl⟩

theorem PortWork.trans {p : Fin 3} {s t u : State} (h : PortWork p s t) (k : PortWork p t u) : PortWork p s u :=
  ⟨k.1.trans h.1, fun q hq => (k.2 q hq).trans (h.2 q hq)⟩

theorem auPut_portWork (p : Fin 3) (x : AuPort) (s : State) : PortWork p s (auPut p x s) :=
  ⟨rfl, fun _ hq => auGet_auPut_ne (h := hq.symm) ..⟩

theorem portEvent_portWork (c : Code) (p : Fin 3) (s : State) : PortWork p s (portEvent c p s) := by
  have hkept : PalKept { s with palette := { s.palette with evt := true } } (portEvent c p s) := logRec_palKept ..
  have hp : (portEvent c p s).palette = { s.palette with evt := true } := hkept
  exact ⟨by rw [hp]; rfl, fun q _ => by rw [auGet, hp]; rfl⟩

theorem sends_portWork (p : Fin 3) (x : AuPort) (s : State) :
    PortWork p s (if p = 2 then auPut p x s else countClips p (auPut p x s)) := by
  split
  · exact auPut_portWork ..
  · exact (auPut_portWork ..).trans ⟨rfl, fun _ _ => rfl⟩

theorem portBoundary_portWork (p : Fin 3) (s : State) : PortWork p s (portBoundary p s) := by
  unfold portBoundary
  dsimp only
  split
  · exact auPut_portWork ..
  · split
    · exact auPut_portWork ..
    · split
      · split
        · exact (sends_portWork ..).trans (portEvent_portWork ..)
        · exact sends_portWork ..
      · exact auPut_portWork ..
    · split
      · exact (auPut_portWork ..).trans (portEvent_portWork ..)
      · exact sends_portWork ..
    · split <;> exact auPut_portWork ..

/-- A port that is not enabled is OFF after a boundary. -/
theorem portBoundary_off {p : Fin 3} {s : State} (h : aEn (auGet p s).w0 = false) :
    portBoundary p s = auPut p { auGet p s with act0 := (auGet p s).w0, act1 := (auGet p s).w1 }.goesOff s := by
  simp only [portBoundary, h, Bool.not_false, if_true]

/-- An enabled port that was OFF resumes at a boundary. -/
theorem portBoundary_resumes {p : Fin 3} {s : State} (h : aEn (auGet p s).w0 = true) (hoff : (auGet p s).state = .off) :
    portBoundary p s = auPut p { auGet p s with act0 := (auGet p s).w0, act1 := (auGet p s).w1 }.resume s := by
  simp only [portBoundary, h, hoff, Bool.not_true, Bool.false_eq_true, if_false]

theorem portListens_portWork (p : Fin 3) (s : State) : PortWork p s (portListens p s) := by
  unfold portListens
  dsimp only
  split
  · exact .refl p s
  · split
    · exact .refl p s
    · exact .refl p s
    · exact auPut_portWork ..
    · split
      · exact .refl p s
      · exact auPut_portWork ..

/-- A port that is OFF or RESUMING does not listen. -/
theorem portListens_idle {p : Fin 3} {s : State} (h : (auGet p s).state = .off ∨ (auGet p s).state = .resuming) :
    portListens p s = s := by
  unfold portListens
  dsimp only
  split
  · rfl
  · rcases h with h | h <;> simp only [h]

/-- The state at a boundary of the running frame clock once its commands take effect. -/
def clockRuns (s : State) : State :=
  { s with palette := { s.palette with
    enAct := true, mclkAct := s.palette.mclkEn, booted := true
    frame := if s.palette.booted then s.palette.frame + 1 else 0 } }

/-- The three ports at a boundary. -/
def portsStep (s : State) : State := portBoundary 2 (portBoundary 1 (portBoundary 0 s))

/-- Behind the ports' steps the layers and buses move, with the clock and the ports as they are. -/
theorem frame_ends (s : State) : ∃ u, Clocked (portsStep (clockRuns s)) u ∧
    frame s = eachLayer layerAfter (portListens 1 (portListens 0 u)) := by
  have hends (i : Fin 32) (u : State) : LayerWork i u (match layerEnds i u with
      | some c => layerStopped i c u
      | none => u) := by
    split
    · exact (layerStopped_stops ..).1
    · exact .refl i u
  unfold frame
  extract_lets n _ runs ports takes buses ends moves parts _ sums
  refine ⟨sums, ?_, rfl⟩
  have htakes : Clocked ports takes := eachLayer_clocked layerTakes_layerWork ports
  have hbuses : Clocked takes buses := Clocked.foldl (fun u b => busTakes_clocked b u) (List.finRange 8) takes
  have hends : Clocked buses ends := eachLayer_clocked hends buses
  have hmoves : Clocked ends moves := eachLayer_clocked (layerMoves_layerWork ends) ends
  have hall : Clocked (portsStep (clockRuns s)) moves := htakes.trans (hbuses.trans (hends.trans hmoves))
  clear_value moves parts
  exact hall.trans (show Clocked moves sums from ⟨rfl, rfl⟩)

theorem portsStep_clock (s : State) : clockOf (portsStep s).palette = clockOf s.palette :=
  (portBoundary_portWork 2 _).1.trans ((portBoundary_portWork 1 _).1.trans (portBoundary_portWork 0 s).1)

/-- Each port takes its own step. -/
theorem auGet_portsStep (p : Fin 3) (s : State) : ∃ u, auGet p u = auGet p s ∧
    auGet p (portsStep s) = auGet p (portBoundary p u) := by
  unfold portsStep
  have h0 := (portBoundary_portWork 0 s).2
  have h1 := (portBoundary_portWork 1 (portBoundary 0 s)).2
  have h2 := (portBoundary_portWork 2 (portBoundary 1 (portBoundary 0 s))).2
  match p with
  | 0 => exact ⟨s, rfl, (h2 0 (by decide)).trans (h1 0 (by decide))⟩
  | 1 => exact ⟨portBoundary 0 s, h0 1 (by decide), h2 1 (by decide)⟩
  | 2 => exact ⟨portBoundary 1 (portBoundary 0 s), (h1 2 (by decide)).trans (h0 2 (by decide)), rfl⟩

/-- A port that is OFF or RESUMING after its step is so at the end of the boundary. -/
theorem auGet_frame {p : Fin 3} {s : State} (h : (auGet p (portsStep (clockRuns s))).state = .off ∨
    (auGet p (portsStep (clockRuns s))).state = .resuming) : auGet p (frame s) = auGet p (portsStep (clockRuns s)) := by
  have hclocked {u v : State} (h : Clocked u v) : auGet p v = auGet p u := congrArg (Vector.get · p) h.2
  have hlisten (q : Fin 3) {u : State} (hu : (auGet p u).state = .off ∨ (auGet p u).state = .resuming) :
      auGet p (portListens q u) = auGet p u := by
    by_cases hq : p = q
    · subst hq
      rw [portListens_idle hu]
    · exact (portListens_portWork q u).2 p hq
  obtain ⟨u, hu, hframe⟩ := frame_ends s
  have h0 := hlisten 0 (u := u) (by rw [hclocked hu]; exact h)
  have h1 := hlisten 1 (u := portListens 0 u) (by rw [h0, hclocked hu]; exact h)
  rw [hframe, hclocked (eachLayer_clocked layerAfter_layerWork _), h1, h0, hclocked hu]

theorem clockOf_frame (s : State) : clockOf (frame s).palette = clockOf (clockRuns s).palette := by
  obtain ⟨u, hu, hframe⟩ := frame_ends s
  rw [hframe]
  exact (eachLayer_clocked layerAfter_layerWork _).1.trans ((portListens_portWork 1 _).1.trans
    ((portListens_portWork 0 _).1.trans (hu.1.trans (portsStep_clock _))))

/-- A layer at the end of the Palette. -/
def layerEnd (i : Fin 32) (s : State) : State := if (layGet i s).rests then s else layerStopped i .paletteOff s

theorem layerEnd_layerWork (i : Fin 32) (s : State) : LayerWork i s (layerEnd i s) := by
  unfold layerEnd
  split
  · exact .refl i s
  · exact (layerStopped_stops ..).1

theorem layerEnd_rests {i : Fin 32} {s : State} (h : (layGet i s).rests = true) : layerEnd i s = s := if_pos h

theorem layerEnd_stops {i : Fin 32} {s : State} (h : (layGet i s).rests = false) :
    (layGet i (layerEnd i s)).state = .stopped ∧ (layGet i (layerEnd i s)).cause = .paletteOff := by
  have hend : layerEnd i s = layerStopped i .paletteOff s := if_neg (by simp [h])
  rw [hend]
  exact (layerStopped_stops ..).2

/-- The layers that rest stay, and the others are stopped. -/
theorem foldl_layerEnd (l : List (Fin 32)) (s : State) (i : Fin 32) :
    ((layGet i s).rests = true → layGet i (l.foldl (fun s j => layerEnd j s) s) = layGet i s) ∧
      ((layGet i s).rests = false → i ∈ l → (layGet i (l.foldl (fun s j => layerEnd j s) s)).state = .stopped ∧
        (layGet i (l.foldl (fun s j => layerEnd j s) s)).cause = .paletteOff) := by
  induction l generalizing s with
  | nil => exact ⟨fun _ => rfl, fun _ h => nomatch h⟩
  | cons j l ih =>
    rw [List.foldl_cons]
    obtain ⟨hrest, hmove⟩ := ih (layerEnd j s)
    by_cases hij : i = j
    · subst hij
      refine ⟨fun h => ?_, fun h _ => ?_⟩
      · rw [layerEnd_rests h] at hrest ⊢
        exact hrest h
      · obtain ⟨hstate, hcause⟩ := layerEnd_stops h
        rw [hrest (by simp [Layer.rests, hstate])]
        exact ⟨hstate, hcause⟩
    · have hsame : layGet i (layerEnd j s) = layGet i s := (layerEnd_layerWork j s).1 i hij
      rw [hsame] at hrest hmove
      refine ⟨hrest, fun h hin => hmove h ?_⟩
      exact (List.mem_cons.mp hin).resolve_left hij

/-- The layers at the end of the Palette. -/
def layersEnd (s : State) : State := (List.finRange 32).foldl (fun s j => layerEnd j s) s

theorem layersEnd_ends (s : State) (i : Fin 32) :
    ((layGet i s).rests = true → layGet i (layersEnd s) = layGet i s) ∧
      ((layGet i s).rests = false → (layGet i (layersEnd s)).state = .stopped ∧ (layGet i (layersEnd s)).cause = .paletteOff) := by
  unfold layersEnd
  have hin := List.mem_finRange i
  generalize List.finRange 32 = l at hin ⊢
  obtain ⟨hrest, hmove⟩ := foldl_layerEnd l s i
  exact ⟨hrest, fun h => hmove h hin⟩

/-- Where the frame clock has been ended. -/
theorem paletteEnds_palette (s : State) : (paletteEnds s).palette = { (layersEnd s).palette with
    enAct := false, mclkAct := (layersEnd s).palette.mclkEn, booted := false, au2 := []
    ports := (layersEnd s).palette.ports.map AuPort.goesOff } := by
  have hlayers : eachLayer (fun i s => if (layGet i s).rests then s else layerStopped i .paletteOff s) s = layersEnd s := by
    unfold eachLayer layersEnd layerEnd
    rfl
  unfold paletteEnds
  rw [hlayers]

/-- What AU2 gave is kept. -/
theorem au2Keeps_writes (l : Vector (Vector Word 8) 32) (s : State) : ∃ k,
    au2Keeps l s = { s with palette := { s.palette with au2 := k } } := ⟨_, rfl⟩

/-! ## Tiles and refills -/

/-- A tile whose sectors are all there is whole at once. -/
theorem tileAsk_whole {i : Fin 32} {n lba : Nat} {x : LTile} {s : State}
    (hfind : (layGet i s).tiles.find? (fun y => y.n == n && y.held == 0) = some x)
    (hlba : (layGet i s).tileLba (n - (layGet i s).first) = some lba)
    (hgood : badCovers (tileCover ((layGet i s).arrayTile lba s).1 ((layGet i s).arrayTile lba s).2 s)
      (0xFF &&& ~~~ (cached ((layGet i s).arrayTile lba s).1 ((layGet i s).arrayTile lba s).2 s).1) = [])
    (hheld : coverMask (tileCover ((layGet i s).arrayTile lba s).1 ((layGet i s).arrayTile lba s).2 s) |||
      (cached ((layGet i s).arrayTile lba s).1 ((layGet i s).arrayTile lba s).2 s).1 = 0xFF) :
    layGet i (tileAsk i n s) = tileWhole n (layGet i s) := by
  have hfull : (0xFF : BitVec 8) &&& ~~~ (coverMask (tileCover ((layGet i s).arrayTile lba s).1 ((layGet i s).arrayTile lba s).2 s) |||
      (cached ((layGet i s).arrayTile lba s).1 ((layGet i s).arrayTile lba s).2 s).1) = 0 := by rw [hheld]; decide
  obtain ⟨d, hcurrent⟩ := currentTile_held hgood hfull (streamPayer i x.deadline) (streamWork i n)
  have hstream : streamTile i x.deadline n ((layGet i s).arrayTile lba s).1 ((layGet i s).arrayTile lba s).2 0xFF s =
      (.got d, false, s) := by
    simp only [streamTile, hfull, bne_self_eq_false, Bool.and_false, Bool.false_eq_true, if_false, hcurrent]
  unfold tileAsk
  simp only [hfind, hlba, hstream]
  rw [layGet_of_kept (workDrop_palKept ..), layGet_layPut_same]
  have hsame : ∀ u : State, PalKept s u → tileWhole n (layGet i u) = tileWhole n (layGet i s) := fun u hu => by rw [layGet_of_kept hu]
  split
  · exact hsame _ (tilePut_palKept ..)
  · rfl

theorem tileArrived_rests {i : Fin 32} {n : Nat} {s : State} (h : (layGet i s).rests = true) : tileArrived i n s = s := by
  simp only [tileArrived, h, Bool.true_or, if_true]

theorem tileArrived_asks {i : Fin 32} {n : Nat} {s : State} (hmoves : (layGet i s).rests = false) (hkind : lKind (layGet i s).act = 0)
    (hread : (layGet i s).listRead = true) : tileArrived i n s = tilesIssue i false 32 (tileAsk i n s) := by
  simp [tileArrived, hmoves, hkind, hread]

/-- The layer once a refill has ended well. -/
def refilled (len : Nat) (l : Layer) : Layer :=
  { l with
    rd := (l.rd + len) % lRingBytes l.act, refill := none
    tiles := l.tiles.zipIdx.map fun (t, j) => if j == l.tiles.length - 1 then { t with held := t.held + len } else t }

/-- Its place in the ring stands in the mailbox. -/
def refillShown (i : Fin 32) (len : Nat) (s : State) : State :=
  let u := layPut i (refilled len (layGet i s)) s
  let rd := ((layGet i s).rd + len) % lRingBytes (layGet i s).act
  { u with hbu := { u.hbu with mailbox := memWriteList u.hbu.mailbox (lSel (layGet i s).act + 4) (leBytes 4 rd) } }

theorem refillDone_ends {i : Fin 32} {len : Nat} {s : State} (hrefill : (layGet i s).refill = some len)
    (hout : refilling i s = false) : refillDone i s = hostRefill i (if (refilled len (layGet i s)).unread < lRingBytes (layGet i s).act / 2
      then sirqSet (lOwner (layGet i s).act) sirqPal (refillShown i len s) else refillShown i len s) := by
  simp only [refillDone, hrefill, hout, Bool.false_eq_true, if_false]
  rfl

/-- A boundary of the running frame clock. -/
theorem frameBoundary_runs {au2 : Vector (Vector Word 8) 32} {s : State} (hruns : paletteRuns s = true) (hen : s.palette.en = true) :
    reaches (.frameBoundary au2) s fun t =>
      t.palette.frame = (if s.palette.booted then s.palette.frame + 1 else 0) ∧ t.palette.enAct = true ∧
      t.palette.booted = true ∧ t.palette.mclkAct = s.palette.mclkEn ∧ t.palette.en = true ∧
      (∀ p : Fin 3, aEn (auGet p s).w0 = true → (auGet p s).state = .off →
        (auGet p t).state = .resuming ∧ (auGet p t).muted = true ∧ (auGet p t).left = resumeFrames (auGet p s).w1) ∧
      (∀ p : Fin 3, aEn (auGet p s).w0 = false → (auGet p t).state = .off ∧ (auGet p t).muted = true) := by
  refine reaches_of_guard rfl (by rw [hruns, hen]; rfl : (paletteRuns s && (s.palette.en || s.palette.enAct)) = true) ?_
  obtain ⟨k, hkeeps⟩ := au2Keeps_writes au2 s
  have hframe : (if (au2Keeps au2 s).palette.en then frame (au2Keeps au2 s) else paletteEnds (au2Keeps au2 s)) =
      frame (au2Keeps au2 s) := if_pos (by rw [hkeeps]; exact hen)
  have hau (p : Fin 3) : auGet p (clockRuns (au2Keeps au2 s)) = auGet p s := by rw [hkeeps]; rfl
  have hclock : clockOf (clockRuns (au2Keeps au2 s)).palette = (true, s.palette.mclkEn, true, s.palette.mclkEn, true,
      if s.palette.booted then s.palette.frame + 1 else 0) := by
    rw [hkeeps]
    simp only [clockOf, clockRuns, hen]
  rw [hframe]
  generalize au2Keeps au2 s = u at hau hclock
  have hshown := (clockOf_frame u).trans hclock
  simp only [clockOf, Prod.mk.injEq] at hshown
  obtain ⟨h1, -, h3, h4, h5, h6⟩ := hshown
  refine ⟨h6, h3, h5, h4, h1, fun p hon hoff => ?_, fun p hoff => ?_⟩
  · obtain ⟨v, hv, hstep⟩ := auGet_portsStep p (clockRuns u)
    rw [hau] at hv
    rw [portBoundary_resumes (by rw [hv, hon]) (by rw [hv, hoff]), auGet_auPut_same, hv] at hstep
    rw [auGet_frame (.inr (by rw [hstep]; rfl)), hstep]
    exact ⟨rfl, rfl, rfl⟩
  · obtain ⟨v, hv, hstep⟩ := auGet_portsStep p (clockRuns u)
    rw [hau] at hv
    rw [portBoundary_off (by rw [hv, hoff]), auGet_auPut_same, hv] at hstep
    rw [auGet_frame (.inl (by rw [hstep]; rfl)), hstep]
    exact ⟨rfl, rfl⟩

/-- The boundary at which the frame clock ends. -/
theorem frameBoundary_ends {au2 : Vector (Vector Word 8) 32} {s : State} (hruns : paletteRuns s = true)
    (hen : s.palette.en = false) (hact : s.palette.enAct = true) : reaches (.frameBoundary au2) s fun t =>
      t.palette.enAct = false ∧ t.palette.booted = false ∧ (∀ p : Fin 3, (auGet p t).state = .off) ∧
      (∀ i, (layGet i s).rests = false → (layGet i t).state = .stopped ∧ (layGet i t).cause = .paletteOff) ∧
      (∀ i, (layGet i s).rests = true → layGet i t = layGet i s) := by
  refine reaches_of_guard rfl (by rw [hruns, hact, Bool.or_true]; rfl : (paletteRuns s && (s.palette.en || s.palette.enAct)) = true) ?_
  obtain ⟨k, hkeeps⟩ := au2Keeps_writes au2 s
  have hends : (if (au2Keeps au2 s).palette.en then frame (au2Keeps au2 s) else paletteEnds (au2Keeps au2 s)) =
      paletteEnds (au2Keeps au2 s) := if_neg (by rw [hkeeps]; simp [hen])
  have hlay (i : Fin 32) : layGet i (au2Keeps au2 s) = layGet i s := by rw [hkeeps]; rfl
  rw [hends]
  generalize au2Keeps au2 s = u at hlay
  have hpal := paletteEnds_palette u
  have hlayers (i : Fin 32) : layGet i (paletteEnds u) = layGet i (layersEnd u) := by rw [layGet, hpal, layGet]
  refine ⟨by rw [hpal], by rw [hpal], fun p => ?_, fun i hmoves => ?_, fun i hrests => ?_⟩
  · rw [auGet, hpal]
    simp [Vector.get_eq_getElem, AuPort.goesOff]
  · rw [hlayers]
    exact (layersEnd_ends u i).2 (by rw [hlay, hmoves])
  · rw [hlayers, ← hlay]
    exact (layersEnd_ends u i).1 (by rw [hlay, hrests])

/-- A tile of which nothing is missing fills its place in the layer. -/
theorem streamTileArrived_fills {i : Fin 32} {n lba : Nat} {x : LTile} {s : State} (hruns : unitsRun s = true)
    (hmoves : (layGet i s).rests = false) (hkind : lKind (layGet i s).act = 0) (hread : (layGet i s).listRead = true)
    (hfind : (layGet i s).tiles.find? (fun y => y.n == n && y.held == 0) = some x)
    (hlba : (layGet i s).tileLba (n - (layGet i s).first) = some lba)
    (hgood : badCovers (tileCover ((layGet i s).arrayTile lba s).1 ((layGet i s).arrayTile lba s).2 s)
      (0xFF &&& ~~~ (cached ((layGet i s).arrayTile lba s).1 ((layGet i s).arrayTile lba s).2 s).1) = [])
    (hheld : coverMask (tileCover ((layGet i s).arrayTile lba s).1 ((layGet i s).arrayTile lba s).2 s) |||
      (cached ((layGet i s).arrayTile lba s).1 ((layGet i s).arrayTile lba s).2 s).1 = 0xFF) :
    reaches (.streamTileArrived i n) s fun t =>
      (∃ y ∈ (layGet i t).tiles, y.n = n ∧ y.held = 4096) ∧ (layGet i t).state = (layGet i s).state := by
  refine reaches_of_guard rfl hruns ?_
  rw [tileArrived_asks hmoves hkind hread]
  obtain ⟨⟨hstate, -, htiles⟩, -⟩ := tilesIssue_fills i false 32 (tileAsk i n s)
  rw [tileAsk_whole hfind hlba hgood hheld] at hstate htiles
  have hx := List.find?_some hfind
  simp only [Bool.and_eq_true, beq_iff_eq] at hx
  obtain ⟨z, hz, hn, hz'⟩ := htiles { x with held := 4096 } (List.mem_map.mpr ⟨x, List.mem_of_find?_eq_some hfind, if_pos (by simp [hx.1])⟩) rfl
  exact ⟨⟨z, hz, hn.trans hx.1, hz'⟩, hstate⟩

/-- A refill that has ended moves the layer's place in its ring, in the mailbox too. -/
theorem hostRefillDone_moves {i : Fin 32} {len : Nat} {s : State} (hruns : unitsRun s = true)
    (hrefill : (layGet i s).refill = some len) (hout : refilling i s = false) : reaches (.hostRefillDone i) s fun t =>
      (layGet i t).rd = ((layGet i s).rd + len) % lRingBytes (layGet i s).act ∧
      t.hbu.mailbox = memWriteList s.hbu.mailbox (lSel (layGet i s).act + 4)
        (leBytes 4 (((layGet i s).rd + len) % lRingBytes (layGet i s).act)) ∧ t.hbu.ringSram = s.hbu.ringSram := by
  refine reaches_of_guard rfl hruns ?_
  rw [refillDone_ends hrefill hout]
  have hshown : (layGet i (refillShown i len s)).rd = ((layGet i s).rd + len) % lRingBytes (layGet i s).act :=
    congrArg Layer.rd (layGet_layPut_same ..)
  have hnote (b : Bool) (u : State) : PalKept u (if b then sirqSet (lOwner (layGet i s).act) sirqPal u else u) ∧
      (if b then sirqSet (lOwner (layGet i s).act) sirqPal u else u).hbu.mailbox = u.hbu.mailbox ∧
      (if b then sirqSet (lOwner (layGet i s).act) sirqPal u else u).hbu.ringSram = u.hbu.ringSram := by
    cases b
    · exact ⟨rfl, rfl, rfl⟩
    · exact ⟨rfl, rfl, rfl⟩
  obtain ⟨hkept, hmailbox, hring⟩ := hnote (decide ((refilled len (layGet i s)).unread < lRingBytes (layGet i s).act / 2)) (refillShown i len s)
  simp only [decide_eq_true_eq] at hkept hmailbox hring
  generalize (if (refilled len (layGet i s)).unread < lRingBytes (layGet i s).act / 2
    then sirqSet (lOwner (layGet i s).act) sirqPal (refillShown i len s) else refillShown i len s) = u at *
  have hstays : Stays u (hostRefill i u) := hostRefill_stays i u
  obtain ⟨-, -, hmail, hsram, -⟩ := hstays
  refine ⟨?_, hmail.trans hmailbox, hsram.trans hring⟩
  rw [(hostRefill_fills i u).1.2.1, layGet_of_kept hkept, hshown]

/-- Settles O51. -/
theorem paletteFrames : Obligations.PaletteFrames := by
  unfold Obligations.PaletteFrames
  refine ⟨fun s mclk hruns => ⟨?_, ?_, fun p hsleep => ?_, fun p hsleep => ?_⟩,
    fun s au2 hruns => ⟨frameBoundary_runs hruns, frameBoundary_ends hruns⟩, fun s i hruns => ⟨fun hrests n => ?_,
      fun n x lba hmoves hkind hread hfind hlba hgood hheld =>
        streamTileArrived_fills hruns hmoves hkind hread hfind hlba hgood hheld,
      fun len => hostRefillDone_moves hruns, fun hnone => ?_⟩⟩
  · exact reaches_of_guard rfl hruns (palCtrlWrite_bits true mclk s)
  · refine reaches_of_guard rfl hruns ?_
    have hoff : flg 30 mclk = flg 31 false ||| flg 30 mclk := by cases mclk <;> decide
    rw [hoff]
    exact palCtrlWrite_bits false mclk s
  · refine reaches_of_guard rfl hruns ?_
    rw [portsWake_one, hsleep]
    rfl
  · refine reaches_of_guard rfl hruns ?_
    rw [portsWake_one, if_neg (by simpa using hsleep)]
  · exact reaches_of_guard rfl hruns (tileArrived_rests hrests)
  · refine reaches_of_guard rfl hruns ?_
    simp only [refillDone, hnone]

end Sys2Proof.Machine
end

section
/-! The ring's links: what a link that goes down leaves of its port, and what its event does (R469, R470, R474, R483). -/
namespace Sys2Proof.Machine
open Sys2Proof.Safety

/-! ## Frames -/

theorem creditBack_writes (fb : Bool) (ch : Fin 3) (n : Nat) (s : State) :
    creditBack fb ch n s = { s with ring := (creditBack fb ch n s).ring } := by
  apply State.ext <;> simp

theorem ringSend_writes (fb : Bool) (p : Packet) (s : State) : ringSend fb p s =
    { s with ring := (ringSend fb p s).ring, log := (ringSend fb p s).log, ledger := (ringSend fb p s).ledger } := by
  apply State.ext <;> simp

theorem linkDown_writes (fb : Bool) (l : Link) (s : State) : linkDown fb l s =
    { s with ring := (linkDown fb l s).ring, log := (linkDown fb l s).log, ledger := (linkDown fb l s).ledger } := by
  apply State.ext <;> simp

theorem rollEvent_writes (s : State) : rollEvent s =
    { s with ring := (rollEvent s).ring, log := (rollEvent s).log, ledger := (rollEvent s).ledger } := by
  apply State.ext <;> simp

/-! ## Packets that stand at a port -/

/-- No packet comes to port b or leaves it. -/
def Idle (b : Bool) (s t : State) : Prop := (rport b t).out = (rport b s).out ∧ (rport b t).replay = (rport b s).replay

theorem Idle.refl (b : Bool) (s : State) : Idle b s s := ⟨rfl, rfl⟩
theorem Idle.trans {b : Bool} {s t u : State} (h : Idle b s t) (k : Idle b t u) : Idle b s u :=
  ⟨k.1.trans h.1, k.2.trans h.2⟩
theorem Idle.of_ring {b : Bool} {s t : State} (h : t.ring = s.ring) : Idle b s t := by
  simp only [Idle, rport, h, and_self]

theorem creditBack_idle (fb b : Bool) (ch : Fin 3) (n : Nat) (s : State) : Idle b s (creditBack fb ch n s) :=
  ⟨creditBack_out .., creditBack_replay ..⟩

theorem rportPut_idle {fb b : Bool} (h : b ≠ fb) (q : RPort) (s : State) : Idle b s (rportPut fb q s) := by
  rw [Bool.eq_not_of_ne h]
  exact ⟨congrArg RPort.out (rport_rportPut_other _ fb q), congrArg RPort.replay (rport_rportPut_other _ fb q)⟩

theorem sendPacket_idle {fb b : Bool} (h : b ≠ fb) (p : Packet) (s : State) : Idle b s (sendPacket fb p s) := by
  simp only [sendPacket]
  have htake (q : RPort) (i : Fin 20) (n : Nat) : Idle b s (poolTake i none n (rportPut fb q s)) :=
    (rportPut_idle h q s).trans (.of_ring (by simp))
  split
  · exact (htake ..).trans (creditBack_idle ..)
  · exact htake ..

theorem pump_idle {fb b : Bool} (h : b ≠ fb) (n : Nat) (s : State) : Idle b s (pump fb n s) := by
  induction n generalizing s with
  | zero => exact .refl ..
  | succ n ih =>
    simp only [pump]
    split
    · split
      · exact .refl ..
      · exact (sendPacket_idle h ..).trans (ih _)
    · exact .refl ..

/-- What is sent does not come to a port that is not UP. -/
theorem ringSend_idle {b : Bool} {s : State} (h : (rport b s).link ≠ .up) (fb : Bool) (p : Packet) :
    Idle b s (ringSend fb p s) := by
  by_cases hb : b = fb
  · rw [ringSend_down fb p s (hb ▸ h)]
    exact .of_ring rfl
  · simp only [ringSend]
    split
    · exact (rportPut_idle hb ..).trans (pump_idle hb ..)
    · exact .of_ring rfl

theorem broadcast_idle {b : Bool} {s : State} (h : (rport b s).link ≠ .up) (kind : Byte) (f : Bool → List Dword) :
    Idle b s (broadcast kind f s) := by
  refine (List.foldlRecOn (motive := fun t => ringQuiet s t ∧ Idle b s t) [false, true] _
    ⟨ringQuiet_refl s, .refl b s⟩ fun t ht fb _ => ?_).2
  split
  · exact ⟨ringQuiet_trans ht.1 (ringQuiet_ringSend ..), ht.2.trans (ringSend_idle (by rwa [ht.1.link]) ..)⟩
  · exact ht

/-- The state in which a roll call has begun, before ROLL_CALL goes out. -/
def rollBegun (s : State) : State :=
  { s with ring := { s.ring with
    rollSeq := s.ring.rollSeq + 1, nonce := some (s.clk.tick.truncate 16)
    roll := some { start := s.clk.tick.toNat }, rollAgain := false } }

theorem rollStart_quiet (s : State) : ringQuiet (rollBegun s) (rollStart s) := ringQuiet_broadcast ..

theorem rollEvent_off {s : State} (h : rollsRun s = false) : rollEvent s = s := by simp [rollEvent, h]
theorem rollEvent_again {s : State} (h : rollsRun s = true) (hroll : s.ring.roll.isSome = true) :
    rollEvent s = { s with ring := { s.ring with rollAgain := true } } := by simp [rollEvent, h, hroll]
theorem rollEvent_starts {s : State} (h : rollsRun s = true) (hroll : s.ring.roll = none) : rollEvent s = rollStart s := by
  simp [rollEvent, h, hroll]

theorem rollEvent_idle {b : Bool} {s : State} (h : (rport b s).link ≠ .up) : Idle b s (rollEvent s) := by
  cases hrun : rollsRun s
  · rw [rollEvent_off hrun]
    exact .refl ..
  cases hroll : s.ring.roll with
  | none =>
    rw [rollEvent_starts hrun hroll]
    exact broadcast_idle (s := rollBegun s) h ..
  | some r =>
    rw [rollEvent_again hrun (by simp [hroll])]
    exact ⟨rfl, rfl⟩

theorem linkEvent_idle {b : Bool} {s : State} (h : (rport b s).link ≠ .up) : Idle b s (linkEvent s) := by
  simp only [linkEvent]
  split
  · exact rollEvent_idle h
  · exact ringSend_idle h ..

/-! ## What an event keeps of the ports -/

/-- Each port keeps its link, its enable, what it expects to receive and its episodes. -/
def LinksKept (s t : State) : Prop := ∀ b, (rport b s).quiet (rport b t)

theorem ringQuiet.kept {s t : State} (h : ringQuiet s t) : LinksKept s t := h.2

theorem rollEvent_linksKept (s : State) : LinksKept s (rollEvent s) := by
  cases hrun : rollsRun s
  · rw [rollEvent_off hrun]
    exact fun b => RPort.quiet_refl _
  cases hroll : s.ring.roll with
  | none =>
    rw [rollEvent_starts hrun hroll]
    exact fun b => (rollStart_quiet s).2 b
  | some r =>
    rw [rollEvent_again hrun (by simp [hroll])]
    exact fun b => RPort.quiet_refl _

theorem linkEvent_linksKept (s : State) : LinksKept s (linkEvent s) := by
  simp only [linkEvent]
  split
  · exact rollEvent_linksKept s
  · exact (ringQuiet_sendUp ..).kept

/-! ## A link that goes down -/

/-- The port's own part of a link that goes down: it is empty, and its credits are FREE. -/
def linkEmptied (fb : Bool) (l : Link) (s : State) : State :=
  dropFrom fb (creditsFree fb (rportPut fb ((rport fb s).down l) s))

theorem linkEmptied_port (fb : Bool) (l : Link) (s : State) : rport fb (linkEmptied fb l s) = (rport fb s).down l := by
  simp only [linkEmptied, dropFrom, rport_not_rportPut]
  simp only [rport, creditsFree_ring]
  exact rport_rportPut_same _ fb _

theorem linkEmptied_ledger (fb : Bool) (l : Link) (s : State) :
    (linkEmptied fb l s).ledger = (creditsFree fb (rportPut fb ((rport fb s).down l) s)).ledger := by
  simp [linkEmptied]

/-- What the discarded packets of a port that goes down still do: credits return and discards count. -/
def Discards (s t : State) : Prop := ringQuiet s t ∧ (∀ b, Idle b s t) ∧ t.ledger = s.ledger

theorem Discards.trans {s t u : State} (h : Discards s t) (k : Discards t u) : Discards s u :=
  ⟨ringQuiet_trans h.1 k.1, fun b => (h.2.1 b).trans (k.2.1 b), k.2.2.trans h.2.2⟩

theorem Discards.of_ring {s t : State} (h : t.ring = s.ring) (hl : t.ledger = s.ledger) : Discards s t :=
  ⟨ringQuiet_of_ring h, fun _ => .of_ring h, hl⟩

theorem discarded_discards (p : Pkt) (s : State) : Discards s (discarded p s) := .of_ring (by simp) (by simp)

theorem creditBack_discards (fb : Bool) (ch : Fin 3) (n : Nat) (s : State) : Discards s (creditBack fb ch n s) :=
  ⟨ringQuiet_creditBack .., fun b => creditBack_idle fb b ch n s, by simp⟩

theorem linkDown_discards (fb : Bool) (l : Link) (s : State) : Discards (linkEmptied fb l s) (linkDown fb l s) := by
  refine Discards.trans (List.foldlRecOn (motive := fun t => Discards (linkEmptied fb l s) t) (rport fb s).out _
    (.of_ring rfl rfl) fun t ht p _ => ht.trans ?_) (.of_ring rfl rfl)
  dsimp only
  split
  · exact (discarded_discards ..).trans (creditBack_discards ..)
  · exact discarded_discards ..

/-- A port whose link goes down: emptied, with nothing received and no episodes. -/
theorem linkDown_port (fb : Bool) (l : Link) (s : State) :
    (rport fb (linkDown fb l s)).link = l ∧ (rport fb (linkDown fb l s)).en = (rport fb s).en ∧
    (rport fb (linkDown fb l s)).rxSeq = 0 ∧ (rport fb (linkDown fb l s)).episodes = 0 ∧
    (rport fb (linkDown fb l s)).out = [] ∧ (rport fb (linkDown fb l s)).replay = [] := by
  obtain ⟨hquiet, hidle, -⟩ := linkDown_discards fb l s
  obtain ⟨hlink, hen, hrx, -, -, hepisodes, -⟩ := hquiet.2 fb
  obtain ⟨hout, hreplay⟩ := hidle fb
  simp only [linkEmptied_port] at *
  exact ⟨hlink, hen, hrx, hepisodes, hout, hreplay⟩

theorem pRing_injective (fb : Bool) {a b : Fin 3} (h : a ≠ b) : pRing fb a ≠ pRing fb b := by
  intro heq
  have hval := congrArg Fin.val heq
  simp only [pRing] at hval
  exact h (Fin.ext (by omega))

theorem poolGet_poolGive_ne {i j : Fin 20} (h : i ≠ j) (who : Option (Fin 8)) (n : Nat) (s : State) :
    poolGet j (poolGive i who n s) = poolGet j s := poolGet_poolPut_ne (h := h) ..

/-- Every RING_CREDIT unit of the port is FREE. -/
theorem creditsFree_free (fb : Bool) (ch : Fin 3) (s : State) :
    (poolGet (pRing fb ch) (creditsFree fb s)).free = (poolGet (pRing fb ch) s).free + (poolGet (pRing fb ch) s).system := by
  have hne {a b : Fin 3} (h : a ≠ b) (n : Nat) (u : State) :
      poolGet (pRing fb b) (poolGive (pRing fb a) none n u) = poolGet (pRing fb b) u :=
    poolGet_poolGive_ne (pRing_injective fb h) ..
  simp only [creditsFree, List.foldl]
  match ch with
  | 0 => rw [hne (by decide), hne (by decide), poolGive_free]
  | 1 => rw [hne (by decide), poolGive_free, hne (by decide)]
  | 2 => rw [poolGive_free, hne (by decide), hne (by decide)]

theorem linkDown_credits (fb : Bool) (l : Link) (ch : Fin 3) (s : State) :
    (poolGet (pRing fb ch) (linkDown fb l s)).free = (poolGet (pRing fb ch) s).free + (poolGet (pRing fb ch) s).system := by
  have hledger := (linkDown_discards fb l s).2.2.trans (linkEmptied_ledger fb l s)
  have hput (u : State) (h : (rportPut fb ((rport fb s).down l) s).ledger = u.ledger) (i : Fin 20) :
      poolGet i (rportPut fb ((rport fb s).down l) s) = poolGet i u := by rw [poolGet, poolGet, h]
  rw [poolGet, hledger, ← poolGet, creditsFree_free, hput s (by simp)]

theorem linkDown_ring (fb : Bool) (l : Link) (s : State) :
    (linkDown fb l s).ring = { s.ring with fa := (linkDown fb l s).ring.fa, fb := (linkDown fb l s).ring.fb } := by
  have h := (linkDown_discards fb l s).1.1
  rw [h]
  have hbase : (linkEmptied fb l s).ring =
      { s.ring with fa := (linkEmptied fb l s).ring.fa, fb := (linkEmptied fb l s).ring.fb } := by
    cases fb <;> simp [linkEmptied, dropFrom, rportPut]
  rw [hbase]

/-! ## What the states of the links do not bear on -/

theorem rollsRun_congr {s t : State} (h : t = { s with ring := t.ring, log := t.log, ledger := t.ledger }) :
    rollsRun t = rollsRun s := by
  rw [h]
  rfl

theorem isManager_congr {s t : State} (h : t = { s with ring := t.ring, log := t.log, ledger := t.ledger }) :
    isManager t = isManager s := by
  rw [h]
  rfl

theorem rollsRun_manager {s : State} (h : rollsRun s = true) : isManager s = true := by
  simp only [rollsRun, Bool.and_eq_true] at h
  exact h.1.1.1.2

/-! ## The links train and break (R469, R470, R474, R483) -/

theorem linkTrain_port (fb : Bool) (s : State) : rport fb (linkTrain fb s) = { rport fb s with
    link := if (rport fb s).link = .dark ∧ linkMay fb s = true then .training else (rport fb s).link } := by
  simp only [linkTrain, Bool.and_eq_true, beq_iff_eq]
  split
  · exact rport_rportPut_same _ fb _
  · rfl

theorem linkTrain_other (fb : Bool) (s : State) : rport (!fb) (linkTrain fb s) = rport (!fb) s := by
  simp only [linkTrain]
  split
  · exact rport_rportPut_other _ fb _
  · rfl

theorem linkTrain_writes (fb : Bool) (s : State) :
    linkTrain fb s = { s with ring := (linkTrain fb s).ring, log := (linkTrain fb s).log } := by
  apply State.ext <;> simp

/-- The port with its enable set or cleared, before its link follows. -/
def enablePut (fb on : Bool) (s : State) : State := rportPut fb { rport fb s with en := on } s

theorem enablePut_port (fb on : Bool) (s : State) : rport fb (enablePut fb on s) = { rport fb s with en := on } :=
  rport_rportPut_same _ fb _

theorem enablePut_writes (fb on : Bool) (s : State) : enablePut fb on s = { s with ring := (enablePut fb on s).ring } := by
  cases fb <;> rfl

theorem linkMay_of_port {fb : Bool} {s t : State} (h : t = { s with ring := t.ring, log := t.log })
    (hen : (rport fb t).en = (rport fb s).en) : linkMay fb t = linkMay fb s := by
  simp only [linkMay, hen]
  rw [h]
  rfl

theorem ringEnable_on (fb : Bool) (s : State) (t : State) (ht : t = ringEnable fb true s) :
    t = { s with ring := t.ring, log := t.log } ∧ rport (!fb) t = rport (!fb) s ∧ (rport fb t).en = true ∧
    (rport fb t).link = (if (rport fb s).link = .dark ∧ linkMay fb t = true then .training else (rport fb s).link) := by
  have hport := linkTrain_port fb (enablePut fb true s)
  have hother := linkTrain_other fb (enablePut fb true s)
  have hmay : linkMay fb (linkTrain fb (enablePut fb true s)) = linkMay fb (enablePut fb true s) :=
    linkMay_of_port (linkTrain_writes ..) (congrArg (·.en) hport)
  subst ht
  change ringEnable fb true s = _ ∧ _
  rw [show ringEnable fb true s = linkTrain fb (enablePut fb true s) from rfl, hmay]
  refine ⟨?_, hother.trans (rport_rportPut_other _ fb _), ?_, ?_⟩
  · rw [linkTrain_writes, enablePut_writes]
  · rw [hport, enablePut_port]
  · rw [hport, enablePut_port]

theorem linkDown_other (fb : Bool) (l : Link) (s : State) :
    (rport (!fb) (linkDown fb l s)).link = (rport (!fb) s).link := by
  rw [linkDown_link, if_neg (by simp)]

/-- A link that leaves UP, with the event that follows. -/
def linkLeft (fb : Bool) (l : Link) (s : State) : State := linkEvent (linkDown fb l s)

theorem linkLeft_writes (fb : Bool) (l : Link) (s : State) : linkLeft fb l s =
    { s with ring := (linkLeft fb l s).ring, log := (linkLeft fb l s).log, ledger := (linkLeft fb l s).ledger } := by
  apply State.ext <;> simp [linkLeft]

theorem linkLeft_port (fb : Bool) (l : Link) (s : State) :
    (rport fb (linkLeft fb l s)).link = l ∧ (rport fb (linkLeft fb l s)).en = (rport fb s).en ∧
    (rport fb (linkLeft fb l s)).rxSeq = 0 ∧ (rport fb (linkLeft fb l s)).episodes = 0 ∧
    (rport (!fb) (linkLeft fb l s)).link = (rport (!fb) s).link := by
  obtain ⟨hlink, hen, hrx, hepisodes, -, -⟩ := linkDown_port fb l s
  have hkept := linkEvent_linksKept (linkDown fb l s)
  obtain ⟨klink, ken, krx, -, -, kepisodes, -⟩ := hkept fb
  exact ⟨klink.trans hlink, ken.trans hen, krx.trans hrx, kepisodes.trans hepisodes,
    (hkept (!fb)).1.trans (linkDown_other fb l s)⟩

theorem linkLeft_empty {fb : Bool} {l : Link} (h : l ≠ .up) (s : State) :
    (rport fb (linkLeft fb l s)).out = [] ∧ (rport fb (linkLeft fb l s)).replay = [] := by
  obtain ⟨hlink, -, -, -, hout, hreplay⟩ := linkDown_port fb l s
  obtain ⟨hidleOut, hidleReplay⟩ := linkEvent_idle (b := fb) (s := linkDown fb l s) (by rw [hlink]; exact h)
  exact ⟨hidleOut.trans hout, hidleReplay.trans hreplay⟩

theorem linkLeft_roll {fb : Bool} {l : Link} {s : State} (hrun : rollsRun s = true) :
    (s.ring.roll = none → (linkLeft fb l s).ring.rollSeq = s.ring.rollSeq + 1) ∧
    (s.ring.roll.isSome = true → (linkLeft fb l s).ring.rollAgain = true) := by
  have hwrites := linkDown_writes fb l s
  have hring := linkDown_ring fb l s
  have hruns := (rollsRun_congr hwrites).trans hrun
  rw [linkLeft, linkEvent, if_pos (rollsRun_manager hruns)]
  refine ⟨fun hroll => ?_, fun hroll => ?_⟩
  · rw [rollEvent_starts hruns (by rw [hring]; exact hroll), (rollStart_quiet _).1]
    simp only [rollBegun]
    rw [hring]
  · rw [rollEvent_again hruns (by rw [hring]; exact hroll)]

theorem execTrainingComplete_eq {fb : Bool} {s : State} (hu : unitsUp s = true) (h : (rport fb s).link = .training) :
    exec (.trainingComplete fb) s = .next (linkLeft fb .up s) :=
  congrArg Host.Outcome.next (if_pos (by simp [hu, h]))

theorem trainingComplete_ups {fb : Bool} {s : State} (hu : unitsUp s = true) (h : (rport fb s).link = .training) :
    reaches (.trainingComplete fb) s fun t =>
      t = { s with ring := t.ring, log := t.log, ledger := t.ledger } ∧ (rport fb t).link = .up ∧
      (rport fb t).rxSeq = 0 ∧ (rport fb t).episodes = 0 ∧ (rport (!fb) t).link = (rport (!fb) s).link ∧
      (isManager s = true → rollsRun s = false → (rport fb t).replay = [] ∧
        ∀ ch, (poolGet (pRing fb ch) t).free = (poolGet (pRing fb ch) s).free + (poolGet (pRing fb ch) s).system) ∧
      (rollsRun s = true → s.ring.roll = none → t.ring.rollSeq = s.ring.rollSeq + 1) := by
  refine ⟨_, execTrainingComplete_eq hu h, ?_⟩
  obtain ⟨hlink, -, hrx, hepisodes, hother⟩ := linkLeft_port fb .up s
  refine ⟨linkLeft_writes .., hlink, hrx, hepisodes, hother, fun hm hroll => ?_, fun hroll => (linkLeft_roll hroll).1⟩
  have hwrites := linkDown_writes fb .up s
  have hsame : linkLeft fb .up s = linkDown fb .up s := by
    rw [linkLeft, linkEvent, if_pos ((isManager_congr hwrites).trans hm), rollEvent_off ((rollsRun_congr hwrites).trans hroll)]
  rw [hsame]
  exact ⟨(linkDown_port fb .up s).2.2.2.2.2, fun ch => linkDown_credits fb .up ch s⟩

theorem linkBreak_up {fb : Bool} {s : State} (h : (rport fb s).link = .up) : linkBreak fb s = linkLeft fb .broken s := by
  simp [linkBreak, h, linkLeft]

theorem linkBreak_breaks {fb : Bool} {s : State} (hu : unitsUp s = true) (h : (rport fb s).link = .up) :
    reaches (.linkBreak fb) s fun t =>
      t = { s with ring := t.ring, log := t.log, ledger := t.ledger } ∧ (rport fb t).link = .broken ∧
      (rport fb t).out = [] ∧ (rport fb t).replay = [] ∧ (rport (!fb) t).link = (rport (!fb) s).link ∧
      (rollsRun s = true → s.ring.roll.isSome = true → t.ring.rollAgain = true) := by
  have hexec : exec (.linkBreak fb) s = .next (linkLeft fb .broken s) :=
    congrArg Host.Outcome.next ((if_pos hu).trans (linkBreak_up h))
  obtain ⟨hlink, -, -, -, hother⟩ := linkLeft_port fb .broken s
  obtain ⟨hout, hreplay⟩ := linkLeft_empty (fb := fb) (l := .broken) (by decide) s
  exact ⟨_, hexec, linkLeft_writes .., hlink, hout, hreplay, hother, fun hrun => (linkLeft_roll hrun).2⟩

theorem ringEnable_off (fb : Bool) (s : State) :
    ringEnable fb false s = { s with
      ring := (ringEnable fb false s).ring, log := (ringEnable fb false s).log, ledger := (ringEnable fb false s).ledger } ∧
    (rport fb (ringEnable fb false s)).en = false ∧
    (rport (!fb) (ringEnable fb false s)).link = (rport (!fb) s).link ∧
    (rport fb (ringEnable fb false s)).link =
      (if (rport fb s).link = .up ∨ (rport fb s).link = .training then .dark else (rport fb s).link) := by
  have hoff : ringEnable fb false s = linkDark fb (enablePut fb false s) := rfl
  have hput := enablePut_port fb false s
  have hother : rport (!fb) (enablePut fb false s) = rport (!fb) s := rport_rportPut_other _ fb _
  have hframe : ringEnable fb false s = { s with
      ring := (ringEnable fb false s).ring, log := (ringEnable fb false s).log, ledger := (ringEnable fb false s).ledger } := by
    rw [hoff]
    apply State.ext <;> simp [enablePut]
  refine ⟨hframe, ?_⟩
  rw [hoff, linkDark, hput]
  cases hlink : (rport fb s).link with
  | up =>
    obtain ⟨klink, ken, -, -, kother⟩ := linkLeft_port fb .dark (enablePut fb false s)
    exact ⟨ken.trans (congrArg RPort.en hput), kother.trans (congrArg RPort.link hother), by simpa [hlink, linkLeft] using klink⟩
  | training =>
    obtain ⟨klink, ken, -⟩ := linkDown_port fb .dark (enablePut fb false s)
    exact ⟨ken.trans (congrArg RPort.en hput), (linkDown_other ..).trans (congrArg RPort.link hother),
      by simpa [hlink] using klink⟩
  | dark => exact ⟨congrArg RPort.en hput, congrArg RPort.link hother, by simp [hput, hlink]⟩
  | broken => exact ⟨congrArg RPort.en hput, congrArg RPort.link hother, by simp [hput, hlink]⟩

theorem linkDown_dark (fb : Bool) (s : State) (t : State) (ht : t = linkDown fb .dark s) :
    t = { s with ring := t.ring, log := t.log, ledger := t.ledger } ∧ (rport fb t).link = .dark ∧
    (rport fb t).out = [] ∧ (rport fb t).replay = [] ∧ (rport (!fb) t).link = (rport (!fb) s).link := by
  subst ht
  obtain ⟨hlink, -, -, -, hout, hreplay⟩ := linkDown_port fb .dark s
  exact ⟨linkDown_writes .., hlink, hout, hreplay, linkDown_other ..⟩

/-- Settles O52: a link that leaves TRAINING or UP empties its port, and the event that follows sends nothing on a port
that is not UP. -/
theorem linksTrainAndBreak : Obligations.LinksTrainAndBreak := by
  intro s fb hu
  have hstill {c : Instr} {g : Bool} {f : State → State} (he : exec c s = .next (onlyIf g f s)) (hg : g = false) :
      reaches c s fun t => t = s := ⟨_, he, by rw [hg]; rfl⟩
  refine ⟨?_, ⟨_, congrArg Host.Outcome.next (if_pos hu), ringEnable_on fb s _ rfl⟩,
    ⟨_, congrArg Host.Outcome.next (if_pos hu), ringEnable_off fb s⟩, fun h => ⟨trainingComplete_ups hu h, ?_⟩, ?_,
    fun h => linkBreak_breaks hu h, fun h => ?_, fun h => ?_, fun h => hstill rfl (by simp [h])⟩
  · simp only [List.forall_mem_cons]
    have htrained := And.intro (linkTrain_writes fb s) (And.intro (linkTrain_other fb s) (linkTrain_port fb s))
    exact ⟨⟨_, rfl, htrained⟩, ⟨_, rfl, htrained⟩, List.forall_mem_nil _⟩
  · exact ⟨_, congrArg Host.Outcome.next (if_pos (by simp [hu, h])), linkDown_dark fb s _ rfl⟩
  · intro h
    simp only [List.forall_mem_cons]
    exact ⟨hstill rfl (by simp [h]), hstill rfl (by simp [h]), List.forall_mem_nil _⟩
  · exact ⟨_, congrArg Host.Outcome.next (if_pos hu), by simp [linkBreak, h]⟩
  · obtain ⟨hwrites, hlink, -, -, hother⟩ := linkDown_dark fb s _ rfl
    exact ⟨_, congrArg Host.Outcome.next (if_pos (by simp [hu, h])), hwrites, hlink, hother⟩

end Sys2Proof.Machine
end

section
/-! Acknowledgement, resending, receipt and forwarding on an UP port (R472, R473, R476, R480). -/
namespace Sys2Proof.Machine
open Sys2Proof.Safety

/-! ## What is sent on a port -/

/-- A packet that stands at a port has been sent on it. -/
theorem standing.sentOn {fb : Bool} {x : Packet} {s : State} (h : standing fb x s) {f : Pkt → Prop}
    (hf : ∀ n, f { x.p with lseq := n }) : sentOn fb x.kind f s := by
  rcases h with h | ⟨n, h⟩
  · exact ⟨x, List.mem_append_left _ h, rfl, hf x.p.lseq⟩
  · exact ⟨_, List.mem_append_right _ h, rfl, hf n⟩

/-- A port with nothing waiting sends nothing. -/
theorem pump_of_empty {fb : Bool} {s : State} (h : (rport fb s).out = []) (n : Nat) : pump fb n s = s := by
  cases n with
  | zero => rfl
  | succ n => simp [pump, nextPacket, h]

theorem pump_rportPut {fb : Bool} {q : RPort} (h : q.out = []) (n : Nat) (s : State) :
    pump fb n (rportPut fb q s) = rportPut fb q s := pump_of_empty (by rw [rport_rportPut_same, h]) n

/-! ## Receipt -/

theorem accepted_port (fb : Bool) (s : State) : rport fb (accepted fb s) =
    { rport fb s with rxSeq := (rport fb s).rxSeq + 1, gotAny := true, discarding := false } :=
  rport_rportPut_same _ fb _

theorem accepted_other (fb : Bool) (s : State) : rport (!fb) (accepted fb s) = rport (!fb) s :=
  rport_rportPut_other _ fb _

theorem accepted_writes (fb : Bool) (s : State) : accepted fb s = { s with ring := (accepted fb s).ring } := by
  cases fb <;> rfl

theorem consumes_accepted (fb : Bool) (p : Pkt) (s : State) : consumes p (accepted fb s) = consumes p s := by
  cases fb <;> rfl

theorem forwards_accepted (fb : Bool) (p : Pkt) (s : State) : forwards p (accepted fb s) = forwards p s := by
  cases fb <;> rfl

/-- The receipt of the packet that a port expects: with a wrong LEN it is counted; else it has its effect where this node
consumes it, and goes on where this node forwards it. -/
theorem receive_expected {fb : Bool} {p : Pkt} {s : State} (h : p.lseq = (rport fb s).rxSeq) (kind : Byte)
    (act : State → State) : receive fb kind p act s =
      if lenOk kind p.flits.length = false then creditBack fb p.ch p.flits.length (counterInc 0x81 (accepted fb s))
      else if forwards p s then
        forward fb kind p (if consumes p s then act (accepted fb s) else accepted fb s)
      else creditBack fb p.ch p.flits.length (if consumes p s then act (accepted fb s) else accepted fb s) := by
  rw [← forwards_accepted fb, ← consumes_accepted fb]
  unfold receive
  rw [if_neg (by simp [h])]
  cases lenOk kind p.flits.length <;> rfl

theorem receive_unexpected {fb : Bool} {p : Pkt} {s : State} (h : p.lseq ≠ (rport fb s).rxSeq) (kind : Byte)
    (act : State → State) : receive fb kind p act s = receiveError fb s := if_pos (by simpa using h)

/-- An accepted packet that this node consumes and does not forward has its own effect, and its credits return. -/
theorem receive_consumed {fb : Bool} {kind : Byte} {p : Pkt} {s : State} (h : inOrder fb kind p s)
    (hc : consumes p s = true) (hf : forwards p s = false) (act : State → State) :
    receive fb kind p act s = creditBack fb p.ch p.flits.length (act (accepted fb s)) := by
  obtain ⟨-, -, hseq, hlen⟩ := h
  simp only [receive_expected hseq, hlen, hc, hf, Bool.true_eq_false, Bool.false_eq_true, if_true, if_false]

/-- An accepted packet that this node does not consume goes on. -/
theorem receive_passing {fb : Bool} {kind : Byte} {p : Pkt} {s : State} (h : inOrder fb kind p s)
    (hc : consumes p s = false) (act : State → State) :
    receive fb kind p act s = forward fb kind p (accepted fb s) := by
  obtain ⟨-, -, hseq, hlen⟩ := h
  have hf : forwards p s = true := by
    have hmanager : isManager s = false := by
      simp only [consumes, Bool.or_eq_false_iff] at hc
      exact hc.1.1
    simp [forwards, hmanager, hc]
  simp only [receive_expected hseq, hlen, hc, hf, Bool.true_eq_false, Bool.false_eq_true, if_true, if_false]

theorem passing_notBroadcast {p : Pkt} {s : State} (h : consumes p s = false) : p.bcast = false := by
  simp only [consumes, Bool.or_eq_false_iff] at h
  exact h.1.2

theorem creditBack_other (fb : Bool) (ch : Fin 3) (n : Nat) (s : State) :
    rport (!fb) (creditBack fb ch n s) = rport (!fb) s := by
  simp only [creditBack]
  split
  · exact (rport_rportPut_other _ fb _).trans (rport_rportPut_other _ fb _)
  · exact rport_rportPut_other _ fb _

theorem counterGet_creditBack (fb : Bool) (ch : Fin 3) (n : Nat) (e : Nat) (s : State) :
    counterGet e (creditBack fb ch n s) = counterGet e s := counterGet_congr (by simp) e

/-! ## Forwarding (R480) -/

/-- The packet as it goes on past this node. -/
def onward (p : Pkt) : Pkt := if p.path then { p with dst := p.dst - 1 } else p

/-- Out of an UP port, the packet is queued there and sent as soon as it is eligible. -/
theorem forward_up {fb : Bool} {s : State} (h : (rport (!fb) s).link = .up) (kind : Byte) (p : Pkt) :
    ∃ x : Packet, x.kind = kind ∧ x.p = onward p ∧ standing (!fb) x (forward fb kind p s) ∧
      ringQuiet s (forward fb kind p s) := by
  refine ⟨⟨kind, onward p, packetC kind (onward p), some fb⟩, rfl, rfl, ?_⟩
  unfold forward
  rw [if_pos (by simp [h])]
  refine ⟨standing_pump _ _ _ _ (.inl ?_), ringQuiet_trans (ringQuiet_rportPut _ _ _ ?_) (ringQuiet_pump ..)⟩
  · rw [rport_rportPut_same]
    exact List.mem_append_right _ (List.mem_singleton_self _)
  · exact ⟨rfl, rfl, rfl, rfl, rfl, rfl, rfl⟩

/-- Where the port is not UP the packet is discarded, and counted. -/
theorem forward_down {fb : Bool} {p : Pkt} {s : State} (h : (rport (!fb) s).link ≠ .up) (hb : p.bcast = false)
    (kind : Byte) : ∃ ch n, forward fb kind p s = creditBack fb ch n (counterInc 0x82 s) := by
  unfold forward
  have hb' : (onward p).bcast = false := by
    simp only [onward]
    split <;> exact hb
  refine ⟨(onward p).ch, (onward p).flits.length, ?_⟩
  rw [if_neg (by simpa using h)]
  exact congrArg (creditBack fb _ _) (if_neg (by exact ne_true_of_eq_false hb'))

theorem forward_writes (fb : Bool) (kind : Byte) (p : Pkt) (s : State) : forward fb kind p s = { s with
    ring := (forward fb kind p s).ring, log := (forward fb kind p s).log, ledger := (forward fb kind p s).ledger } := by
  apply State.ext <;> simp

theorem ringQuiet_forward (fb : Bool) (kind : Byte) (p : Pkt) (s : State) : ringQuiet s (forward fb kind p s) := by
  by_cases h : (rport (!fb) s).link = .up
  · obtain ⟨_, -, -, -, hquiet⟩ := forward_up h kind p
    exact hquiet
  · unfold forward
    rw [if_neg (by simpa using h)]
    exact ringQuiet_trans (ringQuiet_of_ring (by simp)) (ringQuiet_creditBack ..)

/-- Forwarding brings nothing to the port that the packet came from, and takes nothing from it. -/
theorem forward_idle (fb : Bool) (kind : Byte) (p : Pkt) (s : State) : Idle fb s (forward fb kind p s) := by
  unfold forward
  dsimp only
  split
  · exact (rportPut_idle (by simp) ..).trans (pump_idle (by simp) ..)
  · exact Idle.trans (.of_ring (by simp)) (creditBack_idle ..)

theorem execPacketForward_eq {fb : Bool} {p : Pkt} {s : State} (hu : unitsUp s = true) (hup : (rport fb s).link = .up)
    (hc : consumes p s = false) (kind : Byte) :
    exec (.packetForward fb kind p) s = .next (receive fb kind p id s) :=
  congrArg Host.Outcome.next (if_pos (by simp [hu, hup, hc]))

theorem packetForward_passes {fb : Bool} {kind : Byte} {p : Pkt} {s : State} (hc : consumes p s = false)
    (h : inOrder fb kind p s) : reaches (.packetForward fb kind p) s fun t =>
      t = { s with ring := t.ring, log := t.log, ledger := t.ledger } ∧
      (rport fb t).rxSeq = (rport fb s).rxSeq + 1 ∧
      ((rport (!fb) s).link = .up → sentOn (!fb) kind (fun x => x.flits = p.flits ∧ x.src = p.src ∧ x.tag = p.tag ∧
        x.dst = if p.path then p.dst - 1 else p.dst) t) ∧
      ((rport (!fb) s).link ≠ .up → counterGet 0x82 t = ctrInc (counterGet 0x82 s) ∧ rport (!fb) t = rport (!fb) s) := by
  have hexec := execPacketForward_eq h.1 h.2.1 hc kind
  rw [receive_passing h hc] at hexec
  refine ⟨_, hexec, ?_, ?_, fun hup => ?_, fun hdown => ?_⟩
  · rw [forward_writes, accepted_writes]
  · rw [((ringQuiet_forward fb kind p _).2 fb).2.2.1, accepted_port]
  · obtain ⟨x, rfl, hx, hstands, -⟩ := forward_up (s := accepted fb s) (by rw [accepted_other]; exact hup) kind p
    refine hstands.sentOn fun n => ?_
    simp only [hx, onward]
    split <;> exact ⟨rfl, rfl, rfl, rfl⟩
  · obtain ⟨ch, n, heq⟩ := forward_down (s := accepted fb s) (by rw [accepted_other]; exact hdown)
      (passing_notBroadcast hc) kind
    rw [heq, counterGet_creditBack, counterGet_counterInc_same, creditBack_other]
    exact ⟨congrArg ctrInc (counterGet_congr (by rw [accepted_writes]) _), accepted_other fb s⟩

/-! ## Errors of receipt (R472) -/

theorem receiveError_discarding {fb : Bool} {s : State} (h : (rport fb s).discarding = true) : receiveError fb s = s :=
  if_pos h

theorem receiveError_first {fb : Bool} {s : State} (h : (rport fb s).discarding = false) :
    receiveError fb s = rportPut fb { rport fb s with
      discarding := true, linkOut := some (linkPayload { rport fb s with nak := true })
      retData := Vector.replicate 3 0, retHead := Vector.replicate 3 0, nak := false } s := by
  have hsend : receiveError fb s = sendLink fb (rportPut fb { rport fb s with discarding := true, nak := true } s) :=
    if_neg (by simp [h])
  refine hsend.trans ?_
  rw [sendLink, rport_rportPut_same, rportPut_rportPut]
  rfl

/-- What a receive error makes of its port, and that it touches nothing else. -/
theorem receiveError_port (fb : Bool) (s : State) :
    receiveError fb s = { s with ring := (receiveError fb s).ring } ∧ (rport fb (receiveError fb s)).discarding = true ∧
    (rport fb (receiveError fb s)).rxSeq = (rport fb s).rxSeq ∧ rport (!fb) (receiveError fb s) = rport (!fb) s ∧
    ((rport fb s).discarding = true → rport fb (receiveError fb s) = rport fb s) ∧
    ((rport fb s).discarding = false →
      (rport fb (receiveError fb s)).linkOut = some (linkPayload { rport fb s with nak := true })) := by
  cases h : (rport fb s).discarding with
  | true =>
    rw [receiveError_discarding h]
    exact ⟨rfl, h, rfl, rfl, fun _ => rfl, nofun⟩
  | false =>
    rw [receiveError_first h, rport_rportPut_same, rport_rportPut_other]
    exact ⟨by cases fb <;> rfl, rfl, rfl, rfl, nofun, fun _ => rfl⟩

theorem packetReceiveError_naks {fb : Bool} {s : State} (hu : unitsUp s = true) (hup : (rport fb s).link = .up)
    (crc : Bool) : reaches (.packetReceiveError fb crc) s fun t => t = { s with ring := t.ring, log := t.log } ∧
      (rport fb t).discarding = true ∧ rport (!fb) t = rport (!fb) s ∧
      ((rport fb s).discarding = true → rport fb t = rport fb s) ∧
      ((rport fb s).discarding = false → (rport fb t).linkOut = some (linkPayload { rport fb s with nak := true })) ∧
      counterGet 0x83 t = if crc then ctrInc (counterGet 0x83 s) else counterGet 0x83 s := by
  refine ⟨_, congrArg Host.Outcome.next (if_pos (by simp [hu, hup])), ?_⟩
  generalize hcounted : (if crc then counterInc 0x83 s else s) = u
  have hu : u = { s with log := u.log } := by
    rw [← hcounted]
    cases crc <;> rfl
  have hport (b : Bool) : rport b u = rport b s := by
    rw [hu]
    rfl
  obtain ⟨hwrites, hdiscarding, -, hother, hsecond, hfirst⟩ := receiveError_port fb u
  rw [hport] at hother hsecond hfirst
  dsimp only
  rw [hcounted]
  refine ⟨?_, hdiscarding, hother, hsecond, hfirst, ?_⟩
  · rw [hwrites, hu]
  · rw [counterGet_congr (s := u) (by rw [hwrites]) 0x83, ← hcounted]
    cases crc
    · rfl
    · exact counterGet_counterInc_same ..

theorem packetForward_unexpected {fb : Bool} {kind : Byte} {p : Pkt} {s : State} (hu : unitsUp s = true)
    (hup : (rport fb s).link = .up) (hc : consumes p s = false) (h : p.lseq ≠ (rport fb s).rxSeq) :
    reaches (.packetForward fb kind p) s fun t =>
      (rport fb t).rxSeq = (rport fb s).rxSeq ∧ (rport fb t).discarding = true ∧ rport (!fb) t = rport (!fb) s := by
  obtain ⟨-, hdiscarding, hrx, hother, -⟩ := receiveError_port fb s
  have hexec := execPacketForward_eq hu hup hc kind
  rw [receive_unexpected h] at hexec
  exact ⟨_, hexec, hrx, hdiscarding, hother⟩

theorem packetForward_wrongLen {fb : Bool} {kind : Byte} {p : Pkt} {s : State} (hu : unitsUp s = true)
    (hup : (rport fb s).link = .up) (hc : consumes p s = false) (h : p.lseq = (rport fb s).rxSeq)
    (hlen : lenOk kind p.flits.length = false) : reaches (.packetForward fb kind p) s fun t =>
      counterGet 0x81 t = ctrInc (counterGet 0x81 s) ∧ (rport fb t).rxSeq = (rport fb s).rxSeq + 1 ∧
      rport (!fb) t = rport (!fb) s := by
  have hexec := execPacketForward_eq hu hup hc kind
  rw [receive_expected h, if_pos hlen] at hexec
  refine ⟨_, hexec, ?_, ?_, ?_⟩
  · rw [counterGet_creditBack, counterGet_counterInc_same]
    exact congrArg ctrInc (counterGet_congr (by rw [accepted_writes]) _)
  · rw [((ringQuiet_creditBack fb p.ch p.flits.length _).2 fb).2.2.1]
    exact congrArg RPort.rxSeq (accepted_port fb s)
  · exact (creditBack_other ..).trans (accepted_other fb s)

/-! ## Acknowledgement and resending (R472, R476) -/

/-- An episode that does not break the link. -/
theorem episode_below {fb : Bool} {s : State} (h : (rport fb s).episodes < 7) : episode fb s =
    rportPut fb { rport fb s with episodes := (rport fb s).episodes + 1, resends := ctrInc (rport fb s).resends } s :=
  if_neg (by omega)

theorem episode_rportPut {q : RPort} (h : q.episodes < 7) (fb : Bool) (s : State) : episode fb (rportPut fb q s) =
    rportPut fb { q with episodes := q.episodes + 1, resends := ctrInc q.resends } s := by
  have hsame : rport fb (rportPut fb q s) = q := rport_rportPut_same _ fb q
  rw [episode_below (by rwa [hsame]), rportPut_rportPut]
  simp only [hsame]

/-- The eighth episode in a row breaks the link. -/
theorem episode_eighth {fb : Bool} {s : State} (h : 7 ≤ (rport fb s).episodes) (hup : (rport fb s).link = .up) :
    (rport fb (episode fb s)).link = .broken ∧ (rport fb (episode fb s)).replay = [] := by
  have heq : episode fb s = linkBreak fb (rportPut fb { rport fb s with
      episodes := (rport fb s).episodes + 1, resends := ctrInc (rport fb s).resends } s) := if_pos (by omega)
  rw [heq, linkBreak_up (by rw [rport_rportPut_same]; exact hup)]
  exact ⟨(linkLeft_port ..).1, (linkLeft_empty (by decide) _).2⟩

theorem resendTimeout_episode {fb : Bool} {s : State} (hu : unitsUp s = true) (hup : (rport fb s).link = .up)
    (h : (rport fb s).replay ≠ []) : reaches (.resendTimeout fb) s fun t =>
      ((rport fb s).episodes < 7 → t = rportPut fb { rport fb s with
        episodes := (rport fb s).episodes + 1, resends := ctrInc (rport fb s).resends } s) ∧
      (7 ≤ (rport fb s).episodes → (rport fb t).link = .broken ∧ (rport fb t).replay = []) :=
  ⟨_, congrArg Host.Outcome.next (if_pos (by simp [hu, hup, h])), fun hlow => episode_below hlow,
    fun hhigh => episode_eighth hhigh hup⟩

/-- The credits of one channel that a LINK flit returns. -/
def creditIn (fb : Bool) (ch : Fin 3) (d h : Nat) (s : State) : State :=
  poolGive (pRing fb ch) none (min d (poolGet (pRing fb ch) s).system)
    (rportPut fb { rport fb s with hcred := (rport fb s).hcred.set ch (min 4 ((rport fb s).hcred.get ch + h)) } s)

theorem rport_of_poolGive (fb : Bool) (i : Fin 20) (who : Option (Fin 8)) (n : Nat) (s : State) :
    rport fb (poolGive i who n s) = rport fb s := by simp only [rport, poolGive_ring]

theorem poolGet_rportPut (fb : Bool) (q : RPort) (i : Fin 20) (s : State) : poolGet i (rportPut fb q s) = poolGet i s := by
  cases fb <;> rfl

theorem creditIn_port (fb : Bool) (ch : Fin 3) (d h : Nat) (s : State) : rport fb (creditIn fb ch d h s) =
    { rport fb s with hcred := (rport fb s).hcred.set ch (min 4 ((rport fb s).hcred.get ch + h)) } :=
  (rport_of_poolGive ..).trans (rport_rportPut_same _ fb _)

theorem creditIn_free (fb : Bool) (ch : Fin 3) (d h : Nat) (s : State) :
    (poolGet (pRing fb ch) (creditIn fb ch d h s)).free =
      (poolGet (pRing fb ch) s).free + min d (poolGet (pRing fb ch) s).system := by
  rw [creditIn, poolGive_free, poolGet_rportPut]

theorem creditIn_otherPool (fb : Bool) {a b : Fin 3} (hab : a ≠ b) (d h : Nat) (s : State) :
    poolGet (pRing fb b) (creditIn fb a d h s) = poolGet (pRing fb b) s :=
  (poolGet_poolGive_ne (pRing_injective fb hab) ..).trans (poolGet_rportPut ..)

/-- Credits that a LINK flit returns touch nothing of a port but its header credits. -/
theorem creditsIn_port (fb : Bool) (w : Dword) (s : State) : ∃ hcred,
    rport fb (creditsIn fb w s) = { rport fb s with hcred := hcred } ∧
    hcred.get 0 = min 4 ((rport fb s).hcred.get 0 + (w.extractLsb' 37 3).toNat) ∧
    (poolGet (pRing fb 0) (creditsIn fb w s)).free =
      (poolGet (pRing fb 0) s).free + min (w.extractLsb' 56 8).toNat (poolGet (pRing fb 0) s).system := by
  have heq : creditsIn fb w s = creditIn fb 2 (w.toNat >>> 40 % 2 ^ 8) (w.toNat >>> 31 % 2 ^ 3)
      (creditIn fb 1 (w.toNat >>> 48 % 2 ^ 8) (w.toNat >>> 34 % 2 ^ 3)
        (creditIn fb 0 (w.extractLsb' 56 8).toNat (w.extractLsb' 37 3).toNat s)) := by
    rw [BitVec.extractLsb'_toNat, BitVec.extractLsb'_toNat]
    rfl
  rw [heq, creditIn_otherPool fb (by decide), creditIn_otherPool fb (by decide), creditIn_free, creditIn_port,
    creditIn_port, creditIn_port]
  refine ⟨_, rfl, ?_, rfl⟩
  rw [vector_get_set, if_neg (by decide), vector_get_set, if_neg (by decide), vector_get_set, if_pos rfl]

/-- A LINK flit at a port with nothing waiting: its credits, its acknowledgement, and an episode where it carries NAK. -/
theorem linkFlit_of_empty {fb : Bool} {w : Dword} {s : State} (hout : (rport fb s).out = []) :
    ∃ hcred,
      hcred.get 0 = min 4 ((rport fb s).hcred.get 0 + (w.extractLsb' 37 3).toNat) ∧
      (poolGet (pRing fb 0) (creditsIn fb w s)).free =
        (poolGet (pRing fb 0) s).free + min (w.extractLsb' 56 8).toNat (poolGet (pRing fb 0) s).system ∧
      ∀ q, q = (if w.getLsbD 30 then ({ rport fb s with hcred := hcred } : RPort).acked (w.extractLsb' 24 6)
          else { rport fb s with hcred := hcred }) →
        (w.getLsbD 23 = false ∨ q.replay = [] → linkFlit fb w s = rportPut fb q (creditsIn fb w s)) ∧
        (w.getLsbD 23 = true → q.replay ≠ [] → q.episodes < 7 → linkFlit fb w s = rportPut fb { q with
          episodes := q.episodes + 1, resends := ctrInc q.resends } (creditsIn fb w s)) := by
  obtain ⟨hcred, hport, hget, hfree⟩ := creditsIn_port fb w s
  refine ⟨hcred, hget, hfree, fun q hq => ?_⟩
  have hacked (r : RPort) (l : BitVec 6) : (r.acked l).out = r.out := by
    simp only [RPort.acked]
    split <;> rfl
  have hqout : q.out = [] := by
    rw [hq]
    split
    · exact (hacked ..).trans hout
    · exact hout
  have hflit : linkFlit fb w s = (let u := rportPut fb q (creditsIn fb w s)
      let v := if w.getLsbD 23 && !(rport fb u).replay.isEmpty then episode fb u else u
      pump fb ((rport fb v).out.length + 1) v) := by
    simp only [linkFlit, hport, ← hq]
  rw [hflit]
  dsimp only
  rw [rport_rportPut_same]
  refine ⟨fun h => ?_, fun hnak hreplay hepisodes => ?_⟩
  · have hnone : (w.getLsbD 23 && !q.replay.isEmpty) = false := by
      rcases h with h | h
      · rw [h, Bool.false_and]
      · rw [h, List.isEmpty_nil, Bool.not_true, Bool.and_false]
    rw [if_neg (ne_true_of_eq_false hnone)]
    exact pump_rportPut (by exact hqout) ..
  · rw [if_pos (by rw [hnak]; simpa using hreplay), episode_rportPut hepisodes, rport_rportPut_same]
    exact pump_rportPut (by exact hqout) ..

theorem execLinkFlit_eq {fb : Bool} {s : State} (hu : unitsUp s = true) (hup : (rport fb s).link = .up) (w : Dword) :
    exec (.linkFlit fb w) s = .next (linkFlit fb w s) := congrArg Host.Outcome.next (if_pos (by simp [hu, hup]))

theorem linkFlit_acknowledges {fb : Bool} {w : Dword} {i : Nat} {s : State} (hu : unitsUp s = true)
    (hup : (rport fb s).link = .up) (hout : (rport fb s).out = []) (hack : w.getLsbD 30 = true)
    (hnak : w.getLsbD 23 = false)
    (hfind : (rport fb s).replay.findIdx? (fun x => x.p.lseq == w.extractLsb' 24 6) = some i) :
    reaches (.linkFlit fb w) s fun t => t = { s with ring := t.ring, log := t.log, ledger := t.ledger } ∧
      (rport fb t).replay = (rport fb s).replay.drop (i + 1) ∧ (rport fb t).episodes = 0 ∧ (rport fb t).link = .up ∧
      (rport fb t).hcred.get 0 = min 4 ((rport fb s).hcred.get 0 + (w.extractLsb' 37 3).toNat) ∧
      (poolGet (pRing fb 0) t).free =
        (poolGet (pRing fb 0) s).free + min (w.extractLsb' 56 8).toNat (poolGet (pRing fb 0) s).system := by
  obtain ⟨hcred, hget, hfree, hcases⟩ := linkFlit_of_empty (w := w) hout
  have hflit := (hcases _ rfl).1 (.inl hnak)
  rw [if_pos hack, RPort.acked, hfind] at hflit
  refine ⟨_, execLinkFlit_eq hu hup w, by apply State.ext <;> simp, ?_⟩
  rw [hflit, rport_rportPut_same, poolGet_rportPut]
  exact ⟨rfl, rfl, hup, hget, hfree⟩

theorem linkFlit_naks {fb : Bool} {w : Dword} {s : State} (hu : unitsUp s = true)
    (hup : (rport fb s).link = .up) (hout : (rport fb s).out = []) (hack : w.getLsbD 30 = false)
    (hnak : w.getLsbD 23 = true) (hreplay : (rport fb s).replay ≠ []) (hepisodes : (rport fb s).episodes < 7) :
    reaches (.linkFlit fb w) s fun t =>
      (rport fb t).episodes = (rport fb s).episodes + 1 ∧ (rport fb t).resends = ctrInc (rport fb s).resends ∧
      (rport fb t).replay = (rport fb s).replay ∧ (rport fb t).link = .up := by
  obtain ⟨hcred, -, -, hcases⟩ := linkFlit_of_empty (w := w) hout
  rw [if_neg (ne_true_of_eq_false hack)] at hcases
  have hflit := (hcases _ rfl).2 hnak hreplay hepisodes
  refine ⟨_, execLinkFlit_eq hu hup w, ?_⟩
  rw [hflit]
  simp only [rport_rportPut_same]
  exact ⟨trivial, trivial, trivial, hup⟩

/-- Settles O53: what an UP port does on a LINK flit, a receive error and a resend, and how a packet goes on past a
worker. -/
theorem packetsAreAcknowledgedResentAndForwarded : Obligations.PacketsAreAcknowledgedResentAndForwarded := by
  intro s fb hu hup
  have hguard : (unitsUp s && (rport fb s).link == .up) = true := by simp [hu, hup]
  refine ⟨fun w i hout hack hnak hfind => linkFlit_acknowledges hu hup hout hack hnak hfind,
    fun w hout hack hnak hreplay hepisodes => linkFlit_naks hu hup hout hack hnak hreplay hepisodes,
    ⟨_, congrArg Host.Outcome.next (if_pos hguard), ?_⟩, packetReceiveError_naks hu hup, fun h => ⟨_, rfl, ?_⟩,
    resendTimeout_episode hu hup, fun kind p hc => ⟨packetForward_passes hc, packetForward_unexpected hu hup hc,
      packetForward_wrongLen hu hup hc⟩⟩
  · exact ⟨by cases fb <;> rfl, rport_rportPut_other _ fb _, rport_rportPut_same _ fb _⟩
  · exact if_neg (by simp [h])

end Sys2Proof.Machine
end

section
/-! RING_CTRL and its actions, and the packets that a node consumes (R477, R480, R483, R496). -/
namespace Sys2Proof.Machine
open Sys2Proof.Safety

/-! ## Packets that this node consumes -/

theorem accepted_ring (fb : Bool) (s : State) :
    (accepted fb s).ring = { s.ring with fa := (accepted fb s).ring.fa, fb := (accepted fb s).ring.fb } := by
  cases fb <;> rfl

theorem creditBack_ring (fb : Bool) (ch : Fin 3) (n : Nat) (s : State) : (creditBack fb ch n s).ring =
    { s.ring with fa := (creditBack fb ch n s).ring.fa, fb := (creditBack fb ch n s).ring.fb } :=
  (ringQuiet_creditBack ..).1

theorem received_inOrder {fb : Bool} {kind : Byte} {p : Pkt} {s : State} (h : inOrder fb kind p s)
    (act : State → State) : received fb kind p act s = .next (receive fb kind p act s) :=
  congrArg Host.Outcome.next (if_pos (by simp [h.1, h.2.1]))

/-- What the manager receives is its own. -/
theorem received_manager {fb : Bool} {kind : Byte} {p : Pkt} {s : State} (hm : isManager s = true)
    (h : inOrder fb kind p s) (act : State → State) :
    received fb kind p act s = .next (creditBack fb p.ch p.flits.length (act (accepted fb s))) := by
  rw [received_inOrder h, receive_consumed h (by simp [consumes, hm]) (by simp [forwards, hm])]

theorem onManager_accepted {fb : Bool} {s : State} (hm : isManager s = true) (act : State → State) :
    onManager act (accepted fb s) = act (accepted fb s) :=
  if_pos (by rw [accepted_writes]; exact hm)

theorem onWorker_accepted {fb : Bool} {s : State} (hm : isManager s = false) (act : State → State) :
    onWorker act (accepted fb s) = act (accepted fb s) := by
  refine if_pos ?_
  rw [accepted_writes]
  simpa [isManager] using hm

theorem received_onManager {fb : Bool} {kind : Byte} {p : Pkt} {s : State} (hm : isManager s = true)
    (h : inOrder fb kind p s) (act : State → State) :
    received fb kind p (onManager act) s = .next (creditBack fb p.ch p.flits.length (act (accepted fb s))) := by
  rw [received_manager hm h, onManager_accepted hm]

/-- A packet for this worker alone has its effect and goes no further. -/
theorem received_onWorker {fb : Bool} {kind : Byte} {p : Pkt} {s : State} (hw : forWorker p s)
    (h : inOrder fb kind p s) (act : State → State) :
    received fb kind p (onWorker act) s = .next (creditBack fb p.ch p.flits.length (act (accepted fb s))) := by
  obtain ⟨hm, hb, hc⟩ := hw
  rw [received_inOrder h, receive_consumed h hc (by simp [forwards, hb, hc]), onWorker_accepted hm]

/-- A broadcast has its effect on a worker and goes on. -/
theorem receive_broadcast {fb : Bool} {kind : Byte} {p : Pkt} {s : State} (hm : isManager s = false)
    (hb : p.bcast = true) (h : inOrder fb kind p s) (act : State → State) :
    receive fb kind p act s = forward fb kind p (act (accepted fb s)) := by
  obtain ⟨-, -, hseq, hlen⟩ := h
  have hc : consumes p s = true := by simp [consumes, hb]
  have hf : forwards p s = true := by simp [forwards, hm, hb]
  simp only [receive_expected hseq, hlen, hc, hf, Bool.true_eq_false, if_true, if_false]

/-! ## The word of a RING_CTRL write -/

/-- A field does not see what lies below it. -/
theorem bits_or_low {a b : Word} {hi lo : Nat} (h : b.toNat < 2 ^ lo) : bits (a ||| b) hi lo = bits a hi lo := by
  simp only [bits, BitVec.toNat_or, Nat.shiftRight_or_distrib]
  rw [Nat.shiftRight_eq_zero b.toNat lo h, Nat.or_zero]

theorem fld_zero_toNat (key : Half) : (fld 0 key.toNat).toNat = key.toNat := by
  simp only [fld, Nat.shiftLeft_zero, BitVec.toNat_ofNat]
  omega

/-- The word of a ROLL_NOW. -/
theorem rollNow_word (a b : Bool) : bit (flg 31 a ||| flg 30 b ||| flg 29 true) 31 = a ∧
    bit (flg 31 a ||| flg 30 b ||| flg 29 true) 30 = b ∧ bit (flg 31 a ||| flg 30 b ||| flg 29 true) 29 = true ∧
    bits (flg 31 a ||| flg 30 b ||| flg 29 true) 27 26 = 0 := by
  revert a b
  decide

/-- A RING_CTRL word with an ACTION of an entry keeps the enables. -/
theorem action_word (a b : Bool) (act : BitVec 2) (k : BitVec 4) (key : Half) (w : Word)
    (hw : w = flg 31 a ||| flg 30 b ||| fld 26 act.toNat ||| fld 20 k.toNat ||| fld 0 key.toNat) :
    bit w 31 = a ∧ bit w 30 = b ∧ bit w 29 = false ∧ bits w 27 26 = act.toNat ∧ bits w 23 20 = k.toNat ∧
      w.truncate 16 = key := by
  have hhead : ∀ (a b : Bool) (act : BitVec 2) (k : BitVec 4) (v : Word),
      v = flg 31 a ||| flg 30 b ||| fld 26 act.toNat ||| fld 20 k.toNat →
      bit v 31 = a ∧ bit v 30 = b ∧ bit v 29 = false ∧ bits v 27 26 = act.toNat ∧ bits v 23 20 = k.toNat ∧
        v.setWidth 16 = 0 := by
    intro a b act k v hv
    subst hv
    revert a b act k
    decide
  obtain ⟨h31, h30, h29, hact, hk, hlow⟩ := hhead a b act k _ rfl
  have hkey := fld_zero_toNat key
  have hlt : (fld 0 key.toNat).toNat < 2 ^ 16 := by
    rw [hkey]
    exact key.isLt
  have hbit (i : Nat) (hi : 16 ≤ i) : bit (fld 0 key.toNat) i = false :=
    Nat.testBit_lt_two_pow (lt_of_lt_of_le hlt (Nat.pow_le_pow_right (by decide) hi))
  subst hw
  refine ⟨?_, ?_, ?_, ?_, ?_, ?_⟩
  · rw [bit_or, h31, hbit 31 (by decide), Bool.or_false]
  · rw [bit_or, h30, hbit 30 (by decide), Bool.or_false]
  · rw [bit_or, h29, hbit 29 (by decide), Bool.or_false]
  · rw [bits_or_low (lt_of_lt_of_le hlt (by decide)), hact]
  · rw [bits_or_low (lt_of_lt_of_le hlt (by decide)), hk]
  · rw [BitVec.truncate_eq_setWidth, BitVec.setWidth_or, hlow]
    apply BitVec.eq_of_toNat_eq
    simp [hkey, Nat.mod_eq_of_lt key.isLt]

/-- A ROLL_NOW alone starts a roll call on the manager and is refused on a worker. -/
theorem ringCtrlWrite_rollNow (s : State) : ringCtrlWrite 0x8 (ringCtrlWord s ||| flg 29 true) s =
    if isManager s then rollEvent s else ringRefused (ringCtrlWord s ||| flg 29 true) s := by
  obtain ⟨h31, h30, h29, hact⟩ := rollNow_word s.ring.fa.en s.ring.fb.en
  change bit (ringCtrlWord s ||| flg 29 true) 31 = _ at h31
  change bit (ringCtrlWord s ||| flg 29 true) 30 = _ at h30
  change bit (ringCtrlWord s ||| flg 29 true) 29 = _ at h29
  change bits (ringCtrlWord s ||| flg 29 true) 27 26 = _ at hact
  simp only [ringCtrlWrite, h31, h30, h29, hact, bne_self_eq_false, Bool.false_eq_true, if_false, if_true, Bool.true_and]
  rw [if_neg (by decide)]
  cases hm : isManager s with
  | true =>
    have hm' : isManager (rollEvent s) = true := (isManager_congr (rollEvent_writes s)).trans hm
    simp [onlyIf, hm']
  | false => simp [onlyIf, hm]

/-- A full write with an ACTION that keeps the enables, without ROLL_NOW. -/
theorem ringCtrlWrite_action (act : BitVec 2) (hact : act ≠ 0) (k : BitVec 4) (key : Half) (s : State) (w : Word)
    (hw : w = ringCtrlWord s ||| fld 26 act.toNat ||| fld 20 k.toNat ||| fld 0 key.toNat) :
    ringCtrlWrite 0xF w s = ringAction act.toNat k key w s := by
  obtain ⟨h31, h30, h29, hbits, hk, hlow⟩ := action_word s.ring.fa.en s.ring.fb.en act k key w hw
  have hne : act.toNat ≠ 0 := fun h => hact (BitVec.eq_of_toNat_eq h)
  simp only [ringCtrlWrite, h31, h30, h29, hbits, hk, hlow, bne_self_eq_false, Bool.false_eq_true, if_false, if_neg hne,
    Bool.false_and, onlyIf, BitVec.ofNat_toNat, BitVec.setWidth_eq]
  rw [if_neg (by decide)]

/-! ## FORGET and ADOPT (R496) -/

theorem execForget_eq {s : State} (hu : unitsUp s = true) (k : BitVec 4) : exec (.forget k) s =
    .next (ringAction 1 k 0 (ringCtrlWord s ||| fld 26 1 ||| fld 20 k.toNat) s) := by
  refine congrArg Host.Outcome.next ((if_pos hu).trans ?_)
  exact ringCtrlWrite_action 1 (by decide) k 0 s _ (by simp [fld])

theorem execAdopt_eq {s : State} (hu : unitsUp s = true) (k : BitVec 4) (key : Half) : exec (.adopt k key) s =
    .next (ringAction 2 k key (ringCtrlWord s ||| fld 26 2 ||| fld 20 k.toNat ||| fld 0 key.toNat) s) :=
  congrArg Host.Outcome.next ((if_pos hu).trans (ringCtrlWrite_action 2 (by decide) k key s _ rfl))

theorem notFailstop_of_unitsUp {s : State} (hu : unitsUp s = true) : s.restart.level ≠ .failstop := by
  simp only [unitsUp, Bool.and_eq_true, bne_iff_ne] at hu
  exact hu.1.2

theorem forget_forgets {s : State} (hu : unitsUp s = true) (k : BitVec 4) : reaches (.forget k) s fun t =>
    (isManager s = true → mayForget k s = true → t.roster = s.roster.set k.toFin false ∧
      t.ring = { s.ring with nodes := s.ring.nodes.set k.toFin {}, unreach := s.ring.unreach - 1 } ∧
      t = { s with ident := t.ident, nv := t.nv, skb := t.skb, roster := t.roster, ring := t.ring } ∧
      (s.restart.nvcfgLost = false → t.nv.commits = s.nv.commits ++ [.keep])) ∧
    (isManager s = false ∨ mayForget k s = false →
      t = logRec .ringCmdRefused (leBytes 4 (ringCtrlWord s ||| fld 26 1 ||| fld 20 k.toNat).toNat) s) := by
  refine ⟨_, execForget_eq hu k, fun hm hmay => ?_, fun h => ?_⟩
  · simp only [ringAction, hm, hmay, Bool.not_true, Bool.false_eq_true, if_false, Bool.and_true, decide_true, if_true]
    cases hlost : s.restart.nvcfgLost with
    | true => simp [nvCommit, hlost]
    | false =>
      rw [nvCommit_writes (by exact hlost) (by exact notFailstop_of_unitsUp hu)]
      exact ⟨rfl, rfl, rfl, fun _ => rfl⟩
  · simp only [ringAction]
    rcases h with h | h <;> simp [h, ringRefused]

/-- A roll call that starts: the next epoch, its NONCE, and nothing else but what the ports send. -/
theorem rollStart_ring (s : State) : (rollStart s).ring = { s.ring with
    rollSeq := s.ring.rollSeq + 1, nonce := some (s.clk.tick.truncate 16)
    roll := some { start := s.clk.tick.toNat }, rollAgain := false
    fa := (rollStart s).ring.fa, fb := (rollStart s).ring.fb } := (rollStart_quiet s).1

theorem rollEvent_tables (s : State) :
    (rollEvent s).ring.adopt = s.ring.adopt ∧ (rollEvent s).ring.nodes = s.ring.nodes := by
  cases hrun : rollsRun s
  · rw [rollEvent_off hrun]
    exact ⟨rfl, rfl⟩
  cases hroll : s.ring.roll with
  | none =>
    rw [rollEvent_starts hrun hroll, rollStart_ring]
    exact ⟨rfl, rfl⟩
  | some r =>
    rw [rollEvent_again hrun (by simp [hroll])]
    exact ⟨rfl, rfl⟩

theorem rollEvent_rollSeq {s : State} (hrun : rollsRun s = true) (hroll : s.ring.roll = none) :
    (rollEvent s).ring.rollSeq = s.ring.rollSeq + 1 := by
  rw [rollEvent_starts hrun hroll, rollStart_ring]

theorem adopt_adopts {s : State} (hu : unitsUp s = true) (k : BitVec 4) (key : Half) :
    reaches (.adopt k key) s fun t =>
    (isManager s = true → (s.ring.nodes.get k.toFin).status = .foreign →
      (s.ring.nodes.get k.toFin).fabricId.truncate 16 = key →
      t.ring.adopt = some ((s.ring.nodes.get k.toFin).fabricId, (s.ring.nodes.get k.toFin).node) ∧
      (rollsRun s = true → s.ring.roll = none → t.ring.rollSeq = s.ring.rollSeq + 1)) ∧
    (isManager s = false ∨ (s.ring.nodes.get k.toFin).status ≠ .foreign ∨
        (s.ring.nodes.get k.toFin).fabricId.truncate 16 ≠ key →
      t = logRec .ringCmdRefused
        (leBytes 4 (ringCtrlWord s ||| fld 26 2 ||| fld 20 k.toNat ||| fld 0 key.toNat).toNat) s) := by
  refine ⟨_, execAdopt_eq hu k key, fun hm hforeign hkey => ?_, fun h => ?_⟩
  · simp only [ringAction, hm, hforeign, hkey, Bool.not_true, Bool.false_eq_true, if_false, Nat.reduceEqDiff,
      decide_false, Bool.false_and, beq_self_eq_true, Bool.and_self, decide_true, if_true]
    exact ⟨(rollEvent_tables _).1, fun hrun hroll => rollEvent_rollSeq (s := { s with ring := { s.ring with
      adopt := some ((s.ring.nodes.get k.toFin).fabricId, (s.ring.nodes.get k.toFin).node) } }) hrun hroll⟩
  · simp only [ringAction]
    rcases h with h | h | h <;> simp [h, ringRefused]

/-! ## Roll calls start (R481, R483) -/

/-- A command of the manager that calls for a roll call. -/
theorem starts_rollCall {c : Instr} {s : State} (hc : exec c s = .next (rollEvent s)) (hrun : rollsRun s = true) :
    (s.ring.roll = none → reaches c s fun t =>
      t = { s with ring := t.ring, log := t.log, ledger := t.ledger } ∧ t.ring.rollSeq = s.ring.rollSeq + 1 ∧
      t.ring.nonce = some (s.clk.tick.truncate 16) ∧ t.ring.roll = some { start := s.clk.tick.toNat } ∧
      t.ring.rollAgain = false ∧ t.ring.nodes = s.ring.nodes) ∧
    (s.ring.roll.isSome = true → reaches c s fun t => t = { s with ring := { s.ring with rollAgain := true } }) := by
  refine ⟨fun hroll => ⟨_, hc, rollEvent_writes s, ?_⟩, fun hroll => ⟨_, hc, rollEvent_again hrun hroll⟩⟩
  rw [rollEvent_starts hrun hroll, rollStart_ring]
  exact ⟨rfl, rfl, rfl, rfl, rfl⟩

theorem execRollNow_eq {s : State} (hu : unitsUp s = true) : exec .rollNow s =
    .next (if isManager s then rollEvent s else ringRefused (ringCtrlWord s ||| flg 29 true) s) :=
  congrArg Host.Outcome.next ((if_pos hu).trans (ringCtrlWrite_rollNow s))

theorem rollsRun_units {s : State} (h : rollsRun s = true) : unitsUp s = true := by
  simp only [rollsRun, Bool.and_eq_true] at h
  exact h.1.1.1.1

theorem rollsRun_worker {s : State} (h : isManager s = false) : rollsRun s = false := by simp [rollsRun, h]

theorem rollsRun_accepted (fb : Bool) (s : State) : rollsRun (accepted fb s) = rollsRun s :=
  rollsRun_congr (by rw [accepted_writes])

/-! ## ROLL_CALL, ROLL_ANSWER and ROLL_ACK on the manager (R483, R485, R487) -/

/-- What an accepted packet of the manager makes of the ring interface, where its effect touches that alone. -/
theorem creditBack_onRing {u : State} {r : Ring} {s : State} {fb : Bool} (hu : u = { accepted fb s with ring := r })
    (ch : Fin 3) (n : Nat) : creditBack fb ch n u = { s with ring := (creditBack fb ch n u).ring } ∧
      (creditBack fb ch n u).ring =
        { r with fa := (creditBack fb ch n u).ring.fa, fb := (creditBack fb ch n u).ring.fb } := by
  refine ⟨?_, ?_⟩
  · rw [creditBack_writes, hu, accepted_writes]
  · rw [creditBack_ring, hu]

theorem rollCall_returns {fb : Bool} {p : Pkt} {s : State} (hm : isManager s = true) (h : inOrder fb 0x01 p s) {r : Roll}
    (hnonce : s.ring.nonce = some ((flit p 1).truncate 16)) (hroll : s.ring.roll = some r) (hacks : r.acks = none) :
    reaches (.rollCall fb p) s fun t => t = { s with ring := t.ring } ∧
      t.ring.roll = some { r with returned := some ((flit p 1).extractLsb' 16 4).toNat } := by
  have hexec : exec (.rollCall fb p) s = received fb 0x01 p (rollCallManager fb p) s := if_pos hm
  rw [received_manager hm h] at hexec
  have hact : rollCallManager fb p (accepted fb s) = { accepted fb s with ring := { (accepted fb s).ring with
      roll := some { r with returned := some ((flit p 1).extractLsb' 16 4).toNat } } } := by
    have hnonce' : (accepted fb s).ring.nonce = some ((flit p 1).truncate 16) := by rw [accepted_ring]; exact hnonce
    have hroll' : (accepted fb s).ring.roll = some r := by rw [accepted_ring]; exact hroll
    simp only [rollCallManager, hnonce', hroll', hacks, beq_self_eq_true, if_true, Option.isNone_none]
    rw [BitVec.extractLsb'_toNat]
    rfl
  obtain ⟨hwrites, hring⟩ := creditBack_onRing hact p.ch p.flits.length
  refine ⟨_, hexec, hwrites, ?_⟩
  rw [hring]

theorem rollCall_meetsManager {fb : Bool} {p : Pkt} {s : State} (hm : isManager s = true) (h : inOrder fb 0x01 p s)
    (hnonce : s.ring.nonce ≠ some ((flit p 1).truncate 16)) (hagain : s.ring.rollAgain = false) :
    reaches (.rollCall fb p) s fun t =>
      t.ring.roll = none ∧ t.ring.shape = 3 ∧ t.ring.twoManagers = true ∧ t.ring.nodes = s.ring.nodes := by
  have hexec : exec (.rollCall fb p) s = received fb 0x01 p (rollCallManager fb p) s := if_pos hm
  rw [received_manager hm h] at hexec
  refine ⟨_, hexec, ?_⟩
  have hnonce' : ¬((accepted fb s).ring.nonce == some ((flit p 1).truncate 16 : Half)) = true := by
    rw [accepted_ring]
    simpa using hnonce
  have hagain' : (accepted fb s).ring.rollAgain = false := by rw [accepted_ring]; exact hagain
  dsimp only
  rw [creditBack_ring]
  simp only [rollCallManager, if_neg hnonce', hagain', Bool.false_eq_true, if_false, irqSet_ring]
  rw [(ringQuiet_logRec ..).1]
  exact ⟨rfl, rfl, rfl, by rw [accepted_ring]⟩

theorem rollAnswer_collects {fb : Bool} {p : Pkt} {rtt : Half} {r : Roll} {s : State} (hm : isManager s = true)
    (h : inOrder fb 0x02 p s) (hroll : s.ring.roll = some r) (hacks : r.acks = none) :
    reaches (.rollAnswer fb p rtt) s fun t => t = { s with ring := t.ring } ∧ ∃ a : Answer,
      t.ring.roll = some { r with answers := r.answers ++ [a] } ∧ a.side = fb ∧ a.hops = (flit p 1).extractLsb' 4 4 ∧
      a.node = (flit p 1).extractLsb' 0 4 ∧ a.fabricId = flit p 0 ∧ a.last = (flit p 1).getLsbD 9 ∧ a.rtt = rtt := by
  refine ⟨_, received_onManager hm h _, ?_⟩
  have hroll' : (accepted fb s).ring.roll = some r := by rw [accepted_ring]; exact hroll
  dsimp only
  simp only [hroll', hacks, Option.isNone_none, if_true]
  obtain ⟨hwrites, hring⟩ := creditBack_onRing (fb := fb) (s := s) rfl p.ch p.flits.length
  refine ⟨hwrites, ?_⟩
  rw [hring]
  exact ⟨_, rfl, rfl, rfl, rfl, rfl, rfl, rfl⟩

/-- The state in which a ROLL_ACK has been taken. -/
def acked (r : Roll) (l : List (BitVec 4)) (s : State) : State :=
  { s with ring := { s.ring with roll := some { r with acks := some l } } }

theorem execRollAck_eq {fb : Bool} {p : Pkt} {r : Roll} {l : List (BitVec 4)} {s : State} (hm : isManager s = true)
    (h : inOrder fb 0x04 p s) (hroll : s.ring.roll = some r) (hacks : r.acks = some l) :
    exec (.rollAck fb p) s = .next (creditBack fb p.ch p.flits.length
      (if (l.erase p.src).isEmpty then rollFinish (acked r (l.erase p.src) (accepted fb s))
        else acked r (l.erase p.src) (accepted fb s))) := by
  have hroll' : (accepted fb s).ring.roll = some r := by rw [accepted_ring]; exact hroll
  refine (received_onManager hm h _).trans ?_
  simp only [hroll', hacks]
  rfl

theorem rollAck_waits {fb : Bool} {p : Pkt} {r : Roll} {l : List (BitVec 4)} {s : State} (hm : isManager s = true)
    (h : inOrder fb 0x04 p s) (hroll : s.ring.roll = some r) (hacks : r.acks = some l) (hmore : l.erase p.src ≠ []) :
    reaches (.rollAck fb p) s fun t => t = { s with ring := t.ring } ∧
      t.ring.roll = some { r with acks := some (l.erase p.src) } := by
  have hexec := execRollAck_eq hm h hroll hacks
  rw [if_neg (by simpa using hmore)] at hexec
  obtain ⟨hwrites, hring⟩ := creditBack_onRing (fb := fb) (s := s) (u := acked r (l.erase p.src) (accepted fb s)) rfl
    p.ch p.flits.length
  exact ⟨_, hexec, hwrites, by rw [hring]⟩

/-! ## ROLL_CALL on a worker (R480, R483) -/

/-- A worker that takes its hops and port from a ROLL_CALL, before it answers. -/
def towardManager (fb : Bool) (p : Pkt) (s : State) : State :=
  { s with ring := { s.ring with toward := fb, hops := BitVec.ofNat 4 (dbits (flit p 1) 19 16 + 1), fabric := flit p 0 } }

/-- The second flit of a worker's answer holds its hops in bits 7 to 4. -/
theorem answer_hops (node hops : BitVec 4) (fb last level0 : Bool) (rev ports : Byte) :
    (BitVec.ofNat 64 (node.toNat + hops.toNat * 2 ^ 4 + (if fb then 2 ^ 8 else 0) + (if last then 2 ^ 9 else 0)
      + (if level0 then 2 ^ 10 else 0) + rev.toNat * 2 ^ 16 + ports.toNat * 2 ^ 24)).extractLsb' 4 4 = hops := by
  have hnode := node.isLt
  have hhops := hops.isLt
  have hrev := rev.isLt
  have hports := ports.isLt
  apply BitVec.eq_of_toNat_eq
  rw [BitVec.extractLsb'_toNat, BitVec.toNat_ofNat]
  cases fb <;> cases last <;> cases level0 <;> simp [Nat.shiftRight_eq_div_pow] <;> omega

/-- The answer of a worker stands on the port that the ROLL_CALL came by. -/
theorem rollCallWorker_answers {fb : Bool} {p : Pkt} {s : State} (hup : (rport fb s).link = .up) :
    ringQuiet (towardManager fb p s) (rollCallWorker fb p s) ∧
    ∃ x : Packet, standing fb x (rollCallWorker fb p s) ∧ x.kind = 0x02 ∧ x.p.dst = 0 ∧ x.p.src = s.ident.node ∧
      flit x.p 0 = s.ident.fabricId ∧ (flit x.p 1).extractLsb' 4 4 = (flit p 1).extractLsb' 16 4 + 1 := by
  refine ⟨ringQuiet_sendUp .., ?_⟩
  have hstands := standing_ringSend fb { kind := 0x02, classC := false, p := {
    ch := 0, dst := 0, src := s.ident.node, epoch := s.ring.epoch, tag := 0, arg := 0, flits := [s.ident.fabricId,
      BitVec.ofNat 64 (s.ident.node.toNat + (BitVec.ofNat 4 (dbits (flit p 1) 19 16 + 1)).toNat * 2 ^ 4
        + (if fb then 2 ^ 8 else 0) + (if (rport (!fb) (towardManager fb p s)).link != .up then 2 ^ 9 else 0)
        + (if s.restart.level == .level0 then 2 ^ 10 else 0) + Config.revCode.toNat * 2 ^ 16
        + (cardMask s).toNat * 2 ^ 24)] } } (towardManager fb p s) hup
  refine ⟨_, hstands, rfl, rfl, rfl, rfl, ?_⟩
  refine (answer_hops ..).trans ?_
  apply BitVec.eq_of_toNat_eq
  rw [BitVec.toNat_ofNat, BitVec.toNat_add, BitVec.extractLsb'_toNat]
  simp [dbits]

theorem rollCallWorker_writes (fb : Bool) (p : Pkt) (s : State) : rollCallWorker fb p s = { s with
    ring := (rollCallWorker fb p s).ring, log := (rollCallWorker fb p s).log, ledger := (rollCallWorker fb p s).ledger } := by
  apply State.ext <;> simp [rollCallWorker]

theorem standing_of_idle {b : Bool} {x : Packet} {s t : State} (h : Idle b s t) (hs : standing b x s) : standing b x t := by
  simpa only [standing, h.1, h.2] using hs

theorem rollCall_answered {fb : Bool} {p : Pkt} {s : State} (hm : isManager s = false) (hb : p.bcast = true)
    (h : inOrder fb 0x01 p s) : reaches (.rollCall fb p) s fun t =>
      t = { s with ring := t.ring, log := t.log, ledger := t.ledger } ∧ t.ring.toward = fb ∧
      t.ring.hops = (flit p 1).extractLsb' 16 4 + 1 ∧ t.ring.fabric = flit p 0 ∧
      sentOn fb 0x02 (fun x => x.dst = 0 ∧ x.src = s.ident.node ∧ flit x 0 = s.ident.fabricId ∧
        (flit x 1).extractLsb' 4 4 = (flit p 1).extractLsb' 16 4 + 1) t := by
  have hon : inOrder fb 0x01 (rollCallOn p) s := by
    obtain ⟨hu, hup, hseq, hlen⟩ := h
    exact ⟨hu, hup, hseq, by simpa [rollCallOn] using hlen⟩
  have hexec : exec (.rollCall fb p) s =
      .next (forward fb 0x01 (rollCallOn p) (rollCallWorker fb p (accepted fb s))) := by
    refine (if_neg (by simp [hm])).trans (congrArg Host.Outcome.next ((if_pos (by simp [h.1, h.2.1])).trans ?_))
    exact receive_broadcast (p := rollCallOn p) hm hb hon _
  have hup : (rport fb (accepted fb s)).link = .up := by rw [accepted_port]; exact h.2.1
  obtain ⟨hquiet, x, hstands, hkind, hdst, hsrc, hfabric, hhops⟩ := rollCallWorker_answers (p := p) hup
  have hring := (ringQuiet_trans hquiet (ringQuiet_forward fb 0x01 (rollCallOn p) _)).1
  have hstands' := standing_of_idle (forward_idle fb 0x01 (rollCallOn p) _) hstands
  refine ⟨_, hexec, ?_, ?_, ?_, ?_, ?_⟩
  · rw [forward_writes, rollCallWorker_writes, accepted_writes]
  · rw [hring]
    rfl
  · rw [hring]
    apply BitVec.eq_of_toNat_eq
    simp [towardManager, dbits, BitVec.toNat_add]
  · rw [hring]
    rfl
  · rw [← hkind]
    exact hstands'.sentOn fun n => ⟨hdst, hsrc.trans (by rw [accepted_writes]), hfabric.trans (by rw [accepted_writes]), hhops⟩

/-! ## ROLL_ASSIGN, LINK_NOTE and the collection that is not over (R483, R485) -/

theorem rollAssign_commits {fb : Bool} {p : Pkt} {s : State} (hw : forWorker p s) (h : inOrder fb 0x03 p s)
    (hlost : s.restart.nvcfgLost = false) : reaches (.rollAssign fb p) s fun t =>
      t.nv.commits = s.nv.commits ++ [.assign (flit p 0) ((flit p 1).extractLsb' 0 4) p.tag] ∧
      t = { s with ident := t.ident, nv := t.nv, skb := t.skb, ring := t.ring } := by
  refine ⟨_, received_onWorker hw h _, ?_⟩
  rw [nvCommit_writes (by rw [accepted_writes]; exact hlost)
    (by rw [accepted_writes]; exact notFailstop_of_unitsUp h.1), creditBack_writes]
  refine ⟨?_, ?_⟩
  · rw [accepted_writes]
    rfl
  · rw [accepted_writes]

theorem linkNote_rolls {fb : Bool} {p : Pkt} {s : State} (h : inOrder fb 0x06 p s) (hrun : rollsRun s = true) :
    reaches (.linkNote fb p) s fun t =>
      (s.ring.roll = none → t.ring.rollSeq = s.ring.rollSeq + 1 ∧ t.ring.roll = some { start := s.clk.tick.toNat }) ∧
      (s.ring.roll.isSome = true → t.ring.rollAgain = true ∧ t.ring.rollSeq = s.ring.rollSeq ∧ t.ring.roll = s.ring.roll) := by
  have hrun' := (rollsRun_accepted fb s).trans hrun
  have htick : (accepted fb s).clk.tick = s.clk.tick := by rw [accepted_writes]
  refine ⟨_, received_onManager (rollsRun_manager hrun) h _, fun hroll => ?_, fun hroll => ?_⟩
  · rw [creditBack_ring, rollEvent_starts hrun' (by rw [accepted_ring]; exact hroll), rollStart_ring, htick, accepted_ring]
    exact ⟨rfl, rfl⟩
  · rw [creditBack_ring, rollEvent_again hrun' (by rw [accepted_ring]; exact hroll), accepted_ring]
    exact ⟨rfl, rfl, rfl⟩

end Sys2Proof.Machine
end

section
/-! The end of a roll call: the entries of the nodes, and ROLL_DONE (R483, R485, R489, R497). -/
namespace Sys2Proof.Machine
open Sys2Proof.Safety

/-! ## Entries (R489, R497) -/

theorem nodesNumbered_get {r : Roll} {s : State} {k : Fin 16} (hk : k ≠ 0) {n : Numbered}
    (hfind : r.plan.find? (fun n => n.out == .worker && n.node.toNat == k.val) = some n) :
    (nodesNumbered r s).get k =
      ((s.ring.nodes.get k).seen n s.ident.fabricId s.ring.rollSeq).freeResends (s.freeCtr + 2 * k.val) := by
  have hval : k.val ≠ 0 := fun h => hk (Fin.ext h)
  rw [Vector.get_eq_getElem, nodesNumbered, Vector.getElem_ofFn]
  rw [if_neg (by exact hval)]
  simp only [Fin.eta, hfind]

theorem nodesNumbered_zero (r : Roll) (s : State) : ((nodesNumbered r s).get 0).status = .none := by
  rw [Vector.get_eq_getElem, nodesNumbered, Vector.getElem_ofFn]
  rfl

/-- The nodes without a number take free entries alone, and never entry 0. -/
theorem nodesOther_get (r : Roll) (epoch : Byte) (i : Nat) (t : Vector RNode 16) {k : Fin 16}
    (hk : k = 0 ∨ (t.get k).status ≠ .none) : (nodesOther r epoch i t).get k = t.get k := by
  refine List.foldlRecOn (motive := fun u : Vector RNode 16 => u.get k = t.get k) _ _ rfl fun u hu n _ => ?_
  split
  next j hj =>
    have hj' := List.find?_some hj
    simp only [decide_not, Bool.and_eq_true, Bool.not_eq_true', decide_eq_false_iff_not, beq_iff_eq] at hj'
    refine (vector_get_set ..).trans ((if_neg fun hjk => ?_).trans hu)
    subst hjk
    rcases hk with rfl | hk
    · exact hj'.1 rfl
    · exact hk (hu ▸ hj'.2)
  · exact hu

/-! ## Nodes without ACTIVE members (R340) -/

theorem nodeOf_index {k : BitVec 4} (p : Fin 8) : nodeOf (Fin.ofNat 128 (8 * k.toNat + p.val)) = k := by
  have hk := k.isLt
  have hp := p.isLt
  apply BitVec.eq_of_toNat_eq
  simp only [nodeOf, BitVec.toNat_ofNat, Fin.ofNat]
  omega

theorem nodeLost_idle {k : BitVec 4} {s : State}
    (h : ∀ p : Fin 8, (memGet (Fin.ofNat 128 (8 * k.toNat + p.val)) s).state ≠ .active) : nodeLost k s = s := by
  refine List.foldlRecOn (motive := fun u => u = s) _ _ rfl fun u hu p _ => ?_
  subst hu
  exact if_neg (by simpa using h p)

theorem foldl_nodeLost_idle {l : List (BitVec 4)} {s : State}
    (h : ∀ k ∈ l, ∀ p : Fin 8, (memGet (Fin.ofNat 128 (8 * k.toNat + p.val)) s).state ≠ .active) :
    l.foldl (fun s k => nodeLost k s) s = s := by
  induction l with
  | nil => rfl
  | cons k l ih =>
    rw [List.foldl_cons, nodeLost_idle (h k (List.mem_cons_self ..))]
    exact ih fun j hj => h j (List.mem_cons_of_mem _ hj)

theorem reissueAll_none {s : State} (h : s.ring.reqs = []) :
    reissueAll s = { s with ring := { s.ring with reqs := [] } } := by
  simp [reissueAll, h]

/-! ## The end of a roll call -/

/-- What goes out on the ring at the end of a roll call touches nothing else that it shows. -/
def Sends (s t : State) : Prop :=
  ringQuiet s t ∧ t = { s with ring := t.ring, log := t.log, ledger := t.ledger }

theorem Sends.refl (s : State) : Sends s s := ⟨ringQuiet_refl s, rfl⟩
theorem Sends.trans {s t u : State} (h : Sends s t) (k : Sends t u) : Sends s u :=
  ⟨ringQuiet_trans h.1 k.1, by rw [k.2, h.2]⟩

theorem sendTo_sends (k : BitVec 4) (kind : Byte) (p : Pkt) (c : Bool) (s : State) : Sends s (sendTo k kind p c s) :=
  ⟨ringQuiet_sendTo .., by apply State.ext <;> simp⟩

theorem ringSend_sends (fb : Bool) (p : Packet) (s : State) : Sends s (ringSend fb p s) :=
  ⟨ringQuiet_ringSend .., ringSend_writes ..⟩

theorem broadcast_sends (kind : Byte) (f : Bool → List Dword) (s : State) : Sends s (broadcast kind f s) :=
  ⟨ringQuiet_broadcast .., by apply State.ext <;> simp⟩

theorem irqSet_sends (b : Nat) (s : State) : Sends s (irqSet b s) := ⟨ringQuiet_of_ring rfl, rfl⟩

theorem foldl_sends {α : Type} (g : State → α → State) (h : ∀ s a, Sends s (g s a)) (l : List α) (s : State) :
    Sends s (l.foldl g s) :=
  List.foldlRecOn (motive := Sends s) l g (.refl s) fun u hu a _ => hu.trans (h u a)

theorem refForward_sends (e : Nat) (s : State) : Sends s (refForward e s) :=
  foldl_sends _ (fun _ _ => sendTo_sends ..) _ s

theorem sendAssign_sends (n : Numbered) (s : State) : Sends s (sendAssign n s) := ringSend_sends ..

/-- SHAPE at the end of a roll call. -/
def rollShape (r : Roll) : BitVec 2 := if r.returned.isSome then 1 else if r.answers.isEmpty then 0 else 2

/-- The entries of the nodes at the end of a roll call. -/
def rollNodes (r : Roll) (s : State) : Vector RNode 16 :=
  nodesOther r s.ring.rollSeq s.freeCtr (nodesNumbered r s)

/-- The state at the end of a roll call, before ROLL_DONE goes out. -/
def rollEnded (r : Roll) (s : State) : State :=
  { s with
    power := { s.power with
      asleep := s.power.asleep.filter fun k => !(r.plan.any fun n => n.out == .worker && n.node == k) }
    freeCtr := s.freeCtr + 32
    ring := { s.ring with
      shape := rollShape r, twoManagers := false, nodes := rollNodes r s, roll := none, rollAgain := false
      adopt := if s.ring.rollAgain then s.ring.adopt else none
      workers := BitVec.ofNat 4 (r.plan.filter fun n => n.out == .worker).length
      unreach := BitVec.ofNat 4 ((rollNodes r s).toList.filter fun n => n.status == .unreachable).length } }

/-- ROLL_DONE and the REFEREE entries have gone out. -/
def rollTold (r : Roll) (s : State) : State :=
  (List.range 10).foldl (fun s e => refForward e s)
    (irqSet irqRing (broadcast 0x05 (fun _ => [BitVec.ofNat 64 (rollShape r).toNat]) (rollEnded r s)))

theorem rollEnded_members (r : Roll) (s : State) : (rollEnded r s).members = s.members := rfl

theorem rollTold_sends (r : Roll) (s : State) : Sends (rollEnded r s) (rollTold r s) :=
  ((broadcast_sends ..).trans (irqSet_sends ..)).trans (foldl_sends _ (fun s e => refForward_sends e s) _ _)

/-- The nodes that read UNREACHABLE. -/
def lostNodes (s : State) : List (BitVec 4) :=
  ((List.range 16).map (BitVec.ofNat 4)).filter fun k => (s.ring.nodes.get k.toFin).status == .unreachable

theorem rollFinish_eq {r : Roll} {s : State} (hroll : s.ring.roll = some r) (hagain : s.ring.rollAgain = false) :
    rollFinish s = reissueAll ((lostNodes (rollTold r s)).foldl (fun s k => nodeLost k s) (rollTold r s)) := by
  unfold rollFinish
  rw [hroll]
  dsimp -zeta only
  extract_lets shape again nodes back _ asleep _ ended told done lost last
  have hended : ended = rollEnded r s := rfl
  have htold : done = rollTold r s := by
    simp only [done, told, hended]
    rfl
  rw [if_neg (by exact ne_true_of_eq_false hagain)]
  simp only [last, lost, htold]
  rfl

/-- Entry 0 is the manager's own. -/
theorem rollNodes_zero (r : Roll) (s : State) : ((rollNodes r s).get 0).status = .none := by
  rw [rollNodes, nodesOther_get r _ _ _ (.inl rfl), nodesNumbered_zero]

/-- The entry of a numbered worker at the end of its roll call. -/
theorem rollNodes_worker {r : Roll} {s : State} {k : Fin 16} (hk : k ≠ 0) {n : Numbered}
    (hfind : r.plan.find? (fun n => n.out == .worker && n.node.toNat == k.val) = some n) :
    ((rollNodes r s).get k).status = .worker ∧ ((rollNodes r s).get k).hopsA = n.hopsA ∧
      ((rollNodes r s).get k).hopsB = n.hopsB ∧ ((rollNodes r s).get k).fabricId = s.ident.fabricId := by
  have hout : n.out = .worker := by
    have h := List.find?_some hfind
    simp only [Bool.and_eq_true, beq_iff_eq] at h
    exact h.1
  have hnumbered := nodesNumbered_get hk (s := s) hfind
  have hother : (rollNodes r s).get k = (nodesNumbered r s).get k :=
    nodesOther_get r _ _ _ (.inr (by simp [hnumbered, RNode.freeResends, RNode.seen, hout]))
  rw [hother, hnumbered]
  exact ⟨hout, rfl, rfl, if_pos (by simp [hout])⟩

theorem rollTold_members (r : Roll) (s : State) : (rollTold r s).members = s.members := by
  rw [(rollTold_sends r s).2, rollEnded_members]

theorem rollTold_nodes (r : Roll) (s : State) : (rollTold r s).ring.nodes = rollNodes r s := by
  rw [(rollTold_sends r s).1.1]
  rfl

/-- The manager is not lost. -/
theorem lostNodes_worker {r : Roll} {s : State} {k : BitVec 4} (hk : k ∈ lostNodes (rollTold r s)) : k ≠ 0 := by
  rintro rfl
  have hlost := (List.mem_filter.mp hk).2
  rw [rollTold_nodes, show (0 : BitVec 4).toFin = 0 from rfl, rollNodes_zero] at hlost
  exact absurd hlost (by decide)

/-- A node that reads UNREACHABLE after a roll call has no ACTIVE member where no worker has one. -/
theorem lostNodes_idle {r : Roll} {s : State} (hidle : ∀ m, (memGet m s).state = .active → nodeOf m = 0) {k : BitVec 4}
    (hk : k ∈ lostNodes (rollTold r s)) (p : Fin 8) :
    (memGet (Fin.ofNat 128 (8 * k.toNat + p.val)) (rollTold r s)).state ≠ .active := by
  rw [memGet_congr (h := rollTold_members r s)]
  exact fun hactive => lostNodes_worker hk ((nodeOf_index p).symm.trans (hidle _ hactive))

/-- A roll call that ends with no request out and no worker's member ACTIVE. -/
theorem rollFinish_numbers {r : Roll} {s : State} (hroll : s.ring.roll = some r) (hagain : s.ring.rollAgain = false)
    (hreqs : s.ring.reqs = []) (hidle : ∀ m, (memGet m s).state = .active → nodeOf m = 0) :
    numberedBy r s (rollFinish s) := by
  obtain ⟨hquiet, hwrites⟩ := rollTold_sends r s
  have hring := hquiet.1
  have hnone : (rollTold r s).ring.reqs = [] := by
    rw [hring]
    exact hreqs
  rw [rollFinish_eq hroll hagain, foldl_nodeLost_idle (fun _ hk p => lostNodes_idle hidle hk p), reissueAll_none hnone]
  simp only [numberedBy]
  rw [hring]
  refine ⟨rfl, rfl, rfl, if_neg (ne_true_of_eq_false hagain), rfl, rfl, fun k hk n hfind => rollNodes_worker hk hfind, ?_, ?_⟩
  · rw [hwrites]
    rfl
  · rw [hwrites]
    rfl

/-- What the outcome of a roll call says of the states before and after. -/
theorem numberedBy_congr {r : Roll} {s s' t t' : State} (h : numberedBy r s t) (hseq : s.ring.rollSeq = s'.ring.rollSeq)
    (hident : s.ident.fabricId = s'.ident.fabricId) (hmembers : s.members = s'.members) (harrs : s.arrs = s'.arrs)
    (hquiet : ringQuiet t t') (tmembers : t'.members = t.members) (tarrs : t'.arrs = t.arrs) : numberedBy r s' t' := by
  simp only [numberedBy, hseq, hident, hmembers, harrs] at h
  simp only [numberedBy]
  rw [hquiet.1, tmembers, tarrs]
  exact h

theorem rollAck_finishes {fb : Bool} {p : Pkt} {r : Roll} {l : List (BitVec 4)} {s : State} (hm : isManager s = true)
    (h : inOrder fb 0x04 p s) (hroll : s.ring.roll = some r) (hacks : r.acks = some l) (hlast : l.erase p.src = [])
    (hagain : s.ring.rollAgain = false) (hreqs : s.ring.reqs = [])
    (hidle : ∀ m, (memGet m s).state = .active → nodeOf m = 0) : reaches (.rollAck fb p) s (numberedBy r s) := by
  have hexec := execRollAck_eq hm h hroll hacks
  rw [hlast, if_pos List.isEmpty_nil] at hexec
  refine ⟨_, hexec, ?_⟩
  have hnumbers : numberedBy r (acked r [] (accepted fb s)) (rollFinish (acked r [] (accepted fb s))) :=
    rollFinish_numbers (r := { r with acks := some [] }) rfl (by rw [acked, accepted_ring]; exact hagain)
      (by rw [acked, accepted_ring]; exact hreqs) (by rw [acked, accepted_writes]; exact hidle)
  refine numberedBy_congr hnumbers ?_ ?_ ?_ ?_ (ringQuiet_creditBack ..) (by simp) (by simp)
  · rw [acked, accepted_ring]
  · rw [acked, accepted_writes]
  · rw [acked, accepted_writes]
  · rw [acked, accepted_writes]

/-! ## ROLL_DONE on a worker (R481, R495) -/

/-- RING_STAT's shape and epoch, and that a ROLL_DONE was seen, stay. -/
def Shows (s t : State) : Prop :=
  t.ring.shape = s.ring.shape ∧ t.ring.doneSeen = s.ring.doneSeen ∧ t.ring.epoch = s.ring.epoch

theorem Shows.refl (s : State) : Shows s s := ⟨rfl, rfl, rfl⟩
theorem Shows.trans {s t u : State} (h : Shows s t) (k : Shows t u) : Shows s u :=
  ⟨k.1.trans h.1, k.2.1.trans h.2.1, k.2.2.trans h.2.2⟩
theorem Shows.of_ring {s t : State} (h : t.ring = s.ring) : Shows s t := by
  simp only [Shows, h, and_self]
theorem ringQuiet.shows {s t : State} (h : ringQuiet s t) : Shows s t := by
  rw [Shows, h.1]
  exact ⟨rfl, rfl, rfl⟩
theorem foldl_shows {α : Type} (g : State → α → State) (h : ∀ s a, Shows s (g s a)) (l : List α) (s : State) :
    Shows s (l.foldl g s) :=
  List.foldlRecOn (motive := Shows s) l g (.refl s) fun u hu a _ => hu.trans (h u a)

theorem allocPages_ring (n : Nat) (s : State) : (allocPages n s).2.ring = s.ring := by
  induction n generalizing s with
  | zero => rfl
  | succ n ih =>
    rw [allocPages]
    split
    · rfl
    next q r hpage =>
      obtain ⟨_, -, hr⟩ := Option.map_eq_some_iff.mp hpage
      have hring : r.ring = s.ring := by
        rw [← (Prod.mk.inj hr).2]
      exact (ih r).trans hring

theorem forcedUpdate_ring (s : State) : (forcedUpdate s).ring = s.ring := by
  obtain ⟨_, _, _, heq⟩ := forcedUpdate_writes s
  rw [heq]

theorem land_shows (v : Served) (s : State) : Shows s (land v s) := by
  simp only [land]
  split
  · exact .refl s
  · have hprog (l : List Nat) (u : State) : Shows u (l.foldl (fun s _ => progReq (.land v.tag v.epoch false) s) u) :=
      foldl_shows _ (fun u _ => .of_ring (progReq_ring ..)) l u
    have hput (a b : Served) (u : State) : Shows u (servedPut a b u) := ⟨rfl, rfl, rfl⟩
    refine Shows.trans ?_ (.of_ring ((forcedUpdate_ring _).trans (progReq_ring ..)))
    refine Shows.trans ?_ (hprog _ _)
    refine Shows.trans ?_ (hput _ _ _)
    exact .of_ring ((allocPages_ring ..).trans (poolTake_ring ..))

theorem orderAck_shows (s : State) : Shows s (orderAck s) := by
  simp only [orderAck]
  split
  · split
    · exact (ringQuiet_sendUp ..).shows
    · exact .refl s
  · exact .refl s

theorem servedDrop_shows (v : Served) (s : State) : Shows s (servedDrop v s) := by
  refine Shows.trans (Shows.trans ?_ (foldl_shows _ (fun u w => land_shows w u) _ _)) (orderAck_shows _)
  exact Shows.trans (t := { s with ring := { s.ring with served := s.ring.served.erase v } }) ⟨rfl, rfl, rfl⟩
    (.of_ring (poolGive_ring ..))

theorem dropEpochs_shows (e : Byte) (s : State) : Shows s (dropEpochs e s) := by
  refine Shows.trans (t := dropOps (fun o => match o.use.work with
    | some (.remote _ f) => f != e
    | some _ | none => false) s) ⟨rfl, rfl, rfl⟩ ?_
  exact (foldl_shows _ (fun u v => servedDrop_shows v u) _ _).trans ⟨rfl, rfl, rfl⟩

theorem memberReport_shows (p : Fin 8) (s : State) : Shows s (memberReport p s) := (ringQuiet_sendUp ..).shows

/-- What a numbered worker does on a ROLL_DONE: it takes the epoch, drops older work and reports its ports. -/
def epochTaken (p : Pkt) (s : State) : State :=
  (List.finRange 8).foldl (fun s p => if (memGet (ownMember p s) s).state == .absent then s else memberReport p s)
    (dropEpochs p.epoch { s with ring := { s.ring with epoch := p.epoch } })

theorem epochTaken_shows (p : Pkt) (s : State) : (epochTaken p s).ring.shape = s.ring.shape ∧
    (epochTaken p s).ring.doneSeen = s.ring.doneSeen ∧ (epochTaken p s).ring.epoch = p.epoch := by
  have h : Shows { s with ring := { s.ring with epoch := p.epoch } } (epochTaken p s) := by
    refine (dropEpochs_shows ..).trans (foldl_shows _ (fun u q => ?_) _ _)
    split
    · exact .refl u
    · exact memberReport_shows q u
  exact ⟨h.1, h.2.1, h.2.2⟩

/-- A ROLL_DONE as every worker enters it. -/
def rollNoted (p : Pkt) (s : State) : State :=
  irqSet irqRing { s with
    freeCtr := s.freeCtr + 1
    ring := { s.ring with
      shape := (flit p 0).truncate 2, workers := (Config.freeWord s.freeCtr 0).extractLsb' 0 4
      unreach := (Config.freeWord s.freeCtr 0).extractLsb' 4 4, doneSeen := true } }

theorem rollDone_eq (p : Pkt) (s : State) :
    rollDone p s = if numbered s then epochTaken p (rollNoted p s) else rollNoted p s := rfl

theorem rollNoted_ring (p : Pkt) (s : State) : (rollNoted p s).ring.shape = (flit p 0).truncate 2 ∧
    (rollNoted p s).ring.doneSeen = true ∧ (rollNoted p s).ring.epoch = s.ring.epoch := ⟨rfl, rfl, rfl⟩

theorem epochTaken_if (p : Pkt) (b : Bool) (s : State) :
    (if b then epochTaken p s else s).ring.shape = s.ring.shape ∧
    (if b then epochTaken p s else s).ring.doneSeen = s.ring.doneSeen ∧
    (if b then epochTaken p s else s).ring.epoch = if b then p.epoch else s.ring.epoch := by
  cases b with
  | true => simpa only [if_true] using epochTaken_shows p s
  | false => simp only [Bool.false_eq_true, if_false, and_self]

theorem rollDone_shows (p : Pkt) (s : State) : (rollDone p s).ring.shape = (flit p 0).truncate 2 ∧
    (rollDone p s).ring.doneSeen = true ∧
    (rollDone p s).ring.epoch = if numbered s then p.epoch else s.ring.epoch := by
  obtain ⟨h1, h2, h3⟩ := epochTaken_if p (numbered s) (rollNoted p s)
  obtain ⟨n1, n2, n3⟩ := rollNoted_ring p s
  rw [rollDone_eq, h1, h2, h3, n1, n2, n3]
  exact ⟨rfl, rfl, rfl⟩

theorem rollDone_enters {fb : Bool} {p : Pkt} {s : State} (h : inOrder fb 0x05 p s) (hm : isManager s = false)
    (hb : p.bcast = true) : reaches (.rollDone fb p) s fun t =>
      t.ring.shape = (flit p 0).extractLsb' 0 2 ∧ t.ring.doneSeen = true ∧
      t.ring.epoch = if numbered s then p.epoch else s.ring.epoch := by
  have hexec : exec (.rollDone fb p) s = .next (forward fb 0x05 p (rollDone p (accepted fb s))) := by
    rw [← onWorker_accepted hm (rollDone p), ← receive_broadcast hm hb h]
    exact received_inOrder h _
  refine ⟨_, hexec, ?_⟩
  obtain ⟨h1, h2, h3⟩ := rollDone_shows p (accepted fb s)
  obtain ⟨k1, k2, k3⟩ := (ringQuiet_forward fb 0x05 p (rollDone p (accepted fb s))).shows
  have hnumbered : numbered (accepted fb s) = numbered s := by
    rw [numbered, accepted_ring, accepted_writes]
    rfl
  refine ⟨(k1.trans h1).trans ?_, k2.trans h2, (k3.trans h3).trans ?_⟩
  · apply BitVec.eq_of_toNat_eq
    simp
  · rw [hnumbered, accepted_ring]

/-! ## The end of the collection (R483, R485, R486) -/

/-- The roster with every numbered worker. -/
def rosterWith (plan : List Numbered) (t : Vector Bool 16) : Vector Bool 16 :=
  plan.foldl (fun t n => if n.out == .worker then t.set n.node.toFin true else t) t

theorem rosterWith_get (plan : List Numbered) (t : Vector Bool 16) (k : Fin 16) : (rosterWith plan t).get k =
    (t.get k || plan.any fun n => n.out == .worker && n.node.toFin == k) := by
  induction plan generalizing t with
  | nil => simp [rosterWith]
  | cons n l ih =>
    refine (ih _).trans ?_
    rw [List.any_cons, ← Bool.or_assoc]
    congr 1
    change (if (n.out == .worker) = true then t.set n.node.toFin true else t).get k = _
    split
    next hn =>
      rw [vector_get_set, hn]
      by_cases hk : n.node.toFin = k
      · rw [if_pos hk, hk, beq_self_eq_true, Bool.and_self, Bool.or_true]
      · rw [if_neg hk, beq_false_of_ne hk, Bool.and_false, Bool.or_false]
    next hn => rw [eq_false_of_ne_true hn, Bool.false_and, Bool.or_false]

/-- The notes of the workers that get no number. -/
def fullNotes (plan : List Numbered) (s : State) : State :=
  plan.foldl (fun s n => if n.out == .unnumbered then
    logRec .rollFull [BitVec.ofNat 8 n.path.2.toNat, if n.path.1 then 1 else 0] s else s) s

/-- The roster is committed where the roll call changes it. -/
def rosterKept (plan : List Numbered) (s : State) : State :=
  if rosterWith plan s.roster = s.roster then s
  else nvCommit .keep { s with roster := rosterWith plan s.roster }

/-- The workers that need ROLL_ASSIGN. -/
def toAssign (plan : List Numbered) (fid : Dword) : List Numbered := plan.filter fun n => n.assigned fid

/-- The state with every worker numbered, before ROLL_ASSIGN goes out. -/
def planned (r : Roll) (plan : List Numbered) (s : State) : State :=
  acked { r with plan := plan } ((toAssign plan s.ident.fabricId).map (·.node)) (rosterKept plan (fullNotes plan s))

theorem rollCollectEnd_eq {r : Roll} {s : State} (hroll : s.ring.roll = some r) (hacks : r.acks = none)
    (hfid : s.ident.fabricId ≠ 0) {plan : List Numbered}
    (hplan : plan = numberAll s.ident.fabricId s.roster s.ring.adopt [] (r.found.filter fun f => !excluded r f.1 s)) :
    rollCollectEnd s =
      (if (toAssign plan s.ident.fabricId).isEmpty then
        rollFinish ((toAssign plan s.ident.fabricId).foldl (fun s n => sendAssign n s) (planned r plan s))
      else (toAssign plan s.ident.fabricId).foldl (fun s n => sendAssign n s) (planned r plan s)) := by
  unfold rollCollectEnd
  rw [hroll]
  dsimp -zeta only
  rw [if_neg (by simp [hacks])]
  extract_lets found made fid plan' noted roster kept todo old told sent
  have hmade : made = s := if_neg (by rw [beq_false_of_ne hfid, Bool.and_false]; exact Bool.false_ne_true)
  have hplan' : plan' = plan := by
    rw [hplan]
    simp only [plan', fid, hmade]
    rfl
  have hnoted : noted = fullNotes plan s := by
    simp only [noted, hmade, hplan']
    rfl
  have hkept : kept = rosterKept plan (fullNotes plan s) := by
    simp only [kept, roster, hnoted, hplan']
    rfl
  have htodo : todo = toAssign plan s.ident.fabricId := by
    simp only [todo, fid, hmade, hplan']
    rfl
  have htold : told = planned r plan s := by
    simp only [told, old, hkept, htodo, hplan']
    rfl
  simp only [sent, htold, htodo]

/-- What the numbering of the workers keeps, before ROLL_ASSIGN goes out. -/
def Noted (s t : State) : Prop :=
  ringQuiet s t ∧ t.members = s.members ∧ t.arrs = s.arrs ∧ t.ident.fabricId = s.ident.fabricId

theorem Noted.trans {s t u : State} (h : Noted s t) (k : Noted t u) : Noted s u :=
  ⟨ringQuiet_trans h.1 k.1, k.2.1.trans h.2.1, k.2.2.1.trans h.2.2.1, k.2.2.2.trans h.2.2.2⟩

theorem fullNotes_noted (plan : List Numbered) (s : State) :
    Noted s (fullNotes plan s) ∧ (fullNotes plan s).roster = s.roster := by
  refine List.foldlRecOn (motive := fun u => Noted s u ∧ u.roster = s.roster) plan _
    ⟨⟨ringQuiet_refl s, rfl, rfl, rfl⟩, rfl⟩ fun u hu n _ => ?_
  split
  · exact ⟨hu.1.trans ⟨ringQuiet_logRec .., by simp, by simp, by simp⟩, by simp [hu.2]⟩
  · exact hu

theorem fabricMake_same {s : State} (h : s.ident.fabricId ≠ 0) : fabricMake s = s :=
  if_neg (by rw [beq_false_of_ne h, Bool.and_false]; exact Bool.false_ne_true)

/-- A commit of the roster makes no identity where there is one. -/
theorem rosterKept_noted {s : State} (hfid : s.ident.fabricId ≠ 0) (plan : List Numbered) :
    Noted s (rosterKept plan s) ∧ (rosterKept plan s).roster = rosterWith plan s.roster := by
  simp only [rosterKept]
  split
  next hsame => exact ⟨⟨ringQuiet_refl s, rfl, rfl, rfl⟩, hsame.symm⟩
  · have hident : (nvCommit .keep { s with roster := rosterWith plan s.roster }).ident = s.ident := by
      simp only [nvCommit]
      split
      · rfl
      · rw [progReq_ident, fabricMake_same (by exact hfid)]
    refine ⟨⟨?_, ?_, ?_, ?_⟩, ?_⟩
    · exact ringQuiet_trans (ringQuiet_of_ring rfl) (ringQuiet_of_ring (by simp))
    · simp
    · simp
    · rw [hident]
    · simp

theorem planned_keeps (r : Roll) (plan : List Numbered) {s : State} (hfid : s.ident.fabricId ≠ 0) :
    (planned r plan s).members = s.members ∧ (planned r plan s).arrs = s.arrs ∧
    (planned r plan s).ident.fabricId = s.ident.fabricId ∧ (planned r plan s).roster = rosterWith plan s.roster ∧
    (planned r plan s).ring = { s.ring with
      roll := some { r with plan := plan, acks := some ((toAssign plan s.ident.fabricId).map (·.node)) }
      fa := (planned r plan s).ring.fa, fb := (planned r plan s).ring.fb } := by
  obtain ⟨hnotes, hroster⟩ := fullNotes_noted plan s
  obtain ⟨hkept, hwith⟩ := rosterKept_noted (s := fullNotes plan s) (by rw [hnotes.2.2.2]; exact hfid) plan
  obtain ⟨hquiet, hmembers, harrs, hident⟩ := hnotes.trans hkept
  refine ⟨hmembers, harrs, hident, hwith.trans (by rw [hroster]), ?_⟩
  simp only [planned, acked]
  rw [hquiet.1]

theorem rollCallCollectEnd_eq {s : State} (hrun : rollsRun s = true) (hc : collected s = true) :
    exec .rollCallCollectEnd s = .next (rollCollectEnd s) := congrArg Host.Outcome.next (if_pos (by simp [hrun, hc]))

/-- With no ROLL_ASSIGN to send, the roll call ends at once. -/
theorem collectEnd_numbers {r : Roll} {s : State} (hrun : rollsRun s = true) (hc : collected s = true)
    (hroll : s.ring.roll = some r) (hacks : r.acks = none)
    (hfid : s.ident.fabricId ≠ 0) {plan : List Numbered}
    (hplan : plan = numberAll s.ident.fabricId s.roster s.ring.adopt [] (r.found.filter fun f => !excluded r f.1 s))
    (hnone : toAssign plan s.ident.fabricId = []) (hagain : s.ring.rollAgain = false) (hreqs : s.ring.reqs = [])
    (hidle : ∀ m, (memGet m s).state = .active → nodeOf m = 0) :
    reaches .rollCallCollectEnd s (numberedBy { r with plan := plan } s) := by
  have hexec := rollCallCollectEnd_eq hrun hc
  rw [rollCollectEnd_eq hroll hacks hfid hplan, hnone, if_pos List.isEmpty_nil, List.foldl_nil] at hexec
  obtain ⟨hmembers, harrs, hident, -, hring⟩ := planned_keeps r plan hfid
  refine ⟨_, hexec, ?_⟩
  have hnumbers : numberedBy { r with plan := plan } (planned r plan s) (rollFinish (planned r plan s)) :=
    rollFinish_numbers
      (r := { r with plan := plan, acks := some ((toAssign plan s.ident.fabricId).map (·.node)) })
      (by rw [hring]) (by rw [hring]; exact hagain) (by rw [hring]; exact hreqs)
      (fun m => by rw [memGet_congr (h := hmembers)]; exact hidle m)
  exact numberedBy_congr hnumbers (by rw [hring]) hident hmembers harrs (ringQuiet_refl _) rfl rfl

theorem collectEnd_assigns {r : Roll} {s : State} (hrun : rollsRun s = true) (hc : collected s = true)
    (hroll : s.ring.roll = some r) (hacks : r.acks = none)
    (hfid : s.ident.fabricId ≠ 0) {plan : List Numbered}
    (hplan : plan = numberAll s.ident.fabricId s.roster s.ring.adopt [] (r.found.filter fun f => !excluded r f.1 s))
    (hsome : toAssign plan s.ident.fabricId ≠ []) : reaches .rollCallCollectEnd s fun t =>
      t.ring.roll = some { r with plan := plan, acks := some ((toAssign plan s.ident.fabricId).map (·.node)) } ∧
      (∀ k, t.roster.get k = (s.roster.get k || plan.any fun n => n.out == .worker && n.node.toFin == k)) := by
  have hexec := rollCallCollectEnd_eq hrun hc
  rw [rollCollectEnd_eq hroll hacks hfid hplan, if_neg (by simpa using hsome)] at hexec
  obtain ⟨-, -, -, hroster, hring⟩ := planned_keeps r plan hfid
  obtain ⟨hquiet, hwrites⟩ := foldl_sends _ (fun s n => sendAssign_sends n s) (toAssign plan s.ident.fabricId)
    (planned r plan s)
  refine ⟨_, hexec, ?_, fun k => ?_⟩
  · rw [hquiet.1, hring]
  · rw [hwrites, hroster, rosterWith_get]

/-- Settles O54: a roll call from its start to its numbering, and RING_CTRL's actions. -/
theorem rollCallsNumberTheWorkers : Obligations.RollCallsNumberTheWorkers := by
  refine ⟨fun s hrun => ?_, fun s hu hm => ?_, fun s k key hu => ⟨forget_forgets hu k, adopt_adopts hu k key⟩,
    fun s fb p => ⟨fun hm h => ⟨fun r => rollCall_returns hm h, rollCall_meetsManager hm h⟩, rollCall_answered,
      fun r rtt => rollAnswer_collects, fun r l => rollAck_waits, fun r l => rollAck_finishes,
      fun h hw hlost => rollAssign_commits hw h hlost, rollDone_enters, linkNote_rolls⟩,
    fun s hrun hc => ⟨_, rfl, if_neg (by simp [hc])⟩, fun s r hrun hroll hacks hc hfid plan hplan =>
      ⟨collectEnd_numbers hrun hc hroll hacks hfid hplan, collectEnd_assigns hrun hc hroll hacks hfid hplan⟩⟩
  · have hstart := starts_rollCall (c := .rollCallStart) (s := s) rfl hrun
    have hnow := starts_rollCall (c := .rollNow)
      ((execRollNow_eq (rollsRun_units hrun)).trans (congrArg Host.Outcome.next (if_pos (rollsRun_manager hrun)))) hrun
    refine ⟨fun hroll => ?_, fun hroll => ?_⟩
    · simp only [List.forall_mem_cons]
      exact ⟨hstart.1 hroll, hnow.1 hroll, List.forall_mem_nil _⟩
    · simp only [List.forall_mem_cons]
      exact ⟨hstart.2 hroll, hnow.2 hroll, List.forall_mem_nil _⟩
  · exact ⟨⟨_, rfl, rollEvent_off (rollsRun_worker hm)⟩, ⟨_, execRollNow_eq hu, if_neg (by simp [hm])⟩⟩

end Sys2Proof.Machine
end

section
/-! Requests that a worker serves, and the manager's answers and timeouts (R479, R481, R482, R492, R493). -/
namespace Sys2Proof.Machine
open Sys2Proof.Safety

/-! ## A worker's own packets -/

/-- A worker's packet to the manager. -/
def upPkt (ch : Fin 3) (tag : Byte) (arg : Half) (l : List Dword) (s : State) : Pkt :=
  { ch := ch, dst := 0, src := s.ident.node, epoch := s.ring.epoch, tag := tag, arg := arg, flits := l }

/-- A worker's packet on an UP port stands there. -/
theorem sendUp_sentOn {s : State} (h : (rport (upPort s) s).link = .up) (kind : Byte) (ch : Fin 3) (tag : Byte) (arg : Half)
    (l : List Dword) (c : Bool) {f : Pkt → Prop} (hf : ∀ n, f { upPkt ch tag arg l s with lseq := n }) :
    sentOn (upPort s) kind f (sendUp kind ch tag arg l s c) :=
  standing.sentOn (x := { kind := kind, classC := c, p := upPkt ch tag arg l s }) (standing_ringSend (upPort s) _ s h) hf

theorem sentOn_of_idle {b : Bool} {kind : Byte} {f : Pkt → Prop} {s t : State} (h : Idle b s t) (hs : sentOn b kind f s) :
    sentOn b kind f t := by
  simpa only [sentOn, h.1, h.2] using hs

theorem upPort_accepted (fb : Bool) (s : State) : upPort (accepted fb s) = upPort s := by
  rw [upPort, upPort, accepted_ring]

theorem link_accepted (fb b : Bool) (s : State) : (rport b (accepted fb s)).link = (rport b s).link := by
  cases fb <;> cases b <;> rfl

theorem node_accepted (fb : Bool) (s : State) : (accepted fb s).ident = s.ident := by rw [accepted_writes]

/-! ## Requests as a worker takes them (R479) -/

theorem takesReq_accepted (fb : Bool) (p : Pkt) (s : State) : takesReq p (accepted fb s) = takesReq p s := by
  cases fb <;> rfl

/-- The wake that ring traffic makes touches the power state and its interrupt alone. -/
theorem ringWake_writes (s : State) : ringWake s = { s with power := (ringWake s).power, log := (ringWake s).log } := by
  simp only [ringWake]
  split
  · rfl
  · split <;> rfl

/-- The state in which an accepted request is served. -/
def woken (fb : Bool) (s : State) : State := ringWake (accepted fb s)

theorem woken_writes (fb : Bool) (s : State) : woken fb s = { s with
    power := (woken fb s).power, log := (woken fb s).log, ring := (accepted fb s).ring } := by
  rw [woken, ringWake_writes, accepted_writes]

theorem servedOf_woken (fb : Bool) (kind : Byte) (p : Pkt) (d : Dword) (s : State) :
    servedOf kind p d (woken fb s) = servedOf kind p d s := by
  rw [woken_writes]
  rfl

theorem serves_woken (fb : Bool) (v : Served) (s : State) : serves v (woken fb s) = serves v s := by
  rw [woken_writes]
  rfl

theorem ownMember_woken (fb : Bool) (p : Fin 8) (s : State) : ownMember p (woken fb s) = ownMember p s := by
  rw [woken_writes]
  rfl

theorem memGet_woken (fb : Bool) (m : Fin 128) (s : State) : memGet m (woken fb s) = memGet m s := by
  rw [woken_writes]
  rfl

theorem serve_discards {fb : Bool} {p : Pkt} {s : State} (h : takesReq p s = false) (kind : Byte)
    (f : Served → State → State) : serve kind p f (accepted fb s) = accepted fb s :=
  if_pos (by rw [takesReq_accepted, h]; rfl)

theorem serve_accepts {fb : Bool} {p : Pkt} {s : State} (h : takesReq p s = true) (kind : Byte)
    (f : Served → State → State) : serve kind p f (accepted fb s) =
      if serves (servedOf kind p (flit p 0) s) s then f (servedOf kind p (flit p 0) s) (woken fb s)
      else reply (servedOf kind p (flit p 0) s) 0x27 3 [] (woken fb s) := by
  have htakes : ¬(!takesReq p (accepted fb s)) = true := by rw [takesReq_accepted, h]; decide
  refine (if_neg htakes).trans ?_
  rw [← serves_woken fb, ← servedOf_woken fb]
  rfl

theorem reply_kept (v : Served) (kind : Byte) (arg : Nat) (l : List Dword) (s : State) :
    ringQuiet s (reply v kind arg l s) ∧ (reply v kind arg l s).members = s.members :=
  ⟨ringQuiet_sendUp .., ringSend_members ..⟩

theorem reply_sentOn {s : State} (h : (rport (upPort s) s).link = .up) (v : Served) (kind : Byte) (arg : Nat)
    (l : List Dword) : sentOn (upPort s) kind (fun x => x.tag = v.tag ∧ x.arg = BitVec.ofNat 16 arg ∧ x.dst = 0 ∧
      x.src = s.ident.node) (reply v kind arg l s) :=
  sendUp_sentOn h _ _ _ _ _ _ fun _ => ⟨rfl, rfl, rfl, rfl⟩

/-- A request of a kind that a worker serves by `serve`. -/
theorem serve_kind {c : Instr} {fb : Bool} {kind : Byte} {p : Pkt} {f : Served → State → State} {s : State}
    (hc : exec c s = received fb kind p (onWorker (serve kind p f)) s) (hw : forWorker p s) (h : inOrder fb kind p s) :
    (takesReq p s = false → reaches c s fun t => t = creditBack fb p.ch p.flits.length (accepted fb s)) ∧
    (takesReq p s = true → serves (servedOf kind p (flit p 0) s) s = false →
      (rport (upPort s) s).link = .up → reaches c s fun t =>
      t.ring.served = s.ring.served ∧ t.members = s.members ∧
      sentOn (upPort s) 0x27 (fun x => x.tag = p.tag ∧ x.arg = 3 ∧ x.dst = 0 ∧ x.src = s.ident.node) t) := by
  rw [received_onWorker hw h] at hc
  refine ⟨fun htakes => ⟨_, hc, ?_⟩, fun htakes hserves hup => ⟨_, hc, ?_⟩⟩
  · rw [serve_discards htakes]
  · rw [serve_accepts htakes, if_neg (ne_true_of_eq_false hserves)]
    have hport : upPort (woken fb s) = upPort s := by
      rw [woken_writes]
      exact upPort_accepted fb s
    have hlink : (rport (upPort s) (woken fb s)).link = .up := by
      rw [woken_writes]
      exact (link_accepted ..).trans hup
    have hident : (woken fb s).ident = s.ident := by rw [woken_writes]
    have hserved : (woken fb s).ring.served = s.ring.served := by rw [woken_writes, accepted_ring]
    have hmembers : (woken fb s).members = s.members := by rw [woken_writes]
    obtain ⟨hquiet, hkept⟩ := reply_kept (servedOf kind p (flit p 0) s) 0x27 3 [] (woken fb s)
    have hsent := reply_sentOn (s := woken fb s) (by rw [hport]; exact hlink) (servedOf kind p (flit p 0) s) 0x27 3 []
    rw [hport, hident] at hsent
    refine ⟨?_, (creditBack_members ..).trans (hkept.trans hmembers), sentOn_of_idle (creditBack_idle ..) hsent⟩
    rw [creditBack_ring, hquiet.1]
    exact hserved

/-! ## Operations of served requests (R479, R492) -/

theorem ownMember_own (p : Fin 8) (s : State) : isOwn (ownMember p s) s = true := by
  simp only [isOwn, ownMember, nodeOf_index, beq_self_eq_true]

theorem portOf_ownMember (p : Fin 8) (s : State) : portOf (ownMember p s) = p := by
  have hp := p.isLt
  have hnode := s.ident.node.isLt
  apply Fin.ext
  simp only [portOf, ownMember, Fin.ofNat]
  omega

/-- The operations of a port, in the order of its classes. -/
def Port.ops (q : Port) : List MOp := q.qa ++ q.qb ++ q.qc

theorem mem_enqueue (o : MOp) (q : Port) : o ∈ (q.enqueue o).ops := by
  simp only [Port.enqueue]
  split <;> simp [Port.ops]

theorem mem_enqueue_of_mem {x : MOp} {q : Port} (h : x ∈ q.ops) (o : MOp) : x ∈ (q.enqueue o).ops := by
  simp only [Port.enqueue]
  split <;> simp only [Port.ops, List.mem_append] at * <;> grind

/-- A new operation of an own member goes into its port's queue, behind what waits there. -/
theorem createOp_own {o : MOp} {s : State} (h : isOwn o.member s = true) :
    createOp o s = portPut (portOf o.member) ((portGet (portOf o.member) s).enqueue { o with id := s.members.nextOp })
      { s with members := { s.members with nextOp := s.members.nextOp + 1 } } := if_pos h

theorem queued_createOp {o : MOp} {s : State} (h : isOwn o.member s = true) {f : MOp → Prop}
    (hf : ∀ n, f { o with id := n }) : queued (portOf o.member) f (createOp o s) := by
  rw [createOp_own h]
  refine ⟨{ o with id := s.members.nextOp }, ?_, hf _⟩
  rw [portGet_portPut_same]
  exact mem_enqueue ..

/-- What is queued stays queued. -/
theorem queued_of_createOp {o : MOp} {s : State} (h : isOwn o.member s = true) {p : Fin 8} {f : MOp → Prop}
    (hq : queued p f s) : queued p f (createOp o s) := by
  obtain ⟨x, hx, hfx⟩ := hq
  refine ⟨x, ?_, hfx⟩
  rw [createOp_own h]
  by_cases hp : portOf o.member = p
  · subst hp
    rw [portGet_portPut_same]
    exact mem_enqueue_of_mem hx _
  · rw [portGet_portPut_ne (h := hp)]
    exact hx

/-- An operation for a served request touches the members alone, and is queued at its port. -/
theorem servedOp_queued (v : Served) (k : OpKind) (u : OpUse) (p : Fin 8) (sector count : Nat) (s : State) :
    queued p (fun o => o.kind = k ∧ o.member = ownMember p s ∧ o.sector = sector ∧ o.count = count ∧ o.cls = v.op)
      (servedOp v k u p sector count s) ∧
    servedOp v k u p sector count s = { s with members := (servedOp v k u p sector count s).members } := by
  have hq := queued_createOp (o := {
    id := 0, member := ownMember p s, cls := v.op, studio := v.studio, deadline := v.deadline, kind := k,
    sector := sector, count := count, use := u }) (s := s) (ownMember_own p s)
    (f := fun o => o.kind = k ∧ o.member = ownMember p s ∧ o.sector = sector ∧ o.count = count ∧ o.cls = v.op)
    (fun n => ⟨rfl, rfl, rfl, rfl, rfl⟩)
  rw [portOf_ownMember] at hq
  refine ⟨hq, ?_⟩
  rw [servedOp, createOp_own (ownMember_own p s)]
  rfl

theorem queued_creditBack {p : Fin 8} {f : MOp → Prop} {s : State} (h : queued p f s) (fb : Bool) (ch : Fin 3) (n : Nat) :
    queued p f (creditBack fb ch n s) := by
  rw [creditBack_writes]
  exact h

theorem queued_of {p : Fin 8} {f g : MOp → Prop} {s : State} (h : queued p f s) (hfg : ∀ o, f o → g o) : queued p g s := by
  obtain ⟨x, hx, hfx⟩ := h
  exact ⟨x, hx, hfg x hfx⟩

/-! ## MREAD, MERASE and MWRITE (R479, R493) -/

theorem servedOf_port {p : Pkt} {port : Fin 8} (hport : port = fin8 ((flit p 0).extractLsb' 57 3).toNat) (kind : Byte)
    (s : State) : (servedOf kind p (flit p 0) s).port = port := by
  rw [hport, BitVec.extractLsb'_toNat]
  rfl

theorem serves_active {kind : Byte} {p : Pkt} {port : Fin 8} {s : State}
    (hport : port = fin8 ((flit p 0).extractLsb' 57 3).toNat) (h : (memGet (ownMember port s) s).state = .active) :
    serves (servedOf kind p (flit p 0) s) s = true := by
  simp only [serves, servedOf_port hport, h, beq_self_eq_true, Bool.true_or]

/-- A request for an ACTIVE port of this worker has its effect in the woken state. -/
theorem serve_active {c : Instr} {fb : Bool} {kind : Byte} {p : Pkt} {f : Served → State → State} {s : State}
    {port : Fin 8} (hc : exec c s = received fb kind p (onWorker (serve kind p f)) s) (hw : forWorker p s)
    (h : inOrder fb kind p s) (htakes : takesReq p s = true)
    (hport : port = fin8 ((flit p 0).extractLsb' 57 3).toNat) (hactive : (memGet (ownMember port s) s).state = .active) :
    exec c s = .next (creditBack fb p.ch p.flits.length (f (servedOf kind p (flit p 0) s) (woken fb s))) := by
  rw [hc, received_onWorker hw h, serve_accepts htakes, if_pos (serves_active hport hactive)]

theorem servedAdd_woken (fb : Bool) (v : Served) (s : State) :
    (servedAdd v (woken fb s)).ring.served = s.ring.served ++ [v] ∧
    (servedAdd v (woken fb s)).members = s.members ∧
    ∀ q, ownMember q (servedAdd v (woken fb s)) = ownMember q s := by
  rw [servedAdd, woken_writes, accepted_ring]
  exact ⟨rfl, rfl, fun _ => rfl⟩

/-- A served request that becomes one member operation of its port. -/
theorem served_queues {c : Instr} {fb : Bool} {kind : Byte} {p : Pkt} {k : OpKind} {u : Served → OpUse} {s : State}
    {port : Fin 8} (hc : exec c s = received fb kind p (onWorker (serve kind p fun v s =>
      servedOp v k (u v) v.port v.sector v.count (servedAdd { v with queued := true } s))) s)
    (hw : forWorker p s) (h : inOrder fb kind p s) (htakes : takesReq p s = true)
    (hport : port = fin8 ((flit p 0).extractLsb' 57 3).toNat) (hactive : (memGet (ownMember port s) s).state = .active) :
    reaches c s fun t =>
      queued port (fun o => o.kind = k ∧ o.member = ownMember port s ∧ o.sector = ((flit p 0).extractLsb' 0 48).toNat ∧
        o.count = ((flit p 0).extractLsb' 48 9).toNat + 1 ∧ o.cls = classOf (flit p 0)) t ∧
      t.ring.served = s.ring.served ++ [{ servedOf kind p (flit p 0) s with queued := true }] := by
  refine ⟨_, serve_active hc hw h htakes hport hactive, ?_⟩
  have hq := servedOf_port hport kind s
  have hsector : (servedOf kind p (flit p 0) s).sector = ((flit p 0).extractLsb' 0 48).toNat := by
    simp [servedOf, dbits]
  have hcount : (servedOf kind p (flit p 0) s).count = ((flit p 0).extractLsb' 48 9).toNat + 1 := by
    simp [servedOf, dbits]
  have hcls : (servedOf kind p (flit p 0) s).op = classOf (flit p 0) := rfl
  generalize servedOf kind p (flit p 0) s = v at *
  subst hq
  obtain ⟨hserved, -, hmember⟩ := servedAdd_woken fb { v with queued := true } s
  generalize servedAdd { v with queued := true } (woken fb s) = x at *
  obtain ⟨hq, hwrites⟩ := servedOp_queued v k (u v) v.port v.sector v.count x
  have hq' := queued_creditBack hq fb p.ch p.flits.length
  refine ⟨queued_of hq' ?_, ?_⟩
  · rintro o ⟨okind, om, osector, ocount, ocls⟩
    exact ⟨okind, om.trans (hmember v.port), osector.trans hsector, ocount.trans hcount, ocls.trans hcls⟩
  · rw [creditBack_ring, hwrites]
    exact hserved

theorem mwrite_waits {fb : Bool} {p : Pkt} {port : Fin 8} {s : State} (hw : forWorker p s) (h : inOrder fb 0x22 p s)
    (htakes : takesReq p s = true) (hport : port = fin8 ((flit p 0).extractLsb' 57 3).toNat)
    (hactive : (memGet (ownMember port s) s).state = .active) : reaches (.mwrite fb p) s fun t =>
      t.members = s.members ∧ t.ring.served = s.ring.served ++ [servedOf 0x22 p (flit p 0) s] := by
  obtain ⟨hserved, hmembers, -⟩ := servedAdd_woken fb (servedOf 0x22 p (flit p 0) s) s
  refine ⟨_, serve_active rfl hw h htakes hport hactive, (creditBack_members ..).trans hmembers, ?_⟩
  rw [creditBack_ring]
  exact hserved

/-! ## PSUM_REQ (R492) -/

/-- The reads of a partial sum are all queued. -/
theorem foldl_servedRead (v : Served) (l : List (Dword × Fin 8)) (s : State) :
    (∀ p f, queued p f s → queued p f (l.foldl (fun s x => servedRead v x.2 (dbits x.1 47 0) 8 s) s)) ∧
    ∀ x ∈ l, queued x.2 (fun o => o.kind = .read ∧ o.sector = dbits x.1 47 0 ∧ o.count = 8)
      (l.foldl (fun s x => servedRead v x.2 (dbits x.1 47 0) 8 s) s) := by
  induction l generalizing s with
  | nil => exact ⟨fun p f h => h, nofun⟩
  | cons y l ih =>
    obtain ⟨hkeeps, hall⟩ := ih (servedRead v y.2 (dbits y.1 47 0) 8 s)
    refine ⟨fun p f h => hkeeps p f (queued_of_createOp (ownMember_own y.2 s) h), fun x hx => ?_⟩
    rcases List.mem_cons.mp hx with rfl | hx
    · exact hkeeps _ _ (queued_of (servedOp_queued ..).1 fun o ho => ⟨ho.1, ho.2.2.1, ho.2.2.2.1⟩)
    · exact hall x hx

theorem psumReq_queues {fb : Bool} {p : Pkt} {s : State} (hw : forWorker p s) (h : inOrder fb 0x25 p s)
    (htakes : takesReq p s = true)
    (hactive : ∀ d ∈ p.flits, (memGet (ownMember (fin8 (d.extractLsb' 57 3).toNat) s) s).state = .active) :
    reaches (.psumReq fb p) s fun t => ∀ d ∈ p.flits, queued (fin8 (d.extractLsb' 57 3).toNat)
      (fun o => o.kind = .read ∧ o.sector = (d.extractLsb' 0 48).toNat ∧ o.count = 8) t := by
  refine ⟨_, received_onWorker hw h _, fun d hd => queued_creditBack ?_ ..⟩
  have htakes' : ¬(!takesReq p (accepted fb s)) = true := by rw [takesReq_accepted, htakes]; decide
  unfold psumReq
  rw [if_neg htakes']
  extract_lets w ds ok good bad v₀ v
  have hport (d : Dword) : fin8 (dbits d 59 57) = fin8 (d.extractLsb' 57 3).toNat := by simp [dbits]
  have hgood : good = ds := by
    refine List.filter_eq_self.mpr fun x hx => ?_
    obtain ⟨e, he, rfl⟩ := List.mem_map.mp hx
    have hmem : memGet (ownMember (fin8 (dbits e 59 57)) w) w = memGet (ownMember (fin8 (dbits e 59 57)) s) s :=
      (congrArg (memGet · w) (ownMember_woken fb _ s)).trans (memGet_woken fb _ s)
    change ((memGet (ownMember (fin8 (dbits e 59 57)) w) w).state == MState.active) = true
    rw [hmem, hport, hactive e he]
    rfl
  have hmem : (d, fin8 (dbits d 59 57)) ∈ good := by
    rw [hgood]
    exact List.mem_map_of_mem hd
  rw [if_neg (by simpa using List.ne_nil_of_mem hmem)]
  have hq := (foldl_servedRead v good (servedAdd v w)).2 _ hmem
  rw [hport] at hq
  exact queued_of hq fun o ho => ⟨ho.1, ho.2.1.trans (by simp [dbits]), ho.2.2⟩

/-! ## MWRITE_DATA and PING (R482, R493) -/

theorem land_short {v : Served} {s : State} (h : v.data.length < v.count) : land v s = s :=
  if_pos (by simp [h])

theorem mwriteData_collects {fb : Bool} {p : Pkt} {v : Served} {s : State} (hw : forWorker p s) (h : inOrder fb 0x23 p s)
    (hfind : s.ring.served.find? (fun v => v.tag == p.tag && v.epoch == p.epoch && v.kind == 0x22) = some v)
    (hmore : v.data.length + 1 < v.count) : reaches (.mwriteData fb p) s fun t => t = { s with ring := t.ring } ∧
      t.ring.served = s.ring.served.map fun x => if x == v then { v with data := v.data ++ [flitsSector p.flits] } else x := by
  have hserved : (accepted fb s).ring.served = s.ring.served := by rw [accepted_ring]
  have hact : writeData p (accepted fb s) = servedPut v { v with data := v.data ++ [flitsSector p.flits] } (accepted fb s) := by
    simp only [writeData, hserved, hfind]
    exact land_short (by simpa using hmore)
  refine ⟨_, received_onWorker hw h _, ?_⟩
  rw [hact]
  obtain ⟨hwrites, hring⟩ := creditBack_onRing (fb := fb) (s := s)
    (u := servedPut v { v with data := v.data ++ [flitsSector p.flits] } (accepted fb s)) rfl p.ch p.flits.length
  refine ⟨hwrites, ?_⟩
  rw [hring, hserved]

theorem ping_answered {fb : Bool} {p : Pkt} {s : State} (hw : forWorker p s) (h : inOrder fb 0x07 p s)
    (hup : (rport (upPort s) s).link = .up) : reaches (.ping fb p) s fun t =>
      t = { s with ring := t.ring, log := t.log, ledger := t.ledger } ∧
      sentOn (upPort s) 0x08 (fun x => x.tag = p.tag ∧ x.dst = 0 ∧ x.src = s.ident.node) t := by
  refine ⟨_, received_onWorker hw h _, by apply State.ext <;> simp [accepted], sentOn_of_idle (creditBack_idle ..) ?_⟩
  have hsent := sendUp_sentOn (s := accepted fb s) (by rw [upPort_accepted, link_accepted]; exact hup) 0x08 0 p.tag 0 [] false
    (f := fun x => x.tag = p.tag ∧ x.dst = 0 ∧ x.src = (accepted fb s).ident.node) fun _ => ⟨rfl, rfl, rfl⟩
  rw [upPort_accepted, node_accepted] at hsent
  exact hsent

/-! ## Answers that the manager collects (R479, R481, R492) -/

theorem answers_accepted (fb : Bool) (p : Pkt) (s : State) : answers p (accepted fb s) = answers p s := by
  cases fb <;> rfl

theorem reqOf_accepted (fb : Bool) (k : BitVec 4) (tag : Byte) (s : State) : reqOf k tag (accepted fb s) = reqOf k tag s := by
  cases fb <;> rfl

theorem reqs_accepted (fb : Bool) (s : State) : (accepted fb s).ring.reqs = s.ring.reqs := by rw [accepted_ring]

/-- An answer that no outstanding request waits for has no effect. -/
theorem unanswered {c : Instr} {fb : Bool} {kind : Byte} {p : Pkt} {act : State → State} {s : State}
    (hc : exec c s = received fb kind p (onManager act) s) (hm : isManager s = true) (h : inOrder fb kind p s)
    (hact : act (accepted fb s) = accepted fb s) :
    reaches c s fun t => t = creditBack fb p.ch p.flits.length (accepted fb s) := by
  rw [received_onManager hm h, hact] at hc
  exact ⟨_, hc, rfl⟩

/-- An answer that only replaces its request in the list of the outstanding ones. -/
theorem answered_by {c : Instr} {fb : Bool} {kind : Byte} {p : Pkt} {act : State → State} {r u : RReq} {s : State}
    (hc : exec c s = received fb kind p (onManager act) s) (hm : isManager s = true) (h : inOrder fb kind p s)
    (hact : act (accepted fb s) = reqPut r u (accepted fb s)) :
    reaches c s fun t => t = { s with ring := t.ring } ∧
      t.ring.reqs = s.ring.reqs.map fun x => if x == r then u else x := by
  rw [received_onManager hm h, hact] at hc
  obtain ⟨hwrites, hring⟩ := creditBack_onRing (fb := fb) (s := s) (u := reqPut r u (accepted fb s)) rfl p.ch p.flits.length
  refine ⟨_, hc, hwrites, ?_⟩
  rw [hring, reqs_accepted]

theorem opDone_ends {fb : Bool} {p : Pkt} {r : RReq} {mo : MOp} {s : State} (hm : isManager s = true)
    (h : inOrder fb 0x27 p s) (hr : answers p s = some r) (hkind : r.kind = .op mo) : reaches (.opDone fb p) s fun t =>
      ∃ e, t = creditBack fb p.ch p.flits.length (opResult mo e (reqDrop r (accepted fb s))) ∧
        (p.arg.extractLsb' 0 8 = 0 → e = .ok r.got) ∧ (p.arg.extractLsb' 0 8 = 1 → e = .unreadable r.got) ∧
        (p.arg.extractLsb' 0 8 = 2 → e = .lost) ∧ (p.arg.extractLsb' 0 8 = 3 → e = .refused) := by
  refine ⟨_, received_onManager hm h _, opEndOf (p.arg.toNat % 256) r.got, ?_, ?_⟩
  · simp only [opDone, answers_accepted, hr, hkind]
  · have hcode : p.arg.toNat % 256 = (p.arg.extractLsb' 0 8).toNat := by simp
    rw [hcode]
    refine ⟨?_, ?_, ?_, ?_⟩ <;> intro hc <;> rw [hc] <;> rfl

theorem sendReq_sends (r : RReq) (s : State) : Sends s (sendReq r s) :=
  foldl_sends _ (fun _ _ => sendTo_sends ..) _ s

/-- A request as it is reissued after a PONG. -/
def reissue (k : BitVec 4) (r : RReq) (s : State) : RReq :=
  { tag := freshTag k (reqDrop r s), node := k, epoch := s.ring.rollSeq, kind := r.kind, reissued := true }

/-- The reissued request takes the last place among the outstanding ones. -/
def reissuedIn (k : BitVec 4) (r : RReq) (s : State) : State :=
  { s with ring := { s.ring with
    reqs := s.ring.reqs.erase r ++ [reissue k r s], nextTag := (reissue k r s).tag + 1 } }

theorem pong_eq {p : Pkt} {r : RReq} {s : State} (hr : reqOf p.src p.tag s = some r) (hping : r.pinged = true) :
    pong p s = sendReq (reissue p.src r s) (reissuedIn p.src r s) := by
  simp only [pong, hr, hping, if_true]
  rfl

theorem pong_reissues {fb : Bool} {p : Pkt} {r : RReq} {s : State} (hm : isManager s = true) (h : inOrder fb 0x08 p s)
    (hr : reqOf p.src p.tag s = some r) (hping : r.pinged = true) : reaches (.pong fb p) s fun t =>
      ∃ u, t.ring.reqs = s.ring.reqs.erase r ++ [u] ∧ u.node = p.src ∧ u.kind = r.kind ∧ u.reissued = true ∧
        u.epoch = s.ring.rollSeq ∧ u.got = [] ∧ t = { s with ring := t.ring, log := t.log, ledger := t.ledger } := by
  have hexec := received_onManager hm h (pong p)
  rw [pong_eq ((reqOf_accepted ..).trans hr) hping] at hexec
  obtain ⟨hquiet, -⟩ := sendReq_sends (reissue p.src r (accepted fb s)) (reissuedIn p.src r (accepted fb s))
  refine ⟨_, hexec, reissue p.src r (accepted fb s), ?_, rfl, rfl, rfl, ?_, rfl, ?_⟩
  · rw [creditBack_ring, hquiet.1]
    simp only [reissuedIn, reqs_accepted]
  · rw [reissue, accepted_ring]
  · apply State.ext <;> simp [reissuedIn, accepted]

/-! ## Timeouts of the manager's requests (R482) -/

theorem execRequestTimeout_eq {k : BitVec 4} {tag : Byte} {s : State} (hu : unitsUp s = true) (hm : isManager s = true) :
    exec (.requestTimeout k tag) s = .next (match reqOf k tag s with
      | none => s
      | some r =>
        if r.parked then s
        else if r.reissued then verdict k s
        else sendTo k 0x07 (managerPkt k 0 tag 0 [] s) false (reqPut r { r with pinged := true } s)) :=
  congrArg Host.Outcome.next (if_pos (by simp [hu, hm]))

theorem execPingTimeout_eq {k : BitVec 4} {tag : Byte} {s : State} (hu : unitsUp s = true) (hm : isManager s = true) :
    exec (.pingTimeout k tag) s = .next (match reqOf k tag s with
      | some r => if r.pinged then verdict k s else s
      | none => s) :=
  congrArg Host.Outcome.next (if_pos (by simp [hu, hm]))

theorem requestTimeout_pings {k : BitVec 4} {tag : Byte} {r : RReq} {s : State} (hu : unitsUp s = true)
    (hm : isManager s = true) (hr : reqOf k tag s = some r) (hparked : r.parked = false) (hreissued : r.reissued = false) :
    reaches (.requestTimeout k tag) s fun t =>
      t.ring.reqs = (s.ring.reqs.map fun x => if x == r then { r with pinged := true } else x) ∧
      t.ring.nodes = s.ring.nodes ∧
      (∀ fb, routeTo k s = some fb → (rport fb s).link = .up → sentOn fb 0x07 (fun x => x.tag = tag ∧ x.dst = k) t) := by
  have hexec : exec (.requestTimeout k tag) s =
      .next (sendTo k 0x07 (managerPkt k 0 tag 0 [] s) false (reqPut r { r with pinged := true } s)) := by
    rw [execRequestTimeout_eq hu hm, hr]
    dsimp only
    rw [if_neg (ne_true_of_eq_false hparked), if_neg (ne_true_of_eq_false hreissued)]
  have hring := (sendTo_sends k 0x07 (managerPkt k 0 tag 0 [] s) false (reqPut r { r with pinged := true } s)).1.1
  refine ⟨_, hexec, ?_, ?_, fun fb hroute hup => ?_⟩
  · rw [hring]
    rfl
  · rw [hring]
    rfl
  · have hsend : sendTo k 0x07 (managerPkt k 0 tag 0 [] s) false (reqPut r { r with pinged := true } s) =
        ringSend fb { kind := 0x07, p := managerPkt k 0 tag 0 [] s, classC := false } (reqPut r { r with pinged := true } s) := by
      have hroute' : routeTo k (reqPut r { r with pinged := true } s) = some fb := hroute
      simp only [sendTo, hroute']
    have hup' : (rport fb (reqPut r { r with pinged := true } s)).link = .up := by
      cases fb <;> exact hup
    rw [hsend]
    exact standing.sentOn (x := { kind := 0x07, p := managerPkt k 0 tag 0 [] s, classC := false })
      (standing_ringSend fb _ _ hup') fun n => ⟨rfl, rfl⟩

/-- The entry of a node that becomes UNREACHABLE by a timeout now. -/
def goneNode (k : BitVec 4) (s : State) : RNode :=
  { (s.ring.nodes.get k.toFin).gone with verdict := some s.clk.tick.toNat }

/-- Node k is UNREACHABLE from now on. -/
def nodeGone (k : BitVec 4) (s : State) : State :=
  { s with ring := { s.ring with nodes := s.ring.nodes.set k.toFin (goneNode k s) } }

theorem verdict_eq (k : BitVec 4) (s : State) : verdict k s = rollEvent (nodeLost k (nodeGone k s)) := rfl

theorem verdict_idle {k : BitVec 4} {s : State}
    (hidle : ∀ q : Fin 8, (memGet (Fin.ofNat 128 (8 * k.toNat + q.val)) s).state ≠ .active) :
    verdict k s = rollEvent (nodeGone k s) := by
  rw [verdict_eq, nodeLost_idle (s := nodeGone k s) hidle]

theorem nodeGone_nodes (k : BitVec 4) (j : Fin 16) (s : State) :
    (nodeGone k s).ring.nodes.get j = if k.toFin = j then goneNode k s else s.ring.nodes.get j := vector_get_set ..

/-- A command of the manager that gives the verdict on node k. -/
theorem verdict_given {c : Instr} {k : BitVec 4} {s : State} (hc : exec c s = .next (verdict k s))
    (hidle : ∀ q : Fin 8, (memGet (Fin.ofNat 128 (8 * k.toNat + q.val)) s).state ≠ .active) :
    reaches c s fun t => (t.ring.nodes.get k.toFin).status = .unreachable ∧
      (t.ring.nodes.get k.toFin).verdict = some s.clk.tick.toNat ∧ t.members = s.members ∧
      (∀ j, j ≠ k.toFin → t.ring.nodes.get j = s.ring.nodes.get j) ∧
      (rollsRun s = true → s.ring.roll = none → t.ring.rollSeq = s.ring.rollSeq + 1) := by
  rw [verdict_idle hidle] at hc
  have hnodes (j : Fin 16) : (rollEvent (nodeGone k s)).ring.nodes.get j =
      if k.toFin = j then goneNode k s else s.ring.nodes.get j := by
    rw [(rollEvent_tables _).2, nodeGone_nodes]
  refine ⟨_, hc, ?_, ?_, rollEvent_members _, fun j hj => (hnodes j).trans (if_neg (Ne.symm hj)),
    fun hrun hroll => rollEvent_rollSeq (s := nodeGone k s) hrun hroll⟩
  · exact congrArg RNode.status ((hnodes _).trans (if_pos rfl))
  · exact congrArg RNode.verdict ((hnodes _).trans (if_pos rfl))

/-- The two timeouts of which one gives the verdict at once. -/
theorem timeouts_judge {k : BitVec 4} {tag : Byte} {r : RReq} {s : State} (hu : unitsUp s = true) (hm : isManager s = true)
    (hr : reqOf k tag s = some r) {c : Bool × Instr}
    (hmem : c ∈ [(r.reissued && !r.parked, Instr.requestTimeout k tag), (r.pinged, .pingTimeout k tag)]) (hc : c.1 = true) :
    exec c.2 s = .next (verdict k s) := by
  simp only [List.mem_cons, List.not_mem_nil, or_false] at hmem
  rcases hmem with rfl | rfl
  · simp only [Bool.and_eq_true, Bool.not_eq_true'] at hc
    refine (execRequestTimeout_eq hu hm).trans ?_
    rw [hr]
    dsimp only
    rw [if_neg (ne_true_of_eq_false hc.2), if_pos hc.1]
  · refine (execPingTimeout_eq hu hm).trans ?_
    rw [hr]
    exact congrArg Host.Outcome.next (if_pos hc)

/-- Settles O55: what a worker makes of the requests it takes, and the manager of their answers and timeouts. -/
theorem ringRequestsAndTheirAnswers : Obligations.RingRequestsAndTheirAnswers := by
  refine ⟨fun s fb p hw port hport => ⟨?_, fun htakes hactive => ⟨?_, ?_, ?_⟩, ?_, ?_, ?_⟩,
    fun s fb p hm => ⟨?_, fun r hr => ⟨?_, ?_, ?_⟩, ?_⟩, fun s k tag hu hm => ⟨?_, fun r hr => ⟨?_, ?_, ?_, ?_, ?_⟩⟩⟩
  · simp only [List.forall_mem_cons]
    exact ⟨serve_kind rfl hw, serve_kind rfl hw, serve_kind rfl hw, List.forall_mem_nil _⟩
  · intro h
    exact served_queues (u := fun v => .chunk (.remote v.tag v.epoch) ⟨0, false, 0, 0⟩ 0 1) rfl hw h htakes hport hactive
  · intro h
    obtain ⟨t, hexec, ⟨o, hmem, hkind, hm, hsector, hcount, -⟩, -⟩ :=
      served_queues (u := fun v => .write (.remote v.tag v.epoch)) (c := .merase fb p) rfl hw h htakes hport hactive
    exact ⟨t, hexec, o, hmem, hkind, hm, hsector, hcount⟩
  · exact fun h => mwrite_waits hw h htakes hport hactive
  · exact fun h htakes => psumReq_queues hw h htakes
  · exact fun v h => mwriteData_collects hw h
  · exact ping_answered hw
  · intro hnone
    have hnone' : answers p (accepted fb s) = none := (answers_accepted ..).trans hnone
    simp only [List.forall_mem_cons]
    exact ⟨fun h => unanswered rfl hm h (by simp only [readData, hnone']),
      fun h => unanswered rfl hm h (by simp only [psumData, hnone']),
      fun h => unanswered rfl hm h (by simp only [opDone, hnone']), List.forall_mem_nil _⟩
  · exact fun h => answered_by rfl hm h (by simp only [readData, answers_accepted, hr])
  · intro q hkind hlen h
    refine answered_by rfl hm h ?_
    simp only [psumData, answers_accepted, hr, hkind]
    exact if_pos (by simp; omega)
  · exact fun mo hkind h => opDone_ends hm h hr hkind
  · exact fun r h hr => pong_reissues hm h hr
  · intro hnone
    simp only [List.forall_mem_cons]
    exact ⟨⟨_, execRequestTimeout_eq hu hm, by rw [hnone]⟩, ⟨_, execPingTimeout_eq hu hm, by rw [hnone]⟩,
      List.forall_mem_nil _⟩
  · intro hparked
    refine ⟨_, execRequestTimeout_eq hu hm, ?_⟩
    rw [hr]
    exact if_pos hparked
  · exact requestTimeout_pings hu hm hr
  · intro hping
    refine ⟨_, execPingTimeout_eq hu hm, ?_⟩
    rw [hr]
    exact if_neg (ne_true_of_eq_false hping)
  · intro c hmem hc n hn
    subst hn
    exact ⟨_, timeouts_judge hu hm hr hmem hc, verdict_eq k s⟩
  · exact fun hidle c hmem hc => verdict_given (timeouts_judge hu hm hr hmem hc) hidle

end Sys2Proof.Machine
end

section
/-! Reports, orders, forwarded entries and forwarded records (R95, R170, R449, R491, R566). -/
namespace Sys2Proof.Machine
open Sys2Proof.Safety

/-! ## TABLE_FWD (R170, R449) -/

/-- The space of a forwarded entry. -/
theorem tableFwd_space (arg : Half) : BitVec.ofNat 8 (arg.toNat / 256) = arg.extractLsb' 8 8 := by
  apply BitVec.eq_of_toNat_eq
  rw [BitVec.toNat_ofNat, BitVec.extractLsb'_toNat, Nat.shiftRight_eq_div_pow]

theorem tableFwd_commits {fb : Bool} {p : Pkt} {s : State} (hw : forWorker p s) (h : inOrder fb 0x09 p s)
    (hlost : s.restart.nvcfgLost = false) (hspace : p.arg.extractLsb' 8 8 = 0x01 ∨ p.arg.extractLsb' 8 8 = 0x0D) :
    reaches (.tableFwd fb p) s fun t =>
      t.nv.commits = s.nv.commits ++
        [.fwd (p.arg.extractLsb' 8 8) (p.arg.extractLsb' 0 8).toNat (p.flits.flatMap lowHigh)] ∧
      t = { s with ident := t.ident, nv := t.nv, skb := t.skb, ring := t.ring } := by
  refine ⟨_, received_onWorker hw h _, ?_⟩
  have hin : tableIn p (accepted fb s) = nvCommit (.fwd (p.arg.extractLsb' 8 8) (p.arg.extractLsb' 0 8).toNat
      (p.flits.flatMap lowHigh)) (accepted fb s) := by
    rw [← tableFwd_space, BitVec.extractLsb'_toNat]
    refine if_pos ?_
    rw [tableFwd_space]
    rcases hspace with h | h <;> rw [h] <;> rfl
  rw [hin, nvCommit_writes (by rw [accepted_writes]; exact hlost)
    (by rw [accepted_writes]; exact notFailstop_of_unitsUp h.1), creditBack_writes]
  refine ⟨?_, ?_⟩
  · rw [accepted_writes]
  · rw [accepted_writes]

theorem tableFwd_ignores {fb : Bool} {p : Pkt} {s : State} (hw : forWorker p s) (h : inOrder fb 0x09 p s)
    (hmember : p.arg.extractLsb' 8 8 ≠ 0x01) (href : p.arg.extractLsb' 8 8 ≠ 0x0D) :
    reaches (.tableFwd fb p) s fun t => t = creditBack fb p.ch p.flits.length (accepted fb s) := by
  refine ⟨_, received_onWorker hw h _, congrArg (creditBack fb p.ch p.flits.length) (if_neg ?_)⟩
  rw [tableFwd_space]
  rw [beq_false_of_ne hmember, beq_false_of_ne href]
  decide

/-! ## MEMBER_SET (R491) -/

theorem memState_ports (m : Fin 128) (new : MState) (cause : Byte) (s : State) :
    (memState m new cause s).members.ports = s.members.ports := by
  apply Vector.ext
  intro i hi
  exact portGet_memState ⟨i, hi⟩ m new cause s

/-- A member in another state, without a copy to be mended where it is neither ACTIVE nor BENCH. -/
def stateSet (m : Fin 128) (st : MState) (cause : Byte) (s : State) : State :=
  onlyIf (st != .active && st != .bench) (fun s => memPut m { memGet m s with sigMend := none } s) (memState m st cause s)

theorem stateSet_sets (m : Fin 128) (st : MState) (cause : Byte) (s : State) :
    (memGet m (stateSet m st cause s)).state = st ∧ (∀ k, k ≠ m → memGet k (stateSet m st cause s) = memGet k s) ∧
      (stateSet m st cause s).members.ports = s.members.ports ∧ (stateSet m st cause s).arrs = s.arrs := by
  have hstate : (memGet m (memState m st cause s)).state = st := by rw [memGet_memState_same]
  have hother (k : Fin 128) (hk : k ≠ m) : memGet k (memState m st cause s) = memGet k s :=
    memGet_memState_ne hk.symm st cause s
  simp only [stateSet, onlyIf]
  split
  · refine ⟨?_, fun k hk => ?_, memState_ports m st cause s, memState_arrs m st cause s⟩
    · rw [memGet_memPut_same]
      exact hstate
    · rw [memGet_memPut_ne (h := hk.symm)]
      exact hother k hk
  · exact ⟨hstate, hother, memState_ports m st cause s, memState_arrs m st cause s⟩

/-- The entry of a worker's port takes the state that the manager decided. -/
theorem setIn_sets {p : Pkt} {q : Fin 8} {m : Fin 128} {st : MState} {s : State}
    (hq : q = fin8 ((flit p 0).extractLsb' 4 3).toNat) (hm : m = ownMember q s)
    (hst : st = mstateOf ((flit p 0).extractLsb' 0 4).toNat) (hpower : (portGet q s).powered = false ∨ st.poweredOn = true) :
    (memGet m (setIn p s)).state = st ∧ (∀ k, k ≠ m → memGet k (setIn p s) = memGet k s) ∧
      (setIn p s).members.ports = s.members.ports ∧ (setIn p s).arrs = s.arrs := by
  have hq' : fin8 (dbits (flit p 0) 6 4) = q := by rw [hq]; simp [dbits]
  have hst' : mstateOf (dbits (flit p 0) 3 0) = st := by rw [hst]; simp [dbits]
  simp only [setIn, hq', hst', ← hm]
  split
  next hsame => exact ⟨eq_of_beq hsame, fun _ _ => rfl, rfl, rfl⟩
  next hnew =>
    have hsets (cause : Byte) := stateSet_sets m st cause s
    simp only [stateSet] at hsets
    generalize (if (memGet m s).state == .probing then chIdentified else chCommand) = cause
    obtain ⟨hstate, hother, hports, harrs⟩ := hsets cause
    rw [if_neg]
    · exact ⟨hstate, hother, hports, harrs⟩
    · rw [portGet, hports, ← portGet]
      rcases hpower with h | h <;> simp [h]

theorem memberSet_sets {fb : Bool} {p : Pkt} {q : Fin 8} {m : Fin 128} {st : MState} {s : State} (hw : forWorker p s)
    (h : inOrder fb 0x0B p s) (hq : q = fin8 ((flit p 0).extractLsb' 4 3).toNat) (hm : m = ownMember q s)
    (hst : st = mstateOf ((flit p 0).extractLsb' 0 4).toNat) (hpower : (portGet q s).powered = false ∨ st.poweredOn = true) :
    reaches (.memberSet fb p) s fun t => (memGet m t).state = st ∧ (∀ k, k ≠ m → memGet k t = memGet k s) ∧
      t.members.ports = s.members.ports ∧ t.arrs = s.arrs := by
  have hmembers : (accepted fb s).members = s.members := by rw [accepted_writes]
  have harrs : (accepted fb s).arrs = s.arrs := by rw [accepted_writes]
  have hm' : m = ownMember q (accepted fb s) := by rw [hm, ownMember, ownMember, node_accepted]
  obtain ⟨h1, h2, h3, h4⟩ := setIn_sets (s := accepted fb s) hq hm' hst
    (by rw [portGet, hmembers]; exact hpower)
  refine ⟨_, received_onWorker hw h _, ?_, fun k hk => ?_, ?_, ?_⟩
  · rw [memGet_congr (h := creditBack_members ..)]
    exact h1
  · rw [memGet_congr (h := creditBack_members ..), h2 k hk]
    exact memGet_congr (h := hmembers) ..
  · rw [creditBack_members, h3, hmembers]
  · rw [creditBack_arrs, h4, harrs]

/-! ## POWER_ORDER (R95) -/

/-- A power order that changes the power state alone. -/
theorem accepted_power (fb : Bool) (ch : Fin 3) (n : Nat) (s : State) (x : Power) :
    (creditBack fb ch n (accepted fb { s with power := x })).power = x :=
  (creditBack_power ..).trans (by cases fb <;> rfl)

theorem orderIn_code {p : Pkt} {z : Sleep}
    (hz : z = .doze ∧ (flit p 0).extractLsb' 0 2 = 2 ∨ z = .standby ∧ (flit p 0).extractLsb' 0 2 = 3) (s : State) :
    orderIn p s = orderAck { s with power := { s.power with orderDue := some z } } := by
  have hbits : dbits (flit p 0) 1 0 = ((flit p 0).extractLsb' 0 2).toNat := by simp [dbits]
  rcases hz with ⟨rfl, hcode⟩ | ⟨rfl, hcode⟩ <;> simp only [orderIn, hbits, hcode] <;> rfl

/-- A worker that serves nothing acknowledges its order at once. -/
def orderTaken (z : Sleep) (s : State) : State :=
  { s with power := { s.power with ordered := some z, orderDue := none } }

theorem powerOrder_orders {fb : Bool} {p : Pkt} {z : Sleep} {s : State} (hw : forWorker p s) (h : inOrder fb 0x0C p s)
    (hz : z = .doze ∧ (flit p 0).extractLsb' 0 2 = 2 ∨ z = .standby ∧ (flit p 0).extractLsb' 0 2 = 3) :
    reaches (.powerOrder fb p) s fun t =>
      t = { s with power := t.power, ring := t.ring, log := t.log, ledger := t.ledger } ∧
      (s.ring.served = [] → t.power = { s.power with ordered := some z, orderDue := none } ∧
        ((rport (upPort s) s).link = .up →
          sentOn (upPort s) 0x0D (fun x => x.dst = 0 ∧ x.src = s.ident.node) t)) ∧
      (s.ring.served ≠ [] → t.power = { s.power with orderDue := some z } ∧
        t = creditBack fb p.ch p.flits.length (accepted fb { s with power := t.power })) := by
  have hexec := received_onWorker hw h (orderIn p)
  have hserved : (accepted fb s).ring.served = s.ring.served := by rw [accepted_ring]
  have hpower : (accepted fb s).power = s.power := by rw [accepted_writes]
  rw [orderIn_code hz] at hexec
  by_cases hs : s.ring.served = []
  · have hack : orderAck { accepted fb s with power := { (accepted fb s).power with orderDue := some z } } =
        sendUp 0x0D 0 0 0 [] (orderTaken z (accepted fb s)) := by
      simp only [orderAck, hserved, hs, List.isEmpty_nil, if_true]
      rfl
    rw [hack] at hexec
    refine ⟨_, hexec, ?_, fun _ => ⟨?_, fun hup => sentOn_of_idle (creditBack_idle ..) ?_⟩, fun hne => absurd hs hne⟩
    · apply State.ext <;> simp [orderTaken, accepted]
    · rw [creditBack_power]
      refine (sendUp_power ..).trans ?_
      rw [orderTaken, hpower]
    · have hport : upPort (orderTaken z (accepted fb s)) = upPort s := upPort_accepted fb s
      have hlink : (rport (upPort s) (orderTaken z (accepted fb s))).link = .up := (link_accepted ..).trans hup
      have hident : (orderTaken z (accepted fb s)).ident = s.ident := node_accepted fb s
      have hsent := sendUp_sentOn (s := orderTaken z (accepted fb s)) (by rw [hport]; exact hlink) 0x0D 0 0 0 [] false
        (f := fun x => x.dst = 0 ∧ x.src = (orderTaken z (accepted fb s)).ident.node) fun _ => ⟨rfl, rfl⟩
      rw [hport, hident] at hsent
      exact hsent
  · have hwait : orderAck { accepted fb s with power := { (accepted fb s).power with orderDue := some z } } =
        accepted fb { s with power := { s.power with orderDue := some z } } := by
      have hne : s.ring.served.isEmpty = false := by simpa using hs
      simp only [orderAck, hserved, hne, Bool.false_eq_true, if_false]
      cases fb <;> rfl
    rw [hwait] at hexec
    refine ⟨_, hexec, ?_, fun he => absurd he hs, fun _ => ⟨accepted_power .., ?_⟩⟩
    · apply State.ext <;> simp [accepted]
    · rw [accepted_power]

theorem powerOrder_forgets {fb : Bool} {p : Pkt} {s : State} (hw : forWorker p s) (h : inOrder fb 0x0C p s)
    (hcode : (flit p 0).extractLsb' 0 2 = 0) : reaches (.powerOrder fb p) s fun t =>
      t.power = { s.power with ordered := none, orderDue := none } ∧
      t = creditBack fb p.ch p.flits.length (accepted fb { s with power := t.power }) := by
  have hexec := received_onWorker hw h (orderIn p)
  have hbits : dbits (flit p 0) 1 0 = 0 := by
    have hzero : ((flit p 0).extractLsb' 0 2).toNat = 0 := by rw [hcode]; rfl
    simpa [dbits] using hzero
  have hforgets : orderIn p (accepted fb s) =
      accepted fb { s with power := { s.power with ordered := none, orderDue := none } } := by
    simp only [orderIn, hbits]
    cases fb <;> rfl
  rw [hforgets] at hexec
  exact ⟨_, hexec, accepted_power .., by rw [accepted_power]⟩

/-! ## Forwarded entries and identities that have been committed (R170, R449, R485) -/

/-- What follows the change of an NV commit leaves the ring, the referee, a worker's identity, and each member's
configuration and state. -/
def Written (s t : State) : Prop :=
  t.ring = s.ring ∧ t.referee = s.referee ∧ isManager t = isManager s ∧ (isManager s = false → t.ident = s.ident) ∧
    ∀ m, (memGet m t).cfg = (memGet m s).cfg ∧ (memGet m t).state = (memGet m s).state

theorem Written.refl (s : State) : Written s s := ⟨rfl, rfl, rfl, fun _ => rfl, fun _ => ⟨rfl, rfl⟩⟩
theorem Written.trans {s t u : State} (h : Written s t) (k : Written t u) : Written s u :=
  ⟨k.1.trans h.1, k.2.1.trans h.2.1, k.2.2.1.trans h.2.2.1,
    fun hm => (k.2.2.2.1 (h.2.2.1.trans hm)).trans (h.2.2.2.1 hm),
    fun m => ⟨(k.2.2.2.2 m).1.trans (h.2.2.2.2 m).1, (k.2.2.2.2 m).2.trans (h.2.2.2.2 m).2⟩⟩

theorem foldl_written {α : Type} (g : State → α → State) (h : ∀ s a, Written s (g s a)) (l : List α) (s : State) :
    Written s (l.foldl g s) :=
  List.foldlRecOn (motive := Written s) l g (.refl s) fun u hu a _ => hu.trans (h u a)

/-- A step outside the members, the ring, the referee and the identity. -/
theorem Written.of_same {s t : State} (h : t.ring = s.ring ∧ t.referee = s.referee ∧ t.restart = s.restart ∧
    t.ident = s.ident ∧ t.members = s.members) : Written s t := by
  obtain ⟨hring, href, hrestart, hident, hmembers⟩ := h
  refine ⟨hring, href, by rw [isManager, hrestart, ← isManager], fun _ => hident, fun m => ?_⟩
  rw [memGet_congr (h := hmembers)]
  exact ⟨rfl, rfl⟩

theorem nvWrite_written (s : State) : Written s (nvWrite s) := ⟨rfl, rfl, rfl, fun _ => rfl, fun _ => ⟨rfl, rfl⟩⟩

theorem refreshArray_written (a : Fin 4) (s : State) : Written s (refreshArray a s) := by
  refine foldl_written _ (fun u r => ?_) _ s
  dsimp only
  split
  · refine ⟨rfl, rfl, rfl, fun _ => rfl, fun m => ?_⟩
    rw [memGet_memPut]
    split
    next hm => exact hm ▸ ⟨rfl, rfl⟩
    · exact ⟨rfl, rfl⟩
  · exact .refl u

theorem refreshChanged_written (old : Vector Arr 4 × Vector Vol 64) (s : State) : Written s (refreshChanged old s) := by
  refine foldl_written _ (fun u a => ?_) _ s
  dsimp only
  split
  · exact refreshArray_written a u
  · exact .refl u

theorem progReq_written (o : ProgOp) (s : State) : Written s (progReq o s) := .of_same (by simp)

theorem wordsAsk_written (s : State) : Written s (wordsAsk s) := by
  refine foldl_written _ (fun u x => ?_) _ s
  obtain ⟨i, r⟩ := x
  dsimp only
  split
  · exact .refl u
  · split
    · exact progReq_written ..
    · split
      · exact progReq_written ..
      · exact .refl u

theorem nvCommit_written (c : NvChange) (s : State) : Written s (nvCommit c s) := by
  simp only [nvCommit]
  split
  · exact .refl s
  · refine Written.trans (t := fabricMake s) ?_ (Written.trans (.of_same ⟨rfl, rfl, rfl, rfl, rfl⟩) (progReq_written ..))
    refine ⟨by simp, by simp, ?_, fun hm => ?_, fun m => ?_⟩
    · rw [isManager, fabricMake_restart, ← isManager]
    · exact congrArg State.ident (if_neg (by simp [hm]))
    · rw [memGet_congr (h := fabricMake_members s)]
      exact ⟨rfl, rfl⟩

theorem genNext_written (a : Fin 4) (s : State) : Written s (genNext a s) := by
  simp only [genNext]
  split <;> exact .of_same (by simp)

theorem advancesDue_written (s : State) : Written s (advancesDue s) := by
  refine foldl_written _ (fun u a => ?_) _ s
  split
  · exact (genNext_written a u).trans (nvCommit_written ..)
  · exact .refl u

/-- The state in which the change of the commit at the head is made. -/
def committing (rest : List NvChange) (s : State) : State := progNext { s with nv := { s.nv with commits := rest } }

/-- An NV commit of a worker that ends well: its change, and what leaves the change as it is. -/
theorem nvCommitDone_worker {s : State} {c : NvChange} {rest : List NvChange} {ops : List ProgOp}
    (hprog : s.nv.prog = .nv :: ops) (hcommits : s.nv.commits = c :: rest)
    (hm : isManager (nvChange c (committing rest s)) = false) :
    Written (nvChange c (committing rest s)) (nvCommitDone true s) := by
  rw [nvCommitDone_eq (by rw [hprog]; rfl) hcommits]
  have hchanged : changed rest c s = nvChange c (committing rest s) := if_pos (by exact congrArg not hm)
  rw [hchanged]
  exact (nvWrite_written _).trans ((refreshChanged_written ..).trans ((wordsAsk_written _).trans (advancesDue_written _)))

theorem reaches_nvCommitDone {s : State} (hrun : running s = true) {Q : State → Prop} (h : Q (nvCommitDone true s)) :
    reaches (.nvCommitDone true) s Q := ⟨_, congrArg Host.Outcome.next (if_pos hrun), h⟩

theorem fwdReferee_applies {s : State} {e : Nat} {w : List Word} {rest : List NvChange} {ops : List ProgOp}
    (hrun : running s = true) (hm : isManager s = false) (hprog : s.nv.prog = .nv :: ops)
    (hcommits : s.nv.commits = .fwd 0x0D e w :: rest) :
    reaches (.nvCommitDone true) s fun t => t.referee.cfg = s.referee.cfg.put e w :=
  reaches_nvCommitDone hrun (congrArg Referee.cfg (nvCommitDone_worker hprog hcommits hm).2.1)

theorem fwdMember_applies {s : State} {e : Nat} {w : List Word} {rest : List NvChange} {ops : List ProgOp}
    (hrun : running s = true) (hm : isManager s = false) (hprog : s.nv.prog = .nv :: ops)
    (hcommits : s.nv.commits = .fwd 0x01 e w :: rest) {m : Fin 128} (hown : m = ownMember (fin8 e) s) :
    reaches (.nvCommitDone true) s fun t =>
      (memGet m t).cfg = memberCfgOf (wordAt w 0) ∧ (memGet m t).state = (memGet m s).state ∧ t.referee = s.referee := by
  have hput (u : State) : memberReport (fin8 e) u = { u with
      ring := (memberReport (fin8 e) u).ring, log := (memberReport (fin8 e) u).log
      ledger := (memberReport (fin8 e) u).ledger } := by
    apply State.ext <;> simp
  have hmembers (u : State) : (memberReport (fin8 e) u).members = u.members := by rw [hput]
  have hmanager : isManager (nvChange (.fwd 0x01 e w) (committing rest s)) = false :=
    (isManager_congr (hput _)).trans hm
  obtain ⟨-, href, -, -, hmem⟩ := nvCommitDone_worker hprog hcommits hmanager
  have hset : memGet m (nvChange (.fwd 0x01 e w) (committing rest s)) = { memGet m s with cfg := memberCfgOf (wordAt w 0) } := by
    refine (memGet_congr (h := hmembers _) ..).trans ?_
    rw [hown]
    exact memGet_memPut_same ..
  refine reaches_nvCommitDone hrun ⟨?_, ?_, ?_⟩
  · rw [(hmem m).1, hset]
  · rw [(hmem m).2, hset]
  · refine href.trans ((congrArg State.referee (hput _)).trans rfl)

/-- Steps that touch the members alone. -/
theorem foldl_membersOnly {α : Type} (g : State → α → State)
    (h : ∀ s a, g s a = { s with members := (g s a).members }) (l : List α) (s : State) :
    l.foldl g s = { s with members := (l.foldl g s).members } := by
  induction l generalizing s with
  | nil => rfl
  | cons a l ih => rw [List.foldl_cons, ih, h]

/-- The own entries of a worker, cleared and entered again under its new identity. -/
theorem identAssign_identified (f : Dword) (k : BitVec 4) (tag : Byte) (s : State) : ∃ u : State,
    identAssign f k tag s = sendUp 0x04 0 tag 0 [] u ∧ u.ident = { s.ident with fabricId := f, node := k } ∧
    u.ring = { s.ring with fabric := f } ∧ u.restart = s.restart := by
  refine ⟨_, rfl, ?_⟩
  have hclear := foldl_membersOnly (fun (s : State) (p : Fin 8) => memPut (ownMember p s) {} s) (fun _ _ => rfl)
    (List.finRange 8) s
  rw [foldl_membersOnly _ (fun _ _ => rfl), hclear]
  exact ⟨rfl, rfl, rfl⟩

theorem assign_applies {s : State} {f : Dword} {k : BitVec 4} {tag : Byte} {rest : List NvChange} {ops : List ProgOp}
    (hrun : running s = true) (hm : isManager s = false) (hprog : s.nv.prog = .nv :: ops)
    (hcommits : s.nv.commits = .assign f k tag :: rest) : reaches (.nvCommitDone true) s fun t =>
      t.ident.fabricId = f ∧ t.ident.node = k ∧
      ((rport (upPort s) s).link = .up → sentOn (upPort s) 0x04 (fun x => x.dst = 0 ∧ x.src = k ∧ x.tag = tag) t) := by
  obtain ⟨u, hassign, hident, hring, hrestart⟩ := identAssign_identified f k tag (committing rest s)
  have hsent : (sendUp 0x04 0 tag 0 [] u).restart = u.restart ∧ (sendUp 0x04 0 tag 0 [] u).ident = u.ident := by simp
  have hmanager : isManager (nvChange (.assign f k tag) (committing rest s)) = false := by
    have hrestart' : (identAssign f k tag (committing rest s)).restart = s.restart := by
      rw [hassign, hsent.1, hrestart]
      rfl
    refine Eq.trans ?_ hm
    rw [isManager, isManager, ← hrestart']
    rfl
  obtain ⟨wring, -, -, wident, -⟩ := nvCommitDone_worker hprog hcommits hmanager
  have hident' : (nvCommitDone true s).ident = { s.ident with fabricId := f, node := k } := by
    refine (wident hmanager).trans ((congrArg State.ident hassign).trans (hsent.2.trans hident))
  refine reaches_nvCommitDone hrun ⟨by rw [hident'], by rw [hident'], fun hup => ?_⟩
  have hport : upPort u = upPort s := by
    rw [upPort, hring]
    rfl
  have hlink : (rport (upPort s) u).link = .up := by
    rw [← hup, rport, rport, hring]
    rfl
  have hstands := sendUp_sentOn (s := u) (by rw [hport]; exact hlink) 0x04 0 tag 0 [] false
    (f := fun x => x.dst = 0 ∧ x.src = k ∧ x.tag = tag) fun _ => ⟨rfl, congrArg Ident.node hident, rfl⟩
  rw [hport, ← hassign] at hstands
  exact sentOn_of_idle (.of_ring wring) hstands

/-! ## The report timer (R491) -/

theorem standing_sends {fb b : Bool} {x : Packet} {s : State} (h : standing fb x s) (y : Packet) :
    standing fb x (ringSend b y s) := by
  by_cases hup : (rport b s).link = .up
  · simp only [ringSend, hup, beq_self_eq_true, if_true]
    by_cases hb : fb = b
    · subst hb
      refine standing_pump _ _ _ _ ?_
      rw [standing, rport_rportPut_same]
      exact h.imp (fun hout => List.mem_append_left _ hout) id
    · exact standing_of_idle ((rportPut_idle hb ..).trans (pump_idle hb ..)) h
  · rw [ringSend_down b y s hup]
    exact standing_of_idle (.of_ring rfl) h

theorem reportFlits_length (m : Member) (n : Nat) : (reportFlits m n).length = 16 := by simp [reportFlits]

/-- A report of port q. -/
def ReportOf (q : Fin 8) (x : Pkt) : Prop := x.arg = BitVec.ofNat 16 q.val ∧ x.flits.length = 16

/-- The packet of a report. -/
def reportPkt (q : Fin 8) (s : State) : Packet :=
  ⟨0x0A, upPkt 0 0 (BitVec.ofNat 16 q.val) (reportFlits (memGet (ownMember q s) s) (slotsHeld q s)) s, false, none⟩

/-- Every report that goes out stands at the port toward the manager. -/
theorem foldl_memberReport {l : List (Fin 8)} {s : State} (hup : (rport (upPort s) s).link = .up) :
    (∀ x, standing (upPort s) x s → standing (upPort s) x (l.foldl (fun s p => memberReport p s) s)) ∧
    ∀ q ∈ l, sentOn (upPort s) 0x0A (ReportOf q) (l.foldl (fun s p => memberReport p s) s) := by
  induction l generalizing s with
  | nil => exact ⟨fun x h => h, nofun⟩
  | cons p l ih =>
    have hquiet : ringQuiet s (memberReport p s) := ringQuiet_sendUp ..
    have hport : upPort (memberReport p s) = upPort s := by rw [upPort, hquiet.1, ← upPort]
    obtain ⟨hkeeps, hall⟩ := ih (s := memberReport p s) (by rw [hport, hquiet.link]; exact hup)
    rw [hport] at hkeeps hall
    refine ⟨fun x h => hkeeps x (standing_sends h _), fun q hq => ?_⟩
    rcases List.mem_cons.mp hq with rfl | hq
    · have hsent := standing_ringSend (upPort s) (reportPkt q s) s hup
      exact (hkeeps _ hsent).sentOn (x := reportPkt q s) fun n => ⟨rfl, reportFlits_length ..⟩
    · exact hall q hq

theorem memberReport_sends (p : Fin 8) (s : State) : Sends s (memberReport p s) :=
  ⟨ringQuiet_sendUp .., by apply State.ext <;> simp⟩

theorem memberReportTimer_reports {s : State} (hu : unitsRun s = true) (hm : isManager s = false) :
    reaches .memberReportTimer s fun t =>
      t = { s with ring := t.ring, log := t.log, ledger := t.ledger } ∧ t.ring.changed = 0 ∧
      ((rport (upPort s) s).link = .up → ∀ q : Fin 8, s.ring.changed.getLsbD q.val = true →
        sentOn (upPort s) 0x0A (fun x => x.arg = BitVec.ofNat 16 q.val ∧ x.flits.length = 16) t) := by
  obtain ⟨hquiet, hwrites⟩ := foldl_sends _ (fun s p => memberReport_sends p s)
    ((List.finRange 8).filter fun p => s.ring.changed.getLsbD p.val) { s with ring := { s.ring with changed := 0 } }
  refine ⟨_, congrArg Host.Outcome.next (if_pos (by simp [hu, hm])), hwrites, ?_, fun hup q hq => ?_⟩
  · rw [hquiet.1]
  · exact (foldl_memberReport (s := { s with ring := { s.ring with changed := 0 } }) hup).2 q
      (List.mem_filter.mpr ⟨List.mem_finRange q, hq⟩)

/-! ## Forwarded log records (R566) -/

theorem leBytes_length (n x : Nat) : (leBytes n x).length = n := by
  induction n generalizing x with
  | zero => rfl
  | succ n ih => rw [leBytes, List.length_cons, ih]

theorem leBytes_getD {n i : Nat} (h : i < n) (x : Nat) : (leBytes n x).getD i 0 = BitVec.ofNat 8 (x / 256 ^ i) := by
  induction n generalizing i x with
  | zero => omega
  | succ n ih =>
    cases i with
    | zero => simp [leBytes]
    | succ i =>
      rw [leBytes, List.getD_cons_succ, ih (by omega), Nat.div_div_eq_div_mul, ← Nat.pow_succ']

theorem dword_byte {i : Nat} (h : i < 8) (d : Dword) : (leBytes 8 d.toNat).getD i 0 = d.extractLsb' (8 * i) 8 := by
  rw [leBytes_getD h]
  apply BitVec.eq_of_toNat_eq
  rw [BitVec.toNat_ofNat, BitVec.extractLsb'_toNat, Nat.shiftRight_eq_div_pow, Nat.pow_mul]

/-- The bytes of a packet's flits, flit by flit. -/
def wireBytes (l : List Dword) : List Byte := l.flatMap fun d => leBytes 8 d.toNat

theorem wireBytes_getD {l : List Dword} {j i : Nat} (hj : j < l.length) (hi : i < 8) :
    (wireBytes l).getD (8 * j + i) 0 = (l.getD j 0).extractLsb' (8 * i) 8 := by
  induction l generalizing j with
  | nil => exact absurd hj (Nat.not_lt_zero j)
  | cons d l ih =>
    have hlen := leBytes_length 8 d.toNat
    rw [wireBytes, List.flatMap_cons]
    cases j with
    | zero =>
      rw [List.getD_append _ _ _ _ (by omega), Nat.mul_zero, Nat.zero_add, dword_byte hi, List.getD_cons_zero]
    | succ j =>
      rw [List.getD_append_right _ _ _ _ (by omega), hlen, show 8 * (j + 1) + i - 8 = 8 * j + i by omega,
        List.getD_cons_succ]
      exact ih (by simpa using hj)

/-- The record that a LOG_FWD carries. -/
def recordOf (p : Pkt) : LogRec :=
  let l := wireBytes p.flits
  let b := (l.getD 1 0).toNat
  ⟨l.getD 0 0, logClassOf (b % 8), false, BitVec.ofNat 4 (b / 16), 0, BitVec.ofNat 32 (leField l 4 4), takeAt l 8 22⟩

theorem recordOf_reads {p : Pkt} (h : p.flits.length = 4) :
    (recordOf p).code = (flit p 0).extractLsb' 0 8 ∧ (recordOf p).node = (flit p 0).extractLsb' 12 4 ∧
    (recordOf p).tick = (flit p 0).extractLsb' 32 32 ∧ (recordOf p).cls = logClassOf ((flit p 0).extractLsb' 8 3).toNat ∧
    ∀ n < 22, (recordOf p).args.getD n 0 = (flit p (1 + n / 8)).extractLsb' (8 * (n % 8)) 8 := by
  have hbyte (j i : Nat) (hj : j < 4) (hi : i < 8) :
      (wireBytes p.flits).getD (8 * j + i) 0 = (flit p j).extractLsb' (8 * i) 8 := wireBytes_getD (by omega) hi
  have hcode : (wireBytes p.flits).getD 0 0 = (flit p 0).extractLsb' 0 8 := hbyte 0 0 (by decide) (by decide)
  have hclass : ((wireBytes p.flits).getD 1 0).toNat = (flit p 0).toNat / 256 % 256 := by
    rw [hbyte 0 1 (by decide) (by decide), BitVec.extractLsb'_toNat, Nat.shiftRight_eq_div_pow]
  refine ⟨hcode, ?_, ?_, ?_, fun n hn => ?_⟩
  · apply BitVec.eq_of_toNat_eq
    simp only [recordOf, hclass, BitVec.toNat_ofNat, BitVec.extractLsb'_toNat, Nat.shiftRight_eq_div_pow]
    omega
  · have hfield : leField (wireBytes p.flits) 4 4 = (flit p 0).toNat / 2 ^ 32 % 2 ^ 32 := by
      have h4 := hbyte 0 4 (by decide) (by decide)
      have h5 := hbyte 0 5 (by decide) (by decide)
      have h6 := hbyte 0 6 (by decide) (by decide)
      have h7 := hbyte 0 7 (by decide) (by decide)
      simp only [leField, takeAt, List.range_succ, List.range_zero, List.nil_append, List.cons_append, List.map_cons,
        List.map_nil, leNat, Nat.mul_zero, Nat.zero_add] at *
      simp only [h4, h5, h6, h7, BitVec.extractLsb'_toNat, Nat.shiftRight_eq_div_pow]
      omega
    apply BitVec.eq_of_toNat_eq
    simp only [recordOf, hfield, BitVec.toNat_ofNat, BitVec.extractLsb'_toNat, Nat.shiftRight_eq_div_pow]
    omega
  · simp only [recordOf, hclass, BitVec.extractLsb'_toNat, Nat.shiftRight_eq_div_pow]
    congr 1
    omega
  · have hget : (takeAt (wireBytes p.flits) 8 22).getD n 0 = (wireBytes p.flits).getD (8 + n) 0 := by
      simp [takeAt, List.getD, hn]
    rw [recordOf]
    refine hget.trans ?_
    rw [show 8 + n = 8 * (1 + n / 8) + n % 8 by omega]
    exact hbyte _ _ (by omega) (by omega)

theorem logPush_takes (r : LogRec) (l : Log) :
    (logPush r l).recs.head? = some { r with seq := l.seqNext } ∧ (logPush r l).seqNext = l.seqNext + 1 := by
  simp only [logPush]
  split <;> exact ⟨rfl, rfl⟩

/-- The sums of a record leave the records themselves. -/
theorem logSums_keeps (code : Byte) (cls : LogClass) (s : State) :
    logSums code cls false none s = { s with log := (logSums code cls false none s).log } ∧
    (logSums code cls false none s).log.recs = s.log.recs ∧
    (logSums code cls false none s).log.seqNext = s.log.seqNext := by
  cases cls <;> exact ⟨rfl, rfl, rfl⟩

theorem logIn_eq (p : Pkt) (s : State) : logIn p s = logSums (recordOf p).code (recordOf p).cls false none
    { counterInc 0 s with log := logPush (recordOf p) (counterInc 0 s).log } := rfl

theorem logFwd_enters {fb : Bool} {p : Pkt} {s : State} (hm : isManager s = true) (h : inOrder fb 0x0E p s) :
    reaches (.logFwd fb p) s fun t => t = { s with log := t.log, ring := t.ring } ∧
      ∃ x, t.log.recs.head? = some x ∧ x.code = (flit p 0).extractLsb' 0 8 ∧ x.bb = false ∧
        x.node = (flit p 0).extractLsb' 12 4 ∧ x.seq = s.log.seqNext ∧ x.tick = (flit p 0).extractLsb' 32 32 ∧
        t.log.seqNext = s.log.seqNext + 1 ∧
        x.cls = logClassOf ((flit p 0).extractLsb' 8 3).toNat ∧
        (∀ n < 22, x.args.getD n 0 = (flit p (1 + n / 8)).extractLsb' (8 * (n % 8)) 8) := by
  have hlen : p.flits.length = 4 := by simpa [lenOk] using h.2.2.2
  obtain ⟨hcode, hnode, htick, hcls, hargs⟩ := recordOf_reads hlen
  obtain ⟨hsums, hrecs, hnext⟩ := logSums_keeps (recordOf p).code (recordOf p).cls
    { counterInc 0 (accepted fb s) with log := logPush (recordOf p) (counterInc 0 (accepted fb s)).log }
  obtain ⟨hhead, hseq⟩ := logPush_takes (recordOf p) (counterInc 0 (accepted fb s)).log
  have hlog : (counterInc 0 (accepted fb s)).log.seqNext = s.log.seqNext := by rw [accepted_writes]; rfl
  rw [hlog] at hhead hseq
  have hexec := received_onManager hm h (logIn p)
  rw [logIn_eq] at hexec
  refine ⟨_, hexec, ?_, { recordOf p with seq := s.log.seqNext }, ?_, hcode, rfl, hnode, rfl, htick, ?_, hcls, hargs⟩
  · rw [creditBack_writes, hsums]
    apply State.ext <;> simp [accepted]
  · rw [creditBack_log, hrecs]
    exact hhead
  · rw [creditBack_log, hnext]
    exact hseq

/-! ## Reports that the manager takes (R491) -/

/-- The words of a report enter the entry and leave its state. -/
theorem reportEntry_enters (m : Fin 128) (w : List Word) (sig : Option Sig) (s : State) :
    reportEntry m w sig s = { s with members := (reportEntry m w sig s).members } ∧
    (memGet m (reportEntry m w sig s)).state = (memGet m s).state ∧
    (memGet m (reportEntry m w sig s)).cfg = memberCfgOf (wordAt w 0) ∧
    (memGet m (reportEntry m w sig s)).capacity = wordAt w 5 ++ wordAt w 4 ∧
    (memGet m (reportEntry m w sig s)).linkErrs = wordAt w 8 ∧
    (memGet m (reportEntry m w sig s)).ops = wordAt w 13 ++ wordAt w 12 ∧
    ∀ k, k ≠ m → memGet k (reportEntry m w sig s) = memGet k s := by
  refine ⟨rfl, ?_, ?_, ?_, ?_, ?_, fun k hk => memGet_memPut_ne (h := hk.symm) ..⟩ <;>
    rw [reportEntry, memGet_memPut_same]

/-- A report of the state that the entry already shows changes no state. -/
theorem reportState_same {m : Fin 128} {r : MState} {s : State} (hsame : r = (memGet m s).state) (hprobing : r ≠ .probing)
    (hfresh : freshDue m s = false ∨ r = .failed) (ident : Bool) (cause : Byte) : reportState m r ident cause s = s := by
  have hlive (hr : r ≠ .failed) : freshDue m s = false := hfresh.resolve_right hr
  simp only [reportState, ← hsame, beq_self_eq_true, Bool.true_or, if_true]
  cases r with
  | probing => exact absurd rfl hprobing
  | active => rw [hlive nofun]; rfl
  | bench => rw [hlive nofun]; rfl
  | blank => rw [hlive nofun]; rfl
  | foreign => rw [hlive nofun]; rfl
  | stale => rw [hlive nofun]; rfl
  | absent => rfl
  | missing => rfl
  | failed => rfl
  | retired => rfl

/-- A report of a failed card that no array holds. -/
theorem reportState_failed {m : Fin 128} {s : State} (hnew : (memGet m s).state ≠ .failed) (hrole : roleOf m s = none)
    (ident : Bool) (cause : Byte) : reportState m .failed ident cause s = memEnter m .failed cause s := by
  have hcur : ((memGet m s).state == MState.failed) = false := beq_false_of_ne hnew
  simp [reportState, hcur, hrole]

/-- The words of a report, its member and what it shows. -/
theorem reportIn_eq {p : Pkt} {m : Fin 128} {w : List Word} (hm : m = Fin.ofNat 128 (8 * p.src.toNat + p.arg.toNat % 8))
    (hw : w = (p.flits.take 8).flatMap lowHigh) (s : State) : ∃ sig ident,
    reportIn p s = reportState m (mstateOf (bits (wordAt w 1) 31 28)) ident ((wordAt w 1).extractLsb' 8 8)
      (reportEntry m w sig s) := by
  subst hm hw
  exact ⟨_, _, rfl⟩

theorem execMemberReport_eq {fb : Bool} {p : Pkt} {s : State} (hm : isManager s = true) (h : inOrder fb 0x0A p s)
    (hsrc : p.src ≠ 0) : exec (.memberReport fb p) s =
      .next (creditBack fb p.ch p.flits.length (reportIn p (accepted fb s))) := by
  refine (received_onManager hm h _).trans (congrArg (Host.Outcome.next <| creditBack fb p.ch p.flits.length ·) ?_)
  exact if_neg (by simpa using hsrc)

theorem memGet_accepted (fb : Bool) (m : Fin 128) (s : State) : memGet m (accepted fb s) = memGet m s := by
  rw [accepted_writes]
  rfl

theorem memberReport_keeps {fb : Bool} {p : Pkt} {m : Fin 128} {w : List Word} {s : State} (hm : isManager s = true)
    (h : inOrder fb 0x0A p s) (hsrc : p.src ≠ 0) (hindex : m = Fin.ofNat 128 (8 * p.src.toNat + p.arg.toNat % 8))
    (hw : w = (p.flits.take 8).flatMap lowHigh) (hprobing : mstateOf (bits (wordAt w 1) 31 28) ≠ .probing)
    (hfresh : freshDue m s = false ∨ mstateOf (bits (wordAt w 1) 31 28) = .failed)
    (hsame : mstateOf (bits (wordAt w 1) 31 28) = (memGet m s).state) : reaches (.memberReport fb p) s fun t =>
      t = { s with members := t.members, ring := t.ring } ∧ (memGet m t).state = (memGet m s).state ∧
      (memGet m t).cfg = memberCfgOf (wordAt w 0) ∧ (memGet m t).capacity = wordAt w 5 ++ wordAt w 4 ∧
      (memGet m t).linkErrs = wordAt w 8 ∧ (memGet m t).ops = wordAt w 13 ++ wordAt w 12 ∧
      (∀ k, k ≠ m → memGet k t = memGet k s) := by
  obtain ⟨sig, ident, heq⟩ := reportIn_eq hindex hw (accepted fb s)
  obtain ⟨hwrites, hstate, hcfg, hcap, herrs, hops, hother⟩ := reportEntry_enters m w sig (accepted fb s)
  have hfresh' : freshDue m (reportEntry m w sig (accepted fb s)) = freshDue m s := by
    rw [hwrites, freshDue, accepted_ring]
    rfl
  have hexec := execMemberReport_eq hm h hsrc
  rw [heq, reportState_same (by rw [hstate, memGet_accepted]; exact hsame) hprobing (by rw [hfresh']; exact hfresh)] at hexec
  have hmem (k : Fin 128) := memGet_congr (h := creditBack_members fb p.ch p.flits.length
    (reportEntry m w sig (accepted fb s))) (m := k)
  refine ⟨_, hexec, ?_, ?_, ?_, ?_, ?_, ?_, fun k hk => ?_⟩
  · rw [creditBack_writes, hwrites, accepted_writes]
  · rw [hmem, hstate, memGet_accepted]
  · rw [hmem, hcfg]
  · rw [hmem, hcap]
  · rw [hmem, herrs]
  · rw [hmem, hops]
  · rw [hmem, hother k hk, memGet_accepted]

theorem memberReport_fails {fb : Bool} {p : Pkt} {m : Fin 128} {w : List Word} {s : State} (hm : isManager s = true)
    (h : inOrder fb 0x0A p s) (hsrc : p.src ≠ 0) (hindex : m = Fin.ofNat 128 (8 * p.src.toNat + p.arg.toNat % 8))
    (hw : w = (p.flits.take 8).flatMap lowHigh) (hfailed : mstateOf (bits (wordAt w 1) 31 28) = .failed)
    (hnew : (memGet m s).state ≠ .failed) (hrole : roleOf m s = none) : reaches (.memberReport fb p) s fun t =>
      (memGet m t).state = .failed ∧ (memGet m t).lastChange = (wordAt w 1).extractLsb' 8 8 ∧
      (∀ k, k ≠ m → memGet k t = memGet k s) ∧ t.arrs = s.arrs := by
  obtain ⟨sig, ident, heq⟩ := reportIn_eq hindex hw (accepted fb s)
  obtain ⟨hwrites, hstate, -, -, -, -, hother⟩ := reportEntry_enters m w sig (accepted fb s)
  have harrs : (reportEntry m w sig (accepted fb s)).arrs = s.arrs := by rw [hwrites, accepted_writes]
  have hrole' : roleOf m (reportEntry m w sig (accepted fb s)) = none := by
    have harr (a : Fin 4) : arrGet a (reportEntry m w sig (accepted fb s)) = arrGet a s := by rw [arrGet, harrs, arrGet]
    simpa only [roleOf, harr] using hrole
  have hexec := execMemberReport_eq hm h hsrc
  rw [heq, hfailed, reportState_failed (by rw [hstate, memGet_accepted]; exact hnew) hrole'] at hexec
  generalize reportEntry m w sig (accepted fb s) = u at *
  have hmem (k : Fin 128) : memGet k (creditBack fb p.ch p.flits.length
      (memEnter m .failed ((wordAt w 1).extractLsb' 8 8) u)) = memGet k (memPut m { memGet m u with
        state := .failed, lastChange := (wordAt w 1).extractLsb' 8 8, changeTick := u.clk.tick.truncate 32 } u) :=
    (memGet_congr (h := creditBack_members ..) ..).trans (congrArg (·.get k) (memEnter_tbl ..))
  refine ⟨_, hexec, ?_, ?_, fun k hk => ?_, ?_⟩
  · rw [hmem, memGet_memPut_same]
  · rw [hmem, memGet_memPut_same]
  · rw [hmem, memGet_memPut_ne (h := hk.symm), hother k hk, memGet_accepted]
  · rw [creditBack_arrs, memEnter_arrs, harrs]

theorem powerAck_erases {fb : Bool} {p : Pkt} {s : State} (hm : isManager s = true) (h : inOrder fb 0x0D p s) :
    reaches (.powerAck fb p) s fun t => t = { s with power := t.power, ring := t.ring } ∧
      t.power = { s.power with ordersOut := s.power.ordersOut.erase p.src } := by
  have hpower : (accepted fb s).power = s.power := by rw [accepted_writes]
  refine ⟨_, received_onManager hm h _, ?_, ?_⟩
  · apply State.ext <;> simp [accepted]
  · refine (creditBack_power ..).trans ?_
    simp only [hpower]

/-- Settles O56: what the packets between a worker and its manager do where they arrive, and the reports that go out. -/
theorem reportsOrdersAndForwardedRecords : Obligations.ReportsOrdersAndForwardedRecords := by
  refine ⟨fun s fb p hw => ⟨fun h hlost => ⟨tableFwd_commits hw h hlost, tableFwd_ignores hw h⟩,
      fun h q m st hq hm hst => memberSet_sets hw h hq hm hst, fun h z => powerOrder_orders hw h,
      powerOrder_forgets hw⟩,
    fun s sp e w rest ops hrun hm hprog hcommits => ⟨?_, ?_⟩,
    fun s f k tag rest ops hrun hm hprog hcommits => assign_applies hrun hm hprog hcommits,
    fun s => memberReportTimer_reports, fun s fb p hm => ⟨fun h hsrc m w hindex hw hprobing hfresh => ⟨?_, ?_⟩,
      powerAck_erases hm, logFwd_enters hm⟩⟩
  · rintro rfl
    exact fwdReferee_applies hrun hm hprog hcommits
  · rintro rfl m hown
    exact fwdMember_applies hrun hm hprog hcommits hown
  · exact memberReport_keeps hm h hsrc hindex hw hprobing hfresh
  · exact memberReport_fails hm h hsrc hindex hw

end Sys2Proof.Machine
end
